-- ==== Sys2Proof/Word.lean ====
section
/-! DEFINITION. The word and byte types, and the shapes in which the spec's register tables are written down:
an access type (R7), a class (R9), a field's place and a register's row. -/
namespace Sys2Proof

/-- A register is 32 bits wide (R4). -/
abbrev Word := BitVec 32

/-- The smallest addressable unit of every memory of the device. -/
abbrev Byte := BitVec 8

namespace Machine

/-- The access types of R7. -/
inductive Access where
  | rw | ro | wo | w1c | rc
  deriving DecidableEq, Repr

/-- The field classes of R9: live, frame-latched, stopped-only. -/
inductive FieldClass where
  | l | f | s
  deriving DecidableEq, Repr

/-- Where a field lies: the BAR0 offset of its register for index 0, the stride between indices, the lowest bit
and the width. -/
structure Field where
  base : Nat
  stride : Nat
  lo : Nat
  width : Nat
  deriving DecidableEq, Repr

/-- One row of a register's table: lowest bit, width, access type, class and reset value. -/
structure FieldDesc where
  lo : Nat
  width : Nat
  access : Access
  cls : FieldClass
  reset : Nat
  deriving DecidableEq, Repr

/-- A register, or an array of registers: base offset, stride and count of the window it is repeated in, stride
and count inside the window, and its fields. -/
structure RegDesc where
  base : Nat
  strideA : Nat
  countA : Nat
  strideB : Nat
  countB : Nat
  fields : List FieldDesc
  deriving DecidableEq, Repr

end Machine

end Sys2Proof
end

