-- ==== Sys2Proof/Syntax.lean ====
section
/-! DEFINITION. The commands of the block, one constructor per row of spec/opcode_table.json, and the data they
carry: what the outside (a host, a core, a link, an endpoint, an engine, a sensor) supplies with the command. What the
machine's own state determines is no operand. -/
namespace Sys2Proof

/-- The initiators that read and write registers: the host through the HBR, the three management cores, and the
Byre supervisor (R425, R432). -/
inductive Initiator where
  | host | mc0 | mc1 | mc2 | supervisor
  deriving DecidableEq, Repr

/-- The configuration-space controls host software writes beside BAR0: Max_Payload_Size (R437) and the MSI-X message
control (R421). -/
inductive CfgWrite where
  | maxPayload (code : Nat)
  | msixControl (enable maskAll : Bool)
  deriving DecidableEq, Repr

/-- What a register or table-window write names: a BAR0 offset and the bytes written, or a configuration control. -/
inductive WriteReq where
  | bar0 (addr : Nat) (bytes : List Nat)
  | cfg (w : CfgWrite)
  deriving DecidableEq, Repr

/-- Who makes a transaction of the Bulk Tank (R446, R453): the DvoreLink dispatcher, a frame kernel, the calibration
accumulator, ingest receive, a direct-drive shifter, the patrol scrub, the host across BAR2, a management core,
calibration fitting, and live-update staging. -/
inductive MemOwner where
  | dispatcher | kernel | accumulator | ingest | shifter | scrub | host
  | core (n : Fin 3)
  | fitting | updateStaging
  deriving DecidableEq, Repr

/-- What ECC finds in a 32-byte half that is read (R441). -/
inductive HalfFault where
  | none | one | two | fold
  deriving DecidableEq, Repr

/-- A transaction that a client has for a channel of the Bulk Tank: its owner, for a frame kernel the engine and the ORDER of the
kind, how long it has waited in ns, its bytes within one 64-byte line, whether it writes, and what ECC finds in its first and
second half. -/
structure MemReq where
  owner : MemOwner
  kind : Option (Nat × Nat)
  wait : Nat
  addr : Nat
  len : Nat
  write : Bool
  first : HalfFault
  second : HalfFault
  deriving DecidableEq, Repr

/-- A command descriptor as the command unit reads it (R129). `reserved` gathers the reserved bytes of the
descriptor, as one number; `unreadable` says that the device could not read it (R451). -/
structure Desc where
  opcode : Nat
  flags : Nat
  tag : Nat
  handle : Nat
  set : Nat
  frame : Nat
  param : Nat
  len : Nat
  aux : Nat
  value : Nat
  reserved : Nat
  unreadable : Bool
  deriving DecidableEq, Repr

/-- The task descriptor of a task item (R402). -/
structure TaskDesc where
  kind : Nat
  flowed : Bool
  framed : Bool
  flow : Nat
  handle : Nat
  stateId : Nat
  frame : Nat
  unit : Nat
  deriving DecidableEq, Repr

/-- What an item used (R103, R109, R113): the clocks of its kind, per input port of its engine the 64-byte cells that it
has read from the stage switch, and per output port the cells that it sends. -/
structure ItemUse where
  clocks : Nat
  takes : List (Nat × Nat)
  gives : List (Nat × Nat)
  deriving DecidableEq, Repr

/-- A signature test of an engine (R115): the reference that the SPARE computed, and the engine's own signature. -/
structure TestRun where
  reference : Word
  signature : Word
  deriving DecidableEq, Repr

/-- The second run of a failed signature comparison (R116): whether the SPARE passes its ROM test, its second
reference and the engine's second signature. -/
structure SigRepeat where
  spareOk : Bool
  reference : Word
  signature : Word
  deriving DecidableEq, Repr

/-- One sample row data header of an ST 2110-20 packet and its samples (R150, R159). `field` is the field bit and
`offset` the pixel the row segment starts at. -/
structure Srd where
  field : Bool
  row : Nat
  offset : Nat
  data : List Nat
  deriving DecidableEq, Repr

/-- An ST 2110-20 packet. `seq` is the extended RTP sequence number. -/
structure RtpPacket where
  version : Nat
  ssrc : Nat
  seq : Nat
  timestamp : Nat
  marker : Bool
  srds : List Srd
  deriving DecidableEq, Repr

/-- A received Ethernet frame (R374): its bytes from the destination address through the FCS, whether the PCS met an
invalid block or an uncorrectable codeword within it, and the FEC codewords corrected and not corrected. -/
structure RxFrame where
  bytes : List Nat
  codeBad : Bool
  fecCorr : Nat
  fecUncorr : Nat
  deriving DecidableEq, Repr

/-- A JOIN record (R293). -/
structure JoinRec where
  serial : Nat
  model : Nat
  w : Nat
  h : Nat
  depthMax : Nat
  buffers : Nat
  caps : Nat
  proto : Nat
  fw : Nat
  deriving DecidableEq, Repr

/-- A record of a TELEMETRY frame (R295). -/
inductive TelemRec where
  | join (j : JoinRec)
  | status (shownSeq faults missed overflow reject epochDisc state ports : Nat)
  | temp (seq : Nat) (meas : Int)                       -- TB_MEAS in 1/16 °C
  | sensor (wno lr lg lb : Nat) (valid sat fail : Bool)
  | linkstat (fcs0 fcs1 crc : Nat)
  | other (type : Nat)
  deriving DecidableEq, Repr

/-- What a walk of a direct-drive port's pins finds (R344): the pin under test, and the pin that followed it with its
port, or that the pin itself is stuck. -/
structure PinFind where
  pinA : Nat
  pinB : Nat
  portB : Nat
  stuck : Bool
  deriving DecidableEq, Repr

/-- What one attempt to read a light sensor on a sense bus gives (R341). -/
inductive SenseRead where
  | nak
  | pec
  | report (wno lr lg lb : Nat) (valid sat fail : Bool)
  deriving DecidableEq, Repr

/-- What a mirror record carries (R472, R473): the Active's input as received, and any identity it assigned. -/
inductive Mirrored where
  | command (pail : Nat) (d : Desc) (result : Nat)                    -- a command and the RESULT assigned
  | register (addr value : Nat)                                       -- a host write to an L- or F-class field
  | mode (value : Nat)                                                -- a write of SYS_MODE_REQ
  | power (frame power cause : Nat)                                   -- Show or Hold taken of itself at S(frame) (R49, R55, R56)
  | job (value : Nat)                                                 -- writes of the load registers with GO
  | coefLoad (value : Nat)
  | curveLoad (value : Nat)
  | gainLoad (value : Nat)
  | modelLoad (value : Nat)
  | calCmd (value : Nat)
  | correction (zone frame : Nat) (entries : List (Nat × Nat × Nat × Nat))  -- kind, index, colour and gain
  | temperature (endpoint : Nat) (c : Rat)                            -- a telemetry correction (R252)
  | fit (endpoint : Nat) (sigma delta : Rat)                          -- a fit (R253)
  | beta (feed : Nat) (value : Rat)                                   -- a feed bias (R259)
  | step (frame : Nat) (offset : Int)                                 -- a step decision (R364)
  | marks (frame : Nat) (marks : List (Nat × Nat × Nat))              -- stream, mark and chosen timestamp or slot
  deriving DecidableEq, Repr

/-- The data set that an Announce message carries (IEEE 1588-2019). -/
structure MasterSet where
  gm : Nat                 -- grandmasterIdentity
  prio1 : Nat
  cls : Nat
  accuracy : Nat
  variance : Nat
  prio2 : Nat
  steps : Nat              -- stepsRemoved
  deriving DecidableEq, Repr


/-- The part of a received PTP message that depends on its type. Times are in units of 2^-16 ns from the PTP epoch. -/
inductive PtpBody where
  | announce (info : MasterSet)
  | sync (twoStep : Bool) (origin : Nat) (corr : Int)
  | followUp (origin : Nat) (corr : Int)
  | delayReq (corr : Int)
  | delayResp (receive : Nat) (corr : Int) (requester : Nat)
  | other
  deriving DecidableEq, Repr

/-- A received PTP message: its domain, sourcePortIdentity (ten octets as one number), the sender's IPv4 address and its
sequenceId. -/
structure PtpMessage where
  domain : Nat
  source : Nat
  ip : Nat
  seq : Nat
  body : PtpBody
  deriving DecidableEq, Repr

/-- A heartbeat of the partner with a valid CRC (R465, R467). `node` and the fields from `origin` on come with Bell B only; times
are in ns. -/
structure Heartbeat where
  role : Nat
  ready : Bool
  fault : Bool
  handover : Bool
  muted : Bool
  ftog : Bool
  primary : Bool
  no : Nat
  seq : Nat
  epoch : Nat
  band : Nat
  node : Nat
  origin : Nat
  echo : Nat
  dwell : Nat
  mseq : Nat
  deriving DecidableEq, Repr

/-- What a Standby knows of its Active when a heartbeat arrives and no heartbeat carries (R477): the mode, the structure
identity and whether the two firmwares' declarations admit each other. -/
structure PartnerInfo where
  power : Nat
  frate : Nat
  prec : Nat
  image : Nat
  fwOk : Bool
  deriving DecidableEq, Repr

end Sys2Proof

namespace Sys2Proof.Machine
open Sys2Proof

/-! ## What a snapshot carries from device to device (R487) -/

/-- The states of a channel index of R124 but FREE, which is the absence of the channel. -/
inductive ChState where
  | stopped | running | draining
  deriving DecidableEq, Repr

/-- A channel: kind, index, generation, state, and its parameter values where they differ from the default. -/
structure Chan where
  kind : Nat
  index : Nat
  gen : Nat
  st : ChState
  params : List (Nat × Nat)          -- PARAM and value, little-endian as a number
  nulls : List Nat                   -- PARAMs whose reference a forced destroy made null (R128)
  createdAt : Nat                    -- count of parameter latches at CREATE
  destroyFrame : Option Nat          -- the destroy frame of a pending or acting DESTROY
  force : Bool
  discarded : Nat                    -- tasks discarded while draining (R127)
  deriving DecidableEq, Repr

/-- One entry of a shadow set or a cue (R138): a parameter, a run state, or an F field of a register (R135). -/
inductive SetEntry where
  | param (handle param len value : Nat)
  | run (handle : Nat) (start : Bool)
  | field (addr lo width value : Nat)
  deriving DecidableEq, Repr

structure ShadowSet where
  locked : Bool
  entries : List SetEntry
  deriving DecidableEq, Repr

/-- A completion record (R132). -/
structure Completion where
  tag : Nat
  status : Nat
  opcode : Nat
  check : Nat
  len : Nat
  result : Nat
  detail : Nat
  frame : Nat
  value : Nat
  deriving DecidableEq, Repr

/-- A command taken from a pail and not yet completed into its completion pail (R133). -/
structure InFlight where
  id : Nat
  pail : Nat
  cpail : Nat
  signal : Bool
  mlog : Option Nat              -- its entry of RED_MLOG, for a mirrored command (R481)
  comp : Option Completion
  atEnd : Bool            -- a WAIT with FRAME 0: its FRAME is that of its completion (R130, R132)
  deriving DecidableEq, Repr

/-- What a pending deferred command does at S(k). -/
inductive DeferredAct where
  | destroy (handle : Nat) (force : Bool)
  | run (handle : Nat) (start : Bool)
  | commit (set : Nat) (keep : Bool)
  | fire (cue : Nat) (entries : List SetEntry)
  | wait
  deriving DecidableEq, Repr

structure Deferred where
  id : Nat                -- the InFlight it completes
  frame : Nat
  ahead : Bool            -- its frame is read on a new lattice that is not yet in force (R59, R364)
  tag : Nat
  opcode : Nat
  act : DeferredAct
  deriving DecidableEq, Repr

/-- What the governor keeps of an endpoint for one frame (R245, R249, R253): the thermal state, the current I_e in mA (the
forecast, or the larger of it and the recomputed one), the heat W that advanced it, whether the frame was held (R260), and the
telemetry correction added to it since (R252). -/
structure Thermal where
  frame : Nat
  tb : Rat
  tj : Rat
  tbOpen : Rat
  current : Rat
  heat : Rat
  held : Bool
  cor : Rat
  deriving DecidableEq, Repr

/-- A temperature report kept for the fit (R253). -/
structure TempReport where
  time : Nat                       -- uptime
  rise : Rat                       -- Δ(m)
  meas : Rat                       -- TB_MEAS − GOV_AMBIENT
  deriving DecidableEq, Repr

/-- What the governor keeps for an endpoint. -/
structure GovEp where
  index : Nat
  states : List Thermal            -- newest first
  correction : Rat                 -- c of R252, added at the next forecast
  sigma : Rat
  delta : Rat
  fitNext : Option (Rat × Rat)     -- a fit that takes effect at the next S
  lastH : List Int
  lastEps : List Nat
  reports : List TempReport
  lastReport : Nat                 -- uptime of the latest report, or of CREATE
  deriving DecidableEq, Repr

/-- What the governor keeps for a feed. -/
structure GovFeed where
  index : Nat
  beta : Rat
  limited : Nat                    -- frames limited since it began limiting; 0 while not limiting
  deepest : Nat
  deriving DecidableEq, Repr

/-- What one universe keeps (R311 to R314): the sequence number of the packet to send next, the latest frame whose
packet is dealt with, and the slots of the last packet. -/
structure Univ where
  handle : Nat
  next : Nat
  done : Option Nat
  last : Option (List Nat)
  deriving DecidableEq, Repr

/-- The gains and the failed mark of an endpoint or a lamp group. -/
structure SnapGain where
  kind : Nat
  index : Nat
  gains : List Nat
  failed : Bool
  deriving DecidableEq, Repr

/-- A snapshot (R487): channel tables and parameters, shadow sets, cues, pending deferred commands, gains and failed marks,
governor states, sACN sequence counters, EPOCH and SEQ. -/
structure Snapshot where
  frame : Nat                    -- k
  chans : List Chan
  gens : List (Nat × Nat)
  freed : List (Nat × Nat)
  used : List (Nat × Nat)
  sets : List ShadowSet
  cues : List (Nat × List SetEntry)
  deferred : List Deferred
  flight : List InFlight
  nextId : Nat
  gains : List SnapGain
  govEps : List GovEp
  govFeeds : List GovFeed
  univs : List Univ
  syncs : List (Nat × Nat)
  epoch : Nat
  seq : Nat
  mseq : Nat                     -- the latest record whose effect it holds
  latches : Nat                  -- the identity of R25 at S(k)
  deriving DecidableEq, Repr

end Sys2Proof.Machine

namespace Sys2Proof
open Sys2Proof.Machine


/-- The commands of the block: one constructor per row of the table of operations and events. -/
inductive Instr where
  /-- REGISTER_WRITE (R7): A host or core write to a register that has no row of its own stores the value by access type and class. -/
  | registerWrite (who : Initiator) (req : WriteReq)
  /-- RC_READ (R8): A read of an RC register (F_PEAK, DBR_HELD_MAX, STA_EVT, MEM_UTIL.PEAK) peeks the value, and its consume waits for delivery. -/
  | rcRead (who : Initiator) (addr len : Nat)
  /-- CONSUME (R428): Delivery of held RC data sends the consume, which clears only the delivered bits or advances the pop. -/
  | consume (who : Initiator) (addr : Nat)
  /-- READ_ABANDONED (R429): Held read data that is not delivered within 1 ms is discarded without a consume, and the slot is freed. -/
  | readAbandoned (who : Initiator) (addr : Nat)
  /-- FRAME_BOUNDARY (R22): Boundary B(n) fires: the device latches SYS_FRAME_NUM, raises vector 1, and swaps direct-drive buffers and endpoint latches. -/
  | frameBoundary
  /-- WORK_START (R25): At S(n) the device latches the whole parameter state of frame n, chooses sources and starts the frame's work. -/
  | workStart
  /-- FORECAST (R245): The GOVERN forecast ends: it writes the term records, latches GOV_TERM_FRAME and sends H and p to SEPARATE. -/
  | forecast (frame : Nat)
  /-- FORECAST_LATE (R32): A forecast not ended by S(n)+T/16 lets SEPARATE start with the fallback scale and the previous matrices. -/
  | forecastLate (frame : Nat)
  /-- MODEL_UPDATE (R259): After E(n) the governor recomputes current and heat from the drive sums, re-advances thermal state and updates β. -/
  | modelUpdate (frame : Nat)
  /-- BAND_UNSENT (R33): A band that cannot leave by E(n) makes the device send its endpoint a repeat notice, so frame n−1 shows again. -/
  | bandUnsent (frame : Nat) (endpoint : Fin 4096)
  /-- BG_ESCALATE (R37): A background activity that stays past its deadline, or twice or four times it, rises one escalation level. -/
  | bgEscalate (activity : Fin 10)
  /-- BG_RESTORED (R37): A background activity that meets its deadline returns to level 0. -/
  | bgRestored (activity : Fin 10)
  /-- ADVANCE_WRITE (R28): A write of SYS_PIPE_CTL.ADVANCE sets A, or is refused with ADV_REJECT. -/
  | advanceWrite (value : Word)
  /-- MODE_REQUEST (R50): A write of SYS_MODE_REQ with GO is checked in order, then accepted as a transition or refused. -/
  | modeRequest (value : Word)
  /-- MODE_CHANGE (R51): An accepted transition completes: RESULT, SEQ and REQ_DONE are written. -/
  | modeChange
  /-- RATE_CHANGE (R57): Frames move from the old lattice to the new at the first new frame j, with endpoints holding frame m−1. -/
  | rateChange
  /-- PRECISION_CHANGE (R61): A Precision change completes: the stores are re-partitioned, tables are read in the new format and held layers converted. -/
  | precisionChange
  /-- DORMANT_HANDOVER (R49): A Dormant request on an Active with a READY Standby first runs a planned switch and then enters Dormant as Standby. -/
  | dormantHandover
  /-- STR_LOAD (R89): A write of STR_LOAD_CTL with GO starts copying and validating a structure image. -/
  | strLoad (value : Word)
  /-- STR_VALIDATED (R90): Validation of a structure image completes with RESULT, CHECK and SEQ, and DONE is set. -/
  | strValidated
  /-- STR_APPLIED (R91): A full image takes effect in Warm, and every engine's local store is rebuilt. -/
  | strApplied
  /-- STANDIN_READY (R94): The SPARE holds the new section and the frame-k state, and PHASE becomes 3. -/
  | standinReady
  /-- STR_ENGINE_READY (R94): The replaced engine, once drained, is loaded with the new section and passes its signature test. -/
  | strEngineReady (signature : TestRun)
  /-- STR_HANDBACK_FAIL (R96): An engine that fails its test, or is not ready within 1 s of S(k), leaves the SPARE standing in with the new section. -/
  | strHandbackFail (reason : Nat)
  /-- MERGE_DONE (R88): The partial-image merge completes: the staging half becomes active and PHASE returns to 0. -/
  | mergeDone
  /-- STR_ABORT (R96): A write of STR_LOAD_CTL.ABORT withdraws a load or replacement, or is ignored as too late. -/
  | strAbort
  /-- SIG_TEST_START (R115): Activity 5 begins the signature test of the next engine: a ROM test and a reference from the SPARE. -/
  | sigTestStart (spareOk : Bool) (reference : Word)
  /-- SIG_TEST_DONE (R116): The tested engine's signature is compared with the reference, and the engine passes or is judged faulty. -/
  | sigTestDone (signature : Word) (again : SigRepeat)
  /-- SIG_NOW (R115): A write of CE_CTL.SIG_NOW moves the engine to the head of the test rotation. -/
  | sigNow (engine : Fin 12)
  /-- CE_FAULT (R118): An engine fault stops the engine, returns its items to their pails, resets it and raises vector 2. -/
  | ceFault (engine : Fin 12) (code : Nat)
  /-- ITEM_OVERTIME (R117): An item in service for longer than T/8 is detected as an engine fault. -/
  | itemOvertime (engine : Fin 12)
  /-- CE_RELOAD (R120): A faulted engine is reloaded and tested, then rejoins or stays faulty. -/
  | ceReload (engine : Fin 12) (signature : TestRun)
  /-- CE_QUARANTINE (R121): A write of CE_CTL.QUARANTINE asks for a stand-in, or for hand-back, or is refused. -/
  | ceQuarantine (engine : Fin 12) (on : Bool)
  /-- CE_RETRY (R119): A write of CE_CTL.RETRY reloads and tests a faulty engine in place. -/
  | ceRetry (engine : Fin 12)
  /-- CREATE (R130): Opcode CREATE makes a new STOPPED channel and returns its handle. -/
  | create (pail : Fin 256) (d : Desc)
  /-- DESTROY (R127): Opcode DESTROY names the frame from which a channel is destroyed. -/
  | destroy (pail : Fin 256) (d : Desc)
  /-- START (R130): Opcode START places a run-state entry in a set, or makes the channel RUNNING from frame k. -/
  | start (pail : Fin 256) (d : Desc)
  /-- STOP (R130): Opcode STOP places a run-state entry in a set, or makes the channel STOPPED from frame k. -/
  | stop (pail : Fin 256) (d : Desc)
  /-- SET_PARAM (R135): Opcode SET_PARAM applies or stages a parameter value by its class. -/
  | setParam (pail : Fin 256) (d : Desc)
  /-- GET_PARAM (R130): Opcode GET_PARAM returns a parameter value in force, or from a set. -/
  | getParam (pail : Fin 256) (d : Desc)
  /-- CLEAR_SET (R130): Opcode CLEAR_SET empties a shadow set. -/
  | clearSet (pail : Fin 256) (d : Desc)
  /-- COPY_SET (R130): Opcode COPY_SET replaces the destination set with a copy of the source. -/
  | copySet (pail : Fin 256) (d : Desc)
  /-- COMMIT (R140): Opcode COMMIT is checked against the projected state and locks its set until frame k. -/
  | commit (pail : Fin 256) (d : Desc)
  /-- CANCEL (R144): Opcode CANCEL withdraws a pending COMMIT of a set. -/
  | cancel (pail : Fin 256) (d : Desc)
  /-- CUE_STORE (R147): Opcode CUE_STORE replaces a cue's entries with those of a set. -/
  | cueStore (pail : Fin 256) (d : Desc)
  /-- CUE_LOAD (R130): Opcode CUE_LOAD merges a cue's entries into a set. -/
  | cueLoad (pail : Fin 256) (d : Desc)
  /-- CUE_FIRE (R147): Opcode CUE_FIRE copies a cue's entries and commits them at frame k. -/
  | cueFire (pail : Fin 256) (d : Desc)
  /-- WAIT (R130): Opcode WAIT completes at S(k), or once every earlier command of its pail has completed. -/
  | wait (pail : Fin 256) (d : Desc)
  /-- QUERY (R130): Opcode QUERY returns a channel's state and GEN. -/
  | query (pail : Fin 256) (d : Desc)
  /-- CH_DRAINED (R126): Drain of a destroyed channel ends, and its index becomes FREE. -/
  | chDrained (kind index : Nat)
  /-- PACKET_RECEIVE (R159): An ST 2110-20 packet of a running path is merged, checked and written into the picture buffer. -/
  | packetReceive (stream : Fin 32) (pathB : Bool) (packet : RtpPacket)
  /-- STREAM_NO_SIGNAL (R161): A running stream with no valid packet for STALL enters NO_SIGNAL. -/
  | streamNoSignal (stream : Fin 32)
  /-- PATH_LOST (R157): A path that is silent for STALL clears its OK bit, and the stream continues on the other path. -/
  | pathLost (stream : Fin 32) (pathB : Bool)
  /-- IGMP_QUERY (R155): An IGMP query received on an ingest port is answered with reports for the joined groups. -/
  | igmpQuery (port : Fin 18) (version group : Nat)
  /-- JOB_SUBMIT (R170): A write of ING_JOB_CTL.GO checks a load job, then queues it or refuses it. -/
  | jobSubmit (value : Word)
  /-- JOB_DONE (R170): A queued load job finishes decoding into its slot, and the result is written. -/
  | jobDone
  /-- COMPOSE_BAND (R191): COMPOSE measures a band's cost against allowance plus carry, drops lowest layers if needed, and blends the band. -/
  | composeBand (frame : Nat)
  /-- SEPARATE_BAND (R214): SEPARATE cuts a composed band into endpoint bands, applies the four correction stages and forms drive sums. -/
  | separateBand (frame : Nat)
  /-- WB_COMPLETE (R201): A writeback completes: WB_FRAME and LAST_BUF update, and a format 1 slot becomes ready. -/
  | wbComplete (rect : Fin 16)
  /-- WB_INCOMPLETE (R201): A writeback not complete at D(n) is abandoned and flagged. -/
  | wbIncomplete (rect : Fin 16)
  /-- COEF_LOAD (R202): A write of CMP_COEF_CTL.GO checks and starts a coefficient bank load. -/
  | coefLoad (value : Word)
  /-- COEF_LOADED (R202): A bank load completes, sets the bank's LOADED bit and writes the result. -/
  | coefLoaded
  /-- CURVE_LOAD (R221): A write of SEP_CURVE_CTL.GO checks and starts an output-curve load. -/
  | curveLoad (value : Word)
  /-- CURVE_LOADED (R221): A curve load completes and sets the curve's bit in SEP_CURVE_LOADED. -/
  | curveLoaded
  /-- ACC_READ (R230): After D(n) the calibration accumulator adds frame n's drive sums and ε to each endpoint's window. -/
  | accRead (frame : Nat)
  /-- ACC_MISSED (R230): A frame not read before its slot is reused marks the unread windows incomplete. -/
  | accMissed (frame : Nat)
  /-- WINDOW_CLOSE (R229): A calibration window closes 250 ms after it ends, and its missing reports count as missing. -/
  | windowClose (zone : Fin 256)
  /-- CAL_EVALUATE (R234): MC1 evaluates a window pair of a zone and accepts it with staged gains, or rejects it. -/
  | calEvaluate (zone : Fin 256)
  /-- CAL_SKIPPED (R239): A pair not evaluated by the close of wb+1 is skipped with reason 5. -/
  | calSkipped (zone : Fin 256)
  /-- GAIN_LOAD (R241): A write of CAL_LOAD_CTL.GO checks a gain load and stages it for S(k). -/
  | gainLoad (value : Word)
  /-- CLEAR_FAILED_MARKS (R238): CAL_CMD operation 1 clears a zone's failed sensor marks and suspect counts. -/
  | clearFailedMarks
  /-- VOID_OPEN_WINDOWS (R243): CAL_CMD operation 2 voids a zone's open windows, so that pairs start afresh. -/
  | voidOpenWindows
  /-- MODEL_LOAD (R247): A write of GOV_MODEL_CTL.GO checks a tile-type load and stages it as a governor model version. -/
  | modelLoad (value : Word)
  /-- TELEM_STALE (R252): An endpoint with no temperature report for 10 s runs on the model alone. -/
  | telemStale (endpoint : Fin 4096)
  /-- THERMAL_FIT (R253): Once per 60 s per endpoint the device fits σ and δ from the past reports. -/
  | thermalFit (endpoint : Fin 4096)
  /-- FIXTURE_FRAME (R309): FIXTURE samples the canvas, applies cue values and motion limits, and builds each universe for frame n. -/
  | fixtureFrame (frame : Nat)
  /-- SACN_DATA (R312): After E(n) the device sends each universe's data packet for the frame. -/
  | sacnData (frame : Nat) (univ : Fin 8192)
  /-- SACN_LATE (R314): A data packet not sent by D(n) is not sent, and is counted as late. -/
  | sacnLate (frame : Nat) (univ : Fin 8192)
  /-- SACN_SYNC (R312): At P_z(n) the device sends the synchronisation packet of each synchronisation universe. -/
  | sacnSync (frame : Nat) (sync : Nat)
  /-- UNIVERSE_DISCOVERY (R303): Every 10 s the device sends universe discovery packets on each sACN port. -/
  | universeDiscovery
  /-- SACN_HOLD_RESEND (R314): In Hold the last data packet of each universe is resent every 800 ms. -/
  | sacnHoldResend
  /-- UNIV_TERMINATED (R314): From E(k) the device sends three Stream_Terminated packets, 1 ms apart, for a stopped universe or on Warm. -/
  | univTerminated (univ : Fin 8192)
  /-- PORT_ENABLE (R335): A write of P_CTL.EN is checked, then accepted for S(k) or refused with a reason. -/
  | portEnable (port : Fin 32) (on : Bool)
  /-- DD_SHIFT (R327): From E(n) a port shifts the configuration word, reads the fault words and shifts frame n's data into the chain. -/
  | ddShift (frame : Nat) (port : Fin 32) (conf faults : List Nat)
  /-- SHIFT_LATE (R330): A shift not complete at S(n+2)−50 µs is abandoned, with no SWAP. -/
  | shiftLate (frame : Nat) (port : Fin 32)
  /-- DD_SYNC_EDGE (R329): A rising edge on DD_SYNC issues SWAP on ports synchronised to it, or is ignored and counted. -/
  | ddSyncEdge
  /-- SYNC_LOST (R329): No DD_SYNC edge for 1 s sets SYNC_LOST. -/
  | syncLost
  /-- SENSE_WINDOW (R341): At each window boundary the sense bus sends the general-call window command. -/
  | senseWindow (frame : Nat) (port : Fin 32) (nak : Bool)
  /-- SENSOR_READ (R341): Within 200 ms of a window's end each group sensor is read, with one retry. -/
  | sensorRead (group : Fin 2048) (first second : SenseRead)
  /-- START_UP_WALK (R342): A port leaving OFF, BLANK or HIZ, or DDP_CMD operation 2, runs the start-up pin walk. -/
  | startUpWalk (port : Fin 32) (found : Option PinFind)
  /-- IDLE_WALK (R343): Activity 6 drives a port's pins in idle gaps to test for shorts. -/
  | idleWalk (port : Fin 32) (found : Option PinFind)
  /-- RELEASE_BLANKED (R339): DDP_CMD operation 1 releases a port's blanked groups at the first clean readback. -/
  | releaseBlanked (port : Fin 32)
  /-- TEST_START (R334): DDP_CMD operation 3 puts a port in TEST from the next S(k). -/
  | testStart (port : Fin 32)
  /-- TEST_END (R334): DDP_CMD operation 4 ends TEST at the next S(k). -/
  | testEnd (port : Fin 32)
  /-- TIME_FRAME (R282): Every TIME_US the device sends a TIME frame from each ring port. -/
  | timeFrame (ring : Fin 8)
  /-- LINK_DELAY_REQUEST (R283): Every 100 ms a ring port sends a LINK request to measure its link delay. -/
  | linkDelayRequest (link : Fin 16)
  /-- LINK_FRAME_RECEIVE (R283): A received LINK frame is answered, or its answer updates the mean link delay. -/
  | linkFrameReceive (link : Fin 16) (op : Nat) (t2 t3 : Nat)
  /-- JOIN_REQUEST (R292): A join request from an endpoint yields its position, a discovery record and a GRANT. -/
  | joinRequest (ring : Fin 8) (even odd : Option Nat) (join : JoinRec) (faults missed : Nat)
  /-- GRANT_UPDATE (R270): Within 100 ms of a change of LOSS_HOLD, RATE or BUCKET, the device sends a new GRANT. -/
  | grantUpdate (ring : Fin 8)
  /-- TELEMETRY_RECEIVE (R295): A telemetry frame from an endpoint is token-checked and its records passed on. -/
  | telemetryReceive (ring : Fin 8) (addr : Nat) (even odd : Option Nat) (records : List TelemRec)
  /-- REACH_TIMEOUT (R298): An endpoint's telemetry is missing from a port for 3 s, so its reach changes. -/
  | reachTimeout (ring : Fin 8) (position : Nat) (odd : Bool)
  /-- HOLD_FRAME (R289): In Hold, or while endpoints hold, the device sends a HOLD frame every HOLD_MS. -/
  | holdFrame (ring : Fin 8)
  /-- DARK_BROADCAST (R281): In Warm the device broadcasts DARK every HOLD_MS. -/
  | darkBroadcast (ring : Fin 8)
  /-- PTP_MESSAGE (R349): A received PTP message is processed for the BMCA and the offset and delay measurements. -/
  | ptpMessage (port : Fin 19) (m : PtpMessage)
  /-- SYNC_SEND (R349): As master, the device sends Sync and Follow_Up at logSyncInterval. -/
  | syncSend
  /-- ANNOUNCE_SEND (R349): The device sends Announce at logAnnounceInterval. -/
  | announceSend
  /-- DELAY_REQ_SEND (R349): As slave, the device sends Delay_Req at logMinDelayReqInterval. -/
  | delayReqSend
  /-- WCLK_EDGE (R358): A rising edge of WCLK_IN disciplines device time to the 48 kHz grid. -/
  | wclkEdge
  /-- HOLDOVER_ENTER (R357): Loss of the selected source, by announce timeout or 1 ms without a word clock edge, enters HOLDOVER. -/
  | holdoverEnter
  /-- SLEW_DONE (R360): A running slew completes. -/
  | slewDone
  /-- STEPPED (R361): At B(s) device time steps by θ, and STEP frames are sent. -/
  | stepped
  /-- TIME_SET (R348): TIM_CMD operation 1 sets device time when the clock is FREE and the device in Warm. -/
  | timeSet
  /-- APPLY_STEP (R361): TIM_CMD operation 2 fixes the decision time of a pending step. -/
  | applyStep
  /-- FRAME_RECEIVE (R374): A received Ethernet frame passes PCS, length, FCS, PAUSE, Strainer and consumer steps. -/
  | frameReceive (link : Fin 25) (frame : RxFrame)
  /-- PAUSE_BREAK (R382): A pause hold that lasts WDOG µs is broken, and PAUSE is ignored for 100 ms. -/
  | pauseBreak (link : Fin 25)
  /-- PAUSE_BREAK_END (R382): After 100 ms the link obeys PAUSE again. -/
  | pauseBreakEnd (link : Fin 25)
  /-- EYE_MEASURE (R383): Every 10 ms the monitor measures each lane's eye, and ten low figures start a retrain. -/
  | eyeMeasure (link : Fin 25) (width height : Nat)
  /-- EQ_RETRAIN (R384): New equaliser coefficients replace the old at the first run of idle blocks. -/
  | eqRetrain (link : Fin 25) (width height : Nat)
  /-- LINK_DOWN (R385): A PCS loss or HOLD_DOWN declares a link down, and adaptation restarts. -/
  | linkDown (link : Fin 25) (cause : Nat)
  /-- LINK_UP (R385): A link whose PCS has been up for 10 ms is declared up. -/
  | linkUp (link : Fin 25)
  /-- ARP_REQUEST (R372): An ARP request is sent for a missing or expiring next hop, and repeated every 1 s. -/
  | arpRequest (link : Fin 25) (ip : Nat)
  /-- ARP_UNRESOLVED (R372): A next hop that has not answered for 3 s is unresolved. -/
  | arpUnresolved (link : Fin 25) (ip : Nat)
  /-- ARP_EXPIRE (R371): An ARP entry is removed when its 300 s run out. -/
  | arpExpire (link : Fin 25) (ip : Nat)
  /-- EXACT_ENTRY_WRITE (R377): A write of NS_EXACT_HI takes, changes or frees a host exact-match entry, or conflicts. -/
  | exactEntryWrite (link : Fin 25) (entry : Fin 64) (value : Word)
  /-- WAKE (R513): A wake pattern on M0, or the wake alarm, starts the wake from Dormant. -/
  | wake (frame : Option RxFrame) (savedOk : Bool)
  /-- WAKE_ALARM (R513): PCR_WAKE_ALARM seconds pass after Dormant entry or a third trip. -/
  | wakeAlarm (savedOk : Bool)
  /-- DISPATCH (R403): The Parlour places an eligible task item of the highest priority into a free engine service slot. -/
  | dispatch (engine : Fin 12) (granule : Option Nat)
  /-- ITEM_COMPLETE (R405): An item completes, and RD advances over completed items in pail order. -/
  | itemComplete (engine : Fin 12) (pail : Fin 256) (seq : Nat) (used : ItemUse)
  /-- PAIL_RESERVE (R395): A device producer reserves a pail slot, stalling or overwriting when the pail is full. -/
  | pailReserve (pail : Fin 256) (producer : Nat)
  /-- PRODUCER_RESUME (R396): A stalled producer resumes when room appears in its pail. -/
  | producerResume (pail : Fin 256)
  /-- LENGTH_WORD_WRITE (R395): A producer writes the length word last, making the item visible and raising any level crossing. -/
  | lengthWordWrite (pail : Fin 256) (seq : Nat) (payload : List Nat)
  /-- HW_CONSUMER_READ (R397): A hardware consumer reads its privileged pail, and receives an idle item when nothing is ready. -/
  | hwConsumerRead (pail : Fin 16)
  /-- FLUSH (R399): A write of PL_CTL.FLUSH empties a pail, or is refused for a task pail outside Warm. -/
  | flush (pail : Fin 256)
  /-- PL_WR_WRITE (R400): A write of PL_WR pushes commands into a command pail, or is ignored as PTR_BAD. -/
  | plWrWrite (pail : Fin 256) (value : Nat)
  /-- PL_RD_WRITE (R401): A write of PL_RD consumes items of a completion or telemetry pail, or is ignored as PTR_BAD. -/
  | plRdWrite (pail : Fin 256) (value : Nat)
  /-- PL_POP (R401): A read of PL_POP delivers the next word of the head item, waiting up to POP_WAIT on an empty pail. -/
  | plPop (who : Initiator) (pail : Fin 256)
  /-- POP_WAIT_EXPIRE (R401): A pop held on an empty pail returns all ones after POP_WAIT. -/
  | popWaitExpire (pail : Fin 256)
  /-- HOST_LINK_UP (R420): The PCI Express link comes up. -/
  | hostLinkUp (speed width : Nat)
  /-- HOST_LINK_DOWN (R420): The PCI Express link goes down, or a Hot Reset arrives, and the host-link state resets. -/
  | hostLinkDown
  /-- FLR (R420): A Function Level Reset resets configuration space, MSI-X and the HBR, and leaves the show untouched. -/
  | flr
  /-- BAR2_WRITE (R415): A host write through BAR2 writes host-writable bytes and discards the rest. -/
  | bar2Write (addr : Nat) (bytes : List Nat)
  /-- BRIDGE_READ (R425): A fabric read across the domain bridge is retried while the bridge fetches from the Byre. -/
  | bridgeRead (who : Initiator) (addr len : Nat)
  /-- BRIDGE_WRITE (R430): A posted write across the domain bridge is buffered and reaches the Byre in order. -/
  | bridgeWrite (who : Initiator) (addr : Nat) (bytes : List Nat)
  /-- BOOST_FAIL (R423): A boost clock not running 100 µs after request fails the waiting reads. -/
  | boostFail
  /-- BOOST_STOP (R423): The boost clock stops BOOST_HOLD µs after the last Byre transaction. -/
  | boostStop
  /-- MSIX_UNMASK (R421): Unmasking a vector whose PBA bit is set sends one message. -/
  | msixUnmask (vector : Option (Fin 64))
  /-- SEM_TAKE (R432): A write of DBR_SEMn.TAKE grants the semaphore, or queues the request. -/
  | semTake (who : Initiator) (sem : Fin 16) (value : Word)
  /-- SEM_GIVE (R432): A write of GIVE by the owner releases the semaphore to the highest waiter. -/
  | semGive (who : Initiator) (sem : Fin 16) (value : Word)
  /-- SEM_REVOKED (R433): A semaphore held for 64 µs is revoked and passed on. -/
  | semRevoked (sem : Fin 16)
  /-- POLL (R435): In polled mode, every POLL_US the bridge samples the mirror registers. -/
  | poll
  /-- AER_UNCORRECTABLE (R436): An uncorrectable PCI Express error is reported under AER. -/
  | aerUncorrectable (status : Word)
  /-- MEM_ACCESS (R446): A Bulk Tank transaction of a client is arbitrated into a command slot and served. -/
  | memAccess (channel : Fin 16) (reqs : List MemReq)
  /-- SCRUB_PASS (R449): The patrol scrub completes a pass over the whole memory. -/
  | scrubPass
  /-- SCRUB_BEHIND (R449): A scrub 15 min behind states a 1 µs tolerance, and at 60 min behind it is recorded. -/
  | scrubBehind (minutes : Nat)
  /-- MEM_SLEEP_ENTER (R454): The controller enters power-down, self-refresh or deep self-refresh when its queues are empty and D allows. -/
  | memSleepEnter (level : Fin 3) (channel : Fin 16)
  /-- MEM_SLEEP_EXIT (R454): The controller begins to leave its sleep level at D − exit − 2 µs, or on a host request. -/
  | memSleepExit (channel : Fin 16)
  /-- REFRESH_DERATE (R440): Every 32 ms MR4 is read, and refresh is derated as the packages ask. -/
  | refreshDerate (package : Fin 4) (refresh : Fin 3)
  /-- BELL_A_HEARTBEAT (R465): Every 2 µs the device sends a Bell A heartbeat. -/
  | bellAHeartbeat
  /-- BELL_B_HEARTBEAT (R467): Every 5 µs the device sends a Bell B heartbeat. -/
  | bellBHeartbeat
  /-- HEARTBEAT_RECEIVE (R468): A partner heartbeat on either bell updates role, readiness and offset, and may declare failure or start a switch. -/
  | heartbeatReceive (bellB : Bool) (hb : Heartbeat) (info : Option PartnerInfo)
  /-- BELL_SILENT (R468): A bell delivers no valid heartbeat for 8 µs. -/
  | bellSilent (bellB : Bool)
  /-- TAKEOVER (R478): When the fence wait ends, the Standby advances the epoch, becomes Active and feeds the rings. -/
  | takeover
  /-- SEEK_TIMEOUT (R462): A seeking PRIMARY device that hears no heartbeat for 1 s becomes Active. -/
  | seekTimeout
  /-- FENCE_IN_QUALIFIED (R469): FENCE_IN high for 0.4 µs mutes the device's outputs and fences it. -/
  | fenceInQualified
  /-- FENCE_PULSE (R470): Each second the device pulses FENCE_OUT for 100 ns. -/
  | fencePulse
  /-- FENCE_IN_PULSE (R470): A 50 to 300 ns FENCE_IN pulse toggles FTOG. -/
  | fenceInPulse
  /-- FENCE_ALARM (R470): FTOG unchanged 100 ms after three successive pulses raises the fence alarm. -/
  | fenceAlarm
  /-- SWITCH (R482): RED_CMD operation 1 requests a planned switch, or is refused. -/
  | switch (value : Word)
  /-- SWITCH_HANDOVER (R482): At the next E(n) the Active sends HANDOVER and enters bypass. -/
  | switchHandover
  /-- SWITCH_TIMEOUT (R482): If FENCE_IN has not qualified 50 µs after HANDOVER, the old Active resumes and the switch completes with TIMEOUT. -/
  | switchTimeout
  /-- FORCE_ACTIVE (R462): RED_CMD operation 2 makes a seeking or blocked device Active. -/
  | forceActive
  /-- UNFENCE (R480): RED_CMD operation 3 releases FENCE_OUT. -/
  | unfence
  /-- RESYNC (R487): RED_CMD operation 4 starts a resynchronisation of the Standby. -/
  | resync
  /-- MIRROR_RECEIVE (R474): A Standby applies a mirror record in MSEQ order and acknowledges it, or requests resynchronisation. -/
  | mirrorReceive (mseq frame band tcrc : Nat) (what : Mirrored)
  /-- ACK_RECEIVE (R474): An acknowledgement lets the Active act on the mirrored change. -/
  | ackReceive (mseq : Nat)
  /-- MIRROR_RESEND (R474): A record unacknowledged after 20 µs is resent. -/
  | mirrorResend (mseq : Nat)
  /-- MIRROR_LAG (R474): After 50 µs without acknowledgement the Active acts alone, and the Standby is not READY. -/
  | mirrorLag
  /-- RESYNC_REQ_RECEIVE (R487): A resync request from the Standby makes the Active freeze a snapshot at S(k). -/
  | resyncReqReceive (reason : Nat)
  /-- SNAPSHOT_RECEIVE (R487): The Standby takes in snapshot frames, applies them at S(j) and then applies the kept records. -/
  | snapshotReceive (part : Option (Snapshot × Nat))
  /-- SIG_COMPARE (R485): By D(n+1) each device compares frame n's output signatures with the partner's. -/
  | sigCompare (frame : Nat) (partner : Option (Nat × List Nat))
  /-- HEALTH_REPORT (R486): Every 100 ms the Standby sends a health report. -/
  | healthReport (report : List Nat)
  /-- HEALTH_STALE (R486): A health report missing for 300 ms sets HEALTH_STALE on the Active. -/
  | healthStale
  /-- POWER_ON (R499): Power-on resets reach ALL and starts up to Warm. -/
  | powerOn
  /-- RESET_N (R499): RESET_N low for three XTAL32 samples resets reach DEVICE. -/
  | resetN
  /-- SW_RESET (R499): A write of PCR_SW_RESET with key 0xD1A5 resets reach DEVICE. -/
  | swReset (value : Word)
  /-- SUPPLY_FAULT (R516): A main supply out of range resets reach FAST. -/
  | supplyFault (supply : Nat)
  /-- THERMAL_TRIP (R505): The die reaching the trip point resets reach FAST and trips the device. -/
  | thermalTrip (die : Int)
  /-- THERMAL_RESTART (R505): After 60 s at 15 °C below the trip point, start-up resumes from phase 3. -/
  | thermalRestart
  /-- REF_LOSS (R496): Loss of REF25 or REF156 resets reach FAST or SERDES. -/
  | refLoss (ref156 : Bool) (ppm : Int)
  /-- XTAL_FALLBACK (R496): Loss of XTAL32 moves the Byre onto its RC oscillator. -/
  | xtalFallback
  /-- XTAL_RESTORED (R496): After the crystal has run for 1 s the Byre moves back to it. -/
  | xtalRestored
  /-- PLL_LOCK_LOSS (R497): A clock-good PLL that loses lock counts as loss of its reference. -/
  | pllLockLoss (pll : Nat)
  /-- PLL_RESTART (R497): A PLL not locked within 2 ms is restarted, up to three times. -/
  | pllRestart (pll : Nat)
  /-- RELEASE_HELD (R497): A release held for clock-good for more than 1 ms is reported. -/
  | releaseHeld (unit : Bool) (which clock us : Nat)
  /-- WDOG_EXPIRED (R504): A core or Byre watchdog not kicked in its period resets its reach. -/
  | wdogExpired (core : Fin 4)
  /-- PARITY (R499): A Byre register parity error resets reach BYRE. -/
  | parity (addr : Nat)
  /-- ECC_RESET (R499): A double-bit error in the structure, Parlour or channel tables resets that table reach. -/
  | eccReset (table : Fin 3) (unit word : Nat)
  /-- BLK_RST (R503): A write of PCR_BLK_RST resets the selected unit under an idle request, or is refused for S-class bits outside Warm. -/
  | blkRst (value : Word)
  /-- IDLE_ACK (R502): A unit acknowledges its idle request, and the reset then proceeds. -/
  | idleAck (unit : Fin 24)
  /-- IDLE_TIMEOUT (R502): A unit that has not acknowledged by IDLE_TIMEOUT is reset anyway. -/
  | idleTimeout (unit : Fin 24)
  /-- STARTER_ATTEMPT (R508): A Starter load attempt completes or fails. -/
  | starterAttempt (readFault : Option (Nat × Nat))
  /-- START_UP (R510): Start-up proceeds through its phases once RESET_N is high and the supplies are in range. -/
  | startUp (banks : Nat)
  /-- START_DONE (R510): Start-up completes with POWER at Warm. -/
  | startDone
  /-- DORMANT_ENTER (R512): MC0 saves state, the Bulk Tank enters self-refresh, and PD1 to PD15 switch off. -/
  | dormantEnter
  /-- INJECTION_ARMED (R523): FLT_INJ_CTL ARM with key 0xFA17 arms a fault injection, or is refused. -/
  | injectionArmed (key : Nat)
  /-- INJECTION_CANCELLED (R526): FLT_INJ_CTL DISARM with the key cancels an armed injection. -/
  | injectionCancelled (key : Nat)
  /-- TALLY_RECORD (R531): The Tally accepts a record from its intake and writes it into the ring. -/
  | tallyRecord (interrupted : Bool)
  /-- TALLY_REPORT_SECOND (R533): At the end of each report second, suppression records are written for the codes. -/
  | tallyReportSecond
  /-- TALLY_MIRROR (R535): MC0 copies a record to the flash mirror region. -/
  | tallyMirror (eraseFails programFails : Bool)
  /-- CHECK_VALUE (R541): A check-value unit computes a value over a message at its snoop point and accumulates it. -/
  | checkValue (unit : Fin 8) (a seq variant : Nat) (message : List Nat)
  /-- FW_LOAD (R552): UPD_CMD operation 1 copies and validates a firmware image, then stages it or stages and activates it. -/
  | fwLoad (value : Word)
  /-- FW_STAGED (R554): The target slot is programmed and compared, and becomes valid or failed. -/
  | fwStaged (outcome : Fin 4)
  /-- QUIESCE_ACK (R556): A core asked to quiesce writes its state record and acknowledges, and is reset into the new image. -/
  | quiesceAck
  /-- QUIESCE_TIMEOUT (R556): No acknowledgement within 50 ms ends the update with TIMEOUT. -/
  | quiesceTimeout
  /-- FW_HANDOVER (R556): A core reports running on the new image, and the next core begins. -/
  | fwHandover (tableFails : Nat)
  /-- FW_SELF_CONFIRM (R558): The new firmware confirms its own health during trial. -/
  | fwSelfConfirm (tableFails : Nat)
  /-- FW_CONFIRM (R558): UPD_CMD operation 2 confirms a trial. -/
  | fwConfirm (tableFails : Nat)
  /-- FW_REVERT (R559): UPD_CMD operation 3 reverts a trial. -/
  | fwRevert
  /-- CONFIRM_WINDOW_EXPIRE (R559): A trial window that ends without every confirmation reverts the update. -/
  | confirmWindowExpire
  /-- FW_ABORT (R554): UPD_CMD operation 4 stops staging. -/
  | fwAbort
  /-- BURN_FW_COUNTER (R561): UPD_CMD operation 5 raises the firmware rollback counter. -/
  | burnFwCounter
  /-- BURN_STR_COUNTER (R561): UPD_CMD operation 6 raises the structure rollback counter. -/
  | burnStrCounter
  /-- FENCE_IN_RELEASED (R498): FENCE_IN falls after being qualified, so the OUTPUT reach that lasts as long as its source ends. -/
  | fenceInReleased
  /-- REF_RESTORED (R499): REF25 or REF156 has been good for 10 ms after a loss, so start-up to Warm resumes or the SerDes quads restart. -/
  | refRestored (ref156 : Bool)
  /-- LINK_LOOPBACK_TEST (R486): Background activity 8 on a Standby loops a port's transmit path into its own receiver with PRBS31 for 1 ms and records pass or fail. -/
  | linkLoopbackTest (port : Fin 19) (pass : Bool)
  /-- D3HOT (R420): Host software moves the PCI Express function into D3hot, where BAR accesses complete with Unsupported Request, or back to D0. -/
  | d3hot (enter : Bool)
  /-- MARK_WAIT_EXPIRE (R475): A Standby that has waited 20 µs after its own S(n) without the mirrored marks gives the layer the MISSING mark and voids the frame's comparison. -/
  | markWaitExpire
  /-- PICTURE_PARTIAL_TIMEOUT (R160): With a second path, a picture still not complete 10 ms after a packet with a later timestamp arrived is judged partial and its buffer is returned. -/
  | picturePartialTimeout (stream : Fin 32)
  /-- SELF_CHECK_FAILED (R559): New firmware on trial reports a failed self-check, which reverts the trial. -/
  | selfCheckFailed
  deriving DecidableEq, Repr

end Sys2Proof
end

