-- ==== Sys2Proof/Config.lean ====
section
/-! DEFINITION. What the spec leaves to no rule: the free values, each an opaque constant about which nothing can be
proved but what holds of every value. -/
namespace Sys2Proof.Machine

/-- Free value number n: a value the spec states to exist and does not state. It depends on the count of free values
used so far, so that no two are known equal. -/
opaque Config.freeValue : Nat → Nat

/-- How far the decode of a pixel lies from exact arithmetic, within the tolerance of R164: a value of the transfer's
code, the R′G′B′ values and the colour. -/
opaque Config.decodeDeviation : Nat → Rat → Rat → Rat → Nat → Nat

/-- The target gain that the agreement test forms where a ratio is 0 / 0 (R233, R234), for the gain in force. -/
opaque Config.unstatedTarget : Nat → Int

/-- Z_QUALITY where a ratio is 0 / 0 (R233, R240), for the number of entries. -/
opaque Config.unstatedQuality : Nat → Nat

/-- How far the 1 / 2.2 power of R309 lies from the exact value, within its tolerance of 8, for a sample. -/
opaque Config.gammaDeviation : Nat → Int

/-- Which neighbour a value without an exact code in 16 fractional bits takes where the spec names no rounding (R262):
a value of its numerator and denominator. -/
opaque Config.roundsUp : Int → Nat → Bool

/-- The time in µs that the telemetry receive buffers take to fill (R300), whose size the spec does not state: a value of
the running rings. -/
opaque Config.telemetryFill : Nat → Nat

/-- The time in µs that the fullest receive buffer takes to fill (R453), whose size the spec does not state: a value of
the running streams. -/
opaque Config.ingestFill : Nat → Nat

end Sys2Proof.Machine
end

