-- ==== Sys2Proof/Machine/Num.lean ====
section
/-! DEFINITION. Arithmetic the chapters share: rounding, saturation, byte order, bit fields, IEEE 754 binary64
rounding of exact rationals, and the check-value computation of R538. -/
namespace Sys2Proof.Machine

/-- Division rounded up; 0 for a divisor of 0. -/
def ceilDiv (a b : Nat) : Nat := if b = 0 then 0 else (a + b - 1) / b

/-- Addition that saturates at `m`. -/
def satAdd (m a b : Nat) : Nat := Nat.min m (a + b)

/-- Round to the nearest integer, halves rounded up. -/
def roundHalfUp (q : Rat) : Int := (q + 1/2).floor

/-- Shift right by `k` bits, rounded half up, on integers: floor((x + 2^(k-1)) / 2^k). -/
def shrRound (x : Int) (k : Nat) : Int := if k = 0 then x else (x + 2 ^ (k - 1)) / (2 ^ k)

/-- Cut to the range lo to hi. -/
def clampInt (lo hi x : Int) : Int := if x < lo then lo else if hi < x then hi else x

/-- Cut to the range lo to hi. -/
def clampNat (lo hi x : Nat) : Nat := if x < lo then lo else if hi < x then hi else x

/-- An unsigned field of `w` bits read as two's complement. -/
def toSigned (w : Nat) (x : Nat) : Int :=
  let y := x % 2 ^ w
  if y < 2 ^ (w - 1) then (y : Int) else (y : Int) - 2 ^ w

/-- An integer as a two's complement field of `w` bits. -/
def ofSigned (w : Nat) (x : Int) : Nat := (x % (2 ^ w : Int)).toNat

/-- Bits [hi:lo] of a number. -/
def bits (x hi lo : Nat) : Nat := (x / 2 ^ lo) % 2 ^ (hi - lo + 1)

/-- One bit of a number. -/
def bitAt (x k : Nat) : Bool := (x / 2 ^ k) % 2 == 1

/-- The number with `w` bits from `lo` on replaced by `v`. -/
def putBits (x lo w v : Nat) : Nat :=
  x % 2 ^ lo + (v % 2 ^ w) * 2 ^ lo + (x / 2 ^ (lo + w)) * 2 ^ (lo + w)

/-- The number of ones among the low `n` bits. -/
def popCount (n x : Nat) : Nat := ((List.range n).filter (fun k => bitAt x k)).length

/-- The bytes of a number, lowest first (R3, little-endian). -/
def leBytes : Nat → Nat → List Nat
  | 0, _ => []
  | n + 1, x => x % 256 :: leBytes n (x / 256)

/-- The number whose bytes, lowest first, are given. -/
def ofLe : List Nat → Nat
  | [] => 0
  | b :: bs => b % 256 + 256 * ofLe bs

/-- The bytes of a number, highest first (R3, network order). -/
def beBytes (n x : Nat) : List Nat := (leBytes n x).reverse

/-- The number whose bytes, highest first, are given. -/
def ofBe (bs : List Nat) : Nat := ofLe bs.reverse

/-- The integer square root, by halving the interval `n` times. -/
def isqrtGo (x : Nat) : Nat → Nat → Nat → Nat
  | 0, lo, _ => lo
  | n + 1, lo, hi =>
    let mid := (lo + hi + 1) / 2
    if mid * mid ≤ x then isqrtGo x n mid hi else isqrtGo x n lo (mid - 1)

/-- The largest r with r × r ≤ x. -/
def isqrt (x : Nat) : Nat := isqrtGo x (Nat.log2 x + 2) 0 x

/-- The largest r ≤ hi with r^k ≤ x, by halving the interval `n` times. -/
def irootGo (k x : Nat) : Nat → Nat → Nat → Nat
  | 0, lo, _ => lo
  | n + 1, lo, hi =>
    let mid := (lo + hi + 1) / 2
    if mid ^ k ≤ x then irootGo k x n mid hi else irootGo k x n lo (mid - 1)

/-- A member put before the first member that it may stand before. -/
def insertBy {α : Type} (le : α → α → Bool) (x : α) : List α → List α
  | [] => [x]
  | y :: l => if le x y then x :: y :: l else y :: insertBy le x l

/-- A list in an order; members that the order does not tell apart stay as they stood. -/
def sortBy {α : Type} (le : α → α → Bool) (l : List α) : List α := l.foldr (insertBy le) []

/-- The median with an even count taken as the lower of the two middle values (R233). -/
def lowerMedian (l : List Rat) : Option Rat :=
  let sorted := sortBy (fun a b => decide (a ≤ b)) l
  sorted[(sorted.length - 1) / 2]?

/-- The exponent e with 2^e ≤ q < 2^(e+1), for a positive q. -/
def ratExp (q : Rat) : Int :=
  let e : Int := (Nat.log2 q.num.natAbs : Int) - (Nat.log2 q.den : Int)
  let p : Rat := if 0 ≤ e then (2 : Rat) ^ e.toNat else 1 / (2 : Rat) ^ (-e).toNat
  if p ≤ q then e else e - 1

/-- Round to the nearest integer, ties to even. -/
def roundEven (q : Rat) : Int :=
  let f := q.floor
  let r := q - f
  if r < 1/2 then f else if 1/2 < r then f + 1 else if f % 2 = 0 then f else f + 1

/-- IEEE 754 binary64 rounding of an exact value, to nearest with ties to even, for values in the normal range. -/
def b64 (q : Rat) : Rat :=
  if q = 0 then 0 else
    let a := if q < 0 then -q else q
    let e := max (ratExp a) (-1022)
    let sh := 52 - e
    let m := if 0 ≤ sh then roundEven (a * (2 : Rat) ^ sh.toNat) else roundEven (a / (2 : Rat) ^ (-sh).toNat)
    let r : Rat := if 0 ≤ sh then (m : Rat) / (2 : Rat) ^ sh.toNat else (m : Rat) * (2 : Rat) ^ (-sh).toNat
    if q < 0 then -r else r

/-- A value cut to 160 fractional bits. -/
def cutFx (q : Rat) : Rat := mkRat (q * 2 ^ 160).floor (2 ^ 160)

/-- Terms of the exponential series. -/
def expGo (x : Rat) : Nat → Rat → Rat → Nat → Rat
  | 0, _, acc, _ => acc
  | n + 1, term, acc, k => let t := cutFx (term * x / (k : Rat)); expGo x n t (acc + t) (k + 1)

/-- Square a value n times. -/
def squareGo : Nat → Rat → Rat
  | 0, q => q
  | n + 1, q => squareGo n (cutFx (q * q))

/-- e^x: 40 terms of its series at x / 2^k, squared k times. -/
def expRat (x : Rat) : Rat :=
  let a := if x < 0 then -x else x
  let k := Nat.log2 (a.floor.toNat + 1) + 1
  squareGo k (expGo (x / (2 : Rat) ^ k) 40 1 1 1)

/-- The binary32 code of a value that is not negative (R243). -/
def f32Bits (q : Rat) : Nat :=
  if q ≤ 0 then 0
  else
    let e := max (ratExp q) (-126)
    let sh := 23 - e
    let m := (if 0 ≤ sh then roundEven (q * (2 : Rat) ^ sh.toNat) else roundEven (q / (2 : Rat) ^ (-sh).toNat)).toNat
    let base := m + ((e + 126).toNat) * 2 ^ 23
    min base 0x7F800000

/-- The low `w` bits of a number in reverse order. -/
def bitReverse : Nat → Nat → Nat
  | 0, _ => 0
  | w + 1, x => (x % 2) * 2 ^ w + bitReverse w (x / 2)

/-- One check-value algorithm of R538. -/
structure CrcAlg where
  width : Nat
  poly : Nat
  init : Nat
  reflected : Bool
  finalXor : Nat
  deriving DecidableEq, Repr

/-- Eight shift steps of the remainder register, most significant bit first. -/
def crcBits (w poly : Nat) : Nat → Nat → Nat
  | 0, c => c
  | n + 1, c => crcBits w poly n (if bitAt c (w - 1) then (c * 2 % 2 ^ w) ^^^ poly else c * 2 % 2 ^ w)

/-- The remainder register after the bytes, from a given seed. -/
def crcRun (a : CrcAlg) : Nat → List Nat → Nat
  | c, [] => c
  | c, b :: bs =>
    let b' := if a.reflected then bitReverse 8 b else b % 256
    crcRun a (crcBits a.width a.poly 8 (c ^^^ (b' * 2 ^ (a.width - 8)))) bs

/-- The check value over the bytes, from a given seed (the algorithm's Initial value with a fold, R540). The seed is
the content of the remainder register as the algorithm holds it: bit-reversed for a reflected one (DEDUCED). -/
def crcSeeded (a : CrcAlg) (seed : Nat) (bs : List Nat) : Nat :=
  let c := crcRun a (if a.reflected then bitReverse a.width (seed % 2 ^ a.width) else seed % 2 ^ a.width) bs
  (if a.reflected then bitReverse a.width c else c) ^^^ a.finalXor

/-- ALG 0 to 3 of R538. -/
def crcAlgOf (alg : Nat) : CrcAlg :=
  match alg with
  | 0 => ⟨32, 0x1EDC6F41, 0xFFFFFFFF, true, 0xFFFFFFFF⟩
  | 1 => ⟨32, 0x04C11DB7, 0xFFFFFFFF, true, 0xFFFFFFFF⟩
  | 2 => ⟨16, 0x1021, 0xFFFF, false, 0⟩
  | _ => ⟨64, 0x42F0E1EBA9EA3693, 0, false, 0⟩

/-- CRC-32C of the bytes with the standard seed. -/
def crc32c (bs : List Nat) : Nat := crcSeeded (crcAlgOf 0) 0xFFFFFFFF bs

/-- CRC-16/CCITT of the bytes. -/
def crc16 (bs : List Nat) : Nat := crcSeeded (crcAlgOf 2) 0xFFFF bs

end Sys2Proof.Machine
end

