-- ==== Sys2Proof/Machine/RegTable.lean ====
section
/-! DEFINITION. The register table: for every register of BAR0, where it lies and, for every field that is not
reserved, its bits, its access type (R7), its class (R9) and its reset value, as the owning chapters give them. -/
namespace Sys2Proof.Machine

/-- The registers of the SYS block (R570, R570). -/
def regTableSYS : List RegDesc := [
  ⟨0x0, 0x0, 1, 0x0, 1, [⟨0, 16, .ro, .l, 38418⟩, ⟨16, 8, .ro, .l, 1⟩]⟩,
  ⟨0x4, 0x0, 1, 0x0, 1, [⟨0, 8, .ro, .l, 0⟩]⟩,
  ⟨0x8, 0x0, 1, 0x0, 1, [⟨0, 4, .ro, .l, 12⟩, ⟨4, 4, .ro, .l, 8⟩, ⟨8, 6, .ro, .l, 32⟩, ⟨14, 5, .ro, .l, 25⟩, ⟨19, 5, .ro, .l, 16⟩]⟩,
  ⟨0xC, 0x0, 1, 0x0, 1, [⟨0, 8, .ro, .l, 128⟩, ⟨8, 8, .ro, .l, 64⟩, ⟨16, 8, .ro, .l, 64⟩, ⟨24, 8, .ro, .l, 64⟩]⟩,
  ⟨0x10, 0x0, 1, 0x0, 1, [⟨0, 32, .ro, .l, 0⟩]⟩,
  ⟨0x14, 0x0, 1, 0x0, 1, [⟨0, 32, .rw, .l, 0⟩]⟩,
  ⟨0x18, 0x0, 1, 0x0, 1, [⟨0, 32, .ro, .l, 0⟩]⟩,
  ⟨0x1C, 0x0, 1, 0x0, 1, [⟨0, 26, .ro, .l, 0⟩]⟩,
  ⟨0x100, 0x0, 1, 0x0, 1, [⟨0, 32, .ro, .l, 0⟩]⟩,
  ⟨0x104, 0x0, 1, 0x0, 1, [⟨0, 32, .ro, .l, 0⟩]⟩,
  ⟨0x108, 0x0, 1, 0x0, 1, [⟨0, 14, .rw, .s, 0⟩]⟩,
  ⟨0x10C, 0x0, 1, 0x0, 1, [⟨0, 1, .w1c, .l, 0⟩, ⟨1, 1, .w1c, .l, 0⟩, ⟨2, 1, .w1c, .l, 0⟩, ⟨3, 1, .w1c, .l, 0⟩]⟩,
  ⟨0x110, 0x0, 1, 0x0, 1, [⟨0, 32, .ro, .l, 0⟩]⟩,
  ⟨0x114, 0x0, 1, 0x0, 1, [⟨0, 32, .ro, .l, 0⟩]⟩,
  ⟨0x120, 0x4, 10, 0x0, 1, [⟨0, 2, .ro, .l, 0⟩, ⟨16, 16, .ro, .l, 0⟩]⟩,
  ⟨0x180, 0x0, 1, 0x0, 1, [⟨0, 2, .rw, .l, 0⟩, ⟨4, 4, .rw, .l, 9⟩, ⟨8, 3, .rw, .l, 1⟩, ⟨12, 1, .rw, .l, 0⟩, ⟨31, 1, .wo, .l, 0⟩]⟩,
  ⟨0x184, 0x0, 1, 0x0, 1, [⟨0, 2, .ro, .l, 0⟩, ⟨4, 4, .ro, .l, 9⟩, ⟨8, 3, .ro, .l, 1⟩, ⟨12, 1, .ro, .l, 0⟩, ⟨14, 2, .ro, .l, 0⟩, ⟨16, 2, .ro, .l, 0⟩, ⟨18, 1, .ro, .l, 0⟩, ⟨19, 1, .ro, .l, 0⟩, ⟨20, 8, .ro, .l, 0⟩, ⟨28, 3, .ro, .l, 0⟩]⟩,
  ⟨0x188, 0x0, 1, 0x0, 1, [⟨0, 1, .rw, .l, 0⟩, ⟨1, 8, .rw, .l, 16⟩, ⟨9, 1, .rw, .l, 0⟩, ⟨10, 6, .rw, .l, 0⟩]⟩,
  ⟨0x18C, 0x0, 1, 0x0, 1, [⟨0, 1, .w1c, .l, 0⟩, ⟨1, 1, .w1c, .l, 0⟩, ⟨2, 1, .w1c, .l, 0⟩, ⟨3, 1, .w1c, .l, 0⟩, ⟨4, 1, .w1c, .l, 0⟩]⟩,
  ⟨0x190, 0x0, 1, 0x0, 1, [⟨0, 32, .ro, .l, 0⟩]⟩,
  ⟨0x194, 0x0, 1, 0x0, 1, [⟨0, 32, .ro, .l, 0⟩]⟩]

/-- The registers of the STR block (R98). -/
def regTableSTR : List RegDesc := [
  ⟨0x10000, 0x0, 1, 0x0, 1, [⟨0, 32, .ro, .l, 0⟩]⟩,
  ⟨0x10004, 0x0, 1, 0x0, 1, [⟨0, 32, .ro, .l, 0⟩]⟩,
  ⟨0x10008, 0x0, 1, 0x0, 1, [⟨0, 32, .ro, .l, 0⟩]⟩,
  ⟨0x1000C, 0x0, 1, 0x0, 1, [⟨0, 1, .ro, .l, 0⟩, ⟨1, 1, .ro, .l, 0⟩, ⟨2, 6, .ro, .l, 0⟩, ⟨8, 4, .ro, .l, 15⟩, ⟨12, 4, .ro, .l, 15⟩, ⟨16, 1, .ro, .l, 0⟩]⟩,
  ⟨0x10010, 0x0, 1, 0x0, 1, [⟨0, 32, .rw, .l, 0⟩]⟩,
  ⟨0x10014, 0x0, 1, 0x0, 1, [⟨0, 32, .rw, .l, 0⟩]⟩,
  ⟨0x10018, 0x0, 1, 0x0, 1, [⟨0, 32, .rw, .l, 0⟩]⟩,
  ⟨0x1001C, 0x0, 1, 0x0, 1, [⟨0, 32, .rw, .l, 0⟩]⟩,
  ⟨0x10020, 0x0, 1, 0x0, 1, [⟨0, 32, .rw, .l, 0⟩]⟩,
  ⟨0x10024, 0x0, 1, 0x0, 1, [⟨0, 1, .wo, .l, 0⟩, ⟨1, 1, .rw, .l, 0⟩, ⟨2, 1, .rw, .l, 0⟩, ⟨3, 1, .wo, .l, 0⟩, ⟨4, 6, .rw, .l, 0⟩]⟩,
  ⟨0x10028, 0x0, 1, 0x0, 1, [⟨0, 8, .ro, .l, 0⟩, ⟨8, 5, .ro, .l, 0⟩, ⟨13, 3, .ro, .l, 0⟩, ⟨16, 3, .ro, .l, 0⟩]⟩,
  ⟨0x1002C, 0x0, 1, 0x0, 1, [⟨0, 1, .w1c, .l, 0⟩, ⟨1, 1, .w1c, .l, 0⟩, ⟨2, 1, .w1c, .l, 0⟩, ⟨3, 1, .w1c, .l, 0⟩]⟩,
  ⟨0x10040, 0x4, 12, 0x0, 1, [⟨0, 16, .ro, .l, 0⟩, ⟨16, 16, .ro, .l, 0⟩]⟩,
  ⟨0x10100, 0x4, 67, 0x0, 1, [⟨0, 32, .ro, .l, 0⟩]⟩]

/-- The registers of the CE block (R122). -/
def regTableCE : List RegDesc := [
  ⟨0x20000, 0x1000, 12, 0x0, 1, [⟨0, 1, .rw, .l, 0⟩, ⟨1, 1, .wo, .l, 0⟩, ⟨2, 1, .wo, .l, 0⟩, ⟨4, 6, .rw, .l, 0⟩]⟩,
  ⟨0x20004, 0x1000, 12, 0x0, 1, [⟨0, 3, .ro, .l, 0⟩, ⟨3, 4, .ro, .l, 0⟩, ⟨8, 4, .ro, .l, 15⟩, ⟨16, 16, .ro, .l, 0⟩]⟩,
  ⟨0x20008, 0x1000, 12, 0x0, 1, [⟨0, 1, .w1c, .l, 0⟩, ⟨1, 1, .w1c, .l, 0⟩, ⟨2, 1, .w1c, .l, 0⟩, ⟨3, 1, .w1c, .l, 0⟩, ⟨4, 1, .w1c, .l, 0⟩, ⟨5, 1, .w1c, .l, 0⟩, ⟨6, 1, .w1c, .l, 0⟩]⟩,
  ⟨0x2000C, 0x1000, 12, 0x0, 1, [⟨0, 32, .ro, .l, 0⟩]⟩,
  ⟨0x20010, 0x1000, 12, 0x4, 4, [⟨0, 11, .ro, .l, 0⟩, ⟨16, 16, .ro, .l, 0⟩]⟩,
  ⟨0x20020, 0x1000, 12, 0x0, 1, [⟨0, 32, .ro, .l, 0⟩]⟩,
  ⟨0x20024, 0x1000, 12, 0x0, 1, [⟨0, 32, .ro, .l, 0⟩]⟩,
  ⟨0x20028, 0x1000, 12, 0x0, 1, [⟨0, 32, .ro, .l, 0⟩]⟩,
  ⟨0x2002C, 0x1000, 12, 0x0, 1, [⟨0, 32, .ro, .l, 0⟩]⟩,
  ⟨0x20030, 0x1000, 12, 0x0, 1, [⟨0, 32, .ro, .l, 0⟩]⟩,
  ⟨0x20034, 0x1000, 12, 0x0, 1, [⟨0, 32, .ro, .l, 0⟩]⟩]

/-- The registers of the CH block (R148). -/
def regTableCH : List RegDesc := [
  ⟨0x30000, 0x0, 1, 0x0, 1, [⟨0, 10, .rw, .l, 200⟩, ⟨10, 6, .rw, .l, 0⟩]⟩,
  ⟨0x30004, 0x0, 1, 0x0, 1, [⟨0, 4, .rw, .l, 0⟩]⟩,
  ⟨0x30008, 0x0, 1, 0x0, 1, [⟨0, 5, .ro, .l, 0⟩, ⟨5, 5, .ro, .l, 0⟩, ⟨16, 16, .ro, .l, 0⟩]⟩,
  ⟨0x3000C, 0x0, 1, 0x0, 1, [⟨0, 1, .w1c, .l, 0⟩, ⟨1, 1, .w1c, .l, 0⟩, ⟨2, 1, .w1c, .l, 0⟩, ⟨3, 1, .w1c, .l, 0⟩, ⟨4, 1, .w1c, .l, 0⟩]⟩,
  ⟨0x30010, 0x0, 1, 0x0, 1, [⟨0, 32, .ro, .l, 0⟩]⟩,
  ⟨0x30014, 0x0, 1, 0x0, 1, [⟨0, 32, .ro, .l, 0⟩]⟩,
  ⟨0x30018, 0x0, 1, 0x0, 1, [⟨0, 32, .ro, .l, 0⟩]⟩,
  ⟨0x3001C, 0x0, 1, 0x0, 1, [⟨0, 32, .ro, .l, 0⟩]⟩,
  ⟨0x30020, 0x0, 1, 0x0, 1, [⟨0, 21, .ro, .l, 1048576⟩]⟩,
  ⟨0x30040, 0x4, 16, 0x0, 1, [⟨0, 1, .ro, .l, 0⟩, ⟨1, 13, .ro, .l, 0⟩]⟩,
  ⟨0x30400, 0x4, 256, 0x0, 1, [⟨0, 8, .rw, .s, 0⟩, ⟨8, 1, .rw, .s, 0⟩]⟩]

/-- The registers of the ING block (R171). -/
def regTableING : List RegDesc := [
  ⟨0x40000, 0x0, 1, 0x0, 1, [⟨0, 6, .rw, .l, 0⟩]⟩,
  ⟨0x40004, 0x0, 1, 0x0, 1, [⟨0, 8, .ro, .l, 0⟩, ⟨8, 5, .ro, .l, 0⟩, ⟨13, 6, .ro, .l, 0⟩]⟩,
  ⟨0x40008, 0x0, 1, 0x0, 1, [⟨0, 1, .w1c, .l, 0⟩, ⟨1, 1, .w1c, .l, 0⟩, ⟨2, 1, .w1c, .l, 0⟩, ⟨3, 1, .w1c, .l, 0⟩, ⟨4, 1, .w1c, .l, 0⟩, ⟨5, 1, .w1c, .l, 0⟩, ⟨6, 1, .w1c, .l, 0⟩]⟩,
  ⟨0x4000C, 0x0, 1, 0x0, 1, [⟨0, 32, .ro, .l, 0⟩]⟩,
  ⟨0x40020, 0x0, 1, 0x0, 1, [⟨0, 32, .rw, .l, 0⟩]⟩,
  ⟨0x40024, 0x0, 1, 0x0, 1, [⟨0, 32, .rw, .l, 0⟩]⟩,
  ⟨0x40028, 0x0, 1, 0x0, 1, [⟨0, 32, .rw, .l, 0⟩]⟩,
  ⟨0x4002C, 0x0, 1, 0x0, 1, [⟨0, 9, .rw, .l, 4⟩]⟩,
  ⟨0x40030, 0x0, 1, 0x0, 1, [⟨0, 32, .rw, .l, 0⟩]⟩,
  ⟨0x40034, 0x0, 1, 0x0, 1, [⟨0, 32, .rw, .l, 0⟩]⟩,
  ⟨0x40038, 0x0, 1, 0x0, 1, [⟨0, 1, .wo, .l, 0⟩]⟩,
  ⟨0x4003C, 0x0, 1, 0x0, 1, [⟨0, 8, .ro, .l, 0⟩, ⟨8, 4, .ro, .l, 0⟩, ⟨12, 3, .ro, .l, 0⟩]⟩,
  ⟨0x41000, 0x40, 32, 0x0, 1, [⟨0, 2, .ro, .l, 0⟩, ⟨2, 2, .ro, .l, 2⟩, ⟨4, 1, .ro, .l, 0⟩, ⟨5, 1, .ro, .l, 0⟩, ⟨6, 1, .ro, .l, 0⟩]⟩,
  ⟨0x41004, 0x40, 32, 0x0, 1, [⟨0, 32, .ro, .l, 0⟩]⟩,
  ⟨0x41008, 0x40, 32, 0x0, 1, [⟨0, 32, .ro, .l, 0⟩]⟩,
  ⟨0x4100C, 0x40, 32, 0x0, 1, [⟨0, 32, .ro, .l, 0⟩]⟩,
  ⟨0x41010, 0x40, 32, 0x0, 1, [⟨0, 32, .ro, .l, 0⟩]⟩,
  ⟨0x41014, 0x40, 32, 0x0, 1, [⟨0, 32, .ro, .l, 0⟩]⟩,
  ⟨0x41018, 0x40, 32, 0x0, 1, [⟨0, 32, .ro, .l, 0⟩]⟩,
  ⟨0x4101C, 0x40, 32, 0x0, 1, [⟨0, 32, .ro, .l, 0⟩]⟩]

/-- The registers of the CMP block (R203). -/
def regTableCMP : List RegDesc := [
  ⟨0x50000, 0x0, 1, 0x0, 1, [⟨0, 1, .rw, .f, 0⟩, ⟨4, 6, .rw, .l, 0⟩]⟩,
  ⟨0x50004, 0x0, 1, 0x0, 1, [⟨0, 8, .ro, .l, 0⟩, ⟨8, 8, .ro, .l, 0⟩]⟩,
  ⟨0x50008, 0x0, 1, 0x0, 1, [⟨0, 1, .w1c, .l, 0⟩, ⟨1, 1, .w1c, .l, 0⟩, ⟨2, 1, .w1c, .l, 0⟩, ⟨3, 1, .w1c, .l, 0⟩, ⟨4, 1, .w1c, .l, 0⟩, ⟨5, 1, .w1c, .l, 0⟩, ⟨6, 1, .w1c, .l, 0⟩, ⟨7, 1, .w1c, .l, 0⟩]⟩,
  ⟨0x5000C, 0x0, 1, 0x0, 1, [⟨0, 32, .ro, .l, 0⟩]⟩,
  ⟨0x50010, 0x0, 1, 0x0, 1, [⟨0, 11, .ro, .l, 0⟩, ⟨16, 16, .ro, .l, 0⟩]⟩,
  ⟨0x50014, 0x0, 1, 0x0, 1, [⟨0, 2, .rw, .l, 2⟩]⟩,
  ⟨0x50020, 0x0, 1, 0x0, 1, [⟨0, 32, .rw, .l, 0⟩]⟩,
  ⟨0x50024, 0x0, 1, 0x0, 1, [⟨0, 32, .rw, .l, 0⟩]⟩,
  ⟨0x50028, 0x0, 1, 0x0, 1, [⟨0, 1, .wo, .l, 0⟩, ⟨1, 4, .rw, .l, 0⟩]⟩,
  ⟨0x5002C, 0x0, 1, 0x0, 1, [⟨0, 8, .ro, .l, 0⟩, ⟨8, 4, .ro, .l, 0⟩, ⟨12, 3, .ro, .l, 0⟩, ⟨15, 8, .ro, .l, 0⟩]⟩,
  ⟨0x50100, 0x4, 64, 0x0, 1, [⟨0, 9, .ro, .l, 0⟩, ⟨12, 4, .ro, .l, 15⟩]⟩,
  ⟨0x50400, 0x40, 16, 0x0, 1, [⟨0, 1, .rw, .f, 0⟩, ⟨1, 1, .rw, .f, 0⟩, ⟨2, 8, .rw, .f, 1⟩, ⟨10, 4, .rw, .f, 1⟩]⟩,
  ⟨0x50404, 0x40, 16, 0x0, 1, [⟨0, 32, .rw, .f, 0⟩]⟩,
  ⟨0x50408, 0x40, 16, 0x0, 1, [⟨0, 32, .rw, .f, 0⟩]⟩,
  ⟨0x5040C, 0x40, 16, 0x0, 1, [⟨0, 32, .rw, .f, 0⟩]⟩,
  ⟨0x50410, 0x40, 16, 0x0, 1, [⟨0, 32, .rw, .f, 0⟩]⟩,
  ⟨0x50414, 0x40, 16, 0x0, 1, [⟨0, 32, .rw, .f, 0⟩]⟩,
  ⟨0x50418, 0x40, 16, 0x0, 1, [⟨0, 32, .rw, .f, 0⟩]⟩,
  ⟨0x5041C, 0x40, 16, 0x0, 1, [⟨0, 32, .rw, .f, 0⟩]⟩,
  ⟨0x50420, 0x40, 16, 0x0, 1, [⟨0, 32, .rw, .f, 0⟩]⟩,
  ⟨0x50424, 0x40, 16, 0x0, 1, [⟨0, 4, .ro, .l, 0⟩, ⟨4, 1, .ro, .l, 0⟩]⟩,
  ⟨0x50428, 0x40, 16, 0x0, 1, [⟨0, 32, .ro, .l, 0⟩]⟩,
  ⟨0x5042C, 0x40, 16, 0x0, 1, [⟨0, 32, .ro, .l, 0⟩]⟩,
  ⟨0x51000, 0x20, 128, 0x0, 1, [⟨0, 2, .ro, .l, 0⟩, ⟨2, 2, .ro, .l, 2⟩, ⟨4, 1, .ro, .l, 0⟩, ⟨5, 1, .ro, .l, 0⟩, ⟨6, 1, .ro, .l, 0⟩, ⟨7, 1, .ro, .l, 0⟩, ⟨8, 4, .ro, .l, 0⟩, ⟨12, 8, .ro, .l, 0⟩]⟩,
  ⟨0x51004, 0x20, 128, 0x0, 1, [⟨0, 32, .ro, .l, 0⟩]⟩,
  ⟨0x51008, 0x20, 128, 0x0, 1, [⟨0, 32, .ro, .l, 0⟩]⟩,
  ⟨0x5100C, 0x20, 128, 0x0, 1, [⟨0, 32, .ro, .l, 0⟩]⟩]

/-- The registers of the SEP block (R225). -/
def regTableSEP : List RegDesc := [
  ⟨0x60000, 0x0, 1, 0x0, 1, [⟨0, 6, .rw, .l, 0⟩]⟩,
  ⟨0x60004, 0x0, 1, 0x0, 1, [⟨0, 5, .ro, .l, 0⟩, ⟨5, 13, .ro, .l, 0⟩, ⟨18, 5, .ro, .l, 0⟩]⟩,
  ⟨0x60008, 0x0, 1, 0x0, 1, [⟨0, 1, .w1c, .l, 0⟩, ⟨1, 1, .w1c, .l, 0⟩]⟩,
  ⟨0x6000C, 0x0, 1, 0x0, 1, [⟨0, 26, .ro, .l, 0⟩]⟩,
  ⟨0x60010, 0x0, 1, 0x0, 1, [⟨0, 32, .ro, .l, 0⟩]⟩,
  ⟨0x60014, 0x0, 1, 0x0, 1, [⟨0, 32, .ro, .l, 0⟩]⟩,
  ⟨0x60018, 0x0, 1, 0x0, 1, [⟨0, 32, .ro, .l, 0⟩]⟩,
  ⟨0x6001C, 0x0, 1, 0x0, 1, [⟨0, 32, .ro, .l, 0⟩]⟩,
  ⟨0x60020, 0x0, 1, 0x0, 1, [⟨0, 32, .rw, .l, 0⟩]⟩,
  ⟨0x60024, 0x0, 1, 0x0, 1, [⟨0, 32, .rw, .l, 0⟩]⟩,
  ⟨0x60028, 0x0, 1, 0x0, 1, [⟨0, 1, .wo, .l, 0⟩, ⟨1, 5, .rw, .l, 0⟩]⟩,
  ⟨0x6002C, 0x0, 1, 0x0, 1, [⟨0, 8, .ro, .l, 0⟩, ⟨8, 4, .ro, .l, 0⟩, ⟨12, 3, .ro, .l, 0⟩]⟩,
  ⟨0x60030, 0x0, 1, 0x0, 1, [⟨0, 32, .ro, .l, 1⟩]⟩,
  ⟨0x60034, 0x0, 1, 0x0, 1, [⟨0, 32, .ro, .l, 0⟩]⟩,
  ⟨0x60400, 0x10, 16, 0x0, 1, [⟨0, 1, .ro, .l, 0⟩, ⟨1, 11, .ro, .l, 0⟩, ⟨12, 13, .ro, .l, 0⟩]⟩,
  ⟨0x68000, 0x8, 4096, 0x0, 1, [⟨0, 1, .ro, .l, 0⟩, ⟨1, 1, .ro, .l, 0⟩, ⟨2, 1, .ro, .l, 0⟩, ⟨3, 1, .ro, .l, 0⟩, ⟨4, 5, .ro, .l, 0⟩]⟩,
  ⟨0x68004, 0x8, 4096, 0x0, 1, [⟨0, 32, .ro, .l, 0⟩]⟩]

/-- The registers of the CAL block (R243). -/
def regTableCAL : List RegDesc := [
  ⟨0x70000, 0x0, 1, 0x0, 1, [⟨0, 6, .rw, .l, 0⟩]⟩,
  ⟨0x70004, 0x0, 1, 0x0, 1, [⟨0, 9, .ro, .l, 0⟩, ⟨9, 4, .ro, .l, 0⟩, ⟨13, 1, .ro, .l, 0⟩]⟩,
  ⟨0x70008, 0x0, 1, 0x0, 1, [⟨0, 1, .w1c, .l, 0⟩, ⟨1, 1, .w1c, .l, 0⟩, ⟨2, 1, .w1c, .l, 0⟩, ⟨3, 1, .w1c, .l, 0⟩, ⟨4, 1, .w1c, .l, 0⟩, ⟨5, 1, .w1c, .l, 0⟩, ⟨6, 1, .w1c, .l, 0⟩]⟩,
  ⟨0x7000C, 0x0, 1, 0x0, 1, [⟨0, 32, .ro, .l, 0⟩]⟩,
  ⟨0x70010, 0x0, 1, 0x0, 1, [⟨0, 32, .ro, .l, 0⟩]⟩,
  ⟨0x70020, 0x0, 1, 0x0, 1, [⟨0, 32, .rw, .l, 0⟩]⟩,
  ⟨0x70024, 0x0, 1, 0x0, 1, [⟨0, 32, .rw, .l, 0⟩]⟩,
  ⟨0x70028, 0x0, 1, 0x0, 1, [⟨0, 13, .rw, .l, 0⟩]⟩,
  ⟨0x7002C, 0x0, 1, 0x0, 1, [⟨0, 32, .rw, .l, 0⟩]⟩,
  ⟨0x70030, 0x0, 1, 0x0, 1, [⟨0, 32, .rw, .l, 0⟩]⟩,
  ⟨0x70034, 0x0, 1, 0x0, 1, [⟨0, 1, .wo, .l, 0⟩, ⟨1, 1, .rw, .l, 0⟩]⟩,
  ⟨0x70038, 0x0, 1, 0x0, 1, [⟨0, 8, .ro, .l, 0⟩, ⟨8, 4, .ro, .l, 0⟩, ⟨12, 3, .ro, .l, 0⟩]⟩,
  ⟨0x70040, 0x0, 1, 0x0, 1, [⟨0, 32, .rw, .l, 0⟩]⟩,
  ⟨0x70044, 0x0, 1, 0x0, 1, [⟨0, 2, .rw, .l, 0⟩, ⟨31, 1, .wo, .l, 0⟩]⟩,
  ⟨0x71000, 0x40, 256, 0x0, 1, [⟨0, 2, .ro, .l, 0⟩, ⟨2, 3, .ro, .l, 0⟩, ⟨5, 13, .ro, .l, 0⟩, ⟨18, 13, .ro, .l, 0⟩]⟩,
  ⟨0x71004, 0x40, 256, 0x0, 1, [⟨0, 32, .ro, .l, 0⟩]⟩,
  ⟨0x71008, 0x40, 256, 0x0, 1, [⟨0, 32, .ro, .l, 0⟩]⟩,
  ⟨0x7100C, 0x40, 256, 0x0, 1, [⟨0, 32, .ro, .l, 0⟩]⟩,
  ⟨0x71010, 0x40, 256, 0x0, 1, [⟨0, 32, .ro, .l, 0⟩]⟩,
  ⟨0x71014, 0x40, 256, 0x0, 1, [⟨0, 32, .ro, .l, 0⟩]⟩,
  ⟨0x71018, 0x40, 256, 0x0, 1, [⟨0, 32, .ro, .l, 0⟩]⟩,
  ⟨0x7101C, 0x40, 256, 0x0, 1, [⟨0, 32, .ro, .l, 0⟩]⟩,
  ⟨0x71020, 0x40, 256, 0x0, 1, [⟨0, 32, .ro, .l, 0⟩]⟩,
  ⟨0x71024, 0x40, 256, 0x0, 1, [⟨0, 16, .ro, .l, 0⟩, ⟨16, 16, .ro, .l, 0⟩]⟩,
  ⟨0x71028, 0x40, 256, 0x0, 1, [⟨0, 32, .ro, .l, 0⟩]⟩,
  ⟨0x7102C, 0x40, 256, 0x0, 1, [⟨0, 32, .ro, .l, 0⟩]⟩,
  ⟨0x71030, 0x40, 256, 0x0, 1, [⟨0, 32, .ro, .l, 0⟩]⟩,
  ⟨0x78000, 0x8, 4096, 0x0, 1, [⟨0, 16, .ro, .l, 16384⟩, ⟨16, 16, .ro, .l, 16384⟩]⟩,
  ⟨0x78004, 0x8, 4096, 0x0, 1, [⟨0, 16, .ro, .l, 16384⟩, ⟨16, 1, .ro, .l, 0⟩, ⟨17, 8, .ro, .l, 0⟩, ⟨25, 1, .ro, .l, 0⟩, ⟨26, 1, .ro, .l, 0⟩, ⟨27, 1, .ro, .l, 0⟩, ⟨28, 1, .ro, .l, 0⟩]⟩]

/-- The registers of the GOV block (R264). -/
def regTableGOV : List RegDesc := [
  ⟨0x80000, 0x0, 1, 0x0, 1, [⟨0, 6, .rw, .l, 0⟩, ⟨6, 1, .rw, .l, 1⟩]⟩,
  ⟨0x80004, 0x0, 1, 0x0, 1, [⟨0, 9, .ro, .l, 0⟩, ⟨9, 1, .ro, .l, 0⟩, ⟨10, 9, .ro, .l, 0⟩]⟩,
  ⟨0x80008, 0x0, 1, 0x0, 1, [⟨0, 1, .w1c, .l, 0⟩, ⟨1, 1, .w1c, .l, 0⟩, ⟨2, 1, .w1c, .l, 0⟩, ⟨3, 1, .w1c, .l, 0⟩, ⟨4, 1, .w1c, .l, 0⟩, ⟨5, 1, .w1c, .l, 0⟩]⟩,
  ⟨0x8000C, 0x0, 1, 0x0, 1, [⟨0, 16, .rw, .l, 400⟩]⟩,
  ⟨0x80010, 0x0, 1, 0x0, 1, [⟨0, 32, .rw, .l, 0⟩]⟩,
  ⟨0x80014, 0x0, 1, 0x0, 1, [⟨0, 32, .rw, .l, 0⟩]⟩,
  ⟨0x80018, 0x0, 1, 0x0, 1, [⟨0, 32, .rw, .l, 0⟩]⟩,
  ⟨0x8001C, 0x0, 1, 0x0, 1, [⟨0, 32, .rw, .l, 0⟩]⟩,
  ⟨0x80020, 0x0, 1, 0x0, 1, [⟨0, 1, .wo, .l, 0⟩, ⟨1, 1, .rw, .l, 0⟩, ⟨2, 7, .rw, .l, 0⟩]⟩,
  ⟨0x80024, 0x0, 1, 0x0, 1, [⟨0, 8, .ro, .l, 0⟩, ⟨8, 4, .ro, .l, 0⟩, ⟨12, 3, .ro, .l, 0⟩]⟩,
  ⟨0x80028, 0x0, 1, 0x0, 1, [⟨0, 32, .ro, .l, 0⟩]⟩,
  ⟨0x8002C, 0x0, 1, 0x0, 1, [⟨0, 32, .ro, .l, 0⟩]⟩,
  ⟨0x80030, 0x0, 1, 0x0, 1, [⟨0, 32, .ro, .l, 0⟩]⟩,
  ⟨0x80040, 0x0, 1, 0x0, 1, [⟨0, 32, .ro, .l, 0⟩]⟩,
  ⟨0x80044, 0x0, 1, 0x0, 1, [⟨0, 32, .ro, .l, 0⟩]⟩,
  ⟨0x80048, 0x0, 1, 0x0, 1, [⟨0, 32, .ro, .l, 0⟩]⟩,
  ⟨0x8004C, 0x0, 1, 0x0, 1, [⟨0, 32, .ro, .l, 0⟩]⟩,
  ⟨0x80050, 0x0, 1, 0x0, 1, [⟨0, 32, .ro, .l, 0⟩]⟩,
  ⟨0x80054, 0x0, 1, 0x0, 1, [⟨0, 32, .ro, .l, 0⟩]⟩,
  ⟨0x81000, 0x20, 256, 0x0, 1, [⟨0, 16, .ro, .l, 32768⟩, ⟨16, 1, .ro, .l, 0⟩, ⟨17, 2, .ro, .l, 0⟩]⟩,
  ⟨0x81004, 0x20, 256, 0x0, 1, [⟨0, 16, .ro, .l, 0⟩, ⟨16, 16, .ro, .l, 0⟩]⟩,
  ⟨0x81008, 0x20, 256, 0x0, 1, [⟨0, 32, .ro, .l, 0⟩]⟩,
  ⟨0x8100C, 0x20, 256, 0x0, 1, [⟨0, 32, .ro, .l, 0⟩]⟩,
  ⟨0x81010, 0x20, 256, 0x0, 1, [⟨0, 32, .ro, .l, 0⟩]⟩,
  ⟨0x81014, 0x20, 256, 0x0, 1, [⟨0, 16, .ro, .l, 16384⟩, ⟨16, 16, .ro, .l, 0⟩]⟩,
  ⟨0x81018, 0x20, 256, 0x0, 1, [⟨0, 16, .rc, .l, 0⟩]⟩,
  ⟨0x88000, 0x8, 4096, 0x0, 1, [⟨0, 16, .ro, .l, 400⟩, ⟨16, 16, .ro, .l, 400⟩]⟩,
  ⟨0x88004, 0x8, 4096, 0x0, 1, [⟨0, 16, .ro, .l, 16384⟩, ⟨16, 12, .ro, .l, 0⟩, ⟨28, 1, .ro, .l, 0⟩, ⟨29, 1, .ro, .l, 0⟩, ⟨30, 1, .ro, .l, 0⟩, ⟨31, 1, .ro, .l, 1⟩]⟩]

/-- The registers of the DVL block (R301). -/
def regTableDVL : List RegDesc := [
  ⟨0x90000, 0x0, 1, 0x0, 1, [⟨0, 6, .rw, .l, 0⟩]⟩,
  ⟨0x90004, 0x0, 1, 0x0, 1, [⟨0, 4, .ro, .l, 0⟩, ⟨4, 1, .ro, .l, 0⟩, ⟨5, 13, .ro, .l, 0⟩]⟩,
  ⟨0x90008, 0x0, 1, 0x0, 1, [⟨0, 1, .w1c, .l, 0⟩, ⟨1, 1, .w1c, .l, 0⟩, ⟨2, 1, .w1c, .l, 0⟩, ⟨3, 1, .w1c, .l, 0⟩, ⟨4, 1, .w1c, .l, 0⟩, ⟨5, 1, .w1c, .l, 0⟩, ⟨6, 1, .w1c, .l, 0⟩, ⟨7, 1, .w1c, .l, 0⟩]⟩,
  ⟨0x9000C, 0x0, 1, 0x0, 1, [⟨0, 32, .ro, .l, 0⟩]⟩,
  ⟨0x90010, 0x0, 1, 0x0, 1, [⟨0, 32, .ro, .l, 0⟩]⟩,
  ⟨0x90014, 0x0, 1, 0x0, 1, [⟨0, 32, .ro, .l, 0⟩]⟩,
  ⟨0x90018, 0x0, 1, 0x0, 1, [⟨0, 32, .ro, .l, 0⟩]⟩,
  ⟨0x9001C, 0x0, 1, 0x0, 1, [⟨0, 32, .ro, .l, 0⟩]⟩,
  ⟨0x90100, 0x40, 8, 0x0, 1, [⟨0, 2, .ro, .l, 0⟩, ⟨2, 1, .ro, .l, 0⟩, ⟨3, 1, .ro, .l, 0⟩, ⟨4, 10, .ro, .l, 0⟩]⟩,
  ⟨0x90104, 0x40, 8, 0x0, 1, [⟨0, 10, .ro, .l, 0⟩, ⟨10, 10, .ro, .l, 0⟩, ⟨20, 1, .ro, .l, 0⟩]⟩,
  ⟨0x90108, 0x40, 8, 0x0, 1, [⟨0, 32, .ro, .l, 0⟩]⟩,
  ⟨0x9010C, 0x40, 8, 0x0, 1, [⟨0, 32, .ro, .l, 0⟩]⟩,
  ⟨0x90110, 0x40, 8, 0x0, 1, [⟨0, 32, .ro, .l, 0⟩]⟩,
  ⟨0x90114, 0x40, 8, 0x0, 1, [⟨0, 32, .ro, .l, 0⟩]⟩,
  ⟨0x90118, 0x40, 8, 0x0, 1, [⟨0, 32, .ro, .l, 0⟩]⟩,
  ⟨0x9011C, 0x40, 8, 0x0, 1, [⟨0, 32, .ro, .l, 0⟩]⟩,
  ⟨0x90120, 0x40, 8, 0x0, 1, [⟨0, 32, .ro, .l, 0⟩]⟩,
  ⟨0x98000, 0x8, 4096, 0x0, 1, [⟨0, 3, .ro, .l, 0⟩, ⟨3, 2, .ro, .l, 0⟩, ⟨5, 4, .ro, .l, 0⟩, ⟨9, 2, .ro, .l, 0⟩, ⟨11, 16, .ro, .l, 0⟩]⟩,
  ⟨0x98004, 0x8, 4096, 0x0, 1, [⟨0, 16, .ro, .l, 0⟩, ⟨16, 16, .ro, .l, 0⟩]⟩]

/-- The registers of the FIX block (R317). -/
def regTableFIX : List RegDesc := [
  ⟨0xA0000, 0x0, 1, 0x0, 1, [⟨0, 6, .rw, .l, 0⟩, ⟨6, 1, .rw, .l, 1⟩]⟩,
  ⟨0xA0004, 0x0, 1, 0x0, 1, [⟨0, 18, .ro, .l, 0⟩, ⟨18, 14, .ro, .l, 0⟩]⟩,
  ⟨0xA0008, 0x0, 1, 0x0, 1, [⟨0, 1, .w1c, .l, 0⟩, ⟨1, 1, .w1c, .l, 0⟩, ⟨2, 1, .w1c, .l, 0⟩, ⟨3, 1, .w1c, .l, 0⟩]⟩,
  ⟨0xA000C, 0x0, 1, 0x0, 1, [⟨0, 20, .ro, .l, 0⟩]⟩,
  ⟨0xA0010, 0x4, 4, 0x0, 1, [⟨0, 32, .rw, .s, 0⟩]⟩,
  ⟨0xA0020, 0x4, 16, 0x0, 1, [⟨0, 32, .rw, .s, 0⟩]⟩,
  ⟨0xA0060, 0x0, 1, 0x0, 1, [⟨0, 32, .ro, .l, 0⟩]⟩,
  ⟨0xA0064, 0x0, 1, 0x0, 1, [⟨0, 32, .ro, .l, 0⟩]⟩,
  ⟨0xA0068, 0x0, 1, 0x0, 1, [⟨0, 32, .ro, .l, 0⟩]⟩,
  ⟨0xA006C, 0x0, 1, 0x0, 1, [⟨0, 32, .ro, .l, 0⟩]⟩,
  ⟨0xA0100, 0x4, 19, 0x0, 1, [⟨0, 24, .ro, .l, 0⟩]⟩,
  ⟨0xA8000, 0x4, 8192, 0x0, 1, [⟨0, 1, .ro, .l, 0⟩, ⟨1, 1, .ro, .l, 0⟩, ⟨2, 5, .ro, .l, 0⟩, ⟨7, 8, .ro, .l, 0⟩, ⟨15, 1, .ro, .l, 0⟩]⟩]

/-- The registers of the DDP block (R345). -/
def regTableDDP : List RegDesc := [
  ⟨0xB0000, 0x0, 1, 0x0, 1, [⟨0, 6, .rw, .l, 0⟩]⟩,
  ⟨0xB0004, 0x0, 1, 0x0, 1, [⟨0, 6, .ro, .l, 0⟩, ⟨6, 1, .ro, .l, 0⟩]⟩,
  ⟨0xB0008, 0x0, 1, 0x0, 1, [⟨0, 1, .w1c, .l, 0⟩, ⟨1, 1, .w1c, .l, 0⟩, ⟨2, 1, .w1c, .l, 0⟩, ⟨3, 1, .w1c, .l, 0⟩, ⟨4, 1, .w1c, .l, 0⟩, ⟨5, 1, .w1c, .l, 0⟩, ⟨6, 1, .w1c, .l, 0⟩, ⟨7, 1, .w1c, .l, 0⟩]⟩,
  ⟨0xB000C, 0x0, 1, 0x0, 1, [⟨0, 5, .rw, .l, 0⟩, ⟨5, 3, .rw, .l, 0⟩, ⟨31, 1, .wo, .l, 0⟩]⟩,
  ⟨0xB0010, 0x0, 1, 0x0, 1, [⟨0, 32, .ro, .l, 0⟩]⟩,
  ⟨0xB0014, 0x0, 1, 0x0, 1, [⟨0, 32, .ro, .l, 0⟩]⟩,
  ⟨0xB0018, 0x0, 1, 0x0, 1, [⟨0, 32, .ro, .l, 0⟩]⟩,
  ⟨0xB001C, 0x0, 1, 0x0, 1, [⟨0, 32, .ro, .l, 0⟩]⟩,
  ⟨0xB1000, 0x40, 32, 0x0, 1, [⟨0, 1, .rw, .l, 0⟩, ⟨1, 1, .rw, .s, 0⟩, ⟨2, 1, .rw, .f, 0⟩, ⟨3, 1, .rw, .l, 0⟩]⟩,
  ⟨0xB1004, 0x40, 32, 0x0, 1, [⟨0, 6, .rw, .s, 0⟩, ⟨6, 3, .rw, .s, 0⟩, ⟨9, 4, .rw, .s, 4⟩, ⟨13, 4, .rw, .s, 0⟩, ⟨17, 8, .rw, .s, 32⟩]⟩,
  ⟨0xB1008, 0x40, 32, 0x0, 1, [⟨0, 16, .rw, .s, 250⟩, ⟨16, 16, .rw, .s, 400⟩]⟩,
  ⟨0xB100C, 0x40, 32, 0x0, 1, [⟨0, 3, .rw, .f, 0⟩, ⟨3, 1, .rw, .f, 0⟩]⟩,
  ⟨0xB1010, 0x40, 32, 0x0, 1, [⟨0, 32, .rw, .f, 0⟩]⟩,
  ⟨0xB1014, 0x40, 32, 0x0, 1, [⟨0, 32, .rw, .f, 0⟩]⟩,
  ⟨0xB1018, 0x40, 32, 0x0, 1, [⟨0, 32, .rw, .f, 0⟩]⟩,
  ⟨0xB101C, 0x40, 32, 0x0, 1, [⟨0, 32, .rw, .f, 16777472⟩]⟩,
  ⟨0xB1020, 0x40, 32, 0x0, 1, [⟨0, 32, .rw, .f, 0⟩]⟩,
  ⟨0xB1024, 0x40, 32, 0x0, 1, [⟨0, 32, .rw, .f, 0⟩]⟩,
  ⟨0xB1028, 0x40, 32, 0x0, 1, [⟨0, 3, .ro, .l, 0⟩, ⟨3, 3, .ro, .l, 0⟩, ⟨6, 1, .ro, .l, 0⟩, ⟨7, 16, .ro, .l, 0⟩]⟩,
  ⟨0xB102C, 0x40, 32, 0x0, 1, [⟨0, 4, .ro, .l, 0⟩, ⟨4, 4, .ro, .l, 0⟩, ⟨8, 5, .ro, .l, 0⟩, ⟨13, 1, .ro, .l, 0⟩, ⟨14, 1, .ro, .l, 0⟩]⟩,
  ⟨0xB1030, 0x40, 32, 0x0, 1, [⟨0, 32, .ro, .l, 0⟩]⟩,
  ⟨0xB1034, 0x40, 32, 0x0, 1, [⟨0, 32, .ro, .l, 0⟩]⟩,
  ⟨0xB1038, 0x40, 32, 0x0, 1, [⟨0, 32, .ro, .l, 0⟩]⟩,
  ⟨0xB8000, 0x10, 2048, 0x0, 1, [⟨0, 1, .ro, .l, 0⟩, ⟨1, 1, .ro, .l, 0⟩, ⟨2, 16, .ro, .l, 0⟩]⟩,
  ⟨0xB8004, 0x10, 2048, 0x0, 1, [⟨0, 16, .ro, .l, 16384⟩, ⟨16, 16, .ro, .l, 16384⟩]⟩,
  ⟨0xB8008, 0x10, 2048, 0x0, 1, [⟨0, 16, .ro, .l, 16384⟩, ⟨16, 1, .ro, .l, 0⟩, ⟨17, 8, .ro, .l, 0⟩, ⟨25, 1, .ro, .l, 0⟩, ⟨26, 1, .ro, .l, 0⟩, ⟨27, 1, .ro, .l, 0⟩, ⟨28, 1, .ro, .l, 0⟩]⟩]

/-- The registers of the TIM block (R366). -/
def regTableTIM : List RegDesc := [
  ⟨0xC0000, 0x0, 1, 0x0, 1, [⟨0, 1, .rw, .l, 1⟩, ⟨1, 1, .rw, .l, 0⟩, ⟨2, 1, .rw, .l, 0⟩, ⟨3, 1, .rw, .l, 1⟩, ⟨4, 1, .rw, .l, 0⟩]⟩,
  ⟨0xC0004, 0x0, 1, 0x0, 1, [⟨0, 3, .ro, .l, 0⟩, ⟨3, 1, .ro, .l, 0⟩, ⟨4, 1, .ro, .l, 0⟩, ⟨5, 1, .ro, .l, 0⟩, ⟨6, 2, .ro, .l, 0⟩, ⟨8, 5, .ro, .l, 31⟩]⟩,
  ⟨0xC0008, 0x0, 1, 0x0, 1, [⟨0, 1, .w1c, .l, 0⟩, ⟨1, 1, .w1c, .l, 0⟩, ⟨2, 1, .w1c, .l, 0⟩, ⟨3, 1, .w1c, .l, 0⟩, ⟨4, 1, .w1c, .l, 0⟩, ⟨5, 1, .w1c, .l, 0⟩, ⟨6, 1, .w1c, .l, 0⟩, ⟨7, 1, .w1c, .l, 0⟩, ⟨8, 1, .w1c, .l, 0⟩, ⟨9, 1, .w1c, .l, 0⟩]⟩,
  ⟨0xC0010, 0x0, 1, 0x0, 1, [⟨0, 32, .ro, .l, 0⟩]⟩,
  ⟨0xC0014, 0x0, 1, 0x0, 1, [⟨0, 32, .ro, .l, 0⟩]⟩,
  ⟨0xC0018, 0x0, 1, 0x0, 1, [⟨0, 32, .ro, .l, 0⟩]⟩,
  ⟨0xC001C, 0x0, 1, 0x0, 1, [⟨0, 32, .ro, .l, 0⟩]⟩,
  ⟨0xC0020, 0x0, 1, 0x0, 1, [⟨0, 32, .ro, .l, 0⟩]⟩,
  ⟨0xC0024, 0x0, 1, 0x0, 1, [⟨0, 32, .ro, .l, 0⟩]⟩,
  ⟨0xC0028, 0x0, 1, 0x0, 1, [⟨0, 8, .rw, .l, 127⟩, ⟨8, 4, .rw, .l, 13⟩, ⟨12, 4, .rw, .l, 14⟩, ⟨16, 4, .rw, .l, 3⟩, ⟨20, 4, .rw, .l, 13⟩, ⟨24, 1, .rw, .l, 0⟩]⟩,
  ⟨0xC002C, 0x0, 1, 0x0, 1, [⟨0, 8, .rw, .l, 128⟩, ⟨8, 8, .rw, .l, 128⟩]⟩,
  ⟨0xC0030, 0x0, 1, 0x0, 1, [⟨0, 32, .ro, .l, 0⟩]⟩,
  ⟨0xC0034, 0x0, 1, 0x0, 1, [⟨0, 32, .ro, .l, 0⟩]⟩,
  ⟨0xC0038, 0x0, 1, 0x0, 1, [⟨0, 13, .rw, .l, 5000⟩]⟩,
  ⟨0xC0040, 0x0, 1, 0x0, 1, [⟨0, 32, .rw, .l, 0⟩]⟩,
  ⟨0xC0044, 0x0, 1, 0x0, 1, [⟨0, 32, .rw, .l, 0⟩]⟩,
  ⟨0xC0048, 0x0, 1, 0x0, 1, [⟨0, 32, .rw, .l, 0⟩]⟩,
  ⟨0xC004C, 0x0, 1, 0x0, 1, [⟨0, 2, .rw, .l, 0⟩, ⟨31, 1, .wo, .l, 0⟩]⟩,
  ⟨0xC0050, 0x0, 1, 0x0, 1, [⟨0, 32, .ro, .l, 0⟩]⟩,
  ⟨0xC0054, 0x0, 1, 0x0, 1, [⟨0, 32, .ro, .l, 0⟩]⟩,
  ⟨0xC0058, 0x0, 1, 0x0, 1, [⟨0, 32, .ro, .l, 0⟩]⟩,
  ⟨0xC005C, 0x0, 1, 0x0, 1, [⟨0, 32, .ro, .l, 0⟩]⟩,
  ⟨0xC0100, 0x20, 19, 0x0, 1, [⟨0, 4, .ro, .l, 3⟩, ⟨4, 1, .ro, .l, 0⟩]⟩,
  ⟨0xC0104, 0x20, 19, 0x0, 1, [⟨0, 32, .rw, .l, 0⟩]⟩,
  ⟨0xC0108, 0x20, 19, 0x0, 1, [⟨0, 32, .ro, .l, 0⟩]⟩,
  ⟨0xC010C, 0x20, 19, 0x0, 1, [⟨0, 16, .ro, .l, 0⟩, ⟨16, 16, .ro, .l, 0⟩]⟩]

/-- The registers of the NET block (R387). -/
def regTableNET : List RegDesc := [
  ⟨0xD0000, 0x0, 1, 0x0, 1, [⟨0, 6, .rw, .l, 0⟩]⟩,
  ⟨0xD0004, 0x0, 1, 0x0, 1, [⟨0, 25, .ro, .l, 0⟩]⟩,
  ⟨0xD0008, 0x0, 1, 0x0, 1, [⟨0, 1, .w1c, .l, 0⟩, ⟨1, 1, .w1c, .l, 0⟩, ⟨2, 1, .w1c, .l, 0⟩, ⟨3, 1, .w1c, .l, 0⟩, ⟨4, 1, .w1c, .l, 0⟩, ⟨5, 1, .w1c, .l, 0⟩, ⟨6, 1, .w1c, .l, 0⟩]⟩,
  ⟨0xD0010, 0x0, 1, 0x0, 1, [⟨0, 32, .rw, .l, 0⟩]⟩,
  ⟨0xD0014, 0x0, 1, 0x0, 1, [⟨0, 32, .rw, .l, 0⟩]⟩,
  ⟨0xD0018, 0x0, 1, 0x0, 1, [⟨0, 32, .ro, .l, 0⟩]⟩,
  ⟨0xD0020, 0x0, 1, 0x0, 1, [⟨0, 32, .ro, .l, 0⟩]⟩,
  ⟨0xD0024, 0x0, 1, 0x0, 1, [⟨0, 32, .ro, .l, 0⟩]⟩,
  ⟨0xD0028, 0x0, 1, 0x0, 1, [⟨0, 32, .ro, .l, 0⟩]⟩,
  ⟨0xD0F00, 0x0, 1, 0x0, 1, [⟨0, 1, .rw, .l, 0⟩, ⟨1, 1, .rw, .l, 0⟩, ⟨2, 1, .rw, .l, 0⟩, ⟨16, 16, .rw, .l, 9⟩]⟩,
  ⟨0xD0F04, 0x0, 1, 0x0, 1, [⟨0, 32, .rw, .l, 34998⟩]⟩,
  ⟨0xD0F08, 0x4, 4, 0x0, 1, [⟨0, 32, .rw, .l, 0⟩]⟩,
  ⟨0xD0F18, 0x0, 1, 0x0, 1, [⟨0, 2, .ro, .l, 0⟩, ⟨16, 16, .ro, .l, 0⟩]⟩,
  ⟨0xD1000, 0x400, 25, 0x0, 1, [⟨0, 1, .rw, .l, 0⟩, ⟨1, 1, .rw, .l, 1⟩, ⟨2, 8, .rw, .l, 255⟩, ⟨10, 1, .rw, .s, 0⟩, ⟨11, 1, .rw, .s, 0⟩, ⟨12, 1, .rw, .s, 0⟩, ⟨13, 1, .rw, .l, 0⟩, ⟨16, 16, .rw, .l, 2000⟩]⟩,
  ⟨0xD1004, 0x400, 25, 0x0, 1, [⟨0, 1, .ro, .l, 0⟩, ⟨1, 1, .ro, .l, 0⟩, ⟨2, 1, .ro, .l, 0⟩, ⟨3, 1, .ro, .l, 0⟩, ⟨4, 1, .ro, .l, 0⟩, ⟨5, 3, .ro, .l, 0⟩, ⟨8, 3, .ro, .l, 0⟩]⟩,
  ⟨0xD1008, 0x400, 25, 0x0, 1, [⟨0, 7, .ro, .l, 0⟩, ⟨8, 10, .ro, .l, 0⟩]⟩,
  ⟨0xD100C, 0x400, 25, 0x0, 1, [⟨0, 7, .rw, .l, 16⟩, ⟨8, 10, .rw, .l, 30⟩]⟩,
  ⟨0xD1010, 0x400, 25, 0x0, 1, [⟨0, 32, .rw, .s, 0⟩]⟩,
  ⟨0xD1014, 0x400, 25, 0x0, 1, [⟨0, 32, .rw, .s, 0⟩]⟩,
  ⟨0xD1018, 0x400, 25, 0x0, 1, [⟨0, 32, .rw, .s, 0⟩]⟩,
  ⟨0xD101C, 0x400, 25, 0x0, 1, [⟨0, 32, .rw, .s, 0⟩]⟩,
  ⟨0xD1020, 0x400, 25, 0x0, 1, [⟨0, 32, .rw, .s, 0⟩]⟩,
  ⟨0xD1040, 0x400, 25, 0x0, 1, [⟨0, 32, .ro, .l, 0⟩]⟩,
  ⟨0xD1044, 0x400, 25, 0x0, 1, [⟨0, 32, .ro, .l, 0⟩]⟩,
  ⟨0xD1048, 0x400, 25, 0x0, 1, [⟨0, 32, .ro, .l, 0⟩]⟩,
  ⟨0xD104C, 0x400, 25, 0x0, 1, [⟨0, 32, .ro, .l, 0⟩]⟩,
  ⟨0xD1050, 0x400, 25, 0x0, 1, [⟨0, 32, .ro, .l, 0⟩]⟩,
  ⟨0xD1054, 0x400, 25, 0x0, 1, [⟨0, 32, .ro, .l, 0⟩]⟩,
  ⟨0xD1058, 0x400, 25, 0x0, 1, [⟨0, 32, .ro, .l, 0⟩]⟩,
  ⟨0xD105C, 0x400, 25, 0x0, 1, [⟨0, 32, .ro, .l, 0⟩]⟩,
  ⟨0xD1060, 0x400, 25, 0x0, 1, [⟨0, 32, .ro, .l, 0⟩]⟩,
  ⟨0xD1064, 0x400, 25, 0x0, 1, [⟨0, 32, .ro, .l, 0⟩]⟩,
  ⟨0xD1068, 0x400, 25, 0x0, 1, [⟨0, 32, .ro, .l, 0⟩]⟩,
  ⟨0xD106C, 0x400, 25, 0x0, 1, [⟨0, 32, .ro, .l, 0⟩]⟩,
  ⟨0xD1070, 0x400, 25, 0x0, 1, [⟨0, 32, .ro, .l, 0⟩]⟩,
  ⟨0xD1074, 0x400, 25, 0x0, 1, [⟨0, 32, .ro, .l, 0⟩]⟩,
  ⟨0xD1078, 0x400, 25, 0x0, 1, [⟨0, 32, .ro, .l, 0⟩]⟩,
  ⟨0xD107C, 0x400, 25, 0x0, 1, [⟨0, 32, .ro, .l, 0⟩]⟩,
  ⟨0xD1080, 0x400, 25, 0x0, 1, [⟨0, 32, .ro, .l, 0⟩]⟩,
  ⟨0xD1084, 0x400, 25, 0x0, 1, [⟨0, 32, .ro, .l, 0⟩]⟩,
  ⟨0xD1088, 0x400, 25, 0x0, 1, [⟨0, 32, .ro, .l, 0⟩]⟩,
  ⟨0xD108C, 0x400, 25, 0x0, 1, [⟨0, 32, .ro, .l, 0⟩]⟩,
  ⟨0xD1090, 0x400, 25, 0x0, 1, [⟨0, 32, .ro, .l, 0⟩]⟩,
  ⟨0xD1094, 0x400, 25, 0x0, 1, [⟨0, 32, .ro, .l, 0⟩]⟩,
  ⟨0xD1098, 0x400, 25, 0x0, 1, [⟨0, 32, .ro, .l, 0⟩]⟩,
  ⟨0xD1100, 0x400, 25, 0x4, 16, [⟨0, 32, .rw, .l, 0⟩]⟩,
  ⟨0xD1140, 0x400, 25, 0x4, 16, [⟨0, 32, .ro, .l, 0⟩]⟩,
  ⟨0xD1200, 0x400, 25, 0x8, 64, [⟨0, 32, .rw, .l, 0⟩]⟩,
  ⟨0xD1204, 0x400, 25, 0x8, 64, [⟨0, 16, .rw, .l, 0⟩, ⟨16, 1, .rw, .l, 0⟩, ⟨17, 2, .ro, .l, 0⟩]⟩]

/-- The registers of the PAR block (R410, R411). -/
def regTablePAR : List RegDesc := [
  ⟨0xE0000, 0x0, 1, 0x0, 1, [⟨0, 6, .rw, .l, 0⟩]⟩,
  ⟨0xE0004, 0x0, 1, 0x0, 1, [⟨0, 7, .ro, .l, 0⟩, ⟨7, 17, .ro, .l, 0⟩]⟩,
  ⟨0xE0008, 0x0, 1, 0x0, 1, [⟨0, 1, .w1c, .l, 0⟩, ⟨1, 1, .w1c, .l, 0⟩, ⟨2, 1, .w1c, .l, 0⟩]⟩,
  ⟨0xE0010, 0x0, 1, 0x0, 1, [⟨0, 32, .ro, .l, 0⟩]⟩,
  ⟨0xE0014, 0x0, 1, 0x0, 1, [⟨0, 32, .ro, .l, 0⟩]⟩,
  ⟨0xE0018, 0x0, 1, 0x0, 1, [⟨0, 32, .ro, .l, 0⟩]⟩,
  ⟨0xE001C, 0x0, 1, 0x0, 1, [⟨0, 32, .ro, .l, 0⟩]⟩,
  ⟨0xE0020, 0x0, 1, 0x0, 1, [⟨0, 32, .ro, .l, 0⟩]⟩,
  ⟨0xE0040, 0x4, 16, 0x0, 1, [⟨0, 17, .ro, .l, 0⟩]⟩,
  ⟨0xE1000, 0x4, 4096, 0x0, 1, [⟨0, 1, .ro, .l, 0⟩, ⟨1, 4, .ro, .l, 15⟩, ⟨5, 8, .ro, .l, 0⟩, ⟨13, 16, .ro, .l, 0⟩]⟩]

/-- The registers of the PAIL block (R410, R411). -/
def regTablePAIL : List RegDesc := [
  ⟨0xF0000, 0x0, 1, 0x0, 1, [⟨0, 7, .rw, .l, 0⟩]⟩,
  ⟨0xF0004, 0x0, 1, 0x0, 1, [⟨0, 9, .ro, .l, 0⟩, ⟨9, 12, .ro, .l, 0⟩]⟩,
  ⟨0xF1000, 0x40, 256, 0x0, 1, [⟨0, 3, .ro, .l, 0⟩, ⟨3, 4, .ro, .l, 0⟩, ⟨7, 1, .ro, .l, 0⟩, ⟨8, 1, .ro, .l, 0⟩, ⟨9, 1, .ro, .l, 0⟩, ⟨10, 1, .ro, .l, 0⟩, ⟨11, 9, .ro, .l, 0⟩]⟩,
  ⟨0xF1004, 0x40, 256, 0x0, 1, [⟨0, 32, .ro, .l, 0⟩]⟩,
  ⟨0xF1008, 0x40, 256, 0x0, 1, [⟨0, 32, .ro, .l, 0⟩]⟩,
  ⟨0xF100C, 0x40, 256, 0x0, 1, [⟨0, 25, .ro, .l, 0⟩]⟩,
  ⟨0xF1010, 0x40, 256, 0x0, 1, [⟨0, 25, .rw, .l, 0⟩]⟩,
  ⟨0xF1014, 0x40, 256, 0x0, 1, [⟨0, 25, .rw, .l, 0⟩]⟩,
  ⟨0xF1018, 0x40, 256, 0x0, 1, [⟨0, 25, .rw, .l, 0⟩]⟩,
  ⟨0xF101C, 0x40, 256, 0x0, 1, [⟨0, 1, .wo, .l, 0⟩, ⟨1, 6, .rw, .l, 0⟩]⟩,
  ⟨0xF1020, 0x40, 256, 0x0, 1, [⟨0, 25, .ro, .l, 0⟩, ⟨25, 1, .ro, .l, 1⟩, ⟨26, 1, .ro, .l, 0⟩, ⟨27, 1, .ro, .l, 0⟩]⟩,
  ⟨0xF1024, 0x40, 256, 0x0, 1, [⟨0, 1, .w1c, .l, 0⟩, ⟨1, 1, .w1c, .l, 0⟩, ⟨2, 1, .w1c, .l, 0⟩, ⟨3, 1, .w1c, .l, 0⟩, ⟨4, 1, .w1c, .l, 0⟩, ⟨5, 1, .w1c, .l, 0⟩, ⟨6, 1, .w1c, .l, 0⟩, ⟨7, 1, .w1c, .l, 0⟩]⟩,
  ⟨0xF1028, 0x40, 256, 0x0, 1, [⟨0, 32, .rc, .l, 4294967295⟩]⟩,
  ⟨0xF102C, 0x40, 256, 0x0, 1, [⟨0, 32, .ro, .l, 0⟩]⟩,
  ⟨0xF1030, 0x40, 256, 0x0, 1, [⟨0, 32, .ro, .l, 0⟩]⟩,
  ⟨0xF1034, 0x40, 256, 0x0, 1, [⟨0, 32, .ro, .l, 0⟩]⟩,
  ⟨0xF1038, 0x40, 256, 0x0, 1, [⟨0, 32, .ro, .l, 0⟩]⟩,
  ⟨0xF103C, 0x40, 256, 0x0, 1, [⟨0, 16, .ro, .l, 0⟩]⟩]

/-- The registers of the HBR block (R437, R438). -/
def regTableHBR : List RegDesc := [
  ⟨0x100000, 0x0, 1, 0x0, 1, [⟨0, 6, .rw, .l, 0⟩]⟩,
  ⟨0x100004, 0x0, 1, 0x0, 1, [⟨0, 1, .ro, .l, 0⟩, ⟨1, 3, .ro, .l, 0⟩, ⟨4, 3, .ro, .l, 0⟩, ⟨7, 3, .ro, .l, 0⟩, ⟨10, 3, .ro, .l, 0⟩]⟩,
  ⟨0x100008, 0x0, 1, 0x0, 1, [⟨0, 1, .w1c, .l, 0⟩, ⟨1, 1, .w1c, .l, 0⟩, ⟨2, 1, .w1c, .l, 0⟩, ⟨3, 1, .w1c, .l, 0⟩]⟩,
  ⟨0x10000C, 0x0, 1, 0x0, 1, [⟨0, 32, .ro, .l, 0⟩]⟩,
  ⟨0x100010, 0x0, 1, 0x0, 1, [⟨0, 32, .ro, .l, 0⟩]⟩,
  ⟨0x100014, 0x0, 1, 0x0, 1, [⟨0, 32, .ro, .l, 0⟩]⟩]

/-- The registers of the DBR block (R437, R438). -/
def regTableDBR : List RegDesc := [
  ⟨0x110000, 0x0, 1, 0x0, 1, [⟨0, 6, .rw, .l, 0⟩, ⟨6, 1, .rw, .l, 0⟩, ⟨8, 14, .rw, .l, 100⟩, ⟨22, 10, .rw, .l, 100⟩]⟩,
  ⟨0x110004, 0x0, 1, 0x0, 1, [⟨0, 1, .ro, .l, 0⟩, ⟨1, 7, .ro, .l, 0⟩, ⟨8, 3, .ro, .l, 0⟩, ⟨11, 3, .ro, .l, 0⟩, ⟨14, 1, .ro, .l, 0⟩]⟩,
  ⟨0x110008, 0x0, 1, 0x0, 1, [⟨0, 1, .w1c, .l, 0⟩, ⟨1, 1, .w1c, .l, 0⟩, ⟨2, 1, .w1c, .l, 0⟩, ⟨3, 1, .w1c, .l, 0⟩]⟩,
  ⟨0x11000C, 0x0, 1, 0x0, 1, [⟨0, 32, .ro, .l, 0⟩]⟩,
  ⟨0x110010, 0x0, 1, 0x0, 1, [⟨0, 32, .ro, .l, 0⟩]⟩,
  ⟨0x110014, 0x0, 1, 0x0, 1, [⟨0, 32, .ro, .l, 0⟩]⟩,
  ⟨0x110018, 0x0, 1, 0x0, 1, [⟨0, 32, .ro, .l, 0⟩]⟩,
  ⟨0x11001C, 0x0, 1, 0x0, 1, [⟨0, 16, .rc, .l, 0⟩]⟩,
  ⟨0x110040, 0x8, 6, 0x0, 1, [⟨0, 32, .ro, .l, 0⟩]⟩,
  ⟨0x110044, 0x8, 6, 0x0, 1, [⟨0, 32, .ro, .l, 0⟩]⟩,
  ⟨0x110100, 0x4, 16, 0x0, 1, [⟨0, 3, .ro, .l, 7⟩, ⟨3, 1, .wo, .l, 0⟩, ⟨4, 1, .wo, .l, 0⟩, ⟨5, 5, .ro, .l, 0⟩, ⟨10, 1, .rw, .l, 0⟩, ⟨11, 3, .rw, .l, 0⟩, ⟨14, 1, .w1c, .l, 0⟩]⟩,
  ⟨0x110200, 0x4, 8, 0x0, 1, [⟨0, 32, .rw, .l, 0⟩]⟩,
  ⟨0x110220, 0x4, 8, 0x0, 1, [⟨0, 32, .ro, .l, 0⟩]⟩]

/-- The registers of the MEM block (R458). -/
def regTableMEM : List RegDesc := [
  ⟨0x120000, 0x0, 1, 0x0, 1, [⟨0, 6, .rw, .l, 0⟩, ⟨6, 1, .rw, .l, 1⟩, ⟨7, 1, .rw, .l, 1⟩]⟩,
  ⟨0x120004, 0x0, 1, 0x0, 1, [⟨0, 2, .ro, .l, 0⟩, ⟨2, 16, .ro, .l, 0⟩, ⟨18, 2, .ro, .l, 0⟩]⟩,
  ⟨0x120008, 0x0, 1, 0x0, 1, [⟨0, 1, .w1c, .l, 0⟩, ⟨1, 1, .w1c, .l, 0⟩, ⟨2, 1, .w1c, .l, 0⟩, ⟨3, 1, .w1c, .l, 0⟩, ⟨4, 1, .w1c, .l, 0⟩]⟩,
  ⟨0x12000C, 0x0, 1, 0x0, 1, [⟨0, 32, .ro, .l, 0⟩]⟩,
  ⟨0x120010, 0x0, 1, 0x0, 1, [⟨0, 32, .ro, .l, 0⟩]⟩,
  ⟨0x120014, 0x0, 1, 0x0, 1, [⟨0, 32, .ro, .l, 0⟩]⟩,
  ⟨0x120018, 0x0, 1, 0x0, 1, [⟨0, 32, .ro, .l, 0⟩]⟩,
  ⟨0x120020, 0x0, 1, 0x0, 1, [⟨0, 32, .ro, .l, 0⟩]⟩,
  ⟨0x120024, 0x0, 1, 0x0, 1, [⟨0, 32, .ro, .l, 0⟩]⟩,
  ⟨0x120028, 0x0, 1, 0x0, 1, [⟨0, 3, .ro, .l, 0⟩, ⟨3, 4, .ro, .l, 0⟩, ⟨7, 1, .ro, .l, 0⟩, ⟨8, 1, .ro, .l, 0⟩]⟩,
  ⟨0x120030, 0x0, 1, 0x0, 1, [⟨0, 24, .ro, .l, 16777215⟩, ⟨24, 3, .ro, .l, 7⟩]⟩,
  ⟨0x120034, 0x0, 1, 0x0, 1, [⟨0, 11, .ro, .l, 0⟩, ⟨16, 11, .rc, .l, 0⟩]⟩,
  ⟨0x120038, 0x0, 1, 0x0, 1, [⟨0, 16, .ro, .l, 0⟩, ⟨16, 16, .ro, .l, 0⟩]⟩,
  ⟨0x120040, 0x0, 1, 0x0, 1, [⟨0, 32, .ro, .l, 0⟩]⟩,
  ⟨0x120044, 0x0, 1, 0x0, 1, [⟨0, 32, .ro, .l, 0⟩]⟩]

/-- The registers of the RED block (R490). -/
def regTableRED : List RegDesc := [
  ⟨0x130000, 0x0, 1, 0x0, 1, [⟨0, 1, .rw, .s, 0⟩, ⟨1, 1, .rw, .l, 0⟩, ⟨2, 1, .rw, .l, 1⟩, ⟨3, 1, .rw, .l, 0⟩]⟩,
  ⟨0x130004, 0x0, 1, 0x0, 1, [⟨0, 2, .ro, .l, 0⟩, ⟨2, 1, .ro, .l, 0⟩, ⟨3, 1, .ro, .l, 0⟩, ⟨4, 1, .ro, .l, 0⟩, ⟨5, 1, .ro, .l, 0⟩, ⟨6, 1, .ro, .l, 0⟩, ⟨7, 1, .ro, .l, 0⟩, ⟨8, 2, .ro, .l, 0⟩, ⟨10, 1, .ro, .l, 0⟩]⟩,
  ⟨0x130008, 0x0, 1, 0x0, 1, [⟨0, 11, .ro, .l, 1⟩]⟩,
  ⟨0x13000C, 0x0, 1, 0x0, 1, [⟨0, 1, .w1c, .l, 0⟩, ⟨1, 1, .w1c, .l, 0⟩, ⟨2, 1, .w1c, .l, 0⟩, ⟨3, 1, .w1c, .l, 0⟩, ⟨4, 1, .w1c, .l, 0⟩, ⟨5, 1, .w1c, .l, 0⟩, ⟨6, 1, .w1c, .l, 0⟩, ⟨7, 1, .w1c, .l, 0⟩, ⟨8, 1, .w1c, .l, 0⟩, ⟨9, 1, .w1c, .l, 0⟩, ⟨10, 1, .w1c, .l, 0⟩, ⟨11, 1, .w1c, .l, 0⟩, ⟨12, 1, .w1c, .l, 0⟩]⟩,
  ⟨0x130010, 0x0, 1, 0x0, 1, [⟨0, 3, .rw, .l, 0⟩, ⟨3, 1, .rw, .l, 0⟩, ⟨31, 1, .wo, .l, 0⟩]⟩,
  ⟨0x130014, 0x0, 1, 0x0, 1, [⟨0, 8, .ro, .l, 0⟩, ⟨8, 3, .ro, .l, 0⟩]⟩,
  ⟨0x130018, 0x0, 1, 0x0, 1, [⟨0, 16, .rw, .s, 34999⟩]⟩,
  ⟨0x13001C, 0x0, 1, 0x0, 1, [⟨0, 32, .rw, .s, 0⟩]⟩,
  ⟨0x130020, 0x0, 1, 0x0, 1, [⟨0, 32, .rw, .s, 0⟩]⟩,
  ⟨0x130024, 0x0, 1, 0x0, 1, [⟨0, 32, .ro, .l, 0⟩]⟩,
  ⟨0x130028, 0x0, 1, 0x0, 1, [⟨0, 32, .ro, .l, 0⟩]⟩,
  ⟨0x13002C, 0x0, 1, 0x0, 1, [⟨0, 32, .ro, .l, 0⟩]⟩,
  ⟨0x130030, 0x0, 1, 0x0, 1, [⟨0, 32, .ro, .l, 0⟩]⟩,
  ⟨0x130034, 0x0, 1, 0x0, 1, [⟨0, 32, .ro, .l, 0⟩]⟩,
  ⟨0x130038, 0x0, 1, 0x0, 1, [⟨0, 32, .ro, .l, 0⟩]⟩,
  ⟨0x13003C, 0x0, 1, 0x0, 1, [⟨0, 32, .ro, .l, 0⟩]⟩,
  ⟨0x130040, 0x0, 1, 0x0, 1, [⟨0, 32, .ro, .l, 0⟩]⟩,
  ⟨0x130044, 0x0, 1, 0x0, 1, [⟨0, 32, .ro, .l, 0⟩]⟩,
  ⟨0x130048, 0x0, 1, 0x0, 1, [⟨0, 32, .ro, .l, 0⟩]⟩,
  ⟨0x13004C, 0x0, 1, 0x0, 1, [⟨0, 16, .ro, .l, 0⟩]⟩,
  ⟨0x130100, 0x4, 16, 0x0, 1, [⟨0, 32, .ro, .l, 0⟩]⟩,
  ⟨0x134000, 0x10, 1024, 0x0, 1, [⟨0, 32, .ro, .l, 0⟩]⟩,
  ⟨0x134004, 0x10, 1024, 0x0, 1, [⟨0, 8, .ro, .l, 0⟩, ⟨8, 8, .ro, .l, 0⟩, ⟨16, 8, .ro, .l, 0⟩]⟩,
  ⟨0x134008, 0x10, 1024, 0x0, 1, [⟨0, 32, .ro, .l, 0⟩]⟩,
  ⟨0x13400C, 0x10, 1024, 0x0, 1, [⟨0, 32, .ro, .l, 0⟩]⟩]

/-- The registers of the PCR block (R517, R518). -/
def regTablePCR : List RegDesc := [
  ⟨0x140000, 0x0, 1, 0x0, 1, [⟨0, 6, .rw, .l, 0⟩, ⟨6, 14, .rw, .l, 100⟩]⟩,
  ⟨0x140004, 0x0, 1, 0x0, 1, [⟨0, 4, .ro, .l, 1⟩, ⟨4, 3, .ro, .l, 0⟩, ⟨7, 1, .ro, .l, 0⟩]⟩,
  ⟨0x140008, 0x0, 1, 0x0, 1, [⟨0, 1, .w1c, .l, 0⟩, ⟨1, 1, .w1c, .l, 0⟩, ⟨2, 1, .w1c, .l, 0⟩, ⟨3, 1, .w1c, .l, 0⟩, ⟨4, 1, .w1c, .l, 0⟩, ⟨5, 1, .w1c, .l, 0⟩, ⟨6, 1, .w1c, .l, 0⟩, ⟨7, 1, .w1c, .l, 0⟩]⟩,
  ⟨0x14000C, 0x0, 1, 0x0, 1, [⟨0, 16, .ro, .l, 1⟩, ⟨16, 16, .ro, .l, 0⟩]⟩,
  ⟨0x140010, 0x0, 1, 0x0, 1, [⟨0, 1, .ro, .l, 0⟩, ⟨1, 1, .ro, .l, 0⟩, ⟨2, 1, .ro, .l, 0⟩, ⟨3, 1, .ro, .l, 0⟩, ⟨4, 12, .ro, .l, 0⟩, ⟨16, 6, .ro, .l, 0⟩]⟩,
  ⟨0x140014, 0x0, 1, 0x0, 1, [⟨0, 5, .ro, .l, 0⟩, ⟨5, 4, .ro, .l, 0⟩, ⟨16, 16, .ro, .l, 0⟩]⟩,
  ⟨0x140018, 0x0, 1, 0x0, 1, [⟨0, 24, .wo, .l, 0⟩]⟩,
  ⟨0x14001C, 0x0, 1, 0x0, 1, [⟨0, 24, .ro, .l, 0⟩, ⟨24, 1, .ro, .l, 0⟩]⟩,
  ⟨0x140020, 0x0, 1, 0x0, 1, [⟨0, 16, .wo, .l, 0⟩, ⟨31, 1, .wo, .l, 0⟩]⟩,
  ⟨0x140024, 0x0, 1, 0x0, 1, [⟨0, 16, .rw, .l, 1000⟩]⟩,
  ⟨0x140028, 0x0, 1, 0x0, 1, [⟨0, 16, .rw, .l, 2000⟩]⟩,
  ⟨0x14002C, 0x0, 1, 0x0, 1, [⟨0, 32, .ro, .l, 0⟩]⟩,
  ⟨0x140030, 0x0, 1, 0x0, 1, [⟨0, 16, .ro, .l, 0⟩, ⟨16, 8, .ro, .l, 0⟩]⟩,
  ⟨0x140034, 0x0, 1, 0x0, 1, [⟨0, 8, .ro, .l, 0⟩, ⟨8, 4, .ro, .l, 0⟩, ⟨12, 4, .ro, .l, 0⟩, ⟨16, 12, .ro, .l, 750⟩]⟩,
  ⟨0x140038, 0x0, 1, 0x0, 1, [⟨0, 32, .ro, .l, 0⟩]⟩,
  ⟨0x14003C, 0x0, 1, 0x0, 1, [⟨0, 32, .ro, .l, 0⟩]⟩,
  ⟨0x140040, 0x0, 1, 0x0, 1, [⟨0, 32, .rw, .l, 0⟩]⟩,
  ⟨0x140044, 0x0, 1, 0x0, 1, [⟨0, 16, .ro, .l, 65535⟩]⟩,
  ⟨0x140100, 0x4, 16, 0x0, 1, [⟨0, 32, .rw, .l, 0⟩]⟩]

/-- The registers of the STA block (R517, R518). -/
def regTableSTA : List RegDesc := [
  ⟨0x150000, 0x0, 1, 0x0, 1, [⟨0, 2, .ro, .l, 0⟩, ⟨2, 1, .ro, .l, 0⟩, ⟨3, 1, .ro, .l, 0⟩, ⟨4, 1, .ro, .l, 0⟩, ⟨8, 8, .ro, .l, 0⟩]⟩,
  ⟨0x150004, 0x0, 1, 0x0, 1, [⟨0, 1, .rc, .l, 0⟩, ⟨1, 1, .rc, .l, 0⟩, ⟨2, 1, .rc, .l, 0⟩]⟩,
  ⟨0x150008, 0x0, 1, 0x0, 1, [⟨0, 4, .ro, .l, 0⟩, ⟨4, 8, .ro, .l, 0⟩, ⟨12, 2, .ro, .l, 0⟩]⟩,
  ⟨0x15000C, 0x0, 1, 0x0, 1, [⟨0, 32, .ro, .l, 0⟩]⟩,
  ⟨0x150010, 0x0, 1, 0x0, 1, [⟨0, 32, .ro, .l, 0⟩]⟩,
  ⟨0x150014, 0x0, 1, 0x0, 1, [⟨0, 3, .ro, .l, 0⟩, ⟨16, 16, .ro, .l, 0⟩]⟩]

/-- The registers of the FLT block (R542 to R544). -/
def regTableFLT : List RegDesc := [
  ⟨0x160000, 0x0, 1, 0x0, 1, [⟨0, 6, .rw, .l, 0⟩, ⟨6, 1, .rw, .l, 0⟩]⟩,
  ⟨0x160008, 0x0, 1, 0x0, 1, [⟨0, 1, .w1c, .l, 0⟩, ⟨1, 1, .w1c, .l, 0⟩, ⟨2, 1, .w1c, .l, 0⟩]⟩,
  ⟨0x160010, 0x0, 1, 0x0, 1, [⟨0, 8, .rw, .l, 0⟩, ⟨8, 8, .rw, .l, 0⟩, ⟨16, 8, .rw, .l, 1⟩, ⟨24, 1, .rw, .l, 0⟩]⟩,
  ⟨0x160014, 0x0, 1, 0x0, 1, [⟨0, 32, .rw, .l, 0⟩]⟩,
  ⟨0x160018, 0x0, 1, 0x0, 1, [⟨0, 1, .wo, .l, 0⟩, ⟨1, 1, .wo, .l, 0⟩, ⟨16, 16, .wo, .l, 0⟩]⟩,
  ⟨0x16001C, 0x0, 1, 0x0, 1, [⟨0, 8, .ro, .l, 0⟩, ⟨8, 4, .ro, .l, 0⟩, ⟨12, 3, .ro, .l, 0⟩, ⟨15, 1, .ro, .l, 0⟩, ⟨16, 8, .ro, .l, 0⟩]⟩,
  ⟨0x160100, 0x4, 50, 0x0, 1, [⟨0, 24, .ro, .l, 0⟩, ⟨24, 8, .ro, .l, 0⟩]⟩]

/-- The registers of the TLY block (R542 to R544). -/
def regTableTLY : List RegDesc := [
  ⟨0x170000, 0x0, 1, 0x0, 1, [⟨0, 6, .rw, .l, 0⟩, ⟨6, 1, .rw, .l, 1⟩]⟩,
  ⟨0x170004, 0x0, 1, 0x0, 1, [⟨0, 1, .ro, .l, 0⟩, ⟨1, 1, .ro, .l, 0⟩, ⟨16, 16, .ro, .l, 0⟩]⟩,
  ⟨0x170008, 0x0, 1, 0x0, 1, [⟨0, 1, .w1c, .l, 0⟩, ⟨1, 1, .w1c, .l, 0⟩, ⟨2, 1, .w1c, .l, 0⟩, ⟨3, 1, .w1c, .l, 0⟩, ⟨4, 1, .w1c, .l, 0⟩]⟩,
  ⟨0x17000C, 0x0, 1, 0x0, 1, [⟨0, 18, .ro, .l, 0⟩]⟩,
  ⟨0x170010, 0x0, 1, 0x0, 1, [⟨0, 18, .ro, .l, 0⟩]⟩,
  ⟨0x170014, 0x0, 1, 0x0, 1, [⟨0, 32, .ro, .l, 0⟩]⟩,
  ⟨0x170018, 0x0, 1, 0x0, 1, [⟨0, 32, .ro, .l, 0⟩]⟩,
  ⟨0x17001C, 0x0, 1, 0x0, 1, [⟨0, 32, .ro, .l, 0⟩]⟩,
  ⟨0x170020, 0x0, 1, 0x0, 1, [⟨0, 32, .ro, .l, 0⟩]⟩,
  ⟨0x170024, 0x0, 1, 0x0, 1, [⟨0, 32, .ro, .l, 0⟩]⟩,
  ⟨0x170028, 0x0, 1, 0x0, 1, [⟨0, 32, .ro, .l, 0⟩]⟩,
  ⟨0x17002C, 0x0, 1, 0x0, 1, [⟨0, 32, .ro, .l, 0⟩]⟩,
  ⟨0x170030, 0x0, 1, 0x0, 1, [⟨0, 32, .ro, .l, 0⟩]⟩,
  ⟨0x170034, 0x0, 1, 0x0, 1, [⟨0, 32, .ro, .l, 0⟩]⟩,
  ⟨0x170038, 0x0, 1, 0x0, 1, [⟨0, 32, .ro, .l, 0⟩]⟩,
  ⟨0x178000, 0x4, 5376, 0x0, 1, [⟨0, 8, .rw, .l, 100⟩, ⟨8, 8, .rw, .l, 32⟩, ⟨16, 16, .ro, .l, 0⟩]⟩]

/-- The registers of the CRC block (R542 to R544). -/
def regTableCRC : List RegDesc := [
  ⟨0x180000, 0x0, 1, 0x0, 1, [⟨0, 6, .rw, .l, 0⟩]⟩,
  ⟨0x180008, 0x0, 1, 0x0, 1, [⟨0, 8, .w1c, .l, 0⟩, ⟨8, 1, .w1c, .l, 0⟩]⟩,
  ⟨0x180100, 0x40, 8, 0x0, 1, [⟨0, 1, .rw, .l, 0⟩, ⟨1, 2, .rw, .s, 0⟩, ⟨3, 3, .rw, .s, 0⟩, ⟨6, 3, .rw, .s, 0⟩, ⟨9, 8, .rw, .s, 0⟩, ⟨17, 1, .rw, .s, 0⟩, ⟨18, 1, .rw, .l, 0⟩]⟩,
  ⟨0x180104, 0x40, 8, 0x0, 1, [⟨0, 16, .rw, .s, 0⟩]⟩,
  ⟨0x180108, 0x40, 8, 0x0, 1, [⟨0, 32, .ro, .l, 0⟩]⟩,
  ⟨0x18010C, 0x40, 8, 0x0, 1, [⟨0, 32, .ro, .l, 0⟩]⟩,
  ⟨0x180110, 0x40, 8, 0x0, 1, [⟨0, 32, .ro, .l, 0⟩]⟩,
  ⟨0x180114, 0x40, 8, 0x0, 1, [⟨0, 32, .ro, .l, 0⟩]⟩,
  ⟨0x180118, 0x40, 8, 0x0, 1, [⟨0, 32, .rw, .l, 0⟩]⟩,
  ⟨0x18011C, 0x40, 8, 0x0, 1, [⟨0, 32, .rw, .l, 0⟩]⟩,
  ⟨0x180120, 0x40, 8, 0x0, 1, [⟨0, 32, .ro, .l, 0⟩]⟩,
  ⟨0x180124, 0x40, 8, 0x0, 1, [⟨0, 32, .ro, .l, 0⟩]⟩]

/-- The registers of the UPD block (R564). -/
def regTableUPD : List RegDesc := [
  ⟨0x190000, 0x0, 1, 0x0, 1, [⟨0, 6, .rw, .l, 0⟩, ⟨6, 1, .rw, .l, 0⟩, ⟨7, 12, .rw, .l, 60⟩]⟩,
  ⟨0x190004, 0x0, 1, 0x0, 1, [⟨0, 32, .rw, .l, 0⟩]⟩,
  ⟨0x190008, 0x0, 1, 0x0, 1, [⟨0, 32, .rw, .l, 0⟩]⟩,
  ⟨0x19000C, 0x0, 1, 0x0, 1, [⟨0, 32, .rw, .l, 0⟩]⟩,
  ⟨0x190010, 0x0, 1, 0x0, 1, [⟨0, 3, .rw, .l, 0⟩, ⟨3, 2, .rw, .l, 0⟩, ⟨31, 1, .wo, .l, 0⟩]⟩,
  ⟨0x190014, 0x0, 1, 0x0, 1, [⟨0, 8, .ro, .l, 0⟩, ⟨8, 4, .ro, .l, 0⟩, ⟨12, 3, .ro, .l, 0⟩, ⟨15, 4, .ro, .l, 0⟩, ⟨19, 3, .ro, .l, 7⟩, ⟨22, 1, .ro, .l, 0⟩]⟩,
  ⟨0x190018, 0x0, 1, 0x0, 1, [⟨0, 1, .w1c, .l, 0⟩, ⟨1, 1, .w1c, .l, 0⟩, ⟨2, 1, .w1c, .l, 0⟩, ⟨3, 1, .w1c, .l, 0⟩, ⟨4, 1, .w1c, .l, 0⟩, ⟨5, 1, .w1c, .l, 0⟩]⟩,
  ⟨0x19001C, 0x0, 1, 0x0, 1, [⟨0, 16, .ro, .l, 0⟩, ⟨16, 12, .ro, .l, 0⟩]⟩,
  ⟨0x190020, 0x4, 4, 0x0, 1, [⟨0, 32, .ro, .l, 0⟩]⟩,
  ⟨0x190030, 0x4, 4, 0x0, 1, [⟨0, 3, .ro, .l, 0⟩, ⟨3, 1, .ro, .l, 0⟩, ⟨4, 6, .ro, .l, 0⟩]⟩,
  ⟨0x190040, 0x4, 4, 0x0, 1, [⟨0, 32, .ro, .l, 0⟩]⟩,
  ⟨0x190050, 0x0, 1, 0x0, 1, [⟨0, 6, .ro, .l, 0⟩, ⟨8, 6, .ro, .l, 0⟩]⟩]

/-- The table of one block, numbered as its base divided by 0x1_0000 (R566). -/
def regTableOf : Nat → List RegDesc
  | 0 => regTableSYS
  | 1 => regTableSTR
  | 2 => regTableCE
  | 3 => regTableCH
  | 4 => regTableING
  | 5 => regTableCMP
  | 6 => regTableSEP
  | 7 => regTableCAL
  | 8 => regTableGOV
  | 9 => regTableDVL
  | 10 => regTableFIX
  | 11 => regTableDDP
  | 12 => regTableTIM
  | 13 => regTableNET
  | 14 => regTablePAR
  | 15 => regTablePAIL
  | 16 => regTableHBR
  | 17 => regTableDBR
  | 18 => regTableMEM
  | 19 => regTableRED
  | 20 => regTablePCR
  | 21 => regTableSTA
  | 22 => regTableFLT
  | 23 => regTableTLY
  | 24 => regTableCRC
  | 25 => regTableUPD
  | _ => []

end Sys2Proof.Machine
end

