-- ==== Sys2Proof/Machine/RegReset.lean ====
section
/-! DEFINITION. Finding a register in the table, and what a register reads as at reset: the table's reset values, and
those that the owning rules give case by case. -/
namespace Sys2Proof.Machine

/-- The register of a table row covers this BAR0 offset. -/
def RegDesc.covers (d : RegDesc) (a : Nat) : Bool :=
  if a < d.base then false
  else
    let x := a - d.base
    let i := if d.strideA = 0 then 0 else min (x / d.strideA) (d.countA - 1)
    let y := x - i * d.strideA
    if d.strideB = 0 then y == 0 else (y % d.strideB == 0) && decide (y / d.strideB < d.countB)

/-- The row of the register at a BAR0 offset, or none where the offset names no register (R6). -/
def findReg (a : Nat) : Option RegDesc := (regTableOf (a / 0x10000)).find? (fun d => d.covers a)

/-- The word that a row's reset values spell. -/
def RegDesc.resetWord (d : RegDesc) : Nat :=
  d.fields.foldl (fun w f => w + (f.reset % 2 ^ f.width) * 2 ^ f.lo) 0

/-- The Tally codes whose rate resets to 255 (R533). -/
def tallyUnlimited : List Nat := [0x0020, 0x0100, 0x0102, 0x1101, 0x1102, 0x1200, 0x1208, 0x0C05, 0x1300, 0x1301, 0x1302]

/-- The region table of the bridge (R424): base, length and the VOLATILE, SLOW and WRITE bits of ATTR. -/
def regionTable : List (Nat × Nat × Nat) :=
  [(0x0D0F00, 0x100, 4), (0x140000, 0x10000, 7), (0x150000, 0x10000, 5), (0x170000, 0x10000, 5),
   (0x1200000, 0x10000, 4), (0x1240000, 0x40000, 0)]

/-- Fuse values of the part (DESIGN CHOICE): the stepping code B0 of R571, the serial number, the base of the MAC
addresses and the two rollback counters. -/
def fuseStepping : Nat := 0x20
def fuseSerial : Nat := 0
def fuseMac : Nat := 0
def fuseFwRollback : Nat := 0
def fuseStrRollback : Nat := 0

/-- Registers whose reset value the table does not give as a number: the codes of R533, the region table of R424, the
stepping and the rollback counters from the fuses, and the MAC address of each link (R371). -/
def regResetSpecial (a : Nat) : Option Nat :=
  if 0x178000 ≤ a ∧ a < 0x178000 + 4 * 0x1500 ∧ tallyUnlimited.contains ((a - 0x178000) / 4) then some (255 + 32 * 256)
  else if 0x110040 ≤ a ∧ a < 0x110070 then
    let r := regionTable.getD ((a - 0x110040) / 8) (0, 0, 0)
    if (a - 0x110040) % 8 = 0 then some r.1 else some (r.2.1 + r.2.2 * 2 ^ 24)
  else if a = 0x4 then some fuseStepping
  else if a = 0x190050 then some (fuseFwRollback + fuseStrRollback * 2 ^ 8)
  else if 0xD1010 ≤ a ∧ a < 0xD1010 + 0x400 * 25 ∧ (a - 0xD1010) % 0x400 = 0 then
    some ((fuseMac + (a - 0xD1010) / 0x400) % 2 ^ 32)
  else if 0xD1014 ≤ a ∧ a < 0xD1014 + 0x400 * 25 ∧ (a - 0xD1014) % 0x400 = 0 then
    some ((fuseMac + (a - 0xD1014) / 0x400) / 2 ^ 32)
  else none

/-- What the register at a BAR0 offset holds at reset; 0 where the offset names no register. -/
def regReset (a : Nat) : Word :=
  match regResetSpecial a with
  | some v => BitVec.ofNat 32 v
  | none =>
    match findReg a with
    | some d => BitVec.ofNat 32 d.resetWord
    | none => 0

/-- The dwords of the MSI-X table at reset: the vector control word masked, the rest 0. -/
def msixReset (k : Nat) : Word := if k % 4 = 3 then 1 else 0

end Sys2Proof.Machine
end

