-- ==== Sys2Proof/Machine/Regs.lean ====
section
/-! DEFINITION. The names of the registers and of their fields, as the register tables of the spec give them
(R569 and the owning chapters' tables). `R.X` is the whole register X, `F.X_Y` is its field Y; both are a base
offset in BAR0, a stride for the arrays and windows, the lowest bit and the width. -/
namespace Sys2Proof.Machine

namespace R
def SYS_ID : Field := ⟨0x0, 0x0, 0, 32⟩
def SYS_STEP : Field := ⟨0x4, 0x0, 0, 32⟩
def SYS_CAP0 : Field := ⟨0x8, 0x0, 0, 32⟩
def SYS_CAP1 : Field := ⟨0xC, 0x0, 0, 32⟩
def SYS_ACCESS_ERR : Field := ⟨0x10, 0x0, 0, 32⟩
def SYS_SCRATCH : Field := ⟨0x14, 0x0, 0, 32⟩
def SYS_S_REJECT_CNT : Field := ⟨0x18, 0x0, 0, 32⟩
def SYS_S_REJECT_ADDR : Field := ⟨0x1C, 0x0, 0, 32⟩
def SYS_FRAME_NUM_LO : Field := ⟨0x100, 0x0, 0, 32⟩
def SYS_FRAME_NUM_HI : Field := ⟨0x104, 0x0, 0, 32⟩
def SYS_PIPE_CTL : Field := ⟨0x108, 0x0, 0, 32⟩
def SYS_PIPE_STAT : Field := ⟨0x10C, 0x0, 0, 32⟩
def SYS_FORECAST_LATE_CNT : Field := ⟨0x110, 0x0, 0, 32⟩
def SYS_BAND_UNSENT_CNT : Field := ⟨0x114, 0x0, 0, 32⟩
def SYS_BG_STAT : Field := ⟨0x120, 0x4, 0, 32⟩
def SYS_MODE_REQ : Field := ⟨0x180, 0x0, 0, 32⟩
def SYS_MODE_STAT : Field := ⟨0x184, 0x0, 0, 32⟩
def SYS_MODE_CTL : Field := ⟨0x188, 0x0, 0, 32⟩
def SYS_MODE_EVT : Field := ⟨0x18C, 0x0, 0, 32⟩
def SYS_MODE_TRANS_US : Field := ⟨0x190, 0x0, 0, 32⟩
def SYS_HOLD_CNT : Field := ⟨0x194, 0x0, 0, 32⟩
def STR_ID_LO : Field := ⟨0x10000, 0x0, 0, 32⟩
def STR_ID_HI : Field := ⟨0x10004, 0x0, 0, 32⟩
def STR_VER : Field := ⟨0x10008, 0x0, 0, 32⟩
def STR_STAT : Field := ⟨0x1000C, 0x0, 0, 32⟩
def STR_LOAD_ADDR_LO : Field := ⟨0x10010, 0x0, 0, 32⟩
def STR_LOAD_ADDR_HI : Field := ⟨0x10014, 0x0, 0, 32⟩
def STR_LOAD_LEN : Field := ⟨0x10018, 0x0, 0, 32⟩
def STR_LOAD_FRAME_LO : Field := ⟨0x1001C, 0x0, 0, 32⟩
def STR_LOAD_FRAME_HI : Field := ⟨0x10020, 0x0, 0, 32⟩
def STR_LOAD_CTL : Field := ⟨0x10024, 0x0, 0, 32⟩
def STR_LOAD_STAT : Field := ⟨0x10028, 0x0, 0, 32⟩
def STR_EVT : Field := ⟨0x1002C, 0x0, 0, 32⟩
def STR_ENGINE : Field := ⟨0x10040, 0x4, 0, 32⟩
def STR_CAP : Field := ⟨0x10100, 0x4, 0, 32⟩
def CE_CTL : Field := ⟨0x20000, 0x1000, 0, 32⟩
def CE_STAT : Field := ⟨0x20004, 0x1000, 0, 32⟩
def CE_EVT : Field := ⟨0x20008, 0x1000, 0, 32⟩
def CE_ECC_CNT : Field := ⟨0x2000C, 0x1000, 0, 32⟩
def CE_KIND_LOAD : Field := ⟨0x20010, 0x4, 0, 32⟩
def CE_SIG_REF : Field := ⟨0x20020, 0x1000, 0, 32⟩
def CE_SIG_LAST : Field := ⟨0x20024, 0x1000, 0, 32⟩
def CE_SIG_FRAME_LO : Field := ⟨0x20028, 0x1000, 0, 32⟩
def CE_SIG_FRAME_HI : Field := ⟨0x2002C, 0x1000, 0, 32⟩
def CE_ITEMS_LO : Field := ⟨0x20030, 0x1000, 0, 32⟩
def CE_ITEMS_HI : Field := ⟨0x20034, 0x1000, 0, 32⟩
def CH_CTL : Field := ⟨0x30000, 0x0, 0, 32⟩
def CH_REG_SET : Field := ⟨0x30004, 0x0, 0, 32⟩
def CH_STAT : Field := ⟨0x30008, 0x0, 0, 32⟩
def CH_EVT : Field := ⟨0x3000C, 0x0, 0, 32⟩
def CH_COMMIT_CNT : Field := ⟨0x30010, 0x0, 0, 32⟩
def CH_REJECT_CNT : Field := ⟨0x30014, 0x0, 0, 32⟩
def CH_DISCARD_CNT : Field := ⟨0x30018, 0x0, 0, 32⟩
def CH_STALE_CNT : Field := ⟨0x3001C, 0x0, 0, 32⟩
def CH_CUE_FREE : Field := ⟨0x30020, 0x0, 0, 32⟩
def CH_SET_STAT : Field := ⟨0x30040, 0x4, 0, 32⟩
def CH_ROUTE : Field := ⟨0x30400, 0x4, 0, 32⟩
def ING_CTL : Field := ⟨0x40000, 0x0, 0, 32⟩
def ING_STAT : Field := ⟨0x40004, 0x0, 0, 32⟩
def ING_EVT : Field := ⟨0x40008, 0x0, 0, 32⟩
def ING_FILTERED : Field := ⟨0x4000C, 0x0, 0, 32⟩
def ING_JOB_SRC_LO : Field := ⟨0x40020, 0x0, 0, 32⟩
def ING_JOB_SRC_HI : Field := ⟨0x40024, 0x0, 0, 32⟩
def ING_JOB_PITCH : Field := ⟨0x40028, 0x0, 0, 32⟩
def ING_JOB_FMT : Field := ⟨0x4002C, 0x0, 0, 32⟩
def ING_JOB_DST : Field := ⟨0x40030, 0x0, 0, 32⟩
def ING_JOB_SLOT : Field := ⟨0x40034, 0x0, 0, 32⟩
def ING_JOB_CTL : Field := ⟨0x40038, 0x0, 0, 32⟩
def ING_JOB_STAT : Field := ⟨0x4003C, 0x0, 0, 32⟩
def ING_S_STAT : Field := ⟨0x41000, 0x40, 0, 32⟩
def ING_S_COMPLETE : Field := ⟨0x41004, 0x40, 0, 32⟩
def ING_S_PARTIAL : Field := ⟨0x41008, 0x40, 0, 32⟩
def ING_S_LOST : Field := ⟨0x4100C, 0x40, 0, 32⟩
def ING_S_LATE : Field := ⟨0x41010, 0x40, 0, 32⟩
def ING_S_FORMAT : Field := ⟨0x41014, 0x40, 0, 32⟩
def ING_S_MEDIA_LO : Field := ⟨0x41018, 0x40, 0, 32⟩
def ING_S_MEDIA_HI : Field := ⟨0x4101C, 0x40, 0, 32⟩
def CMP_CTL : Field := ⟨0x50000, 0x0, 0, 32⟩
def CMP_STAT : Field := ⟨0x50004, 0x0, 0, 32⟩
def CMP_EVT : Field := ⟨0x50008, 0x0, 0, 32⟩
def CMP_DROP_CNT : Field := ⟨0x5000C, 0x0, 0, 32⟩
def CMP_BAND_PEAK : Field := ⟨0x50010, 0x0, 0, 32⟩
def CMP_DITHER : Field := ⟨0x50014, 0x0, 0, 32⟩
def CMP_COEF_ADDR_LO : Field := ⟨0x50020, 0x0, 0, 32⟩
def CMP_COEF_ADDR_HI : Field := ⟨0x50024, 0x0, 0, 32⟩
def CMP_COEF_CTL : Field := ⟨0x50028, 0x0, 0, 32⟩
def CMP_COEF_STAT : Field := ⟨0x5002C, 0x0, 0, 32⟩
def CMP_SCALER : Field := ⟨0x50100, 0x4, 0, 32⟩
def WB_CTL : Field := ⟨0x50400, 0x40, 0, 32⟩
def WB_REGION : Field := ⟨0x50404, 0x40, 0, 32⟩
def WB_XY : Field := ⟨0x50408, 0x40, 0, 32⟩
def WB_WH : Field := ⟨0x5040C, 0x40, 0, 32⟩
def WB_ADDR_LO : Field := ⟨0x50410, 0x40, 0, 32⟩
def WB_ADDR_HI : Field := ⟨0x50414, 0x40, 0, 32⟩
def WB_PITCH : Field := ⟨0x50418, 0x40, 0, 32⟩
def WB_DST : Field := ⟨0x5041C, 0x40, 0, 32⟩
def WB_SLOT : Field := ⟨0x50420, 0x40, 0, 32⟩
def WB_STAT : Field := ⟨0x50424, 0x40, 0, 32⟩
def WB_FRAME_LO : Field := ⟨0x50428, 0x40, 0, 32⟩
def WB_FRAME_HI : Field := ⟨0x5042C, 0x40, 0, 32⟩
def L_STAT : Field := ⟨0x51000, 0x20, 0, 32⟩
def L_DROP_CNT : Field := ⟨0x51004, 0x20, 0, 32⟩
def L_NOT_READY_CNT : Field := ⟨0x51008, 0x20, 0, 32⟩
def L_ABSENT_CNT : Field := ⟨0x5100C, 0x20, 0, 32⟩
def SEP_CTL : Field := ⟨0x60000, 0x0, 0, 32⟩
def SEP_STAT : Field := ⟨0x60004, 0x0, 0, 32⟩
def SEP_EVT : Field := ⟨0x60008, 0x0, 0, 32⟩
def SEP_PIXELS : Field := ⟨0x6000C, 0x0, 0, 32⟩
def SEP_SUM_BASE_LO : Field := ⟨0x60010, 0x0, 0, 32⟩
def SEP_SUM_BASE_HI : Field := ⟨0x60014, 0x0, 0, 32⟩
def SEP_SUM_FRAME_LO : Field := ⟨0x60018, 0x0, 0, 32⟩
def SEP_SUM_FRAME_HI : Field := ⟨0x6001C, 0x0, 0, 32⟩
def SEP_CURVE_ADDR_LO : Field := ⟨0x60020, 0x0, 0, 32⟩
def SEP_CURVE_ADDR_HI : Field := ⟨0x60024, 0x0, 0, 32⟩
def SEP_CURVE_CTL : Field := ⟨0x60028, 0x0, 0, 32⟩
def SEP_CURVE_STAT : Field := ⟨0x6002C, 0x0, 0, 32⟩
def SEP_CURVE_LOADED : Field := ⟨0x60030, 0x0, 0, 32⟩
def SEP_OUTSIDE_CNT : Field := ⟨0x60034, 0x0, 0, 32⟩
def R_STAT : Field := ⟨0x60400, 0x10, 0, 32⟩
def EP_STAT : Field := ⟨0x68000, 0x8, 0, 32⟩
def EP_CLIP_CNT : Field := ⟨0x68004, 0x8, 0, 32⟩
def CAL_CTL : Field := ⟨0x70000, 0x0, 0, 32⟩
def CAL_STAT : Field := ⟨0x70004, 0x0, 0, 32⟩
def CAL_EVT : Field := ⟨0x70008, 0x0, 0, 32⟩
def CAL_VERSION : Field := ⟨0x7000C, 0x0, 0, 32⟩
def CAL_ACC_MISS_CNT : Field := ⟨0x70010, 0x0, 0, 32⟩
def CAL_LOAD_ADDR_LO : Field := ⟨0x70020, 0x0, 0, 32⟩
def CAL_LOAD_ADDR_HI : Field := ⟨0x70024, 0x0, 0, 32⟩
def CAL_LOAD_COUNT : Field := ⟨0x70028, 0x0, 0, 32⟩
def CAL_LOAD_FRAME_LO : Field := ⟨0x7002C, 0x0, 0, 32⟩
def CAL_LOAD_FRAME_HI : Field := ⟨0x70030, 0x0, 0, 32⟩
def CAL_LOAD_CTL : Field := ⟨0x70034, 0x0, 0, 32⟩
def CAL_LOAD_STAT : Field := ⟨0x70038, 0x0, 0, 32⟩
def CAL_CMD_ZONE : Field := ⟨0x70040, 0x0, 0, 32⟩
def CAL_CMD : Field := ⟨0x70044, 0x0, 0, 32⟩
def Z_STAT : Field := ⟨0x71000, 0x40, 0, 32⟩
def Z_ACCEPT_CNT : Field := ⟨0x71004, 0x40, 0, 32⟩
def Z_REJECT_CNT : Field := ⟨0x71008, 0x40, 0, 32⟩
def Z_MISSING_CNT : Field := ⟨0x7100C, 0x40, 0, 32⟩
def Z_LAST_S_LO : Field := ⟨0x71010, 0x40, 0, 32⟩
def Z_LAST_S_HI : Field := ⟨0x71014, 0x40, 0, 32⟩
def Z_LAST_NS : Field := ⟨0x71018, 0x40, 0, 32⟩
def Z_LAST_FRAME_LO : Field := ⟨0x7101C, 0x40, 0, 32⟩
def Z_LAST_FRAME_HI : Field := ⟨0x71020, 0x40, 0, 32⟩
def Z_QUALITY : Field := ⟨0x71024, 0x40, 0, 32⟩
def Z_MEDIAN_R : Field := ⟨0x71028, 0x40, 0, 32⟩
def Z_MEDIAN_G : Field := ⟨0x7102C, 0x40, 0, 32⟩
def Z_MEDIAN_B : Field := ⟨0x71030, 0x40, 0, 32⟩
def EPC_GAIN_RG : Field := ⟨0x78000, 0x8, 0, 32⟩
def EPC_GAIN_B : Field := ⟨0x78004, 0x8, 0, 32⟩
def GOV_CTL : Field := ⟨0x80000, 0x0, 0, 32⟩
def GOV_STAT : Field := ⟨0x80004, 0x0, 0, 32⟩
def GOV_EVT : Field := ⟨0x80008, 0x0, 0, 32⟩
def GOV_AMBIENT : Field := ⟨0x8000C, 0x0, 0, 32⟩
def GOV_MODEL_ADDR_LO : Field := ⟨0x80010, 0x0, 0, 32⟩
def GOV_MODEL_ADDR_HI : Field := ⟨0x80014, 0x0, 0, 32⟩
def GOV_MODEL_FRAME_LO : Field := ⟨0x80018, 0x0, 0, 32⟩
def GOV_MODEL_FRAME_HI : Field := ⟨0x8001C, 0x0, 0, 32⟩
def GOV_MODEL_CTL : Field := ⟨0x80020, 0x0, 0, 32⟩
def GOV_MODEL_STAT : Field := ⟨0x80024, 0x0, 0, 32⟩
def GOV_MODEL_VER : Field := ⟨0x80028, 0x0, 0, 32⟩
def GOV_TYPES_LO : Field := ⟨0x8002C, 0x0, 0, 32⟩
def GOV_TYPES_HI : Field := ⟨0x80030, 0x0, 0, 32⟩
def GOV_TERM_BASE_LO : Field := ⟨0x80040, 0x0, 0, 32⟩
def GOV_TERM_BASE_HI : Field := ⟨0x80044, 0x0, 0, 32⟩
def GOV_TERM_FRAME_LO : Field := ⟨0x80048, 0x0, 0, 32⟩
def GOV_TERM_FRAME_HI : Field := ⟨0x8004C, 0x0, 0, 32⟩
def GOV_MOTION_BASE_LO : Field := ⟨0x80050, 0x0, 0, 32⟩
def GOV_MOTION_BASE_HI : Field := ⟨0x80054, 0x0, 0, 32⟩
def F_STAT : Field := ⟨0x81000, 0x20, 0, 32⟩
def F_CURRENT : Field := ⟨0x81004, 0x20, 0, 32⟩
def F_LIMIT_CNT : Field := ⟨0x81008, 0x20, 0, 32⟩
def F_MISS_CNT : Field := ⟨0x8100C, 0x20, 0, 32⟩
def F_OVERLOAD_CNT : Field := ⟨0x81010, 0x20, 0, 32⟩
def F_BETA : Field := ⟨0x81014, 0x20, 0, 32⟩
def F_PEAK : Field := ⟨0x81018, 0x20, 0, 32⟩
def EPG_TEMP : Field := ⟨0x88000, 0x8, 0, 32⟩
def EPG_FIT : Field := ⟨0x88004, 0x8, 0, 32⟩
def DVL_CTL : Field := ⟨0x90000, 0x0, 0, 32⟩
def DVL_STAT : Field := ⟨0x90004, 0x0, 0, 32⟩
def DVL_EVT : Field := ⟨0x90008, 0x0, 0, 32⟩
def DVL_EPOCH : Field := ⟨0x9000C, 0x0, 0, 32⟩
def DVL_SEQ : Field := ⟨0x90010, 0x0, 0, 32⟩
def DVL_LAT : Field := ⟨0x90014, 0x0, 0, 32⟩
def DVL_DISC_BASE_LO : Field := ⟨0x90018, 0x0, 0, 32⟩
def DVL_DISC_BASE_HI : Field := ⟨0x9001C, 0x0, 0, 32⟩
def RG_STAT : Field := ⟨0x90100, 0x40, 0, 32⟩
def RG_REACH : Field := ⟨0x90104, 0x40, 0, 32⟩
def RG_BYTES : Field := ⟨0x90108, 0x40, 0, 32⟩
def RG_CAP : Field := ⟨0x9010C, 0x40, 0, 32⟩
def RG_TX_LO : Field := ⟨0x90110, 0x40, 0, 32⟩
def RG_TX_HI : Field := ⟨0x90114, 0x40, 0, 32⟩
def RG_TELEM_RX : Field := ⟨0x90118, 0x40, 0, 32⟩
def RG_TELEM_DROP : Field := ⟨0x9011C, 0x40, 0, 32⟩
def RG_RX_ERR : Field := ⟨0x90120, 0x40, 0, 32⟩
def E_STAT : Field := ⟨0x98000, 0x8, 0, 32⟩
def E_ERR : Field := ⟨0x98004, 0x8, 0, 32⟩
def FIX_CTL : Field := ⟨0xA0000, 0x0, 0, 32⟩
def FIX_STAT : Field := ⟨0xA0004, 0x0, 0, 32⟩
def FIX_EVT : Field := ⟨0xA0008, 0x0, 0, 32⟩
def FIX_PKT_RATE : Field := ⟨0xA000C, 0x0, 0, 32⟩
def FIX_CID : Field := ⟨0xA0010, 0x4, 0, 32⟩
def FIX_NAME : Field := ⟨0xA0020, 0x4, 0, 32⟩
def FIX_SENT_LO : Field := ⟨0xA0060, 0x0, 0, 32⟩
def FIX_SENT_HI : Field := ⟨0xA0064, 0x0, 0, 32⟩
def FIX_LATE_CNT : Field := ⟨0xA0068, 0x0, 0, 32⟩
def FIX_OUTSIDE_CNT : Field := ⟨0xA006C, 0x0, 0, 32⟩
def FIX_PORT_BYTES : Field := ⟨0xA0100, 0x4, 0, 32⟩
def U_STAT : Field := ⟨0xA8000, 0x4, 0, 32⟩
def DDP_CTL : Field := ⟨0xB0000, 0x0, 0, 32⟩
def DDP_STAT : Field := ⟨0xB0004, 0x0, 0, 32⟩
def DDP_EVT : Field := ⟨0xB0008, 0x0, 0, 32⟩
def DDP_CMD : Field := ⟨0xB000C, 0x0, 0, 32⟩
def DDP_SUM_BASE_LO : Field := ⟨0xB0010, 0x0, 0, 32⟩
def DDP_SUM_BASE_HI : Field := ⟨0xB0014, 0x0, 0, 32⟩
def DDP_FAULT_BASE_LO : Field := ⟨0xB0018, 0x0, 0, 32⟩
def DDP_FAULT_BASE_HI : Field := ⟨0xB001C, 0x0, 0, 32⟩
def P_CTL : Field := ⟨0xB1000, 0x40, 0, 32⟩
def P_CHAIN : Field := ⟨0xB1004, 0x40, 0, 32⟩
def P_CLK : Field := ⟨0xB1008, 0x40, 0, 32⟩
def P_GEOM : Field := ⟨0xB100C, 0x40, 0, 32⟩
def P_X : Field := ⟨0xB1010, 0x40, 0, 32⟩
def P_Y : Field := ⟨0xB1014, 0x40, 0, 32⟩
def P_REGION : Field := ⟨0xB1018, 0x40, 0, 32⟩
def P_PITCH : Field := ⟨0xB101C, 0x40, 0, 32⟩
def P_ADDR_LO : Field := ⟨0xB1020, 0x40, 0, 32⟩
def P_ADDR_HI : Field := ⟨0xB1024, 0x40, 0, 32⟩
def P_STAT : Field := ⟨0xB1028, 0x40, 0, 32⟩
def P_SHORT : Field := ⟨0xB102C, 0x40, 0, 32⟩
def P_LATE_CNT : Field := ⟨0xB1030, 0x40, 0, 32⟩
def P_SKIP_CNT : Field := ⟨0xB1034, 0x40, 0, 32⟩
def P_CONF_CNT : Field := ⟨0xB1038, 0x40, 0, 32⟩
def G_STAT : Field := ⟨0xB8000, 0x10, 0, 32⟩
def G_GAIN_RG : Field := ⟨0xB8004, 0x10, 0, 32⟩
def G_GAIN_B : Field := ⟨0xB8008, 0x10, 0, 32⟩
def TIM_CTL : Field := ⟨0xC0000, 0x0, 0, 32⟩
def TIM_STAT : Field := ⟨0xC0004, 0x0, 0, 32⟩
def TIM_EVT : Field := ⟨0xC0008, 0x0, 0, 32⟩
def TIM_NOW_S_LO : Field := ⟨0xC0010, 0x0, 0, 32⟩
def TIM_NOW_S_HI : Field := ⟨0xC0014, 0x0, 0, 32⟩
def TIM_NOW_NS : Field := ⟨0xC0018, 0x0, 0, 32⟩
def TIM_NOW_FRAC : Field := ⟨0xC001C, 0x0, 0, 32⟩
def TIM_OFFSET : Field := ⟨0xC0020, 0x0, 0, 32⟩
def TIM_FREQ : Field := ⟨0xC0024, 0x0, 0, 32⟩
def TIM_PTP_CFG : Field := ⟨0xC0028, 0x0, 0, 32⟩
def TIM_PTP_PRIO : Field := ⟨0xC002C, 0x0, 0, 32⟩
def TIM_GM_ID_LO : Field := ⟨0xC0030, 0x0, 0, 32⟩
def TIM_GM_ID_HI : Field := ⟨0xC0034, 0x0, 0, 32⟩
def TIM_SERVO : Field := ⟨0xC0038, 0x0, 0, 32⟩
def TIM_SET_S_LO : Field := ⟨0xC0040, 0x0, 0, 32⟩
def TIM_SET_S_HI : Field := ⟨0xC0044, 0x0, 0, 32⟩
def TIM_SET_NS : Field := ⟨0xC0048, 0x0, 0, 32⟩
def TIM_CMD : Field := ⟨0xC004C, 0x0, 0, 32⟩
def TIM_STEP_CNT : Field := ⟨0xC0050, 0x0, 0, 32⟩
def TIM_HOLDOVER_MS : Field := ⟨0xC0054, 0x0, 0, 32⟩
def TIM_LAST_STEP_LO : Field := ⟨0xC0058, 0x0, 0, 32⟩
def TIM_LAST_STEP_HI : Field := ⟨0xC005C, 0x0, 0, 32⟩
def TP_STAT : Field := ⟨0xC0100, 0x20, 0, 32⟩
def TP_ASYM : Field := ⟨0xC0104, 0x20, 0, 32⟩
def TP_DELAY : Field := ⟨0xC0108, 0x20, 0, 32⟩
def TP_CORR : Field := ⟨0xC010C, 0x20, 0, 32⟩
def NET_CTL : Field := ⟨0xD0000, 0x0, 0, 32⟩
def NET_STAT : Field := ⟨0xD0004, 0x0, 0, 32⟩
def NET_EVT : Field := ⟨0xD0008, 0x0, 0, 32⟩
def NET_HASH_IN_LO : Field := ⟨0xD0010, 0x0, 0, 32⟩
def NET_HASH_IN_HI : Field := ⟨0xD0014, 0x0, 0, 32⟩
def NET_HASH_CRC : Field := ⟨0xD0018, 0x0, 0, 32⟩
def NET_CAP_BASE_LO : Field := ⟨0xD0020, 0x0, 0, 32⟩
def NET_CAP_BASE_HI : Field := ⟨0xD0024, 0x0, 0, 32⟩
def NET_CAP_WR : Field := ⟨0xD0028, 0x0, 0, 32⟩
def NET_WAKE_CTL : Field := ⟨0xD0F00, 0x0, 0, 32⟩
def NET_WAKE_ETYPE : Field := ⟨0xD0F04, 0x0, 0, 32⟩
def NET_WAKE_KEY : Field := ⟨0xD0F08, 0x4, 0, 32⟩
def NET_WAKE_STAT : Field := ⟨0xD0F18, 0x0, 0, 32⟩
def NL_CTL : Field := ⟨0xD1000, 0x400, 0, 32⟩
def NL_STAT : Field := ⟨0xD1004, 0x400, 0, 32⟩
def NL_EYE : Field := ⟨0xD1008, 0x400, 0, 32⟩
def NL_EQ_THR : Field := ⟨0xD100C, 0x400, 0, 32⟩
def NL_MAC_LO : Field := ⟨0xD1010, 0x400, 0, 32⟩
def NL_MAC_HI : Field := ⟨0xD1014, 0x400, 0, 32⟩
def NL_IP : Field := ⟨0xD1018, 0x400, 0, 32⟩
def NL_PREFIX : Field := ⟨0xD101C, 0x400, 0, 32⟩
def NL_GW : Field := ⟨0xD1020, 0x400, 0, 32⟩
def NL_RX_FRAMES_LO : Field := ⟨0xD1040, 0x400, 0, 32⟩
def NL_RX_FRAMES_HI : Field := ⟨0xD1044, 0x400, 0, 32⟩
def NL_RX_BYTES_LO : Field := ⟨0xD1048, 0x400, 0, 32⟩
def NL_RX_BYTES_HI : Field := ⟨0xD104C, 0x400, 0, 32⟩
def NL_TX_FRAMES_LO : Field := ⟨0xD1050, 0x400, 0, 32⟩
def NL_TX_FRAMES_HI : Field := ⟨0xD1054, 0x400, 0, 32⟩
def NL_TX_BYTES_LO : Field := ⟨0xD1058, 0x400, 0, 32⟩
def NL_TX_BYTES_HI : Field := ⟨0xD105C, 0x400, 0, 32⟩
def NL_CODE_ERR : Field := ⟨0xD1060, 0x400, 0, 32⟩
def NL_RUNT : Field := ⟨0xD1064, 0x400, 0, 32⟩
def NL_OVERSIZE : Field := ⟨0xD1068, 0x400, 0, 32⟩
def NL_FCS_ERR : Field := ⟨0xD106C, 0x400, 0, 32⟩
def NL_STRAINED : Field := ⟨0xD1070, 0x400, 0, 32⟩
def NL_UNCLAIMED : Field := ⟨0xD1074, 0x400, 0, 32⟩
def NL_TX_DROP : Field := ⟨0xD1078, 0x400, 0, 32⟩
def NL_PAUSE_RX : Field := ⟨0xD107C, 0x400, 0, 32⟩
def NL_PAUSE_US : Field := ⟨0xD1080, 0x400, 0, 32⟩
def NL_PAUSE_BREAKS : Field := ⟨0xD1084, 0x400, 0, 32⟩
def NL_FEC_CORR : Field := ⟨0xD1088, 0x400, 0, 32⟩
def NL_FEC_UNCORR : Field := ⟨0xD108C, 0x400, 0, 32⟩
def NL_LINK_DOWNS : Field := ⟨0xD1090, 0x400, 0, 32⟩
def NL_RETRAINS : Field := ⟨0xD1094, 0x400, 0, 32⟩
def NL_ARP_MISS : Field := ⟨0xD1098, 0x400, 0, 32⟩
def NS_BINS : Field := ⟨0xD1100, 0x4, 0, 32⟩
def NS_DEVBINS : Field := ⟨0xD1140, 0x4, 0, 32⟩
def NS_EXACT_LO : Field := ⟨0xD1200, 0x8, 0, 32⟩
def NS_EXACT_HI : Field := ⟨0xD1204, 0x8, 0, 32⟩
def PAR_CTL : Field := ⟨0xE0000, 0x0, 0, 32⟩
def PAR_STAT : Field := ⟨0xE0004, 0x0, 0, 32⟩
def PAR_EVT : Field := ⟨0xE0008, 0x0, 0, 32⟩
def PAR_DISPATCH_LO : Field := ⟨0xE0010, 0x0, 0, 32⟩
def PAR_DISPATCH_HI : Field := ⟨0xE0014, 0x0, 0, 32⟩
def PAR_REDISPATCH_CNT : Field := ⟨0xE0018, 0x0, 0, 32⟩
def PAR_LATE_CNT : Field := ⟨0xE001C, 0x0, 0, 32⟩
def PAR_BAD_CNT : Field := ⟨0xE0020, 0x0, 0, 32⟩
def PAR_PRIO : Field := ⟨0xE0040, 0x4, 0, 32⟩
def PAR_FLOW : Field := ⟨0xE1000, 0x4, 0, 32⟩
def PAIL_CTL : Field := ⟨0xF0000, 0x0, 0, 32⟩
def PAIL_STAT : Field := ⟨0xF0004, 0x0, 0, 32⟩
def PL_CFG : Field := ⟨0xF1000, 0x40, 0, 32⟩
def PL_BASE_LO : Field := ⟨0xF1004, 0x40, 0, 32⟩
def PL_BASE_HI : Field := ⟨0xF1008, 0x40, 0, 32⟩
def PL_DEPTH : Field := ⟨0xF100C, 0x40, 0, 32⟩
def PL_WR : Field := ⟨0xF1010, 0x40, 0, 32⟩
def PL_RD : Field := ⟨0xF1014, 0x40, 0, 32⟩
def PL_LEVEL : Field := ⟨0xF1018, 0x40, 0, 32⟩
def PL_CTL : Field := ⟨0xF101C, 0x40, 0, 32⟩
def PL_STAT : Field := ⟨0xF1020, 0x40, 0, 32⟩
def PL_EVT : Field := ⟨0xF1024, 0x40, 0, 32⟩
def PL_POP : Field := ⟨0xF1028, 0x40, 0, 32⟩
def PL_LOST : Field := ⟨0xF102C, 0x40, 0, 32⟩
def PL_FLUSHED : Field := ⟨0xF1030, 0x40, 0, 32⟩
def PL_STARVE : Field := ⟨0xF1034, 0x40, 0, 32⟩
def PL_STALL_US : Field := ⟨0xF1038, 0x40, 0, 32⟩
def PL_SEQ : Field := ⟨0xF103C, 0x40, 0, 32⟩
def HBR_CTL : Field := ⟨0x100000, 0x0, 0, 32⟩
def HBR_STAT : Field := ⟨0x100004, 0x0, 0, 32⟩
def HBR_EVT : Field := ⟨0x100008, 0x0, 0, 32⟩
def HBR_PROT_CNT : Field := ⟨0x10000C, 0x0, 0, 32⟩
def HBR_ABANDON_CNT : Field := ⟨0x100010, 0x0, 0, 32⟩
def HBR_FLR_CNT : Field := ⟨0x100014, 0x0, 0, 32⟩
def DBR_CTL : Field := ⟨0x110000, 0x0, 0, 32⟩
def DBR_STAT : Field := ⟨0x110004, 0x0, 0, 32⟩
def DBR_EVT : Field := ⟨0x110008, 0x0, 0, 32⟩
def DBR_ABANDON_CNT : Field := ⟨0x11000C, 0x0, 0, 32⟩
def DBR_RETRY_CNT : Field := ⟨0x110010, 0x0, 0, 32⟩
def DBR_WDISC_CNT : Field := ⟨0x110014, 0x0, 0, 32⟩
def DBR_GUARD_CNT : Field := ⟨0x110018, 0x0, 0, 32⟩
def DBR_HELD_MAX : Field := ⟨0x11001C, 0x0, 0, 32⟩
def DBR_REGION_BASE : Field := ⟨0x110040, 0x8, 0, 32⟩
def DBR_REGION_ATTR : Field := ⟨0x110044, 0x8, 0, 32⟩
def DBR_SEM : Field := ⟨0x110100, 0x4, 0, 32⟩
def DBR_MIRROR_ADDR : Field := ⟨0x110200, 0x4, 0, 32⟩
def DBR_MIRROR : Field := ⟨0x110220, 0x4, 0, 32⟩
def MEM_CTL : Field := ⟨0x120000, 0x0, 0, 32⟩
def MEM_STAT : Field := ⟨0x120004, 0x0, 0, 32⟩
def MEM_EVT : Field := ⟨0x120008, 0x0, 0, 32⟩
def MEM_CE_CNT : Field := ⟨0x12000C, 0x0, 0, 32⟩
def MEM_UE_CNT : Field := ⟨0x120010, 0x0, 0, 32⟩
def MEM_TOL_VIOL_CNT : Field := ⟨0x120014, 0x0, 0, 32⟩
def MEM_SCRUB_PASS_CNT : Field := ⟨0x120018, 0x0, 0, 32⟩
def MEM_UE_ADDR_LO : Field := ⟨0x120020, 0x0, 0, 32⟩
def MEM_UE_ADDR_HI : Field := ⟨0x120024, 0x0, 0, 32⟩
def MEM_UE_INFO : Field := ⟨0x120028, 0x0, 0, 32⟩
def MEM_TOL : Field := ⟨0x120030, 0x0, 0, 32⟩
def MEM_UTIL : Field := ⟨0x120034, 0x0, 0, 32⟩
def MEM_SCRUB_POS : Field := ⟨0x120038, 0x0, 0, 32⟩
def MEM_SLEEP_US_LO : Field := ⟨0x120040, 0x0, 0, 32⟩
def MEM_SLEEP_US_HI : Field := ⟨0x120044, 0x0, 0, 32⟩
def RED_CTL : Field := ⟨0x130000, 0x0, 0, 32⟩
def RED_STAT : Field := ⟨0x130004, 0x0, 0, 32⟩
def RED_NOT_READY : Field := ⟨0x130008, 0x0, 0, 32⟩
def RED_EVT : Field := ⟨0x13000C, 0x0, 0, 32⟩
def RED_CMD : Field := ⟨0x130010, 0x0, 0, 32⟩
def RED_CMD_STAT : Field := ⟨0x130014, 0x0, 0, 32⟩
def RED_BELLB : Field := ⟨0x130018, 0x0, 0, 32⟩
def RED_PEER_MAC_LO : Field := ⟨0x13001C, 0x0, 0, 32⟩
def RED_PEER_MAC_HI : Field := ⟨0x130020, 0x0, 0, 32⟩
def RED_PARTNER_ID_LO : Field := ⟨0x130024, 0x0, 0, 32⟩
def RED_PARTNER_ID_HI : Field := ⟨0x130028, 0x0, 0, 32⟩
def RED_TAKEOVER_CNT : Field := ⟨0x13002C, 0x0, 0, 32⟩
def RED_PATH_ALARM_CNT : Field := ⟨0x130030, 0x0, 0, 32⟩
def RED_SIG_MISMATCH_CNT : Field := ⟨0x130034, 0x0, 0, 32⟩
def RED_SIG_VOID_CNT : Field := ⟨0x130038, 0x0, 0, 32⟩
def RED_LAST_GAP : Field := ⟨0x13003C, 0x0, 0, 32⟩
def RED_DETECT : Field := ⟨0x130040, 0x0, 0, 32⟩
def RED_MSEQ : Field := ⟨0x130044, 0x0, 0, 32⟩
def RED_OFFSET : Field := ⟨0x130048, 0x0, 0, 32⟩
def RED_RESYNC : Field := ⟨0x13004C, 0x0, 0, 32⟩
def RED_HEALTH : Field := ⟨0x130100, 0x4, 0, 32⟩
def RED_MLOG_TAG : Field := ⟨0x134000, 0x10, 0, 32⟩
def RED_MLOG_INFO : Field := ⟨0x134004, 0x10, 0, 32⟩
def RED_MLOG_MSEQ : Field := ⟨0x134008, 0x10, 0, 32⟩
def RED_MLOG_FRAME : Field := ⟨0x13400C, 0x10, 0, 32⟩
def PCR_CTL : Field := ⟨0x140000, 0x0, 0, 32⟩
def PCR_STAT : Field := ⟨0x140004, 0x0, 0, 32⟩
def PCR_EVT : Field := ⟨0x140008, 0x0, 0, 32⟩
def PCR_PD_STAT : Field := ⟨0x14000C, 0x0, 0, 32⟩
def PCR_CLK_STAT : Field := ⟨0x140010, 0x0, 0, 32⟩
def PCR_RST_CAUSE : Field := ⟨0x140014, 0x0, 0, 32⟩
def PCR_BLK_RST : Field := ⟨0x140018, 0x0, 0, 32⟩
def PCR_BLK_RST_STAT : Field := ⟨0x14001C, 0x0, 0, 32⟩
def PCR_SW_RESET : Field := ⟨0x140020, 0x0, 0, 32⟩
def PCR_WDOG_MC : Field := ⟨0x140024, 0x0, 0, 32⟩
def PCR_WDOG_BYRE : Field := ⟨0x140028, 0x0, 0, 32⟩
def PCR_WDOG_CNT : Field := ⟨0x14002C, 0x0, 0, 32⟩
def PCR_TEMP : Field := ⟨0x140030, 0x0, 0, 32⟩
def PCR_SUPPLY : Field := ⟨0x140034, 0x0, 0, 32⟩
def PCR_IDLE_TO_CNT : Field := ⟨0x140038, 0x0, 0, 32⟩
def PCR_OFF_ACCESS_CNT : Field := ⟨0x14003C, 0x0, 0, 32⟩
def PCR_WAKE_ALARM : Field := ⟨0x140040, 0x0, 0, 32⟩
def PCR_BKP_VALID : Field := ⟨0x140044, 0x0, 0, 32⟩
def PCR_BKP : Field := ⟨0x140100, 0x4, 0, 32⟩
def STA_STAT : Field := ⟨0x150000, 0x0, 0, 32⟩
def STA_EVT : Field := ⟨0x150004, 0x0, 0, 32⟩
def STA_OPT : Field := ⟨0x150008, 0x0, 0, 32⟩
def STA_SERIAL_LO : Field := ⟨0x15000C, 0x0, 0, 32⟩
def STA_SERIAL_HI : Field := ⟨0x150010, 0x0, 0, 32⟩
def STA_FAIL_INFO : Field := ⟨0x150014, 0x0, 0, 32⟩
def FLT_CTL : Field := ⟨0x160000, 0x0, 0, 32⟩
def FLT_EVT : Field := ⟨0x160008, 0x0, 0, 32⟩
def FLT_INJ_SEL : Field := ⟨0x160010, 0x0, 0, 32⟩
def FLT_INJ_ARG : Field := ⟨0x160014, 0x0, 0, 32⟩
def FLT_INJ_CTL : Field := ⟨0x160018, 0x0, 0, 32⟩
def FLT_INJ_STAT : Field := ⟨0x16001C, 0x0, 0, 32⟩
def FLT_DET : Field := ⟨0x160100, 0x4, 0, 32⟩
def TLY_CTL : Field := ⟨0x170000, 0x0, 0, 32⟩
def TLY_STAT : Field := ⟨0x170004, 0x0, 0, 32⟩
def TLY_EVT : Field := ⟨0x170008, 0x0, 0, 32⟩
def TLY_NEXT : Field := ⟨0x17000C, 0x0, 0, 32⟩
def TLY_OLDEST : Field := ⟨0x170010, 0x0, 0, 32⟩
def TLY_SEQ_LO : Field := ⟨0x170014, 0x0, 0, 32⟩
def TLY_SEQ_HI : Field := ⟨0x170018, 0x0, 0, 32⟩
def TLY_MIRROR_SEQ_LO : Field := ⟨0x17001C, 0x0, 0, 32⟩
def TLY_MIRROR_SEQ_HI : Field := ⟨0x170020, 0x0, 0, 32⟩
def TLY_LOST : Field := ⟨0x170024, 0x0, 0, 32⟩
def TLY_SUPPRESSED : Field := ⟨0x170028, 0x0, 0, 32⟩
def TLY_OVERWRITTEN : Field := ⟨0x17002C, 0x0, 0, 32⟩
def TLY_VOID : Field := ⟨0x170030, 0x0, 0, 32⟩
def TLY_ECC : Field := ⟨0x170034, 0x0, 0, 32⟩
def TLY_POWER_ON : Field := ⟨0x170038, 0x0, 0, 32⟩
def TLY_CODE : Field := ⟨0x178000, 0x4, 0, 32⟩
def CRC_CTL : Field := ⟨0x180000, 0x0, 0, 32⟩
def CRC_EVT : Field := ⟨0x180008, 0x0, 0, 32⟩
def CK_CTL : Field := ⟨0x180100, 0x40, 0, 32⟩
def CK_MATCH : Field := ⟨0x180104, 0x40, 0, 32⟩
def CK_LAST_LO : Field := ⟨0x180108, 0x40, 0, 32⟩
def CK_LAST_HI : Field := ⟨0x18010C, 0x40, 0, 32⟩
def CK_ACC_LO : Field := ⟨0x180110, 0x40, 0, 32⟩
def CK_ACC_HI : Field := ⟨0x180114, 0x40, 0, 32⟩
def CK_EXPECT_LO : Field := ⟨0x180118, 0x40, 0, 32⟩
def CK_EXPECT_HI : Field := ⟨0x18011C, 0x40, 0, 32⟩
def CK_COUNT : Field := ⟨0x180120, 0x40, 0, 32⟩
def CK_MISMATCH : Field := ⟨0x180124, 0x40, 0, 32⟩
def UPD_CTL : Field := ⟨0x190000, 0x0, 0, 32⟩
def UPD_SRC_LO : Field := ⟨0x190004, 0x0, 0, 32⟩
def UPD_SRC_HI : Field := ⟨0x190008, 0x0, 0, 32⟩
def UPD_LEN : Field := ⟨0x19000C, 0x0, 0, 32⟩
def UPD_CMD : Field := ⟨0x190010, 0x0, 0, 32⟩
def UPD_STAT : Field := ⟨0x190014, 0x0, 0, 32⟩
def UPD_EVT : Field := ⟨0x190018, 0x0, 0, 32⟩
def UPD_PROGRESS : Field := ⟨0x19001C, 0x0, 0, 32⟩
def UPD_VER : Field := ⟨0x190020, 0x4, 0, 32⟩
def UPD_SLOT : Field := ⟨0x190030, 0x4, 0, 32⟩
def UPD_SLOT_VER : Field := ⟨0x190040, 0x4, 0, 32⟩
def UPD_ROLLBACK : Field := ⟨0x190050, 0x0, 0, 32⟩
end R

namespace F
def SYS_ID_PART : Field := ⟨0x0, 0x0, 0, 16⟩
def SYS_ID_FAMILY : Field := ⟨0x0, 0x0, 16, 8⟩
def SYS_STEP_STEPPING : Field := ⟨0x4, 0x0, 0, 8⟩
def SYS_CAP0_ENGINES : Field := ⟨0x8, 0x0, 0, 4⟩
def SYS_CAP0_RINGS : Field := ⟨0x8, 0x0, 4, 4⟩
def SYS_CAP0_DD_PORTS : Field := ⟨0x8, 0x0, 8, 6⟩
def SYS_CAP0_LINKS : Field := ⟨0x8, 0x0, 14, 5⟩
def SYS_CAP0_BULK_GIB : Field := ⟨0x8, 0x0, 19, 5⟩
def SYS_CAP1_LAYERS_SKIM : Field := ⟨0xC, 0x0, 0, 8⟩
def SYS_CAP1_LAYERS_CREAM : Field := ⟨0xC, 0x0, 8, 8⟩
def SYS_CAP1_GROUP : Field := ⟨0xC, 0x0, 16, 8⟩
def SYS_CAP1_VECTORS : Field := ⟨0xC, 0x0, 24, 8⟩
def SYS_S_REJECT_ADDR_OFFSET : Field := ⟨0x1C, 0x0, 0, 26⟩
def SYS_PIPE_CTL_ADVANCE : Field := ⟨0x108, 0x0, 0, 14⟩
def SYS_PIPE_STAT_FORECAST_LATE : Field := ⟨0x10C, 0x0, 0, 1⟩
def SYS_PIPE_STAT_BAND_UNSENT : Field := ⟨0x10C, 0x0, 1, 1⟩
def SYS_PIPE_STAT_ADV_REJECT : Field := ⟨0x10C, 0x0, 2, 1⟩
def SYS_PIPE_STAT_BG_ESCALATED : Field := ⟨0x10C, 0x0, 3, 1⟩
def SYS_BG_STAT_LEVEL : Field := ⟨0x120, 0x4, 0, 2⟩
def SYS_BG_STAT_ESCALATIONS : Field := ⟨0x120, 0x4, 16, 16⟩
def SYS_MODE_REQ_RATE : Field := ⟨0x180, 0x0, 0, 2⟩
def SYS_MODE_REQ_FRATE : Field := ⟨0x180, 0x0, 4, 4⟩
def SYS_MODE_REQ_POWER : Field := ⟨0x180, 0x0, 8, 3⟩
def SYS_MODE_REQ_PREC : Field := ⟨0x180, 0x0, 12, 1⟩
def SYS_MODE_REQ_GO : Field := ⟨0x180, 0x0, 31, 1⟩
def SYS_MODE_STAT_RATE : Field := ⟨0x184, 0x0, 0, 2⟩
def SYS_MODE_STAT_FRATE : Field := ⟨0x184, 0x0, 4, 4⟩
def SYS_MODE_STAT_POWER : Field := ⟨0x184, 0x0, 8, 3⟩
def SYS_MODE_STAT_PREC : Field := ⟨0x184, 0x0, 12, 1⟩
def SYS_MODE_STAT_ROLE : Field := ⟨0x184, 0x0, 14, 2⟩
def SYS_MODE_STAT_HOLD_CAUSE : Field := ⟨0x184, 0x0, 16, 2⟩
def SYS_MODE_STAT_TRANS : Field := ⟨0x184, 0x0, 18, 1⟩
def SYS_MODE_STAT_CLK_OK : Field := ⟨0x184, 0x0, 19, 1⟩
def SYS_MODE_STAT_RESULT : Field := ⟨0x184, 0x0, 20, 8⟩
def SYS_MODE_STAT_SEQ : Field := ⟨0x184, 0x0, 28, 3⟩
def SYS_MODE_CTL_AUTO_HOLD_EN : Field := ⟨0x188, 0x0, 0, 1⟩
def SYS_MODE_CTL_AUTO_HOLD_FRAMES : Field := ⟨0x188, 0x0, 1, 8⟩
def SYS_MODE_CTL_FREERUN_OK : Field := ⟨0x188, 0x0, 9, 1⟩
def SYS_MODE_CTL_VECTOR : Field := ⟨0x188, 0x0, 10, 6⟩
def SYS_MODE_EVT_REQ_DONE : Field := ⟨0x18C, 0x0, 0, 1⟩
def SYS_MODE_EVT_HOLD_ENTER : Field := ⟨0x18C, 0x0, 1, 1⟩
def SYS_MODE_EVT_HOLD_EXIT : Field := ⟨0x18C, 0x0, 2, 1⟩
def SYS_MODE_EVT_STBY_NOFOLLOW : Field := ⟨0x18C, 0x0, 3, 1⟩
def SYS_MODE_EVT_WOKE : Field := ⟨0x18C, 0x0, 4, 1⟩
def STR_STAT_LOADED : Field := ⟨0x1000C, 0x0, 0, 1⟩
def STR_STAT_PARTIAL : Field := ⟨0x1000C, 0x0, 1, 1⟩
def STR_STAT_ADMIT : Field := ⟨0x1000C, 0x0, 2, 6⟩
def STR_STAT_SPARE_ENG : Field := ⟨0x1000C, 0x0, 8, 4⟩
def STR_STAT_STANDIN_FOR : Field := ⟨0x1000C, 0x0, 12, 4⟩
def STR_STAT_STANDIN_FAIL : Field := ⟨0x1000C, 0x0, 16, 1⟩
def STR_LOAD_CTL_GO : Field := ⟨0x10024, 0x0, 0, 1⟩
def STR_LOAD_CTL_ACTION : Field := ⟨0x10024, 0x0, 1, 1⟩
def STR_LOAD_CTL_AT_FRAME : Field := ⟨0x10024, 0x0, 2, 1⟩
def STR_LOAD_CTL_ABORT : Field := ⟨0x10024, 0x0, 3, 1⟩
def STR_LOAD_CTL_VECTOR : Field := ⟨0x10024, 0x0, 4, 6⟩
def STR_LOAD_STAT_RESULT : Field := ⟨0x10028, 0x0, 0, 8⟩
def STR_LOAD_STAT_CHECK : Field := ⟨0x10028, 0x0, 8, 5⟩
def STR_LOAD_STAT_PHASE : Field := ⟨0x10028, 0x0, 13, 3⟩
def STR_LOAD_STAT_SEQ : Field := ⟨0x10028, 0x0, 16, 3⟩
def STR_EVT_DONE : Field := ⟨0x1002C, 0x0, 0, 1⟩
def STR_EVT_STANDIN : Field := ⟨0x1002C, 0x0, 1, 1⟩
def STR_EVT_HANDBACK : Field := ⟨0x1002C, 0x0, 2, 1⟩
def STR_EVT_ABORT_LATE : Field := ⟨0x1002C, 0x0, 3, 1⟩
def STR_ENGINE_KINDS : Field := ⟨0x10040, 0x4, 0, 16⟩
def STR_ENGINE_SECT_VER : Field := ⟨0x10040, 0x4, 16, 16⟩
def CE_CTL_QUARANTINE : Field := ⟨0x20000, 0x1000, 0, 1⟩
def CE_CTL_RETRY : Field := ⟨0x20000, 0x1000, 1, 1⟩
def CE_CTL_SIG_NOW : Field := ⟨0x20000, 0x1000, 2, 1⟩
def CE_CTL_VECTOR : Field := ⟨0x20000, 0x1000, 4, 6⟩
def CE_STAT_STATE : Field := ⟨0x20004, 0x1000, 0, 3⟩
def CE_STAT_IN_SERVICE : Field := ⟨0x20004, 0x1000, 3, 4⟩
def CE_STAT_STANDIN_BY : Field := ⟨0x20004, 0x1000, 8, 4⟩
def CE_STAT_FAULTS : Field := ⟨0x20004, 0x1000, 16, 16⟩
def CE_EVT_FAULT : Field := ⟨0x20008, 0x1000, 0, 1⟩
def CE_EVT_SIG_FAIL : Field := ⟨0x20008, 0x1000, 1, 1⟩
def CE_EVT_STANDIN : Field := ⟨0x20008, 0x1000, 2, 1⟩
def CE_EVT_HANDBACK : Field := ⟨0x20008, 0x1000, 3, 1⟩
def CE_EVT_QUAR_REJECT : Field := ⟨0x20008, 0x1000, 4, 1⟩
def CE_EVT_OVER_SHARE : Field := ⟨0x20008, 0x1000, 5, 1⟩
def CE_EVT_ECC_CORR : Field := ⟨0x20008, 0x1000, 6, 1⟩
def CE_KIND_LOAD_LAST : Field := ⟨0x20010, 0x4, 0, 11⟩
def CE_KIND_LOAD_OVER_CNT : Field := ⟨0x20010, 0x4, 16, 16⟩
def CH_CTL_GUARD : Field := ⟨0x30000, 0x0, 0, 10⟩
def CH_CTL_VECTOR : Field := ⟨0x30000, 0x0, 10, 6⟩
def CH_REG_SET_SET : Field := ⟨0x30004, 0x0, 0, 4⟩
def CH_STAT_PEND_COMMIT : Field := ⟨0x30008, 0x0, 0, 5⟩
def CH_STAT_PEND_FIRE : Field := ⟨0x30008, 0x0, 5, 5⟩
def CH_STAT_DRAINING : Field := ⟨0x30008, 0x0, 16, 16⟩
def CH_EVT_COMMIT_REJ : Field := ⟨0x3000C, 0x0, 0, 1⟩
def CH_EVT_DISCARD : Field := ⟨0x3000C, 0x0, 1, 1⟩
def CH_EVT_UNROUTED : Field := ⟨0x3000C, 0x0, 2, 1⟩
def CH_EVT_REG_LOCKED : Field := ⟨0x3000C, 0x0, 3, 1⟩
def CH_EVT_FORCED_NULL : Field := ⟨0x3000C, 0x0, 4, 1⟩
def CH_CUE_FREE_ENTRIES : Field := ⟨0x30020, 0x0, 0, 21⟩
def CH_SET_STAT_LOCKED : Field := ⟨0x30040, 0x4, 0, 1⟩
def CH_SET_STAT_ENTRIES : Field := ⟨0x30040, 0x4, 1, 13⟩
def CH_ROUTE_COMP_PAIL : Field := ⟨0x30400, 0x4, 0, 8⟩
def CH_ROUTE_EN : Field := ⟨0x30400, 0x4, 8, 1⟩
def ING_CTL_VECTOR : Field := ⟨0x40000, 0x0, 0, 6⟩
def ING_STAT_RX_GBPS : Field := ⟨0x40004, 0x0, 0, 8⟩
def ING_STAT_JOBS : Field := ⟨0x40004, 0x0, 8, 5⟩
def ING_STAT_RUNNING : Field := ⟨0x40004, 0x0, 13, 6⟩
def ING_EVT_NO_SIGNAL : Field := ⟨0x40008, 0x0, 0, 1⟩
def ING_EVT_RESUMED : Field := ⟨0x40008, 0x0, 1, 1⟩
def ING_EVT_PARTIAL : Field := ⟨0x40008, 0x0, 2, 1⟩
def ING_EVT_FORMAT_ERR : Field := ⟨0x40008, 0x0, 3, 1⟩
def ING_EVT_PATH_LOST : Field := ⟨0x40008, 0x0, 4, 1⟩
def ING_EVT_HASH_JOIN : Field := ⟨0x40008, 0x0, 5, 1⟩
def ING_EVT_JOB_DONE : Field := ⟨0x40008, 0x0, 6, 1⟩
def ING_JOB_FMT_FMT : Field := ⟨0x4002C, 0x0, 0, 9⟩
def ING_JOB_CTL_GO : Field := ⟨0x40038, 0x0, 0, 1⟩
def ING_JOB_STAT_RESULT : Field := ⟨0x4003C, 0x0, 0, 8⟩
def ING_JOB_STAT_CHECK : Field := ⟨0x4003C, 0x0, 8, 4⟩
def ING_JOB_STAT_SEQ : Field := ⟨0x4003C, 0x0, 12, 3⟩
def ING_S_STAT_STATE : Field := ⟨0x41000, 0x40, 0, 2⟩
def ING_S_STAT_MARK : Field := ⟨0x41000, 0x40, 2, 2⟩
def ING_S_STAT_PATH_A_OK : Field := ⟨0x41000, 0x40, 4, 1⟩
def ING_S_STAT_PATH_B_OK : Field := ⟨0x41000, 0x40, 5, 1⟩
def ING_S_STAT_HASH : Field := ⟨0x41000, 0x40, 6, 1⟩
def CMP_CTL_ORDER_MODE : Field := ⟨0x50000, 0x0, 0, 1⟩
def CMP_CTL_VECTOR : Field := ⟨0x50000, 0x0, 4, 6⟩
def CMP_STAT_RUNNING : Field := ⟨0x50004, 0x0, 0, 8⟩
def CMP_STAT_SHORT : Field := ⟨0x50004, 0x0, 8, 8⟩
def CMP_EVT_NOT_READY : Field := ⟨0x50008, 0x0, 0, 1⟩
def CMP_EVT_ABSENT : Field := ⟨0x50008, 0x0, 1, 1⟩
def CMP_EVT_RECOVERED : Field := ⟨0x50008, 0x0, 2, 1⟩
def CMP_EVT_DROPPED : Field := ⟨0x50008, 0x0, 3, 1⟩
def CMP_EVT_LINEBUF_SHORT : Field := ⟨0x50008, 0x0, 4, 1⟩
def CMP_EVT_RATIO_BAD : Field := ⟨0x50008, 0x0, 5, 1⟩
def CMP_EVT_COEF_DONE : Field := ⟨0x50008, 0x0, 6, 1⟩
def CMP_EVT_WB_INCOMPLETE : Field := ⟨0x50008, 0x0, 7, 1⟩
def CMP_BAND_PEAK_PEAK : Field := ⟨0x50010, 0x0, 0, 11⟩
def CMP_BAND_PEAK_BAND : Field := ⟨0x50010, 0x0, 16, 16⟩
def CMP_DITHER_MODE : Field := ⟨0x50014, 0x0, 0, 2⟩
def CMP_COEF_CTL_GO : Field := ⟨0x50028, 0x0, 0, 1⟩
def CMP_COEF_CTL_BANK : Field := ⟨0x50028, 0x0, 1, 4⟩
def CMP_COEF_STAT_RESULT : Field := ⟨0x5002C, 0x0, 0, 8⟩
def CMP_COEF_STAT_CHECK : Field := ⟨0x5002C, 0x0, 8, 4⟩
def CMP_COEF_STAT_SEQ : Field := ⟨0x5002C, 0x0, 12, 3⟩
def CMP_COEF_STAT_LOADED : Field := ⟨0x5002C, 0x0, 15, 8⟩
def CMP_SCALER_GRANULES : Field := ⟨0x50100, 0x4, 0, 9⟩
def CMP_SCALER_ENGINE : Field := ⟨0x50100, 0x4, 12, 4⟩
def WB_CTL_EN : Field := ⟨0x50400, 0x40, 0, 1⟩
def WB_CTL_FORMAT : Field := ⟨0x50400, 0x40, 1, 1⟩
def WB_CTL_INTERVAL : Field := ⟨0x50400, 0x40, 2, 8⟩
def WB_CTL_COUNT : Field := ⟨0x50400, 0x40, 10, 4⟩
def WB_STAT_LAST_BUF : Field := ⟨0x50424, 0x40, 0, 4⟩
def WB_STAT_INCOMPLETE : Field := ⟨0x50424, 0x40, 4, 1⟩
def L_STAT_STATE : Field := ⟨0x51000, 0x20, 0, 2⟩
def L_STAT_MARK : Field := ⟨0x51000, 0x20, 2, 2⟩
def L_STAT_DROPPED : Field := ⟨0x51000, 0x20, 4, 1⟩
def L_STAT_LINEBUF_SHORT : Field := ⟨0x51000, 0x20, 5, 1⟩
def L_STAT_CROPPED : Field := ⟨0x51000, 0x20, 6, 1⟩
def L_STAT_RATIO_BAD : Field := ⟨0x51000, 0x20, 7, 1⟩
def L_STAT_V_TAPS : Field := ⟨0x51000, 0x20, 8, 4⟩
def L_STAT_MISS : Field := ⟨0x51000, 0x20, 12, 8⟩
def SEP_CTL_VECTOR : Field := ⟨0x60000, 0x0, 0, 6⟩
def SEP_STAT_CURVES : Field := ⟨0x60004, 0x0, 0, 5⟩
def SEP_STAT_RUNNING : Field := ⟨0x60004, 0x0, 5, 13⟩
def SEP_STAT_REGIONS : Field := ⟨0x60004, 0x0, 18, 5⟩
def SEP_EVT_CURVE_DONE : Field := ⟨0x60008, 0x0, 0, 1⟩
def SEP_EVT_OUTSIDE : Field := ⟨0x60008, 0x0, 1, 1⟩
def SEP_PIXELS_PIXELS : Field := ⟨0x6000C, 0x0, 0, 26⟩
def SEP_CURVE_CTL_GO : Field := ⟨0x60028, 0x0, 0, 1⟩
def SEP_CURVE_CTL_CURVE : Field := ⟨0x60028, 0x0, 1, 5⟩
def SEP_CURVE_STAT_RESULT : Field := ⟨0x6002C, 0x0, 0, 8⟩
def SEP_CURVE_STAT_CHECK : Field := ⟨0x6002C, 0x0, 8, 4⟩
def SEP_CURVE_STAT_SEQ : Field := ⟨0x6002C, 0x0, 12, 3⟩
def R_STAT_RUNNING : Field := ⟨0x60400, 0x10, 0, 1⟩
def R_STAT_BANDS : Field := ⟨0x60400, 0x10, 1, 11⟩
def R_STAT_ENDPOINTS : Field := ⟨0x60400, 0x10, 12, 13⟩
def EP_STAT_RUNNING : Field := ⟨0x68000, 0x8, 0, 1⟩
def EP_STAT_OUTSIDE : Field := ⟨0x68000, 0x8, 1, 1⟩
def EP_STAT_CLIPPED : Field := ⟨0x68000, 0x8, 2, 1⟩
def EP_STAT_IDENTITY : Field := ⟨0x68000, 0x8, 3, 1⟩
def EP_STAT_CURVE : Field := ⟨0x68000, 0x8, 4, 5⟩
def CAL_CTL_VECTOR : Field := ⟨0x70000, 0x0, 0, 6⟩
def CAL_STAT_ZONES : Field := ⟨0x70004, 0x0, 0, 9⟩
def CAL_STAT_ACC_LAG : Field := ⟨0x70004, 0x0, 9, 4⟩
def CAL_STAT_FOLLOW : Field := ⟨0x70004, 0x0, 13, 1⟩
def CAL_EVT_ACCEPTED : Field := ⟨0x70008, 0x0, 0, 1⟩
def CAL_EVT_REJECTED : Field := ⟨0x70008, 0x0, 1, 1⟩
def CAL_EVT_SENSOR_FAIL : Field := ⟨0x70008, 0x0, 2, 1⟩
def CAL_EVT_ACC_MISS : Field := ⟨0x70008, 0x0, 3, 1⟩
def CAL_EVT_DROPPED : Field := ⟨0x70008, 0x0, 4, 1⟩
def CAL_EVT_LOAD_DONE : Field := ⟨0x70008, 0x0, 5, 1⟩
def CAL_EVT_CMD_REJECT : Field := ⟨0x70008, 0x0, 6, 1⟩
def CAL_LOAD_COUNT_COUNT : Field := ⟨0x70028, 0x0, 0, 13⟩
def CAL_LOAD_CTL_GO : Field := ⟨0x70034, 0x0, 0, 1⟩
def CAL_LOAD_CTL_AT_FRAME : Field := ⟨0x70034, 0x0, 1, 1⟩
def CAL_LOAD_STAT_RESULT : Field := ⟨0x70038, 0x0, 0, 8⟩
def CAL_LOAD_STAT_CHECK : Field := ⟨0x70038, 0x0, 8, 4⟩
def CAL_LOAD_STAT_SEQ : Field := ⟨0x70038, 0x0, 12, 3⟩
def CAL_CMD_OP : Field := ⟨0x70044, 0x0, 0, 2⟩
def CAL_CMD_GO : Field := ⟨0x70044, 0x0, 31, 1⟩
def Z_STAT_STATE : Field := ⟨0x71000, 0x40, 0, 2⟩
def Z_STAT_LAST_REASON : Field := ⟨0x71000, 0x40, 2, 3⟩
def Z_STAT_ELIGIBLE : Field := ⟨0x71000, 0x40, 5, 13⟩
def Z_STAT_FAILED : Field := ⟨0x71000, 0x40, 18, 13⟩
def Z_QUALITY_QUALITY : Field := ⟨0x71024, 0x40, 0, 16⟩
def Z_QUALITY_ENTRIES : Field := ⟨0x71024, 0x40, 16, 16⟩
def EPC_GAIN_RG_G_R : Field := ⟨0x78000, 0x8, 0, 16⟩
def EPC_GAIN_RG_G_G : Field := ⟨0x78000, 0x8, 16, 16⟩
def EPC_GAIN_B_G_B : Field := ⟨0x78004, 0x8, 0, 16⟩
def EPC_GAIN_B_SENSOR_FAILED : Field := ⟨0x78004, 0x8, 16, 1⟩
def EPC_GAIN_B_SUSPECT : Field := ⟨0x78004, 0x8, 17, 8⟩
def EPC_GAIN_B_DARK : Field := ⟨0x78004, 0x8, 25, 1⟩
def EPC_GAIN_B_LIMITED : Field := ⟨0x78004, 0x8, 26, 1⟩
def EPC_GAIN_B_DISAGREE : Field := ⟨0x78004, 0x8, 27, 1⟩
def EPC_GAIN_B_MISSING : Field := ⟨0x78004, 0x8, 28, 1⟩
def GOV_CTL_VECTOR : Field := ⟨0x80000, 0x0, 0, 6⟩
def GOV_CTL_FIT_EN : Field := ⟨0x80000, 0x0, 6, 1⟩
def GOV_STAT_FEEDS : Field := ⟨0x80004, 0x0, 0, 9⟩
def GOV_STAT_FOLLOW : Field := ⟨0x80004, 0x0, 9, 1⟩
def GOV_STAT_LIMITED : Field := ⟨0x80004, 0x0, 10, 9⟩
def GOV_EVT_LIMITED : Field := ⟨0x80008, 0x0, 0, 1⟩
def GOV_EVT_OVERLOAD : Field := ⟨0x80008, 0x0, 1, 1⟩
def GOV_EVT_FORECAST_MISS : Field := ⟨0x80008, 0x0, 2, 1⟩
def GOV_EVT_MODEL_DONE : Field := ⟨0x80008, 0x0, 3, 1⟩
def GOV_EVT_FIT_BOUND : Field := ⟨0x80008, 0x0, 4, 1⟩
def GOV_EVT_TELEM_STALE : Field := ⟨0x80008, 0x0, 5, 1⟩
def GOV_AMBIENT_AMBIENT : Field := ⟨0x8000C, 0x0, 0, 16⟩
def GOV_MODEL_CTL_GO : Field := ⟨0x80020, 0x0, 0, 1⟩
def GOV_MODEL_CTL_AT_FRAME : Field := ⟨0x80020, 0x0, 1, 1⟩
def GOV_MODEL_CTL_COUNT : Field := ⟨0x80020, 0x0, 2, 7⟩
def GOV_MODEL_STAT_RESULT : Field := ⟨0x80024, 0x0, 0, 8⟩
def GOV_MODEL_STAT_CHECK : Field := ⟨0x80024, 0x0, 8, 4⟩
def GOV_MODEL_STAT_SEQ : Field := ⟨0x80024, 0x0, 12, 3⟩
def F_STAT_P : Field := ⟨0x81000, 0x20, 0, 16⟩
def F_STAT_LIMITED : Field := ⟨0x81000, 0x20, 16, 1⟩
def F_STAT_CAUSE : Field := ⟨0x81000, 0x20, 17, 2⟩
def F_CURRENT_I_PRED : Field := ⟨0x81004, 0x20, 0, 16⟩
def F_CURRENT_I_DEMAND : Field := ⟨0x81004, 0x20, 16, 16⟩
def F_BETA_BETA : Field := ⟨0x81014, 0x20, 0, 16⟩
def F_BETA_ERR : Field := ⟨0x81014, 0x20, 16, 16⟩
def F_PEAK_PEAK : Field := ⟨0x81018, 0x20, 0, 16⟩
def EPG_TEMP_TJ : Field := ⟨0x88000, 0x8, 0, 16⟩
def EPG_TEMP_TB : Field := ⟨0x88000, 0x8, 16, 16⟩
def EPG_FIT_SIGMA : Field := ⟨0x88004, 0x8, 0, 16⟩
def EPG_FIT_DELTA : Field := ⟨0x88004, 0x8, 16, 12⟩
def EPG_FIT_STALE : Field := ⟨0x88004, 0x8, 28, 1⟩
def EPG_FIT_CLAMPED : Field := ⟨0x88004, 0x8, 29, 1⟩
def EPG_FIT_FIT_BOUND : Field := ⟨0x88004, 0x8, 30, 1⟩
def EPG_FIT_NO_TYPE : Field := ⟨0x88004, 0x8, 31, 1⟩
def DVL_CTL_VECTOR : Field := ⟨0x90000, 0x0, 0, 6⟩
def DVL_STAT_RINGS : Field := ⟨0x90004, 0x0, 0, 4⟩
def DVL_STAT_MUTED : Field := ⟨0x90004, 0x0, 4, 1⟩
def DVL_STAT_BOUND : Field := ⟨0x90004, 0x0, 5, 13⟩
def DVL_EVT_JOIN : Field := ⟨0x90008, 0x0, 0, 1⟩
def DVL_EVT_LOST : Field := ⟨0x90008, 0x0, 1, 1⟩
def DVL_EVT_MISMATCH : Field := ⟨0x90008, 0x0, 2, 1⟩
def DVL_EVT_BREAK : Field := ⟨0x90008, 0x0, 3, 1⟩
def DVL_EVT_RESTORED : Field := ⟨0x90008, 0x0, 4, 1⟩
def DVL_EVT_OVER_RATE : Field := ⟨0x90008, 0x0, 5, 1⟩
def DVL_EVT_MISSED : Field := ⟨0x90008, 0x0, 6, 1⟩
def DVL_EVT_FAULT : Field := ⟨0x90008, 0x0, 7, 1⟩
def RG_STAT_STATE : Field := ⟨0x90100, 0x40, 0, 2⟩
def RG_STAT_EVEN_UP : Field := ⟨0x90100, 0x40, 2, 1⟩
def RG_STAT_ODD_UP : Field := ⟨0x90100, 0x40, 3, 1⟩
def RG_STAT_LENGTH : Field := ⟨0x90100, 0x40, 4, 10⟩
def RG_REACH_LAST_EVEN : Field := ⟨0x90104, 0x40, 0, 10⟩
def RG_REACH_FIRST_ODD : Field := ⟨0x90104, 0x40, 10, 10⟩
def RG_REACH_BROKEN : Field := ⟨0x90104, 0x40, 20, 1⟩
def E_STAT_STATE : Field := ⟨0x98000, 0x8, 0, 3⟩
def E_STAT_REACH : Field := ⟨0x98000, 0x8, 3, 2⟩
def E_STAT_BUFFERS : Field := ⟨0x98000, 0x8, 5, 4⟩
def E_STAT_CAPS : Field := ⟨0x98000, 0x8, 9, 2⟩
def E_STAT_MISSED : Field := ⟨0x98000, 0x8, 11, 16⟩
def E_ERR_CRC : Field := ⟨0x98004, 0x8, 0, 16⟩
def E_ERR_OVER : Field := ⟨0x98004, 0x8, 16, 16⟩
def FIX_CTL_VECTOR : Field := ⟨0xA0000, 0x0, 0, 6⟩
def FIX_CTL_DISC_EN : Field := ⟨0xA0000, 0x0, 6, 1⟩
def FIX_STAT_FIXTURES : Field := ⟨0xA0004, 0x0, 0, 18⟩
def FIX_STAT_UNIVERSES : Field := ⟨0xA0004, 0x0, 18, 14⟩
def FIX_EVT_TERMINATED : Field := ⟨0xA0008, 0x0, 0, 1⟩
def FIX_EVT_OUTSIDE : Field := ⟨0xA0008, 0x0, 1, 1⟩
def FIX_EVT_LATE : Field := ⟨0xA0008, 0x0, 2, 1⟩
def FIX_EVT_NULLED : Field := ⟨0xA0008, 0x0, 3, 1⟩
def FIX_PKT_RATE_RATE : Field := ⟨0xA000C, 0x0, 0, 20⟩
def FIX_PORT_BYTES_BYTES : Field := ⟨0xA0100, 0x4, 0, 24⟩
def U_STAT_RUNNING : Field := ⟨0xA8000, 0x4, 0, 1⟩
def U_STAT_SYNCED : Field := ⟨0xA8000, 0x4, 1, 1⟩
def U_STAT_DIVIDER : Field := ⟨0xA8000, 0x4, 2, 5⟩
def U_STAT_SEQ : Field := ⟨0xA8000, 0x4, 7, 8⟩
def U_STAT_LATE : Field := ⟨0xA8000, 0x4, 15, 1⟩
def DDP_CTL_VECTOR : Field := ⟨0xB0000, 0x0, 0, 6⟩
def DDP_STAT_ENABLED : Field := ⟨0xB0004, 0x0, 0, 6⟩
def DDP_STAT_SYNC_LOST : Field := ⟨0xB0004, 0x0, 6, 1⟩
def DDP_EVT_EN_REJECT : Field := ⟨0xB0008, 0x0, 0, 1⟩
def DDP_EVT_LAMP_FAULT : Field := ⟨0xB0008, 0x0, 1, 1⟩
def DDP_EVT_GROUP_BLANKED : Field := ⟨0xB0008, 0x0, 2, 1⟩
def DDP_EVT_SHORT : Field := ⟨0xB0008, 0x0, 3, 1⟩
def DDP_EVT_LATE : Field := ⟨0xB0008, 0x0, 4, 1⟩
def DDP_EVT_SYNC_LOST : Field := ⟨0xB0008, 0x0, 5, 1⟩
def DDP_EVT_SENSE_ERR : Field := ⟨0xB0008, 0x0, 6, 1⟩
def DDP_EVT_CMD_REJECT : Field := ⟨0xB0008, 0x0, 7, 1⟩
def DDP_CMD_PORT : Field := ⟨0xB000C, 0x0, 0, 5⟩
def DDP_CMD_OP : Field := ⟨0xB000C, 0x0, 5, 3⟩
def DDP_CMD_GO : Field := ⟨0xB000C, 0x0, 31, 1⟩
def P_CTL_EN : Field := ⟨0xB1000, 0x40, 0, 1⟩
def P_CTL_SYNC_SRC : Field := ⟨0xB1000, 0x40, 1, 1⟩
def P_CTL_SOURCE : Field := ⟨0xB1000, 0x40, 2, 1⟩
def P_CTL_SHORT_ACTION : Field := ⟨0xB1000, 0x40, 3, 1⟩
def P_CHAIN_CHIPS : Field := ⟨0xB1004, 0x40, 0, 6⟩
def P_CHAIN_SCAN : Field := ⟨0xB1004, 0x40, 6, 3⟩
def P_CHAIN_BITS : Field := ⟨0xB1004, 0x40, 9, 4⟩
def P_CHAIN_FALLBACK : Field := ⟨0xB1004, 0x40, 13, 4⟩
def P_CHAIN_BLANK : Field := ⟨0xB1004, 0x40, 17, 8⟩
def P_CLK_DCLK : Field := ⟨0xB1008, 0x40, 0, 16⟩
def P_CLK_GCLK : Field := ⟨0xB1008, 0x40, 16, 16⟩
def P_GEOM_ROT : Field := ⟨0xB100C, 0x40, 0, 3⟩
def P_GEOM_PMODE : Field := ⟨0xB100C, 0x40, 3, 1⟩
def P_STAT_STATE : Field := ⟨0xB1028, 0x40, 0, 3⟩
def P_STAT_REJECT : Field := ⟨0xB1028, 0x40, 3, 3⟩
def P_STAT_CONF_BAD : Field := ⟨0xB1028, 0x40, 6, 1⟩
def P_STAT_LAMPS_FAULTED : Field := ⟨0xB1028, 0x40, 7, 16⟩
def P_SHORT_PIN_A : Field := ⟨0xB102C, 0x40, 0, 4⟩
def P_SHORT_PIN_B : Field := ⟨0xB102C, 0x40, 4, 4⟩
def P_SHORT_PORT_B : Field := ⟨0xB102C, 0x40, 8, 5⟩
def P_SHORT_STUCK : Field := ⟨0xB102C, 0x40, 13, 1⟩
def P_SHORT_VALID : Field := ⟨0xB102C, 0x40, 14, 1⟩
def G_STAT_RUNNING : Field := ⟨0xB8000, 0x10, 0, 1⟩
def G_STAT_BLANKED : Field := ⟨0xB8000, 0x10, 1, 1⟩
def G_STAT_FAULTED : Field := ⟨0xB8000, 0x10, 2, 16⟩
def G_GAIN_RG_G_R : Field := ⟨0xB8004, 0x10, 0, 16⟩
def G_GAIN_RG_G_G : Field := ⟨0xB8004, 0x10, 16, 16⟩
def G_GAIN_B_G_B : Field := ⟨0xB8008, 0x10, 0, 16⟩
def G_GAIN_B_SENSOR_FAILED : Field := ⟨0xB8008, 0x10, 16, 1⟩
def G_GAIN_B_SUSPECT : Field := ⟨0xB8008, 0x10, 17, 8⟩
def G_GAIN_B_DARK : Field := ⟨0xB8008, 0x10, 25, 1⟩
def G_GAIN_B_LIMITED : Field := ⟨0xB8008, 0x10, 26, 1⟩
def G_GAIN_B_DISAGREE : Field := ⟨0xB8008, 0x10, 27, 1⟩
def G_GAIN_B_MISSING : Field := ⟨0xB8008, 0x10, 28, 1⟩
def TIM_CTL_PTP_EN : Field := ⟨0xC0000, 0x0, 0, 1⟩
def TIM_CTL_WCLK_EN : Field := ⟨0xC0000, 0x0, 1, 1⟩
def TIM_CTL_GM_EN : Field := ⟨0xC0000, 0x0, 2, 1⟩
def TIM_CTL_BC_EN : Field := ⟨0xC0000, 0x0, 3, 1⟩
def TIM_CTL_STEP_MODE : Field := ⟨0xC0000, 0x0, 4, 1⟩
def TIM_STAT_STATE : Field := ⟨0xC0004, 0x0, 0, 3⟩
def TIM_STAT_CLK_OK : Field := ⟨0xC0004, 0x0, 3, 1⟩
def TIM_STAT_SLEW : Field := ⟨0xC0004, 0x0, 4, 1⟩
def TIM_STAT_STEP_PENDING : Field := ⟨0xC0004, 0x0, 5, 1⟩
def TIM_STAT_SRC : Field := ⟨0xC0004, 0x0, 6, 2⟩
def TIM_STAT_SLAVE_PORT : Field := ⟨0xC0004, 0x0, 8, 5⟩
def TIM_EVT_LOCKED : Field := ⟨0xC0008, 0x0, 0, 1⟩
def TIM_EVT_HOLDOVER : Field := ⟨0xC0008, 0x0, 1, 1⟩
def TIM_EVT_NEW_MASTER : Field := ⟨0xC0008, 0x0, 2, 1⟩
def TIM_EVT_STEP_PENDING : Field := ⟨0xC0008, 0x0, 3, 1⟩
def TIM_EVT_STEPPED : Field := ⟨0xC0008, 0x0, 4, 1⟩
def TIM_EVT_SLEW_DONE : Field := ⟨0xC0008, 0x0, 5, 1⟩
def TIM_EVT_FREQ_RANGE : Field := ⟨0xC0008, 0x0, 6, 1⟩
def TIM_EVT_DIVERGE : Field := ⟨0xC0008, 0x0, 7, 1⟩
def TIM_EVT_CFG_REJECT : Field := ⟨0xC0008, 0x0, 8, 1⟩
def TIM_EVT_CMD_REJECT : Field := ⟨0xC0008, 0x0, 9, 1⟩
def TIM_PTP_CFG_DOMAIN : Field := ⟨0xC0028, 0x0, 0, 8⟩
def TIM_PTP_CFG_LOG_SYNC : Field := ⟨0xC0028, 0x0, 8, 4⟩
def TIM_PTP_CFG_LOG_ANN : Field := ⟨0xC0028, 0x0, 12, 4⟩
def TIM_PTP_CFG_ANN_TIMEOUT : Field := ⟨0xC0028, 0x0, 16, 4⟩
def TIM_PTP_CFG_LOG_DREQ : Field := ⟨0xC0028, 0x0, 20, 4⟩
def TIM_PTP_CFG_DREQ_UNICAST : Field := ⟨0xC0028, 0x0, 24, 1⟩
def TIM_PTP_PRIO_PRIORITY1 : Field := ⟨0xC002C, 0x0, 0, 8⟩
def TIM_PTP_PRIO_PRIORITY2 : Field := ⟨0xC002C, 0x0, 8, 8⟩
def TIM_SERVO_SLEW : Field := ⟨0xC0038, 0x0, 0, 13⟩
def TIM_CMD_OP : Field := ⟨0xC004C, 0x0, 0, 2⟩
def TIM_CMD_GO : Field := ⟨0xC004C, 0x0, 31, 1⟩
def TP_STAT_PSTATE : Field := ⟨0xC0100, 0x20, 0, 4⟩
def TP_STAT_ACTIVE : Field := ⟨0xC0100, 0x20, 4, 1⟩
def TP_CORR_EGRESS : Field := ⟨0xC010C, 0x20, 0, 16⟩
def TP_CORR_INGRESS : Field := ⟨0xC010C, 0x20, 16, 16⟩
def NET_CTL_VECTOR : Field := ⟨0xD0000, 0x0, 0, 6⟩
def NET_STAT_LINK_UP : Field := ⟨0xD0004, 0x0, 0, 25⟩
def NET_EVT_LINK_CHANGE : Field := ⟨0xD0008, 0x0, 0, 1⟩
def NET_EVT_PAUSE_BREAK : Field := ⟨0xD0008, 0x0, 1, 1⟩
def NET_EVT_RETRAIN : Field := ⟨0xD0008, 0x0, 2, 1⟩
def NET_EVT_EQ_POOR : Field := ⟨0xD0008, 0x0, 3, 1⟩
def NET_EVT_STRAIN_CONFLICT : Field := ⟨0xD0008, 0x0, 4, 1⟩
def NET_EVT_TX_DROP : Field := ⟨0xD0008, 0x0, 5, 1⟩
def NET_EVT_ARP_MISS : Field := ⟨0xD0008, 0x0, 6, 1⟩
def NET_WAKE_CTL_LINK_EN : Field := ⟨0xD0F00, 0x0, 0, 1⟩
def NET_WAKE_CTL_FRAME_EN : Field := ⟨0xD0F00, 0x0, 1, 1⟩
def NET_WAKE_CTL_UDP_EN : Field := ⟨0xD0F00, 0x0, 2, 1⟩
def NET_WAKE_CTL_UDP_PORT : Field := ⟨0xD0F00, 0x0, 16, 16⟩
def NET_WAKE_STAT_CAUSE : Field := ⟨0xD0F18, 0x0, 0, 2⟩
def NET_WAKE_STAT_SEEN : Field := ⟨0xD0F18, 0x0, 16, 16⟩
def NL_CTL_ERR_DELIVER : Field := ⟨0xD1000, 0x400, 0, 1⟩
def NL_CTL_PAUSE_EN : Field := ⟨0xD1000, 0x400, 1, 1⟩
def NL_CTL_PFC_EN : Field := ⟨0xD1000, 0x400, 2, 8⟩
def NL_CTL_FEC : Field := ⟨0xD1000, 0x400, 10, 1⟩
def NL_CTL_TX_POL : Field := ⟨0xD1000, 0x400, 11, 1⟩
def NL_CTL_RX_POL : Field := ⟨0xD1000, 0x400, 12, 1⟩
def NL_CTL_HOLD_DOWN : Field := ⟨0xD1000, 0x400, 13, 1⟩
def NL_CTL_WDOG : Field := ⟨0xD1000, 0x400, 16, 16⟩
def NL_STAT_LINK : Field := ⟨0xD1004, 0x400, 0, 1⟩
def NL_STAT_PAUSED : Field := ⟨0xD1004, 0x400, 1, 1⟩
def NL_STAT_PAUSE_IGNORED : Field := ⟨0xD1004, 0x400, 2, 1⟩
def NL_STAT_RETRAINING : Field := ⟨0xD1004, 0x400, 3, 1⟩
def NL_STAT_EQ_POOR : Field := ⟨0xD1004, 0x400, 4, 1⟩
def NL_STAT_SPEED : Field := ⟨0xD1004, 0x400, 5, 3⟩
def NL_STAT_DOWN_CAUSE : Field := ⟨0xD1004, 0x400, 8, 3⟩
def NL_EYE_WIDTH : Field := ⟨0xD1008, 0x400, 0, 7⟩
def NL_EYE_HEIGHT : Field := ⟨0xD1008, 0x400, 8, 10⟩
def NL_EQ_THR_WIDTH : Field := ⟨0xD100C, 0x400, 0, 7⟩
def NL_EQ_THR_HEIGHT : Field := ⟨0xD100C, 0x400, 8, 10⟩
def NS_EXACT_HI_ADDR_HI : Field := ⟨0xD1204, 0x8, 0, 16⟩
def NS_EXACT_HI_VALID : Field := ⟨0xD1204, 0x8, 16, 1⟩
def NS_EXACT_HI_OWNER : Field := ⟨0xD1204, 0x8, 17, 2⟩
def PAR_CTL_VECTOR : Field := ⟨0xE0000, 0x0, 0, 6⟩
def PAR_STAT_IN_SERVICE : Field := ⟨0xE0004, 0x0, 0, 7⟩
def PAR_STAT_QUEUED : Field := ⟨0xE0004, 0x0, 7, 17⟩
def PAR_EVT_REDISPATCH : Field := ⟨0xE0008, 0x0, 0, 1⟩
def PAR_EVT_LATE : Field := ⟨0xE0008, 0x0, 1, 1⟩
def PAR_EVT_BAD_ITEM : Field := ⟨0xE0008, 0x0, 2, 1⟩
def PAR_PRIO_QUEUED : Field := ⟨0xE0040, 0x4, 0, 17⟩
def PAR_FLOW_BUSY : Field := ⟨0xE1000, 0x4, 0, 1⟩
def PAR_FLOW_ENGINE : Field := ⟨0xE1000, 0x4, 1, 4⟩
def PAR_FLOW_PAIL : Field := ⟨0xE1000, 0x4, 5, 8⟩
def PAR_FLOW_WAITING : Field := ⟨0xE1000, 0x4, 13, 16⟩
def PAIL_CTL_POP_WAIT : Field := ⟨0xF0000, 0x0, 0, 7⟩
def PAIL_STAT_BOUND : Field := ⟨0xF0004, 0x0, 0, 9⟩
def PAIL_STAT_ONCHIP_KIB : Field := ⟨0xF0004, 0x0, 9, 12⟩
def PL_CFG_ROLE : Field := ⟨0xF1000, 0x40, 0, 3⟩
def PL_CFG_PRIO : Field := ⟨0xF1000, 0x40, 3, 4⟩
def PL_CFG_BULK : Field := ⟨0xF1000, 0x40, 7, 1⟩
def PL_CFG_FLOWS : Field := ⟨0xF1000, 0x40, 8, 1⟩
def PL_CFG_OVERWRITE : Field := ⟨0xF1000, 0x40, 9, 1⟩
def PL_CFG_BOUND : Field := ⟨0xF1000, 0x40, 10, 1⟩
def PL_CFG_ITEM16 : Field := ⟨0xF1000, 0x40, 11, 9⟩
def PL_DEPTH_VALUE : Field := ⟨0xF100C, 0x40, 0, 25⟩
def PL_WR_VALUE : Field := ⟨0xF1010, 0x40, 0, 25⟩
def PL_RD_VALUE : Field := ⟨0xF1014, 0x40, 0, 25⟩
def PL_LEVEL_VALUE : Field := ⟨0xF1018, 0x40, 0, 25⟩
def PL_CTL_FLUSH : Field := ⟨0xF101C, 0x40, 0, 1⟩
def PL_CTL_VECTOR : Field := ⟨0xF101C, 0x40, 1, 6⟩
def PL_STAT_FILL : Field := ⟨0xF1020, 0x40, 0, 25⟩
def PL_STAT_EMPTY : Field := ⟨0xF1020, 0x40, 25, 1⟩
def PL_STAT_FULL : Field := ⟨0xF1020, 0x40, 26, 1⟩
def PL_STAT_POPPING : Field := ⟨0xF1020, 0x40, 27, 1⟩
def PL_EVT_LEVEL : Field := ⟨0xF1024, 0x40, 0, 1⟩
def PL_EVT_LOST : Field := ⟨0xF1024, 0x40, 1, 1⟩
def PL_EVT_FLUSHED : Field := ⟨0xF1024, 0x40, 2, 1⟩
def PL_EVT_FLUSH_REJECT : Field := ⟨0xF1024, 0x40, 3, 1⟩
def PL_EVT_CUT : Field := ⟨0xF1024, 0x40, 4, 1⟩
def PL_EVT_PTR_BAD : Field := ⟨0xF1024, 0x40, 5, 1⟩
def PL_EVT_POP_CLASH : Field := ⟨0xF1024, 0x40, 6, 1⟩
def PL_EVT_STARVED : Field := ⟨0xF1024, 0x40, 7, 1⟩
def PL_SEQ_NEXT : Field := ⟨0xF103C, 0x40, 0, 16⟩
def HBR_CTL_VECTOR : Field := ⟨0x100000, 0x0, 0, 6⟩
def HBR_STAT_DL_UP : Field := ⟨0x100004, 0x0, 0, 1⟩
def HBR_STAT_SPEED : Field := ⟨0x100004, 0x0, 1, 3⟩
def HBR_STAT_WIDTH : Field := ⟨0x100004, 0x0, 4, 3⟩
def HBR_STAT_MPS : Field := ⟨0x100004, 0x0, 7, 3⟩
def HBR_STAT_SLOTS : Field := ⟨0x100004, 0x0, 10, 3⟩
def HBR_EVT_PROT : Field := ⟨0x100008, 0x0, 0, 1⟩
def HBR_EVT_ABANDON : Field := ⟨0x100008, 0x0, 1, 1⟩
def HBR_EVT_AER : Field := ⟨0x100008, 0x0, 2, 1⟩
def HBR_EVT_LINK : Field := ⟨0x100008, 0x0, 3, 1⟩
def DBR_CTL_VECTOR : Field := ⟨0x110000, 0x0, 0, 6⟩
def DBR_CTL_POLL_EN : Field := ⟨0x110000, 0x0, 6, 1⟩
def DBR_CTL_POLL_US : Field := ⟨0x110000, 0x0, 8, 14⟩
def DBR_CTL_BOOST_HOLD : Field := ⟨0x110000, 0x0, 22, 10⟩
def DBR_STAT_BOOST : Field := ⟨0x110004, 0x0, 0, 1⟩
def DBR_STAT_POSTED : Field := ⟨0x110004, 0x0, 1, 7⟩
def DBR_STAT_READS : Field := ⟨0x110004, 0x0, 8, 3⟩
def DBR_STAT_INITIATOR : Field := ⟨0x110004, 0x0, 11, 3⟩
def DBR_STAT_BYRE_DOWN : Field := ⟨0x110004, 0x0, 14, 1⟩
def DBR_EVT_ABANDON : Field := ⟨0x110008, 0x0, 0, 1⟩
def DBR_EVT_REVOKED : Field := ⟨0x110008, 0x0, 1, 1⟩
def DBR_EVT_BOOST_FAIL : Field := ⟨0x110008, 0x0, 2, 1⟩
def DBR_EVT_BYRE_DOWN : Field := ⟨0x110008, 0x0, 3, 1⟩
def DBR_HELD_MAX_US : Field := ⟨0x11001C, 0x0, 0, 16⟩
def DBR_SEM_OWNER : Field := ⟨0x110100, 0x4, 0, 3⟩
def DBR_SEM_TAKE : Field := ⟨0x110100, 0x4, 3, 1⟩
def DBR_SEM_GIVE : Field := ⟨0x110100, 0x4, 4, 1⟩
def DBR_SEM_WAITING : Field := ⟨0x110100, 0x4, 5, 5⟩
def DBR_SEM_GUARD : Field := ⟨0x110100, 0x4, 10, 1⟩
def DBR_SEM_REGION : Field := ⟨0x110100, 0x4, 11, 3⟩
def DBR_SEM_REVOKED : Field := ⟨0x110100, 0x4, 14, 1⟩
def MEM_CTL_VECTOR : Field := ⟨0x120000, 0x0, 0, 6⟩
def MEM_CTL_SR_EN : Field := ⟨0x120000, 0x0, 6, 1⟩
def MEM_CTL_DSR_EN : Field := ⟨0x120000, 0x0, 7, 1⟩
def MEM_STAT_LEVEL : Field := ⟨0x120004, 0x0, 0, 2⟩
def MEM_STAT_PD_CH : Field := ⟨0x120004, 0x0, 2, 16⟩
def MEM_STAT_REFRESH : Field := ⟨0x120004, 0x0, 18, 2⟩
def MEM_EVT_CE : Field := ⟨0x120008, 0x0, 0, 1⟩
def MEM_EVT_UE : Field := ⟨0x120008, 0x0, 1, 1⟩
def MEM_EVT_TOL_VIOL : Field := ⟨0x120008, 0x0, 2, 1⟩
def MEM_EVT_SCRUB_PASS : Field := ⟨0x120008, 0x0, 3, 1⟩
def MEM_EVT_DERATE : Field := ⟨0x120008, 0x0, 4, 1⟩
def MEM_UE_INFO_CLASS : Field := ⟨0x120028, 0x0, 0, 3⟩
def MEM_UE_INFO_AREA : Field := ⟨0x120028, 0x0, 3, 4⟩
def MEM_UE_INFO_SCRUB : Field := ⟨0x120028, 0x0, 7, 1⟩
def MEM_UE_INFO_FOLD : Field := ⟨0x120028, 0x0, 8, 1⟩
def MEM_TOL_MIN_US : Field := ⟨0x120030, 0x0, 0, 24⟩
def MEM_TOL_CLIENT : Field := ⟨0x120030, 0x0, 24, 3⟩
def MEM_UTIL_LAST : Field := ⟨0x120034, 0x0, 0, 11⟩
def MEM_UTIL_PEAK : Field := ⟨0x120034, 0x0, 16, 11⟩
def MEM_SCRUB_POS_POS : Field := ⟨0x120038, 0x0, 0, 16⟩
def MEM_SCRUB_POS_BEHIND : Field := ⟨0x120038, 0x0, 16, 16⟩
def RED_CTL_PAIR_EN : Field := ⟨0x130000, 0x0, 0, 1⟩
def RED_CTL_PRIMARY : Field := ⟨0x130000, 0x0, 1, 1⟩
def RED_CTL_TAKEOVER_EN : Field := ⟨0x130000, 0x0, 2, 1⟩
def RED_CTL_FENCELESS : Field := ⟨0x130000, 0x0, 3, 1⟩
def RED_STAT_ROLE : Field := ⟨0x130004, 0x0, 0, 2⟩
def RED_STAT_READY : Field := ⟨0x130004, 0x0, 2, 1⟩
def RED_STAT_BELL_A_OK : Field := ⟨0x130004, 0x0, 3, 1⟩
def RED_STAT_BELL_B_OK : Field := ⟨0x130004, 0x0, 4, 1⟩
def RED_STAT_FENCE_IN : Field := ⟨0x130004, 0x0, 5, 1⟩
def RED_STAT_FENCE_OUT : Field := ⟨0x130004, 0x0, 6, 1⟩
def RED_STAT_HEALTH_STALE : Field := ⟨0x130004, 0x0, 7, 1⟩
def RED_STAT_PARTNER_ROLE : Field := ⟨0x130004, 0x0, 8, 2⟩
def RED_STAT_PARTNER_READY : Field := ⟨0x130004, 0x0, 10, 1⟩
def RED_NOT_READY_CAUSES : Field := ⟨0x130008, 0x0, 0, 11⟩
def RED_EVT_FAILED : Field := ⟨0x13000C, 0x0, 0, 1⟩
def RED_EVT_TAKEOVER : Field := ⟨0x13000C, 0x0, 1, 1⟩
def RED_EVT_PATH_A : Field := ⟨0x13000C, 0x0, 2, 1⟩
def RED_EVT_PATH_B : Field := ⟨0x13000C, 0x0, 3, 1⟩
def RED_EVT_PARTNER_LOST : Field := ⟨0x13000C, 0x0, 4, 1⟩
def RED_EVT_FENCE_ALARM : Field := ⟨0x13000C, 0x0, 5, 1⟩
def RED_EVT_TAKEOVER_BLOCKED : Field := ⟨0x13000C, 0x0, 6, 1⟩
def RED_EVT_SIG_MISMATCH : Field := ⟨0x13000C, 0x0, 7, 1⟩
def RED_EVT_READY_CHANGE : Field := ⟨0x13000C, 0x0, 8, 1⟩
def RED_EVT_YIELDED : Field := ⟨0x13000C, 0x0, 9, 1⟩
def RED_EVT_SWITCHED : Field := ⟨0x13000C, 0x0, 10, 1⟩
def RED_EVT_RESYNC_DONE : Field := ⟨0x13000C, 0x0, 11, 1⟩
def RED_EVT_CTL_REJECT : Field := ⟨0x13000C, 0x0, 12, 1⟩
def RED_CMD_OP : Field := ⟨0x130010, 0x0, 0, 3⟩
def RED_CMD_FORCE : Field := ⟨0x130010, 0x0, 3, 1⟩
def RED_CMD_GO : Field := ⟨0x130010, 0x0, 31, 1⟩
def RED_CMD_STAT_RESULT : Field := ⟨0x130014, 0x0, 0, 8⟩
def RED_CMD_STAT_SEQ : Field := ⟨0x130014, 0x0, 8, 3⟩
def RED_BELLB_ETYPE : Field := ⟨0x130018, 0x0, 0, 16⟩
def RED_RESYNC_PROGRESS : Field := ⟨0x13004C, 0x0, 0, 16⟩
def RED_MLOG_INFO_PAIL : Field := ⟨0x134004, 0x10, 0, 8⟩
def RED_MLOG_INFO_OPCODE : Field := ⟨0x134004, 0x10, 8, 8⟩
def RED_MLOG_INFO_STATUS : Field := ⟨0x134004, 0x10, 16, 8⟩
def PCR_CTL_VECTOR : Field := ⟨0x140000, 0x0, 0, 6⟩
def PCR_CTL_IDLE_TIMEOUT : Field := ⟨0x140000, 0x0, 6, 14⟩
def PCR_STAT_PHASE : Field := ⟨0x140004, 0x0, 0, 4⟩
def PCR_STAT_CORE_HELD : Field := ⟨0x140004, 0x0, 4, 3⟩
def PCR_STAT_RECOVERY : Field := ⟨0x140004, 0x0, 7, 1⟩
def PCR_EVT_RESET : Field := ⟨0x140008, 0x0, 0, 1⟩
def PCR_EVT_IDLE_TIMEOUT : Field := ⟨0x140008, 0x0, 1, 1⟩
def PCR_EVT_HELD : Field := ⟨0x140008, 0x0, 2, 1⟩
def PCR_EVT_WDOG : Field := ⟨0x140008, 0x0, 3, 1⟩
def PCR_EVT_XTAL : Field := ⟨0x140008, 0x0, 4, 1⟩
def PCR_EVT_BLK_REJECT : Field := ⟨0x140008, 0x0, 5, 1⟩
def PCR_EVT_OFF_ACCESS : Field := ⟨0x140008, 0x0, 6, 1⟩
def PCR_EVT_RET_UE : Field := ⟨0x140008, 0x0, 7, 1⟩
def PCR_PD_STAT_ON : Field := ⟨0x14000C, 0x0, 0, 16⟩
def PCR_PD_STAT_HELD : Field := ⟨0x14000C, 0x0, 16, 16⟩
def PCR_CLK_STAT_XTAL_OK : Field := ⟨0x140010, 0x0, 0, 1⟩
def PCR_CLK_STAT_RC_FALLBACK : Field := ⟨0x140010, 0x0, 1, 1⟩
def PCR_CLK_STAT_REF25_OK : Field := ⟨0x140010, 0x0, 2, 1⟩
def PCR_CLK_STAT_REF156_OK : Field := ⟨0x140010, 0x0, 3, 1⟩
def PCR_CLK_STAT_LOCK : Field := ⟨0x140010, 0x0, 4, 12⟩
def PCR_CLK_STAT_SD_LOCK : Field := ⟨0x140010, 0x0, 16, 6⟩
def PCR_RST_CAUSE_SOURCE : Field := ⟨0x140014, 0x0, 0, 5⟩
def PCR_RST_CAUSE_REACH : Field := ⟨0x140014, 0x0, 5, 4⟩
def PCR_RST_CAUSE_COUNT : Field := ⟨0x140014, 0x0, 16, 16⟩
def PCR_BLK_RST_UNIT : Field := ⟨0x140018, 0x0, 0, 24⟩
def PCR_BLK_RST_STAT_HELD : Field := ⟨0x14001C, 0x0, 0, 24⟩
def PCR_BLK_RST_STAT_REJECT : Field := ⟨0x14001C, 0x0, 24, 1⟩
def PCR_SW_RESET_KEY : Field := ⟨0x140020, 0x0, 0, 16⟩
def PCR_SW_RESET_GO : Field := ⟨0x140020, 0x0, 31, 1⟩
def PCR_WDOG_MC_PERIOD : Field := ⟨0x140024, 0x0, 0, 16⟩
def PCR_WDOG_BYRE_PERIOD : Field := ⟨0x140028, 0x0, 0, 16⟩
def PCR_TEMP_DIE : Field := ⟨0x140030, 0x0, 0, 16⟩
def PCR_TEMP_TRIPS : Field := ⟨0x140030, 0x0, 16, 8⟩
def PCR_SUPPLY_GOOD : Field := ⟨0x140034, 0x0, 0, 8⟩
def PCR_SUPPLY_BANK_GOOD : Field := ⟨0x140034, 0x0, 8, 4⟩
def PCR_SUPPLY_BANK_HELD : Field := ⟨0x140034, 0x0, 12, 4⟩
def PCR_SUPPLY_VCORE_MV : Field := ⟨0x140034, 0x0, 16, 12⟩
def PCR_BKP_VALID_VALID : Field := ⟨0x140044, 0x0, 0, 16⟩
def STA_STAT_FAILED : Field := ⟨0x150000, 0x0, 0, 2⟩
def STA_STAT_HDR_COPY : Field := ⟨0x150000, 0x0, 2, 1⟩
def STA_STAT_SAFE_TRIM : Field := ⟨0x150000, 0x0, 3, 1⟩
def STA_STAT_RECOVERY : Field := ⟨0x150000, 0x0, 4, 1⟩
def STA_STAT_STEPPING : Field := ⟨0x150000, 0x0, 8, 8⟩
def STA_EVT_LOAD_FAIL : Field := ⟨0x150004, 0x0, 0, 1⟩
def STA_EVT_SAFE_TRIM : Field := ⟨0x150004, 0x0, 1, 1⟩
def STA_EVT_LOADED : Field := ⟨0x150004, 0x0, 2, 1⟩
def STA_OPT_OPTIONS : Field := ⟨0x150008, 0x0, 0, 4⟩
def STA_OPT_BANK_V : Field := ⟨0x150008, 0x0, 4, 8⟩
def STA_OPT_FLASH_MODE : Field := ⟨0x150008, 0x0, 12, 2⟩
def STA_FAIL_INFO_CODE : Field := ⟨0x150014, 0x0, 0, 3⟩
def STA_FAIL_INFO_WHERE : Field := ⟨0x150014, 0x0, 16, 16⟩
def FLT_CTL_VECTOR : Field := ⟨0x160000, 0x0, 0, 6⟩
def FLT_CTL_FATAL_OK : Field := ⟨0x160000, 0x0, 6, 1⟩
def FLT_EVT_DETECTED : Field := ⟨0x160008, 0x0, 0, 1⟩
def FLT_EVT_FIRED : Field := ⟨0x160008, 0x0, 1, 1⟩
def FLT_EVT_INJ_DONE : Field := ⟨0x160008, 0x0, 2, 1⟩
def FLT_INJ_SEL_DETECTOR : Field := ⟨0x160010, 0x0, 0, 8⟩
def FLT_INJ_SEL_UNIT : Field := ⟨0x160010, 0x0, 8, 8⟩
def FLT_INJ_SEL_COUNT : Field := ⟨0x160010, 0x0, 16, 8⟩
def FLT_INJ_SEL_MODE : Field := ⟨0x160010, 0x0, 24, 1⟩
def FLT_INJ_CTL_ARM : Field := ⟨0x160018, 0x0, 0, 1⟩
def FLT_INJ_CTL_DISARM : Field := ⟨0x160018, 0x0, 1, 1⟩
def FLT_INJ_CTL_KEY : Field := ⟨0x160018, 0x0, 16, 16⟩
def FLT_INJ_STAT_RESULT : Field := ⟨0x16001C, 0x0, 0, 8⟩
def FLT_INJ_STAT_CHECK : Field := ⟨0x16001C, 0x0, 8, 4⟩
def FLT_INJ_STAT_SEQ : Field := ⟨0x16001C, 0x0, 12, 3⟩
def FLT_INJ_STAT_ARMED : Field := ⟨0x16001C, 0x0, 15, 1⟩
def FLT_INJ_STAT_REMAINING : Field := ⟨0x16001C, 0x0, 16, 8⟩
def FLT_DET_COUNT : Field := ⟨0x160100, 0x4, 0, 24⟩
def FLT_DET_INJECTED : Field := ⟨0x160100, 0x4, 24, 8⟩
def TLY_CTL_VECTOR : Field := ⟨0x170000, 0x0, 0, 6⟩
def TLY_CTL_MIRROR_EN : Field := ⟨0x170000, 0x0, 6, 1⟩
def TLY_STAT_MIRROR_RUN : Field := ⟨0x170004, 0x0, 0, 1⟩
def TLY_STAT_NO_REGION : Field := ⟨0x170004, 0x0, 1, 1⟩
def TLY_STAT_BAD_SECTORS : Field := ⟨0x170004, 0x0, 16, 16⟩
def TLY_EVT_LOST : Field := ⟨0x170008, 0x0, 0, 1⟩
def TLY_EVT_SUPPRESSED : Field := ⟨0x170008, 0x0, 1, 1⟩
def TLY_EVT_VOID : Field := ⟨0x170008, 0x0, 2, 1⟩
def TLY_EVT_MIRROR_FAIL : Field := ⟨0x170008, 0x0, 3, 1⟩
def TLY_EVT_ECC : Field := ⟨0x170008, 0x0, 4, 1⟩
def TLY_NEXT_OFFSET : Field := ⟨0x17000C, 0x0, 0, 18⟩
def TLY_OLDEST_OFFSET : Field := ⟨0x170010, 0x0, 0, 18⟩
def TLY_CODE_RATE : Field := ⟨0x178000, 0x4, 0, 8⟩
def TLY_CODE_BURST : Field := ⟨0x178000, 0x4, 8, 8⟩
def TLY_CODE_SUPPRESSED : Field := ⟨0x178000, 0x4, 16, 16⟩
def CRC_CTL_VECTOR : Field := ⟨0x180000, 0x0, 0, 6⟩
def CRC_EVT_MISMATCH : Field := ⟨0x180008, 0x0, 0, 8⟩
def CRC_EVT_CFG_BUSY : Field := ⟨0x180008, 0x0, 8, 1⟩
def CK_CTL_EN : Field := ⟨0x180100, 0x40, 0, 1⟩
def CK_CTL_ALG : Field := ⟨0x180100, 0x40, 1, 2⟩
def CK_CTL_POINT : Field := ⟨0x180100, 0x40, 3, 3⟩
def CK_CTL_FOLD : Field := ⟨0x180100, 0x40, 6, 3⟩
def CK_CTL_SEL : Field := ⟨0x180100, 0x40, 9, 8⟩
def CK_CTL_MATCH_EN : Field := ⟨0x180100, 0x40, 17, 1⟩
def CK_CTL_CMP_EN : Field := ⟨0x180100, 0x40, 18, 1⟩
def CK_MATCH_A : Field := ⟨0x180104, 0x40, 0, 16⟩
def UPD_CTL_VECTOR : Field := ⟨0x190000, 0x0, 0, 6⟩
def UPD_CTL_HOST_CONFIRM : Field := ⟨0x190000, 0x0, 6, 1⟩
def UPD_CTL_CONFIRM_S : Field := ⟨0x190000, 0x0, 7, 12⟩
def UPD_CMD_OP : Field := ⟨0x190010, 0x0, 0, 3⟩
def UPD_CMD_ACTION : Field := ⟨0x190010, 0x0, 3, 2⟩
def UPD_CMD_GO : Field := ⟨0x190010, 0x0, 31, 1⟩
def UPD_STAT_RESULT : Field := ⟨0x190014, 0x0, 0, 8⟩
def UPD_STAT_CHECK : Field := ⟨0x190014, 0x0, 8, 4⟩
def UPD_STAT_SEQ : Field := ⟨0x190014, 0x0, 12, 3⟩
def UPD_STAT_PHASE : Field := ⟨0x190014, 0x0, 15, 4⟩
def UPD_STAT_CORE : Field := ⟨0x190014, 0x0, 19, 3⟩
def UPD_STAT_KIND : Field := ⟨0x190014, 0x0, 22, 1⟩
def UPD_EVT_DONE : Field := ⟨0x190018, 0x0, 0, 1⟩
def UPD_EVT_HANDOVER : Field := ⟨0x190018, 0x0, 1, 1⟩
def UPD_EVT_CONFIRMED : Field := ⟨0x190018, 0x0, 2, 1⟩
def UPD_EVT_REVERTED : Field := ⟨0x190018, 0x0, 3, 1⟩
def UPD_EVT_FLASH_ERR : Field := ⟨0x190018, 0x0, 4, 1⟩
def UPD_EVT_BURNED : Field := ⟨0x190018, 0x0, 5, 1⟩
def UPD_PROGRESS_STAGED : Field := ⟨0x19001C, 0x0, 0, 16⟩
def UPD_PROGRESS_WINDOW_S : Field := ⟨0x19001C, 0x0, 16, 12⟩
def UPD_SLOT_STATE : Field := ⟨0x190030, 0x4, 0, 3⟩
def UPD_SLOT_RUNNING : Field := ⟨0x190030, 0x4, 3, 1⟩
def UPD_SLOT_SEC_VER : Field := ⟨0x190030, 0x4, 4, 6⟩
def UPD_ROLLBACK_FW : Field := ⟨0x190050, 0x0, 0, 6⟩
def UPD_ROLLBACK_STR : Field := ⟨0x190050, 0x0, 8, 6⟩
end F

end Sys2Proof.Machine
end

