-- ==== Sys2Proof/Machine/Sparse.lean ====
section
/-! DEFINITION. Sparse data by number: a list of (key, value) pairs with strictly rising keys, none of whose
values equals what an unlisted key reads as. Registers and memories are held so. -/
namespace Sys2Proof.Machine

/-- The value at a key; `d` is what an unlisted key reads as. -/
def sparseGet {α : Type} (d : Nat → α) : List (Nat × α) → Nat → α
  | [], k => d k
  | (k', v) :: m, k => if k' = k then v else sparseGet d m k

/-- The map without a key. -/
def sparseErase {α : Type} (m : List (Nat × α)) (k : Nat) : List (Nat × α) := m.filter (fun p => p.1 != k)

/-- The map with a pair put in at its place; the key is not in the map. -/
def sparseInsert {α : Type} : List (Nat × α) → Nat → α → List (Nat × α)
  | [], k, v => [(k, v)]
  | (k', v') :: m, k, v => if k < k' then (k, v) :: (k', v') :: m else (k', v') :: sparseInsert m k v

/-- Write one value, keeping the canonical form: writing what an unlisted key reads as removes the pair. -/
def sparseSet {α : Type} [DecidableEq α] (d : Nat → α) (m : List (Nat × α)) (k : Nat) (v : α) : List (Nat × α) :=
  if v = d k then sparseErase m k else sparseInsert (sparseErase m k) k v

/-- Every key of the list is above `k`, rising strictly. -/
def sparseAbove {α : Type} : Nat → List (Nat × α) → Bool
  | _, [] => true
  | k, (k', _) :: m => decide (k < k') && sparseAbove k' m

/-- Keys rise strictly. -/
def sparseSorted {α : Type} : List (Nat × α) → Bool
  | [] => true
  | (k, _) :: m => sparseAbove k m

/-- The canonical form: keys rise strictly, and no listed value equals what the key reads as when unlisted. -/
def sparseWf {α : Type} [DecidableEq α] (d : Nat → α) (m : List (Nat × α)) : Bool :=
  sparseSorted m && m.all (fun p => decide (p.2 ≠ d p.1))

/-- Keep only the pairs whose key passes. -/
def sparseKeep {α : Type} (p : Nat → Bool) (m : List (Nat × α)) : List (Nat × α) :=
  m.filter (fun q => p q.1)

end Sys2Proof.Machine
end

