-- ==== Sys2Proof/Machine/State.lean ====
section
/-! DEFINITION. The machine's state as plain data, holding every register, buffer, queue, mode and pin the spec gives
the block, the ways a step can stop, and the state after reset. -/
namespace Sys2Proof.Machine
open Sys2Proof

/-! ## Shared data -/

/-- What the device sends or reports to the outside, oldest last. The spec gives no such register: it is the
model's own record of the frames, packets, messages and completions that leave the device. -/
inductive Out where
  | msi (vector : Nat)                                            -- an MSI-X message (R421)
  | readData (who : Initiator) (value : Nat)                      -- the data of a completed read
  | unsupportedRequest (who : Initiator)                          -- a BAR access in D3hot (R420)
  | ether (link : Nat) (bytes : List Nat)                         -- an Ethernet frame, before padding and FCS
  | igmp (link version : Nat) (leave : Bool) (group source : Nat)   -- an IGMP report (R155)
  | bellA (bytes : List Nat)                                      -- a Bell A heartbeat (R465)
  | mirror (mseq frame band tcrc : Nat) (what : Mirrored)           -- a mirror record on Bell B (R473)
  | snapshot (snap : Snapshot)                                      -- the snapshot frames of a resynchronisation (R487)
  | ddSwap (port : Nat)                                           -- SWAP on a direct-drive port (R328)
  | ddShift (port : Nat) (cycles : List (Nat × List Nat))          -- a shift: LAT count and words of each word cycle (R327)
  | sense (bus : Nat) (bytes : List Nat)                          -- bytes written on a sense bus (R341)
  | fencePulse (ns : Nat)                                         -- a FENCE_OUT pulse (R470)
  | hwItem (pail : Nat) (bytes : List Nat)                        -- the item a hardware consumer reads (R397)
  | memServed (channel : Nat) (owner : MemOwner) (addr : Nat)     -- a Bulk Tank transaction served (R446)
  | poisoned (who : Initiator)                                    -- a read completion sent poisoned (R436, R451)
  | rst (reach : Nat)                                             -- a reset acting on its reach (R498)
  deriving DecidableEq, Repr

/-! ## The Tally, injection and check values (chapter 21) -/

/-- A record waiting in the Tally's intake (R532): its code, the time the writer raised it (R529) and its items. -/
structure TallyRec where
  code : Nat
  time : Nat
  items : List Nat
  deriving DecidableEq, Repr

/-- One rate limit that a chapter states for its own event: the key, the uptime of the last record written, the
events counted since, and the first of them. -/
structure RateLimit where
  key : Nat
  last : Nat
  count : Nat
  first : Nat
  deriving DecidableEq, Repr

/-- The token bucket of one Tally code (R533), in billionths of a token, and the uptime it was last filled. -/
structure Bucket where
  code : Nat
  tokens : Nat
  filled : Nat
  deriving DecidableEq, Repr

/-- A record in the ring (R529): its offset, its length in bytes and its sequence. -/
structure RingRec where
  off : Nat
  len : Nat
  seq : Nat
  deriving DecidableEq, Repr

/-- One sector of the flash mirror region (R535, R536). -/
structure MirrorState where
  sectorNo : Nat        -- SECTOR_NO of the sector last opened
  cur : Nat             -- index of the open sector in the region
  used : Nat            -- bytes used in it; 0 while none is open
  bad : List Nat        -- sectors skipped for the rest of the power-on
  deriving DecidableEq, Repr

structure Tly where
  intake : List TallyRec
  limits : List RateLimit
  buckets : List Bucket
  ring : List RingRec             -- valid records, oldest first
  lostIntake : Nat                -- records lost at a full intake since the last 0x1303
  lostOver : Nat                  -- records overwritten before they were mirrored since the last 0x1303
  lastLost : Option Nat           -- uptime of the last 0x1303
  second : List (Nat × Nat)       -- code and records suppressed during the report second
  reserved : Option RingRec       -- a record whose writing a reset may interrupt (R532)
  mirror : MirrorState
  deriving DecidableEq, Repr

/-- An armed injection (R523 to R526). -/
structure Armed where
  detector : Nat
  unit : Nat
  arg : Nat
  left : Nat
  perFrame : Bool
  lastFrame : Option Nat    -- with MODE 1, the frame of the latest firing
  deriving DecidableEq, Repr

structure Flt where
  armed : Option Armed
  deriving DecidableEq, Repr

/-! ## The host link and the domain bridge (chapter 17) -/

/-- A read across the domain bridge, or a fabric RC read of the HBR, that is held until delivery (R425 to R429). -/
structure HeldRead where
  who : Initiator
  addr : Nat
  value : Nat
  fetched : Nat             -- uptime of the fetch, in ns
  byre : Bool
  pop : Option Nat          -- the pail, for a PL_POP
  dead : Bool               -- its completion is never sent (R436)
  pos : Nat                 -- the position of the word in its item, for a PL_POP
  deriving DecidableEq, Repr

/-- A read across the bridge that has been told to retry (R425): its bytes and the uptime of its first attempt. -/
structure RetryRead where
  who : Initiator
  addr : Nat
  len : Nat
  since : Nat
  deriving DecidableEq, Repr

/-- A posted write that the bridge has accepted and that has not reached the Byre (R430). -/
structure PostedWrite where
  who : Initiator
  addr : Nat
  bytes : List Nat
  consume : Option Nat      -- a consume, and the value it names (R428)
  deriving DecidableEq, Repr

/-- The state of one semaphore beside its register (R432, R433). -/
structure Sem where
  since : Nat                       -- uptime at which the owner took it
  revoked : Option Initiator        -- a revoked owner, whose writes to the guarded region are discarded
  deriving DecidableEq, Repr

structure HostLink where
  msixEnable : Bool
  msixMaskAll : Bool
  msixTable : List (Nat × Word)     -- dwords of the MSI-X table; an unlisted one is at its reset value
  pba : Nat
  d3hot : Bool
  held : List HeldRead
  retrying : List RetryRead         -- reads told to retry whose data is not yet taken
  posted : List PostedWrite
  boost : Bool
  boostIdleAt : Nat                 -- uptime of the last Byre transaction
  boostAskedAt : Option Nat         -- uptime of a boost request not yet answered
  sems : List Sem
  aerStatus : Nat
  deriving DecidableEq, Repr

/-! ## Pails and the Parlour (chapter 16) -/

/-- Where an item of a pail stands. -/
inductive ItemPhase where
  | reserved                     -- reserved, length word not yet written (R395)
  | ready                        -- visible to the consumer
  | inService (engine : Nat)     -- in a service slot (R405)
  | done                         -- completed, its slot not yet released
  | void                         -- abandoned reservation (R395)
  deriving DecidableEq, Repr

/-- One item between RD and WR. -/
structure Item where
  seq : Nat
  producer : Nat                 -- the engine that reserved it, or 255
  overwrote : Bool               -- its slot was taken from the oldest item (R396)
  len : Nat
  phase : ItemPhase
  task : Option TaskDesc
  redispatch : Bool
  discard : Bool
  since : Nat                    -- device time at which it entered service (R117)
  stuck : Bool                   -- an injection keeps it from completing (R520, 0x03)
  deriving DecidableEq, Repr

/-- A command that waits in its pail to be taken (FENCE, a full completion pail, a mirrored command not yet acknowledged);
`found` says, from the moment it reaches the head of its pail, whether a COMMIT of its set was pending then (R144). -/
structure Held where
  pail : Nat
  d : Desc
  found : Option Bool
  deriving DecidableEq, Repr

/-- A pop in progress (R401), or the tail of one cut by a flush (R399). -/
structure Popping where
  who : Initiator
  words : Nat                    -- words delivered
  cut : Bool                     -- flushed: every further word reads 0
  total : Nat                    -- words of the item
  deriving DecidableEq, Repr

structure Pail where
  num : Nat
  role : Nat
  prio : Nat
  bulk : Bool
  flows : Bool
  flowBase : Nat
  flowCount : Nat
  engines : Nat
  itemBytes : Nat
  depth : Nat
  base : Nat
  items : List Item              -- oldest first
  popping : Option Popping
  stalled : Option Nat           -- uptime at which a producer began to wait
  lastServed : Nat               -- count of the latest dispatch from the pail
  waitPop : List (Initiator × Nat)     -- pops held on an empty pail, oldest first, with their uptimes
  deriving DecidableEq, Repr

structure Par where
  pails : List Pail
  served : Nat                   -- dispatches so far, for R403's least recently served
  lateFrame : Nat                -- latest frame with a 0x0E06 record
  lateSeen : Bool
  deriving DecidableEq, Repr

/-! ## Channels, sets, cues and commands (chapter 05) -/

structure Cmd where
  chans : List Chan
  gens : List (Nat × Nat)        -- KIND × 2^18 + INDEX, and the generation its next handle takes
  freed : List (Nat × Nat)       -- KIND and INDEX in the order they became FREE, longest first
  used : List (Nat × Nat)        -- KIND and the number of indices ever used, lowest first
  sets : List ShadowSet
  cues : List (Nat × List SetEntry)   -- cue INDEX and its stored entries
  flight : List InFlight
  deferred : List Deferred       -- in acceptance order
  fenced : List Held             -- commands at or behind the head of their pail, not yet taken
  nextId : Nat
  latches : Nat                  -- parameter latches so far: the identity of the state of R25
  latched : List Chan            -- the channels as latched at the latest S
  unrouted : List Nat            -- pails already reported as unrouted
  awaiting : Option (Nat × Nat × Desc)   -- the command, with its pail, whose mirror record is not yet acknowledged
  deriving DecidableEq, Repr

/-! ## Structure images and engines (chapters 03 and 04) -/

structure KindEntry where
  kind : Nat
  order : Nat
  share : Nat
  instances : Nat
  deriving DecidableEq, Repr

/-- A partition record (R77). -/
structure Partition where
  use : Nat
  owner : Nat
  inst : Nat
  start : Nat
  length : Nat
  tableSrc : Nat
  deriving DecidableEq, Repr

/-- An ENGINE section (R73) with its variant, its version, its place and length in the image. -/
structure EngineSec where
  engine : Nat
  variant : Nat
  sectVer : Nat
  kinds : List KindEntry
  parts : List Partition
  tables : List Nat       -- the bytes of the table area
  tableLen : Nat
  code : List Nat         -- the bytes of the code area
  deriving DecidableEq, Repr

structure RouteRec where
  srcNode : Nat
  srcPort : Nat
  dstNode : Nat
  dstPort : Nat
  claim : Nat
  flags : Nat
  deriving DecidableEq, Repr

structure PailBind where
  pail : Nat
  role : Nat
  prio : Nat
  flags : Nat
  engines : Nat
  itemBytes : Nat
  depth : Nat
  flowBase : Nat
  flowCount : Nat
  deriving DecidableEq, Repr

structure PortRec where
  port : Nat
  speed : Nat
  roles : Nat
  deriving DecidableEq, Repr

structure CapRec where
  variant : Nat
  item : Nat
  max : Nat
  deriving DecidableEq, Repr

/-- A structure as the device holds it: the header fields it uses and the parsed sections. -/
structure Structure where
  partialImage : Bool
  target : Nat
  imageId : Nat
  baseId : Nat
  imageVer : Nat
  secVer : Nat
  combos : Nat
  minFw : Nat
  maxFw : Nat
  engines : List EngineSec
  routes : Option (List RouteRec)
  pails : List PailBind
  ports : List PortRec
  caps : List CapRec
  capVariants : List Nat       -- VARIANT of each CAPACITY section, with records or without
  deriving DecidableEq, Repr

/-- A load in progress (R88 to R96). -/
structure StrLoad where
  action : Bool
  atFrame : Bool
  addr : Nat
  len : Nat
  frame : Nat                  -- frame k at which it takes effect
  image : Option Structure     -- parsed once validated
  acceptedAt : Nat             -- device time of acceptance
  spReady : Bool
  engineReady : Option Nat     -- device time at which E became ready
  standinAt : Nat              -- device time of S(k)
  deriving DecidableEq, Repr

/-- Why the SPARE stands in, or is about to. -/
inductive StandinCause where
  | replacement | fault | quarantine | signature
  deriving DecidableEq, Repr

/-- A stand-in asked for (R115, R118, R121) from the first S(k) not before `notBefore`. -/
structure Standin where
  engine : Nat
  cause : StandinCause
  notBefore : Nat
  active : Bool
  readyAt : Option Nat         -- device time at which the engine passed and may take its role back
  passed : Bool                -- it passed its signature test under this stand-in
  deriving DecidableEq, Repr

structure Str where
  inForce : Option Structure
  stagingHigh : Bool           -- the staging half is the upper 64 MiB of the reserve
  load : Option StrLoad
  standin : Option Standin
  capNew : Option (List CapRec)   -- capacities of an accepted capacity image not yet in effect (R93)
  deriving DecidableEq, Repr

/-- One partition of a local store as loaded (R77, R78): its first granule, its granules, and the bytes it was loaded
with; bytes past them are 0. -/
structure StoreSpan where
  start : Nat
  length : Nat
  bytes : List Nat
  deriving DecidableEq, Repr

/-- Output of a completed item that waits on a route of the stage switch (R103, R113): the route, the 64-byte cells
still to send, whose time a stall is (ORDER), the frame and unit of the item, and since when it stalls. -/
structure OutPart where
  route : RouteRec
  cells : Nat
  order : Nat
  frame : Nat
  unit : Nat
  since : Nat
  deriving DecidableEq, Repr

/-- What one engine holds beside its registers. -/
structure Eng where
  lastFault : Option Nat       -- uptime of the engine's latest fault (R119)
  reloading : Option Nat       -- cause of a reload in place (R120): 0 no SPARE, 1 SPARE busy, 2 SPARE faulty, 3 RETRY
  rejoinAt : Option Nat        -- device time from which it may rejoin
  used : List Nat              -- clocks used in the frame's window, by ORDER
  overDone : List Bool         -- OVER_SHARE recorded in this frame, by ORDER
  out : Bool                   -- the engine is out of service
  passed : Option Nat          -- uptime of its latest passed signature test (R486)
  code : List Nat              -- the instruction store (R73, R100)
  store : List StoreSpan       -- the local store (R78, R100)
  credits : List Nat           -- free credits of the four input ports (R113)
  waiting : List OutPart       -- output that waits for credits, oldest first
  serves : Option (Nat × Nat)  -- pail and SEQ of the item that the engine serves (R109)
  deriving DecidableEq, Repr

/-- The rotation of the signature test (R115). -/
structure SigTest where
  rotation : List Nat
  testing : Option Nat
  refNow : Nat
  stopped : Bool               -- the SPARE failed: the rotation has stopped (R116)
  deriving DecidableEq, Repr

/-! ## The frame pipeline and the modes (chapters 01 and 02) -/

/-- An accepted mode request whose transition runs (R50 to R52): the wanted modes, the uptime of acceptance, the old
SYS_MODE_STAT, and whether it first hands over to the Standby (R49). -/
structure ModeTrans where
  rate : Nat
  frate : Nat
  power : Nat
  prec : Nat
  started : Nat
  handover : Bool
  from_ : Nat                     -- no power or Rate mode change of it takes effect before S of this frame (R60)
  ready : Bool                    -- the engines have been powered for it (R52)
  deriving DecidableEq, Repr

/-- A rate change (R57): the last frame m-1 that starts on the old lattice and the first frame j of the new one, the last old
boundary and the first new one that fires after it, and the rate codes. -/
structure RateChg where
  last : Nat
  first : Nat
  lastB : Nat
  bound : Nat
  oldRate : Nat
  newRate : Nat
  newMode : Nat
  deriving DecidableEq, Repr

/-- What one background activity (R37, R38) holds beside its register: the uptime it rose above level 0, the uptime its deadline
counts from, and the reserved slots it may still take ahead of the next foreground band. -/
structure Bg where
  since : Nat
  from_ : Nat
  ahead : Nat
  deriving DecidableEq, Repr

structure Sys where
  started : Bool                  -- the frame lattice runs (start-up is complete)
  nextB : Nat                     -- the next boundary to fire
  nextS : Nat                     -- the frame whose work starts next
  bg : List Bg
  trans : Option ModeTrans
  rateChg : Option RateChg
  sameFrames : Nat                -- frames in a row with the same inputs (R55)
  inputChanged : Bool             -- an input of R55 has differed since the latest S
  frameChanged : Bool             -- an input of R55 differed at the latest S itself
  holdNext : Bool                 -- Hold is entered at the next S(k) (the refused Dormant of R49)
  heldFrame : Nat                 -- the frame kept in Hold
  holdFrom : Nat                  -- the frame number at which Hold was entered
  holdLen : Nat                   -- frames whose S has fallen in the Hold in force (R64)
  deriving DecidableEq, Repr

/-! ## Ingest (chapter 06) -/

/-- A picture being received (R160). -/
structure Picture where
  timestamp : Nat
  ssrc : Nat
  buf : Option Nat                 -- its picture buffer, 0 to 2, once one is free (R167)
  seqs : List (Nat × Nat)          -- sequence numbers that arrived, with the uptime of the first copy
  marker : Option Nat              -- the sequence number of the marker packet
  samples : List (Nat × Nat)       -- samples by (row × W + column) × 4 + component
  laterAt : Option (Nat × Nat)     -- uptime and sequence number of the first packet with a later timestamp
  deriving DecidableEq, Repr

/-- The latest complete picture of a network stream. -/
structure LatestPic where
  media : Nat                      -- media time in ns from the PTP epoch
  buf : Nat
  timestamp : Nat
  ssrc : Nat
  seqs : List (Nat × Nat)
  width : Nat
  height : Nat
  deriving DecidableEq, Repr

/-- One stream beside its registers. -/
structure Stream where
  ssrc : Option Nat                -- the SSRC locked (R159)
  lastTs : Option Nat              -- the latest timestamp received
  marks : List (Nat × Nat)         -- timestamps from the latest complete picture on, and the sequence number of the marker
  judged : List (Nat × Nat × Nat)  -- timestamps judged partial since then, with the uptime and sequence number of the first packet
  pics : List Picture              -- pictures in reception, in order of their first packets
  latest : Option LatestPic
  fresh : Bool                     -- a picture completed since the latest S
  lastA : Nat                      -- uptime of the latest valid packet on path A
  lastB : Nat
  noSignal : Option Nat            -- uptime at which the stream entered NO_SIGNAL
  formatAt : List Nat              -- uptimes of the FORMAT increments of the last second
  held : List (Nat × Nat)          -- frame, and the buffer held for it until E (R167)
  playFrom : Nat                   -- k0 of R169
  ready : List Nat                 -- ready slots
  lastSlot : Option Nat            -- slot of frame n − 1
  lastGiven : Option Nat           -- slot last given with a NEW or REPEAT mark
  deriving DecidableEq, Repr

/-- A queued load job (R170). -/
structure Job where
  handle : Nat
  slot : Nat
  src : Nat
  pitch : Nat
  fmt : Nat
  deriving DecidableEq, Repr

structure Ing where
  streams : List Stream
  jobs : List Job
  v2Heard : List (Nat × Nat)       -- port and uptime at which it last heard an IGMPv2 querier (R155)
  rxFrom : Nat                     -- uptime at which the running second of RX_GBPS began
  rxBytes : Nat
  deriving DecidableEq, Repr

/-! ## Frames in work (chapters 01 and 07) -/

/-- The mark of a stream at S(n) and the picture it gives (R162, R169). -/
structure Pick where
  handle : Nat
  mark : Nat                       -- 0 NEW, 1 REPEAT, 2 MISSING
  base : Option Nat                -- address of the picture given
  width : Nat
  height : Nat
  skim : Bool                      -- the precision the picture is stored in
  deriving DecidableEq, Repr

/-- What a layer shows in a frame (R194). -/
inductive LayerShow where
  | nothing | picture | fill | substitute
  deriving DecidableEq, Repr

/-- A running layer of a frame, its F-class values latched. -/
structure LayerWork where
  chan : Chan
  shows : LayerShow
  absent : Bool                    -- past HOLD: its ABSENCE policy acts (R194, R195)
  barred : Bool                    -- its picture is transparent for its ratio (R189)
  pick : Option Pick
  vTaps : Nat                      -- vertical taps in use (R188); 0 without a scaler
  wUsed : Nat                      -- oriented columns in use
  deriving DecidableEq, Repr

/-- What one layer keeps from frame to frame beside its registers. -/
structure LayerKeep where
  source : Nat                     -- the SOURCE of the latest S
  miss : Nat                       -- consecutive missing frames (R194)
  ratioBad : Bool                  -- RATIO_BAD at the latest S
  deriving DecidableEq, Repr

/-- A writeback in progress, its values latched at S(n) (R201). -/
structure WbWork where
  frame : Nat
  buf : Nat
  format : Nat
  region : Nat
  x : Nat
  y : Nat
  w : Nat
  h : Nat
  addr : Nat
  pitch : Nat
  dst : Nat
  slot : Nat
  deriving DecidableEq, Repr

structure Cmp where
  banks : List (Nat × List Int)                -- loaded host coefficient tables
  loading : Option (Nat × List Int)            -- the bank and table of a load in progress (R202)
  wb : List (Nat × WbWork)                     -- writebacks in progress, by rectangle
  deriving DecidableEq, Repr

/-! ## The Bulk Tank memory beside its contents (chapter 18) -/

/-- A transaction at a channel: in flight, or of a client that waits for a full channel (R445), and the uptime of its arrival. -/
structure Flying where
  channel : Nat
  req : MemReq
  since : Nat
  deriving DecidableEq, Repr

structure Mem where
  bad : List Nat                   -- 32-byte halves (address / 32) left uncorrectable (R441, R442)
  slots : List Nat                 -- command slots used on each channel, modulo 512 (R446)
  turn : Nat                       -- 0 host, 1 to 3 MC0 to MC2: who is next among them (R446)
  fixes : List Nat                 -- uptimes of corrections, newest first, of the last hour (R459, R486)
  passFrom : Nat                   -- uptime at which the scrub's pass began (R449)
  passFixes : Nat                  -- corrections in the pass
  scrubLate : Option Nat           -- the scrub states 1 µs, since this device time (R449)
  derate : List Nat                -- refresh derate of each package (R440)
  derateNext : List (Nat × Nat)    -- derates taken on in deep self-refresh, to be shown at exit (R457)
  sleepFrom : Nat                  -- uptime at which self-refresh began (R454)
  bytes : Nat                      -- traffic of the frame period of number utilFrame
  utilFrame : Nat
  flying : List Flying             -- transactions in flight, oldest first (R445)
  stalled : List Flying            -- next transactions of clients whose channel is full, oldest first
  deriving DecidableEq, Repr

def Mem.reset : Mem :=
  { bad := [], slots := List.replicate 16 0, turn := 0, fixes := [], passFrom := 0, passFixes := 0, scrubLate := none,
    derate := [0, 0, 0, 0], derateNext := [], sleepFrom := 0, bytes := 0, utilFrame := 0, flying := [], stalled := [] }

/-! ## Calibration (chapter 09) -/

/-- The sensor report of a window (R229). -/
structure SensorReport where
  light : List Nat                 -- L_R, L_G, L_B
  valid : Bool
  sat : Bool
  fail : Bool
  deriving DecidableEq, Repr

/-- One window of one member of a zone (R230). -/
structure Window where
  number : Nat
  key : List Nat                   -- what must not change within the window (R231)
  gains : List Nat                 -- the gains in force
  light : List Rat                 -- Π by colour
  clip : Nat
  frames : Nat
  void : Bool
  report : Option SensorReport
  deriving DecidableEq, Repr

/-- What calibration keeps for an endpoint or a lamp group. -/
structure CalMember where
  kind : Nat
  index : Nat
  windows : List Window            -- oldest first
  changes : List Nat               -- frames at which its gains changed, newest first (R231)
  rejoins : List Nat               -- frames in which it joined its ring anew, newest first
  deriving DecidableEq, Repr

/-- Staged gains (R234 to R236): the device time of acceptance, the frame they act at, and (kind, index, colour, gain). -/
structure Staged where
  zone : Nat
  window : Nat
  accepted : Nat
  frame : Nat
  entries : List (Nat × Nat × Nat × Nat)
  deriving DecidableEq, Repr

/-- What calibration keeps for a zone. -/
structure CalZone where
  index : Nat
  opens : List (Nat × Nat)         -- windows not yet closed, oldest first, and the device time at which each closes
  closed : Option Nat              -- the latest window closed
  due : Bool                       -- the pair that ends with it is to be evaluated
  late : List Nat                  -- wb of pairs not evaluated in time (R239)
  effect : Option Nat              -- frame at which the latest correction took effect
  changed : Option Nat             -- frame of the latest change of its CAL value
  quality : Bool                   -- Z_QUALITY waits for the first window after the correction
  voids : List Nat                 -- windows void for the whole zone (R231)
  deriving DecidableEq, Repr

/-- A gain load that has been accepted (R241). -/
structure GainLoad where
  named : Bool                     -- AT_FRAME: the frame was named
  accepted : Nat                   -- device time of acceptance
  frame : Nat
  entries : List (Nat × Nat × Nat × Nat)   -- handle and three gains
  deriving DecidableEq, Repr

/-- A frame that the accumulator has still to read (R230): the frame whose records count, whether that is the held one of
Hold, and the channels of the frame. -/
structure Behind where
  frame : Nat
  src : Nat
  held : Bool
  chans : List Chan
  deriving DecidableEq, Repr

structure Cal where
  members : List CalMember
  zones : List CalZone
  staged : List Staged
  load : Option GainLoad
  behind : List Behind             -- frames the accumulator has not read
  deriving DecidableEq, Repr

/-! ## The Separator (chapter 08) -/

structure Sep where
  curves : List (Nat × List Nat)            -- loaded curves, 3 × 1,025 entries
  loading : Option (Nat × List Nat)
  identity : List Nat                       -- endpoints that used identity correction in their latest frame
  deriving DecidableEq, Repr

/-! ## The governor (chapter 10) -/

/-- A tile type record (R246). -/
structure TileType where
  type : Nat
  elec : Bool
  therm : Bool
  idle : Nat                       -- mA
  full : List Nat                  -- A_R, A_G, A_B in nA
  heatV : Nat
  rJb : Nat
  tauJ : Nat
  rBa : Nat
  tauB : Nat
  theta0 : Int
  dTheta : Nat
  points : List (List Int × List Nat)   -- H and ε of the 16 points
  deriving DecidableEq, Repr

/-- A type load that has been accepted (R247). -/
structure ModelLoad where
  frame : Nat
  types : List TileType
  deriving DecidableEq, Repr

structure Gov where
  types : List TileType
  load : Option ModelLoad
  eps : List GovEp
  feeds : List GovFeed
  last : Option Nat                -- the frame of the latest forecast since Warm
  heldEps : List (Nat × List Nat)  -- ε of the held frame by endpoint INDEX, in Hold (R230)
  groups : List (Nat × Nat × List Nat)   -- drive sums from SEPARATE: frame, endpoint and four switch words (R224)
  deriving DecidableEq, Repr

/-- What the forecast of a frame found for a feed (R257). -/
structure FeedForecast where
  index : Nat
  p : Nat
  allow : Rat
  c0 : Rat
  dyn : Rat
  beta : Rat
  forecast : Rat
  deriving DecidableEq, Repr

/-- What the forecast of a frame gives for an endpoint (R245). -/
structure EpTerms where
  index : Nat
  matrix : List Int
  eps : List Nat
  flags : Nat
  p : Nat
  deriving DecidableEq, Repr

/-! ## Frames in work -/

/-- A region of a frame. -/
structure RegionWork where
  index : Nat
  handle : Nat
  x : Int
  y : Int
  w : Nat
  h : Nat
  deriving DecidableEq, Repr

/-- Drive sums of an endpoint being formed (R222). -/
structure EpSums where
  index : Nat
  pre : List Nat
  post : List Nat
  clip : Nat
  outside : Nat
  identity : Bool
  repeated : Bool                  -- a band could not leave: repeat notice (R33)
  sig : Nat                        -- running remainder of the output signature (R484)
  deriving DecidableEq, Repr

/-- A frame in work: the parameter state latched at S(n) and what has been made of the frame. -/
structure FrameWork where
  frame : Nat
  skim : Bool                      -- the precision of the frame
  rate : Nat                       -- the frame rate code whose lattice the frame lies on (R57)
  stateId : Nat                    -- the parameter state's identity (R25)
  chans : List Chan                -- the channels as latched at S(n)
  picks : List (Nat × Pick)        -- stream index and its pick
  active : Bool                    -- the frame is composed and sent (Show, R54)
  regions : List RegionWork        -- running regions
  layers : List LayerWork          -- running layers, bottom first
  carry : Nat                      -- carry of R191 after the latest composed band, in half clocks
  bandsDone : Nat                  -- bands composed so far
  canvas : List (Nat × List (List Nat))  -- composed bands: place in the frame, rows of packed pixels
  terms : List EpTerms             -- the forecast's terms by endpoint
  feeds : List FeedForecast        -- the forecast's feeds
  forecastDone : Bool
  bandsSent : Nat                  -- canvas bands separated so far
  sums : List EpSums               -- drive sums being formed
  sumsDone : Bool                  -- the drive-sum records are written
  updated : Bool                   -- the model update of the frame is done (R245, step 7)
  moved : Bool                     -- FIXTURE has done its part of the frame (R262, R309)
  drops : Nat                      -- layers dropped from bands of the frame
  firstDrop : Option (Nat × Nat × Nat)   -- band, cost and allowance plus carry of the first band with a drop
  peak : Nat × Nat                 -- highest cost over allowance plus carry so far, in 1/1,024, and its band
  deriving DecidableEq, Repr


/-! ## Network links (chapter 15) -/

/-- An ARP entry (R371): the address, its MAC address and the uptime at which it expires. -/
structure ArpEntry where
  ip : Nat
  mac : Nat
  until_ : Nat
  deriving DecidableEq, Repr

/-- A next hop without an entry (R372): since when, the uptime of the latest request, the uptimes of the frames
discarded in the last second, and whether it is unresolved. -/
structure ArpWait where
  ip : Nat
  since : Nat
  asked : Nat
  drops : List Nat
  unresolved : Bool
  deriving DecidableEq, Repr

/-- A stream's join of a group's MAC address in a Strainer (R156): its exact entry, or none for a hash bin. -/
structure GroupJoin where
  stream : Nat
  mac : Nat
  entry : Option Nat
  deriving DecidableEq, Repr

/-- The part of an endpoint's frame that a DATA frame carries: the frame, the endpoint's INDEX, the place of its band in the
frame, the part's number, E of the frame as device time, and whether the copy of the ring's other port has left (R33, R267). -/
structure TxPart where
  frame : Nat
  endpoint : Nat
  band : Nat
  part : Nat
  by_ : Nat
  twin : Bool
  deriving DecidableEq, Repr

/-- A frame that waits in a link's transmit queue (R381). -/
structure TxWait where
  prio : Nat
  bytes : List Nat
  part : Option TxPart             -- for a DATA frame
  deriving DecidableEq, Repr

/-- What one link holds beside its registers. Times are uptimes in ns. -/
structure Link where
  pauseUntil : Nat                 -- PAUSE holds the transmitter until then (R380)
  pfcUntil : List Nat              -- the same by priority for PFC
  heldFrom : Option Nat            -- start of the hold, while the transmitter is held
  ignoreUntil : Nat                -- PAUSE and PFC are ignored until then (R382)
  queue : List TxWait              -- frames waiting, oldest first
  arp : List ArpEntry
  arpWait : List ArpWait
  joins : List GroupJoin
  exact : List (Nat × Nat)         -- exact entries in use and their addresses (R377)
  eyeLow : Nat                     -- consecutive eye measurements below threshold (R384)
  retrain : Option Nat             -- a retrain runs: the eye before it
  poor : List Nat                  -- uptimes of retrains that left the eye below threshold, within 60 s
  icmpFrom : Nat                   -- the running second of ICMP answers, and the answers in it (R371)
  icmpCount : Nat
  fresh : Bool                     -- reset with PD15 since the link last came up (R269)
  quietUntil : Nat                 -- a ring port sends nothing until then (R269)
  deriving DecidableEq, Repr

/-! ## DvoreLink (chapter 11) -/

/-- An endpoint that has joined at a position of a ring, and what its telemetry told (R292 to R298). -/
structure Joined where
  ring : Nat
  pos : Nat
  join : List Nat                  -- the JOIN record as last received (R293)
  serial : Nat
  w : Nat
  h : Nat
  depthMax : Nat
  buffers : Nat
  caps : Nat
  even : Option Nat                -- uptime of its latest telemetry at the even port, within 3 s
  odd : Option Nat
  tokens : Nat                     -- tokens of its bucket (R297)
  filled : Nat                     -- uptime to which the bucket has been filled
  overs : Nat                       -- frames discarded since the latest 0x0905
  faults : Nat
  missed : Nat
  lost : Bool
  deriving DecidableEq, Repr

/-- A join request heard and not granted by this device (R475, a Standby). -/
structure Heard where
  ring : Nat
  join : List Nat
  deriving DecidableEq, Repr

/-- What one ring holds beside its registers. -/
structure RingSt where
  broken : Option Nat              -- uptime at which it broke
  timeStep : Bool                  -- its next TIME frame carries STEP
  deriving DecidableEq, Repr

structure Dvl where
  joined : List Joined
  heard : List Heard
  rings : List RingSt
  delays : List (Nat × List Int)   -- ring port and its last 16 link delays in 2^-16 ns (R283)
  asked : List (Nat × Nat)         -- ring port and t1 of its LINK request
  seqs : List (Nat × Nat)          -- the last 256 sequences and their frames, newest first (R276)
  mismatch : List Nat              -- endpoints in mismatch already reported
  deriving DecidableEq, Repr

/-! ## Fixtures and sACN (chapter 12) -/

/-- A motion-limited attribute (R262): the fixture's handle, the attribute, the UNIVERSE it is patched to, position and
velocity in 2^-16 of a position unit, the last target, and the positions of the latest 64 frames with the P_z of each as
device time, newest first. -/
structure Motion where
  fixture : Nat
  attr : Nat
  onUniv : Nat
  x : Int
  v : Int
  tgt : Nat
  past : List (Int × Nat)
  deriving DecidableEq, Repr

/-- A universe whose Stream_Terminated packets are to be sent (R314): the channel as it ran, the frame k, and the cause:
0 stop, 1 destroy, 2 Warm. -/
structure Termination where
  chan : Chan
  frame : Nat
  cause : Nat
  deriving DecidableEq, Repr

structure Fix where
  motion : List Motion
  held : List (Nat × List (Nat × Nat))        -- fixture handle: attribute and the value it last sent
  univ : List Univ
  syncs : List (Nat × Nat)                    -- synchronisation universe and the sequence number it sends next
  built : List (Nat × Nat × List Nat)         -- frame, universe handle and its slots, newest first
  terms : List Termination
  deriving DecidableEq, Repr

/-! ## Direct-drive ports (chapter 13) -/

/-- What one port holds beside its registers. Frames are frame numbers. -/
structure DdPort where
  startAt : Option Nat             -- frame k from whose B(k) the port shows, while that is to come (R333, R335)
  stopAt : Option Nat              -- frame k from whose B(k) the port is blank
  testAt : Option (Nat × Bool)     -- frame k at whose S(k) TEST starts or ends
  good : Option Nat                -- consecutive correct readbacks, while in recovery (R333)
  showAt : Option Nat              -- frame at whose SWAP recovery ends
  written : Option Nat             -- latest frame DIRECT has written (R326)
  done : Option Nat                -- latest frame shifted or abandoned
  shifted : List (Nat × Nat)       -- shifted and not yet swapped in, oldest first: the frame at whose B the SWAP falls, the frame
  shiftEnd : Nat                   -- device time at which its shift ends
  front : Option Nat               -- frame in the front buffer
  reshift : Bool                   -- the front buffer is to be shifted again (R339)
  late : Option Nat                -- latest frame whose shift was abandoned
  deriving DecidableEq, Repr

/-- The lamps of a group as copied when a commit was accepted (R336), and the frame they take effect. -/
structure LampList where
  handle : Nat
  value : Nat                      -- the LAMPS value
  frame : Nat
  lamps : List Nat
  deriving DecidableEq, Repr

structure Ddp where
  ports : List DdPort
  lists : List LampList
  releasing : List Nat             -- groups that may leave the blanked state (R339)
  lastEdge : Nat                   -- uptime of the latest accepted DD_SYNC edge (R329)
  deriving DecidableEq, Repr

/-! ## Time (chapter 14) -/

/-- A master heard on a PTP port: its sourcePortIdentity and address, its data set, and the uptimes of its latest
Announces, newest first. -/
structure Foreign where
  port : Nat
  src : Nat
  ip : Nat
  info : MasterSet
  heard : List Nat
  deriving DecidableEq, Repr

/-- What one port of the PTP clock holds beside its registers. Stamps are device time in units of 2^-16 ns. -/
structure PtpPort where
  sync : Option (Nat × Nat)        -- sequence and t2 of a two-step Sync that waits for its Follow_Up
  ms : Option Int                  -- t2 - t1 of the latest Sync
  dreq : Option (Nat × Nat)        -- sequence and t3 of the Delay_Req that waits for its answer
  delay : Option Int               -- mean path delay
  seqSync : Nat
  seqAnn : Nat
  seqDreq : Nat
  seqMan : Nat
  managed : Option Nat             -- uptime of the latest Management message
  deriving DecidableEq, Repr

/-- A step decided on (R361): θ in 2^-16 ns, frame m-1, the step boundary s, the first new frame j, and whether the step
has taken place. -/
structure StepPlan where
  theta : Int
  last : Nat
  bound : Nat
  first : Nat
  done : Bool
  deriving DecidableEq, Repr

/-- The show clock beside its registers. Rates are in 2^-16 ppm. -/
structure Tim where
  ports : List PtpPort
  foreign : List Foreign
  collecting : Option Nat          -- the old identity, while the offset of a new master is being formed (R359)
  parent : Option (Nat × Nat)      -- port and sourcePortIdentity of the selected master
  newNext : Bool                   -- the next source selected is a new master (a change of DOMAIN, a return of a source)
  offsets : List Int               -- its measurements so far, newest first, or the offsets of R359's second case
  good : Nat                       -- consecutive offsets within ±100 ns
  slewAt : Option Nat              -- uptime at which a running slew began (R360)
  holdRate : Int                   -- the holdover rate
  rates : List (Nat × Int)         -- uptime and rate of the servo over the last 16 s of lock, newest first
  beyond : Nat                       -- consecutive estimates beyond ±200 ppm
  last : Option (Nat × Int)        -- uptime and offset of the latest measurement
  pending : Option Int             -- θ of a step that waits for TIM_CMD operation 2
  waiting : Option Int             -- θ of a step that waits for a transition, or for S(j), to pass
  plan : Option StepPlan
  holdSince : Option Nat           -- uptime at which HOLDOVER began
  edge : Option Nat                -- uptime of the latest word clock edge
  fresh : Bool                     -- no source has been taken since start-up
  diverged : Bool                  -- a Standby diverges (R364)
  steps : List (Int × Nat)         -- mirrored steps: θ and frame, latest first
  deriving DecidableEq, Repr

/-! ## Fuses, power and reset (chapter 20) -/

/-- The fuse array (R508): what of it other blocks use. -/
structure Fuses where
  macBase : Nat
  serial : Nat
  keyHash : List (List Nat)        -- the four key-hash slots, 48 bytes each
  revoked : Nat                    -- bit i: slot i is revoked
  fwCounter : Nat
  strCounter : Nat
  stepping : Nat
  romRef : Nat                     -- the reference of the SPARE's ROM test (R115)
  trip : Int                       -- the thermal trip point in 1/16 °C
  deriving DecidableEq, Repr

/-- The flash header values in force (R507). -/
structure BootOpts where
  options : Nat
  bankV : Nat
  flashMode : Nat
  fwTable : Nat
  strOff : Nat
  strLen : Nat
  tallyOff : Nat
  tallyLen : Nat
  avsMin : Nat
  avsMax : Nat
  deriving DecidableEq, Repr

/-- A wake in progress (R513): cause 0 pattern, 1 alarm, whether the saved state passes its CRC, and its uptime. -/
structure Waking where
  cause : Nat
  savedOk : Bool
  since : Nat
  deriving DecidableEq, Repr

/-- A unit of R503 under an idle request: the source of R499 that resets it, and the uptime of the request. -/
structure IdleReq where
  unit : Nat
  source : Nat
  since : Nat
  deriving DecidableEq, Repr

/-- Power, clocks and reset beside the registers. Times are uptimes. -/
structure Pwr where
  failed : Nat                     -- the latch of failed Starter attempts (R509)
  loaded : Bool                    -- the Starter has completed since the latest reset that includes PD0
  phases : List (Nat × Nat)        -- phases of this start-up and the uptimes at which they began
  opts : BootOpts
  tripped : Bool
  trips : List Nat                 -- trips of the last 3,600 s
  waitsWake : Bool                 -- after a third trip: waits as a Dormant device waits
  dormantAt : Option Nat           -- Dormant entry, or the third trip: what PCR_WAKE_ALARM counts from
  saved : Bool                     -- a saved state of PD1 to PD15 is held (R512)
  waking : Option Waking
  stored : Option (Nat × Nat × Nat)   -- Rate mode, frame rate and Precision to be applied on wake (R49)
  entering : Bool                  -- Dormant has been accepted and is being entered
  idle : List IdleReq              -- units under an idle request (R502)
  resetting : Option Nat           -- the union of reaches of a reset in progress, as a mask of R498's rows
  wdog : List (Nat × Nat)          -- core and uptime of its expiries in the last 600 s
  tries : List (Nat × Nat)         -- PLL and its restarts
  lost25 : Bool
  lost156 : Bool
  supplyFault : Bool
  deriving DecidableEq, Repr

/-! ## Live update (chapter 22) -/

/-- What the device keeps of a firmware image (R547). -/
structure FwImage where
  version : Nat
  secVer : Nat
  stateVer : Nat
  stateMin : Nat
  exportMin : Nat
  peerMin : Nat
  peerMax : Nat
  byreMin : Nat
  byreMax : Nat
  strFmt : Nat
  len : Nat
  deriving DecidableEq, Repr

/-- Live update beside its registers. Kinds are 0 Byre and 1 management; cores 0 Byre and 1 to 3 MC0 to MC2. -/
structure Upd where
  running : List FwImage           -- by kind
  slots : List Nat                 -- the running slot of each kind, 0 A or 1 B
  next : Option FwImage            -- the image of the update in progress
  kind : Nat
  action : Nat
  handed : List Nat                -- cores handed over, in order
  gapFrom : Option Nat             -- uptime from which the core in handover does no work
  expired : List Nat               -- cores whose watchdog expired on the new image
  trialAt : Option Nat
  selfOk : Bool
  hostOk : Bool
  cause : Nat                      -- cause of a revert in progress
  back : Nat                       -- cores handed back so far in it
  marker : Bool                    -- the trial marker of the boot record
  deriving DecidableEq, Repr

/-! ## Redundant pairs (chapter 19) -/

/-- A mirror record sent and not yet acknowledged (R474). -/
structure MirrorRec where
  mseq : Nat
  frame : Nat
  band : Nat               -- BAND of R473
  tcrc : Nat               -- TCRC of R473
  sentAt : Nat             -- uptime of its first sending
  acts : Bool              -- the Active acts on it once it is acknowledged
  what : Mirrored
  deriving DecidableEq, Repr

/-- An L-class value that applies from a band of a frame on (R475): the channel or the register as it was before. -/
structure LateValue where
  frame : Nat
  band : Nat
  chan : Option Chan
  word : Option (Nat × Word)
  deriving DecidableEq, Repr

/-- A planned switch that has been accepted (R482): whether it leads to Dormant (R49), the uptime at which HANDOVER was sent,
and the frame of the switch. -/
structure Switching where
  dormant : Bool
  force : Bool
  sentAt : Option Nat
  frame : Nat
  deriving DecidableEq, Repr

/-- A mirror record that a Standby has received: MSEQ, FRAME, BAND, TCRC, the uptime of its arrival, and its content. -/
structure KeptRec where
  mseq : Nat
  frame : Nat
  band : Nat
  tcrc : Nat
  at_ : Nat
  what : Mirrored
  deriving DecidableEq, Repr

/-- A resynchronisation of a Standby (R487): whether it has been asked for, the snapshot taken in and the uptime of its last
frame, and the records kept to be applied after it. -/
structure Resync where
  snap : Option Snapshot
  lastAt : Nat
  kept : List KeptRec              -- records kept to be applied after it, oldest first
  bytes : Nat
  deriving DecidableEq, Repr

/-- The signatures of a frame (R484). -/
structure FrameSigs where
  frame : Nat
  stateId : Nat
  sigs : List (Nat × Nat)
  deriving DecidableEq, Repr

/-- What one bell keeps. Times are uptimes in ns. -/
structure Bell where
  heard : Option Nat               -- the latest partner heartbeat
  no : Nat                         -- its HB_NO
  sent : Nat                       -- HB_NO of the next heartbeat of this device
  silent : Option Nat              -- silent since
  alarm : Option Nat               -- a path alarm is held, for a silence that began at this uptime
  back : Option Nat                -- the first heartbeat since the silence
  deriving DecidableEq, Repr

structure Red where
  fault : Bool             -- FAULT is being sent (R469)
  bypass : Bool            -- the ring ports are in bypass (R469, R478)
  sacnStop : Bool          -- sACN has stopped (R469)
  follows : Bool           -- an Active: its partner is a READY Standby
  mseq : Nat               -- MSEQ of the next record
  queue : List MirrorRec   -- records not yet acknowledged, oldest first
  heardSeq : Nat           -- SEQ and SENT_BAND of the partner's latest heartbeat (R476)
  heardBand : Nat
  mlog : Nat               -- entries of RED_MLOG written so far
  marks : List (Nat × List (Nat × Nat × Nat))   -- frame and the Active's marks: stream, mark, timestamp or slot
  waitMarks : Option Nat   -- a Standby's frame that waits for the Active's marks (R475)
  voids : List Nat         -- frames whose signature comparison is void
  bellA : Bell
  bellB : Bell
  seekFrom : Nat           -- uptime at which seeking began, or of the latest heartbeat while seeking (R462)
  partner : Option Heartbeat       -- the latest partner heartbeat
  info : Option PartnerInfo        -- what a Standby knows of its Active
  epochHeard : Nat         -- the latest epoch heard from a partner; 0 for none (R464)
  ftog : Bool              -- FTOG of this device's heartbeats (R470)
  pulseSeen : Bool         -- the partner's FTOG at the latest FENCE_OUT pulse
  pulseAt : Option Nat     -- uptime of the latest FENCE_OUT pulse not yet judged
  unseen : Nat             -- pulses in a row that were not seen
  fenceAlarm : Bool
  blocked : Bool           -- takeover is blocked until FORCE_ACTIVE (R471)
  failedAt : Option (Nat × Nat)    -- uptimes t_d and t_f of a takeover in progress (R478)
  goodFrom : Option Nat    -- uptime from which the partner has reported ROLE Standby with this EPOCH (R480)
  offsets : List Int       -- the last 64 offsets, newest first (R467)
  origin : Option (Nat × Nat)      -- ORIGIN of the latest Bell B heartbeat, and its arrival, in ns of device time
  next : Nat               -- a Standby: MSEQ of the record it applies next
  lag : Bool               -- MIRROR of R477: records are lost or late
  noFollow : Bool          -- a mirrored mode change could not be followed (R49)
  partnerDormant : Bool    -- the partner has announced Dormant (R49)
  switching : Option Switching
  resync : Option Resync
  sends : Option Nat       -- an Active: frame k of the snapshot it has promised (R487)
  own : List FrameSigs     -- this device's signatures of the latest frames, newest first
  misses : Nat             -- mismatching frames in a row
  matches_ : Nat           -- matching frames in a row while the alarm is held
  sigAlarm : Bool
  healthAt : Option Nat    -- uptime of the latest health report received
  loops : List (Nat × Nat) -- port and uptime of its latest passed loopback (R486)
  loopFail : List Nat      -- ports whose latest loopback failed
  late : List LateValue    -- L-class values not yet in force in every band, newest first (R475)
  purged : Nat × Nat       -- a frame, and how many of its bands the old Active has sent (R478)
  deriving DecidableEq, Repr


/-! ## Faults and refusals -/

/-- The ways the machine stops with a fault. -/
inductive Fault where
  /-- Raised by no meaning: no command of this block stops the device. Safe. -/
  | none
  deriving DecidableEq, Repr

/-- The ways a command is refused. -/
inductive Refusal where
  /-- Raised by an arm of the dispatcher whose command has no meaning in this model. Safe: nothing is claimed of it. -/
  | notModelled (mnemonic : String)
  deriving DecidableEq, Repr

/-! ## State -/

/-- The whole state of the device. -/
structure State where
  /-- The commands waiting, first in first out. -/
  pending : List Instr
  /-- Device time, the show clock, in units of 2^-16 ns from the PTP epoch (R21, R348). -/
  now : Nat
  /-- Time since power-on in ns, which no step or time set moves: the monotonic counts of the device run from it. -/
  uptime : Nat
  /-- The registers of BAR0 that do not hold their reset value, by BAR0 offset. -/
  regs : List (Nat × Word)
  /-- The _HI words latched by reads of their _LO registers (R5), by the offset of _HI. -/
  hiLatch : List (Nat × Word)
  /-- The Bulk Tank's bytes by usable address; an unlisted byte reads 0. -/
  bulk : List Host.Cell
  /-- The on-chip pail memory (R392); an unlisted byte reads 0. -/
  pailMem : List Host.Cell
  /-- The retained SRAM (R506); an unlisted byte reads 0. -/
  retSram : List Host.Cell
  /-- The Tally SRAM (R529); an unlisted byte reads 0. -/
  tallyRam : List Host.Cell
  /-- The boot flash; an unlisted byte reads 0xFF, erased (R536). -/
  flash : List Host.Cell
  /-- What the device has sent out, oldest first: the model's own record. -/
  outs : List Out
  /-- The count of free values used so far: the model's own field. -/
  freeCount : Nat
  /-- The frame pipeline and the modes. -/
  sys : Sys
  /-- The structure in force and the load in progress. -/
  str : Str
  /-- The churn engines CE0 to CE11. -/
  eng : List Eng
  /-- The signature test's rotation. -/
  sig : SigTest
  /-- Channels, shadow sets, cues and commands. -/
  cmd : Cmd
  /-- The pails and the Parlour. -/
  par : Par
  /-- The host link and the domain bridge. -/
  host : HostLink
  /-- The Tally beside its registers and its SRAM. -/
  tly : Tly
  /-- Fault injection. -/
  flt : Flt
  /-- The redundant pair. -/
  red : Red
  /-- Ingest. -/
  ing : Ing
  /-- The frames in work, newest first. -/
  frames : List FrameWork
  /-- What each layer keeps from frame to frame, by INDEX. -/
  layerKeep : List (Nat × LayerKeep)
  /-- The Bulk Tank memory controller. -/
  mem : Mem
  /-- Composition. -/
  cmp : Cmp
  /-- Uniformity calibration. -/
  cal : Cal
  /-- The Separator. -/
  sep : Sep
  /-- The governor. -/
  gov : Gov
  /-- The network links 0 to 24. -/
  links : List Link
  /-- DvoreLink. -/
  dvl : Dvl
  /-- Fixtures and sACN. -/
  fix : Fix
  /-- Direct-drive ports. -/
  ddp : Ddp
  /-- The show clock. -/
  tim : Tim
  /-- The fuse array. -/
  fuses : Fuses
  /-- Power, clocks and reset. -/
  pwr : Pwr
  /-- Live update. -/
  upd : Upd
  deriving DecidableEq, Repr

def Tly.reset : Tly :=
  { intake := [], limits := [], buckets := [], ring := [], lostIntake := 0, lostOver := 0, lastLost := none,
    second := [], reserved := none, mirror := { sectorNo := 0, cur := 0, used := 0, bad := [] } }

def HostLink.reset : HostLink :=
  { msixEnable := false, msixMaskAll := false, msixTable := [], pba := 0, d3hot := false, held := [],
    retrying := [], posted := [], boost := false, boostIdleAt := 0, boostAskedAt := none,
    sems := List.replicate 16 { since := 0, revoked := none }, aerStatus := 0 }

def Cmd.reset : Cmd :=
  { chans := [], gens := [], freed := [], used := [], sets := List.replicate 16 { locked := false, entries := [] },
    cues := [], flight := [], deferred := [], fenced := [], nextId := 0, latches := 0, latched := [],
    unrouted := [], awaiting := none }

def Eng.reset : Eng :=
  { lastFault := none, reloading := none, rejoinAt := none, used := [0, 0, 0, 0],
    overDone := [false, false, false, false], out := false, passed := none,
    code := [], store := [], credits := [512, 512, 512, 512], waiting := [], serves := none }

def Sys.reset : Sys :=
  { started := false, nextB := 0, nextS := 0, bg := List.replicate 10 { since := 0, from_ := 0, ahead := 0 }, trans := none,
    rateChg := none, sameFrames := 0, inputChanged := false, frameChanged := false, holdNext := false, heldFrame := 0, holdFrom := 0, holdLen := 0 }

def Bell.reset : Bell := { heard := none, no := 0, sent := 0, silent := none, alarm := none, back := none }

def Red.reset : Red :=
  { fault := false, bypass := false, sacnStop := false, follows := false, mseq := 1, queue := [], heardSeq := 0, heardBand := 0, mlog := 0,
    marks := [], waitMarks := none, voids := [], bellA := Bell.reset, bellB := Bell.reset, seekFrom := 0, partner := none, info := none,
    epochHeard := 0, ftog := false, pulseSeen := false, pulseAt := none, unseen := 0, fenceAlarm := false, blocked := false,
    failedAt := none, goodFrom := none, offsets := [], origin := none, next := 1, lag := false, noFollow := false,
    partnerDormant := false, switching := none, resync := none, sends := none, own := [], misses := 0, matches_ := 0,
    sigAlarm := false, healthAt := none, loops := [], loopFail := [], late := [], purged := (0, 0) }

def Stream.reset : Stream :=
  { ssrc := none, lastTs := none, marks := [], judged := [], pics := [], latest := none, fresh := false, lastA := 0,
    lastB := 0, noSignal := none, formatAt := [], held := [], playFrom := 0, ready := [], lastSlot := none,
    lastGiven := none }

def Ing.reset : Ing := { streams := List.replicate 32 Stream.reset, jobs := [], v2Heard := [], rxFrom := 0, rxBytes := 0 }

def Link.reset : Link :=
  { pauseUntil := 0, pfcUntil := [0, 0, 0, 0, 0, 0, 0, 0], heldFrom := none, ignoreUntil := 0, queue := [], arp := [],
    arpWait := [], joins := [], exact := [], eyeLow := 0, retrain := none, poor := [], icmpFrom := 0, icmpCount := 0, fresh := true,
    quietUntil := 0 }

def Dvl.reset : Dvl :=
  { joined := [], heard := [], rings := List.replicate 8 { broken := none, timeStep := false }, delays := [], asked := [],
    seqs := [], mismatch := [] }


def DdPort.reset : DdPort :=
  { startAt := none, stopAt := none, testAt := none, good := none, showAt := none, written := none, done := none,
    shifted := [], shiftEnd := 0, front := none, reshift := false, late := none }

def PtpPort.reset : PtpPort :=
  { sync := none, ms := none, dreq := none, delay := none, seqSync := 0, seqAnn := 0, seqDreq := 0, seqMan := 0, managed := none }

def Tim.reset : Tim :=
  { ports := List.replicate 19 PtpPort.reset, foreign := [], collecting := none, parent := none, newNext := true, offsets := [], good := 0, slewAt := none,
    holdRate := 0, rates := [], beyond := 0, last := none, pending := none, waiting := none, plan := none, holdSince := none,
    edge := none, fresh := true, diverged := false, steps := [] }

def Fuses.reset : Fuses :=
  { macBase := 0, serial := 0, keyHash := List.replicate 4 (List.replicate 48 0), revoked := 0, fwCounter := 0,
    strCounter := 0, stepping := 0x20, romRef := 0, trip := 16 * 125 }

def BootOpts.reset : BootOpts :=
  { options := 0, bankV := 0, flashMode := 0, fwTable := 0, strOff := 0, strLen := 0, tallyOff := 0, tallyLen := 0,
    avsMin := 750, avsMax := 750 }

def Pwr.reset : Pwr :=
  { failed := 0, loaded := false, phases := [], opts := BootOpts.reset, tripped := false, trips := [], waitsWake := false,
    dormantAt := none, saved := false, waking := none, stored := none, entering := false, idle := [], resetting := none, wdog := [],
    tries := [], lost25 := false, lost156 := false, supplyFault := false }

def FwImage.reset : FwImage :=
  { version := 0, secVer := 0, stateVer := 0, stateMin := 0, exportMin := 0, peerMin := 0, peerMax := 0, byreMin := 0,
    byreMax := 0, strFmt := 1, len := 0 }

def Upd.reset : Upd :=
  { running := [FwImage.reset, FwImage.reset], slots := [0, 0], next := none, kind := 0, action := 0, handed := [],
    gapFrom := none, expired := [], trialAt := none, selfOk := false, hostOk := false, cause := 0, back := 0, marker := false }

/-- The machine right after power-on: every register at its reset value, every memory with nothing listed, only the
Byre island on, and no command waiting. -/
def State.reset : State where
  pending := []
  now := 0
  uptime := 0
  regs := []
  hiLatch := []
  bulk := []
  pailMem := []
  retSram := []
  tallyRam := []
  flash := []
  outs := []
  freeCount := 0
  sys := Sys.reset
  str := { inForce := none, stagingHigh := false, load := none, standin := none, capNew := none }
  eng := List.replicate 12 Eng.reset
  sig := { rotation := [], testing := none, refNow := 0, stopped := false }
  cmd := Cmd.reset
  par := { pails := [], served := 0, lateFrame := 0, lateSeen := false }
  host := HostLink.reset
  tly := Tly.reset
  flt := { armed := none }
  red := Red.reset
  ing := Ing.reset
  frames := []
  layerKeep := []
  mem := Mem.reset
  cmp := { banks := [], loading := none, wb := [] }
  cal := { members := [], zones := [], staged := [], load := none, behind := [] }
  sep := { curves := [], loading := none, identity := [] }
  gov := { types := [], load := none, eps := [], feeds := [], last := none, heldEps := [], groups := [] }
  links := List.replicate 25 Link.reset
  dvl := Dvl.reset
  fix := { motion := [], held := [], univ := [], syncs := [], built := [], terms := [] }
  ddp := { ports := List.replicate 32 DdPort.reset, lists := [], releasing := [], lastEdge := 0 }
  tim := Tim.reset
  fuses := Fuses.reset
  pwr := Pwr.reset
  upd := Upd.reset

end Sys2Proof.Machine
end

