-- ==== Sys2Proof/Machine/Ops.lean ====
section
/-! DEFINITION. The named operations every meaning is built from: reading and writing register fields, counters and
event bits, memories, MSI-X messages, Tally records, time and the frame lattice. -/
namespace Sys2Proof.Machine

/-! ## Registers -/

/-- The value of the register at a BAR0 offset. -/
def State.reg (s : State) (a : Nat) : Word := sparseGet regReset s.regs a

/-- Store a register, keeping the register file canonical. -/
def State.setReg (s : State) (a : Nat) (v : Word) : State :=
  { s with regs := sparseSet regReset s.regs a v }

/-- The BAR0 offset of a field's register at an index. -/
def Field.addr (f : Field) (i : Nat := 0) : Nat := f.base + f.stride * i

/-- The value of a field. -/
def State.get (s : State) (f : Field) (i : Nat := 0) : Nat :=
  ((s.reg (f.addr i)).toNat / 2 ^ f.lo) % 2 ^ f.width

/-- Store a field; bits above its width are dropped, and the register's other bits stay. -/
def State.put (s : State) (f : Field) (v : Nat) (i : Nat := 0) : State :=
  s.setReg (f.addr i) (BitVec.ofNat 32 (putBits (s.reg (f.addr i)).toNat f.lo f.width v))

/-- A one-bit field as a truth value. -/
def State.flag (s : State) (f : Field) (i : Nat := 0) : Bool := s.get f i != 0

/-- Store a truth value in a one-bit field. -/
def State.putFlag (s : State) (f : Field) (b : Bool) (i : Nat := 0) : State :=
  s.put f (if b then 1 else 0) i

/-- Add to a counter that saturates at the largest value of its field. -/
def State.add (s : State) (f : Field) (n : Nat) (i : Nat := 0) : State :=
  s.put f (satAdd (2 ^ f.width - 1) (s.get f i) n) i

/-- Count one in a saturating counter. -/
def State.bump (s : State) (f : Field) (i : Nat := 0) : State := s.add f 1 i

/-- A 64-bit value held in a _LO and the following _HI register (R5). -/
def State.get64 (s : State) (lo : Field) (i : Nat := 0) : Nat :=
  (s.reg (lo.addr i)).toNat + 2 ^ 32 * (s.reg (lo.addr i + 4)).toNat

/-- Store a 64-bit value in a _LO and the following _HI register. -/
def State.put64 (s : State) (lo : Field) (v : Nat) (i : Nat := 0) : State :=
  (s.setReg (lo.addr i) (BitVec.ofNat 32 v)).setReg (lo.addr i + 4) (BitVec.ofNat 32 (v / 2 ^ 32))

/-- Count in a 64-bit counter of two registers. -/
def State.add64 (s : State) (lo : Field) (n : Nat) (i : Nat := 0) : State :=
  s.put64 lo (s.get64 lo i + n) i

/-- Advance a field by 1, wrapping in its width (the SEQ fields). -/
def State.advance (s : State) (f : Field) (i : Nat := 0) : State := s.put f (s.get f i + 1) i

/-! ## Memories -/

/-- A byte of the Bulk Tank at a usable address. -/
def State.bulkByte (s : State) (a : Nat) : Byte := sparseGet (fun _ => 0) s.bulk a
/-- Store a byte of the Bulk Tank. -/
def State.setBulk (s : State) (a : Nat) (b : Byte) : State :=
  { s with bulk := sparseSet (fun _ => 0) s.bulk a b }
/-- A byte of the on-chip pail memory. -/
def State.pailByte (s : State) (a : Nat) : Byte := sparseGet (fun _ => 0) s.pailMem a
/-- Store a byte of the on-chip pail memory. -/
def State.setPailByte (s : State) (a : Nat) (b : Byte) : State :=
  { s with pailMem := sparseSet (fun _ => 0) s.pailMem a b }
/-- A byte of the retained SRAM. -/
def State.retByte (s : State) (a : Nat) : Byte := sparseGet (fun _ => 0) s.retSram a
/-- Store a byte of the retained SRAM. -/
def State.setRet (s : State) (a : Nat) (b : Byte) : State :=
  { s with retSram := sparseSet (fun _ => 0) s.retSram a b }
/-- A byte of the Tally SRAM. -/
def State.tallyByte (s : State) (a : Nat) : Byte := sparseGet (fun _ => 0) s.tallyRam a
/-- Store a byte of the Tally SRAM. -/
def State.setTallyByte (s : State) (a : Nat) (b : Byte) : State :=
  { s with tallyRam := sparseSet (fun _ => 0) s.tallyRam a b }
/-- A byte of the boot flash; erased flash reads 0xFF (R536). -/
def State.flashByte (s : State) (a : Nat) : Byte := sparseGet (fun _ => 0xFF) s.flash a
/-- Program or erase one byte of the boot flash. -/
def State.setFlash (s : State) (a : Nat) (b : Byte) : State :=
  { s with flash := sparseSet (fun _ => 0xFF) s.flash a b }

/-- Clear the on-chip pail memory. -/
def State.clearPailMem (s : State) : State := { s with pailMem := [] }

/-- Keep the registers that pass at what they hold; every other register goes back to its reset value. -/
def State.keepRegs (s : State) (p : Nat → Bool) : State := { s with regs := sparseKeep p s.regs }

/-- Erase the boot flash but for the addresses that pass. -/
def State.keepFlash (s : State) (p : Nat → Bool) : State := { s with flash := sparseKeep p s.flash }

/-- `n` bytes of the Bulk Tank from an address, as numbers. -/
def State.bulkBytes (s : State) (a n : Nat) : List Nat :=
  (List.range n).map (fun k => (s.bulkByte (a + k)).toNat)
/-- A little-endian number of `n` bytes in the Bulk Tank. -/
def State.bulkLe (s : State) (a n : Nat) : Nat := ofLe (s.bulkBytes a n)
/-- `n` bytes of the boot flash. -/
def State.flashBytes (s : State) (a n : Nat) : List Nat :=
  (List.range n).map (fun k => (s.flashByte (a + k)).toNat)
/-- `n` bytes of the Tally SRAM. -/
def State.tallyBytes (s : State) (a n : Nat) : List Nat :=
  (List.range n).map (fun k => (s.tallyByte (a + k)).toNat)

/-- Write bytes one after another with a one-byte writer. -/
def writeBytes (w : State → Nat → Byte → State) : State → Nat → List Nat → State
  | s, _, [] => s
  | s, a, b :: bs => writeBytes w (w s a (BitVec.ofNat 8 b)) (a + 1) bs

/-- Write bytes into the Bulk Tank. -/
def State.writeBulk (s : State) (a : Nat) (bs : List Nat) : State := writeBytes State.setBulk s a bs
/-- Write a little-endian number of `n` bytes into the Bulk Tank. -/
def State.writeBulkLe (s : State) (a n v : Nat) : State := s.writeBulk a (leBytes n v)
/-- Write bytes into the on-chip pail memory. -/
def State.writePailMem (s : State) (a : Nat) (bs : List Nat) : State := writeBytes State.setPailByte s a bs
/-- Write bytes into the retained SRAM. -/
def State.writeRet (s : State) (a : Nat) (bs : List Nat) : State := writeBytes State.setRet s a bs
/-- Write bytes into the Tally SRAM. -/
def State.writeTally (s : State) (a : Nat) (bs : List Nat) : State := writeBytes State.setTallyByte s a bs
/-- Write bytes into the boot flash. -/
def State.writeFlash (s : State) (a : Nat) (bs : List Nat) : State := writeBytes State.setFlash s a bs

/-! ## Folding -/

/-- Apply a change for each element of a list, in order. -/
def State.each {α : Type} (s : State) (l : List α) (f : α → State → State) : State :=
  l.foldl (fun t a => f a t) s

/-- Apply a change if a condition holds. -/
def State.when (s : State) (c : Bool) (f : State → State) : State := if c then f s else s

/-! ## What the device sends out -/

/-- Record something the device sends or reports to the outside. -/
def State.emit (s : State) (o : Out) : State := { s with outs := s.outs ++ [o] }

/-! ## Free values -/

/-- The next free value of `w` bits, and the state with the counter advanced. -/
def State.free (s : State) (w : Nat) : Nat × State :=
  ((Config.freeValue s.freeCount) % 2 ^ w, { s with freeCount := s.freeCount + 1 })

/-! ## MSI-X (R421) -/

/-- The mask bit of a vector's table entry; the vector control word resets to masked (PRESUMED, the MSI-X
capability's own reset value). -/
def State.vectorMasked (s : State) (v : Nat) : Bool :=
  (sparseGet msixReset s.host.msixTable (4 * v + 3)).getLsbD 0

/-- Raise an MSI-X vector: nothing while MSI-X Enable is clear, the PBA bit while masked, else a message. -/
def State.msi (s : State) (v : Nat) : State :=
  if s.host.msixEnable = false then s
  else if s.host.msixMaskAll || s.vectorMasked v then
    { s with host := { s.host with pba := s.host.pba ||| 2 ^ v } }
  else s.emit (.msi v)

/-- Raise an assignable vector: 21 to 63; any other value raises none (R17, R18). -/
def State.msiAssigned (s : State) (v : Nat) : State := if 21 ≤ v ∧ v ≤ 63 then s.msi v else s

/-- The vector of the event register at a BAR0 offset: a fixed vector of R17, or the VECTOR field of the block. -/
def State.vectorOf (s : State) (a : Nat) : Nat :=
  let blk := a / 0x10000
  let one (f : Field) (i : Nat := 0) : Nat := let v := s.get f i; if 21 ≤ v ∧ v ≤ 63 then v else 64
  if a = R.SYS_MODE_EVT.base then one F.SYS_MODE_CTL_VECTOR
  else if blk = 1 then one F.STR_LOAD_CTL_VECTOR
  else if blk = 2 then one F.CE_CTL_VECTOR ((a - 0x20000) / 0x1000)
  else if blk = 3 then one F.CH_CTL_VECTOR
  else if blk = 4 then one F.ING_CTL_VECTOR
  else if blk = 5 then one F.CMP_CTL_VECTOR
  else if blk = 6 then one F.SEP_CTL_VECTOR
  else if blk = 7 then one F.CAL_CTL_VECTOR
  else if blk = 8 then one F.GOV_CTL_VECTOR
  else if blk = 9 then one F.DVL_CTL_VECTOR
  else if blk = 10 then one F.FIX_CTL_VECTOR
  else if blk = 11 then one F.DDP_CTL_VECTOR
  else if blk = 12 then 4
  else if blk = 13 then one F.NET_CTL_VECTOR
  else if blk = 14 then one F.PAR_CTL_VECTOR
  else if blk = 16 then one F.HBR_CTL_VECTOR
  else if blk = 17 then one F.DBR_CTL_VECTOR
  else if blk = 18 then one F.MEM_CTL_VECTOR
  else if blk = 19 then 3
  else if blk = 20 then one F.PCR_CTL_VECTOR
  else if blk = 22 then one F.FLT_CTL_VECTOR
  else if blk = 23 then one F.TLY_CTL_VECTOR
  else if blk = 24 then one F.CRC_CTL_VECTOR
  else if blk = 25 then one F.UPD_CTL_VECTOR
  else 64

/-- The block of an event register lies in the Byre, whose messages polled mode holds back (R435). -/
def inByre (a : Nat) : Bool :=
  let blk := a / 0x10000
  blk == 20 || blk == 21 || blk == 23 || (0xD0F00 ≤ a && a < 0xD1000)

/-- Set event bits; each bit that goes from 0 to 1 raises the register's vector (R421). -/
def State.raise (s : State) (f : Field) (i : Nat := 0) : State :=
  let a := f.addr i
  if s.flag f i then s
  else
    let t := s.putFlag f true i
    let v := t.vectorOf a
    if inByre a && t.flag F.DBR_CTL_POLL_EN then t
    else if v < 64 then t.msi v else t

/-! ## The Tally's writers (R531 to R533) -/

/-- A signed payload item as its 8-byte slot (R530). -/
def slotOfInt (x : Int) : Nat := ofSigned 64 x

/-- Device time in whole nanoseconds from the PTP epoch. -/
def State.nowNs (s : State) : Nat := s.now / 65536

/-- Pass a record to the Tally's 64-record intake; a record that finds it full is dropped and counted (R532). -/
def State.tally (s : State) (code : Nat) (items : List Nat) : State :=
  if s.tly.intake.length < 64 then
    { s with tly := { s.tly with intake := s.tly.intake ++ [⟨code, s.nowNs % 2 ^ 64, items⟩] } }
  else
    let t := { s with tly := { s.tly with lostIntake := s.tly.lostIntake + 1 } }
    (t.bump R.TLY_LOST).raise F.TLY_EVT_LOST

/-- The rate limit kept for a key. -/
def State.limitOf (s : State) (key : Nat) : Option RateLimit :=
  s.tly.limits.find? (fun l => l.key == key)

/-- The state with another list of rate limits. -/
def State.setLimits (s : State) (l : List RateLimit) : State := { s with tly := { s.tly with limits := l } }

/-- Write a record at most once in `period` ns for a key. `v` is the value of this event; `items` takes the number of
events since the last record, this one included, and the value of the first of them. -/
def State.tallyLimitedV (s : State) (key period code v : Nat) (items : Nat → Nat → List Nat) : State :=
  match s.limitOf key with
  | none => (s.setLimits (s.tly.limits ++ [⟨key, s.uptime, 0, 0⟩])).tally code (items 1 v)
  | some l =>
    if l.last + period ≤ s.uptime then
      (s.setLimits (s.tly.limits.map (fun m => if m.key == key then ⟨key, s.uptime, 0, 0⟩ else m))).tally code
        (items (l.count + 1) (if l.count = 0 then v else l.first))
    else
      s.setLimits (s.tly.limits.map (fun m =>
        if m.key == key then ⟨key, m.last, m.count + 1, if m.count = 0 then v else m.first⟩ else m))

/-- Write a record at most once in `period` ns for a key. -/
def State.tallyLimited (s : State) (key period code : Nat) (items : Nat → List Nat) : State :=
  s.tallyLimitedV key period code 0 (fun n _ => items n)

/-- One second, in ns of uptime. -/
def oneSecond : Nat := 1000000000
/-- 10 ms, in ns. -/
def tenMs : Nat := 10000000

/-- Write a record at most `n` times in any `period` ns window for a key, the window opening at a record. -/
def State.tallyAtMost (s : State) (key n period code : Nat) (items : List Nat) : State :=
  match s.limitOf key with
  | none => (s.setLimits (s.tly.limits ++ [⟨key, s.uptime, 1, 0⟩])).tally code items
  | some l =>
    let put (m : RateLimit) := s.setLimits (s.tly.limits.map (fun x => if x.key == key then m else x))
    if l.last + period ≤ s.uptime then (put ⟨key, s.uptime, 1, 0⟩).tally code items
    else if l.count < n then (put ⟨key, l.last, l.count + 1, 0⟩).tally code items
    else s

/-! ## Handles (R11 to R13) -/

/-- A handle from its parts (R11). -/
def mkHandle (kind gen index : Nat) : Nat := kind * 2 ^ 26 + (gen % 256) * 2 ^ 18 + index % 2 ^ 18
/-- KIND of a handle. -/
def handleKind (h : Nat) : Nat := bits h 31 26
/-- GEN of a handle. -/
def handleGen (h : Nat) : Nat := bits h 25 18
/-- INDEX of a handle. -/
def handleIndex (h : Nat) : Nat := bits h 17 0
/-- The handle of a channel. -/
def Chan.handle (c : Chan) : Nat := mkHandle c.kind c.gen c.index

/-- The channel at a kind and index, if the index is not FREE. -/
def State.chanAt (s : State) (kind index : Nat) : Option Chan :=
  s.cmd.chans.find? (fun c => c.kind == kind && c.index == index)

/-- The live channel a handle names: not FREE, not DRAINING, of the handle's GEN. -/
def State.chanOf (s : State) (h : Nat) : Option Chan :=
  match s.chanAt (handleKind h) (handleIndex h) with
  | some c => if c.gen = handleGen h ∧ c.st ≠ .draining then some c else none
  | none => none

/-- Change the channel at a kind and index. -/
def State.modChan (s : State) (kind index : Nat) (f : Chan → Chan) : State :=
  let l := s.cmd.chans.map (fun c => if c.kind == kind && c.index == index then f c else c)
  { s with cmd := { s.cmd with chans := l } }

/-- A parameter's value in a channel, given its default. -/
def Chan.param (c : Chan) (p dflt : Nat) : Nat :=
  match c.params.find? (fun q => q.1 == p) with
  | some q => q.2
  | none => dflt

/-- A channel with a parameter set; a reference in it is no longer null (R316). -/
def Chan.setParam (c : Chan) (p v : Nat) : Chan :=
  { c with
    nulls := c.nulls.filter (· != p),
    params := if c.params.any (fun q => q.1 == p)
      then c.params.map (fun q => if q.1 == p then (p, v) else q) else c.params ++ [(p, v)] }

/-- The running channels of a kind. -/
def State.running (s : State) (kind : Nat) : List Chan :=
  s.cmd.chans.filter (fun c => c.kind == kind && decide (c.st = .running))

/-! ## Time and the frame lattice (R19 to R22) -/

/-- N and D of a frame-rate code (R20, R63). -/
def rateND : Nat → Nat × Nat
  | 0 => (24000, 1001) | 1 => (24, 1) | 2 => (25, 1) | 3 => (30000, 1001)
  | 4 => (30, 1) | 5 => (48000, 1001) | 6 => (48, 1) | 7 => (50, 1)
  | 8 => (60000, 1001) | 9 => (60, 1) | 10 => (100, 1) | 11 => (120000, 1001)
  | 12 => (120, 1) | 13 => (200, 1) | 14 => (240000, 1001) | _ => (240, 1)

/-- B(n) in units of 2^-16 ns: whole ns and the 16-bit fraction of R21. -/
def boundaryOf (code n : Nat) : Nat :=
  let nd := rateND code
  let q := n * nd.2 * 1000000000
  (q / nd.1) * 65536 + (q % nd.1) * 65536 / nd.1

/-- The frame period T in units of 2^-16 ns, rounded down. -/
def periodOf (code : Nat) : Nat :=
  let nd := rateND code
  nd.2 * 1000000000 * 65536 / nd.1

/-- The frame period as an exact number of µs. -/
def periodUs (code : Nat) : Rat :=
  let nd := rateND code
  mkRat ((nd.2 : Int) * 1000000) nd.1

/-- The frame number of a device time: the largest n with B(n) at or before it (R19, R21). -/
def frameOf (code t : Nat) : Nat :=
  let nd := rateND code
  let g := t * nd.1 / (65536 * 1000000000 * nd.2)
  if boundaryOf code (g + 1) ≤ t then g + 1 else if boundaryOf code g ≤ t then g else g - 1

/-- The frame rate in force. -/
def State.rate (s : State) : Nat := s.get F.SYS_MODE_STAT_FRATE
/-- The advance A in units of 2^-16 ns. -/
def State.adv (s : State) : Nat := s.get F.SYS_PIPE_CTL_ADVANCE * 1000 * 65536
/-- B(n) at the rate in force. -/
def State.bAt (s : State) (n : Nat) : Nat := boundaryOf s.rate n
/-- The rate whose lattice frame n lies on: a frame started before a rate change keeps the old one (R57). -/
def State.rateOf (s : State) (n : Nat) : Nat := ((s.frames.find? (fun f => f.frame == n)).map FrameWork.rate).getD s.rate
/-- B(n) of frame n, at which it is presented. -/
def State.showAt (s : State) (n : Nat) : Nat := boundaryOf (s.rateOf n) n
/-- S(n) = B(n-2) - A (R22's table). -/
def State.sAt (s : State) (n : Nat) : Nat := boundaryOf (s.rateOf n) (n - 2) - s.adv
/-- D(n) = B(n-1) - A. -/
def State.dAt (s : State) (n : Nat) : Nat := boundaryOf (s.rateOf n) (n - 1) - s.adv
/-- E(n) = D(n) - 600 µs. -/
def State.eAt (s : State) (n : Nat) : Nat := s.dAt n - 600000 * 65536
/-- A zone offset in 2^-16 ns added to B(n): P_z(n). -/
def State.pAt (s : State) (n : Nat) (oNs : Int) : Nat := ((s.showAt n : Int) + oNs * 65536).toNat
/-- The frame number latched at the latest boundary (R22). -/
def State.frameNum (s : State) : Nat := s.get64 R.SYS_FRAME_NUM_LO

/-- The occurrence of an event that is tied to an instant tells the machine that the instant has come: device time
is at least that instant afterwards, and the uptime runs on with it. -/
def State.atTime (s : State) (t : Nat) : State :=
  if s.now < t then { s with now := t, uptime := s.uptime + (t - s.now) / 65536 } else s

/-- The same for an event tied to the uptime: the uptime is at least that value afterwards, and device time runs on
with it. -/
def State.atUptime (s : State) (u : Nat) : State :=
  if s.uptime < u then { s with uptime := u, now := s.now + (u - s.uptime) * 65536 } else s

/-- The smallest n whose S(n) lies at or after a device time. -/
def State.firstSFrom (s : State) (t : Nat) : Nat :=
  let n := frameOf s.rate (t + s.adv) + 2
  if t ≤ s.sAt n then n else n + 1

/-- An S-class write is refused: counted, latched, and shown where the owning chapter has an indication of its own. -/
def State.rejectS (s : State) (a : Nat) : State :=
  let s1 := (s.bump R.SYS_S_REJECT_CNT).put R.SYS_S_REJECT_ADDR a
  if a / 0x10000 = 24 then s1.raise F.CRC_EVT_CFG_BUSY
  else if a = R.RED_CTL.base then s1.raise F.RED_EVT_CTL_REJECT
  else s1

/-- Change the system state. -/
def State.modSys (s : State) (f : Sys → Sys) : State := { s with sys := f s.sys }

/-- RX_GBPS at a read or a packet (R171): the valid ingest traffic of the last whole second, 0 once a second has passed with
none. The seconds are counted from the first packet (DESIGN CHOICE: R171 names no window but "the last second"). -/
def State.rollRx (s : State) : State :=
  if s.uptime < s.ing.rxFrom + oneSecond then s
  else
    let g := if s.uptime < s.ing.rxFrom + 2 * oneSecond then s.ing.rxBytes * 8 / 1000000000 else 0
    let t := s.put F.ING_STAT_RX_GBPS (min 255 g)
    { t with ing := { t.ing with rxFrom := s.uptime / oneSecond * oneSecond, rxBytes := 0 } }

/-! ## Modes (R44) -/

/-- POWER: 0 Dormant, 1 Warm, 2 Hold, 3 Show. -/
def State.power (s : State) : Nat := s.get F.SYS_MODE_STAT_POWER
/-- PREC: false Cream, true Skim. -/
def State.skim (s : State) : Bool := s.flag F.SYS_MODE_STAT_PREC
/-- ROLE: 0 Solo, 1 Active, 2 Standby. -/
def State.role (s : State) : Nat := s.get F.SYS_MODE_STAT_ROLE

/-! ## Status codes of R14 -/

def stOK : Nat := 0
def stBadHandle : Nat := 1
def stStale : Nat := 2
def stNoCapacity : Nat := 3
def stInconsistent : Nat := 4
def stWrongMode : Nat := 5
def stBusy : Nat := 6
def stBudget : Nat := 7
def stNotPermitted : Nat := 8
def stTimeout : Nat := 9
def stIntegrity : Nat := 10
def stUnsupported : Nat := 11

/-- The first failing check of a list of (check number, failed, status) in order: its number and status, or 0 and OK. -/
def firstFail : List (Nat × Bool × Nat) → Nat × Nat
  | [] => (0, stOK)
  | (n, failed, st) :: l => if failed then (n, st) else firstFail l

end Sys2Proof.Machine
end

