-- ==== Sys2Proof/Machine/FaultOps.lean ====
section
/-! DEFINITION. Detections and injections (R520 to R526) and the FAULT heartbeat of a pair-fatal detection (R521). -/
namespace Sys2Proof.Machine
open Sys2Proof

/-- A detector counts what it finds (R520). -/
def State.detect (s : State) (id : Nat) : State :=
  (s.bump F.FLT_DET_COUNT id).raise F.FLT_EVT_DETECTED

/-- On an Active, a pair-fatal detection sends FAULT, puts the ring ports in bypass and stops sACN (R469, R521). -/
def State.pairFatal (s : State) : State :=
  if s.role = 1 then { s with red := { s.red with fault := true, bypass := true, sacnStop := true } } else s

/-- Detectors whose injection point names a unit, and those whose injection point names an argument (R520). -/
def unitDetectors : List Nat :=
  [0x01, 0x02, 0x03, 0x04, 0x05, 0x06, 0x0B, 0x0E, 0x0F, 0x11, 0x17, 0x18, 0x19, 0x1A, 0x1B, 0x1C, 0x2E, 0x31]
def argDetectors : List Nat :=
  [0x06, 0x08, 0x09, 0x0A, 0x0C, 0x0D, 0x10, 0x12, 0x13, 0x14, 0x15, 0x19, 0x1D, 0x21, 0x26, 0x27, 0x29, 0x2B, 0x30]

/-- An armed injection is meant for this opportunity. -/
def Armed.matches (a : Armed) (det unit arg frame : Nat) : Bool :=
  a.detector == det && (!unitDetectors.contains det || a.unit == unit) && (!argDetectors.contains det || a.arg == arg) &&
  (!a.perFrame || a.lastFrame != some frame)

/-- Show the armed injection in FLT_INJ_STAT. -/
def State.syncArmed (s : State) : State :=
  match s.flt.armed with
  | some a => (s.putFlag F.FLT_INJ_STAT_ARMED true).put F.FLT_INJ_STAT_REMAINING a.left
  | none => (s.putFlag F.FLT_INJ_STAT_ARMED false).put F.FLT_INJ_STAT_REMAINING 0

/-- Fire one armed injection (R524, R525): recorded before the detector's own records; the arm ends when it is spent. -/
def State.fireArmed (s : State) (a : Armed) : State :=
  let left := a.left - 1
  let t := ((s.bump F.FLT_DET_INJECTED a.detector).raise F.FLT_EVT_FIRED).tally 0x1301 [a.detector, a.unit, a.arg, left]
  if left = 0 then
    (({ t with flt := { t.flt with armed := none } }).raise F.FLT_EVT_INJ_DONE).syncArmed
  else
    ({ t with flt := { t.flt with armed := some { a with left := left, lastFrame := some s.frameNum } } }).syncArmed

/-- An opportunity of a detector: whether an armed injection fires here, and the state after it. -/
def State.opportunity (s : State) (det unit arg : Nat) : Bool × State :=
  match s.flt.armed with
  | some a => if a.matches det unit arg s.frameNum then (true, s.fireArmed a) else (false, s)
  | none => (false, s)

/-- A detection that a command reports: an injection armed for it has fired first (R525), and the detector counts it. -/
def State.detected (s : State) (det unit arg : Nat) : State := (s.opportunity det unit arg).2.detect det

/-- Cancel an armed injection (R526): cause 0 DISARM, 1 reset. -/
def State.cancelArmed (s : State) (cause : Nat) : State :=
  match s.flt.armed with
  | none => s
  | some a =>
    ((({ s with flt := { s.flt with armed := none } }).raise F.FLT_EVT_INJ_DONE).tally 0x1302
      [a.detector, a.left, cause]).syncArmed

end Sys2Proof.Machine
end

