-- ==== Sys2Proof/Machine/PailOps.lean ====
section
/-! DEFINITION. The pail mechanism (R389 to R401): pointers, slots, reservations, length words, level crossings,
overwrites and flushes, as shared operations. -/
namespace Sys2Proof.Machine
open Sys2Proof

/-- The pail of a number, if the structure in force binds it. -/
def State.pail (s : State) (p : Nat) : Option Pail := s.par.pails.find? (fun q => q.num == p)

/-- Change a bound pail. -/
def State.modPail (s : State) (p : Nat) (f : Pail → Pail) : State :=
  { s with par := { s.par with pails := s.par.pails.map (fun q => if q.num == p then f q else q) } }

/-- WR of a pail. -/
def State.plWr (s : State) (p : Nat) : Nat := s.get F.PL_WR_VALUE p
/-- RD of a pail. -/
def State.plRd (s : State) (p : Nat) : Nat := s.get F.PL_RD_VALUE p

/-- The fill of a pail of a DEPTH with pointers wr and rd (R393). -/
def fillOf (depth wr rd : Nat) : Nat := (wr + 2 * depth - rd) % (2 * depth)

/-- The fill of a pail (R393). -/
def State.fill (s : State) (q : Pail) : Nat := fillOf q.depth (s.plWr q.num) (s.plRd q.num)

/-- Bring PL_STAT of a pail up to date with its pointers and its pop (R410). -/
def State.syncPail (s : State) (p : Nat) : State :=
  match s.pail p with
  | none => s
  | some q =>
    let n := s.fill q
    (((s.put F.PL_STAT_FILL n p).putFlag F.PL_STAT_EMPTY (n == 0) p).putFlag F.PL_STAT_FULL (n == q.depth) p).putFlag
      F.PL_STAT_POPPING q.popping.isSome p

/-- Advance WR by n items. -/
def State.wrAdvance (s : State) (q : Pail) (n : Nat) : State :=
  s.put F.PL_WR_VALUE ((s.plWr q.num + n) % (2 * q.depth)) q.num

/-- Advance RD by n items. -/
def State.rdAdvance (s : State) (q : Pail) (n : Nat) : State :=
  s.put F.PL_RD_VALUE ((s.plRd q.num + n) % (2 * q.depth)) q.num

/-- The address of the slot of the k-th item from RD: an offset in the on-chip pail memory, or a Bulk Tank address. -/
def State.slotAddr (s : State) (q : Pail) (k : Nat) : Nat :=
  q.base + ((s.plRd q.num + k) % q.depth) * q.itemBytes

/-- Write bytes into a pail's memory, where the pail lies (R392). -/
def State.writePail (s : State) (q : Pail) (a : Nat) (bs : List Nat) : State :=
  if q.bulk then s.writeBulk a bs else s.writePailMem a bs

/-- Bytes of a pail's memory. -/
def State.pailBytes (s : State) (q : Pail) (a n : Nat) : List Nat :=
  if q.bulk then s.bulkBytes a n else (List.range n).map (fun k => (s.pailByte (a + k)).toNat)

/-- Items that count towards the level: those that are visible, and those that took the place of another. -/
def countedItems (l : List Item) : Nat :=
  (l.filter (fun i => i.overwrote || decide (i.phase ≠ .reserved))).length

/-- Raise a level crossing from a count of `before` to a count of `after` items (R398): at every crossing, whether or
not PL_EVT.LEVEL is set. -/
def State.crossLevel (s : State) (q : Pail) (before after : Nat) : State :=
  let l := s.get F.PL_LEVEL_VALUE q.num
  if l ≠ 0 ∧ l ≤ q.depth ∧ before < l ∧ l ≤ after then
    let t := s.putFlag F.PL_EVT_LEVEL true q.num
    if q.num < 16 then t.msi (5 + q.num) else t.msiAssigned (t.get F.PL_CTL_VECTOR q.num)
  else s

/-- The length word (R394). -/
def lengthWord (len : Nat) (idle void : Bool) (seq : Nat) : Nat :=
  len % 2 ^ 13 + (if idle then 2 ^ 13 else 0) + (if void then 2 ^ 14 else 0) + (seq % 65536) * 2 ^ 16

/-- Let RD pass the completed items at the head of a task pail (R405). -/
def State.releaseDone (s : State) (p : Nat) : State :=
  match s.pail p with
  | none => s
  | some q =>
    let n := (q.items.takeWhile (fun i => decide (i.phase = .done ∨ i.phase = .void))).length
    ((s.rdAdvance q n).modPail p (fun q => { q with items := q.items.drop n })).syncPail p

/-- Bring PAR_STAT, PAR_PRIO and the record of one flow up to date (R411). -/
def State.syncPar (s : State) : State :=
  let tasks := s.par.pails.filter (fun q => q.role == 2)
  let busy (q : Pail) := (q.items.filter (fun i => match i.phase with | .inService _ => true | _ => false)).length
  let waiting (q : Pail) := (q.items.filter (fun i => decide (i.phase = .ready))).length
  let t := (s.put F.PAR_STAT_IN_SERVICE (tasks.map busy).sum).put F.PAR_STAT_QUEUED (tasks.map waiting).sum
  t.each (List.range 16) (fun l u => u.put F.PAR_PRIO_QUEUED ((tasks.filter (fun q => q.prio == l)).map waiting).sum l)

/-- Bring PAR_FLOW of one flow up to date (R404, R411). -/
def State.syncFlow (s : State) (flow : Nat) : State :=
  match s.par.pails.find? (fun q => q.role == 2 && q.flows && q.flowBase ≤ flow && flow < q.flowBase + q.flowCount) with
  | none => s
  | some q =>
    let mine := q.items.filter (fun i => match i.task with | some d => d.flowed && d.flow == flow | none => false)
    let eng := mine.findSome? (fun i => match i.phase with | .inService e => some e | _ => none)
    let back := mine.any (fun i => i.redispatch && decide (i.phase = .ready))
    let wait := (mine.filter (fun i => decide (i.phase = .ready))).length
    (((s.putFlag F.PAR_FLOW_BUSY (eng.isSome || back) flow).put F.PAR_FLOW_ENGINE (eng.getD 15) flow).put
      F.PAR_FLOW_PAIL q.num flow).put F.PAR_FLOW_WAITING (min wait 65535) flow

/-- A new item of a pail. -/
def newItem (seq producer : Nat) (wrote : Bool) : Item :=
  { seq := seq, producer := producer, overwrote := wrote, len := 0, phase := .reserved, task := none,
    redispatch := false, discard := false, since := 0, stuck := false }

/-- Count an overwritten or dropped item (R396). -/
def State.pailLost (s : State) (p lostSeq : Nat) : State :=
  ((s.bump R.PL_LOST p).raise F.PL_EVT_LOST p).tallyLimitedV (0x0E000000 + p) oneSecond 0x0E00 lostSeq
    (fun n first => [p, n, first])

/-- A device producer reserves a slot (R395, R396): WR advances; a full pail stalls the producer, or its oldest item is
overwritten, or the new item is dropped because the oldest is being popped. -/
def State.reserve (s : State) (p producer : Nat) : State :=
  match s.pail p with
  | none => s
  | some q =>
    let seq := s.get F.PL_SEQ_NEXT p
    if q.items.length < q.depth then
      ((s.wrAdvance q 1).advance F.PL_SEQ_NEXT p).modPail p
        (fun q => { q with items := q.items ++ [newItem seq producer false] }) |>.syncPail p
    else if q.role = 3 ∨ q.role = 4 then
      match q.popping with
      | some _ => (s.advance F.PL_SEQ_NEXT p).pailLost p seq
      | none =>
        let lost := (q.items.head?.map Item.seq).getD 0
        (((s.rdAdvance q 1).wrAdvance q 1).advance F.PL_SEQ_NEXT p).modPail p
          (fun q => { q with items := q.items.drop 1 ++ [newItem seq producer true] })
          |>.syncPail p |>.pailLost p lost
    else s.modPail p (fun q => { q with stalled := some (q.stalled.getD s.uptime) })

/-- Bytes of a task item after the length word, read as a task descriptor (R402). -/
def taskOfBytes (bs : List Nat) : TaskDesc :=
  { kind := bs.getD 0 0, flowed := bitAt (bs.getD 1 0) 0, framed := bitAt (bs.getD 1 0) 1,
    flow := ofLe ((bs.drop 2).take 2), handle := ofLe ((bs.drop 4).take 4), stateId := ofLe ((bs.drop 8).take 4),
    frame := ofLe ((bs.drop 12).take 8), unit := ofLe ((bs.drop 20).take 4) }

/-- Remove VOID items from the head of a pail whose consumer skips them (R395). -/
def State.skipVoid (s : State) (p : Nat) : State :=
  match s.pail p with
  | none => s
  | some q =>
    let n := (q.items.takeWhile (fun i => decide (i.phase = .void))).length
    if n = 0 then s
    else ((s.rdAdvance q n).modPail p (fun q => { q with items := q.items.drop n })).syncPail p

/-- The number of words a pop of an item takes (R401). -/
def popWords (q : Pail) (i : Item) : Nat := if q.role = 1 then q.itemBytes / 4 else ceilDiv i.len 4

/-- The word a PL_POP would deliver next: its position in the item, and its value; none where the pail has no visible
item. -/
def State.popPeek (s : State) (q : Pail) : Option (Nat × Nat) :=
  match q.popping with
  | some c =>
    if c.cut then some (c.words, 0)
    else some (c.words, ofLe (s.pailBytes q (s.slotAddr q 0 + 4 * c.words) 4))
  | none =>
    match q.items.head? with
    | some i => if i.phase = .ready then some (0, ofLe (s.pailBytes q (s.slotAddr q 0) 4)) else none
    | none => none

/-- Take delivery of the word at a position: the pop moves on, and the item is consumed with its last word (R401). -/
def State.popAdvance (s : State) (p : Nat) (who : Initiator) (pos : Nat) : State :=
  match s.pail p with
  | none => s
  | some q =>
    let c := match q.popping with
      | some c => some c
      | none => q.items.head?.map (fun i => { who := who, words := 0, cut := false, total := popWords q i })
    match c with
    | none => s
    | some c =>
      if c.words ≠ pos ∨ c.who ≠ who then s
      else if pos + 1 < c.total then
        (s.modPail p (fun q => { q with popping := some { c with words := pos + 1 } })).syncPail p
      else if c.cut then (s.modPail p (fun q => { q with popping := none })).syncPail p
      else
        ((s.rdAdvance q 1).modPail p (fun q => { q with popping := none, items := q.items.drop 1 })).syncPail p

/-- ECC on a read of a pail that lies on chip: a double-bit error that an injection makes (R451); a single-bit error is corrected. -/
def State.pailRead (s : State) (q : Pail) : Bool × State :=
  if q.bulk then (false, s)
  else
    let a := s.opportunity 0x0F q.num 0
    if a.1 then (true, a.2.detect 0x0F)
    else
      let b := a.2.opportunity 0x0E q.num 0
      (false, if b.1 then b.2.detect 0x0E else b.2)

/-- A read completion that ECC or an injection poisons (R436): AER reports it as a poisoned TLP (PRESUMED: bit 12 of the
uncorrectable status). -/
def State.poison (s : State) (who : Initiator) : State :=
  let h : HostLink := { s.host with aerStatus := 0x1000 }
  ((({ s with host := h }).emit (.poisoned who)).raise F.HBR_EVT_AER).tally 0x0F07 [0x1000]

/-- The data of a read leaves for its initiator; detector 0x23 poisons a completion to the host. -/
def State.answer (s : State) (who : Initiator) (v : Nat) : State :=
  if who = .host then
    let q := s.opportunity 0x23 0 0
    if q.1 then (q.2.detect 0x23).poison who else s.emit (.readData who v)
  else s.emit (.readData who v)

/-- The word that a pop finds is answered: for the host it is held until it is delivered (R428), and to a management core it is
delivered with the answer. -/
def State.answerPop (s : State) (p : Nat) (who : Initiator) (pos v : Nat) : State :=
  let s1 := s.answer who v
  if who = .host then
    let h : HeldRead := { who := who, addr := R.PL_POP.addr p, value := v, fetched := s.uptime, byre := false, pop := some p, dead := false, pos := pos }
    { s1 with host := { s1.host with held := s1.host.held ++ [h] } }
  else s1.popAdvance p who pos

/-- A pop that waits on the pail is answered as soon as a word is there (R401). -/
def State.serveWaiting (s : State) (p : Nat) : State :=
  match s.pail p with
  | none => s
  | some q =>
    match q.waitPop, s.popPeek q with
    | w :: l, some (pos, v) => (s.modPail p (fun x => { x with waitPop := l })).answerPop p w.1 pos v
    | _, _ => s

/-- The index of the reserved item of a SEQ in a pail. -/
def reservedAt (q : Pail) (seq : Nat) : Option Nat :=
  q.items.findIdx? (fun i => i.seq == seq && decide (i.phase = .reserved))

/-- A producer writes the payload and then the length word (R394, R395): the item becomes visible, and the level may
be crossed. A slot that has left the pail takes nothing. -/
def State.writeItem (s : State) (p seq : Nat) (payload : List Nat) (void : Bool) : State :=
  match s.pail p with
  | none => s
  | some q =>
    match reservedAt q seq with
    | none => s
    | some k =>
      let len := if void then 4 else min (4 + payload.length) q.itemBytes
      let bs := if void then [] else payload.take (q.itemBytes - 4)
      let a := s.slotAddr q k
      let before := countedItems q.items
      let s1 := (s.writePail q (a + 4) bs).writePail q a (leBytes 4 (lengthWord len false void seq))
      let s2 := s1.modPail p (fun q => { q with items := q.items.modify k (fun i =>
        { i with len := len, phase := if void then .void else .ready,
                 task := if q.role = 2 then some (taskOfBytes payload) else none }) })
      let after := match s2.pail p with | some q2 => countedItems q2.items | none => before
      let s3 := ((s2.crossLevel q before after).syncPail p).serveWaiting p
      if q.role = 2 then
        let s4 := if void then s3.releaseDone p else s3
        (match (taskOfBytes payload).flowed with | true => s4.syncFlow (taskOfBytes payload).flow | false => s4).syncPar
      else s3

/-- A device block appends a whole packet to a telemetry or hardware pail: it reserves and writes it. -/
def State.pushPacket (s : State) (p : Nat) (payload : List Nat) : State :=
  let seq := s.get F.PL_SEQ_NEXT p
  (s.reserve p 255).writeItem p seq payload false

/-- A producer that is reset leaves a VOID length word in each of its reservations (R395). -/
def State.voidReservations (s : State) (producer : Nat) : State :=
  s.each s.par.pails (fun q t =>
    t.each (q.items.filter (fun i => i.producer == producer && decide (i.phase = .reserved)))
      (fun i u => u.writeItem q.num i.seq [] true))

/-- Empty a pail (R399): RD is set to WR and the removed items are counted; commands not yet taken are gone; items of a task pail in service stay until
they complete (R405). -/
def State.flushPail (s : State) (p cause : Nat) : State :=
  match s.pail p with
  | none => s
  | some q =>
    let staying := q.role == 2 && q.items.any (fun i => match i.phase with | .inService _ => true | _ => false)
    let removed := (q.items.filter (fun i => match i.phase with | .inService _ => false | .done => false | _ => true)).length
    let s1 :=
      if staying then
        (s.modPail p (fun q => { q with items := q.items.map (fun i =>
          match i.phase with | .inService _ => i | _ => { i with phase := .done }) })).releaseDone p
      else (s.put F.PL_RD_VALUE (s.plWr p) p).modPail p (fun q => { q with items := [] })
    let s2 := (((s1.add R.PL_FLUSHED removed p).raise F.PL_EVT_FLUSHED p).tally 0x0E01 [p, removed, cause])
    let s3 := match q.popping with
      | some c =>
        ((s2.modPail p (fun q => { q with popping := some { c with cut := true } })).raise F.PL_EVT_CUT p).tally
          0x0E03 [p, c.words]
      | none => s2
    ((({ s3 with cmd := { s3.cmd with fenced := s3.cmd.fenced.filter (fun x => x.pail != p) } } : State).syncPail p).syncPar)


end Sys2Proof.Machine
end

