-- ==== Sys2Proof/Machine/Crypto.lean ====
section
/-! DEFINITION. The two published algorithms the spec names for images (R72): the SHA-384 digest and ECDSA over curve
P-384. The spec names them and does not give them; their constants are the published standards' (PRESUMED). -/
namespace Sys2Proof.Machine

/-- The largest number whose k-th power is at most x, from its bits below 2 ^ n, highest first. -/
def rootGo (k x : Nat) : Nat → Nat → Nat
  | 0, r => r
  | n + 1, r => rootGo k x n (if (r + 2 ^ n) ^ k ≤ x then r + 2 ^ n else r)

/-- The first 64 bits of the fractional part of the k-th root of a number below 2 ^ (4 * k). -/
def rootFraction (k m : Nat) : Nat := rootGo k (m * 2 ^ (64 * k)) 68 0 % 2 ^ 64

/-- The primes below 410: the first 80. -/
def shaPrimes : List Nat := (List.range 410).filter (fun n =>
  decide (2 ≤ n) && (List.range 21).all (fun d => decide (d < 2) || decide (n ≤ d) || n % d != 0))

/-- The round constants of SHA-384: the fractions of the cube roots of the first 80 primes. -/
def shaK : List Nat := shaPrimes.map (rootFraction 3)

/-- The initial hash value of SHA-384: the fractions of the square roots of the 9th to 16th primes. -/
def shaIv : List Nat := ((shaPrimes.drop 8).take 8).map (rootFraction 2)

/-- Rotate a 64-bit word right. -/
def rotr64 (n x : Nat) : Nat := (x / 2 ^ n) ||| (x * 2 ^ (64 - n) % 2 ^ 64)

/-- The message as blocks' words: padded with 0x80, zeros and the 128-bit length in bits. -/
def shaPad (bs : List Nat) : List Nat :=
  let n := bs.length
  let z := (239 - n % 128) % 128
  bs ++ [0x80] ++ List.replicate z 0 ++ beBytes 16 (8 * n)

/-- Group bytes into 64-bit big-endian words. -/
def shaWords : Nat → List Nat → List Nat
  | 0, _ => []
  | n + 1, bs => ofBe (bs.take 8) :: shaWords n (bs.drop 8)

/-- The message schedule, extended by `n` words; the list holds the words so far, latest first. -/
def shaSchedule : Nat → List Nat → List Nat
  | 0, w => w
  | n + 1, w =>
    let w2 := w.getD 1 0
    let w7 := w.getD 6 0
    let w15 := w.getD 14 0
    let w16 := w.getD 15 0
    let s0 := rotr64 1 w15 ^^^ rotr64 8 w15 ^^^ (w15 / 2 ^ 7)
    let s1 := rotr64 19 w2 ^^^ rotr64 61 w2 ^^^ (w2 / 2 ^ 6)
    shaSchedule n ((w16 + s0 + w7 + s1) % 2 ^ 64 :: w)

/-- One round on the eight working words. -/
def shaRound (h : List Nat) (k w : Nat) : List Nat :=
  match h with
  | [a, b, c, d, e, f, g, i] =>
    let s1 := rotr64 14 e ^^^ rotr64 18 e ^^^ rotr64 41 e
    let ch := (e &&& f) ^^^ ((2 ^ 64 - 1 - e) &&& g)
    let t1 := (i + s1 + ch + k + w) % 2 ^ 64
    let s0 := rotr64 28 a ^^^ rotr64 34 a ^^^ rotr64 39 a
    let maj := (a &&& b) ^^^ (a &&& c) ^^^ (b &&& c)
    [(t1 + s0 + maj) % 2 ^ 64, a, b, c, (d + t1) % 2 ^ 64, e, f, g]
  | _ => h

/-- One block. -/
def shaBlock (h bs : List Nat) : List Nat :=
  let w := (shaSchedule 64 (shaWords 16 bs).reverse).reverse
  let r := (shaK.zip w).foldl (fun x p => shaRound x p.1 p.2) h
  (h.zip r).map (fun p => (p.1 + p.2) % 2 ^ 64)

/-- All blocks. -/
def shaBlocks : Nat → List Nat → List Nat → List Nat
  | 0, h, _ => h
  | n + 1, h, bs => shaBlocks n (shaBlock h (bs.take 128)) (bs.drop 128)

/-- The SHA-384 digest of a byte string, as 48 bytes. -/
def sha384 (bs : List Nat) : List Nat :=
  let m := shaPad bs
  ((shaBlocks (m.length / 128) shaIv m).take 6).flatMap (beBytes 8)

/-! ## Curve P-384 -/

def p384P : Nat := 2 ^ 384 - 2 ^ 128 - 2 ^ 96 + 2 ^ 32 - 1
def p384B : Nat := 0xb3312fa7e23ee7e4988e056be3f82d19181d9c6efe8141120314088f5013875ac656398d8a2ed19d2a85c8edd3ec2aef
def p384Gx : Nat := 0xaa87ca22be8b05378eb1c71ef320ad746e1d3b628ba79b9859f741e082542a385502f25dbf55296c3a545e3872760ab7
def p384Gy : Nat := 0x3617de4a96262c6f5d9e98bf9292dc29f8f41dbd289a147ce9da3113b5f0b8c00a60b1ce1d7e819d7a431d7c90ea0e5f
def p384N : Nat := 0xffffffffffffffffffffffffffffffffffffffffffffffffc7634d81f4372ddf581a0db248b0a77aecec196accc52973

/-- Base to an exponent modulo m, from the exponent's `n` low bits. -/
def powMod (m : Nat) : Nat → Nat → Nat → Nat
  | 0, _, _ => 1 % m
  | n + 1, b, e =>
    let r := powMod m n (b * b % m) (e / 2)
    if e % 2 = 1 then b * r % m else r

/-- The inverse modulo a prime. -/
def invMod (p x : Nat) : Nat := powMod p 384 (x % p) (p - 2)

/-- A point of the curve in affine coordinates; none is the point at infinity. -/
abbrev EcPoint := Option (Nat × Nat)

/-- The sum of two points. -/
def ecAdd : EcPoint → EcPoint → EcPoint
  | none, q => q
  | p, none => p
  | some (x1, y1), some (x2, y2) =>
    let p := p384P
    if x1 = x2 ∧ (y1 + y2) % p = 0 then none
    else
      let l := if x1 = x2 then (3 * x1 * x1 + p - 3) * invMod p (2 * y1) % p
        else (y2 + p - y1) * invMod p (x2 + p - x1) % p
      let x3 := (l * l + 2 * p - x1 - x2) % p
      some (x3, (l * (x1 + p - x3) + p - y1) % p)

/-- A multiple of a point, from the factor's `n` low bits. -/
def ecMul : Nat → Nat → EcPoint → EcPoint
  | 0, _, _ => none
  | n + 1, k, q =>
    let r := ecMul n (k / 2) (ecAdd q q)
    if k % 2 = 1 then ecAdd q r else r

/-- ECDSA verification over P-384: the digest of a message, the public key and the signature. -/
def ecdsaVerify (digest : List Nat) (x y r s : Nat) : Bool :=
  let onCurve := x < p384P && y < p384P && (y * y % p384P == (x * x * x + (p384P - 3) * x + p384B) % p384P)
  if 1 ≤ r ∧ r < p384N ∧ 1 ≤ s ∧ s < p384N ∧ onCurve = true then
    let z := ofBe digest
    let w := invMod p384N s
    match ecAdd (ecMul 384 (z * w % p384N) (some (p384Gx, p384Gy))) (ecMul 384 (r * w % p384N) (some (x, y))) with
    | none => false
    | some (x1, _) => x1 % p384N == r
  else false

end Sys2Proof.Machine
end

