-- ==== Sys2Proof/Machine/StrImage.lean ====
section
/-! DEFINITION. Reading a structure image (R65 to R87): its header, section table, sections and signature block, and
the rules its records satisfy. -/
namespace Sys2Proof.Machine
open Sys2Proof

/-- A reader of little-endian fields of an image: offset, size. -/
abbrev Reader := Nat → Nat → Nat

/-- One entry of the section table (R68). -/
structure SectEntry where
  pos : Nat
  type : Nat
  index : Nat
  variant : Nat
  reserved : Nat
  offset : Nat
  length : Nat
  sectVer : Nat
  crc : Nat
  deriving DecidableEq, Repr

/-- The section table of an image. -/
def sectTable (rd : Reader) : List SectEntry :=
  (List.range (rd 0x0C 2)).map (fun p =>
    let o := 0x80 + 32 * p
    { pos := p, type := rd o 1, index := rd (o + 1) 1, variant := rd (o + 2) 1,
      reserved := rd (o + 3) 1 + rd (o + 0x10) 12, offset := rd (o + 4) 4, length := rd (o + 8) 4,
      sectVer := rd (o + 0xC) 4, crc := rd (o + 0x1C) 4 })

/-- The seed of a section CRC (R70). -/
def sectSeed (e : SectEntry) : Nat :=
  0xFFFFFFFF ^^^ (e.type * 2 ^ 24 + e.index * 2 ^ 16 + e.variant * 2 ^ 8 + e.pos)

/-- An ENGINE section's header, kind entries and partition records (R73, R74, R77). -/
def parseEngine (rd : Reader) (e : SectEntry) : EngineSec :=
  let o := e.offset
  let nk := rd (o + 1) 1
  let np := rd (o + 2) 1
  { engine := rd o 1, variant := e.variant, sectVer := e.sectVer,
    kinds := (List.range nk).map (fun k =>
      let q := o + 32 + 8 * k
      { kind := rd q 1, order := rd (q + 1) 1, share := rd (q + 2) 2, instances := rd (q + 4) 2 }),
    parts := (List.range np).map (fun k =>
      let q := o + 32 + 8 * nk + 16 * k
      { use := rd q 1, owner := rd (q + 1) 1, inst := rd (q + 2) 2, start := rd (q + 4) 2,
        length := rd (q + 6) 2, tableSrc := rd (q + 8) 4 }),
    tables := (List.range (rd (o + 0x10) 4)).map (fun k => rd (o + rd (o + 0xC) 4 + k) 1), tableLen := rd (o + 0x10) 4,
    code := (List.range (rd (o + 8) 4)).map (fun k => rd (o + rd (o + 4) 4 + k) 1) }

/-- Reserved bytes of an ENGINE section, and its areas in the order of R73: the records, then the code area, then the
table area, none reaching into the next (R73, R74, R77). An area of length 0 lies anywhere. -/
def engineRawOk (rd : Reader) (e : SectEntry) : Bool :=
  let o := e.offset
  let nk := rd (o + 1) 1
  let np := rd (o + 2) 1
  let records := 32 + 8 * nk + 16 * np
  let codeOff := rd (o + 4) 4
  let codeLen := rd (o + 8) 4
  let tableOff := rd (o + 0xC) 4
  let tableLen := rd (o + 0x10) 4
  rd (o + 3) 1 == 0 && rd (o + 0x14) 12 == 0 && decide (codeLen ≤ 65536) && decide (records ≤ e.length) &&
  (codeLen == 0 || (decide (records ≤ codeOff) && decide (codeOff + codeLen ≤ e.length))) &&
  (tableLen == 0 || (decide ((if codeLen = 0 then records else codeOff + codeLen) ≤ tableOff) &&
    decide (tableOff + tableLen ≤ e.length))) &&
  (List.range nk).all (fun k => rd (o + 32 + 8 * k + 6) 2 == 0) &&
  (List.range np).all (fun k => rd (o + 32 + 8 * nk + 16 * k + 0xC) 4 == 0)

/-- The route records of a ROUTES section (R79). -/
def parseRoutes (rd : Reader) (e : SectEntry) : List RouteRec :=
  (List.range (rd e.offset 4)).map (fun k =>
    let q := e.offset + 4 + 8 * k
    { srcNode := rd q 1, srcPort := rd (q + 1) 1, dstNode := rd (q + 2) 1, dstPort := rd (q + 3) 1,
      claim := rd (q + 4) 2, flags := rd (q + 6) 1 + 256 * rd (q + 7) 1 })

/-- The records of a PARLOUR section (R82). -/
def parsePails (rd : Reader) (e : SectEntry) : List PailBind :=
  (List.range (rd e.offset 4)).map (fun k =>
    let q := e.offset + 4 + 16 * k
    { pail := rd q 1, role := rd (q + 1) 1, prio := rd (q + 2) 1, flags := rd (q + 3) 1, engines := rd (q + 4) 2,
      itemBytes := rd (q + 6) 2, depth := rd (q + 8) 4, flowBase := rd (q + 0xC) 2, flowCount := rd (q + 0xE) 2 })

/-- The records of a PORTS section (R84). -/
def parsePorts (rd : Reader) (e : SectEntry) : List PortRec :=
  (List.range 19).map (fun k =>
    let q := e.offset + 4 * k
    { port := rd q 1, speed := rd (q + 1) 1, roles := rd (q + 2) 2 })

/-- The records of a CAPACITY section (R86). -/
def parseCaps (rd : Reader) (e : SectEntry) : List CapRec :=
  (List.range (rd e.offset 4)).map (fun k =>
    let q := e.offset + 4 + 8 * k
    { variant := e.variant, item := rd q 2 + 65536 * rd (q + 2) 2, max := rd (q + 4) 4 })

/-- The whole image as the device holds it; `imageId` is the identity of R92. The header's own IMAGE_ID field is neither
compared with the digest nor used (DESIGN CHOICE: R92 defines the identity by the digest and R89 names no check of the
field). -/
def parseImage (rd : Reader) (imageId : Nat) : Structure :=
  let t := sectTable rd
  { partialImage := rd 6 1 == 1, target := rd 7 1, imageId := imageId, baseId := rd 0x18 8, imageVer := rd 0x20 4,
    secVer := rd 0x24 2, combos := rd 0x2E 1, minFw := rd 0x30 4, maxFw := rd 0x34 4,
    engines := (t.filter (fun e => e.type == 1)).map (parseEngine rd),
    routes := (t.find? (fun e => e.type == 2)).map (parseRoutes rd),
    pails := (t.filter (fun e => e.type == 3)).flatMap (parsePails rd),
    ports := (t.filter (fun e => e.type == 4)).flatMap (parsePorts rd),
    caps := (t.filter (fun e => e.type == 5)).flatMap (parseCaps rd),
    capVariants := (t.filter (fun e => e.type == 5)).map SectEntry.variant }

/-! ## What a structure holds for a precision -/

/-- A section of a variant serves a precision (R68). -/
def serves (variant : Nat) (skim : Bool) : Bool := variant == 0 || (variant == 1 && !skim) || (variant == 2 && skim)

/-- The ENGINE section of an engine for a precision. -/
def Structure.engineSec (st : Structure) (skim : Bool) (e : Nat) : Option EngineSec :=
  st.engines.find? (fun x => x.engine == e && serves x.variant skim)

/-- The engine that carries SPARE (R76). -/
def Structure.spare (st : Structure) : Option Nat :=
  (st.engines.find? (fun x => x.kinds.any (fun k => k.kind == 0xA))).map EngineSec.engine

/-- The combination 2 × RATE + PREC is admitted (R67). -/
def Structure.admits (st : Structure) (rate : Nat) (skim : Bool) : Bool :=
  bitAt st.combos (2 * rate + (if skim then 1 else 0))

/-- The precisions that some admitted combination uses. -/
def Structure.admittedPrecisions (st : Structure) : List Bool :=
  [false, true].filter (fun p => (List.range 3).any (fun r => st.admits r p))

/-- The number of rings that the PORTS section sets up (R85). -/
def Structure.ringCount (st : Structure) : Nat :=
  (st.ports.filter (fun p => p.port < 16 && p.port % 2 == 0 && bitAt p.roles 1)).length

/-- Ring r is set up by the PORTS section. -/
def Structure.hasRing (st : Structure) (r : Nat) : Bool :=
  st.ports.any (fun p => p.port == 2 * r && bitAt p.roles 1)

/-- A port carries a role (bit numbers of R84). -/
def Structure.portRole (st : Structure) (port bit : Nat) : Bool :=
  st.ports.any (fun p => p.port == port && bitAt p.roles bit)

/-- SPEED of a port (R84). -/
def Structure.portSpeed (st : Structure) (port : Nat) : Nat :=
  ((st.ports.find? (fun p => p.port == port)).map PortRec.speed).getD 0

/-- The sum of INSTANCES of a kind over the engines, for a precision. -/
def Structure.instances (st : Structure) (skim : Bool) (kind : Nat) : Nat :=
  ((List.range 12).map (fun e => match st.engineSec skim e with
    | some x => ((x.kinds.filter (fun k => k.kind == kind)).map KindEntry.instances).sum
    | none => 0)).sum

/-- The sum of SHARE of a kind over the engines, for a precision. -/
def Structure.shareOf (st : Structure) (skim : Bool) (kind : Nat) : Nat :=
  ((List.range 12).map (fun e => match st.engineSec skim e with
    | some x => ((x.kinds.filter (fun k => k.kind == kind)).map KindEntry.share).sum
    | none => 0)).sum

/-- The hardware ceilings of R86, the higher one for LAYER. -/
def capCeiling : Nat → Nat
  | 0x01 => 128 | 0x02 => 32 | 0x03 => 16 | 0x04 => 8 | 0x05 => 4096 | 0x06 => 256 | 0x07 => 256
  | 0x08 => 131072 | 0x09 => 8192 | 0x0A => 2048 | 0x0B => 256 | 0x0C => 4096 | 0x0D => 4096
  | 0x40 => 64 | 0x41 => 16 | 0x42 => 16 | _ => 0

/-- The items of R86. -/
def capItems : List Nat := [1, 2, 3, 4, 5, 6, 7, 8, 9, 10, 11, 12, 13, 0x40, 0x41, 0x42]

/-- The layer limit of R46. -/
def layerLimit (rate : Nat) (skim : Bool) : Nat := if skim then (if rate = 2 then 96 else 128) else 64

/-- The effective capacity of an item (R87) under capacity records, for a Rate mode and a precision. -/
def effectiveCap (caps : List CapRec) (rate : Nat) (skim : Bool) (item : Nat) : Nat :=
  let r := ((caps.find? (fun c => c.item == item && serves c.variant skim)).map CapRec.max).getD 0
  let m := min r (capCeiling item)
  if item = 1 then min m (layerLimit rate skim) else m

/-! ## The rules of check 10 of R89 -/

/-- No two spans [start, start + length) of a list overlap. -/
def disjointSpans (l : List (Nat × Nat)) : Bool :=
  (List.range l.length).all (fun i => (List.range l.length).all (fun j =>
    let a := l.getD i (0, 0)
    let b := l.getD j (0, 0)
    decide (i ≥ j) || a.2 == 0 || b.2 == 0 || decide (a.1 + a.2 ≤ b.1) || decide (b.1 + b.2 ≤ a.1)))

/-- The section table rules: alignment, span, reserved values, overlap, known types, VARIANT and INDEX (R65, R68). -/
def sectTableOk (rd : Reader) (len : Nat) : Bool :=
  let t := sectTable rd
  let n := rd 0x0C 2
  1 ≤ n && n ≤ 64 && rd 0x0E 2 == 0x80 && rd 0x2F 1 == 0 && rd 0x40 60 == 0 && bits (rd 0x2E 1) 7 6 == 0 &&
  t.all (fun e => e.offset % 64 == 0 && decide (0x80 + 32 * n ≤ e.offset) && decide (e.offset + e.length ≤ len - 256)
    && e.reserved == 0 && decide (e.variant ≤ 2) && decide (1 ≤ e.type) && decide (e.type ≤ 5)
    && (if e.type == 1 then decide (e.index < 12) else e.index == 0xFF)) &&
  disjointSpans (t.map (fun e => (e.offset, e.length)))

/-- Bytes between sections are 0 (R65). -/
def gapsZero (rd : Reader) (len : Nat) : Bool :=
  let t := sectTable rd
  (List.range (len - 256 - (0x80 + 32 * t.length))).all (fun k =>
    let a := 0x80 + 32 * t.length + k
    t.any (fun e => decide (e.offset ≤ a) && decide (a < e.offset + e.length)) || rd a 1 == 0)

/-- Counts of the sections of each type (R69). -/
def sectCountsOk (rd : Reader) (st : Structure) : Bool :=
  let t := sectTable rd
  let count (ty : Nat) := (t.filter (fun e => e.type == ty)).length
  let perVariant (ty : Nat) := [0, 1, 2].all (fun v => decide ((t.filter (fun e => e.type == ty && e.variant == v)).length ≤ 1))
  if st.partialImage then
    count 3 == 0 && count 4 == 0 && decide (count 2 ≤ 1) && perVariant 5 &&
    (if st.target == 0xFF then count 1 == 0 && count 2 == 0 else perVariant 1)
  else
    count 2 == 1 && count 3 == 1 && count 4 == 1 && st.target == 0xFF && st.baseId == 0 &&
    st.admittedPrecisions.all (fun p =>
      (t.filter (fun e => e.type == 5 && serves e.variant p)).length == 1 &&
      (List.range 12).all (fun e =>
        (t.filter (fun x => x.type == 1 && x.index == e && serves x.variant p)).length == 1))

/-- The length that a section's own counts ask for (R73, R79, R82, R84, R86): a ROUTES section holds 1 to 256 records, a
PARLOUR section 1 to 256, a PORTS section 19. A section may be longer. -/
def sectLengthOk (rd : Reader) (e : SectEntry) : Bool :=
  let n := rd e.offset 4
  match e.type with
  | 1 => decide (32 ≤ e.length)
  | 2 => decide (1 ≤ n) && decide (n ≤ 256) && decide (4 + 8 * n ≤ e.length)
  | 3 => decide (1 ≤ n) && decide (n ≤ 256) && decide (4 + 16 * n ≤ e.length)
  | 4 => decide (76 ≤ e.length)
  | _ => decide (4 + 8 * n ≤ e.length)

/-- The reserved bytes of the signature block of an image of a length are 0 (R71). -/
def blockReservedOk (rd : Reader) (len : Nat) : Bool := rd (len - 256 + 5) 3 == 0 && rd (len - 256 + 0xC8) 56 == 0

/-- The rules of one ENGINE section (R73 to R75, R77, R78). -/
def engineSecOk (e : EngineSec) : Bool :=
  let nk := e.kinds.length
  decide (1 ≤ nk) && decide (nk ≤ 4) && decide (1 ≤ e.parts.length) && decide (e.parts.length ≤ 32) &&
  (List.range nk).all (fun o => (e.kinds.filter (fun k => k.order == o)).length == 1) &&
  e.kinds.all (fun k => decide (1 ≤ k.kind) && decide (k.kind ≤ 0xA) &&
    (k.kind == 2 || k.kind == 3 || k.instances == 1)) &&
  e.parts.all (fun p => decide (1 ≤ p.use) && decide (p.use ≤ 6) && decide (p.owner < nk) && decide (1 ≤ p.length) &&
    decide (p.start + p.length ≤ 384) &&
    (p.tableSrc == 0xFFFFFFFF || decide (p.tableSrc + p.length * 4096 ≤ e.tableLen))) &&
  disjointSpans (e.parts.map (fun p => (p.start, p.length)))

/-- The engines with a section, of any variant, that carries a kind. -/
def Structure.carriers (st : Structure) (kind : Nat) : List Nat :=
  ((st.engines.filter (fun x => x.kinds.any (fun k => k.kind == kind))).map EngineSec.engine).eraseDups

/-- An engine carries a kind in a precision. -/
def Structure.carries (st : Structure) (skim : Bool) (e kind : Nat) : Bool :=
  (st.engineSec skim e).any (fun x => x.kinds.any (fun k => k.kind == kind))

/-- The kinds a full image carries (R76, first three rules): one engine at most carries SPARE, in any variant, and it
carries nothing else in any; each admitted precision has every kind it needs; an item whose kind no engine carries has
no capacity. -/
def kindRulesOk (st : Structure) : Bool :=
  let spares := st.carriers 0xA
  let noCap (items : List Nat) := st.caps.all (fun c => !items.contains c.item || c.max == 0)
  decide (spares.length ≤ 1) &&
  st.engines.all (fun e => !spares.contains e.engine ||
    (e.kinds.length == 1 && e.kinds.all (fun k => k.kind == 0xA && k.share == 0))) &&
  st.admittedPrecisions.all (fun p =>
    [1, 3, 4, 5, 6].all (fun k => (List.range 12).any (fun e => st.carries p e k))) &&
  (!(st.carriers 2).isEmpty || noCap [0x40]) && (!(st.carriers 7).isEmpty || noCap [8, 9]) &&
  (!(st.carriers 8).isEmpty || noCap [0xA]) && (!(st.carriers 9).isEmpty || noCap [0x41])

/-- Direction and port range of a switch node (R80): as a source, as a destination. -/
def nodePorts (node : Nat) (source : Bool) : Nat :=
  if node < 12 then 4
  else match node, source with
    | 0x20, true => 8 | 0x21, false => 8 | 0x22, true => 3 | 0x23, false => 8
    | 0x24, false => 1 | 0x25, false => 4 | 0x26, true => 8 | _, _ => 0

/-- A route is in use in a precision (R79). -/
def routeIn (r : RouteRec) (skim : Bool) : Bool := if skim then !bitAt r.flags 2 else !bitAt r.flags 1

/-- Engines reachable from an engine by routes among engines, cut at `n` hops, leaving out the routes between GOVERN
and SEPARATE engines. -/
def reaches (edges : List (Nat × Nat)) : Nat → List Nat → List Nat
  | 0, l => l
  | n + 1, l => reaches edges n
      ((l ++ (edges.filter (fun e => l.contains e.1)).map Prod.snd).eraseDups)

/-- Every node that the ENGINE and PORTS sections need is reached (R81). What a section needs is read from R80 and R104
(DEDUCED): a route ends at every engine that carries a kind; pictures are read from memory; UNPACK and WRITEBACK write to
it, FIXTURE sends sACN and DIRECT drives lamps; an ingest port is received from, a ring is sent to and listened to, and an
sACN port is sent to. -/
def Structure.nodesReached (st : Structure) (live : List RouteRec) (skim : Bool) : Bool :=
  let into (n : Nat) := live.any (fun r => r.dstNode == n)
  let outof (n p : Nat) := live.any (fun r => r.srcNode == n && r.srcPort == p)
  let kind (k : Nat) := (List.range 12).any (fun e => st.carries skim e k)
  let ingest (l : List Nat) := l.any (fun p => st.portRole p 0)
  (List.range 12).all (fun e => into e || !((st.engineSec skim e).any (fun x => x.kinds.any (fun k => k.kind != 0xA)))) &&
  live.any (fun r => r.srcNode == 0x20) && (into 0x21 || !(kind 1 || kind 9)) && (into 0x25 || !kind 8) &&
  (into 0x24 || !(kind 7 || (List.range 19).any (fun p => st.portRole p 2))) &&
  (outof 0x22 0 || !ingest [16]) && (outof 0x22 1 || !ingest [17]) && (outof 0x22 2 || !ingest (List.range 16)) &&
  (List.range 8).all (fun r => !st.hasRing r || (outof 0x26 r && live.any (fun q => q.dstNode == 0x23 && q.dstPort == r)))

/-- The route table rules of R81 but the claim sum. -/
def routesOk (st : Structure) : Bool :=
  match st.routes with
  | none => true
  | some rs =>
    decide (1 ≤ rs.length) && decide (rs.length ≤ 256) &&
    rs.all (fun r => decide (r.srcPort < nodePorts r.srcNode true) && decide (r.dstPort < nodePorts r.dstNode false)
      && decide (r.flags < 8) && decide ((rs.filter (fun q => q.srcNode == r.srcNode && q.srcPort == r.srcPort)).length ≤ 4)
      && (match st.spare with | some e => r.srcNode != e && r.dstNode != e | none => true)
      && (r.dstNode != 0x23 || st.hasRing r.dstPort)) &&
    st.admittedPrecisions.all (fun p =>
      let live := rs.filter (fun r => routeIn r p)
      live.all (fun r => (live.filter (fun q => q.dstNode == r.dstNode && q.dstPort == r.dstPort)).length == 1) &&
      (let edges := (live.filter (fun r => decide (r.srcNode < 12) && decide (r.dstNode < 12) &&
          !((st.carries p r.srcNode 5 && st.carries p r.dstNode 4) ||
            (st.carries p r.srcNode 4 && st.carries p r.dstNode 5)))).map (fun r => (r.srcNode, r.dstNode))
       (List.range 12).all (fun e =>
         !(reaches edges 12 ((edges.filter (fun x => x.1 == e)).map Prod.snd)).contains e)) &&
      st.nodesReached live p)

/-- The Parlour binding rules of R82, R83 and R391. -/
def pailsOk (st : Structure) : Bool :=
  let l := st.pails
  l.all (fun b => (l.filter (fun c => c.pail == b.pail)).length == 1 && decide (b.role ≤ 4) && decide (b.prio ≤ 15) &&
    decide (b.flags < 4) && ((decide (b.pail < 16)) == (b.role == 4)) && b.itemBytes % 16 == 0 &&
    decide (16 ≤ b.itemBytes) && decide (b.itemBytes ≤ 4096) && decide (2 ≤ b.depth) && decide (b.depth ≤ 16777216) &&
    (2 ^ Nat.log2 b.depth == b.depth) && (b.role != 0 || b.itemBytes == 64) && (b.role != 1 || b.itemBytes == 48) &&
    (b.role != 2 || decide (32 ≤ b.itemBytes)) && (decide (16 ≤ b.pail) || !bitAt b.flags 0) &&
    (b.role == 2 || !bitAt b.flags 1) && (bitAt b.flags 1 || b.flowCount == 0) &&
    decide (b.flowBase + b.flowCount ≤ 4096) && decide (b.engines < 4096) &&
    (match st.spare with | some e => !bitAt b.engines e | none => true)) &&
  decide (((l.filter (fun b => !bitAt b.flags 0)).map (fun b => ceilDiv (b.depth * b.itemBytes) 64 * 64)).sum ≤ 2097152) &&
  decide (((l.filter (fun b => b.role == 2)).map PailBind.depth).sum ≤ 65536) &&
  disjointSpans (l.map (fun b => (b.flowBase, b.flowCount)))

/-- The port role rules of R84 and R85. -/
def portsOk (st : Structure) : Bool :=
  let l := st.ports
  (List.range 19).all (fun k => match l[k]? with
    | some p => p.port == k && decide (p.roles < 64) &&
      (if k < 16 then decide (p.speed ≤ 2) else if k < 18 then [0, 3, 4].contains p.speed else [0, 5, 6].contains p.speed) &&
      (!bitAt p.roles 1 || (decide (k < 16) && (p.roles == 2 || p.roles == 18))) &&
      (k != 18 || !bitAt p.roles 0) && (k == 18 || !bitAt p.roles 5)
    | none => false) &&
  (List.range 8).all (fun r => st.portRole (2 * r) 1 == st.portRole (2 * r + 1) 1) &&
  decide ((l.filter (fun p => bitAt p.roles 3)).length ≤ 1)

/-- The capacity record rules of R86 and R87. -/
def capsOk (st : Structure) : Bool :=
  st.caps.all (fun c => capItems.contains c.item &&
    decide (c.max ≤ (if c.item == 1 && c.variant == 1 then 64 else capCeiling c.item)) &&
    (st.partialImage || st.admittedPrecisions.all (fun p => !serves c.variant p ||
      ((c.item != 1 || decide (c.max ≤ st.instances p 3)) && (c.item != 0x40 || decide (c.max ≤ st.instances p 2)) &&
       (c.item != 4 || decide (c.max ≤ st.ringCount))))))

/-- The reserved background share of an engine that carries GOVERN (R38, R76). -/
def reservedShare (e : EngineSec) : Nat := if e.kinds.any (fun k => k.kind == 5) then 31 else 0

/-- The SHARE sums of R76 hold. -/
def sharesOk (st : Structure) : Bool :=
  st.engines.all (fun e => decide ((e.kinds.map KindEntry.share).sum + reservedShare e ≤ 1024))

/-- The CLAIM sums of R81 hold, in each precision. -/
def claimsOk (st : Structure) : Bool :=
  match st.routes with
  | none => true
  | some rs => [false, true].all (fun p =>
      let live := rs.filter (fun r => routeIn r p && decide (r.dstNode < 12))
      live.all (fun r => decide (((live.filter (fun q => q.dstNode == r.dstNode && q.dstPort == r.dstPort)).map
        RouteRec.claim).sum ≤ 240)))

/-- What a section of a variant still serves once sections of other variants are in place before it (R88): its
variant, narrowed to one precision where they serve the other, or nothing. -/
def leftVariant (v : Nat) (new : List Nat) : Option Nat :=
  match serves v false && !new.any (fun w => serves w false), serves v true && !new.any (fun w => serves w true) with
  | true, true => some 0
  | true, false => some 1
  | false, true => some 2
  | false, false => none

/-- The structure in force with a partial image's sections in place (R88): each replaces what served its precisions
before, and a section of the structure in force goes on serving a precision that the image has none for. ADMIT and
IMAGE_VER are the partial image's (DESIGN CHOICE: R88 names the sections only, R98 shows both of "the image in force"). -/
def mergePartial (base part : Structure) : Structure :=
  let secs := part.engines.map EngineSec.variant
  { base with
    partialImage := true, imageId := part.imageId, imageVer := part.imageVer, combos := part.combos,
    engines := (base.engines.filterMap (fun e => if e.engine = part.target
      then (leftVariant e.variant secs).map (fun v => { e with variant := v }) else some e)) ++ part.engines,
    routes := match part.routes with | some r => some r | none => base.routes,
    caps := (base.caps.filterMap (fun c => (leftVariant c.variant part.capVariants).map (fun v => { c with variant := v })))
      ++ part.caps,
    capVariants := (base.capVariants.filterMap (fun v => leftVariant v part.capVariants)) ++ part.capVariants }

end Sys2Proof.Machine
end

