-- ==== Sys2Proof/Machine/EngineOps.lean ====
section
/-! DEFINITION. The churn engines (R100 to R121) as shared operations: the sections in force, service slots, faults,
stand-ins and hand-backs, and the withdrawal of a structure replacement (R96). -/
namespace Sys2Proof.Machine
open Sys2Proof

/-- What one engine holds beside its registers. -/
def State.engAt (s : State) (e : Nat) : Eng := s.eng.getD e Eng.reset

/-- Change what one engine holds beside its registers. -/
def State.modEng (s : State) (e : Nat) (f : Eng → Eng) : State := { s with eng := s.eng.modify e f }

/-- The SPARE engine of the structure in force. -/
def State.spare (s : State) : Option Nat := (s.str.inForce.bind Structure.spare)

/-- The ENGINE section in force of an engine, for the precision in force. -/
def State.section (s : State) (e : Nat) : Option EngineSec :=
  s.str.inForce.bind (fun st => st.engineSec s.skim e)

/-- The engine whose role an engine plays: its own, the replaced engine's for a SPARE that stands in, none for an
engine that is stood down, faulty, off, loading or testing. -/
def State.roleOf (s : State) (e : Nat) : Option Nat :=
  if s.get F.CE_STAT_STATE e ≠ 2 ∧ s.get F.CE_STAT_STATE e ≠ 6 then none
  else if s.spare = some e then
    (match s.str.standin with
     | some d => if d.active then some d.engine else none
     | none => none)
  else some e

/-- The section an engine runs: while a replacement's SPARE stands in it runs the partial image's section (R94). -/
def State.runSection (s : State) (e : Nat) : Option EngineSec :=
  match s.roleOf e with
  | none => none
  | some r =>
    match s.str.load with
    | some l =>
      if s.spare = some e ∧ l.image.any (fun i => i.target == r) then
        (l.image.bind (fun i => i.engineSec s.skim r)).orElse (fun _ => s.section r)
      else s.section r
    | none => s.section r

/-- The kinds that an engine goes on with in Hold: UNPACK, GOVERN and FIXTURE (R54, R111). -/
def holdKind (k : Nat) : Bool := k == 1 || k == 5 || k == 7

/-- The engine that load jobs run on in Warm: the lowest engine in service that carries UNPACK (DESIGN CHOICE: R170 names
none). -/
def State.unpackEngine (s : State) : Option Nat :=
  (List.range 12).find? (fun e => (s.runSection e).any (fun x => x.kinds.any (fun k => k.kind == 1)))

/-- An engine in service runs: STATE 2, or 6 where it is clock-gated: in Hold where it carries no kind that goes on (R54,
R111), and in Warm unless a load job runs on it (R170, R492; that STATE reads 6 there too is DEDUCED from the field). -/
def State.runEngine (s : State) (e : Nat) : State :=
  let t := s.put F.CE_STAT_STATE 2 e
  let works := (t.runSection e).any (fun x => x.kinds.any (fun k => holdKind k.kind))
  let gated := (s.power == 2 && !works) || (s.power == 1 && (s.ing.jobs.isEmpty || t.unpackEngine != some e))
  if gated then t.put F.CE_STAT_STATE 6 e else t

/-- Every engine in service is gated or runs as the power mode and the load jobs have it (R54, R111, R170). -/
def State.gateEngines (s : State) : State :=
  s.each (List.range 12) (fun e t => if [2, 6].contains (t.get F.CE_STAT_STATE e) then t.runEngine e else t)

/-- A kind is carried by some engine that runs: where none carries it, the kind produces nothing (R118). -/
def State.kindServed (s : State) (kind : Nat) : Bool :=
  (List.range 12).any (fun e => (s.runSection e).any (fun x => x.kinds.any (fun k => k.kind == kind)))

/-- The engine that plays the role of engine r: r itself, or the SPARE that stands in for it. -/
def State.playerOf (s : State) (r : Nat) : Option Nat := (List.range 12).find? (fun e => s.roleOf e == some r)

/-! ## The stores of an engine (R73, R78, R100) -/

/-- The local store that a section gives: each partition with its initial contents. -/
def storeSpans (x : EngineSec) : List StoreSpan :=
  x.parts.map (fun p =>
    let from_ := if p.tableSrc = 0xFFFFFFFF then [] else (x.tables.drop p.tableSrc).take (p.length * 4096)
    { start := p.start, length := p.length, bytes := from_ })

/-- Load an engine's instruction store and local store with a section. -/
def State.loadStores (s : State) (e : Nat) (x : Option EngineSec) : State :=
  match x with
  | some y => s.modEng e (fun g => { g with code := y.code, store := storeSpans y })
  | none => s

/-- A reset engine: its stores are empty, its ports have all their credits and none of its output waits. -/
def Eng.wiped (g : Eng) : Eng := { g with code := [], store := [], credits := [512, 512, 512, 512], waiting := [], serves := none }

/-- A byte of an engine's local store: 0 past the contents of a partition, and in granules of no partition (R78). -/
def Eng.byteAt (g : Eng) (a : Nat) : Nat :=
  match g.store.find? (fun p => decide (p.start * 4096 ≤ a) && decide (a < (p.start + p.length) * 4096)) with
  | some p => p.bytes.getD (a - p.start * 4096) 0
  | none => 0

/-! ## Escalated background activities at band boundaries (R37) -/

/-- Change what a background activity holds. -/
def State.modBg (s : State) (a : Nat) (f : Bg → Bg) : State := s.modSys (fun y => { y with bg := y.bg.modify a f })

/-- What a background activity holds. -/
def State.bgAt (s : State) (a : Nat) : Bg := s.sys.bg.getD a { since := 0, from_ := 0, ahead := 0 }

/-- Slots of 512 Bulk Tank command slots that an activity reserves (R38): scrub 1/64, fitting 1/512, staging 1/256. -/
def reservedSlots : List (Nat × Nat) := [(0, 8), (1, 1), (9, 2)]

/-- A band boundary of frame n (R37): an activity at level 2 or above may take its reserved slots ahead of the next foreground
band, while that band can still meet E(n). The shares of engine and core time of other activities are not part of the
machine's state; their levels show in SYS_BG_STAT. -/
def State.serveAhead (s : State) (n : Nat) : State :=
  if s.eAt n < s.now then s
  else s.each reservedSlots (fun r t =>
    if 2 ≤ t.get F.SYS_BG_STAT_LEVEL r.1 then t.modBg r.1 (fun b => { b with ahead := r.2 }) else t)

/-! ## Clocks and service (R109) -/

/-- Charge clocks of an engine to the kind of an ORDER. -/
def State.useClocks (s : State) (e order clocks : Nat) : State :=
  s.modEng e (fun x => { x with used := x.used.modify order (fun c => c + clocks) })

/-- Clocks of a kind's window at the frame rate in force: 1,200 per µs of the window of R105. -/
def State.windowClocks (s : State) (kind : Nat) : Nat :=
  let t := periodUs s.rate
  let w : Rat := match kind with
    | 1 => t | 9 => t
    | 2 => t - 600 - t / 64 | 3 => t - 600 - t / 64
    | 4 => t - 600 - t / 16 - t / 128
    | 6 => t - 600 - t / 16
    | 7 => t - 600 | 8 => t - 600
    | 5 => t / 16
    | _ => 0
  (w * 1200).floor.toNat

/-- A kind of an engine has used its SHARE in the frame's window. -/
def State.shareUsed (s : State) (e : Nat) (k : KindEntry) : Bool :=
  decide (k.share * s.windowClocks k.kind ≤ 1024 * (s.engAt e).used.getD k.order 0)

/-- The service slots of each kind entry of a section, in the section's order (R110): one each, the others in
proportion to SHARE, what is left over going to the largest remainders and ties to the lower ORDER (DEDUCED). Where every
SHARE of several kinds is 0, each gets two slots and the others stay unused (DESIGN CHOICE: R110 gives no proportion). -/
def slotShare (kinds : List KindEntry) : List Nat :=
  let n := kinds.length
  let total := (kinds.map KindEntry.share).sum
  let rest := 8 - n
  if n ≤ 1 then kinds.map (fun _ => 8)
  else
    let base := kinds.map (fun k => if total = 0 then 1 else rest * k.share / total)
    let rem := kinds.map (fun k => if total = 0 then 0 else rest * k.share % total)
    let left := if total = 0 then 0 else rest - base.sum
    (List.range n).map (fun i =>
      let key (j : Nat) := rem.getD j 0 * 8 + (7 - (kinds.getD j ⟨0, 0, 0, 0⟩).order)
      let ahead := ((List.range n).filter (fun j => decide (key i < key j))).length
      1 + base.getD i 0 + (if ahead < left then 1 else 0))

/-- Items in service on an engine: the pail and the item. -/
def State.serving (s : State) (e : Nat) : List (Pail × Item) :=
  s.par.pails.flatMap (fun q =>
    (q.items.filter (fun i => decide (i.phase = .inService e))).map (fun i => (q, i)))

/-- Bring CE_STAT.IN_SERVICE of an engine up to date. -/
def State.syncEngine (s : State) (e : Nat) : State := s.put F.CE_STAT_IN_SERVICE (s.serving e).length e

/-- The engine turns to the item it serves now (R109): of the kinds with items in its slots one that has not used its SHARE
before one that has, then the lowest ORDER; of one kind the item placed first. -/
def State.serveNext (s : State) (e : Nat) : State :=
  let rank (p : Pail × Item) : Nat :=
    match (s.runSection e).bind (fun x => p.2.task.bind (fun d => x.kinds.find? (fun k => k.kind == d.kind))) with
    | some k => (if s.shareUsed e k then 4 else 0) + k.order
    | none => 8
  let best := (s.serving e).foldl (fun (b : Option (Pail × Item)) (p : Pail × Item) => match b with
    | none => some p
    | some q => if Nat.blt (rank p) (rank q) || (rank p == rank q && Nat.blt p.2.since q.2.since) then some p else b) none
  s.modEng e (fun x => { x with serves := best.map (fun p => (p.1.num, p.2.seq)) })

/-- Return an engine's items in service to their pails (R408): each keeps its slot, is marked REDISPATCH and goes
first; the count and the number of flows held are recorded. -/
def State.returnItems (s : State) (e : Nat) : State :=
  let held := s.serving e
  let n := held.length
  let flows := (held.filter (fun p => p.2.task.any TaskDesc.flowed)).length
  let pails := s.par.pails.map (fun q => { q with items := q.items.map (fun i =>
    if i.phase = .inService e then { i with phase := .ready, redispatch := true, stuck := false } else i) })
  let s1 := { s with par := { s.par with pails := pails } }
  let s2 := if n = 0 then s1
    else ((s1.add R.PAR_REDISPATCH_CNT n).raise F.PAR_EVT_REDISPATCH).tally 0x0E04 [e, n, flows]
  ((s2.syncEngine e).syncPar).serveNext e

/-- A kind of an engine's section that no other running engine carries (R118, detector 0x07). -/
def State.kindOrphaned (s : State) (e : Nat) : Bool :=
  match s.section e with
  | none => false
  | some x => x.kinds.any (fun k => k.kind != 0xA &&
      !(List.range 12).any (fun f => f != e && (s.roleOf f).isSome &&
        ((s.runSection f).any (fun y => y.kinds.any (fun z => z.kind == k.kind)))))

/-- PHASE of a load (R98). -/
def State.strPhase (s : State) : Nat := s.get F.STR_LOAD_STAT_PHASE

/-- Complete a load with a result: RESULT, CHECK, SEQ, PHASE and DONE (R90). -/
def State.strFinish (s : State) (result check phase : Nat) : State :=
  ((((s.put F.STR_LOAD_STAT_RESULT result).put F.STR_LOAD_STAT_CHECK check).put F.STR_LOAD_STAT_PHASE phase).advance
    F.STR_LOAD_STAT_SEQ).raise F.STR_EVT_DONE

/-- Withdraw a replacement that is armed or ready (R96): cause 0 ABORT, 1 mode request, 2 SPARE failure. -/
def State.strWithdraw (s : State) (cause : Nat) : State :=
  match s.str.load with
  | none => s
  | some l =>
    let result := if cause = 2 then stIntegrity else stTimeout
    let standin := match s.str.standin with
      | some d => if d.cause = .replacement ∧ d.active = false then none else some d
      | none => none
    let s1 := { s with str := { s.str with load := none, standin := standin, capNew := none } }
    (s1.strFinish result 0 0).tally 0x0105 [(l.image.map Structure.imageId).getD 0, cause]

/-- The SPARE is judged faulty (R116): the rotation stops. -/
def State.spareFaulty (s : State) (sp : Nat) : State :=
  let t := s.put F.CE_STAT_STATE 4 sp
  { t with sig := { t.sig with stopped := true, testing := none } }

/-- One hour, in ns of uptime. -/
def oneHour : Nat := 3600 * oneSecond

/-! ## Stand-ins (R94, R115, R118, R121) -/

/-- The SPARE is asked to stand in for an engine from the first S(k) at least `delay` ns ahead, and loads its section. -/
def State.askSpare (s : State) (e : Nat) (cause : StandinCause) (delay : Nat) : State :=
  let t := match s.spare with
    | some sp => s.loadStores sp (s.section e)
    | none => s
  { t with str := { t.str with standin := some ⟨e, cause, t.now + delay * 65536, false, none, false⟩ } }

/-- An engine that has a stand-in may take its role back at the first S(j) at least 200 µs ahead; `passed` says that it
passed its test. -/
def State.takeBack (s : State) (e : Nat) (passed : Bool) : State :=
  match s.str.standin with
  | some d =>
    if d.engine = e then
      { s with str := { s.str with standin := some { d with readyAt := some (s.now + 200000 * 65536), passed := passed } } }
    else s
  | none => s

/-- An engine in a signature test reads STATE 5 once it holds no item in service (R94, R115, step 4). -/
def State.showTesting (s : State) (e : Nat) : State :=
  if s.sig.testing = some e ∧ (s.serving e).isEmpty = true ∧ s.get F.CE_STAT_STATE e ≠ 4 then s.put F.CE_STAT_STATE 5 e else s

/-- The SPARE stands in for an engine from S(k) (R94, R115, R118). -/
def State.standinBegin (s : State) (k : Nat) : State :=
  match s.str.standin, s.spare with
  | some d, some sp =>
    let s1 := { s with str := { s.str with standin := some { d with active := true } } }
    let s2 := ((s1.put F.STR_STAT_STANDIN_FOR d.engine).raise F.STR_EVT_STANDIN).raise F.CE_EVT_STANDIN d.engine
    let s3 := (s2.put F.CE_STAT_STANDIN_BY sp d.engine).runEngine sp
    let s4 := if s3.get F.CE_STAT_STATE d.engine = 2 ∨ s3.get F.CE_STAT_STATE d.engine = 6
      then s3.put F.CE_STAT_STATE 3 d.engine else s3
    match d.cause with
    | .replacement =>
      let t := (s4.put F.STR_LOAD_STAT_PHASE 4).tally 0x0102 [d.engine, sp, k, 0]
      { t with str := { t.str with load := t.str.load.map (fun l => { l with standinAt := s.sAt k }) } }
    | .fault => s4.tally 0x0102 [d.engine, sp, k, 1]
    | _ => s4.showTesting d.engine
  | _, _ => s

/-- The engine is in service again from S(j); `passed` writes the frame of its passing test (R115, step 5). -/
def State.backInService (s : State) (e j : Nat) (passed : Bool) : State :=
  let t := (s.modEng e (fun x => { x with out := false, reloading := none, rejoinAt := none })).runEngine e
  if passed then t.put64 R.CE_SIG_FRAME_LO j e else t

/-- The engine takes back its role at S(j) (R94, R115, R118): the SPARE clears its local store; items in service on it
complete there. -/
def State.standinEnd (s : State) (j : Nat) : State :=
  match s.str.standin, s.spare with
  | some d, some sp =>
    let s1 := ({ s with str := { s.str with standin := none } } : State).modEng sp (fun x => { x with store := [] })
    let s2 := ((s1.put F.STR_STAT_STANDIN_FOR 15).raise F.STR_EVT_HANDBACK).raise F.CE_EVT_HANDBACK d.engine
    let s3 := ((s2.putFlag F.STR_STAT_STANDIN_FAIL false).put F.CE_STAT_STANDIN_BY 15 d.engine).backInService d.engine j d.passed
    match d.cause with
    | .replacement => (s3.put F.STR_LOAD_STAT_PHASE 5).tally 0x0103 [d.engine, j]
    | .fault => s3.tally 0x0103 [d.engine, j]
    | _ => s3
  | _, _ => s

/-- A signature test that runs on a stand-in ends, and its engine takes its role back: the SPARE leaves the test (R94,
R118). -/
def State.endTesting (s : State) : State :=
  match s.str.standin with
  | some d =>
    if d.cause = .signature then
      let t : State := { s with sig := { s.sig with testing := none } }
      (if d.active then t.standinEnd t.frameNum else { t with str := { t.str with standin := none } })
    else s
  | none => match s.sig.testing with
    | some e => ({ s with sig := { s.sig with testing := none } } : State).runEngine e
    | none => s

/-- The stand-in and rejoin part of S(k) (R94, R115, R118, R120). -/
def State.standinStep (s : State) (k : Nat) : State :=
  let t := s.sAt k
  let s1 := match s.str.standin with
    | none => s
    | some d =>
      if d.active then
        (match d.readyAt with
         | some r => if r ≤ t then s.standinEnd k else s
         | none => s)
      else
        let ready := match d.cause with
          | .replacement => (match s.str.load with | some l => l.spReady && decide (l.frame ≤ k) | none => false)
          | _ => decide (d.notBefore ≤ t)
        if ready then s.standinBegin k else s
  s1.each (List.range 12) (fun e u =>
    match (u.engAt e).rejoinAt with
    | some r => if r ≤ t then u.backInService e k true else u
    | none => u)

/-! ## Faults (R117 to R120) -/

/-- Every engine's partitions are reloaded from the section of the precision in force: the section it runs, or its own
(R111). -/
def State.reloadStores (s : State) : State :=
  s.each (List.range 12) (fun e t => t.loadStores e ((t.runSection e).orElse (fun _ => t.section e)))

/-- Ask for a reload in place (R120): cause 0 no SPARE, 1 SPARE busy, 2 SPARE faulty, 3 RETRY. -/
def State.reloadInPlace (s : State) (e cause : Nat) : State :=
  ((s.modEng e (fun x => { x with reloading := some cause, out := true })).put F.CE_STAT_STATE 1 e).tally 0x0204 [e, cause]

/-- What follows a fault of an engine (R118, R120, R96): the SPARE leaves a signature test and stands in, or the engine is
reloaded in place, or a replacement whose SPARE failed is withdrawn. While the SPARE is taken by another stand-in, or by a
replacement that is armed or ready, the engine is reloaded in place (R522). `again` is a second fault within 3,600 s:
the engine then stays faulty and nothing reloads it before RETRY (R119). -/
def State.coverFault (s : State) (e : Nat) (again : Bool) : State :=
  let inPlace (cause : Nat) (t : State) := if again then t.modEng e (fun x => { x with reloading := none }) else t.reloadInPlace e cause
  match s.spare with
  | none => inPlace 0 s
  | some sp =>
    if e = sp then
      let t := if s.strPhase = 2 ∨ s.strPhase = 3 then s.strWithdraw 2 else s
      inPlace 2 (match t.str.standin with
        | some d => if d.active then t else t.endTesting
        | none => t.endTesting)
    else if s.get F.CE_STAT_STATE sp = 4 then inPlace 2 s
    else
      match s.str.standin with
      | some d =>
        if d.engine = e ∧ d.active = true then
          { s with str := { s.str with standin := some { d with
              cause := (if d.cause = .replacement then .replacement else .fault), readyAt := none, passed := false } } }
        else if d.cause = .signature then s.endTesting.askSpare e .fault 4000000
        else if d.engine = e ∧ d.cause = .quarantine then s.askSpare e .fault 4000000
        else inPlace 1 s
      | none => s.endTesting.askSpare e .fault 4000000

/-- An engine that stops is no longer under test. -/
def State.stopTest (s : State) (e : Nat) : State :=
  if s.sig.testing == some e then { s with sig := { s.sig with testing := none } } else s

/-- Whether a fault now is an engine's second within 3,600 s (R119). -/
def State.faultAgain (s : State) (e : Nat) : Bool :=
  match (s.engAt e).lastFault with
  | some t => decide (s.uptime < t + oneHour)
  | none => false

/-- What follows the record of an engine's fault (R118, R119): its working state is lost, its kinds are counted as
orphaned where no engine is left for one, its role is covered, and after a second fault within 3,600 s (`again`) it
stays faulty. -/
def State.leaveRole (s : State) (e : Nat) (again : Bool) : State :=
  let s5 := (s.modEng e (fun x => ({ x with lastFault := some s.uptime, out := true, rejoinAt := none } : Eng).wiped)).stopTest e
  let s6 := if s5.kindOrphaned e then (s5.detect 7).pairFatal else s5
  let s7 := s6.coverFault e again
  if again then s7.put F.CE_STAT_STATE 4 e else s7

/-- An engine fault (R117, R118): the engine stops, its items return, its reservations are voided, it is reset, the
fault is recorded, and its role is covered. -/
def State.engineFault (s : State) (e code : Nat) : State :=
  let s1 := s.detect (code + 1)
  let n := (s1.serving e).length
  let s2 := (s1.returnItems e).voidReservations e
  let s3 := (((s2.bump F.CE_STAT_FAULTS e).put F.CE_STAT_STATE 1 e).raise F.CE_EVT_FAULT e).msi 2
  let s4 := s3.tally 0x0200 [e, code, s3.frameNum, n]
  s4.leaveRole e (s4.faultAgain e)

/-- Clear the accounts of clocks used as a frame's window ends: LAST takes the figure in 1/1,024 of the window's
clocks, and a kind above its SHARE counts the frame in OVER_CNT, once (R109, R122). -/
def State.closeAccounts (s : State) (windowClocks : Nat → Nat) : State :=
  s.each (List.range 12) (fun e u =>
    match u.runSection e with
    | none => u
    | some x =>
      let v := u.each x.kinds (fun k w =>
        let used := (w.engAt e).used.getD k.order 0
        let wc := windowClocks k.kind
        let last := min 2047 (if wc = 0 then 0 else used * 1024 / wc)
        let t := w.put F.CE_KIND_LOAD_LAST last (e * 0x400 + k.order)
        if k.share < last && !(w.engAt e).overDone.getD k.order false then t.bump F.CE_KIND_LOAD_OVER_CNT (e * 0x400 + k.order) else t)
      v.modEng e (fun x => { x with used := [0, 0, 0, 0], overDone := [false, false, false, false] }))

/-- The engine records OVER_SHARE once every kind on it has used its SHARE (R109). -/
def State.overShare (s : State) (e order : Nat) : State :=
  match s.runSection e with
  | none => s
  | some x =>
    if x.kinds.all (s.shareUsed e) && !(s.engAt e).overDone.getD order false then
      let last := match x.kinds.find? (fun k => k.order == order) with
        | some k => if s.windowClocks k.kind = 0 then 0
            else min 2047 ((s.engAt e).used.getD order 0 * 1024 / s.windowClocks k.kind)
        | none => 0
      ((((s.raise F.CE_EVT_OVER_SHARE e).bump F.CE_KIND_LOAD_OVER_CNT (e * 0x400 + order)).tally 0x0203
        [e, order, s.frameNum, last])).modEng e (fun x => { x with overDone := x.overDone.set order true })
    else s

end Sys2Proof.Machine
end

