-- ==== Sys2Proof/Machine/PairOps.lean ====
section
/-! DEFINITION. Mirroring (R472 to R475) as a shared operation: a change that the Active accepts is sent to its Standby and
acted on when it is acknowledged. -/
namespace Sys2Proof.Machine
open Sys2Proof

/-- An Active with a READY Standby that is not lagging waits for acknowledgements (R474). -/
def State.mirroring (s : State) : Bool := decide (s.role = 1) && s.red.follows

/-- An Active has a Standby to send its records to. -/
def State.hasStandby (s : State) : Bool :=
  decide (s.role = 1) && s.red.partner.any (fun h => h.role == 2) && !s.red.partnerDormant

/-- The Bulk Tank table that a load reads: its address and length (R202, R221, R241, R247). -/
def State.loadTable (s : State) (what : Mirrored) : Option (Nat × Nat) :=
  match what with
  | .coefLoad _ => some (s.get64 R.CMP_COEF_ADDR_LO, 2048)
  | .curveLoad _ => some (s.get64 R.SEP_CURVE_ADDR_LO, 6150)
  | .gainLoad _ => some (s.get64 R.CAL_LOAD_ADDR_LO, 12 * s.get F.CAL_LOAD_COUNT_COUNT)
  | .modelLoad v => some (s.get64 R.GOV_MODEL_ADDR_LO, 416 * bits v 8 2)
  | _ => none

/-- TCRC of a record: the CRC-32C of the table, 0 for none (R473). -/
def State.tableCrc (s : State) (what : Mirrored) : Nat :=
  match s.loadTable what with
  | some (a, n) => crc32c (s.bulkBytes a n)
  | none => 0

/-- FRAME and BAND of an L-class value (R475): two more than the highest band begun of the latest frame. -/
def State.lateFrom (s : State) : Nat × Nat :=
  match s.frames.head? with
  | some w => (w.frame, w.bandsDone + 1)
  | none => (0, 0)

/-- Give a record its MSEQ and send it (R473); detector 0x22 inverts TCRC. -/
def State.postMirror (s : State) (frame band : Nat) (what : Mirrored) : MirrorRec × State :=
  let m := s.red.mseq
  let crc := s.tableCrc what
  let q := if (s.loadTable what).isSome then s.opportunity 0x22 0 0 else (false, s)
  let r : MirrorRec := { mseq := m, frame := frame, band := band, tcrc := if q.1 then crc ^^^ 0xFFFFFFFF else crc,
                         sentAt := s.uptime, acts := false, what := what }
  let t := q.2.put R.RED_MSEQ m
  let red : Red := { t.red with mseq := (m + 1) % 2 ^ 32 }
  (r, ({ t with red := red } : State).emit (.mirror m frame band r.tcrc what))

/-- Send a mirror record. `acts` says that the Active acts on it when it is acknowledged; a record of what has
already taken place is only sent. -/
def State.sendMirrorAt (s : State) (frame band : Nat) (acts : Bool) (what : Mirrored) : State :=
  if s.mirroring then
    let q := s.postMirror frame band what
    { q.2 with red := { q.2.red with queue := q.2.red.queue ++ [{ q.1 with acts := acts }] } }
  else if s.hasStandby then (s.postMirror frame band what).2
  else s

/-- Send a mirror record that belongs to no band. -/
def State.sendMirror (s : State) (frame : Nat) (acts : Bool) (what : Mirrored) : State := s.sendMirrorAt frame 0xFFFF acts what

/-- Act on an accepted change whose record names a frame: at once, or on a mirroring Active when the Standby has acknowledged
it. -/
def State.mirroredFrom (s : State) (frame : Nat) (accepted : Bool) (what : Mirrored) (act : State → State) : State :=
  if accepted && s.mirroring then s.sendMirror frame true what
  else if accepted && s.hasStandby then act (s.sendMirror frame false what)
  else act s

/-- The same for a change that applies on receipt. -/
def State.mirrored (s : State) (accepted : Bool) (what : Mirrored) (act : State → State) : State :=
  s.mirroredFrom 0 accepted what act

/-! ## L-class values that apply from a band on (R475) -/

/-- Keep what an L-class value replaces until the bands before BAND of FRAME are made. -/
def State.keepLate (s : State) (frame band : Nat) (chan : Option Chan) (addr : Option Nat) : State :=
  let l : LateValue := { frame := frame, band := band, chan := chan, word := addr.map (fun a => (a, s.reg a)) }
  { s with red := { s.red with late := l :: s.red.late.take 255 } }

/-- Put back what one L-class value replaces. -/
def State.undoLate (s : State) (l : LateValue) : State :=
  let s1 := match l.chan with
    | some c => s.modChan c.kind c.index (fun d => if d.gen = c.gen then { d with params := c.params } else d)
    | none => s
  match l.word with
  | some q => s1.setReg q.1 q.2
  | none => s1

/-- The state as a band of a frame takes it: L-class values that apply from a later band are not yet in force. -/
def State.asOf (s : State) (n place : Nat) : State :=
  s.each (s.red.late.filter (fun l => decide (n < l.frame) || (n == l.frame && decide (place < l.band)))) (fun l t => t.undoLate l)

/-- Values in force in every band of every frame in work are kept no longer. -/
def State.dropLate (s : State) (n : Nat) : State :=
  if s.red.late.isEmpty then s
  else { s with red := { s.red with late := s.red.late.filter (fun l => decide (n < l.frame + 3)) } }

end Sys2Proof.Machine
end

