-- ==== Sys2Proof/Machine/Colour.lean ====
section
/-! DEFINITION. Canvas codes (R39 to R41), exact evaluation of the transfer functions (R165) and the decode of a pixel
to linear light (R164). -/
namespace Sys2Proof.Machine

/-- The white code of a precision (R39). -/
def whiteCode (skim : Bool) : Nat := if skim then 2048 else 32768
/-- The largest code of a precision (R39). -/
def maxCode (skim : Bool) : Nat := if skim then 4095 else 65535
/-- A Cream code as a Skim code (R41). -/
def toSkim (v : Nat) : Nat := min 4095 ((v + 8) / 16)
/-- A Cream code in the precision in force. -/
def codeIn (skim : Bool) (v : Nat) : Nat := if skim then toSkim v else v
/-- A code stored in one precision, as a code of another (R41). -/
def recode (fromSkim toSk : Bool) (v : Nat) : Nat :=
  if fromSkim == toSk then v else if toSk then toSkim v else 16 * v

/-- rnd(x / y) of R181. -/
def rnd (x y : Nat) : Nat := (x + y / 2) / y

/-- A pixel: R, G, B and A codes. -/
structure Px where
  r : Nat
  g : Nat
  b : Nat
  a : Nat
  deriving DecidableEq, Repr

/-- Transparent: all four components 0. -/
def Px.clear : Px := ⟨0, 0, 0, 0⟩

/-- A pixel with each component changed. -/
def Px.map (f : Nat → Nat) (p : Px) : Px := ⟨f p.r, f p.g, f p.b, f p.a⟩

/-- x^(p/q) for x ≥ 0, cut to 64 fractional bits. -/
def ratPow (x : Rat) (p q : Nat) : Rat :=
  if x ≤ 0 then 0
  else
    let n := x.num.natAbs ^ p * 2 ^ (64 * q) / x.den ^ p
    let hi := 2 ^ (Nat.log2 n / q + 1)
    mkRat (irootGo q n (Nat.log2 hi + 2) 0 hi) (2 ^ 64)

/-- The ST 2084 EOTF in cd/m² (the constants are those of SMPTE ST 2084, PRESUMED). -/
def pqEotf (e : Rat) : Rat :=
  let p := ratPow e 32 2523
  let c1 : Rat := 3424 / 4096
  let c2 : Rat := 2413 * 32 / 4096
  let c3 : Rat := 2392 * 32 / 4096
  let n := max (p - c1) 0
  10000 * ratPow (n / (c2 - c3 * p)) 8192 1305

/-- The BT.2100 HLG inverse OETF (the constants are those of BT.2100, PRESUMED). -/
def hlgInverse (e : Rat) : Rat :=
  if e ≤ 1 / 2 then e * e / 3
  else (expRat ((e - 55991073 / 100000000) / (17883277 / 100000000)) + 28466892 / 100000000) / 12

/-- F_D of HLG: the inverse OETF and the OOTF with a peak of 1,000 cd/m² (R165). `gamma` is HLG_GAMMA. -/
def hlgLight (gamma : Nat) (r g b : Rat) : Rat × Rat × Rat :=
  let er := hlgInverse r
  let eg := hlgInverse g
  let eb := hlgInverse b
  let y := (2627 * er + 6780 * eg + 593 * eb) / 10000
  let k := 1000 * ratPow y (gamma - 1000) 1000
  (k * er, k * eg, k * eb)

/-- L of R165 for R′, G′ and B′: `transfer` 0 SDR, 1 PQ, 2 HLG; `white` is the value of WHITE. -/
def lightOf (transfer white gamma : Nat) (r g b : Rat) : Rat × Rat × Rat :=
  let gain : Rat := mkRat (bits white 31 16) 16384
  let ref : Rat := (bits white 15 0 : Nat)
  match transfer with
  | 0 => (gain * ratPow r 12 5, gain * ratPow g 12 5, gain * ratPow b 12 5)
  | 1 => (gain * pqEotf r / ref, gain * pqEotf g / ref, gain * pqEotf b / ref)
  | _ => let l := hlgLight gamma r g b; (gain * l.1 / ref, gain * l.2.1 / ref, gain * l.2.2 / ref)

/-- Step 1 of R164: a luma or R′G′B′ sample of b bits. -/
def normLuma (b : Nat) (full : Bool) (d : Nat) : Rat :=
  if full then mkRat d (2 ^ b - 1) else mkRat ((d : Int) - 16 * 2 ^ (b - 8)) (219 * 2 ^ (b - 8))

/-- Step 1 of R164: a chroma sample of b bits. -/
def normChroma (b : Nat) (full : Bool) (d : Nat) : Rat :=
  if full then mkRat ((d : Int) - 2 ^ (b - 1)) (2 ^ b - 1) else mkRat ((d : Int) - 128 * 2 ^ (b - 8)) (224 * 2 ^ (b - 8))

/-- Clip to 0 to 1.125 (R164, step 3). -/
def clipPrime (x : Rat) : Rat := if x < 0 then 0 else if 9 / 8 < x then 9 / 8 else x

/-- Step 3 of R164: YCbCr to R′G′B′ for a colorimetry. -/
def toPrime (colorimetry : Nat) (y cb cr : Rat) : Rat × Rat × Rat :=
  let kr : Rat := if colorimetry = 0 then 2126 / 10000 else 2627 / 10000
  let kb : Rat := if colorimetry = 0 then 722 / 10000 else 593 / 10000
  let r := y + 2 * (1 - kr) * cr
  let b := y + 2 * (1 - kb) * cb
  let g := (y - kr * r - kb * b) / (1 - kr - kb)
  (r, g, b)

/-- Step 6 of R164: round L × 32,768 and saturate, off by what the tolerance of R164 leaves open. -/
def lightCode (l : Rat) (dev : Nat) : Nat :=
  let exact := roundHalfUp (l * 32768)
  let tol := max 2 (exact.natAbs * 5 / 10000)
  let off : Int := (dev % (2 * tol + 1) : Nat) - (tol : Int)
  (clampInt 0 65535 (exact + off)).toNat

/-- Steps 3 to 6 of R164 for R′, G′, B′ before clipping: the Cream codes of the pixel, opaque. -/
def decodePrime (fmt white gamma : Nat) (p : Rat × Rat × Rat) : Px :=
  let colorimetry := bits fmt 5 4
  let transfer := bits fmt 7 6
  let r := clipPrime p.1
  let g := clipPrime p.2.1
  let b := clipPrime p.2.2
  let l := lightOf transfer white gamma r g b
  let m : Rat × Rat × Rat :=
    if colorimetry = 0 then
      ((6274 * l.1 + 3293 * l.2.1 + 433 * l.2.2) / 10000, (691 * l.1 + 9195 * l.2.1 + 114 * l.2.2) / 10000,
       (164 * l.1 + 880 * l.2.1 + 8956 * l.2.2) / 10000)
    else l
  let key := fmt + 65536 * (white + 2 ^ 32 * gamma)
  { r := lightCode m.1 (Config.decodeDeviation key r g b 0),
    g := lightCode m.2.1 (Config.decodeDeviation key r g b 1),
    b := lightCode m.2.2 (Config.decodeDeviation key r g b 2), a := 32768 }

/-- A pixel of a raster of samples (R164). `sample x c` is component c (0 Y or R, 1 Cb or G, 2 Cr or B) of column x of
the pixel's row, `w` the width. -/
def decodePixel (fmt white gamma w : Nat) (sample : Nat → Nat → Nat) (x : Nat) : Px :=
  let b := 8 + 2 * bits fmt 3 2
  let full := bitAt fmt 8
  if bits fmt 1 0 = 2 then
    decodePrime fmt white gamma (normLuma b full (sample x 0), normLuma b full (sample x 1), normLuma b full (sample x 2))
  else
    let chroma (c : Nat) : Rat :=
      if bits fmt 1 0 = 1 ∨ x % 2 = 0 then normChroma b full (sample x c)
      else
        let last : Int := (w - 1) / 2 * 2
        let at_ (k : Int) : Rat := normChroma b full (sample (clampInt 0 last ((x : Int) + k)).toNat c)
        (9 * (at_ (-1) + at_ 1) - at_ (-3) - at_ 3) / 16
    decodePrime fmt white gamma (toPrime (bits fmt 5 4) (normLuma b full (sample x 0)) (chroma 1) (chroma 2))

/-- Bytes of a pixel group and the pixels it holds, for a FORMAT (R159). -/
def pixelGroup (fmt : Nat) : Nat × Nat :=
  match bits fmt 1 0, bits fmt 3 2 with
  | 0, 0 => (4, 2) | 0, 1 => (5, 2) | 0, _ => (6, 2)
  | _, 0 => (3, 1) | _, 1 => (15, 4) | _, _ => (9, 2)

/-- The samples of one pixel group by pixel and component, in the order of ST 2110-20: Cb Y Cr Y for 4:2:2, Cb Y Cr for
4:4:4, R G B (PRESUMED, the packing of ST 2110-20). -/
def groupSamples (fmt : Nat) (bs : List Nat) : List (Nat × Nat × Nat) :=
  let b := 8 + 2 * bits fmt 3 2
  let v := ofBe bs
  let total := 8 * bs.length
  let nth (k : Nat) : Nat := (v / 2 ^ (total - b * (k + 1))) % 2 ^ b
  if bits fmt 1 0 = 0 then [(0, 1, nth 0), (0, 0, nth 1), (0, 2, nth 2), (1, 0, nth 3)]
  else
    let order := if bits fmt 1 0 = 1 then [1, 0, 2] else [0, 1, 2]
    (List.range (pixelGroup fmt).2).flatMap (fun p =>
      (List.range 3).map (fun k => (p, order.getD k 0, nth (3 * p + k))))

end Sys2Proof.Machine
end

