-- ==== Sys2Proof/Machine/MemMap.lean ====
section
/-! DEFINITION. The map of the Bulk Tank (R443) and reads that meet an uncorrectable half (R451). -/
namespace Sys2Proof.Machine

/-- One past the highest usable address (R441). -/
def usableEnd : Nat := 0x3C0000000
def reserveA : Nat := 0x3AE000000
def reserveB : Nat := 0x3B2000000
def cuePool : Nat := 0x3B6000000
def pailArea : Nat := 0x3B7800000
def firmwareArea : Nat := 0x3BB800000
def ddBuffers : Nat := 0x3BD800000
def motionTable : Nat := 0x3BE400000
def driveRing : Nat := 0x3BE800000
def termRing : Nat := 0x3BE980000
def captureRing : Nat := 0x3BEA80000
def lampSums : Nat := 0x3BEB80000
def discoveryArea : Nat := 0x3BEC40000
def ddFaultMap : Nat := 0x3BEC80000
def reservedTop : Nat := 0x3BECA0000

/-- The span [a, a + n) lies in the usable Bulk Tank. -/
def inUsable (a n : Nat) : Bool := decide (a + n ≤ usableEnd)

/-- The span lies in the usable Bulk Tank, outside the structure reserve and the cue pool (R153, R199). -/
def inStoreArea (a n : Nat) : Bool :=
  inUsable a n && (decide (a + n ≤ reserveA) || decide (pailArea ≤ a))

/-- Two spans share a byte. -/
def spansMeet (a n b m : Nat) : Bool := decide (a < b + m) && decide (b < a + n) && n != 0 && m != 0

/-- The base of the active half of the structure reserve (R88). -/
def State.activeHalf (s : State) : Nat := if s.str.stagingHigh then reserveA else reserveB

/-- The address lies in the image in force (R451, R521). -/
def State.inImageInForce (s : State) (a : Nat) : Bool :=
  s.str.inForce.isSome && decide (s.activeHalf ≤ a) && decide (a < s.activeHalf + 0x4000000)

/-- The half of an address is uncorrectable. -/
def State.badAt (s : State) (a : Nat) : Bool := s.mem.bad.contains (a / 32)

/-- A little-endian number of `n` bytes of picture data: 0 where its half is uncorrectable (R451). -/
def State.pictureLe (s : State) (a n : Nat) : Nat :=
  if s.badAt a || s.badAt (a + n - 1) then 0 else s.bulkLe a n

end Sys2Proof.Machine
end

