-- ==== Sys2Proof/Machine/LayerStore.lean ====
section
/-! DEFINITION. The layer store (R166): the layout of a picture, writing one with its means, and reading its pixels and
means. -/
namespace Sys2Proof.Machine

/-- Bytes of a 32 × 32 block (R166). -/
def blockBytes (skim : Bool) : Nat := if skim then 6144 else 8192
/-- Blocks across. -/
def blocksOf (n : Nat) : Nat := ceilDiv n 32
/-- The footprint of a picture (R166). -/
def footprint (w h : Nat) (skim : Bool) : Nat :=
  ceilDiv (blocksOf w * blocksOf h * (blockBytes skim + 8)) 64 * 64

/-- The bytes of a pixel in a precision (R166). -/
def pixelBytes (skim : Bool) (p : Px) : List Nat :=
  if skim then leBytes 6 (p.r % 4096 + p.g % 4096 * 2 ^ 12 + p.b % 4096 * 2 ^ 24 + p.a % 4096 * 2 ^ 36)
  else leBytes 2 p.r ++ leBytes 2 p.g ++ leBytes 2 p.b ++ leBytes 2 p.a

/-- A pixel from its bytes as a number. -/
def pixelOf (skim : Bool) (v : Nat) : Px :=
  if skim then ⟨v % 4096, v / 2 ^ 12 % 4096, v / 2 ^ 24 % 4096, v / 2 ^ 36 % 4096⟩
  else ⟨v % 65536, v / 2 ^ 16 % 65536, v / 2 ^ 32 % 65536, v / 2 ^ 48 % 65536⟩

/-- The pixels of a block that lie inside the picture. -/
def blockPixels (w h : Nat) (px : Nat → Nat → Px) (bx byi : Nat) : List Px :=
  (List.range 32).flatMap (fun y => (List.range 32).filterMap (fun x =>
    if 32 * bx + x < w ∧ 32 * byi + y < h then some (px (32 * bx + x) (32 * byi + y)) else none))

/-- The mean of a block: the rounded average over the pixels inside the picture. -/
def blockMean (l : List Px) : Px :=
  if l.isEmpty then Px.clear
  else
    let n := l.length
    ⟨rnd (l.map Px.r).sum n, rnd (l.map Px.g).sum n, rnd (l.map Px.b).sum n, rnd (l.map Px.a).sum n⟩

/-- The bytes of a picture from its base, blocks and then means; `px` gives codes of the precision it is stored in. -/
def pictureBytes (w h : Nat) (skim : Bool) (px : Nat → Nat → Px) : List Nat :=
  let blocks := (List.range (blocksOf h)).flatMap (fun y => (List.range (blocksOf w)).map (fun x => (x, y)))
  blocks.flatMap (fun b => (List.range 32).flatMap (fun y => (List.range 32).flatMap (fun x =>
      pixelBytes skim (if 32 * b.1 + x < w ∧ 32 * b.2 + y < h then px (32 * b.1 + x) (32 * b.2 + y) else Px.clear)))) ++
  blocks.flatMap (fun b => pixelBytes false (blockMean (blockPixels w h px b.1 b.2)))

/-- Write a picture at a base. -/
def State.writePicture (s : State) (base w h : Nat) (skim : Bool) (px : Nat → Nat → Px) : State :=
  s.writeBulk base (pictureBytes w h skim px)

/-- The address of a pixel of a picture (R166). -/
def pixelAddr (base w : Nat) (skim : Bool) (x y : Nat) : Nat :=
  base + (y / 32 * blocksOf w + x / 32) * blockBytes skim + (32 * (y % 32) + x % 32) * (blockBytes skim / 1024)

/-- A pixel of a picture, in the codes it is stored in; an uncorrectable half reads transparent (R451). -/
def State.picturePixel (s : State) (base w : Nat) (skim : Bool) (x y : Nat) : Px :=
  pixelOf skim (s.pictureLe (pixelAddr base w skim x y) (blockBytes skim / 1024))

/-- The mean of a block of a picture (R166). -/
def State.pictureMean (s : State) (base w h : Nat) (skim : Bool) (bx byi : Nat) : Px :=
  pixelOf false (s.pictureLe (base + blocksOf w * blocksOf h * blockBytes skim + 8 * (byi * blocksOf w + bx)) 8)

end Sys2Proof.Machine
end

