-- ==== Sys2Proof/Machine/Params.lean ====
section
/-! DEFINITION. The parameters of each channel kind: length, class and default (R151, R173, R205, R209, R227, R248,
R254, R270, R271, R305, R307, R336, R365), and reading their fields. -/
namespace Sys2Proof.Machine

/-- One row of a parameter table. `len` is the LEN of the value. -/
structure ParamDesc where
  kind : Nat
  param : Nat
  len : Nat
  cls : FieldClass
  dflt : Nat
  deriving DecidableEq, Repr

def kLayer : Nat := 0x01
def kStream : Nat := 0x02
def kRegion : Nat := 0x03
def kRing : Nat := 0x04
def kEndpoint : Nat := 0x05
def kZone : Nat := 0x06
def kFeed : Nat := 0x07
def kFixture : Nat := 0x08
def kUniverse : Nat := 0x09
def kDdgroup : Nat := 0x0A
def kPail : Nat := 0x0B
def kFlow : Nat := 0x0C
def kCue : Nat := 0x0D

/-- The parameter tables, but for the attribute arrays of a fixture. -/
def paramTable : List ParamDesc :=
  [⟨1, 0x0101, 4, .f, 0⟩, ⟨1, 0x0102, 1, .f, 0⟩, ⟨1, 0x0103, 4, .l, 0x80000000⟩, ⟨1, 0x0104, 12, .l, 0⟩,
   ⟨1, 0x0105, 8, .l, 0x8000000000000000⟩, ⟨1, 0x0106, 12, .l, 3 + 0x8000 * 2 ^ 80⟩,
   ⟨1, 0x0110, 1, .f, 0⟩, ⟨1, 0x0111, 8, .f, 0⟩, ⟨1, 0x0112, 16, .f, 1920 * 2 ^ 64 + 1080 * 2 ^ 96⟩,
   ⟨1, 0x0113, 2, .f, 0⟩, ⟨1, 0x0114, 4, .f, 0x88FF⟩,
   ⟨2, 0x0201, 1, .s, 0⟩, ⟨2, 0x0202, 2, .s, 4⟩, ⟨2, 0x0203, 4, .s, 0x04380780⟩,
   ⟨2, 0x0204, 8, .s, 60000 + 1001 * 2 ^ 32⟩, ⟨2, 0x0205, 16, .s, 0⟩, ⟨2, 0x0206, 16, .s, 0xFF * 2 ^ 80⟩,
   ⟨2, 0x0207, 16, .s, 0⟩, ⟨2, 0x0208, 4, .l, 0x400000CB⟩, ⟨2, 0x0209, 2, .l, 1200⟩, ⟨2, 0x020A, 4, .l, 1000⟩,
   ⟨2, 0x020B, 4, .l, 100000⟩, ⟨2, 0x020C, 16, .f, 0⟩,
   ⟨3, 0x0301, 8, .f, 0⟩, ⟨3, 0x0302, 4, .f, 8192 + 4096 * 65536⟩,
   ⟨4, 0x0401, 1, .s, 0xFF⟩, ⟨4, 0x0402, 8, .s, 0x88B5⟩, ⟨4, 0x0403, 8, .l, 1000 + 100 * 65536 + 2 * 2 ^ 32⟩,
   ⟨4, 0x0404, 2, .l, 4 + 8 * 256⟩,
   ⟨5, 0x0501, 16, .f, 0⟩, ⟨5, 0x0510, 16, .f, 0⟩, ⟨5, 0x0511, 8, .f, 64 + 64 * 65536 + 12 * 2 ^ 32⟩,
   ⟨5, 0x0512, 16, .f, 256 * 65536 + 256 * 2 ^ 32⟩, ⟨5, 0x0513, 16, .f, 0⟩, ⟨5, 0x0514, 1, .f, 0⟩,
   ⟨5, 0x0515, 4, .f, 0⟩, ⟨5, 0x0516, 4, .f, 0⟩, ⟨5, 0x0520, 1, .f, 0xFF⟩,
   ⟨6, 0x0601, 4, .f, 0⟩,
   ⟨6, 0x0610, 16, .l, 256 * 2 ^ 16 + 40 * 2 ^ 32 + 100 * 2 ^ 48 + 12288 * 2 ^ 64 + 24576 * 2 ^ 80 + 655 * 2 ^ 96 +
     8 * 2 ^ 112 + 4 * 2 ^ 120⟩,
   ⟨7, 0x0701, 16, .l, 0xFFFFFFFFFFFFFFFF + 1000 * 2 ^ 64⟩, ⟨7, 0x0702, 2, .f, 32768⟩,
   ⟨8, 0x0801, 8, .f, 1 * 2 ^ 32 + 1 * 2 ^ 48⟩,
   ⟨9, 0x0901, 16, .s, 1 + 0xFF * 2 ^ 32⟩, ⟨9, 0x0902, 4, .f, 100 + 512 * 65536⟩, ⟨9, 0x0903, 4, .f, 0⟩,
   ⟨0xA, 0x0A01, 16, .f, 0⟩, ⟨0xA, 0x0A02, 2, .f, 0⟩, ⟨0xA, 0x0A03, 4, .f, 0⟩]

/-- The description of a parameter of a kind, or none where the kind has no such parameter. -/
def paramDesc (kind p : Nat) : Option ParamDesc :=
  if kind = 8 ∧ 0x0840 ≤ p ∧ p < 0x0880 then some ⟨8, p, 2, .l, 0⟩
  else if kind = 8 ∧ 0x0880 ≤ p ∧ p < 0x08C0 then some ⟨8, p, 16, .f, 0⟩
  else if kind = 8 ∧ 0x08C0 ≤ p ∧ p < 0x0900 then some ⟨8, p, 12, .f, 0⟩
  else paramTable.find? (fun d => d.kind == kind && d.param == p)

/-- The default of a parameter. -/
def paramDefault (kind p : Nat) : Nat := ((paramDesc kind p).map ParamDesc.dflt).getD 0

/-- A parameter's value in a channel. -/
def Chan.val (c : Chan) (p : Nat) : Nat := c.param p (paramDefault c.kind p)

/-- Bytes b to b + n − 1 of a parameter's value. -/
def Chan.fld (c : Chan) (p b n : Nat) : Nat := (c.val p / 256 ^ b) % 256 ^ n

/-- A signed field of a parameter's value. -/
def Chan.sfld (c : Chan) (p b n : Nat) : Int := toSigned (8 * n) (c.fld p b n)

/-- The live value of an L-class parameter of a channel of a frame's state: that of the channel as it is now, while it
is the same channel (R35). -/
def State.live (s : State) (c : Chan) : Chan :=
  match s.chanAt c.kind c.index with
  | some d => if d.gen = c.gen then d else c
  | none => c

/-- The frame's state of frame n, or none where it is not kept. -/
def State.frameWork (s : State) (n : Nat) : Option FrameWork := s.frames.find? (fun f => f.frame == n)

/-- Change the kept state of frame n. -/
def State.modFrame (s : State) (n : Nat) (f : FrameWork → FrameWork) : State :=
  { s with frames := s.frames.map (fun w => if w.frame == n then f w else w) }

/-- The running channels of a kind in a frame's state, lowest INDEX first. -/
def FrameWork.running (w : FrameWork) (kind : Nat) : List Chan :=
  sortBy (fun a b => decide (a.index ≤ b.index)) (w.chans.filter (fun c => c.kind == kind && decide (c.st = .running)))

/-- The channel of a handle in a frame's state, whatever its run state. -/
def FrameWork.chanOf (w : FrameWork) (h : Nat) : Option Chan :=
  w.chans.find? (fun c => c.handle == h)

/-- An input of R55 has differed. -/
def State.noteInput (s : State) : State := { s with sys := { s.sys with inputChanged := true } }

end Sys2Proof.Machine
end

