-- ==== Sys2Proof/Machine/ChanOps.lean ====
section
/-! DEFINITION. Capacities in force and the check of a handle (R13, R87). -/
namespace Sys2Proof.Machine

/-- The effective capacity of an item of R86 under the structure in force; 0 while none is loaded. -/
def State.capOf (s : State) (item : Nat) : Nat :=
  match s.str.inForce with
  | some st => effectiveCap st.caps (s.get F.SYS_MODE_STAT_RATE) s.skim item
  | none => 0

/-- The check of a handle (R13): OK, BAD_HANDLE or STALE_HANDLE. `kinds` are the kinds accepted. -/
def State.handleStatus (s : State) (kinds : List Nat) (h : Nat) : Nat :=
  let k := handleKind h
  if !kinds.contains k || decide (s.capOf k ≤ handleIndex h) then stBadHandle
  else if (s.chanOf h).isSome then stOK else stStale

/-- The kinds that CREATE makes (R12, R130). -/
def createKinds : List Nat := [1, 2, 3, 4, 5, 6, 7, 8, 9, 0xA, 0xD]

/-- Entries of pending commits and cue fires, oldest first, with the frame at which they act. -/
def State.pendingEntries (s : State) : List (Nat × SetEntry) :=
  s.cmd.deferred.flatMap (fun d => match d.act with
    | .commit n _ => ((s.cmd.sets[n]?).map ShadowSet.entries).getD [] |>.map (fun e => (d.frame, e))
    | .fire _ es => es.map (fun e => (d.frame, e))
    | _ => [])

/-- The values that pending commits and cue fires give a parameter of a channel. -/
def State.pendingValues (s : State) (h p : Nat) : List Nat :=
  s.pendingEntries.filterMap (fun e => match e.2 with
    | .param h' p' _ v => if h' = h ∧ p' = p then some v else none
    | _ => none)

/-! ## The parameters of a STREAM (R151) -/

/-- Width of a STREAM's SIZE. -/
def Chan.streamW (c : Chan) : Nat := c.fld 0x0203 0 2
/-- Height of a STREAM's SIZE. -/
def Chan.streamH (c : Chan) : Nat := c.fld 0x0203 2 2
/-- FORMAT of a STREAM. -/
def Chan.streamFmt (c : Chan) : Nat := c.val 0x0202
/-- SOURCE of a STREAM is 1, stored. -/
def Chan.stored (c : Chan) : Bool := c.val 0x0201 == 1
/-- The base of STORE. -/
def Chan.storeBase (c : Chan) : Nat := c.fld 0x0207 0 8
/-- The length of STORE. -/
def Chan.storeLen (c : Chan) : Nat := c.fld 0x0207 8 8
/-- PATH_A or PATH_B as a number. -/
def Chan.path (c : Chan) (b : Bool) : Nat := c.val (if b then 0x0206 else 0x0205)
/-- The PORT of a path; 0xFF for no second path. -/
def Chan.pathPort (c : Chan) (b : Bool) : Nat := c.fld (if b then 0x0206 else 0x0205) 10 1
/-- The stream has the path. -/
def Chan.hasPath (c : Chan) (b : Bool) : Bool := !b || c.pathPort true != 0xFF
/-- N of RATE. -/
def Chan.rateN (c : Chan) : Nat := c.fld 0x0204 0 4
/-- D of RATE. -/
def Chan.rateD (c : Chan) : Nat := c.fld 0x0204 4 4
/-- The number of slots of a stored stream (R169). -/
def Chan.slots (c : Chan) : Nat :=
  let f := footprint c.streamW c.streamH false
  if f = 0 then 0 else min 65536 (c.storeLen / f)
/-- The base of slot k of a stored stream, or of picture buffer k of a network stream (R167, R169). -/
def Chan.slotBase (c : Chan) (k : Nat) : Nat := c.storeBase + k * footprint c.streamW c.streamH false


end Sys2Proof.Machine
end

