-- ==== Sys2Proof/Machine/Scaler.lean ====
section
/-! DEFINITION. Orientation and crop (R178, R179), scalers and their line buffers (R183 to R188), and the filter. -/
namespace Sys2Proof.Machine
open Sys2Proof

/-! ## Placement -/

/-- DEST_RECT of a layer: X, Y, W, H. -/
def Chan.destX (c : Chan) : Int := c.sfld 0x0112 0 4
def Chan.destY (c : Chan) : Int := c.sfld 0x0112 4 4
def Chan.destW (c : Chan) : Nat := c.fld 0x0112 8 4
def Chan.destH (c : Chan) : Nat := c.fld 0x0112 12 4
/-- SCALER's scaler number; 0xFF for none. -/
def Chan.scaler (c : Chan) : Nat := c.val 0x0114 % 256
/-- The layer has a scaler. -/
def Chan.scaled (c : Chan) : Bool := c.scaler != 0xFF
def Chan.hTaps (c : Chan) : Nat := bits (c.val 0x0114) 11 8
def Chan.vTaps (c : Chan) : Nat := bits (c.val 0x0114) 15 12
def Chan.bank (c : Chan) : Nat := bits (c.val 0x0114) 19 16
def Chan.orient (c : Chan) : Nat := c.val 0x0110

/-- The layer's crop follows the whole picture (R179). -/
def Chan.following (c : Chan) : Bool := c.val 0x0111 == 0

/-- The crop of a layer on a picture of w × h: X, Y, W, H. -/
def Chan.crop (c : Chan) (w h : Nat) : Nat × Nat × Nat × Nat :=
  if c.following then (0, 0, w, h) else (c.fld 0x0111 0 2, c.fld 0x0111 2 2, c.fld 0x0111 4 2, c.fld 0x0111 6 2)

/-- Codes that transpose (R178). -/
def transposes (o : Nat) : Bool := o == 1 || o == 3 || o == 6 || o == 7

/-- The oriented crop size. -/
def orientedSize (o cw ch : Nat) : Nat × Nat := if transposes o then (ch, cw) else (cw, ch)

/-- The crop pixel shown at (u, v) of the oriented crop (R178). -/
def orientPixel (o cw ch u v : Nat) : Nat × Nat :=
  match o with
  | 0 => (u, v)
  | 1 => (v, ch - 1 - u)
  | 2 => (cw - 1 - u, ch - 1 - v)
  | 3 => (cw - 1 - v, u)
  | 4 => (cw - 1 - u, v)
  | 5 => (u, ch - 1 - v)
  | 6 => (v, u)
  | _ => (cw - 1 - v, ch - 1 - u)

/-- The ratio num / den lies inside 1/16 to 16 (R176, order 6). -/
def ratioOk (num den : Nat) : Bool := decide (den ≤ 16 * num) && decide (num ≤ 16 * den) && den != 0 && num != 0

/-! ## Scalers -/

/-- The scalers of a structure in a precision, from number 0 on: the engine and the granules of its line buffer
partition (R183). -/
def Structure.scalers (st : Structure) (skim : Bool) : List (Nat × Nat) :=
  (List.range 12).flatMap (fun e => match st.engineSec skim e with
    | none => []
    | some x => (List.range x.kinds.length).flatMap (fun k => match x.kinds[k]? with
      | some y => if y.kind = 2 then
          (List.range y.instances).map (fun i =>
            (e, ((x.parts.find? (fun p => p.use == 1 && p.owner == k && p.inst == i)).map Partition.length).getD 0))
          else []
      | none => []))

/-- Bytes per pixel in a line buffer (R108). -/
def lineBytes (skim : Bool) : Nat := if skim then 6 else 8

/-- need(v) of R187. -/
def lineNeed (v wSrc : Nat) (skim : Bool) : Nat := ceilDiv ((v + 1) * wSrc * lineBytes skim) 4096

/-- What the sizes of R108's table depend on: the transfer functions in use and the streams an UNPACK engine decodes, the
vertical taps and widest source of each scaler, the endpoints and feeds of GOVERN, and the ports a DIRECT engine feeds. -/
structure StoreUse where
  transfers : Nat
  streams : Nat
  scalers : List (Nat × Nat)
  endpoints : Nat
  feeds : Nat
  ports : Nat
  deriving DecidableEq, Repr

/-- The local store partitions a kind needs, as pairs of a use (R77) and its granules (R108). The SEPARATE curves and geometry
are the rule of R220 and stand there (`State.curvesAvailable`). No check of R89 names R108: an image whose partitions are
smaller is not refused for it (DEDUCED), and the rules that meet a small partition say what happens there (R176, R188). -/
def granulesNeeded (kind : Nat) (skim : Bool) (u : StoreUse) : List (Nat × Nat) :=
  let slices := if skim then 24 else 32
  match kind with
  | 1 => [(2, 16 * u.transfers), (4, 2 * u.streams)]
  | 2 => u.scalers.map (fun q => (1, lineNeed q.1 q.2 skim)) ++ u.scalers.map (fun _ => (2, 1))
  | 3 => [(3, slices)]
  | 4 => [(6, if skim then 32 else 64)]
  | 5 => [(4, 64 + ceilDiv u.endpoints 32 + ceilDiv u.feeds 64)]
  | 6 => [(2, 2), (3, slices)]
  | 7 => [(5, 32)]
  | 8 => [(3, 2 * u.ports)]
  | 9 => [(3, slices)]
  | _ => []

/-- The vertical taps in use and the columns used (R188), for v0 committed taps and len granules. -/
def lineFit (v0 wSrc len : Nat) (skim : Bool) : Nat × Nat :=
  match ([v0] ++ [8, 6, 4, 2, 1].filter (fun t => decide (t < v0))).find? (fun v => decide (lineNeed v wSrc skim ≤ len)) with
  | some v => (v, wSrc)
  | none => (1, len * 4096 / (2 * lineBytes skim))

/-! ## Coefficients (R186) -/

/-- The scale of the fixed-point arithmetic of the automatic tables: 2^128. -/
def fxOne : Int := 2 ^ 128

/-- π × 2^128, rounded down. -/
def fxPi : Int := 1069028584064966747859680373161870783300

/-- Terms of the sine series: x in fixed point, x², the term, the sum, and the next odd index. -/
def sinGo (x2 : Int) : Nat → Int → Int → Int → Int
  | 0, _, acc, _ => acc
  | n + 1, term, acc, k =>
    let t := -(term * x2 / fxOne) / ((k + 1) * (k + 2))
    sinGo x2 n t (acc + t) (k + 2)

/-- sin(π y) for 0 ≤ y ≤ 1/2, in fixed point. -/
def sinHalf (y : Rat) : Int :=
  let x := (y * (fxPi : Rat)).floor
  sinGo (x * x / fxOne) 40 x x 1

/-- sinc(y) = sin(πy) / (πy), in fixed point. -/
def sincFx (y : Rat) : Int :=
  if y = 0 then fxOne
  else
    let a := if y < 0 then -y else y
    let k := a.floor
    let f := a - (k : Rat)
    let s := if f ≤ 1 / 2 then sinHalf f else sinHalf (1 - f)
    let s := if k % 2 = 0 then s else -s
    s * fxOne / (a * (fxPi : Rat)).floor

/-- The index of the first largest value of a list. -/
def argMax (l : List Int) : Nat :=
  ((List.range l.length).find? (fun i => l.all (fun v => decide (v ≤ l.getD i 0)))).getD 0

/-- One phase of the automatic table for t taps and a ratio (R186): eight entries. -/
def autoPhase (t : Nat) (r : Rat) (phase : Nat) : List Int :=
  if t = 2 then [0, 0, 0, 16384 - 256 * (phase : Int), 256 * (phase : Int), 0, 0, 0]
  else
    let g : Rat := min 1 r
    let a : Rat := mkRat (t / 2 : Nat) 1
    let raw := (List.range 8).map (fun (j : Nat) =>
      let x : Rat := (j : Rat) - 3 - mkRat phase 64
      let gx := g * x
      let m := if gx < 0 then -gx else gx
      if a ≤ m then 0 else sincFx gx * sincFx (gx / a) / fxOne)
    let sum := raw.sum
    let scaled := raw.map (fun v => if sum = 0 then 0 else roundHalfUp (mkRat (v * 16384) 1 / (sum : Rat)))
    scaled.modify (argMax scaled) (fun v => v + (16384 - scaled.sum))

/-- The eight entries of a phase as read with t taps (R186): (tap, coefficient) pairs. -/
def tapsOf (t phase : Nat) (entries : List Int) : List (Nat × Int) :=
  if t = 1 then [(if phase < 32 then 3 else 4, 16384)]
  else
    let lo := 4 - t / 2
    let hi := 3 + t / 2
    (List.range 8).filterMap (fun j =>
      if j < lo ∨ hi < j then none
      else some (j, entries.getD j 0 +
        (if j = lo then ((entries.take lo).sum) else 0) + (if j = hi then ((entries.drop (hi + 1)).sum) else 0)))

/-- The taps of one direction: `dir` 0 horizontal, 1 vertical; a host table holds 1,024 entries in the order of R186. -/
def dirTaps (bank : Option (List Int)) (t : Nat) (r : Rat) (dir phase : Nat) : List (Nat × Int) :=
  match bank with
  | some l => tapsOf t phase ((l.drop ((dir * 64 + phase) * 8)).take 8)
  | none => tapsOf t phase (autoPhase t r phase)

/-- The source position of R184: index and phase. -/
def sourcePos (c frac srcN dstN : Nat) : Int × Nat × Rat :=
  let s : Rat := (mkRat (64 * (2 * c + 1) - 2 * (frac : Int)) 128) * mkRat srcN 1 / mkRat dstN 1 - 1 / 2
  let i := s.floor
  (i, (((s - (i : Rat)) * 64).floor).toNat, s)

/-- Filter a pixel component (R185): `src` gives the oriented crop's component at a column and a row. -/
def filterPixel (hs vs : List (Nat × Int)) (ix iy : Int) (wUsed hSrc m : Nat) (src : Nat → Nat → Nat) : Nat :=
  let col (j : Nat) : Nat := (clampInt 0 ((wUsed : Int) - 1) (ix - 3 + (j : Int))).toNat
  let row (j : Nat) : Nat := (clampInt 0 ((hSrc : Int) - 1) (iy - 3 + (j : Int))).toNat
  let line (y : Nat) : Int := ((hs.map (fun h => h.2 * (src (col h.1) y : Int))).sum + 128) / 256
  let v := (vs.map (fun p => p.2 * line (row p.1))).sum
  (clampInt 0 m ((v + 2 ^ 19) / 2 ^ 20)).toNat

end Sys2Proof.Machine
end

