-- ==== Sys2Proof/Machine/Compose.lean ====
section
/-! DEFINITION. Composition (R180 to R193): order, blending, the composition budget, and one band. -/
namespace Sys2Proof.Machine
open Sys2Proof

/-! ## Regions and bands -/

/-- A running REGION of a frame. -/
def regionOf (c : Chan) : RegionWork :=
  { index := c.index, handle := c.handle, x := c.sfld 0x0301 0 4, y := c.sfld 0x0301 4 4, w := c.fld 0x0302 0 2, h := c.fld 0x0302 2 2 }

/-- Bands of a region (R34). -/
def RegionWork.bands (r : RegionWork) : Nat := ceilDiv r.h 32

/-- The frame's sequence of bands over all regions (R191): region and band within it. -/
def bandSequence (rs : List RegionWork) : List (RegionWork × Nat) :=
  rs.flatMap (fun r => (List.range r.bands).map (fun b => (r, b)))

/-- The place of a region's first band in the frame's sequence. -/
def firstBand : List RegionWork → Nat → Nat
  | [], _ => 0
  | r :: rs, i => if r.index = i then 0 else r.bands + firstBand rs i

/-- Rows of a band. -/
def bandRows (r : RegionWork) (b : Nat) : Nat := min 32 (r.h - 32 * b)

/-- A pixel of the canvas as stored in a band buffer. -/
def packPx (p : Px) : Nat := p.r + p.g * 2 ^ 16 + p.b * 2 ^ 32
/-- The colour of a packed pixel. -/
def unpackPx (v : Nat) : Px := ⟨v % 65536, v / 2 ^ 16 % 65536, v / 2 ^ 32 % 65536, 0⟩

/-- The composed canvas at column x and row y of a region (counted from its origin); 0 where not composed. -/
def FrameWork.canvasAt (w : FrameWork) (r : RegionWork) (x y : Nat) : Px :=
  match w.canvas.find? (fun q => q.1 == firstBand w.regions r.index + y / 32) with
  | some q => unpackPx ((q.2.getD (y % 32) []).getD x 0)
  | none => Px.clear

/-! ## What a layer shows -/

/-- BLEND's mode. -/
def Chan.blendMode (c : Chan) : Nat := c.val 0x0103 % 8
/-- BLEND's OPACITY. -/
def Chan.opacity (c : Chan) : Nat := bits (c.val 0x0103) 31 16

/-- A colour of four 16-bit Cream codes at a byte of a parameter, in the precision in force. -/
def Chan.colour (c : Chan) (p b : Nat) (skim : Bool) : Px :=
  ⟨codeIn skim (c.fld p b 2), codeIn skim (c.fld p (b + 2) 2), codeIn skim (c.fld p (b + 4) 2), codeIn skim (c.fld p (b + 6) 2)⟩

/-- A pixel of the oriented crop of a layer's picture; transparent outside the picture (R179). -/
def State.orientedPixel (s : State) (c : Chan) (p : Pick) (skim : Bool) (u v : Nat) : Px :=
  match p.base with
  | none => Px.clear
  | some base =>
    let cr := c.crop p.width p.height
    let q := orientPixel c.orient cr.2.2.1 cr.2.2.2 u v
    let x := cr.1 + q.1
    let y := cr.2.1 + q.2
    if x < p.width ∧ y < p.height then (s.picturePixel base p.width p.skim x y).map (recode p.skim skim) else Px.clear

/-- The premultiplied colour and alpha of a layer at destination column c and row r (R175, R179, R184, R185, R194). -/
def State.layerPixel (s : State) (l : LayerWork) (skim : Bool) (c r : Nat) : Px :=
  let live := s.live l.chan
  match l.shows, l.pick with
  | .fill, _ => live.colour 0x0105 0 skim
  | .substitute, _ => live.colour 0x0106 4 skim
  | .picture, some p =>
    let cr := l.chan.crop p.width p.height
    let sz := orientedSize l.chan.orient cr.2.2.1 cr.2.2.2
    if l.chan.scaled then
      let px := sourcePos c (l.chan.fld 0x0113 0 1) sz.1 l.chan.destW
      let py := sourcePos r (l.chan.fld 0x0113 1 1) sz.2 l.chan.destH
      if decide (l.wUsed < sz.1) && decide (mkRat (2 * l.wUsed - 1 : Int) 2 ≤ px.2.2) then Px.clear
      else
        let bank := if l.chan.bank = 0 then none else (s.cmp.banks.find? (fun b => b.1 == l.chan.bank)).map Prod.snd
        let hs := dirTaps bank l.chan.hTaps (mkRat l.chan.destW sz.1) 0 px.2.1
        let vs := dirTaps bank l.vTaps (mkRat l.chan.destH sz.2) 1 py.2.1
        let comp (f : Px → Nat) : Nat :=
          filterPixel hs vs px.1 py.1 l.wUsed sz.2 (maxCode skim) (fun u v => f (s.orientedPixel l.chan p skim u v))
        ⟨comp Px.r, comp Px.g, comp Px.b, comp Px.a⟩
    else if c < sz.1 ∧ r < sz.2 then s.orientedPixel l.chan p skim c r else Px.clear
  | _, _ => Px.clear

/-! ## Blending (R181, R182) -/

/-- rnd on integers, for operands that may be negative. -/
def rndI (x : Int) (y : Nat) : Int := (x + (y / 2 : Nat)) / (y : Int)

/-- The key alpha of R182 for a colour, a key colour, TOL and SOFT. -/
def keyAlpha (w : Nat) (p k : Px) (tol soft : Nat) : Nat :=
  let d1 (a b : Nat) : Nat := if a < b then b - a else a - b
  let d := max (d1 p.r k.r) (max (d1 p.g k.g) (d1 p.b k.b))
  if d ≤ tol then 0 else if tol + soft ≤ d then w else (d - tol) * w / soft

/-- One colour component of the band after a layer (R181). -/
def blendOne (mode w m : Nat) (d c a : Nat) : Nat :=
  let cut (x : Int) : Nat := (clampInt 0 m x).toNat
  match mode with
  | 1 => min m (d + c)
  | 2 => cut (rndI ((c * d : Nat) + (d : Int) * ((w : Int) - a)) w)
  | 3 => cut ((c + d : Nat) - (rnd (min c w * min d w) w : Nat))
  | 4 => c
  | _ => cut ((c : Int) + rndI ((d : Int) * ((w : Int) - a)) w)

/-- The band's pixel after a layer's pixel (R181, R182). -/
def blendPixel (live : Chan) (skim : Bool) (d p : Px) : Px :=
  let w := whiteCode skim
  let m := maxCode skim
  let o := live.opacity
  let q := p.map (fun x => rnd (x * o) 32768)
  let q := if live.blendMode = 5 then
      let k : Px := ⟨codeIn skim (live.fld 0x0104 0 2), codeIn skim (live.fld 0x0104 2 2), codeIn skim (live.fld 0x0104 4 2), 0⟩
      let ka := keyAlpha w p k (codeIn skim (live.fld 0x0104 6 2)) (codeIn skim (live.fld 0x0104 8 2))
      q.map (fun x => rnd (x * ka) w)
    else q
  ⟨blendOne live.blendMode w m d.r q.r q.a, blendOne live.blendMode w m d.g q.g q.a, blendOne live.blendMode w m d.b q.b q.a, 0⟩

/-! ## The composition budget (R190, R191) -/

/-- The length of the part that spans [a, a + n) and [b, b + m) share. -/
def shared (a : Int) (n : Nat) (b : Int) (m : Nat) : Nat := (min (a + n) (b + m) - max a b).toNat

/-- Slices across a region. -/
def RegionWork.slices (r : RegionWork) : Nat := ceilDiv r.w 256

/-- Pixels of a layer in a slice of a band. -/
def slicePixels (c : Chan) (r : RegionWork) (b k : Nat) : Nat :=
  shared c.destX c.destW (r.x + 256 * k) (min 256 (r.w - 256 * k)) * shared c.destY c.destH (r.y + 32 * b) (bandRows r b)

/-- The layer can cover a slice (R190). -/
def State.covers (s : State) (l : LayerWork) : Bool :=
  let live := s.live l.chan
  match l.shows with
  | .nothing => false
  | .picture => live.blendMode == 4
  | .fill => live.blendMode == 4 || (live.blendMode == 0 && live.fld 0x0105 6 2 == 32768 && live.opacity == 32768)
  | .substitute => live.blendMode == 4 || (live.blendMode == 0 && live.fld 0x0106 10 2 == 32768 && live.opacity == 32768)

/-- The position in the order of the highest cover of a slice; 0 where there is none. -/
def State.coverAt (s : State) (ls : List LayerWork) (r : RegionWork) (b k : Nat) : Nat :=
  let full := min 256 (r.w - 256 * k) * bandRows r b
  (((List.range ls.length).filter (fun i => match ls[i]? with
    | some l => s.covers l && slicePixels l.chan r b k == full
    | none => false)).getLast?).getD 0

/-- Twice the cost in clocks of each layer in a band, bottom first; 0 for one that does not touch it (R191). -/
def State.bandCosts (s : State) (ls : List LayerWork) (r : RegionWork) (b : Nat) : List Nat :=
  let covers := (List.range r.slices).map (fun k => s.coverAt ls r b k)
  (List.range ls.length).map (fun i => match ls[i]? with
    | none => 0
    | some l => ((List.range r.slices).map (fun k =>
        let n := slicePixels l.chan r b k
        if n = 0 ∨ i < covers.getD k 0 then 0 else n + 32)).sum)

/-- The allowance of a band in clocks (R191) for the engines in force and N_b bands. -/
def State.allowance (s : State) (bands : Nat) : Nat :=
  let share := ((List.range 12).map (fun e => match s.section e with
    | some x => if x.kinds.any (fun k => k.kind == 3)
        then 1024 - ((x.kinds.filter (fun k => k.kind != 3)).map KindEntry.share).sum else 0
    | none => 0)).sum
  let w := periodUs s.rate - 600 - periodUs s.rate / 64
  if bands = 0 then 0 else ((share * 1200 : Nat) * w / ((1024 * bands : Nat) : Rat)).floor.toNat

/-- Drop lowest layers until the cost fits: positions dropped and the doubled cost left (R191). -/
def dropLayers (avail2 : Nat) : List (Nat × Nat) → List Nat × Nat
  | [] => ([], 0)
  | [x] => ([], x.2)
  | x :: y :: l =>
    let cost := ((x :: y :: l).map Prod.snd).sum
    if avail2 < cost then
      let q := dropLayers avail2 (y :: l)
      (x.1 :: q.1, q.2)
    else ([], cost)

/-- The rows of a composed band. -/
def State.blendBand (s : State) (w : FrameWork) (r : RegionWork) (b : Nat) (dropped : List Nat) : List (List Nat) :=
  let covers := (List.range r.slices).map (fun k => s.coverAt w.layers r b k)
  (List.range (bandRows r b)).map (fun (y : Nat) => (List.range r.w).map (fun (x : Nat) =>
    let cx : Int := r.x + x
    let cy : Int := r.y + 32 * b + y
    packPx ((List.range w.layers.length).foldl (fun d i => match w.layers[i]? with
      | none => d
      | some l =>
        let c := l.chan
        if l.shows = .nothing ∨ dropped.contains i = true ∨ i < covers.getD (x / 256) 0 then d
        else if c.destX ≤ cx ∧ cx < c.destX + c.destW ∧ c.destY ≤ cy ∧ cy < c.destY + c.destH then
          blendPixel (s.live c) w.skim d (s.layerPixel l w.skim (cx - c.destX).toNat (cy - c.destY).toNat)
        else d) Px.clear)))

/-- What the last band of a frame leaves in the registers (R193, R203). -/
def State.composeEnd (s : State) (w : FrameWork) : State :=
  let s1 := (s.put F.CMP_BAND_PEAK_PEAK w.peak.1).put F.CMP_BAND_PEAK_BAND w.peak.2
  match w.firstDrop with
  | some d => s1.tallyAtMost 0x05030000 10 oneSecond 0x0503 [w.frame, d.1, w.drops, d.2.1, d.2.2]
  | none => s1

/-- What a layer past HOLD shows under the policy of its ABSENCE (R194). -/
def absentShow (live : Chan) (p : Option Pick) : LayerShow :=
  match live.fld 0x0106 1 1 with
  | 1 => if p.any (fun q => q.base.isSome) then .picture else .nothing
  | 2 => .substitute
  | _ => .nothing

/-- A layer as the next band takes it: a change of ABSENCE applies from the next band (R195), and a picture that is transparent
for its ratio stays so (R181, R189). -/
def State.reshow (s : State) (l : LayerWork) : LayerWork :=
  if l.absent then
    let shows := absentShow (s.live l.chan) l.pick
    { l with shows := if l.barred && decide (shows = .picture) then .nothing else shows }
  else l

/-- COMPOSE_BAND (R191, R193): the next band of a frame. L_STAT.DROPPED speaks of the last frame composed: the first band of a
frame clears it (DESIGN CHOICE: R193 and R203 name no moment). -/
def doComposeBand (n : Nat) (s : State) : State :=
  match s.frameWork n with
  | none => s
  | some w0 =>
    let v := s.asOf n w0.bandsDone
    let shown (l : LayerWork) : LayerWork := if l.chan.scaled && !s.kindServed 2 then { l with shows := .nothing } else v.reshow l
    let w : FrameWork := { w0 with layers := w0.layers.map shown }
    let seq := bandSequence w.regions
    match (if w.active && s.kindServed 3 then seq[w.bandsDone]? else none) with
    | none => s
    | some (r, b) =>
      let costs := v.bandCosts w.layers r b
      let touching := (List.range costs.length).filterMap (fun i =>
        if costs.getD i 0 = 0 then none else some (i, costs.getD i 0))
      let before := (touching.map Prod.snd).sum
      let avail2 := 2 * s.allowance seq.length + w.carry
      let q := dropLayers avail2 touching
      let ratio := min 2047 (if avail2 = 0 then 2047 else before * 1024 / avail2)
      let w1 : FrameWork := { w with
        layers := w0.layers, carry := avail2 - q.2, bandsDone := w.bandsDone + 1, drops := w.drops + q.1.length,
        canvas := w.canvas ++ [(w.bandsDone, v.blendBand w r b q.1)],
        firstDrop := w.firstDrop.orElse (fun _ => if q.1.isEmpty then none else some (w.bandsDone, before / 2, avail2 / 2)),
        peak := if w.peak.1 < ratio then (ratio, w.bandsDone) else w.peak }
      let s0 := if w.bandsDone = 0 then
          s.each (w.chans.filter (fun c => c.kind == kLayer)) (fun c t => t.putFlag F.L_STAT_DROPPED false c.index) else s
      let s1 := s0.modFrame n (fun _ => w1)
      let s2 := if q.1.isEmpty then s1
        else
          s1.add R.CMP_DROP_CNT q.1.length |>.raise F.CMP_EVT_DROPPED |>.each q.1 (fun i t => match w.layers[i]? with
            | some l => (t.bump R.L_DROP_CNT l.chan.index).putFlag F.L_STAT_DROPPED true l.chan.index
            | none => t)
      (if w1.bandsDone = seq.length then s2.composeEnd w1 else s2).serveAhead n

/-! ## Writeback (R199 to R201) -/

/-- INTERVAL of a rectangle; 0 acts as 1. -/
def State.wbInterval (s : State) (i : Nat) : Nat := max 1 (s.get F.WB_CTL_INTERVAL i)
/-- COUNT of a rectangle; 0 acts as 1. -/
def State.wbCount (s : State) (i : Nat) : Nat := max 1 (s.get F.WB_CTL_COUNT i)

/-- A canvas pixel of a rectangle of a frame. -/
def FrameWork.wbPixel (w : FrameWork) (k : WbWork) (x y : Nat) : Px :=
  match w.regions.find? (fun r => r.handle == k.region) with
  | some r => { w.canvasAt r (k.x + x) (k.y + y) with a := whiteCode w.skim }
  | none => { Px.clear with a := whiteCode w.skim }

/-- Mark a stored slot of a stream ready or not. -/
def State.slotReady (s : State) (h slot : Nat) (ready : Bool) : State :=
  { s with ing := { s.ing with streams := s.ing.streams.modify (handleIndex h) (fun x =>
    { x with ready := x.ready.filter (fun k => k != slot) ++ (if ready then [slot] else []) }) } }

/-- The start of a rectangle's write of frame n at S(n): the slot stops being ready (R201). -/
def State.wbStart (s : State) (n i : Nat) : State :=
  if s.flag F.WB_CTL_EN i && n % s.wbInterval i == 0 then
    let buf := (n / s.wbInterval i) % s.wbCount i
    let xy := s.get R.WB_XY i
    let wh := s.get R.WB_WH i
    let k : WbWork :=
      { frame := n, buf := buf, format := s.get F.WB_CTL_FORMAT i, region := s.get R.WB_REGION i, x := xy % 65536,
        y := xy / 65536, w := wh % 65536, h := wh / 65536, addr := s.get64 R.WB_ADDR_LO i, pitch := s.get R.WB_PITCH i,
        dst := s.get R.WB_DST i, slot := s.get R.WB_SLOT i + buf }
    let s1 := { s with cmp := { s.cmp with wb := s.cmp.wb.filter (fun q => q.1 != i) ++ [(i, k)] } }
    if k.format = 1 then s1.slotReady k.dst k.slot false else s1
  else s

/-- The pixels of a rectangle in the Bulk Tank (R200). -/
def State.wbWrite (s : State) (w : FrameWork) (k : WbWork) : State :=
  if k.format = 0 then
    let h := k.h
    let base := k.addr + k.buf * (h * k.pitch)
    s.each (List.range h) (fun y t =>
      t.writeBulk (base + y * k.pitch) ((List.range k.w).flatMap (fun x => pixelBytes w.skim (w.wbPixel k x y))))
  else
    match s.chanOf k.dst with
    | some c =>
      s.writePicture (c.storeBase + k.slot * footprint k.w k.h false) k.w k.h false
        (fun x y => (w.wbPixel k x y).map (recode w.skim false))
    | none => s

/-- WB_COMPLETE (R200, R201): a rectangle's write ends within its frame's span. -/
def doWbComplete (i : Nat) (s : State) : State :=
  match s.cmp.wb.find? (fun q => q.1 == i) with
  | none => s
  | some (_, k) =>
    let s1 := { s with cmp := { s.cmp with wb := s.cmp.wb.filter (fun q => q.1 != i) } }
    match (if s.kindServed 9 then s.frameWork k.frame else none) with
    | none => if s.kindServed 9 then s1 else s
    | some w =>
      let s2 := s1.wbWrite w k
      let s3 := ((s2.put64 R.WB_FRAME_LO k.frame i).put F.WB_STAT_LAST_BUF k.buf i).putFlag F.WB_STAT_INCOMPLETE false i
      if k.format = 1 then s3.slotReady k.dst k.slot true else s3

/-- WB_INCOMPLETE (R201): a write not complete at D(n) is abandoned. -/
def doWbIncomplete (i : Nat) (s : State) : State :=
  match s.cmp.wb.find? (fun q => q.1 == i) with
  | none => s
  | some (_, k) =>
    let s1 := s.atTime (s.dAt k.frame)
    let s2 := { s1 with cmp := { s1.cmp with wb := s1.cmp.wb.filter (fun q => q.1 != i) } }
    ((s2.putFlag F.WB_STAT_INCOMPLETE true i).raise F.CMP_EVT_WB_INCOMPLETE).tally 0x0508 [i, k.frame]

/-! ## Coefficient banks (R202) -/

/-- The result of a coefficient load and its events. -/
def State.coefResult (s : State) (bank status check : Nat) : State :=
  ((((s.put F.CMP_COEF_STAT_RESULT status).put F.CMP_COEF_STAT_CHECK check).advance F.CMP_COEF_STAT_SEQ).raise
    F.CMP_EVT_COEF_DONE).tally 0x0507 [bank, status, check]

/-- A SCALER value names a bank. -/
def namesBank (v bank : Nat) : Bool := bits v 19 16 == bank

/-- The values of a parameter over the channels of a kind, in force or in a pending commit or cue fire. -/
def State.namedValues (s : State) (kind p : Nat) : List Nat :=
  (s.cmd.chans.filter (fun c => c.kind == kind)).map (fun c => c.val p) ++
  s.pendingEntries.filterMap (fun e => match e.2 with
    | .param h p' _ v => if handleKind h = kind ∧ p' = p then some v else none
    | _ => none)

/-- The taps of a coefficient table at an address. -/
def State.coefTable (s : State) (a : Nat) : List Int := (List.range 1024).map (fun k => toSigned 16 (s.bulkLe (a + 2 * k) 2))

/-- The checks of R202, in order, for a bank. -/
def State.coefChecks (s : State) (bank : Nat) : List (Nat × Bool × Nat) :=
  let a := s.get64 R.CMP_COEF_ADDR_LO
  let table := s.coefTable a
  [(1, s.cmp.loading.isSome, stBusy), (2, bank == 0 || decide (8 < bank), stInconsistent),
   (3, a % 64 != 0 || !inUsable a 2048, stInconsistent),
   (4, (s.namedValues kLayer 0x0114).any (fun v => namesBank v bank), stBusy),
   (5, (List.range 128).any (fun k => ((table.drop (8 * k)).take 8).sum != 16384), stInconsistent)]

/-- A write of CMP_COEF_CTL starts a load. -/
def State.coefAccepted (s : State) (value : Nat) : Bool :=
  bitAt value 0 && decide ((firstFail (s.coefChecks (bits value 4 1))).2 = stOK)

/-- COEF_LOAD (R202): a write of CMP_COEF_CTL; with GO the load is checked and started or refused. -/
def doCoefLoad (value : Nat) (s : State) : State :=
  let s1 := s.put F.CMP_COEF_CTL_BANK (bits value 4 1)
  if bitAt value 0 = false then s1
  else
    let bank := bits value 4 1
    let table := s1.coefTable (s1.get64 R.CMP_COEF_ADDR_LO)
    let f := firstFail (s1.coefChecks bank)
    if f.2 = stOK then { s1 with cmp := { s1.cmp with loading := some (bank, table) } }
    else s1.coefResult bank f.2 f.1

/-- COEF_LOADED (R202): the load completes. -/
def doCoefLoaded (s : State) : State :=
  match s.cmp.loading with
  | none => s
  | some (bank, table) =>
    let banks := s.cmp.banks.filter (fun b => b.1 != bank) ++ [(bank, table)]
    let s1 : State := { s with cmp := { s.cmp with loading := none, banks := banks } }
    (s1.put F.CMP_COEF_STAT_LOADED (s1.get F.CMP_COEF_STAT_LOADED ||| 2 ^ (bank - 1))).coefResult bank stOK 0

def execComposeBand (frame : Nat) (s : State) : Host.Outcome State Fault Refusal := .next (doComposeBand frame s)
def execWbComplete (rect : Fin 16) (s : State) : Host.Outcome State Fault Refusal := .next (doWbComplete rect.val s)
def execWbIncomplete (rect : Fin 16) (s : State) : Host.Outcome State Fault Refusal := .next (doWbIncomplete rect.val s)
def execCoefLoad (value : Word) (s : State) : Host.Outcome State Fault Refusal :=
  .next (s.mirrored (s.coefAccepted value.toNat) (.coefLoad value.toNat) (doCoefLoad value.toNat))
def execCoefLoaded (s : State) : Host.Outcome State Fault Refusal := .next (doCoefLoaded s)

end Sys2Proof.Machine
end

