-- ==== Sys2Proof/Machine/Geometry.lean ====
section
/-! DEFINITION. Where an endpoint's pixels sample the canvas (R209 to R212), its lines, and its output curve (R220). -/
namespace Sys2Proof.Machine
open Sys2Proof

def Chan.epRegion (c : Chan) : Nat := c.fld 0x0510 0 4
def Chan.epX (c : Chan) : Int := c.sfld 0x0510 4 4
def Chan.epY (c : Chan) : Int := c.sfld 0x0510 8 4
def Chan.epRot (c : Chan) : Nat := c.fld 0x0510 12 1
def Chan.epScan (c : Chan) : Nat := c.fld 0x0510 13 1
def Chan.epW (c : Chan) : Nat := c.fld 0x0511 0 2
def Chan.epH (c : Chan) : Nat := c.fld 0x0511 2 2
def Chan.epDepth (c : Chan) : Nat := c.fld 0x0511 4 1
def Chan.epOrder (c : Chan) : Nat := c.fld 0x0511 5 1
def Chan.epMode (c : Chan) : Nat := c.fld 0x0512 0 1
def Chan.epPx (c : Chan) : Nat := c.fld 0x0512 2 2
def Chan.epPy (c : Chan) : Nat := c.fld 0x0512 4 2
def Chan.epMap (c : Chan) : Nat := c.fld 0x0512 8 8
def Chan.epCorr (c : Chan) (skim : Bool) : Nat := c.fld 0x0513 (if skim then 8 else 0) 8
def Chan.epCurve (c : Chan) : Nat := c.val 0x0514
def Chan.epZone (c : Chan) : Nat := c.val 0x0515
def Chan.epFeed (c : Chan) : Nat := c.val 0x0516
/-- Native pixels of an endpoint. -/
def Chan.epPixels (c : Chan) : Nat := c.epW * c.epH

/-- The running region an endpoint of a frame samples, if its reference is whole (R207). -/
def FrameWork.epRegion (w : FrameWork) (c : Chan) : Option RegionWork := w.regions.find? (fun r => r.handle == c.epRegion)

/-- The place of a REGION named by an endpoint, running or not. -/
def FrameWork.epPlace (w : FrameWork) (c : Chan) : Option RegionWork := (w.chanOf c.epRegion).map regionOf

/-- A signed number of n bytes in the Bulk Tank, or none where its half is uncorrectable (R451). -/
def State.mapInt (s : State) (a n : Nat) : Option Int :=
  if s.badAt a || s.badAt (a + n - 1) then none else some (toSigned (8 * n) (s.bulkLe a n))

/-- The canvas column and row a native pixel is given (R210, R211), and whether it lies inside BOX; none where the map's
half is uncorrectable (R451). -/
def State.epSite (s : State) (c : Chan) (x y : Nat) : Option ((Int × Int) × Bool) :=
  if c.epMode = 0 then
    let o := c.epRot
    -- The native raster is the crop; (u, v) is where its pixel is placed.
    let uv : Nat × Nat := match o with
      | 0 => (x, y) | 1 => (c.epH - 1 - y, x) | 2 => (c.epW - 1 - x, c.epH - 1 - y) | 3 => (y, c.epW - 1 - x)
      | 4 => (c.epW - 1 - x, y) | 5 => (x, c.epH - 1 - y) | 6 => (y, x) | _ => (c.epH - 1 - y, c.epW - 1 - x)
    some ((c.epX + ((2 * uv.1 + 1) * c.epPx / 512 : Nat), c.epY + ((2 * uv.2 + 1) * c.epPy / 512 : Nat)), true)
  else
    let a := c.epMap + 16
    let col := if c.epMode = 1 then s.mapInt (a + 4 * x) 4 else s.mapInt (a + 8 * (y * c.epW + x)) 4
    let row := if c.epMode = 1 then s.mapInt (a + 4 * (c.epW + y)) 4 else s.mapInt (a + 8 * (y * c.epW + x) + 4) 4
    match col, row with
    | some i, some j =>
      let dx := i / 256
      let dy := j / 256
      let b (k : Nat) : Int := toSigned 16 (s.bulkLe (c.epMap + 8 + 2 * k) 2)
      some ((c.epX + dx, c.epY + dy), decide (b 0 ≤ dx ∧ b 1 ≤ dy ∧ dx ≤ b 2 ∧ dy ≤ b 3))
    | _, _ => none

/-- The canvas column and row a native pixel samples; none where there is none inside BOX. -/
def State.epSample (s : State) (c : Chan) (x y : Nat) : Option (Int × Int) :=
  (s.epSite c x y).bind (fun q => if q.2 then some q.1 else none)

/-- A sample that lies inside a region, as column and row from its origin. -/
def inRegion (r : RegionWork) (p : Int × Int) : Option (Nat × Nat) :=
  if r.x ≤ p.1 ∧ p.1 < r.x + r.w ∧ r.y ≤ p.2 ∧ p.2 < r.y + r.h then some ((p.1 - r.x).toNat, (p.2 - r.y).toNat) else none

/-- The number of lines of an endpoint (R212): native rows, or columns for SCAN 2 and 3. -/
def Chan.lines (c : Chan) : Nat := if c.epScan < 2 then c.epH else c.epW

/-- The native pixels of a line, in the order they are sent (R212). -/
def Chan.linePixels (c : Chan) (k : Nat) : List (Nat × Nat) :=
  let n := if c.epScan < 2 then c.epW else c.epH
  let order := if c.epScan % 2 = 1 ∧ k % 2 = 1 then (List.range n).reverse else List.range n
  order.map (fun i => if c.epScan < 2 then (i, k) else (k, i))

/-- The last band of a line (R214): over its samples inside the region, whether or not they lie in BOX. -/
def State.lastBand (s : State) (c : Chan) (r : Option RegionWork) (k : Nat) : Nat :=
  match r with
  | none => 0
  | some r => ((c.linePixels k).filterMap (fun p => (((s.epSite c p.1 p.2).map Prod.fst).bind (inRegion r)).map (fun q => q.2 / 32))).foldl max 0

/-- Pixels of a line. -/
def Chan.lineLen (c : Chan) : Nat := if c.epScan < 2 then c.epW else c.epH

/-- The last band of every line. -/
def State.lineBands (s : State) (c : Chan) (r : Option RegionWork) : List Nat :=
  (List.range c.lines).map (fun k => s.lastBand c r k)

/-- Rising line numbers as runs of consecutive lines: first line and count. -/
def runsOf : List Nat → List (Nat × Nat)
  | [] => []
  | k :: r => match runsOf r with
    | (a, n) :: q => if a = k + 1 then (k, n + 1) :: q else (k, 1) :: (a, n) :: q
    | [] => [(k, 1)]

/-- Bytes of a pixel and the most pixels of a part, by depth (R278). -/
def pixelSize (d : Nat) : Nat × Nat := if d ≤ 8 then (3, 2730) else if d ≤ 10 then (4, 2048) else (6, 1365)

/-- A run of n pixels cut into parts of equal size, the earlier ones a pixel larger (R279): offset and count. -/
def cutRun (n pmax : Nat) : List (Nat × Nat) :=
  let k := ceilDiv n pmax
  (List.range k).map (fun i => (i * (n / k) + min i (n % k), n / k + (if i < n % k then 1 else 0)))

/-- The parts of an endpoint band (R214, R279): the line and the place along it of the first pixel, and the pixels. -/
def Chan.bandParts (c : Chan) (bands : List Nat) (b : Nat) : List (Nat × Nat × Nat) :=
  let lines := (List.range bands.length).filter (fun k => bands.getD k 0 == b)
  (runsOf lines).flatMap (fun r => (cutRun (r.2 * c.lineLen) (pixelSize c.epDepth).2).map (fun q =>
    (r.1 + q.1 / max 1 c.lineLen, q.1 % max 1 c.lineLen, q.2)))

/-- The parts of an endpoint's bands below a band. -/
def Chan.partsBelow (c : Chan) (bands : List Nat) (b : Nat) : Nat :=
  ((List.range b).map (fun k => if bands.contains k then (c.bandParts bands k).length else 0)).sum

/-- PARTS of an endpoint's frame: it depends on geometry alone (R279). -/
def Chan.parts (c : Chan) (bands : List Nat) : Nat := c.partsBelow bands (bands.foldl max 0 + 1)

/-- The native pixels of a part, in the order they are sent. -/
def Chan.partPixels (c : Chan) (p : Nat × Nat × Nat) : List (Nat × Nat) :=
  let lines := ceilDiv (p.2.1 + p.2.2) (max 1 c.lineLen)
  (((List.range lines).flatMap (fun i => c.linePixels (p.1 + i))).drop p.2.1).take p.2.2

/-- sat0 of R216. -/
def sat0 (x : Int) : Int := clampInt 0 65535 x

/-- Entry k of an output curve in a colour (R220). -/
def State.curveEntry (s : State) (curve colour k : Nat) : Nat :=
  if curve = 0 then min 65535 (128 * k)
  else match s.sep.curves.find? (fun q => q.1 == curve) with
    | some q => q.2.getD (colour * 1025 + k) 0
    | none => min 65535 (128 * k)

/-- The drive code of an output curve for an input (R220). -/
def State.curveOut (s : State) (curve colour c : Nat) : Nat :=
  let i := c / 64
  let f := c % 64
  let a : Int := s.curveEntry curve colour i
  let b : Int := s.curveEntry curve colour (i + 1)
  (sat0 (a + (b - a) * f / 64)).toNat

/-- The product of a row of a matrix with a vector. -/
def rowDot (m : List Int) (i : Nat) (v : List Int) : Int :=
  m.getD (3 * i) 0 * v.getD 0 0 + m.getD (3 * i + 1) 0 * v.getD 1 0 + m.getD (3 * i + 2) 0 * v.getD 2 0

/-- The gains of an endpoint in force (R216). -/
def State.epGains (s : State) (i : Nat) : List Nat :=
  [s.get F.EPC_GAIN_RG_G_R i, s.get F.EPC_GAIN_RG_G_G i, s.get F.EPC_GAIN_B_G_B i]

/-- The identity thermal matrix (R248). -/
def identityH : List Int := [16384, 0, 0, 0, 16384, 0, 0, 0, 16384]
/-- The reference efficiency (R248). -/
def unitEps : List Nat := [32768, 32768, 32768]

end Sys2Proof.Machine
end

