-- ==== Sys2Proof/Machine/NetOps.lean ====
section
/-! DEFINITION. The links (R368 to R382) as shared operations: roles, sending a frame under flow control, IPv4 and ARP,
group joins in the Strainer, and the Ethernet check sequence. -/
namespace Sys2Proof.Machine
open Sys2Proof

/-! ## Ports and links -/

/-- The port of a link (R368). -/
def linkPort (l : Nat) : Nat := if l < 16 then l else if l < 20 then 16 else if l < 24 then 17 else 18

/-- The PORTS record in force of a port. -/
def State.portRec (s : State) (p : Nat) : Option PortRec := s.str.inForce.bind (fun st => st.ports.find? (fun q => q.port == p))
/-- The SPEED code of a port (R84). -/
def State.portSpeed (s : State) (p : Nat) : Nat := ((s.portRec p).map PortRec.speed).getD 0
/-- A role bit of a port (R84): 0 ingest, 1 DvoreLink, 2 sACN, 3 Bell B, 4 PTP, 5 management. -/
def State.hasRole (s : State) (p bit : Nat) : Bool := bitAt (((s.portRec p).map PortRec.roles).getD 0) bit
/-- The links of a port (R368): a U port with SPEED 4 has four. -/
def State.portLinks (s : State) (p : Nat) : List Nat :=
  if p < 16 then [p]
  else if p = 18 then [24]
  else
    let a := if p = 16 then 16 else 20
    if s.portSpeed p = 4 then [a, a + 1, a + 2, a + 3] else [a]
/-- The link exists and its quad is powered (R368). -/
def State.linkExists (s : State) (l : Nat) : Bool :=
  (s.portLinks (linkPort l)).contains l && s.portSpeed (linkPort l) != 0

/-- One quantum of 512 bit times at a SPEED code, in 1/100 ns. -/
def quantumOf (speed : Nat) : Nat :=
  match speed with
  | 1 => 5120 | 2 => 2048 | 3 => 512 | 4 => 2048 | _ => 51200

/-- What one link holds beside its registers. -/
def State.linkAt (s : State) (l : Nat) : Link := s.links.getD l Link.reset
/-- Change what one link holds beside its registers. -/
def State.modLink (s : State) (l : Nat) (f : Link → Link) : State := { s with links := s.links.modify l f }
/-- The device is in Dormant: only the wake detector listens (R386). -/
def State.dormant (s : State) : Bool := s.power == 0
/-- The link is up. -/
def State.linkUp (s : State) (l : Nat) : Bool := s.flag F.NL_STAT_LINK l
/-- The MAC address of a link (R371), as a number of 48 bits. -/
def State.linkMac (s : State) (l : Nat) : Nat := s.get R.NL_MAC_LO l + (s.get R.NL_MAC_HI l) % 65536 * 2 ^ 32

/-! ## The Ethernet check sequence -/

/-- The frame check sequence of IEEE 802.3, in the reflected form whose bytes go out lowest first. -/
def etherFcs (bs : List Nat) : Nat := crcSeeded (crcAlgOf 1) 0xFFFFFFFF bs
/-- c of R378 for an address: the coefficient of x^31 is bit 31. -/
def macHash (mac : Nat) : Nat := bitReverse 32 (etherFcs (beBytes 6 mac))
/-- The hash bin of an address (R378). -/
def macBin (mac : Nat) : Nat := macHash mac / 2 ^ 23

/-! ## Sending under flow control (R380 to R382) -/

/-- A frame of a priority is held by PAUSE or PFC. -/
def State.txHeld (s : State) (l prio : Nat) : Bool :=
  let k := s.linkAt l
  decide (k.ignoreUntil ≤ s.uptime) &&
  ((s.flag F.NL_CTL_PAUSE_EN l && decide (s.uptime < k.pauseUntil)) ||
   (bitAt (s.get F.NL_CTL_PFC_EN l) prio && decide (s.uptime < k.pfcUntil.getD prio 0)))

/-- Priorities held, as a mask. -/
def State.heldMask (s : State) (l : Nat) : Nat :=
  ((List.range 8).map (fun p => if s.txHeld l p then 2 ^ p else 0)).sum

/-- A frame leaves the link: recorded and counted (R387). A frame shorter than 64 bytes with its FCS is padded. -/
def State.emitFrame (s : State) (l : Nat) (bytes : List Nat) : State :=
  ((s.emit (.ether l bytes)).add64 R.NL_TX_FRAMES_LO 1 l).add64 R.NL_TX_BYTES_LO (max 64 (bytes.length + 4)) l

/-- The end of the hold known so far on a link. -/
def State.holdEnd (s : State) (l : Nat) : Nat :=
  let k := s.linkAt l
  max (if s.flag F.NL_CTL_PAUSE_EN l then k.pauseUntil else 0)
    (((List.range 8).map (fun p => if bitAt (s.get F.NL_CTL_PFC_EN l) p then k.pfcUntil.getD p 0 else 0)).foldl max 0)

/-- The device time at which the latest hold of a link ended: now, or earlier where the hold was over before now. -/
def State.releasedAt (s : State) (l : Nat) : Nat :=
  let e := if s.uptime < (s.linkAt l).ignoreUntil then s.uptime else min s.uptime (s.holdEnd l)
  s.now - (s.uptime - e) * 65536

/-- The copy of a part that waits on the other port of the ring is no longer the only one. -/
def State.markTwin (s : State) (l : Nat) (p : TxPart) : State :=
  s.modLink (if l % 2 = 0 then l + 1 else l - 1) (fun k => { k with queue := k.queue.map (fun f =>
    if f.part.any (fun q => q.frame == p.frame && q.endpoint == p.endpoint && q.part == p.part) then
      { f with part := some { p with twin := true } } else f) })

/-- Send the waiting frames that no hold keeps back, in order. A DATA frame of frame n whose E(n) has passed does not leave
(R23): it waits to be cut. -/
def State.flushQueue (s : State) (l : Nat) : State :=
  let q := (s.linkAt l).queue
  let at_ := s.releasedAt l
  let stays (f : TxWait) : Bool := s.txHeld l f.prio || f.part.any (fun p => decide (p.by_ < at_))
  (s.modLink l (fun k => { k with queue := q.filter stays })).each (q.filter (fun f => !stays f)) (fun f t =>
    if t.linkUp l then
      let u := t.emitFrame l f.bytes
      match f.part with
      | some p => u.markTwin l p
      | none => u
    else t)

/-- Bring a link up to the present: a hold that has begun or ended is shown, its time is added to NL_PAUSE_US, and what
it kept back is sent. -/
def State.settleLink (s : State) (l : Nat) : State :=
  let k := s.linkAt l
  let now := decide (s.heldMask l ≠ 0)
  let s1 := match k.heldFrom, now with
    | none, true => (s.modLink l (fun x => { x with heldFrom := some s.uptime })).putFlag F.NL_STAT_PAUSED true l
    | some t, false =>
      let e := if k.ignoreUntil ≤ s.uptime then max t (min s.uptime (s.holdEnd l)) else s.uptime
      ((s.modLink l (fun x => { x with heldFrom := none })).putFlag F.NL_STAT_PAUSED false l).add R.NL_PAUSE_US ((e - t) / 1000) l
    | _, _ => s
  if now && k.queue.isEmpty then s1 else s1.flushQueue l

/-- Bytes of a frame on the wire, FCS included. -/
def wireLen (bytes : List Nat) : Nat := max 64 (bytes.length + 4)

/-- What becomes of a frame given to a link: it leaves, waits, is dropped by the full queue, or finds the link down. -/
inductive TxFate where
  | sent | waits | dropped | down
  deriving DecidableEq, Repr

/-- Send a frame of a priority on a link: at once, or into the 256 KiB queue while it is held, or dropped and counted
(R381). On a link that is down nothing is sent. `part` is the part of an endpoint's frame that a DATA frame carries. -/
def State.txSend (s : State) (l prio : Nat) (bytes : List Nat) (part : Option TxPart) : State × TxFate :=
  let s1 := s.settleLink l
  if s1.linkUp l = false then (s1, .down)
  else if s1.txHeld l prio then
    let used := ((s1.linkAt l).queue.map (fun f => wireLen f.bytes)).sum
    if used + wireLen bytes ≤ 262144 then
      (s1.modLink l (fun k => { k with queue := k.queue ++ [{ prio := prio, bytes := bytes, part := part }] }), .waits)
    else
      (((s1.bump R.NL_TX_DROP l).raise F.NET_EVT_TX_DROP).tallyLimited (0x0D080000 + l) oneSecond 0x0D08 (fun n => [l, n]), .dropped)
  else (s1.emitFrame l bytes, .sent)

/-- Send a frame of a priority on a link. The Boolean says whether the frame was dropped by the queue. -/
def State.txFrameD (s : State) (l prio : Nat) (bytes : List Nat) : State × Bool :=
  let q := s.txSend l prio bytes none
  (q.1, decide (q.2 = .dropped))

/-- Send a frame of a priority on a link. -/
def State.txFrame (s : State) (l prio : Nat) (bytes : List Nat) : State := (s.txFrameD l prio bytes).1

/-! ## IPv4, UDP and ARP (R371, R372) -/

/-- The Internet checksum of bytes. -/
def inetSum (bs : List Nat) : Nat :=
  let rec words : List Nat → Nat
    | a :: b :: r => a * 256 + b + words r
    | [a] => a * 256
    | [] => 0
  let fold (x : Nat) : Nat := x % 65536 + x / 65536
  65535 - fold (fold (fold (words bs)))

/-- An Ethernet frame of an EtherType. -/
def etherFrame (dst src etype : Nat) (payload : List Nat) : List Nat :=
  beBytes 6 dst ++ beBytes 6 src ++ beBytes 2 etype ++ payload

/-- An IPv4 packet (RFC 791, identification 0, time to live 64: PRESUMED). -/
def ipPacket (src dst proto : Nat) (payload : List Nat) : List Nat :=
  let head (sum : Nat) : List Nat :=
    [0x45, 0] ++ beBytes 2 (20 + payload.length) ++ [0, 0, 0x40, 0, 64, proto] ++ beBytes 2 sum ++ beBytes 4 src ++ beBytes 4 dst
  head (inetSum (head 0)) ++ payload

/-- A UDP datagram (RFC 768) with its checksum. -/
def udpDatagram (src dst sport dport : Nat) (payload : List Nat) : List Nat :=
  let n := 8 + payload.length
  let head (sum : Nat) : List Nat := beBytes 2 sport ++ beBytes 2 dport ++ beBytes 2 n ++ beBytes 2 sum
  let c := inetSum (beBytes 4 src ++ beBytes 4 dst ++ [0, 17] ++ beBytes 2 n ++ head 0 ++ payload)
  head (if c = 0 then 65535 else c) ++ payload

/-- A group's MAC address: 01-00-5E and the low 23 bits of the group. -/
def groupMac (group : Nat) : Nat := 0x01005E000000 + group % 2 ^ 23

/-- An address is an IPv4 multicast group. -/
def isGroup (ip : Nat) : Bool := ip / 2 ^ 28 == 0xE

/-- The next hop of a destination on a link: the destination itself on the link's prefix, else the gateway. -/
def State.nextHop (s : State) (l dst : Nat) : Nat :=
  let p := min 32 (s.get R.NL_PREFIX l % 64)
  let unit := 2 ^ (32 - p)
  if dst / unit = s.get R.NL_IP l / unit then dst else s.get R.NL_GW l

/-- Send an ARP request for a next hop. -/
def State.sendArp (s : State) (l ip : Nat) : State :=
  s.txFrame l 0 (etherFrame 0xFFFFFFFFFFFF (s.linkMac l) 0x0806
    ([0, 1, 8, 0, 6, 4, 0, 1] ++ beBytes 6 (s.linkMac l) ++ beBytes 4 (s.get R.NL_IP l) ++ beBytes 6 0 ++ beBytes 4 ip))

/-- A frame that finds no ARP entry is discarded and counted; the first asks at once, and so does the first after a second in which
none came (R372). -/
def State.arpMiss (s : State) (l ip : Nat) : State :=
  let s1 := s.bump R.NL_ARP_MISS l
  let keeps (w : ArpWait) : Bool := w.ip == ip && w.drops.any (fun t => decide (s.uptime < t + oneSecond))
  if (s1.linkAt l).arpWait.any keeps then
    s1.modLink l (fun k => { k with arpWait := k.arpWait.map (fun w => if w.ip == ip then
      { w with drops := w.drops.filter (fun t => decide (s.uptime < t + oneSecond)) ++ [s.uptime] } else w) })
  else
    let w : ArpWait := { ip := ip, since := s.uptime, asked := s.uptime, drops := [s.uptime], unresolved := false }
    (s1.modLink l (fun k => { k with arpWait := k.arpWait.filter (fun x => x.ip != ip) ++ [w] })).sendArp l ip

/-- An Ethernet frame with an 802.1Q tag of a priority and a VLAN, or with none. -/
def taggedFrame (tag : Option (Nat × Nat)) (dst src etype : Nat) (payload : List Nat) : List Nat :=
  match tag with
  | none => etherFrame dst src etype payload
  | some (pcp, vid) => etherFrame dst src 0x8100 (beBytes 2 (pcp * 8192 + vid) ++ beBytes 2 etype ++ payload)

/-- What became of a packet: sent or queued, dropped by the queue or by a link that is down, or without a destination
(no address of its own, or an unresolved next hop). -/
inductive SendResult where
  | sent | dropped | unresolved
  deriving DecidableEq, Repr

/-- Send an IPv4 packet on a link, tagged or not; a link without an address sends none (R371). -/
def State.sendIpTag (s : State) (tag : Option (Nat × Nat)) (l dst proto : Nat) (payload : List Nat) : State × SendResult :=
  let src := s.get R.NL_IP l
  if src = 0 then (s, .unresolved)
  else
    let prio := (tag.map Prod.fst).getD 0
    let go (mac : Nat) : State × SendResult :=
      let q := s.txFrameD l prio (taggedFrame tag mac (s.linkMac l) 0x0800 (ipPacket src dst proto payload))
      (q.1, if q.2 || !s.linkUp l then .dropped else .sent)
    if isGroup dst then go (groupMac dst)
    else if dst = 0xFFFFFFFF then go 0xFFFFFFFFFFFF
    else
      let hop := s.nextHop l dst
      match (s.linkAt l).arp.find? (fun a => a.ip == hop && decide (s.uptime < a.until_)) with
      | some a => go a.mac
      | none => (s.arpMiss l hop, .unresolved)

/-- Send an IPv4 packet on a link. The Boolean says whether it was queued or sent. -/
def State.sendIp (s : State) (l dst proto : Nat) (payload : List Nat) : State × Bool :=
  let q := s.sendIpTag none l dst proto payload
  (q.1, decide (q.2 = .sent))

/-- Send a UDP datagram on a link. -/
def State.sendUdp (s : State) (l dst sport dport : Nat) (payload : List Nat) : State :=
  (s.sendIp l dst 17 (udpDatagram (s.get R.NL_IP l) dst sport dport payload)).1

/-! ## The Strainer (R156, R376 to R379) -/

/-- Index of an exact-match entry in the registers. -/
def exactIx (l e : Nat) : Nat := 128 * l + e
/-- OWNER of an entry: 0 free, 1 device, 2 host. -/
def State.exactOwner (s : State) (l e : Nat) : Nat := s.get F.NS_EXACT_HI_OWNER (exactIx l e)
/-- Store an entry. What it passes is kept apart from its registers, for a write of _LO alone does not act (R377). -/
def State.setExact (s : State) (l e mac owner : Nat) (valid : Bool) : State :=
  let i := exactIx l e
  let t := s.modLink l (fun k => { k with exact := k.exact.filter (fun q => q.1 != e) ++ (if valid then [(e, mac)] else []) })
  (((t.put R.NS_EXACT_LO (mac % 2 ^ 32) i).put F.NS_EXACT_HI_ADDR_HI (mac / 2 ^ 32) i).putFlag F.NS_EXACT_HI_VALID valid i).put
    F.NS_EXACT_HI_OWNER owner i

/-- Index of a bin word of a link. -/
def binIx (l bin : Nat) : Nat := 256 * l + bin / 32
/-- A bin is open: the device or host software holds it (R379). -/
def State.binOpen (s : State) (l bin : Nat) : Bool :=
  bitAt (s.get R.NS_BINS (binIx l bin)) (bin % 32) || bitAt (s.get R.NS_DEVBINS (binIx l bin)) (bin % 32)

/-- Take a stream's group into a link's Strainer (R156, R377): the lowest free exact entry, else its hash bin. The Boolean
says that a bin was needed. -/
def State.joinMac (s : State) (l stream mac : Nat) : State × Bool :=
  match (List.range 64).find? (fun e => s.exactOwner l e == 0) with
  | some e => ((s.setExact l e mac 1 true).modLink l (fun k => { k with joins := k.joins ++ [⟨stream, mac, some e⟩] }), false)
  | none =>
    let b := macBin mac
    let i := binIx l b
    ((s.put R.NS_DEVBINS (s.get R.NS_DEVBINS i ||| 2 ^ (b % 32)) i).modLink l (fun k =>
      { k with joins := k.joins ++ [⟨stream, mac, none⟩] }), true)

/-- Let a stream's group go (R156): its own entry is freed, or its bin closed if no other group of the link uses it. -/
def State.leaveMac (s : State) (l stream mac : Nat) : State :=
  match (s.linkAt l).joins.find? (fun j => j.stream == stream && j.mac == mac) with
  | none => s
  | some j =>
    let s1 := s.modLink l (fun k => { k with joins := k.joins.erase j })
    match j.entry with
    | some e => s1.setExact l e 0 0 false
    | none =>
      let b := macBin mac
      let i := binIx l b
      if (s1.linkAt l).joins.any (fun q => q.entry.isNone && macBin q.mac == b) then s1
      else s1.put R.NS_DEVBINS (s1.get R.NS_DEVBINS i - (if bitAt (s1.get R.NS_DEVBINS i) (b % 32) then 2 ^ (b % 32) else 0)) i

/-- Send an IGMP report for a group and source on a link (R155); it takes a frame of 64 bytes. -/
def State.sendIgmp (s : State) (l version : Nat) (leave : Bool) (group source : Nat) : State :=
  if s.get R.NL_IP l = 0 ∨ s.linkUp l = false then s
  else ((s.emit (.igmp l version leave group source)).add64 R.NL_TX_FRAMES_LO 1 l).add64 R.NL_TX_BYTES_LO 64 l

end Sys2Proof.Machine
end

