-- ==== Sys2Proof/Machine/DvlOps.lean ====
section
/-! DEFINITION. DvoreLink (R266 to R299) as shared operations: frames of the device, sending them from both ports of a
ring, the binding of channels to joined endpoints, and the registers of rings and endpoints. -/
namespace Sys2Proof.Machine
open Sys2Proof

/-! ## Rings -/

/-- RING_NO of a RING channel (R270). -/
def Chan.ringNo (c : Chan) : Nat := c.val 0x0401
/-- The running RING channel of a ring. -/
def State.ringChan (s : State) (r : Nat) : Option Chan := (s.running kRing).find? (fun c => c.ringNo == r)
/-- ETHERTYPE of a ring. -/
def Chan.ringEtype (c : Chan) : Nat := c.fld 0x0402 0 2
/-- The ring's frames carry a tag. -/
def Chan.ringTag (c : Chan) : Bool := bitAt (c.fld 0x0402 2 1) 0
/-- PCP of a ring. -/
def Chan.ringPcp (c : Chan) : Nat := c.fld 0x0402 3 1
/-- VID of a ring. -/
def Chan.ringVid (c : Chan) : Nat := c.fld 0x0402 4 2
/-- TIME_US, HOLD_MS and LOSS_HOLD of a ring (R270). -/
def Chan.timeUs (c : Chan) : Nat := c.fld 0x0403 0 2
def Chan.holdMs (c : Chan) : Nat := c.fld 0x0403 2 2
def Chan.lossHold (c : Chan) : Nat := c.fld 0x0403 4 2
/-- RATE and BUCKET of a ring. -/
def Chan.telemRate (c : Chan) : Nat := c.fld 0x0404 0 1
def Chan.telemBucket (c : Chan) : Nat := c.fld 0x0404 1 1

/-- What one ring holds beside its registers. -/
def State.ringAt (s : State) (r : Nat) : RingSt := s.dvl.rings.getD r { broken := none, timeStep := false }
/-- Change what one ring holds beside its registers. -/
def State.modRing (s : State) (r : Nat) (f : RingSt → RingSt) : State :=
  { s with dvl := { s.dvl with rings := s.dvl.rings.modify r f } }

/-! ## Frames (R272 to R276) -/

/-- A device time as seconds, nanoseconds and fraction in 12 bytes (R277). -/
def time12 (t : Nat) : List Nat :=
  beBytes 6 (t / 65536 / 1000000000) ++ beBytes 4 (t / 65536 % 1000000000) ++ beBytes 2 (t % 65536)

/-- The kinds of R274. -/
def kindData : Nat := 1
def kindControl : Nat := 2
def kindTime : Nat := 3
def kindHold : Nat := 4
def kindTelemetry : Nat := 5
def kindLink : Nat := 6

/-- Header, body and CRC-32C of a DvoreLink frame (R273, R275). `odd` is DIR. -/
def dvlBytes (kind : Nat) (odd step : Bool) (addr epoch seq : Nat) (body : List Nat) : List Nat :=
  let flags := (if odd then 1 else 0) + (if step then 2 else 0)
  let covered := [16 + kind, flags] ++ beBytes 2 body.length ++ [0, 0] ++ beBytes 2 addr ++ beBytes 4 epoch ++ beBytes 4 seq ++ body
  let seed := 0xFFFFFFFF ^^^ ((addr * 65536) ||| (kind * 4096) ||| seq % 4096)
  covered ++ beBytes 4 (crcSeeded (crcAlgOf 0) seed covered)

/-- The Ethernet frame of a ring's DvoreLink frame (R272). -/
def ringFrame (c : Chan) (src : Nat) (bytes : List Nat) : List Nat :=
  beBytes 6 0x0344564C0000 ++ beBytes 6 src ++
  (if c.ringTag then [0x81, 0] ++ beBytes 2 (c.ringPcp * 8192 + c.ringVid % 4096) else []) ++ beBytes 2 c.ringEtype ++ bytes

/-- The device may send on a ring port: not a Standby, nor in bypass, and the port's quiet time is over (R269). -/
def State.mayRing (s : State) (l : Nat) : Bool :=
  decide (s.role ≠ 2) && !s.red.bypass && decide ((s.linkAt l).quietUntil ≤ s.uptime)

/-- Send a frame from one port of a ring. -/
def State.ringSend (s : State) (c : Chan) (odd : Bool) (kind : Nat) (step : Bool) (addr epoch seq : Nat)
    (body : List Nat) (part : Option TxPart) : State × TxFate :=
  let l := 2 * c.ringNo + (if odd then 1 else 0)
  if s.mayRing l then
    s.txSend l (if c.ringTag then c.ringPcp else 0) (ringFrame c (s.linkMac l) (dvlBytes kind odd step addr epoch seq body)) part
  else (s, .down)

/-- Send a frame from one port of a ring, whatever becomes of it. -/
def State.sendRingPort (s : State) (c : Chan) (odd : Bool) (kind : Nat) (step : Bool) (addr epoch seq : Nat)
    (body : List Nat) : State := (s.ringSend c odd kind step addr epoch seq body none).1

/-- Send a DATA frame from both ports of a ring (R267). The Boolean says that no copy left or waits and one was dropped. -/
def State.sendPart (s : State) (c : Chan) (addr seq : Nat) (body : List Nat) (p : TxPart) : State × Bool :=
  let e := s.get R.DVL_EPOCH
  let a := s.ringSend c false kindData false addr e seq body (some p)
  let b := a.1.ringSend c true kindData false addr e seq body (some { p with twin := decide (a.2 = .sent) })
  let t := if b.2 = .sent ∧ a.2 = .waits then b.1.markTwin (2 * c.ringNo + 1) p else b.1
  (t, (a.2 == .dropped || b.2 == .dropped) && a.2 != .sent && b.2 != .sent && a.2 != .waits && b.2 != .waits)

/-- Send a frame from both ports of a ring (R267). -/
def State.sendRing (s : State) (c : Chan) (kind : Nat) (step : Bool) (addr seq : Nat) (body : List Nat) : State :=
  let e := s.get R.DVL_EPOCH
  (s.sendRingPort c false kind step addr e seq body).sendRingPort c true kind step addr e seq body

/-- The operations of R281. -/
def opRepeat : Nat := 1
def opHold : Nat := 2
def opDark : Nat := 3
def opWindow : Nat := 4
def opGrant : Nat := 5

/-- Send a CONTROL frame (R281). -/
def State.sendControl (s : State) (c : Chan) (addr seq op ptime : Nat) (fields : List Nat) : State :=
  s.sendRing c kindControl false addr seq ([op, 0, 0, 0] ++ time12 ptime ++ fields)

/-- SEQ of the latest frame started (R276). -/
def State.seqNow (s : State) : Nat := s.get R.DVL_SEQ
/-- SEQ of a frame, among the last 256. -/
def State.seqOf (s : State) (n : Nat) : Option Nat := (s.dvl.seqs.find? (fun q => q.2 == n)).map Prod.fst
/-- The frame of a SEQ, among the last 256. -/
def State.frameOfSeq (s : State) (q : Nat) : Option Nat := (s.dvl.seqs.find? (fun p => p.1 == q)).map Prod.snd

/-- SEQ advances at S(n) (R276). -/
def State.advanceSeq (s : State) (n : Nat) : State :=
  let q := (s.seqNow + 1) % 2 ^ 32
  let t := s.put R.DVL_SEQ q
  { t with dvl := { t.dvl with seqs := ((q, n) :: t.dvl.seqs).take 256 } }

/-- A TIME frame of a ring from both ports (R282). -/
def State.sendTime (s : State) (c : Chan) (step : Bool) : State :=
  s.sendRing c kindTime step 0xFFFF s.seqNow (time12 s.now ++ List.replicate 8 0 ++ beBytes 2 c.timeUs ++ [0, 0])

/-- TIME frames with STEP from every running ring port at once (R348, R361). -/
def State.sendSteps (s : State) : State := s.each (s.running kRing) (fun c t => t.sendTime c true)

/-- A HOLD frame of a ring (R289). -/
def State.sendHold (s : State) (c : Chan) (seq cause : Nat) : State :=
  s.sendRing c kindHold false 0xFFFF seq [cause, 0, 0, 0]

/-- The hold notice of R281: one CONTROL HOLD on every running ring. -/
def State.sendHoldNotices (s : State) (seq : Nat) : State :=
  s.each (s.running kRing) (fun c t => t.sendControl c 0xFFFF seq opHold 0 [])

/-! ## Binding (R294) -/

/-- The endpoint that has joined at a position. -/
def State.joinedAt (s : State) (ring pos : Nat) : Option Joined :=
  s.dvl.joined.find? (fun j => j.ring == ring && j.pos == pos)
/-- Change the endpoint at a position. -/
def State.modJoined (s : State) (ring pos : Nat) (f : Joined → Joined) : State :=
  { s with dvl := { s.dvl with joined := s.dvl.joined.map (fun j => if j.ring == ring && j.pos == pos then f j else j) } }

/-- The RING handle, POSITION and SERIAL of an ENDPOINT channel (R271). -/
def Chan.epRing (c : Chan) : Nat := c.fld 0x0501 0 4
def Chan.epPosition (c : Chan) : Nat := c.fld 0x0501 4 2
def Chan.epSerial (c : Chan) : Nat := c.fld 0x0501 8 8

/-- The offset of a zone among channels, in ns; 0 for a null ZONE (R209, R365). -/
def zoneOffset (chans : List Chan) (zone : Nat) : Int :=
  ((chans.find? (fun c => c.kind == kZone && c.handle == zone)).map (fun z => z.sfld 0x0601 0 4)).getD 0

/-- K_z of R29 for an advance in µs, an offset in ns and a period in µs. -/
def buffersNeeded (adv : Nat) (o : Int) (period : Rat) : Nat :=
  let q := (((adv : Int) * 1000 + o : Int) : Rat) / 1000 / period
  3 + (if q ≤ 0 then 0 else q.ceil.toNat)

/-- The running RING channel of an endpoint among channels, and its ring. -/
def ringOf (chans : List Chan) (c : Chan) : Option Chan :=
  chans.find? (fun r => r.kind == kRing && r.handle == c.epRing && decide (r.st = .running))

/-- The first condition of R294 that a joined endpoint fails for a channel: 0 serial, 1 size, 2 depth, 3 buffers. -/
def State.bindFail (s : State) (chans : List Chan) (c : Chan) (j : Joined) : Option Nat :=
  if c.epSerial ≠ 0 ∧ c.epSerial ≠ j.serial then some 0
  else if j.w ≠ c.epW ∨ j.h ≠ c.epH then some 1
  else if j.depthMax < c.epDepth then some 2
  else if j.buffers < buffersNeeded (s.get F.SYS_PIPE_CTL_ADVANCE) (zoneOffset chans c.epZone) (periodUs s.rate) then some 3
  else none

/-- The joined endpoint at a running channel's position, and the condition that it fails. -/
def State.bindOf (s : State) (chans : List Chan) (c : Chan) : Option (Joined × Option Nat) :=
  if c.st ≠ .running then none
  else
    match ringOf chans c with
    | none => none
    | some r => (s.joinedAt r.ringNo c.epPosition).map (fun j => (j, s.bindFail chans c j))

/-- The endpoint that a channel binds: its ring channel and what joined. -/
def State.boundTo (s : State) (chans : List Chan) (c : Chan) : Option (Chan × Joined) :=
  match ringOf chans c, s.bindOf chans c with
  | some r, some (j, none) => some (r, j)
  | _, _ => none

/-- The bound endpoints of a ring among channels. -/
def State.boundOn (s : State) (chans : List Chan) (ring : Nat) : List (Chan × Joined) :=
  (chans.filter (fun c => c.kind == kEndpoint)).filterMap (fun c => match s.boundTo chans c with
    | some (r, j) => if r.ringNo = ring then some (c, j) else none
    | none => none)

/-- The region of an endpoint among channels, running or not. -/
def placeOf (chans : List Chan) (c : Chan) : Option RegionWork :=
  (chans.find? (fun r => r.kind == kRegion && r.handle == c.epRegion)).map regionOf

/-- Wire bytes of an endpoint's frame on its ring (R299). -/
def State.wireBytes (s : State) (chans : List Chan) (ring c : Chan) : Nat :=
  c.epPixels * (pixelSize c.epDepth).1 + c.parts (s.lineBands c (placeOf chans c)) * (if ring.ringTag then 86 else 82)

/-- The DITHERPACK window of R105 in µs. -/
def ditherWindow (rate : Nat) : Rat := periodUs rate - 600 - periodUs rate / 16

/-- The capacity C of a ring (R299). -/
def State.ringCap (s : State) (ring : Nat) : Nat :=
  let rb : Nat := if s.portSpeed (2 * ring) = 1 then 1250 else 3125
  ((rb : Rat) * ditherWindow s.rate * 97 / 100).floor.toNat

/-! ## Discovery records and registers (R298, R301) -/

/-- Address of a discovery record. -/
def discAddr (ring pos : Nat) : Nat := discoveryArea + (ring * 512 + pos - 1) * 64

/-- STATE and HANDLE of a discovery record (R301). -/
def State.writeDisc (s : State) (j : Joined) (st handle : Nat) : State :=
  (s.writeBulk (discAddr j.ring j.pos + 0x20) [st, 0, 0, 0]).writeBulk (discAddr j.ring j.pos + 0x24) (leBytes 4 handle)

/-- REACH of an endpoint: bit 0 even, bit 1 odd. -/
def Joined.reach (j : Joined) : Nat := (if j.even.isSome then 1 else 0) + (if j.odd.isSome then 2 else 0)

/-- Show an ENDPOINT channel's state of binding (R294, R298, R301): E_STAT, and a mismatch, which is reported once as the
channel enters it (DESIGN CHOICE: R294 does not say what another failing endpoint at the position reports). -/
def State.showEndpoint (s : State) (chans : List Chan) (c : Chan) : State :=
  let i := c.index
  let q := s.bindOf chans c
  let st := if c.st ≠ .running then 0 else match q with
    | none => 1
    | some (j, none) => if j.lost then 4 else 2
    | some (_, some _) => 3
  let was := s.get F.E_STAT_STATE i
  let s1 := s.put F.E_STAT_STATE st i
  let s2 := match q with
    | some (j, _) =>
      (((s1.put F.E_STAT_REACH j.reach i).put F.E_STAT_BUFFERS j.buffers i).put F.E_STAT_CAPS j.caps i).put F.E_STAT_MISSED j.missed i
    | none => ((s1.put F.E_STAT_REACH 0 i).put F.E_STAT_BUFFERS 0 i).put F.E_STAT_CAPS 0 i
  let s3 := if st = 2 ∧ was ≠ 2 then s2.noteInput else s2
  let known := s3.dvl.mismatch.contains i
  let rest := s3.dvl.mismatch.filter (· != i)
  let s4 : State := { s3 with dvl := { s3.dvl with mismatch := if st = 3 then i :: rest else rest } }
  match q, known with
  | some (j, some f), false => (s4.raise F.DVL_EVT_MISMATCH).tally 0x0901 [j.ring, j.pos, c.handle, f]
  | _, _ => s4

/-- The first data frame of a frame has been sent. -/
def State.dataSent (s : State) (n : Nat) : Bool := (s.frameWork n).any (fun w => decide (0 < w.bandsSent))

/-- The CAUSE and SEQ of the HOLD frames that are due (R281, R289): Hold requested or automatic, and from B(m - 1) to the
first data frame of the next frame started, a rate change or a step. -/
def State.holdDue (s : State) : Option (Nat × Nat) :=
  let seq (n : Nat) : Nat := (s.seqOf n).getD s.seqNow
  if s.power = 2 then some (if s.get F.SYS_MODE_STAT_HOLD_CAUSE = 2 then 2 else 1, seq s.sys.heldFrame)
  else if s.power ≠ 3 then none
  else
    match s.sys.rateChg, s.tim.plan with
    | some k, _ => if boundaryOf k.oldRate k.last ≤ s.now ∧ s.dataSent k.first = false then some (3, seq k.last) else none
    | none, some p => if (p.done ∨ s.bAt p.last ≤ s.now) ∧ s.dataSent p.first = false then some (4, seq p.last) else none
    | none, none => none

/-- A ring is sending, dark or holding (R301): 1 in Warm, 3 in Hold or while endpoints hold, 2 in Show. -/
def State.ringState (s : State) : Nat :=
  match s.power with
  | 1 => 1
  | 2 => 3
  | 3 => if s.holdDue.isSome then 3 else 2
  | _ => 0

/-- Show STATE and HANDLE of a joined endpoint's discovery record (R294, R298, R301). -/
def State.showDisc (s : State) (chans : List Chan) (j : Joined) : State :=
  let bound := chans.find? (fun c => c.kind == kEndpoint && match s.boundTo chans c with
    | some (r, x) => r.ringNo == j.ring && x.pos == j.pos
    | none => false)
  s.writeDisc j (if j.lost then 3 else if bound.isSome then 2 else 1) ((bound.map Chan.handle).getD 0)

/-- The chain length learnt for a ring (R292). -/
def State.chainLen (s : State) (r : Nat) : Nat := s.get F.RG_STAT_LENGTH r

/-- Positions that a run from one end of the chain reaches without a gap. -/
def reachRun (reached : Nat → Bool) (order : List Nat) : List Nat := order.takeWhile reached

/-- Show a ring's reach and judge its breaks (R298). -/
def State.showReach (s : State) (chans : List Chan) (r : Nat) : State :=
  let js := s.dvl.joined.filter (fun j => j.ring == r)
  let m := max (s.chainLen r) ((js.map Joined.pos).foldl max 0)
  let has (odd : Bool) (p : Nat) : Bool := js.any (fun j => j.pos == p && (if odd then j.odd.isSome else j.even.isSome))
  let up := (List.range m).map (fun k => k + 1)
  let le := ((reachRun (has false) up).getLast?).getD 0
  let fo := ((reachRun (has true) up.reverse).getLast?).getD 0
  let s1 := (s.put F.RG_REACH_LAST_EVEN le r).put F.RG_REACH_FIRST_ODD fo r
  let bound := s1.boundOn chans r
  let one := bound.any (fun q => q.2.reach == 1 || q.2.reach == 2)
  let all := bound.all (fun q => q.2.reach == 3)
  match (s1.ringAt r).broken with
  | none =>
    if one then
      (((s1.modRing r (fun x => { x with broken := some s.uptime })).putFlag F.RG_REACH_BROKEN true r).raise F.DVL_EVT_BREAK).tally
        0x0903 [r, le, fo]
    else s1
  | some t =>
    if all then
      (((s1.modRing r (fun x => { x with broken := none })).putFlag F.RG_REACH_BROKEN false r).raise F.DVL_EVT_RESTORED).tally
        0x0904 [r, (s.uptime - t) / 1000000]
    else s1

/-- Show a ring's registers that follow from the channels and the links. -/
def State.showRing (s : State) (chans : List Chan) (r : Nat) : State :=
  let ch := chans.find? (fun c => c.kind == kRing && c.ringNo == r && decide (c.st = .running))
  let s1 := ((s.put F.RG_STAT_STATE (if ch.isSome then s.ringState else 0) r).putFlag F.RG_STAT_EVEN_UP
    (s.linkUp (2 * r)) r).putFlag F.RG_STAT_ODD_UP (s.linkUp (2 * r + 1)) r
  match ch with
  | some c =>
    let bytes := ((s1.boundOn chans r).map (fun q => s1.wireBytes chans c q.1)).sum
    (s1.put R.RG_BYTES bytes r).put R.RG_CAP (s1.ringCap r) r
  | none => (s1.put R.RG_BYTES 0 r).put R.RG_CAP 0 r

/-- Bring every register of DvoreLink up to date with the latched channels, the links and the joins. -/
def State.refreshDvl (s : State) : State :=
  let chans := s.cmd.latched
  let s1 := s.each (chans.filter (fun c => c.kind == kEndpoint)) (fun c t => t.showEndpoint chans c)
  let s2 := (s1.each s1.dvl.joined (fun j t => t.showDisc chans j)).each (List.range 8) (fun r t =>
    (t.showRing chans r).showReach chans r)
  let bound := (chans.filter (fun c => c.kind == kEndpoint && (s2.boundTo chans c).isSome)).length
  let rings := (chans.filter (fun c => c.kind == kRing && decide (c.st = .running))).length
  ((s2.put F.DVL_STAT_RINGS rings).put F.DVL_STAT_BOUND bound).putFlag F.DVL_STAT_MUTED (decide (s.role = 2))

end Sys2Proof.Machine
end

