-- ==== Sys2Proof/Machine/Governor.lean ====
section
/-! DEFINITION. The governor (R245 to R265): the forecast of a frame, its fallback, the model update, type loads, and the
thermal fit. -/
namespace Sys2Proof.Machine
open Sys2Proof

/-! ## What the governor keeps -/

/-- GOV_AMBIENT in °C. -/
def State.ambient (s : State) : Rat := mkRat (toSigned 16 (s.get F.GOV_AMBIENT_AMBIENT)) 16

/-- The thermal state that an endpoint starts from (R249, R253). -/
def Thermal.start (amb : Rat) : Thermal :=
  { frame := 0, tb := amb, tj := amb, tbOpen := amb, current := 0, heat := 0, held := false, cor := 0 }

/-- What the governor keeps of a new endpoint (R249, R253). -/
def GovEp.fresh (i : Nat) (amb : Rat) (up : Nat) : GovEp :=
  { index := i, states := [Thermal.start amb], correction := 0, sigma := 1, delta := 0, fitNext := none, lastH := identityH, lastEps := unitEps, reports := [], lastReport := up }

/-- What the governor keeps of an endpoint. -/
def State.govEp (s : State) (i : Nat) : GovEp :=
  (s.gov.eps.find? (fun g => g.index == i)).getD (GovEp.fresh i s.ambient s.uptime)

/-- What the governor keeps of an endpoint for the latest frame forecast: none where it took no part in it (R256, R260). -/
def State.lastFlow (s : State) (i : Nat) : Option Thermal :=
  (s.govEp i).states.head?.filter (fun x => s.gov.last == some x.frame)

/-- The endpoint's current in the frame before (R256): 0 where it was dark. -/
def State.prevCurrent (s : State) (i : Nat) : Rat := ((s.lastFlow i).map Thermal.current).getD 0

/-- In Warm the endpoints are dark and nothing is forecast: no frame before limits the next (R44, R260). -/
def State.governorRest (s : State) (power : Nat) : State :=
  if power = 1 then { s with gov := { s.gov with last := none } } else s

/-- Replace what the governor keeps of an endpoint. -/
def State.setGovEp (s : State) (g : GovEp) : State :=
  { s with gov := { s.gov with eps := s.gov.eps.filter (fun q => q.index != g.index) ++ [g] } }

/-- What the governor keeps of a feed. -/
def State.govFeed (s : State) (i : Nat) : GovFeed :=
  (s.gov.feeds.find? (fun g => g.index == i)).getD { index := i, beta := 1, limited := 0, deepest := 0 }

/-- Replace what the governor keeps of a feed. -/
def State.setGovFeed (s : State) (g : GovFeed) : State :=
  { s with gov := { s.gov with feeds := s.gov.feeds.filter (fun q => q.index != g.index) ++ [g] } }

/-- The type of an endpoint (R248). -/
def State.tileType (s : State) (c : Chan) : Option TileType := s.gov.types.find? (fun t => t.type == c.val 0x0520)

/-- The type of an endpoint, if it has the THERM fields. -/
def State.thermType (s : State) (c : Chan) : Option TileType :=
  match s.tileType c with
  | some t => if t.therm then some t else none
  | none => none

/-- I_IDLE in mA and A_i in nA of an endpoint, 0 without ELEC. -/
def State.elecOf (s : State) (c : Chan) : Rat × List Nat :=
  match s.tileType c with
  | some t => if t.elec then ((t.idle : Rat), t.full) else (0, [0, 0, 0])
  | none => (0, [0, 0, 0])

/-- The frame period in seconds. -/
def State.periodS (s : State) : Rat := periodUs s.rate / 1000000

/-! ## The forecast (R245, R250, R255 to R257) -/

/-- The colour of the 32 × 32 canvas cell (cx, cy) of a region: the layers' block means blended through placement,
order, mode and opacity; the block under the cell's centre stands for a layer (DESIGN CHOICE). -/
def State.cellColour (s : State) (w : FrameWork) (r : RegionWork) (cx cy : Nat) : Px :=
  let x : Int := r.x + (32 * cx + 16 : Nat)
  let y : Int := r.y + (32 * cy + 16 : Nat)
  w.layers.foldl (fun d l =>
    let c := l.chan
    if l.shows = .nothing then d
    else if c.destX ≤ x ∧ x < c.destX + c.destW ∧ c.destY ≤ y ∧ y < c.destY + c.destH then
      let live := s.live c
      let p : Px := match l.shows, l.pick with
        | .fill, _ => live.colour 0x0105 0 w.skim
        | .substitute, _ => live.colour 0x0106 4 w.skim
        | .picture, some k =>
          (match k.base with
           | none => Px.clear
           | some base =>
             let cr := c.crop k.width k.height
             let sz := orientedSize c.orient cr.2.2.1 cr.2.2.2
             let dx := (x - c.destX).toNat
             let dy := (y - c.destY).toNat
             let u := if c.scaled then min (sz.1 - 1) ((2 * dx + 1) * sz.1 / (2 * c.destW)) else dx
             let v := if c.scaled then min (sz.2 - 1) ((2 * dy + 1) * sz.2 / (2 * c.destH)) else dy
             if u < sz.1 ∧ v < sz.2 then
               let q := orientPixel c.orient cr.2.2.1 cr.2.2.2 u v
               let px := cr.1 + q.1
               let py := cr.2.1 + q.2
               if px < k.width ∧ py < k.height then
                 (s.pictureMean base k.width k.height k.skim (px / 32) (py / 32)).map (recode k.skim w.skim)
               else Px.clear
             else Px.clear)
        | _, _ => Px.clear
      blendPixel live w.skim d p
    else d) Px.clear

/-- The destination that a span of crop pixels [a, b) × [p, q) takes (R104, R177): left, top, right, bottom, the last two
past the end. -/
def blockBox (c : Chan) (cw ch a b p q : Nat) : Int × Int × Int × Int :=
  let o := orientedSize c.orient cw ch
  let back := if c.orient = 1 then 3 else if c.orient = 3 then 1 else c.orient
  let m := orientPixel back o.1 o.2 a p
  let n := orientPixel back o.1 o.2 (b - 1) (q - 1)
  let put (len size k : Nat) : Nat := if c.scaled then k * len / max 1 size else k
  let up (len size k : Nat) : Nat := if c.scaled then ceilDiv (k * len) (max 1 size) else k
  (c.destX + (put c.destW o.1 (min m.1 n.1) : Nat), c.destY + (put c.destH o.2 (min m.2 n.2) : Nat),
   c.destX + (up c.destW o.1 (max m.1 n.1 + 1) : Nat), c.destY + (up c.destH o.2 (max m.2 n.2 + 1) : Nat))

/-- Block-layer visits of a frame (R104): for each layer that shows a picture, the 32 × 32 blocks that its crop spans and
whose part of the destination lies in a region of the frame. -/
def FrameWork.visits (w : FrameWork) : Nat :=
  (w.layers.map (fun l => match l.shows, l.pick with
    | .picture, some k =>
      let cr := l.chan.crop k.width k.height
      ((List.range (ceilDiv (cr.1 + cr.2.2.1) 32)).map (fun bx => ((List.range (ceilDiv (cr.2.1 + cr.2.2.2) 32)).filter (fun y =>
        let a := max cr.1 (32 * bx)
        let b := min (cr.1 + cr.2.2.1) (32 * bx + 32)
        let p := max cr.2.1 (32 * y)
        let q := min (cr.2.1 + cr.2.2.2) (32 * y + 32)
        let d := blockBox l.chan cr.2.2.1 cr.2.2.2 (a - cr.1) (b - cr.1) (p - cr.2.1) (q - cr.2.1)
        decide (a < b) && decide (p < q) && w.regions.any (fun r => decide (d.1 < r.x + r.w) && decide (r.x < d.2.2.1) &&
          decide (d.2.1 < r.y + r.h) && decide (r.y < d.2.2.2)))).length)).sum
    | _, _ => 0)).sum

/-- The forecast's cost in GOVERN clocks (R104): v/2 + 32 × endpoints + 64 × feeds. -/
def State.forecastClocks (s : State) (w : FrameWork) : Rat :=
  mkRat w.visits 2 + (32 * (s.running kEndpoint).length + 64 * (s.running kFeed).length : Nat)

/-- v̄ of an endpoint (R245, step 1), in Cream codes: each sample counts with its cell, samples outside with 0. -/
def State.meanCanvas (s : State) (w : FrameWork) (c : Chan) : List Rat :=
  match w.epRegion c with
  | none => [0, 0, 0]
  | some r =>
    let cells := (List.range r.bands).map (fun cy => (List.range (ceilDiv r.w 32)).map (fun cx => s.cellColour w r cx cy))
    let samples := (List.range c.epH).flatMap (fun y => (List.range c.epW).filterMap (fun x =>
      ((s.epSample c x y).bind (inRegion r)).map (fun q => ((cells.getD (q.2 / 32) []).getD (q.1 / 32) Px.clear))))
    let k := if w.skim then 16 else 1
    let mean (f : Px → Nat) : Rat := mkRat (k * (samples.map f).sum : Nat) (max 1 c.epPixels)
    [mean Px.r, mean Px.g, mean Px.b]

/-- x of R250 for a temperature, before it is clamped. -/
def tablePos (t : TileType) (theta : Rat) : Rat := (theta - mkRat t.theta0 16) / mkRat t.dTheta 16

/-- Matrix and efficiencies at a temperature (R250), and whether x was clamped. -/
def termsAt (t : TileType) (theta : Rat) : List Int × List Nat × Bool :=
  let x0 := tablePos t theta
  let x := if x0 < 0 then 0 else if 15 < x0 then 15 else x0
  let j := min x.floor.toNat 14
  let f := x - (j : Rat)
  let a := t.points.getD j ([], [])
  let b := t.points.getD (j + 1) ([], [])
  let mix (p q : Int) : Int := roundHalfUp ((p : Rat) + f * ((q - p : Int) : Rat))
  ((List.range 9).map (fun k => mix (a.1.getD k 0) (b.1.getD k 0)),
   (List.range 3).map (fun k => (mix (a.2.getD k 0) (b.2.getD k 0)).toNat), decide (x ≠ x0))

/-- H and ε of an endpoint for a frame, with the flags of R251 (CLAMPED, NO_TYPE). -/
def State.epTerms (s : State) (c : Chan) : List Int × List Nat × Nat :=
  match s.thermType c with
  | none => (identityH, unitEps, 4)
  | some t =>
    let g := s.govEp c.index
    let q := termsAt t (((g.states.head?).map Thermal.tj).getD s.ambient + g.correction)
    (q.1, q.2.1, if q.2.2 then 2 else 0)

/-- Σ A_i × P × u_i in mA for drive fractions in 1/65,535 (R255). -/
def drawOf (full : List Nat) (pixels : Nat) (codes : List Nat) : Rat :=
  mkRat (((List.range 3).map (fun i => full.getD i 0 * pixels * codes.getD i 0)).sum : Nat) (65535 * 1000000)

/-- The drive codes u_i × 65,535 of the forecast (R255). -/
def State.forecastCodes (s : State) (w : FrameWork) (c : Chan) (h : List Int) : List Nat :=
  let v := s.meanCanvas w c
  let g := s.epGains c.index
  let b : List Int := (List.range 3).map (fun j => roundHalfUp (v.getD j 0 * (g.getD j 16384 : Nat) / 16384))
  (List.range 3).map (fun i => s.curveOut c.epCurve i (sat0 (rndI (rowDot h i b) 16384)).toNat)

/-- An endpoint's part in the forecast: channel, terms and its dynamic draw in mA at full scale and β 1. -/
structure EpDraw where
  chan : Chan
  matrix : List Int
  eps : List Nat
  flags : Nat
  idle : Rat
  draw : Rat

/-- LIMIT's fields of a feed, live (R254): CAP, SLEW, WIN, BASE. -/
def State.feedLimit (s : State) (f : Chan) : Nat × Nat × Nat × Nat :=
  let l := s.live f
  (l.fld 0x0701 0 4, l.fld 0x0701 4 4, l.fld 0x0701 8 4, l.fld 0x0701 12 4)

/-- Δ of a feed in mA (R256). -/
def State.feedDelta (s : State) (f : Chan) : Rat :=
  let l := s.feedLimit f
  mkRat l.2.1 1000 * min ((l.2.2.1 : Nat) : Rat) (periodUs s.rate)

/-- The scale of one feed (R256, R257): p, cause (0 none, 1 cap, 2 slew, 3 overload) and what the forecast found. -/
def State.feedScale (s : State) (f : Chan) (on : List EpDraw) : Nat × Nat × FeedForecast :=
  let l := s.feedLimit f
  let beta := (s.govFeed f.index).beta
  let c0 : Rat := (l.2.2.2 : Nat) + (on.map EpDraw.idle).sum
  let dyn := beta * (on.map EpDraw.draw).sum
  let master := f.val 0x0702
  let prev : Rat := (l.2.2.2 : Nat) + (on.map (fun e => max (s.prevCurrent e.chan.index) e.idle)).sum
  let ramp := prev + s.feedDelta f
  let cap : Rat := (l.1 : Nat)
  let allow := min cap ramp
  let made (p : Nat) : FeedForecast :=
    { index := f.index, p := p, allow := allow, c0 := c0, dyn := dyn, beta := beta, forecast := c0 + (p : Rat) * dyn / 32768 }
  if f.st ≠ .running then (32768, 0, made 32768)
  else
    let p0 : Int := if dyn = 0 then master else min (master : Int) (32768 * (allow - c0) / dyn).floor
    if p0 < 0 then (0, 3, made 0)
    else if p0 < master then (p0.toNat, if cap < ramp then 1 else 2, made p0.toNat)
    else (p0.toNat, 0, made p0.toNat)

/-- Report the scale of a feed (R257, R264, R265). -/
def State.reportFeed (s : State) (n : Nat) (f : Chan) (p cause : Nat) (q : FeedForecast) : State :=
  let master := if f.st = .running then f.val 0x0702 else 32768
  let g := s.govFeed f.index
  let i := f.index
  let units (x : Rat) : Nat := min 65535 (x / 100).floor.toNat
  let s1 := ((s.put F.F_STAT_P p i).putFlag F.F_STAT_LIMITED (decide (p < master)) i).put F.F_STAT_CAUSE cause i
  let s2 := (s1.put F.F_CURRENT_I_PRED (units q.forecast) i).put F.F_CURRENT_I_DEMAND
    (units (q.c0 + (master : Rat) * q.dyn / 32768)) i
  let s3 := s2.put F.F_PEAK_PEAK (max (s2.get F.F_PEAK_PEAK i) (master - p)) i
  let s4 := if cause = 3 then
      ((s3.bump R.F_OVERLOAD_CNT i).raise F.GOV_EVT_OVERLOAD).tally 0x0802
        [f.handle, n, q.c0.floor.toNat, (s.feedLimit f).1]
    else s3
  if p < master then
    let s5 := s4.bump R.F_LIMIT_CNT i
    let s6 := if g.limited = 0 then
        (s5.raise F.GOV_EVT_LIMITED).tallyAtMost 0x08000000 10 oneSecond 0x0800 [f.handle, n, cause, master - p]
      else s5
    s6.setGovFeed { g with limited := g.limited + 1, deepest := max g.deepest (master - p) }
  else if g.limited = 0 then s4
  else
    (s4.tallyAtMost 0x08000000 10 oneSecond 0x0801 [f.handle, g.limited, g.deepest]).setGovFeed
      { g with limited := 0, deepest := 0 }

/-- The heat W of an endpoint for a current in mA (R249): 0 without the THERM fields. -/
def State.heatOf (s : State) (c : Chan) (current : Rat) : Rat :=
  match s.thermType c with
  | some t => mkRat t.heatV 10 * current / 1000
  | none => 0

/-- The state of frame n from that of the frame before, for a current and a heat W (R249, R253), rounded to binary64. Without
the THERM fields the temperatures stay. -/
def State.advanceThermal (s : State) (c : Chan) (prev : Thermal) (n : Nat) (current heat : Rat) (held : Bool) : Thermal :=
  match s.thermType c with
  | none => { prev with frame := n, current := current, heat := heat, held := held, cor := 0 }
  | some t =>
    let g := s.govEp c.index
    let ab := b64 (1 - expRat (-(s.periodS / mkRat t.tauB 10)))
    let aj := b64 (1 - expRat (-(s.periodS / mkRat t.tauJ 10000)))
    let rba := mkRat t.rBa 1024
    let rjb := mkRat t.rJb 1024
    let tb := b64 (prev.tb + ab * (s.ambient + g.delta + g.sigma * rba * heat - prev.tb))
    { frame := n, tb := tb, tj := b64 (prev.tj + aj * (tb + rjb * heat - prev.tj)),
      tbOpen := b64 (prev.tbOpen + ab * (s.ambient + rba * heat - prev.tbOpen)), current := current, heat := heat, held := held,
      cor := 0 }

/-- A telemetry correction is added to a state (R252). -/
def Thermal.correct (x : Thermal) (c : Rat) : Thermal := { x with tb := b64 (x.tb + c), tj := b64 (x.tj + c), cor := x.cor + c }

/-- The latest state of an endpoint. -/
def State.thermalNow (s : State) (i : Nat) : Thermal := ((s.govEp i).states.head?).getD (Thermal.start s.ambient)

/-- Show the thermal state and the fit of an endpoint in its registers (R264). -/
def State.showThermal (s : State) (c : Chan) : State :=
  let g := s.govEp c.index
  let x := s.thermalNow c.index
  let q (v : Rat) : Nat := ofSigned 16 (clampInt (-32768) 32767 (roundHalfUp (v * 16)))
  (((s.put F.EPG_TEMP_TJ (q x.tj) c.index).put F.EPG_TEMP_TB (q x.tb) c.index).put F.EPG_FIT_SIGMA
    (roundHalfUp (g.sigma * 16384)).toNat c.index).put F.EPG_FIT_DELTA
    (ofSigned 12 (roundHalfUp (g.delta * 16))) c.index

/-- Step 5 for one endpoint: the state of frame n from the one before it, for a current in mA. -/
def State.heatEndpoint (s : State) (c : Chan) (n : Nat) (current heat : Rat) (held : Bool) : State :=
  let g := s.govEp c.index
  (s.setGovEp { g with
    states := (s.advanceThermal c (s.thermalNow c.index) n current heat held :: g.states).take 256 }).showThermal c

/-- Step 5 for one endpoint in Hold (R260): its current and its heat W stay those of the held frame, or of a dark endpoint. -/
def State.holdEndpoint (s : State) (c : Chan) (n : Nat) : State :=
  match s.lastFlow c.index with
  | some x => s.heatEndpoint c n x.current x.heat true
  | none => let i := (s.elecOf c).1; s.heatEndpoint c n i (s.heatOf c i) true

/-- Step 7 for the state of frame n among an endpoint's states, newest first: it is advanced again from the frame before, and so
are the held frames that follow it. A later frame that was forecast stays as it is until its own step 7 (R245). -/
def State.reheat (s : State) (c : Chan) (n : Nat) (current heat : Rat) : List Thermal → List Thermal
  | [] => []
  | x :: rest =>
    if x.frame = n then
      (s.advanceThermal c ((rest.head?).getD (Thermal.start s.ambient)) n (max x.current current) heat false).correct x.cor :: rest
    else
      let r := s.reheat c n current heat rest
      match x.held, r.head? with
      | true, some p => (s.advanceThermal c p x.frame p.current p.heat true).correct x.cor :: r
      | _, _ => x :: r

/-- A term record (R251) as bytes. -/
def termBytes (n : Nat) (t : EpTerms) : List Nat :=
  leBytes 2 t.index ++ leBytes 2 t.flags ++ t.matrix.flatMap (fun h => leBytes 2 (ofSigned 16 h)) ++
  t.eps.flatMap (leBytes 2) ++ leBytes 4 n

/-- Write the term records of a frame and latch GOV_TERM_FRAME. -/
def State.writeTerms (s : State) (n : Nat) (ts : List EpTerms) : State :=
  (s.each ts (fun t u => u.writeBulk (termRing + (n % 8) * 131072 + t.index * 32) (termBytes n t))).put64
    R.GOV_TERM_FRAME_LO n

/-- Add the pending telemetry correction of an endpoint to its state (R252), and bring in a pending fit (R253). -/
def State.applyCorrection (s : State) (c : Chan) : State :=
  let g := s.govEp c.index
  let states := match g.states with
    | x :: rest => x.correct g.correction :: rest
    | [] => []
  s.setGovEp { g with states := states, correction := 0 }

/-- The running endpoints of a frame with their draws, for given terms. -/
def State.epDraws (s : State) (w : FrameWork) (full : Bool) (terms : Chan → List Int × List Nat × Nat) : List EpDraw :=
  (w.running kEndpoint).map (fun c =>
    let t := terms c
    let e := s.elecOf c
    let codes := if full then [65535, 65535, 65535] else s.forecastCodes w c t.1
    { chan := c, matrix := t.1, eps := t.2.1, flags := t.2.2, idle := e.1, draw := drawOf e.2 c.epPixels codes })

/-- The forecast of a frame from the draws of its endpoints: scales, thermal states and term records. A STOPPED endpoint's
thermal state goes on with its idle current (DEDUCED: R249 speaks of every endpoint with a THERM type). In Hold nothing is sent,
and the thermal state goes on with the held frame's heat (R54, R260). -/
def State.forecastWith (s : State) (w : FrameWork) (draws : List EpDraw) : State :=
  let n := w.frame
  let held := !w.active
  let feeds := w.chans.filter (fun c => c.kind == kFeed)
  let scaled := feeds.map (fun f => (f, s.feedScale f (draws.filter (fun e => e.chan.epFeed == f.handle))))
  let s1 := s.each scaled (fun q t => t.reportFeed n q.1 q.2.1 q.2.2.1 q.2.2.2)
  let pOf (c : Chan) : Nat := ((scaled.find? (fun q => q.1.handle == c.epFeed)).map (fun q => q.2.1)).getD 32768
  let bOf (c : Chan) : Rat := ((scaled.find? (fun q => q.1.handle == c.epFeed)).map (fun q => q.2.2.2.beta)).getD 1
  let terms := draws.map (fun e => ({ index := e.chan.index, matrix := e.matrix, eps := e.eps, flags := e.flags, p := pOf e.chan } : EpTerms))
  let s2 := s1.each draws (fun e t =>
    let i := e.idle + bOf e.chan * ((pOf e.chan : Nat) : Rat) / 32768 * e.draw
    if held then t.holdEndpoint e.chan n else t.heatEndpoint e.chan n i (t.heatOf e.chan i) false)
  let s3 := s2.each (w.chans.filter (fun c => c.kind == kEndpoint && decide (c.st = .stopped) && (s2.thermType c).isSome)) (fun c t =>
    let i := (t.elecOf c).1
    t.heatEndpoint c n i (t.heatOf c i) held)
  let s4 := s3.each draws (fun e t =>
    let g := t.govEp e.chan.index
    (t.setGovEp { g with lastH := e.matrix, lastEps := e.eps }).putFlag F.EPG_FIT_NO_TYPE (bitAt e.flags 2) e.chan.index)
  let s5 := (s4.writeTerms n terms).put F.GOV_STAT_LIMITED (scaled.filter (fun q =>
    decide (q.1.st = .running ∧ q.2.1 < q.1.val 0x0702))).length
  ({ s5 with gov := { s5.gov with last := some n } } : State).modFrame n (fun x =>
    { x with terms := terms, feeds := scaled.map (fun q => q.2.2.2), forecastDone := true })

/-- A clamped temperature of a frame is flagged, and recorded at most once a minute (R250). -/
def State.noteClamped (s : State) (e : EpDraw) : State :=
  let i := e.chan.index
  let s1 := s.putFlag F.EPG_FIT_CLAMPED (bitAt e.flags 1) i
  if bitAt e.flags 1 then
    let tj := ((s.govEp i).states.head?.map Thermal.tj).getD 0
    s1.tallyLimited (0x08070000 + i) (60 * oneSecond) 0x0807 (fun _ =>
      [e.chan.handle, slotOfInt (roundHalfUp (tj * 16)), e.chan.val 0x0520])
  else s1

/-- A scale or a matrix of a frame that differs from the frame before is a changed input of R55. -/
def State.noteTerms (s : State) (n : Nat) : State :=
  match s.frameWork n, s.frameWork (n - 1) with
  | some w, some v =>
    if w.terms.any (fun t => v.terms.any (fun u => u.index == t.index && (u.p != t.p || u.matrix != t.matrix)))
    then s.noteInput else s
  | _, _ => s

/-- The forecast of a frame has not ended by S(n) + T/16 (R32): the fallback scales, and the matrices of the frame before. An
endpoint that had none has the identity (DESIGN CHOICE). In Warm nothing is forecast (R44). -/
def doForecastLate (n : Nat) (s : State) : State :=
  match s.frameWork n with
  | none => s
  | some w =>
    if w.forecastDone ∨ s.power < 2 then s
    else
      let s1 := s.atTime (s.sAt n + periodOf s.rate / 16)
      let draws := s1.epDraws w true (fun c =>
        let g := s1.govEp c.index
        (g.lastH, g.lastEps, if (s1.thermType c).isNone then 5 else 1))
      let s2 := s1.forecastWith w draws
      let limited := (w.running kFeed).length
      (((s2.putFlag F.SYS_PIPE_STAT_FORECAST_LATE true).bump R.SYS_FORECAST_LATE_CNT).tally 0x0010 [n, limited]).noteTerms n

/-- FORECAST (R245): steps 1 to 6 of a frame, by an engine that carries GOVERN; one that ends after S(n) + T/16 is late. -/
def doForecast (n : Nat) (s : State) : State :=
  match s.frameWork n with
  | none => s
  | some w =>
    if w.forecastDone ∨ s.power < 2 ∨ s.kindServed 5 = false then s
    else if s.sAt n + periodOf s.rate / 16 < s.now then doForecastLate n s
    else
      let s1 := s.each (w.running kEndpoint) (fun c t => t.applyCorrection c)
      let draws := s1.epDraws w false s1.epTerms
      ((s1.each draws (fun e t => t.noteClamped e)).forecastWith w draws).noteTerms n

/-! ## Drive sums and the model update (R222 to R224, R259) -/

/-- The word group that SEPARATE sends GOVERN for an endpoint (R224), as four switch words of 8 bytes. -/
def groupWords (i flags clip : Nat) (post : List Nat) : List Nat :=
  let bytes := leBytes 2 i ++ leBytes 2 flags ++ leBytes 4 clip ++ post.flatMap (leBytes 6) ++ List.replicate 6 0
  (List.range 4).map (fun k => ofLe ((bytes.drop (8 * k)).take 8))

/-- POST of a word group. -/
def groupPost (words : List Nat) : List Nat :=
  let bytes := words.flatMap (leBytes 8)
  (List.range 3).map (fun k => ofLe ((bytes.drop (8 + 6 * k)).take 6))

/-- A word group of frame n reaches GOVERN, which keeps those of the latest frames until step 7 has read them. -/
def State.sendGroup (s : State) (n i : Nat) (words : List Nat) : State :=
  let kept := s.gov.groups.filter (fun q => decide (n ≤ q.1 + 4 ∧ q.1 ≤ n) && !(q.1 == n && q.2.1 == i))
  { s with gov := { s.gov with groups := kept ++ [(n, i, words)] } }

/-- The drive-sum record of an endpoint for a frame (R222, R223): flags, CLIP and POST; none where it is not written or
cannot be read (R451). -/
def State.driveRecord (s : State) (n i : Nat) : Option (Nat × Nat × List Nat) :=
  let a := driveRing + (n % 8) * 196608 + i * 48
  if s.badAt a || s.badAt (a + 47) then none
  else if s.bulkLe (a + 0x2C) 4 = n % 2 ^ 32 ∧ s.bulkLe a 2 = i then
    some (s.bulkLe (a + 2) 2, s.bulkLe (a + 4) 4, (List.range 3).map (fun k => s.bulkLe (a + 0x1A + 6 * k) 6))
  else none

/-- MODEL_UPDATE (R245 step 7, R259): once a frame, currents and heat from its drive sums, and the feed bias. -/
def doModelUpdate (n : Nat) (s : State) : State :=
  match s.frameWork n with
  | none => s
  | some w =>
    if w.updated ∨ w.sumsDone = false ∨ s.kindServed 5 = false then s else
    let known := (w.running kEndpoint).filterMap (fun c => (s.gov.groups.find? (fun q => q.1 == n && q.2.1 == c.index)).map (fun r =>
      let e := s.elecOf c
      let codes := (List.range 3).map (fun i => s.curveOut c.epCurve i (rnd ((groupPost r.2.2).getD i 0) (max 1 c.epPixels)))
      (c, e.1, drawOf e.2 c.epPixels codes)))
    let s1 := s.each known (fun q t =>
      let g := t.govEp q.1.index
      let i := q.2.1 + q.2.2
      if g.states.any (fun x => x.frame == n) then
        (t.setGovEp { g with states := t.reheat q.1 n i (t.heatOf q.1 i) g.states }).showThermal q.1
      else t)
    let s2 := s1.each w.feeds (fun f t =>
      match w.chans.find? (fun c => c.kind == kFeed && c.index == f.index) with
      | none => t
      | some c =>
        let on := known.filter (fun q => q.1.epFeed == c.handle)
        let dynNow := (on.map (fun q => q.2.2)).sum
        let total := f.c0 + dynNow
        let l := t.feedLimit c
        let dynF := (f.p : Rat) * f.dyn / 32768
        let g := t.govFeed c.index
        let t1 := if decide (mkRat l.1 100 < dynF) && decide (0 < f.dyn) then
            let r := dynNow / (dynF / f.beta)
            let b0 := b64 (g.beta + (r - g.beta) / 16)
            let b := if b0 < 1 / 2 then 1 / 2 else if 2 < b0 then 2 else b0
            (((t.setGovFeed { g with beta := b }).put F.F_BETA_BETA (roundHalfUp (b * 16384)).toNat c.index).put F.F_BETA_ERR
              (ofSigned 16 (clampInt (-32768) 32767 (roundHalfUp ((r - b) * 1024)))) c.index).sendMirror n false (.beta c.index b)
          else t
        if c.st = .running ∧ 102 / 100 * f.allow < total then
          ((t1.bump R.F_MISS_CNT c.index).raise F.GOV_EVT_FORECAST_MISS).tallyAtMost 0x08000000 10 oneSecond 0x0803
            [c.handle, n, f.forecast.floor.toNat, total.floor.toNat, f.allow.floor.toNat]
        else t1)
    s2.modFrame n (fun x => { x with updated := true })

/-! ## Type loads (R246, R247) -/

/-- A type record in the Bulk Tank (R246). -/
def State.readType (s : State) (a : Nat) : TileType :=
  let r (o n : Nat) : Nat := s.bulkLe (a + o) n
  { type := r 0 1, elec := bitAt (r 1 1) 0, therm := bitAt (r 1 1) 1, idle := r 2 2, full := [r 4 2, r 6 2, r 8 2],
    heatV := r 0xA 2, rJb := r 0xC 2, tauJ := r 0xE 2, rBa := r 0x10 2, tauB := r 0x12 2, theta0 := toSigned 16 (r 0x14 2),
    dTheta := r 0x16 2,
    points := (List.range 16).map (fun k =>
      ((List.range 9).map (fun j => toSigned 16 (r (0x20 + 24 * k + 2 * j) 2)),
       (List.range 3).map (fun j => r (0x20 + 24 * k + 18 + 2 * j) 2))) }

/-- Reserved bits and bytes of a type record are 0. -/
def State.typeReservedOk (s : State) (a : Nat) : Bool := decide (s.bulkLe (a + 1) 1 < 4) && s.bulkLe (a + 0x18) 8 == 0

/-- The result of a type load and its events (R247). `types` has a bit for each type loaded, as GOV_TYPES has. -/
def State.modelResult (s : State) (types frame status check : Nat) : State :=
  ((((s.put F.GOV_MODEL_STAT_RESULT status).put F.GOV_MODEL_STAT_CHECK check).advance F.GOV_MODEL_STAT_SEQ).raise
    F.GOV_EVT_MODEL_DONE).tally 0x0804 [s.get R.GOV_MODEL_VER, types, frame, status, check]

/-- 5 ms in units of 2^-16 ns. -/
def fiveMs : Nat := 5000000 * 65536

/-- The types that running endpoints naming a FEED use, in force or in a pending commit or cue fire. -/
def State.fedTypes (s : State) : List Nat :=
  (s.cmd.chans.filter (fun c => c.kind == kEndpoint)).flatMap (fun c =>
    let feeds := c.epFeed :: s.pendingValues c.handle 0x0516
    let runs := decide (c.st = .running) || s.pendingEntries.any (fun e => match e.2 with
      | .run h start => h == c.handle && start
      | _ => false)
    if runs && feeds.any (fun f => f != 0) then c.val 0x0520 :: s.pendingValues c.handle 0x0520 else [])

/-- The checks of R247, in order, for the records read. -/
def State.modelChecks (s : State) (a count frame : Nat) (atFrame : Bool) (ts : List TileType) : List (Nat × Bool × Nat) :=
  [(1, s.gov.load.isSome, stBusy), (1, decide (s.role = 2), stNotPermitted),
   (2, a % 64 != 0 || !inUsable a (416 * count) || count == 0 || decide (64 < count), stInconsistent),
   (3, ts.any (fun t => decide (63 < t.type)) || (List.range ts.length).any (fun i => (List.range i).any (fun j =>
       (ts[i]?).map TileType.type == (ts[j]?).map TileType.type)) ||
     (List.range count).any (fun k => !s.typeReservedOk (a + 416 * k)) ||
     ts.any (fun t => decide (t.dTheta < 16) || decide (1600 < t.dTheta) || t.tauJ == 0 || t.tauB == 0), stInconsistent),
   (4, ts.any (fun t => !t.elec && s.fedTypes.contains t.type), stInconsistent),
   (5, atFrame && decide (s.sAt frame < s.now + fiveMs), stTimeout)]

/-- MODEL_LOAD (R247): a write of GOV_MODEL_CTL; with GO a load is checked and accepted or refused. -/
def doModelLoad (value : Nat) (s : State) : State :=
  let s1 := (s.put F.GOV_MODEL_CTL_AT_FRAME (bits value 1 1)).put F.GOV_MODEL_CTL_COUNT (bits value 8 2)
  if bitAt value 0 = false then s1
  else
    let a := s1.get64 R.GOV_MODEL_ADDR_LO
    let count := bits value 8 2
    let ts := (List.range count).map (fun k => s1.readType (a + 416 * k))
    let named := s1.get64 R.GOV_MODEL_FRAME_LO
    let at_ := bitAt value 1
    let f := firstFail (s1.modelChecks a count named at_ ts)
    if f.2 = stOK then
      let k := if at_ then named else s1.firstSFrom (s1.now + fiveMs)
      { s1 with gov := { s1.gov with load := some { frame := k, types := ts } } }
    else s1.modelResult 0 0 f.2 f.1

/-- The checks that a write of GOV_MODEL_CTL would pass now: what a mirroring Active waits to have acknowledged. -/
def State.modelAccepted (s : State) (value : Nat) : Bool :=
  let a := s.get64 R.GOV_MODEL_ADDR_LO
  let count := bits value 8 2
  bitAt value 0 && decide ((firstFail (s.modelChecks a count (s.get64 R.GOV_MODEL_FRAME_LO) (bitAt value 1)
    ((List.range count).map (fun k => s.readType (a + 416 * k))))).2 = stOK)

/-- A pending type load and pending fits take effect at S(n) (R25, R247, R253). -/
def State.applyModels (s : State) (n : Nat) : State :=
  let fitted (g : GovEp) : GovEp := match g.fitNext with
    | some q => { g with sigma := q.1, delta := q.2, fitNext := none }
    | none => g
  let s1 : State := { s with gov := { s.gov with eps := s.gov.eps.map fitted } }
  match s1.gov.load with
  | some l =>
    if l.frame ≤ n then
      let kept := s1.gov.types.filter (fun t => !l.types.any (fun u => u.type == t.type))
      let types := kept ++ l.types
      let s2 : State := { s1 with gov := { s1.gov with types := types, load := none } }
      let mask := (types.map (fun t => 2 ^ t.type)).sum
      (((s2.bump R.GOV_MODEL_VER).put R.GOV_TYPES_LO (mask % 2 ^ 32)).put R.GOV_TYPES_HI (mask / 2 ^ 32)).modelResult
        (l.types.map (fun t => 2 ^ t.type)).sum l.frame stOK 0
    else s1
  | none => s1

/-! ## Telemetry and fitting (R252, R253) -/

/-- A temperature report TB_MEAS for a frame, or for none that is kept (R252). A Standby takes its Active's correction, not
one of its own (R260, R472). -/
def State.temperatureReport (s : State) (c : Chan) (frame : Option Nat) (meas : Rat) : State :=
  let g := s.govEp c.index
  let s1 := s.putFlag F.EPG_FIT_STALE false c.index
  let g1 := { g with lastReport := s.uptime }
  match frame.bind (fun m => g.states.find? (fun x => x.frame == m)) with
  | none => s1.setGovEp g1
  | some x =>
    let cor := b64 ((meas - x.tb) / 8)
    let added := if s.role = 2 then 0 else cor
    let kept := g1.reports.filter (fun r => decide (s.uptime < r.time + 60 * oneSecond))
    (s1.setGovEp { g1 with
      correction := g1.correction + added,
      reports := kept ++ [{ time := s.uptime, rise := x.tbOpen - s.ambient, meas := meas - s.ambient }] }).sendMirror 0 false
        (.temperature c.index cor)

/-- TELEM_STALE (R252): 10 s without a temperature report. -/
def doTelemStale (i : Nat) (s : State) : State :=
  match s.chanAt kEndpoint i with
  | none => s
  | some c =>
    if s.flag F.EPG_FIT_STALE i then s
    else
      let g := s.govEp i
      let s1 := s.atUptime (g.lastReport + 10 * oneSecond)
      ((s1.putFlag F.EPG_FIT_STALE true i).raise F.GOV_EVT_TELEM_STALE).tally 0x0806
        [c.handle, (s1.uptime - g.lastReport) / oneSecond]

/-- The least-squares fit of R253 over reports: σ and δ before they are clamped, or none with fewer than 16 reports. -/
def fitReports (sigma : Rat) (rs : List TempReport) : Option (Rat × Rat) :=
  if rs.length < 16 then none
  else
    let n : Rat := rs.length
    let sx := (rs.map TempReport.rise).sum
    let sy := (rs.map TempReport.meas).sum
    let hi := (rs.map TempReport.rise).foldl max ((rs.map TempReport.rise).headD 0)
    let lo := (rs.map TempReport.rise).foldl min ((rs.map TempReport.rise).headD 0)
    if hi - lo < 2 then some (sigma, (sy - sigma * sx) / n)
    else
      let sxx := (rs.map (fun r => r.rise * r.rise)).sum
      let sxy := (rs.map (fun r => r.rise * r.meas)).sum
      let sg := (n * sxy - sx * sy) / (n * sxx - sx * sx)
      some (sg, (sy - sg * sx) / n)

/-- THERMAL_FIT (R253): once per 60 s for an endpoint with a THERM type, with FIT_EN set. -/
def doThermalFit (i : Nat) (s : State) : State :=
  match s.chanAt kEndpoint i with
  | none => s
  | some c =>
    if s.flag F.GOV_CTL_FIT_EN = false ∨ (s.thermType c).isNone = true ∨ s.role = 2 then s
    else
      let g := s.govEp i
      match fitReports g.sigma (g.reports.filter (fun r => decide (s.uptime < r.time + 60 * oneSecond))) with
      | none => s
      | some q =>
        let sg := b64 (if q.1 < 1 / 2 then 1 / 2 else if 2 < q.1 then 2 else q.1)
        let dl := b64 (if q.2 < -20 then -20 else if 20 < q.2 then 20 else q.2)
        let clamped := decide (q.1 < 1 / 2) || decide (2 < q.1) || decide (q.2 < -20) || decide (20 < q.2)
        let s1 := ((s.setGovEp { g with fitNext := some (sg, dl) }).putFlag F.EPG_FIT_FIT_BOUND clamped i).sendMirror 0 false
          (.fit i sg dl)
        if clamped then
          (s1.raise F.GOV_EVT_FIT_BOUND).tally 0x0805
            [c.handle, (roundHalfUp (sg * 16384)).toNat, slotOfInt (roundHalfUp (dl * 16))]
        else s1

def execForecast (frame : Nat) (s : State) : Host.Outcome State Fault Refusal := .next (doForecast frame s)
def execForecastLate (frame : Nat) (s : State) : Host.Outcome State Fault Refusal := .next (doForecastLate frame s)
def execModelUpdate (frame : Nat) (s : State) : Host.Outcome State Fault Refusal := .next (doModelUpdate frame s)
def execModelLoad (value : Word) (s : State) : Host.Outcome State Fault Refusal :=
  .next (s.mirrored (s.modelAccepted value.toNat) (.modelLoad value.toNat) (doModelLoad value.toNat))
def execTelemStale (endpoint : Fin 4096) (s : State) : Host.Outcome State Fault Refusal := .next (doTelemStale endpoint.val s)
def execThermalFit (endpoint : Fin 4096) (s : State) : Host.Outcome State Fault Refusal := .next (doThermalFit endpoint.val s)

end Sys2Proof.Machine
end

