-- ==== Sys2Proof/Machine/Separator.lean ====
section
/-! DEFINITION. The Separator (R205 to R224), DITHERPACK (R196, R197, R278, R279), the repeat notice (R33) and output
curves (R221). -/
namespace Sys2Proof.Machine
open Sys2Proof

/-! ## Correction (R216 to R218) -/

/-- A correction entry: the matrix in 1/2,048, the offsets, and DEAD. -/
structure Correction where
  m : List Int
  o : List Int
  dead : Bool
  deriving DecidableEq, Repr

/-- The identity entry (R217). -/
def Correction.identity : Correction := { m := [2048, 0, 0, 0, 2048, 0, 0, 0, 2048], o := [0, 0, 0], dead := false }

/-- A Cream entry (R217). -/
def creamEntry (v : Nat) : Correction :=
  let f (k : Nat) : Int := toSigned 12 (v / 2 ^ (12 * k))
  { m := (List.range 9).map (fun k => if k % 4 = 0 then 2048 + f k else f k),
    o := (List.range 3).map (fun k => 8 * toSigned 6 (v / 2 ^ (108 + 6 * k))), dead := bitAt v 126 }

/-- A Skim entry (R218). -/
def skimEntry (v : Nat) : Correction :=
  let d (k : Nat) : Int := 4 * (512 + toSigned 9 (v / 2 ^ (9 * k)))
  let e (k : Nat) : Int := 8 * toSigned 5 (v / 2 ^ (27 + 5 * k))
  let b : Int := 16 * toSigned 6 (v / 2 ^ 57)
  { m := [d 0, e 0, e 1, e 2, d 1, e 3, e 4, e 5, d 2], o := [b, b, b], dead := bitAt v 63 }

/-- The correction entry of a native pixel (R217, R219); an uncorrectable half gives identity (R451). -/
def State.correction (s : State) (c : Chan) (skim : Bool) (x y : Nat) : Correction :=
  let base := c.epCorr skim
  if base = 0 then Correction.identity
  else
    let e := if skim then 8 else 16
    let a := base + (y * c.epW + x) * e
    if s.badAt a then Correction.identity
    else if skim then skimEntry (s.bulkLe a 8) else creamEntry (s.bulkLe a 16)

/-- What the Separator makes of one native pixel. -/
structure SepPixel where
  drive : List Nat        -- x of stage 4
  pre : List Nat          -- b, 0 where it does not count
  post : List Nat         -- c, 0 where it does not count
  clip : Bool
  outside : Bool
  col : Int               -- the canvas place for the dither
  row : Int
  deriving DecidableEq, Repr

/-- The four stages for a canvas value in Cream codes (R216). -/
def State.stages (s : State) (c : Chan) (k : Correction) (gains : List Nat) (h : List Int) (p : Nat) (v : List Int) :
    List Int × List Int × List Nat × Bool :=
  let i3 := List.range 3
  let a := i3.map (fun i => sat0 (rndI (rowDot k.m i v) 2048 + k.o.getD i 0))
  let b := i3.map (fun i => sat0 (rndI (a.getD i 0 * (gains.getD i 16384 : Nat)) 16384))
  let hh := i3.map (fun i => sat0 (rndI (rowDot h i b) 16384))
  let cc := i3.map (fun i => sat0 (rndI (hh.getD i 0 * (p : Int)) 32768))
  let x := i3.map (fun i => s.curveOut c.epCurve i (cc.getD i 0).toNat)
  (b, cc, x, (a ++ b ++ hh ++ cc).any (fun q => q == 65535) || x.any (fun q => q == 65535))

/-- One native pixel of an endpoint in a frame. -/
def State.sepPixel (s : State) (w : FrameWork) (c : Chan) (h : List Int) (p : Nat) (gains : List Nat) (xy : Nat × Nat) :
    SepPixel :=
  let site := s.epSite c xy.1 xy.2
  let place := w.epPlace c
  let hit : Option (RegionWork × Nat × Nat) :=
    match place, site with
    | some r, some (q, true) => (inRegion r q).map (fun z => (r, z.1, z.2))
    | _, _ => none
  let outside := place.isSome && hit.isNone
  let runs := (w.epRegion c).isSome
  let px : Px := match hit with
    | some (r, x, y) => if runs then w.canvasAt r x y else Px.clear
    | none => Px.clear
  let k := s.correction c w.skim xy.1 xy.2
  let f : Int := if w.skim then 16 else 1
  let q := s.stages c k gains h p [f * px.r, f * px.g, f * px.b]
  let zero := [0, 0, 0]
  let pos := (site.map Prod.fst).getD (0, 0)
  if k.dead then { drive := zero, pre := zero, post := zero, clip := false, outside := outside, col := pos.1, row := pos.2 }
  else
    { drive := q.2.2.1, pre := if outside then zero else q.1.map Int.toNat, post := if outside then zero else q.2.1.map Int.toNat,
      clip := q.2.2.2, outside := outside, col := pos.1, row := pos.2 }

/-! ## Dither and packing (R196, R197, R278) -/

/-- The engine whose DITHERPACK feeds a ring (R80, R81), else the first that carries DITHERPACK. -/
def State.ditherEngine (s : State) (ring : Option Nat) : Option Nat :=
  let carries (e : Nat) : Bool := (s.section e).any (fun x => x.kinds.any (fun k => k.kind == 6))
  let routed := match s.str.inForce.bind Structure.routes, ring with
    | some rs, some r => (rs.filter (fun q => q.dstNode == 0x23 && q.dstPort == r)).map RouteRec.srcNode
    | _, _ => []
  (routed ++ List.range 12).find? carries

/-- The bytes of the 64 × 64 pattern in an engine's DITHERPACK lookup partition (R77, R108, R197), as its local store holds
them: none where the structure gives it no such partition, and every threshold is 0. -/
def State.ditherTable (s : State) (ring : Option Nat) : List Nat :=
  match s.ditherEngine ring with
  | none => []
  | some e =>
    match s.section e, s.playerOf e with
    | some x, some f =>
      let owner := x.kinds.findIdx? (fun k => k.kind == 6)
      (match x.parts.find? (fun p => p.use == 2 && some p.owner == owner) with
       | some p => (List.range (min 8192 (p.length * 4096))).map (fun k => (s.engAt f).byteAt (p.start * 4096 + k))
       | none => [])
    | _, _ => []

/-- The threshold for a canvas place, frame and colour (R197). -/
def threshold (table : List Nat) (mode n colour : Nat) (col row : Int) : Nat :=
  let ox : Int := if mode = 2 then (29 * n % 64 : Nat) else 0
  let oy : Int := if mode = 2 then (47 * n % 64 : Nat) else 0
  let r := ((row + oy + 43 * (colour : Int)) % 64).toNat
  let c := ((col + ox + 21 * (colour : Int)) % 64).toNat
  let i := 2 * (r * 64 + c)
  (table.getD i 0 + 256 * table.getD (i + 1) 0) % 4096

/-- A drive code reduced to a depth (R196, R197). -/
def ditherCode (mode d x t : Nat) : Nat :=
  let s := 16 - d
  if s = 0 then x
  else if mode = 0 then min (2 ^ d - 1) ((x + 2 ^ (s - 1)) / 2 ^ s)
  else min (2 ^ d - 1) ((x + t * 2 ^ s / 4096) / 2 ^ s)

/-- The colours of ORDER, first letter first (R209). -/
def colourOrder : Nat → List Nat
  | 0 => [0, 1, 2] | 1 => [0, 2, 1] | 2 => [1, 0, 2] | 3 => [1, 2, 0] | 4 => [2, 0, 1] | _ => [2, 1, 0]

/-- The bytes of a pixel (R278), for codes by colour. -/
def packPixel (d order : Nat) (codes : List Nat) : List Nat :=
  let v := (colourOrder order).map (fun i => codes.getD i 0)
  if d ≤ 8 then v
  else if d ≤ 10 then beBytes 4 (v.getD 0 0 * 2 ^ 20 + v.getD 1 0 * 2 ^ 10 + v.getD 2 0)
  else v.flatMap (beBytes 2)

/-- The packed bytes of pixels of an endpoint. -/
def State.packPixels (s : State) (w : FrameWork) (c : Chan) (table : List Nat) (l : List SepPixel) : List Nat :=
  let mode := s.get F.CMP_DITHER_MODE
  l.flatMap (fun p => packPixel c.epDepth c.epOrder ((List.range 3).map (fun i =>
    ditherCode mode c.epDepth (p.drive.getD i 0) (threshold table mode w.frame i p.col p.row))))

/-! ## Endpoint bands (R214, R215, R279) -/

/-- The sums of an endpoint before its first line. -/
def EpSums.start (i : Nat) : EpSums :=
  { index := i, pre := [0, 0, 0], post := [0, 0, 0], clip := 0, outside := 0, identity := false, repeated := false,
    sig := bitReverse 32 (0xFFFFFFFF ^^^ i) }

/-- The sums of an endpoint in a frame. -/
def FrameWork.sumsOf (w : FrameWork) (i : Nat) : EpSums := (w.sums.find? (fun q => q.index == i)).getD (EpSums.start i)

/-- Replace the sums of an endpoint. -/
def FrameWork.setSums (w : FrameWork) (q : EpSums) : FrameWork :=
  { w with sums := w.sums.filter (fun x => x.index != q.index) ++ [q] }

/-- Add lists of three. -/
def add3 (a b : List Nat) : List Nat := (List.range 3).map (fun i => a.getD i 0 + b.getD i 0)

/-- An endpoint that begins to use identity correction is recorded once (R226). -/
def State.noteIdentity (s : State) (w : FrameWork) (c : Chan) (identity : Bool) : State :=
  let had := s.sep.identity.contains c.index
  let rest := s.sep.identity.filter (fun i => i != c.index)
  let s1 : State := { s with sep := { s.sep with identity := if identity then rest ++ [c.index] else rest } }
  if identity && !had then s1.tally 0x0602 [c.handle, if w.skim then 1 else 0, w.frame] else s1

/-- The DATA body of a part (R277). -/
def dataBody (c : Chan) (ptime part parts : Nat) (p : Nat × Nat × Nat) (pixels : List Nat) : List Nat :=
  time12 ptime ++ [(c.epDepth - 8) * 16 + c.epOrder, 0] ++ beBytes 2 part ++ beBytes 2 parts ++ beBytes 2 p.1 ++
  beBytes 2 p.2.1 ++ beBytes 2 p.2.2 ++ pixels

/-- The parts of frame n for an endpoint that wait in the queues of the ring ports. -/
def State.partsWaiting (s : State) (n i : Nat) : List TxPart :=
  (List.range 16).flatMap (fun l => ((s.linkAt l).queue.filterMap TxWait.part).filter (fun p => p.frame == n && p.endpoint == i))

/-- The lowest band of frame n of which no copy has left for an endpoint, among those that wait. -/
def State.waitingBand (s : State) (n i : Nat) : Option Nat :=
  match ((s.partsWaiting n i).filter (fun p => !p.twin)).map TxPart.band with
  | [] => none
  | b :: l => some (l.foldl min b)

/-- Some band of frame n waits in a queue of a ring port. -/
def State.someWaits (s : State) (n : Nat) : Bool :=
  (List.range 16).any (fun l => (s.linkAt l).queue.any (fun f => f.part.any (fun p => p.frame == n)))

/-- Parts of frame n for an endpoint leave the queues unsent (R23, R33). -/
def State.cutParts (s : State) (n i : Nat) : State :=
  s.each (List.range 16) (fun l t => t.modLink l (fun k => { k with
    queue := k.queue.filter (fun f => !f.part.any (fun p => p.frame == n && p.endpoint == i)) }))

/-- BAND_UNSENT (R33): the endpoint is sent no further band of frame n but a repeat notice. `band` is the place of its first
unsent band in the frame's sequence of bands over all regions (DESIGN CHOICE: R43 does not say how a band is numbered among
several regions). -/
def State.bandUnsent (s : State) (n : Nat) (c : Chan) (band : Nat) : State :=
  match s.frameWork n with
  | none => s
  | some w =>
    if (w.sumsOf c.index).repeated then s
    else
      let s1 := (s.cutParts n c.index).modFrame n (fun x => x.setSums { x.sumsOf c.index with repeated := true })
      let ptime := s1.pAt n (zoneOffset w.chans c.epZone)
      let s2 := match s1.boundTo w.chans c, s1.seqOf n with
        | some (r, _), some q => s1.sendControl r c.epPosition q opRepeat ptime []
        | _, _ => s1
      (((s2.bump R.SYS_BAND_UNSENT_CNT).putFlag F.SYS_PIPE_STAT_BAND_UNSENT true).tally 0x0011 [n, c.handle, band]).msi 2

/-- A band of a frame is not sent: the device drives no ring, or the Active it took over from has sent it (R269, R478). -/
def State.sentBefore (s : State) (n place : Nat) : Bool :=
  decide (s.role = 2) || s.red.bypass || decide (n < s.red.purged.1) || (n == s.red.purged.1 && decide (place < s.red.purged.2))

/-- The endpoint bands of an endpoint that a place in the frame's sequence of bands makes ready (R214): the one of that band in
a running region. Where the region does not run (R207), nothing composes it, and all its endpoint bands are ready at the first
place, in ascending order (DESIGN CHOICE: R207 and R214 name no moment). -/
def FrameWork.bandsAt (w : FrameWork) (c : Chan) (bands : List Nat) (place : Nat) : List Nat :=
  match w.epRegion c with
  | some r => (match (bandSequence w.regions)[place]? with
    | some (q, b) => if q.index = r.index then [b] else []
    | none => [])
  | none => if place = 0 then (List.range (bands.foldl max 0 + 1)).filter (fun b => bands.contains b) else []

/-- The lines of one endpoint whose last band is b: separated, summed, packed and sent (R215). -/
def State.separateEndpoint (s : State) (w : FrameWork) (c : Chan) (bands : List Nat) (b place : Nat) : State :=
  let n := w.frame
  let term := w.terms.find? (fun t => t.index == c.index)
  let h := (term.map EpTerms.matrix).getD identityH
  let p := (term.map EpTerms.p).getD 32768
  let gains := s.epGains c.index
  let parts := c.bandParts bands b
  if parts.isEmpty then s
  else
    let identity := c.epCorr w.skim == 0
    let s0 := if w.sums.any (fun q => q.index == c.index) then s else s.noteIdentity w c identity
    let ring := ringOf w.chans c
    let table := s0.ditherTable (ring.map Chan.ringNo)
    let made := parts.map (fun q => (q, (c.partPixels q).map (s0.sepPixel w c h p gains)))
    let px := made.flatMap Prod.snd
    let data := made.map (fun q => (q.1, (s0.asOf n place).packPixels w c table q.2))
    let s1 := s0.modFrame n (fun x =>
      let e := x.sumsOf c.index
      x.setSums { e with
        pre := px.foldl (fun a q => add3 a q.pre) e.pre, post := px.foldl (fun a q => add3 a q.post) e.post,
        clip := e.clip + (px.filter SepPixel.clip).length, outside := e.outside + (px.filter SepPixel.outside).length,
        identity := identity, sig := crcRun (crcAlgOf 0) e.sig (data.flatMap Prod.snd) })
    let late := decide (s.eAt n < s.now)
    if (w.sumsOf c.index).repeated || s1.sentBefore n place then s1
    else if late then s1.bandUnsent n c place
    else
      match s1.boundTo w.chans c, s1.seqOf n with
      | some (r, _), some q =>
        let first := c.partsBelow bands b
        let total := c.parts bands
        let ptime := s1.pAt n (zoneOffset w.chans c.epZone)
        let sent := (List.range data.length).foldl (fun (t : Bool × State) k => match data[k]? with
          | some d =>
            let u := t.2.sendPart r c.epPosition q (dataBody c ptime (first + k) total d.1 d.2)
              { frame := n, endpoint := c.index, band := place, part := first + k, by_ := s1.eAt n, twin := false }
            (t.1 || u.2, u.1.add64 R.RG_TX_LO 1 r.ringNo)
          | none => t) (false, s1)
        if sent.1 then sent.2.bandUnsent n c place else sent.2
      | _, _ => s1

/-! ## Drive-sum records (R222, R223) -/

/-- A drive-sum record as bytes (R222). -/
def driveBytes (i flags clip n : Nat) (pre post : List Nat) : List Nat :=
  leBytes 2 i ++ leBytes 2 flags ++ leBytes 4 clip ++ pre.flatMap (leBytes 6) ++ post.flatMap (leBytes 6) ++ leBytes 4 n

/-- The address of a drive-sum record. -/
def driveAddr (n i : Nat) : Nat := driveRing + (n % 8) * 196608 + i * 48

/-- The drive-sum record of one endpoint at the end of a frame, its word group to GOVERN (R224), and its registers. -/
def State.endpointSums (s : State) (w : FrameWork) (c : Chan) : State :=
  let n := w.frame
  let i := c.index
  let three (a o : Nat) : List Nat := (List.range 3).map (fun k => s.bulkLe (a + o + 6 * k) 6)
  if c.st ≠ .running then
    (s.writeBulk (driveAddr n i) (driveBytes i 2 0 n [0, 0, 0] [0, 0, 0])).sendGroup n i (groupWords i 2 0 [0, 0, 0])
  else
    let e := w.sumsOf i
    let flags := (if e.repeated then 1 else 0) + (if 0 < e.outside then 4 else 0) + (if e.identity then 8 else 0)
    let old := driveAddr (n - 1) i
    let clip := if e.repeated then s.bulkLe (old + 4) 4 else e.clip
    let post := if e.repeated then three old 0x1A else e.post
    let s1 := (s.writeBulk (driveAddr n i) (driveBytes i flags clip n (if e.repeated then three old 8 else e.pre) post)).sendGroup n i
      (groupWords i flags clip post)
    let s2 := (s1.putFlag F.EP_STAT_OUTSIDE (decide (0 < e.outside)) i).putFlag F.EP_STAT_CLIPPED (decide (0 < e.clip)) i
    let s3 := if 0 < e.clip then s2.bump R.EP_CLIP_CNT i else s2
    if 0 < e.outside then
      ((s3.add R.SEP_OUTSIDE_CNT e.outside).raise F.SEP_EVT_OUTSIDE).tallyLimitedV (0x06010000 + i) oneSecond 0x0601 e.outside
        (fun _ _ => [c.handle, n, e.outside])
    else s3

/-- The first band of frame n for an endpoint that has not left (R33): one that waits in a queue, else its first band that is
not separated; none where all have left. -/
def State.firstUnsent (s : State) (w : FrameWork) (c : Chan) : Option Nat :=
  match s.waitingBand w.frame c.index with
  | some b => some b
  | none =>
    let bands := s.lineBands c (w.epPlace c)
    let places := (List.range (max 1 (bandSequence w.regions).length)).filter (fun p =>
      decide (w.bandsSent ≤ p) && (w.bandsAt c bands p).any (fun b => bands.contains b))
    places.head?

/-- The end of a frame's separation (R223): every record is written, and the frame is latched. An endpoint whose bands
have not all left takes its repeat notice, and what of the frame still waits in a queue is cut. -/
def State.finishSums (s : State) (n : Nat) : State :=
  match s.frameWork n with
  | none => s
  | some w =>
    if w.sumsDone ∨ w.active = false then s
    else
      let s0 := if s.someWaits n then s.each (List.range 16) (fun l t => t.settleLink l) else s
      let s1 := s0.each (w.running kEndpoint) (fun c t => match t.firstUnsent w c with
        | some b => t.bandUnsent n c b
        | none => t.cutParts n c.index)
      match s1.frameWork n with
      | none => s1
      | some w1 =>
        let s2 := s1.each (w1.chans.filter (fun c => c.kind == kEndpoint)) (fun c t => t.endpointSums w1 c)
        (s2.put64 R.SEP_SUM_FRAME_LO n).modFrame n (fun x => { x with sumsDone := true })

/-- A Standby begins a band only once a heartbeat has reported it sent, or a later frame (R476). -/
def State.mayBegin (s : State) (n band : Nat) : Bool :=
  if s.role = 2 then
    match s.seqOf n with
    | some q =>
      let d := (s.red.heardSeq + 2 ^ 32 - q) % 2 ^ 32
      if d = 0 then decide (band ≤ s.red.heardBand) else decide (d < 2 ^ 31)
    | none => false
  else true

/-- SEPARATE_BAND (R214, R215): the next composed canvas band of a frame, for each endpoint in ascending INDEX. -/
def doSeparateBand (n : Nat) (s : State) : State :=
  match s.frameWork n with
  | none => s
  | some w =>
    let seq := bandSequence w.regions
    let total := max 1 seq.length
    let place := w.bandsSent
    let ready := decide (place < w.bandsDone) || seq.isEmpty
    if w.active && w.forecastDone && ready && decide (place < total) && !w.sumsDone && s.mayBegin n place &&
        s.kindServed 4 && s.kindServed 6 then
      let s1 := s.each (w.running kEndpoint) (fun c t =>
        let bands := t.lineBands c (w.epPlace c)
        t.each (w.bandsAt c bands place) (fun b u => (match u.frameWork n with
          | some v => u.separateEndpoint v c bands b place
          | none => u)))
      let s2 := s1.modFrame n (fun x => { x with bandsSent := place + 1 })
      if place + 1 < total then s2.serveAhead n
      else
        let s3 := if s2.someWaits n then s2 else s2.finishSums n
        let last := s.sys.rateChg.any (fun r => r.last == n) || s.tim.plan.any (fun p => p.last == n)
        if last then s3.sendHoldNotices ((s3.seqOf n).getD s3.seqNow) else s3
    else s

/-- BAND_UNSENT (R33): at E(n) a band of frame n has not left for an endpoint. -/
def doBandUnsent (n i : Nat) (s : State) : State :=
  match s.frameWork n with
  | none => s
  | some w =>
    match (w.running kEndpoint).find? (fun c => c.index == i) with
    | none => s
    | some c =>
      if w.active ∧ w.sumsDone = false then
        let s1 := (s.atTime (s.eAt n)).each (List.range 16) (fun l t => t.settleLink l)
        match s1.firstUnsent w c with
        | some b => s1.bandUnsent n c b
        | none => s1
      else s

/-! ## Output curves (R220, R221) -/

/-- SEP_STAT.CURVES (R220). -/
def State.curvesAvailable (s : State) : Nat :=
  match s.str.inForce with
  | none => 0
  | some st =>
    let e := s.capOf kEndpoint
    let each := (List.range 12).filterMap (fun k => match st.engineSec s.skim k with
      | some x =>
        (match x.kinds.findIdx? (fun q => q.kind == 4) with
         | some o =>
           let g := ((x.parts.filter (fun p => p.use == 2 && p.owner == o)).map Partition.length).sum
           some (min 31 ((g - ceilDiv e 128) / 2))
         | none => none)
      | none => none)
    match each with
    | [] => 0
    | a :: l => l.foldl min a

/-- The result of a curve load and its events (R221). -/
def State.curveResult (s : State) (curve status check : Nat) : State :=
  ((((s.put F.SEP_CURVE_STAT_RESULT status).put F.SEP_CURVE_STAT_CHECK check).advance F.SEP_CURVE_STAT_SEQ).raise
    F.SEP_EVT_CURVE_DONE).tally 0x0600 [curve, status, check]

/-- The checks of R221, in order, for a curve. -/
def State.curveChecks (s : State) (curve : Nat) : List (Nat × Bool × Nat) :=
  let a := s.get64 R.SEP_CURVE_ADDR_LO
  [(1, s.sep.loading.isSome, stBusy), (2, curve == 0 || decide (s.get F.SEP_STAT_CURVES < curve), stInconsistent),
   (3, a % 64 != 0 || !inUsable a 6150, stInconsistent),
   (4, (s.namedValues kEndpoint 0x0514).any (fun v => v == curve), stBusy)]

/-- A write of SEP_CURVE_CTL starts a load. -/
def State.curveAccepted (s : State) (value : Nat) : Bool :=
  bitAt value 0 && decide ((firstFail (s.curveChecks (bits value 5 1))).2 = stOK)

/-- CURVE_LOAD (R221): a write of SEP_CURVE_CTL; with GO the load is checked and started or refused. -/
def doCurveLoad (value : Nat) (s : State) : State :=
  let curve := bits value 5 1
  let s1 := s.put F.SEP_CURVE_CTL_CURVE curve
  if bitAt value 0 = false then s1
  else
    let a := s1.get64 R.SEP_CURVE_ADDR_LO
    let f := firstFail (s1.curveChecks curve)
    if f.2 = stOK then
      let table := (List.range 3075).map (fun k => s1.bulkLe (a + 2 * k) 2)
      { s1 with sep := { s1.sep with loading := some (curve, table) } }
    else s1.curveResult curve f.2 f.1

/-- CURVE_LOADED (R221): the load completes. -/
def doCurveLoaded (s : State) : State :=
  match s.sep.loading with
  | none => s
  | some (curve, table) =>
    let curves := s.sep.curves.filter (fun q => q.1 != curve) ++ [(curve, table)]
    let s1 : State := { s with sep := { s.sep with loading := none, curves := curves } }
    (s1.put R.SEP_CURVE_LOADED (s1.get R.SEP_CURVE_LOADED ||| 2 ^ curve)).curveResult curve stOK 0

def execSeparateBand (frame : Nat) (s : State) : Host.Outcome State Fault Refusal := .next (doSeparateBand frame s)
def execBandUnsent (frame : Nat) (endpoint : Fin 4096) (s : State) : Host.Outcome State Fault Refusal :=
  .next (doBandUnsent frame endpoint.val s)
def execCurveLoad (value : Word) (s : State) : Host.Outcome State Fault Refusal :=
  .next (s.mirrored (s.curveAccepted value.toNat) (.curveLoad value.toNat) (doCurveLoad value.toNat))
def execCurveLoaded (s : State) : Host.Outcome State Fault Refusal := .next (doCurveLoaded s)

end Sys2Proof.Machine
end

