-- ==== Sys2Proof/Machine/Calibration.lean ====
section
/-! DEFINITION. Uniformity calibration (R227 to R244): the accumulator, windows, the agreement test, corrections, gain loads
and the commands of CAL_CMD. A member of a zone is an endpoint or a direct-drive lamp group (R242). -/
namespace Sys2Proof.Machine
open Sys2Proof

/-! ## Members and their registers -/

/-- A field of a member's register: the endpoint's or the lamp group's. -/
def memberField (kind : Nat) (ep grp : Field) : Field := if kind = kEndpoint then ep else grp

/-- The gain in force of a member in a colour. -/
def State.memberGain (s : State) (kind i colour : Nat) : Nat :=
  match colour with
  | 0 => s.get (memberField kind F.EPC_GAIN_RG_G_R F.G_GAIN_RG_G_R) i
  | 1 => s.get (memberField kind F.EPC_GAIN_RG_G_G F.G_GAIN_RG_G_G) i
  | _ => s.get (memberField kind F.EPC_GAIN_B_G_B F.G_GAIN_B_G_B) i

/-- Store a member's gain in a colour. -/
def State.setMemberGain (s : State) (kind i colour g : Nat) : State :=
  match colour with
  | 0 => s.put (memberField kind F.EPC_GAIN_RG_G_R F.G_GAIN_RG_G_R) g i
  | 1 => s.put (memberField kind F.EPC_GAIN_RG_G_G F.G_GAIN_RG_G_G) g i
  | _ => s.put (memberField kind F.EPC_GAIN_B_G_B F.G_GAIN_B_G_B) g i

def fFailed (kind : Nat) : Field := memberField kind F.EPC_GAIN_B_SENSOR_FAILED F.G_GAIN_B_SENSOR_FAILED
def fSuspect (kind : Nat) : Field := memberField kind F.EPC_GAIN_B_SUSPECT F.G_GAIN_B_SUSPECT
def fDark (kind : Nat) : Field := memberField kind F.EPC_GAIN_B_DARK F.G_GAIN_B_DARK
def fLimited (kind : Nat) : Field := memberField kind F.EPC_GAIN_B_LIMITED F.G_GAIN_B_LIMITED
def fDisagree (kind : Nat) : Field := memberField kind F.EPC_GAIN_B_DISAGREE F.G_GAIN_B_DISAGREE
def fMissing (kind : Nat) : Field := memberField kind F.EPC_GAIN_B_MISSING F.G_GAIN_B_MISSING

/-- The zone that a member names: ZONE of an endpoint or of a lamp group. -/
def Chan.memberZone (c : Chan) : Nat := if c.kind = kEndpoint then c.epZone else c.val 0x0A03
/-- Native pixels of an endpoint, or lamps of a group (R242). -/
def Chan.memberPixels (c : Chan) : Nat := if c.kind = kEndpoint then c.epPixels else c.fld 0x0A01 2 2

/-- The members of a zone among channels. -/
def membersOf (chans : List Chan) (zone : Nat) : List Chan :=
  chans.filter (fun c => (c.kind == kEndpoint || c.kind == kDdgroup) && c.memberZone == zone && zone != 0)

/-- What calibration keeps of a member. -/
def State.calMember (s : State) (kind i : Nat) : CalMember :=
  (s.cal.members.find? (fun m => m.kind == kind && m.index == i)).getD { kind := kind, index := i, windows := [], changes := [], rejoins := [] }
/-- Replace what calibration keeps of a member. -/
def State.setCalMember (s : State) (m : CalMember) : State :=
  { s with cal := { s.cal with members := s.cal.members.filter (fun q => !(q.kind == m.kind && q.index == m.index)) ++ [m] } }

/-! ## Zones (R227) -/

/-- What calibration keeps of a zone. -/
def State.calZone (s : State) (i : Nat) : CalZone :=
  (s.cal.zones.find? (fun z => z.index == i)).getD
    { index := i, opens := [], closed := none, due := false, late := [], effect := none, changed := none,
      quality := false, voids := [] }
/-- Replace what calibration keeps of a zone. -/
def State.setCalZone (s : State) (z : CalZone) : State :=
  { s with cal := { s.cal with zones := s.cal.zones.filter (fun q => q.index != z.index) ++ [z] } }

def Chan.calEn (z : Chan) : Bool := bitAt (z.val 0x0610) 0
def Chan.calFreeze (z : Chan) : Bool := bitAt (z.val 0x0610) 1
def Chan.calWindow (z : Chan) : Nat := z.fld 0x0610 2 2
def Chan.calTol (z : Chan) : Nat := z.fld 0x0610 4 2
def Chan.calStep (z : Chan) : Nat := z.fld 0x0610 6 2
def Chan.calMin (z : Chan) : Nat := z.fld 0x0610 8 2
def Chan.calMax (z : Chan) : Nat := z.fld 0x0610 10 2
def Chan.calMinDrive (z : Chan) : Nat := z.fld 0x0610 12 2
def Chan.calMinEp (z : Chan) : Nat := z.fld 0x0610 14 1
def Chan.calSuspect (z : Chan) : Nat := z.fld 0x0610 15 1

/-- Show a zone's STATE and FAILED. -/
def State.showZone (s : State) (z : Chan) : State :=
  let k := s.calZone z.index
  let st := if !z.calEn then 0 else if z.calFreeze then 3 else if k.due then 2 else 1
  let failed := ((membersOf s.cmd.chans z.handle).filter (fun c => s.flag (fFailed c.kind) c.index)).length
  (s.put F.Z_STAT_STATE st z.index).put F.Z_STAT_FAILED failed z.index

/-- Show every zone, and the number of fitting zones. -/
def State.showZones (s : State) : State :=
  let zones := s.cmd.chans.filter (fun c => c.kind == kZone && decide (c.st ≠ .draining))
  (s.each zones (fun z t => t.showZone z)).put F.CAL_STAT_ZONES (zones.filter Chan.calEn).length

/-- Show the zone of a member. -/
def State.showZoneOf (s : State) (c : Chan) : State :=
  match s.cmd.chans.find? (fun z => z.kind == kZone && z.handle == c.memberZone) with
  | some z => s.showZone z
  | none => s

/-- A CAL value of a zone is accepted in frame n (R231, R234): its windows start afresh, no pair that began before is evaluated,
and the window in progress is void. -/
def State.calAccepted (s : State) (i n : Nat) : State :=
  match s.chanAt kZone i with
  | none => s
  | some z =>
    let s1 := s.setCalZone { s.calZone i with
      opens := [], due := false, late := [], changed := some n, voids := [n / max 1 z.calWindow] }
    (s1.each (membersOf s1.cmd.chans z.handle) (fun c t => t.setCalMember { t.calMember c.kind c.index with windows := [] })).showZones

/-- A member's gains change at S(n) (R231). -/
def State.noteGain (s : State) (kind i n : Nat) : State :=
  let m := s.calMember kind i
  s.setCalMember { m with changes := n :: m.changes.take 15 }

/-! ## Sensors (R231, R238) -/

/-- A sensor is marked failed: cause 0 FAIL flag, 1 suspect limit. -/
def State.sensorFail (s : State) (c : Chan) (cause : Nat) : State :=
  if s.flag (fFailed c.kind) c.index then s
  else ((s.putFlag (fFailed c.kind) true c.index).raise F.CAL_EVT_SENSOR_FAIL).tally 0x0702 [c.handle, cause]

/-- Clear a member's failed mark and its suspect count. -/
def State.sensorClear (s : State) (c : Chan) : State :=
  (s.putFlag (fFailed c.kind) false c.index).put (fSuspect c.kind) 0 c.index

/-- A member joined its ring anew: its window is void and its mark is cleared (R231, R238). -/
def State.calRejoin (s : State) (c : Chan) : State :=
  let m := s.calMember c.kind c.index
  let had := s.flag (fFailed c.kind) c.index
  let s1 := ((s.setCalMember { m with rejoins := s.frameNum :: m.rejoins.take 15 }).sensorClear c).showZoneOf c
  if had then s1.tally 0x0707 [c.memberZone, 1] else s1

/-- The zone of a member keeps a window of a number open. -/
def State.windowOpen (s : State) (c : Chan) (w : Nat) : Bool :=
  match s.cmd.chans.find? (fun z => z.kind == kZone && z.handle == c.memberZone) with
  | some z => (s.calZone z.index).opens.any (fun o => o.1 == w)
  | none => false

/-- A sensor report of a window (R229, R295, R341): one that comes after the window's close counts as missing. -/
def State.sensorReport (s : State) (c : Chan) (wno : Nat) (r : SensorReport) : State :=
  let m := s.calMember c.kind c.index
  let take (w : Window) : Window := if w.number % 2 ^ 32 = wno ∧ s.windowOpen c w.number = true then { w with report := some r } else w
  let s1 := s.setCalMember { m with windows := m.windows.map take }
  if r.fail then (s1.sensorFail c 0).showZoneOf c else s1

/-! ## The accumulator (R230) -/

/-- What must not change from frame to frame of a member's window, beside its gains and its ring (R231). -/
def Chan.windowKey (c : Chan) : List Nat :=
  c.memberZone :: (if c.kind = kEndpoint then [c.epCurve, c.epDepth] else [])

/-- The record of a member for a frame: the flag that voids, CLIP and POST. -/
def State.memberRecord (s : State) (c : Chan) (n : Nat) : Option (Bool × Nat × List Nat) :=
  if c.kind = kEndpoint then (s.driveRecord n c.index).map (fun r => (bitAt r.1 1, r.2.1, r.2.2))
  else
    let a := lampSums + (n % 8) * 98304 + c.index * 48
    if s.badAt a || s.badAt (a + 47) then none
    else if s.bulkLe (a + 0x2C) 4 = n % 2 ^ 32 ∧ s.bulkLe a 2 = c.index then
      let f := s.bulkLe (a + 2) 2
      some (bitAt f 0 || bitAt f 1 || bitAt f 2, s.bulkLe (a + 4) 4, (List.range 3).map (fun k => s.bulkLe (a + 0x1A + 6 * k) 6))
    else none

/-- ε of a member for a frame (R230, R242): that of the held frame in Hold; none where the term record is not written. -/
def State.memberEps (s : State) (c : Chan) (n : Nat) (held : Bool) : Option (List Nat) :=
  if c.kind = kEndpoint then
    if held then (s.gov.heldEps.find? (fun q => q.1 == c.index)).map Prod.snd else
    let a := termRing + (n % 8) * 131072 + c.index * 32
    if s.badAt a then none
    else if s.bulkLe (a + 28) 4 = n % 2 ^ 32 ∧ s.bulkLe a 2 = c.index then some ((List.range 3).map (fun k => s.bulkLe (a + 22 + 2 * k) 2))
    else none
  else some unitEps

/-- A fresh window. -/
def Window.fresh (w : Nat) (key gains : List Nat) : Window :=
  { number := w, key := key, gains := gains, light := [0, 0, 0], clip := 0, frames := 0, void := false, report := none }

/-- Change a member's window of a number, making it where there is none; three windows are kept. -/
def State.modWindow (s : State) (c : Chan) (w : Nat) (f : Window → Window) : State :=
  let m := s.calMember c.kind c.index
  let gains := (List.range 3).map (fun k => s.memberGain c.kind c.index k)
  let ws := if m.windows.any (fun x => x.number == w) then m.windows
    else m.windows ++ [Window.fresh w c.windowKey gains]
  let ws1 := ws.map (fun x => if x.number = w then f x else x)
  s.setCalMember { m with windows := ws1.drop (ws1.length - 4) }

/-- A frame of a member is added to its window w. -/
def State.accumulate (s : State) (c : Chan) (w : Nat) (q : Behind) : State :=
  match s.memberRecord c q.src, s.memberEps c q.src q.held with
  | some r, some e => s.modWindow c w (fun x => { x with
      light := (List.range 3).map (fun i => x.light.getD i 0 + mkRat (r.2.2.getD i 0 * e.getD i 0 : Nat) 32768),
      clip := x.clip + r.2.1, frames := x.frames + 1,
      void := x.void || r.1 || decide (c.st ≠ .running) || decide (x.key ≠ c.windowKey) })
  | _, _ => s.modWindow c w (fun x => { x with void := true })

/-- The fitting zones: EN set. -/
def State.fitting (s : State) : List Chan := (s.cmd.chans.filter (fun c => c.kind == kZone && c.calEn))

/-- CAL_STAT.ACC_LAG and FOLLOW. -/
def State.showCal (s : State) : State :=
  (s.put F.CAL_STAT_ACC_LAG (min 15 s.cal.behind.length)).putFlag F.CAL_STAT_FOLLOW (decide (s.role = 2))

/-- The device time at which window w of a zone closes: P_z of its last frame, one period and 250 ms. -/
def State.closeTime (s : State) (z : Chan) (w : Nat) : Nat :=
  s.pAt (w * z.calWindow + z.calWindow) (z.sfld 0x0601 0 4) + 250000000 * 65536

/-- Window w of a zone is in progress: it is open, and closes at its time on the lattice in force. -/
def State.openWindow (s : State) (z : Chan) (w : Nat) : State :=
  let k := s.calZone z.index
  s.setCalZone { k with opens := k.opens.filter (fun o => o.1 != w) ++ [(w, s.closeTime z w)] }

/-- Frame n is no longer to be read. -/
def State.accDone (s : State) (n : Nat) : State :=
  ({ s with cal := { s.cal with behind := s.cal.behind.filter (fun q => q.frame != n) } }).showCal

/-- ACC_READ (R230): after D(n) the accumulator reads frame n of every member of a fitting zone. -/
def doAccRead (n : Nat) (s : State) : State :=
  match (if s.role = 2 then none else s.cal.behind.find? (fun q => q.frame == n)) with
  | none => s.accDone n
  | some q =>
    let s1 := s.each s.fitting (fun z t =>
      let w := n / max 1 z.calWindow
      (((t.openWindow z w).each (membersOf q.chans z.handle) (fun c u => u.accumulate c w q))).showZone z)
    s1.accDone n

/-- ACC_MISSED (R230): frame n was not read before its slot is used again. -/
def doAccMissed (n : Nat) (s : State) : State :=
  match (if s.role = 2 then none else s.cal.behind.find? (fun q => q.frame == n)) with
  | none => s.accDone n
  | some q =>
    let all := s.fitting.flatMap (fun z => (membersOf q.chans z.handle).map (fun c => (z, c)))
    let s0 := s.each s.fitting (fun z t => t.openWindow z (n / max 1 z.calWindow))
    let s1 := s0.each all (fun q t => t.modWindow q.2 (n / max 1 q.1.calWindow) (fun x => { x with void := true }))
    ((((s1.accDone n).bump R.CAL_ACC_MISS_CNT).raise F.CAL_EVT_ACC_MISS)).tally 0x0703 [n, all.length]

/-- Frames a to b are void for every zone: a Rate or Precision change, Dormant, or a step (R231, R364). -/
def State.voidWindows (s : State) (a b : Nat) : State :=
  s.each s.fitting (fun z t =>
    let k := t.calZone z.index
    let w := max 1 z.calWindow
    let lo := min a b / w
    let hi := max a b / w
    let held := (k.opens.map Prod.fst).filter (fun o => decide (lo ≤ o ∧ o ≤ hi))
    t.setCalZone { k with voids := (k.voids ++ [lo, hi] ++ held).drop (k.voids.length - 8) })

/-! ## Entries of a window (R232, R233) -/

/-- A member with its window of a number. -/
structure Entry where
  chan : Chan
  win : Window
  eligible : List Bool
  dark : Bool
  app : List Rat            -- the appearance a of each colour

/-- The members of a zone with their windows of a number that are not void (R231, R232). -/
def State.entries (s : State) (z : Chan) (w : Nat) : List Entry :=
  if (s.calZone z.index).voids.contains w then []
  else
    (membersOf s.cmd.chans z.handle).filterMap (fun c =>
      match (s.calMember c.kind c.index).windows.find? (fun x => x.number == w) with
      | none => none
      | some x =>
        match x.report with
        | none => none
        | some r =>
          let m := s.calMember c.kind c.index
          let first := w * z.calWindow
          let last := first + z.calWindow - 1
          let moved := m.changes.any (fun f => decide (first < f ∧ f ≤ last)) || m.rejoins.any (fun f => decide (first ≤ f ∧ f ≤ last))
          if x.void ∨ moved ∨ r.valid = false ∨ r.sat ∨ r.fail ∨ x.frames ≠ z.calWindow then none
          else
            let p := c.memberPixels
            let clipped := decide (p * x.frames < 256 * x.clip)
            let dark (i : Nat) : Bool := decide (x.light.getD i 0 < ((z.calMinDrive * p * x.frames : Nat) : Rat))
            let failed := s.flag (fFailed c.kind) c.index
            some { chan := c, win := x, dark := (List.range 3).any dark,
                   eligible := (List.range 3).map (fun i => !dark i && !clipped && !failed),
                   app := (List.range 3).map (fun i =>
                     let rho := b64 (((r.light.getD i 0 : Nat) : Rat) / b64 (x.light.getD i 0))
                     b64 (b64 (rho * ((x.gains.getD i 16384 : Nat) : Rat)) / 16384)) })

/-- The zone median of a colour in a window (R233). -/
def zoneMedian (minEp : Nat) (l : List Entry) (i : Nat) : Option Rat :=
  let a := (l.filter (fun e => e.eligible.getD i false)).map (fun e => e.app.getD i 0)
  if a.length < minEp then none else lowerMedian a

/-! ## Closing a window (R229, R240) -/

/-- Both windows of the pair that ends with w begin after the latest correction and the latest CAL change (R234). -/
def CalZone.pairOk (k : CalZone) (window w : Nat) : Bool :=
  let a := (w - 1) * window
  decide (1 ≤ w) && (match k.effect with | some f => decide (f < a) | none => true) &&
  (match k.changed with | some f => decide (f < a) | none => true)

/-- Z_QUALITY of a window (R240): none without an eligible entry. A number over a median of 0 is infinite in binary64, and the
RMS saturates; for 0 over 0, which has no number, the value is free. -/
def zoneQuality (minEp : Nat) (l : List Entry) : Option (Nat × Nat) :=
  let dev := l.flatMap (fun e => (List.range 3).filterMap (fun i =>
    if e.eligible.getD i false then (zoneMedian minEp l i).map (fun m => (e.app.getD i 0, m)) else none))
  let count := min 65535 dev.length
  if dev.isEmpty then none
  else if dev.any (fun d => decide (d.1 = 0 ∧ d.2 = 0)) then some (Config.unstatedQuality dev.length % 65536, count)
  else if dev.any (fun d => decide (d.2 = 0)) then some (65535, count)
  else
    let rs := dev.map (fun d => b64 (d.1 / d.2) - 1)
    let ms := (rs.map (fun d => d * d)).sum / (dev.length : Rat)
    -- round(65,536 √ms), halves up: the largest q with (2q − 1)² ≤ 2^34 ms
    let r := isqrt (ms * 2 ^ 34).floor.toNat
    some (min 65535 ((r + 1) / 2), count)

/-- WINDOW_CLOSE (R229): the earliest open window of a fitting zone closes. -/
def doWindowClose (i : Nat) (s : State) : State :=
  match s.chanAt kZone i, (s.calZone i).opens with
  | some z, (w, at_) :: rest =>
    if z.calEn = false then s
    else
      let s0 := s.atTime at_
      let members := membersOf s0.cmd.chans z.handle
      let missing := members.filter (fun c => !((s0.calMember c.kind c.index).windows.any (fun x => x.number == w && x.report.isSome)))
      let l := s0.entries z w
      let k := s0.calZone i
      let s1 := s0.add R.Z_MISSING_CNT missing.length i
      let s2 := s1.each members (fun c t =>
        let e := l.find? (fun e => e.chan.kind == c.kind && e.chan.index == c.index)
        (t.putFlag (fMissing c.kind) e.isNone c.index).putFlag (fDark c.kind) ((e.map Entry.dark).getD false) c.index)
      let med (j : Nat) : Nat := ((zoneMedian z.calMinEp l j).map f32Bits).getD 0
      let s3 := ((s2.put R.Z_MEDIAN_R (med 0) i).put R.Z_MEDIAN_G (med 1) i).put R.Z_MEDIAN_B (med 2) i
      let s4 := s3.put F.Z_STAT_ELIGIBLE (l.filter (fun e => e.eligible.any id)).length i
      let after := match k.effect with | some f => decide (f < w * z.calWindow) | none => false
      let s5 := if k.quality && after then
          match zoneQuality z.calMinEp l with
          | some q => (s4.put F.Z_QUALITY_QUALITY q.1 i).put F.Z_QUALITY_ENTRIES q.2 i
          | none => s4
        else s4
      let late := if k.due then k.late ++ k.closed.toList else k.late
      let s6 := s5.setCalZone { k with
        opens := rest, closed := some w, due := k.pairOk z.calWindow w && (k.closed == some (w - 1)), late := late,
        quality := k.quality && !after }
      s6.showZone z
  | _, _ => s

/-! ## The agreement test (R234, R235) -/

/-- What the agreement test finds for an entry. -/
inductive Verdict where
  | suspect | disagree | limited | stage (g : Nat) (cut : Bool)
  deriving DecidableEq, Repr

/-- The ratio of an appearance to a median (R233); none where both are 0, which binary64 leaves without a number. A
number over 0 is above every bound. -/
def relative (a m : Rat) : Option Rat := if m = 0 then (if a = 0 then none else some 3) else some (b64 (a / m))

/-- The agreement test for one entry: appearances relative to the zone in both windows and the gain. -/
def agree (z : Chan) (ra rb : Option Rat) (g : Nat) : Verdict :=
  let tol := b64 (mkRat z.calTol 10000)
  let step := b64 (mkRat z.calStep 10000)
  let abs (q : Rat) : Rat := if q < 0 then -q else q
  let far (r : Option Rat) : Bool := match r with | some q => decide (q < 1 / 2) || decide (2 < q) | none => false
  let off : Bool := match ra, rb with
    | some p, some q => decide (b64 (b64 (tol * b64 (p + q)) / 2) < abs (b64 (q - p)))
    | _, _ => false
  if far ra || far rb then .suspect
  else if off then .disagree
  else
    let gq : Rat := (g : Nat)
    let t : Int := match ra, rb with
      | some p, some q => roundHalfUp (b64 (b64 (gq * 2) / b64 (p + q)))
      | _, _ => Config.unstatedTarget g
    let lo : Int := max (z.calMin : Int) (b64 (gq * b64 (1 - step))).ceil
    let hi : Int := min (z.calMax : Int) (b64 (gq * b64 (1 + step))).floor
    if hi < lo then .limited
    else
      let new := min hi (max lo t)
      .stage new.toNat (decide (new ≠ t))

/-- The colours of a pair that are not rejected, with their medians, and those rejected for few (R234). -/
def pairColours (z : Chan) (la lb : List Entry) : List (Nat × Rat × Rat) × List Nat :=
  let abs (q : Rat) : Rat := if q < 0 then -q else q
  let tol := b64 (mkRat z.calTol 10000)
  ((List.range 3).filterMap (fun i => match zoneMedian z.calMinEp la i, zoneMedian z.calMinEp lb i with
    | some ma, some mb => if b64 (b64 (tol * b64 (ma + mb)) / 2) < abs (b64 (mb - ma)) then none else some (i, ma, mb)
    | _, _ => none),
   (List.range 3).filter (fun i => (zoneMedian z.calMinEp la i).isNone || (zoneMedian z.calMinEp lb i).isNone))

/-- Reject a pair (R235): its reason and the colours concerned. -/
def State.calReject (s : State) (z : Chan) (wb reason colours : Nat) : State :=
  if z.calFreeze then s
  else
    (((s.bump R.Z_REJECT_CNT z.index).raise F.CAL_EVT_REJECTED).put F.Z_STAT_LAST_REASON reason z.index).tally 0x0701
      [z.handle, wb, reason, colours]

/-- Stage entries for a frame: endpoint or group, colour and gain. -/
def State.stageEntries (s : State) (zone w k : Nat) (es : List (Nat × Nat × Nat × Nat)) : State :=
  { s with cal := { s.cal with staged := s.cal.staged ++ [{ zone := zone, window := w, accepted := s.now, frame := k, entries := es }] } }

/-- CAL_EVALUATE (R234): the pair that ends with the latest closed window, unless a correction or a CAL value has taken effect
since. Calibration runs in Hold and Show (R44). With FREEZE the flags of the members follow, and nothing is staged or counted. -/
def doCalEvaluate (i : Nat) (s : State) : State :=
  match s.chanAt kZone i with
  | none => s
  | some z =>
    let k := s.calZone i
    match k.closed with
    | none => s
    | some wb =>
      if k.due = false ∨ s.role = 2 ∨ s.power < 2 then s
      else
        let s0 := (s.setCalZone { k with due := false }).showZone z
        if k.pairOk z.calWindow wb = false then s0
        else if k.voids.contains wb ∨ k.voids.contains (wb - 1) then s0.calReject z wb 4 7
        else
          let la := s0.entries z (wb - 1)
          let lb := s0.entries z wb
          let q := pairColours z la lb
          let mask (l : List Nat) : Nat := (l.map (fun j => 2 ^ j)).sum
          let rejected := (List.range 3).filter (fun j => !(q.1.any (fun c => c.1 == j)))
          let both := lb.filterMap (fun e => (la.find? (fun a => a.chan.kind == e.chan.kind && a.chan.index == e.chan.index)).map
            (fun a => (a, e)))
          let verdicts := both.map (fun p => (p.2.chan, q.1.filterMap (fun c =>
            if p.1.eligible.getD c.1 false && p.2.eligible.getD c.1 false then
              some (c.1, agree z (relative (p.1.app.getD c.1 0) c.2.1) (relative (p.2.app.getD c.1 0) c.2.2)
                (s0.memberGain p.2.chan.kind p.2.chan.index c.1))
            else none)))
          let cleared := s0.each (membersOf s0.cmd.chans z.handle) (fun c t =>
            (t.putFlag (fDisagree c.kind) false c.index).putFlag (fLimited c.kind) false c.index)
          let s1 := cleared.each verdicts (fun v t =>
            let c := v.1
            let bad := (v.2.filter (fun x => decide (x.2 = .suspect))).length
            let n := min 255 (t.get (fSuspect c.kind) c.index + bad)
            let t1 := if v.2.isEmpty || z.calFreeze then t
              else if bad = 0 then t.put (fSuspect c.kind) 0 c.index
              else t.put (fSuspect c.kind) n c.index
            let t2 := if bad ≠ 0 ∧ z.calSuspect ≤ n ∧ z.calFreeze = false then t1.sensorFail c 1 else t1
            (t2.putFlag (fDisagree c.kind) (v.2.any (fun x => decide (x.2 = .disagree))) c.index).putFlag (fLimited c.kind)
              (v.2.any (fun x => match x.2 with | .limited => true | .stage _ cut => cut | _ => false)) c.index)
          let staged := verdicts.flatMap (fun v => v.2.filterMap (fun x => match x.2 with
            | .stage g _ => some (v.1.kind, v.1.index, x.1, g)
            | _ => none))
          let limited := (verdicts.flatMap Prod.snd).filter (fun x => match x.2 with
            | .limited => true | .stage _ cut => cut | _ => false)
          if z.calFreeze then s1.showZone z
          else if q.1.isEmpty then
            (s1.calReject z wb (if q.2.length = 3 then 1 else 2) (mask rejected)).showZone z
          else if staged.isEmpty then (s1.calReject z wb 3 (mask rejected)).showZone z
          else
            let f := s1.firstSFrom (s1.now + fiveMs)
            let s2 := (s1.bump R.Z_ACCEPT_CNT i).raise F.CAL_EVT_ACCEPTED
            let s3 := (s2.put F.Z_STAT_LAST_REASON 0 i).tally 0x0700 [z.handle, wb, f, staged.length, limited.length, mask rejected]
            ((s3.stageEntries z.handle wb f staged).sendMirror f false (.correction z.handle f staged)).showZone z

/-- CAL_SKIPPED (R239): a pair not evaluated by the close of wb + 1. -/
def doCalSkipped (i : Nat) (s : State) : State :=
  match s.chanAt kZone i with
  | none => s
  | some z =>
    let k := s.calZone i
    match k.late with
    | [] => s
    | wb :: rest =>
      let s1 := s.setCalZone { k with late := rest }
      (((s1.bump R.Z_REJECT_CNT i).raise F.CAL_EVT_REJECTED).put F.Z_STAT_LAST_REASON 5 i).tally 0x0704 [z.handle, wb]

/-! ## Taking effect (R236, R237) -/

/-- Staged entries are dropped (R237): causes numbered 0 member gone, stopped or out of the zone, 1 gain load, 2 Precision
change, Warm or Dormant, 3 takeover. -/
def State.noteDropped (s : State) (zone frame n cause : Nat) : State :=
  if n = 0 then s else (s.raise F.CAL_EVT_DROPPED).tally 0x0705 [zone, frame, n, cause]

/-- Keep of every staged correction only the entries that pass; what falls is dropped with a cause. -/
def State.dropStaged (s : State) (cause : Nat) (keep : Staged → (Nat × Nat × Nat × Nat) → Bool) : State :=
  let old := s.cal.staged
  let kept := old.map (fun g => { g with entries := g.entries.filter (keep g) })
  let s1 : State := { s with cal := { s.cal with staged := kept.filter (fun g => !g.entries.isEmpty) } }
  s1.each old (fun g t => t.noteDropped g.zone g.frame (g.entries.filter (fun e => !keep g e)).length cause)

/-- The whole of every staged correction is dropped (R237). -/
def State.dropAllStaged (s : State) (cause : Nat) : State := s.dropStaged cause (fun _ _ => false)

/-- Entries of members that are gone, stopped or out of the zone are dropped (R237). -/
def State.dropGone (s : State) : State :=
  s.dropStaged 0 (fun g e => s.cmd.chans.any (fun c =>
    c.kind == e.1 && c.index == e.2.1 && decide (c.st = .running) && c.memberZone == g.zone))

/-- The staged frames, and that of a gain load that named none, are computed anew on a new lattice with the same 5 ms rule,
counted from a device time (R237, R364). -/
def State.restage (s : State) (from_ : Nat → Nat) : State :=
  let k (accepted : Nat) : Nat := s.firstSFrom (max s.now (from_ accepted + fiveMs))
  { s with cal := { s.cal with
      staged := s.cal.staged.map (fun g => { g with frame := k g.accepted }),
      load := s.cal.load.map (fun l => if l.named then l else { l with frame := k l.accepted }) } }

/-- A Rate change whose last old frame is m-1 and whose first new one is j (R231, R237): windows with either are void, and the
staged frames follow the new lattice. -/
def State.calRate (s : State) (last first : Nat) : State := (((s.voidWindows last last).voidWindows first first).restage id)

/-- A correction of a zone takes effect at S(k). -/
def State.takeCorrection (s : State) (g : Staged) (n : Nat) : State :=
  let s1 := (s.each g.entries (fun e t => (t.setMemberGain e.1 e.2.1 e.2.2.1 e.2.2.2).noteGain e.1 e.2.1 n)).bump R.CAL_VERSION
  let i := handleIndex g.zone
  let b := s1.showAt n
  let k := s1.calZone i
  ((((s1.put64 R.Z_LAST_FRAME_LO n i).put R.Z_LAST_S_LO (b / 65536 / 1000000000 % 2 ^ 32) i).put R.Z_LAST_S_HI
    (b / 65536 / 1000000000 / 2 ^ 32 % 65536) i).put R.Z_LAST_NS (b / 65536 % 1000000000) i).setCalZone
      { k with effect := some n, quality := true }

/-- The result of a gain load and its events (R241). -/
def State.gainResult (s : State) (entries frame status check : Nat) : State :=
  ((((s.put F.CAL_LOAD_STAT_RESULT status).put F.CAL_LOAD_STAT_CHECK check).advance F.CAL_LOAD_STAT_SEQ).raise
    F.CAL_EVT_LOAD_DONE).tally 0x0706 [entries, frame, status, check]

/-- Accepted corrections and a gain load take effect at S(n) (R25, R236, R241). -/
def State.applyCorrections (s : State) (n : Nat) : State :=
  let s0 := s.dropGone
  let load := s0.cal.load.filter (fun l => decide (l.frame ≤ n))
  let s1 := match load with
    | some l => s0.dropStaged 1 (fun g e => !(decide (g.frame ≤ n) && l.entries.any (fun x =>
        handleKind x.1 == e.1 && handleIndex x.1 == e.2.1)))
    | none => s0
  let due := s1.cal.staged.filter (fun g => decide (g.frame ≤ n))
  let s2 : State := { s1 with cal := { s1.cal with staged := s1.cal.staged.filter (fun g => decide (n < g.frame)) } }
  let s3 := s2.each due (fun g t => t.takeCorrection g n)
  match load with
  | some l =>
    let s4 : State := { s3 with cal := { s3.cal with load := none } }
    let s5 := s4.each l.entries (fun e t => if (t.chanOf e.1).isSome then
        let kind := handleKind e.1
        let i := handleIndex e.1
        (((t.setMemberGain kind i 0 e.2.1).setMemberGain kind i 1 e.2.2.1).setMemberGain kind i 2 e.2.2.2).noteGain kind i n
      else t)
    (s5.bump R.CAL_VERSION).gainResult l.entries.length n stOK 0
  | none => s3

/-! ## Gain loads (R241) -/

/-- The entries of a gain-load table: handle, three gains, and the reserved bytes. -/
def State.readGains (s : State) (a count : Nat) : List ((Nat × Nat × Nat × Nat) × Nat) :=
  (List.range count).map (fun k =>
    let r (o n : Nat) : Nat := s.bulkLe (a + 12 * k + o) n
    ((r 0 4, r 4 2, r 6 2, r 8 2), r 10 2))

/-- The checks of R241, in order. -/
def State.gainChecks (s : State) (atFrame : Bool) : List (Nat × Bool × Nat) :=
  let a := s.get64 R.CAL_LOAD_ADDR_LO
  let count := s.get F.CAL_LOAD_COUNT_COUNT
  let es := s.readGains a count
  let bad := (es.map (fun e => s.handleStatus [kEndpoint, kDdgroup] e.1.1)).find? (fun x => x != stOK)
  [(1, s.cal.load.isSome, stBusy), (1, decide (s.role = 2), stNotPermitted),
   (2, a % 64 != 0 || !inUsable a (12 * count) || count == 0 || decide (4096 < count), stInconsistent),
   (3, bad.isSome, bad.getD stOK),
   (4, es.any (fun e => e.1.2.1 == 0 || e.1.2.2.1 == 0 || e.1.2.2.2 == 0 || e.2 != 0), stInconsistent),
   (5, atFrame && decide (s.sAt (s.get64 R.CAL_LOAD_FRAME_LO) < s.now + fiveMs), stTimeout)]

/-- A write of CAL_LOAD_CTL submits a load that is accepted. -/
def State.gainAccepted (s : State) (value : Nat) : Bool :=
  bitAt value 0 && decide ((firstFail (s.gainChecks (bitAt value 1))).2 = stOK)

/-- GAIN_LOAD (R241): a write of CAL_LOAD_CTL; with GO the load is checked and accepted or refused. -/
def doGainLoad (value : Nat) (s : State) : State :=
  let s1 := s.put F.CAL_LOAD_CTL_AT_FRAME (bits value 1 1)
  if bitAt value 0 = false then s1
  else
    let count := s1.get F.CAL_LOAD_COUNT_COUNT
    let f := firstFail (s1.gainChecks (bitAt value 1))
    if f.2 = stOK then
      let k := if bitAt value 1 then s1.get64 R.CAL_LOAD_FRAME_LO else s1.firstSFrom (s1.now + fiveMs)
      let es := (s1.readGains (s1.get64 R.CAL_LOAD_ADDR_LO) count).map Prod.fst
      { s1 with cal := { s1.cal with load := some { named := bitAt value 1, accepted := s1.now, frame := k, entries := es } } }
    else s1.gainResult count 0 f.2 f.1

/-! ## CAL_CMD (R238, R243) -/

/-- The zone that CAL_CMD_ZONE names. -/
def State.cmdZone (s : State) : Option Chan :=
  let h := s.get R.CAL_CMD_ZONE
  if s.handleStatus [kZone] h = stOK then s.chanOf h else none

/-- CLEAR_FAILED_MARKS: CAL_CMD operation 1. -/
def doClearFailedMarks (s : State) : State :=
  let s1 := s.put F.CAL_CMD_OP 1
  match s1.cmdZone with
  | none => s1.raise F.CAL_EVT_CMD_REJECT
  | some z =>
    let ms := membersOf s1.cmd.chans z.handle
    let n := (ms.filter (fun c => s1.flag (fFailed c.kind) c.index)).length
    ((s1.each ms (fun c t => t.sensorClear c)).tally 0x0707 [z.handle, n]).showZone z

/-- Every window that is open in a zone becomes void, as CAL_CMD operation 2 makes it. -/
def State.voidOpen (s : State) (z : Chan) : State :=
  let k := s.calZone z.index
  let void (w : Window) : Window := if k.opens.any (fun o => o.1 == w.number) then { w with void := true } else w
  let s2 := s.each (membersOf s.cmd.chans z.handle) (fun c t =>
    let m := t.calMember c.kind c.index
    t.setCalMember { m with windows := m.windows.map void })
  s2.setCalZone { k with changed := some s2.frameNum, due := false }

/-- VOID_OPEN_WINDOWS: CAL_CMD operation 2. -/
def doVoidOpenWindows (s : State) : State :=
  let s1 := s.put F.CAL_CMD_OP 2
  match s1.cmdZone with
  | none => s1.raise F.CAL_EVT_CMD_REJECT
  | some z => s1.voidOpen z

/-- A write of CAL_CMD names a zone that exists. -/
def State.calCmdAccepted (s : State) : Bool := s.cmdZone.isSome

def execAccRead (frame : Nat) (s : State) : Host.Outcome State Fault Refusal := .next (doAccRead frame s)
def execAccMissed (frame : Nat) (s : State) : Host.Outcome State Fault Refusal := .next (doAccMissed frame s)
def execWindowClose (zone : Fin 256) (s : State) : Host.Outcome State Fault Refusal := .next (doWindowClose zone.val s)
def execCalEvaluate (zone : Fin 256) (s : State) : Host.Outcome State Fault Refusal := .next (doCalEvaluate zone.val s)
def execCalSkipped (zone : Fin 256) (s : State) : Host.Outcome State Fault Refusal := .next (doCalSkipped zone.val s)
def execGainLoad (value : Word) (s : State) : Host.Outcome State Fault Refusal :=
  .next (s.mirrored (s.gainAccepted value.toNat) (.gainLoad value.toNat) (doGainLoad value.toNat))
def execClearFailedMarks (s : State) : Host.Outcome State Fault Refusal :=
  .next (s.mirrored s.calCmdAccepted (.calCmd (1 + 2 ^ 31)) doClearFailedMarks)
def execVoidOpenWindows (s : State) : Host.Outcome State Fault Refusal :=
  .next (s.mirrored s.calCmdAccepted (.calCmd (2 + 2 ^ 31)) doVoidOpenWindows)

end Sys2Proof.Machine
end

