-- ==== Sys2Proof/Machine/CmdOps.lean ====
section
/-! DEFINITION. The lattice a command is read on (R139, R59, R364), completions (R132 to R134), the command log of a pair
(R481) and the end of pending deferred commands. -/
namespace Sys2Proof.Machine
open Sys2Proof

/-! ## The lattice that deferred commands are read on -/

/-- The first frame of the new lattice, while a rate change or a step runs (R57, R361). -/
def State.resume (s : State) : Option Nat :=
  match s.sys.rateChg with
  | some r => some r.first
  | none => s.tim.plan.map StepPlan.first

/-- A new lattice is agreed and not yet in force. -/
def State.latticeAhead (s : State) : Bool :=
  s.sys.rateChg.any (fun r => r.newRate != s.rate) || s.tim.plan.any (fun p => !p.done)

/-- The new lattice is in force: what was read on it is read on the lattice of the device. -/
def State.settleLattice (s : State) : State :=
  { s with cmd := { s.cmd with deferred := s.cmd.deferred.map (fun d => { d with ahead := false }) } }

/-- S(k) on the lattice that frame k lies on, in device time as it runs now: of the new rate during a rate change, and
before a step θ earlier than it will read. -/
def State.sLattice (s : State) (k : Nat) : Int :=
  match s.sys.rateChg with
  | some r => (boundaryOf r.newRate (k - 2) : Int) - (s.adv : Int)
  | none => (s.sAt k : Int) - (match s.tim.plan with
    | some p => if p.done then 0 else p.theta
    | none => 0)

/-- Frame k is at or past its S(k), or below the first frame of a new lattice (R26, R59, R364). -/
def State.tooLate (s : State) (k : Nat) : Bool :=
  (match s.resume with
    | some j => decide (k < j)
    | none => decide (k < s.sys.nextS)) || decide (s.sLattice k ≤ (s.now : Int))

/-- CH_CTL.GUARD in units of 2^-16 ns; below 50 it acts as 50. -/
def State.guard (s : State) : Nat := max 50 (s.get F.CH_CTL_GUARD) * 1000 * 65536

/-- The smallest k whose S(k) lies at least the guard after now (R139). -/
def State.earliest (s : State) : Nat :=
  let t : Nat := ((s.now + s.guard : Nat) : Int).toNat
  match s.sys.rateChg with
  | some r =>
    let n := frameOf r.newRate (t + s.adv) + 2
    max r.first (if t ≤ boundaryOf r.newRate (n - 2) - s.adv then n else n + 1)
  | none =>
    match s.tim.plan with
    | some p => max p.first (s.firstSFrom (if p.done then t else ((t : Int) + p.theta).toNat))
    | none => max s.sys.nextS (s.firstSFrom t)

/-- The number of the latest boundary, on the lattice that commands are read on. -/
def State.latestB (s : State) : Nat :=
  match s.sys.rateChg with
  | some r => frameOf r.newRate s.now
  | none =>
    match s.tim.plan with
    | some p => if p.done then s.frameNum else frameOf s.rate ((s.now : Int) + p.theta).toNat
    | none => s.frameNum

/-- The frame a deferred command names (R139). -/
def State.namedFrame (s : State) (d : Desc) : Nat := if d.frame = 0 then s.earliest else d.frame

/-! ## Completions -/

/-- The 48 bytes of a completion record (R132). -/
def Completion.bytes (c : Completion) : List Nat :=
  leBytes 4 c.tag ++ [c.status, c.opcode, c.check, c.len] ++ leBytes 4 c.result ++ leBytes 4 c.detail ++ leBytes 8 c.frame ++
  leBytes 16 c.value ++ leBytes 8 0

/-- The completion of a command carried out. -/
def okComp (d : Desc) (frame result : Nat) : Completion :=
  { tag := d.tag, status := stOK, opcode := d.opcode, check := 0, len := 0, result := result, detail := 0, frame := frame,
    value := 0 }

/-- The completion of a command refused. -/
def failComp (d : Desc) (frame check status detail : Nat) : Completion :=
  { tag := d.tag, status := status, opcode := d.opcode, check := check, len := 0, result := 0, detail := detail, frame := frame,
    value := 0 }

/-- The pail is bound as a completion pail. -/
def State.compPail (s : State) (p : Nat) : Option Pail :=
  match s.pail p with
  | some q => if q.role = 1 then some q else none
  | none => none

/-- The route of a command pail is usable, and the completion pail it names (R128). -/
def State.route (s : State) (p : Nat) : Option Nat :=
  let c := s.get F.CH_ROUTE_COMP_PAIL p
  if s.flag F.CH_ROUTE_EN p && (s.compPail c).isSome then some c else none

/-- Write a whole record into a completion pail that has room. -/
def State.pushRecord (s : State) (p : Nat) (bytes : List Nat) : State :=
  let seq := s.get F.PL_SEQ_NEXT p
  let s1 := s.reserve p 255
  match s1.pail p with
  | none => s1
  | some q =>
    match reservedAt q seq with
    | none => s1
    | some k =>
      let before := countedItems q.items
      let s2 := (s1.writePail q (s1.slotAddr q k) (bytes.take q.itemBytes)).modPail p (fun q =>
        { q with items := q.items.modify k (fun i => { i with len := q.itemBytes, phase := .ready }) })
      let after := match s2.pail p with | some x => countedItems x.items | none => before
      ((s2.crossLevel q before after).syncPail p).serveWaiting p

/-- Status of a logged command in RED_MLOG. -/
def State.logStatus (s : State) (f : InFlight) (c : Completion) : State :=
  match f.mlog with
  | some e => s.put F.RED_MLOG_INFO_STATUS c.status e
  | none => s

/-- A completion leaves for its pail (R128); that of a WAIT with FRAME 0 takes the frame number now, when every earlier
command of its pail has completed (R130, R132). It is dropped where the pail is no longer a completion pail; false where the pail is
full. -/
def State.deliver (s : State) (f : InFlight) (c : Completion) : Bool × State :=
  match s.compPail f.cpail with
  | none => (true, s.tally 0x0305 [f.pail])
  | some q =>
    if q.items.length < q.depth then
      let out : Completion := if f.atEnd && c.status == stOK then { c with frame := s.frameNum } else c
      let t := s.pushRecord f.cpail out.bytes
      (true, if f.signal then t.msi 0 else t)
    else (false, s)

/-- The first command, in each pail's submission order, whose completion may be written now (R133). -/
def State.nextDelivery (s : State) : Option (InFlight × Completion) :=
  let rec go : List InFlight → List Nat → Option (InFlight × Completion)
    | [], _ => none
    | f :: l, seen =>
      if seen.contains f.pail then go l seen
      else
        match f.comp with
        | some c =>
          (match s.compPail f.cpail with
            | some q => if q.items.length < q.depth then some (f, c) else go l (f.pail :: seen)
            | none => some (f, c))
        | none => go l (f.pail :: seen)
  go s.cmd.flight []

/-- Write completions as far as order and room allow. -/
def State.settleGo (s : State) : Nat → State
  | 0 => s
  | n + 1 =>
    match s.nextDelivery with
    | none => s
    | some (f, c) =>
      let t := (s.deliver f c).2
      ({ t with cmd := { t.cmd with flight := t.cmd.flight.filter (fun g => g.id != f.id) } } : State).settleGo n

/-- Write every completion that can be written. -/
def State.settle (s : State) : State := s.settleGo (s.cmd.flight.length + 1)

/-- A stale use is counted, and recorded at most once per millisecond (R149). -/
def State.noteStale (s : State) (handle opcode pail : Nat) : State :=
  (s.bump R.CH_STALE_CNT).tallyLimited 0x03030000 1000000 0x0303 (fun _ => [handle, opcode, pail])

/-- A command in flight completes. -/
def State.complete (s : State) (id : Nat) (handle : Nat) (c : Completion) : State :=
  match s.cmd.flight.find? (fun f => f.id == id) with
  | none => s
  | some f =>
    let l := s.cmd.flight.map (fun g => if g.id == id then { g with comp := some c } else g)
    let s1 := ({ s with cmd := { s.cmd with flight := l } } : State).logStatus f c
    if c.status = stStale then s1.noteStale handle c.opcode f.pail else s1

/-- CH_STAT, CH_SET_STATn and CH_CUE_FREE (R148). -/
def State.syncCmd (s : State) : State :=
  let commits := (s.cmd.deferred.filter (fun d => match d.act with | .commit _ _ => true | _ => false)).length
  let fires := (s.cmd.deferred.filter (fun d => match d.act with | .fire _ _ => true | _ => false)).length
  let draining := (s.cmd.chans.filter (fun c => decide (c.st = .draining))).length
  let used := (s.cmd.cues.map (fun c => c.2.length)).sum
  let s1 := (((s.put F.CH_STAT_PEND_COMMIT commits).put F.CH_STAT_PEND_FIRE fires).put F.CH_STAT_DRAINING (min draining 65535)).put
    F.CH_CUE_FREE_ENTRIES (1048576 - used)
  s1.each s.cmd.sets.zipIdx (fun q t => (t.putFlag F.CH_SET_STAT_LOCKED q.1.locked q.2).put F.CH_SET_STAT_ENTRIES q.1.entries.length q.2)

/-! ## Sets and pending commands -/

/-- A shadow set. -/
def State.setAt (s : State) (n : Nat) : ShadowSet := s.cmd.sets.getD n { locked := false, entries := [] }
/-- Change a shadow set. -/
def State.modSet (s : State) (n : Nat) (f : ShadowSet → ShadowSet) : State :=
  { s with cmd := { s.cmd with sets := s.cmd.sets.modify n f } }

/-- Two entries are of the same handle and PARAM, the same handle's run state, or the same field (R138). -/
def SetEntry.same (a b : SetEntry) : Bool :=
  match a, b with
  | .param h p _ _, .param g q _ _ => h == g && p == q
  | .run h _, .run g _ => h == g
  | .field x l _ _, .field y m _ _ => x == y && l == m
  | _, _ => false

/-- Enter an entry in a list: in the place of the one it replaces, else at the end (R138). -/
def enterEntry (l : List SetEntry) (e : SetEntry) : List SetEntry :=
  if l.any (fun x => x.same e) then l.map (fun x => if x.same e then e else x) else l ++ [e]

/-- The handle an entry is for; 0 for a register field. -/
def SetEntry.handle (e : SetEntry) : Nat :=
  match e with
  | .param h _ _ _ => h
  | .run h _ => h
  | .field _ _ _ _ => 0

/-- The entries that a pending deferred command applies. -/
def State.deferredEntries (s : State) (d : Deferred) : List SetEntry :=
  match d.act with
  | .commit n _ => (s.setAt n).entries
  | .fire _ es => es
  | .run h on => [.run h on]
  | _ => []

/-- Unlock a set: emptied, or with its entries kept. -/
def State.unlockSet (s : State) (n : Nat) (keep : Bool) : State :=
  s.modSet n (fun x => { locked := false, entries := if keep then x.entries else [] })

/-- Remove a pending deferred command, with the lists of lamps copied for it (R336). -/
def State.dropDeferred (s : State) (d : Deferred) : State :=
  let hs := (s.deferredEntries d).filterMap (fun e => match e with | .param h 0x0A01 _ _ => some h | _ => none)
  let lists := s.ddp.lists.filter (fun l => !(hs.contains l.handle && l.frame == d.frame))
  { s with
    cmd := { s.cmd with deferred := s.cmd.deferred.filter (fun e => e.id != d.id) },
    ddp := { s.ddp with lists := lists } }

/-- The descriptor fields a deferred command's completion repeats. -/
def Deferred.desc (d : Deferred) : Desc :=
  { opcode := d.opcode, flags := 0, tag := d.tag, handle := 0, set := 0xFF, frame := d.frame, param := 0, len := 0, aux := 0,
    value := 0, reserved := 0, unreadable := false }

/-- A pending deferred command completes with TIMEOUT and changes nothing (R59, R144, R364): a set is unlocked with its
entries kept, and a DESTROY leaves its channel as it was (R125). Its completion gives CHECK 6, the check that gives TIMEOUT
(DESIGN CHOICE: R59, R144 and R364 give the status alone). -/
def State.timeoutOne (s : State) (d : Deferred) : State :=
  let s1 := s.dropDeferred d
  let s2 := match d.act with
    | .commit n _ => s1.unlockSet n true
    | .destroy h _ => s1.modChan (handleKind h) (handleIndex h) (fun c =>
        if c.handle = h then { c with destroyFrame := none, force := false } else c)
    | _ => s1
  s2.complete d.id 0 (failComp d.desc d.frame 6 stTimeout 0xFFFFFFFF)

/-- Every pending deferred command that a condition picks completes with TIMEOUT. -/
def State.timeoutDeferred (s : State) (p : Deferred → Bool) : State :=
  ((s.each (s.cmd.deferred.filter p) (fun d t => t.timeoutOne d)).settle).syncCmd

end Sys2Proof.Machine
end

