-- ==== Sys2Proof/Machine/Budget.lean ====
section
/-! DEFINITION. Budgets of kernel kinds (R105 to R107) and the placement rules that endpoints and direct-drive ports share
(R213, orders 3 and 4). -/
namespace Sys2Proof.Machine
open Sys2Proof

/-- The window W of a kind in µs at a frame rate (R105). -/
def kindWindow (rate kind : Nat) : Rat :=
  let t := periodUs rate
  match kind with
  | 2 => t - 600 - t / 64 | 3 => t - 600 - t / 64
  | 4 => t - 600 - t / 16 - t / 128
  | 5 => t / 16
  | 6 => t - 600 - t / 16
  | 7 => t - 600 | 8 => t - 600
  | _ => t

/-- The budget of a kind in clocks per frame under a structure (R106). -/
def Structure.kindBudget (st : Structure) (skim : Bool) (rate kind : Nat) : Nat :=
  let shares := ((List.range 12).map (fun e => match st.engineSec skim e with
    | some x => ((x.kinds.filter (fun k => k.kind == kind)).map KindEntry.share).sum
    | none => 0)).sum
  ((shares * 1200 : Nat) * kindWindow rate kind / 1024).floor.toNat

/-- The budget of a kind in the modes and structure in force; 0 without a structure. -/
def State.kindBudget (s : State) (kind : Nat) : Nat :=
  ((s.str.inForce).map (fun st => st.kindBudget s.skim s.rate kind)).getD 0

/-- The raster of n pixels at a pitch from x stays within [a, a + len). -/
def spanInside (x : Int) (n pitch : Nat) (a : Int) (len : Nat) : Bool :=
  decide (a ≤ x + (pitch / 512 : Nat)) && decide (x + ((2 * (n - 1) + 1) * pitch / 512 : Nat) < a + len)

/-- The bytes of a map (R211). -/
def mapBytes (mode w h : Nat) : Nat := 16 + (if mode = 1 then 4 * (w + h) else 8 * (w * h))

/-- Order 3 of R213: a raster whose pitch is out of range or whose footprint leaves the region. -/
def rasterBad (c : Chan) (r : Option RegionWork) : Bool :=
  let odd := [1, 3, 6, 7].contains c.epRot
  let pw := if odd then c.epH else c.epW
  let ph := if odd then c.epW else c.epH
  !(decide (64 ≤ c.epPx) && decide (c.epPx ≤ 4096) && decide (64 ≤ c.epPy) && decide (c.epPy ≤ 4096)) ||
  (match r with
    | some q => !(spanInside c.epX pw c.epPx q.x q.w && spanInside c.epY ph c.epPy q.y q.h)
    | none => false)

/-- Order 4 of R213: a map that is turned, ill placed, of another panel, or whose box leaves the region. -/
def State.mapBad (s : State) (c : Chan) (r : Option RegionWork) : Bool :=
  let a := c.epMap
  let b (k : Nat) : Int := toSigned 16 (s.bulkLe (a + 8 + 2 * k) 2)
  c.epRot != 0 || a % 64 != 0 || !inStoreArea a (mapBytes c.epMode c.epW c.epH) ||
  s.bulkLe a 2 != c.epW || s.bulkLe (a + 2) 2 != c.epH || s.bulkLe (a + 4) 1 != c.epMode ||
  (match r with
    | some q => !(decide (q.x ≤ c.epX + b 0 ∧ q.y ≤ c.epY + b 1 ∧ c.epX + b 2 < q.x + q.w ∧ c.epY + b 3 < q.y + q.h))
    | none => false)

/-- Orders 3 and 4 of R213 for an endpoint's geometry. -/
def State.placementBad (s : State) (c : Chan) (r : Option RegionWork) : Bool :=
  if c.epMode = 0 then rasterBad c r else s.mapBad c r

end Sys2Proof.Machine
end

