-- ==== Sys2Proof/Machine/DirectDrive.lean ====
section
/-! DEFINITION. Direct-drive LED ports (R319 to R346). -/
namespace Sys2Proof.Machine
open Sys2Proof

/-! ## Port parameters (R321, R323) -/

/-- CHIPS of a port. -/
def State.ddChips (s : State) (p : Nat) : Nat := s.get F.P_CHAIN_CHIPS p + 1
/-- The scan S of a port. -/
def State.ddScan (s : State) (p : Nat) : Nat := 2 ^ s.get F.P_CHAIN_SCAN p
/-- L of a port. -/
def State.ddLine (s : State) (p : Nat) : Nat := 16 * s.ddChips p
/-- Lamps of a port. -/
def State.ddLamps (s : State) (p : Nat) : Nat := s.ddLine p * s.ddScan p
/-- What a port holds beside its registers. -/
def State.ddPort (s : State) (p : Nat) : DdPort := s.ddp.ports.getD p DdPort.reset
/-- Change what a port holds beside its registers. -/
def State.modDd (s : State) (p : Nat) (f : DdPort → DdPort) : State :=
  { s with ddp := { s.ddp with ports := s.ddp.ports.modify p f } }
/-- A port forgets its shifts, its recovery and what was to come. -/
def State.ddClear (s : State) (p : Nat) : State := (s.modDd p (fun _ => DdPort.reset)).putFlag F.P_STAT_CONF_BAD false p
/-- STATE of a port (R334). -/
def State.ddState (s : State) (p : Nat) : Nat := s.get F.P_STAT_STATE p
/-- EN of a port. -/
def State.ddEnabled (s : State) (p : Nat) : Bool := s.flag F.P_CTL_EN p

/-- A port enters a state, and the change is recorded. -/
def State.ddEnter (s : State) (p st : Nat) : State :=
  let old := s.ddState p
  if old = st then s else (s.put F.P_STAT_STATE st p).tally 0x0B00 [p, old, st, s.frameNum]

/-- Length of the shift of a frame in units of 2^-16 ns (R327). -/
def State.shiftTime (s : State) (p : Nat) : Nat :=
  (17 * s.ddScan p + 2) * 16 * s.ddChips p * 10000 * 65536 / max 1 (s.get F.P_CLK_DCLK p)
/-- The window of a shift, T + 550 µs, in the same units. -/
def State.shiftWindow (s : State) : Nat := periodOf s.rate + 550000 * 65536

/-! ## Lamp groups (R336) -/

def Chan.ddPortNo (c : Chan) : Nat := c.fld 0x0A01 0 1
def Chan.ddAon (c : Chan) : Bool := bitAt (c.fld 0x0A01 1 1) 0
def Chan.ddCount (c : Chan) : Nat := c.fld 0x0A01 2 2
def Chan.ddList (c : Chan) : Nat := c.fld 0x0A01 8 8
def Chan.ddSensor (c : Chan) : Nat := c.fld 0x0A02 0 1

/-- Copy the list of a group whose LAMPS value a commit accepted for frame k changes. -/
def State.copyLamps (s : State) (handle k value : Nat) : State :=
  let n := value / 2 ^ 16 % 2 ^ 16
  let base := value / 2 ^ 64
  let l : LampList := { handle := handle, value := value, frame := k, lamps := (List.range n).map (fun i => s.bulkLe (base + 2 * i) 2) }
  { s with ddp := { s.ddp with lists := l :: s.ddp.lists } }

/-- The lamps of a group in frame n. -/
def State.groupLamps (s : State) (c : Chan) (n : Nat) : List Nat :=
  ((s.ddp.lists.find? (fun l => l.handle == c.handle && l.value == c.val 0x0A01 && decide (l.frame ≤ n))).map LampList.lamps).getD []

/-- The running groups of a port among channels. -/
def groupsOf (chans : List Chan) (p : Nat) : List Chan :=
  chans.filter (fun c => c.kind == kDdgroup && decide (c.st = .running) && c.ddPortNo == p)

/-! ## Lamp values (R324, R325) -/

/-- The panel of a port as endpoint geometry: L wide and S high, PMODE 1 a map of PMODE 2's form. -/
def State.ddPanel (s : State) (p : Nat) : Chan :=
  let pm := s.get F.P_GEOM_PMODE p
  { kind := kEndpoint, index := 0, gen := 0, st := .running, createdAt := 0, destroyFrame := none, force := false,
    discarded := 0, nulls := [],
    params := [(0x0510, s.get R.P_REGION p + s.get R.P_X p * 2 ^ 32 + s.get R.P_Y p * 2 ^ 64 + s.get F.P_GEOM_ROT p * 2 ^ 96),
      (0x0511, s.ddLine p + s.ddScan p * 2 ^ 16),
      (0x0512, 2 * pm + s.get R.P_PITCH p * 2 ^ 16 + (s.get64 R.P_ADDR_LO p) * 2 ^ 64)] }

/-- The base that P_ADDR names. -/
def State.ddAddr (s : State) (p : Nat) : Nat := s.get64 R.P_ADDR_LO p

/-- v of a lamp in a frame, in Cream codes. -/
def State.lampValue (s : State) (w : FrameWork) (p l : Nat) : List Nat :=
  if s.flag F.P_CTL_SOURCE p then (List.range 3).map (fun k => s.pictureLe (s.ddAddr p + 8 * l + 2 * k) 2)
  else
    let c := s.ddPanel p
    let px : Option Px := match w.epRegion c, s.epSample c (l % s.ddLine p) (l / s.ddLine p) with
      | some r, some q => (inRegion r q).map (fun z => w.canvasAt r z.1 z.2)
      | _, _ => none
    let f := if w.skim then 16 else 1
    match px with
    | some q => [f * q.r, f * q.g, f * q.b]
    | none => [0, 0, 0]

/-- b of R325 for a lamp whose group is known. -/
def State.lampDrive (s : State) (g : Option Chan) (v : List Nat) : List Nat :=
  (List.range 3).map (fun k =>
    let gain := match g with
      | some c => s.memberGain kDdgroup c.index k
      | none => 16384
    (sat0 (rndI ((v.getD k 0 * gain : Nat) : Int) 16384)).toNat)

/-- x of R325. -/
def lampCode (b : List Nat) : List Nat := b.map (fun x => min 65535 (2 * x))

/-- The group of a lamp in frame n. -/
def State.groupOfLamp (s : State) (groups : List Chan) (n l : Nat) : Option Chan :=
  groups.find? (fun c => (s.groupLamps c n).contains l)

/-- The address of a port's buffer b (R326, R443). -/
def ddBuffer (p b : Nat) : Nat := ddBuffers + p * 0x60000 + b * 0x30000

/-- DIRECT writes frame n of a port into buffer n mod 2 (R326). -/
def State.directWrite (s : State) (w : FrameWork) (p : Nat) : State :=
  let n := w.frame
  if (s.ddPort p).written = some n ∨ s.kindServed 8 = false then s
  else
    let groups := groupsOf w.chans p
    let bytes := (List.range (s.ddLamps p)).flatMap (fun (l : Nat) =>
      (lampCode (s.lampDrive (s.groupOfLamp groups n l) (s.lampValue w p l))).flatMap (leBytes 2))
    (s.writeBulk (ddBuffer p (n % 2)) bytes).modDd p (fun d => { d with written := some n })

/-! ## Group drive sums (R340) -/

/-- The address of a group's record of frame n. -/
def groupRecord (n i : Nat) : Nat := lampSums + (n % 8) * 98304 + i * 48

/-- The record of one running group for a frame. -/
def State.groupSums (s : State) (w : FrameWork) (c : Chan) : State :=
  let n := w.frame
  let p := c.ddPortNo
  let st := s.ddState p
  let stopped := !(s.ddEnabled p && (st == 2 || st == 3 || st == 5))
  let flags := (if st = 2 ∨ st = 5 then 1 else 0) + (if stopped then 2 else 0) +
    (if s.flag F.G_STAT_BLANKED c.index then 4 else 0) + (if (s.ddPort p).late = some n then 8 else 0)
  let vs := if stopped then [] else (s.groupLamps c n).map (fun l => s.lampValue w p l)
  let bs := vs.map (fun v => s.lampDrive (some c) v)
  let sumAt (l : List (List Nat)) (k : Nat) : Nat := (l.map (fun q => q.getD k 0)).sum
  let clip := (bs.filter (fun b => (lampCode b).any (· == 65535))).length
  s.writeBulk (groupRecord n c.index)
    (driveBytes c.index flags clip n ((List.range 3).map (sumAt vs)) ((List.range 3).map (sumAt bs)))

/-- The end of DIRECT's work of frame n, by D(n): every buffer and every group's record is written. -/
def State.finishDirect (s : State) (n : Nat) : State :=
  match s.frameWork n with
  | none => s
  | some w =>
    if w.active = false then s
    else
      let s1 := s.each ((List.range 32).filter (fun p => s.ddEnabled p && [2, 3, 5].contains (s.ddState p)))
        (fun p t => t.directWrite w p)
      s1.each (w.running kDdgroup) (fun c t => t.groupSums w c)

/-! ## The shift (R326, R327, R332, R333) -/

/-- The configuration word of a chip: SHOW with PHASE_EN and BASE, or plain. -/
def confWord (bits : Nat) (phase : Bool) (chip : Nat) : Nat :=
  bits + (if phase then 16 + 32 * (chip % 2) else 0)

/-- A lamp's code at depth B (R326). -/
def depthCode (b x : Nat) : Nat := if 16 ≤ b then x else min (2 ^ b - 1) ((x + 2 ^ (15 - b)) / 2 ^ (16 - b))

/-- A red, green and blue word side by side. -/
def packWords (l : List Nat) : Nat := l.getD 0 0 + l.getD 1 0 * 2 ^ 16 + l.getD 2 0 * 2 ^ 32

/-- The code of a lamp in a colour in a shift of frame n. -/
def State.shiftCode (s : State) (groups : List Chan) (n buf depth : Nat) (test : Bool) (p l k : Nat) : Nat :=
  let blank := match s.groupOfLamp groups n l with
    | some c => s.flag F.G_STAT_BLANKED c.index
    | none => false
  if blank then 0
  else
    let x := if test then (if (l + n / 60) % 3 = k then 32768 else 0)
      else s.pictureLe (ddBuffer p buf + 6 * l + 2 * k) 2
    depthCode depth x

/-- The word cycles before the data: the configuration word, CONFREAD, FAULTREAD and the fault words of the rows. -/
def State.headCycles (s : State) (p bits : Nat) (phase data : Bool) : List (Nat × List Nat) :=
  let n := s.ddChips p
  let zeros := List.replicate n 0
  let conf := (List.range n).reverse.map (fun k => confWord bits phase k)
  [(2, conf), (5, zeros), (4, zeros)] ++ List.replicate (s.ddScan p - 1) (4, zeros) ++ (if data then [] else [(0, zeros)])

/-- The data word cycles of a shift: rows, then channels, the far chip first. -/
def State.dataCycles (s : State) (groups : List Chan) (n buf depth : Nat) (test : Bool) (p : Nat) : List (Nat × List Nat) :=
  (List.range (s.ddScan p)).flatMap (fun (r : Nat) => (List.range 16).map (fun (c : Nat) =>
    (1, (List.range (s.ddChips p)).reverse.map (fun (chip : Nat) =>
      let l := r * s.ddLine p + 16 * chip + c
      packWords ((List.range 3).map (fun k => s.shiftCode groups n buf depth test p l k))))))

/-! ## Faults read back (R338, R339) -/

/-- The faulted lamps that the fault words of the rows show. -/
def State.faultedLamps (s : State) (p : Nat) (faults : List Nat) : List Nat :=
  (List.range (s.ddScan p)).flatMap (fun (r : Nat) =>
    ((List.range (s.ddLine p)).filter (fun k => bitAt (faults.getD r 0) k)).map (fun k => r * s.ddLine p + k))

/-- One group's share of a readback. -/
def State.groupFaults (s : State) (c : Chan) (n : Nat) (lamps : List Nat) : State :=
  let i := c.index
  let mine := (s.groupLamps c n).filter (fun l => lamps.contains l)
  let s1 := s.put F.G_STAT_FAULTED mine.length i
  if s1.flag F.G_STAT_BLANKED i then
    if mine.isEmpty && s1.ddp.releasing.contains i then
      let s2 := s1.putFlag F.G_STAT_BLANKED false i
      { s2 with ddp := { s2.ddp with releasing := s2.ddp.releasing.filter (· != i) } }
    else s1
  else
    match c.ddAon, mine with
    | true, l :: _ =>
      let s2 := ((s1.putFlag F.G_STAT_BLANKED true i).raise F.DDP_EVT_GROUP_BLANKED).tally 0x0B04 [i, l, n]
      if s2.ddState c.ddPortNo = 4 then s2.modDd c.ddPortNo (fun d => { d with reshift := true }) else s2
    | _, _ => s1

/-- The fault words of a shift: the fault map, the count and the groups. -/
def State.readFaults (s : State) (chans : List Chan) (p n : Nat) (faults : List Nat) : State :=
  let lamps := s.faultedLamps p faults
  let count := lamps.length
  let bytes := (List.range (ceilDiv (s.ddLamps p) 8)).map (fun (b : Nat) =>
    ((List.range 8).map (fun (k : Nat) => if lamps.contains (8 * b + k) then 2 ^ k else 0)).sum)
  let s1 := s.writeBulk (ddFaultMap + 4096 * p) bytes
  let s2 := if s1.get F.P_STAT_LAMPS_FAULTED p = count then s1
    else
      let q := match lamps with
        | l :: _ => (l, s1)
        | [] => s1.free 16
      ((q.2.put F.P_STAT_LAMPS_FAULTED count p).raise F.DDP_EVT_LAMP_FAULT).tallyLimited (0x0B030000 + p) oneSecond 0x0B03
        (fun _ => [p, count, q.1])
  s2.each (groupsOf chans p) (fun c t => t.groupFaults c n lamps)

/-- A configuration word read back wrong (R333): the port enters recovery. -/
def State.confBad (s : State) (p n : Nat) : State :=
  let s1 := (((s.putFlag F.P_STAT_CONF_BAD true p).bump R.P_CONF_CNT p).tally 0x0B05 [p, n]).detect 0x31
  let s2 := s1.modDd p (fun d => { d with good := some 0, showAt := none, startAt := none })
  if s2.ddState p = 3 then s2.ddEnter p 2 else s2

/-- The comparison of the configuration words shifted out with those written. `phase` says that they were SHOW's. -/
def State.checkConf (s : State) (p n : Nat) (phase : Bool) (written conf : List Nat) : State :=
  let q := s.opportunity 0x31 p 0
  if q.1 || conf != written then q.2.confBad p n
  else
    match (q.2.ddPort p).good with
    | none => q.2
    | some g =>
      if phase then q.2.modDd p (fun d => { d with good := none, showAt := some n })
      else q.2.modDd p (fun d => { d with good := some (g + 1) })

/-- A shifted frame that no edge has swapped in is overwritten unshown (R329). -/
def State.skipShifted (s : State) (p : Nat) : State :=
  if s.flag F.P_CTL_SYNC_SRC p then
    (s.each (s.ddPort p).shifted (fun q t => (t.bump R.P_SKIP_CNT p).tally 0x0B08 [p, q.2])).modDd p (fun d => { d with shifted := [] })
  else s

/-- The SHOW word is written in the shift of frame n: the port shows, is to show from B(n), or tries to leave recovery. -/
def State.showWord (s : State) (p n : Nat) : Bool :=
  let d := s.ddPort p
  match d.good with
  | some g => decide (16 ≤ g)
  | none => s.ddState p == 3 || s.ddState p == 4 || (d.startAt.map (fun k => decide (k ≤ n))).getD false

/-- An abandoned shift (R330). -/
def State.shiftLate (s : State) (p n : Nat) : State :=
  let s1 := (((s.bump R.P_LATE_CNT p).raise F.DDP_EVT_LATE).tally 0x0B06 [p, n]).modDd p
    (fun d => { d with done := some n, late := some n })
  s1.each ((groupsOf s1.cmd.latched p).filter (fun c => s1.bulkLe (groupRecord n c.index + 0x2C) 4 == n % 2 ^ 32))
    (fun c t =>
      let a := groupRecord n c.index + 2
      let f := t.bulkLe a 2
      t.writeBulk a (leBytes 2 (if bitAt f 3 then f else f + 8)))

/-- The shift of frame n, or of the front buffer in Hold, with what the chain reads back; its SWAP falls at B(at_). -/
def State.fullShift (s : State) (chans : List Chan) (p n frame at_ : Nat) (conf faults : List Nat) : State :=
  let phase := s.showWord p n
  let test := s.ddState p == 5 && !phase
  let bits := if phase then s.get F.P_CHAIN_BITS p else s.get F.P_CHAIN_FALLBACK p
  let written := (List.range (s.ddChips p)).map (confWord bits phase)
  let s1 := ((s.skipShifted p).checkConf p n phase written conf).readFaults chans p n faults
  let cycles := s1.headCycles p bits phase true ++
    s1.dataCycles (groupsOf chans p) n (frame % 2) (bits + 8) test p
  (s1.emit (.ddShift p cycles)).modDd p (fun d =>
    { d with done := some n, shifted := d.shifted ++ [(at_, frame)], shiftEnd := s.now + s.shiftTime p, reshift := false })

/-- The shift of a held port (R334): the fault words alone, or the front buffer again, whose SWAP falls at the next B (R339). A held
port whose SHOW word reads back right leaves recovery at once, for no SWAP follows (DESIGN CHOICE beside R333). -/
def State.holdShift (s : State) (p n : Nat) (conf faults : List Nat) : State :=
  let d := s.ddPort p
  match d.reshift, d.front with
  | true, some m => s.fullShift s.cmd.latched p n m (n + 1) conf faults
  | _, _ =>
    let phase := s.showWord p n
    let bits := if phase then s.get F.P_CHAIN_BITS p else s.get F.P_CHAIN_FALLBACK p
    let written := (List.range (s.ddChips p)).map (confWord bits phase)
    let s1 := (s.checkConf p n phase written conf).readFaults s.cmd.latched p n faults
    let s2 := if phase ∧ (s1.ddPort p).showAt = some n then
        (s1.modDd p (fun d => { d with showAt := none })).putFlag F.P_STAT_CONF_BAD false p else s1
    s2.emit (.ddShift p (s2.headCycles p bits phase false))

/-- A port of a device that is no Standby shifts frames of Show in its state. -/
def State.ddShifts (s : State) (p n : Nat) : Bool :=
  let d := s.ddPort p
  s.ddEnabled p && s.role != 2 && (s.ddState p == 3 || s.ddState p == 5 ||
    ((s.ddState p == 2 || s.ddState p == 4) && (d.good.isSome || (d.startAt.map (fun k => decide (k ≤ n))).getD false)))

/-- DD_SHIFT (R327, R334): a port's shift of frame n from E(n), with the configuration words by chip and the fault words
by row that come back. -/
def doDdShift (n p : Nat) (conf faults : List Nat) (s : State) : State :=
  match s.frameWork n with
  | none => s
  | some w =>
    if s.ddState p = 4 && !(w.active && s.ddShifts p n) then
      if s.ddEnabled p then (s.atTime (s.showAt n)).holdShift p n conf faults else s
    else if w.active = false || !s.ddShifts p n || (s.ddPort p).done == some n then s
    else
      let s1 := (s.atTime (s.eAt n)).directWrite w p
      if s1.shiftWindow < s1.shiftTime p then s1.shiftLate p n
      else s1.fullShift w.chans p n n n conf faults

/-- SHIFT_LATE (R330): the shift of frame n is not complete at S(n+2) − 50 µs. -/
def doShiftLate (n p : Nat) (s : State) : State :=
  match s.frameWork n with
  | none => s
  | some w =>
    if w.active = false || !s.ddShifts p n || (s.ddPort p).done == some n then s
    else ((s.atTime (s.showAt n - s.adv - 50000 * 65536)).directWrite w p).shiftLate p n

/-! ## SWAP (R328, R329) -/

/-- SWAP: the shifted frame becomes the front buffer, and a port whose recovery has succeeded shows again. Of the frames shifted
it takes the latest whose SWAP is not for a boundary after `n`, and forgets those before it. -/
def State.ddSwap (s : State) (p n : Nat) : State :=
  match ((s.ddPort p).shifted.filter (fun q => decide (q.1 ≤ n))).getLast? with
  | none => s
  | some m =>
    let back := decide ((s.ddPort p).showAt = some m.2)
    let s1 := (s.emit (.ddSwap p)).modDd p (fun d =>
      { d with shifted := d.shifted.filter (fun q => decide (n < q.1)), front := some m.2,
               showAt := if back then none else d.showAt })
    if back then (s1.putFlag F.P_STAT_CONF_BAD false p).ddEnter p (if s1.ddState p = 5 then 5 else 3) else s1

/-- No SWAP falls between B(m−1) and B′(j) of a rate change, or B(j) of a step (R330, R57, R364): n is a boundary of the lattice in
force. -/
def State.ddSwapHeld (s : State) (n : Nat) : Bool :=
  match s.sys.rateChg with
  | some r => if s.rate = r.newRate then decide (n < r.first) else decide (r.last < n)
  | none => s.tim.plan.any (fun p => if p.done then decide (n < p.first) else decide (p.last < n))

/-- What boundary n does to a port: SWAP, the start of SHOW, the end of driving. -/
def State.ddPortBoundary (s : State) (n p : Nat) : State :=
  let s1 := if s.flag F.P_CTL_SYNC_SRC p || s.ddSwapHeld n then s else s.ddSwap p n
  let d := s1.ddPort p
  let s2 := match d.startAt with
    | some k =>
      if k ≤ n ∧ s1.power = 3 ∧ [2, 4, 5].contains (s1.ddState p) then
        (s1.modDd p (fun x => { x with startAt := none })).ddEnter p (if d.good.isSome then 2 else 3) else s1
    | none => s1
  match d.stopAt with
  | some k => if k ≤ n then (s2.ddClear p).ddEnter p (if s2.ddEnabled p then 1 else 0) else s2
  | none => s2

/-- What boundary n does to the direct-drive ports. -/
def State.ddBoundary (s : State) (n : Nat) : State := s.each (List.range 32) (fun p t => t.ddPortBoundary n p)

/-- A port that enters PLAIN shows black until B(k) (R333): the plain word and zeros, shifted and swapped in at once (DESIGN CHOICE:
R333 says what the port writes and shows, not by which shift; nothing is read back of it). -/
def State.plainBlack (s : State) (p : Nat) : State :=
  let zeros := List.replicate (16 * s.ddScan p) (1, List.replicate (s.ddChips p) 0)
  (s.emit (.ddShift p (s.headCycles p (s.get F.P_CHAIN_FALLBACK p) false true ++ zeros))).emit (.ddSwap p)

/-- What S(n) does to a port: an accepted enable leaves BLANK, TEST starts or ends. -/
def State.ddPortStart (s : State) (n p : Nat) : State :=
  let d := s.ddPort p
  let s1 := match d.startAt with
    | some k => if k ≤ n ∧ 2 ≤ s.power ∧ s.role ≠ 2 ∧ s.ddState p = 1 then (s.ddEnter p 2).plainBlack p else s
    | none => s
  match d.testAt with
  | some (k, on) =>
    if k ≤ n then
      let s2 := s1.modDd p (fun x => { x with testAt := none })
      if on then (if [2, 3].contains (s2.ddState p) then s2.ddEnter p 5 else s2)
      else if s2.ddState p = 5 then s2.modDd p (fun x => { x with startAt := some n }) else s2
    else s1
  | none => s1

/-- What S(n) does to the direct-drive ports. -/
def State.ddWorkStart (s : State) (n : Nat) : State := s.each (List.range 32) (fun p t => t.ddPortStart n p)

/-- An accepted DD_SYNC edge at a port whose SYNC_SRC is 1. -/
def State.ddEdge (s : State) (p : Nat) : State :=
  if !(s.ddEnabled p && s.flag F.P_CTL_SYNC_SRC p) then s
  else if (s.ddPort p).shifted.isEmpty || s.ddSwapHeld s.frameNum then s
  else if s.now < (s.ddPort p).shiftEnd then s.bump R.P_SKIP_CNT p
  else s.ddSwap p (((s.ddPort p).shifted.map Prod.fst).foldl max 0)

/-- DD_SYNC_EDGE (R329): a rising edge of DD_SYNC. -/
def doDdSyncEdge (s : State) : State :=
  if s.ddp.lastEdge ≠ 0 ∧ s.uptime < s.ddp.lastEdge + 1000000 then s
  else
    let s1 := ({ s with ddp := { s.ddp with lastEdge := s.uptime } }).putFlag F.DDP_STAT_SYNC_LOST false
    s1.each (List.range 32) (fun p t => t.ddEdge p)

/-- SYNC_LOST (R329): no edge for 1 s while a port waits for DD_SYNC. -/
def doSyncLost (s : State) : State :=
  if s.flag F.DDP_STAT_SYNC_LOST || !(List.range 32).any (fun p => s.ddEnabled p && s.flag F.P_CTL_SYNC_SRC p) then s
  else
    let s1 := s.atUptime (s.ddp.lastEdge + oneSecond)
    ((s1.putFlag F.DDP_STAT_SYNC_LOST true).raise F.DDP_EVT_SYNC_LOST).tally 0x0B07 [(s1.uptime - s1.ddp.lastEdge) / oneSecond]

/-! ## Enabling (R335) -/

/-- Bring DDP_STAT and the groups' RUNNING bits up to date. -/
def State.refreshDd (s : State) : State :=
  let s1 := s.put F.DDP_STAT_ENABLED ((List.range 32).filter (fun p => s.ddEnabled p)).length
  s1.each (s1.cmd.latched.filter (fun c => c.kind == kDdgroup)) (fun c t =>
    t.putFlag F.G_STAT_RUNNING (decide (c.st = .running) && t.ddEnabled c.ddPortNo) c.index)

/-- Reason 4 of R335: a placement or a host image that breaks its rules, against the regions among channels. -/
def State.ddPlacementBad (s : State) (chans : List Chan) (p : Nat) : Bool :=
  if s.flag F.P_CTL_SOURCE p then s.ddAddr p % 64 != 0 || !inUsable (s.ddAddr p) (8 * s.ddLamps p)
  else
    let c := s.ddPanel p
    let r := (chans.find? (fun q => q.kind == kRegion && q.handle == c.epRegion)).map regionOf
    r.isNone || s.placementBad c r

/-- DIRECT's cost in clocks for ports (R104): half a clock per lamp. -/
def State.directCost (s : State) (ports : List Nat) : Nat := ceilDiv ((ports.map (fun p => s.ddLamps p)).sum) 2

/-- The checks of R335, in order. -/
def State.enableChecks (s : State) (p : Nat) : List (Nat × Bool × Nat) :=
  let dclk := s.get F.P_CLK_DCLK p
  let gclk := s.get F.P_CLK_GCLK p
  let blank := s.get F.P_CHAIN_BLANK p
  let bits := s.get F.P_CHAIN_BITS p
  let scanCycle := s.ddScan p * (2 ^ (bits + 8) + blank) * 10000 * 65536
  let on := (List.range 32).filter (fun q => s.ddEnabled q || q == p)
  [(1, dclk < 10 || 300 < dclk || gclk < 20 || 500 < gclk || blank < 2 || 8 < bits || bits < s.get F.P_CHAIN_FALLBACK p ||
      5 < s.get F.P_CHAIN_SCAN p, 1),
   (2, decide (s.shiftWindow < s.shiftTime p), 1),
   (3, decide (periodOf s.rate * gclk < scanCycle), 1),
   (4, s.ddPlacementBad s.cmd.chans p, 1),
   (5, (groupsOf s.cmd.chans p).any (fun c => (s.groupLamps c s.sys.nextS).any (fun l => decide (s.ddLamps p ≤ l))), 1),
   (6, decide (s.kindBudget 8 < s.directCost on), 1)]

/-- The first S(k) that falls at least 5 ms from now. -/
def State.startFrame (s : State) : Nat := max (s.firstSFrom (s.now + 5000000 * 65536)) s.sys.nextS

/-- A port that is to show from B(k) on. -/
def State.ddBegin (s : State) (p : Nat) : State :=
  let s1 := s.ddEnter p 1
  if 2 ≤ s.power ∧ s.role ≠ 2 then (s1.ddClear p).modDd p (fun x => { x with startAt := some s.startFrame }) else s1

/-- PORT_ENABLE (R335): a write of P_CTL.EN. -/
def doPortEnable (p : Nat) (on : Bool) (s : State) : State :=
  if on = s.ddEnabled p then s
  else if on then
    let r := (firstFail (s.enableChecks p)).1
    if r ≠ 0 then ((s.put F.P_STAT_REJECT r p).raise F.DDP_EVT_EN_REJECT).tally 0x0B01 [p, r]
    else
      let s1 := s.putFlag F.P_CTL_EN true p
      (if s1.ddState p = 7 then s1 else s1.ddBegin p).refreshDd
  else
    let s1 := s.putFlag F.P_CTL_EN false p
    (if [2, 3, 4, 5].contains (s1.ddState p) then s1.modDd p (fun d => { d with stopAt := some s1.sys.nextS })
      else if s1.ddState p = 7 then s1
      else (s1.ddClear p).ddEnter p 0).refreshDd

/-! ## Pin shorts (R342 to R344) -/

/-- A short or a stuck pin (R344): `walk` 0 start-up, 1 idle. -/
def State.pinShort (s : State) (p walk : Nat) (f : PinFind) : State :=
  let s1 := ((((s.put F.P_SHORT_PIN_A f.pinA p).put F.P_SHORT_PIN_B f.pinB p).put F.P_SHORT_PORT_B f.portB p).putFlag
    F.P_SHORT_STUCK f.stuck p).putFlag F.P_SHORT_VALID true p
  let s2 := (s1.raise F.DDP_EVT_SHORT).tally 0x0B02 [p, s1.get R.P_SHORT p, walk]
  if s2.flag F.P_CTL_SHORT_ACTION p then s2 else s2.ddEnter p 6

/-- START_UP_WALK (R342): the walk before a port's first configuration word, or by DDP_CMD. -/
def doStartUpWalk (p : Nat) (found : Option PinFind) (s : State) : State :=
  if s.ddEnabled p = false then s.raise F.DDP_EVT_CMD_REJECT
  else
    match found with
    | some f => s.pinShort p 0 f
    | none => if s.ddState p = 6 then s.ddBegin p else s

/-- IDLE_WALK (R343): the walk of an enabled port in its idle gaps. -/
def doIdleWalk (p : Nat) (found : Option PinFind) (s : State) : State :=
  if s.ddEnabled p && [2, 3, 4, 5].contains (s.ddState p) then
    match found with
    | some f => s.pinShort p 1 f
    | none => s
  else s

/-! ## DDP_CMD (R345) -/

/-- RELEASE_BLANKED (R339): the blanked groups of a port may leave that state. -/
def doReleaseBlanked (p : Nat) (s : State) : State :=
  if s.ddEnabled p = false then s.raise F.DDP_EVT_CMD_REJECT
  else
    let g := ((groupsOf s.cmd.chans p).map Chan.index).filter (fun i => s.flag F.G_STAT_BLANKED i)
    { s with ddp := { s.ddp with releasing := (s.ddp.releasing ++ g).eraseDups } }

/-- TEST_START (R334): TEST from the next S(k). -/
def doTestStart (p : Nat) (s : State) : State :=
  if s.ddEnabled p = false || s.power != 3 then s.raise F.DDP_EVT_CMD_REJECT
  else s.modDd p (fun d => { d with testAt := some (s.sys.nextS, true) })

/-- TEST_END: the end of TEST at the next S(k). -/
def doTestEnd (p : Nat) (s : State) : State :=
  if s.ddEnabled p = false then s.raise F.DDP_EVT_CMD_REJECT
  else s.modDd p (fun d => { d with testAt := some (s.sys.nextS, false) })

/-! ## Modes (R334) -/

/-- A change of the power mode, or of the role to Standby, takes effect at frame k. -/
def State.ddMode (s : State) (old new k : Nat) : State :=
  s.each (List.range 32) (fun p t =>
    let d := t.ddState p
    if new = 0 then (t.ddClear p).ddEnter p 7
    else if d = 7 then t.ddEnter p (if t.ddEnabled p then 1 else 0)
    else if t.ddEnabled p = false then t
    else if t.role = 2 then (t.ddClear p).ddEnter p (if d = 6 then 6 else 1)
    else if new = 1 then (if [2, 3, 4, 5].contains d then t.modDd p (fun x => { x with stopAt := some k }) else t)
    else if new = 2 then (if [2, 3, 5].contains d then t.ddEnter p 4 else t)
    else if old ≠ 3 ∧ d ≠ 6 then t.modDd p (fun x => { x with startAt := some k, stopAt := none })
    else t)

/-- Pins at high impedance while FENCE_IN is asserted or a reset holds PD14 (R334). -/
def State.ddHighImpedance (s : State) : State :=
  s.each (List.range 32) (fun p t => (t.ddClear p).ddEnter p 7)

/-! ## Light sensors (R341) -/

/-- CRC-8 of the System Management Bus (polynomial x^8 + x^2 + x + 1, PRESUMED as the standard has it). -/
def smbusPec (bs : List Nat) : Nat := crcRun { width := 8, poly := 0x07, init := 0, reflected := false, finalXor := 0 } 0 bs

/-- The running groups of an enabled port that have a sensor and a zone, with the zone. -/
def State.sensedGroups (s : State) (p : Nat) : List (Chan × Chan) :=
  if s.ddEnabled p then
    ((groupsOf s.cmd.latched p).filter (fun c => c.ddSensor != 0)).filterMap (fun c =>
      (s.cmd.latched.find? (fun z => z.kind == kZone && z.handle == c.memberZone && c.memberZone != 0)).map (fun z => (c, z)))
  else []

/-- A sensor whose report is missing: cause 0 NAK, 1 PEC, 2 WNO. The group of 0x0B04 and 0x0B09 is its INDEX, as in R340 (DESIGN
CHOICE: R346 says "Group" where other tables say handle). -/
def State.senseErr (s : State) (c : Chan) (cause : Nat) : State :=
  (s.raise F.DDP_EVT_SENSE_ERR).tally 0x0B09 [c.index, cause]

/-- SENSE_WINDOW (R341): the block write that ends one window and begins the next on a port's sense bus, at B(n). `nak`
says that no sensor took it, twice. -/
def doSenseWindow (n p : Nat) (nak : Bool) (s : State) : State :=
  let gs := (s.sensedGroups p).filter (fun q => q.2.calWindow != 0 && decide (n % q.2.calWindow = 0))
  match gs with
  | [] => s
  | _ :: _ =>
    let s1 := s.atTime (s.showAt n)
    let s2 := s1.each (gs.map (fun q => n / q.2.calWindow % 2 ^ 32)).eraseDups (fun w t =>
      let bytes := [0x00, 0xD0, 4] ++ leBytes 4 w
      let t1 := t.emit (.sense p (bytes ++ [smbusPec bytes]))
      if nak then t1.emit (.sense p (bytes ++ [smbusPec bytes])) else t1)
    if nak then s2.each gs (fun q t => t.senseErr q.1 0) else s2

/-- What is wrong with an attempt, or its report. -/
def readOf (wno : Nat) : SenseRead → Sum Nat SensorReport
  | .nak => .inl 0
  | .pec => .inl 1
  | .report w r g b valid sat fail => if w = wno then .inr { light := [r, g, b], valid := valid, sat := sat, fail := fail } else .inl 2

/-- SENSOR_READ (R341): the block read of a group's sensor for the window that ended last, with one retry. -/
def doSensorRead (i : Nat) (first second : SenseRead) (s : State) : State :=
  match s.cmd.latched.find? (fun c => c.kind == kDdgroup && c.index == i) with
  | none => s
  | some c =>
    match (s.sensedGroups c.ddPortNo).find? (fun q => q.1.index == i) with
    | none => s
    | some q =>
      let now := s.frameNum / max 1 q.2.calWindow
      if now = 0 then s
      else
        let wno := (now - 1) % 2 ^ 32
        match readOf wno first with
        | .inr r => s.sensorReport c wno r
        | .inl _ =>
          match readOf wno second with
          | .inr r => s.sensorReport c wno r
          | .inl cause => s.senseErr c cause

/-! ## The meanings of the rows -/

def execPortEnable (port : Fin 32) (on : Bool) (s : State) : Host.Outcome State Fault Refusal := .next (doPortEnable port.val on s)
def execDdShift (frame : Nat) (port : Fin 32) (conf faults : List Nat) (s : State) : Host.Outcome State Fault Refusal :=
  .next (doDdShift frame port.val conf faults s)
def execShiftLate (frame : Nat) (port : Fin 32) (s : State) : Host.Outcome State Fault Refusal := .next (doShiftLate frame port.val s)
def execDdSyncEdge (s : State) : Host.Outcome State Fault Refusal := .next (doDdSyncEdge s)
def execSyncLost (s : State) : Host.Outcome State Fault Refusal := .next (doSyncLost s)
def execSenseWindow (frame : Nat) (port : Fin 32) (nak : Bool) (s : State) : Host.Outcome State Fault Refusal :=
  .next (doSenseWindow frame port.val nak s)
def execSensorRead (group : Fin 2048) (first second : SenseRead) (s : State) : Host.Outcome State Fault Refusal :=
  .next (doSensorRead group.val first second s)
def execStartUpWalk (port : Fin 32) (found : Option PinFind) (s : State) : Host.Outcome State Fault Refusal :=
  .next (doStartUpWalk port.val found s)
def execIdleWalk (port : Fin 32) (found : Option PinFind) (s : State) : Host.Outcome State Fault Refusal :=
  .next (doIdleWalk port.val found s)
def execReleaseBlanked (port : Fin 32) (s : State) : Host.Outcome State Fault Refusal := .next (doReleaseBlanked port.val s)
def execTestStart (port : Fin 32) (s : State) : Host.Outcome State Fault Refusal := .next (doTestStart port.val s)
def execTestEnd (port : Fin 32) (s : State) : Host.Outcome State Fault Refusal := .next (doTestEnd port.val s)

end Sys2Proof.Machine
end

