-- ==== Sys2Proof/Machine/Fixtures.lean ====
section
/-! DEFINITION. Fixtures and sACN output (R303 to R318), and fixture motion (R262, R263). -/
namespace Sys2Proof.Machine
open Sys2Proof

/-! ## Parameters (R305, R307, R308) -/

def Chan.univNo (c : Chan) : Nat := c.fld 0x0901 0 2
def Chan.univSync (c : Chan) : Nat := c.fld 0x0901 2 2
def Chan.univPort (c : Chan) : Nat := c.fld 0x0901 4 1
def Chan.univTag (c : Chan) : Bool := bitAt (c.fld 0x0901 5 1) 0
def Chan.univForce (c : Chan) : Bool := bitAt (c.fld 0x0901 5 1) 1
def Chan.univVid (c : Chan) : Nat := c.fld 0x0901 6 2
def Chan.univPcp (c : Chan) : Nat := c.fld 0x0901 8 1
/-- The unicast destination; 0 for multicast. The address lies in network order (R3). -/
def Chan.univDest (c : Chan) : Nat := ofBe (leBytes 4 (c.fld 0x0901 12 4))
def Chan.univPrio (c : Chan) : Nat := c.fld 0x0902 0 1
def Chan.univDivider (c : Chan) : Nat := c.fld 0x0902 1 1
def Chan.univSlots (c : Chan) : Nat := c.fld 0x0902 2 2
def Chan.univZone (c : Chan) : Nat := c.val 0x0903
/-- PCP and VID of a tagged universe. -/
def Chan.univTagOf (c : Chan) : Option (Nat × Nat) := if c.univTag then some (c.univPcp, c.univVid) else none

def Chan.fxUniverse (c : Chan) : Nat := c.fld 0x0801 0 4
def Chan.fxStart (c : Chan) : Nat := c.fld 0x0801 4 2
def Chan.fxAttrs (c : Chan) : Nat := c.fld 0x0801 6 1
def Chan.fxValue (c : Chan) (a : Nat) : Nat := c.val (0x0840 + a)
def Chan.atOffset (c : Chan) (a : Nat) : Nat := c.fld (0x0880 + a) 0 2
def Chan.atFlags (c : Chan) (a : Nat) : Nat := c.fld (0x0880 + a) 2 1
def Chan.atWide (c : Chan) (a : Nat) : Bool := bitAt (c.atFlags a) 0
def Chan.atMotion (c : Chan) (a : Nat) : Bool := bitAt (c.atFlags a) 1
def Chan.atMode (c : Chan) (a : Nat) : Nat := bits (c.atFlags a) 3 2
def Chan.atComponent (c : Chan) (a : Nat) : Nat := bits (c.atFlags a) 6 4
def Chan.atGamma (c : Chan) (a : Nat) : Bool := bitAt (c.atFlags a) 7
def Chan.atX (c : Chan) (a : Nat) : Int := c.sfld (0x0880 + a) 4 4
def Chan.atY (c : Chan) (a : Nat) : Int := c.sfld (0x0880 + a) 8 4
def Chan.atW (c : Chan) (a : Nat) : Nat := c.fld (0x0880 + a) 12 1
def Chan.atH (c : Chan) (a : Nat) : Nat := c.fld (0x0880 + a) 13 1
def Chan.moVmax (c : Chan) (a : Nat) : Nat := c.fld (0x08C0 + a) 0 4
def Chan.moAmax (c : Chan) (a : Nat) : Nat := c.fld (0x08C0 + a) 4 4
def Chan.moLag (c : Chan) (a : Nat) : Nat := c.fld (0x08C0 + a) 8 2
def Chan.moSlot (c : Chan) (a : Nat) : Nat := c.fld (0x08C0 + a) 10 1

/-- The divider in force at a rate (R306). -/
def Chan.dividerAt (c : Chan) (rate : Nat) : Nat :=
  if c.univDivider ≠ 0 then c.univDivider
  else
    let nd := rateND rate
    max 1 (ceilDiv nd.1 (60 * nd.2))

/-! ## Sampling (R309) -/

/-- A component of a canvas colour in Cream codes (R308, R309). -/
def componentOf (k : Nat) (r g b : Nat) : Nat :=
  match k with
  | 0 => r | 1 => g | 2 => b
  | 3 => (rndI ((8608 * r + 22217 * g + 1943 * b : Nat) : Int) 32768).toNat
  | 4 => max r (max g b)
  | _ => min r (min g b)

/-- A canvas pixel of a frame in Cream codes, or none outside every running region. -/
def FrameWork.canvasPx (w : FrameWork) (x y : Int) : Option (Nat × Nat × Nat) :=
  w.regions.findSome? (fun r => (inRegion r (x, y)).map (fun p =>
    let q := w.canvasAt r p.1 p.2
    let f := if w.skim then 16 else 1
    (f * q.r, f * q.g, f * q.b)))

/-- The 1 / 2.2 power of R309 off by at most 8 from the exact value, as the tolerance leaves open. -/
def gammaOut (out : Nat) : Nat :=
  let n := 65535 ^ 6 * out ^ 5
  let r := irootGo 11 (2048 * n) 18 0 131072
  let exact : Int := ((r + 1) / 2 : Nat)
  (clampInt 0 65535 (exact + clampInt (-8) 8 (Config.gammaDeviation out))).toNat

/-- The sample of an attribute in a frame, and the pixels of it that lie outside every running region. -/
def FrameWork.sample (w : FrameWork) (c : Chan) (a : Nat) : Nat × Nat :=
  let pts := (List.range (c.atH a)).flatMap (fun (j : Nat) => (List.range (c.atW a)).map (fun (i : Nat) =>
    w.canvasPx (c.atX a + i) (c.atY a + j)))
  let vals := pts.map (fun p => match p with
    | some (r, g, b) => componentOf (c.atComponent a) r g b
    | none => 0)
  let s := rndI ((vals.sum : Nat) : Int) (c.atW a * c.atH a)
  let out := (min 65535 (rndI (s * 65535) 32768)).toNat
  (if c.atGamma a then gammaOut out else out, (pts.filter Option.isNone).length)

/-! ## Motion (R262, R263) -/

/-- One of the two 16-fraction-bit neighbours of a value that has no such code: which of the two the spec does not say. -/
def toFx (q : Rat) : Int :=
  let f := (q * 65536).floor
  if (q * 65536) = f then f else if Config.roundsUp q.num q.den then f + 1 else f

/-- A square root with 16 fractional bits. -/
def sqrtFx (q : Rat) : Rat :=
  let n := (q * 2 ^ 32).floor.toNat
  let r := isqrt n
  if ((r * r : Nat) : Rat) = q * 2 ^ 32 then (r : Rat) / 65536
  else ((if Config.roundsUp q.num q.den then r + 1 else r : Nat) : Rat) / 65536

/-- One frame of R262 from x and v (in 2^-16) towards a target, with t in seconds: the new x and v, and whether VMAX and
AMAX bound it. -/
def moveStep (vmax amax : Nat) (t : Rat) (tgt : Nat) (x v : Int) : Int × Int × Bool × Bool :=
  let goal : Int := 65536 * tgt
  if vmax = 0 then (goal, 0, false, false)
  else
    let x0 : Rat := (x : Rat) / 65536
    let v0 : Rat := (v : Rat) / 65536
    let d : Rat := tgt - x0
    let ad : Rat := if d < 0 then -d else d
    let sg : Rat := if d < 0 then -1 else if d = 0 then 0 else 1
    let vlim := decide ((vmax : Rat) < ad / t)
    let m0 : Rat := min (vmax : Rat) (ad / t)
    let q : Int × Bool :=
      if amax = 0 then (toFx (sg * m0), false)
      else
        let stop := sqrtFx (2 * amax * ad)
        let m1 := min m0 stop
        let dv := sg * m1 - v0
        let at' : Rat := amax * t
        let dv' := max (-at') (min at' dv)
        (toFx (v0 + dv'), decide (stop < m0) || decide (dv' ≠ dv))
    let x1 := toFx (x0 + (q.1 : Rat) / 65536 * t)
    if (x ≤ goal ∧ goal < x1) ∨ (goal ≤ x ∧ x1 < goal) then (goal, 0, vlim, q.2) else (x1, q.1, vlim, q.2)

/-- Frames until x reaches the target under R262, at most `n`. -/
def etaGo (vmax amax : Nat) (t : Rat) (tgt : Nat) : Nat → Int → Int → Nat
  | 0, _, _ => 0
  | n + 1, x, v =>
    if x = 65536 * tgt then 0
    else let q := moveStep vmax amax t tgt x v; etaGo vmax amax t tgt n q.1 q.2.1 + 1

/-- The commanded position at a device time, in position units, from a history with the newest frame first, interpolated
linearly between frames; the oldest position stands for what lies before it. -/
def lookBack (at_ : Rat) : List (Int × Nat) → Rat
  | [] => 0
  | [a] => (a.1 : Rat) / 65536
  | a :: b :: r =>
    if ((b.2 : Nat) : Rat) ≤ at_ then
      let span : Rat := (a.2 : Rat) - (b.2 : Rat)
      let f : Rat := if span = 0 then 1 else (at_ - (b.2 : Rat)) / span
      (b.1 : Rat) / 65536 + f * (((a.1 - b.1 : Int) : Rat) / 65536)
    else lookBack at_ (b :: r)

/-- The motion of an attribute. -/
def State.motionOf (s : State) (fixture attr : Nat) : Option Motion :=
  s.fix.motion.find? (fun m => m.fixture == fixture && m.attr == attr)

/-- Store the motion of an attribute. -/
def State.setMotion (s : State) (m : Motion) : State :=
  { s with fix := { s.fix with
      motion := s.fix.motion.filter (fun q => !(q.fixture == m.fixture && q.attr == m.attr)) ++ [m] } }

/-- P_z of frame n for a fixture: the zone of the universe it is patched to (R263). -/
def State.fixturePz (s : State) (chans : List Chan) (c : Chan) (n : Nat) : Nat :=
  s.pAt n (((chans.find? (fun u => u.kind == kUniverse && u.handle == c.fxUniverse)).map (fun u => zoneOffset chans u.univZone)).getD 0)

/-- Move an attribute in frame n, presented at `pz`, towards its target and write its record: the value to send. A motion
without a past on its universe starts at its target (R311). -/
def State.moveAttr (s : State) (c : Chan) (a n pz tgt : Nat) : Nat × State :=
  let t : Rat := periodUs s.rate / 1000000
  let old : Option Motion := (s.motionOf c.handle a).filter (fun m => m.onUniv == c.fxUniverse)
  let q : Int × Int × Bool × Bool := match old with
    | some m => moveStep (c.moVmax a) (c.moAmax a) t tgt m.x m.v
    | none => (65536 * (tgt : Int), 0, false, false)
  let past : List (Int × Nat) := ((q.1, pz) :: ((old.map Motion.past).getD [])).take 64
  let m : Motion := { fixture := c.handle, attr := a, onUniv := c.fxUniverse, x := q.1, v := q.2.1, tgt := tgt, past := past }
  let lag : Rat := min (63 * t) ((c.moLag a : Rat) / 10000)
  let pred := (roundHalfUp (lookBack ((pz : Rat) - lag * 1000000000 * 65536) past)).toNat % 65536
  let eta := if q.1 = 65536 * (tgt : Int) then 0 else etaGo (c.moVmax a) (c.moAmax a) t tgt 65535 q.1 q.2.1
  let flags := (if q.2.2.1 then 1 else 0) + (if q.2.2.2 then 2 else 0) + (if q.2.1 ≠ 0 then 4 else 0)
  let rec_ := leBytes 2 pred ++ leBytes 2 tgt ++ leBytes 2 eta ++ [flags, n % 256]
  ((roundHalfUp ((q.1 : Rat) / 65536)).toNat % 65536,
    (s.setMotion m).writeBulk (motionTable + (c.index * 4 + c.moSlot a) * 8) rec_)

/-- The attributes of a running fixture go on towards their last targets in Hold, where no frame gives them another and
nothing is sent (R54, R111, R262, R314). -/
def State.fixtureHold (s : State) (w : FrameWork) (c : Chan) : State :=
  s.each (List.range c.fxAttrs) (fun a t =>
    match if c.atMotion a then (t.motionOf c.handle a).filter (fun m => m.onUniv == c.fxUniverse) else none with
    | some m => (t.moveAttr c a w.frame (t.fixturePz w.chans c w.frame) m.tgt).2
    | none => t)

/-- Motion and last values of a destroyed fixture are discarded (R311). -/
def State.dropFixture (s : State) (handle : Nat) : State :=
  { s with fix := { s.fix with
      motion := s.fix.motion.filter (fun m => m.fixture != handle), held := s.fix.held.filter (fun h => h.1 != handle) } }

/-! ## FIXTURE_FRAME (R309 to R311) -/

/-- One attribute of a running fixture in frame n: its value, and whether it is the fixture's first outside sample. -/
def State.attrFrame (s : State) (w : FrameWork) (c : Chan) (a : Nat) : Nat × State :=
  let value := (s.live c).fxValue a
  let smp := if c.atMode a = 0 then (0, 0) else w.sample c a
  let tgt := match c.atMode a with
    | 0 => value
    | 1 => smp.1
    | _ => (rndI ((smp.1 * value : Nat) : Int) 65535).toNat
  let s1 := if smp.2 = 0 then s else
    ((s.add R.FIX_OUTSIDE_CNT smp.2).raise F.FIX_EVT_OUTSIDE).tallyLimited (0x0A01000000000000 + c.handle) oneSecond 0x0A01
      (fun _ => [c.handle, a, w.frame])
  if c.atMotion a then s1.moveAttr c a w.frame (s1.fixturePz w.chans c w.frame) tgt else (tgt, s1)

/-- A running fixture in frame n. -/
def State.fixtureFrame (s : State) (w : FrameWork) (c : Chan) : State :=
  let q := (List.range c.fxAttrs).foldl (fun (p : List (Nat × Nat) × State) a =>
    let r := p.2.attrFrame w c a; (p.1 ++ [(a, r.1)], r.2)) ([], s)
  let t := q.2
  { t with fix := { t.fix with held := t.fix.held.filter (fun h => h.1 != c.handle) ++ [(c.handle, q.1)] } }

/-- The slots of an attribute's value (R309): slot number from 1 and byte. -/
def Chan.attrSlots (c : Chan) (a x : Nat) : List (Nat × Nat) :=
  let k := c.fxStart + c.atOffset a
  if c.atWide a then [(k, x / 256), (k + 1, x % 256)] else [(k, min 255 ((x + 128) / 256))]

/-- The slots of a universe in a frame's state (R311). -/
def State.univBuild (s : State) (w : FrameWork) (u : Chan) : List Nat :=
  let set := (w.chans.filter (fun c => c.kind == kFixture && c.fxUniverse == u.handle)).flatMap (fun c =>
    (((s.fix.held.find? (fun h => h.1 == c.handle)).map Prod.snd).getD []).flatMap (fun v =>
      if v.1 < c.fxAttrs then c.attrSlots v.1 v.2 else []))
  (List.range u.univSlots).map (fun k => ((set.find? (fun q => q.1 == k + 1)).map Prod.snd).getD 0)

/-- FIXTURE_FRAME (R309): values, motion and universes of frame n, once a frame; in Hold motion alone. -/
def doFixtureFrame (n : Nat) (s : State) : State :=
  match s.frameWork n with
  | none => s
  | some w =>
    if w.moved ∨ s.power < 2 ∨ s.kindServed 7 = false then s
    else if w.active = false then
      ((s.atTime (s.sAt n)).each (w.running kFixture) (fun c t => t.fixtureHold w c)).modFrame n (fun x => { x with moved := true })
    else
      let s1 := (s.atTime (s.sAt n)).each (w.running kFixture) (fun c t => t.fixtureFrame w c)
      let made := (w.running kUniverse).map (fun u => (n, u.handle, s1.univBuild w u))
      ({ s1 with fix := { s1.fix with built := made ++ s1.fix.built.filter (fun b => decide (n < b.1 + 4 ∧ b.1 ≠ n)) } } : State).modFrame n (fun x => { x with moved := true })

/-! ## Packets (R303, R304; the layout is that of ANSI E1.31-2018) -/

/-- Bytes of registers from the first, byte 4i in bits [31:24]. -/
def State.regBytes (s : State) (f : Field) (n : Nat) : List Nat := (List.range n).flatMap (fun i => beBytes 4 (s.get f i))

/-- CID of every packet. -/
def State.cid (s : State) : List Nat := s.regBytes R.FIX_CID 4
/-- The source name; "PDR-9612" where the registers are all zeros. -/
def State.sourceName (s : State) : List Nat :=
  let n := s.regBytes R.FIX_NAME 16
  if n.all (· == 0) then [0x50, 0x44, 0x52, 0x2D, 0x39, 0x36, 0x31, 0x32] ++ List.replicate 56 0 else n

/-- Flags and length of a layer of n bytes. -/
def pduLen (n : Nat) : List Nat := beBytes 2 (0x7000 + n)

/-- The root layer around a framing layer. -/
def State.e131Root (s : State) (vector : Nat) (framing : List Nat) : List Nat :=
  [0x00, 0x10, 0x00, 0x00, 0x41, 0x53, 0x43, 0x2D, 0x45, 0x31, 0x2E, 0x31, 0x37, 0, 0, 0] ++
  pduLen (22 + framing.length) ++ beBytes 4 vector ++ s.cid ++ framing

/-- A data packet. -/
def State.e131Data (s : State) (u : Chan) (sync seq : Nat) (terminated : Bool) (slots : List Nat) : List Nat :=
  let dmp := pduLen (11 + slots.length) ++ [0x02, 0xA1] ++ beBytes 2 0 ++ beBytes 2 1 ++ beBytes 2 (1 + slots.length) ++ [0] ++ slots
  let options := (if terminated then 0x40 else 0) + (if u.univForce then 0x20 else 0)
  s.e131Root 4 (pduLen (77 + dmp.length) ++ beBytes 4 2 ++ s.sourceName ++ [u.univPrio] ++ beBytes 2 sync ++
    [seq, options] ++ beBytes 2 u.univNo ++ dmp)

/-- A synchronisation packet. -/
def State.e131Sync (s : State) (sync seq : Nat) : List Nat :=
  s.e131Root 8 (pduLen 11 ++ beBytes 4 1 ++ [seq] ++ beBytes 2 sync ++ beBytes 2 0)

/-- A universe discovery packet. -/
def State.e131Discovery (s : State) (page last : Nat) (list : List Nat) : List Nat :=
  let layer := pduLen (8 + 2 * list.length) ++ beBytes 4 1 ++ [page, last] ++ list.flatMap (beBytes 2)
  s.e131Root 8 (pduLen (74 + layer.length) ++ beBytes 4 2 ++ s.sourceName ++ beBytes 4 0 ++ layer)

/-- The multicast address of a universe (R303). -/
def univGroup (u : Nat) : Nat := 0xEFFF0000 + u % 65536

/-- The link of a universe's data (R370). -/
def State.univLink (s : State) (u : Chan) : Nat :=
  let ls := s.portLinks u.univPort
  ls.getD (u.univNo % ls.length) 0

/-- sACN leaves the device: not from a muted Standby, nor after a pair-fatal fault (R49, R469). -/
def State.sacnMuted (s : State) : Bool := decide (s.role = 2)

/-- UDP port 5568, the source port also (PRESUMED). -/
def State.sendE131 (s : State) (tag : Option (Nat × Nat)) (l dst : Nat) (p : List Nat) : State × SendResult :=
  s.sendIpTag tag l dst 17 (udpDatagram (s.get R.NL_IP l) dst 5568 5568 p)

/-! ## Universes -/

/-- What a universe keeps. -/
def State.univOf (s : State) (handle : Nat) : Univ :=
  (s.fix.univ.find? (fun u => u.handle == handle)).getD { handle := handle, next := 0, done := none, last := none }
/-- Store what a universe keeps. -/
def State.setUniv (s : State) (u : Univ) : State :=
  { s with fix := { s.fix with univ := s.fix.univ.filter (fun q => q.handle != u.handle) ++ [u] } }

/-- One data packet of a universe with the counter's number: sent, or advanced without sending by a Standby (R313). -/
def State.sendUniverse (s : State) (u : Chan) (sync : Nat) (terminated : Bool) (slots : List Nat) : State × SendResult :=
  let k := s.univOf u.handle
  let adv (t : State) : State :=
    (t.setUniv { t.univOf u.handle with next := (k.next + 1) % 256 }).put F.U_STAT_SEQ k.next u.index
  if s.sacnMuted then (adv s, .sent)
  else if s.red.sacnStop then (s, .unresolved)
  else
    let dst := if u.univDest = 0 then univGroup u.univNo else u.univDest
    let q := s.sendE131 u.univTagOf (s.univLink u) dst (s.e131Data u sync k.next terminated slots)
    if q.2 = .sent then ((adv q.1).add64 R.FIX_SENT_LO 1, .sent) else q

/-- A data packet that missed D(n) (R314). -/
def State.univLate (s : State) (u : Chan) (n : Nat) : State :=
  ((((s.setUniv { s.univOf u.handle with done := some n }).bump R.FIX_LATE_CNT).raise F.FIX_EVT_LATE).putFlag
    F.U_STAT_LATE true u.index).tallyAtMost 0x0A02 10 oneSecond 0x0A02 [u.handle, u.univPort, n]

/-- The universe of a frame that is sent in it and not yet dealt with, if there is one at the INDEX. -/
def State.univDue (s : State) (w : FrameWork) (i : Nat) : Option Chan :=
  (w.running kUniverse).find? (fun u => u.index == i && decide (w.frame % u.dividerAt w.rate = 0) &&
    (s.univOf u.handle).done != some w.frame)

/-- What becomes of a universe whose packet of frame n was sent, or dropped, or found no next hop (R312, R314). -/
def State.univOutcome (s : State) (u : Chan) (n : Nat) (slots : List Nat) : SendResult → State
  | .dropped => s.univLate u n
  | .unresolved => s.setUniv { s.univOf u.handle with done := some n }
  | .sent => (s.setUniv { s.univOf u.handle with done := some n, last := some slots }).putFlag F.U_STAT_LATE false u.index

/-- A universe's packet of frame n goes out, if it is due and built (R312). -/
def State.sendBuilt (s : State) (w : FrameWork) (n i : Nat) : State :=
  match s.univDue w i with
  | none => s
  | some u =>
    match s.fix.built.find? (fun b => b.1 == n && b.2.1 == u.handle) with
    | none => s
    | some b =>
      let q := s.sendUniverse u u.univSync false b.2.2
      q.1.univOutcome u n b.2.2 q.2

/-- SACN_DATA (R312): the packet of a universe for frame n, between E(n) and D(n); after D(n) it is not sent (R314). -/
def doSacnData (n i : Nat) (s : State) : State :=
  match s.frameWork n with
  | none => s
  | some w =>
    if w.active = false then s
    else
      let s1 := s.atTime (s.eAt n)
      if s1.dAt n < s1.now then (match s1.univDue w i with | some u => s1.univLate u n | none => s1) else s1.sendBuilt w n i

/-- SACN_LATE (R314): a universe whose packet was not sent by D(n). -/
def doSacnLate (n i : Nat) (s : State) : State :=
  match s.frameWork n with
  | none => s
  | some w =>
    if w.active = false then s
    else
      let s1 := s.atTime (s.dAt n)
      match s1.univDue w i with
      | none => s1
      | some u => s1.univLate u n

/-- The running universes of a synchronisation universe that a frame sends. -/
def FrameWork.syncUniverses (w : FrameWork) (sync : Nat) : List Chan :=
  (w.running kUniverse).filter (fun u => u.univSync == sync && sync != 0 && decide (w.frame % u.dividerAt w.rate = 0))

/-- One synchronisation packet on a link. -/
def State.sendSync (s : State) (tag : Option (Nat × Nat)) (sync l : Nat) : State :=
  let k := ((s.fix.syncs.find? (fun q => q.1 == sync)).map Prod.snd).getD 0
  let t := if s.sacnMuted then s else (s.sendE131 tag l (univGroup sync) (s.e131Sync sync k)).1
  { t with fix := { t.fix with syncs := t.fix.syncs.filter (fun q => q.1 != sync) ++ [(sync, (k + 1) % 256)] } }

/-- SACN_SYNC (R312): the packets of a synchronisation universe for frame n, at P_z(n), on every lane of each port of
its universes (R370). -/
def doSacnSync (n sync : Nat) (s : State) : State :=
  match s.frameWork n with
  | none => s
  | some w =>
    match w.syncUniverses sync with
    | [] => s
    | u :: us =>
      let s1 := s.atTime (s.pAt n (zoneOffset w.chans u.univZone))
      if w.active = false || s1.red.sacnStop then s1
      else
        let ports := ((u :: us).map Chan.univPort).eraseDups
        s1.each ports (fun p t =>
          let tag := ((u :: us).find? (fun c => c.univPort == p)).bind Chan.univTagOf
          t.each (t.portLinks p) (fun l t2 => t2.sendSync tag sync l))

/-! ## Discovery, Hold and termination (R303, R314) -/

/-- The pages of a list of universes. -/
def pagesOf (l : List Nat) : List (List Nat) :=
  (List.range (max 1 (ceilDiv l.length 512))).map (fun k => (l.drop (512 * k)).take 512)

/-- UNIVERSE_DISCOVERY (R303): the discovery packets of every sACN port, on every lane, while DISC_EN is 1. -/
def doUniverseDiscovery (s : State) : State :=
  if s.flag F.FIX_CTL_DISC_EN = false || s.sacnMuted || s.red.sacnStop then s
  else
    let sent := if 2 ≤ s.power then s.running kUniverse else []
    s.each ((List.range 19).filter (fun p => s.hasRole p 2)) (fun p t =>
      let list := sortBy (fun a b => decide (a ≤ b)) ((sent.filter (fun u => u.univPort == p)).map Chan.univNo)
      let pages := pagesOf list
      t.each (t.portLinks p) (fun l t2 => t2.each pages.zipIdx (fun q t3 =>
        (t3.sendE131 none l (univGroup 64214) (t3.e131Discovery q.2 (pages.length - 1) q.1)).1)))

/-- SACN_HOLD_RESEND (R314): in Hold the last data packet of each universe again, with Synchronisation Address 0. -/
def doSacnHoldResend (s : State) : State :=
  if s.power ≠ 2 then s
  else
    s.each (sortBy (fun a b => decide (a.index ≤ b.index)) (s.running kUniverse)) (fun u t =>
      match (t.univOf u.handle).last with
      | some slots => (t.sendUniverse u 0 false slots).1
      | none => t)

/-- A universe that stops being sent at frame k is to be terminated (R314). -/
def State.terminateUniverse (s : State) (u : Chan) (k cause : Nat) : State :=
  if 2 ≤ s.power then
    { s with fix := { s.fix with terms := s.fix.terms ++ [{ chan := u, frame := k, cause := cause }] } }
  else s

/-- UNIV_TERMINATED (R314): three data packets with Stream_Terminated, 1 ms apart from E(k) on. -/
def doUnivTerminated (i : Nat) (s : State) : State :=
  match s.fix.terms.find? (fun t => t.chan.index == i) with
  | none => s
  | some d =>
    let u := d.chan
    let slots := ((s.univOf u.handle).last).getD (List.replicate u.univSlots 0)
    let s1 := { s with fix := { s.fix with terms := s.fix.terms.filter (fun t => t.chan.handle != u.handle) } }
    let s2 := s1.each (List.range 3) (fun j t =>
      ((t.atTime (t.eAt d.frame + j * 65536000000)).sendUniverse u u.univSync true slots).1)
    let s3 := if s.sacnMuted || s.red.sacnStop then s2 else
      (s2.raise F.FIX_EVT_TERMINATED).tally 0x0A00 [u.handle, u.univNo, d.cause]
    if d.cause = 1 then { s3 with fix := { s3.fix with univ := s3.fix.univ.filter (fun q => q.handle != u.handle) } } else s3

/-! ## Registers in force (R315, R317) -/

/-- R_b of check 10 in bytes per µs. -/
def linkRate (speed : Nat) : Nat :=
  match speed with
  | 1 => 1250 | 2 => 3125 | 3 => 12500 | 4 => 3125 | 5 => 125 | 6 => 125 | _ => 0

/-- Packets per second over universes and synchronisation universes (R315, check 9), as an exact number. -/
def packetRate (rate : Nat) (us : List Chan) : Rat :=
  let nd := rateND rate
  let f : Rat := mkRat nd.1 nd.2
  let syncs := ((us.map Chan.univSync).filter (· != 0)).eraseDups
  (us.map (fun u => f / (u.dividerAt rate : Rat))).sum +
  (syncs.map (fun y => match us.find? (fun u => u.univSync == y) with
    | some u => f / (u.dividerAt rate : Rat)
    | none => 0)).sum

/-- Burst bytes of universes on one lane (R315, check 10): `syncs` are the universes of its port. -/
def burstBytes (data port : List Chan) : Nat :=
  (data.map (fun u => u.univSlots + (if u.univTag then 196 else 192))).sum +
  (((port.map Chan.univSync).filter (· != 0)).eraseDups.map (fun y =>
    if port.any (fun u => u.univSync == y && u.univTag) then 119 else 115)).sum

/-- Burst bytes of a port among running universes: those of its largest lane (R370). -/
def State.portBurst (s : State) (us : List Chan) (p : Nat) : Nat :=
  let mine := us.filter (fun u => u.univPort == p)
  let n := (s.portLinks p).length
  ((List.range n).map (fun k => burstBytes (mine.filter (fun u => u.univNo % n == k)) mine)).foldl max 0

/-- Bring the registers of fixtures and universes up to date with the latched channels. -/
def State.refreshFix (s : State) : State :=
  let cs := s.cmd.latched
  let us := cs.filter (fun c => c.kind == kUniverse && decide (c.st = .running))
  let fx := (cs.filter (fun c => c.kind == kFixture && decide (c.st = .running))).length
  let s1 := ((s.put F.FIX_STAT_FIXTURES fx).put F.FIX_STAT_UNIVERSES us.length).put F.FIX_PKT_RATE_RATE
    (packetRate s.rate us).floor.toNat
  let s2 := s1.each (List.range 19) (fun p t => t.put F.FIX_PORT_BYTES_BYTES (t.portBurst us p) p)
  s2.each (cs.filter (fun c => c.kind == kUniverse)) (fun u t =>
    ((t.putFlag F.U_STAT_RUNNING (decide (u.st = .running)) u.index).putFlag F.U_STAT_SYNCED (u.univSync != 0) u.index).put
      F.U_STAT_DIVIDER (u.dividerAt t.rate) u.index)

/-! ## The meanings of the rows -/

def execFixtureFrame (frame : Nat) (s : State) : Host.Outcome State Fault Refusal := .next (doFixtureFrame frame s)
def execSacnData (frame : Nat) (univ : Fin 8192) (s : State) : Host.Outcome State Fault Refusal :=
  .next (doSacnData frame univ.val s)
def execSacnLate (frame : Nat) (univ : Fin 8192) (s : State) : Host.Outcome State Fault Refusal :=
  .next (doSacnLate frame univ.val s)
def execSacnSync (frame sync : Nat) (s : State) : Host.Outcome State Fault Refusal := .next (doSacnSync frame sync s)
def execUniverseDiscovery (s : State) : Host.Outcome State Fault Refusal := .next (doUniverseDiscovery s)
def execSacnHoldResend (s : State) : Host.Outcome State Fault Refusal := .next (doSacnHoldResend s)
def execUnivTerminated (univ : Fin 8192) (s : State) : Host.Outcome State Fault Refusal :=
  .next (doUnivTerminated univ.val s)

end Sys2Proof.Machine
end

