-- ==== Sys2Proof/Machine/Consistency.lean ====
section
/-! DEFINITION. Checks 11 and 12 of R131 over a projected state (R141): the rules of each kind (R28, R29, R45, R152, R153,
R169, R176, R192, R199, R206, R213, R228, R248, R254, R270, R271, R299, R315, R335, R337, R365) and the budgets of R107. -/
namespace Sys2Proof.Machine
open Sys2Proof

/-! ## The projected state (R137, R141) -/

/-- Change a channel to a run state. -/
def Chan.withRun (c : Chan) (start : Bool) : Chan := { c with st := if start then .running else .stopped }

/-- One entry of a set applied to a state: a parameter, a run state, or an F field of a register. -/
def State.applyEntry (s : State) (e : SetEntry) : State :=
  match e with
  | .param h p _ v =>
    s.modChan (handleKind h) (handleIndex h) (fun c => if c.handle = h then c.setParam p v else c)
  | .run h on => s.modChan (handleKind h) (handleIndex h) (fun c => if c.handle = h ∧ c.st ≠ .draining then c.withRun on else c)
  | .field a lo w v => s.setReg a (BitVec.ofNat 32 (putBits (s.reg a).toNat lo w v))

/-- Entries applied in order. -/
def State.applyEntries (s : State) (es : List SetEntry) : State := s.each es (fun e t => t.applyEntry e)

/-- Copy the lists of lamps that entries for frame k name (R336). -/
def State.copyLists (s : State) (k : Nat) (es : List SetEntry) : State :=
  s.each es (fun e t => match e with
    | .param h 0x0A01 _ v => t.copyLamps h k v
    | _ => t)

/-- The structure that would be in force with an image. -/
def State.withImage (s : State) (st : Structure) : Structure :=
  if st.partialImage then (match s.str.inForce with | some b => mergePartial b st | none => st) else st

/-- The state under the structure of frame k: an accepted partial image that waits for a frame up to k is in place (R93,
R96). -/
def State.underImage (s : State) (k : Nat) : State :=
  match s.str.load with
  | some l =>
    (match l.image with
     | some st =>
       if st.partialImage && decide (l.frame ≤ k) && decide (2 ≤ s.get F.STR_LOAD_STAT_PHASE ∧ s.get F.STR_LOAD_STAT_PHASE ≤ 3)
       then { s with str := { s.str with inForce := some (s.withImage st), load := none } } else s
     | none => s)
  | none => s

/-- The state projected to frame k: the state in force with the pending changes for k or earlier, in effect order, under the
structure of frame k. -/
def State.projected (s : State) (k : Nat) : State :=
  let due := sortBy (fun a b => decide (a.frame ≤ b.frame)) (s.cmd.deferred.filter (fun d => decide (d.frame ≤ k)))
  (s.each due (fun d t => t.applyEntries (s.deferredEntries d))).underImage k

/-! ## References (R128) -/

/-- The references a channel's parameters hold: PARAM, first byte, and the kind they name. -/
def Chan.refSites (c : Chan) : List (Nat × Nat × Nat) :=
  match c.kind with
  | 1 => [(0x0101, 0, kStream)]
  | 5 => [(0x0501, 0, kRing), (0x0510, 0, kRegion), (0x0515, 0, kZone), (0x0516, 0, kFeed)]
  | 8 => [(0x0801, 0, kUniverse)]
  | 9 => [(0x0903, 0, kZone)]
  | 0xA => [(0x0A03, 0, kZone)]
  | _ => []

/-- The handles a channel refers to, with the PARAM that holds each. -/
def Chan.refs (c : Chan) : List (Nat × Nat) := c.refSites.map (fun r => (r.1, c.fld r.1 r.2.1 4))

/-- A reference made null by a forced destroy. -/
def Chan.nullRef (c : Chan) (p : Nat) : Chan :=
  let v := c.val p
  let d := c.setParam p (v - v % 2 ^ 32)
  { d with nulls := d.nulls ++ [p] }

/-- The status of a handle inside a value: OK for the null handle where that is allowed. -/
def State.refStatus (s : State) (kind h : Nat) (optional : Bool) : Nat :=
  if optional && h == 0 then stOK else s.handleStatus [kind] h

/-! ## Checks of one channel -/

/-- The status of the first rule broken, in order; OK where none is. -/
def firstStatus (l : List (Bool × Nat)) : Nat := ((l.find? Prod.fst).map Prod.snd).getD stOK

/-- The lowest failing status (R15); OK where none fails. -/
def lowestStatus (l : List Nat) : Nat :=
  match sortBy (fun a b => decide (a ≤ b)) (l.filter (· != stOK)) with
  | x :: _ => x
  | [] => stOK

/-- n lies from a to b. -/
def within (a n b : Nat) : Bool := decide (a ≤ n) && decide (n ≤ b)

/-- The paths of a network stream. -/
def Chan.paths (c : Chan) : List Bool := if c.hasPath true then [false, true] else [false]

/-- Group, UDP port, source and PORT of a path. -/
def Chan.pathKey (c : Chan) (b : Bool) : Nat × Nat × Nat × Nat :=
  let p := if b then 0x0206 else 0x0205
  (c.fld p 0 4, c.fld p 8 2, c.fld p 4 4, c.pathPort b)

/-- A STREAM (R150 to R153, R169). A path whose value is all 0, its default, is not set yet: only a running stream needs it
(DEDUCED: the default's payload type lies outside the range that R152 checks). -/
def State.checkStream (s : State) (c : Chan) : Nat :=
  let f := c.streamFmt
  let net := !c.stored
  let run := decide (c.st = .running)
  let play (b n : Nat) : Nat := c.fld 0x020C b n
  let pl (b : Bool) (o n : Nat) : Nat := c.fld (if b then 0x0206 else 0x0205) o n
  let badPath (b : Bool) : Bool := pl b 0 16 != 0 && (!within 96 (pl b 11 1) 127 || decide (4094 < pl b 12 2) || pl b 14 2 != 0)
  let store := decide (c.storeBase % 4096 = 0)
  let values :=
    lowestStatus [
      firstStatus [
        (bits f 1 0 == 3 || bits f 3 2 == 3 || bits f 5 4 == 3 || bits f 7 6 == 3 || bits f 15 9 != 0, stUnsupported),
        (decide (17 < c.pathPort false) || (decide (17 < c.pathPort true) && c.pathPort true != 0xFF), stUnsupported),
        ((bits f 7 6 != 0) != (bits f 5 4 == 2), stInconsistent),
        (badPath false || (c.pathPort true != 0xFF && badPath true), stInconsistent)],
      firstStatus [
        (decide (1 < c.val 0x0201) || !within 64 c.streamW 7680 || !within 32 c.streamH 4320 ||
          (net && bits f 1 0 == 0 && c.streamW % 2 == 1) || c.rateD == 0 || decide (c.rateN < c.rateD) ||
          decide (240 * c.rateD < c.rateN) || !within 1 (c.fld 0x0208 0 2) 10000 || !within 1000 (c.val 0x0209) 1500 ||
          decide (1000000 < c.val 0x020A) || !within 1000 (c.val 0x020B) 10000000 || !store, stInconsistent)],
      firstStatus [
        (play 4 4 != 0 && (play 10 2 == 0 || decide (c.slots < play 0 4 + play 4 4) ||
          decide (65535 * play 10 2 < play 8 2) || decide (1 < play 12 1) || play 13 3 != 0), stInconsistent)]]
  let starts :=
    if !run then stOK
    else if c.stored then firstStatus [(c.slots == 0, stInconsistent)]
    else
      firstStatus [
        (c.paths.any (fun b => badPath b || pl b 0 16 == 0), stInconsistent),
        (c.paths.any (fun b => !s.hasRole (c.pathPort b) 0), stInconsistent),
        (c.hasPath true && c.pathPort true == c.pathPort false, stInconsistent),
        ((s.running kStream).any (fun d => d.index != c.index && !d.stored &&
          d.paths.any (fun x => c.paths.any (fun y => d.pathKey x == c.pathKey y))), stInconsistent),
        (!inStoreArea c.storeBase c.storeLen || decide (c.storeLen < 3 * footprint c.streamW c.streamH false), stInconsistent)]
  lowestStatus [values, starts]

/-- The picture size a layer's crop is taken from: the SIZE of its stream. -/
def State.layerSize (s : State) (c : Chan) : Option (Nat × Nat) :=
  (s.chanOf (c.val 0x0101)).map (fun d => (d.streamW, d.streamH))

/-- The oriented crop of a layer; none for a following crop without a stream. -/
def State.layerCrop (s : State) (c : Chan) : Option (Nat × Nat) :=
  if c.following then
    (s.layerSize c).map (fun z => let q := c.crop z.1 z.2; orientedSize c.orient q.2.2.1 q.2.2.2)
  else
    let q := c.crop 0 0
    some (orientedSize c.orient q.2.2.1 q.2.2.2)

/-- The granules of a scaler's partition in a state. -/
def State.scalerLen (s : State) (k : Nat) : Option Nat :=
  (s.str.inForce.bind (fun st => (st.scalers s.skim)[k]?)).map Prod.snd

/-- A LAYER (R176). -/
def State.checkLayer (s : State) (c : Chan) : Nat :=
  let src := c.val 0x0101
  let nulled := c.nulls.contains 0x0101
  let fill := src == 0 && !nulled
  let sc := c.val 0x0114
  let taps := [1, 2, 4, 6, 8]
  let cr (b : Nat) : Nat := c.fld 0x0111 b 2
  let fx := c.fld 0x0113 0 1
  let fy := c.fld 0x0113 1 1
  let oc := s.layerCrop c
  let ref := if src = 0 then stOK else s.handleStatus [kStream] src
  let size (bad : Nat × Nat → Bool) : Bool := (oc.map bad).getD false
  if ref ≠ stOK then ref
  else
    firstStatus [
      (decide (5 < c.blendMode) || bits (c.val 0x0103) 15 3 != 0 || decide (7 < c.orient) || decide (2 < c.fld 0x0106 1 1) ||
        c.fld 0x0106 2 2 != 0 || c.fld 0x0104 10 2 != 0 || !taps.contains c.hTaps || !taps.contains c.vTaps ||
        decide (8 < c.bank) || bits sc 31 20 != 0, stUnsupported),
      (decide (32768 < c.opacity) || decide (32768 < c.fld 0x0105 6 2) || decide (32768 < c.fld 0x0106 10 2) ||
        ([0, 2, 4, 6].any (fun b => cr b != 0) && (cr 4 == 0 || cr 6 == 0)) || !within 1 c.destW 32768 ||
        !within 1 c.destH 32768 || decide (63 < fx) || decide (63 < fy), stInconsistent),
      (fill && c.scaled, stInconsistent),
      (!fill && !c.scaled && (size (fun q => q.1 != c.destW || q.2 != c.destH) || fx != 0 || fy != 0), stInconsistent),
      (!fill && c.scaled && (decide (s.capOf 0x40 ≤ c.scaler) ||
        s.cmd.chans.any (fun d => d.kind == kLayer && d.index != c.index && decide (d.st ≠ .draining) && d.scaler == c.scaler)),
        stInconsistent),
      (!fill && c.scaled && size (fun q => !ratioOk c.destW q.1 || !ratioOk c.destH q.2), stInconsistent),
      (!fill && c.scaled && (match s.scalerLen c.scaler with
        | none => true
        | some len => size (fun q => decide (len < lineNeed c.vTaps q.1 s.skim))), stInconsistent),
      (!fill && c.scaled && c.bank != 0 && !s.cmp.banks.any (fun b => b.1 == c.bank), stInconsistent)]

/-- A REGION (R206). -/
def checkRegion (c : Chan) : Nat :=
  let r := regionOf c
  firstStatus [
    (!within 32 r.w 32768 || !within 32 r.h 32768, stInconsistent),
    (decide ((2 : Int) ^ 31 - 1 < r.x + r.w - 1) || decide ((2 : Int) ^ 31 - 1 < r.y + r.h - 1), stInconsistent)]

/-- The offset of the zone a handle names, in ns. -/
def State.offsetOf (s : State) (zone : Nat) : Int := zoneOffset s.cmd.chans zone

/-- The declaration of the endpoint joined at a channel's position. -/
def State.declared (s : State) (c : Chan) : Option Joined :=
  (ringOf s.cmd.chans c).bind (fun r => s.joinedAt r.ringNo c.epPosition)

/-- The zone rules of R28 and R29 for an endpoint at an advance in µs and a period in µs. -/
def State.bufferBad (s : State) (c : Chan) (adv : Nat) (period : Rat) : Bool :=
  match s.declared c with
  | some j => decide (j.buffers < buffersNeeded adv (s.offsetOf c.epZone) period)
  | none => false

/-- A loaded tile type with ELEC (R246, R254). -/
def State.hasElec (s : State) (ty : Nat) : Bool := s.gov.types.any (fun t => t.type == ty && t.elec)

/-- A zone holds both endpoints and direct-drive lamp groups (R228, R242). -/
def State.zoneMixed (s : State) (zone : Nat) : Bool :=
  let members := s.cmd.chans.filter (fun d => decide (d.st ≠ .draining) && d.memberZone == zone)
  zone != 0 && members.any (fun d => d.kind == kEndpoint) && members.any (fun d => d.kind == kDdgroup)

/-- What a running ENDPOINT must satisfy beside the rows of R213: its handles, its place on its ring (R271), its feed and
its tile type (R248), and, running or not, the membership of its zone (R228). -/
def State.endpointRefs (s : State) (c : Chan) : Nat :=
  let ring := c.fld 0x0501 0 4
  let ty := c.val 0x0520
  let mixed := if s.zoneMixed c.epZone then stInconsistent else stOK
  if c.st ≠ .running then mixed
  else lowestStatus [
    mixed,
    if c.nulls.contains 0x0510 then stOK else s.refStatus kRegion c.epRegion false,
    s.refStatus kZone c.epZone true,
    s.refStatus kFeed c.epFeed true,
    firstStatus [
      (s.handleStatus [kRing] ring != stOK, stInconsistent),
      (!within 1 c.epPosition 512, stInconsistent),
      ((s.running kEndpoint).any (fun d => d.index != c.index && d.fld 0x0501 0 4 == ring && d.epPosition == c.epPosition),
        stInconsistent)],
    firstStatus [
      ((decide (63 < ty) && ty != 0xFF) || (c.epFeed != 0 && (ty == 0xFF || !s.hasElec ty)), stInconsistent)]]

/-- Rows 1 to 7 of R213 for a running ENDPOINT, in their order. -/
def State.endpointRows (s : State) (c : Chan) : Nat :=
  if c.st ≠ .running then stOK
  else
    let adv := s.get F.SYS_PIPE_CTL_ADVANCE
    let reg := (s.chanOf c.epRegion).map regionOf
    let corr (skim : Bool) : Bool :=
      let b := c.epCorr skim
      b != 0 && (b % 64 != 0 || !inUsable b (c.epPixels * (if skim then 8 else 16)))
    firstStatus [
      (decide (7 < c.epRot) || decide (3 < c.epScan) || decide (2 < c.epMode) || !within 8 c.epDepth 16 ||
        decide (5 < c.epOrder) || decide (31 < c.epCurve) || c.fld 0x0510 14 2 != 0 || c.fld 0x0511 6 2 != 0 ||
        c.fld 0x0512 1 1 != 0 || c.fld 0x0512 6 2 != 0 || c.fld 0x0501 6 2 != 0, stUnsupported),
      (!within 1 c.epW 4096 || !within 1 c.epH 4096 || decide (1048576 < c.epPixels) ||
        (match s.declared c with
          | some j => j.w != c.epW || j.h != c.epH
          | none => false), stInconsistent),
      (s.placementBad c reg, stInconsistent),
      (corr false || corr true, stInconsistent),
      (c.epCurve != 0 && !s.flag { R.SEP_CURVE_LOADED with lo := c.epCurve, width := 1 }, stInconsistent),
      (decide (s.offsetOf c.epZone < -(adv * 1000 : Int)) || s.bufferBad c adv (periodUs s.rate), stInconsistent)]

/-- An ENDPOINT (R213, R228, R248, R271). -/
def State.checkEndpoint (s : State) (c : Chan) : Nat := lowestStatus [s.endpointRefs c, s.endpointRows c]

/-- A stopped endpoint with a panel lies outside the region it names (R206). -/
def State.strayEndpoint (s : State) (c : Chan) : Bool :=
  c.kind == kEndpoint && decide (c.st = .stopped) && decide (0 < c.epPixels) &&
  (match s.chanOf c.epRegion with
   | some r => r.kind == kRegion && s.placementBad c (some (regionOf r)) && !s.placementBad c none
   | none => false)

/-- A ZONE (R28, R228, R365). -/
def State.checkZone (s : State) (c : Chan) : Nat :=
  let o := c.sfld 0x0601 0 4
  firstStatus [
    (decide (3 < c.fld 0x0610 0 1) || c.fld 0x0610 1 1 != 0, stUnsupported),
    (decide (10000000 < o) || decide (o < -10000000) || decide (o < -((s.get F.SYS_PIPE_CTL_ADVANCE : Int) * 1000)), stInconsistent),
    (!within 16 c.calWindow 4096 || !within 5 c.calTol 500 || !within 10 c.calStep 2500 || decide (c.calMin < 4096) ||
      decide (c.calMax < c.calMin) || !within 1 c.calMinDrive 32768 || decide (c.calMinEp < 3) || c.calSuspect == 0, stInconsistent),
    (s.zoneMixed c.handle, stInconsistent)]

/-- A FEED (R254). -/
def checkFeed (c : Chan) : Nat :=
  firstStatus [(!within 100 (c.fld 0x0701 8 4) 100000 || decide (c.fld 0x0701 0 4 ≤ c.fld 0x0701 12 4) ||
    decide (32768 < c.val 0x0702), stInconsistent)]

/-- A running RING (R270). -/
def State.checkRing (s : State) (c : Chan) : Nat :=
  if c.st ≠ .running then stOK
  else
    let n := c.ringNo
    let setUp := n < 8 && s.hasRole (2 * n) 1 && s.hasRole (2 * n + 1) 1
    firstStatus [
      (n == 0xFF || !setUp || s.cmd.chans.any (fun d => d.kind == kRing && d.index != c.index && decide (d.st ≠ .draining) &&
        d.ringNo == n), stInconsistent),
      (decide (c.ringEtype < 0x0600) || decide (1 < c.fld 0x0402 2 1) || decide (7 < c.ringPcp) ||
        (c.ringTag && !within 1 c.ringVid 4094) || c.fld 0x0402 6 2 != 0 || !within 125 c.timeUs 10000 ||
        !within 10 c.holdMs 1000 || (decide (3600 < c.lossHold) && c.lossHold != 0xFFFF) || c.fld 0x0403 6 2 != 0 ||
        !within 1 c.telemRate 4 || !within c.telemRate c.telemBucket 32, stInconsistent),
      (decide (1 < c.telemRate) && s.portSpeed (2 * n) == 1, stInconsistent)]

/-- A UNIVERSE (R315, orders 1 to 3 and 6). -/
def State.checkUniverse (s : State) (c : Chan) : Nat :=
  let run := decide (c.st = .running)
  let others := (s.running kUniverse).filter (fun d => d.index != c.index)
  let clash (d : Chan) : Bool :=
    d.univPort == c.univPort && (d.univNo == c.univNo || d.univSync == c.univNo || c.univSync == d.univNo)
  lowestStatus [
    s.refStatus kZone c.univZone true,
    firstStatus [
      (decide (3 < c.fld 0x0901 5 1) || c.fld 0x0901 9 3 != 0 || decide (18 < c.univPort) && c.univPort != 0xFF ||
        (run && decide (18 < c.univPort)), stUnsupported),
      (!within 1 c.univNo 63999 || decide (63999 < c.univSync) || (c.univTag && !within 1 c.univVid 4094) ||
        decide (7 < c.univPcp) || decide (200 < c.univPrio) || decide (16 < c.univDivider) || !within 1 c.univSlots 512,
        stInconsistent),
      (run && !s.hasRole c.univPort 2, stInconsistent),
      (run && (others.any clash || (c.univSync == c.univNo)), stInconsistent),
      (run && c.univSync != 0 && others.any (fun d => d.univSync == c.univSync &&
        (d.univZone != c.univZone || d.dividerAt s.rate != c.dividerAt s.rate)), stInconsistent),
      (decide (s.offsetOf c.univZone < -((s.get F.SYS_PIPE_CTL_ADVANCE : Int) * 1000)), stInconsistent)]]

/-- The slots of an attribute, counted from 1. -/
def Chan.slotsOf (c : Chan) (a : Nat) : List Nat := (c.attrSlots a 0).map Prod.fst

/-- The slots of a fixture. -/
def Chan.fxSlots (c : Chan) : List Nat := (List.range c.fxAttrs).flatMap c.slotsOf

/-- A FIXTURE (R315, orders 1, 2, 4 and 5). Order 4 asks for a valid handle of a running fixture, and keeps the slots of any
patched one apart, for a STOPPED fixture's slots carry its values on (R311). -/
def State.checkFixture (s : State) (c : Chan) : Nat :=
  let as' := List.range (min 64 c.fxAttrs)
  let run := decide (c.st = .running)
  let moving := as'.filter (fun a => c.atMotion a)
  let u := s.chanOf c.fxUniverse
  let mine := c.fxSlots
  let nulled := c.nulls.contains 0x0801
  firstStatus [
    (c.fld 0x0801 7 1 != 0 || as'.any (fun a => c.atMode a == 3 || decide (5 < c.atComponent a) || c.fld (0x0880 + a) 3 1 != 0 ||
      c.fld (0x0880 + a) 14 2 != 0 || c.fld (0x08C0 + a) 11 1 != 0), stUnsupported),
    (!within 1 c.fxStart 512 || !within 1 c.fxAttrs 64 || as'.any (fun a => decide (511 < c.atOffset a) ||
      (c.atMode a != 0 && (!within 1 (c.atW a) 64 || !within 1 (c.atH a) 64))), stInconsistent),
    (!nulled && (match u.filter (fun q => q.kind == kUniverse) with
      | none => run
      | some q => mine.any (fun k => decide (q.univSlots < k)) || mine.eraseDups.length != mine.length ||
        s.cmd.chans.any (fun d => d.kind == kFixture && decide (d.st ≠ .draining) && d.index != c.index &&
          d.fxUniverse == c.fxUniverse && d.fxSlots.any (fun k => mine.contains k))), stInconsistent),
    (decide (4 < moving.length) || moving.any (fun a => decide (3 < c.moSlot a)) ||
      (moving.map c.moSlot).eraseDups.length != moving.length, stInconsistent)]

/-- A lamp group in the state projected to frame k: running, the rules of R337; running or not, its zone's (R228, R242). -/
def State.checkGroup (s : State) (k : Nat) (c : Chan) : Nat :=
  let mixed := if s.zoneMixed (c.val 0x0A03) then stInconsistent else stOK
  if c.st ≠ .running then mixed
  else
    let p := c.ddPortNo
    let lamps := s.groupLamps c k
    let others := (s.running kDdgroup).filter (fun d => d.index != c.index && d.ddPortNo == p)
    lowestStatus [
      mixed,
      s.refStatus kZone (c.val 0x0A03) true,
      firstStatus [
        (decide (1 < c.fld 0x0A01 1 1) || c.fld 0x0A01 4 4 != 0 || c.fld 0x0A02 1 1 != 0, stUnsupported),
        (decide (31 < p) || !within 1 c.ddCount 32768, stInconsistent),
        (c.ddList % 64 != 0 || !inUsable c.ddList (2 * c.ddCount), stInconsistent),
        (lamps.any (fun l => decide (s.ddLamps p ≤ l)) ||
          others.any (fun d => (s.groupLamps d k).any (fun l => lamps.contains l)), stInconsistent),
        (c.ddSensor != 0 && (!within 8 c.ddSensor 0x77 || others.any (fun d => d.ddSensor == c.ddSensor)), stInconsistent),
        (s.offsetOf (c.val 0x0A03) != 0, stInconsistent)]]

/-- Check 11 of one channel in the state projected to frame k. -/
def State.checkChan (s : State) (k : Nat) (c : Chan) : Nat :=
  match c.kind with
  | 1 => s.checkLayer c
  | 2 => s.checkStream c
  | 3 => checkRegion c
  | 4 => s.checkRing c
  | 5 => s.checkEndpoint c
  | 6 => s.checkZone c
  | 7 => checkFeed c
  | 8 => s.checkFixture c
  | 9 => s.checkUniverse c
  | 0xA => s.checkGroup k c
  | _ => stOK

/-! ## Registers with F fields (R199, R335) -/

/-- The PLAY range of a running stream, in force or pending, takes in one of some slots. -/
def State.slotsInPlay (s : State) (c : Chan) (first n : Nat) : Bool :=
  c.st == .running && (c.val 0x020C :: s.pendingValues c.handle 0x020C).any (fun v =>
    let f := v % 2 ^ 32
    let m := v / 2 ^ 32 % 2 ^ 32
    m != 0 && spansMeet first n f m)

/-- A writeback rectangle that breaks R199. -/
def State.rectBad (s : State) (i : Nat) : Bool :=
  if s.flag F.WB_CTL_EN i = false then false
  else
    let xy := s.get R.WB_XY i
    let wh := s.get R.WB_WH i
    let x := xy % 65536
    let y := xy / 65536
    let w := wh % 65536
    let h := wh / 65536
    let n := s.wbCount i
    let pitch := s.get R.WB_PITCH i
    let addr := s.get64 R.WB_ADDR_LO i
    decide (s.capOf 0x41 ≤ i) || w == 0 || h == 0 ||
    (match s.chanOf (s.get R.WB_REGION i) with
      | none => true
      | some c => c.kind != kRegion || decide ((regionOf c).w < x + w) || decide ((regionOf c).h < y + h)) ||
    (if s.get F.WB_CTL_FORMAT i = 0 then
      addr % 64 != 0 || pitch % 64 != 0 || decide (pitch < w * (if s.skim then 6 else 8)) || !inStoreArea addr (n * h * pitch) ||
      s.cmd.chans.any (fun c => c.kind == kStream && spansMeet addr (n * h * pitch) c.storeBase c.storeLen)
    else
      match s.chanOf (s.get R.WB_DST i) with
      | none => true
      | some c => c.kind != kStream || !c.stored || c.streamW != w || c.streamH != h ||
        decide (c.slots < s.get R.WB_SLOT i + n) || s.slotsInPlay c (s.get R.WB_SLOT i) n)

/-- The registers of a writeback rectangle or of a direct-drive port's placement, as one list. -/
def State.rectRegs (s : State) (i : Nat) : List Word :=
  [R.WB_CTL, R.WB_REGION, R.WB_XY, R.WB_WH, R.WB_ADDR_LO, R.WB_ADDR_HI, R.WB_PITCH, R.WB_DST, R.WB_SLOT].map (fun f => s.reg (f.addr i))
def State.portRegs (s : State) (p : Nat) : List Word :=
  [R.P_CTL, R.P_GEOM, R.P_X, R.P_Y, R.P_REGION, R.P_PITCH, R.P_ADDR_LO, R.P_ADDR_HI].map (fun f => s.reg (f.addr p))

/-! ## Rules of whole kinds and budgets -/

/-- Native pixels of running endpoints (R45). -/
def State.endpointPixels (s : State) : Nat := ((s.running kEndpoint).map Chan.epPixels).sum

/-- The Rate ceiling of R44. -/
def rateCeiling (rate : Nat) : Nat :=
  match rate with
  | 0 => 33554432 | 1 => 16777216 | _ => 8388608

/-- Two regions share a pixel. -/
def regionsMeet (a b : RegionWork) : Bool :=
  decide (a.x < b.x + b.w) && decide (b.x < a.x + a.w) && decide (a.y < b.y + b.h) && decide (b.y < a.y + a.h)

/-- Sampled pixels of a fixture, attributes of one rectangle counted once (R315, order 8). -/
def Chan.sampled (c : Chan) : Nat :=
  let rects := ((List.range c.fxAttrs).filter (fun a => c.atMode a != 0)).map (fun a => (c.atX a, c.atY a, c.atW a, c.atH a))
  (rects.eraseDups.map (fun r => r.2.2.1 * r.2.2.2)).sum

/-- Cost in clocks per frame of a kind whose budget a commit is checked against (R104, R107), at a rate. -/
def State.kindCost (s : State) (kind : Nat) : Nat :=
  match kind with
  | 1 => (((s.running kStream).filter (fun c => !c.stored)).map (fun c =>
      ((c.streamW * c.streamH * c.rateN : Nat) * (periodUs s.rate / 1000000) / ((2 * max 1 c.rateD : Nat) : Rat)).ceil.toNat)).sum
  | 2 => ceilDiv (((s.running kLayer).filter Chan.scaled).map (fun c =>
      let q := (s.layerCrop c).getD (0, 0)
      max (q.1 * q.2) (c.destW * c.destH))).sum 2
  | 4 => ceilDiv (s.endpointPixels * (if s.skim then 1 else 2)) 2
  | 6 => ceilDiv s.endpointPixels 2
  | 7 => ceilDiv (((s.running kFixture).map (fun c => 32 + c.sampled)).sum) 2
  | 8 => s.directCost ((List.range 32).filter (fun p => s.ddEnabled p))
  | 9 => ceilDiv (((List.range 16).filter (fun i => s.flag F.WB_CTL_EN i)).map (fun i =>
      let wh := s.get R.WB_WH i; (wh % 65536) * (wh / 65536))).sum 2
  | _ => 0

/-- Bits of a pixel on the wire, and the declared rate of a stream in bits per second (R153). -/
def Chan.declaredRate (c : Chan) : Rat :=
  let f := c.streamFmt
  let d := bits f 3 2
  let p := if bits f 1 0 = 0 then 16 + 4 * d else 24 + 6 * d
  (21 : Rat) / 20 * ((c.streamW * c.streamH * p * c.rateN : Nat) : Rat) / ((max 1 c.rateD : Nat) : Rat)

/-- Line rate of a port in bits per second. -/
def lineRate (speed : Nat) : Nat :=
  match speed with
  | 1 => 10000000000 | 2 => 25000000000 | 3 => 100000000000 | 4 => 100000000000 | 5 => 1000000000 | 6 => 1000000000 | _ => 0

/-- The declared rates of R153 break a limit. -/
def State.ingestOver (s : State) : Bool :=
  let net := (s.running kStream).filter (fun c => !c.stored)
  let paths := net.flatMap (fun c => c.paths.map (fun b => (c.pathPort b, c.declaredRate)))
  decide ((180000000000 : Rat) < (paths.map Prod.snd).sum) ||
  (List.range 18).any (fun p => decide ((lineRate (s.portSpeed p) : Rat) < ((paths.filter (fun q => q.1 == p)).map Prod.snd).sum))

/-- R192 does not hold. -/
def State.allowanceBad (s : State) : Bool :=
  let rs := (s.running kRegion).map regionOf
  let n := (rs.map RegionWork.bands).sum
  let w := (rs.map RegionWork.w).foldl max 0
  n != 0 && decide (s.allowance n < 16 * w + 16 * ceilDiv w 256)

/-- Wire bytes of a ring over its bound endpoints (R299). -/
def State.ringWireBytes (s : State) (ring : Chan) : Nat :=
  ((s.boundOn s.cmd.chans ring.ringNo).map (fun q => s.wireBytes s.cmd.chans ring q.1)).sum

/-- The links that a running network stream, a running universe or a PTP role uses, with the channel's handle or 0 (R370, R371). -/
def State.linksInUse (s : State) : List (Nat × Nat) :=
  ((s.running kStream).filter (fun c => !c.stored)).flatMap (fun c =>
    c.paths.flatMap (fun b => (s.portLinks (c.pathPort b)).map (fun l => (l, c.handle)))) ++
  (s.running kUniverse).flatMap (fun u =>
    ((if u.univSync = 0 then [s.univLink u] else s.portLinks u.univPort)).map (fun l => (l, u.handle))) ++
  ((List.range 19).filter (fun p => s.hasRole p 4)).filterMap (fun p => (s.portLinks p).head?.map (fun l => (l, 0)))

/-- The whole-kind rules of check 11 broken: the table of rows each belongs to (`rowsOf`), its status, and the handle of the
channel at fault or 0. -/
def State.wholeRules (s : State) : List (Nat × Nat × Nat) :=
  let rs := (s.running kRegion).map regionOf
  let adv := s.get F.SYS_PIPE_CTL_ADVANCE
  let bad (g : Nat) (b : Bool) (h : Nat) : List (Nat × Nat × Nat) := if b then [(g, stInconsistent, h)] else []
  bad 0 (decide (67108864 < (rs.map (fun r => r.w * r.h)).sum)) 0 ++
  rs.flatMap (fun a => rs.flatMap (fun b => bad 0 (decide (a.index < b.index) && regionsMeet a b) b.handle)) ++
  (s.cmd.chans.filter (fun c => c.kind == kZone && decide (c.st ≠ .draining))).flatMap (fun c =>
    bad 0 (decide (c.sfld 0x0601 0 4 < -((adv : Int) * 1000))) c.handle) ++
  (s.running kEndpoint).flatMap (fun c => bad kEndpoint (s.bufferBad c adv (periodUs s.rate)) c.handle) ++
  bad kEndpoint (decide (rateCeiling (s.get F.SYS_MODE_STAT_RATE) < s.endpointPixels)) 0 ++
  (s.running kUniverse).flatMap (fun c => bad kFixture (s.checkUniverse c != stOK) c.handle) ++
  s.linksInUse.flatMap (fun q => bad 0 (s.get R.NL_IP q.1 == 0) q.2)

/-- Check 12: a budget that the projected state exceeds, whatever the command changes (R107, R141, R142). -/
def State.overBudget (s : State) : Bool :=
  [1, 2, 4, 6, 7, 8, 9].any (fun k => decide (s.kindBudget k < s.kindCost k)) || s.ingestOver || s.allowanceBad ||
  (s.running kRing).any (fun r => decide (s.ringCap r.ringNo < s.ringWireBytes r)) ||
  decide ((524288 : Rat) < packetRate s.rate (s.running kUniverse)) ||
  (List.range 19).any (fun p => decide (600 * linkRate (s.portSpeed p) * 9 / 10 < s.portBurst (s.running kUniverse) p)) ||
  decide (1048576 < ((s.running kDdgroup).map Chan.ddCount).sum)

/-! ## Scope (R141) -/

/-- A channel of the projected state differs from the state in force: its parameters, and its run state. -/
def changedFrom (live : State) (c : Chan) : Bool × Bool :=
  match live.chanAt c.kind c.index with
  | none => (true, true)
  | some d =>
    if d.gen ≠ c.gen then (true, true)
    else
      let ps := (c.params.map Prod.fst ++ d.params.map Prod.fst).eraseDups
      (ps.any (fun p => c.val p != d.val p), decide (c.st ≠ d.st))

/-- Check 11 of one channel, by the ordered table its rows belong to: R213 for endpoints, R315 for fixtures and universes,
R176 for layers, 0 for rules in no such table. -/
def State.rowsOf (s : State) (k : Nat) (c : Chan) : List (Nat × Nat) :=
  if c.kind = kEndpoint then [(0, s.endpointRefs c), (kEndpoint, s.endpointRows c)]
  else if c.kind = kFixture ∨ c.kind = kUniverse then [(kFixture, s.checkChan k c)]
  else if c.kind = kLayer then [(kLayer, s.checkChan k c)]
  else [(0, s.checkChan k c)]

/-- The failing status that is reported (R15): in each ordered table the row that gives UNSUPPORTED comes before those that
give INCONSISTENT; of what then stands, the lowest. -/
def firstFailing (l : List (Nat × Nat × Nat)) : Option (Nat × Nat) :=
  let later (q : Nat × Nat × Nat) := q.1 != 0 && q.2.1 == stInconsistent && l.any (fun p => p.1 == q.1 && p.2.1 == stUnsupported)
  ((sortBy (fun a b => decide (a.2.1 ≤ b.2.1)) (l.filter (fun q => !later q))).head?).map Prod.snd

/-- Check 11 over the changed channels and those that depend on them, and the rules of whole kinds; check 12. The
result is the check, the status and the handle of the channel at fault (0 where none is named). -/
def State.consistency (s live : State) (k : Nat) : Nat × Nat × Nat :=
  let chans := s.cmd.chans.filter (fun c => decide (c.st ≠ .draining))
  let touched := chans.filter (fun c => let d := changedFrom live c; d.1 || d.2)
  let names := touched.map Chan.handle
  let deep := (touched.filter (fun c => (changedFrom live c).1 || c.kind != kStream)).map Chan.handle
  let scope := chans.filter (fun c => names.contains c.handle || c.refs.any (fun r => deep.contains r.2))
  let own := (scope.flatMap (fun c => (s.rowsOf k c).map (fun q => (q.1, q.2, c.handle)))).filter (fun q => q.2.1 != stOK)
  let stray := (scope.filter s.strayEndpoint).map (fun c => (0, stInconsistent, c.handle))
  let rects := (List.range 16).filter (fun i => s.rectBad i &&
    (s.rectRegs i != live.rectRegs i || names.contains (s.get R.WB_REGION i) || names.contains (s.get R.WB_DST i)))
  let ports := (List.range 32).filter (fun p => s.ddEnabled p && s.ddPlacementBad s.cmd.chans p &&
    (s.portRegs p != live.portRegs p || deep.contains (s.get R.P_REGION p)))
  match firstFailing (own ++ stray ++ s.wholeRules ++ (if rects.isEmpty && ports.isEmpty then [] else [(0, stInconsistent, 0)])) with
  | some q => (11, q.1, q.2)
  | none =>
    if decide (1048576 < ((s.running kDdgroup).map Chan.ddCount).sum) then (11, stNoCapacity, 0)
    else if s.overBudget then (12, stBudget, 0) else (0, stOK, 0)

end Sys2Proof.Machine
end

