-- ==== Sys2Proof/Machine/Ingest.lean ====
section
/-! DEFINITION. Ingest of network streams and stored pictures (R150 to R172). -/
namespace Sys2Proof.Machine
open Sys2Proof

/-- What one stream holds beside its registers. -/
def State.stream (s : State) (i : Nat) : Stream := s.ing.streams.getD i Stream.reset

/-- Change what one stream holds. -/
def State.modStream (s : State) (i : Nat) (f : Stream → Stream) : State :=
  { s with ing := { s.ing with streams := s.ing.streams.modify i f } }

/-- The running network stream of an index. -/
def State.netStream (s : State) (i : Nat) : Option Chan :=
  match s.chanAt kStream i with
  | some c => if c.st = .running ∧ c.stored = false then some c else none
  | none => none

/-- An RTP timestamp is later than another, modulo 2^32. -/
def laterTs (a b : Nat) : Bool := let d := (a + 2 ^ 32 - b % 2 ^ 32) % 2 ^ 32; d != 0 && decide (d < 2 ^ 31)

/-- The media time of an RTP timestamp, in ns (R160): the start of the tick nearest to the present. -/
def mediaTime (nowNs ts : Nat) : Nat :=
  let tick := nowNs * 9 / 100000
  let up := (ts + 2 ^ 32 - tick % 2 ^ 32) % 2 ^ 32
  let k := if up < 2 ^ 31 then tick + up else if tick + up < 2 ^ 32 then tick + up else tick + up - 2 ^ 32
  ceilDiv (k * 100000) 9

/-- Pixels of a picture that have been written. -/
def Picture.pixels (p : Picture) : Nat := (p.samples.filter (fun q => q.1 % 4 == 0)).length

/-- The sequence number expected first in a picture (R160): the one after the marker of the picture before. Where that
picture's last packet is not known (it lost its marker, or the picture itself is lost), the first number that arrived (DESIGN
CHOICE: the numbers between belong to neither picture). -/
def Stream.firstSeq (x : Stream) (c : Chan) (p : Picture) : Nat :=
  let gap (q : Nat × Nat) := (p.timestamp + 2 ^ 32 - q.1) % 2 ^ 32
  let before := x.marks.filter (fun q => laterTs p.timestamp q.1 && decide (2 * gap q * c.rateN ≤ 3 * 90000 * c.rateD))
  match before with
  | q :: r => ((r.foldl (fun b z => if gap z < gap b then z else b) q).2 + 1) % 2 ^ 32
  | [] => match p.seqs with
    | q :: r => r.foldl (fun b z => if laterTs b z.1 then z.1 else b) q.1
    | [] => 0

/-- A picture is complete (R160). -/
def Stream.complete (x : Stream) (c : Chan) (p : Picture) : Bool :=
  match p.marker with
  | none => false
  | some m =>
    let first := x.firstSeq c p
    let n := (m + 2 ^ 32 - first) % 2 ^ 32 + 1
    (p.seqs.filter (fun q => decide ((q.1 + 2 ^ 32 - first) % 2 ^ 32 < n))).length == n && p.pixels == c.streamW * c.streamH

/-- The picture decoded (R164), in the precision in force. A sample is held one above its value, so that 0 means none. -/
def State.decoded (s : State) (c : Chan) (p : Picture) (x y : Nat) : Px :=
  let w := c.streamW
  (decodePixel c.streamFmt (c.val 0x0208) (c.val 0x0209) w
    (fun x k => sparseGet (fun _ => 0) p.samples ((y * w + x) * 4 + k) - 1) x).map (codeIn s.skim)
  |> fun q => { q with a := whiteCode s.skim }

/-- A picture buffer that is neither held, nor the latest complete picture, nor another picture's (R167). -/
def State.freeBuffer (s : State) (i : Nat) : Option Nat :=
  let x := s.stream i
  (List.range 3).find? (fun b => !(x.held.any (fun h => h.2 == b && decide (s.now ≤ s.eAt h.1))) &&
    !(x.latest.any (fun l => l.buf == b)) && !(x.pics.any (fun q => q.buf == some b)))

/-- Pixels of a picture go straight into its buffer, at the places its SRDs name (R158). They are written as the layer store
holds pixels, decoded from the samples that have arrived (DESIGN CHOICE: R158 gives no form for a picture under way); the
picture's completion writes every pixel and mean again. -/
def State.writePixels (s : State) (c : Chan) (p : Picture) (keys : List Nat) : State :=
  match p.buf with
  | none => s
  | some b => s.each (keys.filter (fun k => k % 4 == 0 && decide (k / 4 < c.streamW * c.streamH))) (fun k t =>
      let x := k / 4 % c.streamW
      let y := k / 4 / c.streamW
      t.writeBulk (pixelAddr (c.slotBase b) c.streamW s.skim x y) (pixelBytes s.skim (s.decoded c p x y)))

/-- A stream leaves NO_SIGNAL at a complete picture (R161). -/
def State.streamResumed (s : State) (c : Chan) (i : Nat) : State :=
  match (s.stream i).noSignal with
  | none => s
  | some t =>
    ((s.modStream i (fun x => { x with noSignal := none })).raise F.ING_EVT_RESUMED).tally 0x0401
      [c.handle, (s.uptime - t) / 1000000]

/-- The buffer that a picture completes in: its own, a free one, or that of an earlier picture in reception, which cannot
complete any more (R159, R167). -/
def State.bufferFor (s : State) (i : Nat) (p : Picture) : Nat :=
  let others := (s.stream i).pics.filterMap (fun q => if laterTs p.timestamp q.timestamp then q.buf else none)
  ((p.buf.orElse (fun _ => s.freeBuffer i)).orElse (fun _ => others.head?)).getD 0

/-- A picture completes (R160): its buffer becomes the latest complete picture. -/
def State.pictureComplete (s : State) (c : Chan) (i : Nat) (p : Picture) : State :=
  let m := mediaTime s.nowNs p.timestamp
  let buf := s.bufferFor i p
  let late := decide ((m + c.val 0x020A * 1000) * c.rateN + c.rateD * 1000000000 < s.nowNs * c.rateN)
  let s1 := s.writePicture (c.slotBase buf) c.streamW c.streamH s.skim (s.decoded c p)
  let s2 := s1.modStream i (fun x => { x with
    pics := (x.pics.filter (fun q => q.timestamp != p.timestamp)).map (fun q => if q.buf = some buf then { q with buf := none } else q),
    fresh := true,
    marks := x.marks.filter (fun q => !laterTs p.timestamp q.1), judged := x.judged.filter (fun q => laterTs q.1 p.timestamp),
    latest := some { media := m, buf := buf, timestamp := p.timestamp, ssrc := p.ssrc, seqs := p.seqs, width := c.streamW, height := c.streamH } })
  let s3 := (s2.bump R.ING_S_COMPLETE i).put64 R.ING_S_MEDIA_LO m i
  let s4 := if late then s3.bump R.ING_S_LATE i else s3
  (s4.streamResumed c i).put F.ING_S_STAT_STATE 2 i

/-- A picture is judged partial (R160): never used, its buffer returns to the writer. -/
def State.picturePartial (s : State) (c : Chan) (i : Nat) (p : Picture) : State :=
  let first := (s.stream i).firstSeq c p
  let upto := match p.marker, p.laterAt with
    | some m, _ => (m + 2 ^ 32 - first) % 2 ^ 32 + 1
    | none, some l => (l.2 + 2 ^ 32 - first) % 2 ^ 32
    | none, none => p.seqs.length
  let began := p.seqs.head?.getD (0, s.uptime)
  let s1 := s.modStream i (fun x => { x with
    pics := x.pics.filter (fun q => q.timestamp != p.timestamp), judged := x.judged ++ [(p.timestamp, began.2, began.1)] })
  ((s1.bump R.ING_S_PARTIAL i).raise F.ING_EVT_PARTIAL).tallyLimited (0x04020000 + i) oneSecond 0x0402
    (fun _ => [c.handle, p.timestamp, upto - p.seqs.length])

/-- The SSRC that packets of a timestamp carry: the one of the picture's first packet (R159). -/
def Stream.ssrcOf (x : Stream) (ts : Nat) : Option Nat :=
  match x.pics.find? (fun q => q.timestamp == ts), x.latest with
  | some q, _ => some q.ssrc
  | none, some l => if l.timestamp = ts then some l.ssrc else none
  | none, none => none

/-- The first rule of R159 that a packet breaks, numbered from 0 in the order of the list. -/
def State.formatBreak (s : State) (c : Chan) (i : Nat) (p : RtpPacket) : Option Nat :=
  let x := s.stream i
  let g := pixelGroup c.streamFmt
  let older := match x.latest with | some l => laterTs l.timestamp p.timestamp | none => false
  let ssrcBad := (x.ssrcOf p.timestamp).any (fun k => k != p.ssrc)
  let rules := [p.version != 2, ssrcBad, p.srds.any Srd.field, p.srds.any (fun r => decide (c.streamH ≤ r.row)),
    p.srds.any (fun r => decide (c.streamW < r.offset + r.data.length / g.1 * g.2)),
    p.srds.any (fun r => r.data.length % g.1 != 0), older]
  rules.findIdx? id

/-- Discard a malformed packet (R159). -/
def State.formatDiscard (s : State) (c : Chan) (i rule : Nat) : State :=
  let recent := ((s.stream i).formatAt.filter (fun t => decide (s.uptime < t + oneSecond))) ++ [s.uptime]
  let s1 := (s.bump R.ING_S_FORMAT i).modStream i (fun x => { x with formatAt := recent })
  if 100 ≤ recent.length then
    (s1.raise F.ING_EVT_FORMAT_ERR).tallyLimited (0x04030000 + i) oneSecond 0x0403 (fun _ => [c.handle, rule])
  else s1

/-- A valid packet on a path (R157, R161, R171). -/
def State.pathHeard (s : State) (i : Nat) (b : Bool) (bytes : Nat) : State :=
  let s1 := s.modStream i (fun x => if b then { x with lastB := s.uptime } else { x with lastA := s.uptime })
  let s2 := (s1.putFlag (if b then F.ING_S_STAT_PATH_B_OK else F.ING_S_STAT_PATH_A_OK) true i).rollRx
  { s2 with ing := { s2.ing with rxBytes := s2.ing.rxBytes + bytes } }

/-- A picture in reception, before its first packet is taken. -/
def newPicture (p : RtpPacket) (buf : Option Nat) (laterAt : Option (Nat × Nat)) : Picture :=
  { timestamp := p.timestamp, ssrc := p.ssrc, buf := buf, seqs := [], marker := none, samples := [], laterAt := laterAt }

/-- The first packet of a later picture: earlier pictures are judged or given 10 ms, skipped pictures are counted (R160). -/
def State.openPicture (s : State) (c : Chan) (i : Nat) (p : RtpPacket) : State :=
  let x := s.stream i
  let n := c.rateN
  let d := c.rateD
  let s1 := match x.lastTs with
    | some t =>
      let gap := (p.timestamp + 2 ^ 32 - t) % 2 ^ 32
      if 3 * 90000 * d < 2 * gap * n then s.add R.ING_S_LOST (rnd (gap * n) (max 1 (d * 90000)) - 1) i else s
    | none => s
  let note (q : Picture) : Picture := { q with laterAt := q.laterAt.orElse (fun _ => some (s.uptime, p.seq)) }
  let marked := s1.modStream i (fun y => { y with pics := y.pics.map note })
  let s2 := if c.hasPath true then marked
    else marked.each (marked.stream i).pics (fun q u => u.picturePartial c i q)
  s2.modStream i (fun y => { y with
    ssrc := some p.ssrc, lastTs := some p.timestamp, marks := if x.ssrc = some p.ssrc then y.marks else [],
    pics := y.pics ++ [newPicture p (s2.freeBuffer i) none] })

/-- The first packet of a later timestamp than a given one, among the pictures in reception and those judged: its uptime and
sequence number. -/
def Stream.laterFirst (x : Stream) (ts : Nat) : Option (Nat × Nat) :=
  let firsts := x.judged ++ x.pics.filterMap (fun q => q.seqs.head?.map (fun z => (q.timestamp, z.2, z.1)))
  ((firsts.filter (fun q => laterTs q.1 ts)).map (fun q => q.2)).foldl (fun b z => match b with
    | some y => if z.1 < y.1 then some z else some y
    | none => some z) none

/-- The first packet of a picture that the other path lost whole, while a second path still gives it 10 ms (R157, R160). -/
def State.openOlder (s : State) (c : Chan) (i : Nat) (p : RtpPacket) : State :=
  let x := s.stream i
  match x.laterFirst p.timestamp with
  | some l =>
    if c.hasPath true = true ∧ s.uptime ≤ l.1 + tenMs ∧ x.judged.all (fun q => q.1 != p.timestamp) = true then
      s.modStream i (fun y => { y with pics := y.pics ++ [newPicture p (s.freeBuffer i) (some l)] })
    else s
  | none => s

/-- The samples of one SRD, by key (row × W + column) × 4 + component. -/
def srdSamples (fmt w : Nat) (r : Srd) : List (Nat × Nat) :=
  let g := pixelGroup fmt
  (List.range (r.data.length / g.1)).flatMap (fun k =>
    (groupSamples fmt ((r.data.drop (k * g.1)).take g.1)).map (fun q =>
      ((r.row * w + r.offset + k * g.2 + q.1) * 4 + q.2.1, q.2.2 + 1)))

/-- Add a packet to the picture of its timestamp. -/
def Picture.take (p : Picture) (fmt w now : Nat) (k : RtpPacket) : Picture :=
  { p with
    seqs := p.seqs ++ [(k.seq, now)],
    marker := if k.marker then some k.seq else p.marker,
    samples := (k.srds.flatMap (srdSamples fmt w)).foldl (fun m q => sparseSet (fun _ => 0) m q.1 q.2) p.samples }

/-- A packet joins the picture of its timestamp, if one is in reception (R158, R160): its pixels go into the buffer (all the
picture's pixels once a buffer is free for it), and a picture that is complete, with UNPACK in service, is the latest one. -/
def State.addPacket (s : State) (c : Chan) (i : Nat) (p : RtpPacket) : State :=
  match (s.stream i).pics.find? (fun q => q.timestamp == p.timestamp) with
  | none => s
  | some old =>
    let q : Picture := { old.take c.streamFmt c.streamW s.uptime p with buf := old.buf.orElse (fun _ => s.freeBuffer i) }
    let s1 := s.modStream i (fun y => { y with
      pics := y.pics.map (fun z => if z.timestamp == p.timestamp then q else z),
      marks := if p.marker then y.marks ++ [(p.timestamp, p.seq)] else y.marks })
    let keys := if old.buf.isSome then (p.srds.flatMap (srdSamples c.streamFmt c.streamW)).map Prod.fst else q.samples.map Prod.fst
    let s2 := if s.kindServed 1 then s1.writePixels c q keys else s1
    if s.kindServed 1 && (s2.stream i).complete c q then s2.pictureComplete c i q else s2

/-- A packet in the sizes that ingest accepts (R150): up to three SRDs and a payload of up to 8,960 bytes, of which the
extended sequence number takes 2 and each SRD header 6 (PRESUMED, ST 2110-20). -/
def packetAccepted (p : RtpPacket) : Bool :=
  decide (p.srds.length ≤ 3) && decide (2 + 6 * p.srds.length + (p.srds.map (fun r => r.data.length)).sum ≤ 8960)

/-- The uptime at which the first copy of a packet arrived. -/
def Stream.twinAt (x : Stream) (seq : Nat) : Option Nat :=
  ((x.pics.flatMap Picture.seqs ++ (x.latest.map LatestPic.seqs).getD []).find? (fun q => q.1 == seq)).map Prod.snd

/-- PACKET_RECEIVE (R157 to R160). Ingest runs in Hold and Show (R44): before that nothing takes the packet. A packet beyond
the sizes of R150 is not received, and no counter names it (DESIGN CHOICE). -/
def doPacketReceive (i : Nat) (b : Bool) (p : RtpPacket) (s : State) : State :=
  match s.netStream i with
  | none => s.bump R.ING_FILTERED
  | some c =>
    if c.hasPath b = false then s.bump R.ING_FILTERED
    else if s.power < 2 ∨ packetAccepted p = false then s
    else
      let x := s.stream i
      match s.formatBreak c i p with
      | some rule => s.formatDiscard c i rule
      | none =>
        let heard := s.pathHeard i b ((p.srds.map (fun r => r.data.length)).sum)
        match x.twinAt p.seq with
        | some t => if s.uptime ≤ t + tenMs then heard else s
        | none =>
          if x.pics.any (fun q => q.timestamp == p.timestamp) then heard.addPacket c i p
          else if x.lastTs.all (fun t => laterTs p.timestamp t) then (heard.openPicture c i p).addPacket c i p
          else (heard.openOlder c i p).addPacket c i p

/-- The picture in reception whose 10 ms end first (R160). -/
def Stream.nextPartial (x : Stream) : Option (Picture × Nat) :=
  (x.pics.filterMap (fun q => q.laterAt.map (fun l => (q, l.1)))).foldl (fun b z => match b with
    | some y => if z.2 < y.2 then some z else some y
    | none => some z) none

/-- PICTURE_PARTIAL_TIMEOUT (R160). -/
def doPicturePartialTimeout (i : Nat) (s : State) : State :=
  match s.netStream i with
  | none => s
  | some c =>
    match (s.stream i).nextPartial with
    | some q => (s.atUptime (q.2 + tenMs)).picturePartial c i q.1
    | none => s

/-- STREAM_NO_SIGNAL (R161). The one path of a stream without PATH_B is then not receiving (R171). -/
def doStreamNoSignal (i : Nat) (s : State) : State :=
  match s.netStream i with
  | none => s
  | some c =>
    let x := s.stream i
    if x.noSignal.isSome then s
    else
      let s1 := s.atUptime (max x.lastA x.lastB + c.val 0x020B * 1000)
      let s2 := (s1.modStream i (fun y => { y with noSignal := some s1.uptime })).put F.ING_S_STAT_STATE 3 i
      let s3 := if c.hasPath true then s2 else s2.putFlag F.ING_S_STAT_PATH_A_OK false i
      (s3.raise F.ING_EVT_NO_SIGNAL).tally 0x0400 [c.handle, s3.get64 R.ING_S_MEDIA_LO i]

/-- PATH_LOST (R157). -/
def doPathLost (i : Nat) (b : Bool) (s : State) : State :=
  match s.netStream i with
  | none => s
  | some c =>
    if c.hasPath true then
      let x := s.stream i
      let s1 := s.atUptime ((if b then x.lastB else x.lastA) + c.val 0x020B * 1000)
      let s2 := s1.putFlag (if b then F.ING_S_STAT_PATH_B_OK else F.ING_S_STAT_PATH_A_OK) false i
      (s2.raise F.ING_EVT_PATH_LOST).tally 0x0407 [c.handle, if b then 1 else 0]
    else s

/-! ## Groups (R155, R156) -/

/-- The groups joined on a port: the group and the source of each path of a running network stream there, the stream of a
handle left out. -/
def State.joined (s : State) (port but : Nat) : List (Nat × Nat) :=
  ((s.running kStream).flatMap (fun c => if c.stored ∨ c.handle = but then [] else
    [false, true].filterMap (fun b =>
      if c.hasPath b ∧ c.pathPort b = port then some (c.path b % 2 ^ 32, c.path b / 2 ^ 32 % 2 ^ 32) else none))).eraseDups

/-- The time for which an IGMPv2 querier heard keeps the port at IGMPv2: 260 s, RFC 3376's Older Version Querier
Present Timeout at its default values (PRESUMED). -/
def v2Timeout : Nat := 260 * oneSecond

/-- The IGMP version a port reports in. -/
def State.igmpVersion (s : State) (port : Nat) : Nat :=
  if s.ing.v2Heard.any (fun q => q.1 == port && decide (s.uptime < q.2 + v2Timeout)) then 2 else 3

/-- Send one report on every link of a port. An IGMPv2 report names a group alone. -/
def State.sendReport (s : State) (port : Nat) (leave : Bool) (group source : Nat) : State :=
  let v := s.igmpVersion port
  s.each (s.portLinks port) (fun l t => t.sendIgmp l v leave group (if v = 2 then 0 else source))

/-- The reports of a change of a port's groups: sent twice, RFC 3376's default Robustness (PRESUMED; the time between the two
is left out), but one IGMPv2 leave message, as RFC 2236 has it (PRESUMED). -/
def State.changeReport (s : State) (port : Nat) (leave : Bool) (group source : Nat) : State :=
  let once := s.sendReport port leave group source
  if s.igmpVersion port = 2 ∧ leave = true then once else once.sendReport port leave group source

/-- A group and a source are wanted on a port by one of a list of joins: for the source itself or for any source. -/
def wanted (joins : List (Nat × Nat)) (group source : Nat) : Bool := joins.contains (group, source) || joins.contains (group, 0)

/-- IGMP_QUERY (R155): answered with reports for the joined groups. `group` 0 is a general query; its bits [31:0] name the
group and its bits [63:32] the source of a group-and-source query, one source to a command. -/
def doIgmpQuery (port version group : Nat) (s : State) : State :=
  let s1 := if version = 2 then
      { s with ing := { s.ing with v2Heard := (port, s.uptime) :: s.ing.v2Heard.filter (fun q => q.1 != port) } }
    else s
  let g := group % 2 ^ 32
  let src := group / 2 ^ 32
  let joins := s1.joined port 0
  if g ≠ 0 ∧ src ≠ 0 then (if wanted joins g src then s1.sendReport port false g src else s1)
  else s1.each joins (fun j t => if g = 0 ∨ g = j.1 then t.sendReport port false j.1 j.2 else t)

/-- Join the groups of a stream that starts (R154 to R156): in the Strainer of every lane of the path's port, with a report
where no other path there wants them. -/
def State.joinStream (s : State) (c : Chan) : State :=
  s.each ([false, true].filter (fun b => c.hasPath b)) (fun b t =>
    let port := c.pathPort b
    let group := c.path b % 2 ^ 32
    let source := c.path b / 2 ^ 32 % 2 ^ 32
    let u := t.each (t.portLinks port) (fun l u =>
      let q := u.joinMac l c.index (groupMac group)
      if q.2 then ((q.1.putFlag F.ING_S_STAT_HASH true c.index).raise F.ING_EVT_HASH_JOIN).tally 0x0404 [c.handle, port, group] else q.1)
    let others := t.joined port c.handle
    let known := if t.igmpVersion port = 2 then others.any (fun j => j.1 == group) else wanted others group source
    if known then u else u.changeReport port false group source)

/-- Leave the groups of a stream that stops (R154 to R156), with a report where no other path of the port wants them. The
sources that others still want of a group that was joined for any source are reported again (RFC 3376, PRESUMED). -/
def State.leaveStream (s : State) (c : Chan) : State :=
  (s.putFlag F.ING_S_STAT_HASH false c.index).each ([false, true].filter (fun b => c.hasPath b)) (fun b t =>
    let port := c.pathPort b
    let group := c.path b % 2 ^ 32
    let source := c.path b / 2 ^ 32 % 2 ^ 32
    let u := t.each (t.portLinks port) (fun l u => u.leaveMac l c.index (groupMac group))
    let others := t.joined port c.handle
    let same := others.filter (fun j => j.1 == group)
    let known := if t.igmpVersion port = 2 then !same.isEmpty else wanted others group source
    if known then u
    else (u.changeReport port true group source).each (if source = 0 then same else []) (fun j v => v.changeReport port false j.1 j.2))

/-! ## Stored pictures (R169, R170) -/

/-- The bytes of one row of a width in an ING_JOB_FMT (R170). -/
def rowBytes (fmt w : Nat) : Nat :=
  if bits fmt 1 0 = 3 then 8 * w else let g := pixelGroup fmt; ceilDiv w g.2 * g.1

/-- A slot lies in the PLAY range of a value. -/
def inPlay (play slot : Nat) : Bool :=
  let first := play % 2 ^ 32
  let count := play / 2 ^ 32 % 2 ^ 32
  decide (first ≤ slot) && decide (slot < first + count)

/-- The result of the latest job, and its events (R170, R171). -/
def State.jobResult (s : State) (handle slot status check : Nat) : State :=
  ((((s.put F.ING_JOB_STAT_RESULT status).put F.ING_JOB_STAT_CHECK check).advance F.ING_JOB_STAT_SEQ).raise
    F.ING_EVT_JOB_DONE).tally 0x0405 [handle, slot, status, check]

/-- The checks of R170, in order. -/
def State.jobChecks (s : State) : List (Nat × Bool × Nat) :=
  let dst := s.get R.ING_JOB_DST
  let slot := s.get R.ING_JOB_SLOT
  let fmt := s.get F.ING_JOB_FMT_FMT
  let src := s.get64 R.ING_JOB_SRC_LO
  let pitch := s.get R.ING_JOB_PITCH
  let hs := s.handleStatus [kStream] dst
  let c := (s.chanOf dst).getD ⟨kStream, 0, 0, .stopped, [], [], 0, none, false, 0⟩
  let rows := c.streamH * pitch
  let running := decide (c.st = .running)
  [(1, decide (16 ≤ s.ing.jobs.length), stBusy), (2, decide (hs ≠ stOK), hs), (2, !c.stored, stInconsistent),
   (3, bits fmt 3 2 == 3 || bits fmt 5 4 == 3 || bits fmt 7 6 == 3, stUnsupported),
   (4, src % 64 != 0 || pitch % 64 != 0 || decide (pitch < rowBytes fmt c.streamW) || !inUsable src rows ||
     s.cmd.chans.any (fun d => d.kind == kStream && spansMeet src rows d.storeBase d.storeLen), stInconsistent),
   (5, decide (c.slots ≤ slot), stInconsistent),
   (6, running && (inPlay (c.val 0x020C) slot || (s.pendingValues dst 0x020C).any (fun v => inPlay v slot)), stBusy)]

/-- JOB_SUBMIT (R170): a write of ING_JOB_CTL; with GO the job is checked and queued or refused. -/
def doJobSubmit (value : Nat) (s : State) : State :=
  if bitAt value 0 = false then s
  else
    let dst := s.get R.ING_JOB_DST
    let slot := s.get R.ING_JOB_SLOT
    let f := firstFail s.jobChecks
    if f.2 = stOK then
      let job : Job := { handle := dst, slot := slot, src := s.get64 R.ING_JOB_SRC_LO, pitch := s.get R.ING_JOB_PITCH,
                         fmt := s.get F.ING_JOB_FMT_FMT }
      let s1 := s.modStream (handleIndex dst) (fun x => { x with ready := x.ready.filter (fun k => k != slot) })
      let s2 := { s1 with ing := { s1.ing with jobs := s1.ing.jobs ++ [job] } }
      (s2.put F.ING_STAT_JOBS s2.ing.jobs.length).gateEngines
    else s.jobResult dst slot f.2 f.1

/-- A pixel of a job's raster, decoded (R170). -/
def State.jobPixel (s : State) (c : Chan) (j : Job) (x y : Nat) : Px :=
  let row := j.src + y * j.pitch
  if bits j.fmt 1 0 = 3 then pixelOf false (s.bulkLe (row + 8 * x) 8)
  else
    let g := pixelGroup j.fmt
    let sample (x k : Nat) : Nat :=
      let bs := s.bulkBytes (row + x / g.2 * g.1) g.1
      let cosited := if bits j.fmt 1 0 = 0 ∧ k ≠ 0 then 0 else x % g.2
      (((groupSamples j.fmt bs).find? (fun q => q.1 == cosited && q.2.1 == k)).map (fun q => q.2.2)).getD 0
    decodePixel j.fmt (c.val 0x0208) (c.val 0x0209) c.streamW sample x

/-- JOB_DONE (R170): the first queued job finishes; a job whose stream has been destroyed has its output discarded
(R127). Jobs run in Warm, Hold and Show, on an engine in service that carries UNPACK. -/
def doJobDone (s : State) : State :=
  match s.ing.jobs with
  | [] => s
  | j :: rest =>
    if s.power = 0 ∨ s.kindServed 1 = false then s
    else
      let s1 := ({ s with ing := { s.ing with jobs := rest } }.put F.ING_STAT_JOBS rest.length).gateEngines
      match s1.chanOf j.handle with
      | some c =>
        let s2 := s1.writePicture (c.slotBase j.slot) c.streamW c.streamH false (s1.jobPixel c j)
        (s2.modStream c.index (fun x => { x with ready := x.ready.filter (fun k => k != j.slot) ++ [j.slot] })).jobResult
          j.handle j.slot stOK 0
      | none => ((s1.bump R.CH_DISCARD_CNT).raise F.CH_EVT_DISCARD).jobResult j.handle j.slot stOK 0

def execPacketReceive (stream : Fin 32) (pathB : Bool) (packet : RtpPacket) (s : State) :
    Host.Outcome State Fault Refusal := .next (doPacketReceive stream.val pathB packet s)
def execStreamNoSignal (stream : Fin 32) (s : State) : Host.Outcome State Fault Refusal :=
  .next (doStreamNoSignal stream.val s)
def execPathLost (stream : Fin 32) (pathB : Bool) (s : State) : Host.Outcome State Fault Refusal :=
  .next (doPathLost stream.val pathB s)
def execIgmpQuery (port : Fin 18) (version group : Nat) (s : State) : Host.Outcome State Fault Refusal :=
  .next (doIgmpQuery port.val version group s)
def execJobSubmit (value : Word) (s : State) : Host.Outcome State Fault Refusal :=
  .next (s.mirrored (bitAt value.toNat 0 && decide ((firstFail s.jobChecks).2 = stOK)) (.job value.toNat) (doJobSubmit value.toNat))
def execJobDone (s : State) : Host.Outcome State Fault Refusal := .next (doJobDone s)
def execPicturePartialTimeout (stream : Fin 32) (s : State) : Host.Outcome State Fault Refusal :=
  .next (doPicturePartialTimeout stream.val s)

end Sys2Proof.Machine
end

