-- ==== Sys2Proof/Machine/Channels.lean ====
section
/-! DEFINITION. Channel commands (R124 to R149): the checks of R131, what each opcode does, the deferred commands acting
at S(k), and the end of a drain. -/
namespace Sys2Proof.Machine
open Sys2Proof

/-! ## What an opcode uses (R129, R130) -/

def opCreate : Nat := 1
def opDestroy : Nat := 2
def opStart : Nat := 3
def opStop : Nat := 4
def opSetParam : Nat := 5
def opGetParam : Nat := 6
def opClearSet : Nat := 7
def opCopySet : Nat := 8
def opCommit : Nat := 9
def opCancel : Nat := 0xA
def opCueStore : Nat := 0xB
def opCueLoad : Nat := 0xC
def opCueFire : Nat := 0xD
def opWait : Nat := 0xE
def opQuery : Nat := 0xF

end Sys2Proof.Machine

namespace Sys2Proof
open Sys2Proof.Machine

/-- An opcode of a list. -/
def Desc.is (d : Desc) (l : List Nat) : Bool := l.contains d.opcode

/-- The opcode acts through a set. -/
def Desc.inSet (d : Desc) : Bool := d.set != 0xFF

/-- The command is deferred (R130). -/
def Desc.deferred (d : Desc) : Bool :=
  d.is [opDestroy, opCommit, opCueFire] || (d.is [opStart, opStop] && !d.inSet) || (d.is [opWait] && d.frame != 0)

/-- Check 1 of R131 fails: an unknown opcode, or a field or flag not at its reserved value. -/
def Desc.malformed (d : Desc) : Bool :=
  let handle := d.is [1, 2, 3, 4, 5, 6, 0xB, 0xC, 0xD, 0xF]
  let set := d.is [3, 4, 5, 6, 7, 8, 9, 0xA, 0xB, 0xC]
  let frame := d.is [2, 9, 0xD, 0xE] || (d.is [3, 4] && !d.inSet)
  d.opcode == 0 || decide (0xF < d.opcode) || d.reserved != 0 || decide (16 ≤ d.flags) ||
  (!handle && d.handle != 0) || (!set && d.set != 0xFF) || (!frame && d.frame != 0) ||
  (!d.is [5, 6] && d.param != 0) || (!d.is [5] && d.len != 0) || (!d.is [5] && d.value != 0) ||
  (if d.is [opCopySet] then decide (256 ≤ d.aux) else d.aux != 0) ||
  (d.is [opSetParam] && decide (d.len ≤ 16) && decide (256 ^ d.len ≤ d.value)) ||
  (d.is [opCreate] && d.handle % 2 ^ 26 != 0) ||
  (bitAt d.flags 2 && !d.is [opDestroy]) || (bitAt d.flags 3 && !d.is [opCommit])

/-- The opcodes that a Standby refuses (R131, check 2), which are the ones an Active mirrors (R472). -/
def Desc.restricted (d : Desc) : Bool :=
  d.is [opCreate, opDestroy, opStart, opStop, opCommit, opCancel, opCueFire] || (d.is [opSetParam] && !d.inSet)

/-- A descriptor arriving in the row of an opcode: another known opcode has a row of its own, so only an unknown one may
stand in its place. -/
def Desc.inRow (d : Desc) (opcode : Nat) : Desc :=
  if 1 ≤ d.opcode ∧ d.opcode ≤ 0xF then { d with opcode := opcode } else d

end Sys2Proof

namespace Sys2Proof.Machine
open Sys2Proof

/-! ## Handles and cues -/

/-- The channel's DESTROY is pending for a frame at or before k (R131, check 3). -/
def State.destroyedBy (s : State) (h k : Nat) : Bool :=
  match s.chanAt (handleKind h) (handleIndex h) with
  | some c => (match c.destroyFrame with | some f => decide (f ≤ k) | none => false)
  | none => false

/-- The status of a handle for a change at frame k. -/
def State.handleAt (s : State) (kinds : List Nat) (h k : Nat) : Nat :=
  let st := s.handleStatus kinds h
  if st ≠ stOK then st else if s.destroyedBy h k then stStale else stOK

/-- The first entry whose handle fails for frame k: its position and status. -/
def State.badEntry (s : State) (es : List SetEntry) (k : Nat) : Option (Nat × Nat) :=
  (es.zipIdx.find? (fun q => q.1.handle != 0 && s.handleAt createKinds q.1.handle k != stOK)).map
    (fun q => (q.2, s.handleAt createKinds q.1.handle k))

/-- The entries of a cue. -/
def State.cueEntries (s : State) (i : Nat) : List SetEntry := ((s.cmd.cues.find? (fun q => q.1 == i)).map Prod.snd).getD []

/-- Replace the entries of a cue. -/
def State.setCue (s : State) (i : Nat) (es : List SetEntry) : State :=
  { s with cmd := { s.cmd with cues := s.cmd.cues.filter (fun q => q.1 != i) ++ (if es.isEmpty then [] else [(i, es)]) } }

/-- An uncorrectable half lies in the entries of a cue (R451): the pool holds the cues one after another by INDEX, 24 bytes
an entry. -/
def State.cueBad (s : State) (i : Nat) : Bool :=
  let before := ((s.cmd.cues.filter (fun q => decide (q.1 < i))).map (fun q => q.2.length)).sum
  let n := (s.cueEntries i).length
  s.mem.bad.any (fun h => spansMeet (cuePool + 24 * before) (24 * n) (32 * h) 32)

/-- The pending COMMIT of a set. -/
def State.pendingCommit (s : State) (n : Nat) : Option Deferred :=
  s.cmd.deferred.find? (fun d => match d.act with | .commit m _ => m == n | _ => false)

/-- A run-state change of a channel is pending. -/
def State.runPending (s : State) (h : Nat) : Bool :=
  s.cmd.deferred.any (fun d => (s.deferredEntries d).any (fun e => match e with | .run g _ => g == h | _ => false))

/-- The channel is referred to at frame k by a parameter of another live channel. -/
def State.referredAt (s : State) (h k : Nat) : Bool :=
  (s.projected k).cmd.chans.any (fun c => decide (c.st ≠ .draining) && c.handle != h && !s.destroyedBy c.handle k &&
    c.refs.any (fun r => r.2 == h))

/-- A pending COMMIT or CUE_FIRE for frame k or later holds an entry for the channel (R128). -/
def State.entryFor (s : State) (h k : Nat) : Bool :=
  s.cmd.deferred.any (fun d => decide (k ≤ d.frame) && (match d.act with | .commit _ _ => true | .fire _ _ => true | _ => false) &&
    (s.deferredEntries d).any (fun e => e.handle == h))

/-! ## CREATE (R125, R126) -/

/-- The index that CREATE takes: never used ones lowest first, then the longest free; none where no index is FREE. -/
def State.freeIndex (s : State) (kind : Nat) : Option Nat :=
  let new := (s.str.capNew.map (fun c => effectiveCap c (s.get F.SYS_MODE_STAT_RATE) s.skim kind)).getD (s.capOf kind)
  let cap := min (s.capOf kind) new
  let used := ((s.cmd.used.find? (fun q => q.1 == kind)).map Prod.snd).getD 0
  if used < cap then some used else (s.cmd.freed.find? (fun q => q.1 == kind && decide (q.2 < cap))).map Prod.snd

/-- The GEN that the next handle of an index takes. -/
def State.nextGen (s : State) (kind i : Nat) : Nat :=
  ((s.cmd.gens.find? (fun q => q.1 == kind * 2 ^ 18 + i)).map Prod.snd).getD 1

/-- Put a register back at its reset value. -/
def State.toReset (s : State) (f : Field) (i : Nat) : State := s.setReg (f.addr i) (regReset (f.addr i))

/-- What counts or starts at CREATE goes back to its start. -/
def State.freshChannel (s : State) (kind i : Nat) : State :=
  match kind with
  | 1 => ({ s with layerKeep := s.layerKeep.filter (fun q => q.1 != i) } : State).each
      [R.L_STAT, R.L_DROP_CNT, R.L_NOT_READY_CNT, R.L_ABSENT_CNT] (fun f t => t.toReset f i)
  | 2 => (s.modStream i (fun _ => Stream.reset)).each
      [R.ING_S_STAT, R.ING_S_COMPLETE, R.ING_S_PARTIAL, R.ING_S_LOST, R.ING_S_LATE, R.ING_S_FORMAT, R.ING_S_MEDIA_LO,
       R.ING_S_MEDIA_HI] (fun f t => t.toReset f i)
  | 5 =>
    let s1 := s.each [R.EP_CLIP_CNT, R.EPC_GAIN_RG, R.EPC_GAIN_B, R.EPG_TEMP, R.EPG_FIT, R.E_STAT, R.E_ERR] (fun f t => t.toReset f i)
    let air := s1.get F.GOV_AMBIENT_AMBIENT
    let s2 := ((s1.setGovEp (GovEp.fresh i s1.ambient s1.uptime)).put F.EPG_TEMP_TJ air i).put F.EPG_TEMP_TB air i
    { s2 with
      cal := { s2.cal with members := s2.cal.members.filter (fun m => !(m.kind == kEndpoint && m.index == i)) },
      dvl := { s2.dvl with mismatch := s2.dvl.mismatch.filter (· != i) },
      sep := { s2.sep with identity := s2.sep.identity.filter (· != i) } }
  | 6 =>
    let s1 := s.each [R.Z_STAT, R.Z_ACCEPT_CNT, R.Z_REJECT_CNT, R.Z_MISSING_CNT, R.Z_QUALITY, R.Z_MEDIAN_R, R.Z_MEDIAN_G, R.Z_MEDIAN_B,
      R.Z_LAST_FRAME_LO, R.Z_LAST_FRAME_HI, R.Z_LAST_S_LO, R.Z_LAST_S_HI, R.Z_LAST_NS] (fun f t => t.toReset f i)
    { s1 with cal := { s1.cal with zones := s1.cal.zones.filter (fun z => z.index != i) } }
  | 7 =>
    let s1 := s.each [R.F_STAT, R.F_CURRENT, R.F_LIMIT_CNT, R.F_MISS_CNT, R.F_OVERLOAD_CNT, R.F_BETA] (fun f t => t.toReset f i)
    s1.setGovFeed { index := i, beta := 1, limited := 0, deepest := 0 }
  | 9 => s.toReset R.U_STAT i
  | 0xA =>
    let s1 := s.each [R.G_STAT, R.G_GAIN_RG, R.G_GAIN_B] (fun f t => t.toReset f i)
    { s1 with cal := { s1.cal with members := s1.cal.members.filter (fun m => !(m.kind == kDdgroup && m.index == i)) } }
  | 0xD => s.setCue i []
  | _ => s

/-- A new channel in STOPPED with every parameter at its default. -/
def State.newChannel (s : State) (kind i : Nat) : Nat × State :=
  let c : Chan := { kind := kind, index := i, gen := s.nextGen kind i, st := .stopped, params := [], nulls := [],
                    createdAt := s.cmd.latches, destroyFrame := none, force := false, discarded := 0 }
  let used := ((s.cmd.used.find? (fun q => q.1 == kind)).map Prod.snd).getD 0
  let cmd : Cmd := { s.cmd with
    chans := s.cmd.chans ++ [c],
    freed := s.cmd.freed.filter (fun q => !(q.1 == kind && q.2 == i)),
    used := s.cmd.used.filter (fun q => q.1 != kind) ++ [(kind, max used (i + 1))] }
  (c.handle, ({ s with cmd := cmd } : State).freshChannel kind i)

/-! ## The checks of R131 -/

/-- The entries that a command would apply at its frame. -/
def State.commandEntries (s : State) (d : Desc) : List SetEntry :=
  if d.is [opCommit] then (s.setAt d.set).entries
  else if d.is [opCueFire] then s.cueEntries (handleIndex d.handle)
  else if d.is [opStart] then [.run d.handle true]
  else if d.is [opStop] then [.run d.handle false]
  else []

/-- The position of the failing entry (R132) on a state where a check fails for the channel h: the first of its entries, or with
none of all entries, without which the checks pass, else its first. Check 12 is about a sum, and no entry alone fails it. -/
def State.failingEntry (s : State) (es : List SetEntry) (k check h : Nat) : Nat :=
  let own := (List.range es.length).filter (fun i => h != 0 && (es[i]?).any (fun e => e.handle == h))
  let passes (i : Nat) : Bool :=
    decide ((((s.copyLists k (es.eraseIdx i)).applyEntries (es.eraseIdx i)).consistency s k).2.1 = stOK)
  if check = 12 then 0xFFFFFFFF
  else
    match (if own.isEmpty then List.range es.length else own).find? passes with
    | some i => i
    | none => own.headD 0xFFFFFFFF

/-- Checks 11 and 12 for entries at frame k: the projected state, and every later pending change on top of it (R141). The
result is check, status and the position of the failing entry. -/
def State.projectCheck (s : State) (es : List SetEntry) (k : Nat) : Nat × Nat × Nat :=
  let base := s.projected k
  let proj := (base.copyLists k es).applyEntries es
  let r := proj.consistency base k
  if r.2.1 ≠ stOK then
    (r.1, r.2.1, base.failingEntry es k r.1 r.2.2)
  else
    let later := sortBy (fun a b => decide (a.frame ≤ b.frame)) (s.cmd.deferred.filter (fun d => decide (k < d.frame)))
    let go := later.foldl (fun (acc : State × Bool) d =>
      let es' := s.deferredEntries d
      let next := (acc.1.applyEntries es').underImage d.frame
      (next, acc.2 || (next.consistency acc.1 d.frame).2.1 != stOK)) (proj, false)
    if go.2 then (11, stInconsistent, 0xFFFFFFFF) else (0, stOK, 0)

/-- Check 11 of a parameter written at once: the rules of its own channel. -/
def State.writeCheck (s : State) (d : Desc) (v : Nat) : Nat :=
  let t := s.applyEntry (.param d.handle d.param d.len v)
  match t.chanOf d.handle with
  | some c => t.checkChan s.frameNum c
  | none => stOK

/-- The value that a SET_PARAM writes: shorter ones extended with zeros, longer ones cut. -/
def paramValue (pd : ParamDesc) (d : Desc) : Nat := d.value % 256 ^ pd.len

/-- The first failing check of R131: its number, status and entry position; `mirror` says that the command comes from the
Active (R472). -/
def State.commandFail (s : State) (mirror : Bool) (d : Desc) : Option (Nat × Nat × Nat) :=
  let none' : Nat := 0xFFFFFFFF
  let k := s.namedFrame d
  let cap := s.capOf 0x42
  let kind := handleKind d.handle
  let desc := paramDesc kind d.param
  let sets := d.is [opClearSet, opCopySet, opCommit, opCancel, opCueStore, opCueLoad]
  let es := s.commandEntries d
  let hs :=
    if d.is [opCreate] then (if createKinds.contains kind then stOK else stBadHandle)
    else if d.is [opCueStore, opCueLoad] then s.handleStatus [kCue] d.handle
    else if d.is [opCueFire] then s.handleAt [kCue] d.handle k
    else if d.is [opDestroy] || (d.is [opStart, opStop] && !d.inSet) then s.handleAt createKinds d.handle k
    else if d.is [opStart, opStop, opSetParam, opGetParam, opQuery] then s.handleStatus createKinds d.handle
    else stOK
  let locked (n : Nat) : Bool := (s.setAt n).locked
  let cls := (desc.map ParamDesc.cls).getD .f
  let running := (s.chanOf d.handle).any (fun c => decide (c.st = .running))
  let holds (n : Nat) (e : SetEntry) : Bool := (s.setAt n).entries.any (fun x => x.same e)
  let full (n : Nat) (e : SetEntry) : Bool := decide (4096 ≤ (s.setAt n).entries.length) && !holds n e
  let merged := (s.cueEntries (handleIndex d.handle)).foldl enterEntry (s.setAt d.set).entries
  let pool := (s.cmd.cues.map (fun q => if q.1 == handleIndex d.handle then 0 else q.2.length)).sum
  let fires := (s.cmd.deferred.filter (fun x => match x.act with | .fire _ _ => true | _ => false)).length
  let fail (b : Bool) (r : Unit → Nat × Nat × Nat) (next : Unit → Option (Nat × Nat × Nat)) : Option (Nat × Nat × Nat) :=
    if b then some (r ()) else next ()
  fail d.malformed (fun _ => (1, stUnsupported, none')) fun _ =>
  fail (!mirror && decide (s.role = 2) && d.restricted) (fun _ => (2, stNotPermitted, none')) fun _ =>
  fail (hs != stOK) (fun _ => (3, hs, none')) fun _ =>
  fail (d.is [opCueFire, opCueLoad] && s.cueBad (handleIndex d.handle)) (fun _ => (3, stIntegrity, none')) fun _ =>
  fail (d.is [opCommit, opCueFire] && (s.badEntry es k).isSome)
    (fun _ => let b := (s.badEntry es k).getD (0, 0); (3, b.2, b.1)) fun _ =>
  fail ((sets && decide (cap ≤ d.set)) || (d.is [opStart, opStop, opSetParam, opGetParam] && d.inSet && decide (cap ≤ d.set)) ||
      (d.is [opCopySet] && decide (cap ≤ d.aux)) || (d.is [opSetParam] && (d.len == 0 || decide (16 < d.len))) ||
      (d.is [opSetParam, opGetParam] && desc.isNone)) (fun _ => (4, stInconsistent, none')) fun _ =>
  fail ((d.is [opClearSet, opCueLoad, opCommit] && locked d.set) || (d.is [opCopySet] && locked d.aux) ||
      (d.is [opSetParam, opStart, opStop] && d.inSet && locked d.set)) (fun _ => (5, stBusy, none')) fun _ =>
  fail (d.is [opCancel] && (s.pendingCommit d.set).isNone) (fun _ => (6, stInconsistent, none')) fun _ =>
  fail (d.is [opCancel] && (s.pendingCommit d.set).any (fun x => s.tooLate x.frame)) (fun _ => (6, stTimeout, none')) fun _ =>
  fail (d.deferred && s.tooLate k) (fun _ => (6, stTimeout, none')) fun _ =>
  fail (d.deferred && decide (s.latestB + 65536 < k)) (fun _ => (7, stInconsistent, none')) fun _ =>
  fail (d.is [opSetParam] && ((cls == .f && !d.inSet) || (cls == .s && d.inSet))) (fun _ => (8, stInconsistent, none')) fun _ =>
  fail (d.is [opSetParam] && cls == .s && (running || s.runPending d.handle)) (fun _ => (8, stBusy, none')) fun _ =>
  fail (d.is [opCreate] && (s.freeIndex kind).isNone)
    (fun _ => (9, if s.cmd.chans.any (fun c => c.kind == kind && decide (c.st = .draining)) then stBusy else stNoCapacity, none'))
    fun _ =>
  fail (d.is [opSetParam] && d.inSet && full d.set (.param d.handle d.param 0 0)) (fun _ => (9, stNoCapacity, none')) fun _ =>
  fail (d.is [opStart, opStop] && d.inSet && full d.set (.run d.handle true)) (fun _ => (9, stNoCapacity, none')) fun _ =>
  fail (d.is [opCueLoad] && decide (4096 < merged.length)) (fun _ => (9, stNoCapacity, none')) fun _ =>
  fail (d.is [opCueStore] && decide (1048576 < pool + (s.setAt d.set).entries.length)) (fun _ => (9, stNoCapacity, none')) fun _ =>
  fail (d.is [opCueFire] && decide (16 ≤ fires)) (fun _ => (9, stBusy, none')) fun _ =>
  fail (d.is [opDestroy] && (s.entryFor d.handle k || (!bitAt d.flags 2 && s.referredAt d.handle k) ||
      s.cmd.deferred.any (fun x => match x.act with | .fire c _ => c == d.handle | _ => false))) (fun _ => (10, stBusy, none')) fun _ =>
  fail (d.is [opSetParam] && !d.inSet && (match desc with
      | some pd => s.writeCheck d (paramValue pd d) != stOK
      | none => false))
    (fun _ => (11, s.writeCheck d (((desc.map (fun pd => paramValue pd d)).getD 0)), none')) fun _ =>
  if es.isEmpty || (d.is [opStart, opStop] && d.inSet) then none
  else
    let r := s.projectCheck es k
    if r.2.1 = stOK then none else some (r.1, r.2.1, if d.is [opStart, opStop] then none' else r.2.2)

/-! ## What the opcodes do -/

/-- Add a deferred command. -/
def State.defer (s : State) (id k : Nat) (d : Desc) (act : DeferredAct) : State :=
  { s with cmd := { s.cmd with deferred := s.cmd.deferred ++
      [{ id := id, frame := k, ahead := s.latticeAhead, tag := d.tag, opcode := d.opcode, act := act }] } }

/-- Replace a set's entries. -/
def State.setEntries (s : State) (n : Nat) (es : List SetEntry) : State := s.modSet n (fun x => { x with entries := es })

/-- The kinds whose L-class writes count as changed inputs (R55). -/
def inputKinds : List Nat := [kLayer, kRegion, kEndpoint, kZone, kFixture]

/-- The value that GET_PARAM gives, and its length: as latched at the latest S, or in a set. -/
def State.paramAnswer (s : State) (d : Desc) : Nat × Nat :=
  let len := ((paramDesc (handleKind d.handle) d.param).map ParamDesc.len).getD 0
  if d.inSet then
    match (s.setAt d.set).entries.find? (fun e => e.same (.param d.handle d.param 0 0)) with
    | some (.param _ _ _ v) => (len, v)
    | _ => (0, 0)
  else
    match s.cmd.latched.find? (fun c => c.handle == d.handle && decide (c.st ≠ .draining)) with
    | some c => (len, c.val d.param)
    | none => (len, ((s.chanOf d.handle).map (fun c => c.val d.param)).getD 0)

/-- The effect of a command that has passed its checks; an immediate command completes. -/
def State.carryOut (s : State) (id : Nat) (d : Desc) : State :=
  let k := s.namedFrame d
  let h := d.handle
  let kind := handleKind h
  let i := handleIndex h
  let done (t : State) (result : Nat) : State := t.complete id h (okComp d t.frameNum result)
  match d.opcode with
  | 1 =>
    let r := s.newChannel kind ((s.freeIndex kind).getD 0)
    done r.2 r.1
  | 2 =>
    (s.modChan kind i (fun c => if c.handle = h then { c with destroyFrame := some k, force := bitAt d.flags 2 } else c)).defer id k d
      (.destroy h (bitAt d.flags 2))
  | 3 =>
    if d.inSet then done (s.setEntries d.set (enterEntry (s.setAt d.set).entries (.run h true))) 0
    else s.defer id k d (.run h true)
  | 4 =>
    if d.inSet then done (s.setEntries d.set (enterEntry (s.setAt d.set).entries (.run h false))) 0
    else s.defer id k d (.run h false)
  | 5 =>
    match paramDesc kind d.param with
    | none => s
    | some pd =>
      let e : SetEntry := .param h d.param pd.len (paramValue pd d)
      if d.inSet then done (s.setEntries d.set (enterEntry (s.setAt d.set).entries e)) 0
      else
        let t := s.applyEntry e
        let u := if kind = kZone ∧ d.param = 0x0610 then t.calAccepted i t.frameNum else t
        done (if pd.cls == .l && inputKinds.contains kind then u.noteInput else u) 0
  | 6 =>
    let a := s.paramAnswer d
    s.complete id h { okComp d s.frameNum 0 with
      len := a.1, value := a.2 }
  | 7 => done (s.setEntries d.set []) 0
  | 8 => done (s.setEntries d.aux (s.setAt d.set).entries) 0
  | 9 =>
    let es := (s.setAt d.set).entries
    ((s.copyLists k es).modSet d.set (fun x => { x with locked := true })).defer id k d (.commit d.set (bitAt d.flags 3))
  | 0xA =>
    match s.pendingCommit d.set with
    | some x => done (s.timeoutOne x) 0
    | none => s
  | 0xB => done (s.setCue i (s.setAt d.set).entries) 0
  | 0xC => done (s.setEntries d.set ((s.cueEntries i).foldl enterEntry (s.setAt d.set).entries)) 0
  | 0xD =>
    let es := s.cueEntries i
    (s.copyLists k es).defer id k d (.fire h es)
  | 0xE => if d.frame = 0 then done s 0 else s.defer id k d .wait
  | 0xF =>
    match s.chanOf h with
    | some c => done s ((if c.st = .running then 2 else 1) + 4 * c.gen)
    | none => s
  | _ => s

/-- Enter a mirrored command in RED_MLOG (R481). -/
def State.logCommand (s : State) (id pail mseq : Nat) (d : Desc) : State :=
  let e := s.red.mlog % 1024
  let s1 : State := { s with
    red := { s.red with mlog := s.red.mlog + 1 },
    cmd := { s.cmd with flight := s.cmd.flight.map (fun f => if f.id == id then { f with mlog := some e } else f) } }
  (((((s1.put R.RED_MLOG_TAG d.tag e).put R.RED_MLOG_INFO 0 e).put F.RED_MLOG_INFO_PAIL pail e).put F.RED_MLOG_INFO_OPCODE
    d.opcode e).put R.RED_MLOG_MSEQ mseq e).put R.RED_MLOG_FRAME s.frameNum e

/-- The first failing check of a command; a CANCEL that found its COMMIT pending at the head of its pail (`found`) and finds
none now comes too late (R144). -/
def State.failOf (s : State) (mirror found : Bool) (d : Desc) : Option (Nat × Nat × Nat) :=
  match s.commandFail mirror d with
  | some (6, st, pos) => some (6, if found && d.is [opCancel] then stTimeout else st, pos)
  | r => r

/-- Check and carry out a command, or refuse it. -/
def State.actOn (s : State) (mirror found : Bool) (id : Nat) (d : Desc) : State :=
  match s.failOf mirror found d with
  | some (check, status, pos) =>
    let frame := if d.deferred then s.namedFrame d else s.frameNum
    let h := if check = 3 then (((s.commandEntries d)[pos]?).map SetEntry.handle).getD d.handle else d.handle
    s.complete id h (failComp d frame check status pos)
  | none => s.carryOut id d

/-- The RESULT that an Active mirrors with a command: the handle that CREATE assigns. -/
def State.assigned (s : State) (d : Desc) : Nat :=
  if d.is [opCreate] then
    let kind := handleKind d.handle
    let i := (s.freeIndex kind).getD 0
    mkHandle kind (s.nextGen kind i) i
  else 0

/-- A command is taken into flight towards the completion pail of its route. -/
def State.takeFlight (s : State) (pail cpail : Nat) (d : Desc) : Nat × State :=
  let id := s.cmd.nextId
  let f : InFlight :=
    { id := id, pail := pail, cpail := cpail, signal := bitAt d.flags 0 && !d.unreadable, mlog := none, comp := none,
      atEnd := d.is [opWait] && d.frame == 0 }
  (id, { s with cmd := { s.cmd with nextId := id + 1, flight := s.cmd.flight ++ [f] } })

/-- The channel whose L-class parameter an immediate SET_PARAM writes. -/
def State.lateTarget (s : State) (d : Desc) : Option Chan :=
  if d.is [5] && !d.inSet then
    match paramDesc (handleKind d.handle) d.param with
    | some pd => if pd.cls == .l then s.chanOf d.handle else none
    | none => none
  else none

/-- An L-class parameter of a pair applies from a band of a frame on (R475). -/
def State.keepLateCommand (s : State) (at_ : Nat × Nat) (d : Desc) : State :=
  match s.lateTarget d with
  | some c => s.keepLate at_.1 at_.2 (some c) none
  | none => s

/-- FRAME and BAND of a command's mirror record. -/
def State.mirrorPoint (s : State) (d : Desc) : Nat × Nat := if (s.lateTarget d).isSome then s.lateFrom else (0, 0xFFFF)

/-- Begin a command: an unreadable descriptor completes with INTEGRITY (R451); a change that an Active must mirror waits for
its acknowledgement (R474). -/
def State.begin (s : State) (pail cpail : Nat) (found : Bool) (d : Desc) : State :=
  let q := s.takeFlight pail cpail d
  if d.unreadable then
    q.2.complete q.1 0 { failComp d s.frameNum 0 stIntegrity 0xFFFFFFFF with
      tag := 0xFFFFFFFE, opcode := 0 }
  else if s.mirroring && d.restricted && (s.commandFail false d).isNone then
    let t : State := { q.2 with cmd := { q.2.cmd with awaiting := some (q.1, pail, d) } }
    t.sendMirrorAt (s.mirrorPoint d).1 (s.mirrorPoint d).2 true (.command pail d (s.assigned d))
  else if s.hasStandby && d.restricted && (s.commandFail false d).isNone then
    let t := q.2.sendMirrorAt (s.mirrorPoint d).1 (s.mirrorPoint d).2 false (.command pail d (s.assigned d))
    ((t.logCommand q.1 pail s.red.mseq d).keepLateCommand s.lateFrom d).actOn false found q.1 d
  else q.2.actOn false found q.1 d

/-- A command of the pail may not begin yet: a mirrored command waits for its acknowledgement, FENCE waits for every earlier
command of the pail (R129), or the completion pail is full (R134). -/
def State.mustHold (s : State) (pail cpail : Nat) (d : Desc) : Bool :=
  s.cmd.awaiting.isSome || (bitAt d.flags 1 && s.cmd.flight.any (fun f => f.pail == pail)) ||
  (s.compPail cpail).any (fun q => decide (q.depth ≤ q.items.length))

/-- Pails whose route has become usable may be reported again. -/
def State.refreshRoutes (s : State) : State :=
  { s with cmd := { s.cmd with unrouted := s.cmd.unrouted.filter (fun p => (s.route p).isNone) } }

/-- The command unit takes the item at the head of a command pail: RD passes it. -/
def State.takeItem (s : State) (pail : Nat) : State :=
  match s.pail pail with
  | some q =>
    if q.items.isEmpty then s
    else (((s.rdAdvance q 1).modPail pail (fun x => { x with items := x.items.drop 1 })).syncPail pail).refreshRoutes
  | none => s

/-- A CANCEL finds a COMMIT of its set pending. -/
def State.findsCommit (s : State) (d : Desc) : Bool := d.is [opCancel] && (s.pendingCommit d.set).isSome

/-- Held commands that have come to the head of their pails note what they find there (R144). -/
def State.markHeads (s : State) : State :=
  let l := s.cmd.fenced
  let mark (q : Held × Nat) : Held :=
    if q.1.found.isNone && !((l.take q.2).any (fun x => x.pail == q.1.pail)) then { q.1 with found := some (s.findsCommit q.1.d) } else q.1
  { s with cmd := { s.cmd with fenced := l.zipIdx.map mark } }

/-- Begin the held commands whose turn has come, each pail in its order; each is taken from its pail now. -/
def State.runHeldGo (s0 : State) : Nat → State
  | 0 => s0
  | n + 1 =>
    let s := s0.markHeads
    let ready := s.cmd.fenced.zipIdx.find? (fun q =>
      !((s.cmd.fenced.take q.2).any (fun x => x.pail == q.1.pail)) &&
      (match s.route q.1.pail with | some c => !s.mustHold q.1.pail c q.1.d | none => false))
    match ready with
    | none => s
    | some (x, i) =>
      let t : State := ({ s with cmd := { s.cmd with fenced := s.cmd.fenced.eraseIdx i } } : State).takeItem x.pail
      ((t.begin x.pail ((s.route x.pail).getD 0) (x.found.getD false) x.d).settle).runHeldGo n

/-- Write completions and begin what was held. -/
def State.pump (s : State) : State := let t := s.settle; (t.runHeldGo (t.cmd.fenced.length + 1)).syncCmd

/-- Report a command pail without a usable route, once (R128). -/
def State.noteUnrouted (s : State) (pail : Nat) : State :=
  if s.cmd.unrouted.contains pail then s
  else (({ s with cmd := { s.cmd with unrouted := s.cmd.unrouted ++ [pail] } }).raise F.CH_EVT_UNROUTED).tally 0x0305 [pail]

/-- The command unit comes to a command of a pail. One that may not begin yet stays in its pail, which it stalls (R134), and a
flush can still remove it. -/
def State.command (s0 : State) (pail : Nat) (d0 : Desc) : State :=
  let r := match s0.pail pail with
    | some q => if d0.unreadable then (true, if q.bulk then s0 else s0.detected 0x0F pail 0) else s0.pailRead q
    | none => (false, s0)
  let s := r.2
  let d : Desc := { d0 with unreadable := r.1 }
  match s.pail pail with
  | none => s
  | some q =>
    if q.role ≠ 0 then s
    else
      match s.route pail with
      | none => s.noteUnrouted pail
      | some c =>
        if s.cmd.fenced.any (fun x => x.pail == pail) || s.mustHold pail c d then
          ({ s with cmd := { s.cmd with fenced := s.cmd.fenced ++ [⟨pail, d, none⟩] } } : State).pump
        else ((s.takeItem pail).begin pail c false d).pump

/-- The acknowledged command of an Active is accepted (R474). -/
def State.acceptAwaiting (s : State) (mseq : Nat) : State :=
  match s.cmd.awaiting with
  | none => s
  | some (id, pail, d) =>
    let t : State := { s with cmd := { s.cmd with awaiting := none } }
    (((t.logCommand id pail mseq d).keepLateCommand s.lateFrom d).actOn true true id d).pump

/-- A Standby takes an L-class value from BAND of FRAME; one whose band it has begun applies at once, and the frame's comparison
is void (R475). -/
def State.followLate (s : State) (frame band : Nat) : State :=
  if (s.frameWork frame).any (fun w => decide (band < w.bandsDone)) then
    { s with red := { s.red with voids := frame :: s.red.voids.take 15 } }
  else s

/-- A Standby applies a mirrored command (R472, R481); false where it assigns another identity than the Active did. -/
def State.applyMirroredCommand (s0 : State) (pail mseq frame band : Nat) (d : Desc) (result : Nat) : Bool × State :=
  let s := if (s0.lateTarget d).isSome then (s0.followLate frame band).keepLateCommand (frame, band) d else s0
  if d.is [opCreate] && s.assigned d != result then (false, s)
  else
    let q := s.takeFlight pail (s.get F.CH_ROUTE_COMP_PAIL pail) d
    (true, ((q.2.logCommand q.1 pail mseq d).actOn true false q.1 d).pump)

/-! ## Acting at S(k) (R127, R128, R142, R143) -/

/-- A running stream ends: it leaves its groups, and its pictures in reception are given up. -/
def State.stopStream (s : State) (c : Chan) : State :=
  let t := if c.stored then s else s.leaveStream c
  let u := (t.modStream c.index (fun x => { x with pics := [], judged := [], ssrc := none, lastTs := none, noSignal := none })).put F.ING_S_STAT_STATE 0 c.index
  (u.putFlag F.ING_S_STAT_PATH_A_OK false c.index).putFlag F.ING_S_STAT_PATH_B_OK false c.index

/-- A stream begins to run (R154). -/
def State.startStream (s : State) (c : Chan) : State :=
  let t := s.modStream c.index (fun x => { x with ssrc := none, noSignal := none, lastA := s.uptime, lastB := s.uptime })
  let u := t.put F.ING_S_STAT_STATE (if c.stored then 2 else 1) c.index
  if c.stored then u else u.joinStream c

/-- What a change of run state brings with it. -/
def State.runChanged (s : State) (old new : Chan) (n : Nat) : State :=
  if old.st = new.st then s
  else
    match new.kind, decide (new.st = .running) with
    | 2, true => s.startStream new
    | 2, false => s.stopStream old
    | 9, false => s.terminateUniverse old n 0
    | _, _ => s

/-- Apply entries at S(n): parameters, run states and what they bring with them. -/
def State.takeEffect (s : State) (es : List SetEntry) (n : Nat) : State :=
  let old := s.cmd.chans
  let s1 := s.applyEntries es
  let s2 := s1.each old (fun c t => match t.chanAt c.kind c.index with
    | some d => t.runChanged c d n
    | none => t)
  (s2.each es (fun e t => match e with
    | .param h 0x020C _ _ => t.modStream (handleIndex h) (fun x => { x with playFrom := n })
    | .param h 0x0610 _ _ => t.calAccepted (handleIndex h) n
    | _ => t)).noteInput

/-- The set or the cue handle that a record names; the channel of a START or STOP without a set. -/
def Deferred.subject (d : Deferred) : Nat :=
  match d.act with
  | .commit n _ => n
  | .fire h _ => h
  | .run h _ => h
  | _ => 0xFF

/-- A commit, cue fire, START or STOP acts at S(n), or is refused whole (R142, R143). -/
def State.actCommit (s : State) (d : Deferred) (n : Nat) : State :=
  let es := s.deferredEntries d
  let proj := (s.copyLists n es).applyEntries es
  let r := proj.consistency s n
  let h := match d.act with | .run g _ => g | .fire g _ => g | _ => 0
  let close (t : State) : State := match d.act with | .commit m keep => t.unlockSet m keep | _ => t
  if r.2.1 = stOK then
    let s1 := close (s.takeEffect es n)
    match d.act with
    | .run _ _ => s1.complete d.id h (okComp d.desc n 0)
    | _ => ((s1.bump R.CH_COMMIT_CNT).tally 0x0300 [d.subject, n, es.length]).complete d.id h (okComp d.desc n es.length)
  else
    let st := if r.1 = 12 then stBudget else stInconsistent
    let pos := match d.act with
      | .run _ _ => 0xFFFFFFFF
      | _ => s.failingEntry es n r.1 r.2.2
    let s1 := ((((close s).bump R.CH_REJECT_CNT).raise F.CH_EVT_COMMIT_REJ).msi 2).tally 0x0301 [d.subject, n, st, pos]
    s1.complete d.id h (failComp d.desc n r.1 st pos)

/-- Each reference to a destroyed channel becomes null (R128, R316). -/
def State.nullRefs (s : State) (h : Nat) : State :=
  s.each (s.cmd.chans.filter (fun c => decide (c.st ≠ .draining) && c.handle != h)) (fun c t =>
    t.each (c.refs.filter (fun r => r.2 == h)) (fun r u =>
      let u1 := ((u.modChan c.kind c.index (fun x => x.nullRef r.1)).raise F.CH_EVT_FORCED_NULL).tally 0x0304 [h, c.handle, r.1]
      if r.1 = 0x0801 then (u1.raise F.FIX_EVT_NULLED).tally 0x0A03 [c.handle, h] else u1))

/-- A DESTROY takes effect at S(n) (R125, R127). It counts as a changed input of an automatic Hold (DESIGN CHOICE: R55 lists
commits, which R142 extends to CUE_FIRE, START and STOP, and does not name DESTROY). -/
def State.actDestroy (s : State) (h : Nat) (force : Bool) (n : Nat) : State :=
  match s.chanOf h with
  | none => s
  | some c =>
    let key := c.kind * 2 ^ 18 + c.index
    let gens := s.cmd.gens.filter (fun q => q.1 != key) ++ [(key, c.gen % 255 + 1)]
    let s1 := (({ s with cmd := { s.cmd with gens := gens } } : State).modChan c.kind c.index (fun x => { x with st := .draining })).noteInput
    let s2 := if force then s1.nullRefs h else s1
    let was := decide (c.st = .running)
    match c.kind with
    | 2 => if was then s2.stopStream c else s2
    | 8 => s2.dropFixture h
    | 9 => if was then s2.terminateUniverse c n 1 else s2
    | 0xD => s2.setCue c.index []
    | _ => s2

/-- One deferred command acts at S(n). A START, STOP or DESTROY accepted before a DESTROY of its channel that has taken effect
meanwhile finds a stale handle (R125). -/
def State.actOne (s : State) (d : Deferred) (n : Nat) : State :=
  let t : State := { s with cmd := { s.cmd with deferred := s.cmd.deferred.filter (fun e => e.id != d.id) } }
  let stale (h : Nat) := t.complete d.id h (failComp d.desc n 3 (t.handleStatus createKinds h) 0xFFFFFFFF)
  match d.act with
  | .destroy h force =>
    if t.handleStatus createKinds h = stOK then (t.actDestroy h force n).complete d.id h (okComp d.desc n 0) else stale h
  | .wait => t.complete d.id 0 (okComp d.desc n 0)
  | .run h _ => if t.handleStatus createKinds h = stOK then t.actCommit d n else stale h
  | _ => t.actCommit d n

/-- The deferred commands for frame n act, in acceptance order. -/
def State.actDeferred (s : State) (n : Nat) : State :=
  (s.each (s.cmd.deferred.filter (fun d => decide (d.frame ≤ n) && !d.ahead)) (fun d t => t.actOne d n)).pump

/-! ## CH_DRAINED (R126, R127) -/

/-- CH_DRAINED: the drain of a destroyed channel ends, and its index becomes FREE. -/
def doChDrained (kind index : Nat) (s : State) : State :=
  match s.chanAt kind index with
  | none => s
  | some c =>
    if c.st ≠ .draining then s
    else
      let cmd : Cmd := { s.cmd with
        chans := s.cmd.chans.filter (fun x => !(x.kind == kind && x.index == index)),
        freed := s.cmd.freed ++ [(kind, index)] }
      (({ s with cmd := cmd } : State).tally 0x0302 [c.handle, c.destroyFrame.getD 0, c.discarded]).syncCmd

/-! ## The meanings of the rows -/

def execCreate (pail : Fin 256) (d : Desc) (s : State) : Host.Outcome State Fault Refusal := .next (s.command pail.val (d.inRow opCreate))
def execDestroy (pail : Fin 256) (d : Desc) (s : State) : Host.Outcome State Fault Refusal := .next (s.command pail.val (d.inRow opDestroy))
def execStart (pail : Fin 256) (d : Desc) (s : State) : Host.Outcome State Fault Refusal := .next (s.command pail.val (d.inRow opStart))
def execStop (pail : Fin 256) (d : Desc) (s : State) : Host.Outcome State Fault Refusal := .next (s.command pail.val (d.inRow opStop))
def execSetParam (pail : Fin 256) (d : Desc) (s : State) : Host.Outcome State Fault Refusal := .next (s.command pail.val (d.inRow opSetParam))
def execGetParam (pail : Fin 256) (d : Desc) (s : State) : Host.Outcome State Fault Refusal := .next (s.command pail.val (d.inRow opGetParam))
def execClearSet (pail : Fin 256) (d : Desc) (s : State) : Host.Outcome State Fault Refusal := .next (s.command pail.val (d.inRow opClearSet))
def execCopySet (pail : Fin 256) (d : Desc) (s : State) : Host.Outcome State Fault Refusal := .next (s.command pail.val (d.inRow opCopySet))
def execCommit (pail : Fin 256) (d : Desc) (s : State) : Host.Outcome State Fault Refusal := .next (s.command pail.val (d.inRow opCommit))
def execCancel (pail : Fin 256) (d : Desc) (s : State) : Host.Outcome State Fault Refusal := .next (s.command pail.val (d.inRow opCancel))
def execCueStore (pail : Fin 256) (d : Desc) (s : State) : Host.Outcome State Fault Refusal := .next (s.command pail.val (d.inRow opCueStore))
def execCueLoad (pail : Fin 256) (d : Desc) (s : State) : Host.Outcome State Fault Refusal := .next (s.command pail.val (d.inRow opCueLoad))
def execCueFire (pail : Fin 256) (d : Desc) (s : State) : Host.Outcome State Fault Refusal := .next (s.command pail.val (d.inRow opCueFire))
def execWait (pail : Fin 256) (d : Desc) (s : State) : Host.Outcome State Fault Refusal := .next (s.command pail.val (d.inRow opWait))
def execQuery (pail : Fin 256) (d : Desc) (s : State) : Host.Outcome State Fault Refusal := .next (s.command pail.val (d.inRow opQuery))
def execChDrained (kind index : Nat) (s : State) : Host.Outcome State Fault Refusal := .next (doChDrained kind index s)

end Sys2Proof.Machine
end

