-- ==== Sys2Proof/Machine/Time.lean ====
section
/-! DEFINITION. The passing of time while no command waits. -/
namespace Sys2Proof.Machine

/-- The servo's rate adjustment in signed units of 2^-16 ppm (R366). -/
def State.servoRate (s : State) : Int := toSigned 32 (s.get R.TIM_FREQ)

/-- One microsecond passes: the uptime by 1 µs, and device time by 1 µs at the rate that the servo steers. -/
def State.idle (s : State) : State :=
  { s with uptime := s.uptime + 1000, now := ((s.now : Int) + 1000 * 65536 + s.servoRate / 1000).toNat }

end Sys2Proof.Machine
end

