-- ==== Sys2Proof/Machine/Clock.lean ====
section
/-! DEFINITION. Time, PTP and frame lock (R347 to R367): the BMCA and the PTP messages, the sources of the show clock,
slews and steps. -/
namespace Sys2Proof.Machine
open Sys2Proof

/-! ## The PTP ports (R350 to R354) -/

/-- What a port of the PTP clock holds beside its registers. -/
def State.ptpPort (s : State) (p : Nat) : PtpPort := s.tim.ports.getD p PtpPort.reset
/-- Change it. -/
def State.modPtp (s : State) (p : Nat) (f : PtpPort → PtpPort) : State :=
  { s with tim := { s.tim with ports := s.tim.ports.modify p f } }

/-- The ports whose structure role includes PTP (R84). -/
def State.ptpPorts (s : State) : List Nat := (List.range 19).filter (fun p => s.hasRole p 4)

/-- The device is a boundary clock (R350, R352). -/
def State.isBoundary (s : State) : Bool := s.flag F.TIM_CTL_BC_EN && decide (2 ≤ s.ptpPorts.length) && decide (s.role ≠ 2)

/-- A running ring uses the port (R351). -/
def State.ringUses (s : State) (p : Nat) : Bool := decide (p < 16) && (s.ringChan (p / 2)).isSome

/-- The port takes part in PTP (R350, R351). -/
def State.ptpActive (s : State) (p : Nat) : Bool :=
  decide (1 ≤ s.power) && s.sys.started && s.hasRole p 4 && !s.ringUses p && (s.flag F.TIM_CTL_BC_EN || s.ptpPorts.head? == some p)

/-- The device's clockIdentity: its serial number (DESIGN CHOICE: the spec names no clockIdentity). -/
def State.clockId (s : State) : Nat := s.get64 R.STA_SERIAL_LO
/-- portIdentity of a port of the device. -/
def State.portId (s : State) (p : Nat) : Nat := s.clockId * 65536 + (p + 1)

/-- The corrections of R353 for a port, egress and ingress, in 1/16 ns. -/
def State.portCorr (s : State) (p : Nat) : Nat × Nat :=
  let fec := (s.portLinks p).any (fun l => s.flag F.NL_CTL_FEC l)
  match s.portSpeed p with
  | 1 => (744, 1242)
  | 2 => if fec then (298, 2040) else (298, 500)
  | 3 => (228, 1550)
  | 4 => if fec then (298, 2040) else (298, 500)
  | 5 => (1664, 3712)
  | 6 => (1664, 3840)
  | _ => (0, 0)

/-- Bring TP_CORR up to date (R353). -/
def State.refreshCorr (s : State) : State :=
  s.each (List.range 19) (fun p t =>
    let c := t.portCorr p
    (t.put F.TP_CORR_EGRESS c.1 p).put F.TP_CORR_INGRESS c.2 p)

/-- TP_ASYM of a port in units of 2^-16 ns (R354). -/
def State.asym (s : State) (p : Nat) : Int := toSigned 32 (s.get R.TP_ASYM p) * 256

/-- 2^logInterval seconds in ns, of a signed 4-bit field. -/
def intervalNs (log4 : Nat) : Nat :=
  let e := toSigned 4 log4
  if 0 ≤ e then oneSecond * 2 ^ e.toNat else oneSecond / 2 ^ (-e).toNat

/-! ## The best master clock algorithm (R349) -/

/-- The order of data sets of IEEE 1588's default comparison for different grandmasters: the lower comes first. -/
def masterKey (m : MasterSet) : List Nat := [m.prio1, m.cls, m.accuracy, m.variance, m.prio2, m.gm]

/-- One list of numbers comes before another. -/
def listBefore : List Nat → List Nat → Bool
  | a :: l, b :: m => decide (a < b) || (a == b && listBefore l m)
  | _, _ => false

/-- One master is better than another. -/
def Foreign.better (a b : Foreign) : Bool :=
  if a.info.gm = b.info.gm then listBefore [a.info.steps, a.src, a.port] [b.info.steps, b.src, b.port]
  else listBefore (masterKey a.info) (masterKey b.info)

/-- A master is qualified: two Announces within four announce intervals. -/
def State.qualified (s : State) (f : Foreign) : Bool :=
  let span := 4 * intervalNs (s.get F.TIM_PTP_CFG_LOG_ANN)
  decide (2 ≤ (f.heard.filter (fun u => decide (s.uptime ≤ u + span))).length)

/-- The device may become grandmaster (R350, R352). -/
def State.mayMaster (s : State) : Bool := s.flag F.TIM_CTL_GM_EN && decide (s.role ≠ 2)

/-- The device's own data set, announced without a master. -/
def State.ownSet (s : State) : MasterSet :=
  { gm := s.clockId, prio1 := s.get F.TIM_PTP_PRIO_PRIORITY1, cls := 248, accuracy := 0xFE, variance := 0xFFFF,
    prio2 := s.get F.TIM_PTP_PRIO_PRIORITY2, steps := 0 }

/-- The master that the BMCA selects. -/
def State.bestMaster (s : State) : Option Foreign :=
  let l := s.tim.foreign.filter (fun f => s.qualified f && s.ptpActive f.port)
  let best := l.foldl (fun (b : Option Foreign) f => match b with
    | none => some f
    | some x => if f.better x then some f else some x) none
  match best with
  | none => none
  | some f =>
    if s.mayMaster && listBefore (masterKey s.ownSet) (masterKey f.info) then none
    else if s.flag F.TIM_CTL_PTP_EN then some f else none

/-- The data set the device announces (R350); none where it announces nothing. -/
def State.announced (s : State) : Option MasterSet :=
  let cur := s.tim.parent.bind (fun q => s.tim.foreign.find? (fun f => f.port == q.1 && f.src == q.2))
  match s.get F.TIM_STAT_STATE with
  | 2 => cur.map (fun f => { f.info with steps := f.info.steps + 1 })
  | 3 => some { s.ownSet with
      gm := s.get64 R.TIM_GM_ID_LO, cls := 7 }
  | _ => if s.mayMaster then some s.ownSet else cur.map (fun f => { f.info with steps := f.info.steps + 1 })

/-- The portState of a port (R350 to R352, R366). -/
def State.portState (s : State) (p : Nat) : Nat :=
  if !s.ptpActive p then 3
  else
    match s.tim.parent with
    | some q =>
      if q.1 = p then 9
      else if s.isBoundary then
        (if s.tim.foreign.any (fun f => f.port == p && s.qualified f &&
            (match s.announced with | some a => !listBefore (masterKey a) (masterKey f.info) && a.gm != f.info.gm | none => true))
          then 7 else 6)
      else 4
    | none => if s.mayMaster then 6 else 4

/-- Bring TP_STAT and TIM_STAT.SLAVE_PORT up to date. -/
def State.refreshPtp (s : State) : State :=
  let s1 := s.each (List.range 19) (fun p t => (t.put F.TP_STAT_PSTATE (t.portState p) p).putFlag F.TP_STAT_ACTIVE (t.ptpActive p) p)
  s1.put F.TIM_STAT_SLAVE_PORT ((s1.tim.parent.map Prod.fst).getD 31)

/-! ## Clock states (R355 to R357) -/

/-- Put the clock into a state, with CLK_OK in both registers. -/
def State.clockState (s : State) (n : Nat) : State :=
  let ok := decide (2 ≤ n)
  ((s.put F.TIM_STAT_STATE n).putFlag F.TIM_STAT_CLK_OK ok).putFlag F.SYS_MODE_STAT_CLK_OK ok

/-- Set the servo's rate. -/
def State.setRate (s : State) (r : Int) : State := s.put R.TIM_FREQ (ofSigned 32 r)

/-- 200 ppm in units of 2^-16 ppm. -/
def maxRate : Int := 200 * 65536

/-- The slew limit in units of 2^-16 ppm (R360, R366). -/
def State.slewLimit (s : State) : Int :=
  let v := s.get F.TIM_SERVO_SLEW
  let ppb := if v = 0 then 1 else min v 5000
  (ppb * 65536 / 1000 : Nat)

/-- A rate chosen by the servo, whose law the spec does not give: a free value within its bounds. -/
def State.servo (s : State) : State :=
  let lo := if s.tim.slewAt.isSome then max (-maxRate) (s.tim.holdRate - s.slewLimit) else -maxRate
  let hi := if s.tim.slewAt.isSome then min maxRate (s.tim.holdRate + s.slewLimit) else maxRate
  let f := s.free 32
  let r := lo + ((f.1 : Int) % (hi - lo + 1))
  let t := f.2.setRate r
  if [2, 4].contains (t.get F.TIM_STAT_STATE) then
    { t with tim := { t.tim with rates := (t.uptime, r) :: t.tim.rates.filter (fun q => decide (t.uptime < q.1 + 16 * oneSecond)) } }
  else t

/-- A step's outcome for a Standby that has none (R364): not READY, DIVERGE, and a record. -/
def State.diverge (s : State) (theta : Int) : State :=
  if s.tim.diverged then s
  else
    (({ s with tim := { s.tim with diverged := true } }).raise F.TIM_EVT_DIVERGE).tally 0x0C07
      [slotOfInt (theta / 65536), slotOfInt (((s.tim.steps.head?).map Prod.fst).getD 0 / 65536)]

/-! ## Steps (R361 to R364) -/

/-- o_max of R361 in 2^-16 ns: the largest offset among the zones of running endpoints and universes, at least 0. -/
def State.maxOffset (s : State) : Nat :=
  let zones := (s.running kEndpoint).map Chan.epZone ++ (s.running kUniverse).map Chan.univZone
  (zones.map (fun z => (zoneOffset s.cmd.chans z).toNat * 65536)).foldl max 0

/-- The step begins: the last old frame, the boundary s and the first new frame j are fixed, and what the step upsets is
withdrawn (R361, R364). -/
def State.beginStep (s : State) (theta : Int) : State :=
  let show_ := decide (s.power = 3)
  let last := if show_ then max s.sys.nextS (s.firstSFrom (s.now + 1)) else s.firstSFrom (s.bAt s.sys.nextB) - 1
  let bound := if show_ then last + ceilDiv s.maxOffset (periodOf s.rate) else s.sys.nextB
  let first := s.firstSFrom ((s.bAt bound : Int) + theta).toNat
  let plan : StepPlan := { theta := theta, last := last, bound := bound, first := first, done := false }
  let s1 : State := { s with tim := { s.tim with plan := some plan, waiting := none, pending := none, steps := (theta, last) :: s.tim.steps.take 3 } }
  let s2 := (s1.putFlag F.TIM_STAT_STEP_PENDING false).timeoutDeferred (fun d => decide (last + 1 ≤ d.frame))
  if s2.strPhase = 2 ∨ s2.strPhase = 3 then s2.strWithdraw 1 else s2

/-- A step is decided: it waits for a transition or for S(j) of another step (R364); an Active mirrors the decision. -/
def State.decideStep (s : State) (theta : Int) : State :=
  let busy := match s.tim.plan with | some p => decide (s.sys.nextS ≤ p.first) | none => false
  if s.sys.trans.isSome || busy then { s with tim := { s.tim with waiting := some theta, pending := none } }
  else s.mirrored true (.step (s.firstSFrom (s.now + 1)) theta) (fun t => t.beginStep theta)

/-- A step that waited may begin. -/
def State.wakeStep (s : State) : State :=
  match s.tim.waiting with
  | some th => ({ s with tim := { s.tim with waiting := none } }).decideStep th
  | none => s

/-- The next boundary and the next work start on the lattice as device time now stands (R348, R362). -/
def State.relattice (s : State) : State :=
  let n := frameOf s.rate s.now
  let b := if s.bAt n = s.now then n else n + 1
  { s with sys := { s.sys with nextB := b, nextS := s.firstSFrom s.now } }

/-- STEPPED (R361): at B(s) device time becomes B(s) + θ. -/
def doStepped (s : State) : State :=
  match s.tim.plan with
  | none => s
  | some p =>
    if p.done then s
    else
      let s1 := s.atTime (s.bAt p.bound)
      let t0 := ((s1.bAt p.bound : Int) + p.theta).toNat
      let s2 : State := { s1 with
        now := t0, tim := { s1.tim with plan := some { p with done := true }, last := none, offsets := [], good := 0 } }
      let s3 := (({ s2.relattice with sys := { s2.relattice.sys with nextS := p.first } } : State).bump R.TIM_STEP_CNT).put64
        R.TIM_LAST_STEP_LO (slotOfInt (p.theta / 65536))
      let s4 := (s3.raise F.TIM_EVT_STEPPED).tally 0x0C05
        [slotOfInt (p.theta / 65536), p.last, p.bound, p.first, s3.seqNow, (s3.seqNow + 1) % 2 ^ 32]
      ((((s4.sendSteps).voidWindows (p.last + 1) (p.first - 1)).restage (fun _ => s.now)).settleLattice)

/-! ## New masters, slews and locking (R356, R359, R360) -/

/-- A slew begins (R360). -/
def State.slewStart (s : State) (theta : Int) : State :=
  let hold := if s.get F.TIM_STAT_STATE = 0 then 0 else s.servoRate
  (({ s with tim := { s.tim with slewAt := some s.uptime, holdRate := hold } }).putFlag F.TIM_STAT_SLEW true).tally 0x0C03
    [slotOfInt (theta / 65536), s.get F.TIM_SERVO_SLEW]

/-- 1 ms, 10 µs and 100 ns in 2^-16 ns. -/
def oneMs16 : Int := 1000000 * 65536
def tenUs16 : Int := 10000 * 65536
def hundredNs16 : Int := 100 * 65536

/-- The offset of a new master has been formed (R359 to R361). -/
def State.newMaster (s : State) (old : Nat) (theta : Int) : State :=
  let s1 := (({ s with tim := { s.tim with collecting := none, offsets := [] } }).raise F.TIM_EVT_NEW_MASTER).tally 0x0C02
    [old, s.get64 R.TIM_GM_ID_LO, slotOfInt (theta / 65536)]
  if (-oneMs16 ≤ theta ∧ theta ≤ oneMs16) ∨ s1.get F.TIM_STAT_SRC = 2 then s1.slewStart theta
  else if s1.role = 2 then s1.diverge theta
  else if s1.flag F.TIM_CTL_STEP_MODE then
    (((({ s1 with tim := { s1.tim with pending := some theta } }).putFlag F.TIM_STAT_STEP_PENDING true).raise
      F.TIM_EVT_STEP_PENDING)).tally 0x0C04 [slotOfInt (theta / 65536)]
  else s1.decideStep theta

/-- Measurements that agree within 10 µs with a new one: the run goes on, or starts anew. -/
def agreeing (l : List Int) (x : Int) : List Int :=
  let m := x :: l
  let lo := m.foldl min x
  let hi := m.foldl max x
  if hi - lo ≤ tenUs16 then m else [x]

/-- The mean of measurements, in whole units. -/
def meanInt (l : List Int) : Int := if l.isEmpty then 0 else l.sum / l.length

/-- TIM_HOLDOVER_MS as a read finds it: the ms of the current or latest HOLDOVER. -/
def State.showHoldover (s : State) : State :=
  match s.tim.holdSince with
  | some u => s.put R.TIM_HOLDOVER_MS (min 0xFFFFFFFF ((s.uptime - u) / 1000000))
  | none => s

/-- Sixteen consecutive offsets within ±100 ns lock the clock (R356). -/
def State.lockClock (s : State) : State :=
  let n := if s.get F.TIM_STAT_SRC = 2 then 4 else 2
  if s.get F.TIM_STAT_STATE = n then s
  else
    let s0 := s.showHoldover
    (((({ s0 with tim := { s0.tim with holdSince := none, diverged := false } }).clockState n).raise F.TIM_EVT_LOCKED)).tally 0x0C00
      [s.get F.TIM_STAT_SRC, s.get F.TIM_STAT_SLAVE_PORT, s.get64 R.TIM_GM_ID_LO]

/-- The servo cannot follow: a source that needs more than ±200 ppm (R356). -/
def State.rateNeeded (s : State) (theta : Int) : Int :=
  match s.tim.last with
  | some (u, th) => if u < s.uptime then s.servoRate + (theta - th) * 1000000 / ((s.uptime - u : Nat) : Int) else s.servoRate
  | none => s.servoRate

/-- One offset to the selected source (R356, R359): `theta` is source time minus device time. -/
def State.measure (s : State) (port : Nat) (theta : Int) : State :=
  let need := s.rateNeeded theta
  let far := if maxRate < need ∨ need < -maxRate then s.tim.beyond + 1 else 0
  let s1 : State := ({ s with tim := { s.tim with last := some (s.uptime, theta), beyond := far } }).put R.TIM_OFFSET
    (ofSigned 32 (clampInt (-2147483648) 2147483647 (theta / 65536)))
  if 8 ≤ far then
    if far = 8 then (s1.raise F.TIM_EVT_FREQ_RANGE).tally 0x0C06 [port, slotOfInt (need * 1000 / 65536)] else s1
  else
    match s1.tim.collecting with
    | some old =>
      let l := agreeing s1.tim.offsets theta
      if l.length = 8 then s1.newMaster old (meanInt l) else { s1 with tim := { s1.tim with offsets := l } }
    | none =>
      if s1.tim.pending.isSome ∨ s1.tim.plan.any (fun p => !p.done) = true then s1
      else if (theta < -oneMs16 ∨ oneMs16 < theta) ∧ s1.get F.TIM_STAT_STATE = 2 then
        let l := agreeing s1.tim.offsets theta
        if l.length = 8 then s1.newMaster (s1.get64 R.TIM_GM_ID_LO) (meanInt l) else { s1 with tim := { s1.tim with offsets := l } }
      else
        let g := if -hundredNs16 ≤ theta ∧ theta ≤ hundredNs16 then s1.tim.good + 1 else 0
        let s2 : State := { s1 with tim := { s1.tim with good := g, offsets := [] } }
        (if 16 ≤ g then s2.lockClock else s2).servo

/-! ## Selecting a source (R355, R357, R359) -/

/-- A source is selected: `src` 1 PTP, 2 word clock. A change of identity or of source, the return of a source and the
first source after FREE make it a new master. -/
def State.takeSource (s : State) (src gm : Nat) : State :=
  let oldGm := s.get64 R.TIM_GM_ID_LO
  let changed := s.tim.newNext || s.get F.TIM_STAT_SRC != src || (src == 1 && oldGm != gm)
  let s1 := (s.put F.TIM_STAT_SRC src).put64 R.TIM_GM_ID_LO (if src = 1 then gm else 0)
  let s2 := if changed then
      { s1 with tim := { s1.tim with collecting := some oldGm, offsets := [], good := 0, last := none, beyond := 0, newNext := false, fresh := false } }
    else s1
  if s2.get F.TIM_STAT_STATE = 0 then s2.clockState 1 else s2

/-- The selected source is lost (R357): HOLDOVER at the mean rate of the last 16 s of lock; a clock that had not locked is
FREE again. -/
def State.loseSource (s : State) : State :=
  let src := s.get F.TIM_STAT_SRC
  let st := s.get F.TIM_STAT_STATE
  let rate := if s.tim.rates.isEmpty then s.servoRate else meanInt (s.tim.rates.map Prod.snd)
  let s1 : State := (({ s with tim := { s.tim with
      parent := none, newNext := true, collecting := none, offsets := [], good := 0, last := none, beyond := 0, slewAt := none } }).put
    F.TIM_STAT_SRC 0).putFlag F.TIM_STAT_SLEW false
  if st = 2 ∨ st = 4 then
    (((({ s1 with tim := { s1.tim with holdSince := some s.uptime, holdRate := rate } }).clockState 3).setRate rate).raise
      F.TIM_EVT_HOLDOVER).tally 0x0C01 [src, slotOfInt rate]
  else if st = 1 then s1.clockState 0
  else s1

/-- Run the BMCA and take the source it gives (R355). -/
def State.runBmca (s : State) : State :=
  let s1 := match s.bestMaster with
    | some f =>
      let same := s.tim.parent == some (f.port, f.src)
      let t : State := if same then s else
        ({ s with tim := { s.tim with parent := some (f.port, f.src) } }).modPtp f.port (fun q => { q with
          sync := none, ms := none, dreq := none, delay := none })
      t.takeSource 1 f.info.gm
    | none => if s.tim.parent.isSome then s.loseSource else s
  s1.refreshPtp

/-! ## PTP messages sent (R349, IEEE 1588-2019) -/

/-- 224.0.1.129. -/
def ptpGroup : Nat := 0xE0000181

/-- A ten-octet timestamp. -/
def stamp10 (t : Nat) : List Nat := let ns := t / 65536; beBytes 6 (ns / oneSecond) ++ beBytes 4 (ns % oneSecond)

/-- A PTP message: the common header and a body. -/
def State.ptpMessage (s : State) (p type flags control seq : Nat) (corr : Int) (log : Nat) (body : List Nat) : List Nat :=
  [type, 0x12] ++ beBytes 2 (34 + body.length) ++ [s.get F.TIM_PTP_CFG_DOMAIN, 0] ++ beBytes 2 flags ++ beBytes 8 (ofSigned 64 corr) ++
  [0, 0, 0, 0] ++ beBytes 10 (s.portId p) ++ beBytes 2 seq ++ [control, log] ++ body

/-- Send a PTP message from a port: lane 0 of a split port (R370). -/
def State.sendPtp (s : State) (p dst udp : Nat) (msg : List Nat) : State :=
  match (s.portLinks p).head? with
  | some l => s.sendUdp l dst udp udp msg
  | none => s

/-- logMessageInterval of a 4-bit field, as an octet. -/
def logOctet (v : Nat) : Nat := ofSigned 8 (toSigned 4 v)

/-- The ports in MASTER. -/
def State.masterPorts (s : State) : List Nat := (List.range 19).filter (fun p => s.portState p == 6)

/-- SYNC_SEND (R349): Sync with two-step set, and its Follow_Up, from every port in MASTER. -/
def doSyncSend (s : State) : State :=
  s.each s.masterPorts (fun p t =>
    let q := (t.ptpPort p).seqSync
    let log := logOctet (t.get F.TIM_PTP_CFG_LOG_SYNC)
    let t1 := t.sendPtp p ptpGroup 319 (t.ptpMessage p 0 0x0208 0 q 0 log (List.replicate 10 0))
    let t2 := t1.sendPtp p ptpGroup 320 (t1.ptpMessage p 8 0x0008 2 q ((t1.now % 65536 : Nat) : Int) log (stamp10 t1.now))
    t2.modPtp p (fun x => { x with seqSync := (q + 1) % 65536 }))

/-- The organization extension TLV of ST 2059-2, the synchronization metadata (R349). -/
def State.metadataTlv (s : State) : List Nat :=
  let nd := rateND s.rate
  let lock : Nat := match s.get F.TIM_STAT_STATE with | 0 => 1 | 1 => 2 | 3 => 3 | _ => 4
  beBytes 2 3 ++ beBytes 2 48 ++ [0x68, 0x97, 0xE8, 0, 0, 1] ++ beBytes 4 nd.1 ++ beBytes 4 nd.2 ++ [lock] ++ List.replicate 33 0

/-- ANNOUNCE_SEND (R349, R350): Announce from every port in MASTER, and at most once a second the Management message with
the synchronization metadata. -/
def doAnnounceSend (s : State) : State :=
  match s.announced with
  | none => s
  | some a =>
    s.each s.masterPorts (fun p t =>
      let q := (t.ptpPort p).seqAnn
      let body := List.replicate 10 0 ++ [0, 0, 0, a.prio1, a.cls, a.accuracy] ++ beBytes 2 a.variance ++ [a.prio2] ++ beBytes 8 a.gm ++
        beBytes 2 a.steps ++ [0xA0]
      let t1 := (t.sendPtp p ptpGroup 320 (t.ptpMessage p 0xB 0x0008 5 q 0 (logOctet (t.get F.TIM_PTP_CFG_LOG_ANN)) body)).modPtp p
        (fun x => { x with seqAnn := (q + 1) % 65536 })
      if ((t1.ptpPort p).managed.map (fun u => decide (u + oneSecond ≤ t1.uptime))).getD true then
        let m := (t1.ptpPort p).seqMan
        (t1.sendPtp p ptpGroup 320 (t1.ptpMessage p 0xD 0x0008 4 m 0 0x7F (List.replicate 10 0xFF ++ [0, 0, 3, 0] ++ t1.metadataTlv))).modPtp p
          (fun x => { x with seqMan := (m + 1) % 65536, managed := some t1.uptime })
      else t1)

/-- DELAY_REQ_SEND (R349): Delay_Req from the port in SLAVE, multicast or to the master. -/
def doDelayReqSend (s : State) : State :=
  match s.tim.parent with
  | none => s
  | some (p, src) =>
    if !s.ptpActive p then s
    else
      let ip := ((s.tim.foreign.find? (fun f => f.port == p && f.src == src)).map Foreign.ip).getD ptpGroup
      let dst := if s.flag F.TIM_PTP_CFG_DREQ_UNICAST then ip else ptpGroup
      let q := (s.ptpPort p).seqDreq
      let s1 := s.sendPtp p dst 319 (s.ptpMessage p 1 0x0008 1 q 0 0x7F (List.replicate 10 0))
      s1.modPtp p (fun x => { x with seqDreq := (q + 1) % 65536, dreq := some (q, s.now) })

/-! ## PTP messages received (R349) -/

/-- An Announce: the master is noted, and the BMCA runs. -/
def State.ptpAnnounce (s : State) (p : Nat) (m : PtpMessage) (info : MasterSet) : State :=
  if 255 ≤ info.steps ∨ info.gm = s.clockId ∨ m.source / 65536 = s.clockId then s
  else
    let old := s.tim.foreign.find? (fun f => f.port == p && f.src == m.source)
    let f : Foreign := { port := p, src := m.source, ip := m.ip, info := info, heard := (s.uptime :: (old.map Foreign.heard).getD []).take 8 }
    ({ s with tim := { s.tim with foreign := s.tim.foreign.filter (fun (g : Foreign) => !(g.port == p && g.src == m.source)) ++ [f] } } : State).runBmca

/-- t1 of a Sync is known: t2 − t1 is kept, and with the path delay it gives an offset. -/
def State.ptpOffset (s : State) (p : Nat) (t1 : Int) (t2 : Nat) : State :=
  let ms := (t2 : Int) - t1
  let s1 := s.modPtp p (fun q => { q with ms := some ms, sync := none })
  match (s1.ptpPort p).delay with
  | some d => s1.measure p (d - ms)
  | none => s1

/-- PTP_MESSAGE (R349): a message received on a port of the PTP clock. -/
def doPtpMessage (p : Nat) (m : PtpMessage) (s : State) : State :=
  if !s.ptpActive p ∨ m.domain ≠ s.get F.TIM_PTP_CFG_DOMAIN then s
  else
    let arrived := ((s.now : Int) - s.asym p).toNat
    let fromParent := s.tim.parent == some (p, m.source)
    match m.body with
    | .announce info => s.ptpAnnounce p m info
    | .sync twoStep origin corr =>
      if !fromParent then s
      else if twoStep then s.modPtp p (fun q => { q with sync := some (m.seq, ((arrived : Int) - corr).toNat) })
      else s.ptpOffset p ((origin : Int) + corr) arrived
    | .followUp origin corr =>
      match (s.ptpPort p).sync with
      | some (q, t2) => if fromParent && q == m.seq then s.ptpOffset p ((origin : Int) + corr) t2 else s
      | none => s
    | .delayReq corr =>
      if s.portState p = 6 then
        s.sendPtp p ptpGroup 320 (s.ptpMessage p 9 0x0008 3 m.seq (corr - ((arrived % 65536 : Nat) : Int))
          (logOctet (s.get F.TIM_PTP_CFG_LOG_DREQ)) (stamp10 arrived ++ beBytes 10 m.source))
      else s
    | .delayResp receive corr requester =>
      match (s.ptpPort p).dreq, (s.ptpPort p).ms with
      | some (q, t3), some ms =>
        if fromParent && q == m.seq && requester == s.portId p then
          let d := (ms + ((receive : Int) - corr - t3)) / 2
          (s.modPtp p (fun x => { x with dreq := none, delay := some d })).put R.TP_DELAY (ofSigned 32 (d / 256)) p
        else s
      | _, _ => s
    | .other => s

/-! ## Word clock (R358) -/

/-- The nearest instant of the 48 kHz grid minus device time, in 2^-16 ns. -/
def gridOffset (now : Nat) : Int :=
  let step : Rat := mkRat (1000000000 * 65536) 48000
  let k := roundHalfUp ((now : Rat) / step)
  ((k : Rat) * step).floor - now

/-- WCLK_EDGE (R358): an edge disciplines device time while PTP is not selected. -/
def doWclkEdge (s : State) : State :=
  let s1 : State := { s with tim := { s.tim with edge := some s.uptime } }
  if !s1.flag F.TIM_CTL_WCLK_EN || s1.tim.parent.isSome then s1
  else (s1.takeSource 2 0).measure 31 (gridOffset s1.now)

/-! ## The other rows -/

/-- HOLDOVER_ENTER (R357): the selected source is lost; another master may be selected at once. -/
def doHoldoverEnter (s : State) : State :=
  let s1 : State := match s.tim.parent with
    | some q => { s with tim := { s.tim with foreign := s.tim.foreign.filter (fun f => !(f.port == q.1 && f.src == q.2)), edge := s.tim.edge } }
    | none => { s with tim := { s.tim with edge := none } }
  if s1.get F.TIM_STAT_SRC = 0 then s1 else s1.loseSource.runBmca

/-- SLEW_DONE (R360). -/
def doSlewDone (s : State) : State :=
  match s.tim.slewAt with
  | none => s
  | some u =>
    ((({ s with tim := { s.tim with slewAt := none } }).putFlag F.TIM_STAT_SLEW false).raise F.TIM_EVT_SLEW_DONE).tally 0x0C08
      [(s.uptime - u) / oneSecond]

/-- TIME_SET (R348, R355): TIM_CMD operation 1. -/
def doTimeSet (s : State) : State :=
  if s.get F.TIM_STAT_STATE = 0 ∧ s.power = 1 ∧ s.sys.started = true ∧ s.get R.TIM_SET_NS ≤ 999999999 then
    let secs := s.get R.TIM_SET_S_LO + 2 ^ 32 * (s.get R.TIM_SET_S_HI % 65536)
    let t := (secs * oneSecond + s.get R.TIM_SET_NS) * 65536
    let s1 := (({ s with now := t } : State).relattice).sendSteps
    s1.tally 0x0C09 [s.nowNs % 2 ^ 64, s1.nowNs % 2 ^ 64]
  else s.raise F.TIM_EVT_CMD_REJECT

/-- APPLY_STEP (R361): TIM_CMD operation 2. -/
def doApplyStep (s : State) : State :=
  match s.tim.pending with
  | some th => (({ s with tim := { s.tim with pending := none } }).putFlag F.TIM_STAT_STEP_PENDING false).decideStep th
  | none => s.raise F.TIM_EVT_CMD_REJECT

/-- A write of TIM_PTP_CFG (R349, R366): ignored with CFG_REJECT where a field lies outside R349; a change of DOMAIN makes
the next master a new master. -/
def State.ptpConfig (s : State) (value : Nat) : State :=
  let sgn (v : Nat) : Int := toSigned 4 v
  let within (a x b : Int) : Bool := decide (a ≤ x) && decide (x ≤ b)
  let ok := decide (bits value 7 0 ≤ 127) && within (-7) (sgn (bits value 11 8)) 0 && within (-3) (sgn (bits value 15 12)) 1 &&
    decide (2 ≤ bits value 19 16) && decide (bits value 19 16 ≤ 10) && within (-7) (sgn (bits value 23 20)) 0
  if !ok then s.raise F.TIM_EVT_CFG_REJECT
  else
    let old := s.get F.TIM_PTP_CFG_DOMAIN
    let s1 := s.put R.TIM_PTP_CFG (value % 2 ^ 25)
    if old = bits value 7 0 then s1
    else
      let s2 : State := { s1 with tim := { s1.tim with foreign := [] } }
      ((if s2.get F.TIM_STAT_SRC = 1 then s2.loseSource else { s2 with tim := { s2.tim with newNext := true } })).refreshPtp

def execPtpMessage (port : Fin 19) (m : PtpMessage) (s : State) : Host.Outcome State Fault Refusal := .next (doPtpMessage port.val m s)
def execSyncSend (s : State) : Host.Outcome State Fault Refusal := .next (doSyncSend s)
def execAnnounceSend (s : State) : Host.Outcome State Fault Refusal := .next (doAnnounceSend s)
def execDelayReqSend (s : State) : Host.Outcome State Fault Refusal := .next (doDelayReqSend s)
def execWclkEdge (s : State) : Host.Outcome State Fault Refusal := .next (doWclkEdge s)
def execHoldoverEnter (s : State) : Host.Outcome State Fault Refusal := .next (doHoldoverEnter s)
def execSlewDone (s : State) : Host.Outcome State Fault Refusal := .next (doSlewDone s)
def execStepped (s : State) : Host.Outcome State Fault Refusal := .next (doStepped s)
def execTimeSet (s : State) : Host.Outcome State Fault Refusal := .next (doTimeSet s)
def execApplyStep (s : State) : Host.Outcome State Fault Refusal := .next (doApplyStep s)

end Sys2Proof.Machine
end

