-- ==== Sys2Proof/Machine/DvoreLink.lean ====
section
/-! DEFINITION. The commands of DvoreLink: time, link delay, joins and grants, telemetry, reach, hold and dark. A
telemetry frame is one command, with the HOPS of the copy that arrived at each port. -/
namespace Sys2Proof.Machine
open Sys2Proof

/-! ## Time (R282, R283) -/

/-- TIME_FRAME (R282): every TIME_US a running ring sends its time from both ports. -/
def doTimeFrame (r : Nat) (s : State) : State :=
  match s.ringChan r with
  | none => s
  | some c =>
    let step := (s.ringAt r).timeStep
    (s.sendTime (s.live c) step).modRing r (fun x => { x with timeStep := false })

/-- The body of a LINK frame (R283). -/
def linkBody (op t2 t3 : Nat) : List Nat := [op, 0, 0, 0] ++ time12 t2 ++ time12 t3

/-- Send a LINK frame from a ring port: EPOCH, SEQ and ADDR 0 (R273, R274). -/
def State.sendLink (s : State) (l op t2 t3 : Nat) : State :=
  match s.ringChan (l / 2) with
  | none => s
  | some c => s.sendRingPort c (l % 2 == 1) kindLink false 0 0 0 (linkBody op t2 t3)

/-- LINK_DELAY_REQUEST (R283): every 100 ms a ring port measures its link. -/
def doLinkDelayRequest (l : Nat) (s : State) : State :=
  if (s.ringChan (l / 2)).isNone then s
  else
    let s1 := s.sendLink l 1 0 0
    if s.mayRing l then { s1 with dvl := { s1.dvl with asked := s1.dvl.asked.filter (fun q => q.1 != l) ++ [(l, s1.now)] } } else s1

/-- LINK_FRAME_RECEIVE (R283): a request is answered with its arrival and the answer's departure; an answer gives a
delay, of which the last 16 are kept. TP_ASYM of the port is added to the ingress correction (R354). -/
def doLinkFrameReceive (l op t2 t3 : Nat) (s : State) : State :=
  if (s.ringChan (l / 2)).isNone then s
  else if op = 1 then s.sendLink l 2 s.now s.now
  else if op = 2 then
    match s.dvl.asked.find? (fun q => q.1 == l) with
    | none => s
    | some q =>
      let t4 : Int := (s.now : Int) - toSigned 32 (s.get R.TP_ASYM l) * 256
      let d : Int := ((t4 - q.2) - ((t3 : Int) - t2)) / 2
      let old := ((s.dvl.delays.find? (fun p => p.1 == l)).map Prod.snd).getD []
      let new := (old ++ [d]).drop ((old.length + 1) - 16)
      { s with dvl := { s.dvl with asked := s.dvl.asked.filter (fun p => p.1 != l),
                                   delays := s.dvl.delays.filter (fun p => p.1 != l) ++ [(l, new)] } }
  else s

/-- The link delay in use: the mean of the last 16 values (R283). -/
def State.linkDelay (s : State) (l : Nat) : Option Int :=
  match s.dvl.delays.find? (fun p => p.1 == l) with
  | some (_, d :: ds) => some ((d :: ds).sum / ((d :: ds).length : Int))
  | _ => none

/-! ## Joins and grants (R292 to R294) -/

/-- A JOIN record in network order (R293). -/
def joinBytes (j : JoinRec) : List Nat :=
  [1, 32] ++ beBytes 8 j.serial ++ beBytes 4 j.model ++ beBytes 2 j.w ++ beBytes 2 j.h ++
  [j.depthMax, j.buffers, j.caps, j.proto] ++ beBytes 4 j.fw ++ List.replicate 6 0

/-- A GRANT from both ports of a ring (R281, R292), its RATE, BUCKET and LOSS_HOLD the live ones. -/
def State.sendGrant (s : State) (c : Chan) (serial pos : Nat) : State :=
  let v := s.live c
  s.sendControl c 0 s.seqNow opGrant 0
    (beBytes 8 serial ++ beBytes 2 pos ++ [v.telemRate, v.telemBucket] ++ beBytes 2 v.lossHold ++ [0, 0])

/-- The uptimes of a copy's arrival: at a port where a copy came, now; elsewhere as before. -/
def arrived (hops old : Option Nat) (up : Nat) : Option Nat := if hops.isSome then some up else old

/-- The chain length, where an endpoint's copies came to both ports (R292). -/
def State.learnLength (s : State) (r : Nat) (even odd : Option Nat) : State :=
  match even, odd with
  | some a, some b => s.put F.RG_STAT_LENGTH (a + 1 + b) r
  | _, _ => s

/-- The position of a sender of ADDR 0 (R292). -/
def State.positionOf (s : State) (r : Nat) (even odd : Option Nat) : Option Nat :=
  match even, odd with
  | some h, _ => some (h + 1)
  | none, some h => if s.chainLen r = 0 then none else some (s.chainLen r - h)
  | none, none => none

/-- The channels that name a position of a ring. -/
def State.chansAt (s : State) (r pos : Nat) : List Chan :=
  s.cmd.latched.filter (fun c => c.kind == kEndpoint && decide (c.st = .running) && c.epPosition == pos &&
    (ringOf s.cmd.latched c).any (fun q => q.ringNo == r))

/-- An endpoint is joined at a position: the record, the registers and the events (R292, R294, R301). What stood at that
position, and the same SERIAL at another position of the ring, has joined no longer: its record reads empty (DESIGN CHOICE: the
spec gives no other end of a join than link loss, of which the device hears nothing). -/
def State.joinEndpoint (s : State) (r pos : Nat) (j : JoinRec) (even odd : Option Nat) (bucket faults missed : Nat) : State :=
  let e : Joined :=
    { ring := r, pos := pos, join := joinBytes j, serial := j.serial, w := j.w, h := j.h, depthMax := j.depthMax,
      buffers := j.buffers, caps := j.caps, even := even.map (fun _ => s.uptime), odd := odd.map (fun _ => s.uptime),
      tokens := bucket, filled := s.uptime, overs := 0, faults := faults, missed := missed, lost := false }
  let gone (x : Joined) : Bool := x.ring == r && (x.pos == pos || x.serial == j.serial)
  let s0 := s.each (s.dvl.joined.filter gone) (fun x t => t.writeDisc x 0 0)
  let s1 : State := { s0 with dvl := { s0.dvl with joined := s0.dvl.joined.filter (fun x => !gone x) ++ [e] } }
  let s2 := (s1.writeBulk (discAddr r pos) e.join).writeBulkLe (discAddr r pos + 0x28) 8 (s1.now / 65536 / 1000000000)
  let cs := s2.chansAt r pos
  let s4 := s2.each cs (fun c t => t.calRejoin c)
  let bound := (cs.find? (fun c => (s4.boundTo s4.cmd.latched c).isSome)).map Chan.handle
  ((s4.raise F.DVL_EVT_JOIN).tally 0x0900 [r, pos, j.serial, bound.getD 0]).refreshDvl

/-- JOIN_REQUEST (R292): the position, the discovery record and a GRANT. A ring that is not running records none (R270);
a Standby remembers the request and waits for the Active's grant (R475). -/
def doJoinRequest (r : Nat) (even odd : Option Nat) (j : JoinRec) (faults missed : Nat) (s : State) : State :=
  match s.ringChan r with
  | none => s
  | some c =>
    if s.role = 2 then
      let rest := s.dvl.heard.filter (fun h => !(h.ring == r && (h.join.drop 2).take 8 == beBytes 8 j.serial))
      { s with dvl := { s.dvl with heard := rest ++ [{ ring := r, join := joinBytes j }] } }
    else
      let s1 := s.learnLength r even odd
      match s1.positionOf r even odd with
      | none => s1
      | some pos =>
        if 1 ≤ pos ∧ pos ≤ 512 then
          (s1.joinEndpoint r pos j even odd (s1.live c).telemBucket faults missed).sendGrant c j.serial pos
        else s1

/-- A Standby sees a GRANT pass its bypass (R475): the endpoint of that serial is joined at the address. -/
def State.observeGrant (s : State) (r serial pos bucket : Nat) : State :=
  match s.dvl.heard.find? (fun h => h.ring == r && (h.join.drop 2).take 8 == beBytes 8 serial) with
  | none => s
  | some h =>
    let f (o n : Nat) : Nat := ofBe ((h.join.drop o).take n)
    let j : JoinRec := { serial := serial, model := f 10 4, w := f 14 2, h := f 16 2, depthMax := f 18 1, buffers := f 19 1,
                         caps := f 20 1, proto := f 21 1, fw := f 22 4 }
    let s1 : State := { s with dvl := { s.dvl with heard := s.dvl.heard.filter (fun x => x != h) } }
    s1.joinEndpoint r pos j none none bucket 0 0

/-- GRANT_UPDATE (R270): a new GRANT to every joined endpoint of a ring. -/
def doGrantUpdate (r : Nat) (s : State) : State :=
  match s.ringChan r with
  | none => s
  | some c => s.each (s.dvl.joined.filter (fun j => j.ring == r)) (fun j t => t.sendGrant c j.serial j.pos)

/-! ## Telemetry (R295, R297) -/

/-- Fill a position's bucket: RATE tokens every 10 ms, up to BUCKET (R297). -/
def Joined.fill (j : Joined) (rate bucket up : Nat) : Joined :=
  let k := (up - j.filled) / tenMs
  { j with tokens := min bucket (j.tokens + k * rate), filled := j.filled + k * tenMs }

/-- One record of a telemetry frame, for the position and the channels bound there. -/
def State.telemRecord (s : State) (r pos : Nat) (cs : List Chan) : TelemRec → State
  | .join j => (s.modJoined r pos (fun x => { x with join := joinBytes j })).writeBulk (discAddr r pos) (joinBytes j)
  | .status _ faults missed _ _ _ _ _ =>
    match s.joinedAt r pos with
    | none => s
    | some old =>
      let n := (missed + 65536 - old.missed) % 65536
      let s1 := s.modJoined r pos (fun x => { x with faults := faults, missed := missed })
      s1.each cs (fun c t =>
        let t1 := t.put F.E_STAT_MISSED missed c.index
        let t2 := if n = 0 then t1
          else (t1.raise F.DVL_EVT_MISSED).tallyLimitedV (0x09060000 + c.index) oneSecond 0x0906 n (fun _ _ => [c.handle, n])
        if faults = old.faults then t2 else (t2.raise F.DVL_EVT_FAULT).tally 0x0907 [c.handle, faults])
  | .temp seq meas => s.each cs (fun c t => t.temperatureReport c (t.frameOfSeq seq) (mkRat meas 16))
  | .sensor wno lr lg lb valid sat fail =>
    s.each cs (fun c t => t.sensorReport c wno { light := [lr, lg, lb], valid := valid, sat := sat, fail := fail })
  | .linkstat _ _ crc => s.each cs (fun c t => t.put F.E_ERR_CRC crc c.index)
  | .other _ => s

/-- TELEMETRY_RECEIVE (R295, R297, R298): the bucket, the reach, and the records. -/
def doTelemetryReceive (r addr : Nat) (even odd : Option Nat) (records : List TelemRec) (s : State) : State :=
  match s.ringChan r, s.joinedAt r addr with
  | some c, some _ =>
    let v := s.live c
    let s1 := s.learnLength r even odd
    let s2 := s1.modJoined r addr (fun j =>
      let q := j.fill v.telemRate v.telemBucket s1.uptime
      { q with even := arrived even q.even s1.uptime, odd := arrived odd q.odd s1.uptime, lost := false })
    let cs := s2.chansAt r addr
    let tokens := ((s2.joinedAt r addr).map Joined.tokens).getD 0
    if tokens = 0 then
      let s3 := ((s2.bump R.RG_TELEM_DROP r).each cs (fun c t => t.bump F.E_ERR_OVER c.index)).raise F.DVL_EVT_OVER_RATE
      (s3.tallyLimited (0x09050000 + r * 512 + addr) (60 * oneSecond) 0x0905 (fun n => [r, addr, n])).refreshDvl
    else
      let s3 := (s2.modJoined r addr (fun j => { j with tokens := j.tokens - 1 })).bump R.RG_TELEM_RX r
      let bound := cs.filter (fun c => (s3.boundTo s3.cmd.latched c).isSome)
      (s3.each records (fun q t => t.telemRecord r addr bound q)).refreshDvl
  | _, _ => s

/-! ## Reach (R298) -/

/-- Three seconds, in ns. -/
def threeS : Nat := 3 * oneSecond

/-- REACH_TIMEOUT (R298): 3 s without telemetry from a position at a port. -/
def doReachTimeout (r pos : Nat) (odd : Bool) (s : State) : State :=
  match s.joinedAt r pos with
  | none => s
  | some j =>
    match (if odd then j.odd else j.even) with
    | none => s
    | some t =>
      let s1 := s.atUptime (t + threeS)
      let s2 := s1.modJoined r pos (fun x => if odd then { x with odd := none } else { x with even := none })
      let gone := ((s2.joinedAt r pos).map Joined.reach).getD 1 == 0
      let bound := (s2.chansAt r pos).filter (fun c => (s2.boundTo s2.cmd.latched c).isSome)
      if gone && !bound.isEmpty && !j.lost then
        let s3 := s2.modJoined r pos (fun x => { x with lost := true })
        (s3.each bound (fun c t => (t.raise F.DVL_EVT_LOST).tally 0x0902 [r, pos, c.handle])).refreshDvl
      else s2.refreshDvl

/-! ## Hold and dark (R281, R289) -/

/-- HOLD_FRAME (R289): every HOLD_MS while endpoints hold. -/
def doHoldFrame (r : Nat) (s : State) : State :=
  match s.ringChan r, s.holdDue with
  | some c, some q => s.sendHold c q.2 q.1
  | _, _ => s

/-- DARK_BROADCAST (R281): every HOLD_MS in Warm, with a PTIME already passed: the present device time (DESIGN CHOICE). -/
def doDarkBroadcast (r : Nat) (s : State) : State :=
  match s.ringChan r with
  | none => s
  | some c => if s.power = 1 then s.sendControl c 0xFFFF s.seqNow opDark s.now [] else s

def execTimeFrame (ring : Fin 8) (s : State) : Host.Outcome State Fault Refusal := .next (doTimeFrame ring.val s)
def execLinkDelayRequest (link : Fin 16) (s : State) : Host.Outcome State Fault Refusal := .next (doLinkDelayRequest link.val s)
def execLinkFrameReceive (link : Fin 16) (op t2 t3 : Nat) (s : State) : Host.Outcome State Fault Refusal :=
  .next (doLinkFrameReceive link.val op t2 t3 s)
def execJoinRequest (ring : Fin 8) (even odd : Option Nat) (join : JoinRec) (faults missed : Nat) (s : State) :
    Host.Outcome State Fault Refusal := .next (doJoinRequest ring.val even odd join faults missed s)
def execGrantUpdate (ring : Fin 8) (s : State) : Host.Outcome State Fault Refusal := .next (doGrantUpdate ring.val s)
def execTelemetryReceive (ring : Fin 8) (addr : Nat) (even odd : Option Nat) (records : List TelemRec) (s : State) :
    Host.Outcome State Fault Refusal := .next (doTelemetryReceive ring.val addr even odd records s)
def execReachTimeout (ring : Fin 8) (position : Nat) (odd : Bool) (s : State) : Host.Outcome State Fault Refusal :=
  .next (doReachTimeout ring.val position odd s)
def execHoldFrame (ring : Fin 8) (s : State) : Host.Outcome State Fault Refusal := .next (doHoldFrame ring.val s)
def execDarkBroadcast (ring : Fin 8) (s : State) : Host.Outcome State Fault Refusal := .next (doDarkBroadcast ring.val s)

end Sys2Proof.Machine
end

