-- ==== Sys2Proof/Machine/Engines.lean ====
section
/-! DEFINITION. The commands of the churn engines (R115 to R121): signature test, faults, reload, quarantine, retry. -/
namespace Sys2Proof.Machine
open Sys2Proof

/-- An engine is tested in place, without a stand-in (R115): in Warm, and in Hold where it carries no kind that runs
in Hold. -/
def State.testInPlace (s : State) (e : Nat) : Bool :=
  s.power == 1 || (s.power == 2 && !((s.section e).any (fun x => x.kinds.any (fun k => holdKind k.kind))))

/-- The engines of the structure in force in test rotation: those of the rotation first, then the others in number
order; the SPARE is not among them (R115). -/
def State.testRotation (s : State) : List Nat :=
  let all := (List.range 12).filter (fun e => s.spare != some e)
  s.sig.rotation.filter (fun e => all.contains e) ++ all.filter (fun e => !s.sig.rotation.contains e)

/-- SIG_TEST_START (R115, steps 1 to 3): the next engine of the rotation; the SPARE loads its section and writes its
reference. A SPARE that fails its ROM test is faulty (R116). -/
def doSigTestStart (spareOk : Bool) (reference : Word) (s : State) : State :=
  match s.spare with
  | none => s
  | some sp =>
    if s.sig.stopped || s.str.standin.isSome || s.sig.testing.isSome then s
    else match s.testRotation with
      | [] => if spareOk then s else s.spareFaulty sp
      | e :: rest =>
        if !spareOk then ((s.raise F.CE_EVT_SIG_FAIL e).tally 0x0201 [e, s.get R.CE_SIG_REF e, 0, 0]).spareFaulty sp
        else
          let s1 := s.setReg (R.CE_SIG_REF.addr e) reference
          let s2 := { s1 with sig := { s1.sig with testing := some e, rotation := rest, refNow := reference.toNat } }
          if s2.testInPlace e then (s2.loadStores sp (s2.section e)).put F.CE_STAT_STATE 5 e else s2.askSpare e .signature 0

/-- The engine's test may run: in place, or under an active stand-in once the engine holds no item in service (R115,
steps 3 and 4). -/
def State.testRuns (s : State) (e : Nat) : Bool :=
  match s.str.standin with
  | some d => d.engine == e && d.active && (s.serving e).isEmpty
  | none => true

/-- A signature test ends and the engine goes on (R115, step 5, R116): under a stand-in it takes back its role at the first
S(j) at least 200 µs later; `passed` says that the comparison passed. -/
def State.sigPass (s : State) (e : Nat) (passed : Bool) : State :=
  let s1 : State := { s with sig := { s.sig with testing := none } }
  let s2 := if passed then s1.modEng e (fun x => { x with passed := some s.uptime }) else s1
  match s2.str.standin with
  | some _ => (s2.put F.CE_STAT_STATE 3 e).takeBack e passed
  | none => s2.backInService e s2.frameNum passed

/-- SIG_TEST_DONE (R115 step 4, R116): the comparison, its repeat and the verdict: 0 the SPARE fails its ROM test, 1 its
references differ, 2 the engine is faulty, 3 the repeat matches (numbers of the model, in the order of the rule). The
repeat of step 2 writes its reference too. With a faulty SPARE the engine only goes on; it has not passed. -/
def doSigTestDone (signature : Word) (again : SigRepeat) (s : State) : State :=
  match s.sig.testing, s.spare with
  | some e, some sp =>
    if s.testRuns e = false then s
    else
      let fired := s.opportunity 0x04 e 0
      let sig := if fired.1 then signature ^^^ 1 else signature
      let s1 := fired.2.setReg (R.CE_SIG_LAST.addr e) sig
      if sig.toNat = s.sig.refNow then s1.sigPass e true
      else
        let s2 := (s1.detect 4).raise F.CE_EVT_SIG_FAIL e
        let fail (t : State) (verdict : Nat) := t.tally 0x0201 [e, s.sig.refNow, sig.toNat, verdict]
        let s3 := s2.setReg (R.CE_SIG_REF.addr e) again.reference
        if !again.spareOk then ((fail s2 0).sigPass e false).spareFaulty sp
        else if again.reference.toNat ≠ s.sig.refNow then ((fail s3 1).sigPass e false).spareFaulty sp
        else
          let s4 := s3.setReg (R.CE_SIG_LAST.addr e) again.signature
          if again.signature = again.reference then (fail s4 3).sigPass e true
          else
            let s5 := (fail s4 2).tally 0x0201 [e, s.sig.refNow, again.signature.toNat, 2]
            ({ s5 with sig := { s5.sig with testing := none } } : State).engineFault e 3
  | _, _ => s

/-- SIG_NOW (R115): the engine moves to the head of the rotation. -/
def doSigNow (e : Nat) (s : State) : State :=
  { s with sig := { s.sig with rotation := e :: (s.testRotation.filter (fun f => f != e)) } }

/-- An item has been in service on an engine for longer than T/8 (R117). -/
def State.overtime (s : State) (e : Nat) : Bool :=
  (s.serving e).any (fun p => decide (p.2.since + periodOf s.rate / 8 < s.now))

/-- ITEM_OVERTIME (R117, detector code 2): nothing where no item of the engine is overdue. -/
def doItemOvertime (e : Nat) (s : State) : State := if s.overtime e then s.engineFault e 2 else s

/-- CE_FAULT (R117, R118): a fault by one of the five detectors; a number that is no detector's names no fault. -/
def doCeFault (e code : Nat) (s : State) : State :=
  if code = 2 then doItemOvertime e s else if 1 ≤ code ∧ code ≤ 5 then s.engineFault e code else s

/-- CE_RELOAD (R118 to R120): a faulted engine is reloaded with its section and tested. Under a stand-in it is compared
with `reference`, what the SPARE computed on the section, which CE_SIG_REF takes; in place with the reference that
CE_SIG_REF holds. It rejoins, or takes back its role, at the first S(j) at least 200 µs later; otherwise it stays
faulty. A reload asked for by RETRY while the SPARE stands in ends that stand-in (R119). -/
def doCeReload (e : Nat) (reference signature : Word) (s : State) : State :=
  let covered := s.str.standin.any (fun d => d.engine == e)
  let asked := (s.engAt e).reloading.isSome
  if !asked && (!covered || s.get F.CE_STAT_STATE e != 1) then s
  else
    let held := if covered then s.setReg (R.CE_SIG_REF.addr e) reference else s
    let s1 := (held.loadStores e (held.section e)).setReg (R.CE_SIG_LAST.addr e) signature
    if signature = s1.reg (R.CE_SIG_REF.addr e) then
      let s2 := (s1.put F.CE_STAT_STATE 3 e).modEng e (fun x => { x with passed := some s.uptime, reloading := none })
      if s.str.standin.any (fun d => d.engine == e && decide (d.cause = .quarantine)) then s2
      else if covered then s2.takeBack e true
      else s2.modEng e (fun x => { x with rejoinAt := some (s.now + 200000 * 65536) })
    else (s1.put F.CE_STAT_STATE 4 e).modEng e (fun x => { x with reloading := none })

/-- CE_QUARANTINE (R121): the cause of a refusal, in the order of the rule, or 0. The SPARE that stands in for another
engine's signature test stands in for another engine; one that is only asked to test stands in for none. -/
def quarantineCause (e : Nat) (s : State) : Nat :=
  match s.spare with
  | none => 1
  | some sp =>
    if (s.str.standin.any (fun d => d.engine != e && (d.active || decide (d.cause ≠ .signature)))) ||
        s.get F.CE_STAT_STATE sp = 4 then 2
    else if 1 ≤ s.strPhase ∧ s.strPhase ≤ 5 then 3
    else if e = sp then 4
    else 0

/-- CE_QUARANTINE (R121): a stand-in from the first S(k) at least 5 ms after the write, or the hand-back after a
passing test. An engine that the SPARE stands in for already goes on being stood in for, as quarantined. -/
def doCeQuarantine (e : Nat) (on : Bool) (s : State) : State :=
  if on then
    let cause := quarantineCause e s
    let k := s.firstSFrom (s.now + 5000000 * 65536)
    if cause ≠ 0 then
      ((s.putFlag F.CE_CTL_QUARANTINE false e).raise F.CE_EVT_QUAR_REJECT e).tally 0x0202 [e, k, cause]
    else
      let s1 := (s.putFlag F.CE_CTL_QUARANTINE true e).tally 0x0202 [e, k, 0]
      match s1.str.standin with
      | some d =>
        if d.engine = e ∧ d.active = true then
          let t : State := { s1 with str := { s1.str with standin := some { d with cause := .quarantine, readyAt := none, passed := false } },
                                     sig := { s1.sig with testing := none } }
          if t.get F.CE_STAT_STATE e = 5 then t.put F.CE_STAT_STATE 3 e else t
        else s1.endTesting.askSpare e .quarantine 5000000
      | none => s1.endTesting.askSpare e .quarantine 5000000
  else
    let s1 := s.putFlag F.CE_CTL_QUARANTINE false e
    match s1.str.standin with
    | some d =>
      if d.engine = e ∧ d.cause = .quarantine then
        if d.active = false then { s1 with str := { s1.str with standin := none } }
        else if s1.get F.CE_STAT_STATE e = 1 ∨ s1.get F.CE_STAT_STATE e = 4 then
          { s1 with str := { s1.str with standin := some { d with cause := .fault } } }
        else
          ({ s1 with sig := { s1.sig with testing := some e, refNow := s1.get R.CE_SIG_REF e } } : State).showTesting e
      else s1
    | none => s1

/-- CE_RETRY (R119): a faulty engine is reloaded and tested in place; another engine takes no notice. -/
def doCeRetry (e : Nat) (s : State) : State :=
  if s.get F.CE_STAT_STATE e = 4 then s.reloadInPlace e 3 else s

def execSigTestStart (spareOk : Bool) (reference : Word) (s : State) : Host.Outcome State Fault Refusal :=
  .next (doSigTestStart spareOk reference s)
def execSigTestDone (signature : Word) (again : SigRepeat) (s : State) : Host.Outcome State Fault Refusal :=
  .next (doSigTestDone signature again s)
def execSigNow (engine : Fin 12) (s : State) : Host.Outcome State Fault Refusal := .next (doSigNow engine.val s)
def execCeFault (engine : Fin 12) (code : Nat) (s : State) : Host.Outcome State Fault Refusal :=
  .next (doCeFault engine.val code s)
def execItemOvertime (engine : Fin 12) (s : State) : Host.Outcome State Fault Refusal :=
  .next (doItemOvertime engine.val s)
def execCeReload (engine : Fin 12) (signature : TestRun) (s : State) : Host.Outcome State Fault Refusal :=
  .next (doCeReload engine.val signature.reference signature.signature s)
def execCeQuarantine (engine : Fin 12) (on : Bool) (s : State) : Host.Outcome State Fault Refusal :=
  .next (doCeQuarantine engine.val on s)
def execCeRetry (engine : Fin 12) (s : State) : Host.Outcome State Fault Refusal := .next (doCeRetry engine.val s)

end Sys2Proof.Machine
end

