-- ==== Sys2Proof/Machine/PairLink.lean ====
section
/-! DEFINITION. What two devices of a pair say to each other (R465 to R467), the roles (R462, R464, R469), and a Standby's
readiness (R477). -/
namespace Sys2Proof.Machine
open Sys2Proof

/-- Change the pair's state. -/
def State.modRed (s : State) (f : Red → Red) : State := { s with red := f s.red }

/-- Change one bell. -/
def State.modBell (s : State) (b : Bool) (f : Bell → Bell) : State :=
  s.modRed (fun r => if b then { r with bellB := f r.bellB } else { r with bellA := f r.bellA })

/-- One bell: false Bell A, true Bell B. -/
def State.bell (s : State) (b : Bool) : Bell := if b then s.red.bellB else s.red.bellA

/-- Pair use is on. -/
def State.paired (s : State) : Bool := s.flag F.RED_CTL_PAIR_EN
/-- The heartbeat ROLE: 0 seeking or Solo, 1 Active, 2 Standby, 3 fenced. -/
def State.redRole (s : State) : Nat := s.get F.RED_STAT_ROLE
/-- FENCE_IN is qualified. -/
def State.fencedIn (s : State) : Bool := s.flag F.RED_STAT_FENCE_IN
/-- The device is seeking (R462). -/
def State.seeking (s : State) : Bool := s.paired && s.redRole == 0

/-! ## Heartbeats (R465, R467) -/

/-- SENT_BAND of the frame of SEQ: the highest band whose frames have left, 0xFFFF for none, 0xFFFE for all. -/
def State.sentBand (s : State) : Nat :=
  match (s.frameOfSeq s.seqNow).bind s.frameWork with
  | none => 0xFFFF
  | some w =>
    let total := max 1 (bandSequence w.regions).length
    if w.bandsSent = 0 then 0xFFFF else if total ≤ w.bandsSent then 0xFFFE else w.bandsSent - 1

/-- The outputs are muted: neither Solo nor Active, or in bypass. -/
def State.muted (s : State) : Bool := decide (s.role = 2) || s.red.bypass

/-- Bytes 0 to 13 of a heartbeat. -/
def State.heartbeatBytes (s : State) (no : Nat) (handover : Bool) : List Nat :=
  let bit (b : Bool) (n : Nat) : Nat := if b then 2 ^ n else 0
  let flags := s.redRole + bit (s.flag F.RED_STAT_READY) 2 + bit s.red.fault 3 + bit handover 4 + bit s.muted 5 +
    bit s.red.ftog 6 + bit (s.flag F.RED_CTL_PRIMARY) 7
  [1, flags] ++ beBytes 2 no ++ beBytes 4 s.seqNow ++ beBytes 4 (s.get R.DVL_EPOCH) ++
    beBytes 2 (if handover then 0xFFFE else s.sentBand)

/-- Send a Bell A heartbeat (R465); detector 0x1E inverts its CRC. -/
def State.sendBellA (s : State) (handover : Bool) : State :=
  let q := s.opportunity 0x1E 0 0
  let t := q.2
  let b := t.heartbeatBytes t.red.bellA.sent handover
  let crc := crc16 b
  (t.emit (.bellA (b ++ beBytes 2 (if q.1 then crc ^^^ 0xFFFF else crc)))).modBell false (fun x => { x with sent := (x.sent + 1) % 65536 })

/-- The link that carries Bell B (R85, R370). -/
def State.bellLink (s : State) : Option Nat :=
  ((List.range 19).find? (fun p => s.hasRole p 3)).bind (fun p => (s.portLinks p).head?)

/-- The address that Bell B frames go to (R466). -/
def State.peerMac (s : State) : Nat :=
  let m := s.get R.RED_PEER_MAC_LO + s.get R.RED_PEER_MAC_HI % 65536 * 2 ^ 32
  if m = 0 then 0x0344564C0002 else m

/-- A Bell B frame after its EtherType (R466). -/
def State.bellBody (s : State) (kind : Nat) (body : List Nat) : List Nat :=
  let b := [16 + kind, 0] ++ beBytes 2 body.length ++ beBytes 8 s.clockId ++ [0, 0, 0, 0] ++ body
  b ++ beBytes 4 (crcSeeded (crcAlgOf 0) (0xFFFFFFFF ^^^ (kind * 2 ^ 24)) b)

/-- Send a Bell B frame (R466); detector 0x1F inverts its CRC. -/
def State.sendBellB (s : State) (kind : Nat) (body : List Nat) : State :=
  match s.bellLink with
  | none => s
  | some l =>
    let q := s.opportunity 0x1F 0 0
    let b := q.2.bellBody kind body
    let n := b.length
    let b1 := if q.1 then b.take (n - 4) ++ (b.drop (n - 4)).map (fun x => x ^^^ 255) else b
    q.2.txFrame l 0 (etherFrame q.2.peerMac (q.2.linkMac l) (q.2.get F.RED_BELLB_ETYPE) b1)

/-- The 12-byte time of a Bell B heartbeat, which is that of DvoreLink (R282). -/
def State.bellTime (ns : Nat) : List Nat := time12 (ns * 65536)

/-- Send a Bell B heartbeat (R467). -/
def State.sendHeartbeatB (s : State) (handover : Bool) : State :=
  let echo := (s.red.origin.map Prod.fst).getD 0
  let dwell := match s.red.origin with
    | some o => s.nowNs - o.2
    | none => 0
  let body := s.heartbeatBytes s.red.bellB.sent handover ++ [0, 0] ++ State.bellTime s.nowNs ++ State.bellTime echo ++ beBytes 4 dwell ++
    beBytes 4 (s.get R.RED_MSEQ)
  (s.sendBellB 1 body).modBell true (fun x => { x with sent := (x.sent + 1) % 65536 })

/-- Both bells carry what must reach the partner at once: FAULT, or HANDOVER. -/
def State.ringBells (s : State) (handover : Bool) : State := (s.sendBellA handover).sendHeartbeatB handover

/-- On an Active, a pair-fatal happening mutes the device and sends FAULT (R469). -/
def State.failPair (s : State) : State := if s.role = 1 then (s.pairFatal).ringBells false else s

/-! ## Output signatures (R484) -/

/-- The signatures of the running endpoints of a frame, in ascending INDEX; 0xFFFF_FFFF for one sent as REPEAT. -/
def FrameWork.signatures (w : FrameWork) : List (Nat × Nat) :=
  (w.running kEndpoint).map (fun c =>
    let e := w.sumsOf c.index
    (c.index, if e.repeated then 0xFFFFFFFF else bitReverse 32 e.sig ^^^ 0xFFFFFFFF))

/-- SIGNATURES frames of frame n, 1,024 signatures each; detector 0x21 inverts bit 0 of one signature in what is sent. -/
def State.sendSignatures (s : State) (n : Nat) : State :=
  match s.frameWork n with
  | none => s
  | some w =>
    if s.paired && decide (s.redRole = 1 ∨ s.redRole = 2) && w.active then
      let sigs := w.signatures
      let own : FrameSigs := { frame := n, stateId := w.stateId, sigs := sigs }
      let s1 := s.modRed (fun r => { r with own := own :: r.own.take 7 })
      let q := match s1.flt.armed with
        | some a => if sigs.any (fun x => x.1 == a.arg) then ((s1.opportunity 0x21 0 a.arg).1, a.arg, (s1.opportunity 0x21 0 a.arg).2) else (false, 0, s1)
        | none => (false, 0, s1)
      let sent := sigs.map (fun x => (x.1, if q.1 && x.1 == q.2.1 then x.2 ^^^ 1 else x.2))
      q.2.2.each (List.range (max 1 (ceilDiv sent.length 1024))) (fun k t =>
        let part := (sent.drop (1024 * k)).take 1024
        t.sendBellB 4 (beBytes 4 ((t.seqOf n).getD t.seqNow) ++ beBytes 8 n ++ beBytes 4 (w.stateId % 2 ^ 32) ++
          beBytes 2 (((part.head?).map Prod.fst).getD 0) ++ beBytes 2 part.length ++ part.flatMap (fun x => beBytes 4 x.2)))
    else s

/-! ## Snapshots (R487) -/

/-- The gains and failed marks of the endpoints and lamp groups. -/
def State.snapGains (s : State) : List SnapGain :=
  (s.cmd.chans.filter (fun c => c.kind == kEndpoint || c.kind == kDdgroup)).map (fun c =>
    { kind := c.kind, index := c.index, gains := (List.range 3).map (fun k => s.memberGain c.kind c.index k),
      failed := s.flag (fFailed c.kind) c.index })

/-- The snapshot of S(k). -/
def State.snapshotOf (s : State) (k : Nat) : Snapshot :=
  { frame := k, chans := s.cmd.chans, gens := s.cmd.gens, freed := s.cmd.freed, used := s.cmd.used, sets := s.cmd.sets,
    cues := s.cmd.cues, deferred := s.cmd.deferred, flight := s.cmd.flight, nextId := s.cmd.nextId, gains := s.snapGains,
    govEps := s.gov.eps, govFeeds := s.gov.feeds, univs := s.fix.univ, syncs := s.fix.syncs, epoch := s.get R.DVL_EPOCH,
    seq := s.seqNow, mseq := (s.red.mseq + 2 ^ 32 - 1) % 2 ^ 32, latches := s.cmd.latches }

/-- An Active that has promised a snapshot freezes and sends it at S(n) (R487). -/
def State.sendSnapshot (s : State) (n : Nat) : State :=
  match s.red.sends with
  | none => s
  | some _ =>
    ((s.emit (.snapshot (s.snapshotOf n))).put F.RED_RESYNC_PROGRESS 65535).modRed (fun r => { r with sends := none, lag := false })

/-! ## Readiness (R477) -/

/-- The causes of RED_NOT_READY on a Standby. -/
def State.notReadyCauses (s : State) : Nat :=
  let bit (b : Bool) (n : Nat) : Nat := if b then 2 ^ n else 0
  let p := s.red.partner
  let st := s.get F.TIM_STAT_STATE
  let off := toSigned 32 (s.get R.RED_OFFSET)
  let mode := s.red.info.any (fun i => i.power != s.power || i.frate != s.rate || (i.prec == 1) != s.skim)
  let eng := (List.range 12).any (fun e => s.get F.CE_STAT_STATE e == 4 && s.get F.CE_STAT_STANDIN_BY e == 15)
  let area := s.mem.bad.any (fun h => decide (reserveA ≤ 32 * h))
  bit (!p.any (fun h => h.role == 1)) 0 + bit (s.red.bellB.silent.isSome) 1 + bit s.red.fenceAlarm 2 +
  bit (mode || s.red.noFollow) 3 +
  bit (s.red.info.any (fun i => i.image != s.get64 R.STR_ID_LO)) 4 + bit (s.red.info.any (fun i => !i.fwOk)) 5 +
  bit (!(st == 2 || st == 3) || decide (250 < off) || decide (off < -250) || s.tim.diverged) 6 +
  bit (s.red.lag || p.any (fun h => h.seq != s.seqNow || h.epoch != s.get R.DVL_EPOCH)) 7 +
  bit s.red.resync.isSome 8 + bit s.red.sigAlarm 9 + bit (eng || !s.red.loopFail.isEmpty || area) 10

/-- RED_NOT_READY and READY follow what they depend on; a change of READY is recorded. On a device that is no Standby,
NO_ACTIVE alone is set. -/
def State.refreshReady (s : State) : State :=
  let causes := if s.redRole = 2 then s.notReadyCauses else 1
  let ready := decide (s.redRole = 2) && decide (causes = 0)
  let was := s.flag F.RED_STAT_READY
  let s1 := (s.put F.RED_NOT_READY_CAUSES causes).putFlag F.RED_STAT_READY ready
  if ready = was then s1 else (s1.raise F.RED_EVT_READY_CHANGE).tally 0x1107 [causes]

/-! ## Roles (R462, R464, R469) -/

/-- Take a role: ROLE of SYS_MODE_STAT and ROLE of the heartbeats. -/
def State.takeRole (s : State) (role red : Nat) : State := ((s.put F.SYS_MODE_STAT_ROLE role).put F.RED_STAT_ROLE red).refreshReady

/-- The device's epoch advances; the first epoch after a reset is no advance. -/
def State.advanceEpoch (s : State) (new : Nat) : State :=
  let old := s.get R.DVL_EPOCH
  let t := s.put R.DVL_EPOCH new
  if old = 0 ∨ old = new then t else t.tally 0x0908 [old, new, t.seqNow]

/-- The epoch of a device that becomes Solo or Active other than by takeover (R464). -/
def State.freshEpoch (s : State) : State := s.advanceEpoch (s.red.epochHeard + 1)

/-- Ring ports leave bypass and outputs may run (R478). -/
def State.unmute (s : State) : State := s.modRed (fun r => { r with fault := false, bypass := false, sacnStop := false })

/-- The device starts in its pair as seeking, or alone as Solo (R462, R501). -/
def State.startPair (s : State) : State :=
  if s.paired then
    (s.modRed (fun r => { r with bypass := true, seekFrom := s.uptime, follows := false })).takeRole 2 0
  else ((s.modRed (fun r => { r with fault := false, bypass := false, sacnStop := false, follows := false })).takeRole 0 0).freshEpoch

end Sys2Proof.Machine
end

