-- ==== Sys2Proof/Machine/Network.lean ====
section
/-! DEFINITION. The commands of the network ports (R373 to R387): reception, pause, equalisation, links, ARP and the exact
entries of the Strainer. -/
namespace Sys2Proof
open Sys2Proof.Machine

/-! ## A received frame -/

/-- A number of n bytes, highest first, at an offset of a frame. -/
def RxFrame.be (f : RxFrame) (o n : Nat) : Nat := ofBe ((f.bytes.drop o).take n)
/-- Destination address. -/
def RxFrame.dst (f : RxFrame) : Nat := f.be 0 6
/-- Source address. -/
def RxFrame.src (f : RxFrame) : Nat := f.be 6 6
/-- The frame carries an IEEE 802.1Q tag (R373). -/
def RxFrame.tagged (f : RxFrame) : Bool := f.be 12 2 == 0x8100
/-- VID; 0 for an untagged frame, which a frame with VID 0 counts as (R373). -/
def RxFrame.vid (f : RxFrame) : Nat := if f.tagged then f.be 14 2 % 4096 else 0
/-- Offset of the EtherType. -/
def RxFrame.typeAt (f : RxFrame) : Nat := if f.tagged then 16 else 12
/-- EtherType. -/
def RxFrame.etype (f : RxFrame) : Nat := f.be f.typeAt 2
/-- The bytes after the EtherType, without the FCS. -/
def RxFrame.payload (f : RxFrame) : List Nat := (f.bytes.take (f.bytes.length - 4)).drop (f.typeAt + 2)
/-- The FCS is right. -/
def RxFrame.fcsOk (f : RxFrame) : Bool :=
  let n := f.bytes.length
  f.bytes.drop (n - 4) == leBytes 4 (etherFcs (f.bytes.take (n - 4)))

/-- The failing tests of R374, steps 1 to 3, as FLAGS bits of R375. -/
def RxFrame.flags (f : RxFrame) : Nat :=
  let n := f.bytes.length
  (if f.codeBad then 1 else 0) + (if n < 64 then 2 else 0) + (if 9216 < n then 4 else 0) + (if f.fcsOk then 0 else 8)

end Sys2Proof

namespace Sys2Proof.Machine
open Sys2Proof

/-- Write a failing frame into the capture ring (R375). -/
def State.capture (s : State) (l : Nat) (f : RxFrame) : State :=
  let n := f.bytes.length
  let wr := s.get R.NET_CAP_WR
  let a := captureRing + (wr % 8192) * 128
  let flags := f.flags + (if 112 < n then 16 else 0)
  let t := s.now
  let data := (f.bytes ++ List.replicate 112 0).take 112
  let rec_ := [l, flags] ++ leBytes 2 (min 9216 n) ++ leBytes 6 (t / 65536 / 1000000000) ++ leBytes 4 (t / 65536 % 1000000000) ++
    leBytes 2 (t % 65536) ++ data
  (s.writeBulk a rec_).put R.NET_CAP_WR (wr + 1)

/-- A destination passes the Strainer of a link (R376). -/
def State.strainerPass (s : State) (l : Nat) (f : RxFrame) : Bool :=
  let d := f.dst
  let p := linkPort l
  d == s.linkMac l || (d == 0xFFFFFFFFFFFF && f.etype == 0x0806) || (s.hasRole p 4 && d == 0x01005E000181) ||
  (s.hasRole p 0 && d == 0x01005E000001) || (s.hasRole p 1 && (d == 0x0344564C0000 || d == 0x0344564C0001)) ||
  (s.hasRole p 3 && (s.portLinks p).head? == some l && d == 0x0344564C0002) ||
  (s.linkAt l).exact.any (fun q => q.2 == d) ||
  (bitAt d 40 && s.binOpen l (macBin d))

/-- A PAUSE or PFC frame holds the transmitter (R380): quanta of 512 bit times; a new one replaces the time left. -/
def State.pauseFrame (s : State) (l : Nat) (f : RxFrame) (pfc : Bool) : State :=
  let s1 := s.bump R.NL_PAUSE_RX l
  let q := quantumOf (s.portSpeed (linkPort l))
  let o := f.typeAt + 4
  if s1.uptime < (s1.linkAt l).ignoreUntil then s1
  else if pfc then
    let mask := f.be o 2
    let times := (List.range 8).map (fun p => f.be (o + 2 + 2 * p) 2)
    (s1.modLink l (fun k => { k with pfcUntil := (List.range 8).map (fun p =>
      if bitAt mask p then s1.uptime + times.getD p 0 * q / 100 else k.pfcUntil.getD p 0) })).settleLink l
  else (s1.modLink l (fun k => { k with pauseUntil := s1.uptime + f.be o 2 * q / 100 })).settleLink l

/-! ## The consumers (R374, step 6) -/

/-- What becomes of a frame that has passed the Strainer. -/
inductive Claim where
  | taken          -- passed to a consumer
  | ownCopy        -- a Solo or Active device's own frame returned round the ring: discarded uncounted
  | filtered       -- an ingest link's path match fails (R156)
  | unclaimed
  deriving DecidableEq, Repr

/-- A UDP frame matches a path of a running stream of a port: group, source, UDP port, VLAN and payload type (R156). -/
def State.pathMatch (s : State) (port : Nat) (dst src dport vid pt : Nat) : Bool :=
  (s.running kStream).any (fun c => !c.stored && [false, true].any (fun b =>
    let q := c.path b
    let f (o n : Nat) : Nat := (q / 256 ^ o) % 256 ^ n
    c.hasPath b && c.pathPort b == port && f 0 4 == dst && (f 4 4 == 0 || f 4 4 == src) && f 8 2 == dport && f 11 1 == pt &&
      f 12 2 == vid))

/-- The consumer of a frame on a link. -/
def State.claim (s : State) (l : Nat) (f : RxFrame) : Claim :=
  let p := linkPort l
  let first := (s.portLinks p).head? == some l
  let y := f.payload
  let b (o n : Nat) : Nat := ofBe ((y.drop o).take n)
  if f.etype = 0x0806 then .taken
  else if s.hasRole p 1 ∧ (s.ringChan (l / 2)).any (fun c => c.ringEtype == f.etype) then
    if f.dst = 0x0344564C0000 ∧ s.role ≠ 2 then .ownCopy else .taken
  else if s.hasRole p 3 ∧ first ∧ f.dst = 0x0344564C0002 ∧ f.etype = s.get F.RED_BELLB_ETYPE then .taken
  else if f.etype = 0x0800 then
    let proto := b 9 1
    let ihl := (b 0 1 % 16) * 4
    let dport := b (ihl + 2) 2
    if proto = 1 then .taken
    else if proto = 17 ∧ (dport = 319 ∨ dport = 320) ∧ s.hasRole p 4 ∧ first ∧ (s.ringChan (l / 2)).isNone then .taken
    else if proto = 2 ∧ s.hasRole p 0 then .taken
    else if proto = 17 ∧ s.hasRole p 0 then
      if s.pathMatch p (b 16 4) (b 12 4) dport f.vid (b (ihl + 9) 1 % 128) then .taken else .filtered
    else if s.hasRole p 5 then .taken
    else .unclaimed
  else if s.hasRole p 5 then .taken
  else .unclaimed

/-- An ARP packet (R371, R372): a request for the link's address is answered, an answer of a next hop is kept 300 s. -/
def State.arpPacket (s : State) (l : Nat) (f : RxFrame) : State :=
  let y := f.payload
  let b (o n : Nat) : Nat := ofBe ((y.drop o).take n)
  let ip := s.get R.NL_IP l
  if ip = 0 then s
  else if b 6 2 = 1 ∧ b 24 4 = ip then
    s.txFrame l 0 (etherFrame (b 8 6) (s.linkMac l) 0x0806
      ([0, 1, 8, 0, 6, 4, 0, 2] ++ beBytes 6 (s.linkMac l) ++ beBytes 4 ip ++ beBytes 6 (b 8 6) ++ beBytes 4 (b 14 4)))
  else if b 6 2 = 2 ∧ ((s.linkAt l).arpWait.any (fun w => w.ip == b 14 4) || (s.linkAt l).arp.any (fun a => a.ip == b 14 4)) then
    let from_ := b 14 4
    s.modLink l (fun k => { k with
      arpWait := k.arpWait.filter (fun w => w.ip != from_),
      arp := k.arp.filter (fun a => a.ip != from_) ++ [{ ip := from_, mac := b 8 6, until_ := s.uptime + 300 * oneSecond }] })
  else s

/-- An ICMP echo request to the link's address is answered, up to 100 per second (R371). -/
def State.icmpPacket (s : State) (l : Nat) (f : RxFrame) : State :=
  let y := f.payload
  let b (o n : Nat) : Nat := ofBe ((y.drop o).take n)
  let ihl := (b 0 1 % 16) * 4
  let total := b 2 2
  let icmp := (y.take total).drop ihl
  if b 16 4 = s.get R.NL_IP l ∧ s.get R.NL_IP l ≠ 0 ∧ icmp.headD 0 = 8 then
    let k := s.linkAt l
    let fresh := decide (k.icmpFrom + oneSecond ≤ s.uptime)
    let n := if fresh then 0 else k.icmpCount
    if n < 100 then
      let s1 := s.modLink l (fun x => { x with icmpFrom := if fresh then s.uptime else x.icmpFrom, icmpCount := n + 1 })
      let body (c : Nat) : List Nat := [0, 0] ++ beBytes 2 c ++ icmp.drop 4
      (s1.sendIp l (b 12 4) 1 (body (inetSum (body 0)))).1
    else s
  else s

/-- The DvoreLink frame in a received frame passes R275. -/
def dvlOk (y : List Nat) : Bool :=
  let b (o n : Nat) : Nat := ofBe ((y.drop o).take n)
  let kind := b 0 1 % 16
  let len := b 2 2
  let body := (y.drop 16).take len
  let zeroed := if kind = kindTime then body.take 12 ++ List.replicate 8 0 ++ body.drop 20 else body
  let covered := y.take 4 ++ [0, 0] ++ (y.drop 6).take 10 ++ zeroed
  b 0 1 / 16 == 1 && decide (20 + len ≤ y.length) &&
    b (16 + len) 4 == crcSeeded (crcAlgOf 0) (0xFFFFFFFF ^^^ ((b 6 2 * 65536) ||| (kind * 4096) ||| b 12 4 % 4096)) covered

/-- A DvoreLink frame that reaches its consumer: a bad one is counted; a Standby learns grants and sequences from the
Active's frames (R475). What an endpoint sends is the business of the commands for it. -/
def State.dvlPacket (s : State) (l : Nat) (f : RxFrame) : State :=
  let r := l / 2
  let y := f.payload
  let b (o n : Nat) : Nat := ofBe ((y.drop o).take n)
  let inj := s.opportunity 0x1C r 0
  if inj.1 = true ∨ dvlOk y = false then (inj.2.detect 0x1C).bump R.RG_RX_ERR r
  else if s.role = 2 ∧ f.dst = 0x0344564C0000 ∧ b 0 1 % 16 = kindControl ∧ b 16 1 = opGrant then
    s.observeGrant r (b 32 8) (b 40 2) (b 43 1)
  else s

/-- The wake pattern that a good frame matches (R386): 2 FRAME, 3 UDP. -/
def State.wakeMatch (s : State) (f : RxFrame) : Option Nat :=
  let key := (List.range 4).flatMap (fun k => beBytes 4 (s.get R.NET_WAKE_KEY k))
  let y := f.payload
  let b (o n : Nat) : Nat := ofBe ((y.drop o).take n)
  let ihl := (b 0 1 % 16) * 4
  let toUs := f.dst == s.linkMac 24 || f.dst == 0xFFFFFFFFFFFF
  if key.all (fun k => k == 0) || !f.fcsOk || !toUs then none
  else if s.flag F.NET_WAKE_CTL_FRAME_EN && f.etype == s.get R.NET_WAKE_ETYPE % 65536 && y.take 16 == key then some 2
  else if s.flag F.NET_WAKE_CTL_UDP_EN && f.etype == 0x0800 && b 9 1 == 17 &&
      (b 16 4 == s.get R.NL_IP 24 || b 16 4 == 0xFFFFFFFF) && b (ihl + 2) 2 == s.get F.NET_WAKE_CTL_UDP_PORT &&
      (y.drop (ihl + 8)).take 16 == key then some 3
  else none

/-- A damaged frame (R374): captured where ERR_DELIVER says so, counted by its damage. -/
def State.damagedFrame (s : State) (l : Nat) (f : RxFrame) : State :=
  let n := f.bytes.length
  let cap := if s.flag F.NL_CTL_ERR_DELIVER l then s.capture l f else s
  let ring := if s.hasRole (linkPort l) 1 && bitAt f.flags 3 && (s.ringChan (l / 2)).isSome then cap.bump R.RG_RX_ERR (l / 2) else cap
  if f.codeBad then (ring.detect 0x1A).bump R.NL_CODE_ERR l
  else if n < 64 then ring.bump R.NL_RUNT l
  else if 9216 < n then ring.bump R.NL_OVERSIZE l
  else (ring.detect 0x1B).bump R.NL_FCS_ERR l

/-- A frame that a consumer takes (R376): counted, and passed on. -/
def State.takeFrame (s : State) (l : Nat) (f : RxFrame) : State :=
  let s3 := (s.add64 R.NL_RX_FRAMES_LO 1 l).add64 R.NL_RX_BYTES_LO f.bytes.length l
  if f.etype = 0x0806 then s3.arpPacket l f
  else if f.etype = 0x0800 ∧ ofBe ((f.payload.drop 9).take 1) = 1 then s3.icmpPacket l f
  else if s3.hasRole (linkPort l) 1 ∧ (s3.ringChan (l / 2)).any (fun c => c.ringEtype == f.etype) then s3.dvlPacket l f
  else s3

/-- A frame as it reaches the MAC: damaged, a pause frame, strained, unclaimed or taken. -/
def State.frameArrives (s : State) (l : Nat) (f : RxFrame) : State :=
  if f.flags ≠ 0 then s.damagedFrame l f
  else if f.etype = 0x8808 then
    let op := f.be (f.typeAt + 2) 2
    if op = 1 then s.pauseFrame l f false
    else if op = 0x0101 then s.pauseFrame l f true
    else s.bump R.NL_STRAINED l
  else if s.strainerPass l f = false then s.bump R.NL_STRAINED l
  else
    match s.claim l f with
    | .unclaimed => s.bump R.NL_UNCLAIMED l
    | .ownCopy => s
    | .filtered => s.bump R.ING_FILTERED
    | .taken => s.takeFrame l f

/-- FRAME_RECEIVE (R374): the steps in order; the first that rejects the frame stops it. -/
def doFrameReceive (l : Nat) (f0 : RxFrame) (s : State) : State :=
  if s.dormant || !s.linkUp l then s
  else
    let code := s.opportunity 0x1A l 0
    let fcs := code.2.opportunity 0x1B l 0
    let f : RxFrame := { f0 with
      codeBad := f0.codeBad || code.1,
      bytes := if fcs.1 then f0.bytes.dropLast ++ [(f0.bytes.getLast?.getD 0) ^^^ 1] else f0.bytes }
    let s1 := ((fcs.2.add R.NL_FEC_CORR f.fecCorr l).add R.NL_FEC_UNCORR f.fecUncorr l).settleLink l
    let s2 := if l = 24 ∧ (s1.wakeMatch f).isSome then s1.bump F.NET_WAKE_STAT_SEEN else s1
    s2.frameArrives l f

/-! ## Pause (R382) -/

/-- WDOG of a link in ns; below 100 µs acts as 100 µs. -/
def State.wdogNs (s : State) (l : Nat) : Nat := max 100 (s.get F.NL_CTL_WDOG l) * 1000

/-- PAUSE_BREAK (R382): a frame has waited through a hold of WDOG µs without a break. -/
def doPauseBreak (l : Nat) (s : State) : State :=
  match (s.linkAt l).heldFrom with
  | none => s
  | some t =>
    if (s.linkAt l).queue.isEmpty ∨ s.holdEnd l < t + s.wdogNs l then s
    else
      let s1 := s.atUptime (t + s.wdogNs l)
      let mask := s1.heldMask l
      let us := (s1.uptime - t) / 1000
      let s2 := (s1.add R.NL_PAUSE_US us l).modLink l (fun k => { k with
        heldFrom := none, pauseUntil := 0, pfcUntil := List.replicate 8 0, ignoreUntil := s1.uptime + 100000000 })
      let s3 := (((s2.putFlag F.NL_STAT_PAUSED false l).putFlag F.NL_STAT_PAUSE_IGNORED true l).raise F.NET_EVT_PAUSE_BREAK).bump
        R.NL_PAUSE_BREAKS l
      (s3.tallyLimited (0x0D020000 + l) oneSecond 0x0D02 (fun _ => [l, us, mask])).flushQueue l

/-- PAUSE_BREAK_END (R382): after 100 ms the link obeys again. -/
def doPauseBreakEnd (l : Nat) (s : State) : State :=
  if s.flag F.NL_STAT_PAUSE_IGNORED l then
    (s.atUptime (s.linkAt l).ignoreUntil).putFlag F.NL_STAT_PAUSE_IGNORED false l
  else s

/-! ## Equalisation (R383, R384) -/

/-- An eye as a payload item: the layout of NL_EYE. -/
def eyeWord (w h : Nat) : Nat := w % 128 + h % 1024 * 256

/-- EYE_MEASURE (R383, R384): the latest figure of a lane; the tenth low one in a row starts a retrain. -/
def doEyeMeasure (l w h : Nat) (s : State) : State :=
  let s1 := (s.put F.NL_EYE_WIDTH w l).put F.NL_EYE_HEIGHT h l
  let low := decide (w < s.get F.NL_EQ_THR_WIDTH l) || decide (h < s.get F.NL_EQ_THR_HEIGHT l)
  if low then
    let n := (s1.linkAt l).eyeLow + 1
    if n = 10 ∧ (s1.linkAt l).retrain = none then
      (s1.modLink l (fun k => { k with eyeLow := 0, retrain := some (eyeWord w h) })).putFlag F.NL_STAT_RETRAINING true l
    else s1.modLink l (fun k => { k with eyeLow := n % 10 })
  else (s1.modLink l (fun k => { k with eyeLow := 0 })).putFlag F.NL_STAT_EQ_POOR false l

/-- EQ_RETRAIN (R384): the new coefficients replace the old; the operands are the eye that they leave. -/
def doEqRetrain (l w h : Nat) (s : State) : State :=
  match (s.linkAt l).retrain with
  | none => s
  | some before =>
    let low := decide (w < s.get F.NL_EQ_THR_WIDTH l) || decide (h < s.get F.NL_EQ_THR_HEIGHT l)
    let recent := ((s.linkAt l).poor.filter (fun t => decide (s.uptime < t + 60 * oneSecond))) ++ (if low then [s.uptime] else [])
    let s1 := s.modLink l (fun k => { k with retrain := none, poor := recent })
    let s2 := ((((s1.bump R.NL_RETRAINS l).putFlag F.NL_STAT_RETRAINING false l).raise F.NET_EVT_RETRAIN).tally 0x0D03
      [l, before, eyeWord w h])
    if low && decide (3 ≤ recent.length) then
      ((s2.putFlag F.NL_STAT_EQ_POOR true l).raise F.NET_EVT_EQ_POOR).tally 0x0D04 [l, eyeWord w h]
    else s2

/-! ## Links (R385) -/

/-- A link goes down (R385): cause 1 block lock, 2 high BER, 3 marker lock, 4 sync, 5 speed, 6 HOLD_DOWN. -/
def State.linkDown (s : State) (l cause : Nat) : State :=
  if s.linkUp l = false then s.put F.NL_STAT_DOWN_CAUSE cause l
  else
    let s1 := s.modLink l (fun k => { k with eyeLow := 0, retrain := none, poor := [], queue := [], heldFrom := none,
                                             pauseUntil := 0, pfcUntil := List.replicate 8 0 })
    let s2 := ((s1.putFlag F.NL_STAT_LINK false l).putFlag F.NL_STAT_PAUSED false l).putFlag F.NL_STAT_RETRAINING false l
    let up := s2.get F.NET_STAT_LINK_UP
    let s3 := (s2.put F.NL_STAT_DOWN_CAUSE cause l).put F.NET_STAT_LINK_UP (if bitAt up l then up - 2 ^ l else up)
    (((s3.bump R.NL_LINK_DOWNS l).raise F.NET_EVT_LINK_CHANGE).tally 0x0D01 [l, cause]).refreshDvl

/-- LINK_DOWN (R385). -/
def doLinkDown (l cause : Nat) (s : State) : State := s.linkDown l cause

/-- FEC in force on a link (R368): RS-FEC always at 100GBASE-R, none at 10GBASE-R and on M0. -/
def State.fecOf (s : State) (l : Nat) : Nat :=
  match s.portSpeed (linkPort l) with
  | 2 => s.get F.NL_CTL_FEC l
  | 4 => s.get F.NL_CTL_FEC l
  | 3 => 1
  | _ => 0

/-- LINK_UP (R385): the PCS has been up for 10 ms. A ring port whose reset included PD15 stays silent for 300 ms (R269). -/
def doLinkUp (l : Nat) (s : State) : State :=
  if s.linkUp l ∨ s.flag F.NL_CTL_HOLD_DOWN l ∨ s.linkExists l = false ∨ s.dormant = true then s
  else
    let speed := s.portSpeed (linkPort l)
    let k := s.linkAt l
    let s1 := s.modLink l (fun x => { x with
      fresh := false, quietUntil := (if k.fresh then s.uptime + 300000000 else x.quietUntil) })
    let up := s1.get F.NET_STAT_LINK_UP
    let s2 := (((s1.putFlag F.NL_STAT_LINK true l).put F.NL_STAT_DOWN_CAUSE 0 l).put F.NL_STAT_SPEED speed l).put
      F.NET_STAT_LINK_UP (if bitAt up l then up else up + 2 ^ l)
    ((s2.raise F.NET_EVT_LINK_CHANGE).tally 0x0D00 [l, speed, s2.fecOf l]).refreshDvl

/-! ## ARP (R371, R372) -/

/-- ARP_REQUEST (R372): repeated every 1 s while frames for the next hop keep coming, and 10 s before an entry expires. -/
def doArpRequest (l ip : Nat) (s : State) : State :=
  match (s.linkAt l).arpWait.find? (fun w => w.ip == ip) with
  | some w =>
    if w.drops.any (fun t => decide (s.uptime < t + oneSecond)) then
      (s.modLink l (fun k => { k with arpWait := k.arpWait.map (fun x => if x.ip == ip then { x with asked := s.uptime } else x) })).sendArp
        l ip
    else s
  | none =>
    if (s.linkAt l).arp.any (fun a => a.ip == ip && decide (a.until_ ≤ s.uptime + 10 * oneSecond)) then s.sendArp l ip else s

/-- ARP_UNRESOLVED (R372): no answer for 3 s. -/
def doArpUnresolved (l ip : Nat) (s : State) : State :=
  match (s.linkAt l).arpWait.find? (fun w => w.ip == ip) with
  | none => s
  | some w =>
    if w.unresolved then s
    else
      let s1 := s.atUptime (w.since + 3 * oneSecond)
      let n := (w.drops.filter (fun t => decide (s1.uptime < t + oneSecond))).length
      let s2 := s1.modLink l (fun k => { k with arpWait := k.arpWait.map (fun x => if x.ip == ip then { x with unresolved := true } else x) })
      (s2.raise F.NET_EVT_ARP_MISS).tallyLimited (0x0D060000 + l) oneSecond 0x0D06 (fun _ => [l, ip, n])

/-- ARP_EXPIRE (R371): the 300 s of an entry run out. -/
def doArpExpire (l ip : Nat) (s : State) : State :=
  match (s.linkAt l).arp.find? (fun a => a.ip == ip) with
  | none => s
  | some a => (s.atUptime a.until_).modLink l (fun k => { k with arp := k.arp.filter (fun x => x.ip != ip) })

/-! ## Exact entries (R377) -/

/-- EXACT_ENTRY_WRITE (R377): a write of NS_EXACT_HI. -/
def doExactEntryWrite (l e value : Nat) (s : State) : State :=
  let mac := s.get R.NS_EXACT_LO (exactIx l e) + value % 65536 * 2 ^ 32
  if s.exactOwner l e = 1 then (s.raise F.NET_EVT_STRAIN_CONFLICT).tally 0x0D05 [l, e]
  else if bitAt value 16 then s.setExact l e mac 2 true
  else if s.exactOwner l e = 2 then s.setExact l e mac 0 false
  else s.put F.NS_EXACT_HI_ADDR_HI (value % 65536) (exactIx l e)

def execFrameReceive (link : Fin 25) (frame : RxFrame) (s : State) : Host.Outcome State Fault Refusal :=
  .next (doFrameReceive link.val frame s)
def execPauseBreak (link : Fin 25) (s : State) : Host.Outcome State Fault Refusal := .next (doPauseBreak link.val s)
def execPauseBreakEnd (link : Fin 25) (s : State) : Host.Outcome State Fault Refusal := .next (doPauseBreakEnd link.val s)
def execEyeMeasure (link : Fin 25) (width height : Nat) (s : State) : Host.Outcome State Fault Refusal :=
  .next (doEyeMeasure link.val width height s)
def execEqRetrain (link : Fin 25) (width height : Nat) (s : State) : Host.Outcome State Fault Refusal :=
  .next (doEqRetrain link.val width height s)
def execLinkDown (link : Fin 25) (cause : Nat) (s : State) : Host.Outcome State Fault Refusal := .next (doLinkDown link.val cause s)
def execLinkUp (link : Fin 25) (s : State) : Host.Outcome State Fault Refusal := .next (doLinkUp link.val s)
def execArpRequest (link : Fin 25) (ip : Nat) (s : State) : Host.Outcome State Fault Refusal := .next (doArpRequest link.val ip s)
def execArpUnresolved (link : Fin 25) (ip : Nat) (s : State) : Host.Outcome State Fault Refusal :=
  .next (doArpUnresolved link.val ip s)
def execArpExpire (link : Fin 25) (ip : Nat) (s : State) : Host.Outcome State Fault Refusal := .next (doArpExpire link.val ip s)
def execExactEntryWrite (link : Fin 25) (entry : Fin 64) (value : Word) (s : State) : Host.Outcome State Fault Refusal :=
  .next (doExactEntryWrite link.val entry.val value.toNat s)

end Sys2Proof.Machine
end

