-- ==== Sys2Proof/Machine/Structure.lean ====
section
/-! DEFINITION. Structure images (R88 to R96): loading, validation, what takes effect and when, and withdrawal. -/
namespace Sys2Proof.Machine
open Sys2Proof

/-! ## The structure reserve (R88) -/

/-- The base of the staging half. -/
def State.staging (s : State) : Nat := if s.str.stagingHigh then reserveB else reserveA

/-- Fields of the image in the staging half. -/
def State.imageReader (s : State) : Reader := fun o n => s.bulkLe (s.staging + o) n

/-- Bytes of an image. -/
def readBytes (rd : Reader) (o n : Nat) : List Nat := (List.range n).map (fun k => rd (o + k) 1)

/-- A span of the image in the staging half meets an uncorrectable half (R451). -/
def State.imageBad (s : State) (o n : Nat) : Bool := s.mem.bad.any (fun h => spansMeet (32 * h) 32 (s.staging + o) n)

/-- Copy an image of the Bulk Tank into the staging half, uncorrectable halves included. -/
def State.stageImage (s : State) (src len : Nat) : State :=
  let t := s.writeBulk s.staging (s.bulkBytes src len)
  let moved := (s.mem.bad.filter (fun h => spansMeet (32 * h) 32 src len)).map (fun h => (32 * h + s.staging - src) / 32)
  let kept := s.mem.bad.filter (fun h => !(decide (s.staging ≤ 32 * h) && decide (32 * h + 32 ≤ s.staging + len)))
  { t with mem := { t.mem with bad := kept ++ moved.filter (fun h => !kept.contains h) } }

/-! ## The checks of R89 -/

/-- The signature, the key and the revocation of an image of a length (R71, R72). -/
def State.signatureOk (s : State) (rd : Reader) (len : Nat) : Bool :=
  let o := len - 256
  let slot := rd (o + 4) 1
  let x := readBytes rd (o + 8) 48
  let y := readBytes rd (o + 0x38) 48
  rd o 4 == 0x47495350 && decide (slot < 4) && sha384 (x ++ y) == s.fuses.keyHash.getD slot [] && !bitAt s.fuses.revoked slot &&
  ecdsaVerify (sha384 (readBytes rd 0 o)) (ofBe x) (ofBe y) (ofBe (readBytes rd (o + 0x68) 48)) (ofBe (readBytes rd (o + 0x98) 48))

/-- The identity of an image (R92). -/
def imageIdentity (rd : Reader) (len : Nat) : Nat := ofLe ((sha384 (readBytes rd 0x80 (len - 256 - 0x80))).take 8)

/-- The management firmware versions a structure must work with: the running one, and the new one while an update hands
over or is in trial (R560). -/
def State.fwVersions (s : State) : List Nat :=
  let new := if 4 ≤ s.get F.UPD_STAT_PHASE ∧ s.get F.UPD_STAT_PHASE ≤ 6 ∧ s.upd.kind = 1
    then (s.upd.next.map (fun i => [i.version])).getD [] else []
  s.get R.UPD_VER 1 :: new

/-- A section's CRC does not match (R70). -/
def State.sectionsBad (s : State) (rd : Reader) (len : Nat) : Bool :=
  s.imageBad 0x80 (len - 0x80) || (sectTable rd).any (fun e =>
    crcSeeded (crcAlgOf 0) (sectSeed e) (readBytes rd e.offset e.length) != e.crc)

/-- Check 10 of R89. -/
def imageRulesOk (rd : Reader) (len : Nat) (st merged : Structure) : Bool :=
  decide (st.secVer ≤ 63) && (decide (st.target < 12) || st.target == 0xFF) && sectTableOk rd len && gapsZero rd len &&
  blockReservedOk rd len && (sectTable rd).all (fun e => sectLengthOk rd e && (e.type != 1 || (rd e.offset 1 == e.index && engineRawOk rd e))) &&
  sectCountsOk rd st && st.engines.all engineSecOk && kindRulesOk merged && routesOk merged &&
  (st.partialImage || (pailsOk st && portsOk st &&
    decide (((st.pails.filter (fun b => bitAt b.flags 0)).map (fun b => ceilDiv (b.depth * b.itemBytes) 64 * 64)).sum ≤ 67108864))) &&
  capsOk { merged with partialImage := false }

/-- Check 11 of R89 fails: the rules of a partial image. -/
def State.partialBad (s : State) (rd : Reader) (st : Structure) : Bool :=
  let away (l : List RouteRec) := l.filter (fun r => r.srcNode != st.target && r.dstNode != st.target)
  st.partialImage &&
  (match s.str.inForce with
   | none => true
   | some b =>
     b.imageId != st.baseId || (st.target != 0xFF && b.spare == some st.target) ||
     (sectTable rd).any (fun e => e.type == 1 && e.index != st.target) ||
     (match st.routes with
      | none => false
      | some l =>
        let old := away (b.routes.getD [])
        let new := away l
        old.any (fun r => !new.contains r) || new.any (fun r => !old.contains r)))

/-- A live object lies beyond the capacities of a structure (check 13 of R89): a channel, a scaler that a layer names, an
enabled writeback rectangle, or a shadow set that holds entries. -/
def State.beyondCaps (s : State) (st : Structure) : Bool :=
  let cap := effectiveCap st.caps (s.get F.SYS_MODE_STAT_RATE) s.skim
  let live := s.cmd.chans.filter (fun c => decide (c.st ≠ .draining))
  live.any (fun c => decide (cap c.kind ≤ c.index) || (c.kind == kLayer && c.scaled && decide (cap 0x40 ≤ c.scaler))) ||
  (List.range 16).any (fun i => decide (cap 0x41 ≤ i) && s.flag F.WB_CTL_EN i) ||
  (List.range 16).any (fun n => decide (cap 0x42 ≤ n) && !(s.setAt n).entries.isEmpty)

/-- A pending commit, cue fire, START or STOP at or after frame k would be refused in the state t (checks 14 of R89 and 9 of
R50). -/
def State.pendingRefused (s t : State) (k : Nat) : Bool :=
  let later := sortBy (fun a b => decide (a.frame ≤ b.frame)) (s.cmd.deferred.filter (fun d => decide (k ≤ d.frame) &&
    (match d.act with | .commit _ _ => true | .run _ _ => true | .fire _ _ => true | _ => false)))
  (later.foldl (fun (acc : State × Bool) d =>
    let next := acc.1.applyEntries (s.deferredEntries d)
    (next, acc.2 || (next.consistency acc.1 d.frame).2.1 != stOK)) (t, false)).2

/-- The Bulk Tank CLAIM sums exceed R448. -/
def Structure.memClaimsBad (st : Structure) : Bool :=
  st.admittedPrecisions.any (fun p =>
    decide (2671 < (((st.routes.getD []).filter (fun r => routeIn r p && (r.srcNode == 0x20 || r.dstNode == 0x21))).map
      RouteRec.claim).sum))

/-- The frame at whose S a partial image takes effect: the one named, or the first whose S lies at least 5 ms ahead. -/
def State.imageFrame (s : State) (l : StrLoad) : Nat :=
  if l.atFrame then l.frame else max s.sys.nextS (s.firstSFrom (s.now + 5000000 * 65536))

/-- Checks 1 to 16 of R89 on a staged image. `sig` and `sect` say that an injection makes the signature or a section CRC fail. -/
def State.imageChecks (s : State) (l : StrLoad) (rd : Reader) (st : Structure) (sig sect : Bool) : List (Nat × Bool × Nat) :=
  let len := l.len
  let part := rd 6 1 == 1
  let merged := s.withImage st
  let new : State := { s with str := { s.str with inForce := some merged } }
  let target := part && rd 7 1 != 0xFF
  [(1, s.sys.trans.isSome || s.sys.rateChg.isSome || (target && s.str.standin.any (fun d => d.active && decide (d.cause = .fault))), stBusy),
   (2, part && decide (33554432 < len), stInconsistent),
   (3, rd 0 4 != 0x52545350 || rd 4 2 != 1 || decide (1 < rd 6 1), stUnsupported),
   (4, s.imageBad 0 0x80 || crc32c (readBytes rd 0 0x7C) != rd 0x7C 4, stIntegrity),
   (5, rd 8 4 != len, stInconsistent),
   (6, sig || s.imageBad 0x80 (len - 0x80) || !s.signatureOk rd len, stIntegrity),
   (7, decide (st.secVer < s.fuses.strCounter), stNotPermitted),
   (8, rd 0x28 4 != 0x9612 || decide (s.fuses.stepping < rd 0x2C 1) || decide (rd 0x2D 1 < s.fuses.stepping) ||
       s.fwVersions.any (fun v => decide (v < rd 0x30 4) || decide (rd 0x34 4 < v)), stUnsupported),
   (9, sect || s.sectionsBad rd len, stIntegrity),
   (10, !imageRulesOk rd len st merged, stInconsistent),
   (11, s.partialBad rd st, stInconsistent),
   (12, (!part || (target && (s.str.inForce.bind Structure.spare).isNone)) && s.power != 1, stWrongMode),
   (13, !merged.admits (s.get F.SYS_MODE_STAT_RATE) s.skim || s.beyondCaps merged, stNoCapacity),
   (14, s.pendingRefused new (if part then s.imageFrame l else 0), stInconsistent),
   (15, !sharesOk merged || !claimsOk merged || merged.memClaimsBad || new.allowanceBad, stBudget),
   (16, l.action && l.atFrame && part && decide (s.sLattice l.frame < (s.now + 5000000 * 65536 : Nat)), stTimeout)]

/-! ## STR_LOAD and STR_VALIDATED -/

/-- STR_LOAD (R89, R90): a write of STR_LOAD_CTL with GO. A load that is refused at check 1 or 2 ends at once; any other is
copied into the staging half, and validation begins. -/
def doStrLoad (value : Word) (s : State) : State :=
  let v := value.toNat
  let s1 := ((s.put F.STR_LOAD_CTL_ACTION (bits v 1 1)).put F.STR_LOAD_CTL_AT_FRAME (bits v 2 2)).put F.STR_LOAD_CTL_VECTOR (bits v 9 4)
  let phase := s1.strPhase
  let addr := s1.get64 R.STR_LOAD_ADDR_LO
  let len := s1.get R.STR_LOAD_LEN
  if bitAt v 0 = false then s1
  else if phase ≠ 0 ∨ s1.sys.trans.isSome = true ∨ s1.sys.rateChg.isSome = true then
    (s1.strFinish stBusy 1 phase).tally 0x0101 [stBusy, 1, 0]
  else if addr % 64 ≠ 0 ∨ inUsable addr len = false ∨ len < 4096 ∨ 67108864 < len then
    (s1.strFinish stInconsistent 2 0).tally 0x0101 [stInconsistent, 2, 0]
  else
    let l : StrLoad := { action := bitAt v 1, atFrame := bitAt v 2, addr := addr, len := len,
                         frame := s1.get64 R.STR_LOAD_FRAME_LO, image := none, acceptedAt := 0, spReady := false,
                         engineReady := none, standinAt := 0 }
    let s2 := (s1.stageImage addr len).put F.STR_LOAD_STAT_PHASE 1
    { s2 with str := { s2.str with load := some l } }

/-- Change the load in progress. -/
def State.modLoad (s : State) (f : StrLoad → StrLoad) : State := { s with str := { s.str with load := s.str.load.map f } }

/-- The load in progress is over. -/
def State.dropLoad (s : State) : State := { s with str := { s.str with load := none, capNew := none } }

/-- Injections that meet a load of a number of sections (R520, 0x2B and 0x2C): whether they make the signature and a section
fail. -/
def State.loadInjections (s : State) (sections : Nat) : Bool × Bool × State :=
  let a := s.opportunity 0x2C 0 0
  let named := match a.2.flt.armed with
    | some x => if x.detector = 0x2B ∧ x.arg < sections then some x.arg else none
    | none => none
  match named with
  | some k => let b := a.2.opportunity 0x2B 0 k; (a.1, b.1, b.2)
  | none => (a.1, false, a.2)

/-- The SPARE is asked for a replacement (R94): it leaves the signature test. While it stands in for a quarantined engine
the replacement stays armed until that stand-in has ended (DESIGN CHOICE: R89 refuses such an image only for a faulty
engine). -/
def State.armStandin (s : State) : State :=
  match s.str.load with
  | some l =>
    (match l.image with
     | some st =>
       if s.strPhase = 2 ∧ st.target < 12 ∧ s.spare.isSome = true then
         let t := s.endTesting
         (match t.str.standin with
          | none => { t with str := { t.str with standin := some ⟨st.target, .replacement, 0, false, none, false⟩ } }
          | some _ => t)
       else s
     | none => s)
  | none => s

/-- STR_VALIDATED (R89, R90): validation completes. A refused image leaves everything; a full image waits for STR_APPLIED
with PHASE still 1 and its RESULT written (DESIGN CHOICE: the spec gives no PHASE between a full image's acceptance and its
taking effect); a partial one is armed (R93, R94). -/
def doStrValidated (s : State) : State :=
  match s.str.load with
  | none => s
  | some l =>
    if s.strPhase ≠ 1 ∨ l.image.isSome = true then s
    else
      let rd := s.imageReader
      let st := parseImage rd (imageIdentity rd l.len)
      let q := s.loadInjections (rd 0x0C 2)
      let r := firstFail (s.imageChecks l rd st q.1 q.2.1)
      let s := q.2.2
      if r.2 ≠ stOK then
        let d := if r.1 = 6 then s.detect 0x2C else if r.1 = 9 then s.detect 0x2B else s
        (d.dropLoad.strFinish r.2 r.1 0).tally 0x0101 [r.2, r.1, if r.1 ≤ 4 then 0 else rd 0x10 8]
      else if l.action = false then s.dropLoad.strFinish stOK 0 0
      else
        let k := s.imageFrame l
        let s1 := s.modLoad (fun x => { x with image := some st, acceptedAt := s.now, frame := k })
        if st.partialImage = false then s1.strFinish stOK 0 1
        else
          let s2 := s1.strFinish stOK 0 2
          if st.target = 0xFF then
            { s2 with str := { s2.str with capNew := some (s.withImage st).caps } }
          else s2.armStandin

/-! ## What a structure sets (R91, R98) -/

/-- CMP_SCALERn (R183): the host and the line buffer of each scaler of the structure in force, within the capacity. -/
def State.showScalers (s : State) : State :=
  let l := (s.str.inForce.map (fun st => st.scalers s.skim)).getD []
  let q (k : Nat) : Option (Nat × Nat) := if k < s.capOf 0x40 then l[k]? else none
  s.each (List.range 64) (fun k t =>
    (t.put F.CMP_SCALER_GRANULES (((q k).map Prod.snd).getD 0) k).put F.CMP_SCALER_ENGINE (((q k).map Prod.fst).getD 15) k)

/-- The registers that show the structure in force in the modes in force (R87, R98, R220). -/
def State.refreshStr (s : State) : State :=
  match s.str.inForce with
  | none =>
    let s1 := (s.putFlag F.STR_STAT_LOADED false).putFlag F.STR_STAT_PARTIAL false
    let s2 := ((s1.put F.STR_STAT_ADMIT 0).put F.STR_STAT_SPARE_ENG 15).put F.STR_STAT_STANDIN_FOR 15
    let s3 := ((s2.put64 R.STR_ID_LO 0).put R.STR_VER 0).put F.SEP_STAT_CURVES 0
    let s4 := s3.each (List.range 12) (fun e t => t.put R.STR_ENGINE 0 e)
    s4.each capItems (fun i t => t.put R.STR_CAP 0 i)
  | some st =>
    let s1 := ((s.put64 R.STR_ID_LO st.imageId).put R.STR_VER st.imageVer).putFlag F.STR_STAT_LOADED true
    let s2 := ((s1.putFlag F.STR_STAT_PARTIAL st.partialImage).put F.STR_STAT_ADMIT st.combos).put F.STR_STAT_SPARE_ENG (st.spare.getD 15)
    let s3 := s2.each (List.range 12) (fun e t =>
      match st.engineSec s.skim e with
      | some x =>
        let kinds := ((List.range 4).map (fun o => ((x.kinds.find? (fun k => k.order == o)).map KindEntry.kind).getD 0 * 16 ^ o)).sum
        (t.put F.STR_ENGINE_KINDS kinds e).put F.STR_ENGINE_SECT_VER x.sectVer e
      | none => t.put R.STR_ENGINE 0 e)
    let s4 := s3.each capItems (fun i t => t.put R.STR_CAP (s.capOf i) i)
    s4.put F.SEP_STAT_CURVES s4.curvesAvailable

/-- The domains that depend on the structure and on the enabled ports: PD3 to PD8, PD10 to PD13 and PD14, while the device is
on outside Dormant (R492). -/
def State.syncDomains (s : State) : State :=
  let on := s.get F.PCR_PD_STAT_ON
  if bitAt on 1 = false then s
  else
    let recovery := s.flag F.STA_STAT_RECOVERY
    let quad (q : Nat) : Bool := if q < 4 then (List.range 4).any (fun i => s.portSpeed (4 * q + i) != 0) else s.portSpeed (12 + q) != 0
    let cluster : Bool := s.str.inForce.any (fun st => !st.engines.isEmpty) && !recovery
    let want (d : Nat) : Bool :=
      if 3 ≤ d ∧ d ≤ 8 then quad (d - 3) && !recovery
      else if 10 ≤ d ∧ d ≤ 13 then cluster && s.str.inForce.any (fun st => st.engines.any (fun e => e.engine / 3 == d - 10))
      else if d = 14 then (List.range 32).any (fun p => s.flag F.P_CTL_EN p)
      else bitAt on d
    let sum (l : List Nat) : Nat := (l.map (fun d => 2 ^ d)).sum
    let s1 := s.put F.PCR_PD_STAT_ON (sum ((List.range 16).filter want))
    let lock := s1.get F.PCR_CLK_STAT_LOCK % 32 + (if want 14 then 32 else 0) + sum (((List.range 4).filter (fun c => want (10 + c))).map (· + 6))
    (s1.put F.PCR_CLK_STAT_LOCK lock).put F.PCR_CLK_STAT_SD_LOCK (sum ((List.range 6).filter (fun q => want (3 + q))))

/-- The pails a structure binds, each empty, laid out in ascending number: on chip from offset 0, in the Bulk Tank from the
pail area (R392, R444). -/
def Structure.layPails (st : Structure) : List Pail :=
  let order := sortBy (fun a b => decide (a.pail ≤ b.pail)) st.pails
  (order.foldl (fun (acc : Nat × Nat × List Pail) b =>
    let bulk := bitAt b.flags 0
    let size := ceilDiv (b.depth * b.itemBytes) 64 * 64
    let p : Pail := { num := b.pail, role := b.role, prio := b.prio, bulk := bulk, flows := bitAt b.flags 1,
                      flowBase := b.flowBase, flowCount := b.flowCount, engines := b.engines, itemBytes := b.itemBytes,
                      depth := b.depth, base := if bulk then pailArea + acc.2.1 else acc.1, items := [], popping := none,
                      stalled := none, lastServed := 0, waitPop := [] }
    if bulk then (acc.1, acc.2.1 + size, acc.2.2 ++ [p]) else (acc.1 + size, acc.2.1, acc.2.2 ++ [p])) (0, 0, [])).2.2

/-- A pail keeps its contents across a full image (R409). -/
def keepsPail (a b : Pail) : Bool :=
  a.num == b.num && a.role == b.role && decide (a.role ≤ 1) && a.itemBytes == b.itemBytes && a.depth == b.depth && a.bulk == b.bulk

/-- The configuration registers of a bound pail (R410). -/
def State.showPail (s : State) (q : Pail) : State :=
  let p := q.num
  let s1 := (((s.put F.PL_CFG_ROLE q.role p).put F.PL_CFG_PRIO q.prio p).putFlag F.PL_CFG_BULK q.bulk p).putFlag F.PL_CFG_FLOWS q.flows p
  let s2 := ((s1.putFlag F.PL_CFG_OVERWRITE (q.role == 3 || q.role == 4) p).putFlag F.PL_CFG_BOUND true p).put F.PL_CFG_ITEM16 (q.itemBytes / 16) p
  ((s2.put64 R.PL_BASE_LO (if q.bulk then q.base else 0x1000000 + q.base) p).put F.PL_DEPTH_VALUE q.depth p).syncPail p

/-- The pointers and counters of a pail start anew. -/
def State.freshPail (s : State) (p : Nat) : State :=
  s.each [R.PL_WR, R.PL_RD, R.PL_STAT, R.PL_LOST, R.PL_FLUSHED, R.PL_STARVE, R.PL_STALL_US, R.PL_SEQ] (fun f t => t.toReset f p)

/-- Bind the pails of a structure (R392, R409). -/
def State.bindPails (s : State) (st : Structure) : State :=
  let old := s.par.pails
  let laid := st.layPails
  let kept := laid.filterMap (fun q => (old.find? (fun o => keepsPail o q)).map (fun o =>
    (({ o with prio := q.prio, engines := q.engines, base := q.base } : Pail), s.pailBytes o o.base (o.depth * o.itemBytes))))
  let keptNums := kept.map (fun k => k.1.num)
  let s1 := s.each (old.filter (fun o => !keptNums.contains o.num)) (fun o t =>
    let n := (o.items.filter (fun i => decide (i.phase ≠ .done))).length
    let t0 : State := { t with cmd := { t.cmd with fenced := t.cmd.fenced.filter (fun x => x.pail != o.num) } }
    let t1 := if n = 0 then t0 else t0.tally 0x0E01 [o.num, n, 1]
    (t1.freshPail o.num).each [R.PL_CFG, R.PL_BASE_LO, R.PL_BASE_HI, R.PL_DEPTH] (fun f u => u.toReset f o.num))
  let pails := laid.map (fun q => ((kept.find? (fun k => k.1.num == q.num)).map Prod.fst).getD q)
  let s2 : State := { s1 with par := { s1.par with pails := pails } }
  let s3 := s2.each kept (fun k t => if k.2.isEmpty then t else t.writePail k.1 k.1.base k.2)
  let s4 := s3.each pails (fun q t => (if keptNums.contains q.num then t else t.freshPail q.num).showPail q)
  let onChip := ((pails.filter (fun q => !q.bulk)).map (fun q => ceilDiv (q.depth * q.itemBytes) 64 * 64)).sum
  let s4 := (s4.put F.PAIL_STAT_BOUND pails.length).put F.PAIL_STAT_ONCHIP_KIB (ceilDiv onChip 1024)
  let s5 := s4.each (List.range 4096) (fun f t => t.syncFlow f)
  (s5.each (List.range 12) (fun e t => t.syncEngine e)).syncPar

/-- Links whose speed the structure changes go down, to come up at the new one (R385, R492). -/
def State.relink (s : State) : State :=
  s.each (List.range 25) (fun l t =>
    if t.linkUp l && (!t.linkExists l || t.get F.NL_STAT_SPEED l != t.portSpeed (linkPort l))
    then t.linkDown l (if l = 24 then 4 else 1) else t)

/-- The correction and the output curve in force of every endpoint (R217, R225). -/
def State.showCurves (s : State) : State :=
  s.each (s.cmd.chans.filter (fun c => c.kind == kEndpoint && decide (c.st ≠ .draining))) (fun c t =>
    (t.putFlag F.EP_STAT_IDENTITY (decide (c.st = .running) && c.epCorr t.skim == 0) c.index).put F.EP_STAT_CURVE c.epCurve c.index)

/-- Everything that follows from the structure and the modes in force is brought up to date. -/
def State.refreshAll (s : State) : State :=
  (((((s.refreshStr.showScalers.syncDomains.refreshCorr).refreshPtp).refreshRoutes).refreshDvl).refreshDd).showCurves

/-- Engines under a full structure: each is loaded with its section and runs; a faulty engine stays faulty, and the test
rotation starts over (R91). -/
def State.loadEngines (s : State) : State :=
  let faulty := (List.range 12).filter (fun e => s.get F.CE_STAT_STATE e == 4)
  let s1 := s.each (List.range 12) (fun e t =>
    (t.put F.CE_STAT_STANDIN_BY 15 e).modEng e (fun x => { x with
      out := faulty.contains e, reloading := none, rejoinAt := none, used := [0, 0, 0, 0],
      overDone := [false, false, false, false] }))
  let s2 : State := { s1 with sig := { s1.sig with rotation := [], testing := none, stopped := s1.spare.any faulty.contains },
                              str := { s1.str with standin := none } }
  let s3 := (s2.put F.STR_STAT_STANDIN_FOR 15).putFlag F.STR_STAT_STANDIN_FAIL false
  let s4 := s3.each (List.range 12) (fun e t =>
    if faulty.contains e then t else (t.loadStores e (t.section e)).runEngine e)
  match faulty.find? (fun e => s4.spare != some e && s4.spare.isSome) with
  | some e => s4.askSpare e .fault 4000000
  | none => s4

/-- A full structure comes into force (R91, R92, R409): the staging half becomes active. -/
def State.applyFull (s : State) (st : Structure) : State :=
  let s1 : State := { s with str := { s.str with inForce := some st, stagingHigh := !s.str.stagingHigh, load := none, capNew := none } }
  let s2 := (s1.loadEngines.bindPails st).relink
  s2.refreshAll.tally 0x0100 [st.imageId, 0, st.imageVer, s2.frameNum]

/-- STR_APPLIED (R91): an accepted full image takes effect in Warm. -/
def doStrApplied (s : State) : State :=
  match s.str.load with
  | some l =>
    (match l.image with
     | some st => if st.partialImage then s else ((s.applyFull st).strFinish stOK 0 0).pump
     | none => s)
  | none => s

/-! ## Partial images at S(k) (R93, R94) -/

/-- A partial structure is in force from S(k). -/
def State.partialInForce (s : State) (st : Structure) (k : Nat) : State :=
  let s1 : State := { s with str := { s.str with inForce := some (s.withImage st), capNew := none } }
  (s1.refreshAll).tally 0x0100 [st.imageId, 1, st.imageVer, k]

/-- The part of S(k) that a partial image takes: a capacity image takes effect and its merge begins; a replaced engine's new
section is in force once the SPARE stands in; without a SPARE, in Warm, the engine is loaded in place. -/
def State.takePartial (s : State) (k : Nat) : State :=
  match s.str.load with
  | none => s
  | some l =>
    match l.image with
    | none => s
    | some st =>
      if st.partialImage = false ∨ s.str.inForce.any (fun b => b.imageId == st.imageId) then s
      else if s.strPhase = 4 then s.partialInForce st k
      else if s.strPhase = 2 ∧ l.frame ≤ k ∧ (st.target = 0xFF ∨ s.spare.isNone = true) then
        let t := (s.partialInForce st k).put F.STR_LOAD_STAT_PHASE 5
        if st.target < 12 then (t.loadStores st.target (t.section st.target)).runEngine st.target else t
      else s

/-- STANDIN_READY (R94): the SPARE holds the new section's code and partitions. -/
def doStandinReady (s0 : State) : State :=
  let s := s0.armStandin
  match s.str.load, s.str.standin, s.spare with
  | some l, some d, some sp =>
    if s.strPhase = 2 ∧ d.cause = .replacement then
      ((s.modLoad (fun x => { x with spReady := true })).loadStores sp
        (l.image.bind (fun i => i.engineSec s.skim d.engine))).put F.STR_LOAD_STAT_PHASE 3
    else s
  | _, _, _ => s

/-- A hand-back fails (R96): the SPARE goes on standing in with the new section, which stays in force, and the engine counts as
faulty. Reason 0 is the signature test, 1 the limit of 1 s. PHASE becomes 5 and the merge begins (DESIGN CHOICE: the spec
names no PHASE after a failed hand-back; the section in force is merged as after a hand-back). -/
def doStrHandbackFail (reason : Nat) (s : State) : State :=
  match s.str.standin with
  | none => s
  | some d =>
    if s.strPhase ≠ 4 ∨ d.cause ≠ .replacement then s
    else
      let e := d.engine
      let s1 := ((s.putFlag F.STR_STAT_STANDIN_FAIL true).msi 2).tally 0x0104 [e, reason]
      let s2 : State := { s1 with str := { s1.str with standin := some { d with cause := .fault, readyAt := none, passed := false } } }
      ((s2.put F.CE_STAT_STATE 4 e).modEng e (fun x => { x with lastFault := some s2.uptime, out := true })).put F.STR_LOAD_STAT_PHASE 5

/-- STR_ENGINE_READY (R94): the replaced engine is loaded with the new section and tested on it: `reference` is what the SPARE
computed on that section (R115, step 2), and the engine passes where its own `signature` equals it; otherwise the hand-back
fails (R96). -/
def doStrEngineReady (reference signature : Word) (s : State) : State :=
  match s.str.standin with
  | none => s
  | some d =>
    if s.strPhase ≠ 4 ∨ d.cause ≠ .replacement ∨ (s.serving d.engine).isEmpty = false then s
    else
      let e := d.engine
      let s0 := s.loadStores e (s.section e)
      let s1 := (s0.setReg (R.CE_SIG_REF.addr e) reference).setReg (R.CE_SIG_LAST.addr e) signature
      if signature = reference then
        ((s1.put F.CE_STAT_STATE 3 e).modLoad (fun x => { x with engineReady := some s.now })).takeBack e true
      else doStrHandbackFail 0 s1

/-- The sections of the merged structure, with their bytes (R88): those of the active half that stay, then the partial image's. -/
def State.mergedSections (s : State) (part : Structure) : List (SectEntry × List Nat) :=
  let act : Reader := fun o n => s.bulkLe (s.activeHalf + o) n
  let rd := s.imageReader
  let stays (e : SectEntry) : Option SectEntry :=
    if e.type = 1 ∧ e.index = part.target then
      (leftVariant e.variant (part.engines.map EngineSec.variant)).map (fun v => { e with variant := v })
    else if e.type = 5 then (leftVariant e.variant part.capVariants).map (fun v => { e with variant := v })
    else if e.type = 2 ∧ part.routes.isSome = true then none
    else some e
  ((sectTable act).filterMap (fun e => (stays e).map (fun x => (x, readBytes act e.offset e.length)))) ++
    (sectTable rd).map (fun e => (e, readBytes rd e.offset e.length))

/-- The bytes of the merged structure (R88): the header of the active half with the merged identity, version, ADMIT, count and
length, the section table, the sections on 64-byte boundaries in table order, and a block of zeros where a signature would
stand (DESIGN CHOICE: R88 gives the contents and no layout). -/
def State.mergedBytes (s : State) (merged part : Structure) : List Nat :=
  let l := s.mergedSections part
  let first := ceilDiv (0x80 + 32 * l.length) 64 * 64
  let laid := l.foldl (fun (acc : Nat × List (SectEntry × List Nat)) x =>
    (ceilDiv (acc.1 + x.2.length) 64 * 64, acc.2 ++ [({ x.1 with offset := acc.1, pos := acc.2.length }, x.2)])) (first, [])
  let row (x : SectEntry × List Nat) := [x.1.type, x.1.index, x.1.variant, 0] ++ leBytes 4 x.1.offset ++ leBytes 4 x.2.length ++
    leBytes 4 x.1.sectVer ++ List.replicate 12 0 ++ leBytes 4 (crcSeeded (crcAlgOf 0) (sectSeed x.1) x.2)
  let old (o n : Nat) := s.bulkBytes (s.activeHalf + o) n
  let head := old 0 8 ++ leBytes 4 (laid.1 + 256) ++ leBytes 2 l.length ++ old 0xE 2 ++ leBytes 8 merged.imageId ++ old 0x18 8 ++
    leBytes 4 merged.imageVer ++ old 0x24 10 ++ [merged.combos] ++ old 0x2F 0x4D
  let table := laid.2.flatMap row
  let body := laid.2.flatMap (fun x => x.2 ++ List.replicate (ceilDiv x.2.length 64 * 64 - x.2.length) 0)
  head ++ leBytes 4 (crc32c head) ++ table ++ List.replicate (first - 0x80 - table.length) 0 ++ body ++ List.replicate 256 0

/-- MERGE_DONE (R88, R94): the structure in force with the partial's sections in place stands in the staging half, which becomes
active. -/
def doMergeDone (s : State) : State :=
  if s.strPhase = 5 then
    let t := match s.str.inForce, s.str.load.bind StrLoad.image with
      | some st, some part => s.writeBulk s.staging (s.mergedBytes st part)
      | _, _ => s
    let s1 := t.dropLoad
    ({ s1 with str := { s1.str with stagingHigh := !s1.str.stagingHigh } } : State).strFinish stOK 0 0
  else s

/-- STR_ABORT (R96). In PHASE 1 the load ends with TIMEOUT, an accepted full image that waits for its effect included. -/
def doStrAbort (s : State) : State :=
  match s.str.load with
  | none => if s.strPhase = 0 then s else s.raise F.STR_EVT_ABORT_LATE
  | some l =>
    let early := decide ((s.now : Int) + 1000000 * 65536 < s.sLattice l.frame)
    if s.strPhase = 1 then s.dropLoad.strFinish stTimeout 0 0
    else if (s.strPhase = 2 ∨ s.strPhase = 3) ∧ early = true then s.strWithdraw 0
    else if s.strPhase = 0 then s
    else s.raise F.STR_EVT_ABORT_LATE

def execStrLoad (value : Word) (s : State) : Host.Outcome State Fault Refusal := .next (doStrLoad value s)
def execStrValidated (s : State) : Host.Outcome State Fault Refusal := .next (doStrValidated s)
def execStrApplied (s : State) : Host.Outcome State Fault Refusal := .next (doStrApplied s)
def execStandinReady (s : State) : Host.Outcome State Fault Refusal := .next (doStandinReady s)
def execStrEngineReady (signature : TestRun) (s : State) : Host.Outcome State Fault Refusal :=
  .next (doStrEngineReady signature.reference signature.signature s)
def execStrHandbackFail (reason : Nat) (s : State) : Host.Outcome State Fault Refusal := .next (doStrHandbackFail reason s)
def execMergeDone (s : State) : Host.Outcome State Fault Refusal := .next (doMergeDone s)
def execStrAbort (s : State) : Host.Outcome State Fault Refusal := .next (doStrAbort s)

end Sys2Proof.Machine
end

