-- ==== Sys2Proof/Machine/Frame.lean ====
section
/-! DEFINITION. What S(n) decides for a frame: the stream marks and pictures (R162, R169), what each layer shows (R188, R189,
R194), and the frame's work (R25). -/
namespace Sys2Proof.Machine
open Sys2Proof

/-! ## Marks (R162, R163, R169) -/

/-- A device time, in units of 2^-16 ns, is at or after DUE of R162: the media time plus 2P plus EXPECT. -/
def Chan.pastDue (c : Chan) (media at_ : Nat) : Bool :=
  decide (((media + c.val 0x020A * 1000) * c.rateN + 2 * c.rateD * 1000000000) * 65536 ≤ at_ * c.rateN)

/-- The mark and picture of a network stream at S(n). -/
def State.pickNet (s : State) (c : Chan) (n : Nat) : Pick :=
  let st := s.stream c.index
  let base := st.latest.map (fun l => c.slotBase l.buf)
  let dead := decide (c.st ≠ .running) || st.noSignal.isSome
  let mark :=
    if st.fresh && decide (c.st = .running) then 0
    else match st.latest with
      | none => 2
      | some l => if dead || c.pastDue l.media (s.sAt n) then 2 else 1
  { handle := c.handle, mark := mark, base := base, width := (st.latest.map LatestPic.width).getD 0,
    height := (st.latest.map LatestPic.height).getD 0, skim := s.skim }

/-- The slot a stored stream chooses at S(n); none with COUNT 0 (R169). -/
def State.playSlot (s : State) (c : Chan) (n : Nat) : Option Nat :=
  let count := c.fld 0x020C 4 4
  let k0 := (s.stream c.index).playFrom
  if count = 0 then none
  else
    let i := if n < k0 then 0 else (n - k0) * c.fld 0x020C 8 2 / max 1 (c.fld 0x020C 10 2)
    some (c.fld 0x020C 0 4 + (if bitAt (c.fld 0x020C 12 1) 0 then i % count else min i (count - 1)))

/-- The mark and picture of a stored stream at S(n), and the slot chosen. -/
def State.pickStored (s : State) (c : Chan) (n : Nat) : Pick × Option Nat :=
  let st := s.stream c.index
  let slot := s.playSlot c n
  let give (mark : Nat) (k : Option Nat) : Pick :=
    { handle := c.handle, mark := mark, base := k.map c.slotBase, width := c.streamW, height := c.streamH, skim := false }
  let missing : Pick := give 2 (st.lastGiven.filter st.ready.contains)
  match slot with
  | none => (missing, none)
  | some k =>
    if c.st ≠ .running ∨ st.ready.contains k = false then (missing, slot)
    else if n = st.playFrom ∨ st.lastSlot ≠ some k then (give 0 (some k), slot)
    else (give 1 (some k), slot)

/-- The pick of a stream as a Standby takes it from the Active's mark: the marked picture where it is held complete, else
MISSING (R475). The truth value says that the marked picture was not held. -/
def State.followMark (s : State) (c : Chan) (m : Nat × Nat × Nat) (own : Pick) : Pick × Bool :=
  let st := s.stream c.index
  if m.2.1 = 2 then ({ own with mark := 2 }, false)
  else if c.stored then
    if st.ready.contains m.2.2 then ({ own with mark := m.2.1, base := some (c.slotBase m.2.2) }, false) else ({ own with mark := 2 }, true)
  else if st.latest.any (fun l => l.timestamp == m.2.2) then ({ own with mark := m.2.1 }, false)
  else ({ own with mark := 2 }, true)

/-- The picks of every stream for frame n, the slot of each stored one, and whether a picture the Active marked is not held. -/
def State.picksOf (s : State) (n : Nat) (marks : List (Nat × Nat × Nat)) : List (Nat × Pick × Option Nat) × Bool :=
  let all := (s.cmd.chans.filter (fun c => c.kind == kStream && decide (c.st ≠ .draining))).map (fun c =>
    let own : Pick × Option Nat := if c.stored then s.pickStored c n else (s.pickNet c n, none)
    match marks.find? (fun m => m.1 == c.index) with
    | some m => let f := s.followMark c m own.1; ((c.index, f.1, own.2), f.2)
    | none => ((c.index, own.1, own.2), false))
  (all.map Prod.fst, all.any Prod.snd)

/-- The marks an Active mirrors for a frame: stream, mark, and the chosen timestamp or slot (R472). -/
def State.marksOf (s : State) (picks : List (Nat × Pick × Option Nat)) : List (Nat × Nat × Nat) :=
  picks.map (fun q => (q.1, q.2.1.mark, match q.2.2 with
    | some k => k
    | none => ((s.stream q.1).latest.map LatestPic.timestamp).getD 0))

/-- Keep what the next frame's marks depend on, and show the marks. A network stream's buffer is held until E(n) (R167). -/
def State.keepPicks (s : State) (n : Nat) (picks : List (Nat × Pick × Option Nat)) : State :=
  s.each picks (fun q t =>
    let i := q.1
    let given := if q.2.1.mark = 2 then none else q.2.2
    let t1 := t.modStream i (fun x => { x with
      fresh := false, lastSlot := if s.cmd.chans.any (fun c => c.kind == kStream && c.index == i && decide (c.st = .running)) then q.2.2 else none,
      lastGiven := given.orElse (fun _ => x.lastGiven),
      held := (match q.2.2, x.latest with
        | none, some l => if q.2.1.base.isSome then [(n, l.buf)] else []
        | _, _ => []) ++ (x.held.filter (fun h => decide (n < h.1 + 2))) })
    t1.put F.ING_S_STAT_MARK q.2.1.mark i)

/-! ## Layers (R188, R189, R194, R195) -/

/-- What one layer keeps from frame to frame. -/
def State.layerKept (s : State) (c : Chan) : LayerKeep :=
  ((s.layerKeep.find? (fun q => q.1 == c.index)).map Prod.snd).getD { source := c.val 0x0101, miss := 0, ratioBad := false }

/-- Store what one layer keeps. -/
def State.keepLayer (s : State) (i : Nat) (k : LayerKeep) : State :=
  { s with layerKeep := s.layerKeep.filter (fun q => q.1 != i) ++ [(i, k)] }

/-- The scaler of a layer is fitted to its line buffer for the picture it takes (R188). -/
def State.fitScaler (s : State) (c : Chan) (p : Pick) : Nat × Nat × State :=
  let i := c.index
  let cr := c.crop p.width p.height
  let sz := orientedSize c.orient cr.2.2.1 cr.2.2.2
  let fit := lineFit c.vTaps sz.1 ((s.scalerLen c.scaler).getD 0) s.skim
  let short := decide (fit.1 < c.vTaps) || decide (fit.2 < sz.1)
  let was := s.flag F.L_STAT_LINEBUF_SHORT i
  let s1 := (s.putFlag F.L_STAT_LINEBUF_SHORT short i).putFlag F.L_STAT_CROPPED (decide (fit.2 < sz.1)) i
  let s2 :=
    if short && !was then (s1.raise F.CMP_EVT_LINEBUF_SHORT).tally 0x0504 [c.handle, c.scaler, fit.1, fit.2, sz.1]
    else if was && !short then s1.tally 0x0505 [c.handle, c.scaler]
    else s1
  (fit.1, fit.2, s2)

/-- The ratio of a following crop is out of range (R189). -/
def ratioBad (c : Chan) (p : Pick) : Bool :=
  let sz := orientedSize c.orient p.width p.height
  c.following && (if c.scaled then !(ratioOk c.destW sz.1 && ratioOk c.destH sz.2) else sz.1 != c.destW || sz.2 != c.destH)

/-- A layer that takes no picture through a scaler has none shortened (R203). The layer that was short leaves no 0x0505, which
R188 gives for a buffer that fits again (DESIGN CHOICE). -/
def State.noScaler (s : State) (i : Nat) : State :=
  ((s.putFlag F.L_STAT_LINEBUF_SHORT false i).putFlag F.L_STAT_CROPPED false i).put F.L_STAT_V_TAPS 0 i

/-- A layer that takes no picture at all: a fill, a stopped layer, or one whose stream gives none (R175, R188, R189). -/
def State.noPicture (s : State) (i : Nat) : State := (s.noScaler i).putFlag F.L_STAT_RATIO_BAD false i

/-- What a layer that shows a picture does with it: its taps, and whether its ratio makes it transparent. -/
def State.layerPicture (s : State) (c : Chan) (p : Pick) (k : LayerKeep) : LayerWork × State :=
  let i := c.index
  let bad := ratioBad c p
  let s1 := (s.putFlag F.L_STAT_RATIO_BAD bad i).keepLayer i { k with ratioBad := bad }
  let s2 := if bad && !k.ratioBad then
      (s1.raise F.CMP_EVT_RATIO_BAD).tally 0x0506 [c.handle, p.width + p.height * 65536, c.destW + c.destH * 65536]
    else s1
  let fit : Nat × Nat × State := if c.scaled then s2.fitScaler c p else (0, 0, s2.noScaler i)
  ({ chan := c, shows := if bad && c.scaled then .nothing else .picture, absent := false, barred := bad && c.scaled,
     pick := some p, vTaps := fit.1, wUsed := fit.2.1 }, fit.2.2.put F.L_STAT_V_TAPS fit.1 i)

/-- What a running layer shows in frame n (R175, R194). A change of SOURCE by commit starts miss anew; a SOURCE that a forced
destroy nulled goes on counting (R128, R195). -/
def State.decideLayer (s : State) (n : Nat) (picks : List (Nat × Pick × Option Nat)) (c : Chan) : LayerWork × State :=
  let i := c.index
  let source := c.val 0x0101
  if source = 0 ∧ c.nulls.contains 0x0101 = false then
    let s1 := (((s.put F.L_STAT_STATE 1 i).put F.L_STAT_MARK 0 i).put F.L_STAT_MISS 0 i).noPicture i
    ({ chan := c, shows := .fill, absent := false, barred := false, pick := none, vTaps := 0, wUsed := 0 },
      s1.keepLayer i { source := 0, miss := 0, ratioBad := false })
  else
    let live := s.live c
    let none' : Pick := { handle := source, mark := 2, base := none, width := 0, height := 0, skim := s.skim }
    let p := ((picks.find? (fun q => q.2.1.handle == source)).map (fun q => q.2.1)).getD none'
    let old := s.layerKept c
    let before := if old.source = source ∨ c.nulls.contains 0x0101 = true then old.miss else 0
    let hold := live.fld 0x0106 0 1
    let miss := if p.mark = 2 then before + 1 else 0
    let s1 :=
      if p.mark = 2 then
        let t := s.bump R.L_NOT_READY_CNT i
        if miss = 1 then (t.raise F.CMP_EVT_NOT_READY).tally 0x0500 [c.handle, source, n] else t
      else if 0 < before then (s.raise F.CMP_EVT_RECOVERED).tally 0x0502 [c.handle, before]
      else s
    let s2 := if miss = hold + 1 then
        ((s1.bump R.L_ABSENT_CNT i).raise F.CMP_EVT_ABSENT).tally 0x0501 [c.handle, live.fld 0x0106 1 1, n]
      else s1
    let st := if miss = 0 then 1 else if miss ≤ hold then 2 else 3
    let k : LayerKeep := { source := source, miss := miss, ratioBad := old.ratioBad }
    let s3 := (((s2.put F.L_STAT_STATE st i).put F.L_STAT_MARK p.mark i).put F.L_STAT_MISS (min miss 255) i).keepLayer i k
    let shows : LayerShow := if st = 3 then absentShow live (some p) else if p.base.isSome then .picture else .nothing
    if p.base.isSome then
      let q := s3.layerPicture c p k
      ({ q.1 with shows := if q.1.shows = .nothing && decide (shows = .picture) then .nothing else shows, absent := decide (st = 3) }, q.2)
    else
      ({ chan := c, shows := shows, absent := decide (st = 3), barred := false, pick := some p, vTaps := 0, wUsed := 0 },
        (s3.keepLayer i { k with ratioBad := false }).noPicture i)

/-- The running layers in composition order, bottom first (R180). -/
def State.layerOrder (s : State) : List Chan :=
  let key (c : Chan) : Nat := (if s.flag F.CMP_CTL_ORDER_MODE then c.val 0x0102 * 2 ^ 18 else 0) + c.index
  sortBy (fun a b => decide (key a ≤ key b)) (s.running kLayer)

/-- A layer that runs takes a new picture (R55). -/
def State.newPicture (s : State) (picks : List (Nat × Pick × Option Nat)) : Bool :=
  picks.any (fun p => p.2.1.mark == 0 && (s.running kLayer).any (fun c => c.val 0x0101 == p.2.1.handle))

/-- The layers of frame n are decided, but not in Warm, where nothing is composed, and the frame's work takes its picks and
layers. -/
def State.decideFrame (s : State) (n : Nat) (marks : List (Nat × Nat × Nat)) : State :=
  let q := s.picksOf n marks
  let picks := q.1
  let s1 := s.keepPicks n picks
  let s3 : State := if q.2 then { s1 with red := { s1.red with voids := n :: s1.red.voids.take 15 } } else s1
  let s4 := s3.each (s3.cmd.chans.filter (fun c => c.kind == kLayer && decide (c.st = .stopped))) (fun c t =>
    (t.put F.L_STAT_STATE 0 c.index).noPicture c.index)
  let done := (if s4.power = 1 then [] else s4.layerOrder).foldl (fun (acc : List LayerWork × State) c =>
    let r := acc.2.decideLayer n picks c
    (acc.1 ++ [r.1], r.2)) ([], s4)
  done.2.modFrame n (fun w => { w with picks := picks.map (fun p => (p.1, p.2.1)), layers := done.1 })

/-- The work of frame n, as latched at S(n). -/
def State.newFrame (s : State) (n : Nat) (active : Bool) : FrameWork :=
  { frame := n, skim := s.skim, rate := s.rate, stateId := s.cmd.latches, chans := s.cmd.chans, picks := [],
    active := active, regions := (s.running kRegion).map regionOf, layers := [], carry := 0, bandsDone := 0, canvas := [], terms := [],
    feeds := [], forecastDone := false, bandsSent := 0, sums := [], sumsDone := false, updated := false, moved := false, drops := 0, firstDrop := none,
    peak := (0, 0) }

/-- The parameter state is latched for frame n (R25). -/
def State.latch (s : State) (n : Nat) (active : Bool) : State :=
  let t : State := { s with cmd := { s.cmd with latched := s.cmd.chans, latches := s.cmd.latches + 1 } }
  { t with frames := t.newFrame n active :: t.frames.take 4 }

end Sys2Proof.Machine
end

