-- ==== Sys2Proof/Machine/System.lean ====
section
/-! DEFINITION. The frame lattice, the modes and background work (R19 to R64): boundaries, work starts, mode requests and
their transitions, the advance, and escalation. -/
namespace Sys2Proof.Machine
open Sys2Proof

/-! ## Rate changes (R57 to R59, R588) -/

/-- SYS_MODE_STAT as it reads. -/
def State.modeStat (s : State) : Nat := (s.reg R.SYS_MODE_STAT.base).toNat

/-- A change of the mode has taken effect at frame k (R64): SYS_MODE_STAT before and after it. -/
def State.noteMode (s : State) (old k : Nat) : State := s.tally 0x0020 [old, s.modeStat, k]

/-- The smallest q with B'(q) after a device time. -/
def boundaryAfter (code t : Nat) : Nat :=
  let n := frameOf code t
  if t < boundaryOf code n then n else n + 1

/-- The smallest j with S'(j) at or after a device time, on the lattice of a rate. -/
def State.firstSAt (s : State) (code t : Nat) : Nat :=
  let n := frameOf code (t + s.adv)
  n + 2 + (if t + s.adv ≤ boundaryOf code n then 0 else 1)

/-- The boundaries and frames of a rate change in Show (R57): m-1 is the first frame whose S falls after the acceptance, or the
frame that a mirrored request names. -/
def State.showChange (s : State) (rate frate frame : Nat) : RateChg :=
  let last := max frame (max s.sys.nextS (s.firstSFrom (s.now + 1)))
  { last := last, first := s.firstSAt frate (s.bAt last), lastB := last, bound := boundaryAfter frate (s.bAt last),
    oldRate := s.rate, newRate := frate, newMode := rate }

/-- Those of a rate change in Hold or Warm (R49): the new lattice governs from its first boundary after the acceptance, or the
boundary that a mirrored request names; old frames start until then. -/
def State.quietChange (s : State) (rate frate frame : Nat) : RateChg :=
  let q := max frame (boundaryAfter frate s.now)
  let t := boundaryOf frate q
  let b := frameOf s.rate t
  { last := max (s.sys.nextS - 1) (s.firstSFrom t - 1), first := s.firstSAt frate t, lastB := if s.bAt b < t then b else b - 1,
    bound := q, oldRate := s.rate, newRate := frate, newMode := rate }

/-- A rate change is agreed (R57, R59): its boundaries and frames are fixed, and the deferred commands past m-1 complete with
TIMEOUT. `frame` is what a mirrored request names, or 0. -/
def State.beginRate (s : State) (rate frate frame : Nat) : State :=
  let c := if s.power = 3 then s.showChange rate frate frame else s.quietChange rate frate frame
  (s.modSys (fun y => { y with rateChg := some c })).timeoutDeferred (fun d => decide (c.last < d.frame))

/-- The new lattice comes into force (R58): at B(m-1) in Show, and at its first boundary in Hold and Warm. The rate registers
change, and the next boundary and work start are those of the new lattice. A new boundary that coincides with B(m-1) is the
one that fires. MODE_CHANGE gives j as the frame at which the change took effect (DESIGN CHOICE: R64 does not say whether that is
m-1, m or j). -/
def State.switchRate (s : State) : State :=
  match s.sys.rateChg with
  | none => s
  | some r =>
    if s.rate = r.newRate then s
    else
      let show_ := decide (s.power = 3)
      let t := if show_ then boundaryOf r.oldRate r.lastB else boundaryOf r.newRate r.bound
      let s1 := ((s.atTime t).put F.SYS_MODE_STAT_FRATE r.newRate).put F.SYS_MODE_STAT_RATE r.newMode
      let q := frameOf r.newRate t
      let s2 := if show_ ∧ boundaryOf r.newRate q = t then s1.put64 R.SYS_FRAME_NUM_LO q else s1
      let s3 := s2.modSys (fun y => { y with nextB := r.bound, nextS := r.first, rateChg := if show_ then y.rateChg else none })
      let s4 := if show_ then s3.put F.SYS_MODE_STAT_HOLD_CAUSE 3 else s3
      (((s4.noteMode s.modeStat r.first).tally 0x0024 [r.oldRate, r.newRate, r.last, r.first]).calRate r.last r.first).refreshAll.settleLattice

/-- RATE_CHANGE (R57): the old lattice ends with B(m-1), once that boundary has fired and, in Hold and Warm, the old frames that
start before the first new boundary have started. -/
def doRateChange (s : State) : State :=
  match s.sys.rateChg with
  | some r => if r.lastB < s.sys.nextB ∧ (s.power = 3 ∨ r.last < s.sys.nextS) then s.switchRate else s
  | none => s

/-- The old lattice has fired its last boundary: the next one is the new lattice's. -/
def State.endOldLattice (s : State) : State :=
  match s.sys.rateChg with
  | some r => if r.lastB < s.sys.nextB then s.switchRate else s
  | none => s

/-! ## Background activities (R37, R38) -/

/-- The deadline of each background activity in ns (R38): whole-memory scrub, window pair, model refit, telemetry, retraining,
signature test, pin-short test, Tally mirror, loopback. Activity 9 has none. -/
def bgDeadlines : List Nat :=
  [86400 * oneSecond, 2 * oneSecond, 60 * oneSecond, oneSecond / 10, oneSecond, 600 * oneSecond, 10 * oneSecond, oneSecond,
   60 * oneSecond]

/-- BG_ESCALATE (R37, R38): once, twice or four times the deadline of an activity has passed since it last met it, and its level
rises. Activity 9 rises no further than level 0. -/
def doBgEscalate (a : Nat) (s0 : State) : State :=
  let l := s0.get F.SYS_BG_STAT_LEVEL a
  if a = 9 ∨ 3 ≤ l then s0
  else
    let s := s0.atUptime ((s0.bgAt a).from_ + bgDeadlines.getD a 0 * 2 ^ l)
    let s1 := s.put F.SYS_BG_STAT_LEVEL (l + 1) a
    let s2 := if l = 0 then (s1.bump F.SYS_BG_STAT_ESCALATIONS a).modBg a (fun b => { b with since := s.uptime }) else s1
    (if l = 2 then s2.putFlag F.SYS_PIPE_STAT_BG_ESCALATED true else s2).tally 0x0012 [a, l + 1]

/-- BG_RESTORED (R37): the activity meets its deadline, which counts anew from here. -/
def doBgRestored (a : Nat) (s : State) : State :=
  let s1 := s.modBg a (fun b => { b with from_ := s.uptime, ahead := 0 })
  if s.get F.SYS_BG_STAT_LEVEL a = 0 then s1
  else (s1.put F.SYS_BG_STAT_LEVEL 0 a).tally 0x0013 [a, (s.uptime - (s.bgAt a).since) / 1000000]

/-- BG_ESCALATED sets again while an activity stays at level 3 (R42). -/
def State.holdEscalated (s : State) : State :=
  if (List.range 10).any (fun a => s.get F.SYS_BG_STAT_LEVEL a == 3) then s.putFlag F.SYS_PIPE_STAT_BG_ESCALATED true else s

/-! ## The advance (R28) -/

/-- The zone offsets in force. -/
def State.zoneOffsets (s : State) : List Int :=
  (s.cmd.chans.filter (fun c => c.kind == kZone)).map (fun z => s.offsetOf z.handle)

/-- The rule that refuses a write of ADVANCE (R28): 9 in Show, 28 or 29. -/
def State.advanceRefusal (s : State) (v : Nat) : Option Nat :=
  if s.power = 3 then (if v = s.get F.SYS_PIPE_CTL_ADVANCE then none else some 9)
  else if 10000 < v ∨ s.zoneOffsets.any (fun o => decide ((v : Int) * 1000 < -o)) = true then some 28
  else if (s.running kEndpoint).any (fun c => s.bufferBad c v (periodUs s.rate)) = true then some 29
  else none

/-- ADVANCE_WRITE (R28): a write of SYS_PIPE_CTL. -/
def doAdvanceWrite (value : Word) (s : State) : State :=
  let v := value.toNat % 16384
  match s.advanceRefusal v with
  | none => (s.put F.SYS_PIPE_CTL_ADVANCE v).refreshAll
  | some rule =>
    let s1 := if rule = 9 then s.rejectS R.SYS_PIPE_CTL.base else s
    (s1.putFlag F.SYS_PIPE_STAT_ADV_REJECT true).tally 0x0014 [v, rule]

/-! ## Mode requests (R49 to R51) -/

/-- Fields of a write of SYS_MODE_REQ. -/
def reqRate (v : Nat) : Nat := bits v 1 0
def reqFrate (v : Nat) : Nat := bits v 7 4
def reqPower (v : Nat) : Nat := bits v 10 8
def reqPrec (v : Nat) : Bool := bitAt v 12

/-- The highest frame-rate code of a Rate mode (R63). -/
def rateTop (rate : Nat) : Nat := match rate with | 0 => 9 | 1 => 12 | _ => 15

/-- Write the RESULT of a mode request (R51). -/
def State.modeResult (s : State) (st : Nat) : State := (s.put F.SYS_MODE_STAT_RESULT st).advance F.SYS_MODE_STAT_SEQ

/-- The request is for Dormant from a mode of an Active that has no READY Standby. -/
def State.dormantAlone (s : State) (v : Nat) : Bool := decide (reqPower v = 0) && decide (s.role = 1) && !s.red.follows

/-- A mode request runs or waits for its acknowledgement, or a rate change or a step runs (R60, R364); Dormant also waits for an
update (R558). A request made after a refused Dormant request, before the Hold that it causes is entered, is BUSY too
(DESIGN CHOICE: R50 does not say). -/
def State.modeBusy (s : State) (v : Nat) : Bool :=
  s.sys.trans.isSome || s.sys.rateChg.isSome || s.sys.holdNext || s.red.queue.any (fun r => match r.what with
    | .mode _ => true
    | _ => false) || s.tim.plan.any (fun p => decide (s.sys.nextS ≤ p.first)) ||
  (decide (reqPower v = 0) && decide (1 ≤ s.get F.UPD_STAT_PHASE) && decide (s.get F.UPD_STAT_PHASE ≤ 6))

/-- Check 8 of R50 fails in the state that the request leads to. -/
def State.modeUnfit (s : State) (v : Nat) : Bool :=
  let rate := reqRate v
  let frate := reqFrate v
  let skim := reqPrec v
  let eps := s.cmd.chans.filter (fun c => c.kind == kEndpoint && decide (c.st ≠ .draining))
  let next : State := (((s.put F.SYS_MODE_STAT_RATE rate).put F.SYS_MODE_STAT_FRATE frate).putFlag F.SYS_MODE_STAT_PREC skim)
  decide (rateCeiling rate < s.endpointPixels) ||
  s.cmd.chans.any (fun c => c.kind == kLayer && decide (layerLimit rate skim ≤ c.index)) ||
  (skim != s.skim && eps.any (fun c => c.epCorr skim == 0 && c.epCorr (!skim) != 0)) ||
  (s.running kEndpoint).any (fun c => s.bufferBad c (s.get F.SYS_PIPE_CTL_ADVANCE) (periodUs frate)) ||
  next.allowanceBad

/-- Checks 1 to 8 of R50. `follow` is a Standby's application of its Active's request, which check 3 lets pass. -/
def State.modeChecks (s : State) (follow : Bool) (v : Nat) : List (Nat × Bool × Nat) :=
  let power := reqPower v
  let changes := reqRate v != s.get F.SYS_MODE_STAT_RATE || reqFrate v != s.rate || reqPrec v != s.skim
  let loaded := s.str.inForce.isSome
  let admitted := s.str.inForce.any (fun st => st.admits (reqRate v) (reqPrec v))
  [(1, decide (reqRate v = 3) || decide (3 < power), stUnsupported),
   (2, s.modeBusy v, stBusy),
   (3, !follow && decide (s.role = 2) && (changes || power == 2 || power == 3), stNotPermitted),
   (4, decide (s.power = 3) && reqPrec v != s.skim, stWrongMode),
   (5, s.dormantAlone v || (s.flag F.STA_STAT_RECOVERY && decide (2 ≤ power)) ||
       (decide (power = 3) && decide (s.power ≠ 3) && decide (s.role ≠ 2) && !s.flag F.SYS_MODE_STAT_CLK_OK &&
         !s.flag F.SYS_MODE_CTL_FREERUN_OK), stWrongMode),
   (6, decide (rateTop (reqRate v) < reqFrate v), stInconsistent),
   (7, (power == 2 || power == 3 || (loaded && (reqRate v != s.get F.SYS_MODE_STAT_RATE || reqPrec v != s.skim))) && !admitted, stNoCapacity),
   (8, s.modeUnfit v, stInconsistent)]

/-- A request changes the frame rate by itself, in Hold or Warm. -/
def State.quietRate (s : State) (v : Nat) : Bool :=
  decide (s.power ≠ 3) && decide (reqPower v ≠ 0) && decide (reqFrate v ≠ s.rate) && reqPrec v == s.skim

/-- FRAME of a mirrored mode request (R60): the first new boundary of a rate change in Hold or Warm, else the first frame whose S
lies at least 50 µs ahead, by when both devices have accepted it (R474). 0 on a device with no Standby. -/
def State.modeFrom (s : State) (v : Nat) : Nat :=
  let t := s.now + 50000 * 65536
  if s.hasStandby || s.mirroring then
    if s.quietRate v then boundaryAfter (reqFrate v) t else max s.sys.nextS (s.firstSFrom t)
  else 0

/-- An accepted request begins its transition (R51). A replacement that is armed or ready is withdrawn (R96); a request for
Hold during an automatic Hold makes it a requested one (R56), whether or not the request also changes the Precision (DESIGN
CHOICE: R56 and R61 do not say). `frame` is FRAME of a mirrored request, at which both devices of the pair act (R60), or 0. -/
def acceptMode (frame v : Nat) (s : State) : State :=
  let s1 := if s.strPhase = 2 ∨ s.strPhase = 3 then s.strWithdraw 1 else s
  let m : ModeTrans := { rate := reqRate v, frate := reqFrate v, power := reqPower v, prec := if reqPrec v then 1 else 0,
                         started := s.uptime, handover := decide (reqPower v = 0) && s.mirroring,
                         from_ := if s.quietRate v then 0 else frame, ready := false }
  let s2 := ((s1.modeResult stOK).putFlag F.SYS_MODE_STAT_TRANS true).modSys (fun y => { y with trans := some m })
  let s3 := if reqPower v = 2 ∧ s.power = 2 then s2.put F.SYS_MODE_STAT_HOLD_CAUSE 1 else s2
  if reqPower v ≠ 0 ∧ reqFrate v ≠ s.rate ∧ reqPrec v = s.skim then s3.beginRate (reqRate v) (reqFrate v) frame else s3

/-- MODE_REQUEST (R50): a write of SYS_MODE_REQ; with GO its fields are one request. -/
def doModeRequest (value : Word) (s : State) : State :=
  let v := value.toNat
  let s1 := s.setReg R.SYS_MODE_REQ.base (value &&& 0x17F3)
  if bitAt v 31 = false then s1
  else
    let r := firstFail (s1.modeChecks false v)
    if r.2 ≠ stOK then
      let s2 := ((s1.modeResult r.2).raise F.SYS_MODE_EVT_REQ_DONE).tally 0x0021 [v, r.2, r.1]
      if r.1 = 5 ∧ s1.dormantAlone v = true ∧ s1.power = 3 then s2.modSys (fun y => { y with holdNext := true }) else s2
    else s1.mirroredFrom (s1.modeFrom v) true (.mode v) (acceptMode (s1.modeFrom v) v)

/-! ## Power transitions (R52, R54 to R56) -/

/-- DARK notices to every bound endpoint at its P_z(k) (R281). -/
def State.sendDark (s : State) (k : Nat) (chans : List Chan) (cs : List Chan) : State :=
  s.each cs (fun c t => match t.boundTo chans c with
    | some (r, _) => t.sendControl r c.epPosition t.seqNow opDark (t.pAt k (zoneOffset chans c.epZone)) []
    | none => t)

/-- Hold is entered at S(k), or from Warm at once (R52, R64): the frame kept is k - 1, or none from Warm. -/
def State.enterHold (s : State) (k cause : Nat) : State :=
  let kept := if s.power = 3 then k - 1 else 2 ^ 64 - 1
  let s1 := (((s.put F.SYS_MODE_STAT_POWER 2).put F.SYS_MODE_STAT_HOLD_CAUSE cause).bump R.SYS_HOLD_CNT).raise F.SYS_MODE_EVT_HOLD_ENTER
  let eps := ((s1.frameWork kept).map (fun w => w.terms.map (fun t => (t.index, t.eps)))).getD []
  ({ s1 with gov := { s1.gov with heldEps := eps } } : State).tally 0x0022 [cause, kept] |>.modSys (fun y =>
    { y with heldFrame := kept, holdFrom := k, holdLen := 0 })

/-- Hold is left at S(k) (R56, R64); its length is the number of frames whose S fell in it. -/
def State.leaveHold (s : State) (k : Nat) : State :=
  let cause := s.get F.SYS_MODE_STAT_HOLD_CAUSE
  ((s.put F.SYS_MODE_STAT_HOLD_CAUSE 0).raise F.SYS_MODE_EVT_HOLD_EXIT).tally 0x0023 [cause, k, s.sys.holdLen]

/-- A power transition between Warm, Hold and Show takes effect at S(k) (R52). -/
def State.applyPower (s : State) (new k cause : Nat) : State :=
  let old := s.power
  if new = old then s
  else
    let s1 := if new = 1 then
        let us := s.running kUniverse
        ((s.each us (fun u t => t.terminateUniverse u k 2)).sendDark k s.cmd.chans (s.running kEndpoint)).dropAllStaged 2
      else s
    let s2 := if old = 2 then s1.leaveHold k else s1
    let s3 := if new = 2 then s2.enterHold k cause else (s2.put F.SYS_MODE_STAT_POWER new).put F.SYS_MODE_STAT_HOLD_CAUSE 0
    ((((s3.noteMode s.modeStat k).gateEngines).ddMode old new k).governorRest new).modSys (fun y => { y with holdNext := false, sameFrames := 0 })

/-- The transition that runs has nothing left to change but power; Dormant waits for its handover (R49). -/
def State.powerReady (s : State) (m : ModeTrans) : Bool :=
  !m.handover && (m.power == 0 || ((m.prec == 1) == s.skim && m.frate == s.rate && m.rate == s.get F.SYS_MODE_STAT_RATE)) && s.sys.rateChg.isNone

/-- A change between Show and Hold that a device takes of itself at S(k), which its Standby follows at the same boundary (R49).
The record is a mode request of POWER that names frame k (DESIGN CHOICE: R472 lists no record for it). -/
def State.ownPower (s : State) (new k cause : Nat) : State := (s.applyPower new k cause).sendMirror k false (.power k new cause)

/-- The part of S(k) that a transition takes (R52, R588): a Rate mode that changes alone, or the next step of a power change.
Warm to Hold waits for the engines and ingest, and Warm to Show for the engines. -/
def State.modeStep (s : State) (k : Nat) : State :=
  match s.sys.trans with
  | none => if s.sys.holdNext ∧ s.power = 3 then s.ownPower 2 k 1 else s
  | some m =>
    if k < m.from_ then s else
    let s1 := if m.power ≠ 0 ∧ m.rate ≠ s.get F.SYS_MODE_STAT_RATE ∧ m.frate = s.rate ∧ (m.prec = 1) = (s.skim = true) ∧ s.sys.rateChg.isNone = true then
        ((s.put F.SYS_MODE_STAT_RATE m.rate).noteMode s.modeStat k).refreshAll
      else s
    let goal := max 1 m.power
    if s1.powerReady m = false ∨ goal = s1.power ∨ (s1.power = 1 ∧ (goal = 2 ∨ m.ready = false)) then s1 else s1.applyPower goal k 1

/-- Frame k - 1 had the same inputs as the frame before, or not (R55): what differed at its own S, and what differed since. -/
def State.countSame (s : State) : State :=
  s.modSys (fun y => { y with
    sameFrames := if y.inputChanged || y.frameChanged then 0 else y.sameFrames + 1, frameChanged := y.inputChanged, inputChanged := false })

/-- The automatic Hold at S(k) (R55, R56). A Standby follows its Active's. -/
def State.autoHold (s : State) (k : Nat) : State :=
  let changed := s.sys.inputChanged || s.sys.frameChanged
  let h := max 2 (s.get F.SYS_MODE_CTL_AUTO_HOLD_FRAMES)
  let auto_ := decide (s.power = 2) && decide (s.get F.SYS_MODE_STAT_HOLD_CAUSE = 2)
  let s1 :=
    if s.role = 2 ∨ s.sys.trans.isSome = true then s
    else if auto_ && changed then s.ownPower 3 k 0
    else if s.power = 3 ∧ s.flag F.SYS_MODE_CTL_AUTO_HOLD_EN = true ∧ h ≤ s.sys.sameFrames ∧ changed = false then s.ownPower 2 k 2
    else s
  s1.modSys (fun y => { y with
    frameChanged := s.sys.inputChanged, inputChanged := false, holdLen := if s1.power = 2 then y.holdLen + 1 else y.holdLen })

/-- A transition completes (R51). -/
def State.finishMode (s : State) (m : ModeTrans) : State :=
  let s1 := ((s.modeResult stOK).putFlag F.SYS_MODE_STAT_TRANS false).modSys (fun y => { y with trans := none })
  let s2 := (s1.put R.SYS_MODE_TRANS_US (min (2 ^ 32 - 1) ((s.uptime - m.started) / 1000))).raise F.SYS_MODE_EVT_REQ_DONE
  s2.wakeStep

/-- MODE_CHANGE (R51, R52): the engines and ingest are powered for Warm to Hold, or the last change of a transition is made,
and the request completes. For Warm to Show the engines are ready, and the next S(k) takes the change. -/
def doModeChange (s : State) : State :=
  match s.sys.trans with
  | none => s
  | some m =>
    if s.powerReady m = false then s
    else if s.power = 1 ∧ m.power = 2 then
      let s1 := ((s.enterHold s.sys.nextS 1).noteMode s.modeStat s.frameNum).gateEngines
      (s1.ddMode 1 2 s1.sys.nextS).finishMode m
    else if s.power = m.power then s.finishMode m
    else if s.power = 1 ∧ m.power = 3 then s.modSys (fun y => { y with trans := some { m with ready := true } })
    else s

/-! ## Precision change (R41, R61) -/

/-- A picture in the layer store is rewritten in the other precision (R41). -/
def State.convertPicture (s : State) (base w h : Nat) (skim : Bool) : State :=
  let old := (List.range h).map (fun y => (List.range w).map (fun x => s.picturePixel base w (!skim) x y))
  s.writePicture base w h skim (fun x y => (((old.getD y []).getD x Px.clear).map (recode (!skim) skim)))

/-- PRECISION_CHANGE (R61): the precision changes in Warm or Hold. Pictures of network streams are converted, pictures in
reception are dropped (R167), and what depends on the precision follows. -/
def doPrecisionChange (s : State) : State :=
  match s.sys.trans with
  | none => s
  | some m =>
    let skim := decide (m.prec = 1)
    if m.power = 0 ∨ s.power = 0 ∨ s.power = 3 ∨ skim = s.skim then s
    else
      let s1 := (s.putFlag F.SYS_MODE_STAT_PREC skim).noteMode s.modeStat s.frameNum
      let nets := s.cmd.chans.filter (fun c => c.kind == kStream && !c.stored)
      let s2 := s1.each nets (fun c t =>
        let t1 := match (t.stream c.index).latest with
          | some l => t.convertPicture (c.slotBase l.buf) l.width l.height skim
          | none => t
        t1.modStream c.index (fun x => { x with pics := [] }))
      let s3 := (((s2.voidWindows s.sys.nextS s.sys.nextS).dropAllStaged 2).reloadStores.gateEngines.refreshAll).noteInput
      if m.frate ≠ s.rate then s3.beginRate m.rate m.frate 0 else s3

/-! ## The boundary (R22) -/

/-- B(n) fires: the frame number is latched, vector 1 is raised, and direct-drive buffers swap. -/
def State.boundary (s : State) (n : Nat) : State :=
  let s1 := (((s.atTime (s.bAt n)).modSys (fun y => { y with nextB := n + 1 })).put64 R.SYS_FRAME_NUM_LO n).msi 1
  let s2 := (s1.ddBoundary n).holdEscalated
  let s3 := if s2.sys.rateChg.any (fun r => r.newRate == s2.rate && r.first == n) then
      (if s2.get F.SYS_MODE_STAT_HOLD_CAUSE = 3 then s2.put F.SYS_MODE_STAT_HOLD_CAUSE 0 else s2).modSys (fun y => { y with rateChg := none })
    else s2
  if s3.tim.plan.any (fun p => p.done && p.first == n) then { s3 with tim := { s3.tim with plan := none } } else s3

/-- FRAME_BOUNDARY (R19, R22): the next boundary fires, on the new lattice once B(m-1) of a rate change has fired. -/
def doFrameBoundary (s : State) : State :=
  if s.sys.started then
    let s1 := s.endOldLattice
    s1.boundary s1.sys.nextB
  else s

/-! ## The work start (R25) -/

/-- Registers that show what runs in a frame: ING_STAT, CMP_STAT, SEP_STAT, SEP_PIXELS, R_STAT, EP_STAT and GOV_STAT. -/
def State.showRunning (s : State) (old : List Chan) : State :=
  let layers := s.running kLayer
  let eps := s.running kEndpoint
  let regions := s.running kRegion
  let short := (layers.filter (fun c => s.flag F.L_STAT_LINEBUF_SHORT c.index)).length
  let s1 := (s.put F.CMP_STAT_RUNNING layers.length).put F.CMP_STAT_SHORT short
  let s2 := ((s1.put F.SEP_STAT_RUNNING eps.length).put F.SEP_STAT_REGIONS regions.length).put F.GOV_STAT_FEEDS (s.running kFeed).length
  let pixels := (eps.map Chan.epPixels).sum
  let s3 := (((s2.put F.SEP_PIXELS_PIXELS pixels).put F.ING_STAT_RUNNING (s.running kStream).length).putFlag F.GOV_STAT_FOLLOW (decide (s.role = 2))).each
    (List.range 16) (fun i t => t.put R.R_STAT 0 i)
  let s4 := s3.each (s.cmd.chans.filter (fun c => c.kind == kRegion && decide (c.st ≠ .draining))) (fun c t =>
    let named := (s.cmd.chans.filter (fun e => e.kind == kEndpoint && decide (e.st ≠ .draining) && e.epRegion == c.handle)).length
    ((t.putFlag F.R_STAT_RUNNING (decide (c.st = .running)) c.index).put F.R_STAT_BANDS (regionOf c).bands c.index).put
      F.R_STAT_ENDPOINTS named c.index)
  let s5 := s4.each (old.filter (fun c => c.kind == kEndpoint)) (fun c t => t.putFlag F.EP_STAT_RUNNING false c.index)
  let s6 := s5.each eps (fun c t => t.putFlag F.EP_STAT_RUNNING true c.index)
  ({ s6 with sep := { s6.sep with identity := s6.sep.identity.filter (fun i => eps.any (fun c => c.index == i)) } } : State).showCurves.showZones

/-- WINDOW notices to the bound endpoints with a sensor, at the first frame of a window (R229, R281, R296). -/
def State.sendWindows (s : State) (n : Nat) : State :=
  s.each (s.fitting.filter (fun z => z.calWindow != 0 && decide (n % z.calWindow = 0))) (fun z t =>
    let o := zoneOffset s.cmd.chans z.handle
    t.each ((membersOf s.cmd.chans z.handle).filter (fun c => c.kind == kEndpoint && decide (c.st = .running))) (fun c u =>
      match u.boundTo s.cmd.chans c with
      | some (r, j) =>
        if bitAt j.caps 0 then
          u.sendControl r c.epPosition ((u.seqOf n).getD u.seqNow) opWindow (u.pAt n o)
            (leBytes 4 (n / z.calWindow % 2 ^ 32) ++ time12 (u.pAt (n + z.calWindow) o))
        else u
      | none => u))

/-- Endpoints that ran in the frame before and are now stopped take a DARK notice (R281). -/
def State.darkStopped (s : State) (old : List Chan) (n : Nat) : State :=
  let gone := old.filter (fun c => c.kind == kEndpoint && decide (c.st = .running) &&
    s.cmd.chans.any (fun d => d.kind == kEndpoint && d.index == c.index && d.gen == c.gen && decide (d.st = .stopped)))
  if 2 ≤ s.power then s.sendDark n old gone else s

/-- The marks that a Standby follows for frame n (R475), or none where it goes by its own. -/
def State.followedMarks (s : State) (n : Nat) : List (Nat × Nat × Nat) :=
  ((s.red.marks.find? (fun m => m.1 == n)).map Prod.snd).getD []

/-- The marks and layers of frame n are decided: by an Active or a Solo device at once; by a Standby of an Active from that
device's marks, as soon as it has them (R475). -/
def State.chooseSources (s : State) (n : Nat) : State :=
  if s.role = 2 then
    if s.red.marks.any (fun m => m.1 == n) then s.decideFrame n (s.followedMarks n)
    else { s with red := { s.red with waitMarks := some n } }
  else
    let marks := s.marksOf (s.picksOf n []).1
    (s.decideFrame n []).sendMirror n false (.marks n marks)

/-- What the frame before n (n - 1, or the last of the old lattice) leaves to be written at D(n-1) = S(n): drive sums and lamp records, and the frame for the
accumulator to read. -/
def State.closeFrame (s : State) (n : Nat) : State :=
  let p := ((s.frames.head?).map FrameWork.frame).getD (n - 1)
  let s1 := (s.finishSums p).finishDirect p
  let held := (s1.frameWork p).any (fun w => !w.active)
  let q : Behind := { frame := p, src := if held then s1.sys.heldFrame else p, held := held,
                      chans := ((s1.frameWork p).map FrameWork.chans).getD s1.cmd.latched }
  let s2 : State := if 2 ≤ s1.power then { s1 with cal := { s1.cal with behind := s1.cal.behind ++ [q] } } else s1
  (((s2.showCal.closeAccounts s2.windowClocks).sendSignatures p).dropLate n)

/-- What takes effect at S(n) before the state of frame n is latched (R25): a waiting step, a mode change, stand-ins and a
partial structure, then the deferred commands, which are checked under that structure (R96, R146), corrections and
models. -/
def State.takeChanges (s : State) (n : Nat) : State :=
  let s0 := s.countSame
  let s1 := if s0.tim.plan.any (fun p => p.done && p.first == n) then s0.wakeStep else s0
  let s2 := (((s1.modeStep n).standinStep n).takePartial n).actDeferred n
  let ver := s2.get R.CAL_VERSION
  let s3 := s2.applyCorrections n
  let s4 := if s3.get R.CAL_VERSION = ver then s3 else s3.noteInput
  let s5 := s4.applyModels n
  let fresh := s5.newPicture (s5.picksOf n (s5.followedMarks n)).1
  (if fresh then s5.noteInput else s5).autoHold n

/-- The work of frame n starts once its sources are chosen: SEQ and the writebacks of a frame in Show, the notices of S(n), and the
registers that show what runs. `old` are the channels of the frame before. -/
def State.startWork (s : State) (n : Nat) (old : List Chan) (active : Bool) : State :=
  let s1 := if active then (s.advanceSeq n).each (List.range 16) (fun i t => t.wbStart n i) else s
  let s2 := ((s1.darkStopped old n).refreshDvl).refreshFix
  (((s2.refreshDd.ddWorkStart n).showRunning old).sendWindows n).sendSnapshot n

/-- S(n): the whole parameter state of frame n is latched, its sources are chosen, and its work starts (R24, R25). -/
def State.workStart (s : State) (n : Nat) : State :=
  let s0 := (s.atTime (s.sAt n)).modSys (fun y => { y with nextS := n + 1 })
  let s1 := (s0.closeFrame n).takeChanges n
  let active := decide (s1.power = 3)
  ((s1.latch n active).chooseSources n).startWork n s1.cmd.latched active

/-- WORK_START (R25): S(n) of the next frame. No frame of the old lattice starts after m-1 of a rate change (R57) or of a step
(R361). -/
def doWorkStart (s : State) : State :=
  if s.sys.started = false then s
  else
    match s.sys.rateChg with
    | some r =>
      if r.newRate ≠ s.rate ∧ r.last < s.sys.nextS then
        (if r.lastB < s.sys.nextB then s.switchRate.workStart r.first else s)
      else s.workStart s.sys.nextS
    | none =>
      if s.tim.plan.any (fun p => !p.done && decide (p.last < s.sys.nextS)) then s else s.workStart s.sys.nextS

def execFrameBoundary (s : State) : Host.Outcome State Fault Refusal := .next (doFrameBoundary s)
def execWorkStart (s : State) : Host.Outcome State Fault Refusal := .next (doWorkStart s)
def execRateChange (s : State) : Host.Outcome State Fault Refusal := .next (doRateChange s)
def execBgEscalate (activity : Fin 10) (s : State) : Host.Outcome State Fault Refusal := .next (doBgEscalate activity.val s)
def execBgRestored (activity : Fin 10) (s : State) : Host.Outcome State Fault Refusal := .next (doBgRestored activity.val s)
def execAdvanceWrite (value : Word) (s : State) : Host.Outcome State Fault Refusal := .next (doAdvanceWrite value s)
def execModeRequest (value : Word) (s : State) : Host.Outcome State Fault Refusal := .next (doModeRequest value s)
def execModeChange (s : State) : Host.Outcome State Fault Refusal := .next (doModeChange s)
def execPrecisionChange (s : State) : Host.Outcome State Fault Refusal := .next (doPrecisionChange s)

end Sys2Proof.Machine
end

