-- ==== Sys2Proof/Machine/HostLink.lean ====
section
/-! DEFINITION. The host link's events, MSI-X, and the bridge's boost clock, polling and semaphores (R420 to R423,
R432, R433, R435, R436). -/
namespace Sys2Proof.Machine
open Sys2Proof

/-- The number of an initiator in DBR_STAT.INITIATOR and DBR_SEM.OWNER, which is its rank (R432). -/
def rankOf : Initiator → Nat
  | .host => 0 | .mc0 => 1 | .mc1 => 2 | .mc2 => 3 | .supervisor => 4

/-- The initiator of a rank. -/
def ofRank : Nat → Option Initiator
  | 0 => some .host | 1 => some .mc0 | 2 => some .mc1 | 3 => some .mc2 | 4 => some .supervisor | _ => none

/-- Bring the HBR and DBR status fields up to date with the reads and writes they hold (R437, R438). -/
def State.syncHost (s : State) : State :=
  let byre := (s.host.held.filter HeldRead.byre).length + s.host.retrying.length
  let slots := (s.host.held.filter (fun h => h.byre && decide (h.who = .host))).length +
    (s.host.retrying.filter (fun r => decide (r.who = .host))).length
  (((s.put F.HBR_STAT_SLOTS (min slots 4)).put F.DBR_STAT_READS (min byre 7)).put F.DBR_STAT_POSTED
    (min s.host.posted.length 64)).putFlag F.DBR_STAT_BOOST s.host.boost

/-- Send the messages of pending vectors that are no longer masked (R421). -/
def State.sendPending (s : State) : State :=
  if s.host.msixEnable && !s.host.msixMaskAll then
    s.each (List.range 64) (fun v t =>
      if bitAt t.host.pba v && !t.vectorMasked v then
        { t with host := { t.host with pba := t.host.pba ^^^ 2 ^ v } }.emit (.msi v)
      else t)
  else s

/-- MSIX_UNMASK (R421): one vector's mask, or the function mask, is cleared; a pending vector sends one message. -/
def doMsixUnmask (vector : Option (Fin 64)) (s : State) : State :=
  match vector with
  | some v =>
    let k := 4 * v.val + 3
    let w := (sparseGet msixReset s.host.msixTable k).toNat
    let table := sparseSet msixReset s.host.msixTable k (BitVec.ofNat 32 (putBits w 0 1 0))
    ({ s with host := { s.host with msixTable := table } }).sendPending
  | none => ({ s with host := { s.host with msixMaskAll := false } }).sendPending

/-- What a Function Level Reset, a Hot Reset and a link down reset (R420): configuration space, the MSI-X table and
PBA, the HBR registers but its counters; held host reads are never completed. -/
def State.hostReset (s : State) : State :=
  let held := s.host.held.map (fun h => if h.who = Initiator.host then { h with dead := true } else h)
  let retrying := s.host.retrying.filter (fun r => decide (r.who ≠ Initiator.host))
  let h1 : HostLink := { s.host with
    msixEnable := false, msixMaskAll := false, msixTable := [], pba := 0, d3hot := false,
    held := held, retrying := retrying }
  let s1 : State := { s with host := h1 }
  (((s1.setReg R.HBR_CTL.base 0).setReg R.HBR_EVT.base 0).put F.HBR_STAT_MPS 0).syncHost

/-- The host reads held now. -/
def State.heldReads (s : State) : Nat := (s.host.held.filter (fun h => decide (h.who = .host))).length

/-- HOST_LINK_UP (R420). -/
def doHostLinkUp (speed width : Nat) (s : State) : State :=
  if s.power = 0 ∧ s.pwr.waking.isNone = true then s
  else ((((s.putFlag F.HBR_STAT_DL_UP true).put F.HBR_STAT_SPEED speed).put F.HBR_STAT_WIDTH width).raise
    F.HBR_EVT_LINK).tally 0x0F00 [speed, width]

/-- HOST_LINK_DOWN (R420, R436). -/
def doHostLinkDown (s : State) : State :=
  let n := s.heldReads
  let s1 := (((s.hostReset.putFlag F.HBR_STAT_DL_UP false).put F.HBR_STAT_SPEED 0).put F.HBR_STAT_WIDTH 0)
  (s1.raise F.HBR_EVT_LINK).tally 0x0F01 [n]

/-- FLR (R420, R436). -/
def doFlr (s : State) : State :=
  let n := s.heldReads
  let s1 := s.hostReset.bump R.HBR_FLR_CNT
  s1.tally 0x0F06 [n, s1.get R.HBR_FLR_CNT]

/-- D3HOT (R420). -/
def doD3hot (enter : Bool) (s : State) : State := { s with host := { s.host with d3hot := enter } }

/-- AER_UNCORRECTABLE (R436). -/
def doAerUncorrectable (status : Word) (s : State) : State :=
  (({ s with host := { s.host with aerStatus := status.toNat } }).raise F.HBR_EVT_AER).tally 0x0F07 [status.toNat]

/-- BOOST_FAIL (R423): every waiting read completes with all ones; posted writes wait. -/
def doBoostFail (s : State) : State :=
  let n := s.host.retrying.length
  let s1 := s.each s.host.retrying (fun r t => t.emit (.readData r.who 0xFFFFFFFF))
  let s2 := { s1 with host := { s1.host with retrying := [], boost := false, boostAskedAt := none } }
  (((s2.detected 0x24 0 0).raise F.DBR_EVT_BOOST_FAIL).tally 0x0F05 [1, n]).syncHost

/-- BOOST_STOP (R423): BOOST_HOLD µs after the last transaction the clock stops, unless a transaction waits. -/
def doBoostStop (s : State) : State :=
  if s.host.retrying.isEmpty && s.host.posted.isEmpty then
    ({ s with host := { s.host with boost := false } }).syncHost
  else s

/-- POLL (R435): in polled mode the mirror registers take the sampled values; nothing is consumed. -/
def doPoll (s : State) : State :=
  if s.flag F.DBR_CTL_POLL_EN then
    s.each (List.range 8) (fun i t =>
      let a := t.get R.DBR_MIRROR_ADDR i
      if a ≠ 0 ∧ (regionTable.take 4).any (fun r => decide (r.1 ≤ a) && decide (a < r.1 + r.2.1)) = true then
        t.put R.DBR_MIRROR (t.reg a).toNat i
      else t)
  else s

/-! ## Semaphores -/

/-- The state of a semaphore beside its register. -/
def State.modSem (s : State) (n : Nat) (f : Sem → Sem) : State :=
  { s with host := { s.host with sems := s.host.sems.modify n f } }

/-- Pass a released semaphore to the highest waiting requester, or leave it free (R432). -/
def State.passSem (s : State) (n : Nat) : State :=
  let w := s.get F.DBR_SEM_WAITING n
  match (List.range 5).find? (fun r => bitAt w r) with
  | some r =>
    ((s.put F.DBR_SEM_OWNER r n).put F.DBR_SEM_WAITING (w ^^^ 2 ^ r) n).modSem n
      (fun x => { x with since := s.uptime })
  | none => s.put F.DBR_SEM_OWNER 7 n

/-- Store the GUARD and REGION fields and clear REVOKED as a write of DBR_SEMn does (R438). -/
def State.semFields (s : State) (n : Nat) (value : Word) : State :=
  let v := value.toNat
  let s1 := (s.put F.DBR_SEM_GUARD (bits v 10 10) n).put F.DBR_SEM_REGION (bits v 13 11) n
  if bitAt v 14 then s1.putFlag F.DBR_SEM_REVOKED false n else s1

/-- Semaphores 12 to 15 take no host write (R432). -/
def semDenied (who : Initiator) (n : Nat) : Bool := decide (who = .host) && decide (12 ≤ n)

/-- SEM_TAKE (R432): granted at once if free, otherwise the request waits. -/
def doSemTake (who : Initiator) (n : Nat) (value : Word) (s : State) : State :=
  if semDenied who n then s
  else
    let s1 := s.semFields n value
    if s1.get F.DBR_SEM_OWNER n = 7 then
      (s1.put F.DBR_SEM_OWNER (rankOf who) n).modSem n (fun x =>
        { x with since := s1.uptime, revoked := if x.revoked = some who then none else x.revoked })
    else if s1.get F.DBR_SEM_OWNER n = rankOf who then s1
    else s1.put F.DBR_SEM_WAITING (s1.get F.DBR_SEM_WAITING n ||| 2 ^ rankOf who) n

/-- SEM_GIVE (R432): the owner releases the semaphore to the highest waiter. -/
def doSemGive (who : Initiator) (n : Nat) (value : Word) (s : State) : State :=
  if semDenied who n then s
  else
    let s1 := s.semFields n value
    if s1.get F.DBR_SEM_OWNER n = rankOf who then s1.passSem n else s1

/-- A semaphore is taken from its holder (R433): cause 0 the 64 µs limit, 1 a reset. -/
def State.revokeSem (s : State) (n cause : Nat) : State :=
  let owner := s.get F.DBR_SEM_OWNER n
  if owner = 7 then s
  else
    let s1 := ((s.putFlag F.DBR_SEM_REVOKED true n).raise F.DBR_EVT_REVOKED).tally 0x0F03 [n, owner, cause]
    (s1.modSem n (fun x => { x with revoked := if cause = 0 then ofRank owner else none })).passSem n

/-- SEM_REVOKED (R433): a semaphore held for 64 µs. -/
def doSemRevoked (n : Nat) (s : State) : State := s.revokeSem n 0

/-- A requester that resets gives up every semaphore it held and its requests; none stands for a Byre reset, which
releases them all (R433, R436). -/
def State.releaseSems (s : State) (who : Option Initiator) : State :=
  s.each (List.range 16) (fun n t =>
    match who with
    | some w =>
      let u := t.put F.DBR_SEM_WAITING ((t.get F.DBR_SEM_WAITING n) &&& (31 ^^^ 2 ^ rankOf w)) n
      if u.get F.DBR_SEM_OWNER n = rankOf w then u.revokeSem n 1 else u
    | none => (t.put F.DBR_SEM_WAITING 0 n).revokeSem n 1)

def execHostLinkUp (speed width : Nat) (s : State) : Host.Outcome State Fault Refusal := .next (doHostLinkUp speed width s)
def execHostLinkDown (s : State) : Host.Outcome State Fault Refusal := .next (doHostLinkDown s)
def execFlr (s : State) : Host.Outcome State Fault Refusal := .next (doFlr s)
def execD3hot (enter : Bool) (s : State) : Host.Outcome State Fault Refusal := .next (doD3hot enter s)
def execMsixUnmask (vector : Option (Fin 64)) (s : State) : Host.Outcome State Fault Refusal := .next (doMsixUnmask vector s)
def execAerUncorrectable (status : Word) (s : State) : Host.Outcome State Fault Refusal := .next (doAerUncorrectable status s)
def execBoostFail (s : State) : Host.Outcome State Fault Refusal := .next (doBoostFail s)
def execBoostStop (s : State) : Host.Outcome State Fault Refusal := .next (doBoostStop s)
def execPoll (s : State) : Host.Outcome State Fault Refusal := .next (doPoll s)
def execSemTake (who : Initiator) (sem : Fin 16) (value : Word) (s : State) : Host.Outcome State Fault Refusal :=
  .next (doSemTake who sem.val value s)
def execSemGive (who : Initiator) (sem : Fin 16) (value : Word) (s : State) : Host.Outcome State Fault Refusal :=
  .next (doSemGive who sem.val value s)
def execSemRevoked (sem : Fin 16) (s : State) : Host.Outcome State Fault Refusal := .next (doSemRevoked sem.val s)

end Sys2Proof.Machine
end

