-- ==== Sys2Proof/Machine/Tally.lean ====
section
/-! DEFINITION. Fault injection (R523 to R526), the Tally's ring, its limits and its flash mirror (R529 to R537), and the
check-value units (R538 to R541). -/
namespace Sys2Proof.Machine
open Sys2Proof

/-! ## Injection (R523 to R526) -/

/-- UNIT and ARG of an arm lie in the range that the detector's row of R520 names (check 3 of R523). -/
def injectionInRange (det unit arg : Nat) : Bool :=
  if 1 ≤ det ∧ det ≤ 5 then decide (unit < 12)
  else match det with
    | 0x06 => decide (unit < 12) && decide (arg < 4)
    | 0x08 | 0x09 | 0x0A => decide (arg < usableEnd / 32)
    | 0x0B => decide (unit < 12) || unit == 0xFF
    | 0x10 => (findReg arg).isSome && inByre arg
    | 0x11 => decide (unit < 16)
    | 0x12 => decide (arg < 16384)
    | 0x13 => decide (arg < 65536)
    | 0x14 => decide (arg < 256)
    | 0x15 => decide (arg < 256)
    | 0x17 | 0x18 => decide (unit < 3)
    | 0x19 => decide (unit < 3) && decide (firmwareArea / 32 ≤ arg) && decide (arg < ddBuffers / 32)
    | 0x1A | 0x1B => decide (unit < 25)
    | 0x1C => decide (unit < 8)
    | 0x1D | 0x21 | 0x30 => decide (arg < 4096)
    | 0x26 => decide (arg < 2)
    | 0x27 => (decide (4 ≤ arg) && decide (arg < 14)) || (decide (16 ≤ arg) && decide (arg < 22))
    | 0x29 => decide (arg < 7)
    | 0x2E => decide (unit < 8)
    | 0x31 => decide (unit < 32)
    | _ => true

/-- The power domain of a detector's injection point (check 5 of R523). -/
def injectionDomain (det unit : Nat) : Nat :=
  if 1 ≤ det ∧ det ≤ 6 then 10 + unit / 3
  else match det with
    | 0x08 | 0x09 | 0x0A => 9
    | 0x0B => if unit < 12 then 10 + unit / 3 else 1
    | 0x0C | 0x0D | 0x0E | 0x0F | 0x17 | 0x18 | 0x19 | 0x2B | 0x2C | 0x2D | 0x2E | 0x2F | 0x30 => 1
    | 0x1A | 0x1B => if unit < 16 then 3 + unit / 4 else if unit < 20 then 7 else if unit < 24 then 8 else 1
    | 0x1C | 0x1D | 0x1E | 0x1F | 0x20 | 0x21 | 0x22 => 15
    | 0x23 => 2
    | 0x31 => 14
    | _ => 0

/-- The pair-fatal detectors of R520. -/
def pairFatalIds : List Nat := [0x07, 0x09, 0x0A, 0x0B, 0x0C, 0x0D, 0x26, 0x27, 0x29, 0x2A]

/-- A detection of the detector at the point is pair-fatal (R520, R521): of an uncorrectable half, only in the image in force. -/
def State.fatalPoint (s : State) (det arg : Nat) : Bool :=
  pairFatalIds.contains det && (!(det == 9 || det == 10) || s.inImageInForce (32 * arg))

/-- Checks 1 to 5 of R523. -/
def State.injectionChecks (s : State) (det unit arg : Nat) : List (Nat × Bool × Nat) :=
  [(1, s.flt.armed.isSome, stBusy),
   (2, decide (det = 0 ∨ det = 7 ∨ 0x31 < det), stUnsupported),
   (3, !injectionInRange det unit arg, stInconsistent),
   (4, decide (s.role = 1) && s.fatalPoint det arg && !s.flag F.FLT_CTL_FATAL_OK, stNotPermitted),
   (5, !bitAt (s.get F.PCR_PD_STAT_ON) (injectionDomain det unit), stWrongMode)]

/-- INJECTION_ARMED (R523): FLT_INJ_CTL is written with ARM; any other key is ignored. -/
def doInjectionArmed (key : Nat) (s : State) : State :=
  if key ≠ 0xFA17 then s
  else
    let det := s.get F.FLT_INJ_SEL_DETECTOR
    let unit := s.get F.FLT_INJ_SEL_UNIT
    let arg := s.get R.FLT_INJ_ARG
    let r := firstFail (s.injectionChecks det unit arg)
    let s1 := (((s.put F.FLT_INJ_STAT_RESULT r.2).put F.FLT_INJ_STAT_CHECK r.1).advance F.FLT_INJ_STAT_SEQ).raise F.FLT_EVT_INJ_DONE
    if r.2 ≠ stOK then s1
    else
      let n := max 1 (s.get F.FLT_INJ_SEL_COUNT)
      let mode := s.flag F.FLT_INJ_SEL_MODE
      let a : Armed := { detector := det, unit := unit, arg := arg, left := n, perFrame := mode, lastFrame := none }
      (({ s1 with flt := { s1.flt with armed := some a } }).syncArmed).tally 0x1300 [det, unit, arg, n, if mode then 1 else 0]

/-- INJECTION_CANCELLED (R526): FLT_INJ_CTL is written with DISARM. -/
def doInjectionCancelled (key : Nat) (s : State) : State := if key ≠ 0xFA17 then s else s.cancelArmed 0

/-! ## Token buckets (R533) -/

/-- A whole token, in the units of a bucket. -/
def wholeToken : Nat := 1000000000

/-- RATE and BURST of a code. -/
def State.codeRate (s : State) (code : Nat) : Nat := max 1 (s.get F.TLY_CODE_RATE code)
def State.codeBurst (s : State) (code : Nat) : Nat := max 1 (s.get F.TLY_CODE_BURST code)

/-- The tokens of a code now: a bucket that has not been used is full. -/
def State.codeTokens (s : State) (code : Nat) : Nat :=
  match s.tly.buckets.find? (fun b => b.code == code) with
  | some b => min (s.codeBurst code * wholeToken) (b.tokens + s.codeRate code * (s.uptime - b.filled))
  | none => s.codeBurst code * wholeToken

/-- Change the Tally's state. -/
def State.modTly (s : State) (f : Tly → Tly) : State := { s with tly := f s.tly }

/-- Store the tokens of a code. -/
def State.setTokens (s : State) (code n : Nat) : State :=
  s.modTly (fun y => { y with buckets := y.buckets.filter (fun b => b.code != code) ++ [{ code := code, tokens := n, filled := s.uptime }] })

/-- A write of TLY_CODE's RATE and BURST: the bucket keeps its content, cut to the new BURST. -/
def State.writeCode (s : State) (code value : Nat) : State :=
  let n := s.codeTokens code
  let s1 := (s.put F.TLY_CODE_RATE (bits value 7 0) code).put F.TLY_CODE_BURST (bits value 15 8) code
  s1.setTokens code (min n (s1.codeBurst code * wholeToken))

/-! ## The ring (R529 to R532) -/

/-- The size of the Tally SRAM. -/
def ringBytes : Nat := 262144

/-- HEAD of R529. -/
def headWord (code len mark : Nat) : Nat := code % 65536 + len / 8 * 65536 + mark * 2 ^ 24

/-- A flash region for the mirror exists (R535). -/
def State.mirrorRegion (s : State) : Bool :=
  decide (s.pwr.opts.tallyLen % 65536 = 0) && decide (131072 ≤ s.pwr.opts.tallyLen)

/-- Records overwritten before they are mirrored are lost (R532). -/
def State.loseOverwritten (s : State) (n : Nat) : State :=
  if n = 0 then s
  else ((s.modTly (fun y => { y with lostOver := y.lostOver + n })).add R.TLY_LOST n).raise F.TLY_EVT_LOST

/-- Clear the records whose bytes the span will cover, and those older than them (R531). -/
def State.clearCovered (s : State) (off len : Nat) : State :=
  let hit (r : RingRec) : Bool := decide (r.off < off + len) && decide (off < r.off + r.len)
  let n := s.tly.ring.length - (s.tly.ring.reverse.takeWhile (fun r => !hit r)).length
  let gone := s.tly.ring.take n
  let s1 := s.modTly (fun y => { y with ring := y.ring.drop n })
  let s2 := s1.each gone (fun r t => (t.writeTally r.off (leBytes 4 0)).bump R.TLY_OVERWRITTEN)
  let seq := s.get64 R.TLY_MIRROR_SEQ_LO
  let lost := (gone.filter (fun r => decide (seq ≤ r.seq))).length
  if s2.flag F.TLY_CTL_MIRROR_EN && s2.mirrorRegion then s2.loseOverwritten lost else s2

/-- The pointers that show the ring. -/
def State.syncRing (s : State) (next : Nat) : State :=
  let oldest := match s.tly.ring with
    | r :: _ => r.off
    | [] => next
  (s.put F.TLY_NEXT_OFFSET (next % ringBytes)).put F.TLY_OLDEST_OFFSET (oldest % ringBytes)

/-- Write a record into the ring (R531). `done` is false where a reset interrupts it before HEAD is written. -/
def State.writeRecord (s : State) (r : TallyRec) (done : Bool) : State :=
  let items := r.items.take 30
  let len := 16 + 8 * items.length
  let next := s.get F.TLY_NEXT_OFFSET
  let wrap := decide (ringBytes < next + len)
  let s1 := if wrap then (s.clearCovered next (ringBytes - next)).writeTally next (leBytes 4 (headWord 0 0 0xC3)) else s
  let off := if wrap then 0 else next
  let seq := s.get64 R.TLY_SEQ_LO
  let s2 := s1.clearCovered off len
  let s3 := s2.writeTally (off + 4) (leBytes 4 (seq % 2 ^ 32) ++ leBytes 8 r.time ++ items.flatMap (fun i => leBytes 8 (i % 2 ^ 64)))
  let rec_ : RingRec := { off := off, len := len, seq := seq }
  let s4 := if done then s3.writeTally off (leBytes 4 (headWord r.code len 0x5A)) else s3.writeTally off (leBytes 4 0)
  let s5 := (s4.modTly (fun y => { y with ring := y.ring ++ [rec_], reserved := if done then y.reserved else some rec_ })).put64
    R.TLY_SEQ_LO (seq + 1)
  s5.syncRing (off + len)

/-- At the end of a reset the Tally closes a record that the reset interrupted (R532). -/
def State.closeRecord (s : State) : State :=
  match s.tly.reserved with
  | none => s
  | some r =>
    (((s.writeTally r.off (leBytes 4 (headWord 0x1307 r.len 0x5A))).modTly (fun y => { y with reserved := none })).bump
      R.TLY_VOID).raise F.TLY_EVT_VOID

/-- A record passes its code's bucket, or is counted as suppressed (R533). -/
def State.acceptRecord (s : State) (r : TallyRec) (done : Bool) : State :=
  if s.codeRate r.code = 255 then s.writeRecord r done
  else
    let n := s.codeTokens r.code
    if wholeToken ≤ n then (s.setTokens r.code (n - wholeToken)).writeRecord r done
    else
      let s1 := (((s.setTokens r.code n).bump R.TLY_SUPPRESSED).bump F.TLY_CODE_SUPPRESSED r.code).raise F.TLY_EVT_SUPPRESSED
      let old := ((s1.tly.second.find? (fun q => q.1 == r.code)).map Prod.snd).getD 0
      s1.modTly (fun y => { y with second := y.second.filter (fun q => q.1 != r.code) ++ [(r.code, old + 1)] })

/-- Tally 0x1303 for records lost, at most once per second (R532): cause 0 intake, 1 overwritten. -/
def State.reportLost (s : State) : State :=
  let spent := decide (s.tly.lostIntake = 0)
  let n := if spent then s.tly.lostOver else s.tly.lostIntake
  let due := match s.tly.lastLost with
    | some u => decide (u + oneSecond ≤ s.uptime)
    | none => true
  if n = 0 ∨ due = false then s
  else
    (s.modTly (fun y => { y with
      lostIntake := 0, lostOver := if spent then 0 else y.lostOver, lastLost := some s.uptime })).tally 0x1303
      [n, if spent then 1 else 0]

/-- TALLY_RECORD (R531): the oldest record of the intake is accepted. `interrupted` says that a reset falls before its HEAD is
written. -/
def doTallyRecord (interrupted : Bool) (s : State) : State :=
  match s.tly.intake with
  | [] => s.reportLost
  | r :: l => ((s.modTly (fun y => { y with intake := l })).acceptRecord r (!interrupted)).reportLost

/-- TALLY_REPORT_SECOND (R533): one record for each code that was suppressed, up to 16, the largest first; they draw on no
bucket. -/
def doTallyReportSecond (s : State) : State :=
  let l := (sortBy (fun a b => decide (b.2 ≤ a.2)) s.tly.second).take 16
  (s.modTly (fun y => { y with second := [] })).each l (fun q t =>
    t.writeRecord { code := 0x1304, time := s.nowNs % 2 ^ 64, items := [q.1, q.2] } true)

/-! ## The flash mirror (R535, R536) -/

/-- The flash offset of a sector of the region. -/
def State.sectorAt (s : State) (i : Nat) : Nat := s.pwr.opts.tallyOff + i * 65536

/-- A valid sector header in flash: its SECTOR_NO and POWER_ON. -/
def State.sectorHead (s : State) (i : Nat) : Option (Nat × Nat) :=
  let h := s.flashBytes (s.sectorAt i) 32
  if h.take 4 = [0x50, 0x54, 0x4C, 0x59] ∧ crc32c (h.take 28) = ofLe (h.drop 28) then
    some (ofLe ((h.drop 4).take 4), ofLe ((h.drop 8).take 4)) else none

/-- The region as it stands at power-on: the sector last opened, and POWER_ON (R536). -/
def State.scanMirror (s : State) : State :=
  if s.mirrorRegion then
    let n := s.pwr.opts.tallyLen / 65536
    let heads := (List.range n).filterMap (fun i => (s.sectorHead i).map (fun h => (i, h.1, h.2)))
    let last := heads.foldl (fun (b : Nat × Nat) h => if b.2 ≤ h.2.1 then (h.1, h.2.1) else b) (n - 1, 0)
    let pow := (heads.map (fun h => h.2.2)).foldl max 0
    (s.put R.TLY_POWER_ON (pow + 1)).modTly (fun y => { y with mirror := { sectorNo := last.2, cur := last.1, used := 0, bad := [] } })
  else ((s.put R.TLY_POWER_ON 1).putFlag F.TLY_STAT_NO_REGION true).tally 0x1305 [0, 0]

/-- A sector is skipped for the rest of the power-on: cause 1 erase, 2 program. -/
def State.badSector (s : State) (i cause : Nat) : State :=
  (((s.modTly (fun y => { y with mirror := { y.mirror with cur := i, used := 0, bad := y.mirror.bad ++ [i] } })).bump
    F.TLY_STAT_BAD_SECTORS).raise F.TLY_EVT_MIRROR_FAIL).tally 0x1305 [cause, i]

/-- Erase a sector and write its header (R535, R536). -/
def State.openSector (s : State) (i first : Nat) : State :=
  let no := s.tly.mirror.sectorNo + 1
  let head := [0x50, 0x54, 0x4C, 0x59] ++ leBytes 4 no ++ leBytes 4 (s.get R.TLY_POWER_ON) ++ leBytes 8 first ++ List.replicate 8 0xFF
  ((s.keepFlash (fun a => a < s.sectorAt i || s.sectorAt i + 65536 ≤ a)).writeFlash (s.sectorAt i) (head ++ leBytes 4 (crc32c head))).modTly (fun y => { y with
    mirror := { y.mirror with sectorNo := no, cur := i, used := 32 } })

/-- TALLY_MIRROR (R535): MC0 copies the next record to flash, whole, opening a new sector where it does not fit. -/
def doTallyMirror (eraseFails programFails : Bool) (s : State) : State :=
  if !(s.flag F.TLY_CTL_MIRROR_EN && s.mirrorRegion && bitAt (s.get F.PCR_PD_STAT_ON) 1) then s
  else
    let seq := s.get64 R.TLY_MIRROR_SEQ_LO
    match s.tly.ring.find? (fun r => decide (seq ≤ r.seq) && s.tly.reserved != some r) with
    | none => s.putFlag F.TLY_STAT_MIRROR_RUN false
    | some r =>
      let n := s.pwr.opts.tallyLen / 65536
      let m := s.tly.mirror
      let fresh := m.used = 0 ∨ 65536 < m.used + r.len
      let next := ((List.range n).map (fun k => (m.cur + 1 + k) % n)).find? (fun i => !m.bad.contains i)
      let sector : Option Nat := if fresh then next else some m.cur
      match sector with
      | none => s.putFlag F.TLY_STAT_MIRROR_RUN false
      | some i =>
        if fresh ∧ eraseFails = true then s.badSector i 1
        else if programFails then s.badSector i 2
        else
          let s1 := if fresh then s.openSector i r.seq else s
          let s2 := s1.writeFlash (s1.sectorAt i + s1.tly.mirror.used) (s1.tallyBytes r.off r.len)
          let s3 := (s2.modTly (fun y => { y with mirror := { y.mirror with used := y.mirror.used + r.len } })).put64 R.TLY_MIRROR_SEQ_LO (r.seq + 1)
          s3.putFlag F.TLY_STAT_MIRROR_RUN (decide (r.seq + 1 < s3.get64 R.TLY_SEQ_LO))

/-! ## Check-value units (R538 to R541) -/

/-- The seed of a unit for a message (R540): `a` and `n` are A and S, `variant` the VARIANT of a structure section. -/
def checkSeed (alg : CrcAlg) (point fold a n variant : Nat) (message : List Nat) : Nat :=
  let w := alg.width
  let both := (a * 2 ^ (w - 16)) ^^^ (n % 2 ^ (w - 16))
  let own := match point with
    | 1 => (a * 65536) ||| ((message.getD 0 0 % 16) * 4096) ||| n % 4096
    | 2 => a * 65536 + variant * 256 + n
    | _ => both
  let f := match fold with
    | 0 => 0
    | 1 => a * 2 ^ (w - 16)
    | 2 => n % 2 ^ min w 32
    | 3 => both
    | _ => own
  (alg.init ^^^ f) % 2 ^ w

/-- CHECK_VALUE (R541): a unit computes a value over a message that passes its snoop point. `a` and `n` are A and S of R539. -/
def doCheckValue (u a n variant : Nat) (message : List Nat) (s : State) : State :=
  let point := s.get F.CK_CTL_POINT u
  if s.flag F.CK_CTL_EN u = false ∨ point = 0 ∨ (s.flag F.CK_CTL_MATCH_EN u = true ∧ s.get F.CK_MATCH_A u ≠ a % 65536) then s
  else
    let alg := crcAlgOf (s.get F.CK_CTL_ALG u)
    let inj := s.opportunity 0x2E u 0
    let v0 := crcSeeded alg (checkSeed alg point (s.get F.CK_CTL_FOLD u) (a % 65536) n variant message) message
    let v := if inj.1 then v0 ^^^ 1 else v0
    let s1 := inj.2
    let s2 := ((s1.put64 R.CK_LAST_LO v u).put64 R.CK_ACC_LO (s1.get64 R.CK_ACC_LO u ^^^ v) u).bump R.CK_COUNT u
    let expect := s2.get64 R.CK_EXPECT_LO u % 2 ^ alg.width
    if s2.flag F.CK_CTL_CMP_EN u && v != expect then
      let bit : Field := { F.CRC_EVT_MISMATCH with lo := u, width := 1 }
      ((((s2.detect 0x2E).bump R.CK_MISMATCH u).raise bit)).tally 0x1306 [u, v, expect, n]
    else s2

def execInjectionArmed (key : Nat) (s : State) : Host.Outcome State Fault Refusal := .next (doInjectionArmed key s)
def execInjectionCancelled (key : Nat) (s : State) : Host.Outcome State Fault Refusal := .next (doInjectionCancelled key s)
def execTallyRecord (interrupted : Bool) (s : State) : Host.Outcome State Fault Refusal := .next (doTallyRecord interrupted s)
def execTallyReportSecond (s : State) : Host.Outcome State Fault Refusal := .next (doTallyReportSecond s)
def execTallyMirror (eraseFails programFails : Bool) (s : State) : Host.Outcome State Fault Refusal :=
  .next (doTallyMirror eraseFails programFails s)
def execCheckValue (unit : Fin 8) (a seq variant : Nat) (message : List Nat) (s : State) : Host.Outcome State Fault Refusal :=
  .next (doCheckValue unit.val a seq variant message s)

end Sys2Proof.Machine
end

