-- ==== Sys2Proof/Machine/Update.lean ====
section
/-! DEFINITION. Live update of firmware (R546 to R565): loading, slots, handover, trial, confirmation, reverting and the
rollback counters. -/
namespace Sys2Proof.Machine
open Sys2Proof

/-! ## Images (R547, R548) -/

/-- The fields the device keeps of a firmware image. -/
def firmwareOf (rd : Reader) : FwImage :=
  { version := rd 0x0C 4, secVer := rd 0x10 2, stateVer := rd 0x12 2, stateMin := rd 0x14 2, exportMin := rd 0x16 2,
    peerMin := rd 0x20 4, peerMax := rd 0x24 4, byreMin := rd 0x28 4, byreMax := rd 0x2C 4, strFmt := rd 0x30 2, len := rd 8 4 }

/-- The largest image of a kind. -/
def firmwareMax (kind : Nat) : Nat := if kind = 0 then 262144 else 8388608

/-- The management work and staging buffer of the firmware area (R551; its place is a DESIGN CHOICE). -/
def updateBuffer : Nat := firmwareArea + 0x1000000

/-- Stepping and DEV_ID of an image admit the part. -/
def State.firmwareFits (s : State) (rd : Reader) : Bool :=
  rd 0x18 4 == 0x9612 && decide (rd 0x1C 1 ≤ s.fuses.stepping) && decide (s.fuses.stepping ≤ rd 0x1D 1)

/-- An image in flash may be booted (R547, R548, R550). -/
def State.firmwareBoots (s : State) (rd : Reader) (kind : Nat) : Bool :=
  let len := rd 8 4
  rd 0 4 == 0x49574650 && rd 4 2 == 1 && rd 6 1 == kind && decide (4096 ≤ len) && decide (len ≤ firmwareMax kind) &&
  crc32c (readBytes rd 0 0x7C) == rd 0x7C 4 && s.signatureOk rd len && decide (s.fuses.fwCounter ≤ rd 0x10 2) && s.firmwareFits rd

/-! ## The slot table (R549) -/

/-- An entry of the slot table. -/
structure SlotEntry where
  offset : Nat
  cap : Nat
  version : Nat
  secVer : Nat
  state : Nat
  deriving DecidableEq, Repr

/-- Fields of the flash from an offset. -/
def State.flashReader (s : State) (base : Nat) : Reader := fun o n => ofLe (s.flashBytes (base + o) n)

/-- The flash offset of a copy of the slot table. -/
def State.slotCopy (s : State) (copy : Nat) : Nat := s.pwr.opts.fwTable + copy * 0x10000

/-- SEQ of a copy of the slot table, if its CRC is valid. -/
def State.slotSeq (s : State) (copy : Nat) : Option Nat :=
  let rd := s.flashReader (s.slotCopy copy)
  if rd 0 4 = 0x544C5350 ∧ crc32c (readBytes rd 0 0x7C) = rd 0x7C 4 then some (rd 4 4) else none

/-- The copy in force: the valid one with the later SEQ, in serial arithmetic. -/
def State.slotInForce (s : State) : Option (Nat × Nat) :=
  match s.slotSeq 0, s.slotSeq 1 with
  | some a, some b => if (b + 2 ^ 32 - a) % 2 ^ 32 ≠ 0 ∧ (b + 2 ^ 32 - a) % 2 ^ 32 < 2 ^ 31 then some (1, b) else some (0, a)
  | some a, none => some (0, a)
  | none, some b => some (1, b)
  | none, none => none

/-- The four entries in force; empty ones without a table. -/
def State.slotEntries (s : State) : List SlotEntry :=
  match s.slotInForce with
  | none => List.replicate 4 { offset := 0, cap := 0, version := 0, secVer := 0, state := 0 }
  | some q =>
    let rd := s.flashReader (s.slotCopy q.1)
    (List.range 4).map (fun i =>
      let o := 8 + 16 * i
      { offset := rd o 4, cap := rd (o + 4) 4, version := rd (o + 8) 4, secVer := rd (o + 12) 1, state := rd (o + 13) 1 })

/-- The entry of a kind's slot. -/
def State.slotEntry (s : State) (kind slot : Nat) : SlotEntry :=
  s.slotEntries.getD (2 * kind + slot) { offset := 0, cap := 0, version := 0, secVer := 0, state := 0 }

/-- The bytes of a slot table. -/
def slotBytes (seq : Nat) (l : List SlotEntry) : List Nat :=
  let head := [0x50, 0x53, 0x4C, 0x54] ++ leBytes 4 seq ++
    l.flatMap (fun e => leBytes 4 e.offset ++ leBytes 4 e.cap ++ leBytes 4 e.version ++ [e.secVer % 256, e.state, 0, 0]) ++
    List.replicate 52 0
  head ++ leBytes 4 (crc32c head)

/-- Show the slot table and the running slots in UPD_SLOT and UPD_SLOT_VER. -/
def State.showSlots (s : State) : State :=
  s.each (List.range 4) (fun i t =>
    let e := s.slotEntry (i / 2) (i % 2)
    (((t.put F.UPD_SLOT_STATE e.state i).put F.UPD_SLOT_SEC_VER e.secVer i).put R.UPD_SLOT_VER e.version i).putFlag
      F.UPD_SLOT_RUNNING (s.upd.slots.getD (i / 2) 0 == i % 2) i)

/-- Write the slot table to a copy. -/
def State.writeSlots (s : State) (copy seq : Nat) (l : List SlotEntry) : State :=
  (s.writeFlash (s.slotCopy copy) (slotBytes (seq % 2 ^ 32) l)).showSlots

/-- Change entries of the slot table, which goes to the copy not in force with SEQ + 1 (R549). `fails` counts the copies whose
write fails: the write is retried on the other copy, and failing both FLASH_ERR is set (R560). -/
def State.updateSlots (s : State) (fails : Nat) (f : Nat → Nat → SlotEntry → SlotEntry) : State :=
  let q := s.slotInForce.getD (1, 2 ^ 32 - 1)
  let l := (List.range 4).map (fun i => f (i / 2) (i % 2) (s.slotEntry (i / 2) (i % 2)))
  if fails = 0 then s.writeSlots (1 - q.1) (q.2 + 1) l
  else if fails = 1 then s.writeSlots q.1 (q.2 + 1) l
  else (s.raise F.UPD_EVT_FLASH_ERR).tally 0x1406 [4 + q.1, 1]

/-- One slot takes a state. -/
def setSlot (kind slot st : Nat) (k n : Nat) (e : SlotEntry) : SlotEntry := if k = kind ∧ n = slot then { e with state := st } else e

/-! ## Results -/

/-- Change the update's state. -/
def State.modUpd (s : State) (f : Upd → Upd) : State := { s with upd := f s.upd }

/-- PHASE of UPD_STAT. -/
def State.updPhase (s : State) : Nat := s.get F.UPD_STAT_PHASE

/-- Write the RESULT of an operation. -/
def State.updResult (s : State) (status check : Nat) : State :=
  (((s.put F.UPD_STAT_RESULT status).put F.UPD_STAT_CHECK check).advance F.UPD_STAT_SEQ).raise F.UPD_EVT_DONE

/-- The update is over. -/
def State.updIdle (s : State) : State :=
  ((s.put F.UPD_STAT_PHASE 0).put F.UPD_STAT_CORE 7).modUpd (fun u => { u with next := none, handed := [], gapFrom := none, back := 0 })

/-- The OP and ACTION of a write of UPD_CMD. -/
def State.updCommand (s : State) (value : Nat) : State :=
  (s.put F.UPD_CMD_OP (bits value 2 0)).put F.UPD_CMD_ACTION (bits value 4 3)

/-! ## FW_LOAD (R552, R553) -/

/-- The image of a kind that runs. -/
def State.firmware (s : State) (kind : Nat) : FwImage := s.upd.running.getD kind FwImage.reset

/-- x lies in a range. -/
def versionIn (a x b : Nat) : Bool := decide (a ≤ x) && decide (x ≤ b)

/-- The image is compatible with what runs (R553). -/
def State.firmwareCompatible (s : State) (kind : Nat) (i : FwImage) : Bool :=
  let byre := s.firmware 0
  let mgmt := s.firmware 1
  let state := (s.firmware kind).stateVer
  (if kind = 1 then versionIn i.byreMin byre.version i.byreMax && versionIn i.peerMin mgmt.version i.peerMax &&
      versionIn byre.peerMin i.version byre.peerMax
    else versionIn i.peerMin mgmt.version i.peerMax && versionIn mgmt.byreMin i.version mgmt.byreMax) &&
  decide (i.stateMin ≤ state) && decide (i.exportMin ≤ state) &&
  (kind != 1 || s.str.inForce.isNone || ((match s.str.inForce with
    | some st => versionIn st.minFw i.version st.maxFw
    | none => true) && decide (1 ≤ i.strFmt)))

/-- Checks 1 to 9 of R552. `sig` says that an injection makes the signature fail. -/
def State.firmwareChecks (s : State) (rd : Reader) (sig : Bool) : List (Nat × Bool × Nat) :=
  let src := s.get64 R.UPD_SRC_LO
  let len := s.get R.UPD_LEN
  let kind := rd 6 1
  let trial := decide (s.updPhase = 5) && decide (s.upd.kind = 0)
  [(1, (decide (1 ≤ s.updPhase) && decide (s.updPhase ≤ 6)) || (decide (1 ≤ s.strPhase) && decide (s.strPhase ≤ 5)) ||
       s.sys.trans.isSome || (trial && decide (kind = 1)), stBusy),
   (2, decide (src % 64 ≠ 0) || decide (reserveA < src + len) || decide (len < 4096) || decide (firmwareMax kind < len), stInconsistent),
   (3, rd 0 4 != 0x49574650 || rd 4 2 != 1 || decide (1 < kind), stUnsupported),
   (4, crc32c (readBytes rd 0 0x7C) != rd 0x7C 4, stIntegrity),
   (4, rd 8 4 != len, stInconsistent),
   (5, sig || !s.signatureOk rd len, stIntegrity),
   (6, decide (rd 0x10 2 < s.fuses.fwCounter), stNotPermitted),
   (7, !s.firmwareFits rd, stUnsupported),
   (8, !s.firmwareCompatible kind (firmwareOf rd), stInconsistent),
   (9, decide ((s.slotEntry kind (1 - s.upd.slots.getD kind 0)).cap < len), stInconsistent)]

/-- FW_LOAD (R552): UPD_CMD operation 1. The image is copied and checked; with ACTION 1 or 2 staging into flash begins. -/
def doFwLoad (value : Word) (s : State) : State :=
  let s1 := s.updCommand value.toNat
  let src := s1.get64 R.UPD_SRC_LO
  let len := s1.get R.UPD_LEN
  let rd : Reader := fun o n => s1.bulkLe (src + o) n
  let early := firstFail ((s1.firmwareChecks rd false).take 2)
  let inj := if early.2 = stOK then s1.opportunity 0x2D 0 0 else (false, s1)
  let r := firstFail (s1.firmwareChecks rd inj.1)
  let s2 := inj.2
  let kind := rd 6 1
  if r.2 ≠ stOK then
    let s3 := if r.1 = 5 then s2.detect 0x2D else s2
    (s3.updResult r.2 r.1).tally 0x1401 [if r.1 ≤ 3 then 0 else kind, r.2, r.1]
  else
    let action := bits value.toNat 4 3
    let s3 := s2.writeBulk updateBuffer (s2.bulkBytes src len)
    if action = 0 then s3.updResult stOK 0
    else
      let s4 := ((s3.put F.UPD_STAT_PHASE 2).put F.UPD_STAT_KIND kind).put F.UPD_PROGRESS_STAGED 0
      s4.modUpd (fun u => { u with next := some (firmwareOf rd), kind := kind, action := action })

/-! ## Staging and handover (R554 to R557) -/

/-- The slot that an update writes: the one of its kind that does not run. -/
def State.targetSlot (s : State) : Nat := 1 - s.upd.slots.getD s.upd.kind 0

/-- The cores of a kind in the order of a handover. -/
def coreOrder (kind : Nat) : List Nat := if kind = 0 then [0] else [3, 2, 1]

/-- A core is asked to quiesce. -/
def State.askCore (s : State) (core : Nat) : State :=
  (s.put F.UPD_STAT_CORE core).modUpd (fun u => { u with gapFrom := some s.uptime })

/-- FW_STAGED (R554): the target slot has been programmed and compared. `outcome` is 0 for a match, else the failure: 1 erase,
2 program, 3 compare. With ACTION 1 the update ends; with ACTION 2 the handover begins. -/
def doFwStaged (outcome : Nat) (s : State) : State :=
  match s.upd.next with
  | none => s
  | some i =>
    if s.updPhase ≠ 2 then s
    else
      let kind := s.upd.kind
      let slot := s.targetSlot
      let e := s.slotEntry kind slot
      if outcome ≠ 0 then
        let s1 := s.updateSlots 0 (setSlot kind slot 4)
        (((s1.raise F.UPD_EVT_FLASH_ERR).tally 0x1406 [2 * kind + slot, outcome - 1]).updIdle).updResult stIntegrity 0
      else
        let s1 := s.writeFlash e.offset (s.bulkBytes updateBuffer i.len)
        let s2 := (s1.updateSlots 0 (fun k n x => if k = kind ∧ n = slot
          then { x with version := i.version, secVer := i.secVer, state := 1 } else x)).put F.UPD_PROGRESS_STAGED 65535
        let s3 := s2.tally 0x1400 [kind, slot, i.version, i.secVer]
        if s.upd.action = 1 then s3.updIdle.updResult stOK 0
        else
          ((s3.put F.UPD_STAT_PHASE 4).modUpd (fun u => { u with handed := [], expired := [], selfOk := false, hostOk := false })).askCore
            ((coreOrder kind).headD 0)

/-- A management core is reset as unit MCn (R436, R502): its held reads are abandoned and its semaphores released. -/
def State.resetCore (s : State) (n : Nat) : State :=
  let who : Initiator := match n with | 0 => .mc0 | 1 => .mc1 | _ => .mc2
  let host : HostLink := { s.host with
    held := s.host.held.map (fun h => if h.who = who then { h with dead := true } else h),
    retrying := s.host.retrying.filter (fun r => decide (r.who ≠ who)) }
  (({ s with host := host }).releaseSems (some who)).syncHost

/-- QUIESCE_ACK (R556): the core in handover has written its state record and is reset into the new image. The Byre is not
reset. -/
def doQuiesceAck (s : State) : State :=
  let core := s.get F.UPD_STAT_CORE
  if (s.updPhase = 4 ∨ s.updPhase = 6) ∧ 1 ≤ core ∧ core ≤ 3 then s.resetCore (core - 1) else s

/-- The revert of an update is complete (R559). -/
def State.finishRevert (s : State) (fails : Nat) : State :=
  let kind := s.upd.kind
  let new := if s.updPhase = 4 ∨ s.upd.trialAt.isNone = true then s.targetSlot else s.upd.slots.getD kind 0
  let old := 1 - new
  let s1 := s.modUpd (fun u => { u with slots := u.slots.set kind old, trialAt := none, marker := false })
  let s2 := s1.updateSlots fails (setSlot kind new 4)
  ((s2.raise F.UPD_EVT_REVERTED).tally 0x1404 [kind, s.upd.cause, s.upd.back]).updIdle

/-- A revert begins (R559): cause 0 window, 1 watchdog, 2 self-check, 3 REVERT, 4 TIMEOUT. -/
def State.beginRevert (s : State) (cause : Nat) : State :=
  let s1 := s.modUpd (fun u => { u with cause := cause, back := 0 })
  match s1.upd.handed.reverse with
  | [] => s1.finishRevert 0
  | c :: _ => (s1.put F.UPD_STAT_PHASE 6).askCore c

/-- QUIESCE_TIMEOUT (R556): no acknowledgement by 50 ms. -/
def doQuiesceTimeout (s : State) : State :=
  if s.updPhase = 4 then (s.updResult stTimeout 0).beginRevert 4 else s

/-- A core reports a version after a gap in ms (R556): UPD_VER, the event and Tally 0x1402. -/
def State.reportCore (s : State) (core old v gap : Nat) : State :=
  ((s.put R.UPD_VER v core).raise F.UPD_EVT_HANDOVER).tally 0x1402 [core, old, v, gap]

/-- FW_HANDOVER (R556, R558, R559): the core in handover reports running. The next core begins; after the last one the trial
begins, or the revert is complete. -/
def doFwHandover (tableFails : Nat) (s : State) : State :=
  match s.upd.next with
  | none => s
  | some i =>
    let core := s.get F.UPD_STAT_CORE
    let kind := s.upd.kind
    let old := s.get R.UPD_VER core
    let gap := (s.uptime - s.upd.gapFrom.getD s.uptime) / 1000000
    if s.updPhase = 4 ∧ core ≤ 3 then
      let s1 := (s.reportCore core old i.version gap).modUpd (fun u => { u with handed := u.handed ++ [core] })
      match (coreOrder kind).filter (fun c => !s1.upd.handed.contains c) with
      | c :: _ => s1.askCore c
      | [] =>
        let slot := s1.targetSlot
        let s2 := s1.modUpd (fun u => { u with slots := u.slots.set kind slot, trialAt := some s.uptime, marker := true, gapFrom := none })
        let s3 := s2.updateSlots tableFails (fun k n x => if k = kind then { x with state := if n = slot then 2 else 3 } else x)
        ((s3.put F.UPD_STAT_PHASE 5).put F.UPD_STAT_CORE 7).put F.UPD_PROGRESS_WINDOW_S (max 10 (min 3600 (s.get F.UPD_CTL_CONFIRM_S)))
    else if s.updPhase = 6 ∧ core ≤ 3 then
      let s1 := (s.reportCore core old (s.firmware kind).version gap).modUpd (fun u => { u with
        handed := u.handed.filter (fun c => c != core), back := u.back + 1 })
      match s1.upd.handed.reverse with
      | c :: _ => s1.askCore c
      | [] => s1.finishRevert tableFails
    else s

/-! ## Trial and confirmation (R558, R559) -/

/-- The background activities of a kind's cores (R557). -/
def kindActivities (kind : Nat) : List Nat := if kind = 0 then [] else [7, 9, 1, 3]

/-- Every required confirmation is in: the new slot becomes confirmed (R558). -/
def State.tryConfirm (s : State) (fails : Nat) : State :=
  match s.upd.next with
  | none => s
  | some i =>
    if s.updPhase = 5 ∧ s.upd.selfOk = true ∧ (s.flag F.UPD_CTL_HOST_CONFIRM = false ∨ s.upd.hostOk = true) then
      let kind := s.upd.kind
      let slot := s.upd.slots.getD kind 0
      let secs := (s.uptime - s.upd.trialAt.getD s.uptime) / oneSecond
      let s1 := s.modUpd (fun u => { u with running := u.running.set kind i, trialAt := none, marker := false })
      let s2 := s1.updateSlots fails (fun k n x => if k = kind then { x with state := if n = slot then 3 else 1 } else x)
      (((s2.raise F.UPD_EVT_CONFIRMED).tally 0x1403 [kind, i.version, secs]).updIdle).updResult stOK 0
    else s

/-- FW_SELF_CONFIRM (R558): the new firmware confirms its own health, when its three conditions hold. -/
def doFwSelfConfirm (tableFails : Nat) (s : State) : State :=
  if s.updPhase = 5 ∧ s.upd.expired.isEmpty = true ∧
      (kindActivities s.upd.kind).all (fun a => s.get F.SYS_BG_STAT_LEVEL a == 0) = true
  then (s.modUpd (fun u => { u with selfOk := true })).tryConfirm tableFails
  else s

/-- FW_CONFIRM (R558): UPD_CMD operation 2; outside a trial INCONSISTENT. -/
def doFwConfirm (tableFails : Nat) (s : State) : State :=
  let s1 := s.put F.UPD_CMD_OP 2
  if s1.updPhase = 5 then ((s1.modUpd (fun u => { u with hostOk := true })).updResult stOK 0).tryConfirm tableFails
  else s1.updResult stInconsistent 0

/-- FW_REVERT (R559): UPD_CMD operation 3 reverts a trial. -/
def doFwRevert (s : State) : State :=
  let s1 := s.put F.UPD_CMD_OP 3
  if s1.updPhase = 5 then (s1.updResult stOK 0).beginRevert 3 else s1.updResult stInconsistent 0

/-- CONFIRM_WINDOW_EXPIRE (R558, R559): the window ends without every required confirmation. -/
def doConfirmWindowExpire (s : State) : State :=
  if s.updPhase = 5 then
    let w := max 10 (min 3600 (s.get F.UPD_CTL_CONFIRM_S)) * oneSecond
    ((s.atUptime (s.upd.trialAt.getD 0 + w)).put F.UPD_PROGRESS_WINDOW_S 0).beginRevert 0
  else s

/-- SELF_CHECK_FAILED (R559): the new firmware reports a failed self-check. -/
def doSelfCheckFailed (s : State) : State := if s.updPhase = 5 then s.beginRevert 2 else s

/-- A watchdog expires on a core that runs the new image in trial (R559). The old image imports the record of its own handover,
and the calibration windows of that core are void. -/
def State.updWatchdog (s : State) (core : Nat) : State :=
  if s.updPhase = 5 ∧ s.upd.handed.contains core = true then
    let s1 := s.modUpd (fun u => { u with expired := u.expired ++ [core] })
    let s2 := if core = 2 then s1.each (s1.cmd.chans.filter (fun c => c.kind == kZone)) (fun z t => t.voidOpen z) else s1
    s2.beginRevert 1
  else s

/-- FW_ABORT (R554): UPD_CMD operation 4 stops staging; a slot partly written becomes failed. -/
def doFwAbort (s : State) : State :=
  let s1 := s.put F.UPD_CMD_OP 4
  if 1 ≤ s1.updPhase ∧ s1.updPhase ≤ 3 then
    let s2 := if s1.updPhase = 2 then s1.updateSlots 0 (setSlot s1.upd.kind s1.targetSlot 4) else s1
    s2.updIdle.updResult stTimeout 0
  else s1.updResult stInconsistent 0

/-! ## Rollback counters (R561) -/

/-- SEC_VER of the confirmed slot of a kind. -/
def State.confirmedSec (s : State) (kind : Nat) : Option Nat :=
  (((List.range 2).map (fun n => s.slotEntry kind n)).find? (fun e => e.state == 3)).map SlotEntry.secVer

/-- Burn the firmware rollback counter up to a value; a fuse never goes back (R561). -/
def State.burnFw (s : State) (v : Nat) : State := { s with fuses := { s.fuses with fwCounter := max s.fuses.fwCounter v } }

/-- Burn the structure rollback counter up to a value. -/
def State.burnStr (s : State) (v : Nat) : State := { s with fuses := { s.fuses with strCounter := max s.fuses.strCounter v } }

/-- BURN_FW_COUNTER (R561): UPD_CMD operation 5. -/
def doBurnFwCounter (s : State) : State :=
  let s1 := s.put F.UPD_CMD_OP 5
  let old := s1.fuses.fwCounter
  if s1.updPhase = 5 ∨ s1.updPhase = 6 then s1.updResult stBusy 0
  else
    match s1.confirmedSec 0, s1.confirmedSec 1 with
    | some a, some b =>
      let new := min a b
      if new ≤ old then s1.updResult stInconsistent 0
      else
        let s2 := ((s1.burnFw new).put F.UPD_ROLLBACK_FW new).updateSlots 0
          (fun _ _ e => if e.state ≠ 0 ∧ e.secVer < new then { e with state := 5 } else e)
        ((s2.raise F.UPD_EVT_BURNED).tally 0x1405 [0, old, new]).updResult stOK 0
    | _, _ => s1.updResult stInconsistent 0

/-- BURN_STR_COUNTER (R561): UPD_CMD operation 6. -/
def doBurnStrCounter (s : State) : State :=
  let s1 := s.put F.UPD_CMD_OP 6
  let old := s1.fuses.strCounter
  if s1.updPhase = 5 ∨ s1.updPhase = 6 then s1.updResult stBusy 0
  else
    match s1.str.inForce with
    | some st =>
      if st.secVer ≤ old then s1.updResult stInconsistent 0
      else
        let s2 := (s1.burnStr st.secVer).put F.UPD_ROLLBACK_STR st.secVer
        ((s2.raise F.UPD_EVT_BURNED).tally 0x1405 [1, old, st.secVer]).updResult stOK 0
    | none => s1.updResult stInconsistent 0

/-! ## The boot slots (R550) -/

/-- The slot of a kind that phase 6 boots; none where neither qualifies. -/
def State.bootKind (s : State) (kind : Nat) : Option Nat × State :=
  let left := (List.range 2).filter (fun n => (s.slotEntry kind n).state == 2)
  let s1 := if left.isEmpty then s else
    (s.updateSlots 0 (fun k n e => if k = kind ∧ left.contains n then { e with state := 4 } else e)).each left (fun n t =>
      t.tally 0x1407 [kind, n, 1])
  let good (n : Nat) : Bool := s1.firmwareBoots (s1.flashReader (s1.slotEntry kind n).offset) kind
  let conf := (List.range 2).find? (fun n => (s1.slotEntry kind n).state == 3)
  match conf.filter good with
  | some n => (some n, s1.tally 0x1407 [kind, n, 0])
  | none =>
    match (List.range 2).find? (fun n => conf != some n && (s1.slotEntry kind n).state == 1 && good n) with
    | some n => (some n, s1.tally 0x1407 [kind, n, 2])
    | none => (none, s1)

/-- UPD_VER, UPD_SLOT and UPD_SLOT_VER show what runs. -/
def State.showFirmware (s : State) : State :=
  (s.each (List.range 4) (fun c t => t.put R.UPD_VER (s.firmware (if c = 0 then 0 else 1)).version c)).showSlots

/-- Phase 6 of R510: one slot of each kind is chosen and runs; false where neither slot of a kind qualifies. -/
def State.bootSlots (s : State) : Bool × State :=
  let a := s.bootKind 0
  let b := a.2.bootKind 1
  match a.1, b.1 with
  | some m, some n =>
    let img (kind slot : Nat) : FwImage := firmwareOf (b.2.flashReader (b.2.slotEntry kind slot).offset)
    let u : Upd := { Upd.reset with running := [img 0 m, img 1 n], slots := [m, n] }
    let s1 : State := { b.2 with upd := u }
    (true, s1.showFirmware)
  | _, _ => (false, b.2)

def execFwLoad (value : Word) (s : State) : Host.Outcome State Fault Refusal := .next (doFwLoad value s)
def execFwStaged (outcome : Fin 4) (s : State) : Host.Outcome State Fault Refusal := .next (doFwStaged outcome.val s)
def execQuiesceAck (s : State) : Host.Outcome State Fault Refusal := .next (doQuiesceAck s)
def execQuiesceTimeout (s : State) : Host.Outcome State Fault Refusal := .next (doQuiesceTimeout s)
def execFwHandover (tableFails : Nat) (s : State) : Host.Outcome State Fault Refusal := .next (doFwHandover tableFails s)
def execFwSelfConfirm (tableFails : Nat) (s : State) : Host.Outcome State Fault Refusal := .next (doFwSelfConfirm tableFails s)
def execFwConfirm (tableFails : Nat) (s : State) : Host.Outcome State Fault Refusal := .next (doFwConfirm tableFails s)
def execFwRevert (s : State) : Host.Outcome State Fault Refusal := .next (doFwRevert s)
def execConfirmWindowExpire (s : State) : Host.Outcome State Fault Refusal := .next (doConfirmWindowExpire s)
def execFwAbort (s : State) : Host.Outcome State Fault Refusal := .next (doFwAbort s)
def execBurnFwCounter (s : State) : Host.Outcome State Fault Refusal := .next (doBurnFwCounter s)
def execBurnStrCounter (s : State) : Host.Outcome State Fault Refusal := .next (doBurnStrCounter s)
def execSelfCheckFailed (s : State) : Host.Outcome State Fault Refusal := .next (doSelfCheckFailed s)

end Sys2Proof.Machine
end

