-- ==== Sys2Proof/Machine/Power.lean ====
section
/-! DEFINITION. Power domains, clocks, resets and start-up (R492 to R516). -/
namespace Sys2Proof.Machine
open Sys2Proof

/-- Change the power state. -/
def State.modPwr (s : State) (f : Pwr → Pwr) : State := { s with pwr := f s.pwr }

/-! ## Reaches (R498), numbered by row -/

def reachAll : Nat := 0
def reachDevice : Nat := 1
def reachFast : Nat := 2
def reachByre : Nat := 3
def reachCore : Nat := 4
def reachSerdes : Nat := 5
def reachStructure : Nat := 6
def reachParlour : Nat := 7
def reachChannels : Nat := 8
def reachOutput : Nat := 9
def reachUnit : Nat := 10

/-- A reach lies wholly within another (R500). OUTPUT lasts as long as its source and lies in no other. -/
def reachWithin (a b : Nat) : Bool :=
  a == b || b == reachAll || (b == reachDevice && a != reachAll && a != reachOutput) ||
  (b == reachFast && [reachCore, reachSerdes, reachStructure, reachParlour, reachChannels, reachUnit].contains a)

/-- A register keeps its value outside PD0's resets: PCR, STA, TLY and the NET wake registers (R386, R424, R492). -/
def regInByre (a : Nat) : Bool := inByre a

/-- A detector's counts, which only ALL resets (DEDUCED: they count since power-on). -/
def regOfDetectors (a : Nat) : Bool := decide (0x160100 ≤ a) && decide (a < 0x160100 + 4 * 64)

/-- Registers of PD0 that outlive its reset: backup registers, the latched cause, expiry counts and the ring's pointers. -/
def regOutlives (a : Nat) : Bool :=
  (decide (0x140100 ≤ a) && decide (a < 0x140140)) || a == 0x140044 || a == 0x140014 || a == 0x14002C ||
  (decide (0x17000C ≤ a) && decide (a < 0x170024)) || a == 0x170038 || regOfDetectors a

/-! ## What a reset puts back -/

/-- What the fuse array sets wherever it shows (R508). -/
def State.showFuses (s : State) : State :=
  (((s.put F.UPD_ROLLBACK_FW s.fuses.fwCounter).put F.UPD_ROLLBACK_STR s.fuses.strCounter).put R.SYS_STEP s.fuses.stepping).syncArmed

/-- The flash header options that set registers of PD1 (R501, R507). -/
def State.applyOptions (s : State) : State :=
  (s.putFlag F.RED_CTL_PAIR_EN (bitAt s.pwr.opts.options 0)).putFlag F.RED_CTL_PRIMARY (bitAt s.pwr.opts.options 1)

/-- PD1 to PD15 and their state start anew; the registers that `keep` names stay. The trial marker and what PD0 holds stay. -/
def State.fastState (s : State) (keep : Nat → Bool) : State :=
  let z := State.reset
  let t : State := { (s.keepRegs keep).clearPailMem with
    hiLatch := [], now := 0, sys := z.sys, str := z.str, eng := z.eng,
    sig := z.sig, cmd := z.cmd, par := z.par, host := z.host, red := z.red, ing := z.ing, frames := [], layerKeep := [],
    cmp := z.cmp, cal := z.cal, sep := z.sep, gov := z.gov, links := z.links, dvl := z.dvl, fix := z.fix, ddp := z.ddp,
    tim := z.tim, upd := { z.upd with marker := s.upd.marker },
    mem := { Mem.reset with bad := s.mem.bad, passFrom := s.uptime } }
  t.showFuses

/-- The domains that are on. -/
def State.setDomains (s : State) (ds : List Nat) : State := s.put F.PCR_PD_STAT_ON ((ds.map (fun d => 2 ^ d)).sum)

/-- PCR_STAT.PHASE. -/
def State.phase (s : State) : Nat := s.get F.PCR_STAT_PHASE

/-- A start-up phase begins (R510). -/
def State.enterPhase (s : State) (p : Nat) : State := (s.put F.PCR_STAT_PHASE p).modPwr (fun w => { w with phases := w.phases ++ [(p, s.uptime)] })

/-- Only PD0 stays on, with the M0 PLL. -/
def State.onlyByre (s : State) : State :=
  ((s.setDomains [0]).put F.PCR_CLK_STAT_LOCK (s.get F.PCR_CLK_STAT_LOCK % 2)).put F.PCR_CLK_STAT_SD_LOCK 0

/-- An armed injection is cancelled by a reset that includes PD1, but for the two that PD0 holds (R526). -/
def State.cancelByReset (s : State) (all : Bool) : State :=
  match s.flt.armed with
  | some a => if all = false ∧ (a.detector = 0x14 ∨ a.detector = 0x15) then s else s.cancelArmed 1
  | none => s

/-- Direct-drive pins go to high impedance at a reset that includes PD14 (R334); the record of what left the device. -/
def State.fastReset (s : State) : State :=
  let s1 := (s.cancelByReset false).fastState (fun a => regInByre a || regOfDetectors a)
  ((s1.onlyByre).ddHighImpedance).applyOptions.startPair.modPwr (fun w => { w with
    phases := [], idle := [], waking := none, entering := false, saved := false, stored := none, dormantAt := none })

/-- FAST: start-up goes on from phase 3 (R511). -/
def State.resetFast (s : State) : State :=
  (s.fastReset.enterPhase 3).modPwr (fun w => { w with resetting := some (2 ^ reachFast) })

/-- DEVICE: PD0's registers and logic as well; records in the intake are lost and counted (R532). -/
def State.resetDevice (s : State) : State :=
  let lost := s.tly.intake.length
  let s1 := (s.cancelByReset false).fastState regOutlives
  let p : Pwr := { Pwr.reset with failed := s.pwr.failed, resetting := some (2 ^ reachDevice), phases := [(1, s.uptime)] }
  let s2 : State := { s1 with
    pwr := p,
    tly := { s1.tly with intake := [], limits := [], buckets := [], second := [], lostIntake := lost } }
  let s3 := if lost = 0 then s2 else (s2.put R.TLY_LOST lost).raise F.TLY_EVT_LOST
  s3.ddHighImpedance

/-- ALL: everything, retained storage and the Tally's ring included (R498, R531). -/
def State.resetAll (s : State) : State :=
  let z := State.reset
  { z with pending := s.pending, flash := s.flash, outs := s.outs, freeCount := s.freeCount, fuses := s.fuses,
           pwr := { z.pwr with resetting := some (2 ^ reachAll), phases := [(1, 0)] } } |> fun t => t.showFuses

/-- BYRE (R436, R498): reads on their way complete with all ones, posted writes are discarded and counted, semaphores are
released, and an update of the Byre ends as reverted (R559). -/
def State.resetByre (s : State) : State :=
  let reads := (s.host.held.filter (fun h => h.byre)).length + s.host.retrying.length
  let s1 := s.each (s.host.held.filter (fun h => h.byre && !h.dead)) (fun h t => t.emit (.readData h.who 0xFFFFFFFF))
  let s2 := s1.each s.host.retrying (fun r t => t.emit (.readData r.who 0xFFFFFFFF))
  let host : HostLink := { s2.host with
    held := s2.host.held.filter (fun h => !h.byre), retrying := [], posted := [], boost := false, boostAskedAt := none }
  let s3 := ((({ s2 with host := host } : State).add R.DBR_WDISC_CNT s.host.posted.length).releaseSems none).syncHost
  let s4 := (s3.raise F.DBR_EVT_BYRE_DOWN).tally 0x0F05 [0, reads]
  if s4.updPhase = 4 ∧ s4.upd.kind = 0 then (s4.modUpd (fun u => { u with cause := 1, back := 0 })).finishRevert 0 else s4

/-- CORE n (R436, R502). -/
def State.resetCoreReach (s : State) (n : Nat) : State := s.resetCore n

/-- SERDES: the links of PD3 to PD8 go down and retrain. -/
def State.resetSerdes (s : State) : State := s.each (List.range 24) (fun l t => t.linkDown l 1)

/-- Warm is entered at once, with no transition (R499). -/
def State.warmAtOnce (s : State) : State :=
  let s1 := (((s.put F.SYS_MODE_STAT_POWER 1).put F.SYS_MODE_STAT_HOLD_CAUSE 0).putFlag F.SYS_MODE_STAT_TRANS false).modSys (fun y =>
    { y with trans := none, rateChg := none, holdNext := false, sameFrames := 0 })
  let s2 : State := { s1 with frames := [] }
  s2.each (List.range 32) (fun p t =>
    if t.ddEnabled p = true ∧ [2, 3, 4, 5].contains (t.ddState p) = true then (t.modDd p (fun _ => DdPort.reset)).ddEnter p 1 else t)

/-- Items in service are lost with no completion: their slots are released (R409). -/
def State.loseService (s : State) : State :=
  let pails := s.par.pails.map (fun q => { q with items := q.items.map (fun i =>
    match i.phase with | .inService _ => { i with phase := .done } | _ => i) })
  let s1 : State := { s with par := { s.par with pails := pails } }
  ((s1.each (pails.filter (fun q => q.role == 2)) (fun q t => t.releaseDone q.num)).each (List.range 12) (fun e t => t.syncEngine e)).syncPar

/-- A pail is empty with SEQ 0 and its counters cleared (R409). -/
def State.emptyPail (s : State) (q : Pail) : State :=
  ((s.freshPail q.num).modPail q.num (fun x => { x with
    items := [], popping := none, stalled := none, lastServed := 0, waitPop := [] })).syncPail q.num

/-- STRUCTURE: no structure is loaded, the engines are reset with their items lost, and task pails are emptied. -/
def State.resetStructure (s : State) : State :=
  let s1 := s.loseService.each (s.par.pails.filter (fun q => q.role == 2)) (fun q t =>
    ((t.put F.PL_RD_VALUE (t.plWr q.num) q.num).modPail q.num (fun x => { x with items := [] })).syncPail q.num)
  let s2 : State := { s1 with str := State.reset.str, eng := State.reset.eng, sig := State.reset.sig }
  let s3 := s2.each (List.range 12) (fun e t => t.toReset R.CE_STAT e)
  ((((s3.put F.STR_LOAD_STAT_PHASE 0).warmAtOnce).relink).refreshAll).syncPar

/-- PARLOUR (R409): every pail is empty with SEQ 0. -/
def State.resetParlour (s : State) : State :=
  let s1 := s.loseService.each s.par.pails (fun q t => t.emptyPail q)
  let s2 : State := { s1.clearPailMem with
    par := { s1.par with served := 0, lateFrame := 0, lateSeen := false }, cmd := { s1.cmd with fenced := [] } }
  let s3 := s2.each [R.PAR_REDISPATCH_CNT] (fun f t => t.toReset f 0)
  ((s3.each (List.range 4096) (fun f t => t.syncFlow f)).warmAtOnce).syncPar

/-- CHANNELS (R125, R146): every index is FREE, pending commands are lost and the cue pool is free. What chapters 08 to 13 keep
for a channel goes with it. -/
def State.resetChannels (s : State) : State :=
  let s1 := s.each s.cmd.chans (fun c t => t.freshChannel c.kind c.index)
  let s2 := s1.each (s.cmd.chans.filter (fun c => c.kind == kStream && !c.stored && decide (c.st = .running))) (fun c t => t.leaveStream c)
  let z := State.reset
  let s3 : State := { s2 with
    cmd := z.cmd, layerKeep := [], cal := z.cal, fix := z.fix, ing := { s2.ing with streams := z.ing.streams, jobs := [] },
    gov := { s2.gov with eps := [], feeds := [], load := none }, sep := { s2.sep with identity := [] },
    ddp := { s2.ddp with lists := [], releasing := [] }, cmp := { s2.cmp with wb := [] } }
  let s4 := (s3.each [R.CAL_VERSION, R.GOV_MODEL_VER] (fun f t => t.toReset f 0)).put F.ING_STAT_JOBS 0
  (((s4.warmAtOnce).syncCmd).refreshAll).noteInput

/-! ## Taking a reset (R499, R500) -/

/-- Tally 0x1200, and PCR_RST_CAUSE for every reset but UNIT and an absorbed one. -/
def State.recordReset (s : State) (source reach : Nat) (absorbed : Bool) (mode frame : Nat) : State :=
  let s1 := if absorbed || reach == reachUnit then s
    else (((s.put F.PCR_RST_CAUSE_SOURCE source).put F.PCR_RST_CAUSE_REACH reach).bump F.PCR_RST_CAUSE_COUNT).raise F.PCR_EVT_RESET
  s1.tally 0x1200 [source, reach + (if absorbed then 32768 else 0), mode, frame]

/-- The reset of one reach; `arg` is the core of CORE n. -/
def State.resetReach (s : State) (reach arg : Nat) : State :=
  match reach with
  | 0 => s.resetAll
  | 1 => s.resetDevice
  | 2 => s.resetFast
  | 3 => s.resetByre
  | 4 => s.resetCoreReach arg
  | 5 => s.resetSerdes
  | 6 => s.resetStructure
  | 7 => s.resetParlour
  | 8 => s.resetChannels
  | _ => s

/-- The reach holds some of PD9 to PD15, so that an Active sends FAULT first (R469, R499). -/
def reachFatal (reach : Nat) : Bool := decide (reach ≤ 2) || reach == reachStructure

/-- A reset source acts on its reach: absorbed by a reset in progress that holds it, else together with that reset, which
starts again (R500). At its end the Tally closes a record it interrupted (R532). -/
def State.takeReset (s : State) (source reach arg : Nat) : State :=
  let mode := s.power
  let frame := s.frameNum
  let under := (List.range 3).filter (fun r => s.pwr.resetting.any (fun m => bitAt m r))
  if under.any (fun r => reachWithin reach r) then s.recordReset source reach true mode frame
  else
    let s1 := if reachFatal reach then s.failPair else s
    let s2 := (s1.resetReach reach arg).modPwr (fun w => { w with entering := false })
    let s3 := if reach = reachOutput then s2 else s2.emit (.rst reach)
    let again := under.filter (fun r => !reachWithin r reach)
    let s4 := s3.each again (fun r t => t.resetReach r arg)
    ((s4.recordReset source reach false mode frame).closeRecord).modPwr (fun w => { w with
      resetting := if again.isEmpty then w.resetting else some ((w.resetting.getD 0) ||| 2 ^ reach) })

/-! ## Sources (R496, R499, R505, R516) -/

/-- POWER_ON (R499). -/
def doPowerOn (s : State) : State := s.takeReset 0 reachAll 0

/-- The part of a DEVICE reset in Dormant: PD1 to PD15 stay off and the device returns to Dormant (R514). -/
def State.backToDormant (s : State) : State :=
  (s.put F.SYS_MODE_STAT_POWER 0).modPwr (fun w => { w with dormantAt := some s.uptime })

/-- RESET_N (R499, R514). -/
def doResetN (s : State) : State :=
  let s1 := s.takeReset 1 reachDevice 0
  if s.power = 0 ∧ s.pwr.waking.isNone = true then s1.backToDormant else s1

/-- SW_RESET (R499): a write of PCR_SW_RESET with GO and the key. -/
def doSwReset (value : Word) (s : State) : State :=
  if bitAt value.toNat 31 = true ∧ bits value.toNat 15 0 = 0xD1A5 then s.takeReset 2 reachDevice 0 else s

/-- SUPPLY_FAULT (R516): a main supply leaves its range outside Dormant. `supply` is its bit of GOOD; 8 to 11 is the VDD_DD of a
bank, whose disagreement with BANK_V holds the bank unpowered. -/
def doSupplyFault (supply : Nat) (s : State) : State :=
  if s.power = 0 then s
  else if supply ≤ 6 then
    let good := s.get F.PCR_SUPPLY_GOOD
    let s1 := (s.put F.PCR_SUPPLY_GOOD (if bitAt good supply then good - 2 ^ supply else good)).detected 0x29 0 supply
    let w := (s1.reg R.PCR_SUPPLY.base).toNat
    ((s1.takeReset 3 reachFast 0).modPwr (fun p => { p with supplyFault := true })).tally 0x120F [w]
  else if supply ≤ 11 then
    let b := supply - 8
    let good := s.get F.PCR_SUPPLY_BANK_GOOD
    let held := s.get F.PCR_SUPPLY_BANK_HELD
    let s1 := (s.put F.PCR_SUPPLY_BANK_GOOD (if bitAt good b then good - 2 ^ b else good)).put F.PCR_SUPPLY_BANK_HELD
      (if bitAt held b then held else held + 2 ^ b)
    (s1.each (List.range 8) (fun i t => (t.modDd (8 * b + i) (fun _ => DdPort.reset)).ddEnter (8 * b + i) 7)).tally 0x1211
      [b, s.pwr.opts.bankV, 0]
  else s

/-- Trips in the last 3,600 s. -/
def State.recentTrips (s : State) : List Nat := s.pwr.trips.filter (fun t => decide (s.uptime < t + oneHour))

/-- THERMAL_TRIP (R505): the die reaches the trip point. -/
def doThermalTrip (die : Int) (s : State) : State :=
  let s1 := ((s.put F.PCR_TEMP_DIE (ofSigned 16 die)).detected 0x2A 0 0).takeReset 4 reachFast 0
  let trips := s1.recentTrips ++ [s1.uptime]
  let third := decide (3 ≤ trips.length)
  let s2 := (s1.put F.PCR_STAT_PHASE 14).put F.PCR_TEMP_TRIPS trips.length
  (s2.modPwr (fun w => { w with
    tripped := true, trips := trips, waitsWake := third, dormantAt := if third then some s2.uptime else none })).tally 0x1208
    [slotOfInt die, trips.length]

/-- THERMAL_RESTART (R505): the die has stayed 15 °C below the trip point for 60 s, or lies below it after a wake from the
third trip; start-up goes on from phase 3. -/
def doThermalRestart (s : State) : State :=
  if s.pwr.tripped = true ∧ s.pwr.waitsWake = false then
    (s.enterPhase 3).modPwr (fun w => { w with tripped := false, dormantAt := none })
  else s

/-- REF_LOSS (R496, R499): REF25 acts on FAST, REF156 on SERDES; in Dormant the wake detector stops. -/
def doRefLoss (ref156 : Bool) (ppm : Int) (s : State) : State :=
  let s1 := (s.detected 0x26 0 (if ref156 then 1 else 0)).tally 0x1209 [if ref156 then 1 else 0, slotOfInt ppm]
  let s2 := s1.putFlag (if ref156 then F.PCR_CLK_STAT_REF156_OK else F.PCR_CLK_STAT_REF25_OK) false
  let s3 := s2.modPwr (fun w => if ref156 then { w with lost156 := true } else { w with lost25 := true })
  if s.power = 0 then s3
  else
    if ref156 then ((s3.failPair).takeReset 6 reachSerdes 0).put F.PCR_CLK_STAT_SD_LOCK 0 else s3.takeReset 5 reachFast 0

/-- REF_RESTORED (R496, R499): the reference has been good for 10 ms. -/
def doRefRestored (ref156 : Bool) (s : State) : State :=
  if ref156 then
    ((s.putFlag F.PCR_CLK_STAT_REF156_OK true).modPwr (fun w => { w with lost156 := false, tries := w.tries.filter (fun q => decide (q.1 < 16)) })).syncDomains
  else (s.putFlag F.PCR_CLK_STAT_REF25_OK true).modPwr (fun w => { w with lost25 := false, tries := w.tries.filter (fun q => decide (16 ≤ q.1)) })

/-- XTAL_FALLBACK (R496). -/
def doXtalFallback (s : State) : State :=
  let s1 := ((s.detected 0x28 0 0).putFlag F.PCR_CLK_STAT_XTAL_OK false).putFlag F.PCR_CLK_STAT_RC_FALLBACK true
  (s1.raise F.PCR_EVT_XTAL).tally 0x120A [0]

/-- XTAL_RESTORED (R496). -/
def doXtalRestored (s : State) : State :=
  if s.flag F.PCR_CLK_STAT_RC_FALLBACK then
    ((s.putFlag F.PCR_CLK_STAT_XTAL_OK true).putFlag F.PCR_CLK_STAT_RC_FALLBACK false).tally 0x120A [1]
  else s

/-- The clock-good bit of a PLL, numbered as in PCR_CLK_STAT: 4 to 13 and 16 to 21. -/
def State.pllLock (s : State) (pll : Nat) (on : Bool) : State :=
  let w := (s.reg R.PCR_CLK_STAT.base).toNat
  if (4 ≤ pll ∧ pll ≤ 13) ∨ (16 ≤ pll ∧ pll ≤ 21) then s.setReg R.PCR_CLK_STAT.base (BitVec.ofNat 32 (putBits w pll 1 (if on then 1 else 0))) else s

/-- The loss of a PLL counts as the loss of its reference (R497): REF156 for the SerDes quads, REF25 for the others. -/
def State.pllLost (s : State) (pll : Nat) : State :=
  if 16 ≤ pll then (s.failPair).takeReset 6 reachSerdes 0 else s.takeReset 5 reachFast 0

/-- PLL_LOCK_LOSS (R497). -/
def doPllLockLoss (pll : Nat) (s : State) : State :=
  if s.power = 0 ∨ bitAt (s.reg R.PCR_CLK_STAT.base).toNat pll = false ∨ pll < 4 ∨ (13 < pll ∧ pll < 16) ∨ 21 < pll then s
  else (((s.detected 0x27 0 pll).pllLock pll false).tally 0x1209 [if 16 ≤ pll then 1 else 0, 0]).pllLost pll

/-- PLL_RESTART (R497): the PLL has not locked within 2 ms of starting. After three restarts it is treated as lost. -/
def doPllRestart (pll : Nat) (s : State) : State :=
  let n := ((s.pwr.tries.find? (fun q => q.1 == pll)).map Prod.snd).getD 0
  let rest := s.pwr.tries.filter (fun q => q.1 != pll)
  if n < 3 then s.modPwr (fun w => { w with tries := rest ++ [(pll, n + 1)] })
  else (s.modPwr (fun w => { w with tries := rest })).pllLost pll

/-- RELEASE_HELD (R497): a release has been held for more than 1 ms. `unit` says that `which` is a unit of R503, else a domain. -/
def doReleaseHeld (unit : Bool) (which clock us : Nat) (s : State) : State :=
  let s1 := if unit then s.put F.PCR_BLK_RST_STAT_HELD (s.get F.PCR_BLK_RST_STAT_HELD ||| 2 ^ which)
    else s.put F.PCR_PD_STAT_HELD (s.get F.PCR_PD_STAT_HELD ||| 2 ^ which)
  (s1.raise F.PCR_EVT_HELD).tally 0x1205 [which, clock, us]

/-- WDOG_EXPIRED (R504): core 0 to 2 is a management core, 3 the Byre supervisor. -/
def doWdogExpired (core : Nat) (s : State) : State :=
  let old := bits (s.get R.PCR_WDOG_CNT) (8 * core + 7) (8 * core)
  let s1 := (if core = 3 then s.detected 0x16 0 0 else s.detected 0x17 core 0).put R.PCR_WDOG_CNT
    (putBits (s.get R.PCR_WDOG_CNT) (8 * core) 8 (min 255 (old + 1)))
  let near := s.pwr.wdog.filter (fun q => decide (s.uptime < q.2 + 600 * oneSecond)) ++ [(core, s.uptime)]
  let n := (near.filter (fun q => q.1 == core)).length
  let s2 := ((s1.modPwr (fun w => { w with wdog := near })).raise F.PCR_EVT_WDOG).tally 0x1206 [core, n]
  if core = 3 then (s2.takeReset 7 reachByre 0).updWatchdog 0
  else
    let s3 := s2.takeReset 9 reachCore core
    let s4 := if 3 ≤ n then (s3.put F.PCR_STAT_CORE_HELD (s3.get F.PCR_STAT_CORE_HELD ||| 2 ^ core)).tally 0x1207 [core] else s3
    s4.updWatchdog (core + 1)

/-- PARITY (R499, R506): a Byre register fails its parity. A backup register is set to 0 and loses its VALID bit; any other
returns to its reset value, and the BYRE reach is reset. -/
def doParity (addr : Nat) (s : State) : State :=
  if 0x140100 ≤ addr ∧ addr < 0x140140 then
    let i := (addr - 0x140100) / 4
    let v := s.get F.PCR_BKP_VALID_VALID
    (((s.detected 0x11 i 0).put R.PCR_BKP 0 i).put F.PCR_BKP_VALID_VALID (if bitAt v i then v - 2 ^ i else v)).tally 0x120E [addr]
  else if regInByre addr then
    ((((s.detected 0x10 0 addr).setReg (addr / 4 * 4) (regReset (addr / 4 * 4))).takeReset 8 reachByre 0).tally 0x120E [addr])
  else s

/-! ## Idle requests and units (R502, R503) -/

/-- Units under an idle request or held show in PCR_BLK_RST_STAT.HELD. -/
def State.syncIdle (s : State) : State :=
  s.put F.PCR_BLK_RST_STAT_HELD ((s.pwr.idle.map (fun q => 2 ^ q.unit)).foldl (· ||| ·) 0)

/-- Ask a unit to become idle. -/
def State.askIdle (s : State) (unit source : Nat) : State :=
  if s.pwr.idle.any (fun q => q.unit == unit) then s
  else (s.modPwr (fun w => { w with idle := w.idle ++ [{ unit := unit, source := source, since := s.uptime }] })).syncIdle

/-- ECC_RESET (R499): a double-bit error in the structure store or an instruction store (0), the Parlour tables (1) or the handle
and channel tables (2). The reach goes through an idle request (R502). -/
def doEccReset (table unit word : Nat) (s : State) : State :=
  let det := if table = 0 then 0x0B else if table = 1 then 0x0C else 0x0D
  (s.detected det unit word).failPair.askIdle (if table = 0 then 22 else if table = 1 then 20 else 21) (10 + table)

/-- Units whose reset changes what shows, so that they act only in Warm (R503). -/
def unitStatic (u : Nat) : Bool := [14, 15, 19, 20, 21, 22].contains u

/-- BLK_RST (R503): a write of PCR_BLK_RST. A unit in a reset in progress is absorbed (R500). -/
def doBlkRst (value : Word) (s : State) : State :=
  let units := (List.range 24).filter (fun u => bitAt value.toNat u)
  let bad := if s.power = 1 then [] else units.filter unitStatic
  let s1 := s.putFlag F.PCR_BLK_RST_STAT_REJECT (!bad.isEmpty)
  let s2 := if bad.isEmpty then s1
    else ((s1.rejectS R.PCR_BLK_RST.base).raise F.PCR_EVT_BLK_REJECT).tally 0x120B [(bad.map (fun u => 2 ^ u)).sum, s.power]
  let held := s.pwr.resetting.isSome
  s2.each (units.filter (fun u => !bad.contains u)) (fun u t =>
    if held then t.recordReset 14 reachUnit true t.power t.frameNum else t.askIdle u 14)

/-- The PD9 reach of the MEM unit (R457, R503): transactions in flight and waiting are lost and no sleep level lasts; contents are kept,
and the statements are made anew. The controller's registers keep their values (DESIGN CHOICE: the row names none). -/
def State.resetTank (s : State) : State :=
  let s1 := if s.get F.MEM_STAT_LEVEL = 0 then s else s.add64 R.MEM_SLEEP_US_LO ((s.uptime - s.mem.sleepFrom) / 1000)
  let mem : Mem := { s1.mem with flying := [], stalled := [], turn := 0, slots := Mem.reset.slots }
  (({ s1 with mem := mem } : State).put F.MEM_STAT_LEVEL 0).put F.MEM_STAT_PD_CH 0

/-- The reset of one unit (R503). -/
def State.resetUnit (s : State) (u : Nat) : State :=
  if u < 12 then
    if (s.section u).isSome then
      let s1 := (s.returnItems u).voidReservations u
      ((s1.put F.CE_STAT_STATE 1 u).modEng u (fun x => { x with out := true }.wiped)).coverFault u false
    else s
  else
    match u with
    | 12 => s.each (List.range 32) (fun i t => t.modStream i (fun x => { x with pics := [], ssrc := none }))
    | 13 =>
      s.each (s.running kUniverse) (fun c t =>
        s.frames.foldl (fun t w => if w.active ∧ (t.univOf c.handle).done.all (fun d => decide (d < w.frame)) = true ∧ w.frame < s.sys.nextS
          then doSacnLate w.frame c.index t else t) t)
    | 14 =>
      s.ddHighImpedance.each (List.range 32) (fun p t =>
        let held := bitAt (t.get F.PCR_SUPPLY_BANK_HELD) (p / 8)
        if held then t else if t.ddEnabled p then (t.ddEnter p 1).ddBegin p else t.ddEnter p 0)
    | 15 =>
      let s1 : State := { s with
        now := 0, tim := Tim.reset, dvl := State.reset.dvl, links := s.links.zipIdx.map (fun q =>
          if q.2 < 16 then { q.1 with fresh := true, quietUntil := s.uptime + 300000000 } else q.1) }
      ((s1.clockState 0).relattice).refreshAll
    | 16 => s.resetCore 0
    | 17 => s.resetCore 1
    | 18 => s.resetCore 2
    | 19 => s.resetTank
    | 20 => s.resetParlour
    | 21 => s.resetChannels
    | 22 => s.resetStructure
    | 23 => s.resetByre
    | _ => s

/-- The reach that a unit's reset is, for a source of R499. -/
def unitReach (source : Nat) : Nat :=
  match source with
  | 10 => reachStructure
  | 11 => reachParlour
  | 12 => reachChannels
  | _ => reachUnit

/-- A unit under an idle request is reset. On an Active, a unit in PD9 to PD15 sends FAULT first (R499). -/
def State.resetIdle (s : State) (q : IdleReq) : State :=
  let mode := s.power
  let frame := s.frameNum
  let fatal := q.source == 14 && [14, 15, 19, 22].contains q.unit
  let s1 := (s.modPwr (fun w => { w with idle := w.idle.filter (fun x => x.unit != q.unit) })).syncIdle
  let s2 := (if fatal then s1.failPair else s1).resetUnit q.unit
  let s3 := if 16 ≤ q.unit ∧ q.unit ≤ 18 then
      let h := s2.get F.PCR_STAT_CORE_HELD
      s2.put F.PCR_STAT_CORE_HELD (if bitAt h (q.unit - 16) then h - 2 ^ (q.unit - 16) else h)
    else s2
  ((s3.emit (.rst (unitReach q.source))).recordReset q.source (unitReach q.source) false mode frame).closeRecord

/-- IDLE_ACK (R502): the unit acknowledges and is reset. -/
def doIdleAck (unit : Nat) (s : State) : State :=
  match s.pwr.idle.find? (fun q => q.unit == unit) with
  | some q => s.resetIdle q
  | none => s

/-- IDLE_TIMEOUT (R502): the unit is reset anyway. -/
def doIdleTimeout (unit : Nat) (s : State) : State :=
  match s.pwr.idle.find? (fun q => q.unit == unit) with
  | some q =>
    let us := max 10 (min 10000 (s.get F.PCR_CTL_IDLE_TIMEOUT))
    let s1 := (s.atUptime (q.since + us * 1000)).bump R.PCR_IDLE_TO_CNT
    ((s1.raise F.PCR_EVT_IDLE_TIMEOUT).tally 0x1204 [unit, us]).resetIdle q
  | none => s

/-! ## The Starter (R507 to R509) -/

/-- The flash offset of a copy of the boot flash header. -/
def headerAt (copy : Nat) : Nat := copy * 0x10000

/-- A copy of the header is valid. -/
def State.headerValid (s : State) (copy : Nat) : Bool :=
  let rd := s.flashReader (headerAt copy)
  rd 0 4 == 0x544F4250 && rd 4 2 == 1 && rd 6 2 == 0x100 && crc32c (readBytes rd 0 0xFC) == rd 0xFC 4

/-- The first header field outside its range, or reserved bit that is not 0: its byte offset. -/
def State.headerBad (s : State) (copy : Nat) : Option Nat :=
  let rd := s.flashReader (headerAt copy)
  ([(8, decide (16 ≤ rd 8 4)), (0x0D, decide (2 < rd 0x0D 1)), (0x0E, rd 0x0E 2 != 0),
    (0x24, decide (rd 0x24 2 < 650) || decide (850 < rd 0x24 2)), (0x26, decide (rd 0x26 2 < rd 0x24 2) || decide (850 < rd 0x26 2)),
    (0x28, (List.range 212).any (fun i => rd (0x28 + i) 1 != 0))].find? Prod.snd).map Prod.fst

/-- The options of a header copy. -/
def State.headerOptions (s : State) (copy : Nat) : BootOpts :=
  let rd := s.flashReader (headerAt copy)
  { options := rd 8 4, bankV := rd 0x0C 1, flashMode := rd 0x0D 1, fwTable := rd 0x10 4, strOff := rd 0x14 4, strLen := rd 0x18 4,
    tallyOff := rd 0x1C 4, tallyLen := rd 0x20 4, avsMin := rd 0x24 2, avsMax := rd 0x26 2 }

/-- The values that the Starter publishes (R508, R518). -/
def State.publish (s : State) : State :=
  let o := s.pwr.opts
  let s1 := ((s.put F.STA_OPT_OPTIONS o.options).put F.STA_OPT_BANK_V o.bankV).put F.STA_OPT_FLASH_MODE o.flashMode
  let s2 := (s1.put64 R.STA_SERIAL_LO s.fuses.serial).put F.STA_STAT_STEPPING s.fuses.stepping
  (s2.applyOptions.putFlag F.NET_WAKE_CTL_LINK_EN (bitAt o.options 3)).scanMirror.startPair

/-- A recovery boot (R509): the options are all 0. -/
def State.recoveryBoot (s : State) : State :=
  (((s.putFlag F.STA_STAT_RECOVERY true).putFlag F.PCR_STAT_RECOVERY true).modPwr (fun w => { w with
    opts := { w.opts with options := 0 } })).publish

/-- What the Starter's attempt meets: a code of R508 and where, or nothing. -/
def State.attemptFails (s : State) (readFault : Option (Nat × Nat)) (copy : Option Nat) : Option (Nat × Nat) :=
  match readFault, copy with
  | some (1, w), _ => some (1, w)
  | _, none => some (2, 0)
  | some (_, w), some _ => some (3, w)
  | none, some c => (s.headerBad c).map (fun o => (4, o))

/-- STARTER_ATTEMPT (R508, R509): one load attempt completes or fails. `readFault` is a difference between the two reads: code 1
or 3 and where. -/
def doStarterAttempt (readFault : Option (Nat × Nat)) (s : State) : State :=
  if s.pwr.loaded ∨ s.phase ≠ 1 ∨ s.flag F.STA_STAT_RECOVERY then s
  else
    let s0 := s.modPwr (fun w => { w with resetting := none })
    let inj := match s0.flt.armed with
      | some a => if a.detector = 0x14 then some (1, a.arg) else if a.detector = 0x15 then some (3, a.arg) else none
      | none => none
    let s1 := match inj with
      | some (1, a) => (s0.opportunity 0x14 0 a).2
      | some (_, a) => (s0.opportunity 0x15 0 a).2
      | none => s0
    let copy := if s1.headerValid 0 then some 0 else if s1.headerValid 1 then some 1 else none
    match s1.attemptFails (match readFault with | some f => some f | none => inj) copy with
    | some (code, at_) =>
      let n := s1.pwr.failed + 1
      let s2 := if code = 1 then s1.detect 0x14 else if code = 3 then s1.detect 0x15 else s1
      let s3 := (((s2.put F.STA_FAIL_INFO_CODE code).put F.STA_FAIL_INFO_WHERE at_).put F.STA_STAT_FAILED n).raise F.STA_EVT_LOAD_FAIL
      let s4 := (s3.modPwr (fun w => { w with failed := n })).tally 0x1202 [n, code, at_]
      if n < 3 then s4
      else
        let s5 := ((s4.putFlag F.STA_STAT_SAFE_TRIM true).raise F.STA_EVT_SAFE_TRIM).tally 0x1203 [n]
        (s5.modPwr (fun w => { w with failed := 0, opts := BootOpts.reset })).recoveryBoot
    | none =>
      let c := copy.getD 0
      let s2 := ((s1.put F.STA_STAT_FAILED s1.pwr.failed).put F.STA_STAT_HDR_COPY c).raise F.STA_EVT_LOADED
      (s2.modPwr (fun w => { w with failed := 0, loaded := true, opts := s2.headerOptions c })).publish

/-! ## Start-up (R510 to R513) -/

/-- The base registers that show the device area (R443). -/
def State.setBases (s : State) : State :=
  s.each [(R.SEP_SUM_BASE_LO, driveRing), (R.GOV_TERM_BASE_LO, termRing), (R.GOV_MOTION_BASE_LO, motionTable),
          (R.DVL_DISC_BASE_LO, discoveryArea), (R.DDP_SUM_BASE_LO, lampSums), (R.DDP_FAULT_BASE_LO, ddFaultMap),
          (R.NET_CAP_BASE_LO, captureRing)] (fun q t => t.put64 q.1 q.2)

/-- The measured state of the bank supplies, 2 bits a bank: 0 out of range, 1 at 1.8 V, 2 at 3.3 V. Banks that disagree with
BANK_V, or that it marks as not fitted, are held unpowered (R516). -/
def State.checkBanks (s : State) (banks : Nat) : State :=
  s.each (List.range 4) (fun b t =>
    let v := bits banks (2 * b + 1) (2 * b)
    let fitted := bitAt t.pwr.opts.bankV (4 + b)
    let want := if bitAt t.pwr.opts.bankV b then 2 else 1
    let good := t.get F.PCR_SUPPLY_BANK_GOOD
    let held := t.get F.PCR_SUPPLY_BANK_HELD
    if fitted && v == want then (t.put F.PCR_SUPPLY_BANK_GOOD (good ||| 2 ^ b)).put F.PCR_SUPPLY_BANK_HELD (held &&& (15 ^^^ 2 ^ b))
    else ((t.put F.PCR_SUPPLY_BANK_GOOD (good &&& (15 ^^^ 2 ^ b))).put F.PCR_SUPPLY_BANK_HELD (held ||| 2 ^ b)).tally 0x1211
      [b, t.pwr.opts.bankV, v])

/-- Phase 3: the first domains are on and their PLLs clock-good; a recovery boot leaves PD15 off. -/
def State.powerDomains (s : State) : State :=
  let rec_ := s.flag F.STA_STAT_RECOVERY
  (((s.put F.PCR_PD_STAT_HELD 0).setDomains (if rec_ then [0, 1, 2, 9] else [0, 1, 2, 9, 15])).put F.PCR_CLK_STAT_LOCK (if rec_ then 15 else 31)).each
    (List.range 32) (fun p t => if bitAt (t.get F.PCR_SUPPLY_BANK_HELD) (p / 8) then t else t.ddEnter p 0)

/-- VDD_CORE is requested anew within AVS_MIN to AVS_MAX (R515); the spec does not say at which voltage. -/
def State.requestCore (s : State) : State :=
  let q := s.free 8
  q.2.put F.PCR_SUPPLY_VCORE_MV (s.pwr.opts.avsMin + q.1 % max 1 (s.pwr.opts.avsMax + 1 - s.pwr.opts.avsMin))

/-- Phase 7: the boot structure image is loaded as a full image (R89, R91); a failure leaves LOADED at 0. -/
def State.bootStructure (s : State) : State :=
  let o := s.pwr.opts
  if bitAt o.options 2 = false ∨ o.strLen = 0 ∨ s.flag F.STA_STAT_RECOVERY = true then s
  else if o.strLen < 4096 ∨ 67108864 < o.strLen then s.tally 0x0101 [stInconsistent, 2, 0]
  else
    let s1 := s.writeBulk s.staging (s.flashBytes o.strOff o.strLen)
    let rd := s1.imageReader
    let st := parseImage rd (imageIdentity rd o.strLen)
    let l : StrLoad := { action := true, atFrame := false, addr := 0, len := o.strLen, frame := 0, image := none, acceptedAt := 0,
                         spReady := false, engineReady := none, standinAt := 0 }
    let q := s1.loadInjections (rd 0x0C 2)
    let r := firstFail (s1.imageChecks l rd st q.1 q.2.1 ++ [(3, st.partialImage, stUnsupported)])
    if r.2 = stOK then q.2.2.applyFull st
    else
      let t := if r.1 = 6 then q.2.2.detect 0x2C else if r.1 = 9 then q.2.2.detect 0x2B else q.2.2
      t.tally 0x0101 [r.2, r.1, if r.1 ≤ 4 then 0 else rd 0x10 8]

/-- The saved state of a wake is restored: every engine is reloaded from the structure reserve, and the pails are bound with
nothing in them (R513). -/
def State.restoreSaved (s : State) : State :=
  match s.str.inForce with
  | none => s.syncCmd.showFirmware
  | some _ => ((((s.loadEngines).each s.par.pails (fun q t => t.showPail q)).relink).refreshAll.syncCmd).showFirmware

/-- Registers whose content belongs to the saved state: the mode fields, gains and failed marks, and RED_CTL. -/
def regSaved (a : Nat) : Bool :=
  a == R.SYS_MODE_REQ.base || a == R.SYS_MODE_STAT.base || a == R.RED_CTL.base ||
  [R.EPC_GAIN_RG, R.EPC_GAIN_B, R.G_GAIN_RG, R.G_GAIN_B].any (fun f =>
    decide (f.base ≤ a) && (if f.stride = 0 then a == f.base else decide ((a - f.base) % f.stride = 0) && decide ((a - f.base) / f.stride < 4096)))

/-- A saved state that fails its CRC brings nothing back: the registers it held are at their reset values, and no Rate or
Precision is stored (DEDUCED from R513). -/
def State.dropSaved (s : State) : State :=
  (((s.keepRegs (fun a => !regSaved a)).put F.SYS_MODE_STAT_POWER 0).applyOptions).modPwr (fun w => { w with stored := none })

/-- START_UP (R510, R511, R513): the phase in force ends and the next begins. `banks` is the measured state of the bank
supplies. Waiting for a supply, a reference or a cooler die, it goes no further. -/
def doStartUp (banks : Nat) (s : State) : State :=
  let wake := s.pwr.waking
  if s.power = 0 ∧ wake.isNone = true then s
  else
    match s.phase with
    | 1 =>
      if s.pwr.loaded ∨ s.flag F.STA_STAT_RECOVERY then
        ((s.putFlag F.PCR_CLK_STAT_XTAL_OK (!s.flag F.PCR_CLK_STAT_RC_FALLBACK)).enterPhase 2).modPwr (fun w => { w with resetting := none })
      else s
    | 2 => if s.pwr.lost25 then s else ((s.checkBanks banks).put F.PCR_SUPPLY_GOOD 0x7F).enterPhase 3
    | 3 =>
      if s.pwr.lost25 then s
      else
        let s1 := (s.put F.PCR_SUPPLY_GOOD 0x7F).modPwr (fun w => { w with resetting := none, supplyFault := false })
        let s2 := if s.pwr.supplyFault then s1.checkBanks banks else s1
        let s3 := ((s2.putFlag F.PCR_CLK_STAT_REF25_OK true).putFlag F.PCR_CLK_STAT_REF156_OK (!s.pwr.lost156)).powerDomains.requestCore
        s3.enterPhase 4
    | 4 => s.enterPhase 5
    | 5 => s.enterPhase 6
    | 6 =>
      if s.flag F.STA_STAT_RECOVERY then s.enterPhase 7
      else if s.pwr.saved then s.enterPhase 7
      else
        let q := s.bootSlots
        if q.1 then q.2.enterPhase 7 else (q.2.recoveryBoot.setDomains [0, 1, 2, 9]).enterPhase 7
    | 7 =>
      (match wake with
        | some w =>
          if s.pwr.saved ∧ w.savedOk then s.restoreSaved
          else if s.pwr.saved then s.dropSaved.resetChannels.resetStructure.bootStructure
          else s.bootStructure
        | none => s.bootStructure).enterPhase 8
    | _ => s

/-- The durations of the phases of this start-up, in ms. -/
def State.phaseTimes (s : State) : List Nat :=
  let l := s.pwr.phases
  (List.range l.length).map (fun i => ((((l[i + 1]?).map Prod.snd).getD s.uptime) - ((l[i]?).map Prod.snd).getD 0) / 1000000)

/-- A change of one mode axis on a wake, with its record (R49, R64); the frame is SYS_FRAME_NUM, since no boundary is meant. -/
def State.wakeChange (s : State) (f : State → State) : State :=
  let t := f s
  if t.modeStat = s.modeStat then t else t.noteMode s.modeStat s.frameNum

/-- The Precision and the Rate stored with the Dormant request, and Warm, each change recorded (R49, R51, R64). -/
def State.wakeModes (s : State) : State :=
  let s1 := match s.pwr.stored with
    | some (rate, frate, prec) =>
      (s.wakeChange (fun t => t.put F.SYS_MODE_STAT_PREC prec)).wakeChange (fun t =>
        (t.put F.SYS_MODE_STAT_RATE rate).put F.SYS_MODE_STAT_FRATE frate)
    | none => s
  (s1.wakeChange (fun t => t.put F.SYS_MODE_STAT_POWER 1)).modPwr (fun w => { w with stored := none })

/-- START_DONE (R510, R513): Warm, with the show clock FREE at device time 0. A wake completes its request, which applies the
Rate and Precision stored with it. -/
def doStartDone (s : State) : State :=
  if s.phase ≠ 8 then s
  else
    let s1 := ({ s with now := 0 } : State).clockState 0
    let s2 := ((if s.pwr.waking.isSome then s1.wakeModes else s1.put F.SYS_MODE_STAT_POWER 1).put F.PCR_STAT_PHASE 15).setBases
    let s3 := (s2.relattice).modSys (fun y => { y with started := !s.flag F.STA_STAT_RECOVERY })
    let s4 : State := { s3 with links := s3.links.map (fun k => { k with fresh := true }) }
    let s5 := (s4.startPair).refreshAll
    match s.pwr.waking with
    | some w =>
      let res := if s.pwr.saved ∧ w.savedOk = false then stIntegrity else stOK
      let s6 := (s5.tally 0x120D [w.cause, res, (s.uptime - w.since) / 1000000]).raise F.SYS_MODE_EVT_WOKE
      (s6.modPwr (fun p => { p with waking := none, saved := false, dormantAt := none })).noteInput
    | none =>
      s5.tally 0x1201 (s.phaseTimes ++ [s.get F.STR_STAT_LOADED, s.get F.STA_STAT_RECOVERY])

/-! ## Dormant (R47, R512 to R514) -/

/-- What is kept of a stream across Dormant: the ready slots, whose pictures stay in the Bulk Tank, and the start of the PLAY in
force (R47, R169). -/
def Stream.stored (x : Stream) : Stream := { Stream.reset with playFrom := x.playFrom, ready := x.ready }

/-- PD1 to PD15 are switched off with their state saved: channel tables, structure identity, Parlour bindings and mode fields
(R512), gains and failed marks (R239). -/
def State.switchOff (s : State) : State :=
  let t := s.fastState (fun a => regInByre a || regOfDetectors a || regSaved a)
  let pails := s.par.pails.map (fun q => { q with items := [], popping := none, stalled := none, lastServed := 0, waitPop := [] })
  let u : State := { t with
    cmd := { s.cmd with flight := [], fenced := [], deferred := [], awaiting := none, unrouted := [] },
    str := { s.str with load := none, standin := none, capNew := none }, par := { t.par with pails := pails }, upd := s.upd,
    ing := { t.ing with streams := s.ing.streams.map Stream.stored } }
  (u.onlyByre).ddHighImpedance

/-- DORMANT_ENTER (R512): the state is saved, the Bulk Tank enters self-refresh and PD1 to PD15 are switched off. How many bytes
are saved the spec leaves open. -/
def doDormantEnter (s : State) : State :=
  match s.sys.trans with
  | none => s
  | some m =>
    if m.power ≠ 0 ∨ s.power ≠ 1 ∨ m.handover = true then s
    else
      let q := s.free 32
      let last := s.frameNum
      let s1 := ((q.2.voidWindows last last).dropAllStaged 2).hostReset
      let s2 := ((s1.put F.SYS_MODE_STAT_POWER 0).noteMode s.modeStat last).finishMode m
      let s3 := s2.switchOff
      let s5 := s3.modPwr (fun w => { w with
        saved := true, dormantAt := some s.uptime, waking := none, stored := some (m.rate, m.frate, m.prec) })
      s5.tally 0x120C [q.1, s5.get R.PCR_WAKE_ALARM]

/-- A wake begins (R513), or, in the tripped state after a third trip, the start-up that then waits for the die (R505). -/
def State.beginWake (s : State) (cause : Nat) (savedOk : Bool) : State :=
  let w : Waking := { cause := cause, savedOk := savedOk, since := s.uptime }
  if s.pwr.tripped then s.modPwr (fun p => { p with waitsWake := false })
  else (s.modPwr (fun p => { p with waking := some w, phases := [] })).enterPhase 3

/-- The device waits for a wake: Dormant, or tripped for the third time. -/
def State.awaitsWake (s : State) : Bool := (s.power == 0 && s.pwr.waking.isNone) || (s.pwr.tripped && s.pwr.waitsWake)

/-- WAKE (R386, R513): a frame on M0, or its link coming up. `savedOk` says whether the saved state passes its CRC. A wake frame
at any other time is counted and ignored, but not while an automatic restart is pending (R505). -/
def doWake (frame : Option RxFrame) (savedOk : Bool) (s : State) : State :=
  let cause := match frame with
    | none => if s.flag F.NET_WAKE_CTL_LINK_EN then some 1 else none
    | some f => s.wakeMatch f
  match cause with
  | none => s
  | some c =>
    if s.awaitsWake = false then (if s.pwr.tripped ∨ frame.isNone = true then s else s.bump F.NET_WAKE_STAT_SEEN)
    else if s.pwr.lost25 then s
    else ((s.put F.NET_WAKE_STAT_CAUSE c).tally 0x0D07 [c]).beginWake 0 savedOk

/-- WAKE_ALARM (R513): PCR_WAKE_ALARM seconds have passed; 0 disables it. -/
def doWakeAlarm (savedOk : Bool) (s : State) : State :=
  let n := s.get R.PCR_WAKE_ALARM
  match s.pwr.dormantAt with
  | some t => if s.awaitsWake = false ∨ n = 0 then s else (s.atUptime (t + n * oneSecond)).beginWake 1 savedOk
  | none => s

def execPowerOn (s : State) : Host.Outcome State Fault Refusal := .next (doPowerOn s)
def execResetN (s : State) : Host.Outcome State Fault Refusal := .next (doResetN s)
def execSwReset (value : Word) (s : State) : Host.Outcome State Fault Refusal := .next (doSwReset value s)
def execSupplyFault (supply : Nat) (s : State) : Host.Outcome State Fault Refusal := .next (doSupplyFault supply s)
def execThermalTrip (die : Int) (s : State) : Host.Outcome State Fault Refusal := .next (doThermalTrip die s)
def execThermalRestart (s : State) : Host.Outcome State Fault Refusal := .next (doThermalRestart s)
def execRefLoss (ref156 : Bool) (ppm : Int) (s : State) : Host.Outcome State Fault Refusal := .next (doRefLoss ref156 ppm s)
def execRefRestored (ref156 : Bool) (s : State) : Host.Outcome State Fault Refusal := .next (doRefRestored ref156 s)
def execXtalFallback (s : State) : Host.Outcome State Fault Refusal := .next (doXtalFallback s)
def execXtalRestored (s : State) : Host.Outcome State Fault Refusal := .next (doXtalRestored s)
def execPllLockLoss (pll : Nat) (s : State) : Host.Outcome State Fault Refusal := .next (doPllLockLoss pll s)
def execPllRestart (pll : Nat) (s : State) : Host.Outcome State Fault Refusal := .next (doPllRestart pll s)
def execReleaseHeld (unit : Bool) (which clock us : Nat) (s : State) : Host.Outcome State Fault Refusal :=
  .next (doReleaseHeld unit which clock us s)
def execWdogExpired (core : Fin 4) (s : State) : Host.Outcome State Fault Refusal := .next (doWdogExpired core.val s)
def execParity (addr : Nat) (s : State) : Host.Outcome State Fault Refusal := .next (doParity addr s)
def execEccReset (table : Fin 3) (unit word : Nat) (s : State) : Host.Outcome State Fault Refusal := .next (doEccReset table.val unit word s)
def execBlkRst (value : Word) (s : State) : Host.Outcome State Fault Refusal := .next (doBlkRst value s)
def execIdleAck (unit : Fin 24) (s : State) : Host.Outcome State Fault Refusal := .next (doIdleAck unit.val s)
def execIdleTimeout (unit : Fin 24) (s : State) : Host.Outcome State Fault Refusal := .next (doIdleTimeout unit.val s)
def execStarterAttempt (readFault : Option (Nat × Nat)) (s : State) : Host.Outcome State Fault Refusal := .next (doStarterAttempt readFault s)
def execStartUp (banks : Nat) (s : State) : Host.Outcome State Fault Refusal := .next (doStartUp banks s)
def execStartDone (s : State) : Host.Outcome State Fault Refusal := .next (doStartDone s)
def execDormantEnter (s : State) : Host.Outcome State Fault Refusal := .next (doDormantEnter s)
def execWake (frame : Option RxFrame) (savedOk : Bool) (s : State) : Host.Outcome State Fault Refusal := .next (doWake frame savedOk s)
def execWakeAlarm (savedOk : Bool) (s : State) : Host.Outcome State Fault Refusal := .next (doWakeAlarm savedOk s)

end Sys2Proof.Machine
end

