-- ==== Sys2Proof/Machine/Memory.lean ====
section
/-! DEFINITION. The Bulk Tank's controller: arbitration (R446, R447), errors (R449 to R451), latency tolerance and sleep
(R452 to R457). -/
namespace Sys2Proof.Machine
open Sys2Proof

/-- Change the memory controller's state. -/
def State.modMem (s : State) (f : Mem → Mem) : State := { s with mem := f s.mem }

/-- A number of µs in units of device time. -/
def inTime (us : Nat) : Nat := us * 1000 * 65536

/-! ## Owners (R446, R453) -/

/-- CLASS of MEM_UE_INFO. -/
def ownerClass : MemOwner → Nat
  | .ingest | .shifter => 0
  | .dispatcher | .kernel | .accumulator => 1
  | .host => 2
  | .core _ => 3
  | .scrub | .fitting | .updateStaging => 4

/-- The number of R453 of an owner that states a tolerance. -/
def ownerClient : MemOwner → Option Nat
  | .dispatcher => some 0
  | .kernel => some 1
  | .accumulator => some 2
  | .ingest => some 3
  | .shifter => some 4
  | .scrub => some 5
  | _ => none

/-- The place in the turn of the host and the management cores. -/
def ownerTurn : MemOwner → Option Nat
  | .host => some 0
  | .core n => some (n.val + 1)
  | _ => none

/-- The background activity of R38 of an owner. -/
def ownerActivity : MemOwner → Option Nat
  | .scrub => some 0
  | .fitting => some 1
  | .updateStaging => some 9
  | _ => none

/-- The owner of a reserved slot of 512: 8 for the scrub, 1 for fitting, 2 for staging. -/
def slotOwner (k : Nat) : Option MemOwner :=
  if k < 8 then some .scrub else if k = 8 then some .fitting else if k < 11 then some .updateStaging else none

/-! ## Arbitration (R446, R447) -/

/-- The class in which a request is served: a host or management request that has waited 50 µs in the frame class. -/
def memRank (r : MemReq) : Nat :=
  match r.owner with
  | .ingest | .shifter => 0
  | .dispatcher | .kernel | .accumulator => 1
  | .host | .core _ => if 50000 ≤ r.wait then 1 else 2
  | .scrub | .fitting | .updateStaging => 3

/-- The first request in turn of the host and the management cores. -/
def turnPick (turn : Nat) (l : List MemReq) : Option MemReq :=
  (List.range 4).findSome? (fun k => l.find? (fun r => ownerTurn r.owner == some ((turn + k) % 4)))

/-- The request of a channel's next slot. An escalated background activity has the first claim among its kind, and from level 2 its reserved slots
come ahead of the next foreground band (R37). -/
def State.memPick (s : State) (channel : Nat) (reqs : List MemReq) : Option MemReq :=
  let own := (slotOwner (s.mem.slots.getD channel 0)).bind (fun o => reqs.find? (fun r => decide (r.owner = o)))
  let escalated (r : MemReq) : Bool := (ownerActivity r.owner).any (fun a => s.get F.SYS_BG_STAT_LEVEL a != 0)
  let ahead (r : MemReq) : Bool := (ownerActivity r.owner).any (fun a => (s.bgAt a).ahead != 0)
  let cls (k : Nat) := reqs.filter (fun r => memRank r == k)
  let order := [(cls 0).head?, (cls 3).find? ahead, (cls 1).head?, turnPick s.mem.turn (cls 2), (cls 3).find? escalated,
    (cls 3).head?]
  match own with
  | some r => some r
  | none => order.findSome? id

/-! ## The tolerance statements (R300, R452, R453) -/

/-- The latest n with S(n) at or before a device time. -/
def State.lastS (s : State) (t : Nat) : Nat := s.firstSFrom (t + 1) - 1

/-- The dispatcher's statement (R300): since when, and for how long in µs. -/
def State.dispatcherSays (s : State) : Nat × Nat :=
  let n := s.lastS (s.now + inTime 50)
  let e := s.eAt n
  if s.power = 3 then
    if s.now < e then (s.sAt n - inTime 50, 1)
    else (e, ((s.sAt (n + 1) - inTime 50) - e) / inTime 1)
  else
    let m := s.lastS s.now
    let at_ := if s.now < s.eAt m then s.sAt m else s.eAt m
    let rings := (s.running kRing).map Chan.index
    (at_, if rings.isEmpty then 10000 else min 10000 (Config.telemetryFill ((rings.map (fun r => 2 ^ r)).sum)))

/-- The frame kernels of frame n have done all that Hold asks of them. -/
def State.holdWorkDone (s : State) (n : Nat) : Bool :=
  (s.frameWork n).all (fun w => w.forecastDone) &&
  ((s.running kFixture).isEmpty || s.fix.built.any (fun b => decide (n ≤ b.1)))

/-- The deadlines of the clients, by their numbers in R453, that have made a statement. -/
def State.deadlines (s : State) : List (Nat × Nat) :=
  let p := s.power
  let n := s.lastS (s.now + inTime 50)
  let d0 := let q := s.dispatcherSays; if p = 0 then [] else [(0, q.1 + inTime q.2)]
  let d1 :=
    if p = 3 then [(1, if s.now < s.eAt n then s.sAt n - inTime 49 else s.sAt (n + 1) - inTime 50)]
    else if p = 2 then [(1, if s.holdWorkDone n then s.sAt (n + 1) - inTime 50 else s.sAt n - inTime 49)] else []
  let d2 := if p < 2 then []
    else if s.cal.behind.isEmpty then [(2, s.dAt (s.lastS s.now) - inTime 50)] else [(2, s.dAt ((s.cal.behind.head?.map Behind.frame).getD 0) + inTime 1)]
  let streams := (s.running kStream).filter (fun c => !c.stored)
  let d3 := if streams.isEmpty then [] else [(3, s.now + inTime (Config.ingestFill ((streams.map (fun c => 2 ^ c.index)).sum)))]
  let ports := (List.range 32).filter (fun q => s.ddEnabled q)
  let m := s.lastS (s.now + inTime 650) - 1
  let fed := ports.all (fun q => (s.ddp.ports.getD q DdPort.reset).done.any (fun d => decide (m ≤ d)))
  let d4 := if ports.isEmpty || decide (p < 2) then []
    else [(4, if fed then s.eAt (m + 1) - inTime 50 else s.eAt m - inTime 49)]
  d0 ++ d1 ++ d2 ++ d3 ++ d4 ++ (match s.mem.scrubLate with | some t => [(5, t + inTime 1)] | none => [])

/-- D and the client that sets it (R452). -/
def State.memD (s : State) : Option (Nat × Nat) :=
  s.deadlines.foldl (fun b c => match b with
    | none => some c
    | some x => if c.2 < x.2 then some c else some x) none

/-- MEM_TOL as a read finds it. -/
def State.showTol (s : State) : State :=
  match s.memD with
  | none => (s.put F.MEM_TOL_MIN_US 0xFFFFFF).put F.MEM_TOL_CLIENT 7
  | some (c, d) => (s.put F.MEM_TOL_MIN_US (min 0xFFFFFF ((d - s.now) / inTime 1))).put F.MEM_TOL_CLIENT c

/-- MEM_SCRUB_POS.POS as a read finds it: the pass runs evenly over 24 h, less what it is behind. -/
def State.showScrub (s : State) : State :=
  let done := (s.uptime - s.mem.passFrom) - s.get F.MEM_SCRUB_POS_BEHIND * 60 * oneSecond
  s.put F.MEM_SCRUB_POS_POS (min 65535 (done * 65536 / (86400 * oneSecond)))

/-! ## Utilisation (R458) -/

/-- Close the frame periods that have passed: LAST and PEAK take the traffic of the last whole one. -/
def State.closeUtil (s : State) : State :=
  let n := frameOf s.rate s.now
  if n = s.mem.utilFrame then s
  else
    let last := if n = s.mem.utilFrame + 1 then min 2047 (s.mem.bytes * 1024 * 65536 * 1000 / (273056 * periodOf s.rate)) else 0
    ((s.put F.MEM_UTIL_LAST last).put F.MEM_UTIL_PEAK (max last (s.get F.MEM_UTIL_PEAK))).modMem (fun m => { m with bytes := 0, utilFrame := n })

/-! ## Sleep (R454, R455, R457) -/

/-- MEM_STAT.REFRESH shows the highest derate of the packages. -/
def State.takeDerate (s : State) (package refresh : Nat) : State :=
  let s1 := s.modMem (fun m => { m with derate := m.derate.set package refresh })
  ((s1.put F.MEM_STAT_REFRESH (s1.mem.derate.foldl max 0)).raise F.MEM_EVT_DERATE).tally 0x1004 [package, refresh]

/-- The memory leaves self-refresh or deep self-refresh. -/
def State.memAwake (s : State) : State :=
  if s.get F.MEM_STAT_LEVEL = 0 then s
  else
    let us := (s.uptime - s.mem.sleepFrom) / 1000
    let s1 := (s.put F.MEM_STAT_LEVEL 0).add64 R.MEM_SLEEP_US_LO us
    let s2 := s1.modMem (fun m => { m with derateNext := [] })
    s2.each s.mem.derateNext (fun q t => t.takeDerate q.1 q.2)

/-- One channel leaves power-down. -/
def State.channelAwake (s : State) (channel : Nat) : State :=
  let pd := s.get F.MEM_STAT_PD_CH
  if bitAt pd channel then s.put F.MEM_STAT_PD_CH (pd - 2 ^ channel) else s

/-- The time until D exceeds a bound in ns. -/
def State.sleepAllowed (s : State) (ns : Nat) : Bool := s.memD.all (fun d => decide (s.now + ns * 65536 < d.2))

/-- No transaction is in flight or waits, on a channel or on any. -/
def State.queuesEmpty (s : State) (channel : Option Nat) : Bool :=
  !(s.mem.flying ++ s.mem.stalled).any (fun x => channel.all (fun c => x.channel == c))

/-- MEM_SLEEP_ENTER (R454): `level` 0 is power-down of one channel, 1 self-refresh, 2 deep self-refresh. -/
def doMemSleepEnter (level channel : Nat) (s : State) : State :=
  if s.power = 0 then s
  else if level = 0 then
    if s.queuesEmpty (some channel) = true ∧ s.get F.MEM_STAT_LEVEL = 0 ∧ s.sleepAllowed 500 = true ∧ bitAt (s.get F.MEM_STAT_PD_CH) channel = false then
      s.put F.MEM_STAT_PD_CH (s.get F.MEM_STAT_PD_CH + 2 ^ channel) else s
  else
    let on := if level = 1 then s.flag F.MEM_CTL_SR_EN else s.flag F.MEM_CTL_DSR_EN
    if s.queuesEmpty none = true ∧ on ∧ s.get F.MEM_STAT_LEVEL < level ∧ s.sleepAllowed (if level = 1 then 8000 else 200000) = true then
      let from_ := if s.get F.MEM_STAT_LEVEL = 0 then s.uptime else s.mem.sleepFrom
      ((s.put F.MEM_STAT_LEVEL level).put F.MEM_STAT_PD_CH 0).modMem (fun m => { m with sleepFrom := from_ })
    else s

/-- MEM_SLEEP_EXIT (R454): the memory leaves its level, or the channel its power-down. -/
def doMemSleepExit (channel : Nat) (s : State) : State :=
  if s.get F.MEM_STAT_LEVEL = 0 then s.channelAwake channel else s.memAwake

/-- REFRESH_DERATE (R440, R457): MR4 of a package asks for another derate. -/
def doRefreshDerate (package refresh : Nat) (s : State) : State :=
  if s.get F.MEM_STAT_LEVEL = 2 then s.modMem (fun m => { m with derateNext := m.derateNext ++ [(package, refresh)] })
  else if s.mem.derate.getD package 0 = refresh then s
  else s.takeDerate package refresh

/-! ## Errors (R449 to R451) -/

/-- The bases of the rows of R443. -/
def memAreas : List Nat :=
  [reserveA, reserveB, cuePool, pailArea, firmwareArea, ddBuffers, motionTable, driveRing, termRing, captureRing, lampSums,
   discoveryArea, ddFaultMap, reservedTop]

/-- AREA of MEM_UE_INFO: the row of R443, or 15 for the host area. -/
def areaOf (a : Nat) : Nat := if a < reserveA then 15 else (memAreas.filter (fun b => decide (b ≤ a))).length - 1

/-- A corrected half (R450). -/
def State.memCorrected (s : State) (a : Nat) (byScrub : Bool) : State :=
  let s1 := ((s.bump R.MEM_CE_CNT).raise F.MEM_EVT_CE).modMem (fun m => { m with
    fixes := s.uptime :: m.fixes.filter (fun u => decide (s.uptime < u + 3600 * oneSecond)),
    passFixes := m.passFixes + (if byScrub then 1 else 0) })
  s1.tallyLimitedV 0x10000000 oneSecond 0x1000 a (fun _ _ => [a, (s1.mem.fixes.filter (fun u => decide (s.uptime < u + oneSecond))).length])

/-- An uncorrectable half is recorded (R451); one already recorded is not counted again (R457). -/
def State.memUncorrectable (s : State) (r : MemReq) (half : Nat) (fold : Bool) : State :=
  if s.mem.bad.contains half then s
  else
    let a := 32 * half
    let scrub := decide (r.owner = MemOwner.scrub)
    let info := ownerClass r.owner + areaOf a * 8 + (if scrub then 128 else 0) + (if fold then 256 else 0)
    let s1 := ((s.bump R.MEM_UE_CNT).raise F.MEM_EVT_UE).put64 R.MEM_UE_ADDR_LO a
    let s2 := ((s1.setReg R.MEM_UE_INFO.base (BitVec.ofNat 32 info)).msi 2).tally 0x1001 [a, info]
    s2.modMem (fun m => { m with bad := m.bad ++ [half] })

/-- Task and telemetry items that lie in an uncorrectable half become VOID. -/
def State.voidPailItems (s : State) (half : Nat) : State :=
  s.each (s.par.pails.filter (fun q => q.bulk && (q.role == 2 || q.role == 3))) (fun q t =>
    let hit := ((List.range q.items.length).filter (fun k => spansMeet (t.slotAddr q k) q.itemBytes (32 * half) 32)).filterMap (fun k =>
      (q.items[k]?).bind (fun i => if i.phase = .ready then some i.seq else none))
    let pail (x : Pail) : Pail := { x with items := x.items.map (fun i => if hit.contains i.seq then { i with phase := .void } else i) }
    let u := t.modPail q.num pail
    (if q.role = 2 then u.releaseDone q.num else u).syncPar)

/-- What the reader of an uncorrectable half does (R451). Readers of other areas find the half by its mark. -/
def State.memReaderActs (s : State) (r : MemReq) (half : Nat) : State :=
  let a := 32 * half
  match r.owner with
  | .scrub => s
  | .host => s.poison .host
  | .core n =>
    if areaOf a = 4 then (s.detected 0x19 (n.val + 1) ((a - firmwareArea) / 32)).takeReset 9 reachCore (n.val + 1) else s
  | _ =>
    if s.inImageInForce a then s.failPair.askIdle 22 10
    else if areaOf a = 3 then s.voidPailItems half else s

/-- What ECC finds in a half: what the command reports, or an injection that fires on it. -/
def State.halfFinds (s : State) (half : Nat) (f : HalfFault) : HalfFault × State :=
  match f with
  | .one => (.one, s.detected 0x08 0 half)
  | .two => (.two, s.detected 0x09 0 half)
  | .fold => (.fold, s.detected 0x0A 0 half)
  | .none =>
    let a := s.opportunity 0x09 0 half
    let b := a.2.opportunity 0x0A 0 half
    let c := b.2.opportunity 0x08 0 half
    if a.1 then (.two, a.2.detect 0x09) else if b.1 then (.fold, b.2.detect 0x0A)
    else if c.1 then (.one, c.2.detect 0x08) else (if s.mem.bad.contains half then .two else .none, s)

/-- One half of a served transaction: a write of the whole half replaces it; anything else reads it. -/
def State.memHalf (s : State) (r : MemReq) (half : Nat) (f : HalfFault) : State :=
  if r.write ∧ r.addr ≤ 32 * half ∧ 32 * half + 32 ≤ r.addr + r.len then
    s.modMem (fun m => { m with bad := m.bad.filter (· != half) })
  else
    let q := s.halfFinds half f
    match q.1 with
    | .none => q.2
    | .one => q.2.memCorrected (32 * half) (decide (r.owner = MemOwner.scrub))
    | .two => (q.2.memUncorrectable r half false).memReaderActs r half
    | .fold => (q.2.memUncorrectable r half true).memReaderActs r half

/-- A client that asks before its own deadline is counted (R455). Ingest renews its statement as it asks. -/
def State.memEarly (s : State) (r : MemReq) : State :=
  match (ownerClient r.owner).bind (fun c => s.deadlines.find? (fun d => d.1 == c)) with
  | none => s
  | some (c, d) =>
    if s.now < d ∧ c ≠ 3 then
      ((s.bump R.MEM_TOL_VIOL_CNT).raise F.MEM_EVT_TOL_VIOL).tally 0x1002 [c, (d - s.now) / inTime 1]
    else s

/-- A channel takes another transaction: at most 32 are in flight on it, 128 on its controller and 512 in all (R445). -/
def State.memRoom (s : State) (channel : Nat) : Bool :=
  let count (f : Nat → Bool) : Nat := (s.mem.flying.filter (fun x => f x.channel)).length
  decide (count (fun c => c == channel) < 32) && decide (count (fun c => c / 4 == channel / 4) < 128) &&
    decide (s.mem.flying.length < 512)

/-- A client's next transaction arrives at a channel: it is in flight, or waits behind those that wait already (R445). -/
def State.memArrive (s : State) (channel : Nat) (r : MemReq) : State :=
  let x : Flying := { channel := channel, req := r, since := s.uptime }
  let free := s.memRoom channel && !s.mem.stalled.any (fun y => y.channel == channel)
  s.modMem (fun m => if free then { m with flying := m.flying ++ [x] } else { m with stalled := m.stalled ++ [x] })

/-- The wait of a kernel's transaction counts as time used by its kind, in its engine's clocks of 1,200 MHz (R113, R445). -/
def State.countWait (s : State) (x : Flying) : State :=
  match x.req.kind with
  | some (e, order) => s.useClocks e order ((s.uptime - x.since) * 6 / 5)
  | none => s

/-- Waiting transactions come in flight, oldest first, where their channel has room. -/
def State.memAdmit (s : State) : State :=
  s.each s.mem.stalled (fun x t =>
    if t.memRoom x.channel then
      (t.modMem (fun m => { m with flying := m.flying ++ [x], stalled := m.stalled.filter (fun y => y != x) })).countWait x
    else t)

/-- How long a transaction in flight has waited. -/
def State.waited (s : State) (x : Flying) : MemReq := { x.req with wait := x.req.wait + (s.uptime - x.since) }

/-- A transaction is served, after the memory has left its sleep (R446). -/
def State.memServe (s : State) (channel : Nat) (r : MemReq) : State :=
  let s1 := (s.memAwake.channelAwake channel).closeUtil
  let next := match ownerTurn r.owner with
    | some k => (k + 1) % 4
    | none => s.mem.turn
  let s2 := s1.modMem (fun m => { m with
    slots := m.slots.modify channel (fun k => (k + 1) % 512), turn := next, bytes := m.bytes + 64 })
  let s3 := match ownerActivity r.owner with
    | some a => s2.modBg a (fun b => { b with ahead := b.ahead - 1 })
    | none => s2
  let h := r.addr / 32
  let s4 := (s3.emit (.memServed channel r.owner r.addr)).memHalf r h r.first
  if r.len ≠ 0 ∧ h < (r.addr + r.len - 1) / 32 then s4.memHalf r (h + 1) r.second else s4

/-- MEM_ACCESS (R445, R446): transactions arrive at a channel, and of those in flight on it one is served. What a write stores is
its owner's own command. -/
def doMemAccess (channel : Nat) (reqs : List MemReq) (s : State) : State :=
  let s1 := s.each reqs (fun r t => (t.memEarly r).memArrive channel r)
  let here := s1.mem.flying.filter (fun x => x.channel == channel)
  match s1.memPick channel (here.map s1.waited) with
  | none => s1
  | some r =>
    match here.find? (fun x => s1.waited x == r) with
    | none => s1
    | some x => ((s1.modMem (fun m => { m with flying := m.flying.erase x })).memServe channel r).memAdmit

/-- SCRUB_PASS (R449): the patrol scrub ends a pass. -/
def doScrubPass (s : State) : State :=
  let secs := (s.uptime - s.mem.passFrom) / oneSecond
  let s1 := ((s.bump R.MEM_SCRUB_PASS_CNT).raise F.MEM_EVT_SCRUB_PASS).tally 0x1003 [secs, s.mem.passFixes]
  s1.modMem (fun m => { m with passFrom := s.uptime, passFixes := 0 })

/-- SCRUB_BEHIND (R449): the scrub is so many minutes behind schedule; 0 puts it back on schedule. -/
def doScrubBehind (minutes : Nat) (s : State) : State :=
  let was := s.get F.MEM_SCRUB_POS_BEHIND
  let s1 := (s.put F.MEM_SCRUB_POS_BEHIND (min minutes 65535)).modMem (fun m => { m with
    scrubLate := if minutes = 0 then none else if 15 ≤ minutes then some (m.scrubLate.getD s.now) else m.scrubLate })
  if was < 60 ∧ 60 ≤ minutes then s1.tally 0x1005 [minutes] else s1

def execMemAccess (channel : Fin 16) (reqs : List MemReq) (s : State) : Host.Outcome State Fault Refusal :=
  .next (doMemAccess channel.val reqs s)
def execScrubPass (s : State) : Host.Outcome State Fault Refusal := .next (doScrubPass s)
def execScrubBehind (minutes : Nat) (s : State) : Host.Outcome State Fault Refusal := .next (doScrubBehind minutes s)
def execMemSleepEnter (level : Fin 3) (channel : Fin 16) (s : State) : Host.Outcome State Fault Refusal :=
  .next (doMemSleepEnter level.val channel.val s)
def execMemSleepExit (channel : Fin 16) (s : State) : Host.Outcome State Fault Refusal := .next (doMemSleepExit channel.val s)
def execRefreshDerate (package : Fin 4) (refresh : Fin 3) (s : State) : Host.Outcome State Fault Refusal :=
  .next (doRefreshDerate package.val refresh.val s)

end Sys2Proof.Machine
end

