-- ==== Sys2Proof/Machine/PailRows.lean ====
section
/-! DEFINITION. The rows of the pails: reservations, length words, hardware consumers, flushes, pointer writes and pops
(R395 to R401). -/
namespace Sys2Proof.Machine
open Sys2Proof

/-- PAIL_RESERVE (R395, R396): a device producer of a task, telemetry or hardware pail. -/
def doPailReserve (p producer : Nat) (s : State) : State :=
  match s.pail p with
  | some q => if 2 ≤ q.role then s.reserve p producer else s
  | none => s

/-- PRODUCER_RESUME (R396): room has appeared, and the wait is counted. A kernel's wait is among the clocks that the ITEM_COMPLETE of
its item gives, as for a route stall. -/
def doProducerResume (p : Nat) (s : State) : State :=
  match s.pail p with
  | none => s
  | some q =>
    match q.stalled with
    | some since =>
      if q.items.length < q.depth then
        (s.add R.PL_STALL_US ((s.uptime - since) / 1000) p).modPail p (fun x => { x with stalled := none })
      else s
    | none => s

/-- LENGTH_WORD_WRITE (R394, R395). -/
def doLengthWordWrite (p seq : Nat) (payload : List Nat) (s : State) : State :=
  match s.pail p with
  | some q => if 2 ≤ q.role then s.writeItem p seq payload false else s
  | none => s

/-- The idle item (R397); its SEQ is that of the next reservation (DEDUCED from R394). -/
def State.idleItem (s : State) (p : Nat) : List Nat := leBytes 4 (lengthWord 4 true false (s.get F.PL_SEQ_NEXT p))

/-- HW_CONSUMER_READ (R397): a hardware consumer reads its privileged pail, and never waits. -/
def doHwConsumerRead (p : Nat) (s0 : State) : State :=
  let s := s0.skipVoid p
  match s.pail p with
  | none => s.emit (.hwItem p (leBytes 4 (lengthWord 4 true false 0)))
  | some q =>
    match q.items.head? with
    | none => s.emit (.hwItem p (s.idleItem p))
    | some i =>
      if i.phase = .ready then
        let r := s.pailRead q
        let out := r.2.emit (.hwItem p (r.2.pailBytes q (r.2.slotAddr q 0) i.len))
        ((out.rdAdvance q 1).modPail p (fun x => { x with items := x.items.drop 1 })).syncPail p
      else
        (((s.bump R.PL_STARVE p).raise F.PL_EVT_STARVED p).tallyAtMost 0x0E07 10 oneSecond 0x0E07 [p, s.frameNum]).emit
          (.hwItem p (s.idleItem p))

/-- FLUSH (R399): a write of PL_CTL.FLUSH. A command pail that was stalled goes on. -/
def doFlush (p : Nat) (s : State) : State :=
  match s.pail p with
  | none => s
  | some q =>
    if q.role = 2 ∧ s.power ≠ 1 then (s.raise F.PL_EVT_FLUSH_REJECT p).tally 0x0E02 [p, s.power]
    else (s.flushPail p 0).pump

/-- A pointer value is ignored (R400, R401); the register is named by its BAR0 offset. -/
def State.ptrBad (s : State) (p : Nat) (reg : Field) (value : Nat) : State :=
  (s.raise F.PL_EVT_PTR_BAD p).tally 0x0E05 [p, reg.addr p, value]

/-- PL_WR_WRITE (R400): the host pushes descriptors into a command pail. -/
def doPlWrWrite (p value : Nat) (s : State) : State :=
  match s.pail p with
  | none => s
  | some q =>
    if q.role ≠ 0 then s
    else
      let fill := s.fill q
      let next := fillOf q.depth value (s.plRd p)
      if 2 * q.depth ≤ value ∨ q.depth < next ∨ next < fill then s.ptrBad p R.PL_WR value
      else
        let new := List.replicate (next - fill) { newItem 0 255 false with len := 64, phase := .ready }
        let s1 := (s.put F.PL_WR_VALUE value p).modPail p (fun x => { x with items := x.items ++ new })
        let s2 := ((s1.crossLevel q fill next).syncPail p).refreshRoutes
        if new.isEmpty ∨ (s2.route p).isSome = true then s2 else s2.noteUnrouted p

/-- PL_RD_WRITE (R401): an initiator has consumed items of a completion or telemetry pail in place. -/
def doPlRdWrite (p value : Nat) (s : State) : State :=
  match s.pail p with
  | none => s
  | some q =>
    if q.role ≠ 1 ∧ q.role ≠ 3 then s
    else
      let n := fillOf q.depth value (s.plRd p)
      if 2 * q.depth ≤ value ∨ s.fill q < n ∨ q.popping.isSome = true then s.ptrBad p R.PL_RD value
      else (((s.put F.PL_RD_VALUE value p).modPail p (fun x => { x with items := x.items.drop n })).syncPail p).pump

/-- The wait of a pop on an empty pail in ns (R401). -/
def State.popWait (s : State) : Nat := min 100 (s.get F.PAIL_CTL_POP_WAIT) * 1000

/-- A pop that takes the first word of a telemetry item meets what ECC finds in it (R451). -/
def State.popEcc (s : State) (p : Nat) : State :=
  match s.pail p with
  | some q =>
    if q.popping.isNone = true ∧ q.items.head?.any (fun i => decide (i.phase = .ready)) = true then
      let r := s.pailRead q
      if r.1 ∧ q.role = 3 then
        (r.2.modPail p (fun x => { x with items := x.items.modify 0 (fun i => { i with phase := .void }) })).skipVoid p
      else r.2
    else s
  | none => s

/-- PL_POP (R401): the next word of the head item, or a wait for one. -/
def doPlPop (who : Initiator) (p : Nat) (s0 : State) : State :=
  let s := (s0.skipVoid p).popEcc p
  match s.pail p with
  | none => s.answer who 0xFFFFFFFF
  | some q =>
    if q.role ≠ 1 ∧ q.role ≠ 3 then s.answer who 0xFFFFFFFF
    else if q.popping.any (fun c => decide (c.who ≠ who)) then (s.raise F.PL_EVT_POP_CLASH p).answer who 0xFFFFFFFF
    else
      match s.popPeek q with
      | some (pos, v) => (s.answerPop p who pos v).pump
      | none =>
        if s.popWait = 0 then s.answer who 0xFFFFFFFF
        else s.modPail p (fun x => { x with waitPop := x.waitPop ++ [(who, s.uptime)] })

/-- POP_WAIT_EXPIRE (R401): the oldest waiting pop of the pail returns all ones. -/
def doPopWaitExpire (p : Nat) (s : State) : State :=
  match (s.pail p).map Pail.waitPop with
  | some (w :: l) => ((s.atUptime (w.2 + s.popWait)).modPail p (fun x => { x with waitPop := l })).answer w.1 0xFFFFFFFF
  | _ => s

def execPailReserve (pail : Fin 256) (producer : Nat) (s : State) : Host.Outcome State Fault Refusal :=
  .next (doPailReserve pail.val producer s)
def execProducerResume (pail : Fin 256) (s : State) : Host.Outcome State Fault Refusal := .next (doProducerResume pail.val s)
def execLengthWordWrite (pail : Fin 256) (seq : Nat) (payload : List Nat) (s : State) : Host.Outcome State Fault Refusal :=
  .next (doLengthWordWrite pail.val seq payload s)
def execHwConsumerRead (pail : Fin 16) (s : State) : Host.Outcome State Fault Refusal := .next (doHwConsumerRead pail.val s)
def execFlush (pail : Fin 256) (s : State) : Host.Outcome State Fault Refusal := .next (doFlush pail.val s)
def execPlWrWrite (pail : Fin 256) (value : Nat) (s : State) : Host.Outcome State Fault Refusal := .next (doPlWrWrite pail.val value s)
def execPlRdWrite (pail : Fin 256) (value : Nat) (s : State) : Host.Outcome State Fault Refusal := .next (doPlRdWrite pail.val value s)
def execPlPop (who : Initiator) (pail : Fin 256) (s : State) : Host.Outcome State Fault Refusal := .next (doPlPop who pail.val s)
def execPopWaitExpire (pail : Fin 256) (s : State) : Host.Outcome State Fault Refusal := .next (doPopWaitExpire pail.val s)

end Sys2Proof.Machine
end

