-- ==== Sys2Proof/Machine/RegWrite.lean ====
section
/-! DEFINITION. Storing a register write by access type and class (R7, R9, R135, R587), and what a write of a live field
brings with it at once. -/
namespace Sys2Proof.Machine
open Sys2Proof

/-- A field's bits in a word. -/
def FieldDesc.part (f : FieldDesc) (w : Nat) : Nat := (w / 2 ^ f.lo) % 2 ^ f.width

/-! ## S-class fields (R587) -/

/-- A port of R84 has no role. -/
def State.noRole (s : State) (p : Nat) : Bool := (List.range 6).all (fun r => !s.hasRole p r)

/-- The device hears its partner on a bell. -/
def State.hearsPartner (s : State) : Bool :=
  (s.red.bellA.heard.isSome && s.red.bellA.silent.isNone) || (s.red.bellB.heard.isSome && s.red.bellB.silent.isNone)

/-- PAIR_EN may take a value (R462). -/
def State.pairEnFree (s : State) (on : Bool) : Bool :=
  decide (s.power = 1) && (on || decide (s.role = 1) || !(s.hearsPartner || s.fencedIn))

/-- An S-class field of the register at an offset may take a value now: what owns it is stopped. -/
def State.fieldFree (s : State) (a value : Nat) : Bool :=
  match a / 0x10000 with
  | 3 => (s.pail ((a - 0x30400) / 4)).all (fun q => q.items.isEmpty)
  | 10 => (s.running kUniverse).isEmpty
  | 11 => !s.ddEnabled ((a - 0xB1000) / 0x40)
  | 13 =>
    let l := (a - 0xD1000) / 0x400
    s.flag F.NL_CTL_HOLD_DOWN l || ((a - 0xD1000) % 0x400 != 0 && s.noRole (linkPort l))
  | 19 => if a = R.RED_CTL.base then s.pairEnFree (decide (value ≠ 0)) else !s.paired
  | 24 => !s.flag F.CK_CTL_EN ((a - 0x180100) / 0x40)
  | _ => true

/-- The S-class fields of a register that a word would change at the wrong time. -/
def State.refusedFields (s : State) (a v : Nat) (fs : List FieldDesc) : List FieldDesc :=
  fs.filter (fun f => decide (f.access = .rw ∧ f.cls = .s) && f.part v != f.part (s.reg a).toNat && !s.fieldFree a (f.part v))

/-! ## F-class fields (R135) -/

/-- Enter the F-class fields of a write in the set that CH_REG_SET names; CH_EVT.REG_LOCKED where one cannot be entered. -/
def State.enterFields (s : State) (a v : Nat) (fs : List FieldDesc) : State :=
  let n := s.get F.CH_REG_SET_SET
  s.each fs (fun f t =>
    let set := t.setAt n
    let e := SetEntry.field a f.lo f.width (f.part v)
    if set.locked || decide (t.capOf 0x42 ≤ n) || (decide (4096 ≤ set.entries.length) && !set.entries.any (fun x => x.same e)) then
      t.raise F.CH_EVT_REG_LOCKED
    else (t.modSet n (fun x => { x with entries := enterEntry x.entries e })).syncCmd)

/-! ## The stored word -/

/-- The word a register holds after a write: L-class fields take their bits, S-class fields where they may, and a 1 clears a
W1C bit. -/
def State.wordAfter (s : State) (a v : Nat) (fs : List FieldDesc) : Nat :=
  let bad := s.refusedFields a v fs
  fs.foldl (fun w f =>
    match f.access with
    | .rw => if f.cls = .f ∨ bad.contains f = true then w else putBits w f.lo f.width (f.part v)
    | .w1c => putBits w f.lo f.width (f.part w - (f.part w &&& f.part v))
    | _ => w) (s.reg a).toNat

/-- Store a write of a register by access type and class. -/
def State.storeReg (s : State) (a v : Nat) : State :=
  match findReg a with
  | none => s
  | some d =>
    let s1 := s.setReg a (BitVec.ofNat 32 (s.wordAfter a v d.fields))
    let s2 := if (s.refusedFields a v d.fields).isEmpty then s1 else s1.rejectS a
    s2.enterFields a v (d.fields.filter (fun f => decide (f.access = .rw ∧ f.cls = .f)))

/-! ## What a write brings with it -/

/-- A write of CK_CTL (R540, R541): enabling a unit with a FOLD that R540 does not admit is refused. -/
def State.checkUnit (s : State) (u : Nat) (was : Bool) : State :=
  let fold := s.get F.CK_CTL_FOLD u
  if s.flag F.CK_CTL_EN u && !was && (decide (4 < fold) || (decide (fold = 4) && decide (s.get F.CK_CTL_POINT u = 4))) then
    (s.putFlag F.CK_CTL_EN false u).raise F.CRC_EVT_CFG_BUSY
  else s

/-- A write of TIM_CTL: the sources it enables are selected anew (R355). -/
def State.timeControl (s : State) : State :=
  let s1 := s.runBmca.refreshPtp
  if s1.get F.TIM_STAT_SRC = 2 ∧ s1.flag F.TIM_CTL_WCLK_EN = false then s1.loseSource else s1

/-- The effect of a stored write of a register without a row of its own; `old` is the state before it. -/
def State.afterWrite (s old : State) (a : Nat) : State :=
  let blk := a / 0x10000
  if a = R.SYS_PIPE_STAT.base then s.holdEscalated
  else if blk = 3 ∧ 0x30400 ≤ a then s.refreshRoutes.pump
  else if a = R.NET_HASH_IN_LO.base ∨ a = R.NET_HASH_IN_HI.base then
    s.put R.NET_HASH_CRC (macHash (s.get R.NET_HASH_IN_LO + s.get R.NET_HASH_IN_HI % 65536 * 2 ^ 32))
  else if a = R.TIM_CTL.base then s.timeControl
  else if blk = 13 ∧ 0xD1000 ≤ a ∧ (a - 0xD1000) % 0x400 = 0 then
    let l := (a - 0xD1000) / 0x400
    if s.flag F.NL_CTL_HOLD_DOWN l && !old.flag F.NL_CTL_HOLD_DOWN l then s.linkDown l 6 else s
  else if a = R.RED_CTL.base then if s.paired = old.paired then s.refreshReady else s.startPair
  else if blk = 24 ∧ 0x180100 ≤ a ∧ (a - 0x180100) % 0x40 = 0 then
    let u := (a - 0x180100) / 0x40
    s.checkUnit u (old.flag F.CK_CTL_EN u)
  else if 0x140100 ≤ a ∧ a < 0x140140 then
    s.put F.PCR_BKP_VALID_VALID (s.get F.PCR_BKP_VALID_VALID ||| 2 ^ ((a - 0x140100) / 4))
  else s

/-- AMBIENT of a write of GOV_AMBIENT lies outside −640 to 1,120. -/
def ambientBad (v : Nat) : Bool := let t := toSigned 16 (v % 65536); decide (t < -640) || decide (1120 < t)

/-- The offset is the NS_EXACT_LO of an exact entry that the device owns. -/
def State.deviceEntry (s : State) (a : Nat) : Bool :=
  let o := (a - 0xD1000) % 0x400
  decide (0xD1000 ≤ a) && decide (a < 0xD7400) && decide (0x200 ≤ o) && o % 8 == 0 &&
    s.exactOwner ((a - 0xD1000) / 0x400) ((o - 0x200) / 8) == 1

/-- A write of a register that has no row of its own (R7). A window of a pail that is not bound takes no write (R410), and
CMP_DITHER takes no MODE 3, GOV_AMBIENT no value out of range, and the NS_EXACT_LO of an entry that the device owns nothing (R377). -/
def State.plainWrite (s : State) (a v : Nat) : State :=
  let blk := a / 0x10000
  if blk = 15 ∧ 0xF1000 ≤ a ∧ (s.pail ((a - 0xF1000) / 0x40)).isNone = true then s
  else if a = R.CMP_DITHER.base ∧ bits v 1 0 = 3 then s
  else if a = R.GOV_AMBIENT.base ∧ ambientBad v = true then s
  else if s.deviceEntry a = true then s
  else if a = R.TIM_PTP_CFG.base then s.ptpConfig v
  else if blk = 23 ∧ 0x178000 ≤ a then s.writeCode ((a - 0x178000) / 4) v
  else (s.storeReg a v).afterWrite s a

end Sys2Proof.Machine
end

