-- ==== Sys2Proof/Machine/Pairs.lean ====
section
/-! DEFINITION. Redundant pairs (R460 to R491): heartbeats, failure and the fence, mirroring, takeover and planned switches,
output signatures, health and resynchronisation. -/
namespace Sys2Proof.Machine
open Sys2Proof

/-- The pair is at work: pair use is on and the device is not Dormant. -/
def State.pairOn (s : State) : Bool := s.paired && s.power != 0

/-- A bell is heard: it has delivered a heartbeat and is not silent. -/
def Bell.isHeard (b : Bell) : Bool := b.heard.isSome && b.silent.isNone

/-- The first time is at or after the second, in 32-bit sequence order. -/
def seqAtLeast (a b : Nat) : Bool := decide ((a + 2 ^ 32 - b) % 2 ^ 32 < 2 ^ 31)

/-- The two roles of a formed pair: Active and Standby. -/
def State.formed (s : State) : Bool :=
  (s.redRole == 1 && s.red.partner.any (fun h => h.role == 2)) || (s.redRole == 2 && s.red.partner.any (fun h => h.role == 1))

/-- RED_CMD_STAT of an operation. -/
def State.redResult (s : State) (st : Nat) : State := (s.put F.RED_CMD_STAT_RESULT st).advance F.RED_CMD_STAT_SEQ

/-- The partner's serial number, 0 while Bell B has not told it. -/
def State.partnerId (s : State) : Nat := s.get64 R.RED_PARTNER_ID_LO

/-! ## Becoming a role (R462 to R464) -/

/-- A resynchronisation begins (R487): cause 0 joining, 1 a gap, 2 a record that cannot be applied, 3 TCRC, 4 RED_CMD. -/
def State.startResync (s : State) (cause : Nat) : State :=
  let s1 := (s.modRed (fun r => { r with resync := some { snap := none, lastAt := s.uptime, kept := [], bytes := 0 } })).put
    F.RED_RESYNC_PROGRESS 0
  ((s1.sendBellB 7 (beBytes 4 cause)).tally 0x110A [cause, s.sys.nextS]).refreshReady

/-- A Standby takes EPOCH and SEQ from its Active (R464). -/
def State.takeEpoch (s : State) (epoch seq : Nat) : State :=
  let s1 := (s.put R.DVL_EPOCH epoch).put R.DVL_SEQ seq
  { s1 with dvl := { s1.dvl with seqs := ((seq, s1.sys.nextS - 1) :: s1.dvl.seqs).take 256 } }

/-- A seeking device becomes Standby and resynchronises (R462, R487). -/
def State.becomeStandby (s : State) (hb : Heartbeat) : State :=
  ((s.takeRole 2 2).takeEpoch hb.epoch hb.seq).startResync 0

/-- Outputs that a new Active drives (R478, R479, R334): the ring ports leave bypass, PTP follows its role, and enabled
direct-drive ports show from the first S(k) at least 5 ms later. -/
def State.startOutputs (s : State) : State :=
  let s1 := (s.unmute.refreshPtp).refreshDvl
  (s1.each (List.range 32) (fun p t => if t.ddEnabled p = true ∧ t.ddState p ≠ 6 then t.ddBegin p else t)).refreshReady

/-- A device becomes Active other than by takeover (R462, R464). -/
def State.becomeActive (s : State) : State := (((s.takeRole 1 1).freshEpoch).modRed (fun r => { r with blocked := false })).startOutputs

/-- The outputs stop and the device is a fenced Standby (R469). A command that waits for its acknowledgement is refused. -/
def State.fence (s : State) (role : Nat) : State :=
  let s1 := s.modRed (fun r => { r with bypass := true, sacnStop := true, queue := [], follows := false, failedAt := none, next := r.mseq })
  let s2 := ((s1.takeRole 2 role).ddHighImpedance).refreshPtp
  match s2.cmd.awaiting with
  | some (id, _, d) => (({ s2 with cmd := { s2.cmd with awaiting := none } } : State).actOn false true id d).pump
  | none => s2

/-! ## Failure and takeover (R468, R471, R478, R479) -/

/-- A Standby declares failure: cause 0 silence, 1 FAULT. FENCE_OUT is asserted. -/
def State.declareFailure (s : State) (cause : Nat) : State :=
  if s.red.failedAt.isSome then s
  else
    let last := max (s.red.bellA.heard.getD 0) (s.red.bellB.heard.getD 0)
    let s1 := ((s.raise F.RED_EVT_FAILED).tally 0x1101 [cause, s.red.bellA.no, s.red.bellB.no]).putFlag F.RED_STAT_FENCE_OUT true
    s1.modRed (fun r => { r with failedAt := some (s.uptime, last), blocked := false })

/-- Frames of the universes whose synchronisation is still to come are sent again (R314). -/
def State.resendSacn (s : State) : State :=
  s.each (s.running kUniverse) (fun u t =>
    let k := t.univOf u.handle
    match k.done with
    | some n =>
      if t.now < t.pAt n (zoneOffset t.cmd.chans u.univZone) ∧ 0 < n then t.setUniv { k with next := (k.next + 255) % 256, done := some (n - 1) }
      else t
    | none => t)

/-- What the old Active may not have sent of the frame of SEQ is sent again: REPEAT, WINDOW and DARK notices (R479). -/
def State.resendNotices (s : State) : State :=
  match (s.frameOfSeq s.seqNow).bind s.frameWork with
  | none => s
  | some w =>
    let s1 := s.each ((w.running kEndpoint).filter (fun c => (w.sumsOf c.index).repeated)) (fun c t =>
      match t.boundTo w.chans c with
      | some (r, _) => t.sendControl r c.epPosition t.seqNow opRepeat (t.pAt w.frame (zoneOffset w.chans c.epZone)) []
      | none => t)
    let s2 := s1.sendWindows w.frame
    match s2.frameWork (w.frame - 1) with
    | some o => s2.darkStopped o.chans w.frame
    | none => s2

/-- Bands that the heartbeats have reported as sent (R465): of the frame of SEQ. -/
def sentCount (band : Nat) : Nat := if band = 0xFFFF then 0 else band + 1

/-- A resynchronisation's snapshot takes the place of the Standby's own state (R487). -/
def State.applySnapshot (s : State) (p : Snapshot) : State :=
  let j := s.sys.nextS
  let old := s.cmd.chans
  let cmd : Cmd := { s.cmd with
    chans := p.chans, gens := p.gens, freed := p.freed, used := p.used, sets := p.sets, cues := p.cues, deferred := p.deferred,
    flight := p.flight, nextId := p.nextId, latches := p.latches + (j - p.frame), fenced := [], awaiting := none }
  let s1 : State := { s with
    cmd := cmd, gov := { s.gov with eps := p.govEps, feeds := p.govFeeds, last := some (p.frame - 1) }, fix := { s.fix with univ := p.univs, syncs := p.syncs } }
  let s2 := s1.each p.gains (fun g t =>
    ((t.each g.gains.zipIdx (fun q u => u.setMemberGain g.kind g.index q.2 q.1)).putFlag (fFailed g.kind) g.failed g.index))
  let s3 := s2.each old (fun c t => match t.chanAt c.kind c.index with
    | some d => t.runChanged c d j
    | none => if c.kind = kStream ∧ c.st = .running then t.stopStream c else t)
  let s4 := s3.each (p.chans.filter (fun c => c.kind == kStream && decide (c.st = .running) &&
    !old.any (fun d => d.kind == c.kind && d.index == c.index && decide (d.st = .running)))) (fun c t => t.startStream c)
  ((((s4.takeEpoch p.epoch ((p.seq + (j - p.frame)) % 2 ^ 32)).refreshAll).syncCmd).noteInput).modRed (fun r => { r with
    next := (p.mseq + 1) % 2 ^ 32, noFollow := false })

/-! ## Following the Active (R472 to R475) -/

/-- A check of a change that an Active has made, which a Standby lets pass where its own role alone stands against it. -/
def State.asActive (s : State) : State := s.put F.SYS_MODE_STAT_ROLE 1

/-- Act as the Active has acted. -/
def State.followWith (s : State) (f : State → State) : State := (f s.asActive).put F.SYS_MODE_STAT_ROLE 2

/-- A load that the Active has accepted: applied where its checks pass here too. -/
def State.followLoad (s : State) (ok : Bool) (f : State → State) : Bool × State := if ok then (true, s.followWith f) else (false, s)

/-- A frame in work is composed and sent, or held, as the Active has it: SEQ follows (R49, R276). -/
def State.setActive (s : State) (k : Nat) (on : Bool) : State :=
  match s.frameWork k with
  | none => s
  | some w =>
    if w.active = on then s
    else
      let s1 := s.modFrame k (fun x => { x with active := on })
      if on then (s1.advanceSeq k).each (List.range 16) (fun i t => t.wbStart k i)
      else
        let s2 := s1.put R.DVL_SEQ ((s1.seqNow + 2 ^ 32 - 1) % 2 ^ 32)
        { s2 with dvl := { s2.dvl with seqs := s2.dvl.seqs.filter (fun q => q.2 != k) } }

/-- A Standby follows a change between Show and Hold that its Active has made of itself at S(k), also where its own S(k) has
passed (R49). -/
def State.followPower (s : State) (k power cause : Nat) : State :=
  if (s.power = 2 ∨ s.power = 3) ∧ (power = 2 ∨ power = 3) ∧ s.power ≠ power then
    let t := s.applyPower power k cause
    t.each (t.frames.filter (fun w => decide (k ≤ w.frame))) (fun w u => u.setActive w.frame (decide (power = 3)))
  else s

/-- A Standby applies the Active's mode request at the frame that its record names (R49, R60). A Dormant request is the Active's
own: the Standby takes the planned switch and stays on. -/
def State.followMode (s : State) (frame v : Nat) : State :=
  let r := firstFail (s.modeChecks true v)
  if reqPower v = 0 then s
  else if r.2 = stOK then acceptMode frame v (s.modRed (fun r => { r with noFollow := false }))
  else (((s.modRed (fun r => { r with noFollow := true })).raise F.SYS_MODE_EVT_STBY_NOFOLLOW).tally 0x0025 [v, r.2]).refreshReady

/-- The Active's marks of a frame arrive (R475). -/
def State.followMarks (s : State) (n : Nat) (marks : List (Nat × Nat × Nat)) : State :=
  let s1 := s.modRed (fun r => { r with marks := (n, marks) :: r.marks.take 7 })
  if s1.red.waitMarks = some n then (s1.modRed (fun r => { r with waitMarks := none })).decideFrame n marks else s1

/-- A Standby applies a mirror record; false where it cannot. -/
def State.applyMirrored (s : State) (mseq frame band : Nat) (what : Mirrored) : Bool × State :=
  match what with
  | .command pail d result => s.applyMirroredCommand pail mseq frame band d result
  | .register a v => (true, ((s.followLate frame band).keepLate frame (if band = 0xFFFF then 0 else band) none (some a)).plainWrite a v)
  | .mode v => (true, s.followMode frame v)
  | .power k p c => (true, s.followPower k p c)
  | .job v => s.followLoad (decide ((firstFail s.asActive.jobChecks).2 = stOK)) (doJobSubmit v)
  | .coefLoad v => s.followLoad (s.asActive.coefAccepted v) (doCoefLoad v)
  | .curveLoad v => s.followLoad (s.asActive.curveAccepted v) (doCurveLoad v)
  | .gainLoad v => s.followLoad (s.asActive.gainAccepted v) (doGainLoad v)
  | .modelLoad v => s.followLoad (s.asActive.modelAccepted v) (doModelLoad v)
  | .calCmd v => s.followLoad s.asActive.calCmdAccepted (if bits v 2 0 = 1 then doClearFailedMarks else doVoidOpenWindows)
  | .correction zone n es => (true, s.stageEntries zone 0 n es)
  | .temperature e c => (true, let g := s.govEp e; s.setGovEp { g with correction := g.correction + c })
  | .fit e sg dl => (true, s.setGovEp { s.govEp e with fitNext := some (sg, dl) })
  | .beta f b => (true, (s.setGovFeed { s.govFeed f with beta := b }).put F.F_BETA_BETA (roundHalfUp (b * 16384)).toNat f)
  | .step _ theta => (true, let t := s.followWith (fun t => t.beginStep theta); { t with tim := { t.tim with diverged := false } })
  | .marks n l => (true, s.followMarks n l)

/-- An Active acts on an acknowledged record. -/
def State.runMirrored (s : State) (r : MirrorRec) : State :=
  if r.acts = false then s
  else
    match r.what with
    | .command _ _ _ => s.acceptAwaiting r.mseq
    | .register a v => (s.keepLate s.lateFrom.1 s.lateFrom.2 none (some a)).plainWrite a v
    | .mode v => acceptMode r.frame v s
    | .job v => doJobSubmit v s
    | .coefLoad v => doCoefLoad v s
    | .curveLoad v => doCurveLoad v s
    | .gainLoad v => doGainLoad v s
    | .modelLoad v => doModelLoad v s
    | .calCmd v => if bits v 2 0 = 1 then doClearFailedMarks s else doVoidOpenWindows s
    | .step _ theta => s.beginStep theta
    | _ => s

/-- The Active acts on every record that still waits. -/
def State.runQueue (s : State) : State :=
  (s.modRed (fun r => { r with queue := [] })).each s.red.queue (fun r t => t.runMirrored r)

/-- Apply a record at its turn, acknowledge it, or ask for a resynchronisation (R474). -/
def State.takeMirrored (s : State) (k : KeptRec) : State :=
  let crc := s.tableCrc k.what
  if (s.loadTable k.what).isSome ∧ crc ≠ k.tcrc then (s.tally 0x110E [k.mseq, k.tcrc, crc]).startResync 3
  else
    let q := s.applyMirrored k.mseq k.frame k.band k.what
    if q.1 then
      ((q.2.modRed (fun r => { r with next := (k.mseq + 1) % 2 ^ 32 })).put R.RED_MSEQ k.mseq).sendBellB 3 (beBytes 4 k.mseq)
    else (q.2.tally 0x110D [k.mseq, 0]).startResync 2

/-- Kept records follow the snapshot in their order; those it holds already are passed over. -/
def State.applyKept (s : State) (l : List KeptRec) : State :=
  s.each l (fun k t => if t.red.resync.isNone && k.mseq == t.red.next then t.takeMirrored k else t)

/-- MIRROR_RECEIVE (R474). -/
def doMirrorReceive (mseq frame band tcrc : Nat) (what : Mirrored) (s : State) : State :=
  if !s.pairOn || s.redRole != 2 then s
  else
    let k : KeptRec := { mseq := mseq, frame := frame, band := band, tcrc := tcrc, at_ := s.uptime, what := what }
    match s.red.resync with
    | some r =>
      if r.kept.any (fun x => x.mseq == mseq) then s
      else s.modRed (fun q => { q with resync := some { r with kept := r.kept ++ [k] } })
    | none =>
      if mseq = s.red.next then (s.takeMirrored k).refreshReady
      else if seqAtLeast mseq s.red.next then
        let t := (s.tally 0x110D [mseq, 0]).startResync 1
        t.modRed (fun q => { q with resync := q.resync.map (fun r => { r with kept := [k] }) })
      else s.sendBellB 3 (beBytes 4 ((s.red.next + 2 ^ 32 - 1) % 2 ^ 32))

/-- ACK_RECEIVE (R474): the records up to MSEQ are acknowledged, and the Active acts on them. -/
def doAckReceive (mseq : Nat) (s : State) : State :=
  if !s.pairOn || s.redRole != 1 then s
  else
    let done := s.red.queue.filter (fun r => seqAtLeast mseq r.mseq)
    (s.modRed (fun r => { r with queue := r.queue.filter (fun x => !seqAtLeast mseq x.mseq) })).each done (fun r t => t.runMirrored r)

/-- MIRROR_RESEND (R474): 20 µs after it was sent. -/
def doMirrorResend (mseq : Nat) (s : State) : State :=
  match (if s.pairOn && s.redRole == 1 then s.red.queue.find? (fun r => r.mseq == mseq) else none) with
  | some r => (s.atUptime (r.sentAt + 20000)).emit (.mirror r.mseq r.frame r.band r.tcrc r.what)
  | none => s

/-- MIRROR_LAG (R474): 50 µs without acknowledgement. The Active acts alone until the Standby has resynchronised. -/
def doMirrorLag (s : State) : State :=
  match (if s.pairOn && s.redRole == 1 then s.red.queue.head? else none) with
  | some r =>
    let s1 := (s.atUptime (r.sentAt + 50000)).tally 0x110D [r.mseq, 50]
    (s1.modRed (fun x => { x with follows := false, lag := true })).runQueue
  | none => s

/-- MARK_WAIT_EXPIRE (R475): 20 µs after its S(n) a Standby goes on without the Active's marks. -/
def doMarkWaitExpire (s : State) : State :=
  match s.red.waitMarks with
  | none => s
  | some n =>
    let marks := (s.cmd.chans.filter (fun c => c.kind == kStream)).map (fun c => (c.index, 2, 0))
    let s1 := s.modRed (fun r => { r with waitMarks := none, voids := n :: r.voids.take 15 })
    (s1.atTime (s1.sAt n + 20000 * 65536)).decideFrame n marks

/-! ## Takeover (R478 to R480, R483) -/

/-- The Standby becomes Active: EPOCH advances, SEQ is the later of its own and the last reported, and TIME frames of the new epoch
leave every running ring port. `detect` is the time of detection in ns. -/
def State.becomeSender (s : State) (detect : Nat) : State :=
  let wasResync := s.red.resync
  let notReady := s.get R.RED_NOT_READY
  let s0 := match wasResync with
    | some r =>
      let t := s.modRed (fun q => { q with resync := none })
      match r.snap with
      | some p => (t.applySnapshot p).applyKept r.kept
      | none => t
    | none => s
  let old := s0.get R.DVL_EPOCH
  let reported := s0.red.heardSeq
  let s1 := if seqAtLeast reported s0.seqNow && reported != s0.seqNow then s0.takeEpoch old reported else s0
  let s2 := s1.advanceEpoch ((old + 1) % 2 ^ 32)
  let sent := match s2.frameOfSeq reported with
    | some n => (n, sentCount s2.red.heardBand)
    | none => (0, 0)
  let s3 := s2.modRed (fun r => { r with
    failedAt := none, mseq := r.next, queue := [], follows := false, lag := false, purged := sent, late := [],
    blocked := false, switching := none })
  let gap := s3.free 32
  let rep := if s.power = 3 then (0, gap.2) else gap.2.free 32
  let s4 := (((rep.2.takeRole 1 1).bump R.RED_TAKEOVER_CNT).put R.RED_DETECT detect).put R.RED_LAST_GAP gap.1
  let s5 := (s4.raise F.RED_EVT_TAKEOVER).tally 0x1102 [old, (old + 1) % 2 ^ 32, s4.seqNow, s3.red.heardBand, detect, gap.1, notReady, rep.1]
  let s6 := s5.startOutputs
  let s7 := s6.each (s6.running kRing) (fun c t => t.sendTime c false)
  s7.resendNotices.resendSacn

/-- TAKEOVER (R478): 3.0 µs after failure was declared. -/
def doTakeover (s : State) : State :=
  match s.red.failedAt with
  | some (td, tf) => (s.atUptime (td + 3000)).becomeSender (td - tf)
  | none => s

/-! ## Heartbeats (R462 to R468) -/

/-- A heartbeat on a bell: the bell is heard, and its path alarm clears after 1 ms. -/
def State.ringHeard (s : State) (bellB : Bool) (hb : Heartbeat) : State :=
  let b := s.bell bellB
  let back := if b.silent.isSome || b.heard.isNone then some s.uptime else b.back
  let s1 := s.modBell bellB (fun x => { x with heard := some s.uptime, no := hb.no, silent := none, back := back })
  let s2 := s1.putFlag (if bellB then F.RED_STAT_BELL_B_OK else F.RED_STAT_BELL_A_OK) true
  match b.alarm, back with
  | some since, some from_ =>
    if from_ + 1000000 ≤ s.uptime then
      (s2.modBell bellB (fun x => { x with alarm := none })).tally 0x1104 [if bellB then 1 else 0, (from_ - since) / 1000000]
    else s2
  | _, _ => s2

/-- The offset of a Bell B heartbeat and RED_OFFSET (R467). -/
def State.bellOffset (s : State) (hb : Heartbeat) : State :=
  let t4 : Int := s.nowNs
  let s1 := s.modRed (fun r => { r with origin := some (hb.origin, s.nowNs) })
  if hb.echo = 0 then s1
  else
    let d := ((t4 - hb.echo) - hb.dwell) / 2
    let l := (((hb.origin : Int) + d - t4) :: s1.red.offsets).take 64
    (s1.modRed (fun r => { r with offsets := l })).put R.RED_OFFSET (ofSigned 32 (meanInt l))

/-- What a heartbeat says of the partner, and the fence pulse it confirms (R470). -/
def State.notePartner (s : State) (bellB : Bool) (hb : Heartbeat) (info : Option PartnerInfo) : State :=
  let s1 := (s.put F.RED_STAT_PARTNER_ROLE hb.role).putFlag F.RED_STAT_PARTNER_READY hb.ready
  let s2 := if bellB then (s1.put64 R.RED_PARTNER_ID_LO hb.node).bellOffset hb else s1
  let seen := s2.red.pulseAt.isSome && hb.ftog != s2.red.pulseSeen
  let dormant := match info with
    | some i => i.power == 0
    | none => s2.red.partnerDormant && s2.red.partner.isSome
  s2.modRed (fun r => { r with
    partner := some hb, info := (match info with | some i => some i | none => r.info), heardSeq := hb.seq, heardBand := hb.band,
    epochHeard := hb.epoch, seekFrom := s.uptime, partnerDormant := dormant,
    pulseAt := if seen then none else r.pulseAt, unseen := if seen then 0 else r.unseen, fenceAlarm := if seen then false else r.fenceAlarm })

/-- A seeking device wins over a seeking partner (R462). -/
def State.winsSeek (s : State) (hb : Heartbeat) : Bool :=
  let prim := s.flag F.RED_CTL_PRIMARY
  !s.fencedIn && (if prim != hb.primary then prim else s.partnerId != 0 && decide (s.clockId < s.partnerId))

/-- An Active that hears another yields (R463). -/
def State.yields (s : State) (hb : Heartbeat) : Bool :=
  let own := s.get R.DVL_EPOCH
  let prim := s.flag F.RED_CTL_PRIMARY
  decide (own < hb.epoch) || (hb.epoch == own &&
    (if prim != hb.primary then !prim else decide (s.partnerId < s.clockId) && s.partnerId != 0))

/-- A heartbeat on an Active: it yields, follows the Standby's readiness, and releases FENCE_OUT after 1 ms of a Standby with its
epoch (R463, R480). -/
def State.activeHears (s : State) (hb : Heartbeat) : State :=
  if hb.role = 1 ∧ s.yields hb = true then
    (((s.fence 3).raise F.RED_EVT_YIELDED).tally 0x1108 [hb.epoch, s.get R.DVL_EPOCH]).refreshReady
  else
    let good := decide (hb.role = 2) && hb.epoch == s.get R.DVL_EPOCH
    let from_ := if good then some (s.red.goodFrom.getD s.uptime) else none
    let s1 := s.modRed (fun r => { r with goodFrom := from_, follows := decide (hb.role = 2) && hb.ready && !r.lag && !r.partnerDormant })
    if from_.any (fun t => decide (t + 1000000 ≤ s.uptime)) then s1.putFlag F.RED_STAT_FENCE_OUT false else s1

/-- A heartbeat on a Standby: it keeps to the Active's epoch, declares failure at FAULT, and takes over at HANDOVER (R464, R468,
R482). -/
def State.standbyHears (s : State) (hb : Heartbeat) : State :=
  let s1 := if hb.role = 1 ∧ hb.epoch ≠ s.get R.DVL_EPOCH then s.takeEpoch hb.epoch hb.seq else s
  if s1.flag F.RED_CTL_TAKEOVER_EN = false then s1
  else if hb.fault then s1.declareFailure 1
  else if hb.handover && s1.red.failedAt.isNone then (s1.putFlag F.RED_STAT_FENCE_OUT true).becomeSender 0
  else s1

/-- HEARTBEAT_RECEIVE (R462 to R468). -/
def doHeartbeatReceive (bellB : Bool) (hb : Heartbeat) (info : Option PartnerInfo) (s : State) : State :=
  if !s.pairOn then s
  else
    let was := s.formed
    let s1 := ((s.ringHeard bellB hb).notePartner bellB hb info)
    let s2 := match s1.redRole with
      | 0 => if hb.role = 1 then s1.becomeStandby hb else if hb.role = 0 ∧ s1.winsSeek hb = true then s1.becomeActive else s1
      | 1 => s1.activeHears hb
      | 2 => s1.standbyHears hb
      | _ => s1
    let s3 := if s2.formed && !was then s2.tally 0x1100 [s2.redRole, s2.partnerId, s2.get R.DVL_EPOCH] else s2
    s3.refreshReady

/-- One bell alone is silent (R468). -/
def State.pathAlarm (s : State) (bellB : Bool) : State :=
  if s.red.partnerDormant then s
  else
    let s1 := (s.modBell bellB (fun x => { x with alarm := some s.uptime })).raise (if bellB then F.RED_EVT_PATH_B else F.RED_EVT_PATH_A)
    (s1.bump R.RED_PATH_ALARM_CNT).tally 0x1103 [if bellB then 1 else 0]

/-- Both bells are silent (R468, R471). -/
def State.bothSilent (s : State) : State :=
  let last := if s.red.bellB.heard.getD 0 ≤ s.red.bellA.heard.getD 0 then s.red.bellA.no else s.red.bellB.no
  let dormant := s.red.partnerDormant
  let s1 := s.modRed (fun r => { r with partner := none, follows := false, goodFrom := none })
  if s.redRole = 1 then
    if dormant then s1.modRed (fun r => { r with partnerDormant := true }) else (s1.raise F.RED_EVT_PARTNER_LOST).tally 0x110F [last]
  else if s.redRole = 2 ∧ s.flag F.RED_CTL_TAKEOVER_EN = true then
    if s.red.fenceAlarm && !s.flag F.RED_CTL_FENCELESS then
      ((s1.modRed (fun r => { r with blocked := true })).raise F.RED_EVT_TAKEOVER_BLOCKED).tally 0x110C [3]
    else s1.declareFailure 0
  else s1

/-- BELL_SILENT (R468): 8 µs without a heartbeat on a bell. -/
def doBellSilent (bellB : Bool) (s : State) : State :=
  let b := s.bell bellB
  if !s.pairOn || b.silent.isSome then s
  else
    let s0 := match b.heard with
      | some t => s.atUptime (t + 8000)
      | none => s
    let s1 := (s0.modBell bellB (fun x => { x with silent := some s0.uptime, back := none })).putFlag
      (if bellB then F.RED_STAT_BELL_B_OK else F.RED_STAT_BELL_A_OK) false
    (if (s1.bell (!bellB)).isHeard then s1.pathAlarm bellB else s1.bothSilent).refreshReady

/-- SEEK_TIMEOUT (R462): 1 s without a heartbeat. -/
def doSeekTimeout (s : State) : State :=
  if s.pairOn && s.seeking && s.flag F.RED_CTL_PRIMARY && !s.fencedIn then (s.atUptime (s.red.seekFrom + oneSecond)).becomeActive else s

/-- BELL_A_HEARTBEAT (R465) and BELL_B_HEARTBEAT (R467). -/
def doBellAHeartbeat (s : State) : State := if s.pairOn then s.sendBellA false else s
def doBellBHeartbeat (s : State) : State := if s.pairOn then s.sendHeartbeatB false else s

/-! ## The fence (R469, R470, R480) -/

/-- A planned switch succeeds: the old Active is fenced (R482, R49). -/
def State.switched (s : State) : State :=
  match s.red.switching with
  | none => s
  | some w =>
    let gap := s.free 32
    let s1 := (if w.dormant then gap.2 else gap.2.redResult stOK).modRed (fun r => { r with switching := none })
    let s2 := (s1.raise F.RED_EVT_SWITCHED).tally 0x1109 [stOK, w.frame, gap.1]
    if w.dormant then
      (s2.tally 0x0026 [w.frame, gap.1]).modSys (fun y => { y with trans := y.trans.map (fun m => { m with handover := false }) })
    else s2

/-- FENCE_IN_QUALIFIED (R462, R469, R498): FENCE_IN has been high for 0.4 µs. A seeking device becomes Standby; any other takes
ROLE 3. -/
def doFenceInQualified (s : State) : State :=
  if s.power = 0 ∨ s.fencedIn = true then s
  else
    let role := if s.seeking then 2 else 3
    let s1 := (s.putFlag F.RED_STAT_FENCE_IN true).takeReset 13 reachOutput 0
    (if s1.red.switching.any (fun w => w.sentAt.isSome) then (s1.fence role).switched else s1.fence role).refreshReady

/-- FENCE_IN_RELEASED (R469, R498): the OUTPUT reach ends. A fenced device of a pair is Standby; one alone starts as Solo. -/
def doFenceInReleased (s : State) : State :=
  if s.fencedIn = false then s
  else
    let s1 := s.putFlag F.RED_STAT_FENCE_IN false
    let s2 := s1.each (List.range 32) (fun p t =>
      if t.ddState p = 7 ∧ bitAt (t.get F.PCR_SUPPLY_BANK_HELD) (p / 8) = false then t.ddEnter p (if t.ddEnabled p then 1 else 0) else t)
    if s2.paired then (if s2.redRole = 3 then s2.takeRole 2 2 else s2).refreshReady
    else
      let s3 := s2.startPair
      (s3.each (List.range 32) (fun p t => if t.ddEnabled p then t.ddBegin p else t)).refreshAll

/-- A pulse that no heartbeat has confirmed is counted. -/
def State.judgePulse (s : State) : State :=
  if s.red.pulseAt.isSome then s.modRed (fun r => { r with pulseAt := none, unseen := r.unseen + 1 }) else s

/-- FENCE_PULSE (R470): detector 0x20 withholds the pulse. -/
def doFencePulse (s : State) : State :=
  if !s.pairOn || s.flag F.RED_STAT_FENCE_OUT then s
  else
    let q := s.judgePulse.opportunity 0x20 0 0
    let s1 := if q.1 then q.2 else q.2.emit (.fencePulse 100)
    s1.modRed (fun r => { r with pulseAt := some s.uptime, pulseSeen := r.partner.any Heartbeat.ftog })

/-- FENCE_IN_PULSE (R470): FTOG of this device's heartbeats toggles. -/
def doFenceInPulse (s : State) : State := if s.pairOn then s.modRed (fun r => { r with ftog := !r.ftog }) else s

/-- FENCE_ALARM (R470): 100 ms after a pulse; the third in a row that is not seen raises the alarm. -/
def doFenceAlarm (s : State) : State :=
  match (if s.pairOn then s.red.pulseAt else none) with
  | none => s
  | some t =>
    let s1 := (s.atUptime (t + 100000000)).judgePulse
    if 3 ≤ s1.red.unseen ∧ s1.red.fenceAlarm = false then
      (((s1.modRed (fun r => { r with fenceAlarm := true })).raise F.RED_EVT_FENCE_ALARM).tally 0x1105 [s1.red.unseen]).refreshReady
    else s1

/-! ## RED_CMD (R462, R480, R482, R487) -/

/-- The smallest n with E(n) at or after now. -/
def State.nextE (s : State) : Nat :=
  let n := frameOf s.rate (s.now + s.adv + 600000 * 65536) + 1
  if s.now ≤ s.eAt n then n else n + 1

/-- HANDOVER is sent and the ring ports enter bypass (R482). -/
def State.handOver (s : State) (w : Switching) (n : Nat) : State :=
  let s1 := (s.ringBells true).modRed (fun r => { r with bypass := true })
  s1.modRed (fun r => { r with switching := some { w with sentAt := some s1.uptime, frame := n } })

/-- A planned switch begins: at the next E(n) in Show, else at once. -/
def State.beginSwitch (s : State) (dormant force : Bool) : State :=
  let w : Switching := { dormant := dormant, force := force, sentAt := none, frame := s.frameNum }
  if s.power = 3 then s.modRed (fun r => { r with switching := some w }) else s.handOver w s.frameNum

/-- The Standby may take over (R482): READY, or with FORCE not READY for IMAGE, FW and SIGNATURE alone. -/
def State.switchAllowed (s : State) (force : Bool) : Bool :=
  decide (s.redRole = 1) && s.red.partner.any (fun h => h.role == 2 && (h.ready || (force &&
    (s.get R.RED_HEALTH 5 &&& (2047 ^^^ (16 + 32 + 512))) == 0)))

/-- Keep the fields of a write of RED_CMD. -/
def State.redCommand (s : State) (value : Nat) : State := (s.put F.RED_CMD_OP value).put F.RED_CMD_FORCE (value / 8)

/-- SWITCH (R482). -/
def doSwitch (value : Word) (s : State) : State :=
  let s1 := s.redCommand value.toNat
  if s1.red.switching.isSome then s1.redResult stBusy
  else if s1.pairOn && s1.switchAllowed (bitAt value.toNat 3) then s1.beginSwitch false (bitAt value.toNat 3)
  else s1.redResult stWrongMode

/-- DORMANT_HANDOVER (R49): the switch of a Dormant request. -/
def doDormantHandover (s : State) : State :=
  if s.sys.trans.any (fun m => m.handover) ∧ s.red.switching.isNone = true ∧ s.switchAllowed false = true then s.beginSwitch true false else s

/-- SWITCH_HANDOVER (R482): E(n) has come. -/
def doSwitchHandover (s : State) : State :=
  match s.red.switching with
  | some w => if w.sentAt.isSome then s else let n := s.nextE; (s.atTime (s.eAt n)).handOver w n
  | none => s

/-- SWITCH_TIMEOUT (R482): 50 µs after HANDOVER. A Dormant request then ends as one without a READY Standby does (R49). -/
def doSwitchTimeout (s : State) : State :=
  match s.red.switching with
  | none => s
  | some w =>
    match w.sentAt with
    | none => s
    | some t =>
      let s0 := s.atUptime (t + 50000)
      let gap := s0.free 32
      let s1 := ((gap.2.advanceEpoch ((s0.get R.DVL_EPOCH + 1) % 2 ^ 32)).unmute).modRed (fun r => { r with switching := none })
      let s2 := if w.dormant then
          let u := (s1.modeResult stWrongMode).putFlag F.SYS_MODE_STAT_TRANS false
          (u.modSys (fun y => { y with trans := none, holdNext := decide (s.power = 3) })).raise F.SYS_MODE_EVT_REQ_DONE
        else s1.redResult stTimeout
      s2.tally 0x1109 [stTimeout, w.frame, gap.1]

/-- FORCE_ACTIVE (R462, R471): a seeking or blocked device, with FENCE_IN not qualified and no Active heard. -/
def doForceActive (s : State) : State :=
  let hears := (s.red.bellA.isHeard || s.red.bellB.isHeard) && s.red.partner.any (fun h => h.role == 1)
  if !s.pairOn || s.fencedIn || hears then s.redResult stWrongMode
  else if s.seeking then (s.becomeActive).redResult stOK
  else if s.red.blocked then (s.declareFailure 0).redResult stOK
  else s.redResult stWrongMode

/-- UNFENCE (R480). -/
def doUnfence (s : State) : State := (s.putFlag F.RED_STAT_FENCE_OUT false).redResult stOK

/-- RESYNC (R487): of a Standby. -/
def doResync (s : State) : State :=
  if s.pairOn && s.redRole == 2 then (s.redResult stOK).startResync 4 else s.redResult stWrongMode

/-- RESYNC_REQ_RECEIVE (R487): the Active freezes a snapshot at the next S(k). -/
def doResyncReqReceive (reason : Nat) (s : State) : State :=
  if !s.pairOn || s.redRole != 1 then s
  else
    let k := s.sys.nextS
    ((s.modRed (fun r => { r with sends := some k, follows := false })).put F.RED_RESYNC_PROGRESS 0).tally 0x110A [reason, k]

/-- SNAPSHOT_RECEIVE (R487): a part arrives; or S(j), at least 5 ms after the last one, and the snapshot and then the kept records
are applied. -/
def doSnapshotReceive (part : Option (Snapshot × Nat)) (s : State) : State :=
  match (if s.pairOn && s.redRole == 2 then s.red.resync else none), part with
  | none, _ => s
  | some r, some (p, n) => s.modRed (fun q => { q with resync := some { r with snap := some p, lastAt := s.uptime, bytes := r.bytes + n } })
  | some r, none =>
    match r.snap with
    | none => s
    | some p =>
      let s0 := s.atUptime (r.lastAt + 5000000)
      let j := max s0.sys.nextS (s0.firstSFrom s0.now)
      let s1 := (s0.atTime (s0.sAt j)).modRed (fun q => { q with resync := none })
      let s2 := (s1.applySnapshot p).applyKept r.kept
      let s3 := (s2.put F.RED_RESYNC_PROGRESS 65535).raise F.RED_EVT_RESYNC_DONE
      (s3.tally 0x110B [j, r.bytes]).refreshReady

/-! ## Signatures, health and loopback (R484 to R486) -/

/-- The first INDEX whose signatures differ. -/
def firstDiff : List (Nat × Nat) → List Nat → Option Nat
  | [], _ => none
  | q :: _, [] => some q.1
  | q :: l, x :: m => if q.2 = x then firstDiff l m else some q.1

/-- SIG_COMPARE (R484, R485): frame n's signatures against the partner's STATE and signatures, by D(n + 1). -/
def doSigCompare (n : Nat) (partner : Option (Nat × List Nat)) (s : State) : State :=
  match (if s.pairOn then s.red.own.find? (fun f => f.frame == n) else none) with
  | none => s
  | some f =>
    if s.red.voids.contains n then s.bump R.RED_SIG_VOID_CNT
    else
      match partner with
      | none => s
      | some (st, sigs) =>
        let diff := firstDiff f.sigs sigs
        if diff.isSome || decide (f.stateId % 2 ^ 32 ≠ st) || decide (f.sigs.length < sigs.length) then
          let s1 := s.modRed (fun r => { r with misses := r.misses + 1, matches_ := 0 })
          if s1.red.misses = 2 ∧ s1.red.sigAlarm = false then
            let s2 := ((s1.modRed (fun r => { r with sigAlarm := true })).raise F.RED_EVT_SIG_MISMATCH).bump R.RED_SIG_MISMATCH_CNT
            (s2.tally 0x1106 [n, diff.getD 0xFFFF, f.stateId % 2 ^ 32, st]).refreshReady
          else s1
        else
          let m := s.red.matches_ + 1
          let clears := s.red.sigAlarm && decide (64 ≤ m)
          (s.modRed (fun r => { r with
            misses := 0, matches_ := if clears then 0 else if r.sigAlarm then m else 0, sigAlarm := r.sigAlarm && !clears })).refreshReady

/-- The 64 bytes of the health report (R486). -/
def State.healthReport (s : State) : List Nat :=
  let mask (l : List Nat) : Nat := (l.map (fun i => 2 ^ i)).sum
  let near (t span : Nat) : Bool := decide (s.uptime < t + span)
  let ok := (List.range 12).filter (fun e => (s.engAt e).passed.any (fun t => near t (600 * oneSecond)))
  let faulty := (List.range 12).filter (fun e => s.get F.CE_STAT_STATE e == 4)
  let loops := (List.range 19).filter (fun p => s.red.loops.any (fun q => q.1 == p && near q.2 (60 * oneSecond)))
  let fixes := (s.mem.fixes.filter (fun t => near t (3600 * oneSecond))).length
  let lag := match (s.red.resync.map Resync.kept).bind List.head? with
    | some k => (s.uptime - k.at_) / 1000
    | none => 0
  let busy := (List.range 10).filter (fun a => s.get F.SYS_BG_STAT_LEVEL a != 0)
  let b := beBytes 8 s.frameNum ++ beBytes 8 (s.get64 R.STR_ID_LO) ++ beBytes 4 (s.get R.UPD_VER 1) ++ beBytes 4 (s.get R.RED_NOT_READY) ++
    beBytes 2 (mask ok) ++ beBytes 2 (mask faulty) ++ beBytes 4 (mask loops) ++ beBytes 4 fixes ++ beBytes 4 (s.get R.MEM_UE_CNT) ++
    beBytes 4 (s.get R.RED_OFFSET) ++ beBytes 4 lag ++ beBytes 2 (s.get F.PCR_TEMP_DIE) ++ beBytes 2 (mask busy) ++
    beBytes 4 (s.get R.RED_MSEQ) ++ beBytes 4 (s.get R.RED_SIG_MISMATCH_CNT)
  b ++ beBytes 4 (crc32c b)

/-- RED_HEALTH0 to 15 show a report, byte 4i in bits [31:24] of word i. -/
def State.showHealth (s : State) (b : List Nat) : State :=
  s.each (List.range 16) (fun i t => t.put R.RED_HEALTH (ofLe ((b.drop (4 * i)).take 4).reverse) i)

/-- HEALTH_REPORT (R486): a Standby sends its report; an Active receives `report`. -/
def doHealthReport (report : List Nat) (s : State) : State :=
  if !s.pairOn then s
  else if s.redRole = 2 then
    let b := s.healthReport
    (s.showHealth b).sendBellB 5 b
  else if s.redRole = 1 then
    ((s.showHealth report).putFlag F.RED_STAT_HEALTH_STALE false).modRed (fun r => { r with healthAt := some s.uptime })
  else s

/-- HEALTH_STALE (R486): 300 ms without a report. -/
def doHealthStale (s : State) : State :=
  if s.pairOn && s.redRole == 1 then
    (match s.red.healthAt with
      | some t => s.atUptime (t + 300000000)
      | none => s).putFlag F.RED_STAT_HEALTH_STALE true
  else s

/-- LINK_LOOPBACK_TEST (R486): activity 8 on a Standby. -/
def doLinkLoopbackTest (port : Nat) (pass : Bool) (s : State) : State :=
  if !s.pairOn || s.redRole != 2 then s
  else
    (s.modRed (fun r => { r with
      loops := if pass then (port, s.uptime) :: r.loops.filter (fun q => q.1 != port) else r.loops,
      loopFail := r.loopFail.filter (fun p => p != port) ++ (if pass then [] else [port]) })).refreshReady

def execBellAHeartbeat (s : State) : Host.Outcome State Fault Refusal := .next (doBellAHeartbeat s)
def execBellBHeartbeat (s : State) : Host.Outcome State Fault Refusal := .next (doBellBHeartbeat s)
def execHeartbeatReceive (bellB : Bool) (hb : Heartbeat) (info : Option PartnerInfo) (s : State) : Host.Outcome State Fault Refusal :=
  .next (doHeartbeatReceive bellB hb info s)
def execBellSilent (bellB : Bool) (s : State) : Host.Outcome State Fault Refusal := .next (doBellSilent bellB s)
def execTakeover (s : State) : Host.Outcome State Fault Refusal := .next (doTakeover s)
def execSeekTimeout (s : State) : Host.Outcome State Fault Refusal := .next (doSeekTimeout s)
def execFenceInQualified (s : State) : Host.Outcome State Fault Refusal := .next (doFenceInQualified s)
def execFenceInReleased (s : State) : Host.Outcome State Fault Refusal := .next (doFenceInReleased s)
def execFencePulse (s : State) : Host.Outcome State Fault Refusal := .next (doFencePulse s)
def execFenceInPulse (s : State) : Host.Outcome State Fault Refusal := .next (doFenceInPulse s)
def execFenceAlarm (s : State) : Host.Outcome State Fault Refusal := .next (doFenceAlarm s)
def execSwitch (value : Word) (s : State) : Host.Outcome State Fault Refusal := .next (doSwitch value s)
def execDormantHandover (s : State) : Host.Outcome State Fault Refusal := .next (doDormantHandover s)
def execSwitchHandover (s : State) : Host.Outcome State Fault Refusal := .next (doSwitchHandover s)
def execSwitchTimeout (s : State) : Host.Outcome State Fault Refusal := .next (doSwitchTimeout s)
def execForceActive (s : State) : Host.Outcome State Fault Refusal := .next (doForceActive s)
def execUnfence (s : State) : Host.Outcome State Fault Refusal := .next (doUnfence s)
def execResync (s : State) : Host.Outcome State Fault Refusal := .next (doResync s)
def execMirrorReceive (mseq frame band tcrc : Nat) (what : Mirrored) (s : State) : Host.Outcome State Fault Refusal :=
  .next (doMirrorReceive mseq frame band tcrc what s)
def execAckReceive (mseq : Nat) (s : State) : Host.Outcome State Fault Refusal := .next (doAckReceive mseq s)
def execMirrorResend (mseq : Nat) (s : State) : Host.Outcome State Fault Refusal := .next (doMirrorResend mseq s)
def execMirrorLag (s : State) : Host.Outcome State Fault Refusal := .next (doMirrorLag s)
def execResyncReqReceive (reason : Nat) (s : State) : Host.Outcome State Fault Refusal := .next (doResyncReqReceive reason s)
def execSnapshotReceive (part : Option (Snapshot × Nat)) (s : State) : Host.Outcome State Fault Refusal := .next (doSnapshotReceive part s)
def execSigCompare (frame : Nat) (partner : Option (Nat × List Nat)) (s : State) : Host.Outcome State Fault Refusal :=
  .next (doSigCompare frame partner s)
def execHealthReport (report : List Nat) (s : State) : Host.Outcome State Fault Refusal := .next (doHealthReport report s)
def execHealthStale (s : State) : Host.Outcome State Fault Refusal := .next (doHealthStale s)
def execLinkLoopbackTest (port : Fin 19) (pass : Bool) (s : State) : Host.Outcome State Fault Refusal := .next (doLinkLoopbackTest port.val pass s)
def execMarkWaitExpire (s : State) : Host.Outcome State Fault Refusal := .next (doMarkWaitExpire s)

end Sys2Proof.Machine
end

