-- ==== Sys2Proof/Machine/HostOps.lean ====
section
/-! DEFINITION. BAR0 and BAR2 accesses: the tests of R568, the value a read finds (R5, R7), consumes (R428), and the
bridge's boost clock, posted buffer and fetches (R423 to R431). -/
namespace Sys2Proof.Machine
open Sys2Proof

/-! ## Targets -/

/-- The on-chip pail memory, the retained SRAM and the Tally SRAM in BAR0 (R567). -/
def pailWindow : Nat := 0x1000000
def retWindow : Nat := 0x1200000
def tallyWindow : Nat := 0x1240000

/-- The offset lies between a base and a length. -/
def inSpan (a base len : Nat) : Bool := decide (base ≤ a) && decide (a < base + len)

/-- The entry of the region table of an offset (R424). -/
def entryOf (a : Nat) : Option Nat := regionTable.findIdx? (fun r => inSpan a r.1 r.2.1)

/-- The WRITE bit of an entry. -/
def regionWrites (e : Nat) : Bool := bitAt (regionTable.getD e (0, 0, 0)).2.2 2

/-- The power domain that holds what an offset names (DEDUCED from R493 where the spec names it for no register). -/
def domainOf (a : Nat) : Nat :=
  if 0x1000000 ≤ a then (if a < 0x1200000 then 1 else 0)
  else if (entryOf a).isSome then 0
  else match a / 0x10000 with
    | 16 => 2
    | 18 => 9
    | 9 | 12 => 15
    | _ => 1

/-- A domain is off, clamped or held in reset (R494). -/
def State.domainOff (s : State) (d : Nat) : Bool :=
  d != 0 && (!bitAt (s.get F.PCR_PD_STAT_ON) d || bitAt (s.get F.PCR_PD_STAT_HELD) d)

/-- An access of the width that R4 and R567 admit. -/
def widthOk (a len : Nat) : Bool :=
  if a < 0x1000000 then a % 4 == 0 && len == 4
  else a % 4 == 0 && len % 4 == 0 && decide (4 ≤ len) && decide (len ≤ 512)

/-- The dwords of the MSI-X table, and those of the PBA, in BAR0 (R421). -/
def inMsixTable (a : Nat) : Bool := inSpan a 0x101000 1024
def inPba (a : Nat) : Bool := inSpan a 0x102000 8

/-- The offset names a register or lies in a table window (R6, R567). -/
def named (a : Nat) : Bool :=
  (findReg a).isSome || inMsixTable a || inPba a || inSpan a pailWindow 0x200000 || inSpan a retWindow 0x10000 ||
  inSpan a tallyWindow 0x40000

/-- How a BAR0 access is decided (R568), in the order of its tests. -/
inductive BarAccess where
  | down | unsupported | width | off | unnamed | byre | own
  deriving DecidableEq, Repr

/-- The first test of R568 that applies to an access. In Dormant the PCIe link is down (R53): nothing of the host arrives. -/
def State.access (s : State) (who : Initiator) (a len : Nat) : BarAccess :=
  if s.power = 0 ∧ s.pwr.waking.isNone = true ∧ who = .host then .down
  else if s.host.d3hot ∧ who = .host then .unsupported
  else if widthOk a len = false then .width
  else if s.domainOff (domainOf a) then .off
  else if named a = false then .unnamed
  else if (entryOf a).isSome then .byre
  else .own

/-- An access to a domain that is off is counted (R494). -/
def State.offAccess (s : State) (who : Initiator) (a : Nat) : State :=
  ((s.bump R.PCR_OFF_ACCESS_CNT).raise F.PCR_EVT_OFF_ACCESS).tallyLimitedV 0x12100000 oneSecond 0x1210 a
    (fun _ _ => [a, rankOf who])

/-- All ones in a read of some bytes. -/
def allOnes (len : Nat) : Nat := 256 ^ len - 1

/-! ## What a register reads as -/

/-- The read-only _LO registers of 64-bit values: base, stride and count. -/
def loPairs : List (Nat × Nat × Nat) :=
  [(0x100, 0x0, 1), (0x10000, 0x0, 1), (0x20028, 0x1000, 12), (0x20030, 0x1000, 12), (0x41018, 0x40, 32), (0x50428, 0x40, 16),
   (0x60010, 0x0, 1), (0x60018, 0x0, 1), (0x71010, 0x40, 256), (0x7101C, 0x40, 256), (0x80040, 0x0, 1),
   (0x80048, 0x0, 1), (0x80050, 0x0, 1), (0x90018, 0x0, 1), (0x90110, 0x40, 8), (0xA0060, 0x0, 1), (0xB0010, 0x0, 1),
   (0xB0018, 0x0, 1)] ++
  [(0xC0058, 0x0, 1), (0xD0020, 0x0, 1), (0xD1040, 0x400, 25), (0xD1048, 0x400, 25), (0xD1050, 0x400, 25),
   (0xD1058, 0x400, 25), (0xE0010, 0x0, 1), (0xF1004, 0x40, 256), (0x120020, 0x0, 1), (0x120040, 0x0, 1),
   (0x15000C, 0x0, 1), (0x170014, 0x0, 1), (0x17001C, 0x0, 1), (0x180108, 0x40, 8), (0x180110, 0x40, 8)]

/-- The offset is that of an element of an array of registers. -/
def isElement (a base stride count : Nat) : Bool :=
  if stride = 0 then a == base
  else decide (base ≤ a) && (a - base) % stride == 0 && decide ((a - base) / stride < count)

/-- The registers that a read of an offset latches (R5; TIM_NOW_S_LO latches the other three of TIM_NOW). -/
def latchedBy (a : Nat) : List Nat :=
  if a = R.TIM_NOW_S_LO.base then [a + 4, a + 8, a + 12]
  else if loPairs.any (fun r => isElement a r.1 r.2.1 r.2.2) then [a + 4] else []

/-- The current value of a register that the device forms at the read. -/
def State.refreshReg (s : State) (who : Initiator) (a : Nat) : State :=
  if inSpan a R.TIM_NOW_S_LO.base 16 then
    let secs := s.nowNs / oneSecond
    (((s.put R.TIM_NOW_S_LO secs).put R.TIM_NOW_S_HI (secs / 2 ^ 32 % 65536)).put R.TIM_NOW_NS (s.nowNs % oneSecond)).put
      R.TIM_NOW_FRAC (s.now % 65536)
  else if a = R.TIM_HOLDOVER_MS.base then s.showHoldover
  else if a = F.MEM_TOL_MIN_US.base then s.showTol
  else if a = F.MEM_SCRUB_POS_POS.base then s.showScrub
  else if a = F.MEM_UTIL_PEAK.base then s.closeUtil
  else if a = F.ING_STAT_RX_GBPS.base then s.rollRx
  else if a = R.DVL_LAT.base then s.put R.DVL_LAT s.dispatcherSays.2
  else if (List.range 8).any (fun r => a == R.RG_STAT.addr r) then s.each (List.range 8) (fun r t => t.showRing t.cmd.latched r)
  else if a = R.DBR_STAT.base then s.put F.DBR_STAT_INITIATOR (rankOf who)
  else if a = R.UPD_PROGRESS.base then
    match s.upd.trialAt with
    | some t => s.put F.UPD_PROGRESS_WINDOW_S (max 10 (min 3600 (s.get F.UPD_CTL_CONFIRM_S)) - (s.uptime - t) / oneSecond)
    | none => s
  else s

/-- The register's value at a read: what a read of its _LO latched, or the current value. -/
def State.latchedValue (s : State) (a : Nat) : Word :=
  match s.hiLatch.find? (fun q => q.1 == a) with
  | some q => q.2
  | none => s.reg a

/-- Latch the registers that a read of an offset latches. -/
def State.latchHigh (s : State) (a : Nat) : State :=
  let l := latchedBy a
  { s with hiLatch := s.hiLatch.filter (fun q => !l.contains q.1) ++ l.map (fun b => (b, s.reg b)) }

/-- The offset lies in the window of a pail that is not bound, whose registers read as at reset (R410). -/
def State.unboundPail (s : State) (a : Nat) : Bool :=
  inSpan a 0xF1000 0x4000 && (s.pail ((a - 0xF1000) / 0x40)).isNone

/-- A read of a register of the fabric or of the Byre: its value, and the state with what the read latches. -/
def State.readReg (s : State) (who : Initiator) (a : Nat) : Nat × State :=
  if s.unboundPail a then ((regReset a).toNat, s)
  else
    let t := s.refreshReg who a
    ((t.latchedValue a).toNat, t.latchHigh a)

/-- A read of the fabric: a register, the MSI-X table and PBA, or on-chip pail memory. -/
def State.readOwn (s : State) (who : Initiator) (a len : Nat) : Nat × State :=
  if inMsixTable a then ((sparseGet msixReset s.host.msixTable ((a - 0x101000) / 4)).toNat, s)
  else if inPba a then (s.host.pba / 2 ^ (8 * (a - 0x102000)) % 2 ^ 32, s)
  else if inSpan a pailWindow 0x200000 then
    (ofLe ((List.range len).map (fun k => if a + k < pailWindow + 0x200000 then (s.pailByte (a + k - pailWindow)).toNat else 0)), s)
  else s.readReg who a

/-! ## Consumes (R428) -/

/-- An RC register (R7). -/
def isRc (a : Nat) : Bool :=
  isElement a R.F_PEAK.base R.F_PEAK.stride 256 || a == R.DBR_HELD_MAX.base || a == R.STA_EVT.base || a == F.MEM_UTIL_PEAK.base

/-- The consume of an RC register names the delivered value: a status clears the bits delivered as 1, and a maximum that has not
grown since the peek returns to 0. -/
def State.consumeReg (s : State) (a v : Nat) : State :=
  let clear (f : Field) (i : Nat) : State := if s.get f i = v / 2 ^ f.lo % 2 ^ f.width then s.put f 0 i else s
  if a = R.STA_EVT.base then
    let w := s.get R.STA_EVT
    s.put R.STA_EVT (w - (w &&& v))
  else if a = R.DBR_HELD_MAX.base then clear F.DBR_HELD_MAX_US 0
  else if a = F.MEM_UTIL_PEAK.base then clear F.MEM_UTIL_PEAK 0
  else if isRc a then clear F.F_PEAK_PEAK ((a - R.F_PEAK.base) / R.F_PEAK.stride)
  else s

/-- Change the host link's state. -/
def State.modHost (s : State) (f : HostLink → HostLink) : State := { s with host := f s.host }

/-- Data fetched for the host is held until it is delivered. -/
def State.hold (s : State) (a v : Nat) (byre : Bool) : State :=
  (s.modHost (fun h => { h with held := h.held ++ [{
    who := .host, addr := a, value := v, fetched := s.uptime, byre := byre, pop := none, dead := false, pos := 0 }] })).syncHost

/-! ## The Byre (R424, R506, R537) -/

/-- One word of the retained SRAM, and detector 0x12. -/
def State.retWord (s : State) (a : Nat) : Nat × State :=
  let k := (a - retWindow) / 4
  let q := s.opportunity 0x12 0 k
  if q.1 then (0xFFFFFFFF, (q.2.detect 0x12).raise F.PCR_EVT_RET_UE)
  else (ofLe ((List.range 4).map (fun i => if 4 * k + i < 0x10000 then (s.retByte (4 * k + i)).toNat else 0)), s)

/-- One word of the Tally SRAM, and detector 0x13. -/
def State.tallyWord (s : State) (a : Nat) : Nat × State :=
  let k := (a - tallyWindow) / 4
  let q := s.opportunity 0x13 0 k
  if q.1 then (0xFFFFFFFF, (((q.2.detect 0x13).bump R.TLY_ECC).raise F.TLY_EVT_ECC).tally 0x1308 [k])
  else (ofLe ((List.range 4).map (fun i => if 4 * k + i < 0x40000 then (s.tallyByte (4 * k + i)).toNat else 0)), s)

/-- Words from an offset on, in address order, as one number. -/
def readWords (word : State → Nat → Nat × State) : Nat → Nat → State → Nat × State
  | 0, _, s => (0, s)
  | n + 1, a, s =>
    let q := word s a
    let r := readWords word n (a + 4) q.2
    (q.1 + 2 ^ 32 * r.1, r.2)

/-- What a read finds behind the bridge. A backup register is checked at the read (R506). -/
def State.readByre (s : State) (who : Initiator) (a len : Nat) : Nat × State :=
  if inSpan a retWindow 0x10000 then readWords State.retWord (len / 4) a s
  else if inSpan a tallyWindow 0x40000 then readWords State.tallyWord (len / 4) a s
  else if inSpan a R.PCR_BKP.base 64 then
    let hit := s.flt.armed.any (fun x => x.matches 0x11 ((a - R.PCR_BKP.base) / 4) 0 s.frameNum)
    (if hit then doParity a s else s).readReg who a
  else s.readReg who a

/-- An injection makes a Byre register fail its parity at the read: the BYRE reach follows, and every read on its way completes
with all ones. -/
def State.parityInjected (s : State) (a : Nat) : Bool :=
  !inSpan a R.PCR_BKP.base 64 && decide (a < 0x1000000) && s.flt.armed.any (fun x => x.matches 0x10 0 a s.frameNum)

/-- A write that reaches the Byre. -/
def State.writeByre (s : State) (a : Nat) (bytes : List Nat) : State :=
  if inSpan a retWindow 0x10000 then s.writeRet (a - retWindow) (bytes.take (retWindow + 0x10000 - a))
  else if a = R.PCR_BLK_RST.base then doBlkRst (BitVec.ofNat 32 (ofLe bytes)) s
  else if a = R.PCR_SW_RESET.base then doSwReset (BitVec.ofNat 32 (ofLe bytes)) s
  else s.plainWrite a (ofLe bytes)

/-! ## The bridge -/

/-- The bridge asks for the boost clock (R423). It runs at once, unless an injection keeps it from running: then the request waits
for its 100 µs. -/
def State.askBoost (s : State) : State :=
  if s.host.boost then s.modHost (fun h => { h with boostIdleAt := s.uptime })
  else if s.host.boostAskedAt.isSome then s
  else if s.flt.armed.any (fun x => x.matches 0x24 0 0 s.frameNum) then s.modHost (fun h => { h with boostAskedAt := some s.uptime })
  else s.modHost (fun h => { h with boost := true, boostIdleAt := s.uptime })

/-- Posted writes and consumes reach the Byre in the order of their acceptance (R430). -/
def State.drain : Nat → State → State
  | 0, s => s
  | n + 1, s =>
    match s.host.posted with
    | [] => s
    | w :: l =>
      let t := s.modHost (fun h => { h with posted := l })
      State.drain n (match w.consume with
        | some v => t.consumeReg w.addr v
        | none => t.writeByre w.addr w.bytes)

/-- What has been posted reaches the Byre once the boost clock runs. -/
def State.runPosted (s : State) : State :=
  let t := s.askBoost
  (if t.host.boost then t.drain t.host.posted.length else t).syncHost

/-- Post a write or a consume. -/
def State.post (s : State) (w : PostedWrite) : State := (s.modHost (fun h => { h with posted := h.posted ++ [w] })).runPosted

/-- The read slots of an initiator (R425). -/
def readSlots (who : Initiator) : Nat := if who = .host then 4 else 1

/-- The read slots that an initiator uses. -/
def State.slotsBusy (s : State) (who : Initiator) : Nat :=
  (s.host.held.filter (fun h => h.byre && decide (h.who = who))).length + (s.host.retrying.filter (fun r => decide (r.who = who))).length

/-- The data of a read across the bridge is taken by its initiator. A core's retry delivers it; the host's is held (R428). -/
def State.takeData (s : State) (r : RetryRead) : State :=
  let q := s.readByre r.who r.addr r.len
  let t := (q.2.modHost (fun h => { h with retrying := h.retrying.filter (· != r), boostIdleAt := s.uptime })).answer r.who q.1
  if r.who = .host then
    let us := min 65535 ((s.uptime - r.since) / 1000)
    (t.put F.DBR_HELD_MAX_US (max us (t.get F.DBR_HELD_MAX_US))).hold r.addr q.1 true
  else if isRc r.addr then (t.post { who := r.who, addr := r.addr, bytes := [], consume := some q.1 })
  else t.syncHost

/-- One attempt of a read across the bridge (R425, R430). The first is told to retry; a later one finds the data fetched, after the
writes posted before it, if the boost clock runs. An attempt that finds no slot free waits for one. -/
def State.bridgeRead (s : State) (who : Initiator) (a len : Nat) : State :=
  match s.host.retrying.find? (fun r => decide (r.who = who) && r.addr == a && r.len == len) with
  | none =>
    if readSlots who ≤ s.slotsBusy who then s
    else
      ((s.askBoost.modHost (fun h => { h with retrying := h.retrying ++ [{ who := who, addr := a, len := len, since := s.uptime }] })).bump
        R.DBR_RETRY_CNT).syncHost
  | some r =>
    let t := s.askBoost
    if t.host.boost = false then (t.bump R.DBR_RETRY_CNT).syncHost
    else
      let u := t.drain t.host.posted.length
      if u.host.retrying.contains r = false then u.syncHost
      else if u.parityInjected a then doParity a u
      else u.takeData r

/-- A semaphore that keeps an initiator from writing to an entry of the region table (R432, R433). -/
def State.guardOf (s : State) (who : Initiator) (e : Nat) : Option Nat :=
  (List.range 16).find? (fun n =>
    let owner := s.get F.DBR_SEM_OWNER n
    s.flag F.DBR_SEM_GUARD n && decide (s.get F.DBR_SEM_REGION n = e) &&
      ((decide (owner ≠ 7) && decide (owner ≠ rankOf who)) || (s.host.sems.getD n { since := 0, revoked := none }).revoked == some who))

/-- A posted write to the Byre arrives at the bridge (R424, R430 to R432). The Byre supervisor writes on its own bus. -/
def State.bridgeWrite (s : State) (who : Initiator) (a : Nat) (bytes : List Nat) : State :=
  if who = .supervisor then s.writeByre a bytes
  else
    match entryOf a with
    | none => s
    | some e =>
      match s.guardOf who e with
      | some n =>
        (s.bump R.DBR_GUARD_CNT).tallyLimited 0x0F080000 oneSecond 0x0F08 (fun _ => [n, rankOf who, a])
      | none =>
        if regionWrites e = false then s.bump R.DBR_WDISC_CNT
        else
          let t := if 64 ≤ s.host.posted.length then s.runPosted else s
          if 64 ≤ t.host.posted.length then t else t.post { who := who, addr := a, bytes := bytes, consume := none }

/-- A read of BAR0, through the tests of R568. -/
def State.readAccess (s : State) (who : Initiator) (a len : Nat) : State :=
  match s.access who a len with
  | .down => s
  | .unsupported => s.emit (.unsupportedRequest who)
  | .width => s.answer who (allOnes len)
  | .off => (s.offAccess who a).answer who (allOnes len)
  | .unnamed => s.answer who 0
  | .byre =>
    if who = .supervisor then
      let q := if s.parityInjected a then (0xFFFFFFFF, doParity a s) else s.readByre who a len
      (q.2.answer who q.1).consumeReg a q.1
    else s.bridgeRead who a len
  | .own =>
    if inSpan a 0xF1000 0x4000 && (a - 0xF1000) % 0x40 == 0x28 then doPlPop who ((a - 0xF1000) / 0x40) s
    else
      let q := s.readOwn who a len
      let t := q.2.answer who q.1
      if isRc a = false then t else if who = .host then t.hold a q.1 false else t.consumeReg a q.1

end Sys2Proof.Machine
end

