-- ==== Sys2Proof/Machine/HostAccess.lean ====
section
/-! DEFINITION. The rows of the host link and the bridge that read and write: register writes (R7), RC reads and their consumes
(R8, R428, R429), BAR2 writes (R415), and reads and writes across the domain bridge (R425, R430). -/
namespace Sys2Proof.Machine
open Sys2Proof

/-! ## Register writes with an effect of their own -/

/-- A write of STR_LOAD_CTL: ABORT, and then GO. -/
def State.strLoadCtl (s : State) (v : Nat) : State :=
  doStrLoad (BitVec.ofNat 32 v) (if bitAt v 3 then doStrAbort s else s)

/-- A write of CE_CTL of an engine. -/
def State.ceCtl (s : State) (e v : Nat) : State :=
  let s1 := s.put F.CE_CTL_VECTOR (bits v 9 4) e
  let s2 := if bitAt v 0 = s1.flag F.CE_CTL_QUARANTINE e then s1 else doCeQuarantine e (bitAt v 0) s1
  let s3 := if bitAt v 1 then doCeRetry e s2 else s2
  if bitAt v 2 then doSigNow e s3 else s3

/-- A write of CAL_CMD. -/
def State.calCmd (s : State) (v : Nat) : State :=
  if bitAt v 31 = false then s.put F.CAL_CMD_OP (bits v 1 0)
  else match bits v 1 0 with
    | 1 => s.mirrored s.calCmdAccepted (.calCmd (1 + 2 ^ 31)) doClearFailedMarks
    | 2 => s.mirrored s.calCmdAccepted (.calCmd (2 + 2 ^ 31)) doVoidOpenWindows
    | n => s.put F.CAL_CMD_OP n

/-- A write of DDP_CMD. Operation 2 asks for a start-up walk, whose outcome START_UP_WALK brings. -/
def State.ddpCmd (s : State) (v : Nat) : State :=
  let p := bits v 4 0
  let s1 := (s.put F.DDP_CMD_PORT p).put F.DDP_CMD_OP (bits v 7 5)
  if bitAt v 31 = false then s1
  else match bits v 7 5 with
    | 1 => doReleaseBlanked p s1
    | 2 => if s1.ddEnabled p then s1 else s1.raise F.DDP_EVT_CMD_REJECT
    | 3 => doTestStart p s1
    | 4 => doTestEnd p s1
    | _ => s1

/-- A write of P_CTL of a port: EN acts after the other fields are stored (R335). -/
def State.portCtl (s : State) (p v : Nat) : State :=
  let en := s.get F.P_CTL_EN p
  doPortEnable p (bitAt v 0) (s.storeReg (R.P_CTL.addr p) (putBits v 0 1 en))

/-- A write of TIM_CMD: any operation but 1 and 2 is rejected. -/
def State.timCmd (s : State) (v : Nat) : State :=
  let s1 := s.put F.TIM_CMD_OP (bits v 1 0)
  if bitAt v 31 = false then s1
  else match bits v 1 0 with
    | 1 => doTimeSet s1
    | 2 => doApplyStep s1
    | _ => s1.raise F.TIM_EVT_CMD_REJECT

/-- A write in the window of a pail: the pointers, PL_CTL, and the rest. -/
def State.pailRegWrite (s : State) (a v : Nat) : State :=
  let p := (a - 0xF1000) / 0x40
  let o := (a - 0xF1000) % 0x40
  if o = 0x10 then doPlWrWrite p v s
  else if o = 0x14 then doPlRdWrite p v s
  else if o = 0x1C then
    if (s.pail p).isNone then s
    else
      let s1 := s.put F.PL_CTL_VECTOR (bits v 6 1) p
      if bitAt v 0 then doFlush p s1 else s1
  else s.plainWrite a v

/-- A write of DBR_SEMn: TAKE, GIVE, or the fields alone. -/
def State.semWrite (s : State) (who : Initiator) (n v : Nat) : State :=
  if bitAt v 3 then doSemTake who n (BitVec.ofNat 32 v) s
  else if bitAt v 4 then doSemGive who n (BitVec.ofNat 32 v) s
  else if semDenied who n then s else s.semFields n (BitVec.ofNat 32 v)

/-- A write of RED_CMD. -/
def State.redCmd (s : State) (v : Nat) : State :=
  if bitAt v 31 = false then s.redCommand v
  else match bits v 2 0 with
    | 1 => doSwitch (BitVec.ofNat 32 v) s
    | 2 => doForceActive (s.redCommand v)
    | 3 => doUnfence (s.redCommand v)
    | 4 => doResync (s.redCommand v)
    | _ => s.redCommand v

/-- A write of FLT_INJ_CTL: DISARM, and then ARM. -/
def State.injCtl (s : State) (v : Nat) : State :=
  let key := bits v 31 16
  let s1 := if bitAt v 1 then doInjectionCancelled key s else s
  if bitAt v 0 then doInjectionArmed key s1 else s1

/-- A write of UPD_CMD. -/
def State.updCmd (s : State) (v : Nat) : State :=
  if bitAt v 31 = false then s.updCommand v
  else match bits v 2 0 with
    | 1 => doFwLoad (BitVec.ofNat 32 v) s
    | 2 => doFwConfirm 0 (s.updCommand v)
    | 3 => doFwRevert (s.updCommand v)
    | 4 => doFwAbort (s.updCommand v)
    | 5 => doBurnFwCounter (s.updCommand v)
    | 6 => doBurnStrCounter (s.updCommand v)
    | _ => s.updCommand v

/-- A write of the MSI-X table: of the vector control word only the mask bit (R421). -/
def State.msixWrite (s : State) (a v : Nat) : State :=
  let k := (a - 0x101000) / 4
  let w := if k % 4 = 3 then v % 2 else v
  (s.modHost (fun h => { h with msixTable := sparseSet msixReset h.msixTable k (BitVec.ofNat 32 w) })).sendPending

/-! ## Register writes -/

/-- The blocks whose L- and F-class fields a mirror carries (R472). -/
def mirroredBlocks : List Nat := [0, 3, 4, 5, 6, 7, 8, 10]

/-- The register has an L- or F-class field that software writes, in a block that the mirror carries. -/
def mirrorable (a : Nat) : Bool :=
  mirroredBlocks.contains (a / 0x10000) &&
  (findReg a).any (fun d => d.fields.any (fun f => decide (f.access = .rw) && decide (f.cls ≠ .s)))

/-- A write of a register that has no row of its own. The host's writes of show state are mirrored (R472, R474). -/
def State.storeWrite (s : State) (who : Initiator) (a v : Nat) : State :=
  if decide (who = .host) && mirrorable a && s.hasStandby then
    let at_ := s.lateFrom
    if s.mirroring then s.sendMirrorAt at_.1 at_.2 true (.register a v)
    else ((s.sendMirrorAt at_.1 at_.2 false (.register a v)).keepLate at_.1 at_.2 none (some a)).plainWrite a v
  else s.plainWrite a v

/-- A word written to a register of the fabric. -/
def State.regWrite (s : State) (who : Initiator) (a v : Nat) : State :=
  let w : Word := BitVec.ofNat 32 v
  if a = R.SYS_PIPE_CTL.base then doAdvanceWrite w s
  else if a = R.SYS_MODE_REQ.base then doModeRequest w s
  else if a = R.STR_LOAD_CTL.base then s.strLoadCtl v
  else if a / 0x10000 = 2 ∧ a % 0x1000 = 0 then s.ceCtl ((a - R.CE_CTL.base) / 0x1000) v
  else if a = R.ING_JOB_CTL.base then
    s.mirrored (bitAt v 0 && decide ((firstFail s.jobChecks).2 = stOK)) (.job v) (doJobSubmit v)
  else if a = R.CMP_COEF_CTL.base then s.mirrored (s.coefAccepted v) (.coefLoad v) (doCoefLoad v)
  else if a = R.SEP_CURVE_CTL.base then s.mirrored (s.curveAccepted v) (.curveLoad v) (doCurveLoad v)
  else if a = R.CAL_LOAD_CTL.base then s.mirrored (s.gainAccepted v) (.gainLoad v) (doGainLoad v)
  else if a = R.CAL_CMD.base then s.calCmd v
  else if a = R.GOV_MODEL_CTL.base then s.mirrored (s.modelAccepted v) (.modelLoad v) (doModelLoad v)
  else if a = R.DDP_CMD.base then s.ddpCmd v
  else if isElement a R.P_CTL.base R.P_CTL.stride 32 then s.portCtl ((a - R.P_CTL.base) / R.P_CTL.stride) v
  else if a = R.TIM_CMD.base then s.timCmd v
  else if a / 0x10000 = 13 ∧ 0xD1000 ≤ a ∧ 0x200 ≤ (a - 0xD1000) % 0x400 ∧ (a - 0xD1000) % 8 = 4 then
    doExactEntryWrite ((a - 0xD1000) / 0x400) (((a - 0xD1000) % 0x400 - 0x200) / 8) v s
  else if inSpan a 0xF1000 0x4000 then s.pailRegWrite a v
  else if isElement a R.DBR_SEM.base R.DBR_SEM.stride 16 then s.semWrite who ((a - R.DBR_SEM.base) / R.DBR_SEM.stride) v
  else if a = R.RED_CMD.base then s.redCmd v
  else if a = R.FLT_INJ_CTL.base then s.injCtl v
  else if a = R.UPD_CMD.base then s.updCmd v
  else s.storeWrite who a v

/-- A write in the fabric: the MSI-X table, on-chip pail memory, or a register. -/
def State.writeOwn (s : State) (who : Initiator) (a : Nat) (bytes : List Nat) : State :=
  if inMsixTable a then s.msixWrite a (ofLe bytes)
  else if inPba a then s
  else if inSpan a pailWindow 0x200000 then s.writePailMem (a - pailWindow) (bytes.take (pailWindow + 0x200000 - a))
  else s.regWrite who a (ofLe bytes)

/-- A write of BAR0, through the tests of R568. -/
def State.writeAccess (s : State) (who : Initiator) (a : Nat) (bytes : List Nat) : State :=
  match s.access who a bytes.length with
  | .down => s
  | .unsupported => s.emit (.unsupportedRequest who)
  | .width => s.bump R.SYS_ACCESS_ERR
  | .off => s.offAccess who a
  | .unnamed => s
  | .byre => s.bridgeWrite who a bytes
  | .own => s.writeOwn who a bytes

/-- REGISTER_WRITE (R7): a write of a register or a table window, or of a control in configuration space. -/
def doRegisterWrite (who : Initiator) (req : WriteReq) (s : State) : State :=
  match req with
  | .bar0 a bytes => s.writeAccess who a bytes
  | .cfg (.maxPayload code) => s.put F.HBR_STAT_MPS (min code 2)
  | .cfg (.msixControl on mask) => (s.modHost (fun h => { h with msixEnable := on, msixMaskAll := mask })).sendPending

/-! ## Reads with side effects -/

/-- RC_READ (R8): a read of BAR0. The value of an RC register is a peek, and its consume waits for delivery. -/
def doRcRead (who : Initiator) (a len : Nat) (s : State) : State := s.readAccess who a len

/-- Drop the first held read that satisfies a test. -/
def State.dropHeld (s : State) (h : HeldRead) : State := s.modHost (fun x => { x with held := x.held.erase h })

/-- The consume of a delivered value (R428). A pop advances only while the item it was read from is still the head, which the
delivered word tells. -/
def State.consumeHeld (s : State) (h : HeldRead) : State :=
  match h.pop with
  | some p =>
    if (s.pail p).any (fun q => q.popping.any Popping.cut || s.popPeek q == some (h.pos, h.value)) then
      (s.popAdvance p h.who h.pos).pump
    else s
  | none =>
    if isRc h.addr = false then s
    else if h.byre then s.post { who := h.who, addr := h.addr, bytes := [], consume := some h.value }
    else s.consumeReg h.addr h.value

/-- CONSUME (R428): the oldest read held for an initiator at an address is delivered. An injection of detector 0x25 keeps it from
being delivered. -/
def doConsume (who : Initiator) (a : Nat) (s : State) : State :=
  match s.host.held.find? (fun h => decide (h.who = who) && h.addr == a && !h.dead) with
  | none => s
  | some h =>
    if s.flt.armed.any (fun x => x.matches 0x25 0 0 s.frameNum) then
      s.modHost (fun x => { x with held := x.held.map (fun g => if g = h then { g with dead := true } else g) })
    else ((s.dropHeld h).consumeHeld h).syncHost

/-- READ_ABANDONED (R429): data held for 1 ms is discarded, no consume is sent, and the slot is free. -/
def doReadAbandoned (who : Initiator) (a : Nat) (s : State) : State :=
  match s.host.held.find? (fun h => decide (h.who = who) && h.addr == a) with
  | none => s
  | some h =>
    let s1 := ((s.atUptime (h.fetched + 1000000)).dropHeld h).detected 0x25 0 0
    let s2 := if h.byre then (s1.bump R.DBR_ABANDON_CNT).raise F.DBR_EVT_ABANDON
      else (s1.bump R.HBR_ABANDON_CNT).raise F.HBR_EVT_ABANDON
    (s2.tally 0x0F02 [rankOf who, a, h.value]).syncHost

/-! ## The bridge -/

/-- BRIDGE_READ (R425): one attempt of a read across the domain bridge. -/
def doBridgeRead (who : Initiator) (a len : Nat) (s : State) : State := s.readAccess who a len

/-- BRIDGE_WRITE (R430): a posted write across the domain bridge. -/
def doBridgeWrite (who : Initiator) (a : Nat) (bytes : List Nat) (s : State) : State := s.writeAccess who a bytes

/-! ## BAR2 (R415, R443) -/

/-- Bytes of the Bulk Tank that host software may write. -/
def hostMayWrite (a : Nat) : Bool := decide (a < reserveA) || (decide (pailArea ≤ a) && decide (a < firmwareArea))

/-- The halves of the Bulk Tank that a span covers whole. -/
def wholeHalves (a n : Nat) : List Nat :=
  let first := (a + 31) / 32
  (List.range ((a + n) / 32 - first)).map (fun k => first + k)

/-- BAR2_WRITE (R415): the bytes that the host may write are written; a write with any other counts once as discarded. A half that is
written whole is readable again (R442). -/
def doBar2Write (a : Nat) (bytes : List Nat) (s : State) : State :=
  if s.power = 0 ∧ s.pwr.waking.isNone = true then s
  else if s.host.d3hot then s.emit (.unsupportedRequest .host)
  else if s.domainOff 9 || s.domainOff 2 then s.offAccess .host a
  else
    let l := (List.range bytes.length).zip bytes
    let s1 := s.each (l.filter (fun q => hostMayWrite (a + q.1))) (fun q t => t.setBulk (a + q.1) (BitVec.ofNat 8 q.2))
    let fresh := (wholeHalves a bytes.length).filter (fun h => hostMayWrite (32 * h))
    let s2 := if s1.mem.bad.isEmpty then s1 else s1.modMem (fun m => { m with bad := m.bad.filter (fun h => !fresh.contains h) })
    if l.all (fun q => hostMayWrite (a + q.1)) then s2
    else ((s2.bump R.HBR_PROT_CNT).raise F.HBR_EVT_PROT).tallyLimited 0x0F040000 oneSecond 0x0F04 (fun n => [a, n])

def execRegisterWrite (who : Initiator) (req : WriteReq) (s : State) : Host.Outcome State Fault Refusal :=
  .next (doRegisterWrite who req s)
def execRcRead (who : Initiator) (addr len : Nat) (s : State) : Host.Outcome State Fault Refusal := .next (doRcRead who addr len s)
def execConsume (who : Initiator) (addr : Nat) (s : State) : Host.Outcome State Fault Refusal := .next (doConsume who addr s)
def execReadAbandoned (who : Initiator) (addr : Nat) (s : State) : Host.Outcome State Fault Refusal := .next (doReadAbandoned who addr s)
def execBridgeRead (who : Initiator) (addr len : Nat) (s : State) : Host.Outcome State Fault Refusal :=
  .next (doBridgeRead who addr len s)
def execBridgeWrite (who : Initiator) (addr : Nat) (bytes : List Nat) (s : State) : Host.Outcome State Fault Refusal :=
  .next (doBridgeWrite who addr bytes s)
def execBar2Write (addr : Nat) (bytes : List Nat) (s : State) : Host.Outcome State Fault Refusal := .next (doBar2Write addr bytes s)

end Sys2Proof.Machine
end

