-- ==== Sys2Proof/Machine/Switch.lean ====
section
/-! DEFINITION. Flow on the routes of the stage switch (R103, R112 to R114): credits of the engines' input ports, output
that waits for them, its order on a route, and the stalled time that a kind is charged. -/
namespace Sys2Proof.Machine
open Sys2Proof

/-- The routes in use in the precision in force. -/
def State.liveRoutes (s : State) : List RouteRec :=
  (((s.str.inForce.bind Structure.routes).getD []).filter (fun r => routeIn r s.skim))

/-- The kinds of the section that plays a role. -/
def State.roleCarries (s : State) (r kind : Nat) : Bool := s.str.inForce.any (fun st => st.carries s.skim r kind)

/-- A route that never applies back-pressure: one that ends at no engine, and the route of drive sums from SEPARATE to
GOVERN (R114). -/
def State.freeFlow (s : State) (r : RouteRec) : Bool :=
  decide (12 ≤ r.dstNode) || (s.roleCarries r.srcNode 4 && s.roleCarries r.dstNode 5)

/-- Credits that a route has now: those of the destination's input port on the engine that plays its role, none where
none plays it. -/
def State.creditsOf (s : State) (r : RouteRec) : Nat :=
  match s.playerOf r.dstNode with
  | some e => (s.engAt e).credits.getD r.dstPort 0
  | none => 0

/-- A part waits for others on its route (R113): an earlier one of the route still waits, or the route is band-ordered and
an item of an earlier band or slice is in service on the engine. -/
def State.partHeld (s : State) (e : Nat) (before : List OutPart) (p : OutPart) : Bool :=
  before.any (fun q => q.route == p.route) ||
  (bitAt p.route.flags 0 && (s.serving e).any (fun q => q.2.task.any (fun d =>
    d.framed && decide (d.frame < p.frame ∨ (d.frame = p.frame ∧ d.unit < p.unit)))))

/-- 1.2 GHz clocks between two device times. -/
def clocksBetween (a b : Nat) : Nat := (b - a) * 12 / (10 * 65536)

/-- Send what the credits allow of one waiting part, given the parts before it that still wait; a part that has all gone
charges its kind with the time it stalled (R113). -/
def State.drainPart (s : State) (e : Nat) (kept : List OutPart) (p : OutPart) : List OutPart × State :=
  if s.partHeld e kept p then (kept ++ [p], s)
  else
    let n := if s.freeFlow p.route then p.cells else min p.cells (s.creditsOf p.route)
    let t := if s.freeFlow p.route then s
      else match s.playerOf p.route.dstNode with
        | some f => s.modEng f (fun x => { x with credits := x.credits.modify p.route.dstPort (fun c => c - n) })
        | none => s
    if n = p.cells then (kept, t.useClocks e p.order (clocksBetween p.since s.now))
    else (kept ++ [{ p with cells := p.cells - n }], t)

/-- Drain one engine: its waiting parts in order. -/
def State.drainEngine (s : State) (e : Nat) : State :=
  let r := (s.engAt e).waiting.foldl (fun a p => a.2.drainPart e a.1 p) (([] : List OutPart), s)
  r.2.modEng e (fun x => { x with waiting := r.1 })

/-- A part is put behind the others of its route: on a band-ordered route behind the parts of earlier bands and slices
alone (R113). -/
def insertPart (p : OutPart) : List OutPart → List OutPart
  | [] => [p]
  | q :: rest =>
    if q.route == p.route && bitAt p.route.flags 0 && decide (p.frame < q.frame ∨ (p.frame = q.frame ∧ p.unit < q.unit))
    then p :: q :: rest else q :: insertPart p rest

/-- A completed item's output is put on the routes of its engine's output ports (R103). -/
def State.giveCells (s : State) (e order frame unit : Nat) (gives : List (Nat × Nat)) : State :=
  let role := (s.roleOf e).getD e
  let parts := gives.flatMap (fun g => (s.liveRoutes.filter (fun r => r.srcNode == role && r.srcPort == g.1)).map (fun r =>
    ({ route := r, cells := g.2, order := order, frame := frame, unit := unit, since := s.now } : OutPart)))
  (s.modEng e (fun x => { x with waiting := parts.foldl (fun w p => insertPart p w) x.waiting })).drainEngine e

/-- An engine has read cells from its input ports: their credits return, and sources that stalled go on. A port with more
than its 512 credits is a protocol error, code 5 (R117); an injection gives one too many (R520, 0x06). -/
def State.takeCells (s : State) (e : Nat) (takes : List (Nat × Nat)) : State :=
  let r := takes.foldl (fun (acc : Bool × State) g =>
    let q := acc.2.opportunity 0x06 e g.1
    let t := q.2.modEng e (fun x => { x with credits := x.credits.modify g.1 (fun c => c + g.2) })
    (acc.1 || q.1 || decide (512 < (t.engAt e).credits.getD g.1 0), t)) (false, s)
  let t := if r.1 then r.2.engineFault e 5 else r.2
  if takes.isEmpty then t else t.each (List.range 12) (fun f u => u.drainEngine f)

end Sys2Proof.Machine
end

