-- ==== Sys2Proof/Machine/Parlour.lean ====
section
/-! DEFINITION. The Parlour's dispatch rules (R402 to R408) and the completion of items (R405). -/
namespace Sys2Proof.Machine
open Sys2Proof

/-- The undispatched items of a pail in the order the Parlour looks at them: returned items first, then the others, in
pail order (R404, R408). -/
def candidates (q : Pail) : List Item :=
  let w := q.items.filter (fun i => decide (i.phase = .ready))
  w.filter Item.redispatch ++ w.filter (fun i => !i.redispatch)

/-- An item's flow has an item in service, or an earlier item of it waits (R404). -/
def flowBlocked (q : Pail) (before : List Item) (i : Item) : Bool :=
  match i.task with
  | none => false
  | some d =>
    d.flowed &&
    (q.items.any (fun j => (match j.phase with | .inService _ => true | _ => false) &&
        j.task.any (fun x => x.flowed && x.flow == d.flow)) ||
     before.any (fun j => j.task.any (fun x => x.flowed && x.flow == d.flow)))

/-- The eligible item of a pail (R404): of a pail without flows its first; of a pail with flows the first of up to 64
that is not held by its flow. -/
def eligible (q : Pail) : Option Item :=
  let waiting := candidates q
  if q.flows then
    ((List.range (min 64 waiting.length)).filterMap (fun k => (waiting[k]?).bind (fun i =>
      if flowBlocked q (waiting.take k) i then none else some i))).head?
  else waiting.head?

/-- A task item names a KIND of R75 and a FLOW of its pail's range (R402). -/
def taskOk (q : Pail) (d : TaskDesc) : Bool :=
  decide (1 ≤ d.kind) && decide (d.kind ≤ 0xA) &&
  (!d.flowed || (decide (q.flowBase ≤ d.flow) && decide (d.flow < q.flowBase + q.flowCount)))

/-- The kinds that an engine has a free service slot for, gated kinds left out in Hold, and in Warm all but
UNPACK on the engine that a load job runs on (R110, R111, R170, R409). -/
def State.freeKinds (s : State) (e : Nat) : List Nat :=
  match s.runSection e with
  | none => []
  | some x =>
    let slots := slotShare x.kinds
    let held := s.serving e
    (List.range x.kinds.length).filterMap (fun i =>
      (x.kinds[i]?).bind (fun (k : KindEntry) =>
        let used : Nat := (held.filter (fun p => p.2.task.any (fun d => d.kind == k.kind))).length
        if decide (used < slots.getD i 0) && decide (s.power = 3 ∨ (s.power = 2 ∧ holdKind k.kind = true) ∨ (s.power = 1 ∧ k.kind = 1 ∧ s.get F.CE_STAT_STATE e = 2))
        then some k.kind else none))

/-- The engine that bit e of an ENGINES mask selects for: a SPARE that stands in takes the bit of the engine it stands
in for (R408). -/
def State.maskBit (s : State) (e : Nat) : Nat := (s.roleOf e).getD e

/-- The pail and the item the Parlour picks for an engine (R403): highest PRIO, then least recently served. -/
def State.pick (s : State) (e : Nat) : Option (Pail × Item) :=
  let kinds := s.freeKinds e
  let offers := s.par.pails.filterMap (fun q =>
    if q.role = 2 ∧ bitAt q.engines (s.maskBit e) = true then
      (eligible q).bind (fun i =>
        if i.task.any (fun d => !taskOk q d || kinds.contains d.kind) then some (q, i) else none)
    else none)
  offers.foldl (fun best o => match best with
    | none => some o
    | some b =>
      if b.1.prio < o.1.prio ∨ (b.1.prio = o.1.prio ∧ o.1.lastServed < b.1.lastServed) then some o else best) none

/-- The channel a task serves is DRAINING, or its frame is at or after the destroy frame (R406). -/
def State.discards (s : State) (d : TaskDesc) : Bool :=
  d.handle != 0 &&
  match s.chanAt (handleKind d.handle) (handleIndex d.handle) with
  | some c => decide (c.st = .draining ∨ c.gen ≠ handleGen d.handle) ||
      (match c.destroyFrame with | some k => d.framed && decide (k ≤ d.frame) | none => false)
  | none => true

/-- The output of a task that completes now is discarded (R127): its channel is gone, or is destroyed and the task is bound to
no frame or to one at or after the destroy frame. -/
def State.discardsNow (s : State) (d : TaskDesc) : Bool :=
  d.handle != 0 &&
  match s.chanAt (handleKind d.handle) (handleIndex d.handle) with
  | some c => decide (c.gen ≠ handleGen d.handle) ||
      (decide (c.st = .draining) && (!d.framed || c.destroyFrame.all (fun k => decide (k ≤ d.frame))))
  | none => true

/-- Change one item of a pail by its SEQ. -/
def State.modItem (s : State) (p seq : Nat) (f : Item → Item) : State :=
  s.modPail p (fun q => { q with items := q.items.map (fun i => if i.seq == seq then f i else i) })

/-- Retire a bad item unserved (R402). -/
def State.retireBad (s : State) (p seq : Nat) : State :=
  (((s.modItem p seq (fun i => { i with phase := .done })).releaseDone p).bump R.PAR_BAD_CNT).raise F.PAR_EVT_BAD_ITEM

/-- Count a framed item dispatched after E(n) (R407). The record of a frame is written at its first late item, whose count is 1 (DESIGN
CHOICE: R407 and R412 do not say when in the frame). -/
def State.lateItem (s : State) (d : TaskDesc) : State :=
  if d.framed && decide (s.eAt d.frame < s.now) then
    let t := (s.bump R.PAR_LATE_CNT).raise F.PAR_EVT_LATE
    if t.par.lateSeen && t.par.lateFrame == d.frame then t
    else
      let u := t.tally 0x0E06 [d.frame, d.kind, 1]
      { u with par := { u.par with lateFrame := d.frame, lateSeen := true } }
  else s

/-- Place one item into a service slot (R403 to R407); an injection may keep it from completing (R520, 0x03). -/
def State.place (s : State) (e : Nat) (q : Pail) (i : Item) : State :=
  let n := s.par.served + 1
  let d := i.task.getD ⟨0, false, false, 0, 0, 0, 0, 0⟩
  let drop := s.discards d
  let halt := s.opportunity 0x03 e 0
  let s1 := halt.2.modItem q.num i.seq (fun j => { j with phase := .inService e, discard := drop, since := s.now, stuck := halt.1 })
  let s2 := { s1 with par := { s1.par with served := n } }.modPail q.num (fun x => { x with lastServed := n })
  let s3 := (s2.add64 R.PAR_DISPATCH_LO 1).lateItem d
  (((if d.flowed then s3.syncFlow d.flow else s3).syncPar).syncEngine e).serveNext e

/-- Dispatch, retiring bad items on the way, with `n` tries. -/
def State.dispatchGo (s : State) (e : Nat) : Nat → State
  | 0 => s
  | n + 1 =>
    match s.pick e with
    | none => s
    | some (q, i) =>
      let r := s.pailRead q
      if r.1 then (((r.2.modItem q.num i.seq (fun j => { j with phase := .void })).releaseDone q.num).syncPar).dispatchGo e n
      else if i.task.any (fun d => taskOk q d) then r.2.place e q i
      else (r.2.retireBad q.num i.seq).dispatchGo e n

/-- A corrected single-bit error of the local store (R102). -/
def State.eccCorrected (s : State) (e granule : Nat) : State :=
  (((s.detect 1).bump R.CE_ECC_CNT e).raise F.CE_EVT_ECC_CORR e).tally 0x0205 [e, granule]

/-- DISPATCH (R403): one item for one engine; OVER_SHARE is recorded for kinds past their SHARE; `granule` names a
local store granule in which a single-bit error was corrected; an injected error that names none is reported at granule 0
(DESIGN CHOICE: R102 and R520 give no granule). -/
def doDispatch (e : Nat) (granule : Option Nat) (s : State) : State :=
  let items := (s.par.pails.map (fun q => q.items.length)).sum
  let s1 := s.dispatchGo e (items + 1)
  let s2 := match s1.runSection e with
    | none => s1
    | some x => s1.each x.kinds (fun k u => u.overShare e k.order)
  let ecc := s2.opportunity 1 e 0
  let s3 := match granule with
    | some g => ecc.2.eccCorrected e g
    | none => if ecc.1 then ecc.2.eccCorrected e 0 else ecc.2
  let dbl := s3.opportunity 2 e 0
  let s4 := if dbl.1 then dbl.2.engineFault e 1 else dbl.2
  let ins := s4.opportunity 5 e 0
  if ins.1 then ins.2.engineFault e 4 else ins.2

/-- ITEM_COMPLETE (R405): the item leaves its engine, RD passes completed items in pail order. `used` is the clocks of its kind,
what the item has read from the switch and what it sends on. Its output reaches the switch now and not before
(R103): an item that a fault returned has sent nothing, and the DvoreLink frames that DITHERPACK hands over one by one are
those that SEPARATE_BAND counts as sent, which no later run sends again. The output of a discarded task is discarded and
counted (R127), and so is that of a task whose channel has come to its destroy frame meanwhile. -/
def doItemComplete (e p seq : Nat) (used : ItemUse) (s : State) : State :=
  match (s.pail p).bind (fun q => q.items.find? (fun i => i.seq == seq && decide (i.phase = .inService e) && !i.stuck)) with
  | none => s
  | some i =>
    let d := i.task.getD ⟨0, false, false, 0, 0, 0, 0, 0⟩
    let order := match s.runSection e with
      | some x => ((x.kinds.find? (fun k => k.kind == d.kind)).map KindEntry.order).getD 0
      | none => 0
    let drop := i.discard || s.discardsNow d
    let s1 := (s.modItem p seq (fun j => { j with phase := .done })).releaseDone p
    let s2 := (s1.add64 R.CE_ITEMS_LO 1 e).useClocks e order used.clocks
    let s3 := if drop then
        ((s2.bump R.CH_DISCARD_CNT).raise F.CH_EVT_DISCARD).modChan (handleKind d.handle) (handleIndex d.handle)
          (fun c => { c with discarded := c.discarded + 1 })
      else s2.giveCells e order d.frame d.unit used.gives
    let s4 := s3.takeCells e used.takes
    ((((if d.flowed then s4.syncFlow d.flow else s4).syncPar).syncEngine e).serveNext e).showTesting e

def execDispatch (engine : Fin 12) (granule : Option Nat) (s : State) : Host.Outcome State Fault Refusal :=
  .next (doDispatch engine.val granule s)
def execItemComplete (engine : Fin 12) (pail : Fin 256) (seq : Nat) (used : ItemUse) (s : State) :
    Host.Outcome State Fault Refusal := .next (doItemComplete engine.val pail.val seq used s)

end Sys2Proof.Machine
end

