-- ==== Sys2Proof/Machine/Dispatch.lean ====
section
/-! DEFINITION. One arm per command: the one call of its meaning, or its rejection by name. -/
namespace Sys2Proof.Machine
open Sys2Proof

def exec (i : Instr) (s : State) : Host.Outcome State Fault Refusal :=
  match i with
  | .registerWrite who req => Sys2Proof.Machine.execRegisterWrite who req s
  | .rcRead who addr len => Sys2Proof.Machine.execRcRead who addr len s
  | .consume who addr => Sys2Proof.Machine.execConsume who addr s
  | .readAbandoned who addr => Sys2Proof.Machine.execReadAbandoned who addr s
  | .frameBoundary => Sys2Proof.Machine.execFrameBoundary s
  | .workStart => Sys2Proof.Machine.execWorkStart s
  | .forecast frame => Sys2Proof.Machine.execForecast frame s
  | .forecastLate frame => Sys2Proof.Machine.execForecastLate frame s
  | .modelUpdate frame => Sys2Proof.Machine.execModelUpdate frame s
  | .bandUnsent frame endpoint => Sys2Proof.Machine.execBandUnsent frame endpoint s
  | .bgEscalate activity => Sys2Proof.Machine.execBgEscalate activity s
  | .bgRestored activity => Sys2Proof.Machine.execBgRestored activity s
  | .advanceWrite value => Sys2Proof.Machine.execAdvanceWrite value s
  | .modeRequest value => Sys2Proof.Machine.execModeRequest value s
  | .modeChange => Sys2Proof.Machine.execModeChange s
  | .rateChange => Sys2Proof.Machine.execRateChange s
  | .precisionChange => Sys2Proof.Machine.execPrecisionChange s
  | .dormantHandover => Sys2Proof.Machine.execDormantHandover s
  | .strLoad value => Sys2Proof.Machine.execStrLoad value s
  | .strValidated => Sys2Proof.Machine.execStrValidated s
  | .strApplied => Sys2Proof.Machine.execStrApplied s
  | .standinReady => Sys2Proof.Machine.execStandinReady s
  | .strEngineReady signature => Sys2Proof.Machine.execStrEngineReady signature s
  | .strHandbackFail reason => Sys2Proof.Machine.execStrHandbackFail reason s
  | .mergeDone => Sys2Proof.Machine.execMergeDone s
  | .strAbort => Sys2Proof.Machine.execStrAbort s
  | .sigTestStart spareOk reference => Sys2Proof.Machine.execSigTestStart spareOk reference s
  | .sigTestDone signature again => Sys2Proof.Machine.execSigTestDone signature again s
  | .sigNow engine => Sys2Proof.Machine.execSigNow engine s
  | .ceFault engine code => Sys2Proof.Machine.execCeFault engine code s
  | .itemOvertime engine => Sys2Proof.Machine.execItemOvertime engine s
  | .ceReload engine signature => Sys2Proof.Machine.execCeReload engine signature s
  | .ceQuarantine engine on => Sys2Proof.Machine.execCeQuarantine engine on s
  | .ceRetry engine => Sys2Proof.Machine.execCeRetry engine s
  | .create pail d => Sys2Proof.Machine.execCreate pail d s
  | .destroy pail d => Sys2Proof.Machine.execDestroy pail d s
  | .start pail d => Sys2Proof.Machine.execStart pail d s
  | .stop pail d => Sys2Proof.Machine.execStop pail d s
  | .setParam pail d => Sys2Proof.Machine.execSetParam pail d s
  | .getParam pail d => Sys2Proof.Machine.execGetParam pail d s
  | .clearSet pail d => Sys2Proof.Machine.execClearSet pail d s
  | .copySet pail d => Sys2Proof.Machine.execCopySet pail d s
  | .commit pail d => Sys2Proof.Machine.execCommit pail d s
  | .cancel pail d => Sys2Proof.Machine.execCancel pail d s
  | .cueStore pail d => Sys2Proof.Machine.execCueStore pail d s
  | .cueLoad pail d => Sys2Proof.Machine.execCueLoad pail d s
  | .cueFire pail d => Sys2Proof.Machine.execCueFire pail d s
  | .wait pail d => Sys2Proof.Machine.execWait pail d s
  | .query pail d => Sys2Proof.Machine.execQuery pail d s
  | .chDrained kind index => Sys2Proof.Machine.execChDrained kind index s
  | .packetReceive stream pathB packet => Sys2Proof.Machine.execPacketReceive stream pathB packet s
  | .streamNoSignal stream => Sys2Proof.Machine.execStreamNoSignal stream s
  | .pathLost stream pathB => Sys2Proof.Machine.execPathLost stream pathB s
  | .igmpQuery port version group => Sys2Proof.Machine.execIgmpQuery port version group s
  | .jobSubmit value => Sys2Proof.Machine.execJobSubmit value s
  | .jobDone => Sys2Proof.Machine.execJobDone s
  | .composeBand frame => Sys2Proof.Machine.execComposeBand frame s
  | .separateBand frame => Sys2Proof.Machine.execSeparateBand frame s
  | .wbComplete rect => Sys2Proof.Machine.execWbComplete rect s
  | .wbIncomplete rect => Sys2Proof.Machine.execWbIncomplete rect s
  | .coefLoad value => Sys2Proof.Machine.execCoefLoad value s
  | .coefLoaded => Sys2Proof.Machine.execCoefLoaded s
  | .curveLoad value => Sys2Proof.Machine.execCurveLoad value s
  | .curveLoaded => Sys2Proof.Machine.execCurveLoaded s
  | .accRead frame => Sys2Proof.Machine.execAccRead frame s
  | .accMissed frame => Sys2Proof.Machine.execAccMissed frame s
  | .windowClose zone => Sys2Proof.Machine.execWindowClose zone s
  | .calEvaluate zone => Sys2Proof.Machine.execCalEvaluate zone s
  | .calSkipped zone => Sys2Proof.Machine.execCalSkipped zone s
  | .gainLoad value => Sys2Proof.Machine.execGainLoad value s
  | .clearFailedMarks => Sys2Proof.Machine.execClearFailedMarks s
  | .voidOpenWindows => Sys2Proof.Machine.execVoidOpenWindows s
  | .modelLoad value => Sys2Proof.Machine.execModelLoad value s
  | .telemStale endpoint => Sys2Proof.Machine.execTelemStale endpoint s
  | .thermalFit endpoint => Sys2Proof.Machine.execThermalFit endpoint s
  | .fixtureFrame frame => Sys2Proof.Machine.execFixtureFrame frame s
  | .sacnData frame univ => Sys2Proof.Machine.execSacnData frame univ s
  | .sacnLate frame univ => Sys2Proof.Machine.execSacnLate frame univ s
  | .sacnSync frame sync => Sys2Proof.Machine.execSacnSync frame sync s
  | .universeDiscovery => Sys2Proof.Machine.execUniverseDiscovery s
  | .sacnHoldResend => Sys2Proof.Machine.execSacnHoldResend s
  | .univTerminated univ => Sys2Proof.Machine.execUnivTerminated univ s
  | .portEnable port on => Sys2Proof.Machine.execPortEnable port on s
  | .ddShift frame port conf faults => Sys2Proof.Machine.execDdShift frame port conf faults s
  | .shiftLate frame port => Sys2Proof.Machine.execShiftLate frame port s
  | .ddSyncEdge => Sys2Proof.Machine.execDdSyncEdge s
  | .syncLost => Sys2Proof.Machine.execSyncLost s
  | .senseWindow frame port nak => Sys2Proof.Machine.execSenseWindow frame port nak s
  | .sensorRead group first second => Sys2Proof.Machine.execSensorRead group first second s
  | .startUpWalk port found => Sys2Proof.Machine.execStartUpWalk port found s
  | .idleWalk port found => Sys2Proof.Machine.execIdleWalk port found s
  | .releaseBlanked port => Sys2Proof.Machine.execReleaseBlanked port s
  | .testStart port => Sys2Proof.Machine.execTestStart port s
  | .testEnd port => Sys2Proof.Machine.execTestEnd port s
  | .timeFrame ring => Sys2Proof.Machine.execTimeFrame ring s
  | .linkDelayRequest link => Sys2Proof.Machine.execLinkDelayRequest link s
  | .linkFrameReceive link op t2 t3 => Sys2Proof.Machine.execLinkFrameReceive link op t2 t3 s
  | .joinRequest ring even odd join faults missed => Sys2Proof.Machine.execJoinRequest ring even odd join faults missed s
  | .grantUpdate ring => Sys2Proof.Machine.execGrantUpdate ring s
  | .telemetryReceive ring addr even odd records => Sys2Proof.Machine.execTelemetryReceive ring addr even odd records s
  | .reachTimeout ring position odd => Sys2Proof.Machine.execReachTimeout ring position odd s
  | .holdFrame ring => Sys2Proof.Machine.execHoldFrame ring s
  | .darkBroadcast ring => Sys2Proof.Machine.execDarkBroadcast ring s
  | .ptpMessage port m => Sys2Proof.Machine.execPtpMessage port m s
  | .syncSend => Sys2Proof.Machine.execSyncSend s
  | .announceSend => Sys2Proof.Machine.execAnnounceSend s
  | .delayReqSend => Sys2Proof.Machine.execDelayReqSend s
  | .wclkEdge => Sys2Proof.Machine.execWclkEdge s
  | .holdoverEnter => Sys2Proof.Machine.execHoldoverEnter s
  | .slewDone => Sys2Proof.Machine.execSlewDone s
  | .stepped => Sys2Proof.Machine.execStepped s
  | .timeSet => Sys2Proof.Machine.execTimeSet s
  | .applyStep => Sys2Proof.Machine.execApplyStep s
  | .frameReceive link frame => Sys2Proof.Machine.execFrameReceive link frame s
  | .pauseBreak link => Sys2Proof.Machine.execPauseBreak link s
  | .pauseBreakEnd link => Sys2Proof.Machine.execPauseBreakEnd link s
  | .eyeMeasure link width height => Sys2Proof.Machine.execEyeMeasure link width height s
  | .eqRetrain link width height => Sys2Proof.Machine.execEqRetrain link width height s
  | .linkDown link cause => Sys2Proof.Machine.execLinkDown link cause s
  | .linkUp link => Sys2Proof.Machine.execLinkUp link s
  | .arpRequest link ip => Sys2Proof.Machine.execArpRequest link ip s
  | .arpUnresolved link ip => Sys2Proof.Machine.execArpUnresolved link ip s
  | .arpExpire link ip => Sys2Proof.Machine.execArpExpire link ip s
  | .exactEntryWrite link entry value => Sys2Proof.Machine.execExactEntryWrite link entry value s
  | .wake frame savedOk => Sys2Proof.Machine.execWake frame savedOk s
  | .wakeAlarm savedOk => Sys2Proof.Machine.execWakeAlarm savedOk s
  | .dispatch engine granule => Sys2Proof.Machine.execDispatch engine granule s
  | .itemComplete engine pail seq used => Sys2Proof.Machine.execItemComplete engine pail seq used s
  | .pailReserve pail producer => Sys2Proof.Machine.execPailReserve pail producer s
  | .producerResume pail => Sys2Proof.Machine.execProducerResume pail s
  | .lengthWordWrite pail seq payload => Sys2Proof.Machine.execLengthWordWrite pail seq payload s
  | .hwConsumerRead pail => Sys2Proof.Machine.execHwConsumerRead pail s
  | .flush pail => Sys2Proof.Machine.execFlush pail s
  | .plWrWrite pail value => Sys2Proof.Machine.execPlWrWrite pail value s
  | .plRdWrite pail value => Sys2Proof.Machine.execPlRdWrite pail value s
  | .plPop who pail => Sys2Proof.Machine.execPlPop who pail s
  | .popWaitExpire pail => Sys2Proof.Machine.execPopWaitExpire pail s
  | .hostLinkUp speed width => Sys2Proof.Machine.execHostLinkUp speed width s
  | .hostLinkDown => Sys2Proof.Machine.execHostLinkDown s
  | .flr => Sys2Proof.Machine.execFlr s
  | .bar2Write addr bytes => Sys2Proof.Machine.execBar2Write addr bytes s
  | .bridgeRead who addr len => Sys2Proof.Machine.execBridgeRead who addr len s
  | .bridgeWrite who addr bytes => Sys2Proof.Machine.execBridgeWrite who addr bytes s
  | .boostFail => Sys2Proof.Machine.execBoostFail s
  | .boostStop => Sys2Proof.Machine.execBoostStop s
  | .msixUnmask vector => Sys2Proof.Machine.execMsixUnmask vector s
  | .semTake who sem value => Sys2Proof.Machine.execSemTake who sem value s
  | .semGive who sem value => Sys2Proof.Machine.execSemGive who sem value s
  | .semRevoked sem => Sys2Proof.Machine.execSemRevoked sem s
  | .poll => Sys2Proof.Machine.execPoll s
  | .aerUncorrectable status => Sys2Proof.Machine.execAerUncorrectable status s
  | .memAccess channel reqs => Sys2Proof.Machine.execMemAccess channel reqs s
  | .scrubPass => Sys2Proof.Machine.execScrubPass s
  | .scrubBehind minutes => Sys2Proof.Machine.execScrubBehind minutes s
  | .memSleepEnter level channel => Sys2Proof.Machine.execMemSleepEnter level channel s
  | .memSleepExit channel => Sys2Proof.Machine.execMemSleepExit channel s
  | .refreshDerate package refresh => Sys2Proof.Machine.execRefreshDerate package refresh s
  | .bellAHeartbeat => Sys2Proof.Machine.execBellAHeartbeat s
  | .bellBHeartbeat => Sys2Proof.Machine.execBellBHeartbeat s
  | .heartbeatReceive bellB hb info => Sys2Proof.Machine.execHeartbeatReceive bellB hb info s
  | .bellSilent bellB => Sys2Proof.Machine.execBellSilent bellB s
  | .takeover => Sys2Proof.Machine.execTakeover s
  | .seekTimeout => Sys2Proof.Machine.execSeekTimeout s
  | .fenceInQualified => Sys2Proof.Machine.execFenceInQualified s
  | .fencePulse => Sys2Proof.Machine.execFencePulse s
  | .fenceInPulse => Sys2Proof.Machine.execFenceInPulse s
  | .fenceAlarm => Sys2Proof.Machine.execFenceAlarm s
  | .switch value => Sys2Proof.Machine.execSwitch value s
  | .switchHandover => Sys2Proof.Machine.execSwitchHandover s
  | .switchTimeout => Sys2Proof.Machine.execSwitchTimeout s
  | .forceActive => Sys2Proof.Machine.execForceActive s
  | .unfence => Sys2Proof.Machine.execUnfence s
  | .resync => Sys2Proof.Machine.execResync s
  | .mirrorReceive mseq frame band tcrc what => Sys2Proof.Machine.execMirrorReceive mseq frame band tcrc what s
  | .ackReceive mseq => Sys2Proof.Machine.execAckReceive mseq s
  | .mirrorResend mseq => Sys2Proof.Machine.execMirrorResend mseq s
  | .mirrorLag => Sys2Proof.Machine.execMirrorLag s
  | .resyncReqReceive reason => Sys2Proof.Machine.execResyncReqReceive reason s
  | .snapshotReceive part => Sys2Proof.Machine.execSnapshotReceive part s
  | .sigCompare frame partner => Sys2Proof.Machine.execSigCompare frame partner s
  | .healthReport report => Sys2Proof.Machine.execHealthReport report s
  | .healthStale => Sys2Proof.Machine.execHealthStale s
  | .powerOn => Sys2Proof.Machine.execPowerOn s
  | .resetN => Sys2Proof.Machine.execResetN s
  | .swReset value => Sys2Proof.Machine.execSwReset value s
  | .supplyFault supply => Sys2Proof.Machine.execSupplyFault supply s
  | .thermalTrip die => Sys2Proof.Machine.execThermalTrip die s
  | .thermalRestart => Sys2Proof.Machine.execThermalRestart s
  | .refLoss ref156 ppm => Sys2Proof.Machine.execRefLoss ref156 ppm s
  | .xtalFallback => Sys2Proof.Machine.execXtalFallback s
  | .xtalRestored => Sys2Proof.Machine.execXtalRestored s
  | .pllLockLoss pll => Sys2Proof.Machine.execPllLockLoss pll s
  | .pllRestart pll => Sys2Proof.Machine.execPllRestart pll s
  | .releaseHeld unit which clock us => Sys2Proof.Machine.execReleaseHeld unit which clock us s
  | .wdogExpired core => Sys2Proof.Machine.execWdogExpired core s
  | .parity addr => Sys2Proof.Machine.execParity addr s
  | .eccReset table unit word => Sys2Proof.Machine.execEccReset table unit word s
  | .blkRst value => Sys2Proof.Machine.execBlkRst value s
  | .idleAck unit => Sys2Proof.Machine.execIdleAck unit s
  | .idleTimeout unit => Sys2Proof.Machine.execIdleTimeout unit s
  | .starterAttempt readFault => Sys2Proof.Machine.execStarterAttempt readFault s
  | .startUp banks => Sys2Proof.Machine.execStartUp banks s
  | .startDone => Sys2Proof.Machine.execStartDone s
  | .dormantEnter => Sys2Proof.Machine.execDormantEnter s
  | .injectionArmed key => Sys2Proof.Machine.execInjectionArmed key s
  | .injectionCancelled key => Sys2Proof.Machine.execInjectionCancelled key s
  | .tallyRecord interrupted => Sys2Proof.Machine.execTallyRecord interrupted s
  | .tallyReportSecond => Sys2Proof.Machine.execTallyReportSecond s
  | .tallyMirror eraseFails programFails => Sys2Proof.Machine.execTallyMirror eraseFails programFails s
  | .checkValue unit a seq variant message => Sys2Proof.Machine.execCheckValue unit a seq variant message s
  | .fwLoad value => Sys2Proof.Machine.execFwLoad value s
  | .fwStaged outcome => Sys2Proof.Machine.execFwStaged outcome s
  | .quiesceAck => Sys2Proof.Machine.execQuiesceAck s
  | .quiesceTimeout => Sys2Proof.Machine.execQuiesceTimeout s
  | .fwHandover tableFails => Sys2Proof.Machine.execFwHandover tableFails s
  | .fwSelfConfirm tableFails => Sys2Proof.Machine.execFwSelfConfirm tableFails s
  | .fwConfirm tableFails => Sys2Proof.Machine.execFwConfirm tableFails s
  | .fwRevert => Sys2Proof.Machine.execFwRevert s
  | .confirmWindowExpire => Sys2Proof.Machine.execConfirmWindowExpire s
  | .fwAbort => Sys2Proof.Machine.execFwAbort s
  | .burnFwCounter => Sys2Proof.Machine.execBurnFwCounter s
  | .burnStrCounter => Sys2Proof.Machine.execBurnStrCounter s
  | .fenceInReleased => Sys2Proof.Machine.execFenceInReleased s
  | .refRestored ref156 => Sys2Proof.Machine.execRefRestored ref156 s
  | .linkLoopbackTest port pass => Sys2Proof.Machine.execLinkLoopbackTest port pass s
  | .d3hot enter => Sys2Proof.Machine.execD3hot enter s
  | .markWaitExpire => Sys2Proof.Machine.execMarkWaitExpire s
  | .picturePartialTimeout stream => Sys2Proof.Machine.execPicturePartialTimeout stream s
  | .selfCheckFailed => Sys2Proof.Machine.execSelfCheckFailed s

end Sys2Proof.Machine
end

