-- ==== Sys2Proof/Machine/Board.lean ====
section
/-! DEFINITION. The package, the ball map, the supplies and the limits, as constant data (R571 to R586): what the board
sees of the device beside its registers. Voltages are in mV, currents in mA, times in ns. -/
namespace Sys2Proof.Machine

/-! ## The PCI Express configuration header (R571, R572) -/

/-- The fields of the configuration header that identify the function. -/
structure ConfigHeader where
  vendor : Nat
  device : Nat
  revision : Nat
  classCode : Nat
  subsystemVendor : Nat
  subsystem : Nat
  deriving DecidableEq, Repr

/-- The header of a device of a stepping (R572). -/
def configHeader (stepping : Nat) : ConfigHeader := ⟨0x1FD4, 0x9612, stepping, 0x048000, 0x1FD4, 0x0001⟩

/-- The stepping codes that are issued (R571). -/
def steppingIssued (code : Nat) : Bool := code == 0x10 || code == 0x11 || code == 0x20

/-! ## The ball map (R574 to R578) -/

/-- What a ball carries. A differential pair's negative half has `neg` set. -/
inductive Ball where
  | vss | vddq | vdd2h | vddCore | vddSram | vddIo18 | vddByre | avddSd | avddSdh
  | vddDd (bank : Nat)
  | mem (controller channel : Nat) (name : String)
  | memReset (controller : Nat)
  | memZq (controller : Nat)
  | laneTx (lane : Nat) (neg : Bool)
  | laneRx (lane : Nat) (neg : Bool)
  | pcieTx (lane : Nat) (neg : Bool)
  | pcieRx (lane : Nat) (neg : Bool)
  | m0Tx (neg : Bool)
  | m0Rx (neg : Bool)
  | ref156 (neg : Bool)
  | dd (port index : Nat)
  | control (name : String)
  deriving DecidableEq, Repr

/-- The letters of the ball rows 1 to 46, in order (R574). -/
def ballRows : List String :=
  ["A", "B", "C", "D", "E", "F", "G", "H", "J", "K", "L", "M", "N", "P", "T", "U", "V", "W", "Y"] ++
  ["AA", "AB", "AC", "AD", "AE", "AF", "AG", "AH", "AJ", "AK", "AL", "AM", "AN", "AP", "AT", "AU", "AV", "AW", "AY"] ++
  ["BA", "BB", "BC", "BD", "BE", "BF", "BG", "BH"]

/-- The number of a row from its letters; 0 for letters that name no row. -/
def ballRow (letters : String) : Nat :=
  let i := ballRows.findIdx (· == letters)
  if i < 46 then i + 1 else 0

/-- The grid of one memory channel, by field row (R575). -/
def memGrid : List (List String) :=
  [["CK_T", "CK_C", "VSS", "CS", "CA0"], ["CA1", "CA2", "CA3", "CA4", "CA5"],
   ["CA6", "VSS", "WCK0_T", "WCK0_C", "RDQS0_T"], ["RDQS0_C", "DMI0", "DQ0", "DQ1", "DQ2"],
   ["DQ3", "DQ4", "DQ5", "DQ6", "DQ7"], ["VSS", "WCK1_T", "WCK1_C", "RDQS1_T", "RDQS1_C"],
   ["DMI1", "DQ8", "DQ9", "DQ10", "DQ11"], ["DQ12", "DQ13", "DQ14", "DQ15", "VSS"]]

/-- A ball of the memory bands, by the controllers of the band's left and right halves, the field row and the package
column (R575). -/
def memBall (left right i col : Nat) : Ball :=
  let grid (c k : Nat) : Ball :=
    let name := (memGrid.getD (i - 1) []).getD (k % 5) "VSS"
    if name = "VSS" then .vss else .mem c (k / 5) name
  if 2 ≤ col ∧ col ≤ 21 then grid left (col - 2)
  else if 26 ≤ col ∧ col ≤ 45 then grid right (col - 26)
  else if col = 22 ∧ i = 1 then .memReset left
  else if col = 22 ∧ i = 2 then .memZq left
  else if col = 25 ∧ i = 1 then .memReset right
  else if col = 25 ∧ i = 2 then .memZq right
  else if i % 2 = 0 then .vss
  else if col = 23 ∨ col = 24 then .vdd2h else .vddq

/-- The control signals of columns 43, 42 and 41, from row J (R577). -/
def controlBalls : List (List String) :=
  [["BELLA_TXP", "BELLA_TXN", "VSS"], ["BELLA_RXP", "BELLA_RXN", "VSS"], ["FENCE_OUT", "FENCE_IN", "THERMTRIP_N"],
   ["RESET_N", "REF25", "VSS"], ["XTAL32_IN", "XTAL32_OUT", "VSS"], ["WCLK_IN", "DD_SYNC", "VSS"],
   ["FL_CLK", "FL_CS_N", "FL_DQS"], ["FL_DQ0", "FL_DQ1", "FL_DQ2"], ["FL_DQ3", "FL_DQ4", "FL_DQ5"],
   ["FL_DQ6", "FL_DQ7", "FL_RESET_N"], ["AVS_CLK", "AVS_MDATA", "AVS_SDATA"], ["TCK", "TMS", "TDI"],
   ["TDO", "TRST_N", "VSS"]]

/-- A direct-drive ball or a supply of its bank, from the first port of the bank pair, the row and the place in the
pair's columns, 0 to 7 the ports and 8 the supply (R576). -/
def ddBall (firstBank row place : Nat) : Ball :=
  let b := firstBank + (row - 9) / 15
  let i := (row - 9) % 15
  if place = 8 then (if i % 2 = 0 then .vddDd b else .vss) else .dd (8 * b + place) i

/-- A ball of rows 9 to 38 (R576, R577). -/
def middleBall (row col : Nat) : Ball :=
  let d := row - 9
  let pair (tx rx : Nat → Bool → Ball) (neg : Bool) : Ball := if d % 2 = 0 then tx (d / 2) neg else rx (d / 2) neg
  if col ≤ 2 then
    if d < 24 then pair .laneTx .laneRx (col == 2) else if row = 33 then .ref156 (col == 2) else .vss
  else if col = 4 ∨ col = 5 then
    if d < 8 then pair .pcieTx .pcieRx (col == 5)
    else if row < 17 then .vss else if col = 4 then .avddSd else .avddSdh
  else if col ≤ 6 then .vss
  else if col ≤ 15 then ddBall 0 row (col - 7)
  else if col ≤ 31 then
    if (row + col) % 2 = 1 then .vss
    else if col = 16 ∨ col = 31 then .vddIo18
    else if col = 17 ∨ col = 29 ∨ col = 30 then .vddSram
    else if col = 18 then .vddByre else .vddCore
  else if col ≤ 40 then ddBall 2 row (40 - col)
  else if col ≤ 43 then
    if d < 13 then
      let name := (controlBalls.getD d []).getD (43 - col) "VSS"
      if name = "VSS" then .vss else .control name
    else if col = 43 then .avddSd else if col = 42 then .avddSdh else .vss
  else if col = 44 then .vss
  else if d < 24 then pair (fun m n => .laneTx (12 + m) n) (fun m n => .laneRx (12 + m) n) (col == 45)
  else if row = 33 then .m0Tx (col == 45)
  else if row = 34 then .m0Rx (col == 45)
  else .vss

/-- What the ball at a row (1 to 46) and a column (1 to 46) carries (R574). -/
def ballAt (row col : Nat) : Ball :=
  if row ≤ 8 then memBall 0 1 row col
  else if 39 ≤ row then memBall 2 3 (47 - row) col
  else middleBall row col

/-- How many balls carry a supply (R578). -/
def ballCount (p : Ball → Bool) : Nat :=
  ((List.range 46).map (fun r => ((List.range 46).filter (fun c => p (ballAt (r + 1) (c + 1)))).length)).sum

/-- A ball that carries a signal and no supply. -/
def Ball.isSignal : Ball → Bool
  | .vss | .vddq | .vdd2h | .vddCore | .vddSram | .vddIo18 | .vddByre | .avddSd | .avddSdh | .vddDd _ => false
  | _ => true

/-! ## Supplies, pins and limits (R573, R579 to R586) -/

/-- One supply: its range, the absolute maximum, and the currents of the columns of R580. VDD_CORE's range is relative
to the request, here for the nominal one; a supply removed in Dormant draws nothing. -/
structure SupplyRow where
  name : String
  minMv : Rat
  nominalMv : Rat
  maxMv : Rat
  absMaxMv : Nat
  showMaxMa : Nat
  showTypMa : Nat
  holdTypMa : Nat
  warmTypMa : Nat
  dormantMa : Nat
  deriving DecidableEq, Repr

/-- The supplies of R580 with the ratings of R585; VDD_DD in its 3.3 V range. -/
def supplyRows : List SupplyRow :=
  [⟨"VDD_CORE", 750 - 750 * 3 / 100, 750, 750 + 750 * 3 / 100, 950, 34000, 21400, 5600, 3200, 0⟩,
   ⟨"VDD_SRAM", 776, 800, 824, 950, 4000, 2400, 800, 600, 0⟩,
   ⟨"VDD_BYRE", 776, 800, 824, 950, 50, 30, 30, 30, 188⟩,
   ⟨"VDDQ", 470, 500, 570, 650, 4000, 2500, 300, 200, 1⟩,
   ⟨"VDD2H", 1010, 1050, 1120, 1300, 1500, 1000, 200, 150, 1⟩] ++
  [⟨"VDD_IO18", 1710, 1800, 1890, 2100, 500, 300, 200, 150, 0⟩,
   ⟨"VDD_DD", 3140, 3300, 3460, 3800, 1000, 200, 50, 0, 0⟩,
   ⟨"AVDD_SD", 825, 850, 875, 1000, 7000, 5600, 3000, 2600, 0⟩,
   ⟨"AVDD_SDH", 1164, 1200, 1236, 1400, 2100, 1700, 700, 500, 0⟩]

/-- A supply monitor's verdict on a voltage that has stood for some ns: outside Min − 2 % to Max + 2 % for 10 µs (R582). -/
def supplyOut (r : SupplyRow) (mv : Rat) (ns : Nat) : Bool :=
  (decide (mv < r.minMv * 98 / 100) || decide (r.maxMv * 102 / 100 < mv)) && decide (10000 ≤ ns)

/-- What a high of FENCE_IN is, by its length (R584): a pulse that toggles FTOG, the qualified level, or neither. -/
inductive FenceHigh where
  | pulse | qualified | neither
  deriving DecidableEq, Repr

/-- The kind of a high of FENCE_IN that lasts some ns. -/
def fenceHigh (ns : Nat) : FenceHigh :=
  if 400 ≤ ns then .qualified else if 50 ≤ ns ∧ ns ≤ 300 then .pulse else .neither

/-- A high or a low of DD_SYNC counts when it lasts 100 ns (R584). -/
def ddSyncSeen (ns : Nat) : Bool := decide (100 ≤ ns)

/-- A low of RESET_N is surely seen from 100 µs, or 110 µs on the RC oscillator, and never below 61 µs; between them the
spec leaves it open (R584). -/
def resetSeen (onRc : Bool) (ns : Nat) : Option Bool :=
  if (if onRc then 110000 else 100000) ≤ ns then some true else if ns < 61000 then some false else none

/-- The clock inputs of R583: name, frequency in Hz and accuracy in ppm. -/
def clockInputs : List (String × Nat × Nat) :=
  [("REF25", 25000000, 50), ("REF156", 156250000, 100), ("XTAL32", 32768, 100), ("WCLK_IN", 48000, 100)]

/-- The package of R573, in µm: the body's side, the height, the ball pitch and the ball diameter, each nominal. -/
def packageUm : Nat × Nat × Nat × Nat := (52500, 3900, 1000, 600)

/-- The highest operating junction temperature and the temperature of the lid at 45 W for it, by θJC = 0.08 K/W (R586), in
tenths of a degree. -/
def lidLimit (watts : Rat) : Rat := 1050 - watts * 8 / 10

end Sys2Proof.Machine
end

