-- ==== Sys2Proof/Safety.lean ====
section
/-! DEFINITION. What counts as a sound state: the canonical form of the register file and of every memory, and what
a command may never undo. -/
namespace Sys2Proof.Machine

/-- A memory is in its canonical form: addresses strictly rising, and no entry equal to what an unlisted address reads as. -/
abbrev Memory.wf (unlisted : Byte) (m : List Host.Cell) : Bool := sparseWf (fun _ => unlisted) m

/-- The register file and the five memories are in their canonical form. -/
def State.canonical (s : State) : Bool :=
  sparseWf regReset s.regs && Memory.wf 0 s.bulk && Memory.wf 0 s.pailMem && Memory.wf 0 s.retSram &&
    Memory.wf 0 s.tallyRam && Memory.wf 0xFF s.flash

/-- What no command undoes: the queue stands as it is, what the device has sent stays sent, no free value is used twice,
a burnt rollback counter stays burnt (R561), and every other fuse stays as it is. -/
structure State.Continues (s t : State) : Prop where
  pending : t.pending = s.pending
  sent : s.outs <+: t.outs
  free : s.freeCount ≤ t.freeCount
  fwCounter : s.fuses.fwCounter ≤ t.fuses.fwCounter
  strCounter : s.fuses.strCounter ≤ t.fuses.strCounter
  fuses : t.fuses = { s.fuses with fwCounter := t.fuses.fwCounter, strCounter := t.fuses.strCounter }

/-! ## Frames -/

/-- The parts of the state beside the registers. -/
inductive Part where
  | regs | time | hiLatch | bulk | pailMem | retSram | tallyRam | flash | free | sys | str | eng | sig | cmd | par | host | tly
  | flt | red | ing | frames | layerKeep | mem | cmp | cal | sep | gov | links | dvl | fix | ddp | tim | fuses | pwr | upd
  deriving DecidableEq, Repr

/-- The fields that a record changes which finds the Tally's intake full (R532). -/
def lostFields : List (Field × Nat) := [(R.TLY_LOST, 0), (F.TLY_EVT_LOST, 0)]

/-- Bit `b` of the register at `a` belongs to a field element of the list. -/
def inFields (l : List (Field × Nat)) (a b : Nat) : Bool :=
  l.any (fun q => q.1.addr q.2 == a && (decide (q.1.lo ≤ b) && decide (b < q.1.lo + q.1.width)))

/-- The frame of a command: from `s` to `t`, every bit of every register stays but for the listed field elements and what
counts a dropped record, and every part of the state stays but for the listed ones; of the host link a reported event may
set a PBA bit, of the Tally it may lengthen the intake, count a lost record and note a rate limit; and what was sent stays
sent. With `.regs` listed, the registers are left open. -/
structure State.Leaves (s : State) (fields : List (Field × Nat)) (parts : List Part) (t : State) : Prop where
  pending : t.pending = s.pending
  outs : s.outs <+: t.outs
  regs : .regs ∉ parts → ∀ a b, inFields (fields ++ lostFields) a b = false → (t.reg a).getLsbD b = (s.reg a).getLsbD b
  time : .time ∉ parts → t.now = s.now ∧ t.uptime = s.uptime
  hiLatch : .hiLatch ∉ parts → t.hiLatch = s.hiLatch
  bulk : .bulk ∉ parts → ∀ a, t.bulkByte a = s.bulkByte a
  pailMem : .pailMem ∉ parts → ∀ a, t.pailByte a = s.pailByte a
  retSram : .retSram ∉ parts → ∀ a, t.retByte a = s.retByte a
  tallyRam : .tallyRam ∉ parts → ∀ a, t.tallyByte a = s.tallyByte a
  flash : .flash ∉ parts → ∀ a, t.flashByte a = s.flashByte a
  free : .free ∉ parts → t.freeCount = s.freeCount
  host : .host ∉ parts → t.host = { s.host with pba := t.host.pba }
  tly : .tly ∉ parts → t.tly = { s.tly with
    intake := t.tly.intake, lostIntake := t.tly.lostIntake, limits := t.tly.limits }
  sys : .sys ∉ parts → t.sys = s.sys
  str : .str ∉ parts → t.str = s.str
  eng : .eng ∉ parts → t.eng = s.eng
  sig : .sig ∉ parts → t.sig = s.sig
  cmd : .cmd ∉ parts → t.cmd = s.cmd
  par : .par ∉ parts → t.par = s.par
  flt : .flt ∉ parts → t.flt = s.flt
  red : .red ∉ parts → t.red = s.red
  ing : .ing ∉ parts → t.ing = s.ing
  frames : .frames ∉ parts → t.frames = s.frames
  layerKeep : .layerKeep ∉ parts → t.layerKeep = s.layerKeep
  mem : .mem ∉ parts → t.mem = s.mem
  cmp : .cmp ∉ parts → t.cmp = s.cmp
  cal : .cal ∉ parts → t.cal = s.cal
  sep : .sep ∉ parts → t.sep = s.sep
  gov : .gov ∉ parts → t.gov = s.gov
  links : .links ∉ parts → t.links = s.links
  dvl : .dvl ∉ parts → t.dvl = s.dvl
  fix : .fix ∉ parts → t.fix = s.fix
  ddp : .ddp ∉ parts → t.ddp = s.ddp
  tim : .tim ∉ parts → t.tim = s.tim
  fuses : .fuses ∉ parts → t.fuses = s.fuses
  pwr : .pwr ∉ parts → t.pwr = s.pwr
  upd : .upd ∉ parts → t.upd = s.upd

/-- The records a command passes to the Tally, in order: as many as its intake of 64 has room for are appended, at the
device time of `t`, and the others are counted as lost (R531, R532). -/
def State.Records (s : State) (l : List (Nat × List Nat)) (t : State) : Prop :=
  t.tly.intake = s.tly.intake ++ (l.take (64 - s.tly.intake.length)).map (fun q => ⟨q.1, t.nowNs % 2 ^ 64, q.2⟩) ∧
    t.tly.lostIntake = s.tly.lostIntake + (l.length - (64 - s.tly.intake.length))

/-- STR_LOAD_STAT after a load has completed: RESULT, CHECK and PHASE, SEQ one further, and STR_EVT.DONE set (R90). -/
def State.StrResult (s : State) (result check phase : Nat) (t : State) : Prop :=
  t.get F.STR_LOAD_STAT_RESULT = result ∧ t.get F.STR_LOAD_STAT_CHECK = check ∧ t.get F.STR_LOAD_STAT_PHASE = phase ∧
    t.get F.STR_LOAD_STAT_SEQ = (s.get F.STR_LOAD_STAT_SEQ + 1) % 2 ^ F.STR_LOAD_STAT_SEQ.width ∧ t.flag F.STR_EVT_DONE = true

/-- The field elements that a completed structure load writes. -/
def strResultFields : List (Field × Nat) :=
  [(F.STR_LOAD_STAT_RESULT, 0), (F.STR_LOAD_STAT_CHECK, 0), (F.STR_LOAD_STAT_PHASE, 0), (F.STR_LOAD_STAT_SEQ, 0), (F.STR_EVT_DONE, 0)]

/-- A status register after a load or a job has completed: RESULT and CHECK, SEQ one further, and its event bit set. -/
def State.LoadResult (s : State) (result check seq done : Field) (status number : Nat) (t : State) : Prop :=
  t.get result = status ∧ t.get check = number ∧ t.get seq = (s.get seq + 1) % 2 ^ seq.width ∧ t.flag done = true

/-- UPD_STAT after an update command has completed: RESULT and CHECK, SEQ one further, and UPD_EVT.DONE set. -/
def State.UpdResult (s : State) (result check : Nat) (t : State) : Prop :=
  t.get F.UPD_STAT_RESULT = result ∧ t.get F.UPD_STAT_CHECK = check ∧
    t.get F.UPD_STAT_SEQ = (s.get F.UPD_STAT_SEQ + 1) % 2 ^ F.UPD_STAT_SEQ.width ∧ t.flag F.UPD_EVT_DONE = true

/-- The field elements that a completed update command writes. -/
def updResultFields : List (Field × Nat) :=
  [(F.UPD_STAT_RESULT, 0), (F.UPD_STAT_CHECK, 0), (F.UPD_STAT_SEQ, 0), (F.UPD_EVT_DONE, 0)]

/-- CE_STAT.STATE of the twelve engines, which gating writes (R111). -/
def engineStates : List (Field × Nat) := (List.range 12).map (fun e => (F.CE_STAT_STATE, e))

/-! ## Commands of the command pails -/

/-- The state in which the command unit checks and carries out the command at the head of a command pail: RD has passed the
item, and the command is in flight towards its completion pail (R128, R132). -/
def State.taken (s : State) (pail cpail : Nat) (d : Desc) : State := ((s.takeItem pail).takeFlight pail cpail d).2

/-- The command with opcode `op` at the head of command pail `pail`, with completion pail `cpail`, is taken at once and passes
every check of R131: its descriptor is readable and no injection is armed, its route is usable, nothing of R129, R134 and R474
holds it back, and no Standby has to take it first. -/
structure State.Accepts (s : State) (op pail cpail : Nat) (d : Desc) : Prop where
  opcode : d.opcode = op
  readable : d.unreadable = false
  quiet : s.flt.armed = none
  bound : ∃ q, s.pail pail = some q ∧ q.role = 0
  usable : s.route pail = some cpail
  first : s.cmd.fenced.any (fun x => x.pail == pail) = false
  turn : s.mustHold pail cpail d = false
  alone : d.restricted = true → (s.takeItem pail).mirroring = false ∧ (s.takeItem pail).hasStandby = false
  passes : (s.taken pail cpail d).commandFail false d = none

end Sys2Proof.Machine
end

