-- ==== Sys2Proof/WellFormed.lean ====
section
/-! DEFINITION. Which commands a hardware event can carry: the ranges of their operands that their types do not fix. The
machine's step is total and does not look here; a command out of range stands for no event of the device. -/
namespace Sys2Proof
open Sys2Proof.Machine

/-- The size of BAR0, 64 MiB. -/
def bar0Size : Nat := 0x4000000

/-- Every number of a list fits in `w` bits. -/
def wordsIn (w : Nat) (l : List Nat) : Bool := l.all (fun x => decide (x < 2 ^ w))

/-- A write of a register: an offset in BAR0 and at least one byte, or a code of Max_Payload_Size (3 bits). -/
def WriteReq.wf : WriteReq → Bool
  | .bar0 addr bytes => decide (addr < bar0Size) && decide (1 ≤ bytes.length) && wordsIn 8 bytes
  | .cfg (.maxPayload code) => decide (code < 8)
  | .cfg (.msixControl _ _) => true

/-- The fields of a descriptor in their sizes (R129). -/
def Desc.wf (d : Desc) : Bool :=
  wordsIn 8 [d.opcode, d.flags, d.set, d.len] && wordsIn 32 [d.tag, d.handle, d.aux] && wordsIn 64 [d.frame] &&
    wordsIn 16 [d.param] && wordsIn 128 [d.value]

/-- What an item used names ports of its engine, 0 to 3 (R100). -/
def ItemUse.wf (u : ItemUse) : Bool := (u.takes ++ u.gives).all (fun q => decide (q.1 < 4))

/-- A transaction of the Bulk Tank lies in one 64-byte line of the 16 GiB (R440); a kernel's names its engine and its kind's ORDER. -/
def MemReq.wf (r : MemReq) : Bool :=
  r.kind.all (fun q => decide (q.1 < 12) && decide (q.2 < 8)) &&
  decide (r.addr + r.len ≤ 2 ^ 34) && decide (1 ≤ r.len) && decide (r.addr % 64 + r.len ≤ 64)

/-- The fields of a packet in their sizes. A packet with more SRDs or bytes than R150 accepts is a command too: it is dropped. -/
def RtpPacket.wf (p : RtpPacket) : Bool :=
  wordsIn 2 [p.version] && wordsIn 32 [p.ssrc, p.seq, p.timestamp] && p.srds.all (fun r => wordsIn 15 [r.row, r.offset] && wordsIn 8 r.data)

/-- A frame of bytes. -/
def RxFrame.wf (f : RxFrame) : Bool := wordsIn 8 f.bytes

/-- The fields of a JOIN record in their sizes (R293). -/
def JoinRec.wf (j : JoinRec) : Bool :=
  wordsIn 64 [j.serial] && wordsIn 32 [j.model, j.fw] && wordsIn 16 [j.w, j.h] && wordsIn 8 [j.depthMax, j.buffers, j.caps, j.proto]

/-- The fields of a telemetry record in their sizes (R295). -/
def TelemRec.wf : TelemRec → Bool
  | .join j => j.wf
  | .status shownSeq faults missed overflow reject epochDisc state ports =>
    wordsIn 32 [shownSeq, faults] && wordsIn 16 [missed, overflow, reject, epochDisc] && wordsIn 8 [state, ports]
  | .temp seq meas => wordsIn 32 [seq] && decide (-(2 ^ 15) ≤ meas) && decide (meas < 2 ^ 15)
  | .sensor wno lr lg lb _ _ _ => wordsIn 32 [wno, lr, lg, lb]
  | .linkstat fcs0 fcs1 crc => wordsIn 16 [fcs0, fcs1, crc]
  | .other type => wordsIn 8 [type]

/-- A pin of R319's order, and the pin and port that followed it (R344). -/
def PinFind.wf (f : PinFind) : Bool := decide (f.pinA < 15) && decide (f.pinB < 15) && decide (f.portB < 32)

/-- A sensor's report in its sizes (R341). -/
def SenseRead.wf : SenseRead → Bool
  | .nak => true
  | .pec => true
  | .report wno lr lg lb _ _ _ => wordsIn 32 [wno, lr, lg, lb]

/-- The header fields of a PTP message in their sizes. -/
def PtpMessage.wf (m : PtpMessage) : Bool := wordsIn 8 [m.domain] && wordsIn 80 [m.source] && wordsIn 32 [m.ip] && wordsIn 16 [m.seq]

/-- The fields of a heartbeat in their sizes (R465, R467). -/
def Heartbeat.wf (h : Heartbeat) : Bool :=
  wordsIn 2 [h.role] && wordsIn 16 [h.no, h.band] && wordsIn 32 [h.seq, h.epoch, h.dwell, h.mseq] && wordsIn 96 [h.origin, h.echo]

/-- A command whose operands are in range. -/
def Instr.wf : Instr → Bool
  | .registerWrite _ req => req.wf
  | .rcRead _ addr len => decide (addr < bar0Size) && decide (1 ≤ len)
  | .consume _ addr => decide (addr < bar0Size)
  | .readAbandoned _ addr => decide (addr < bar0Size)
  | .frameBoundary => true
  | .workStart => true
  | .forecast _ => true
  | .forecastLate _ => true
  | .modelUpdate _ => true
  | .bandUnsent _ _ => true
  | .bgEscalate _ => true
  | .bgRestored _ => true
  | .advanceWrite _ => true
  | .modeRequest _ => true
  | .modeChange => true
  | .rateChange => true
  | .precisionChange => true
  | .dormantHandover => true
  | .strLoad _ => true
  | .strValidated => true
  | .strApplied => true
  | .standinReady => true
  | .strEngineReady _ => true
  | .strHandbackFail _ => true
  | .mergeDone => true
  | .strAbort => true
  | .sigTestStart _ _ => true
  | .sigTestDone _ _ => true
  | .sigNow _ => true
  | .ceFault _ code => decide (1 ≤ code) && decide (code ≤ 5)
  | .itemOvertime _ => true
  | .ceReload _ _ => true
  | .ceQuarantine _ _ => true
  | .ceRetry _ => true
  | .create _ d => d.wf
  | .destroy _ d => d.wf
  | .start _ d => d.wf
  | .stop _ d => d.wf
  | .setParam _ d => d.wf
  | .getParam _ d => d.wf
  | .clearSet _ d => d.wf
  | .copySet _ d => d.wf
  | .commit _ d => d.wf
  | .cancel _ d => d.wf
  | .cueStore _ d => d.wf
  | .cueLoad _ d => d.wf
  | .cueFire _ d => d.wf
  | .wait _ d => d.wf
  | .query _ d => d.wf
  | .chDrained kind index => decide (kind < 64) && decide (index < 2 ^ 18)
  | .packetReceive _ _ packet => packet.wf
  | .streamNoSignal _ => true
  | .pathLost _ _ => true
  | .igmpQuery _ version group => (version == 2 || version == 3) && decide (group < 2 ^ 64)
  | .jobSubmit _ => true
  | .jobDone => true
  | .composeBand _ => true
  | .separateBand _ => true
  | .wbComplete _ => true
  | .wbIncomplete _ => true
  | .coefLoad _ => true
  | .coefLoaded => true
  | .curveLoad _ => true
  | .curveLoaded => true
  | .accRead _ => true
  | .accMissed _ => true
  | .windowClose _ => true
  | .calEvaluate _ => true
  | .calSkipped _ => true
  | .gainLoad _ => true
  | .clearFailedMarks => true
  | .voidOpenWindows => true
  | .modelLoad _ => true
  | .telemStale _ => true
  | .thermalFit _ => true
  | .fixtureFrame _ => true
  | .sacnData _ _ => true
  | .sacnLate _ _ => true
  | .sacnSync _ sync => decide (1 ≤ sync) && decide (sync ≤ 63999)
  | .universeDiscovery => true
  | .sacnHoldResend => true
  | .univTerminated _ => true
  | .portEnable _ _ => true
  | .ddShift _ _ conf faults => wordsIn 16 conf && wordsIn 16 faults
  | .shiftLate _ _ => true
  | .ddSyncEdge => true
  | .syncLost => true
  | .senseWindow _ _ _ => true
  | .sensorRead _ first second => first.wf && second.wf
  | .startUpWalk _ found => found.all PinFind.wf
  | .idleWalk _ found => found.all PinFind.wf
  | .releaseBlanked _ => true
  | .testStart _ => true
  | .testEnd _ => true
  | .timeFrame _ => true
  | .linkDelayRequest _ => true
  | .linkFrameReceive _ _ _ _ => true
  | .joinRequest _ _ _ join _ _ => join.wf
  | .grantUpdate _ => true
  | .telemetryReceive _ _ _ _ records => records.all TelemRec.wf
  | .reachTimeout _ _ _ => true
  | .holdFrame _ => true
  | .darkBroadcast _ => true
  | .ptpMessage _ m => m.wf
  | .syncSend => true
  | .announceSend => true
  | .delayReqSend => true
  | .wclkEdge => true
  | .holdoverEnter => true
  | .slewDone => true
  | .stepped => true
  | .timeSet => true
  | .applyStep => true
  | .frameReceive _ frame => frame.wf
  | .pauseBreak _ => true
  | .pauseBreakEnd _ => true
  | .eyeMeasure _ _ _ => true
  | .eqRetrain _ _ _ => true
  | .linkDown _ _ => true
  | .linkUp _ => true
  | .arpRequest _ ip => decide (ip < 2 ^ 32)
  | .arpUnresolved _ ip => decide (ip < 2 ^ 32)
  | .arpExpire _ ip => decide (ip < 2 ^ 32)
  | .exactEntryWrite _ _ _ => true
  | .wake frame _ => frame.all RxFrame.wf
  | .wakeAlarm _ => true
  | .dispatch _ _ => true
  | .itemComplete _ _ _ used => used.wf
  | .pailReserve _ _ => true
  | .producerResume _ => true
  | .lengthWordWrite _ _ payload => wordsIn 8 payload
  | .hwConsumerRead _ => true
  | .flush _ => true
  | .plWrWrite _ value => decide (value < 2 ^ 32)
  | .plRdWrite _ value => decide (value < 2 ^ 32)
  | .plPop _ _ => true
  | .popWaitExpire _ => true
  | .hostLinkUp speed width => decide (1 ≤ speed) && decide (speed ≤ 4) && (width == 1 || width == 2 || width == 4)
  | .hostLinkDown => true
  | .flr => true
  | .bar2Write addr bytes => decide (addr < 2 ^ 34) && wordsIn 8 bytes
  | .bridgeRead _ addr len => decide (addr < bar0Size) && decide (1 ≤ len)
  | .bridgeWrite _ addr bytes => decide (addr < bar0Size) && wordsIn 8 bytes
  | .boostFail => true
  | .boostStop => true
  | .msixUnmask _ => true
  | .semTake _ _ _ => true
  | .semGive _ _ _ => true
  | .semRevoked _ => true
  | .poll => true
  | .aerUncorrectable _ => true
  | .memAccess _ reqs => reqs.all MemReq.wf
  | .scrubPass => true
  | .scrubBehind _ => true
  | .memSleepEnter _ _ => true
  | .memSleepExit _ => true
  | .refreshDerate _ _ => true
  | .bellAHeartbeat => true
  | .bellBHeartbeat => true
  | .heartbeatReceive _ hb _ => hb.wf
  | .bellSilent _ => true
  | .takeover => true
  | .seekTimeout => true
  | .fenceInQualified => true
  | .fencePulse => true
  | .fenceInPulse => true
  | .fenceAlarm => true
  | .switch _ => true
  | .switchHandover => true
  | .switchTimeout => true
  | .forceActive => true
  | .unfence => true
  | .resync => true
  | .mirrorReceive mseq _ band tcrc _ => decide (mseq < 2 ^ 32) && decide (band < 2 ^ 16) && decide (tcrc < 2 ^ 32)
  | .ackReceive mseq => decide (mseq < 2 ^ 32)
  | .mirrorResend mseq => decide (mseq < 2 ^ 32)
  | .mirrorLag => true
  | .resyncReqReceive _ => true
  | .snapshotReceive _ => true
  | .sigCompare _ _ => true
  | .healthReport report => wordsIn 8 report && report.length == 64
  | .healthStale => true
  | .powerOn => true
  | .resetN => true
  | .swReset _ => true
  | .supplyFault _ => true
  | .thermalTrip _ => true
  | .thermalRestart => true
  | .refLoss _ _ => true
  | .xtalFallback => true
  | .xtalRestored => true
  | .pllLockLoss _ => true
  | .pllRestart _ => true
  | .releaseHeld _ _ _ _ => true
  | .wdogExpired _ => true
  | .parity addr => decide (addr < bar0Size)
  | .eccReset _ _ _ => true
  | .blkRst _ => true
  | .idleAck _ => true
  | .idleTimeout _ => true
  | .starterAttempt _ => true
  | .startUp _ => true
  | .startDone => true
  | .dormantEnter => true
  | .injectionArmed key => decide (key < 2 ^ 16)
  | .injectionCancelled key => decide (key < 2 ^ 16)
  | .tallyRecord _ => true
  | .tallyReportSecond => true
  | .tallyMirror _ _ => true
  | .checkValue _ _ _ _ message => wordsIn 8 message
  | .fwLoad _ => true
  | .fwStaged _ => true
  | .quiesceAck => true
  | .quiesceTimeout => true
  | .fwHandover _ => true
  | .fwSelfConfirm _ => true
  | .fwConfirm _ => true
  | .fwRevert => true
  | .confirmWindowExpire => true
  | .fwAbort => true
  | .burnFwCounter => true
  | .burnStrCounter => true
  | .fenceInReleased => true
  | .refRestored _ => true
  | .linkLoopbackTest _ _ => true
  | .d3hot _ => true
  | .markWaitExpire => true
  | .picturePartialTimeout _ => true
  | .selfCheckFailed => true

end Sys2Proof
end

