-- ==== Sys2Proof/Certificates/Slice0/Obligations.lean ====
section
/-! DEFINITION. The statements for the provers. Where a clause says what a command does, its next state is named by the
shared operations of the machine, or by what it holds and by its frame (`State.Leaves`, `State.Records`). -/
open Sys2Proof Sys2Proof.Machine

/-- For every command and state, a step on a queue with the command at its front is exec of it on the state with the rest
of the queue. (95_what_each_step_holds) -/
def Obligations.StepRunsFrontCommand : Prop :=
  ∀ (c : Instr) (rest : List Instr) (s : State), s.pending = c :: rest →
    step s = exec c { s with pending := rest }

/-- DESIGN CHOICE of the model (its log entry on the idle step): with no command waiting, a step adds 1 µs to the uptime
and 1 µs, at the servo's rate, to device time, and changes nothing else. (R348, R366) -/
def Obligations.IdleStepPassesTime : Prop :=
  ∀ (s : State), s.pending = [] → ∃ t, step s = .next t ∧ t.uptime = s.uptime + 1000 ∧
    (s.get R.TIM_FREQ = 0 → t.now = s.now + 1000 * 65536) ∧ s.Leaves [] [.time] t

/-- For every command and state, exec answers a next state: no command faults or is refused. The queue stands as it is,
what the device has sent stays sent, no free value is used twice, the rollback counters of the fuse array never fall
and every other fuse stays. (R527, R561) -/
def Obligations.EveryCommandContinues : Prop :=
  ∀ (c : Instr) (s : State), ∃ t, exec c s = .next t ∧ s.Continues t

/-- From every state whose register file and memories are in their canonical form, whatever command is at the front of the
queue or none, a step answers a next state that has the form too. (Canonical form is the model's representation: equal
registers and memories are equal data.) (R4, R392, R506, R529, R536) -/
def Obligations.StepKeepsCanonical : Prop :=
  ∀ (s t : State), s.canonical = true → step s = .next t → t.canonical = true

/-- State.reset has the canonical form, an empty queue and nothing sent, and each register listed here, with every element
of its array, holds the value that its field table gives for reset. (R506, R527, R536, 23_register_map) -/
def Obligations.ResetState : Prop :=
  State.reset.canonical = true ∧ State.reset.pending = [] ∧ State.reset.outs = [] ∧
  ∀ q ∈ ([
     (R.SYS_ID, 1, 0x19612), (R.SYS_CAP0, 1, 0x86608C), (R.SYS_CAP1, 1, 0x40404080), (R.SYS_MODE_REQ, 1, 0x190),
     (R.SYS_MODE_STAT, 1, 0x190), (R.SYS_MODE_CTL, 1, 0x20), (R.STR_STAT, 1, 0xFF00), (R.CE_STAT, 12, 0xF00),
     (R.CH_CTL, 1, 0xC8), (R.CH_CUE_FREE, 1, 0x100000), (R.CMP_DITHER, 1, 0x2), (R.CMP_SCALER, 64, 0xF000),
     (R.WB_CTL, 16, 0x404), (R.GOV_CTL, 1, 0x40), (R.GOV_AMBIENT, 1, 0x190), (R.FIX_CTL, 1, 0x40), (R.P_CHAIN, 32, 0x400800),
     (R.P_CLK, 32, 0x19000FA), (R.P_PITCH, 32, 0x1000100), (R.TIM_CTL, 1, 0x9), (R.TIM_PTP_CFG, 1, 0xD3ED7F),
     (R.TIM_PTP_PRIO, 1, 0x8080), (R.TIM_SERVO, 1, 0x1388), (R.NET_WAKE_CTL, 1, 0x90000), (R.NET_WAKE_ETYPE, 1, 0x88B6),
     (R.NL_CTL, 25, 0x7D003FE), (R.NL_EQ_THR, 25, 0x1E10), (R.DBR_CTL, 1, 0x19006400), (R.DBR_SEM, 16, 0x7),
     (R.MEM_CTL, 1, 0xC0), (R.RED_CTL, 1, 0x4), (R.RED_BELLB, 1, 0x88B7), (R.PCR_CTL, 1, 0x1900), (R.PCR_WDOG_MC, 1, 0x3E8),
     (R.PCR_WDOG_BYRE, 1, 0x7D0), (R.PCR_BKP_VALID, 1, 0xFFFF), (R.FLT_INJ_SEL, 1, 0x10000), (R.TLY_CTL, 1, 0x40),
     (R.UPD_CTL, 1, 0x1E00)] : List (Field × Nat × Nat)),
    ∀ i, i < q.2.1 → State.reset.get q.1 i = q.2.2

/-- For every rate code and every device time (in units of 2^-16 ns), the boundary of the time's frame number is at or
before the time and the next boundary is after it: boundary n is reached exactly when the device time first equals or
passes B(n). (R19, R20, R21) -/
def Obligations.FrameNumberBracketsTime : Prop :=
  ∀ (code t : Nat), boundaryOf code (frameOf code t) ≤ t ∧ t < boundaryOf code (frameOf code t + 1)

/-- BG_ESCALATE of an activity below level 3 (activity 9 never rises) tells that 1, 2 or 4 times its deadline of R38 has
passed since it last met it, raises its level by one, counts a rise from level 0, holds BG_ESCALATED at level 3 and
records 0x0012; at level 3 and for activity 9 nothing changes. BG_RESTORED restarts the activity's deadline; a raised
activity returns to level 0, which 0x0013 records with the ms since it rose. Nothing else changes. (R37, R38, R42) -/
def Obligations.BackgroundEscalation : Prop :=
  (∀ (s : State) (a : Fin 10), a.val ≠ 9 → s.get F.SYS_BG_STAT_LEVEL a < 3 →
    ∃ t, exec (.bgEscalate a) s = .next t ∧ t.get F.SYS_BG_STAT_LEVEL a = s.get F.SYS_BG_STAT_LEVEL a + 1 ∧
      (s.bgAt a).from_ + bgDeadlines.getD a 0 * 2 ^ s.get F.SYS_BG_STAT_LEVEL a ≤ t.uptime ∧
      t.get F.SYS_BG_STAT_ESCALATIONS a =
        (if s.get F.SYS_BG_STAT_LEVEL a = 0 then min 65535 (s.get F.SYS_BG_STAT_ESCALATIONS a + 1)
         else s.get F.SYS_BG_STAT_ESCALATIONS a) ∧
      t.flag F.SYS_PIPE_STAT_BG_ESCALATED = (s.flag F.SYS_PIPE_STAT_BG_ESCALATED || s.get F.SYS_BG_STAT_LEVEL a == 2) ∧
      s.Records [(0x0012, [a.val, s.get F.SYS_BG_STAT_LEVEL a + 1])] t ∧
      s.Leaves [(F.SYS_BG_STAT_LEVEL, a), (F.SYS_BG_STAT_ESCALATIONS, a), (F.SYS_PIPE_STAT_BG_ESCALATED, 0)] [.sys, .time] t) ∧
  (∀ (s : State) (a : Fin 10), a.val = 9 ∨ s.get F.SYS_BG_STAT_LEVEL a = 3 → exec (.bgEscalate a) s = .next s) ∧
  (∀ (s : State) (a : Fin 10), s.sys.bg.length = 10 → s.get F.SYS_BG_STAT_LEVEL a ≠ 0 →
    ∃ t, exec (.bgRestored a) s = .next t ∧ t.get F.SYS_BG_STAT_LEVEL a = 0 ∧ (t.bgAt a).from_ = s.uptime ∧
      s.Records [(0x0013, [a.val, (s.uptime - (s.bgAt a).since) / 1000000])] t ∧
      s.Leaves [(F.SYS_BG_STAT_LEVEL, a)] [.sys] t) ∧
  (∀ (s : State) (a : Fin 10), s.sys.bg.length = 10 → s.get F.SYS_BG_STAT_LEVEL a = 0 →
    ∃ t, exec (.bgRestored a) s = .next t ∧ (t.bgAt a).from_ = s.uptime ∧ s.Leaves [] [.sys] t)

/-- A write of SYS_PIPE_CTL that no rule of R28 refuses stores ADVANCE and brings up to date what depends on it. A refused
one leaves ADVANCE as it is, sets ADV_REJECT and records 0x0014 with the value and the rule; one refused in Show is
also counted and its register latched (R587). Nothing else changes. (R28, R42, R587) -/
def Obligations.AdvanceWriteStoresOrRefuses : Prop :=
  (∀ (s : State) (w : Word), s.advanceRefusal (w.toNat % 16384) = none →
    exec (.advanceWrite w) s = .next (s.put F.SYS_PIPE_CTL_ADVANCE (w.toNat % 16384)).refreshAll) ∧
  (∀ (s : State) (w : Word) (rule : Nat), s.advanceRefusal (w.toNat % 16384) = some rule →
    ∃ t, exec (.advanceWrite w) s = .next t ∧ t.flag F.SYS_PIPE_STAT_ADV_REJECT = true ∧
      (rule = 9 → t.get R.SYS_S_REJECT_CNT = min 0xFFFFFFFF (s.get R.SYS_S_REJECT_CNT + 1) ∧
        t.get R.SYS_S_REJECT_ADDR = 0x108) ∧
      s.Records [(0x0014, [w.toNat % 16384, rule])] t ∧
      s.Leaves ((F.SYS_PIPE_STAT_ADV_REJECT, 0) ::
        (if rule = 9 then [(R.SYS_S_REJECT_CNT, 0), (R.SYS_S_REJECT_ADDR, 0)] else [])) [] t)

/-- FRAME_BOUNDARY fires the next boundary n of the lattice in force: device time is B(n) at least, SYS_FRAME_NUM reads n,
the next boundary is n + 1, and vector 1 is raised (unmasked, with MSI-X enabled, its message is the first that the
boundary sends). Once B(m-1) of a rate change has fired, the boundary first switches the lattice. WORK_START starts
the work of the next frame n: device time is brought to S(n), what takes effect at S(n) takes effect, the channels are
latched for frame n, and its sources are chosen; past the last old frame of a rate change it first switches the
lattice, or waits for B(m-1); past the last old frame of a step it waits. RATE_CHANGE switches the lattice once B(m-1)
has fired (in Hold and Warm, once the last old frame has started too): FRATE is the new rate, and the next boundary
and work start are those of the new lattice; until then, and without a rate change, nothing changes. Before start-up
has finished the three commands change nothing. (R22, R24, R25, R57, R58, R588, R421) -/
def Obligations.LatticeAndBoundaries : Prop :=
  ((∀ (s : State), s.sys.started = true → (∀ r, s.sys.rateChg = some r → s.sys.nextB ≤ r.lastB) →
      ∃ t, exec .frameBoundary s = .next t ∧ t = s.boundary s.sys.nextB ∧ t.sys.nextB = s.sys.nextB + 1 ∧
        (s.sys.nextB < 2 ^ 64 → t.frameNum = s.sys.nextB) ∧ s.bAt s.sys.nextB ≤ t.now) ∧
   (∀ (s : State) (n : Nat), n < 2 ^ 64 →
     let t := (((s.atTime (s.bAt n)).modSys (fun y => { y with nextB := n + 1 })).put64 R.SYS_FRAME_NUM_LO n).msi 1
     t.outs <+: (s.boundary n).outs ∧ t.frameNum = n ∧ s.bAt n ≤ t.now ∧
     (s.host.msixEnable = true → s.host.msixMaskAll = false → s.vectorMasked 1 = false → t.outs = s.outs ++ [.msi 1])) ∧
   (∀ (s : State) (r : RateChg), s.sys.started = true → s.sys.rateChg = some r → r.lastB < s.sys.nextB →
     exec .frameBoundary s = .next (s.switchRate.boundary s.switchRate.sys.nextB))) ∧
  ((∀ (s : State) (r : RateChg), s.sys.rateChg = some r → r.lastB < s.sys.nextB → s.power = 3 ∨ r.last < s.sys.nextS →
     ∃ t, exec .rateChange s = .next t ∧ t = s.switchRate ∧
       (s.rate ≠ r.newRate → r.newRate < 16 → t.rate = r.newRate ∧ t.sys.nextB = r.bound ∧ t.sys.nextS = r.first)) ∧
   (∀ (s : State), (∀ r, s.sys.rateChg = some r → s.sys.nextB ≤ r.lastB ∨ (s.power ≠ 3 ∧ s.sys.nextS ≤ r.last)) →
     exec .rateChange s = .next s)) ∧
  ((∀ (s : State) (n : Nat),
     ∃ (u v : State) (w : FrameWork),
       u = ((((s.atTime (s.sAt n)).modSys (fun y => { y with nextS := n + 1 })).closeFrame n).takeChanges n) ∧
       u.latch n (decide (u.power = 3)) = v ∧ v.frames.head? = some w ∧ w.frame = n ∧ w.active = decide (u.power = 3) ∧
       w.chans = u.cmd.chans ∧ v.cmd.latched = u.cmd.chans ∧ v.cmd.latches = u.cmd.latches + 1 ∧
       s.workStart n = (v.chooseSources n).startWork n u.cmd.latched (decide (u.power = 3)) ∧
       (s.sys.started = true → s.sys.nextS = n → s.sys.rateChg = none → (∀ p, s.tim.plan = some p → p.done = true ∨ n ≤ p.last) →
         exec .workStart s = .next (s.workStart n)) ∧
       (∀ r, s.sys.started = true → s.sys.nextS = n → s.sys.rateChg = some r → r.newRate = s.rate ∨ n ≤ r.last →
         exec .workStart s = .next (s.workStart n))) ∧
   (∀ (s : State) (r : RateChg), s.sys.started = true → s.sys.rateChg = some r → r.newRate ≠ s.rate → r.last < s.sys.nextS →
     exec .workStart s = .next (if r.lastB < s.sys.nextB then s.switchRate.workStart r.first else s)) ∧
   (∀ (s : State) (p : StepPlan), s.sys.rateChg = none → s.tim.plan = some p → p.done = false → p.last < s.sys.nextS →
     exec .workStart s = .next s) ∧
   (∀ (s : State), s.sys.started = false → exec .frameBoundary s = .next s ∧ exec .workStart s = .next s))

/-- A write of SYS_MODE_REQ without GO stores its fields alone. A request with GO whose first failing check of R50 is
numbered n with status st completes at once: RESULT is st, SEQ advances, REQ_DONE is set and 0x0021 is recorded with
the request, st and n; POWER, RATE, FRATE and PREC stay. A request that passes is accepted: at once on a device with
no Standby, with a record sent to a Standby that is not READY, and on an Active with a READY Standby its record is
sent and waits for the acknowledgement. (R50, R51, R60, R472) -/
def Obligations.ModeRequestChecks : Prop :=
  (∀ (s : State) (w : Word), bitAt w.toNat 31 = false →
    ∃ t, exec (.modeRequest w) s = .next t ∧ t.reg R.SYS_MODE_REQ.base = w &&& 0x17F3 ∧ s.Leaves [(R.SYS_MODE_REQ, 0)] [] t) ∧
  (∀ (s : State) (w : Word) (n st : Nat), bitAt w.toNat 31 = true → st ≠ stOK → st < 16 →
    firstFail ((s.setReg R.SYS_MODE_REQ.base (w &&& 0x17F3)).modeChecks false w.toNat) = (n, st) →
    ∃ t, exec (.modeRequest w) s = .next t ∧ t.get F.SYS_MODE_STAT_RESULT = st ∧
      t.get F.SYS_MODE_STAT_SEQ = (s.get F.SYS_MODE_STAT_SEQ + 1) % 2 ^ F.SYS_MODE_STAT_SEQ.width ∧
      t.flag F.SYS_MODE_EVT_REQ_DONE = true ∧ t.power = s.power ∧ t.rate = s.rate ∧ t.skim = s.skim ∧
      s.Records [(0x0021, [w.toNat, st, n])] t ∧
      s.Leaves [(R.SYS_MODE_REQ, 0), (F.SYS_MODE_STAT_RESULT, 0), (F.SYS_MODE_STAT_SEQ, 0), (F.SYS_MODE_EVT_REQ_DONE, 0)]
        [.sys] t) ∧
  (∀ (s u : State) (w : Word), bitAt w.toNat 31 = true → u = s.setReg R.SYS_MODE_REQ.base (w &&& 0x17F3) →
    (firstFail (u.modeChecks false w.toNat)).2 = stOK →
    (u.mirroring = true → exec (.modeRequest w) s = .next (u.sendMirror (u.modeFrom w.toNat) true (.mode w.toNat))) ∧
    (u.mirroring = false → u.hasStandby = true →
      exec (.modeRequest w) s = .next (acceptMode (u.modeFrom w.toNat) w.toNat
        (u.sendMirror (u.modeFrom w.toNat) false (.mode w.toNat)))) ∧
    (u.mirroring = false → u.hasStandby = false → exec (.modeRequest w) s = .next (acceptMode 0 w.toNat u)))

/-- MODE_CHANGE of a transition with nothing but power left to change completes it where POWER is as asked, and from Warm
to Hold after entering Hold: RESULT OK, REQ_DONE, TRANS clear, SYS_MODE_TRANS_US the µs since its acceptance, no
transition running. From Warm to Show it notes that the engines are ready. In every other case nothing changes.
PRECISION_CHANGE, in Warm or Hold, gives PREC the value asked and records the change, rewrites the latest picture of
each network stream in the other precision and drops its pictures in reception, voids the windows of frame S(k), drops
the staged corrections, and begins the rate change where one is asked too; it does nothing where PREC is as asked, in
Show or Dormant, for a request for Dormant, or without a transition. DORMANT_HANDOVER on an Active with a READY
Standby begins the switch that precedes Dormant: in Show it waits for E(n), elsewhere HANDOVER is sent at once and the
ring ports enter bypass; otherwise it does nothing. (R41, R49, R51, R52, R60, R61) -/
def Obligations.ModeTransitions : Prop :=
  ((∀ (s v : State) (m : ModeTrans), s.sys.trans = some m → s.powerReady m = true →
      (s.power = m.power ∧ v = s) ∨ (s.power = 1 ∧ m.power = 2 ∧
        v = ((((s.enterHold s.sys.nextS 1).noteMode s.modeStat s.frameNum).gateEngines).ddMode 1 2
          (((s.enterHold s.sys.nextS 1).noteMode s.modeStat s.frameNum).gateEngines).sys.nextS)) →
      ∃ u : State, exec .modeChange s = .next (v.finishMode m) ∧ v.finishMode m = u.wakeStep ∧ u.get F.SYS_MODE_STAT_RESULT = stOK ∧
        u.flag F.SYS_MODE_STAT_TRANS = false ∧ u.flag F.SYS_MODE_EVT_REQ_DONE = true ∧ u.sys.trans = none ∧
        u.get R.SYS_MODE_TRANS_US = min 0xFFFFFFFF ((v.uptime - m.started) / 1000)) ∧
   (∀ (s : State) (m : ModeTrans), s.sys.trans = some m → s.powerReady m = true → s.power = 1 → m.power = 3 →
     exec .modeChange s = .next (s.modSys (fun y => { y with trans := some { m with ready := true } }))) ∧
   (∀ (s : State), (∀ m, s.sys.trans = some m → s.powerReady m = false ∨
       (s.power ≠ m.power ∧ ¬ (s.power = 1 ∧ (m.power = 2 ∨ m.power = 3)))) → exec .modeChange s = .next s)) ∧
  ((∀ (s : State), (∀ m, s.sys.trans = some m → m.power = 0 ∨ s.power = 0 ∨ s.power = 3 ∨ decide (m.prec = 1) = s.skim) →
      exec .precisionChange s = .next s) ∧
   (∀ (s : State) (m : ModeTrans), s.sys.trans = some m → m.power ≠ 0 → s.power ≠ 0 → s.power ≠ 3 → decide (m.prec = 1) ≠ s.skim →
     ∃ u v w : State, u.skim = decide (m.prec = 1) ∧ s.Records [(0x0020, [s.modeStat, u.modeStat, s.frameNum])] u ∧
       s.Leaves [(F.SYS_MODE_STAT_PREC, 0)] [] u ∧
       v = u.each (s.cmd.chans.filter (fun c => c.kind == kStream && !c.stored)) (fun c t =>
         (match (t.stream c.index).latest with
           | some l => t.convertPicture (c.slotBase l.buf) l.width l.height (decide (m.prec = 1))
           | none => t).modStream c.index (fun x => { x with pics := [] })) ∧
       w = (((v.voidWindows s.sys.nextS s.sys.nextS).dropAllStaged 2).reloadStores.gateEngines.refreshAll).noteInput ∧
       exec .precisionChange s = .next (if m.frate ≠ s.rate then w.beginRate m.rate m.frate 0 else w))) ∧
  (∀ (s : State), s.sys.trans.any (fun m => m.handover) = true → s.red.switching = none → s.switchAllowed false = true →
    (s.power = 3 → ∃ t, exec .dormantHandover s = .next t ∧
      t.red.switching = some { dormant := true, force := false, sentAt := none, frame := s.frameNum } ∧ s.Leaves [] [.red] t) ∧
    (s.power ≠ 3 → ∃ t, exec .dormantHandover s = .next t ∧ t.red.bypass = true ∧ ((s.ringBells true).outs <+: t.outs) ∧
      t.red.switching = some { dormant := true, force := false, sentAt := some (s.ringBells true).uptime, frame := s.frameNum })) ∧
  (∀ (s : State), s.sys.trans.any (fun m => m.handover) = false ∨ s.red.switching.isSome = true ∨ s.switchAllowed false = false →
    exec .dormantHandover s = .next s)

/-- A write of STR_LOAD_CTL without GO stores its fields. With GO it completes with BUSY and check 1 while a load, a mode
transition or a rate change runs, and with INCONSISTENT and check 2 for an unaligned, unusable or wrongly sized image,
each recorded as 0x0101; otherwise the image is copied into the staging area, PHASE becomes 1 and the load waits for
its validation. (R66, R89, R90) -/
def Obligations.StructureLoadStarts : Prop :=
  ∀ (s : State) (w : Word),
    let s1 := ((s.put F.STR_LOAD_CTL_ACTION (bits w.toNat 1 1)).put F.STR_LOAD_CTL_AT_FRAME (bits w.toNat 2 2)).put
      F.STR_LOAD_CTL_VECTOR (bits w.toNat 9 4)
    let a := s.get64 R.STR_LOAD_ADDR_LO
    let n := s.get R.STR_LOAD_LEN
    (bitAt w.toNat 0 = false → exec (.strLoad w) s = .next s1) ∧
    (bitAt w.toNat 0 = true → (s.strPhase ≠ 0 ∨ s.sys.trans.isSome = true ∨ s.sys.rateChg.isSome = true) →
      ∃ t, exec (.strLoad w) s = .next t ∧ s.StrResult stBusy 1 s.strPhase t ∧ s.Records [(0x0101, [stBusy, 1, 0])] t ∧
        s.Leaves (strResultFields ++ [(F.STR_LOAD_CTL_ACTION, 0), (F.STR_LOAD_CTL_AT_FRAME, 0), (F.STR_LOAD_CTL_VECTOR, 0)]) [] t) ∧
    (bitAt w.toNat 0 = true → s.strPhase = 0 → s.sys.trans = none → s.sys.rateChg = none →
      (a % 64 ≠ 0 ∨ inUsable a n = false ∨ n < 4096 ∨ 67108864 < n) →
      ∃ t, exec (.strLoad w) s = .next t ∧ s.StrResult stInconsistent 2 0 t ∧ s.Records [(0x0101, [stInconsistent, 2, 0])] t ∧
        s.Leaves (strResultFields ++ [(F.STR_LOAD_CTL_ACTION, 0), (F.STR_LOAD_CTL_AT_FRAME, 0), (F.STR_LOAD_CTL_VECTOR, 0)]) [] t) ∧
    (bitAt w.toNat 0 = true → s.strPhase = 0 → s.sys.trans = none → s.sys.rateChg = none →
      a % 64 = 0 → inUsable a n = true → 4096 ≤ n → n ≤ 67108864 →
      ∃ t l, exec (.strLoad w) s = .next t ∧ t.str.load = some l ∧ l.addr = a ∧ l.len = n ∧ l.image = none ∧ t.strPhase = 1 ∧
        t.bulk = (s1.stageImage a n).bulk)

/-- STR_VALIDATED parses the staged image and makes the checks of R89 in order. A failing check n with status st completes
the load with them and records 0x0101; a failing signature or section check also counts at its detector. A validation
alone completes with OK; a full image that is to be applied stays accepted in PHASE 1, a partial image waits in PHASE
2: a capacity image with its new capacities, any other with its replacement armed. STR_APPLIED puts an accepted full
image into force and completes the load. (R90, R91, R93) -/
def Obligations.StructureLoadCompletes : Prop :=
  (∀ (s : State) (l : StrLoad), s.str.load = some l → s.strPhase = 1 → l.image = none →
    let rd := s.imageReader
    let st := parseImage rd (imageIdentity rd l.len)
    let q := s.loadInjections (rd 0x0C 2)
    let r := firstFail (s.imageChecks l rd st q.1 q.2.1)
    let u := q.2.2
    let accepted := u.modLoad (fun x => { x with image := some st, acceptedAt := u.now, frame := u.imageFrame l })
    exec .strValidated s = .next
      (if r.2 ≠ stOK then
        ((if r.1 = 6 then u.detect 0x2C else if r.1 = 9 then u.detect 0x2B else u).dropLoad.strFinish r.2 r.1 0).tally 0x0101
          [r.2, r.1, if r.1 ≤ 4 then 0 else rd 0x10 8]
      else if l.action = false then u.dropLoad.strFinish stOK 0 0
      else if st.partialImage = false then accepted.strFinish stOK 0 1
      else if st.target ≠ 0xFF then (accepted.strFinish stOK 0 2).armStandin
      else { accepted.strFinish stOK 0 2 with str := { accepted.str with capNew := some (u.withImage st).caps } })) ∧
  (∀ (s : State) (l : StrLoad) (st : Structure), s.str.load = some l → l.image = some st → st.partialImage = false →
    exec .strApplied s = .next ((s.applyFull st).strFinish stOK 0 0).pump)

/-- STANDIN_READY of an armed replacement loads the SPARE with the new section and makes PHASE 3. STR_ENGINE_READY loads
the drained engine with its section and stores the reference and its signature; where they are equal the engine waits
200 µs to take its role back, else the hand-back fails. STR_HANDBACK_FAIL leaves the SPARE standing in, sets
STANDIN_FAIL, raises vector 2, records 0x0104 and makes PHASE 5. MERGE_DONE writes the merged structure into the
staging half, makes that half active and completes the load with OK in PHASE 0. STR_LOAD_CTL.ABORT in PHASE 1 drops
the load and completes it with TIMEOUT; more than 1 ms before S(k) it withdraws an armed or ready replacement; later,
or in a later phase, it only sets STR_EVT.ABORT_LATE; with nothing to abort it does nothing. (R88, R94, R96) -/
def Obligations.ReplacementsAndAborts : Prop :=
  ((∀ (s : State) (l : StrLoad) (d : Standin) (sp : Nat), s.str.load = some l → s.str.standin = some d → s.spare = some sp →
     s.strPhase = 2 → d.cause = .replacement →
     ∃ t, exec .standinReady s = .next t ∧ t.strPhase = 3 ∧ t.str.load = some { l with spReady := true } ∧
       t.eng = (s.loadStores sp (l.image.bind (fun i => i.engineSec s.skim d.engine))).eng ∧
       s.Leaves [(F.STR_LOAD_STAT_PHASE, 0)] [.str, .eng] t) ∧
   (∀ (s : State) (d : Standin) (run : TestRun), s.str.standin = some d → s.strPhase = 4 → d.cause = .replacement → d.engine < 12 →
     s.serving d.engine = [] → run.signature = run.reference →
     ∃ t, exec (.strEngineReady run) s = .next t ∧ t.reg (R.CE_SIG_REF.addr d.engine) = run.reference ∧
       t.reg (R.CE_SIG_LAST.addr d.engine) = run.signature ∧ t.get F.CE_STAT_STATE d.engine = 3 ∧
       t.str.standin = some { d with readyAt := some (s.now + 200000 * 65536), passed := true } ∧
       t.str.load = s.str.load.map (fun l => { l with engineReady := some s.now }) ∧
       t.eng = (s.loadStores d.engine (s.section d.engine)).eng ∧
       s.Leaves [(R.CE_SIG_REF, d.engine), (R.CE_SIG_LAST, d.engine), (F.CE_STAT_STATE, d.engine)] [.str, .eng] t) ∧
   (∀ (s : State) (d : Standin) (run : TestRun), s.str.standin = some d → s.strPhase = 4 → d.cause = .replacement →
     s.serving d.engine = [] → run.signature ≠ run.reference →
     exec (.strEngineReady run) s = exec (.strHandbackFail 0) (((s.loadStores d.engine (s.section d.engine)).setReg
       (R.CE_SIG_REF.addr d.engine) run.reference).setReg (R.CE_SIG_LAST.addr d.engine) run.signature)) ∧
   (∀ (s : State) (d : Standin) (reason : Nat), s.str.standin = some d → s.strPhase = 4 → d.cause = .replacement → d.engine < 12 →
     ∃ t, exec (.strHandbackFail reason) s = .next t ∧ t.flag F.STR_STAT_STANDIN_FAIL = true ∧ t.get F.CE_STAT_STATE d.engine = 4 ∧
       t.strPhase = 5 ∧ t.str.standin = some { d with cause := .fault, readyAt := none, passed := false } ∧
       t.eng = s.eng.modify d.engine (fun x => { x with lastFault := some s.uptime, out := true }) ∧
       s.Records [(0x0104, [d.engine, reason])] t ∧
       s.Leaves [(F.STR_STAT_STANDIN_FAIL, 0), (F.CE_STAT_STATE, d.engine), (F.STR_LOAD_STAT_PHASE, 0)] [.str, .eng] t) ∧
   (∀ (s : State) (l : StrLoad) (st part : Structure), s.strPhase = 5 → s.str.inForce = some st → s.str.load = some l →
     l.image = some part →
     ∃ t, exec .mergeDone s = .next t ∧ s.StrResult stOK 0 0 t ∧ t.str.load = none ∧
       t.str.stagingHigh = !s.str.stagingHigh ∧ t.bulk = (s.writeBulk s.staging (s.mergedBytes st part)).bulk ∧
       s.Leaves strResultFields [.str, .bulk] t)) ∧
  ((∀ (s : State) (l : StrLoad), s.str.load = some l → s.strPhase = 1 →
     ∃ t, exec .strAbort s = .next t ∧ s.StrResult stTimeout 0 0 t ∧ t.str.load = none ∧ s.Leaves strResultFields [.str] t) ∧
   (∀ (s : State) (l : StrLoad), s.str.load = some l → (s.strPhase = 2 ∨ s.strPhase = 3) →
     (s.now : Int) + 1000000 * 65536 < s.sLattice l.frame → exec .strAbort s = .next (s.strWithdraw 0)) ∧
   (∀ (s : State) (l : StrLoad), s.str.load = some l → (s.strPhase = 4 ∨ s.strPhase = 5 ∨
     ((s.strPhase = 2 ∨ s.strPhase = 3) ∧ s.sLattice l.frame ≤ (s.now : Int) + 1000000 * 65536)) →
     ∃ t, exec .strAbort s = .next t ∧ t.flag F.STR_EVT_ABORT_LATE = true ∧ s.Leaves [(F.STR_EVT_ABORT_LATE, 0)] [] t) ∧
   (∀ (s : State), s.str.load = none → s.strPhase = 0 → exec .strAbort s = .next s))

/-- SIG_TEST_START with a sound SPARE takes the first engine of the rotation, latches the SPARE's reference in CE_SIG_REF,
and tests the engine in place, where it reads STATE 5, or asks the SPARE to stand in; a SPARE that fails its ROM test
stops the rotation and is faulty, recorded as 0x0201 where an engine was to be tested. SIG_TEST_DONE of an engine
whose test may run passes it with the reference's signature. With another signature it detects 4, sets SIG_FAIL and
records 0x0201 with a verdict: 0 where the SPARE fails its ROM test and 1 where its references differ, and the SPARE
is faulty; 3 where the repeat matches, and the engine passes; 2, twice, where it does not, and the engine has a fault
of code 3. SIG_NOW puts an engine at the head of the rotation. (R115, R116) -/
def Obligations.SignatureTest : Prop :=
  (∀ (s : State) (ref : Word) (sp e : Nat) (rest : List Nat), s.spare = some sp → s.sig.stopped = false → s.str.standin = none →
    s.sig.testing = none → s.testRotation = e :: rest →
    ∃ t, exec (.sigTestStart true ref) s = .next t ∧ t.sig.testing = some e ∧ t.sig.rotation = rest ∧ t.sig.refNow = ref.toNat ∧
      t.reg (R.CE_SIG_REF.addr e) = ref ∧ t.eng = (s.loadStores sp (s.section e)).eng ∧
      (s.testInPlace e = true → t.get F.CE_STAT_STATE e = 5 ∧ t.str = s.str) ∧
      (s.testInPlace e = false → t.str.standin = some ⟨e, .signature, s.now, false, none, false⟩) ∧
      s.Leaves [(R.CE_SIG_REF, e), (F.CE_STAT_STATE, e)] [.sig, .eng, .str] t) ∧
  (∀ (s : State) (ref : Word) (sp : Nat), s.spare = some sp → s.sig.stopped = false → s.str.standin = none →
    s.sig.testing = none → ∃ t, exec (.sigTestStart false ref) s = .next t ∧ t.sig.stopped = true ∧ t.sig.testing = none ∧
      t.get F.CE_STAT_STATE sp = 4 ∧
      (∀ e rest, s.testRotation = e :: rest → t.flag F.CE_EVT_SIG_FAIL e = true ∧
        s.Records [(0x0201, [e, s.get R.CE_SIG_REF e, 0, 0])] t)) ∧
  (∀ (s : State) (w : Word) (again : SigRepeat) (sp e : Nat), s.spare = some sp → s.sig.testing = some e → s.testRuns e = true →
    s.flt.armed = none →
    let u := s.setReg (R.CE_SIG_LAST.addr e) w
    let v (verdict : Nat) (x : State) := x.tally 0x0201 [e, s.sig.refNow, w.toNat, verdict]
    let failed := (u.detect 4).raise F.CE_EVT_SIG_FAIL e
    let held := failed.setReg (R.CE_SIG_REF.addr e) again.reference
    (w.toNat = s.sig.refNow → exec (.sigTestDone w again) s = .next (u.sigPass e true)) ∧
    (w.toNat ≠ s.sig.refNow → again.spareOk = false →
      exec (.sigTestDone w again) s = .next (((v 0 failed).sigPass e false).spareFaulty sp)) ∧
    (w.toNat ≠ s.sig.refNow → again.spareOk = true → again.reference.toNat ≠ s.sig.refNow →
      exec (.sigTestDone w again) s = .next (((v 1 held).sigPass e false).spareFaulty sp)) ∧
    (w.toNat ≠ s.sig.refNow → again.spareOk = true → again.reference.toNat = s.sig.refNow →
      again.signature = again.reference →
      exec (.sigTestDone w again) s = .next ((v 3 (held.setReg (R.CE_SIG_LAST.addr e) again.signature)).sigPass e true)) ∧
    (w.toNat ≠ s.sig.refNow → again.spareOk = true → again.reference.toNat = s.sig.refNow →
      again.signature ≠ again.reference →
      ∃ x : State, x = (v 2 (held.setReg (R.CE_SIG_LAST.addr e) again.signature)).tally 0x0201
          [e, s.sig.refNow, again.signature.toNat, 2] ∧
        exec (.sigTestDone w again) s = .next (({ x with sig := { x.sig with testing := none } } : State).engineFault e 3))) ∧
  (∀ (s : State) (e : Fin 12), ∃ t, exec (.sigNow e) s = .next t ∧ t.sig.rotation.head? = some e.val ∧ s.Leaves [] [.sig] t)

/-- CE_FAULT runs the fault of R118 with its code 1, 3, 4 or 5; code 2, and ITEM_OVERTIME, run it with code 2 where an
item of the engine is in service for longer than T/8, and nothing otherwise. CE_RELOAD in place loads the engine with
its section and stores its signature: one that equals CE_SIG_REF rejoins 200 µs later, any other leaves it faulty;
under a stand-in CE_SIG_REF first takes the SPARE's reference, and an engine that passes takes its role back 200 µs
later (a quarantined one waits for its release). CE_RETRY of a faulty engine starts a reload in place. A quarantine
with a cause against it is refused, recorded with the cause and its bit cleared; without one it asks the SPARE to
stand in at least 5 ms later, and an active stand-in for the engine itself goes on as its quarantine. Its release
withdraws a stand-in that has not begun, leaves a faulty engine to its fault, and otherwise begins the test that ends
it. (R117, R118, R119, R120, R121) -/
def Obligations.EngineFaultsAndQuarantine : Prop :=
  ((∀ (s : State) (e : Fin 12) (code : Nat), code = 1 ∨ code = 3 ∨ code = 4 ∨ code = 5 →
     exec (.ceFault e code) s = .next (s.engineFault e code)) ∧
   (∀ (s : State) (e : Fin 12), (s.overtime e = true → exec (.itemOvertime e) s = .next (s.engineFault e 2)) ∧
     (s.overtime e = false → exec (.itemOvertime e) s = .next s) ∧ exec (.ceFault e 2) s = exec (.itemOvertime e) s)) ∧
  ((∀ (s : State) (e : Fin 12) (run : TestRun), (s.engAt e).reloading.isSome = true → s.str.standin.any (fun d => d.engine == e.val) = false →
     ∃ t, exec (.ceReload e run) s = .next t ∧ t.reg (R.CE_SIG_LAST.addr e) = run.signature ∧
       t.get F.CE_STAT_STATE e = (if run.signature = s.reg (R.CE_SIG_REF.addr e) then 3 else 4) ∧
       t.eng = (s.loadStores e (s.section e)).eng.modify e (fun x =>
         if run.signature = s.reg (R.CE_SIG_REF.addr e) then
           { x with passed := some s.uptime, reloading := none, rejoinAt := some (s.now + 200000 * 65536) }
         else { x with reloading := none }) ∧
       s.Leaves [(R.CE_SIG_LAST, e), (F.CE_STAT_STATE, e)] [.eng] t) ∧
   (∀ (s : State) (e : Fin 12) (run : TestRun) (d : Standin), s.str.standin = some d → d.engine = e.val →
     (s.engAt e).reloading.isSome = true ∨ s.get F.CE_STAT_STATE e = 1 →
     ∃ t, exec (.ceReload e run) s = .next t ∧ t.reg (R.CE_SIG_REF.addr e) = run.reference ∧
       t.reg (R.CE_SIG_LAST.addr e) = run.signature ∧
       t.get F.CE_STAT_STATE e = (if run.signature = run.reference then 3 else 4) ∧
       t.str.standin = some (if run.signature = run.reference ∧ d.cause ≠ .quarantine
         then { d with readyAt := some (s.now + 200000 * 65536), passed := true } else d) ∧
       s.Leaves [(R.CE_SIG_REF, e), (R.CE_SIG_LAST, e), (F.CE_STAT_STATE, e)] [.eng, .str] t)) ∧
  ((∀ (s : State) (e : Fin 12), s.get F.CE_STAT_STATE e = 4 →
     ∃ t, exec (.ceRetry e) s = .next t ∧ t.get F.CE_STAT_STATE e = 1 ∧
       t.eng = s.eng.modify e (fun x => { x with reloading := some 3, out := true }) ∧ s.Records [(0x0204, [e.val, 3])] t ∧
       s.Leaves [(F.CE_STAT_STATE, e)] [.eng] t) ∧
   (∀ (s : State) (e : Fin 12), s.get F.CE_STAT_STATE e ≠ 4 → exec (.ceRetry e) s = .next s)) ∧
  ((∀ (s : State) (e : Fin 12), quarantineCause e s ≠ 0 →
     ∃ t, exec (.ceQuarantine e true) s = .next t ∧ t.flag F.CE_CTL_QUARANTINE e = false ∧ t.flag F.CE_EVT_QUAR_REJECT e = true ∧
       s.Records [(0x0202, [e.val, s.firstSFrom (s.now + 5000000 * 65536), quarantineCause e s])] t ∧
       s.Leaves [(F.CE_CTL_QUARANTINE, e), (F.CE_EVT_QUAR_REJECT, e)] [] t) ∧
   (∀ (s : State) (e : Fin 12), quarantineCause e s = 0 → s.str.standin = none →
     ∃ t d, exec (.ceQuarantine e true) s = .next t ∧ t.flag F.CE_CTL_QUARANTINE e = true ∧ t.str.standin = some d ∧
       d.engine = e.val ∧ d.cause = .quarantine ∧ d.active = false ∧ d.notBefore = s.now + 5000000 * 65536 ∧
       s.Records [(0x0202, [e.val, s.firstSFrom (s.now + 5000000 * 65536), 0])] t ∧
       s.Leaves ((F.CE_CTL_QUARANTINE, e.val) :: (s.sig.testing.toList.map (fun x => (F.CE_STAT_STATE, x)))) [.str, .sig, .eng] t) ∧
   (∀ (s : State) (e : Fin 12) (d : Standin), quarantineCause e s = 0 → s.str.standin = some d → d.engine = e.val → d.active = true →
     ∃ t, exec (.ceQuarantine e true) s = .next t ∧ t.flag F.CE_CTL_QUARANTINE e = true ∧
       t.str.standin = some { d with cause := .quarantine, readyAt := none, passed := false } ∧ t.sig.testing = none ∧
       t.get F.CE_STAT_STATE e = (if s.get F.CE_STAT_STATE e = 5 then 3 else s.get F.CE_STAT_STATE e) ∧
       s.Leaves [(F.CE_CTL_QUARANTINE, e), (F.CE_STAT_STATE, e)] [.str, .sig] t)) ∧
  ((∀ (s : State) (e : Fin 12), (∀ d, s.str.standin = some d → d.engine ≠ e.val ∨ d.cause ≠ .quarantine) →
     ∃ t, exec (.ceQuarantine e false) s = .next t ∧ t.flag F.CE_CTL_QUARANTINE e = false ∧
       s.Leaves [(F.CE_CTL_QUARANTINE, e)] [] t) ∧
   (∀ (s : State) (e : Fin 12) (d : Standin), s.str.standin = some d → d.engine = e.val → d.cause = .quarantine →
     let faulted := s.get F.CE_STAT_STATE e = 1 ∨ s.get F.CE_STAT_STATE e = 4
     ∃ t, exec (.ceQuarantine e false) s = .next t ∧ t.flag F.CE_CTL_QUARANTINE e = false ∧
       (d.active = false → t.str.standin = none ∧ t.sig = s.sig) ∧
       (d.active = true → faulted → t.str.standin = some { d with cause := .fault } ∧ t.sig = s.sig) ∧
       (d.active = true → ¬ faulted → t.str.standin = some d ∧ t.sig.testing = some e.val ∧ t.sig.refNow = s.get R.CE_SIG_REF e) ∧
       s.Leaves [(F.CE_CTL_QUARANTINE, e), (F.CE_STAT_STATE, e)] [.str, .sig] t))

/-- For each of the 15 commands of a command pail, with no injection armed: on a pail without a command role nothing
happens, and without a usable route the pail is reported once. A command that FENCE, a held command, one that waits
for its acknowledgement or a full completion pail stops stays at the head of its pail. Otherwise it is taken, and RD
passes it: an unreadable descriptor completes with INTEGRITY and tag 0xFFFFFFFE; one that fails a check of R131
completes with the check, its status and position and has no other effect (a failing check 3 names the handle of the
failing entry); one that passes is carried out. What an Active must mirror waits for the acknowledgement of a READY
Standby; with a Standby that is not READY it is recorded, mirrored and carried out. (R128, R129, R131, R134, R451,
R474) -/
def Obligations.CommandUnitTakesCommands : Prop :=
  ∀ row ∈ [(Instr.create, opCreate), (.destroy, opDestroy), (.start, opStart), (.stop, opStop), (.setParam, opSetParam),
      (.getParam, opGetParam), (.clearSet, opClearSet), (.copySet, opCopySet), (.commit, opCommit), (.cancel, opCancel),
      (.cueStore, opCueStore), (.cueLoad, opCueLoad), (.cueFire, opCueFire), (.wait, opWait), (.query, opQuery)],
  ∀ (s : State) (p : Fin 256) (d : Desc), s.flt.armed = none →
    let e := d.inRow row.2
    (s.pail p = none → exec (row.1 p d) s = .next s) ∧
    (∀ q, s.pail p = some q → q.role ≠ 0 → d.unreadable = false → exec (row.1 p d) s = .next s) ∧
    (∀ q, s.pail p = some q → q.role = 0 → d.unreadable = false → s.route p = none →
      exec (row.1 p d) s = .next (s.noteUnrouted p)) ∧
    (∀ q c, s.pail p = some q → q.role = 0 → d.unreadable = false → s.route p = some c →
      s.cmd.fenced.any (fun x => x.pail == p.val) = true ∨ s.mustHold p c e = true →
      exec (row.1 p d) s = .next ({ s with cmd := { s.cmd with fenced := s.cmd.fenced ++ [⟨p.val, e, none⟩] } } : State).pump) ∧
    (∀ (q : Pail) (c : Nat) (r : State), s.pail p = some q → q.role = 0 → d.unreadable = true →
      r = (if q.bulk then s else s.detect 0x0F) → r.route p = some c →
      r.cmd.fenced.any (fun x => x.pail == p.val) = false → r.mustHold p c e = false →
      exec (row.1 p d) s = .next ((r.taken p c e).complete (r.takeItem p).cmd.nextId 0
        { failComp e (r.takeItem p).frameNum 0 stIntegrity 0xFFFFFFFF with tag := 0xFFFFFFFE, opcode := 0 }).pump) ∧
    (∀ (q : Pail) (c id : Nat) (u v : State), s.pail p = some q → q.role = 0 → d.unreadable = false → s.route p = some c →
      s.cmd.fenced.any (fun x => x.pail == p.val) = false → s.mustHold p c e = false →
      u = s.takeItem p → v = s.taken p c e → id = u.cmd.nextId →
      ((u.mirroring = false ∧ u.hasStandby = false) ∨ e.restricted = false ∨ (u.commandFail false e).isSome = true →
        (∀ check status pos, v.commandFail false e = some (check, status, pos) →
          exec (row.1 p d) s = .next (v.complete id
            (if check = 3 then (((v.commandEntries e)[pos]?).map SetEntry.handle).getD e.handle else e.handle)
            (failComp e (if e.deferred then v.namedFrame e else v.frameNum) check status pos)).pump) ∧
        (v.commandFail false e = none → exec (row.1 p d) s = .next (v.carryOut id e).pump)) ∧
      (u.commandFail false e = none → u.mirroring = true → e.restricted = true →
        exec (row.1 p d) s = .next
          (({ v with cmd := { v.cmd with awaiting := some (id, p.val, e) } } :
            State).sendMirrorAt (u.mirrorPoint e).1 (u.mirrorPoint e).2 true (.command p e (u.assigned e))).pump) ∧
      (u.commandFail false e = none → u.mirroring = false → u.hasStandby = true → e.restricted = true →
        exec (row.1 p d) s = .next ((((v.sendMirrorAt (u.mirrorPoint e).1 (u.mirrorPoint e).2 false
          (.command p e (u.assigned e))).logCommand id p u.red.mseq e).keepLateCommand u.lateFrom e).actOn false false id e).pump))

/-- A command of a command pail that is taken at once and passes every check of R131 (State.Accepts: no injection armed,
its descriptor readable, its pail's route usable, nothing holding it back, and no Standby for one that is mirrored)
answers the next state of its own effect. CREATE makes a STOPPED channel with no parameter set, and answers its
handle. DESTROY, COMMIT, CUE_FIRE, START and STOP without a set, and WAIT with a frame are deferred to the frame they
name; a COMMIT locks its set. START, STOP and SET_PARAM with a set enter an entry in it; SET_PARAM without one writes
the parameter; CLEAR_SET empties a set, COPY_SET copies it, CUE_STORE stores it in a cue and CUE_LOAD merges a cue
into it. CANCEL ends the pending COMMIT of its set. GET_PARAM and QUERY answer and change no channel. All but the
deferred ones complete with OK. (R125, R126, R130, R135, R138, R139, R144) -/
def Obligations.AcceptedCommands : Prop :=
  ∀ (s : State) (p : Fin 256) (c : Nat) (d : Desc),
    let v := s.taken p c d
    let id := (s.takeItem p).cmd.nextId
    let k := v.namedFrame d
    let h := d.handle
    let kind := handleKind h
    let ok (t : State) (result : Nat) : State := (t.complete id h (okComp d t.frameNum result)).pump
    let into (m : Nat) (es : List SetEntry) : State := ok (v.setEntries m es) 0
    let inSet := (v.setAt d.set).entries
    (s.Accepts opCreate p c d → ∀ i, v.freeIndex kind = some i →
      ∃ (x : Chan) (t : State), exec (.create p d) s = .next (ok t x.handle) ∧ t.cmd.chans = v.cmd.chans ++ [x] ∧
        x.kind = kind ∧ x.index = i ∧ x.gen = v.nextGen kind i ∧ x.st = .stopped ∧ x.params = [] ∧ x.nulls = [] ∧ x.destroyFrame = none) ∧
    (s.Accepts opDestroy p c d → exec (.destroy p d) s = .next ((v.modChan kind (handleIndex h) (fun x =>
      if x.handle = h then { x with destroyFrame := some k, force := bitAt d.flags 2 } else x)).defer id k d
        (.destroy h (bitAt d.flags 2))).pump) ∧
    (s.Accepts opStart p c d →
      (d.inSet = false → exec (.start p d) s = .next (v.defer id k d (.run h true)).pump) ∧
      (d.inSet = true → exec (.start p d) s = .next (into d.set (enterEntry inSet (.run h true))))) ∧
    (s.Accepts opStop p c d →
      (d.inSet = false → exec (.stop p d) s = .next (v.defer id k d (.run h false)).pump) ∧
      (d.inSet = true → exec (.stop p d) s = .next (into d.set (enterEntry inSet (.run h false))))) ∧
    (s.Accepts opSetParam p c d → ∀ pd e, paramDesc kind d.param = some pd → e = SetEntry.param h d.param pd.len (paramValue pd d) →
      (d.inSet = true → exec (.setParam p d) s = .next (into d.set (enterEntry inSet e))) ∧
      (d.inSet = false → ∃ (t u : State), exec (.setParam p d) s = .next (ok u 0) ∧
        t = (if kind = kZone ∧ d.param = 0x0610 then (v.applyEntry e).calAccepted (handleIndex h) (v.applyEntry e).frameNum
          else v.applyEntry e) ∧
        u = (if pd.cls = .l ∧ kind ∈ [kLayer, kRegion, kEndpoint, kZone, kFixture] then t.noteInput else t))) ∧
    (s.Accepts opGetParam p c d → exec (.getParam p d) s = .next (v.complete id h
      { okComp d v.frameNum 0 with len := (v.paramAnswer d).1, value := (v.paramAnswer d).2 }).pump) ∧
    (s.Accepts opClearSet p c d → exec (.clearSet p d) s = .next (into d.set [])) ∧
    (s.Accepts opCopySet p c d → exec (.copySet p d) s = .next (into d.aux inSet)) ∧
    (s.Accepts opCommit p c d → exec (.commit p d) s = .next (((v.copyLists k inSet).modSet d.set (fun x => { x with locked := true })).defer
      id k d (.commit d.set (bitAt d.flags 3))).pump) ∧
    (s.Accepts opCancel p c d → ∀ x, v.pendingCommit d.set = some x → exec (.cancel p d) s = .next (ok (v.timeoutOne x) 0)) ∧
    (s.Accepts opCueStore p c d → exec (.cueStore p d) s = .next (ok (v.setCue (handleIndex h) inSet) 0)) ∧
    (s.Accepts opCueLoad p c d → exec (.cueLoad p d) s = .next (into d.set ((v.cueEntries (handleIndex h)).foldl enterEntry inSet))) ∧
    (s.Accepts opCueFire p c d → exec (.cueFire p d) s = .next ((v.copyLists k (v.cueEntries (handleIndex h))).defer id k d
      (.fire h (v.cueEntries (handleIndex h)))).pump) ∧
    (s.Accepts opWait p c d →
      (d.frame = 0 → exec (.wait p d) s = .next (ok v 0)) ∧
      (d.frame ≠ 0 → exec (.wait p d) s = .next (v.defer id k d .wait).pump)) ∧
    (s.Accepts opQuery p c d → ∀ x, v.chanOf h = some x →
      exec (.query p d) s = .next (ok v ((if x.st = .running then 2 else 1) + 4 * x.gen)))

/-- A COMMIT whose entries do not pass the checks at S(n) is refused whole: every channel, its parameters and run state
stay, every other pending command stays; the refusal is counted, CH_EVT.COMMIT_REJ is set and its set is unlocked.
CH_DRAINED of a draining channel removes the channel, makes its index the latest free one and records 0x0302 with the
handle, the frame of its DESTROY and its discarded items; of any other index it changes nothing. (R142, R143, R126,
R127) -/
def Obligations.RefusedCommitsAndDrains : Prop :=
  (∀ (s : State) (d : Deferred) (n m : Nat) (keep : Bool), d.act = .commit m keep → m < s.cmd.sets.length →
     ((((s.copyLists n (s.setAt m).entries).applyEntries (s.setAt m).entries).consistency s n).2.1 ≠ stOK) →
     let t := s.actCommit d n
     t.cmd.chans = s.cmd.chans ∧ t.cmd.deferred = s.cmd.deferred ∧
       t.setAt m = ⟨false, if keep then (s.setAt m).entries else []⟩ ∧
       t.get R.CH_REJECT_CNT = min 0xFFFFFFFF (s.get R.CH_REJECT_CNT + 1) ∧ t.flag F.CH_EVT_COMMIT_REJ = true) ∧
  ((∀ (s : State) (kind index : Nat) (c : Chan), s.chanAt kind index = some c → c.st = .draining →
     ∃ t, exec (.chDrained kind index) s = .next t ∧ t.cmd.freed = s.cmd.freed ++ [(kind, index)] ∧
       t.cmd.chans = s.cmd.chans.filter (fun x => !(x.kind == kind && x.index == index)) ∧
       s.Records [(0x0302, [c.handle, c.destroyFrame.getD 0, c.discarded])] t) ∧
   (∀ (s : State) (kind index : Nat), (s.chanAt kind index).any (fun c => decide (c.st = .draining)) = false →
     exec (.chDrained kind index) s = .next s))

/-- For a running feed, ALLOW is the smaller of CAP and the slew limit, and the scale p is MASTER where nothing draws,
else the smaller of MASTER and floor(32768 × (allow − c0) / dyn), and 0 where that is negative. A negative one reports
an overload, a smaller one its cause: CAP where CAP is the smaller limit, else slew. So p never exceeds MASTER, and a
feed that draws and is not overloaded is forecast within ALLOW. (R256, R257) -/
def Obligations.FeedScaleIsWithinLimits : Prop :=
  ∀ (s : State) (f : Chan) (on : List EpDraw), f.st = .running →
    let q := s.feedScale f on
    let g := q.2.2
    let cap : Rat := (s.feedLimit f).1
    let prev : Rat := ((s.feedLimit f).2.2.2 : Nat) + (on.map (fun e => max (s.prevCurrent e.chan.index) e.idle)).sum
    g.allow = min cap (prev + s.feedDelta f) ∧ q.1 = g.p ∧ q.1 ≤ f.val 0x0702 ∧
      g.forecast = g.c0 + (q.1 : Rat) * g.dyn / 32768 ∧
      (g.dyn = 0 → q.1 = f.val 0x0702 ∧ q.2.1 = 0) ∧
      (g.dyn ≠ 0 → (32768 * (g.allow - g.c0) / g.dyn).floor < 0 → q.1 = 0 ∧ q.2.1 = 3) ∧
      (g.dyn ≠ 0 → 0 ≤ (32768 * (g.allow - g.c0) / g.dyn).floor →
        (q.1 : Int) = min (f.val 0x0702 : Int) (32768 * (g.allow - g.c0) / g.dyn).floor ∧
        q.2.1 = (if q.1 < f.val 0x0702 then (if cap < prev + s.feedDelta f then 1 else 2) else 0)) ∧
      (0 < g.dyn → q.2.1 ≠ 3 → g.forecast ≤ g.allow)

/-- FORECAST of a started frame in Show or Hold, no later than S(n) + T/16 and with an engine that carries GOVERN, applies
the telemetry corrections, draws each running endpoint from its own thermal terms, scales each feed and marks the
frame's forecast done; one that ends later is the late one. A frame whose forecast is made, a frame not started, Warm
and Dormant, and a structure without GOVERN leave everything as it is. FORECAST_LATE draws every endpoint at full
drive with the matrices of the frame before (flag 1, and 4 for one without a type), sets SYS_PIPE_STAT.FORECAST_LATE,
counts it, records 0x0010 with the number of running feeds, and marks the frame's forecast done. (R32, R44, R54, R118,
R245, R260) -/
def Obligations.Forecasts : Prop :=
  ((∀ (s : State) (n : Nat) (w : FrameWork), s.frameWork n = some w → w.forecastDone = false → 2 ≤ s.power → s.kindServed 5 = true →
     s.now ≤ s.sAt n + periodOf s.rate / 16 →
     ∃ (s1 t : State) (draws : List EpDraw), s1 = s.each (w.running kEndpoint) (fun c t => t.applyCorrection c) ∧
       draws = s1.epDraws w false s1.epTerms ∧
       exec (.forecast n) s = .next t ∧ t = ((s1.each draws (fun e t => t.noteClamped e)).forecastWith w draws).noteTerms n ∧
       (∀ x, t.frameWork n = some x → x.forecastDone = true)) ∧
   (∀ (s : State) (n : Nat) (w : FrameWork), s.frameWork n = some w → w.forecastDone = false → 2 ≤ s.power → s.kindServed 5 = true →
     s.sAt n + periodOf s.rate / 16 < s.now → exec (.forecast n) s = exec (.forecastLate n) s) ∧
   (∀ (s : State) (n : Nat), (∀ w, s.frameWork n = some w → w.forecastDone = true) ∨ s.power < 2 →
     exec (.forecast n) s = .next s ∧ exec (.forecastLate n) s = .next s) ∧
   (∀ (s : State) (n : Nat), s.kindServed 5 = false → exec (.forecast n) s = .next s)) ∧
  (∀ (s : State) (n : Nat) (w : FrameWork), s.frameWork n = some w → w.forecastDone = false → 2 ≤ s.power →
     ∃ (s1 s2 t : State), s1 = s.atTime (s.sAt n + periodOf s.rate / 16) ∧
       s2 = s1.forecastWith w (s1.epDraws w true (fun c => ((s1.govEp c.index).lastH, (s1.govEp c.index).lastEps,
         if (s1.thermType c).isNone then 5 else 1))) ∧
       exec (.forecastLate n) s = .next t ∧ t.flag F.SYS_PIPE_STAT_FORECAST_LATE = true ∧
       t.get R.SYS_FORECAST_LATE_CNT = min 0xFFFFFFFF (s2.get R.SYS_FORECAST_LATE_CNT + 1) ∧
       (∀ x, t.frameWork n = some x → x.forecastDone = true) ∧
       s2.Records [(0x0010, [n, (w.running kFeed).length])] t ∧
       s2.Leaves [(F.SYS_PIPE_STAT_FORECAST_LATE, 0), (R.SYS_FORECAST_LATE_CNT, 0)] [.sys] t)

/-- MODEL_UPDATE of a started frame whose drive sums are complete, with an engine that carries GOVERN, completes and marks
the frame updated; a second one changes nothing. No channel and no device time changes, no frame otherwise, and a feed
whose bias lies from 0.5 to 2 keeps it so. (R245, R259) -/
def Obligations.ModelUpdateKeepsBiasBounds : Prop :=
  (∀ (s : State) (n : Nat) (w : FrameWork), s.frameWork n = some w → w.sumsDone = true → w.updated = false → s.kindServed 5 = true →
    ∃ t, exec (.modelUpdate n) s = .next t ∧ t.frames = (s.modFrame n (fun x => { x with updated := true })).frames ∧ t.cmd = s.cmd ∧
      t.now = s.now ∧
      ∀ i, (1 / 2 ≤ (s.govFeed i).beta ∧ (s.govFeed i).beta ≤ 2) → (1 / 2 ≤ (t.govFeed i).beta ∧ (t.govFeed i).beta ≤ 2)) ∧
  (∀ (s : State) (n : Nat), (∀ w, s.frameWork n = some w → w.updated = true ∨ w.sumsDone = false) ∨ s.kindServed 5 = false →
    exec (.modelUpdate n) s = .next s)

/-- BAND_UNSENT of a running endpoint of a frame in work whose drive sums are not complete acts at E(n), once the ring
ports have sent what they could: a band that has not left cuts the endpoint's parts from the queues and sends it the
repeat notice, once per endpoint and frame: counted, its bit set, 0x0011 recorded with the first such band (its place
in the frame's sequence over all regions is the model's choice), vector 2 raised. TELEM_STALE acts 10 s after the last
report: its bit and event set, 0x0806 recorded. THERMAL_FIT clamps the fit of the last minute to its bounds, and a
clamp is reported; no other state changes. (R33, R252, R253) -/
def Obligations.UnsentBandsAndTelemetry : Prop :=
  (∀ (s : State) (n : Nat) (e : Fin 4096) (w : FrameWork) (c : Chan), s.frameWork n = some w →
    (w.running kEndpoint).find? (fun c => c.index == e.val) = some c → w.active = true → w.sumsDone = false →
    ∃ u : State, u = (s.atTime (s.eAt n)).each (List.range 16) (fun l t => t.settleLink l) ∧
      exec (.bandUnsent n e) s = .next (match u.firstUnsent w c with | some b => u.bandUnsent n c b | none => u)) ∧
  (∀ (s : State) (n : Nat) (c : Chan) (band : Nat) (w : FrameWork), s.frameWork n = some w → (w.sumsOf c.index).repeated = false →
    ∃ u v t : State, t = s.bandUnsent n c band ∧
      u = (s.cutParts n c.index).modFrame n (fun x => x.setSums { x.sumsOf c.index with repeated := true }) ∧
      (v = u ∨ ∃ r pos q, u.boundTo w.chans c = some (r, pos) ∧ u.seqOf n = some q ∧
        v = u.sendControl r c.epPosition q opRepeat (u.pAt n (zoneOffset w.chans c.epZone)) []) ∧
      t.flag F.SYS_PIPE_STAT_BAND_UNSENT = true ∧
      t.get R.SYS_BAND_UNSENT_CNT = min 0xFFFFFFFF (v.get R.SYS_BAND_UNSENT_CNT + 1) ∧
      v.Records [(0x0011, [n, c.handle, band])] t ∧
      v.Leaves [(F.SYS_PIPE_STAT_BAND_UNSENT, 0), (R.SYS_BAND_UNSENT_CNT, 0)] [] t) ∧
  (∀ (s : State) (n : Nat) (c : Chan) (band : Nat), (s.frameWork n).any (fun w => !(w.sumsOf c.index).repeated) = false →
    s.bandUnsent n c band = s) ∧
  (∀ (s : State) (e : Fin 4096) (c : Chan), s.chanAt kEndpoint e = some c → s.flag F.EPG_FIT_STALE e = false →
    ∃ t, exec (.telemStale e) s = .next t ∧ t.uptime = max s.uptime ((s.govEp e).lastReport + 10000000000) ∧
      t.flag F.EPG_FIT_STALE e = true ∧ t.flag F.GOV_EVT_TELEM_STALE = true ∧
      s.Leaves [(F.EPG_FIT_STALE, e), (F.GOV_EVT_TELEM_STALE, 0)] [.time] t) ∧
  (∀ (s : State) (e : Fin 4096) (c : Chan) (q : Rat × Rat), s.chanAt kEndpoint e = some c → s.flag F.GOV_CTL_FIT_EN = true →
    (s.thermType c).isSome = true → s.role ≠ 2 → s.hasStandby = false → s.mirroring = false →
    fitReports (s.govEp e).sigma ((s.govEp e).reports.filter (fun r => decide (s.uptime < r.time + 60 * oneSecond))) = some q →
    ∃ t sg dl, exec (.thermalFit e) s = .next t ∧ (t.govEp e).fitNext = some (sg, dl) ∧
      sg = b64 (if q.1 < 1 / 2 then 1 / 2 else if 2 < q.1 then 2 else q.1) ∧
      dl = b64 (if q.2 < -20 then -20 else if 20 < q.2 then 20 else q.2) ∧
      t.flag F.EPG_FIT_FIT_BOUND e = (decide (q.1 < 1 / 2) || decide (2 < q.1) || decide (q.2 < -20) || decide (20 < q.2)) ∧
      s.Leaves [(F.EPG_FIT_FIT_BOUND, e), (F.GOV_EVT_FIT_BOUND, 0)] [.gov] t)

/-- A write of a load's control register without GO stores its fields alone. With GO, on a device without a Standby, a
load that fails check n with status st completes with them at once: RESULT, CHECK, the next SEQ, its event, its Tally
record, and no other effect; one that passes is pending with the table it read. A pending coefficient bank or curve
that has loaded is put in force, marked as loaded, and completes with OK. (R202, R221, R241, R247) -/
def Obligations.TableLoads : Prop :=
  (∀ (s : State) (w : Word), s.hasStandby = false → s.mirroring = false → bitAt w.toNat 0 = true →
    let s1 := s.put F.CMP_COEF_CTL_BANK (bits w.toNat 4 1)
    ∀ n st, firstFail (s1.coefChecks (bits w.toNat 4 1)) = (n, st) → st < 16 → n < 16 →
      (st ≠ stOK → ∃ t, exec (.coefLoad w) s = .next t ∧
        s.LoadResult F.CMP_COEF_STAT_RESULT F.CMP_COEF_STAT_CHECK F.CMP_COEF_STAT_SEQ F.CMP_EVT_COEF_DONE st n t ∧
        s.Records [(0x0507, [bits w.toNat 4 1, st, n])] t ∧
        s.Leaves [(F.CMP_COEF_CTL_BANK, 0), (F.CMP_COEF_STAT_RESULT, 0), (F.CMP_COEF_STAT_CHECK, 0), (F.CMP_COEF_STAT_SEQ, 0),
          (F.CMP_EVT_COEF_DONE, 0)] [] t) ∧
      (st = stOK → ∃ t, exec (.coefLoad w) s = .next t ∧
        t.cmp = { s.cmp with loading := some (bits w.toNat 4 1, s.coefTable (s.get64 R.CMP_COEF_ADDR_LO)) } ∧
        s.Leaves [(F.CMP_COEF_CTL_BANK, 0)] [.cmp] t)) ∧
  (∀ (s : State) (bank : Nat) (table : List Int), s.cmp.loading = some (bank, table) → 1 ≤ bank → bank ≤ 8 →
    ∃ t, exec .coefLoaded s = .next t ∧ t.cmp.loading = none ∧ t.cmp.banks = s.cmp.banks.filter (fun b => b.1 != bank) ++ [(bank, table)] ∧
      bitAt (t.get F.CMP_COEF_STAT_LOADED) (bank - 1) = true ∧
      s.LoadResult F.CMP_COEF_STAT_RESULT F.CMP_COEF_STAT_CHECK F.CMP_COEF_STAT_SEQ F.CMP_EVT_COEF_DONE stOK 0 t ∧
      s.Records [(0x0507, [bank, stOK, 0])] t) ∧
  (∀ (s : State) (w : Word), s.hasStandby = false → s.mirroring = false → bitAt w.toNat 0 = true →
    let s1 := s.put F.SEP_CURVE_CTL_CURVE (bits w.toNat 5 1)
    ∀ n st, firstFail (s1.curveChecks (bits w.toNat 5 1)) = (n, st) → st < 16 → n < 16 →
      (st ≠ stOK → ∃ t, exec (.curveLoad w) s = .next t ∧
        s.LoadResult F.SEP_CURVE_STAT_RESULT F.SEP_CURVE_STAT_CHECK F.SEP_CURVE_STAT_SEQ F.SEP_EVT_CURVE_DONE st n t ∧
        s.Records [(0x0600, [bits w.toNat 5 1, st, n])] t ∧
        s.Leaves [(F.SEP_CURVE_CTL_CURVE, 0), (F.SEP_CURVE_STAT_RESULT, 0), (F.SEP_CURVE_STAT_CHECK, 0),
          (F.SEP_CURVE_STAT_SEQ, 0), (F.SEP_EVT_CURVE_DONE, 0)] [] t) ∧
      (st = stOK → ∃ t, exec (.curveLoad w) s = .next t ∧ t.sep = { s.sep with loading := some (bits w.toNat 5 1,
          (List.range 3075).map (fun k => s.bulkLe (s.get64 R.SEP_CURVE_ADDR_LO + 2 * k) 2)) } ∧
        s.Leaves [(F.SEP_CURVE_CTL_CURVE, 0)] [.sep] t)) ∧
  (∀ (s : State) (curve : Nat) (table : List Nat), s.sep.loading = some (curve, table) → curve < 32 →
    ∃ t, exec .curveLoaded s = .next t ∧ t.sep.loading = none ∧
      t.sep.curves = s.sep.curves.filter (fun q => q.1 != curve) ++ [(curve, table)] ∧
      bitAt (t.get R.SEP_CURVE_LOADED) curve = true ∧
      s.LoadResult F.SEP_CURVE_STAT_RESULT F.SEP_CURVE_STAT_CHECK F.SEP_CURVE_STAT_SEQ F.SEP_EVT_CURVE_DONE stOK 0 t ∧
      s.Records [(0x0600, [curve, stOK, 0])] t) ∧
  (∀ (s : State) (w : Word), s.hasStandby = false → s.mirroring = false → bitAt w.toNat 0 = true →
    let s1 := s.put F.CAL_LOAD_CTL_AT_FRAME (bits w.toNat 1 1)
    ∀ n st, firstFail (s1.gainChecks (bitAt w.toNat 1)) = (n, st) → st < 16 → n < 16 →
      (st ≠ stOK → ∃ t, exec (.gainLoad w) s = .next t ∧
        s.LoadResult F.CAL_LOAD_STAT_RESULT F.CAL_LOAD_STAT_CHECK F.CAL_LOAD_STAT_SEQ F.CAL_EVT_LOAD_DONE st n t ∧
        s.Records [(0x0706, [s.get F.CAL_LOAD_COUNT_COUNT, 0, st, n])] t ∧
        s.Leaves [(F.CAL_LOAD_CTL_AT_FRAME, 0), (F.CAL_LOAD_STAT_RESULT, 0), (F.CAL_LOAD_STAT_CHECK, 0),
          (F.CAL_LOAD_STAT_SEQ, 0), (F.CAL_EVT_LOAD_DONE, 0)] [] t) ∧
      (st = stOK → ∃ t l, exec (.gainLoad w) s = .next t ∧ t.cal = { s.cal with load := some l } ∧
        l.named = bitAt w.toNat 1 ∧ l.accepted = s.now ∧
        l.entries = (s1.readGains (s1.get64 R.CAL_LOAD_ADDR_LO) (s1.get F.CAL_LOAD_COUNT_COUNT)).map Prod.fst ∧
        l.frame = (if bitAt w.toNat 1 then s.get64 R.CAL_LOAD_FRAME_LO else s1.firstSFrom (s.now + fiveMs)) ∧
        s.Leaves [(F.CAL_LOAD_CTL_AT_FRAME, 0)] [.cal] t)) ∧
  (∀ (s : State) (w : Word), s.hasStandby = false → s.mirroring = false → bitAt w.toNat 0 = true →
    let s1 := (s.put F.GOV_MODEL_CTL_AT_FRAME (bits w.toNat 1 1)).put F.GOV_MODEL_CTL_COUNT (bits w.toNat 8 2)
    let ts := (List.range (bits w.toNat 8 2)).map (fun k => s1.readType (s1.get64 R.GOV_MODEL_ADDR_LO + 416 * k))
    ∀ n st, firstFail (s1.modelChecks (s1.get64 R.GOV_MODEL_ADDR_LO) (bits w.toNat 8 2) (s1.get64 R.GOV_MODEL_FRAME_LO)
        (bitAt w.toNat 1) ts) = (n, st) → st < 16 → n < 16 →
      (st ≠ stOK → ∃ t, exec (.modelLoad w) s = .next t ∧
        s.LoadResult F.GOV_MODEL_STAT_RESULT F.GOV_MODEL_STAT_CHECK F.GOV_MODEL_STAT_SEQ F.GOV_EVT_MODEL_DONE st n t ∧
        s.Records [(0x0804, [s.get R.GOV_MODEL_VER, 0, 0, st, n])] t ∧
        s.Leaves [(F.GOV_MODEL_CTL_AT_FRAME, 0), (F.GOV_MODEL_CTL_COUNT, 0), (F.GOV_MODEL_STAT_RESULT, 0),
          (F.GOV_MODEL_STAT_CHECK, 0), (F.GOV_MODEL_STAT_SEQ, 0), (F.GOV_EVT_MODEL_DONE, 0)] [] t) ∧
      (st = stOK → ∃ t l, exec (.modelLoad w) s = .next t ∧ t.gov = { s.gov with load := some l } ∧ l.types = ts ∧
        l.frame = (if bitAt w.toNat 1 then s1.get64 R.GOV_MODEL_FRAME_LO else s1.firstSFrom (s.now + fiveMs)) ∧
        s.Leaves [(F.GOV_MODEL_CTL_AT_FRAME, 0), (F.GOV_MODEL_CTL_COUNT, 0)] [.gov] t)) ∧
  (∀ (s : State) (w : Word), bitAt w.toNat 0 = false →
    exec (.coefLoad w) s = .next (s.put F.CMP_COEF_CTL_BANK (bits w.toNat 4 1)) ∧
    exec (.curveLoad w) s = .next (s.put F.SEP_CURVE_CTL_CURVE (bits w.toNat 5 1)) ∧
    exec (.gainLoad w) s = .next (s.put F.CAL_LOAD_CTL_AT_FRAME (bits w.toNat 1 1)) ∧
    exec (.modelLoad w) s = .next ((s.put F.GOV_MODEL_CTL_AT_FRAME (bits w.toNat 1 1)).put F.GOV_MODEL_CTL_COUNT (bits w.toNat 8 2)))

/-- PACKET_RECEIVE counts ING_FILTERED where no running network stream listens on the path, and in Dormant, in Warm and
for a packet of a form the port does not accept nothing happens. One that breaks a format rule is counted with the
rule. A packet whose sequence number has arrived refreshes its path while its twin is at most 10 ms old, else it is
discarded. Of any other packet the path is heard, and the packet is added to its picture: one in reception, one that
it opens where its timestamp is later than every earlier one, or on a two-path stream one whose first copies were lost
on the faster path. A picture that a packet completes is stored, on a structure with UNPACK. (R150, R154, R157, R159,
R160) -/
def Obligations.PacketsReceived : Prop :=
  (∀ (s : State) (i : Fin 32) (b : Bool) (p : RtpPacket), (s.netStream i).any (fun c => c.hasPath b) = false →
    exec (.packetReceive i b p) s = .next (s.bump R.ING_FILTERED)) ∧
  (∀ (s : State) (i : Fin 32) (b : Bool) (p : RtpPacket) (c : Chan), s.netStream i = some c → c.hasPath b = true →
    s.power < 2 ∨ packetAccepted p = false → exec (.packetReceive i b p) s = .next s) ∧
  (∀ (s : State) (i : Fin 32) (b : Bool) (p : RtpPacket) (c : Chan), s.netStream i = some c → c.hasPath b = true →
    2 ≤ s.power → packetAccepted p = true →
    let x := s.stream i
    let heard := s.pathHeard i b ((p.srds.map (fun r => r.data.length)).sum)
    let known := x.pics.any (fun q => q.timestamp == p.timestamp)
    let later := x.lastTs.all (fun t => laterTs p.timestamp t)
    (∀ rule, s.formatBreak c i p = some rule → exec (.packetReceive i b p) s = .next (s.formatDiscard c i rule)) ∧
    (s.formatBreak c i p = none → ∀ t, x.twinAt p.seq = some t →
      exec (.packetReceive i b p) s = .next (if s.uptime ≤ t + 10000000 then heard else s)) ∧
    (s.formatBreak c i p = none → x.twinAt p.seq = none →
      exec (.packetReceive i b p) s = .next ((if known then heard else if later then heard.openPicture c i p
        else heard.openOlder c i p).addPacket c i p))) ∧
  (∀ (u : State) (c : Chan) (i : Nat) (p : RtpPacket),
    ((u.stream i).pics.find? (fun q => q.timestamp == p.timestamp) = none → u.addPacket c i p = u) ∧
    (∀ q, (u.stream i).pics.find? (fun q => q.timestamp == p.timestamp) = some q →
      ∃ (r : Picture) (v : State), r = { q.take c.streamFmt c.streamW u.uptime p with buf := q.buf.orElse (fun _ => u.freeBuffer i) } ∧
        v = u.modStream i (fun y => { y with
          pics := y.pics.map (fun z => if z.timestamp == p.timestamp then r else z),
          marks := if p.marker then y.marks ++ [(p.timestamp, p.seq)] else y.marks }) ∧
        (u.kindServed 1 = false → u.addPacket c i p = v) ∧
        (u.kindServed 1 = true → ∃ l w, w = v.writePixels c r l ∧
          u.addPacket c i p = (if (w.stream i).complete c r then w.pictureComplete c i r else w))))

/-- STREAM_NO_SIGNAL acts STALL after the last packet, once until the signal resumes: STATE 3, NO_SIGNAL and 0x0400, and
the path of a one-path stream is no longer OK. PATH_LOST of a two-path stream clears the path's OK bit, sets PATH_LOST
and records 0x0407. PICTURE_PARTIAL_TIMEOUT acts 10 ms after the first packet later than a picture, and gives that
picture up; the other pictures stay. IGMP_QUERY reports every group a port has joined, of the queried group or all, in
the version last heard; a query of a group and a source is answered for them alone. (R155, R157, R160, R161) -/
def Obligations.StreamEvents : Prop :=
  (∀ (s : State) (i : Fin 32) (c : Chan), s.netStream i = some c → (s.stream i).noSignal = none →
    ∃ t, exec (.streamNoSignal i) s = .next t ∧ t.get F.ING_S_STAT_STATE i = 3 ∧ t.flag F.ING_EVT_NO_SIGNAL = true ∧
      t.uptime = max s.uptime (max (s.stream i).lastA (s.stream i).lastB + c.val 0x020B * 1000) ∧
      s.Records [(0x0400, [c.handle, s.get64 R.ING_S_MEDIA_LO i])] t ∧
      (c.hasPath true = false → t.flag F.ING_S_STAT_PATH_A_OK i = false) ∧
      s.Leaves ([(F.ING_S_STAT_STATE, i.val), (F.ING_EVT_NO_SIGNAL, 0)] ++ (if c.hasPath true then [] else [(F.ING_S_STAT_PATH_A_OK, i.val)]))
        [.ing, .time] t) ∧
  (∀ (s : State) (i : Fin 32), s.netStream i = none → exec (.streamNoSignal i) s = .next s ∧
    exec (.pathLost i false) s = .next s ∧ exec (.pathLost i true) s = .next s ∧ exec (.picturePartialTimeout i) s = .next s) ∧
  (∀ (s : State) (i : Fin 32) (b : Bool) (c : Chan), s.netStream i = some c → c.hasPath true = true →
    ∃ t, exec (.pathLost i b) s = .next t ∧ t.flag (if b then F.ING_S_STAT_PATH_B_OK else F.ING_S_STAT_PATH_A_OK) i = false ∧
      t.flag F.ING_EVT_PATH_LOST = true ∧ s.Records [(0x0407, [c.handle, if b then 1 else 0])] t ∧
      s.Leaves [(if b then F.ING_S_STAT_PATH_B_OK else F.ING_S_STAT_PATH_A_OK, i), (F.ING_EVT_PATH_LOST, 0)] [.time] t) ∧
  (∀ (s : State) (i : Fin 32) (c : Chan) (q : Picture) (at_ : Nat), s.netStream i = some c →
    (s.stream i).nextPartial = some (q, at_) → i.val < s.ing.streams.length →
    ∃ t, exec (.picturePartialTimeout i) s = .next t ∧ t.uptime = max s.uptime (at_ + 10000000) ∧
      (t.stream i).pics = (s.stream i).pics.filter (fun x => x.timestamp != q.timestamp) ∧
      t.get R.ING_S_PARTIAL i = min 0xFFFFFFFF (s.get R.ING_S_PARTIAL i + 1) ∧ t.flag F.ING_EVT_PARTIAL = true ∧
      s.Leaves [(R.ING_S_PARTIAL, i), (F.ING_EVT_PARTIAL, 0)] [.ing, .time] t) ∧
  (∀ (s : State) (port : Fin 18) (version group : Nat),
    let g := group % 2 ^ 32
    let src := group / 2 ^ 32
    ∃ u, u.ing = { s.ing with v2Heard := if version = 2 then (port.val, s.uptime) :: s.ing.v2Heard.filter (fun q => q.1 != port.val)
        else s.ing.v2Heard } ∧ s.Leaves [] [.ing] u ∧
      (g ≠ 0 → src ≠ 0 → exec (.igmpQuery port version group) s = .next (if wanted (u.joined port 0) g src
        then u.sendReport port false g src else u)) ∧
      (g = 0 ∨ src = 0 → exec (.igmpQuery port version group) s = .next ((u.joined port 0).foldl (fun v j =>
        if g = 0 ∨ g = j.1 then v.sendReport port false j.1 j.2 else v) u)))

/-- JOB_SUBMIT with GO, on a device without a Standby: a job that fails check n with status st completes with them; one
that passes joins the queue, and its slot is no longer ready. Engines in service are gated or run as the queue has it.
JOB_DONE of the oldest job, on a structure with UNPACK, writes its picture into its slot, makes the slot ready and
completes with OK; the job of a channel that is gone is discarded and counted, with its completion. In Dormant and
without UNPACK nothing happens. (R127, R170) -/
def Obligations.StillLoadJobs : Prop :=
  (∀ (s : State) (w : Word), s.hasStandby = false → s.mirroring = false → bitAt w.toNat 0 = true →
    ∀ n st, firstFail s.jobChecks = (n, st) → st < 16 → n < 16 →
    (st ≠ stOK → ∃ t, exec (.jobSubmit w) s = .next t ∧
      s.LoadResult F.ING_JOB_STAT_RESULT F.ING_JOB_STAT_CHECK F.ING_JOB_STAT_SEQ F.ING_EVT_JOB_DONE st n t ∧
      s.Records [(0x0405, [s.get R.ING_JOB_DST, s.get R.ING_JOB_SLOT, st, n])] t ∧
      s.Leaves [(F.ING_JOB_STAT_RESULT, 0), (F.ING_JOB_STAT_CHECK, 0), (F.ING_JOB_STAT_SEQ, 0), (F.ING_EVT_JOB_DONE, 0)] [] t) ∧
    (st = stOK → ∃ t j, exec (.jobSubmit w) s = .next t ∧ t.ing.jobs = s.ing.jobs ++ [j] ∧ j.handle = s.get R.ING_JOB_DST ∧
      j.slot = s.get R.ING_JOB_SLOT ∧ j.src = s.get64 R.ING_JOB_SRC_LO ∧ j.pitch = s.get R.ING_JOB_PITCH ∧
      (∀ k, ((t.stream k).ready.contains j.slot && k == handleIndex j.handle) = false) ∧
      s.Leaves ((F.ING_STAT_JOBS, 0) :: engineStates) [.ing] t)) ∧
  (∀ (s : State) (w : Word), bitAt w.toNat 0 = false → exec (.jobSubmit w) s = .next s) ∧
  (∀ (s : State) (j : Job) (rest : List Job) (c : Chan), s.ing.jobs = j :: rest → s.power ≠ 0 → s.kindServed 1 = true → s.chanOf j.handle = some c →
    ∃ u t : State, u.ing = { s.ing with jobs := rest } ∧ s.Leaves ((F.ING_STAT_JOBS, 0) :: engineStates) [.ing] u ∧
      exec .jobDone s = .next t ∧
      t.bulk = (u.writePicture (c.slotBase j.slot) c.streamW c.streamH false (u.jobPixel c j)).bulk ∧
      t.ing.jobs = rest ∧ s.LoadResult F.ING_JOB_STAT_RESULT F.ING_JOB_STAT_CHECK F.ING_JOB_STAT_SEQ F.ING_EVT_JOB_DONE stOK 0 t ∧
      s.Records [(0x0405, [j.handle, j.slot, stOK, 0])] t ∧
      s.Leaves ([(F.ING_STAT_JOBS, 0), (F.ING_JOB_STAT_RESULT, 0), (F.ING_JOB_STAT_CHECK, 0), (F.ING_JOB_STAT_SEQ, 0),
        (F.ING_EVT_JOB_DONE, 0)] ++ engineStates) [.ing, .bulk] t) ∧
  (∀ (s : State) (j : Job) (rest : List Job), s.ing.jobs = j :: rest → s.power ≠ 0 → s.kindServed 1 = true → s.chanOf j.handle = none →
    ∃ t, exec .jobDone s = .next t ∧ t.ing.jobs = rest ∧ t.get R.CH_DISCARD_CNT = min 0xFFFFFFFF (s.get R.CH_DISCARD_CNT + 1) ∧
      t.flag F.CH_EVT_DISCARD = true ∧ s.Records [(0x0405, [j.handle, j.slot, stOK, 0])] t ∧
      s.Leaves ([(F.ING_STAT_JOBS, 0), (R.CH_DISCARD_CNT, 0), (F.CH_EVT_DISCARD, 0), (F.ING_JOB_STAT_RESULT, 0),
        (F.ING_JOB_STAT_CHECK, 0), (F.ING_JOB_STAT_SEQ, 0), (F.ING_EVT_JOB_DONE, 0)] ++ engineStates) [.ing] t) ∧
  (∀ (s : State), s.ing.jobs = [] ∨ s.power = 0 ∨ s.kindServed 1 = false → exec .jobDone s = .next s)

/-- Layers are dropped in order from the lowest; what is left costs what is reported; the cost is within the allowance
unless one layer is left; and with one fewer dropped the band would be over its allowance. No layer is dropped of a
band without layers or with one. (R191) -/
def Obligations.DroppedLayersAreFewest : Prop :=
  ∀ (avail2 : Nat) (l : List (Nat × Nat)),
    let q := dropLayers avail2 l
    q.1 = (l.take q.1.length).map Prod.fst ∧ q.2 = ((l.drop q.1.length).map Prod.snd).sum ∧
      (l ≠ [] → q.1.length < l.length) ∧ (q.2 ≤ avail2 ∨ l.length ≤ q.1.length + 1) ∧
      (∀ k, k < q.1.length → avail2 < ((l.drop k).map Prod.snd).sum)

/-- COMPOSE_BAND of a frame in work, with an engine that carries COMPOSE, composes its next band (a scaled layer shows
nothing without SCALE): the band is on the canvas, the carry is what the allowance leaves, the layers dropped are
counted and marked and CMP_EVT.DROPPED set; the last band ends the frame. Without a band left, or without the frame,
nothing happens. SEPARATE_BAND of a frame in work whose forecast is made and whose next band is composed, with engines
that carry SEPARATE and DITHERPACK, separates that band for every running endpoint and counts it sent, and escalated
background work may go ahead; after the last band the drive sums are finished unless a part still waits in a ring
port, and the hold notices go out where the frame is the last of a rate change or a step. Otherwise nothing happens.
WB_COMPLETE of a running writeback, with an engine that carries WRITEBACK, writes its picture, WB_FRAME and LAST_BUF,
and makes the slot of a format 1 rectangle ready. WB_INCOMPLETE, at D(n), sets INCOMPLETE and its event and records
0x0508, leaving WB_FRAME as it is. Without a running writeback neither does anything. (R191, R193, R214, R215, R200,
R201) -/
def Obligations.BandsInOrder : Prop :=
  ((∀ (s : State) (n : Nat), s.frameWork n = none → exec (.composeBand n) s = .next s) ∧
   (∀ (s : State) (n : Nat) (w : FrameWork), s.frameWork n = some w →
     w.active = false ∨ s.kindServed 3 = false ∨ (bandSequence w.regions).length ≤ w.bandsDone → exec (.composeBand n) s = .next s) ∧
   (∀ (s : State) (n : Nat) (w : FrameWork) (r : RegionWork) (b : Nat), s.frameWork n = some w → w.active = true →
     s.kindServed 3 = true → (bandSequence w.regions)[w.bandsDone]? = some (r, b) →
     ∃ (v : State) (layers : List LayerWork) (costs : List Nat) (q : List Nat × Nat) (avail2 : Nat) (t : State),
       v = s.asOf n w.bandsDone ∧ 
         layers = w.layers.map (fun l => if l.chan.scaled && !s.kindServed 2 then { l with shows := .nothing } else v.reshow l) ∧ costs = v.bandCosts layers r b ∧
       avail2 = 2 * s.allowance (bandSequence w.regions).length + w.carry ∧
       q = dropLayers avail2 ((List.range costs.length).filterMap (fun i => if costs.getD i 0 = 0 then none else some (i, costs.getD i 0))) ∧
       exec (.composeBand n) s = .next t ∧
       t.frames.map FrameWork.frame = s.frames.map FrameWork.frame ∧
       (∀ u, t.frameWork n = some u → u.bandsDone = w.bandsDone + 1 ∧ u.carry = avail2 - q.2 ∧ u.drops = w.drops + q.1.length ∧
         u.canvas = w.canvas ++ [(w.bandsDone, v.blendBand { w with layers := layers } r b q.1)]) ∧
       t.get R.CMP_DROP_CNT = min 0xFFFFFFFF (s.get R.CMP_DROP_CNT + q.1.length) ∧
       (q.1 ≠ [] → t.flag F.CMP_EVT_DROPPED = true))) ∧
  ((∀ (s : State) (n : Nat), s.frameWork n = none → exec (.separateBand n) s = .next s) ∧
   (∀ (s : State) (n : Nat) (w : FrameWork), s.frameWork n = some w →
     w.active = false ∨ w.forecastDone = false ∨ w.sumsDone = true ∨ max 1 (bandSequence w.regions).length ≤ w.bandsSent ∨
       ((bandSequence w.regions) ≠ [] ∧ w.bandsDone ≤ w.bandsSent) ∨ s.mayBegin n w.bandsSent = false ∨ s.kindServed 4 = false ∨
       s.kindServed 6 = false →
     exec (.separateBand n) s = .next s) ∧
   (∀ (s : State) (n : Nat) (w : FrameWork), s.frameWork n = some w → w.active = true → w.forecastDone = true → w.sumsDone = false →
     w.bandsSent < max 1 (bandSequence w.regions).length → (bandSequence w.regions = [] ∨ w.bandsSent < w.bandsDone) →
     s.mayBegin n w.bandsSent = true → s.kindServed 4 = true → s.kindServed 6 = true →
     ∃ (t u : State), t = (s.each (w.running kEndpoint) (fun c v =>
         v.each (w.bandsAt c (v.lineBands c (w.epPlace c)) w.bandsSent) (fun b x => match x.frameWork n with
           | some y => x.separateEndpoint y c (v.lineBands c (w.epPlace c)) b w.bandsSent
           | none => x))).modFrame n (fun x => { x with bandsSent := w.bandsSent + 1 }) ∧
       u = (if t.someWaits n then t else t.finishSums n) ∧
       (w.bandsSent + 1 < max 1 (bandSequence w.regions).length → exec (.separateBand n) s = .next (t.serveAhead n)) ∧
       (w.bandsSent + 1 = max 1 (bandSequence w.regions).length →
         exec (.separateBand n) s = .next (if s.sys.rateChg.any (fun r => r.last == n) || s.tim.plan.any (fun p => p.last == n)
           then u.sendHoldNotices ((u.seqOf n).getD u.seqNow) else u)))) ∧
  ((∀ (s : State) (i : Fin 16) (q : Nat × WbWork) (w : FrameWork), s.cmp.wb.find? (fun q => q.1 == i.val) = some q →
     s.frameWork q.2.frame = some w → s.kindServed 9 = true →
     ∃ u t : State, u.cmp = { s.cmp with wb := s.cmp.wb.filter (fun q => q.1 != i.val) } ∧ s.Leaves [] [.cmp] u ∧
       exec (.wbComplete i) s = .next t ∧ t.bulk = (u.wbWrite w q.2).bulk ∧ t.cmp = u.cmp ∧ t.get64 R.WB_FRAME_LO i = q.2.frame % 2 ^ 64 ∧
       t.get F.WB_STAT_LAST_BUF i = q.2.buf % 2 ^ F.WB_STAT_LAST_BUF.width ∧ t.flag F.WB_STAT_INCOMPLETE i = false ∧
       (q.2.format = 1 → q.2.slot ∈ (t.stream (handleIndex q.2.dst)).ready ∨ s.ing.streams.length ≤ handleIndex q.2.dst)) ∧
   (∀ (s : State) (i : Fin 16) (q : Nat × WbWork), s.cmp.wb.find? (fun q => q.1 == i.val) = some q →
     ∃ t, exec (.wbIncomplete i) s = .next t ∧ t.cmp.wb = s.cmp.wb.filter (fun q => q.1 != i.val) ∧
       t.flag F.WB_STAT_INCOMPLETE i = true ∧ t.flag F.CMP_EVT_WB_INCOMPLETE = true ∧
       s.Records [(0x0508, [i.val, q.2.frame])] t ∧
       s.Leaves [(F.WB_STAT_INCOMPLETE, i), (F.CMP_EVT_WB_INCOMPLETE, 0)] [.cmp, .time] t) ∧
   (∀ (s : State) (i : Fin 16), s.kindServed 9 = false → exec (.wbComplete i) s = .next s) ∧
   (∀ (s : State) (i : Fin 16), s.cmp.wb.find? (fun q => q.1 == i.val) = none →
     exec (.wbComplete i) s = .next s ∧ exec (.wbIncomplete i) s = .next s))

/-- Where the agreement test of an entry stages a new gain, the gain lies from GMIN to GMAX and within STEP of the gain in
force (both products in binary64), and it is marked as cut exactly where it is not the target of the two appearances.
An entry with an appearance below half or above twice the zone's is suspect, whatever else holds. (R234, R238) -/
def Obligations.StagedGainIsBounded : Prop :=
  (∀ (z : Chan) (ra rb : Option Rat) (g n : Nat) (cut : Bool), agree z ra rb g = .stage n cut →
    z.calMin ≤ n ∧ n ≤ z.calMax ∧
      (b64 ((g : Rat) * b64 (1 - b64 (mkRat z.calStep 10000)))).ceil ≤ (n : Int) ∧
      (n : Int) ≤ (b64 ((g : Rat) * b64 (1 + b64 (mkRat z.calStep 10000)))).floor ∧
      (∀ p q, ra = some p → rb = some q → cut = decide ((n : Int) ≠ roundHalfUp (b64 (b64 ((g : Rat) * 2) / b64 (p + q)))))) ∧
  (∀ (z : Chan) (p q : Rat) (g : Nat), p < 1 / 2 ∨ 2 < p ∨ q < 1 / 2 ∨ 2 < q → agree z (some p) (some q) g = .suspect)

/-- ACC_READ of a frame behind D(n) opens the frame's window of every fitting zone and adds the frame to its members'
windows; ACC_MISSED voids those windows, counts and records the miss. Either way the frame is no longer behind; on a
Standby nothing else happens. A window is open from the frame that reads or misses it first, to close at the time of
R229. WINDOW_CLOSE of an enabled zone closes the oldest open window at its time and shows the zone. (R229, R230, R231) -/
def Obligations.CalibrationWindows : Prop :=
  (∀ (s : State) (n : Nat), s.role = 2 ∨ (s.cal.behind.find? (fun q => q.frame == n)) = none →
    exec (.accRead n) s = .next (s.accDone n) ∧ exec (.accMissed n) s = .next (s.accDone n)) ∧
  (∀ (s : State) (n : Nat) (q : Behind), s.role ≠ 2 → s.cal.behind.find? (fun q => q.frame == n) = some q →
    (∃ u : State, u = s.each s.fitting (fun z t =>
        (((t.openWindow z (n / max 1 z.calWindow)).each (membersOf q.chans z.handle) (fun c v =>
          v.accumulate c (n / max 1 z.calWindow) q)).showZone z)) ∧
      exec (.accRead n) s = .next (u.accDone n)) ∧
    (∃ t, exec (.accMissed n) s = .next t ∧ t.cal.behind = s.cal.behind.filter (fun k => k.frame != n) ∧
      t.get R.CAL_ACC_MISS_CNT = min 0xFFFFFFFF (s.get R.CAL_ACC_MISS_CNT + 1) ∧ t.flag F.CAL_EVT_ACC_MISS = true ∧
      s.Records [(0x0703, [n, (s.fitting.flatMap (fun z => membersOf q.chans z.handle)).length])] t)) ∧
  (∀ (s : State) (i : Fin 256) (z : Chan) (w at_ : Nat) (rest : List (Nat × Nat)), s.chanAt kZone i = some z →
    (s.calZone i).opens = (w, at_) :: rest → z.calEn = true →
    ∃ t, exec (.windowClose i) s = .next t ∧ (t.calZone i).opens = rest ∧ (t.calZone i).closed = some w ∧
      at_ ≤ t.now ∧ (t.calZone i).due = ((s.calZone i).pairOk z.calWindow w && ((s.calZone i).closed == some (w - 1))) ∧
      t.cmd = s.cmd ∧ t.frames = s.frames) ∧
  (∀ (s : State) (z : Chan) (w : Nat), ((s.openWindow z w).calZone z.index).opens =
    (s.calZone z.index).opens.filter (fun o => o.1 != w) ++ [(w, s.closeTime z w)]) ∧
  (∀ (s : State) (i : Fin 256), (∀ z, s.chanAt kZone i = some z → z.calEn = false) ∨ (s.calZone i).opens = [] →
    exec (.windowClose i) s = .next s)

/-- CAL_EVALUATE of a zone whose pair is due, on a device that is not Standby, in Show or Hold, clears the due pair; one
that a correction or a CAL value has overtaken is not evaluated; a void zone window rejects it with reason 4; else a
frozen zone counts and stages nothing, and any other zone is accepted with the entries staged or rejected with a
reason. Where no pair is due nothing happens. CAL_SKIPPED takes the oldest late pair: counted, reason 5, its event set
and 0x0704 recorded. CLEAR_FAILED_MARKS and VOID_OPEN_WINDOWS set CAL_CMD.OP; with CAL_CMD_ZONE a live zone, on a
device without a Standby, the first clears every member's failed mark and suspect count and records 0x0707 with their
number, the second voids the zone's open windows. Otherwise CAL_EVT.CMD_REJECT is set and nothing else changes. (R234,
R235, R239, R238, R243) -/
def Obligations.CalibrationPairsAndCommands : Prop :=
  ((∀ (s : State) (i : Fin 256), (s.chanAt kZone i).isNone = true ∨ (s.calZone i).closed = none ∨ (s.calZone i).due = false ∨ s.role = 2 ∨
     s.power < 2 → exec (.calEvaluate i) s = .next s) ∧
   (∀ (s : State) (i : Fin 256) (z : Chan) (wb : Nat), s.chanAt kZone i = some z → (s.calZone i).closed = some wb →
     (s.calZone i).due = true → s.role ≠ 2 → 2 ≤ s.power →
     ∃ t, exec (.calEvaluate i) s = .next t ∧ (t.calZone i).due = false ∧ t.cmd = s.cmd ∧ t.frames = s.frames ∧ t.now = s.now ∧
       (z.calFreeze = true → t.cal.staged = s.cal.staged ∧ t.get R.Z_ACCEPT_CNT i = s.get R.Z_ACCEPT_CNT i ∧
         t.get R.Z_REJECT_CNT i = s.get R.Z_REJECT_CNT i)) ∧
   (∀ (s : State) (i : Fin 256) (z : Chan) (wb : Nat), s.chanAt kZone i = some z → (s.calZone i).closed = some wb →
     (s.calZone i).due = true → s.role ≠ 2 → 2 ≤ s.power →
     ∃ u : State, u = (s.setCalZone { s.calZone i with due := false }).showZone z ∧
       ((s.calZone i).pairOk z.calWindow wb = false → exec (.calEvaluate i) s = .next u) ∧
       ((s.calZone i).pairOk z.calWindow wb = true →
         (s.calZone i).voids.contains wb = true ∨ (s.calZone i).voids.contains (wb - 1) = true →
         exec (.calEvaluate i) s = .next (u.calReject z wb 4 7))) ∧
   (∀ (s : State) (i : Fin 256) (z : Chan) (wb : Nat) (rest : List Nat), s.chanAt kZone i = some z → (s.calZone i).late = wb :: rest →
     ∃ t, exec (.calSkipped i) s = .next t ∧ (t.calZone i).late = rest ∧
       t.get R.Z_REJECT_CNT i = min 0xFFFFFFFF (s.get R.Z_REJECT_CNT i + 1) ∧ t.flag F.CAL_EVT_REJECTED = true ∧
       t.get F.Z_STAT_LAST_REASON i = 5 ∧ s.Records [(0x0704, [z.handle, wb])] t ∧
       s.Leaves [(R.Z_REJECT_CNT, i), (F.CAL_EVT_REJECTED, 0), (F.Z_STAT_LAST_REASON, i)] [.cal] t)) ∧
  ((∀ (s : State) (z : Chan), s.hasStandby = false → s.mirroring = false → s.cmdZone = some z →
     (∃ u : State, u = (s.put F.CAL_CMD_OP 1).each (membersOf s.cmd.chans z.handle) (fun c t => t.sensorClear c) ∧
       exec .clearFailedMarks s = .next ((u.tally 0x0707 [z.handle,
         ((membersOf s.cmd.chans z.handle).filter (fun c => s.flag (fFailed c.kind) c.index)).length]).showZone z)) ∧
     exec .voidOpenWindows s = .next ((s.put F.CAL_CMD_OP 2).voidOpen z)) ∧
   (∀ (s : State), s.cmdZone = none →
     (∃ t, exec .clearFailedMarks s = .next t ∧ t.get F.CAL_CMD_OP = 1 ∧ t.flag F.CAL_EVT_CMD_REJECT = true ∧
       s.Leaves [(F.CAL_CMD_OP, 0), (F.CAL_EVT_CMD_REJECT, 0)] [] t) ∧
     (∃ t, exec .voidOpenWindows s = .next t ∧ t.get F.CAL_CMD_OP = 2 ∧ t.flag F.CAL_EVT_CMD_REJECT = true ∧
       s.Leaves [(F.CAL_CMD_OP, 0), (F.CAL_EVT_CMD_REJECT, 0)] [] t)))

/-- FIXTURE_FRAME of a started frame, once and with an engine that carries FIXTURE, works every running fixture at S(n):
in Show from its inputs, and every running universe's slots are built; in Hold its moving attributes go on to their
last targets. SACN_DATA sends, at E(n), what was built for a universe that is due; one that comes after D(n) is late.
SACN_LATE, at D(n), gives up one still due: counted, its event and LATE set. SACN_SYNC sends one synchronisation
packet a port at P_z(n). In Hold the last slots of every running universe are resent with Synchronisation Address 0. A
universe that ends sends three packets with Stream_Terminated set. Discovery lists the universes of each sACN port
while DISC_EN is set. (R303, R309, R312, R314) -/
def Obligations.SacnOutput : Prop :=
  (∀ (s : State) (n : Nat) (w : FrameWork), s.frameWork n = some w → w.moved = false → 2 ≤ s.power → s.kindServed 7 = true →
    (w.active = true → ∃ u t : State, u = (s.atTime (s.sAt n)).each (w.running kFixture) (fun c t => t.fixtureFrame w c) ∧
      exec (.fixtureFrame n) s = .next t ∧ t = ({ u with fix := { u.fix with
        built := (w.running kUniverse).map (fun v => (n, v.handle, u.univBuild w v)) ++
          u.fix.built.filter (fun b => decide (n < b.1 + 4 ∧ b.1 ≠ n)) } } : State).modFrame n (fun x => { x with moved := true })) ∧
    (w.active = false → exec (.fixtureFrame n) s = .next (((s.atTime (s.sAt n)).each (w.running kFixture) (fun c t =>
      t.fixtureHold w c)).modFrame n (fun x => { x with moved := true })))) ∧
  (∀ (s : State) (n : Nat), (∀ w, s.frameWork n = some w → w.moved = true) ∨ s.power < 2 ∨ s.kindServed 7 = false →
    exec (.fixtureFrame n) s = .next s) ∧
  (∀ (s : State) (n : Nat) (i : Fin 8192) (w : FrameWork), s.frameWork n = some w → w.active = true →
    (∃ v : State, v = s.atTime (s.eAt n) ∧
      (v.now ≤ v.dAt n → exec (.sacnData n i) s = .next (v.sendBuilt w n i)) ∧
      (v.dAt n < v.now → exec (.sacnData n i) s = .next (match v.univDue w i with | some u => v.univLate u n | none => v))) ∧
    ((s.atTime (s.dAt n)).univDue w i = none → exec (.sacnLate n i) s = .next (s.atTime (s.dAt n))) ∧
    (∀ u, (s.atTime (s.dAt n)).univDue w i = some u →
      ∃ t, exec (.sacnLate n i) s = .next t ∧ (t.univOf u.handle).done = some n ∧ t.flag F.U_STAT_LATE u.index = true ∧
        t.flag F.FIX_EVT_LATE = true ∧ t.get R.FIX_LATE_CNT = min 0xFFFFFFFF (s.get R.FIX_LATE_CNT + 1) ∧ t.outs = s.outs)) ∧
  (∀ (s : State) (n sync : Nat) (w : FrameWork) (u : Chan) (us : List Chan), s.frameWork n = some w →
    w.syncUniverses sync = u :: us → w.active = true → s.red.sacnStop = false →
    ∃ (v : State) (tagOf : Nat → Option (Nat × Nat)), v = s.atTime (s.pAt n (zoneOffset w.chans u.univZone)) ∧
      (∀ p, tagOf p = ((u :: us).find? (fun c => c.univPort == p)).bind Chan.univTagOf) ∧
      exec (.sacnSync n sync) s = .next (v.each ((u :: us).map Chan.univPort).eraseDups (fun p t =>
        t.each (t.portLinks p) (fun l x => x.sendSync (tagOf p) sync l)))) ∧
  (∀ (s : State) (n sync : Nat) (i : Fin 8192), (s.frameWork n).any (fun w => w.active) = false →
    exec (.sacnData n i) s = .next s ∧ exec (.sacnLate n i) s = .next s ∧
    (s.frameWork n = none → exec (.sacnSync n sync) s = .next s)) ∧
  (∀ (s : State), s.power = 2 → exec .sacnHoldResend s = .next (s.each
    (sortBy (fun a b => decide (a.index ≤ b.index)) (s.running kUniverse)) (fun u t =>
      match (t.univOf u.handle).last with
      | some slots => (t.sendUniverse u 0 false slots).1
      | none => t))) ∧
  (∀ (s : State), s.power ≠ 2 → exec .sacnHoldResend s = .next s) ∧
  (∀ (s : State) (i : Fin 8192), s.fix.terms.find? (fun t => t.chan.index == i.val) = none → exec (.univTerminated i) s = .next s) ∧
  (∀ (s : State) (i : Fin 8192) d, s.fix.terms.find? (fun t => t.chan.index == i.val) = some d → d.cause = 0 →
    s.role ≠ 2 → s.red.sacnStop = false →
    ∃ u v : State, u.fix = { s.fix with terms := s.fix.terms.filter (fun t => t.chan.handle != d.chan.handle) } ∧ s.Leaves [] [.fix] u ∧
      v = u.each (List.range 3) (fun j t => ((t.atTime (t.eAt d.frame + j * 65536000000)).sendUniverse d.chan d.chan.univSync true
        (((s.univOf d.chan.handle).last).getD (List.replicate d.chan.univSlots 0))).1) ∧
      exec (.univTerminated i) s = .next ((v.raise F.FIX_EVT_TERMINATED).tally 0x0A00 [d.chan.handle, d.chan.univNo, d.cause])) ∧
  (∀ (s : State), s.flag F.FIX_CTL_DISC_EN = false ∨ s.role = 2 ∨ s.red.sacnStop = true →
    exec .universeDiscovery s = .next s) ∧
  (∀ (s : State), s.flag F.FIX_CTL_DISC_EN = true → s.role ≠ 2 → s.red.sacnStop = false →
    ∃ (sent : List Chan) (list : Nat → List Nat), sent = (if 2 ≤ s.power then s.running kUniverse else []) ∧
      (∀ p, list p = sortBy (fun a b => decide (a ≤ b)) ((sent.filter (fun u => u.univPort == p)).map Chan.univNo)) ∧
      exec .universeDiscovery s = .next (s.each ((List.range 19).filter (fun p => s.hasRole p 2)) (fun p t =>
        t.each (t.portLinks p) (fun l x => x.each (pagesOf (list p)).zipIdx (fun q y =>
          (y.sendE131 none l (univGroup 64214) (y.e131Discovery q.2 ((pagesOf (list p)).length - 1) q.1)).1)))))

/-- PORT_ENABLE of a disabled port is refused with the first failing reason of R335, leaving EN at 0, or sets EN and
begins the port; of an enabled port, off clears EN and blanks a driving port from the next S. A write of the value in
force does nothing. The walks report a short they find; RELEASE_BLANKED marks the port's blanked groups for release;
the test starts and ends at the next S. A command of a port that is not enabled sets DDP_EVT.CMD_REJECT and nothing
else. (R334, R335, R339, R342, R343) -/
def Obligations.DirectDrivePorts : Prop :=
  (∀ (s : State) (p : Fin 32) (on : Bool), s.ddEnabled p = on → exec (.portEnable p on) s = .next s) ∧
  (∀ (s : State) (p : Fin 32) (r : Nat), s.ddEnabled p = false → (firstFail (s.enableChecks p)).1 = r → r ≠ 0 → r < 8 →
    ∃ t, exec (.portEnable p true) s = .next t ∧ t.get F.P_STAT_REJECT p = r ∧ t.ddEnabled p = false ∧
      t.flag F.DDP_EVT_EN_REJECT = true ∧ s.Records [(0x0B01, [p.val, r])] t ∧
      s.Leaves [(F.P_STAT_REJECT, p), (F.DDP_EVT_EN_REJECT, 0)] [] t) ∧
  (∀ (s : State) (p : Fin 32), s.ddEnabled p = false → (firstFail (s.enableChecks p)).1 = 0 →
    ∃ u, u = s.putFlag F.P_CTL_EN true p ∧
      (s.ddState p = 7 → exec (.portEnable p true) s = .next u.refreshDd) ∧
      (s.ddState p ≠ 7 → exec (.portEnable p true) s = .next (u.ddBegin p).refreshDd)) ∧
  (∀ (s : State) (p : Fin 32), s.ddEnabled p = true →
    ∃ u, u = s.putFlag F.P_CTL_EN false p ∧
      (s.ddState p ∈ [2, 3, 4, 5] →
        exec (.portEnable p false) s = .next (u.modDd p (fun d => { d with stopAt := some s.sys.nextS })).refreshDd) ∧
      (s.ddState p = 7 → exec (.portEnable p false) s = .next u.refreshDd) ∧
      (s.ddState p ∈ [0, 1, 6] → exec (.portEnable p false) s = .next ((u.ddClear p).ddEnter p 0).refreshDd)) ∧
  (∀ (s : State) (p : Fin 32), s.ddEnabled p = false → ∀ c ∈ [Instr.startUpWalk p none, .releaseBlanked p, .testStart p, .testEnd p],
    ∃ t, exec c s = .next t ∧ t.flag F.DDP_EVT_CMD_REJECT = true ∧ s.Leaves [(F.DDP_EVT_CMD_REJECT, 0)] [] t) ∧
  (∀ (s : State) (p : Fin 32) (f : PinFind), s.ddEnabled p = true →
    exec (.startUpWalk p (some f)) s = .next (s.pinShort p 0 f) ∧
    (s.ddState p = 6 → exec (.startUpWalk p none) s = .next (s.ddBegin p)) ∧
    (s.ddState p ≠ 6 → exec (.startUpWalk p none) s = .next s) ∧
    (s.ddState p ∈ [2, 3, 4, 5] → exec (.idleWalk p (some f)) s = .next (s.pinShort p 1 f))) ∧
  (∀ (s : State) (p : Fin 32), exec (.idleWalk p none) s = .next s) ∧
  (∀ (s : State) (p : Fin 32), s.ddEnabled p = true →
    (∃ t, exec (.releaseBlanked p) s = .next t ∧ t.ddp = { s.ddp with releasing := (s.ddp.releasing ++
        ((groupsOf s.cmd.chans p).map Chan.index).filter (fun i => s.flag F.G_STAT_BLANKED i)).eraseDups } ∧ s.Leaves [] [.ddp] t) ∧
    (s.power = 3 → p.val < s.ddp.ports.length →
      ∃ t, exec (.testStart p) s = .next t ∧ t.ddPort p = { s.ddPort p with testAt := some (s.sys.nextS, true) } ∧ s.Leaves [] [.ddp] t) ∧
    (p.val < s.ddp.ports.length →
      ∃ t, exec (.testEnd p) s = .next t ∧ t.ddPort p = { s.ddPort p with testAt := some (s.sys.nextS, false) } ∧ s.Leaves [] [.ddp] t))

/-- DD_SHIFT of a frame in work shifts it at E(n), or reports it late where it does not fit; in Hold, at B, an enabled
port reads its faults again. SHIFT_LATE gives up a frame not yet shifted. An edge of DD_SYNC within 1 ms of the last
is ignored; another swaps every port that waits for it. SYNC_LOST acts 1 s after the last edge while a port needs one.
A sensor report of the right window number is taken, from the first read or the second; else the report is missing and
its cause recorded. (R327, R329, R330, R334, R341) -/
def Obligations.DirectDriveShifts : Prop :=
  (∀ (s : State) (n : Nat) (p : Fin 32) (conf faults : List Nat) (w : FrameWork), s.frameWork n = some w → w.active = true →
    s.ddShifts p n = true → (s.ddPort p).done ≠ some n →
    ∃ u, u = (s.atTime (s.eAt n)).directWrite w p ∧
      (u.shiftWindow < u.shiftTime p → exec (.ddShift n p conf faults) s = .next (u.shiftLate p n)) ∧
      (u.shiftTime p ≤ u.shiftWindow → exec (.ddShift n p conf faults) s = .next (u.fullShift w.chans p n n n conf faults)) ∧
      exec (.shiftLate n p) s = .next (((s.atTime (s.showAt n - s.adv - 50000 * 65536)).directWrite w p).shiftLate p n)) ∧
  (∀ (s : State) (n : Nat) (p : Fin 32) (conf faults : List Nat) (w : FrameWork), s.frameWork n = some w → w.active = false →
    s.ddState p = 4 → s.ddEnabled p = true →
    exec (.ddShift n p conf faults) s = .next ((s.atTime (s.showAt n)).holdShift p n conf faults)) ∧
  (∀ (s : State) (n : Nat) (p : Fin 32) (conf faults : List Nat), s.frameWork n = none →
    exec (.ddShift n p conf faults) s = .next s ∧ exec (.shiftLate n p) s = .next s) ∧
  (∀ (s : State), s.ddp.lastEdge ≠ 0 → s.uptime < s.ddp.lastEdge + 1000000 → exec .ddSyncEdge s = .next s) ∧
  (∀ (s : State), s.ddp.lastEdge = 0 ∨ s.ddp.lastEdge + 1000000 ≤ s.uptime →
    ∃ u, u.flag F.DDP_STAT_SYNC_LOST = false ∧ u.ddp = { s.ddp with lastEdge := s.uptime } ∧ s.Leaves [(F.DDP_STAT_SYNC_LOST, 0)] [.ddp] u ∧
      exec .ddSyncEdge s = .next (u.each (List.range 32) (fun p t => t.ddEdge p))) ∧
  (∀ (s : State) (p : Fin 32), s.flag F.DDP_STAT_SYNC_LOST = false → s.ddEnabled p = true → s.flag F.P_CTL_SYNC_SRC p = true →
    ∃ t, exec .syncLost s = .next t ∧ t.uptime = max s.uptime (s.ddp.lastEdge + 1000000000) ∧ t.flag F.DDP_STAT_SYNC_LOST = true ∧
      t.flag F.DDP_EVT_SYNC_LOST = true ∧ s.Leaves [(F.DDP_STAT_SYNC_LOST, 0), (F.DDP_EVT_SYNC_LOST, 0)] [.time] t) ∧
  (∀ (s : State) (n : Nat) (p : Fin 32), (s.sensedGroups p).filter (fun q => q.2.calWindow != 0 && decide (n % q.2.calWindow = 0)) ≠ [] →
    ∃ t, exec (.senseWindow n p false) s = .next t ∧ s.showAt n ≤ t.now ∧ s.Leaves [] [.time] t ∧
      t.outs = s.outs ++ (((s.sensedGroups p).filter (fun q => q.2.calWindow != 0 && decide (n % q.2.calWindow = 0))).map
        (fun q => n / q.2.calWindow % 2 ^ 32)).eraseDups.map (fun w => .sense p ([0x00, 0xD0, 4] ++ leBytes 4 w ++
          [smbusPec ([0x00, 0xD0, 4] ++ leBytes 4 w)]))) ∧
  (∀ (s : State) (i : Fin 2048) (a b : SenseRead) (c : Chan) (q : Chan × Chan), s.cmd.latched.find? (fun c => c.kind == kDdgroup && c.index == i.val) = some c →
    (s.sensedGroups c.ddPortNo).find? (fun q => q.1.index == i.val) = some q → s.frameNum / max 1 q.2.calWindow ≠ 0 →
    let wno := (s.frameNum / max 1 q.2.calWindow - 1) % 2 ^ 32
    (∀ r, readOf wno a = .inr r → exec (.sensorRead i a b) s = .next (s.sensorReport c wno r)) ∧
    (∀ k r, readOf wno a = .inl k → readOf wno b = .inr r → exec (.sensorRead i a b) s = .next (s.sensorReport c wno r)) ∧
    (∀ k l, readOf wno a = .inl k → readOf wno b = .inl l →
      ∃ t, exec (.sensorRead i a b) s = .next t ∧ t.flag F.DDP_EVT_SENSE_ERR = true ∧ s.Records [(0x0B09, [c.index, l])] t ∧
        s.Leaves [(F.DDP_EVT_SENSE_ERR, 0)] [] t))

/-- A ring that is not running sends nothing and answers nothing. A running one sends TIME with the step mark once, LINK
requests and their answers, a grant to each joined endpoint, a HOLD notice while one is due, and DARK broadcasts in
Warm. The answer to its own request gives the link delay, of which the last 16 are kept. A join request from a
position the ring can tell, 1 to 512, is recorded and granted. (R269, R270, R281, R282, R283, R289, R292, R354) -/
def Obligations.RingFrames : Prop :=
  (∀ (s : State) (r : Fin 8) (even odd : Option Nat) (j : JoinRec) (f m a : Nat) (recs : List TelemRec), s.ringChan r = none →
    exec (.timeFrame r) s = .next s ∧ exec (.joinRequest r even odd j f m) s = .next s ∧ exec (.grantUpdate r) s = .next s ∧
    exec (.holdFrame r) s = .next s ∧ exec (.darkBroadcast r) s = .next s ∧ exec (.telemetryReceive r a even odd recs) s = .next s) ∧
  (∀ (s : State) (l : Fin 16) (op t2 t3 : Nat), s.ringChan (l / 2) = none →
    exec (.linkDelayRequest l) s = .next s ∧ exec (.linkFrameReceive l op t2 t3) s = .next s) ∧
  (∀ (s : State) (r : Fin 8) (c : Chan), s.ringChan r = some c →
    exec (.timeFrame r) s = .next ((s.sendTime (s.live c) (s.ringAt r).timeStep).modRing r (fun x => { x with timeStep := false })) ∧
    exec (.grantUpdate r) s = .next (s.each (s.dvl.joined.filter (fun j => j.ring == r.val)) (fun j t => t.sendGrant c j.serial j.pos)) ∧
    (∀ q, s.holdDue = some q → exec (.holdFrame r) s = .next (s.sendHold c q.2 q.1)) ∧
    (s.holdDue = none → exec (.holdFrame r) s = .next s) ∧
    (s.power = 1 → exec (.darkBroadcast r) s = .next (s.sendControl c 0xFFFF s.seqNow opDark s.now [])) ∧
    (s.power ≠ 1 → exec (.darkBroadcast r) s = .next s)) ∧
  (∀ (s : State) (l : Fin 16), (s.ringChan (l / 2)).isSome = true →
    (∃ u t : State, u = s.sendLink l 1 0 0 ∧ exec (.linkDelayRequest l) s = .next t ∧
      t = (if s.mayRing l then { u with dvl := { u.dvl with asked := u.dvl.asked.filter (fun q => q.1 != l.val) ++ [(l.val, u.now)] } }
        else u)) ∧
    (∀ t2 t3, exec (.linkFrameReceive l 1 t2 t3) s = .next (s.sendLink l 2 s.now s.now)) ∧
    (∀ t2 t3 q, s.dvl.asked.find? (fun q => q.1 == l.val) = some q →
      ∃ t old, exec (.linkFrameReceive l 2 t2 t3) s = .next t ∧
        old = ((s.dvl.delays.find? (fun p => p.1 == l.val)).map Prod.snd).getD [] ∧
        t.dvl.asked = s.dvl.asked.filter (fun p => p.1 != l.val) ∧
        (t.dvl.delays.find? (fun p => p.1 == l.val)).map Prod.snd = some ((old ++ [((((s.now : Int) -
          toSigned 32 (s.get R.TP_ASYM l) * 256) - q.2) - ((t3 : Int) - t2)) / 2]).drop (old.length + 1 - 16)) ∧
        s.Leaves [] [.dvl] t)) ∧
  (∀ (s : State) (r : Fin 8) (c : Chan) (even odd : Option Nat) (j : JoinRec) (f m pos : Nat), s.ringChan r = some c → s.role ≠ 2 →
    (s.learnLength r even odd).positionOf r even odd = some pos → 1 ≤ pos → pos ≤ 512 →
    exec (.joinRequest r even odd j f m) s = .next
      (((s.learnLength r even odd).joinEndpoint r pos j even odd (s.live c).telemBucket f m |>.sendGrant c j.serial pos))) ∧
  (∀ (s : State) (r : Fin 8) (c : Chan) (even odd : Option Nat) (j : JoinRec) (f m : Nat), s.ringChan r = some c → s.role ≠ 2 →
    ((s.learnLength r even odd).positionOf r even odd).any (fun p => decide (1 ≤ p ∧ p ≤ 512)) = false →
    exec (.joinRequest r even odd j f m) s = .next (s.learnLength r even odd))

/-- TELEMETRY_RECEIVE from a joined position refills its bucket and marks the ports it arrived on; without a token the
frame is discarded, counted and reported; with one it costs the token, is counted as received and its records go to
the channels bound there. REACH_TIMEOUT acts 3 s after the last arrival on a port, and clears that port's reach. From
a position that has not joined neither does anything. (R295, R297, R298) -/
def Obligations.TelemetryTokens : Prop :=
  (∀ (s : State) (r : Fin 8) (a : Nat) (even odd : Option Nat) (recs : List TelemRec) (b : Bool), s.joinedAt r a = none →
    exec (.telemetryReceive r a even odd recs) s = .next s ∧ exec (.reachTimeout r a b) s = .next s) ∧
  (∀ (s : State) (r : Fin 8) (c : Chan) (j : Joined) (a : Nat) (even odd : Option Nat) (recs : List TelemRec), s.ringChan r = some c →
    s.joinedAt r a = some j →
    ∃ u : State, u = (s.learnLength r even odd).modJoined r a (fun j =>
        let q := j.fill (s.live c).telemRate (s.live c).telemBucket (s.learnLength r even odd).uptime
        { q with even := arrived even q.even (s.learnLength r even odd).uptime,
                 odd := arrived odd q.odd (s.learnLength r even odd).uptime, lost := false }) ∧
      (((u.joinedAt r a).map Joined.tokens).getD 0 = 0 →
        exec (.telemetryReceive r a even odd recs) s = .next (((((u.bump R.RG_TELEM_DROP r).each (u.chansAt r a)
          (fun c t => t.bump F.E_ERR_OVER c.index)).raise F.DVL_EVT_OVER_RATE).tallyLimited (0x09050000 + r * 512 + a)
            (60 * oneSecond) 0x0905 (fun n => [r.val, a, n])).refreshDvl)) ∧
      (((u.joinedAt r a).map Joined.tokens).getD 0 ≠ 0 →
        ∃ v : State, v = (u.modJoined r a (fun j => { j with tokens := j.tokens - 1 })).bump R.RG_TELEM_RX r ∧
          exec (.telemetryReceive r a even odd recs) s = .next ((v.each recs (fun q t => t.telemRecord r a
            ((u.chansAt r a).filter (fun c => (v.boundTo v.cmd.latched c).isSome)) q)).refreshDvl))) ∧
  (∀ (s : State) (r : Fin 8) (a : Nat) (b : Bool) (j : Joined), s.joinedAt r a = some j → (if b then j.odd else j.even) = none →
    exec (.reachTimeout r a b) s = .next s) ∧
  (∀ (s : State) (r : Fin 8) (a t : Nat) (b : Bool) (j : Joined), s.joinedAt r a = some j → (if b then j.odd else j.even) = some t →
    ∃ u, exec (.reachTimeout r a b) s = .next u ∧ u.uptime = max s.uptime (t + 3000000000) ∧
      (∀ k, u.joinedAt r a = some k → (if b then k.odd else k.even) = none))

/-- A message on a port that takes no part in PTP, or of another domain, does nothing. An Announce informs the BMCA. A
Sync of the parent gives an offset, at once for one step, or with its Follow_Up. A Delay_Req on a master port is
answered, with the correction and the requester given back. A Delay_Resp to the device's own request of the parent
gives the delay, shown in TP_DELAY. Masters send Sync with Follow_Up, and Announce; the clock sends Delay_Req to its
parent, with the next sequence number each time. (R349, R350, R357) -/
def Obligations.PtpMessages : Prop :=
  (∀ (s : State) (p : Fin 19) (m : PtpMessage), s.ptpActive p = false ∨ m.domain ≠ s.get F.TIM_PTP_CFG_DOMAIN →
    exec (.ptpMessage p m) s = .next s) ∧
  (∀ (s : State) (p : Fin 19) (m : PtpMessage), s.ptpActive p = true → m.domain = s.get F.TIM_PTP_CFG_DOMAIN →
    let arrived := ((s.now : Int) - s.asym p).toNat
    (∀ info, m.body = .announce info → exec (.ptpMessage p m) s = .next (s.ptpAnnounce p m info)) ∧
    (∀ o c, m.body = .sync false o c → s.tim.parent = some (p.val, m.source) →
      exec (.ptpMessage p m) s = .next (s.ptpOffset p ((o : Int) + c) arrived)) ∧
    (∀ o c, m.body = .sync true o c → s.tim.parent = some (p.val, m.source) →
      exec (.ptpMessage p m) s = .next (s.modPtp p (fun q => { q with sync := some (m.seq, ((arrived : Int) - c).toNat) }))) ∧
    (∀ o c t2, m.body = .followUp o c → s.tim.parent = some (p.val, m.source) → (s.ptpPort p).sync = some (m.seq, t2) →
      exec (.ptpMessage p m) s = .next (s.ptpOffset p ((o : Int) + c) t2)) ∧
    (∀ c, m.body = .delayReq c → s.portState p = 6 →
      exec (.ptpMessage p m) s = .next (s.sendPtp p ptpGroup 320 (s.ptpMessage p 9 0x0008 3 m.seq
        (c - ((arrived % 65536 : Nat) : Int)) (logOctet (s.get F.TIM_PTP_CFG_LOG_DREQ)) (stamp10 arrived ++ beBytes 10 m.source)))) ∧
    (∀ recv c ms t3, m.body = .delayResp recv c (s.portId p) → s.tim.parent = some (p.val, m.source) →
      (s.ptpPort p).dreq = some (m.seq, t3) → (s.ptpPort p).ms = some ms → p.val < s.tim.ports.length →
      ∃ t d, exec (.ptpMessage p m) s = .next t ∧ d = (ms + ((recv : Int) - c - t3)) / 2 ∧ (t.ptpPort p).delay = some d ∧
        (t.ptpPort p).dreq = none ∧ t.get R.TP_DELAY p = ofSigned 32 (d / 256) % 2 ^ 32 ∧ s.Leaves [(R.TP_DELAY, p)] [.tim] t) ∧
    (s.tim.parent ≠ some (p.val, m.source) → (∃ b o c, m.body = .sync b o c) ∨ (∃ o c, m.body = .followUp o c) →
      exec (.ptpMessage p m) s = .next s) ∧
    (m.body = .other → exec (.ptpMessage p m) s = .next s)) ∧
  (∀ (s : State), s.masterPorts = [] → exec .syncSend s = .next s ∧ exec .announceSend s = .next s) ∧
  (∀ (s : State) (p : Nat), s.masterPorts = [p] →
    ∃ (q : Nat) (t1 t2 : State), q = (s.ptpPort p).seqSync ∧
      t1 = s.sendPtp p ptpGroup 319 (s.ptpMessage p 0 0x0208 0 q 0 (logOctet (s.get F.TIM_PTP_CFG_LOG_SYNC)) (List.replicate 10 0)) ∧
      t2 = t1.sendPtp p ptpGroup 320 (t1.ptpMessage p 8 0x0008 2 q ((t1.now % 65536 : Nat) : Int)
        (logOctet (s.get F.TIM_PTP_CFG_LOG_SYNC)) (stamp10 t1.now)) ∧
      exec .syncSend s = .next (t2.modPtp p (fun x => { x with seqSync := (q + 1) % 65536 }))) ∧
  (∀ (s : State) (p : Nat) (a : MasterSet) (u : Nat), s.masterPorts = [p] → s.announced = some a →
    ∃ (q : Nat) (t1 : State), q = (s.ptpPort p).seqAnn ∧
      t1 = (s.sendPtp p ptpGroup 320 (s.ptpMessage p 0xB 0x0008 5 q 0 (logOctet (s.get F.TIM_PTP_CFG_LOG_ANN))
        (List.replicate 10 0 ++ [0, 0, 0, a.prio1, a.cls, a.accuracy] ++ beBytes 2 a.variance ++ [a.prio2] ++ beBytes 8 a.gm ++
          beBytes 2 a.steps ++ [0xA0]))).modPtp p (fun x => { x with seqAnn := (q + 1) % 65536 }) ∧
      ((t1.ptpPort p).managed = some u → t1.uptime < u + oneSecond → exec .announceSend s = .next t1)) ∧
  (∀ (s : State), s.announced = none → exec .announceSend s = .next s) ∧
  (∀ (s : State), s.tim.parent = none → exec .delayReqSend s = .next s) ∧
  (∀ (s : State) (p src : Nat), s.tim.parent = some (p, src) → s.ptpActive p = true →
    ∃ dst, dst = (if s.flag F.TIM_PTP_CFG_DREQ_UNICAST then
        ((s.tim.foreign.find? (fun f => f.port == p && f.src == src)).map Foreign.ip).getD ptpGroup else ptpGroup) ∧
      exec .delayReqSend s = .next ((s.sendPtp p dst 319 (s.ptpMessage p 1 0x0008 1 (s.ptpPort p).seqDreq 0 0x7F
        (List.replicate 10 0))).modPtp p (fun x => { x with
          seqDreq := ((s.ptpPort p).seqDreq + 1) % 65536, dreq := some ((s.ptpPort p).seqDreq, s.now) })))

/-- WCLK_EDGE notes the edge; with WCLK_EN and no PTP parent it disciplines the clock to the nearest grid instant.
HOLDOVER_ENTER with a source loses it and runs the BMCA. SLEW_DONE ends a slew: bit, event, 0x0C08. STEPPED makes
device time B(s) + θ exactly, counts the step, notes it and records 0x0C05. TIME_SET is accepted only with the clock
FREE and the device in Warm, start-up over. APPLY_STEP acts on a pending step, else sets CMD_REJECT. (R348, R355,
R357, R358, R360, R361) -/
def Obligations.ShowClock : Prop :=
  (∀ (s : State), s.flag F.TIM_CTL_WCLK_EN = false ∨ s.tim.parent.isSome = true →
    exec .wclkEdge s = .next { s with tim := { s.tim with edge := some s.uptime } }) ∧
  (∀ (s : State), s.flag F.TIM_CTL_WCLK_EN = true → s.tim.parent = none →
    exec .wclkEdge s = .next ((({ s with tim := { s.tim with edge := some s.uptime } } : State).takeSource 2 0).measure 31 (gridOffset s.now))) ∧
  (∀ (s : State), s.get F.TIM_STAT_SRC ≠ 0 → s.tim.parent = none →
    exec .holdoverEnter s = .next ((({ s with tim := { s.tim with edge := none } } : State).loseSource).runBmca)) ∧
  (∀ (s : State), s.get F.TIM_STAT_SRC = 0 → s.tim.parent = none →
    exec .holdoverEnter s = .next { s with tim := { s.tim with edge := none } }) ∧
  (∀ (s : State), s.tim.slewAt = none → exec .slewDone s = .next s) ∧
  (∀ (s : State) (u : Nat), s.tim.slewAt = some u →
    ∃ t, exec .slewDone s = .next t ∧ t.flag F.TIM_STAT_SLEW = false ∧ t.flag F.TIM_EVT_SLEW_DONE = true ∧ t.tim = { s.tim with slewAt := none } ∧
      s.Records [(0x0C08, [(s.uptime - u) / oneSecond])] t ∧ s.Leaves [(F.TIM_STAT_SLEW, 0), (F.TIM_EVT_SLEW_DONE, 0)] [.tim] t) ∧
  (∀ (s : State) (p : StepPlan), s.tim.plan = some p → p.done = false →
    ∃ t, exec .stepped s = .next t ∧ t.now = ((s.bAt p.bound : Int) + p.theta).toNat ∧
      t.tim.plan = some { p with done := true } ∧
      t.get R.TIM_STEP_CNT = min 0xFFFFFFFF (s.get R.TIM_STEP_CNT + 1) ∧ t.flag F.TIM_EVT_STEPPED = true ∧ t.sys.nextS = p.first) ∧
  (∀ (s : State), s.tim.plan.any (fun p => !p.done) = false → exec .stepped s = .next s) ∧
  (∀ (s : State), s.get F.TIM_STAT_STATE = 0 → s.power = 1 → s.sys.started = true → s.get R.TIM_SET_NS ≤ 999999999 →
    ∃ u, u = (({ s with now := ((s.get R.TIM_SET_S_LO + 2 ^ 32 * (s.get R.TIM_SET_S_HI % 65536)) * oneSecond +
        s.get R.TIM_SET_NS) * 65536 } : State).relattice).sendSteps ∧
      exec .timeSet s = .next (u.tally 0x0C09 [s.nowNs % 2 ^ 64, u.nowNs % 2 ^ 64])) ∧
  (∀ (s : State), s.get F.TIM_STAT_STATE ≠ 0 ∨ s.power ≠ 1 ∨ s.sys.started = false ∨ 999999999 < s.get R.TIM_SET_NS →
    ∃ t, exec .timeSet s = .next t ∧ t.flag F.TIM_EVT_CMD_REJECT = true ∧ s.Leaves [(F.TIM_EVT_CMD_REJECT, 0)] [] t) ∧
  (∀ (s : State) (th : Int), s.tim.pending = some th →
    exec .applyStep s = .next ((({ s with tim := { s.tim with pending := none } } : State).putFlag F.TIM_STAT_STEP_PENDING false).decideStep th)) ∧
  (∀ (s : State), s.tim.pending = none →
    ∃ t, exec .applyStep s = .next t ∧ t.flag F.TIM_EVT_CMD_REJECT = true ∧ s.Leaves [(F.TIM_EVT_CMD_REJECT, 0)] [] t)

/-- In Dormant, and on a link that is down, nothing is received. Otherwise (no injection armed) FEC counts are added, MGMT
counts a frame that matches a wake filter, and a damaged frame is counted by its first failing test and consumed by
nobody; a PAUSE or PFC frame acts on the transmitter; another MAC control frame, and one the Strainer rejects, are
counted in NL_STRAINED; one that no consumer takes in NL_UNCLAIMED; else its consumer takes it. (R374, R375, R386) -/
def Obligations.FramesPassTheSteps : Prop :=
  (∀ (s : State) (l : Fin 25) (f : RxFrame), s.dormant = true ∨ s.linkUp l = false → exec (.frameReceive l f) s = .next s) ∧
  (∀ (s x u : State) (l : Fin 25) (f : RxFrame), s.dormant = false → s.linkUp l = true → s.flt.armed = none →
    x = ((s.add R.NL_FEC_CORR f.fecCorr l).add R.NL_FEC_UNCORR f.fecUncorr l).settleLink l →
    u = (if l.val = 24 ∧ (x.wakeMatch f).isSome = true then x.bump F.NET_WAKE_STAT_SEEN else x) →
    (f.flags ≠ 0 → exec (.frameReceive l f) s = .next (u.damagedFrame l f)) ∧
    (f.flags = 0 → f.etype = 0x8808 →
      exec (.frameReceive l f) s = .next (if f.be (f.typeAt + 2) 2 = 1 then u.pauseFrame l f false
        else if f.be (f.typeAt + 2) 2 = 0x0101 then u.pauseFrame l f true else u.bump R.NL_STRAINED l)) ∧
    (f.flags = 0 → f.etype ≠ 0x8808 → u.strainerPass l f = false → exec (.frameReceive l f) s = .next (u.bump R.NL_STRAINED l)) ∧
    (f.flags = 0 → f.etype ≠ 0x8808 → u.strainerPass l f = true →
      (u.claim l f = .unclaimed → exec (.frameReceive l f) s = .next (u.bump R.NL_UNCLAIMED l)) ∧
      (u.claim l f = .ownCopy → exec (.frameReceive l f) s = .next u) ∧
      (u.claim l f = .filtered → exec (.frameReceive l f) s = .next (u.bump R.ING_FILTERED)) ∧
      (u.claim l f = .taken → exec (.frameReceive l f) s = .next (u.takeFrame l f)))) ∧
  (∀ (s : State) (l : Fin 25) (f : RxFrame), s.flag F.NL_CTL_ERR_DELIVER l = false → s.hasRole (linkPort l) 1 = false →
    (f.codeBad = true → (s.damagedFrame l f).get R.NL_CODE_ERR l = min 0xFFFFFFFF (s.get R.NL_CODE_ERR l + 1)) ∧
    (f.codeBad = false → f.bytes.length < 64 → (s.damagedFrame l f).get R.NL_RUNT l = min 0xFFFFFFFF (s.get R.NL_RUNT l + 1)) ∧
    (f.codeBad = false → 9216 < f.bytes.length →
      (s.damagedFrame l f).get R.NL_OVERSIZE l = min 0xFFFFFFFF (s.get R.NL_OVERSIZE l + 1)) ∧
    (f.codeBad = false → 64 ≤ f.bytes.length → f.bytes.length ≤ 9216 →
      (s.damagedFrame l f).get R.NL_FCS_ERR l = min 0xFFFFFFFF (s.get R.NL_FCS_ERR l + 1)))

/-- A link that goes down clears LINK, takes its cause, is counted and recorded (0x0D01); one that comes up, outside
Dormant, is recorded (0x0D00). An eye below its thresholds ten times starts a retrain, and a retrain ends counted and
recorded (0x0D03); a third poor one in 60 s sets EQ_POOR. A pause that outlasts WDOG is broken for 100 ms. An ARP next
hop asked for 3 s in vain becomes unresolved, an entry expires at its time. A write to a device-owned exact entry is
ignored and recorded, a VALID one takes the entry for the host, and an invalid one frees it. (R371, R372, R377, R382,
R383, R384, R385) -/
def Obligations.LinksAndArp : Prop :=
  (∀ (s : State) (l : Fin 25) (cause : Nat), s.linkUp l = true →
    ∃ u, u.linkUp l = false ∧ u.get F.NL_STAT_DOWN_CAUSE l = cause % 2 ^ F.NL_STAT_DOWN_CAUSE.width ∧
      u.get R.NL_LINK_DOWNS l = min 0xFFFFFFFF (s.get R.NL_LINK_DOWNS l + 1) ∧ u.flag F.NET_EVT_LINK_CHANGE = true ∧
      s.Records [(0x0D01, [l.val, cause])] u ∧ exec (.linkDown l cause) s = .next u.refreshDvl ∧
      s.Leaves [(F.NL_STAT_LINK, l), (F.NL_STAT_PAUSED, l), (F.NL_STAT_RETRAINING, l), (F.NL_STAT_DOWN_CAUSE, l),
        (F.NET_STAT_LINK_UP, 0), (R.NL_LINK_DOWNS, l), (F.NET_EVT_LINK_CHANGE, 0)] [.links] u) ∧
  (∀ (s : State) (l : Fin 25) (cause : Nat), s.linkUp l = false → exec (.linkDown l cause) s = .next (s.put F.NL_STAT_DOWN_CAUSE cause l)) ∧
  (∀ (s : State) (l : Fin 25), s.linkUp l = true ∨ s.flag F.NL_CTL_HOLD_DOWN l = true ∨ s.linkExists l = false ∨ s.dormant = true →
    exec (.linkUp l) s = .next s) ∧
  (∀ (s : State) (l : Fin 25), s.linkUp l = false → s.flag F.NL_CTL_HOLD_DOWN l = false → s.linkExists l = true →
    s.dormant = false → ∃ u fec, u.linkUp l = true ∧ u.flag F.NET_EVT_LINK_CHANGE = true ∧ exec (.linkUp l) s = .next u.refreshDvl ∧
      s.Records [(0x0D00, [l.val, s.portSpeed (linkPort l), fec])] u ∧
      s.Leaves [(F.NL_STAT_LINK, l), (F.NL_STAT_DOWN_CAUSE, l), (F.NL_STAT_SPEED, l), (F.NET_STAT_LINK_UP, 0),
        (F.NET_EVT_LINK_CHANGE, 0)] [.links] u) ∧
  (∀ (s : State) (l : Fin 25) (w h : Nat), l.val < s.links.length →
    let low := decide (w < s.get F.NL_EQ_THR_WIDTH l) || decide (h < s.get F.NL_EQ_THR_HEIGHT l)
    ∃ t, exec (.eyeMeasure l w h) s = .next t ∧ t.get F.NL_EYE_WIDTH l = w % 2 ^ F.NL_EYE_WIDTH.width ∧
      t.get F.NL_EYE_HEIGHT l = h % 2 ^ F.NL_EYE_HEIGHT.width ∧
      (low = false → (t.linkAt l).eyeLow = 0 ∧ t.flag F.NL_STAT_EQ_POOR l = false) ∧
      (low = true → (s.linkAt l).eyeLow < 9 → (t.linkAt l).eyeLow = (s.linkAt l).eyeLow + 1) ∧
      (low = true → (s.linkAt l).eyeLow = 9 → (s.linkAt l).retrain = none →
        (t.linkAt l).retrain = some (eyeWord w h) ∧ t.flag F.NL_STAT_RETRAINING l = true) ∧
      s.Leaves [(F.NL_EYE_WIDTH, l), (F.NL_EYE_HEIGHT, l), (F.NL_STAT_EQ_POOR, l), (F.NL_STAT_RETRAINING, l)] [.links] t) ∧
  (∀ (s : State) (l : Fin 25) (w h before : Nat), (s.linkAt l).retrain = some before → l.val < s.links.length →
    ∃ t, exec (.eqRetrain l w h) s = .next t ∧ (t.linkAt l).retrain = none ∧ t.flag F.NL_STAT_RETRAINING l = false ∧
      t.get R.NL_RETRAINS l = min 0xFFFFFFFF (s.get R.NL_RETRAINS l + 1) ∧ t.flag F.NET_EVT_RETRAIN = true ∧
      s.Leaves [(R.NL_RETRAINS, l), (F.NL_STAT_RETRAINING, l), (F.NET_EVT_RETRAIN, 0), (F.NL_STAT_EQ_POOR, l),
        (F.NET_EVT_EQ_POOR, 0)] [.links] t) ∧
  (∀ (s : State) (l : Fin 25) (w h : Nat), (s.linkAt l).retrain = none → exec (.eqRetrain l w h) s = .next s) ∧
  (∀ (s : State) (l : Fin 25) (t0 : Nat), (s.linkAt l).heldFrom = some t0 → (s.linkAt l).queue ≠ [] →
    t0 + s.wdogNs l ≤ s.holdEnd l →
    ∃ u, u.uptime = max s.uptime (t0 + s.wdogNs l) ∧ u.flag F.NL_STAT_PAUSED l = false ∧ u.flag F.NL_STAT_PAUSE_IGNORED l = true ∧
      u.flag F.NET_EVT_PAUSE_BREAK = true ∧ u.get R.NL_PAUSE_BREAKS l = min 0xFFFFFFFF (s.get R.NL_PAUSE_BREAKS l + 1) ∧
      exec (.pauseBreak l) s = .next (u.flushQueue l) ∧
      s.Leaves [(R.NL_PAUSE_US, l), (F.NL_STAT_PAUSED, l), (F.NL_STAT_PAUSE_IGNORED, l), (F.NET_EVT_PAUSE_BREAK, 0),
        (R.NL_PAUSE_BREAKS, l)] [.links, .time] u) ∧
  (∀ (s : State) (l : Fin 25), s.flag F.NL_STAT_PAUSE_IGNORED l = true →
    ∃ t, exec (.pauseBreakEnd l) s = .next t ∧ t.flag F.NL_STAT_PAUSE_IGNORED l = false ∧
      t.uptime = max s.uptime (s.linkAt l).ignoreUntil ∧ s.Leaves [(F.NL_STAT_PAUSE_IGNORED, l)] [.time] t) ∧
  (∀ (s : State) (l : Fin 25) (ip : Nat) (w : ArpWait), (s.linkAt l).arpWait.find? (fun w => w.ip == ip) = some w → w.unresolved = false →
    l.val < s.links.length →
    ∃ t, exec (.arpUnresolved l ip) s = .next t ∧ t.uptime = max s.uptime (w.since + 3000000000) ∧
      (t.linkAt l).arpWait = (s.linkAt l).arpWait.map (fun x => if x.ip == ip then { x with unresolved := true } else x) ∧
      t.flag F.NET_EVT_ARP_MISS = true ∧ s.Leaves [(F.NET_EVT_ARP_MISS, 0)] [.links, .time] t) ∧
  (∀ (s : State) (l : Fin 25) (ip : Nat) (a : ArpEntry), (s.linkAt l).arp.find? (fun a => a.ip == ip) = some a → l.val < s.links.length →
    ∃ t, exec (.arpExpire l ip) s = .next t ∧ t.uptime = max s.uptime a.until_ ∧
      (t.linkAt l).arp = (s.linkAt l).arp.filter (fun x => x.ip != ip) ∧ s.Leaves [] [.links, .time] t) ∧
  (∀ (s : State) (l : Fin 25) (ip : Nat), (s.linkAt l).arpWait.find? (fun w => w.ip == ip) = none →
    (s.linkAt l).arp.any (fun a => a.ip == ip && decide (a.until_ ≤ s.uptime + 10 * oneSecond)) = true →
    exec (.arpRequest l ip) s = .next (s.sendArp l ip)) ∧
  (∀ (s : State) (l : Fin 25) (e : Fin 64) (w : Word), s.exactOwner l e = 1 →
    ∃ t, exec (.exactEntryWrite l e w) s = .next t ∧ t.flag F.NET_EVT_STRAIN_CONFLICT = true ∧ s.Records [(0x0D05, [l.val, e.val])] t ∧
      s.Leaves [(F.NET_EVT_STRAIN_CONFLICT, 0)] [] t) ∧
  (∀ (s : State) (l : Fin 25) (e : Fin 64) (w : Word), s.exactOwner l e ≠ 1 → bitAt w.toNat 16 = true → l.val < s.links.length →
    ∃ t, exec (.exactEntryWrite l e w) s = .next t ∧ t.exactOwner l e = 2 ∧ t.flag F.NS_EXACT_HI_VALID (exactIx l e) = true ∧
      t.get R.NS_EXACT_LO (exactIx l e) = s.get R.NS_EXACT_LO (exactIx l e) ∧
      t.get F.NS_EXACT_HI_ADDR_HI (exactIx l e) = w.toNat % 65536 ∧
      (t.linkAt l).exact = (s.linkAt l).exact.filter (fun q => q.1 != e.val) ++
        [(e.val, s.get R.NS_EXACT_LO (exactIx l e) + w.toNat % 65536 * 2 ^ 32)] ∧
      s.Leaves [(R.NS_EXACT_HI, exactIx l e), (R.NS_EXACT_LO, exactIx l e)] [.links] t) ∧
  (∀ (s : State) (l : Fin 25) (e : Fin 64) (w : Word), s.exactOwner l e = 2 → bitAt w.toNat 16 = false → l.val < s.links.length →
    ∃ t, exec (.exactEntryWrite l e w) s = .next t ∧ t.exactOwner l e = 0 ∧ t.flag F.NS_EXACT_HI_VALID (exactIx l e) = false ∧
      (t.linkAt l).exact = (s.linkAt l).exact.filter (fun q => q.1 != e.val) ∧
      s.Leaves [(R.NS_EXACT_HI, exactIx l e), (R.NS_EXACT_LO, exactIx l e)] [.links] t) ∧
  (∀ (s : State) (l : Fin 25) (e : Fin 64) (w : Word), s.exactOwner l e ≠ 1 → s.exactOwner l e ≠ 2 → bitAt w.toNat 16 = false →
    exec (.exactEntryWrite l e w) s = .next (s.put F.NS_EXACT_HI_ADDR_HI (w.toNat % 65536) (exactIx l e)))

/-- PAIL_RESERVE of a device pail with room appends a reserved item under the next SEQ; of a full stalling pail it marks
the stall; of a full overwriting pail with no pop begun the oldest item gives way, counted as lost. A length word
fills its reservation, and one without a reservation does nothing. PRODUCER_RESUME ends a stall once there is room,
adding its time. A hardware read of an empty pail returns an idle item; of a pail whose head is reserved it counts the
starvation too; else it takes the head. (R395, R396, R397) -/
def Obligations.PailProducers : Prop :=
  (∀ (s : State) (p : Fin 256) (who : Nat) (q : Pail), s.pail p = some q → 2 ≤ q.role → q.items.length < q.depth →
    ∃ t r, exec (.pailReserve p who) s = .next t ∧ t.pail p = some r ∧ r.items = q.items ++ [newItem (s.get F.PL_SEQ_NEXT p) who false] ∧
      t.get F.PL_SEQ_NEXT p = (s.get F.PL_SEQ_NEXT p + 1) % 2 ^ F.PL_SEQ_NEXT.width) ∧
  (∀ (s : State) (p : Fin 256) (who : Nat) (q : Pail), s.pail p = some q → q.role = 2 → q.depth ≤ q.items.length →
    ∃ t r, exec (.pailReserve p who) s = .next t ∧ t.pail p = some r ∧ r.items = q.items ∧
      r.stalled = some (q.stalled.getD s.uptime) ∧ s.Leaves [] [.par] t) ∧
  (∀ (s : State) (p : Fin 256) (who : Nat) (q : Pail), s.pail p = some q → q.role = 3 ∨ q.role = 4 → q.depth ≤ q.items.length →
    q.items ≠ [] → q.popping = none →
    ∃ t r, exec (.pailReserve p who) s = .next t ∧ t.pail p = some r ∧
      r.items = q.items.drop 1 ++ [newItem (s.get F.PL_SEQ_NEXT p) who true] ∧
      t.get R.PL_LOST p = min 0xFFFFFFFF (s.get R.PL_LOST p + 1) ∧ t.flag F.PL_EVT_LOST p = true) ∧
  (∀ (s : State) (p : Fin 256) (who seq : Nat) (bytes : List Nat), (s.pail p).any (fun q => decide (2 ≤ q.role)) = false →
    exec (.pailReserve p who) s = .next s ∧ exec (.lengthWordWrite p seq bytes) s = .next s) ∧
  (∀ (s : State) (p : Fin 256) (seq : Nat) (bytes : List Nat) (q : Pail), s.pail p = some q → 2 ≤ q.role → reservedAt q seq = none →
    exec (.lengthWordWrite p seq bytes) s = .next s) ∧
  (∀ (s : State) (p : Fin 256) (seq k : Nat) (bytes : List Nat) (q : Pail), s.pail p = some q → q.role = 4 → q.waitPop = [] → reservedAt q seq = some k →
    ∃ (t : State) (r : Pail) (i : Item), exec (.lengthWordWrite p seq bytes) s = .next t ∧ t.pail p = some r ∧ r.items[k]? = some i ∧
      i.phase = .ready ∧ i.len = min (4 + bytes.length) q.itemBytes) ∧
  (∀ (s : State) (p : Fin 256) (q : Pail) (since : Nat), s.pail p = some q → q.stalled = some since → q.items.length < q.depth →
    ∃ t r, exec (.producerResume p) s = .next t ∧ t.pail p = some r ∧ r.stalled = none ∧ r.items = q.items ∧
      t.get R.PL_STALL_US p = min 0xFFFFFFFF (s.get R.PL_STALL_US p + (s.uptime - since) / 1000) ∧
      s.Leaves [(R.PL_STALL_US, p)] [.par] t) ∧
  (∀ (s : State) (p : Fin 256), (s.pail p).any (fun q => q.stalled.isSome && decide (q.items.length < q.depth)) = false →
    exec (.producerResume p) s = .next s) ∧
  (∀ (s : State) (p : Fin 16) (q : Pail), s.pail p = some q → q.items = [] →
    ∃ t, exec (.hwConsumerRead p) s = .next t ∧ t.outs = s.outs ++ [.hwItem p (s.idleItem p)] ∧ s.Leaves [] [] t) ∧
  (∀ (s : State) (p : Fin 16) (q : Pail) (i : Item) (l : List Item), s.pail p = some q → q.items = i :: l → i.phase = .reserved →
    ∃ t, exec (.hwConsumerRead p) s = .next t ∧ .hwItem p (s.idleItem p) ∈ t.outs ∧ t.par = s.par ∧
      t.get R.PL_STARVE p = min 0xFFFFFFFF (s.get R.PL_STARVE p + 1) ∧ t.flag F.PL_EVT_STARVED p = true ∧
      s.Leaves [(R.PL_STARVE, p), (F.PL_EVT_STARVED, p)] [] t) ∧
  (∀ (s : State) (p : Fin 16) (q : Pail) (i : Item) (l : List Item), s.pail p = some q → q.items = i :: l → i.phase = .ready →
    s.flt.armed = none →
    ∃ t r, exec (.hwConsumerRead p) s = .next t ∧ t.pail p = some r ∧ r.items = l ∧
      t.outs = s.outs ++ [.hwItem p (s.pailBytes q (s.slotAddr q 0) i.len)])

/-- A PL_WR value outside the ring, past DEPTH or backwards, and a PL_RD value outside it, past WR or during a pop, is
ignored, sets PTR_BAD and records 0x0E05. A good PL_WR adds whole descriptors, a good PL_RD removes items from the
head. A pop of a pail with no pop role, or during another initiator's pop, answers 0xFFFF_FFFF; of an empty pail it
waits POP_WAIT, or answers at once where that is 0, and a wait that ends answers 0xFFFF_FFFF. FLUSH of a task pail
outside Warm is refused and recorded; else it empties the pail, a held command at its head included. (R8, R399, R400,
R401) -/
def Obligations.PailConsumers : Prop :=
  (∀ (s : State) (p : Fin 256) (w : Nat) (q : Pail), s.pail p = some q → q.role = 0 →
    let next := fillOf q.depth w (s.plRd p)
    (2 * q.depth ≤ w ∨ q.depth < next ∨ next < s.fill q →
      ∃ t, exec (.plWrWrite p w) s = .next t ∧ t.flag F.PL_EVT_PTR_BAD p = true ∧
        s.Records [(0x0E05, [p.val, R.PL_WR.addr p, w])] t ∧ s.Leaves [(F.PL_EVT_PTR_BAD, p)] [] t) ∧
    (w < 2 * q.depth → next ≤ q.depth → s.fill q ≤ next → s.get F.PL_LEVEL_VALUE p = 0 → (s.route p).isSome = true →
      ∃ t r, exec (.plWrWrite p w) s = .next t ∧ t.pail p = some r ∧
        r.items = q.items ++ List.replicate (next - s.fill q) { newItem 0 255 false with len := 64, phase := .ready } ∧
        t.get F.PL_WR_VALUE p = w % 2 ^ F.PL_WR_VALUE.width)) ∧
  (∀ (s : State) (p : Fin 256) (w : Nat) (q : Pail), s.pail p = some q → q.role = 1 ∨ q.role = 3 →
    (2 * q.depth ≤ w ∨ s.fill q < fillOf q.depth w (s.plRd p) ∨ q.popping.isSome = true →
      ∃ t, exec (.plRdWrite p w) s = .next t ∧ t.flag F.PL_EVT_PTR_BAD p = true ∧
        s.Records [(0x0E05, [p.val, R.PL_RD.addr p, w])] t ∧ s.Leaves [(F.PL_EVT_PTR_BAD, p)] [] t) ∧
    (w < 2 * q.depth → fillOf q.depth w (s.plRd p) ≤ s.fill q → q.popping = none →
      exec (.plRdWrite p w) s = .next ((((s.put F.PL_RD_VALUE w p).modPail p
        (fun x => { x with items := x.items.drop (fillOf q.depth w (s.plRd p)) })).syncPail p).pump))) ∧
  (∀ (s : State) (p : Fin 256) (w : Nat), s.pail p = none →
    exec (.plWrWrite p w) s = .next s ∧ exec (.plRdWrite p w) s = .next s ∧ exec (.flush p) s = .next s) ∧
  (∀ (s : State) (p : Fin 256) (who : Initiator) (q : Pail), s.flt.armed = none → s.pail p = some q → q.items.head?.all (fun i => decide (i.phase ≠ .void)) = true →
    (q.role ≠ 1 → q.role ≠ 3 → exec (.plPop who p) s = .next (s.answer who 0xFFFFFFFF)) ∧
    (q.role = 1 ∨ q.role = 3 → (∃ c, q.popping = some c ∧ c.who ≠ who) →
      ∃ t, exec (.plPop who p) s = .next (t.answer who 0xFFFFFFFF) ∧ t.flag F.PL_EVT_POP_CLASH p = true ∧
        s.Leaves [(F.PL_EVT_POP_CLASH, p)] [] t) ∧
    (q.role = 1 ∨ q.role = 3 → q.popping.all (fun c => decide (c.who = who)) = true →
      (∀ pos v, s.popPeek q = some (pos, v) → exec (.plPop who p) s = .next ((s.answerPop p who pos v).pump)) ∧
      (s.popPeek q = none → s.popWait = 0 → exec (.plPop who p) s = .next (s.answer who 0xFFFFFFFF)) ∧
      (s.popPeek q = none → s.popWait ≠ 0 →
        exec (.plPop who p) s = .next (s.modPail p (fun x => { x with waitPop := x.waitPop ++ [(who, s.uptime)] }))))) ∧
  (∀ (s : State) (p : Fin 256) (q : Pail) (w : Initiator × Nat) (l : List (Initiator × Nat)), s.pail p = some q → q.waitPop = w :: l →
    ∃ u, u.uptime = max s.uptime (w.2 + s.popWait) ∧ u.par = (s.modPail p (fun x => { x with waitPop := l })).par ∧ s.Leaves [] [.par, .time] u ∧
      exec (.popWaitExpire p) s = .next (u.answer w.1 0xFFFFFFFF)) ∧
  (∀ (s : State) (p : Fin 256) (q : Pail), s.pail p = some q → q.role = 2 → s.power ≠ 1 →
    ∃ t, exec (.flush p) s = .next t ∧ t.flag F.PL_EVT_FLUSH_REJECT p = true ∧ s.Records [(0x0E02, [p.val, s.power])] t ∧
      s.Leaves [(F.PL_EVT_FLUSH_REJECT, p)] [] t) ∧
  (∀ (s : State) (p : Fin 256) (q : Pail), s.pail p = some q → q.role ≠ 2 → q.popping = none →
    ∃ u r, u = s.flushPail p 0 ∧ exec (.flush p) s = .next u.pump ∧ u.pail p = some r ∧ r.items = [] ∧
      u.cmd.fenced = s.cmd.fenced.filter (fun x => x.pail != p.val) ∧
      u.get F.PL_RD_VALUE p = s.get F.PL_WR_VALUE p ∧ u.flag F.PL_EVT_FLUSHED p = true)

/-- DISPATCH (no injection armed) places on the engine the item that the Parlour picks, retiring bad items on its way
(none where nothing may be taken), notes kinds over their share, and counts a single-bit error of the granule named.
ITEM_COMPLETE of an item in service on the engine that can complete marks it done, releases the pail's finished head,
counts the item and charges its clocks to its kind; its output goes to the switch, or is discarded and counted where
its channel is gone or at its destroy frame; what it has read frees its port. Of any other item it does nothing.
(R103, R109, R110, R113, R117, R127, R403, R404, R405) -/
def Obligations.DispatchAndCompletion : Prop :=
  (∀ (s : State) (e : Fin 12) (g : Option Nat), s.flt.armed = none →
    ∃ u v : State, u = s.dispatchGo e ((s.par.pails.map (fun q => q.items.length)).sum + 1) ∧
      (s.pick e = none → u = s) ∧
      (∀ q i, s.pick e = some (q, i) → i.task.any (fun d => taskOk q d) = true → u = s.place e q i) ∧
      (∀ x, u.runSection e = some x → v = u.each x.kinds (fun k t => t.overShare e k.order)) ∧ (u.runSection e = none → v = u) ∧
      exec (.dispatch e g) s = .next (match g with | some g => v.eccCorrected e g | none => v)) ∧
  (∀ (s : State) (e : Fin 12) (p : Fin 256) (seq : Nat) (use : ItemUse),
    ((s.pail p).bind (fun q => q.items.find? (fun i => i.seq == seq && decide (i.phase = .inService e) && !i.stuck))) = none →
    exec (.itemComplete e p seq use) s = .next s) ∧
  (∀ (s : State) (e : Fin 12) (p : Fin 256) (seq : Nat) (use : ItemUse) (q : Pail) (i : Item) (d : TaskDesc), s.pail p = some q →
    q.items.find? (fun i => i.seq == seq && decide (i.phase = .inService e) && !i.stuck) = some i → i.task = some d →
    ∃ (u v w : State) (order : Nat),
      (∀ x k, s.runSection e = some x → x.kinds.find? (fun k => k.kind == d.kind) = some k → order = k.order) ∧
      u = (((s.modItem p seq (fun j => { j with phase := .done })).releaseDone p).add64 R.CE_ITEMS_LO 1 e).useClocks e order use.clocks ∧
      v = (if i.discard || s.discardsNow d then ((u.bump R.CH_DISCARD_CNT).raise F.CH_EVT_DISCARD).modChan (handleKind d.handle)
          (handleIndex d.handle) (fun c => { c with discarded := c.discarded + 1 })
        else u.giveCells e order d.frame d.unit use.gives) ∧
      w = v.takeCells e use.takes ∧
      exec (.itemComplete e p seq use) s = .next
        (((((if d.flowed then w.syncFlow d.flow else w).syncPar).syncEngine e).serveNext e).showTesting e))

/-- A handle made of a KIND, a GEN and an INDEX is one 32-bit word that gives each of the three back from its bits, and
every 32-bit word is the handle of the three fields read from it. (R11) -/
def Obligations.HandleLayout : Prop :=
  (∀ kind gen index : Nat, kind < 64 → gen < 256 → index < 262144 →
    mkHandle kind gen index < 2 ^ 32 ∧ bits (mkHandle kind gen index) 31 26 = kind ∧ bits (mkHandle kind gen index) 25 18 = gen ∧
      bits (mkHandle kind gen index) 17 0 = index) ∧
  (∀ h : Nat, h < 2 ^ 32 → handleKind h = bits h 31 26 ∧ handleGen h = bits h 25 18 ∧ handleIndex h = bits h 17 0 ∧
    mkHandle (handleKind h) (handleGen h) (handleIndex h) = h)

/-- For every 64-bit counter of the register map, at its _LO offset and the next (those of an unbound pail apart, which
read as at reset): a read of _LO answers the low half, and from then on, until the next read of a _LO, whoever reads
_HI is answered the high half as it was at that read, so the two make the 64-bit value. (R5) -/
def Obligations.LowReadLatchesHigh : Prop :=
  ∀ row ∈ loPairs, ∀ (i lo : Nat) (s t : State) (who other : Initiator), i < row.2.2 → lo = row.1 + i * row.2.1 →
    s.unboundPail lo = false → s.hiLatch.all (fun q => q.1 != lo) = true → t.hiLatch = (s.readReg who lo).2.hiLatch → t.unboundPail lo = false →
    (s.readReg who lo).1 = (s.reg lo).toNat ∧ (t.readReg other (lo + 4)).1 = (s.reg (lo + 4)).toNat ∧
      (∀ b, (s.readReg who lo).2.reg b = s.reg b)

/-- In Dormant, with no wake running, the host link is down and a host access changes nothing. In D3hot a host access is
answered Unsupported Request. A write of a wrong width or alignment is ignored and counted in SYS_ACCESS_ERR; such a
read answers all ones and does nothing else. An access to a domain that is off is counted and noted, a write discarded
and a read answered with all ones. A place that names no register reads 0 and ignores writes. A good write of a
register without a rule of its own stores what its access types say; the rest acts as its command. (No injection
armed.) (R4, R6, R53, R420, R494, R568) -/
def Obligations.Bar0Accesses : Prop :=
  (∀ (s : State) (a len : Nat) (bytes : List Nat), s.power = 0 → s.pwr.waking = none →
    exec (.registerWrite .host (.bar0 a bytes)) s = .next s ∧ exec (.rcRead .host a len) s = .next s) ∧
  (∀ (s : State) (a len : Nat) (bytes : List Nat), s.power ≠ 0 ∨ s.pwr.waking ≠ none → s.host.d3hot = true →
    exec (.registerWrite .host (.bar0 a bytes)) s = .next (s.emit (.unsupportedRequest .host)) ∧
    exec (.rcRead .host a len) s = .next (s.emit (.unsupportedRequest .host))) ∧
  (∀ (s : State) (who : Initiator) (a len : Nat) (bytes : List Nat),
    (s.power ≠ 0 ∨ s.pwr.waking ≠ none) ∧ s.host.d3hot = false ∨ who ≠ .host → s.flt.armed = none →
    (widthOk a bytes.length = false →
      ∃ t, exec (.registerWrite who (.bar0 a bytes)) s = .next t ∧
        t.get R.SYS_ACCESS_ERR = min 0xFFFFFFFF (s.get R.SYS_ACCESS_ERR + 1) ∧ s.Leaves [(R.SYS_ACCESS_ERR, 0)] [] t) ∧
    (widthOk a len = false →
      ∃ t, exec (.rcRead who a len) s = .next t ∧ t.outs = s.outs ++ [.readData who (256 ^ len - 1)] ∧ s.Leaves [] [] t) ∧
    (widthOk a bytes.length = true → s.domainOff (domainOf a) = true →
      ∃ t, exec (.registerWrite who (.bar0 a bytes)) s = .next t ∧ t.outs.filter (fun o => match o with | .readData _ _ => true | _ => false) =
          s.outs.filter (fun o => match o with | .readData _ _ => true | _ => false) ∧
        t.get R.PCR_OFF_ACCESS_CNT = min 0xFFFFFFFF (s.get R.PCR_OFF_ACCESS_CNT + 1) ∧ t.flag F.PCR_EVT_OFF_ACCESS = true ∧
        s.Leaves [(R.PCR_OFF_ACCESS_CNT, 0), (F.PCR_EVT_OFF_ACCESS, 0)] [] t) ∧
    (widthOk a len = true → s.domainOff (domainOf a) = true →
      ∃ t, exec (.rcRead who a len) s = .next t ∧ t.outs.getLast? = some (.readData who (256 ^ len - 1)) ∧
        t.get R.PCR_OFF_ACCESS_CNT = min 0xFFFFFFFF (s.get R.PCR_OFF_ACCESS_CNT + 1) ∧ t.flag F.PCR_EVT_OFF_ACCESS = true ∧
        s.Leaves [(R.PCR_OFF_ACCESS_CNT, 0), (F.PCR_EVT_OFF_ACCESS, 0)] [] t) ∧
    (widthOk a bytes.length = true → s.domainOff (domainOf a) = false → named a = false →
      exec (.registerWrite who (.bar0 a bytes)) s = .next s) ∧
    (widthOk a len = true → s.domainOff (domainOf a) = false → named a = false →
      exec (.rcRead who a len) s = .next (s.emit (.readData who 0))) ∧
    (s.access who a bytes.length = .own → inMsixTable a = false → inPba a = false → inSpan a pailWindow 0x200000 = false →
      exec (.registerWrite who (.bar0 a bytes)) s = .next (s.regWrite who a (ofLe bytes))) ∧
    (s.access who a len = .own → inSpan a 0xF1000 0x4000 = false → isRc a = false → inMsixTable a = false → inPba a = false →
      inSpan a pailWindow 0x200000 = false →
      exec (.rcRead who a len) s = .next ((s.readReg who a).2.emit (.readData who (s.readReg who a).1))))

/-- For a register of the map without class F fields and a write that no rule refuses: after the write every bit of an RW
field is the bit written, a W1C bit written as 1 is clear and one written as 0 as it was, and every bit of an RO or RC
field, or of no field, is as it was; no other register changes. (R7, R40) -/
def Obligations.RegisterAccessTypes : Prop :=
  ∀ (s : State) (a v : Nat) (d : RegDesc), findReg a = some d → s.refusedFields a v d.fields = [] →
    (∀ f ∈ d.fields, f.cls ≠ .f) → v < 2 ^ 32 →
    (∀ b, b ≠ a → (s.storeReg a v).reg b = s.reg b) ∧
    (∀ f ∈ d.fields, ∀ k, f.lo ≤ k → k < f.lo + f.width →
      (f.access = .rw → ((s.storeReg a v).reg a).getLsbD k = v.testBit k) ∧
      (f.access = .w1c → ((s.storeReg a v).reg a).getLsbD k = ((s.reg a).getLsbD k && !v.testBit k)) ∧
      (f.access ≠ .rw → f.access ≠ .w1c → ((s.storeReg a v).reg a).getLsbD k = (s.reg a).getLsbD k)) ∧
    (∀ k, (∀ f ∈ d.fields, ¬ (f.lo ≤ k ∧ k < f.lo + f.width)) → ((s.storeReg a v).reg a).getLsbD k = (s.reg a).getLsbD k)

/-- A host read of a clear-on-read register of the fabric is held with its value and clears nothing; a core's read
consumes at once. CONSUME of held data (no injection armed) drops it and consumes its value: a value that has changed
since stays. READ_ABANDONED acts 1 ms after the fetch, drops the data, consumes nothing, counts the abandonment for
the bridge or the host link and records 0x0F02. Without held data neither does anything. (R8, R401, R428, R429) -/
def Obligations.ReadsAreConsumedOnDelivery : Prop :=
  (∀ (s : State) (a : Nat), s.access .host a 4 = .own → isRc a = true → s.flt.armed = none →
    ∃ u v, exec (.rcRead .host a 4) s = .next ((u.emit (.readData .host v)).hold a v false) ∧ (v, u) = s.readReg .host a ∧
      (((u.emit (.readData .host v)).hold a v false).reg a = u.reg a)) ∧
  (∀ (s : State) (who : Initiator) (a : Nat), s.access who a 4 = .own → isRc a = true → who ≠ .host →
    ∃ u v, exec (.rcRead who a 4) s = .next ((u.emit (.readData who v)).consumeReg a v) ∧ (v, u) = s.readReg who a) ∧
  (∀ (s : State) (v : Nat), (s.consumeReg R.DBR_HELD_MAX.base v).get F.DBR_HELD_MAX_US =
    (if s.get F.DBR_HELD_MAX_US = v / 2 ^ F.DBR_HELD_MAX_US.lo % 2 ^ F.DBR_HELD_MAX_US.width then 0 else s.get F.DBR_HELD_MAX_US)) ∧
  (∀ (s : State) (who : Initiator) (a : Nat), s.host.held.find? (fun h => decide (h.who = who) && h.addr == a) = none →
    exec (.consume who a) s = .next s ∧ exec (.readAbandoned who a) s = .next s) ∧
  (∀ (s : State) (who : Initiator) (a : Nat) (h : HeldRead),
    s.host.held.find? (fun h => decide (h.who = who) && h.addr == a && !h.dead) = some h → s.flt.armed = none →
    exec (.consume who a) s = .next (((s.dropHeld h).consumeHeld h).syncHost)) ∧
  (∀ (s : State) (who : Initiator) (a : Nat) (h : HeldRead),
    s.host.held.find? (fun h => decide (h.who = who) && h.addr == a) = some h → s.flt.armed = none →
    ∃ t, exec (.readAbandoned who a) s = .next t ∧ t.uptime = max s.uptime (h.fetched + 1000000) ∧ t.host.held = s.host.held.erase h ∧
      (h.byre = true → t.get R.DBR_ABANDON_CNT = min 0xFFFFFFFF (s.get R.DBR_ABANDON_CNT + 1) ∧ t.flag F.DBR_EVT_ABANDON = true) ∧
      (h.byre = false → t.get R.HBR_ABANDON_CNT = min 0xFFFFFFFF (s.get R.HBR_ABANDON_CNT + 1) ∧ t.flag F.HBR_EVT_ABANDON = true) ∧
      s.Records [(0x0F02, [rankOf who, a, h.value])] t)

/-- In Dormant, with no wake running, the link is down: HOST_LINK_UP and a BAR2 write change nothing. Elsewhere
HOST_LINK_UP shows the link and records 0x0F00; HOST_LINK_DOWN and FLR reset the configuration, the MSI-X table and
the PBA and drop the host's requests, each with its record. D3HOT sets or clears D3hot. An AER error is stored, noted
and recorded. A BAR2 write within what the host may write changes those bytes of the Bulk Tank and no others. A failed
boost answers every waiting read with all ones; a boost stops when nothing waits. POLL copies the mirrored registers
while POLL_EN is set. (R420, R421, R423, R435, R436, R442, R53) -/
def Obligations.HostLinkEvents : Prop :=
  (∀ (s : State) (speed width a : Nat) (bytes : List Nat), s.power = 0 → s.pwr.waking = none →
    exec (.hostLinkUp speed width) s = .next s ∧ exec (.bar2Write a bytes) s = .next s) ∧
  (∀ (s : State) (speed width : Nat), s.power ≠ 0 ∨ s.pwr.waking ≠ none → speed < 2 ^ F.HBR_STAT_SPEED.width → width < 2 ^ F.HBR_STAT_WIDTH.width →
    ∃ t, exec (.hostLinkUp speed width) s = .next t ∧ t.flag F.HBR_STAT_DL_UP = true ∧ t.get F.HBR_STAT_SPEED = speed ∧
      t.get F.HBR_STAT_WIDTH = width ∧ t.flag F.HBR_EVT_LINK = true ∧ s.Records [(0x0F00, [speed, width])] t ∧
      s.Leaves [(F.HBR_STAT_DL_UP, 0), (F.HBR_STAT_SPEED, 0), (F.HBR_STAT_WIDTH, 0), (F.HBR_EVT_LINK, 0)] [] t) ∧
  (∀ (s : State),
    (∃ t, exec .hostLinkDown s = .next t ∧ t.flag F.HBR_STAT_DL_UP = false ∧ t.host.msixEnable = false ∧ t.host.msixTable = [] ∧
      t.host.d3hot = false ∧ s.Records [(0x0F01, [s.heldReads])] t ∧ t.par = s.par ∧ t.cmd = s.cmd ∧ t.frames = s.frames ∧
      (∀ r ∈ t.host.retrying, r.who ≠ .host) ∧ (∀ h ∈ t.host.held, h.who = .host → h.dead = true)) ∧
    (∃ t, exec .flr s = .next t ∧ t.host.msixEnable = false ∧ t.host.msixTable = [] ∧ t.host.pba = 0 ∧ t.host.d3hot = false ∧
      t.get R.HBR_FLR_CNT = min 0xFFFFFFFF (s.get R.HBR_FLR_CNT + 1) ∧
      s.Records [(0x0F06, [s.heldReads, min 0xFFFFFFFF (s.get R.HBR_FLR_CNT + 1)])] t ∧ t.par = s.par ∧ t.cmd = s.cmd)) ∧
  (∀ (s : State) (on : Bool), ∃ t, exec (.d3hot on) s = .next t ∧ t.host = { s.host with d3hot := on } ∧ s.Leaves [] [.host] t) ∧
  (∀ (s : State) (w : Word), ∃ t, exec (.aerUncorrectable w) s = .next t ∧ t.host.aerStatus = w.toNat ∧ t.flag F.HBR_EVT_AER = true ∧
    s.Records [(0x0F07, [w.toNat])] t ∧ s.Leaves [(F.HBR_EVT_AER, 0)] [.host] t) ∧
  (∀ (s : State) (a : Nat) (bytes : List Nat), s.power ≠ 0 ∨ s.pwr.waking ≠ none → s.host.d3hot = false → s.domainOff 9 = false → s.domainOff 2 = false →
    ∃ t, exec (.bar2Write a bytes) s = .next t ∧
      (∀ b, b < a ∨ a + bytes.length ≤ b → t.bulkByte b = s.bulkByte b) ∧
      (∀ i v, bytes[i]? = some v → hostMayWrite (a + i) = true → t.bulkByte (a + i) = BitVec.ofNat 8 v) ∧
      (∀ i, i < bytes.length → hostMayWrite (a + i) = false → t.bulkByte (a + i) = s.bulkByte (a + i) ∧
        t.get R.HBR_PROT_CNT = min 0xFFFFFFFF (s.get R.HBR_PROT_CNT + 1) ∧ t.flag F.HBR_EVT_PROT = true)) ∧
  (∀ (s : State), s.flt.armed = none →
    ∃ t, exec .boostFail s = .next t ∧ t.outs.filter (fun o => match o with | .readData _ _ => true | _ => false) =
        s.outs.filter (fun o => match o with | .readData _ _ => true | _ => false) ++
          s.host.retrying.map (fun r => .readData r.who 0xFFFFFFFF) ∧
      t.host.retrying = [] ∧ t.host.boost = false ∧ t.host.posted = s.host.posted ∧ t.flag F.DBR_EVT_BOOST_FAIL = true ∧
      s.Records [(0x0F05, [1, s.host.retrying.length])] t) ∧
  (∀ (s : State), (s.host.retrying = [] ∧ s.host.posted = [] → ∃ t, exec .boostStop s = .next t ∧ t.host.boost = false ∧
      t.flag F.DBR_STAT_BOOST = false) ∧
    (s.host.retrying ≠ [] ∨ s.host.posted ≠ [] → exec .boostStop s = .next s)) ∧
  (∀ (s : State), s.flag F.DBR_CTL_POLL_EN = false → exec .poll s = .next s) ∧
  (∀ (s : State), s.flag F.DBR_CTL_POLL_EN = true → ∃ t, exec .poll s = .next t ∧
    (∀ i, i < 8 → s.get R.DBR_MIRROR_ADDR i = 0 → t.reg (R.DBR_MIRROR.addr i) = s.reg (R.DBR_MIRROR.addr i)) ∧
    s.Leaves ((List.range 8).map (fun i => (R.DBR_MIRROR, i))) [] t)

/-- With MSI-X disabled a raised vector sends nothing and sets no PBA bit. Enabled, an unmasked vector sends one message,
a masked one sets its PBA bit alone. An event bit raises its vector when it goes from 0 to 1, and not when it is set
already. Unmasking a vector whose PBA bit is set, with MSI-X enabled and the function unmasked, sends one message and
clears the bit. (R421) -/
def Obligations.MessagesFollowTheMasks : Prop :=
  (∀ (s : State) (v : Nat), s.host.msixEnable = false → s.msi v = s) ∧
  (∀ (s : State) (v : Nat), s.host.msixEnable = true → s.host.msixMaskAll = true ∨ s.vectorMasked v = true →
    ∃ t, s.msi v = t ∧ t.outs = s.outs ∧ bitAt t.host.pba v = true ∧ (∀ w, w ≠ v → bitAt t.host.pba w = bitAt s.host.pba w) ∧ s.Leaves [] [] t) ∧
  (∀ (s : State) (v : Nat), s.host.msixEnable = true → s.host.msixMaskAll = false → s.vectorMasked v = false →
    ∃ t, s.msi v = t ∧ t.outs = s.outs ++ [.msi v] ∧ t.host = s.host ∧ s.Leaves [] [] t) ∧
  (∀ (s : State) (f : Field) (i : Nat), s.flag f i = true → s.raise f i = s) ∧
  (∀ (s : State) (v : Fin 64), s.host.msixEnable = true → s.host.msixMaskAll = false → s.vectorMasked v = true →
    s.host.pba = 2 ^ v.val →
    ∃ t, exec (.msixUnmask (some v)) s = .next t ∧ t.outs = s.outs ++ [.msi v] ∧ t.host.pba = 0 ∧ t.vectorMasked v = false) ∧
  (∀ (s : State) (v : Option (Fin 64)), s.host.msixEnable = false →
    ∃ t, exec (.msixUnmask v) s = .next t ∧ t.outs = s.outs ∧ t.host.pba = s.host.pba ∧ s.Leaves [] [.host] t) ∧
  (∀ (s : State), s.host.msixEnable = true → s.host.msixMaskAll = true → s.host.pba = 0 →
    ∃ t, exec (.msixUnmask none) s = .next t ∧ t.outs = s.outs ∧ t.host.msixMaskAll = false)

/-- A read across the bridge takes a slot and is told to retry, or is left where no slot is free. A posted write by a
requester kept out by a guard is counted and discarded; one to a region that takes no writes is counted and discarded;
else it is accepted in order. SEM_TAKE grants a free semaphore at once, notes a request of a held one, and repeats
nothing for its owner; SEM_GIVE of the owner passes it to the highest waiting rank, or frees it. SEM_REVOKED takes it
from its owner, marked and recorded. A host write to semaphores 12 to 15 is discarded. (R425, R430, R432, R433) -/
def Obligations.BridgeAndSemaphores : Prop :=
  (∀ (s : State) (who : Initiator) (a len : Nat), s.access who a len = .byre → who ≠ .supervisor →
    s.host.retrying.find? (fun r => decide (r.who = who) && r.addr == a && r.len == len) = none →
    (readSlots who ≤ s.slotsBusy who → exec (.bridgeRead who a len) s = .next s) ∧
    (s.slotsBusy who < readSlots who →
      ∃ t, exec (.bridgeRead who a len) s = .next t ∧
        t.host.retrying = s.host.retrying ++ [{ who := who, addr := a, len := len, since := s.uptime }] ∧ t.outs = s.outs ∧
        t.get R.DBR_RETRY_CNT = min 0xFFFFFFFF (s.get R.DBR_RETRY_CNT + 1))) ∧
  (∀ (s : State) (who : Initiator) (a e : Nat) (bytes : List Nat), s.access who a bytes.length = .byre → who ≠ .supervisor → entryOf a = some e →
    (∀ n, s.guardOf who e = some n →
      ∃ t, exec (.bridgeWrite who a bytes) s = .next t ∧ t.get R.DBR_GUARD_CNT = min 0xFFFFFFFF (s.get R.DBR_GUARD_CNT + 1) ∧
        s.Leaves [(R.DBR_GUARD_CNT, 0)] [] t) ∧
    (s.guardOf who e = none → regionWrites e = false →
      ∃ t, exec (.bridgeWrite who a bytes) s = .next t ∧ t.get R.DBR_WDISC_CNT = min 0xFFFFFFFF (s.get R.DBR_WDISC_CNT + 1) ∧
        s.Leaves [(R.DBR_WDISC_CNT, 0)] [] t) ∧
    (s.guardOf who e = none → regionWrites e = true → s.host.posted.length < 64 →
      exec (.bridgeWrite who a bytes) s = .next (s.post { who := who, addr := a, bytes := bytes, consume := none }))) ∧
  (∀ (s : State) (who : Initiator) (n : Fin 16) (w : Word), semDenied who n = true →
    exec (.semTake who n w) s = .next s ∧ exec (.semGive who n w) s = .next s) ∧
  (∀ (s : State) (who : Initiator) (n : Fin 16) (w : Word), semDenied who n = false →
    (s.get F.DBR_SEM_OWNER n = 7 → ∃ t, exec (.semTake who n w) s = .next t ∧ t.get F.DBR_SEM_OWNER n = rankOf who ∧
      t.get F.DBR_SEM_GUARD n = bits w.toNat 10 10 ∧ t.get F.DBR_SEM_REGION n = bits w.toNat 13 11 ∧
      s.Leaves [(R.DBR_SEM, n)] [.host] t) ∧
    (s.get F.DBR_SEM_OWNER n ≠ 7 → s.get F.DBR_SEM_OWNER n ≠ rankOf who →
      ∃ t, exec (.semTake who n w) s = .next t ∧ t.get F.DBR_SEM_OWNER n = s.get F.DBR_SEM_OWNER n ∧
        bitAt (t.get F.DBR_SEM_WAITING n) (rankOf who) = true ∧ s.Leaves [(R.DBR_SEM, n)] [] t) ∧
    (s.get F.DBR_SEM_OWNER n ≠ rankOf who →
      ∃ t, exec (.semGive who n w) s = .next t ∧ t.get F.DBR_SEM_OWNER n = s.get F.DBR_SEM_OWNER n ∧ s.Leaves [(R.DBR_SEM, n)] [] t) ∧
    (s.get F.DBR_SEM_OWNER n = rankOf who → s.get F.DBR_SEM_WAITING n = 0 →
      ∃ t, exec (.semGive who n w) s = .next t ∧ t.get F.DBR_SEM_OWNER n = 7 ∧ s.Leaves [(R.DBR_SEM, n)] [] t) ∧
    (s.get F.DBR_SEM_OWNER n = rankOf who → ∀ r, (List.range 5).find? (fun r => bitAt (s.get F.DBR_SEM_WAITING n) r) = some r →
      ∃ t, exec (.semGive who n w) s = .next t ∧ t.get F.DBR_SEM_OWNER n = r ∧ bitAt (t.get F.DBR_SEM_WAITING n) r = false ∧
        s.Leaves [(R.DBR_SEM, n)] [.host] t)) ∧
  (∀ (s : State) (n : Fin 16), s.get F.DBR_SEM_OWNER n = 7 → exec (.semRevoked n) s = .next s) ∧
  (∀ (s : State) (n : Fin 16) (o : Nat), s.get F.DBR_SEM_OWNER n = o → o ≠ 7 →
    ∃ t, exec (.semRevoked n) s = .next t ∧ t.flag F.DBR_SEM_REVOKED n = true ∧ t.flag F.DBR_EVT_REVOKED = true ∧
      t.get F.DBR_SEM_OWNER n = ((List.range 5).find? (fun r => bitAt (s.get F.DBR_SEM_WAITING n) r)).getD 7 ∧
      s.Records [(0x0F03, [n.val, o, 0])] t ∧ s.Leaves [(R.DBR_SEM, n), (F.DBR_EVT_REVOKED, 0)] [.host] t)

/-- A transaction that arrives at a channel is in flight while fewer than 512 are in all, 128 on its controller and 32 on
the channel, and none waits there; else it waits. MEM_ACCESS serves, of those in flight on the channel, the owner of
the slot, else the first class with a request, and lets the waiting ones in; what is served wakes the memory, takes
the slot, counts 64 bytes and is noted, and an early client is counted and recorded. SCRUB_PASS counts a pass and
records its time and its fixes; SCRUB_BEHIND shows the delay, and 0x1005 is recorded on reaching 60 minutes. A sleep
level is entered only when no transaction is in flight or waits, and it is enabled, deeper, and allowed by every
tolerance; an exit wakes the memory or the channel. A derate during deep self-refresh waits for the exit. (R445, R446,
R449, R450, R454, R455, R457) -/
def Obligations.MemoryService : Prop :=
  (∀ (s u : State) (ch : Fin 16) (reqs : List MemReq), u = s.each reqs (fun r t => (t.memEarly r).memArrive ch r) →
    let here := u.mem.flying.filter (fun x => x.channel == ch.val)
    (u.memPick ch (here.map u.waited) = none → exec (.memAccess ch reqs) s = .next u) ∧
    (∀ r, u.memPick ch (here.map u.waited) = some r → ∃ x ∈ here, u.waited x = r ∧
      exec (.memAccess ch reqs) s = .next (((u.modMem (fun m => { m with flying := m.flying.erase x })).memServe ch r).memAdmit))) ∧
  (∀ (s : State) (ch : Nat) (r : MemReq), let x : Flying := { channel := ch, req := r, since := s.uptime }
    (s.memArrive ch r).mem = (if s.memRoom ch = true ∧ s.mem.stalled.any (fun y => y.channel == ch) = false
      then { s.mem with flying := s.mem.flying ++ [x] } else { s.mem with stalled := s.mem.stalled ++ [x] }) ∧
      s.Leaves [] [.mem] (s.memArrive ch r)) ∧
  (∀ (s : State) (ch : Nat), s.memRoom ch = true ↔ s.mem.flying.length < 512 ∧
    (s.mem.flying.filter (fun x => x.channel / 4 == ch / 4)).length < 128 ∧ (s.mem.flying.filter (fun x => x.channel == ch)).length < 32) ∧
  (∀ (s : State) (ch : Nat) (r : MemReq), r.len = 0 ∨ r.addr % 32 + r.len ≤ 32 →
    ∃ u v : State, u = ((s.memAwake.channelAwake ch).closeUtil) ∧
      v.mem = { u.mem with slots := u.mem.slots.modify ch (fun k => (k + 1) % 512),
                           turn := (match ownerTurn r.owner with | some k => (k + 1) % 4 | none => s.mem.turn), bytes := u.mem.bytes + 64 } ∧
      v.outs = u.outs ++ [.memServed ch r.owner r.addr] ∧ u.Leaves [] [.mem, .sys] v ∧
      s.memServe ch r = v.memHalf r (r.addr / 32) r.first) ∧
  (∀ (s : State) (ch : Fin 16) (reqs : List MemReq) (o : MemOwner) (r : MemReq), slotOwner (s.mem.slots.getD ch 0) = some o →
    reqs.find? (fun r => decide (r.owner = o)) = some r → s.memPick ch reqs = some r) ∧
  (∀ (s : State) (r : MemReq) (c d : Nat), (ownerClient r.owner).bind (fun c => s.deadlines.find? (fun d => d.1 == c)) = some (c, d) →
    c ≠ 3 → s.now < d →
    ∃ t, s.memEarly r = t ∧ t.get R.MEM_TOL_VIOL_CNT = min 0xFFFFFFFF (s.get R.MEM_TOL_VIOL_CNT + 1) ∧ t.flag F.MEM_EVT_TOL_VIOL = true ∧
      s.Records [(0x1002, [c, (d - s.now) / inTime 1])] t ∧ s.Leaves [(R.MEM_TOL_VIOL_CNT, 0), (F.MEM_EVT_TOL_VIOL, 0)] [] t) ∧
  (∀ (s : State), ∃ t, exec .scrubPass s = .next t ∧ t.get R.MEM_SCRUB_PASS_CNT = min 0xFFFFFFFF (s.get R.MEM_SCRUB_PASS_CNT + 1) ∧
    t.flag F.MEM_EVT_SCRUB_PASS = true ∧ t.mem = { s.mem with passFrom := s.uptime, passFixes := 0 } ∧
    s.Records [(0x1003, [(s.uptime - s.mem.passFrom) / oneSecond, s.mem.passFixes])] t ∧
    s.Leaves [(R.MEM_SCRUB_PASS_CNT, 0), (F.MEM_EVT_SCRUB_PASS, 0)] [.mem] t) ∧
  (∀ (s : State) (m : Nat), ∃ t, exec (.scrubBehind m) s = .next t ∧ t.get F.MEM_SCRUB_POS_BEHIND = min m 65535 ∧
    s.Records (if s.get F.MEM_SCRUB_POS_BEHIND < 60 ∧ 60 ≤ m then [(0x1005, [m])] else []) t ∧
    s.Leaves [(F.MEM_SCRUB_POS_BEHIND, 0)] [.mem] t) ∧
  (∀ (s : State) (level : Fin 3) (ch : Fin 16), s.power ≠ 0 → 1 ≤ level.val →
    let on := if level.val = 1 then s.flag F.MEM_CTL_SR_EN else s.flag F.MEM_CTL_DSR_EN
    (s.queuesEmpty none = true → on = true → s.get F.MEM_STAT_LEVEL < level → s.sleepAllowed (if level.val = 1 then 8000 else 200000) = true →
      ∃ t, exec (.memSleepEnter level ch) s = .next t ∧ t.get F.MEM_STAT_LEVEL = level ∧ t.get F.MEM_STAT_PD_CH = 0 ∧
        s.Leaves [(F.MEM_STAT_LEVEL, 0), (F.MEM_STAT_PD_CH, 0)] [.mem] t) ∧
    (s.queuesEmpty none = false ∨ on = false ∨ level ≤ s.get F.MEM_STAT_LEVEL ∨ s.sleepAllowed (if level.val = 1 then 8000 else 200000) = false →
      exec (.memSleepEnter level ch) s = .next s)) ∧
  (∀ (s : State) (ch : Fin 16), s.power ≠ 0 → s.queuesEmpty (some ch.val) = true → s.get F.MEM_STAT_LEVEL = 0 → s.sleepAllowed 500 = true → bitAt (s.get F.MEM_STAT_PD_CH) ch = false →
    ∃ t, exec (.memSleepEnter 0 ch) s = .next t ∧ bitAt (t.get F.MEM_STAT_PD_CH) ch = true ∧ s.Leaves [(F.MEM_STAT_PD_CH, 0)] [] t) ∧
  (∀ (s : State) (ch : Fin 16), (s.get F.MEM_STAT_LEVEL = 0 → exec (.memSleepExit ch) s = .next (s.channelAwake ch)) ∧
    (s.get F.MEM_STAT_LEVEL ≠ 0 → ∃ t, exec (.memSleepExit ch) s = .next t ∧ t = s.memAwake ∧
      (s.mem.derateNext = [] → t.get F.MEM_STAT_LEVEL = 0))) ∧
  (∀ (s : State) (p : Fin 4) (f : Fin 3), s.get F.MEM_STAT_LEVEL = 2 →
    ∃ t, exec (.refreshDerate p f) s = .next t ∧ t.mem = { s.mem with derateNext := s.mem.derateNext ++ [(p.val, f.val)] } ∧ s.Leaves [] [.mem] t) ∧
  (∀ (s : State) (p : Fin 4) (f : Fin 3), s.get F.MEM_STAT_LEVEL ≠ 2 →
    (s.mem.derate.getD p 0 = f → exec (.refreshDerate p f) s = .next s) ∧
    (s.mem.derate.getD p 0 ≠ f → exec (.refreshDerate p f) s = .next (s.takeDerate p f)))

/-- Out of a pair these commands do nothing. In one, each bell sends its heartbeat; a received one rings its bell and
notes the partner, and a seeking device that hears an Active becomes Standby. A silent bell is marked 8 µs after it
was heard, once. A declared failure is taken over 3 µs later; a seeking primary that heard nothing for 1 s becomes
Active. FENCE_IN qualified fences the device, once; a pulse of it toggles FTOG; a fence pulse is sent while FENCE_OUT
is low; three unseen ones raise the alarm. A loopback result is noted on a Standby. (R462, R465, R467, R468, R469,
R470, R478, R486, R498) -/
def Obligations.PairHeartbeatsAndFences : Prop :=
  (∀ (s : State) (b : Bool) (hb : Heartbeat) (info : Option PartnerInfo) (p : Fin 19) (ok : Bool), s.pairOn = false →
    exec .bellAHeartbeat s = .next s ∧ exec .bellBHeartbeat s = .next s ∧ exec (.heartbeatReceive b hb info) s = .next s ∧
    exec (.bellSilent b) s = .next s ∧ exec .fencePulse s = .next s ∧ exec .fenceInPulse s = .next s ∧ exec .fenceAlarm s = .next s ∧
    exec .seekTimeout s = .next s ∧ exec (.linkLoopbackTest p ok) s = .next s) ∧
  (∀ (s : State), s.pairOn = true → exec .bellAHeartbeat s = .next (s.sendBellA false) ∧
    exec .bellBHeartbeat s = .next (s.sendHeartbeatB false) ∧
    ∃ t, exec .fenceInPulse s = .next t ∧ t.red = { s.red with ftog := !s.red.ftog } ∧ s.Leaves [] [.red] t) ∧
  (∀ (s : State), s.pairOn = true → s.flt.armed = none →
    ∃ t b, s.sendBellA false = t ∧ t.outs = s.outs ++ [.bellA (b ++ beBytes 2 (crc16 b))] ∧
      t.red.bellA.sent = (s.red.bellA.sent + 1) % 65536 ∧ s.Leaves [] [.red] t) ∧
  (∀ (s u : State) (b : Bool) (hb : Heartbeat) (info : Option PartnerInfo), s.pairOn = true → u = (s.ringHeard b hb).notePartner b hb info →
    u.redRole = 0 → hb.role = 1 →
    (∃ v, v = u.becomeStandby hb ∧ (s.formed = true → exec (.heartbeatReceive b hb info) s = .next v.refreshReady) ∧
      (s.formed = false → v.formed = true → exec (.heartbeatReceive b hb info) s =
        .next ((v.tally 0x1100 [v.redRole, v.partnerId, v.get R.DVL_EPOCH]).refreshReady)))) ∧
  (∀ (s u : State) (b : Bool) (hb : Heartbeat) (info : Option PartnerInfo), s.pairOn = true → u = (s.ringHeard b hb).notePartner b hb info →
    s.formed = true → (u.redRole = 1 → exec (.heartbeatReceive b hb info) s = .next (u.activeHears hb).refreshReady) ∧
      (u.redRole = 2 → exec (.heartbeatReceive b hb info) s = .next (u.standbyHears hb).refreshReady)) ∧
  (∀ (s u : State) (b : Bool) (hb : Heartbeat) (info : Option PartnerInfo), s.pairOn = true → u = (s.ringHeard b hb).notePartner b hb info →
    3 ≤ u.redRole → exec (.heartbeatReceive b hb info) s = .next u.refreshReady) ∧
  (∀ (s : State) (b : Bool), (s.bell b).silent.isSome = true → exec (.bellSilent b) s = .next s) ∧
  (∀ (s : State) (b : Bool) (t : Nat), s.pairOn = true → (s.bell b).silent = none → (s.bell b).heard = some t →
    ∃ u, u.uptime = max s.uptime (t + 8000) ∧ (u.bell b).silent = some u.uptime ∧
      u.flag (if b then F.RED_STAT_BELL_B_OK else F.RED_STAT_BELL_A_OK) = false ∧ u.bell (!b) = s.bell (!b) ∧
      s.Leaves [(if b then F.RED_STAT_BELL_B_OK else F.RED_STAT_BELL_A_OK, 0)] [.red, .time] u ∧
      exec (.bellSilent b) s = .next ((if (u.bell (!b)).isHeard then u.pathAlarm b else u.bothSilent).refreshReady)) ∧
  (∀ (s : State) (td tf : Nat), s.red.failedAt = some (td, tf) →
    exec .takeover s = .next ((s.atUptime (td + 3000)).becomeSender (td - tf))) ∧
  (∀ (s : State), s.red.failedAt = none → exec .takeover s = .next s) ∧
  (∀ (s : State), s.pairOn = true → s.seeking = true → s.flag F.RED_CTL_PRIMARY = true → s.fencedIn = false →
    exec .seekTimeout s = .next (s.atUptime (s.red.seekFrom + oneSecond)).becomeActive) ∧
  (∀ (s : State), s.seeking = false ∨ s.flag F.RED_CTL_PRIMARY = false ∨ s.fencedIn = true → exec .seekTimeout s = .next s) ∧
  (∀ (s : State), s.power = 0 ∨ s.fencedIn = true → exec .fenceInQualified s = .next s) ∧
  (∀ (s u : State), s.power ≠ 0 → s.fencedIn = false → u = (s.putFlag F.RED_STAT_FENCE_IN true).takeReset 13 reachOutput 0 →
    u.red.switching = none → exec .fenceInQualified s = .next (u.fence (if s.seeking then 2 else 3)).refreshReady) ∧
  (∀ (s : State), s.fencedIn = false → exec .fenceInReleased s = .next s) ∧
  (∀ (s u : State), s.fencedIn = true → u = (s.putFlag F.RED_STAT_FENCE_IN false).each (List.range 32) (fun p t =>
      if t.ddState p = 7 ∧ bitAt (t.get F.PCR_SUPPLY_BANK_HELD) (p / 8) = false then t.ddEnter p (if t.ddEnabled p then 1 else 0) else t) →
    u.paired = true → (u.redRole = 3 → exec .fenceInReleased s = .next (u.takeRole 2 2).refreshReady) ∧
      (u.redRole ≠ 3 → exec .fenceInReleased s = .next u.refreshReady)) ∧
  (∀ (s : State), s.pairOn = true → s.flag F.RED_STAT_FENCE_OUT = false → s.flt.armed = none →
    ∃ t, exec .fencePulse s = .next t ∧ t.outs = s.outs ++ [.fencePulse 100] ∧ t.red.pulseAt = some s.uptime ∧
      t.red.unseen = (if s.red.pulseAt.isSome then s.red.unseen + 1 else s.red.unseen) ∧ s.Leaves [] [.red] t) ∧
  (∀ (s : State), s.flag F.RED_STAT_FENCE_OUT = true → exec .fencePulse s = .next s) ∧
  (∀ (s : State) (t0 : Nat), s.pairOn = true → s.red.pulseAt = some t0 → 2 ≤ s.red.unseen → s.red.fenceAlarm = false →
    ∃ u, u.uptime = max s.uptime (t0 + 100000000) ∧ u.red.fenceAlarm = true ∧ u.flag F.RED_EVT_FENCE_ALARM = true ∧
      s.Records [(0x1105, [s.red.unseen + 1])] u ∧ s.Leaves [(F.RED_EVT_FENCE_ALARM, 0)] [.red, .time] u ∧
      exec .fenceAlarm s = .next u.refreshReady) ∧
  (∀ (s : State) (p : Fin 19), s.pairOn = true → s.redRole = 2 →
    ∃ u, exec (.linkLoopbackTest p true) s = .next u.refreshReady ∧ u.red.loops = (p.val, s.uptime) :: s.red.loops.filter (fun q => q.1 != p.val) ∧
      u.red.loopFail = s.red.loopFail.filter (fun q => q != p.val) ∧ s.Leaves [] [.red] u)

/-- SWITCH answers BUSY while one runs, begins an allowed one, else WRONG_MODE; it hands over at the next E and times out
50 µs later. FORCE_ACTIVE is refused fenced in or beside an Active. UNFENCE releases FENCE_OUT. RESYNC and mirror
records act on a Standby alone: the next record is taken, an older one acknowledged again, a gap resynchronised;
acknowledgements, lags and resynchronisation requests act on an Active alone. A frame whose signatures differ twice in
a row raises the alarm, 64 that agree end it. Health passes from Standby to Active, and is stale after 300 ms. (R471,
R472, R474, R475, R480, R482, R484, R485, R486, R487) -/
def Obligations.PairSwitchesAndMirror : Prop :=
  (∀ (s u : State) (w : Word), u = s.redCommand w.toNat →
    (s.red.switching.isSome = true → exec (.switch w) s = .next (u.redResult stBusy)) ∧
    (s.red.switching = none → s.pairOn = true → s.switchAllowed (bitAt w.toNat 3) = true →
      exec (.switch w) s = .next (u.beginSwitch false (bitAt w.toNat 3))) ∧
    (s.red.switching = none → s.pairOn = false ∨ s.switchAllowed (bitAt w.toNat 3) = false →
      exec (.switch w) s = .next (u.redResult stWrongMode))) ∧
  (∀ (s : State) (st : Nat), st < 16 → (s.redResult st).get F.RED_CMD_STAT_RESULT = st ∧
    (s.redResult st).get F.RED_CMD_STAT_SEQ = (s.get F.RED_CMD_STAT_SEQ + 1) % 2 ^ F.RED_CMD_STAT_SEQ.width ∧
    s.Leaves [(F.RED_CMD_STAT_RESULT, 0), (F.RED_CMD_STAT_SEQ, 0)] [] (s.redResult st)) ∧
  (∀ (s : State) (w : Switching), s.red.switching = some w → w.sentAt = none →
    exec .switchHandover s = .next ((s.atTime (s.eAt s.nextE)).handOver w s.nextE) ∧ exec .switchTimeout s = .next s) ∧
  (∀ (s : State), s.red.switching = none → exec .switchHandover s = .next s ∧ exec .switchTimeout s = .next s) ∧
  (∀ (s : State) (w : Switching) (t0 : Nat), s.red.switching = some w → w.sentAt = some t0 → w.dormant = false →
    exec .switchHandover s = .next s ∧
    ∃ u gap, gap = (s.atUptime (t0 + 50000)).free 32 ∧
      u = ((gap.2.advanceEpoch ((s.get R.DVL_EPOCH + 1) % 2 ^ 32)).unmute).modRed (fun r => { r with switching := none }) ∧
      exec .switchTimeout s = .next ((u.redResult stTimeout).tally 0x1109 [stTimeout, w.frame, gap.1])) ∧
  (∀ (s : State), s.pairOn = false ∨ s.fencedIn = true ∨
      ((s.red.bellA.isHeard || s.red.bellB.isHeard) && s.red.partner.any (fun h => h.role == 1)) = true →
    exec .forceActive s = .next (s.redResult stWrongMode)) ∧
  (∀ (s : State), s.pairOn = true → s.fencedIn = false →
      ((s.red.bellA.isHeard || s.red.bellB.isHeard) && s.red.partner.any (fun h => h.role == 1)) = false →
    (s.seeking = true → exec .forceActive s = .next ((s.becomeActive).redResult stOK)) ∧
    (s.seeking = false → s.red.blocked = true → exec .forceActive s = .next ((s.declareFailure 0).redResult stOK)) ∧
    (s.seeking = false → s.red.blocked = false → exec .forceActive s = .next (s.redResult stWrongMode))) ∧
  (∀ (s : State), ∃ t, exec .unfence s = .next t ∧ t.flag F.RED_STAT_FENCE_OUT = false ∧ t.get F.RED_CMD_STAT_RESULT = stOK ∧
    s.Leaves [(F.RED_STAT_FENCE_OUT, 0), (F.RED_CMD_STAT_RESULT, 0), (F.RED_CMD_STAT_SEQ, 0)] [] t) ∧
  (∀ (s : State), (s.pairOn = true → s.redRole = 2 → exec .resync s = .next ((s.redResult stOK).startResync 4)) ∧
    (s.pairOn = false ∨ s.redRole ≠ 2 → exec .resync s = .next (s.redResult stWrongMode))) ∧
  (∀ (s : State) (m f b c : Nat) (x : Mirrored) (p : Option (Snapshot × Nat)), s.pairOn = false ∨ s.redRole ≠ 2 →
    exec (.mirrorReceive m f b c x) s = .next s ∧ exec (.snapshotReceive p) s = .next s) ∧
  (∀ (s : State) (m f b c : Nat) (x : Mirrored), s.pairOn = true → s.redRole = 2 → s.red.resync = none →
    (m = s.red.next → exec (.mirrorReceive m f b c x) s = .next (s.takeMirrored ⟨m, f, b, c, s.uptime, x⟩).refreshReady) ∧
    (m ≠ s.red.next → seqAtLeast m s.red.next = false →
      exec (.mirrorReceive m f b c x) s = .next (s.sendBellB 3 (beBytes 4 ((s.red.next + 2 ^ 32 - 1) % 2 ^ 32)))) ∧
    (m ≠ s.red.next → seqAtLeast m s.red.next = true →
      ∃ t, exec (.mirrorReceive m f b c x) s = .next t ∧ t.red.resync.map Resync.kept = some [⟨m, f, b, c, s.uptime, x⟩])) ∧
  (∀ (s : State) (m reason : Nat), s.pairOn = false ∨ s.redRole ≠ 1 → exec (.ackReceive m) s = .next s ∧ exec (.mirrorResend m) s = .next s ∧
    exec .mirrorLag s = .next s ∧ exec (.resyncReqReceive reason) s = .next s ∧ (s.redRole ≠ 1 → exec .healthStale s = .next s)) ∧
  (∀ (s : State) (m : Nat), s.pairOn = true → s.redRole = 1 →
    exec (.ackReceive m) s = .next ((s.modRed (fun r => { r with queue := r.queue.filter (fun x => !seqAtLeast m x.mseq) })).each
      (s.red.queue.filter (fun r => seqAtLeast m r.mseq)) (fun r t => t.runMirrored r)) ∧
    (∀ r, s.red.queue.find? (fun r => r.mseq == m) = some r →
      ∃ t, exec (.mirrorResend m) s = .next t ∧ t.outs = s.outs ++ [.mirror r.mseq r.frame r.band r.tcrc r.what] ∧
        t.uptime = max s.uptime (r.sentAt + 20000) ∧ s.Leaves [] [.time] t) ∧
    (∀ r rest, s.red.queue = r :: rest → ∃ u, u.red = { s.red with follows := false, lag := true } ∧ s.Leaves [] [.red, .time] u ∧
      s.Records [(0x110D, [r.mseq, 50])] u ∧ exec .mirrorLag s = .next u.runQueue)) ∧
  (∀ (s : State) (reason : Nat), s.pairOn = true → s.redRole = 1 →
    ∃ t, exec (.resyncReqReceive reason) s = .next t ∧ t.red = { s.red with sends := some s.sys.nextS, follows := false } ∧
      t.get F.RED_RESYNC_PROGRESS = 0 ∧ s.Records [(0x110A, [reason, s.sys.nextS])] t ∧ s.Leaves [(F.RED_RESYNC_PROGRESS, 0)] [.red] t) ∧
  (∀ (s : State) (r : Resync) (p : Snapshot) (n : Nat), s.pairOn = true → s.redRole = 2 → s.red.resync = some r →
    ∃ t, exec (.snapshotReceive (some (p, n))) s = .next t ∧
      t.red = { s.red with resync := some { r with snap := some p, lastAt := s.uptime, bytes := r.bytes + n } } ∧ s.Leaves [] [.red] t) ∧
  (∀ (s : State) (f : Nat) (p : Option (Nat × List Nat)) o, s.pairOn = true → s.red.own.find? (fun g => g.frame == f) = some o →
    (s.red.voids.contains f = true → exec (.sigCompare f p) s = .next (s.bump R.RED_SIG_VOID_CNT)) ∧
    (s.red.voids.contains f = false → p = none → exec (.sigCompare f p) s = .next s) ∧
    (s.red.voids.contains f = false → p = some (o.stateId % 2 ^ 32, o.sigs.map Prod.snd) →
      ∃ u : State, exec (.sigCompare f p) s = .next u.refreshReady ∧ u.red.misses = 0 ∧
        u.red.sigAlarm = (s.red.sigAlarm && !(s.red.sigAlarm && decide (64 ≤ s.red.matches_ + 1))) ∧ s.Leaves [] [.red] u) ∧
    (s.red.voids.contains f = false → ∀ st, p = some (st, o.sigs.map Prod.snd) → o.stateId % 2 ^ 32 ≠ st → s.red.misses = 1 → s.red.sigAlarm = false →
      ∃ u : State, exec (.sigCompare f p) s = .next u.refreshReady ∧ u.red.misses = 2 ∧ u.red.sigAlarm = true ∧
        u.flag F.RED_EVT_SIG_MISMATCH = true)) ∧
  (∀ (s : State) (f : Nat) (p : Option (Nat × List Nat)) (b : List Nat), s.pairOn = false →
    exec (.sigCompare f p) s = .next s ∧ exec (.healthReport b) s = .next s) ∧
  (∀ (s : State) (b : List Nat), s.pairOn = true →
    (s.redRole = 2 → exec (.healthReport b) s = .next ((s.showHealth s.healthReport).sendBellB 5 s.healthReport)) ∧
    (s.redRole = 1 → ∃ t, exec (.healthReport b) s = .next t ∧ t.flag F.RED_STAT_HEALTH_STALE = false ∧ t.red.healthAt = some s.uptime ∧
      (∀ i, i < 16 → t.get R.RED_HEALTH i = ofLe ((b.drop (4 * i)).take 4).reverse % 2 ^ 32) ∧
      s.Leaves ((F.RED_STAT_HEALTH_STALE, 0) :: (List.range 16).map (fun i => (R.RED_HEALTH, i))) [.red] t)) ∧
  (∀ (s : State) (t0 : Nat), s.pairOn = true → s.redRole = 1 → s.red.healthAt = some t0 →
    ∃ t, exec .healthStale s = .next t ∧ t.flag F.RED_STAT_HEALTH_STALE = true ∧ t.uptime = max s.uptime (t0 + 300000000) ∧
      s.Leaves [(F.RED_STAT_HEALTH_STALE, 0)] [.time] t) ∧
  (∀ (s : State), s.red.waitMarks = none → exec .markWaitExpire s = .next s) ∧
  (∀ (s : State) (n : Nat), s.red.waitMarks = some n →
    ∃ u, u.red = { s.red with waitMarks := none, voids := n :: s.red.voids.take 15 } ∧ s.Leaves [] [.red, .time] u ∧
      s.sAt n + 20000 * 65536 ≤ u.now ∧
      exec .markWaitExpire s = .next (u.decideFrame n ((s.cmd.chans.filter (fun c => c.kind == kStream)).map (fun c => (c.index, 2, 0)))))

/-- POWER_ON, RESET_N and SW_RESET with its key reset with their reach; any other SW_RESET does nothing. A device-supply
fault shows the supply and resets; a bank's fault holds the bank. A thermal trip resets, is recorded and holds the
device tripped; a third in the window waits for a wake. Lost and restored references, crystal and PLLs are shown,
recorded, and reset what they clock. A held release is noted. A core's watchdog is counted and resets it. A parity
error of a backup register clears it; of another Byre register it resets the register and the Byre. (No injection
armed.) (R496, R497, R498, R499, R503, R504, R505, R506, R516) -/
def Obligations.ResetSources : Prop :=
  (∀ (s : State), exec .powerOn s = .next (s.takeReset 0 reachAll 0)) ∧
  (∀ (s : State), (s.power ≠ 0 ∨ s.pwr.waking.isSome = true → exec .resetN s = .next (s.takeReset 1 reachDevice 0)) ∧
    (s.power = 0 → s.pwr.waking = none → exec .resetN s = .next (s.takeReset 1 reachDevice 0).backToDormant)) ∧
  (∀ (s : State) (w : Word), (bitAt w.toNat 31 = true → bits w.toNat 15 0 = 0xD1A5 →
      exec (.swReset w) s = .next (s.takeReset 2 reachDevice 0)) ∧
    (bitAt w.toNat 31 = false ∨ bits w.toNat 15 0 ≠ 0xD1A5 → exec (.swReset w) s = .next s)) ∧
  (∀ (s : State) (k : Nat), s.power = 0 → exec (.supplyFault k) s = .next s) ∧
  (∀ (s : State) (k : Nat), s.power ≠ 0 → s.flt.armed = none → k ≤ 6 →
    ∃ u : State, exec (.supplyFault k) s = .next (((u.takeReset 3 reachFast 0).modPwr (fun p => { p with supplyFault := true })).tally 0x120F
        [(u.reg R.PCR_SUPPLY.base).toNat]) ∧ bitAt (u.get F.PCR_SUPPLY_GOOD) k = false ∧
      s.Leaves [(F.PCR_SUPPLY_GOOD, 0), (F.FLT_DET_COUNT, 0x29), (F.FLT_EVT_DETECTED, 0)] [] u) ∧
  (∀ (s : State) (k : Nat), s.power ≠ 0 → 8 ≤ k → k ≤ 11 →
    ∃ t, exec (.supplyFault k) s = .next t ∧ bitAt (t.get F.PCR_SUPPLY_BANK_GOOD) (k - 8) = false ∧
      bitAt (t.get F.PCR_SUPPLY_BANK_HELD) (k - 8) = true ∧ (∀ i, i < 8 → t.ddState (8 * (k - 8) + i) = 7)) ∧
  (∀ (s : State) (die : Int), ∃ t, exec (.thermalTrip die) s = .next t ∧ t.pwr.tripped = true ∧ t.get F.PCR_STAT_PHASE = 14 ∧
    (t.pwr.waitsWake = decide (3 ≤ t.pwr.trips.length)) ∧ t.pwr.trips.getLast? = some t.uptime) ∧
  (∀ (s : State), (s.pwr.tripped = true → s.pwr.waitsWake = false → ∃ t, exec .thermalRestart s = .next t ∧ t.pwr.tripped = false ∧
      t.get F.PCR_STAT_PHASE = 3 ∧ s.Leaves [(F.PCR_STAT_PHASE, 0)] [.pwr] t) ∧
    (s.pwr.tripped = false ∨ s.pwr.waitsWake = true → exec .thermalRestart s = .next s)) ∧
  (∀ (s : State) (r : Bool) (ppm : Int), s.flt.armed = none →
    ∃ u : State, (if r then u.pwr.lost156 else u.pwr.lost25) = true ∧
      u.flag (if r then F.PCR_CLK_STAT_REF156_OK else F.PCR_CLK_STAT_REF25_OK) = false ∧
      s.Records [(0x1209, [if r then 1 else 0, slotOfInt ppm])] u ∧
      s.Leaves [(if r then F.PCR_CLK_STAT_REF156_OK else F.PCR_CLK_STAT_REF25_OK, 0), (F.FLT_DET_COUNT, 0x26), (F.FLT_EVT_DETECTED, 0)] [.pwr] u ∧
      (s.power = 0 → exec (.refLoss r ppm) s = .next u) ∧
      (s.power ≠ 0 → r = false → exec (.refLoss r ppm) s = .next (u.takeReset 5 reachFast 0)) ∧
      (s.power ≠ 0 → r = true → exec (.refLoss r ppm) s = .next (((u.failPair).takeReset 6 reachSerdes 0).put F.PCR_CLK_STAT_SD_LOCK 0))) ∧
  (∀ (s : State), (∃ t, exec (.refRestored false) s = .next t ∧ t.flag F.PCR_CLK_STAT_REF25_OK = true ∧ t.pwr.lost25 = false ∧
      s.Leaves [(F.PCR_CLK_STAT_REF25_OK, 0)] [.pwr] t) ∧
    (∃ u : State, exec (.refRestored true) s = .next u.syncDomains ∧ u.flag F.PCR_CLK_STAT_REF156_OK = true ∧ u.pwr.lost156 = false ∧
      s.Leaves [(F.PCR_CLK_STAT_REF156_OK, 0)] [.pwr] u)) ∧
  (∀ (s : State), s.flt.armed = none → ∃ t, exec .xtalFallback s = .next t ∧ t.flag F.PCR_CLK_STAT_XTAL_OK = false ∧
    t.flag F.PCR_CLK_STAT_RC_FALLBACK = true ∧ t.flag F.PCR_EVT_XTAL = true ∧ s.Records [(0x120A, [0])] t ∧
    s.Leaves [(F.PCR_CLK_STAT_XTAL_OK, 0), (F.PCR_CLK_STAT_RC_FALLBACK, 0), (F.PCR_EVT_XTAL, 0), (F.FLT_DET_COUNT, 0x28), (F.FLT_EVT_DETECTED, 0)] [] t) ∧
  (∀ (s : State), (s.flag F.PCR_CLK_STAT_RC_FALLBACK = true → ∃ t, exec .xtalRestored s = .next t ∧ t.flag F.PCR_CLK_STAT_XTAL_OK = true ∧
      t.flag F.PCR_CLK_STAT_RC_FALLBACK = false ∧ s.Records [(0x120A, [1])] t ∧
      s.Leaves [(F.PCR_CLK_STAT_XTAL_OK, 0), (F.PCR_CLK_STAT_RC_FALLBACK, 0)] [] t) ∧
    (s.flag F.PCR_CLK_STAT_RC_FALLBACK = false → exec .xtalRestored s = .next s)) ∧
  (∀ (s : State) (k : Nat), s.power ≠ 0 → s.flt.armed = none → (4 ≤ k ∧ k ≤ 13) ∨ (16 ≤ k ∧ k ≤ 21) →
    (bitAt (s.reg R.PCR_CLK_STAT.base).toNat k = true → ∃ u : State, exec (.pllLockLoss k) s = .next (u.pllLost k) ∧
      bitAt (u.reg R.PCR_CLK_STAT.base).toNat k = false ∧ s.Records [(0x1209, [if 16 ≤ k then 1 else 0, 0])] u) ∧
    (bitAt (s.reg R.PCR_CLK_STAT.base).toNat k = false → exec (.pllLockLoss k) s = .next s)) ∧
  (∀ (s : State) (k n : Nat), n = ((s.pwr.tries.find? (fun q => q.1 == k)).map Prod.snd).getD 0 →
    (n < 3 → ∃ t, exec (.pllRestart k) s = .next t ∧ t.pwr = { s.pwr with tries := s.pwr.tries.filter (fun q => q.1 != k) ++ [(k, n + 1)] } ∧
      s.Leaves [] [.pwr] t) ∧
    (3 ≤ n → ∃ u : State, exec (.pllRestart k) s = .next (u.pllLost k) ∧ u.pwr = { s.pwr with tries := s.pwr.tries.filter (fun q => q.1 != k) } ∧
      s.Leaves [] [.pwr] u)) ∧
  (∀ (s : State) (unit : Bool) (which clock us : Nat), which < 16 → ∃ t, exec (.releaseHeld unit which clock us) s = .next t ∧
    bitAt (t.get (if unit then F.PCR_BLK_RST_STAT_HELD else F.PCR_PD_STAT_HELD)) which = true ∧ t.flag F.PCR_EVT_HELD = true ∧
    s.Records [(0x1205, [which, clock, us])] t ∧
    s.Leaves [(if unit then F.PCR_BLK_RST_STAT_HELD else F.PCR_PD_STAT_HELD, 0), (F.PCR_EVT_HELD, 0)] [] t) ∧
  (∀ (s : State) (core : Fin 4), ∃ (u : State) (n : Nat), u.flag F.PCR_EVT_WDOG = true ∧
    bits (u.get R.PCR_WDOG_CNT) (8 * core + 7) (8 * core) = min 255 (bits (s.get R.PCR_WDOG_CNT) (8 * core + 7) (8 * core) + 1) ∧
    n = ((s.pwr.wdog.filter (fun q => decide (s.uptime < q.2 + 600 * oneSecond))).filter (fun q => q.1 == core.val)).length + 1 ∧
    u.uptime = s.uptime ∧ u.cmd = s.cmd ∧
    (core.val = 3 → exec (.wdogExpired core) s = .next ((u.takeReset 7 reachByre 0).updWatchdog 0)) ∧
    (core.val ≠ 3 → n < 3 → exec (.wdogExpired core) s = .next ((u.takeReset 9 reachCore core).updWatchdog (core + 1)))) ∧
  (∀ (s : State) (i : Nat), i < 16 → s.flt.armed = none → ∃ t, exec (.parity (0x140100 + 4 * i)) s = .next t ∧ t.get R.PCR_BKP i = 0 ∧
    bitAt (t.get F.PCR_BKP_VALID_VALID) i = false ∧ s.Records [(0x120E, [0x140100 + 4 * i])] t ∧
    s.Leaves [(R.PCR_BKP, i), (F.PCR_BKP_VALID_VALID, 0), (F.FLT_DET_COUNT, 0x11), (F.FLT_EVT_DETECTED, 0)] [] t) ∧
  (∀ (s : State) (a : Nat), a < 0x140100 ∨ 0x140140 ≤ a →
    (regInByre a = true → exec (.parity a) s = .next
      ((((s.detected 0x10 0 a).setReg (a / 4 * 4) (regReset (a / 4 * 4))).takeReset 8 reachByre 0).tally 0x120E [a])) ∧
    (regInByre a = false → exec (.parity a) s = .next s))

/-- ECC_RESET of an engine table and a BLK_RST of a unit that may be reset ask the unit to go idle; a static unit outside
Warm is refused, shown, counted as a rejected S-class write and recorded. IDLE_ACK resets a unit asked; IDLE_TIMEOUT
resets it after its wait, counted and recorded. A unit not asked is left alone. (R499, R500, R502, R503, R587) -/
def Obligations.UnitResets : Prop :=
  (∀ (s : State) (table : Fin 3) (unit word : Nat), exec (.eccReset table unit word) s =
    .next (((s.detected (if table.val = 0 then 0x0B else if table.val = 1 then 0x0C else 0x0D) unit word).failPair).askIdle
      (if table.val = 0 then 22 else if table.val = 1 then 20 else 21) (10 + table))) ∧
  (∀ (s : State) (w : Word), s.power = 1 ∨ (∀ u, u < 24 → bitAt w.toNat u = true → unitStatic u = false) → s.pwr.resetting = none →
    exec (.blkRst w) s = .next ((s.putFlag F.PCR_BLK_RST_STAT_REJECT false).each ((List.range 24).filter (fun u => bitAt w.toNat u))
      (fun u t => t.askIdle u 14))) ∧
  (∀ (s : State) (w : Word) (u : Nat), s.power ≠ 1 → u < 24 → (List.range 24).filter (fun u => bitAt w.toNat u) = [u] → unitStatic u = true →
    ∃ t, exec (.blkRst w) s = .next t ∧ t.flag F.PCR_BLK_RST_STAT_REJECT = true ∧ t.flag F.PCR_EVT_BLK_REJECT = true ∧
      t.get R.SYS_S_REJECT_CNT = min 0xFFFFFFFF (s.get R.SYS_S_REJECT_CNT + 1) ∧ t.get R.SYS_S_REJECT_ADDR = R.PCR_BLK_RST.base ∧
      s.Records [(0x120B, [2 ^ u, s.power])] t ∧
      s.Leaves [(F.PCR_BLK_RST_STAT_REJECT, 0), (F.PCR_EVT_BLK_REJECT, 0), (R.SYS_S_REJECT_CNT, 0), (R.SYS_S_REJECT_ADDR, 0)] [] t) ∧
  (∀ (s : State) (u : Fin 24) (q : IdleReq), s.pwr.idle.find? (fun q => q.unit == u.val) = some q →
    exec (.idleAck u) s = .next (s.resetIdle q) ∧
    ∃ v : State, v.uptime = max s.uptime (q.since + max 10 (min 10000 (s.get F.PCR_CTL_IDLE_TIMEOUT)) * 1000) ∧
      v.get R.PCR_IDLE_TO_CNT = min 0xFFFFFFFF (s.get R.PCR_IDLE_TO_CNT + 1) ∧ v.flag F.PCR_EVT_IDLE_TIMEOUT = true ∧
      s.Records [(0x1204, [u.val, max 10 (min 10000 (s.get F.PCR_CTL_IDLE_TIMEOUT))])] v ∧
      s.Leaves [(R.PCR_IDLE_TO_CNT, 0), (F.PCR_EVT_IDLE_TIMEOUT, 0)] [.time] v ∧ exec (.idleTimeout u) s = .next (v.resetIdle q)) ∧
  (∀ (s : State) (u : Fin 24), s.pwr.idle.find? (fun q => q.unit == u.val) = none →
    exec (.idleAck u) s = .next s ∧ exec (.idleTimeout u) s = .next s)

/-- An attempt of the starter that fails is counted, shown and recorded, and a third one boots safe and in recovery; one
that succeeds is loaded with its header copy. START_UP moves phases 1 to 7 on as each is ready; START_DONE of phase 8
puts device time to 0 and the device in Warm, and starts unless in recovery; of a wake, the stored Rate and Precision
come into force there. DORMANT_ENTER stores the agreed modes and keeps what a wake restores. A wake pattern or the
alarm starts a wake in Dormant, and is only counted elsewhere. (R386, R508, R509, R510, R511, R512, R513) -/
def Obligations.StartUpAndWake : Prop :=
  (∀ (s : State) (f : Option (Nat × Nat)), s.pwr.loaded = true ∨ s.phase ≠ 1 ∨ s.flag F.STA_STAT_RECOVERY = true →
    exec (.starterAttempt f) s = .next s) ∧
  (∀ (s u : State) (f : Option (Nat × Nat)) (copy : Option Nat), s.pwr.loaded = false → s.phase = 1 → s.flag F.STA_STAT_RECOVERY = false →
    s.flt.armed = none → u = s.modPwr (fun w => { w with resetting := none }) →
    copy = (if u.headerValid 0 then some 0 else if u.headerValid 1 then some 1 else none) →
    (u.attemptFails f copy = none → ∃ v : State, exec (.starterAttempt f) s = .next v.publish ∧ v.pwr.loaded = true ∧ v.pwr.failed = 0 ∧
      v.get F.STA_STAT_HDR_COPY = copy.getD 0 ∧ v.flag F.STA_EVT_LOADED = true) ∧
    (∀ code at_, u.attemptFails f copy = some (code, at_) → s.pwr.failed < 2 →
      ∃ t, exec (.starterAttempt f) s = .next t ∧ t.pwr.failed = s.pwr.failed + 1 ∧ t.flag F.STA_EVT_LOAD_FAIL = true ∧
        t.get F.STA_FAIL_INFO_CODE = code % 2 ^ F.STA_FAIL_INFO_CODE.width ∧ s.Records [(0x1202, [s.pwr.failed + 1, code, at_])] t) ∧
    (∀ code at_, u.attemptFails f copy = some (code, at_) → s.pwr.failed = 2 →
      ∃ v : State, exec (.starterAttempt f) s = .next v.recoveryBoot ∧ v.flag F.STA_STAT_SAFE_TRIM = true ∧ v.pwr.opts = BootOpts.reset)) ∧
  (∀ (s : State) (banks : Nat), s.power ≠ 0 ∨ s.pwr.waking.isSome = true →
    (s.phase = 1 → s.pwr.loaded = false → s.flag F.STA_STAT_RECOVERY = false → exec (.startUp banks) s = .next s) ∧
    (s.phase = 1 → s.pwr.loaded = true ∨ s.flag F.STA_STAT_RECOVERY = true →
      ∃ t, exec (.startUp banks) s = .next t ∧ t.get F.PCR_STAT_PHASE = 2) ∧
    (s.phase = 2 → s.pwr.lost25 = false → exec (.startUp banks) s = .next (((s.checkBanks banks).put F.PCR_SUPPLY_GOOD 0x7F).enterPhase 3)) ∧
    (s.phase = 2 ∨ s.phase = 3 → s.pwr.lost25 = true → exec (.startUp banks) s = .next s) ∧
    (s.phase = 3 → s.pwr.lost25 = false → s.pwr.supplyFault = false →
      exec (.startUp banks) s = .next ((((((s.put F.PCR_SUPPLY_GOOD 0x7F).modPwr (fun w => { w with resetting := none, supplyFault := false })).putFlag
        F.PCR_CLK_STAT_REF25_OK true).putFlag F.PCR_CLK_STAT_REF156_OK (!s.pwr.lost156)).powerDomains.requestCore).enterPhase 4)) ∧
    (s.phase = 4 → exec (.startUp banks) s = .next (s.enterPhase 5)) ∧ (s.phase = 5 → exec (.startUp banks) s = .next (s.enterPhase 6)) ∧
    (s.phase = 6 → s.flag F.STA_STAT_RECOVERY = true ∨ s.pwr.saved = true → exec (.startUp banks) s = .next (s.enterPhase 7)) ∧
    (s.phase = 6 → s.flag F.STA_STAT_RECOVERY = false → s.pwr.saved = false → exec (.startUp banks) s =
      .next ((if s.bootSlots.1 then s.bootSlots.2 else s.bootSlots.2.recoveryBoot.setDomains [0, 1, 2, 9]).enterPhase 7)) ∧
    (s.phase = 7 → s.pwr.waking = none → exec (.startUp banks) s = .next (s.bootStructure.enterPhase 8)) ∧
    (∀ w, s.phase = 7 → s.pwr.waking = some w → exec (.startUp banks) s =
      .next ((if s.pwr.saved = true ∧ w.savedOk = true then s.restoreSaved
        else (if s.pwr.saved then s.dropSaved.resetChannels.resetStructure else s).bootStructure).enterPhase 8))) ∧
  (∀ (s : State), s.phase ≠ 8 → exec .startDone s = .next s) ∧
  (∀ (s : State), s.phase = 8 → s.pwr.waking = none → ∃ t, exec .startDone s = .next t ∧ t.get F.SYS_MODE_STAT_POWER = 1 ∧
    t.get F.PCR_STAT_PHASE = 15 ∧ t.now = 0 ∧ t.sys.started = !s.flag F.STA_STAT_RECOVERY) ∧
  (∀ (s : State) (w : Waking) (rate frate prec : Nat), s.phase = 8 → s.pwr.waking = some w → s.pwr.stored = some (rate, frate, prec) →
    rate < 2 ^ F.SYS_MODE_STAT_RATE.width → frate < 2 ^ F.SYS_MODE_STAT_FRATE.width → prec < 2 ^ F.SYS_MODE_STAT_PREC.width →
    ∃ t, exec .startDone s = .next t ∧ t.get F.SYS_MODE_STAT_POWER = 1 ∧ t.get F.SYS_MODE_STAT_RATE = rate ∧
      t.get F.SYS_MODE_STAT_FRATE = frate ∧ t.get F.SYS_MODE_STAT_PREC = prec ∧ t.get F.PCR_STAT_PHASE = 15 ∧ t.now = 0 ∧
      t.pwr.waking = none ∧ t.pwr.saved = false ∧ t.pwr.stored = none ∧ t.flag F.SYS_MODE_EVT_WOKE = true) ∧
  (∀ (s : State), s.power ≠ 1 → exec .dormantEnter s = .next s) ∧
  (∀ (s : State) (m : ModeTrans), s.sys.trans = some m → m.power = 0 → m.handover = false → s.power = 1 →
    ∃ t, exec .dormantEnter s = .next t ∧ t.get F.SYS_MODE_STAT_POWER = 0 ∧ t.pwr.stored = some (m.rate, m.frate, m.prec) ∧
      t.pwr.saved = true ∧ t.pwr.dormantAt = some t.uptime ∧ t.cmd.chans = s.cmd.chans ∧
      t.cmd.flight = [] ∧ t.str.inForce = s.str.inForce ∧ t.ing.streams = s.ing.streams.map Stream.stored) ∧
  (∀ (s : State) (f : Option RxFrame) (ok : Bool) (c : Nat),
    (match f with | none => if s.flag F.NET_WAKE_CTL_LINK_EN then some 1 else none | some f => s.wakeMatch f) = some c →
    (s.awaitsWake = true → s.pwr.lost25 = false → exec (.wake f ok) s = .next (((s.put F.NET_WAKE_STAT_CAUSE c).tally 0x0D07 [c]).beginWake 0 ok)) ∧
    (s.awaitsWake = false → s.pwr.tripped = false → f.isSome = true → exec (.wake f ok) s = .next (s.bump F.NET_WAKE_STAT_SEEN))) ∧
  (∀ (s : State) (f : RxFrame) (ok : Bool), s.wakeMatch f = none → exec (.wake (some f) ok) s = .next s) ∧
  (∀ (s : State) (ok : Bool) (t0 : Nat), s.pwr.dormantAt = some t0 →
    (s.awaitsWake = true → s.get R.PCR_WAKE_ALARM ≠ 0 →
      exec (.wakeAlarm ok) s = .next ((s.atUptime (t0 + s.get R.PCR_WAKE_ALARM * oneSecond)).beginWake 1 ok)) ∧
    (s.awaitsWake = false ∨ s.get R.PCR_WAKE_ALARM = 0 → exec (.wakeAlarm ok) s = .next s))

/-- A write of FLT_INJ_CTL needs its key. An arm that fails a check gives the first failing status and arms nothing; an
accepted one is armed and recorded. A cancel ends an armed injection and records what is left of it. The oldest record
of the intake is written to the ring with the next sequence, in its place, if its code has a token or no limit; else
it is counted as suppressed. A report second records the suppressed codes, the largest first. The mirror copies the
next record whole into its sector, or gives up a bad sector. An enabled check-value unit takes each message it
matches: CK_LAST, CK_ACC and CK_COUNT, and a mismatch counted, shown and recorded. (No injection armed.) (R523, R526,
R531, R532, R533, R535, R538, R539, R540, R541) -/
def Obligations.InjectionsAndRecords : Prop :=
  (∀ (s : State) (key : Nat), key ≠ 0xFA17 → exec (.injectionArmed key) s = .next s ∧ exec (.injectionCancelled key) s = .next s) ∧
  (∀ (s : State) (det unit arg n st : Nat), det = s.get F.FLT_INJ_SEL_DETECTOR → unit = s.get F.FLT_INJ_SEL_UNIT → arg = s.get R.FLT_INJ_ARG →
    firstFail (s.injectionChecks det unit arg) = (n, st) →
    ∃ u : State, s.LoadResult F.FLT_INJ_STAT_RESULT F.FLT_INJ_STAT_CHECK F.FLT_INJ_STAT_SEQ F.FLT_EVT_INJ_DONE st n u ∧
      (st ≠ stOK → exec (.injectionArmed 0xFA17) s = .next u ∧
        s.Leaves [(F.FLT_INJ_STAT_RESULT, 0), (F.FLT_INJ_STAT_CHECK, 0), (F.FLT_INJ_STAT_SEQ, 0), (F.FLT_EVT_INJ_DONE, 0)] [] u) ∧
      (st = stOK → ∃ t : State, exec (.injectionArmed 0xFA17) s = .next t ∧
        t.flt = { s.flt with armed := some ⟨det, unit, arg, max 1 (s.get F.FLT_INJ_SEL_COUNT), s.flag F.FLT_INJ_SEL_MODE, none⟩ } ∧
        t.flag F.FLT_INJ_STAT_ARMED = true ∧ t.get F.FLT_INJ_STAT_REMAINING = max 1 (s.get F.FLT_INJ_SEL_COUNT) ∧
        t.get F.FLT_INJ_STAT_RESULT = stOK ∧ t.flag F.FLT_EVT_INJ_DONE = true ∧
        s.Records [(0x1300, [det, unit, arg, max 1 (s.get F.FLT_INJ_SEL_COUNT), if s.flag F.FLT_INJ_SEL_MODE then 1 else 0])] t ∧
        s.Leaves [(R.FLT_INJ_STAT, 0), (F.FLT_EVT_INJ_DONE, 0)] [.flt] t)) ∧
  (∀ (s : State), s.flt.armed = none → exec (.injectionCancelled 0xFA17) s = .next s) ∧
  (∀ (s : State) (a : Armed), s.flt.armed = some a → ∃ t : State, exec (.injectionCancelled 0xFA17) s = .next t ∧
    t.flt = { s.flt with armed := none } ∧ t.flag F.FLT_EVT_INJ_DONE = true ∧ t.flag F.FLT_INJ_STAT_ARMED = false ∧
    t.get F.FLT_INJ_STAT_REMAINING = 0 ∧ s.Records [(0x1302, [a.detector, a.left, 0])] t ∧
    s.Leaves [(F.FLT_INJ_STAT_ARMED, 0), (F.FLT_INJ_STAT_REMAINING, 0), (F.FLT_EVT_INJ_DONE, 0)] [.flt] t) ∧
  (∀ (s : State) (cut : Bool), s.tly.intake = [] → exec (.tallyRecord cut) s = .next s.reportLost) ∧
  (∀ (s u : State) (cut : Bool) (r : TallyRec) (l : List TallyRec), s.tly.intake = r :: l → u = s.modTly (fun y => { y with intake := l }) →
    (s.codeRate r.code = 255 → exec (.tallyRecord cut) s = .next (u.writeRecord r (!cut)).reportLost) ∧
    (s.codeRate r.code ≠ 255 → wholeToken ≤ s.codeTokens r.code → ∃ v : State, exec (.tallyRecord cut) s = .next (v.writeRecord r (!cut)).reportLost ∧
      v.codeTokens r.code = s.codeTokens r.code - wholeToken ∧ (∀ c, c ≠ r.code → v.codeTokens c = s.codeTokens c) ∧ u.Leaves [] [.tly] v) ∧
    (s.codeRate r.code ≠ 255 → s.codeTokens r.code < wholeToken → ∃ v : State, exec (.tallyRecord cut) s = .next v.reportLost ∧
      v.get R.TLY_SUPPRESSED = min 0xFFFFFFFF (s.get R.TLY_SUPPRESSED + 1) ∧
      v.get F.TLY_CODE_SUPPRESSED r.code = min 0xFFFF (s.get F.TLY_CODE_SUPPRESSED r.code + 1) ∧ v.flag F.TLY_EVT_SUPPRESSED = true ∧
      v.tly.ring = s.tly.ring ∧ u.Leaves [(R.TLY_SUPPRESSED, 0), (F.TLY_CODE_SUPPRESSED, r.code), (F.TLY_EVT_SUPPRESSED, 0)] [.tly] v)) ∧
  (∀ (s : State) (r : TallyRec) (next len : Nat), next = s.get F.TLY_NEXT_OFFSET → r.items.length ≤ 30 → len = 16 + 8 * r.items.length →
    next + len ≤ ringBytes → s.tly.ring.all (fun q => decide (next + len ≤ q.off ∨ q.off + q.len ≤ next)) = true →
    ∃ t : State, s.writeRecord r true = t ∧ t.get64 R.TLY_SEQ_LO = (s.get64 R.TLY_SEQ_LO + 1) % 2 ^ 64 ∧
      t.tly.ring = s.tly.ring ++ [{ off := next, len := len, seq := s.get64 R.TLY_SEQ_LO }] ∧
      t.get F.TLY_NEXT_OFFSET = (next + len) % ringBytes ∧
      t.tallyBytes next len = leBytes 4 (headWord r.code len 0x5A) ++ leBytes 4 (s.get64 R.TLY_SEQ_LO % 2 ^ 32) ++ leBytes 8 r.time ++
        r.items.flatMap (fun i => leBytes 8 (i % 2 ^ 64)) ∧
      (∀ a, a < next ∨ next + len ≤ a → t.tallyByte a = s.tallyByte a) ∧
      s.Leaves [(R.TLY_SEQ_LO, 0), (R.TLY_SEQ_HI, 0), (F.TLY_NEXT_OFFSET, 0), (F.TLY_OLDEST_OFFSET, 0)] [.tly, .tallyRam] t) ∧
  (∀ (s u : State), u = s.modTly (fun y => { y with second := [] }) →
    (s.tly.second = [] → exec .tallyReportSecond s = .next u) ∧
    (∀ c n d m, s.tly.second = [(c, n), (d, m)] → exec .tallyReportSecond s = .next
      (if m ≤ n then (u.writeRecord ⟨0x1304, s.nowNs % 2 ^ 64, [c, n]⟩ true).writeRecord
          ⟨0x1304, (u.writeRecord ⟨0x1304, s.nowNs % 2 ^ 64, [c, n]⟩ true).nowNs % 2 ^ 64, [d, m]⟩ true
       else (u.writeRecord ⟨0x1304, s.nowNs % 2 ^ 64, [d, m]⟩ true).writeRecord
          ⟨0x1304, (u.writeRecord ⟨0x1304, s.nowNs % 2 ^ 64, [d, m]⟩ true).nowNs % 2 ^ 64, [c, n]⟩ true))) ∧
  (∀ (s : State) (er pr : Bool), s.flag F.TLY_CTL_MIRROR_EN = false ∨ s.mirrorRegion = false ∨ bitAt (s.get F.PCR_PD_STAT_ON) 1 = false →
    exec (.tallyMirror er pr) s = .next s) ∧
  (∀ (s : State) (er pr : Bool) (r : RingRec), s.flag F.TLY_CTL_MIRROR_EN = true → s.mirrorRegion = true → bitAt (s.get F.PCR_PD_STAT_ON) 1 = true →
    s.tly.ring.find? (fun r => decide (s.get64 R.TLY_MIRROR_SEQ_LO ≤ r.seq) && s.tly.reserved != some r) = some r →
    0 < s.tly.mirror.used → s.tly.mirror.used + r.len ≤ 65536 →
    (pr = false → ∃ t : State, exec (.tallyMirror er pr) s = .next t ∧ t.get64 R.TLY_MIRROR_SEQ_LO = (r.seq + 1) % 2 ^ 64 ∧
      (∀ k, k < r.len → t.flashByte (s.sectorAt s.tly.mirror.cur + s.tly.mirror.used + k) = s.tallyByte (r.off + k)) ∧
      (∀ a, a < s.sectorAt s.tly.mirror.cur + s.tly.mirror.used ∨ s.sectorAt s.tly.mirror.cur + s.tly.mirror.used + r.len ≤ a →
        t.flashByte a = s.flashByte a) ∧
      t.tly.mirror = { s.tly.mirror with used := s.tly.mirror.used + r.len } ∧
      s.Leaves [(R.TLY_MIRROR_SEQ_LO, 0), (R.TLY_MIRROR_SEQ_HI, 0), (F.TLY_STAT_MIRROR_RUN, 0)] [.tly, .flash] t) ∧
    (pr = true → ∃ t : State, exec (.tallyMirror er pr) s = .next t ∧ t.get F.TLY_STAT_BAD_SECTORS = min 0xFFFF (s.get F.TLY_STAT_BAD_SECTORS + 1) ∧
      t.flag F.TLY_EVT_MIRROR_FAIL = true ∧ t.tly.mirror.bad = s.tly.mirror.bad ++ [s.tly.mirror.cur] ∧
      s.Records [(0x1305, [2, s.tly.mirror.cur])] t ∧ s.Leaves [(F.TLY_STAT_BAD_SECTORS, 0), (F.TLY_EVT_MIRROR_FAIL, 0)] [.tly] t)) ∧
  (∀ (s : State) (u : Fin 8) (a n v : Nat) (m : List Nat), s.flag F.CK_CTL_EN u = false ∨ s.get F.CK_CTL_POINT u = 0 ∨
      (s.flag F.CK_CTL_MATCH_EN u = true ∧ s.get F.CK_MATCH_A u ≠ a % 65536) → exec (.checkValue u a n v m) s = .next s) ∧
  (∀ (s : State) (u : Fin 8) (a n variant v : Nat) (m : List Nat) (alg : CrcAlg), s.flag F.CK_CTL_EN u = true → s.get F.CK_CTL_POINT u ≠ 0 →
    (s.flag F.CK_CTL_MATCH_EN u = true → s.get F.CK_MATCH_A u = a % 65536) → s.flt.armed = none → alg = crcAlgOf (s.get F.CK_CTL_ALG u) →
    v = crcSeeded alg (checkSeed alg (s.get F.CK_CTL_POINT u) (s.get F.CK_CTL_FOLD u) (a % 65536) n variant m) m →
    ∃ t : State, exec (.checkValue u a n variant m) s = .next t ∧ t.get64 R.CK_LAST_LO u = v % 2 ^ 64 ∧
      t.get64 R.CK_ACC_LO u = s.get64 R.CK_ACC_LO u ^^^ (v % 2 ^ 64) ∧ t.get R.CK_COUNT u = min 0xFFFFFFFF (s.get R.CK_COUNT u + 1) ∧
      (s.flag F.CK_CTL_CMP_EN u = false ∨ v = s.get64 R.CK_EXPECT_LO u % 2 ^ alg.width →
        s.Leaves [(R.CK_LAST_LO, u), (R.CK_LAST_HI, u), (R.CK_ACC_LO, u), (R.CK_ACC_HI, u), (R.CK_COUNT, u)] [] t ∧ s.Records [] t) ∧
      (s.flag F.CK_CTL_CMP_EN u = true → v ≠ s.get64 R.CK_EXPECT_LO u % 2 ^ alg.width →
        t.get R.CK_MISMATCH u = min 0xFFFFFFFF (s.get R.CK_MISMATCH u + 1) ∧ bitAt (t.get F.CRC_EVT_MISMATCH) u = true ∧
        s.Records [(0x1306, [u.val, v, s.get64 R.CK_EXPECT_LO u % 2 ^ alg.width, n])] t ∧
        s.Leaves [(R.CK_LAST_LO, u), (R.CK_LAST_HI, u), (R.CK_ACC_LO, u), (R.CK_ACC_HI, u), (R.CK_COUNT, u), (R.CK_MISMATCH, u),
          (F.CRC_EVT_MISMATCH, 0), (F.FLT_DET_COUNT, 0x2E), (F.FLT_EVT_DETECTED, 0)] [] t))

/-- FW_LOAD gives the first failing check and records it, or copies the image and, with an action, begins staging. A
staged slot becomes valid and is recorded, or failed; the update then ends or the handover begins. A core handed over
takes the new version and records 0x1402 with its gap; after the last one the trial begins. Confirmations that are all
in end the trial as confirmed; a window that ends, a failed self-check, a REVERT and a quiesce timeout revert it;
outside their phase these are refused as INCONSISTENT or do nothing. ABORT stops staging. A burn raises its counter,
or is BUSY in a trial, or INCONSISTENT. (No injection armed.) (R552, R554, R555, R556, R557, R558, R559, R561) -/
def Obligations.LiveUpdateRuns : Prop :=
  (∀ (s u : State) (w : Word) (rd : Reader) (n st : Nat), u = s.updCommand w.toNat → s.flt.armed = none →
    rd = (fun o n => s.bulkLe (s.get64 R.UPD_SRC_LO + o) n) → firstFail (u.firmwareChecks rd false) = (n, st) →
    (st ≠ stOK → ∃ t : State, exec (.fwLoad w) s = .next t ∧ u.UpdResult st n t ∧ t.upd = s.upd ∧
      u.Records [(0x1401, [if n ≤ 3 then 0 else rd 6 1, st, n])] t ∧
      u.Leaves (updResultFields ++ [(F.FLT_DET_COUNT, 0x2D), (F.FLT_EVT_DETECTED, 0)]) [] t) ∧
    (st = stOK → bits w.toNat 4 3 = 0 → ∃ t : State, exec (.fwLoad w) s = .next t ∧ u.UpdResult stOK 0 t ∧
      t.bulkBytes updateBuffer (s.get R.UPD_LEN) = s.bulkBytes (s.get64 R.UPD_SRC_LO) (s.get R.UPD_LEN) ∧
      (∀ a, a < updateBuffer ∨ updateBuffer + s.get R.UPD_LEN ≤ a → t.bulkByte a = s.bulkByte a) ∧ u.Leaves updResultFields [.bulk] t) ∧
    (st = stOK → bits w.toNat 4 3 ≠ 0 → ∃ t : State, exec (.fwLoad w) s = .next t ∧ t.get F.UPD_STAT_PHASE = 2 ∧ t.get F.UPD_STAT_KIND = rd 6 1 ∧
      t.get F.UPD_PROGRESS_STAGED = 0 ∧ t.upd = { s.upd with next := some (firmwareOf rd), kind := rd 6 1, action := bits w.toNat 4 3 } ∧
      t.bulkBytes updateBuffer (s.get R.UPD_LEN) = s.bulkBytes (s.get64 R.UPD_SRC_LO) (s.get R.UPD_LEN) ∧
      u.Leaves [(F.UPD_STAT_PHASE, 0), (F.UPD_STAT_KIND, 0), (F.UPD_PROGRESS_STAGED, 0)] [.bulk, .upd] t)) ∧
  (∀ (s : State) (o : Fin 4), s.upd.next = none ∨ s.updPhase ≠ 2 → exec (.fwStaged o) s = .next s) ∧
  (∀ (s u : State) (o : Fin 4) (i : FwImage), s.upd.next = some i → s.updPhase = 2 → o.val ≠ 0 →
    u = s.updateSlots 0 (setSlot s.upd.kind s.targetSlot 4) →
    ∃ t : State, exec (.fwStaged o) s = .next t ∧ u.UpdResult stIntegrity 0 t ∧ t.flag F.UPD_EVT_FLASH_ERR = true ∧ t.updPhase = 0 ∧
      t.get F.UPD_STAT_CORE = 7 ∧ t.upd = { s.upd with next := none, handed := [], gapFrom := none, back := 0 } ∧
      u.Records [(0x1406, [2 * s.upd.kind + s.targetSlot, o.val - 1])] t ∧
      u.Leaves (updResultFields ++ [(F.UPD_STAT_PHASE, 0), (F.UPD_STAT_CORE, 0), (F.UPD_EVT_FLASH_ERR, 0)]) [.upd] t) ∧
  (∀ (s u : State) (i : FwImage), s.upd.next = some i → s.updPhase = 2 →
    u = (s.writeFlash (s.slotEntry s.upd.kind s.targetSlot).offset (s.bulkBytes updateBuffer i.len)).updateSlots 0
      (fun k n x => if k = s.upd.kind ∧ n = s.targetSlot then { x with version := i.version, secVer := i.secVer, state := 1 } else x) →
    ∃ t : State, exec (.fwStaged 0) s = .next t ∧ t.get F.UPD_PROGRESS_STAGED = 65535 ∧
      u.Records [(0x1400, [s.upd.kind, s.targetSlot, i.version, i.secVer])] t ∧
      (s.upd.action = 1 → u.UpdResult stOK 0 t ∧ t.updPhase = 0 ∧ t.get F.UPD_STAT_CORE = 7) ∧
      (s.upd.action ≠ 1 → t.updPhase = 4 ∧ t.get F.UPD_STAT_CORE = (if s.upd.kind = 0 then 0 else 3) ∧ t.upd = { s.upd with handed := [], expired := [], selfOk := false, hostOk := false, gapFrom := some s.uptime }) ∧
      u.Leaves (updResultFields ++ [(F.UPD_STAT_PHASE, 0), (F.UPD_STAT_CORE, 0), (F.UPD_PROGRESS_STAGED, 0)]) [.upd] t) ∧
  (∀ (s : State), ((s.updPhase = 4 ∨ s.updPhase = 6) → ∀ c, s.get F.UPD_STAT_CORE = c + 1 → c < 3 →
      ∃ t : State, exec .quiesceAck s = .next t ∧ t = s.resetCore c ∧ t.upd = s.upd ∧
        (∀ h ∈ t.host.held, h.who = (match c with | 0 => Initiator.mc0 | 1 => .mc1 | _ => .mc2) → h.dead = true)) ∧
    (s.updPhase ≠ 4 → s.updPhase ≠ 6 → exec .quiesceAck s = .next s) ∧ (s.get F.UPD_STAT_CORE = 0 → exec .quiesceAck s = .next s)) ∧
  (∀ (s : State), (s.updPhase ≠ 4 → exec .quiesceTimeout s = .next s) ∧
    (s.updPhase = 4 → exec .quiesceTimeout s = .next ((s.updResult stTimeout 0).beginRevert 4))) ∧
  (∀ (s : State) (f : Nat), (s.upd.next = none → exec (.fwHandover f) s = .next s) ∧
    (s.updPhase ≠ 4 → s.updPhase ≠ 6 → exec (.fwHandover f) s = .next s)) ∧
  (∀ (s : State) (f core gap : Nat) (i : FwImage), s.upd.next = some i → i.version < 2 ^ 32 → core = s.get F.UPD_STAT_CORE → core ≤ 3 →
    gap = (s.uptime - s.upd.gapFrom.getD s.uptime) / 1000000 → s.updPhase = 4 →
    (∀ c l, (coreOrder s.upd.kind).filter (fun c => !(s.upd.handed ++ [core]).contains c) = c :: l →
      ∃ t : State, exec (.fwHandover f) s = .next t ∧ t.get R.UPD_VER core = i.version ∧ t.flag F.UPD_EVT_HANDOVER = true ∧
        t.get F.UPD_STAT_CORE = c ∧ t.upd = { s.upd with handed := s.upd.handed ++ [core], gapFrom := some s.uptime } ∧
        s.Records [(0x1402, [core, s.get R.UPD_VER core, i.version, gap])] t ∧
        s.Leaves [(R.UPD_VER, core), (F.UPD_EVT_HANDOVER, 0), (F.UPD_STAT_CORE, 0)] [.upd] t) ∧
    ((coreOrder s.upd.kind).filter (fun c => !(s.upd.handed ++ [core]).contains c) = [] →
      ∃ t : State, exec (.fwHandover f) s = .next t ∧ t.updPhase = 5 ∧ t.get F.UPD_STAT_CORE = 7 ∧
        t.get F.UPD_PROGRESS_WINDOW_S = max 10 (min 3600 (s.get F.UPD_CTL_CONFIRM_S)) ∧ t.get R.UPD_VER core = i.version ∧
        t.upd = { s.upd with slots := s.upd.slots.set s.upd.kind s.targetSlot, handed := s.upd.handed ++ [core], gapFrom := none, trialAt := some s.uptime, marker := true })) ∧
  (∀ (s : State) (f core gap : Nat) (i : FwImage), s.upd.next = some i → (s.firmware s.upd.kind).version < 2 ^ 32 →
    core = s.get F.UPD_STAT_CORE → core ≤ 3 → gap = (s.uptime - s.upd.gapFrom.getD s.uptime) / 1000000 → s.updPhase = 6 →
    ∃ u : State, u.get R.UPD_VER core = (s.firmware s.upd.kind).version ∧ u.flag F.UPD_EVT_HANDOVER = true ∧
      u.upd = { s.upd with handed := s.upd.handed.filter (fun c => c != core), back := s.upd.back + 1 } ∧
      s.Records [(0x1402, [core, s.get R.UPD_VER core, (s.firmware s.upd.kind).version, gap])] u ∧
      s.Leaves [(R.UPD_VER, core), (F.UPD_EVT_HANDOVER, 0)] [.upd] u ∧
      (u.upd.handed = [] → exec (.fwHandover f) s = .next (u.finishRevert f)) ∧
      (∀ c, u.upd.handed.getLast? = some c → exec (.fwHandover f) s = .next (u.askCore c))) ∧
  (∀ (s : State) (f : Nat), s.updPhase ≠ 5 ∨ s.upd.expired ≠ [] ∨ (kindActivities s.upd.kind).any (fun a => s.get F.SYS_BG_STAT_LEVEL a != 0) = true →
    exec (.fwSelfConfirm f) s = .next s) ∧
  (∀ (s : State) (f : Nat), s.updPhase = 5 → s.upd.expired = [] → (kindActivities s.upd.kind).all (fun a => s.get F.SYS_BG_STAT_LEVEL a == 0) = true →
    exec (.fwSelfConfirm f) s = .next ((s.modUpd (fun u => { u with selfOk := true })).tryConfirm f)) ∧
  (∀ (s u : State) (f : Nat), u = s.put F.UPD_CMD_OP 2 →
    (s.updPhase ≠ 5 → exec (.fwConfirm f) s = .next (u.updResult stInconsistent 0)) ∧
    (s.updPhase = 5 → exec (.fwConfirm f) s = .next ((((u.modUpd (fun x => { x with hostOk := true })).updResult stOK 0)).tryConfirm f))) ∧
  (∀ (s : State) (f : Nat), s.upd.selfOk = false ∨ (s.flag F.UPD_CTL_HOST_CONFIRM = true ∧ s.upd.hostOk = false) → s.tryConfirm f = s) ∧
  (∀ (s : State) (i : FwImage), s.upd.next = some i → s.updPhase = 5 → s.upd.selfOk = true →
    s.flag F.UPD_CTL_HOST_CONFIRM = false ∨ s.upd.hostOk = true →
    ∃ t : State, s.tryConfirm 0 = t ∧ t.updPhase = 0 ∧ t.flag F.UPD_EVT_CONFIRMED = true ∧ t.flag F.UPD_EVT_DONE = true ∧
      t.get F.UPD_STAT_RESULT = stOK ∧ t.upd = { s.upd with running := s.upd.running.set s.upd.kind i, next := none, handed := [], gapFrom := none, trialAt := none, back := 0, marker := false } ∧
      s.Records [(0x1403, [s.upd.kind, i.version, (s.uptime - s.upd.trialAt.getD s.uptime) / oneSecond])] t) ∧
  (∀ (s u : State), u = s.put F.UPD_CMD_OP 3 → (s.updPhase ≠ 5 → exec .fwRevert s = .next (u.updResult stInconsistent 0)) ∧
    (s.updPhase = 5 → exec .fwRevert s = .next ((u.updResult stOK 0).beginRevert 3))) ∧
  (∀ (s : State), (s.updPhase ≠ 5 → exec .confirmWindowExpire s = .next s ∧ exec .selfCheckFailed s = .next s) ∧
    (s.updPhase = 5 → exec .selfCheckFailed s = .next (s.beginRevert 2) ∧
      ∃ u : State, u.uptime = max s.uptime (s.upd.trialAt.getD 0 + max 10 (min 3600 (s.get F.UPD_CTL_CONFIRM_S)) * oneSecond) ∧
        u.get F.UPD_PROGRESS_WINDOW_S = 0 ∧ s.Leaves [(F.UPD_PROGRESS_WINDOW_S, 0)] [.time] u ∧
        exec .confirmWindowExpire s = .next (u.beginRevert 0))) ∧
  (∀ (s : State) (cause : Nat), (s.upd.handed = [] →
      s.beginRevert cause = (s.modUpd (fun u => { u with cause := cause, back := 0 })).finishRevert 0) ∧
    (∀ c, s.upd.handed.getLast? = some c → c ≤ 3 → ∃ t : State, s.beginRevert cause = t ∧ t.updPhase = 6 ∧ t.get F.UPD_STAT_CORE = c ∧
      t.upd = { s.upd with cause := cause, back := 0, gapFrom := some s.uptime } ∧ s.Leaves [(F.UPD_STAT_PHASE, 0), (F.UPD_STAT_CORE, 0)] [.upd] t)) ∧
  (∀ (s : State) (f : Nat), ∃ t : State, s.finishRevert f = t ∧ t.updPhase = 0 ∧ t.get F.UPD_STAT_CORE = 7 ∧ t.flag F.UPD_EVT_REVERTED = true ∧
    t.upd.trialAt = none ∧ t.upd.marker = false ∧ t.upd.next = none ∧ t.upd.handed = [] ∧ t.upd.running = s.upd.running) ∧
  (∀ (s u : State), u = s.put F.UPD_CMD_OP 4 →
    (s.updPhase = 0 ∨ 4 ≤ s.updPhase → exec .fwAbort s = .next (u.updResult stInconsistent 0)) ∧
    (s.updPhase = 1 ∨ s.updPhase = 3 → exec .fwAbort s = .next (u.updIdle.updResult stTimeout 0)) ∧
    (s.updPhase = 2 → exec .fwAbort s = .next ((u.updateSlots 0 (setSlot s.upd.kind s.targetSlot 4)).updIdle.updResult stTimeout 0))) ∧
  (∀ (s u v : State), u = s.put F.UPD_CMD_OP 5 → v = s.put F.UPD_CMD_OP 6 →
    (s.updPhase = 5 ∨ s.updPhase = 6 → exec .burnFwCounter s = .next (u.updResult stBusy 0) ∧ exec .burnStrCounter s = .next (v.updResult stBusy 0)) ∧
    (s.updPhase ≠ 5 → s.updPhase ≠ 6 →
      (s.str.inForce = none → exec .burnStrCounter s = .next (v.updResult stInconsistent 0)) ∧
      (∀ st, s.str.inForce = some st → (st.secVer ≤ s.fuses.strCounter → exec .burnStrCounter s = .next (v.updResult stInconsistent 0)) ∧
        (s.fuses.strCounter < st.secVer → ∃ t : State, exec .burnStrCounter s = .next t ∧ v.UpdResult stOK 0 t ∧
          t.fuses = { s.fuses with strCounter := st.secVer } ∧ t.flag F.UPD_EVT_BURNED = true ∧
          s.Records [(0x1405, [1, s.fuses.strCounter, st.secVer])] t ∧
          v.Leaves (updResultFields ++ [(F.UPD_ROLLBACK_STR, 0), (F.UPD_EVT_BURNED, 0)]) [.fuses] t)) ∧
      (s.confirmedSec 0 = none ∨ s.confirmedSec 1 = none → exec .burnFwCounter s = .next (u.updResult stInconsistent 0)) ∧
      (∀ a b, s.confirmedSec 0 = some a → s.confirmedSec 1 = some b →
        (min a b ≤ s.fuses.fwCounter → exec .burnFwCounter s = .next (u.updResult stInconsistent 0)) ∧
        (s.fuses.fwCounter < min a b → ∃ t : State, exec .burnFwCounter s = .next t ∧ t.fuses = { s.fuses with fwCounter := min a b } ∧
          t.get F.UPD_STAT_RESULT = stOK ∧ t.flag F.UPD_EVT_DONE = true ∧ t.flag F.UPD_EVT_BURNED = true ∧
          s.Records [(0x1405, [0, s.fuses.fwCounter, min a b])] t))))
end

