-- ==== Sys2Proof/Laws/Sparse.lean ====
section
/-! SUPPORT. The laws of sparse maps: a read after a write, and that a write keeps the canonical form. -/
namespace Sys2Proof.Machine

variable {α : Type} (d : Nat → α) (m : List (Nat × α)) (k j : Nat) (v : α)

theorem sparseGet_erase_same : sparseGet d (sparseErase m k) k = d k := by
  induction m with
  | nil => rfl
  | cons p m ih =>
    obtain ⟨a, b⟩ := p
    by_cases h : a = k
    · simpa [sparseErase, h] using ih
    · simpa [sparseErase, sparseGet, h] using ih

theorem sparseGet_erase_ne {k j : Nat} (h : k ≠ j) : sparseGet d (sparseErase m k) j = sparseGet d m j := by
  induction m with
  | nil => rfl
  | cons p m ih =>
    obtain ⟨a, b⟩ := p
    by_cases ha : a = k
    · have : a ≠ j := by omega
      simpa [sparseErase, sparseGet, ha, h] using ih
    · by_cases hj : a = j
      · subst hj
        simp [sparseErase, sparseGet, ha]
      · simpa [sparseErase, sparseGet, ha, hj] using ih

theorem sparseGet_insert_ne {k j : Nat} (h : k ≠ j) : sparseGet d (sparseInsert m k v) j = sparseGet d m j := by
  induction m with
  | nil => simp [sparseInsert, sparseGet, h]
  | cons p m ih =>
    obtain ⟨a, b⟩ := p
    by_cases hk : k < a
    · simp [sparseInsert, sparseGet, hk, h]
    · simp [sparseInsert, sparseGet, hk, ih]

theorem sparseGet_insert_erase (v : α) : sparseGet d (sparseInsert (sparseErase m k) k v) k = v := by
  induction m with
  | nil => simp [sparseErase, sparseInsert, sparseGet]
  | cons p m ih =>
    obtain ⟨a, b⟩ := p
    by_cases h : a = k
    · simpa [sparseErase, h] using ih
    · by_cases hk : k < a
      · simp [sparseErase, sparseInsert, sparseGet, h, hk]
      · have : a ≠ k := h
        simpa [sparseErase, sparseInsert, sparseGet, h, hk] using ih

/-! ## The canonical form -/

theorem sparseAbove_mono {a b : Nat} {m : List (Nat × α)} (h : a ≤ b) (hb : sparseAbove b m = true) :
    sparseAbove a m = true := by
  cases m with
  | nil => rfl
  | cons p m =>
    obtain ⟨c, x⟩ := p
    simp only [sparseAbove, Bool.and_eq_true, decide_eq_true_eq] at hb ⊢
    exact ⟨by omega, hb.2⟩

theorem sparseAbove_filter {a : Nat} {m : List (Nat × α)} (p : Nat × α → Bool) (h : sparseAbove a m = true) :
    sparseAbove a (m.filter p) = true := by
  induction m generalizing a with
  | nil => rfl
  | cons q m ih =>
    obtain ⟨c, x⟩ := q
    simp only [sparseAbove, Bool.and_eq_true, decide_eq_true_eq] at h
    by_cases hp : p (c, x) = true
    · simp only [List.filter_cons, hp, if_true, sparseAbove, Bool.and_eq_true, decide_eq_true_eq]
      exact ⟨h.1, ih h.2⟩
    · simp only [List.filter_cons, hp]
      exact sparseAbove_mono (Nat.le_of_lt h.1) (ih h.2)

theorem sparseAbove_insert {a k : Nat} {m : List (Nat × α)} (v : α) (hk : a < k) (h : sparseAbove a m = true)
    (hm : ∀ p ∈ m, p.1 ≠ k) : sparseAbove a (sparseInsert m k v) = true := by
  induction m generalizing a with
  | nil => simp [sparseInsert, sparseAbove, hk]
  | cons q m ih =>
    obtain ⟨c, x⟩ := q
    simp only [sparseAbove, Bool.and_eq_true, decide_eq_true_eq] at h
    have hc : c ≠ k := hm (c, x) List.mem_cons_self
    unfold sparseInsert
    split
    · rename_i hlt
      simp only [sparseAbove, Bool.and_eq_true, decide_eq_true_eq]
      exact ⟨hk, hlt, h.2⟩
    · simp only [sparseAbove, Bool.and_eq_true, decide_eq_true_eq]
      exact ⟨h.1, ih (by omega) h.2 (fun p hp => hm p (List.mem_cons_of_mem _ hp))⟩

theorem sparseSorted_of_above {a : Nat} {m : List (Nat × α)} (h : sparseAbove a m = true) : sparseSorted m = true := by
  cases m with
  | nil => rfl
  | cons q m =>
    obtain ⟨c, x⟩ := q
    simp only [sparseAbove, Bool.and_eq_true, decide_eq_true_eq] at h
    exact h.2

theorem sparseSorted_filter {m : List (Nat × α)} (p : Nat × α → Bool) (h : sparseSorted m = true) :
    sparseSorted (m.filter p) = true := by
  cases m with
  | nil => rfl
  | cons q m =>
    obtain ⟨c, x⟩ := q
    by_cases hp : p (c, x) = true
    · simp only [List.filter_cons, hp, if_true]
      exact sparseAbove_filter p h
    · simp only [List.filter_cons, hp]
      exact sparseSorted_of_above (sparseAbove_filter p h)

theorem sparseSorted_insert {k : Nat} {m : List (Nat × α)} (v : α) (h : sparseSorted m = true)
    (hm : ∀ p ∈ m, p.1 ≠ k) : sparseSorted (sparseInsert m k v) = true := by
  cases m with
  | nil => rfl
  | cons q m =>
    obtain ⟨c, x⟩ := q
    have hc : c ≠ k := hm (c, x) List.mem_cons_self
    unfold sparseInsert
    split
    · rename_i hlt
      simp only [sparseSorted, sparseAbove, Bool.and_eq_true, decide_eq_true_eq]
      exact ⟨hlt, h⟩
    · exact sparseAbove_insert v (by omega) h (fun p hp => hm p (List.mem_cons_of_mem _ hp))

theorem mem_sparseInsert {k : Nat} {m : List (Nat × α)} {v : α} {p : Nat × α} (h : p ∈ sparseInsert m k v) :
    p = (k, v) ∨ p ∈ m := by
  induction m with
  | nil => simpa [sparseInsert] using h
  | cons q m ih =>
    obtain ⟨c, x⟩ := q
    unfold sparseInsert at h
    split at h
    · simpa using h
    · simp only [List.mem_cons] at h ⊢
      rcases h with h | h
      · exact Or.inr (Or.inl h)
      · rcases ih h with h | h
        · exact Or.inl h
        · exact Or.inr (Or.inr h)

theorem sparseErase_keys (p : Nat × α) (h : p ∈ sparseErase m k) : p.1 ≠ k := by
  simp only [sparseErase, List.mem_filter, bne_iff_ne] at h
  exact h.2

variable [DecidableEq α]

/-- A read of the key just written gives what was written. -/
theorem sparseGet_set_same : sparseGet d (sparseSet d m k v) k = v := by
  unfold sparseSet
  split
  · rename_i h
    rw [sparseGet_erase_same, h]
  · exact sparseGet_insert_erase d m k v

/-- A write leaves every other key alone. -/
theorem sparseGet_set_ne {k j : Nat} (h : k ≠ j) : sparseGet d (sparseSet d m k v) j = sparseGet d m j := by
  unfold sparseSet
  split
  · exact sparseGet_erase_ne d m h
  · rw [sparseGet_insert_ne d _ v h, sparseGet_erase_ne d m h]

/-- The two halves of the canonical form. -/
theorem sparseWf_iff : sparseWf d m = true ↔ sparseSorted m = true ∧ ∀ p ∈ m, p.2 ≠ d p.1 := by
  simp [sparseWf, List.all_eq_true]

/-- Keeping some of the pairs keeps the canonical form. -/
theorem sparseWf_filter {m : List (Nat × α)} (p : Nat × α → Bool) (h : sparseWf d m = true) :
    sparseWf d (m.filter p) = true := by
  rw [sparseWf_iff] at h ⊢
  exact ⟨sparseSorted_filter p h.1, fun q hq => h.2 q (List.mem_filter.1 hq).1⟩

/-- A write keeps the canonical form. -/
theorem sparseWf_set {m : List (Nat × α)} (h : sparseWf d m = true) : sparseWf d (sparseSet d m k v) = true := by
  unfold sparseSet
  split
  · exact sparseWf_filter d _ h
  · rename_i hv
    have he : sparseWf d (sparseErase m k) = true := sparseWf_filter d _ h
    rw [sparseWf_iff] at he ⊢
    refine ⟨sparseSorted_insert v he.1 (fun p hp => sparseErase_keys m k p hp), fun p hp => ?_⟩
    rcases mem_sparseInsert hp with rfl | hp
    · exact hv
    · exact he.2 p hp

end Sys2Proof.Machine
end

