-- ==== Sys2Proof/Laws/State.lean ====
section
/-! SUPPORT. One lemma for each field and each update of the state: what the update leaves, and what it writes. -/
namespace Sys2Proof.Machine

variable {s : State}

/-! ### setReg -/

@[simp] theorem State.setReg_pending {a : Nat} {v : Word} : (s.setReg a v).pending = s.pending := (rfl)
@[simp] theorem State.setReg_now {a : Nat} {v : Word} : (s.setReg a v).now = s.now := (rfl)
@[simp] theorem State.setReg_uptime {a : Nat} {v : Word} : (s.setReg a v).uptime = s.uptime := (rfl)
@[simp] theorem State.setReg_hiLatch {a : Nat} {v : Word} : (s.setReg a v).hiLatch = s.hiLatch := (rfl)
@[simp] theorem State.setReg_bulk {a : Nat} {v : Word} : (s.setReg a v).bulk = s.bulk := (rfl)
@[simp] theorem State.setReg_pailMem {a : Nat} {v : Word} : (s.setReg a v).pailMem = s.pailMem := (rfl)
@[simp] theorem State.setReg_retSram {a : Nat} {v : Word} : (s.setReg a v).retSram = s.retSram := (rfl)
@[simp] theorem State.setReg_tallyRam {a : Nat} {v : Word} : (s.setReg a v).tallyRam = s.tallyRam := (rfl)
@[simp] theorem State.setReg_flash {a : Nat} {v : Word} : (s.setReg a v).flash = s.flash := (rfl)
@[simp] theorem State.setReg_outs {a : Nat} {v : Word} : (s.setReg a v).outs = s.outs := (rfl)
@[simp] theorem State.setReg_freeCount {a : Nat} {v : Word} : (s.setReg a v).freeCount = s.freeCount := (rfl)
@[simp] theorem State.setReg_sys {a : Nat} {v : Word} : (s.setReg a v).sys = s.sys := (rfl)
@[simp] theorem State.setReg_str {a : Nat} {v : Word} : (s.setReg a v).str = s.str := (rfl)
@[simp] theorem State.setReg_eng {a : Nat} {v : Word} : (s.setReg a v).eng = s.eng := (rfl)
@[simp] theorem State.setReg_sig {a : Nat} {v : Word} : (s.setReg a v).sig = s.sig := (rfl)
@[simp] theorem State.setReg_cmd {a : Nat} {v : Word} : (s.setReg a v).cmd = s.cmd := (rfl)
@[simp] theorem State.setReg_par {a : Nat} {v : Word} : (s.setReg a v).par = s.par := (rfl)
@[simp] theorem State.setReg_host {a : Nat} {v : Word} : (s.setReg a v).host = s.host := (rfl)
@[simp] theorem State.setReg_tly {a : Nat} {v : Word} : (s.setReg a v).tly = s.tly := (rfl)
@[simp] theorem State.setReg_flt {a : Nat} {v : Word} : (s.setReg a v).flt = s.flt := (rfl)
@[simp] theorem State.setReg_red {a : Nat} {v : Word} : (s.setReg a v).red = s.red := (rfl)
@[simp] theorem State.setReg_ing {a : Nat} {v : Word} : (s.setReg a v).ing = s.ing := (rfl)
@[simp] theorem State.setReg_frames {a : Nat} {v : Word} : (s.setReg a v).frames = s.frames := (rfl)
@[simp] theorem State.setReg_layerKeep {a : Nat} {v : Word} : (s.setReg a v).layerKeep = s.layerKeep := (rfl)
@[simp] theorem State.setReg_mem {a : Nat} {v : Word} : (s.setReg a v).mem = s.mem := (rfl)
@[simp] theorem State.setReg_cmp {a : Nat} {v : Word} : (s.setReg a v).cmp = s.cmp := (rfl)
@[simp] theorem State.setReg_cal {a : Nat} {v : Word} : (s.setReg a v).cal = s.cal := (rfl)
@[simp] theorem State.setReg_sep {a : Nat} {v : Word} : (s.setReg a v).sep = s.sep := (rfl)
@[simp] theorem State.setReg_gov {a : Nat} {v : Word} : (s.setReg a v).gov = s.gov := (rfl)
@[simp] theorem State.setReg_links {a : Nat} {v : Word} : (s.setReg a v).links = s.links := (rfl)
@[simp] theorem State.setReg_dvl {a : Nat} {v : Word} : (s.setReg a v).dvl = s.dvl := (rfl)
@[simp] theorem State.setReg_fix {a : Nat} {v : Word} : (s.setReg a v).fix = s.fix := (rfl)
@[simp] theorem State.setReg_ddp {a : Nat} {v : Word} : (s.setReg a v).ddp = s.ddp := (rfl)
@[simp] theorem State.setReg_tim {a : Nat} {v : Word} : (s.setReg a v).tim = s.tim := (rfl)
@[simp] theorem State.setReg_fuses {a : Nat} {v : Word} : (s.setReg a v).fuses = s.fuses := (rfl)
@[simp] theorem State.setReg_pwr {a : Nat} {v : Word} : (s.setReg a v).pwr = s.pwr := (rfl)
@[simp] theorem State.setReg_upd {a : Nat} {v : Word} : (s.setReg a v).upd = s.upd := (rfl)

/-! ### put -/

@[simp] theorem State.put_pending {f : Field} {v i : Nat} : (s.put f v i).pending = s.pending := (rfl)
@[simp] theorem State.put_now {f : Field} {v i : Nat} : (s.put f v i).now = s.now := (rfl)
@[simp] theorem State.put_uptime {f : Field} {v i : Nat} : (s.put f v i).uptime = s.uptime := (rfl)
@[simp] theorem State.put_hiLatch {f : Field} {v i : Nat} : (s.put f v i).hiLatch = s.hiLatch := (rfl)
@[simp] theorem State.put_bulk {f : Field} {v i : Nat} : (s.put f v i).bulk = s.bulk := (rfl)
@[simp] theorem State.put_pailMem {f : Field} {v i : Nat} : (s.put f v i).pailMem = s.pailMem := (rfl)
@[simp] theorem State.put_retSram {f : Field} {v i : Nat} : (s.put f v i).retSram = s.retSram := (rfl)
@[simp] theorem State.put_tallyRam {f : Field} {v i : Nat} : (s.put f v i).tallyRam = s.tallyRam := (rfl)
@[simp] theorem State.put_flash {f : Field} {v i : Nat} : (s.put f v i).flash = s.flash := (rfl)
@[simp] theorem State.put_outs {f : Field} {v i : Nat} : (s.put f v i).outs = s.outs := (rfl)
@[simp] theorem State.put_freeCount {f : Field} {v i : Nat} : (s.put f v i).freeCount = s.freeCount := (rfl)
@[simp] theorem State.put_sys {f : Field} {v i : Nat} : (s.put f v i).sys = s.sys := (rfl)
@[simp] theorem State.put_str {f : Field} {v i : Nat} : (s.put f v i).str = s.str := (rfl)
@[simp] theorem State.put_eng {f : Field} {v i : Nat} : (s.put f v i).eng = s.eng := (rfl)
@[simp] theorem State.put_sig {f : Field} {v i : Nat} : (s.put f v i).sig = s.sig := (rfl)
@[simp] theorem State.put_cmd {f : Field} {v i : Nat} : (s.put f v i).cmd = s.cmd := (rfl)
@[simp] theorem State.put_par {f : Field} {v i : Nat} : (s.put f v i).par = s.par := (rfl)
@[simp] theorem State.put_host {f : Field} {v i : Nat} : (s.put f v i).host = s.host := (rfl)
@[simp] theorem State.put_tly {f : Field} {v i : Nat} : (s.put f v i).tly = s.tly := (rfl)
@[simp] theorem State.put_flt {f : Field} {v i : Nat} : (s.put f v i).flt = s.flt := (rfl)
@[simp] theorem State.put_red {f : Field} {v i : Nat} : (s.put f v i).red = s.red := (rfl)
@[simp] theorem State.put_ing {f : Field} {v i : Nat} : (s.put f v i).ing = s.ing := (rfl)
@[simp] theorem State.put_frames {f : Field} {v i : Nat} : (s.put f v i).frames = s.frames := (rfl)
@[simp] theorem State.put_layerKeep {f : Field} {v i : Nat} : (s.put f v i).layerKeep = s.layerKeep := (rfl)
@[simp] theorem State.put_mem {f : Field} {v i : Nat} : (s.put f v i).mem = s.mem := (rfl)
@[simp] theorem State.put_cmp {f : Field} {v i : Nat} : (s.put f v i).cmp = s.cmp := (rfl)
@[simp] theorem State.put_cal {f : Field} {v i : Nat} : (s.put f v i).cal = s.cal := (rfl)
@[simp] theorem State.put_sep {f : Field} {v i : Nat} : (s.put f v i).sep = s.sep := (rfl)
@[simp] theorem State.put_gov {f : Field} {v i : Nat} : (s.put f v i).gov = s.gov := (rfl)
@[simp] theorem State.put_links {f : Field} {v i : Nat} : (s.put f v i).links = s.links := (rfl)
@[simp] theorem State.put_dvl {f : Field} {v i : Nat} : (s.put f v i).dvl = s.dvl := (rfl)
@[simp] theorem State.put_fix {f : Field} {v i : Nat} : (s.put f v i).fix = s.fix := (rfl)
@[simp] theorem State.put_ddp {f : Field} {v i : Nat} : (s.put f v i).ddp = s.ddp := (rfl)
@[simp] theorem State.put_tim {f : Field} {v i : Nat} : (s.put f v i).tim = s.tim := (rfl)
@[simp] theorem State.put_fuses {f : Field} {v i : Nat} : (s.put f v i).fuses = s.fuses := (rfl)
@[simp] theorem State.put_pwr {f : Field} {v i : Nat} : (s.put f v i).pwr = s.pwr := (rfl)
@[simp] theorem State.put_upd {f : Field} {v i : Nat} : (s.put f v i).upd = s.upd := (rfl)

/-! ### putFlag -/

@[simp] theorem State.putFlag_pending {f : Field} {b : Bool} {i : Nat} : (s.putFlag f b i).pending = s.pending := (rfl)
@[simp] theorem State.putFlag_now {f : Field} {b : Bool} {i : Nat} : (s.putFlag f b i).now = s.now := (rfl)
@[simp] theorem State.putFlag_uptime {f : Field} {b : Bool} {i : Nat} : (s.putFlag f b i).uptime = s.uptime := (rfl)
@[simp] theorem State.putFlag_hiLatch {f : Field} {b : Bool} {i : Nat} : (s.putFlag f b i).hiLatch = s.hiLatch := (rfl)
@[simp] theorem State.putFlag_bulk {f : Field} {b : Bool} {i : Nat} : (s.putFlag f b i).bulk = s.bulk := (rfl)
@[simp] theorem State.putFlag_pailMem {f : Field} {b : Bool} {i : Nat} : (s.putFlag f b i).pailMem = s.pailMem := (rfl)
@[simp] theorem State.putFlag_retSram {f : Field} {b : Bool} {i : Nat} : (s.putFlag f b i).retSram = s.retSram := (rfl)
@[simp] theorem State.putFlag_tallyRam {f : Field} {b : Bool} {i : Nat} : (s.putFlag f b i).tallyRam = s.tallyRam := (rfl)
@[simp] theorem State.putFlag_flash {f : Field} {b : Bool} {i : Nat} : (s.putFlag f b i).flash = s.flash := (rfl)
@[simp] theorem State.putFlag_outs {f : Field} {b : Bool} {i : Nat} : (s.putFlag f b i).outs = s.outs := (rfl)
@[simp] theorem State.putFlag_freeCount {f : Field} {b : Bool} {i : Nat} : (s.putFlag f b i).freeCount = s.freeCount := (rfl)
@[simp] theorem State.putFlag_sys {f : Field} {b : Bool} {i : Nat} : (s.putFlag f b i).sys = s.sys := (rfl)
@[simp] theorem State.putFlag_str {f : Field} {b : Bool} {i : Nat} : (s.putFlag f b i).str = s.str := (rfl)
@[simp] theorem State.putFlag_eng {f : Field} {b : Bool} {i : Nat} : (s.putFlag f b i).eng = s.eng := (rfl)
@[simp] theorem State.putFlag_sig {f : Field} {b : Bool} {i : Nat} : (s.putFlag f b i).sig = s.sig := (rfl)
@[simp] theorem State.putFlag_cmd {f : Field} {b : Bool} {i : Nat} : (s.putFlag f b i).cmd = s.cmd := (rfl)
@[simp] theorem State.putFlag_par {f : Field} {b : Bool} {i : Nat} : (s.putFlag f b i).par = s.par := (rfl)
@[simp] theorem State.putFlag_host {f : Field} {b : Bool} {i : Nat} : (s.putFlag f b i).host = s.host := (rfl)
@[simp] theorem State.putFlag_tly {f : Field} {b : Bool} {i : Nat} : (s.putFlag f b i).tly = s.tly := (rfl)
@[simp] theorem State.putFlag_flt {f : Field} {b : Bool} {i : Nat} : (s.putFlag f b i).flt = s.flt := (rfl)
@[simp] theorem State.putFlag_red {f : Field} {b : Bool} {i : Nat} : (s.putFlag f b i).red = s.red := (rfl)
@[simp] theorem State.putFlag_ing {f : Field} {b : Bool} {i : Nat} : (s.putFlag f b i).ing = s.ing := (rfl)
@[simp] theorem State.putFlag_frames {f : Field} {b : Bool} {i : Nat} : (s.putFlag f b i).frames = s.frames := (rfl)
@[simp] theorem State.putFlag_layerKeep {f : Field} {b : Bool} {i : Nat} : (s.putFlag f b i).layerKeep = s.layerKeep := (rfl)
@[simp] theorem State.putFlag_mem {f : Field} {b : Bool} {i : Nat} : (s.putFlag f b i).mem = s.mem := (rfl)
@[simp] theorem State.putFlag_cmp {f : Field} {b : Bool} {i : Nat} : (s.putFlag f b i).cmp = s.cmp := (rfl)
@[simp] theorem State.putFlag_cal {f : Field} {b : Bool} {i : Nat} : (s.putFlag f b i).cal = s.cal := (rfl)
@[simp] theorem State.putFlag_sep {f : Field} {b : Bool} {i : Nat} : (s.putFlag f b i).sep = s.sep := (rfl)
@[simp] theorem State.putFlag_gov {f : Field} {b : Bool} {i : Nat} : (s.putFlag f b i).gov = s.gov := (rfl)
@[simp] theorem State.putFlag_links {f : Field} {b : Bool} {i : Nat} : (s.putFlag f b i).links = s.links := (rfl)
@[simp] theorem State.putFlag_dvl {f : Field} {b : Bool} {i : Nat} : (s.putFlag f b i).dvl = s.dvl := (rfl)
@[simp] theorem State.putFlag_fix {f : Field} {b : Bool} {i : Nat} : (s.putFlag f b i).fix = s.fix := (rfl)
@[simp] theorem State.putFlag_ddp {f : Field} {b : Bool} {i : Nat} : (s.putFlag f b i).ddp = s.ddp := (rfl)
@[simp] theorem State.putFlag_tim {f : Field} {b : Bool} {i : Nat} : (s.putFlag f b i).tim = s.tim := (rfl)
@[simp] theorem State.putFlag_fuses {f : Field} {b : Bool} {i : Nat} : (s.putFlag f b i).fuses = s.fuses := (rfl)
@[simp] theorem State.putFlag_pwr {f : Field} {b : Bool} {i : Nat} : (s.putFlag f b i).pwr = s.pwr := (rfl)
@[simp] theorem State.putFlag_upd {f : Field} {b : Bool} {i : Nat} : (s.putFlag f b i).upd = s.upd := (rfl)

/-! ### add -/

@[simp] theorem State.add_pending {f : Field} {n i : Nat} : (s.add f n i).pending = s.pending := (rfl)
@[simp] theorem State.add_now {f : Field} {n i : Nat} : (s.add f n i).now = s.now := (rfl)
@[simp] theorem State.add_uptime {f : Field} {n i : Nat} : (s.add f n i).uptime = s.uptime := (rfl)
@[simp] theorem State.add_hiLatch {f : Field} {n i : Nat} : (s.add f n i).hiLatch = s.hiLatch := (rfl)
@[simp] theorem State.add_bulk {f : Field} {n i : Nat} : (s.add f n i).bulk = s.bulk := (rfl)
@[simp] theorem State.add_pailMem {f : Field} {n i : Nat} : (s.add f n i).pailMem = s.pailMem := (rfl)
@[simp] theorem State.add_retSram {f : Field} {n i : Nat} : (s.add f n i).retSram = s.retSram := (rfl)
@[simp] theorem State.add_tallyRam {f : Field} {n i : Nat} : (s.add f n i).tallyRam = s.tallyRam := (rfl)
@[simp] theorem State.add_flash {f : Field} {n i : Nat} : (s.add f n i).flash = s.flash := (rfl)
@[simp] theorem State.add_outs {f : Field} {n i : Nat} : (s.add f n i).outs = s.outs := (rfl)
@[simp] theorem State.add_freeCount {f : Field} {n i : Nat} : (s.add f n i).freeCount = s.freeCount := (rfl)
@[simp] theorem State.add_sys {f : Field} {n i : Nat} : (s.add f n i).sys = s.sys := (rfl)
@[simp] theorem State.add_str {f : Field} {n i : Nat} : (s.add f n i).str = s.str := (rfl)
@[simp] theorem State.add_eng {f : Field} {n i : Nat} : (s.add f n i).eng = s.eng := (rfl)
@[simp] theorem State.add_sig {f : Field} {n i : Nat} : (s.add f n i).sig = s.sig := (rfl)
@[simp] theorem State.add_cmd {f : Field} {n i : Nat} : (s.add f n i).cmd = s.cmd := (rfl)
@[simp] theorem State.add_par {f : Field} {n i : Nat} : (s.add f n i).par = s.par := (rfl)
@[simp] theorem State.add_host {f : Field} {n i : Nat} : (s.add f n i).host = s.host := (rfl)
@[simp] theorem State.add_tly {f : Field} {n i : Nat} : (s.add f n i).tly = s.tly := (rfl)
@[simp] theorem State.add_flt {f : Field} {n i : Nat} : (s.add f n i).flt = s.flt := (rfl)
@[simp] theorem State.add_red {f : Field} {n i : Nat} : (s.add f n i).red = s.red := (rfl)
@[simp] theorem State.add_ing {f : Field} {n i : Nat} : (s.add f n i).ing = s.ing := (rfl)
@[simp] theorem State.add_frames {f : Field} {n i : Nat} : (s.add f n i).frames = s.frames := (rfl)
@[simp] theorem State.add_layerKeep {f : Field} {n i : Nat} : (s.add f n i).layerKeep = s.layerKeep := (rfl)
@[simp] theorem State.add_mem {f : Field} {n i : Nat} : (s.add f n i).mem = s.mem := (rfl)
@[simp] theorem State.add_cmp {f : Field} {n i : Nat} : (s.add f n i).cmp = s.cmp := (rfl)
@[simp] theorem State.add_cal {f : Field} {n i : Nat} : (s.add f n i).cal = s.cal := (rfl)
@[simp] theorem State.add_sep {f : Field} {n i : Nat} : (s.add f n i).sep = s.sep := (rfl)
@[simp] theorem State.add_gov {f : Field} {n i : Nat} : (s.add f n i).gov = s.gov := (rfl)
@[simp] theorem State.add_links {f : Field} {n i : Nat} : (s.add f n i).links = s.links := (rfl)
@[simp] theorem State.add_dvl {f : Field} {n i : Nat} : (s.add f n i).dvl = s.dvl := (rfl)
@[simp] theorem State.add_fix {f : Field} {n i : Nat} : (s.add f n i).fix = s.fix := (rfl)
@[simp] theorem State.add_ddp {f : Field} {n i : Nat} : (s.add f n i).ddp = s.ddp := (rfl)
@[simp] theorem State.add_tim {f : Field} {n i : Nat} : (s.add f n i).tim = s.tim := (rfl)
@[simp] theorem State.add_fuses {f : Field} {n i : Nat} : (s.add f n i).fuses = s.fuses := (rfl)
@[simp] theorem State.add_pwr {f : Field} {n i : Nat} : (s.add f n i).pwr = s.pwr := (rfl)
@[simp] theorem State.add_upd {f : Field} {n i : Nat} : (s.add f n i).upd = s.upd := (rfl)

/-! ### bump -/

@[simp] theorem State.bump_pending {f : Field} {i : Nat} : (s.bump f i).pending = s.pending := (rfl)
@[simp] theorem State.bump_now {f : Field} {i : Nat} : (s.bump f i).now = s.now := (rfl)
@[simp] theorem State.bump_uptime {f : Field} {i : Nat} : (s.bump f i).uptime = s.uptime := (rfl)
@[simp] theorem State.bump_hiLatch {f : Field} {i : Nat} : (s.bump f i).hiLatch = s.hiLatch := (rfl)
@[simp] theorem State.bump_bulk {f : Field} {i : Nat} : (s.bump f i).bulk = s.bulk := (rfl)
@[simp] theorem State.bump_pailMem {f : Field} {i : Nat} : (s.bump f i).pailMem = s.pailMem := (rfl)
@[simp] theorem State.bump_retSram {f : Field} {i : Nat} : (s.bump f i).retSram = s.retSram := (rfl)
@[simp] theorem State.bump_tallyRam {f : Field} {i : Nat} : (s.bump f i).tallyRam = s.tallyRam := (rfl)
@[simp] theorem State.bump_flash {f : Field} {i : Nat} : (s.bump f i).flash = s.flash := (rfl)
@[simp] theorem State.bump_outs {f : Field} {i : Nat} : (s.bump f i).outs = s.outs := (rfl)
@[simp] theorem State.bump_freeCount {f : Field} {i : Nat} : (s.bump f i).freeCount = s.freeCount := (rfl)
@[simp] theorem State.bump_sys {f : Field} {i : Nat} : (s.bump f i).sys = s.sys := (rfl)
@[simp] theorem State.bump_str {f : Field} {i : Nat} : (s.bump f i).str = s.str := (rfl)
@[simp] theorem State.bump_eng {f : Field} {i : Nat} : (s.bump f i).eng = s.eng := (rfl)
@[simp] theorem State.bump_sig {f : Field} {i : Nat} : (s.bump f i).sig = s.sig := (rfl)
@[simp] theorem State.bump_cmd {f : Field} {i : Nat} : (s.bump f i).cmd = s.cmd := (rfl)
@[simp] theorem State.bump_par {f : Field} {i : Nat} : (s.bump f i).par = s.par := (rfl)
@[simp] theorem State.bump_host {f : Field} {i : Nat} : (s.bump f i).host = s.host := (rfl)
@[simp] theorem State.bump_tly {f : Field} {i : Nat} : (s.bump f i).tly = s.tly := (rfl)
@[simp] theorem State.bump_flt {f : Field} {i : Nat} : (s.bump f i).flt = s.flt := (rfl)
@[simp] theorem State.bump_red {f : Field} {i : Nat} : (s.bump f i).red = s.red := (rfl)
@[simp] theorem State.bump_ing {f : Field} {i : Nat} : (s.bump f i).ing = s.ing := (rfl)
@[simp] theorem State.bump_frames {f : Field} {i : Nat} : (s.bump f i).frames = s.frames := (rfl)
@[simp] theorem State.bump_layerKeep {f : Field} {i : Nat} : (s.bump f i).layerKeep = s.layerKeep := (rfl)
@[simp] theorem State.bump_mem {f : Field} {i : Nat} : (s.bump f i).mem = s.mem := (rfl)
@[simp] theorem State.bump_cmp {f : Field} {i : Nat} : (s.bump f i).cmp = s.cmp := (rfl)
@[simp] theorem State.bump_cal {f : Field} {i : Nat} : (s.bump f i).cal = s.cal := (rfl)
@[simp] theorem State.bump_sep {f : Field} {i : Nat} : (s.bump f i).sep = s.sep := (rfl)
@[simp] theorem State.bump_gov {f : Field} {i : Nat} : (s.bump f i).gov = s.gov := (rfl)
@[simp] theorem State.bump_links {f : Field} {i : Nat} : (s.bump f i).links = s.links := (rfl)
@[simp] theorem State.bump_dvl {f : Field} {i : Nat} : (s.bump f i).dvl = s.dvl := (rfl)
@[simp] theorem State.bump_fix {f : Field} {i : Nat} : (s.bump f i).fix = s.fix := (rfl)
@[simp] theorem State.bump_ddp {f : Field} {i : Nat} : (s.bump f i).ddp = s.ddp := (rfl)
@[simp] theorem State.bump_tim {f : Field} {i : Nat} : (s.bump f i).tim = s.tim := (rfl)
@[simp] theorem State.bump_fuses {f : Field} {i : Nat} : (s.bump f i).fuses = s.fuses := (rfl)
@[simp] theorem State.bump_pwr {f : Field} {i : Nat} : (s.bump f i).pwr = s.pwr := (rfl)
@[simp] theorem State.bump_upd {f : Field} {i : Nat} : (s.bump f i).upd = s.upd := (rfl)

/-! ### advance -/

@[simp] theorem State.advance_pending {f : Field} {i : Nat} : (s.advance f i).pending = s.pending := (rfl)
@[simp] theorem State.advance_now {f : Field} {i : Nat} : (s.advance f i).now = s.now := (rfl)
@[simp] theorem State.advance_uptime {f : Field} {i : Nat} : (s.advance f i).uptime = s.uptime := (rfl)
@[simp] theorem State.advance_hiLatch {f : Field} {i : Nat} : (s.advance f i).hiLatch = s.hiLatch := (rfl)
@[simp] theorem State.advance_bulk {f : Field} {i : Nat} : (s.advance f i).bulk = s.bulk := (rfl)
@[simp] theorem State.advance_pailMem {f : Field} {i : Nat} : (s.advance f i).pailMem = s.pailMem := (rfl)
@[simp] theorem State.advance_retSram {f : Field} {i : Nat} : (s.advance f i).retSram = s.retSram := (rfl)
@[simp] theorem State.advance_tallyRam {f : Field} {i : Nat} : (s.advance f i).tallyRam = s.tallyRam := (rfl)
@[simp] theorem State.advance_flash {f : Field} {i : Nat} : (s.advance f i).flash = s.flash := (rfl)
@[simp] theorem State.advance_outs {f : Field} {i : Nat} : (s.advance f i).outs = s.outs := (rfl)
@[simp] theorem State.advance_freeCount {f : Field} {i : Nat} : (s.advance f i).freeCount = s.freeCount := (rfl)
@[simp] theorem State.advance_sys {f : Field} {i : Nat} : (s.advance f i).sys = s.sys := (rfl)
@[simp] theorem State.advance_str {f : Field} {i : Nat} : (s.advance f i).str = s.str := (rfl)
@[simp] theorem State.advance_eng {f : Field} {i : Nat} : (s.advance f i).eng = s.eng := (rfl)
@[simp] theorem State.advance_sig {f : Field} {i : Nat} : (s.advance f i).sig = s.sig := (rfl)
@[simp] theorem State.advance_cmd {f : Field} {i : Nat} : (s.advance f i).cmd = s.cmd := (rfl)
@[simp] theorem State.advance_par {f : Field} {i : Nat} : (s.advance f i).par = s.par := (rfl)
@[simp] theorem State.advance_host {f : Field} {i : Nat} : (s.advance f i).host = s.host := (rfl)
@[simp] theorem State.advance_tly {f : Field} {i : Nat} : (s.advance f i).tly = s.tly := (rfl)
@[simp] theorem State.advance_flt {f : Field} {i : Nat} : (s.advance f i).flt = s.flt := (rfl)
@[simp] theorem State.advance_red {f : Field} {i : Nat} : (s.advance f i).red = s.red := (rfl)
@[simp] theorem State.advance_ing {f : Field} {i : Nat} : (s.advance f i).ing = s.ing := (rfl)
@[simp] theorem State.advance_frames {f : Field} {i : Nat} : (s.advance f i).frames = s.frames := (rfl)
@[simp] theorem State.advance_layerKeep {f : Field} {i : Nat} : (s.advance f i).layerKeep = s.layerKeep := (rfl)
@[simp] theorem State.advance_mem {f : Field} {i : Nat} : (s.advance f i).mem = s.mem := (rfl)
@[simp] theorem State.advance_cmp {f : Field} {i : Nat} : (s.advance f i).cmp = s.cmp := (rfl)
@[simp] theorem State.advance_cal {f : Field} {i : Nat} : (s.advance f i).cal = s.cal := (rfl)
@[simp] theorem State.advance_sep {f : Field} {i : Nat} : (s.advance f i).sep = s.sep := (rfl)
@[simp] theorem State.advance_gov {f : Field} {i : Nat} : (s.advance f i).gov = s.gov := (rfl)
@[simp] theorem State.advance_links {f : Field} {i : Nat} : (s.advance f i).links = s.links := (rfl)
@[simp] theorem State.advance_dvl {f : Field} {i : Nat} : (s.advance f i).dvl = s.dvl := (rfl)
@[simp] theorem State.advance_fix {f : Field} {i : Nat} : (s.advance f i).fix = s.fix := (rfl)
@[simp] theorem State.advance_ddp {f : Field} {i : Nat} : (s.advance f i).ddp = s.ddp := (rfl)
@[simp] theorem State.advance_tim {f : Field} {i : Nat} : (s.advance f i).tim = s.tim := (rfl)
@[simp] theorem State.advance_fuses {f : Field} {i : Nat} : (s.advance f i).fuses = s.fuses := (rfl)
@[simp] theorem State.advance_pwr {f : Field} {i : Nat} : (s.advance f i).pwr = s.pwr := (rfl)
@[simp] theorem State.advance_upd {f : Field} {i : Nat} : (s.advance f i).upd = s.upd := (rfl)

/-! ### put64 -/

@[simp] theorem State.put64_pending {f : Field} {v i : Nat} : (s.put64 f v i).pending = s.pending := (rfl)
@[simp] theorem State.put64_now {f : Field} {v i : Nat} : (s.put64 f v i).now = s.now := (rfl)
@[simp] theorem State.put64_uptime {f : Field} {v i : Nat} : (s.put64 f v i).uptime = s.uptime := (rfl)
@[simp] theorem State.put64_hiLatch {f : Field} {v i : Nat} : (s.put64 f v i).hiLatch = s.hiLatch := (rfl)
@[simp] theorem State.put64_bulk {f : Field} {v i : Nat} : (s.put64 f v i).bulk = s.bulk := (rfl)
@[simp] theorem State.put64_pailMem {f : Field} {v i : Nat} : (s.put64 f v i).pailMem = s.pailMem := (rfl)
@[simp] theorem State.put64_retSram {f : Field} {v i : Nat} : (s.put64 f v i).retSram = s.retSram := (rfl)
@[simp] theorem State.put64_tallyRam {f : Field} {v i : Nat} : (s.put64 f v i).tallyRam = s.tallyRam := (rfl)
@[simp] theorem State.put64_flash {f : Field} {v i : Nat} : (s.put64 f v i).flash = s.flash := (rfl)
@[simp] theorem State.put64_outs {f : Field} {v i : Nat} : (s.put64 f v i).outs = s.outs := (rfl)
@[simp] theorem State.put64_freeCount {f : Field} {v i : Nat} : (s.put64 f v i).freeCount = s.freeCount := (rfl)
@[simp] theorem State.put64_sys {f : Field} {v i : Nat} : (s.put64 f v i).sys = s.sys := (rfl)
@[simp] theorem State.put64_str {f : Field} {v i : Nat} : (s.put64 f v i).str = s.str := (rfl)
@[simp] theorem State.put64_eng {f : Field} {v i : Nat} : (s.put64 f v i).eng = s.eng := (rfl)
@[simp] theorem State.put64_sig {f : Field} {v i : Nat} : (s.put64 f v i).sig = s.sig := (rfl)
@[simp] theorem State.put64_cmd {f : Field} {v i : Nat} : (s.put64 f v i).cmd = s.cmd := (rfl)
@[simp] theorem State.put64_par {f : Field} {v i : Nat} : (s.put64 f v i).par = s.par := (rfl)
@[simp] theorem State.put64_host {f : Field} {v i : Nat} : (s.put64 f v i).host = s.host := (rfl)
@[simp] theorem State.put64_tly {f : Field} {v i : Nat} : (s.put64 f v i).tly = s.tly := (rfl)
@[simp] theorem State.put64_flt {f : Field} {v i : Nat} : (s.put64 f v i).flt = s.flt := (rfl)
@[simp] theorem State.put64_red {f : Field} {v i : Nat} : (s.put64 f v i).red = s.red := (rfl)
@[simp] theorem State.put64_ing {f : Field} {v i : Nat} : (s.put64 f v i).ing = s.ing := (rfl)
@[simp] theorem State.put64_frames {f : Field} {v i : Nat} : (s.put64 f v i).frames = s.frames := (rfl)
@[simp] theorem State.put64_layerKeep {f : Field} {v i : Nat} : (s.put64 f v i).layerKeep = s.layerKeep := (rfl)
@[simp] theorem State.put64_mem {f : Field} {v i : Nat} : (s.put64 f v i).mem = s.mem := (rfl)
@[simp] theorem State.put64_cmp {f : Field} {v i : Nat} : (s.put64 f v i).cmp = s.cmp := (rfl)
@[simp] theorem State.put64_cal {f : Field} {v i : Nat} : (s.put64 f v i).cal = s.cal := (rfl)
@[simp] theorem State.put64_sep {f : Field} {v i : Nat} : (s.put64 f v i).sep = s.sep := (rfl)
@[simp] theorem State.put64_gov {f : Field} {v i : Nat} : (s.put64 f v i).gov = s.gov := (rfl)
@[simp] theorem State.put64_links {f : Field} {v i : Nat} : (s.put64 f v i).links = s.links := (rfl)
@[simp] theorem State.put64_dvl {f : Field} {v i : Nat} : (s.put64 f v i).dvl = s.dvl := (rfl)
@[simp] theorem State.put64_fix {f : Field} {v i : Nat} : (s.put64 f v i).fix = s.fix := (rfl)
@[simp] theorem State.put64_ddp {f : Field} {v i : Nat} : (s.put64 f v i).ddp = s.ddp := (rfl)
@[simp] theorem State.put64_tim {f : Field} {v i : Nat} : (s.put64 f v i).tim = s.tim := (rfl)
@[simp] theorem State.put64_fuses {f : Field} {v i : Nat} : (s.put64 f v i).fuses = s.fuses := (rfl)
@[simp] theorem State.put64_pwr {f : Field} {v i : Nat} : (s.put64 f v i).pwr = s.pwr := (rfl)
@[simp] theorem State.put64_upd {f : Field} {v i : Nat} : (s.put64 f v i).upd = s.upd := (rfl)

/-! ### add64 -/

@[simp] theorem State.add64_pending {f : Field} {v i : Nat} : (s.add64 f v i).pending = s.pending := (rfl)
@[simp] theorem State.add64_now {f : Field} {v i : Nat} : (s.add64 f v i).now = s.now := (rfl)
@[simp] theorem State.add64_uptime {f : Field} {v i : Nat} : (s.add64 f v i).uptime = s.uptime := (rfl)
@[simp] theorem State.add64_hiLatch {f : Field} {v i : Nat} : (s.add64 f v i).hiLatch = s.hiLatch := (rfl)
@[simp] theorem State.add64_bulk {f : Field} {v i : Nat} : (s.add64 f v i).bulk = s.bulk := (rfl)
@[simp] theorem State.add64_pailMem {f : Field} {v i : Nat} : (s.add64 f v i).pailMem = s.pailMem := (rfl)
@[simp] theorem State.add64_retSram {f : Field} {v i : Nat} : (s.add64 f v i).retSram = s.retSram := (rfl)
@[simp] theorem State.add64_tallyRam {f : Field} {v i : Nat} : (s.add64 f v i).tallyRam = s.tallyRam := (rfl)
@[simp] theorem State.add64_flash {f : Field} {v i : Nat} : (s.add64 f v i).flash = s.flash := (rfl)
@[simp] theorem State.add64_outs {f : Field} {v i : Nat} : (s.add64 f v i).outs = s.outs := (rfl)
@[simp] theorem State.add64_freeCount {f : Field} {v i : Nat} : (s.add64 f v i).freeCount = s.freeCount := (rfl)
@[simp] theorem State.add64_sys {f : Field} {v i : Nat} : (s.add64 f v i).sys = s.sys := (rfl)
@[simp] theorem State.add64_str {f : Field} {v i : Nat} : (s.add64 f v i).str = s.str := (rfl)
@[simp] theorem State.add64_eng {f : Field} {v i : Nat} : (s.add64 f v i).eng = s.eng := (rfl)
@[simp] theorem State.add64_sig {f : Field} {v i : Nat} : (s.add64 f v i).sig = s.sig := (rfl)
@[simp] theorem State.add64_cmd {f : Field} {v i : Nat} : (s.add64 f v i).cmd = s.cmd := (rfl)
@[simp] theorem State.add64_par {f : Field} {v i : Nat} : (s.add64 f v i).par = s.par := (rfl)
@[simp] theorem State.add64_host {f : Field} {v i : Nat} : (s.add64 f v i).host = s.host := (rfl)
@[simp] theorem State.add64_tly {f : Field} {v i : Nat} : (s.add64 f v i).tly = s.tly := (rfl)
@[simp] theorem State.add64_flt {f : Field} {v i : Nat} : (s.add64 f v i).flt = s.flt := (rfl)
@[simp] theorem State.add64_red {f : Field} {v i : Nat} : (s.add64 f v i).red = s.red := (rfl)
@[simp] theorem State.add64_ing {f : Field} {v i : Nat} : (s.add64 f v i).ing = s.ing := (rfl)
@[simp] theorem State.add64_frames {f : Field} {v i : Nat} : (s.add64 f v i).frames = s.frames := (rfl)
@[simp] theorem State.add64_layerKeep {f : Field} {v i : Nat} : (s.add64 f v i).layerKeep = s.layerKeep := (rfl)
@[simp] theorem State.add64_mem {f : Field} {v i : Nat} : (s.add64 f v i).mem = s.mem := (rfl)
@[simp] theorem State.add64_cmp {f : Field} {v i : Nat} : (s.add64 f v i).cmp = s.cmp := (rfl)
@[simp] theorem State.add64_cal {f : Field} {v i : Nat} : (s.add64 f v i).cal = s.cal := (rfl)
@[simp] theorem State.add64_sep {f : Field} {v i : Nat} : (s.add64 f v i).sep = s.sep := (rfl)
@[simp] theorem State.add64_gov {f : Field} {v i : Nat} : (s.add64 f v i).gov = s.gov := (rfl)
@[simp] theorem State.add64_links {f : Field} {v i : Nat} : (s.add64 f v i).links = s.links := (rfl)
@[simp] theorem State.add64_dvl {f : Field} {v i : Nat} : (s.add64 f v i).dvl = s.dvl := (rfl)
@[simp] theorem State.add64_fix {f : Field} {v i : Nat} : (s.add64 f v i).fix = s.fix := (rfl)
@[simp] theorem State.add64_ddp {f : Field} {v i : Nat} : (s.add64 f v i).ddp = s.ddp := (rfl)
@[simp] theorem State.add64_tim {f : Field} {v i : Nat} : (s.add64 f v i).tim = s.tim := (rfl)
@[simp] theorem State.add64_fuses {f : Field} {v i : Nat} : (s.add64 f v i).fuses = s.fuses := (rfl)
@[simp] theorem State.add64_pwr {f : Field} {v i : Nat} : (s.add64 f v i).pwr = s.pwr := (rfl)
@[simp] theorem State.add64_upd {f : Field} {v i : Nat} : (s.add64 f v i).upd = s.upd := (rfl)

/-! ### emit -/

@[simp] theorem State.emit_pending {o : Out} : (s.emit o).pending = s.pending := (rfl)
@[simp] theorem State.emit_now {o : Out} : (s.emit o).now = s.now := (rfl)
@[simp] theorem State.emit_uptime {o : Out} : (s.emit o).uptime = s.uptime := (rfl)
@[simp] theorem State.emit_regs {o : Out} : (s.emit o).regs = s.regs := (rfl)
@[simp] theorem State.emit_hiLatch {o : Out} : (s.emit o).hiLatch = s.hiLatch := (rfl)
@[simp] theorem State.emit_bulk {o : Out} : (s.emit o).bulk = s.bulk := (rfl)
@[simp] theorem State.emit_pailMem {o : Out} : (s.emit o).pailMem = s.pailMem := (rfl)
@[simp] theorem State.emit_retSram {o : Out} : (s.emit o).retSram = s.retSram := (rfl)
@[simp] theorem State.emit_tallyRam {o : Out} : (s.emit o).tallyRam = s.tallyRam := (rfl)
@[simp] theorem State.emit_flash {o : Out} : (s.emit o).flash = s.flash := (rfl)
@[simp] theorem State.emit_freeCount {o : Out} : (s.emit o).freeCount = s.freeCount := (rfl)
@[simp] theorem State.emit_sys {o : Out} : (s.emit o).sys = s.sys := (rfl)
@[simp] theorem State.emit_str {o : Out} : (s.emit o).str = s.str := (rfl)
@[simp] theorem State.emit_eng {o : Out} : (s.emit o).eng = s.eng := (rfl)
@[simp] theorem State.emit_sig {o : Out} : (s.emit o).sig = s.sig := (rfl)
@[simp] theorem State.emit_cmd {o : Out} : (s.emit o).cmd = s.cmd := (rfl)
@[simp] theorem State.emit_par {o : Out} : (s.emit o).par = s.par := (rfl)
@[simp] theorem State.emit_host {o : Out} : (s.emit o).host = s.host := (rfl)
@[simp] theorem State.emit_tly {o : Out} : (s.emit o).tly = s.tly := (rfl)
@[simp] theorem State.emit_flt {o : Out} : (s.emit o).flt = s.flt := (rfl)
@[simp] theorem State.emit_red {o : Out} : (s.emit o).red = s.red := (rfl)
@[simp] theorem State.emit_ing {o : Out} : (s.emit o).ing = s.ing := (rfl)
@[simp] theorem State.emit_frames {o : Out} : (s.emit o).frames = s.frames := (rfl)
@[simp] theorem State.emit_layerKeep {o : Out} : (s.emit o).layerKeep = s.layerKeep := (rfl)
@[simp] theorem State.emit_mem {o : Out} : (s.emit o).mem = s.mem := (rfl)
@[simp] theorem State.emit_cmp {o : Out} : (s.emit o).cmp = s.cmp := (rfl)
@[simp] theorem State.emit_cal {o : Out} : (s.emit o).cal = s.cal := (rfl)
@[simp] theorem State.emit_sep {o : Out} : (s.emit o).sep = s.sep := (rfl)
@[simp] theorem State.emit_gov {o : Out} : (s.emit o).gov = s.gov := (rfl)
@[simp] theorem State.emit_links {o : Out} : (s.emit o).links = s.links := (rfl)
@[simp] theorem State.emit_dvl {o : Out} : (s.emit o).dvl = s.dvl := (rfl)
@[simp] theorem State.emit_fix {o : Out} : (s.emit o).fix = s.fix := (rfl)
@[simp] theorem State.emit_ddp {o : Out} : (s.emit o).ddp = s.ddp := (rfl)
@[simp] theorem State.emit_tim {o : Out} : (s.emit o).tim = s.tim := (rfl)
@[simp] theorem State.emit_fuses {o : Out} : (s.emit o).fuses = s.fuses := (rfl)
@[simp] theorem State.emit_pwr {o : Out} : (s.emit o).pwr = s.pwr := (rfl)
@[simp] theorem State.emit_upd {o : Out} : (s.emit o).upd = s.upd := (rfl)
@[simp] theorem State.emit_outs {o : Out} : (s.emit o).outs = s.outs ++ [o] := (rfl)
@[simp] theorem State.emit_get {o : Out} {g : Field} {j : Nat} : (s.emit o).get g j = s.get g j := (rfl)
@[simp] theorem State.emit_flag {o : Out} {g : Field} {j : Nat} : (s.emit o).flag g j = s.flag g j := (rfl)
@[simp] theorem State.emit_get64 {o : Out} {g : Field} {j : Nat} : (s.emit o).get64 g j = s.get64 g j := (rfl)
@[simp] theorem State.emit_reg {o : Out} {q : Nat} : (s.emit o).reg q = s.reg q := (rfl)

/-! ### setBulk -/

@[simp] theorem State.setBulk_pending {a : Nat} {b : Byte} : (s.setBulk a b).pending = s.pending := (rfl)
@[simp] theorem State.setBulk_now {a : Nat} {b : Byte} : (s.setBulk a b).now = s.now := (rfl)
@[simp] theorem State.setBulk_uptime {a : Nat} {b : Byte} : (s.setBulk a b).uptime = s.uptime := (rfl)
@[simp] theorem State.setBulk_regs {a : Nat} {b : Byte} : (s.setBulk a b).regs = s.regs := (rfl)
@[simp] theorem State.setBulk_hiLatch {a : Nat} {b : Byte} : (s.setBulk a b).hiLatch = s.hiLatch := (rfl)
@[simp] theorem State.setBulk_pailMem {a : Nat} {b : Byte} : (s.setBulk a b).pailMem = s.pailMem := (rfl)
@[simp] theorem State.setBulk_retSram {a : Nat} {b : Byte} : (s.setBulk a b).retSram = s.retSram := (rfl)
@[simp] theorem State.setBulk_tallyRam {a : Nat} {b : Byte} : (s.setBulk a b).tallyRam = s.tallyRam := (rfl)
@[simp] theorem State.setBulk_flash {a : Nat} {b : Byte} : (s.setBulk a b).flash = s.flash := (rfl)
@[simp] theorem State.setBulk_outs {a : Nat} {b : Byte} : (s.setBulk a b).outs = s.outs := (rfl)
@[simp] theorem State.setBulk_freeCount {a : Nat} {b : Byte} : (s.setBulk a b).freeCount = s.freeCount := (rfl)
@[simp] theorem State.setBulk_sys {a : Nat} {b : Byte} : (s.setBulk a b).sys = s.sys := (rfl)
@[simp] theorem State.setBulk_str {a : Nat} {b : Byte} : (s.setBulk a b).str = s.str := (rfl)
@[simp] theorem State.setBulk_eng {a : Nat} {b : Byte} : (s.setBulk a b).eng = s.eng := (rfl)
@[simp] theorem State.setBulk_sig {a : Nat} {b : Byte} : (s.setBulk a b).sig = s.sig := (rfl)
@[simp] theorem State.setBulk_cmd {a : Nat} {b : Byte} : (s.setBulk a b).cmd = s.cmd := (rfl)
@[simp] theorem State.setBulk_par {a : Nat} {b : Byte} : (s.setBulk a b).par = s.par := (rfl)
@[simp] theorem State.setBulk_host {a : Nat} {b : Byte} : (s.setBulk a b).host = s.host := (rfl)
@[simp] theorem State.setBulk_tly {a : Nat} {b : Byte} : (s.setBulk a b).tly = s.tly := (rfl)
@[simp] theorem State.setBulk_flt {a : Nat} {b : Byte} : (s.setBulk a b).flt = s.flt := (rfl)
@[simp] theorem State.setBulk_red {a : Nat} {b : Byte} : (s.setBulk a b).red = s.red := (rfl)
@[simp] theorem State.setBulk_ing {a : Nat} {b : Byte} : (s.setBulk a b).ing = s.ing := (rfl)
@[simp] theorem State.setBulk_frames {a : Nat} {b : Byte} : (s.setBulk a b).frames = s.frames := (rfl)
@[simp] theorem State.setBulk_layerKeep {a : Nat} {b : Byte} : (s.setBulk a b).layerKeep = s.layerKeep := (rfl)
@[simp] theorem State.setBulk_mem {a : Nat} {b : Byte} : (s.setBulk a b).mem = s.mem := (rfl)
@[simp] theorem State.setBulk_cmp {a : Nat} {b : Byte} : (s.setBulk a b).cmp = s.cmp := (rfl)
@[simp] theorem State.setBulk_cal {a : Nat} {b : Byte} : (s.setBulk a b).cal = s.cal := (rfl)
@[simp] theorem State.setBulk_sep {a : Nat} {b : Byte} : (s.setBulk a b).sep = s.sep := (rfl)
@[simp] theorem State.setBulk_gov {a : Nat} {b : Byte} : (s.setBulk a b).gov = s.gov := (rfl)
@[simp] theorem State.setBulk_links {a : Nat} {b : Byte} : (s.setBulk a b).links = s.links := (rfl)
@[simp] theorem State.setBulk_dvl {a : Nat} {b : Byte} : (s.setBulk a b).dvl = s.dvl := (rfl)
@[simp] theorem State.setBulk_fix {a : Nat} {b : Byte} : (s.setBulk a b).fix = s.fix := (rfl)
@[simp] theorem State.setBulk_ddp {a : Nat} {b : Byte} : (s.setBulk a b).ddp = s.ddp := (rfl)
@[simp] theorem State.setBulk_tim {a : Nat} {b : Byte} : (s.setBulk a b).tim = s.tim := (rfl)
@[simp] theorem State.setBulk_fuses {a : Nat} {b : Byte} : (s.setBulk a b).fuses = s.fuses := (rfl)
@[simp] theorem State.setBulk_pwr {a : Nat} {b : Byte} : (s.setBulk a b).pwr = s.pwr := (rfl)
@[simp] theorem State.setBulk_upd {a : Nat} {b : Byte} : (s.setBulk a b).upd = s.upd := (rfl)
@[simp] theorem State.setBulk_get {a : Nat} {b : Byte} {g : Field} {j : Nat} : (s.setBulk a b).get g j = s.get g j := (rfl)
@[simp] theorem State.setBulk_flag {a : Nat} {b : Byte} {g : Field} {j : Nat} : (s.setBulk a b).flag g j = s.flag g j := (rfl)
@[simp] theorem State.setBulk_get64 {a : Nat} {b : Byte} {g : Field} {j : Nat} : (s.setBulk a b).get64 g j = s.get64 g j := (rfl)
@[simp] theorem State.setBulk_reg {a : Nat} {b : Byte} {q : Nat} : (s.setBulk a b).reg q = s.reg q := (rfl)

/-! ### setPailByte -/

@[simp] theorem State.setPailByte_pending {a : Nat} {b : Byte} : (s.setPailByte a b).pending = s.pending := (rfl)
@[simp] theorem State.setPailByte_now {a : Nat} {b : Byte} : (s.setPailByte a b).now = s.now := (rfl)
@[simp] theorem State.setPailByte_uptime {a : Nat} {b : Byte} : (s.setPailByte a b).uptime = s.uptime := (rfl)
@[simp] theorem State.setPailByte_regs {a : Nat} {b : Byte} : (s.setPailByte a b).regs = s.regs := (rfl)
@[simp] theorem State.setPailByte_hiLatch {a : Nat} {b : Byte} : (s.setPailByte a b).hiLatch = s.hiLatch := (rfl)
@[simp] theorem State.setPailByte_bulk {a : Nat} {b : Byte} : (s.setPailByte a b).bulk = s.bulk := (rfl)
@[simp] theorem State.setPailByte_retSram {a : Nat} {b : Byte} : (s.setPailByte a b).retSram = s.retSram := (rfl)
@[simp] theorem State.setPailByte_tallyRam {a : Nat} {b : Byte} : (s.setPailByte a b).tallyRam = s.tallyRam := (rfl)
@[simp] theorem State.setPailByte_flash {a : Nat} {b : Byte} : (s.setPailByte a b).flash = s.flash := (rfl)
@[simp] theorem State.setPailByte_outs {a : Nat} {b : Byte} : (s.setPailByte a b).outs = s.outs := (rfl)
@[simp] theorem State.setPailByte_freeCount {a : Nat} {b : Byte} : (s.setPailByte a b).freeCount = s.freeCount := (rfl)
@[simp] theorem State.setPailByte_sys {a : Nat} {b : Byte} : (s.setPailByte a b).sys = s.sys := (rfl)
@[simp] theorem State.setPailByte_str {a : Nat} {b : Byte} : (s.setPailByte a b).str = s.str := (rfl)
@[simp] theorem State.setPailByte_eng {a : Nat} {b : Byte} : (s.setPailByte a b).eng = s.eng := (rfl)
@[simp] theorem State.setPailByte_sig {a : Nat} {b : Byte} : (s.setPailByte a b).sig = s.sig := (rfl)
@[simp] theorem State.setPailByte_cmd {a : Nat} {b : Byte} : (s.setPailByte a b).cmd = s.cmd := (rfl)
@[simp] theorem State.setPailByte_par {a : Nat} {b : Byte} : (s.setPailByte a b).par = s.par := (rfl)
@[simp] theorem State.setPailByte_host {a : Nat} {b : Byte} : (s.setPailByte a b).host = s.host := (rfl)
@[simp] theorem State.setPailByte_tly {a : Nat} {b : Byte} : (s.setPailByte a b).tly = s.tly := (rfl)
@[simp] theorem State.setPailByte_flt {a : Nat} {b : Byte} : (s.setPailByte a b).flt = s.flt := (rfl)
@[simp] theorem State.setPailByte_red {a : Nat} {b : Byte} : (s.setPailByte a b).red = s.red := (rfl)
@[simp] theorem State.setPailByte_ing {a : Nat} {b : Byte} : (s.setPailByte a b).ing = s.ing := (rfl)
@[simp] theorem State.setPailByte_frames {a : Nat} {b : Byte} : (s.setPailByte a b).frames = s.frames := (rfl)
@[simp] theorem State.setPailByte_layerKeep {a : Nat} {b : Byte} : (s.setPailByte a b).layerKeep = s.layerKeep := (rfl)
@[simp] theorem State.setPailByte_mem {a : Nat} {b : Byte} : (s.setPailByte a b).mem = s.mem := (rfl)
@[simp] theorem State.setPailByte_cmp {a : Nat} {b : Byte} : (s.setPailByte a b).cmp = s.cmp := (rfl)
@[simp] theorem State.setPailByte_cal {a : Nat} {b : Byte} : (s.setPailByte a b).cal = s.cal := (rfl)
@[simp] theorem State.setPailByte_sep {a : Nat} {b : Byte} : (s.setPailByte a b).sep = s.sep := (rfl)
@[simp] theorem State.setPailByte_gov {a : Nat} {b : Byte} : (s.setPailByte a b).gov = s.gov := (rfl)
@[simp] theorem State.setPailByte_links {a : Nat} {b : Byte} : (s.setPailByte a b).links = s.links := (rfl)
@[simp] theorem State.setPailByte_dvl {a : Nat} {b : Byte} : (s.setPailByte a b).dvl = s.dvl := (rfl)
@[simp] theorem State.setPailByte_fix {a : Nat} {b : Byte} : (s.setPailByte a b).fix = s.fix := (rfl)
@[simp] theorem State.setPailByte_ddp {a : Nat} {b : Byte} : (s.setPailByte a b).ddp = s.ddp := (rfl)
@[simp] theorem State.setPailByte_tim {a : Nat} {b : Byte} : (s.setPailByte a b).tim = s.tim := (rfl)
@[simp] theorem State.setPailByte_fuses {a : Nat} {b : Byte} : (s.setPailByte a b).fuses = s.fuses := (rfl)
@[simp] theorem State.setPailByte_pwr {a : Nat} {b : Byte} : (s.setPailByte a b).pwr = s.pwr := (rfl)
@[simp] theorem State.setPailByte_upd {a : Nat} {b : Byte} : (s.setPailByte a b).upd = s.upd := (rfl)
@[simp] theorem State.setPailByte_get {a : Nat} {b : Byte} {g : Field} {j : Nat} : (s.setPailByte a b).get g j = s.get g j := (rfl)
@[simp] theorem State.setPailByte_flag {a : Nat} {b : Byte} {g : Field} {j : Nat} : (s.setPailByte a b).flag g j = s.flag g j := (rfl)
@[simp] theorem State.setPailByte_get64 {a : Nat} {b : Byte} {g : Field} {j : Nat} : (s.setPailByte a b).get64 g j = s.get64 g j := (rfl)
@[simp] theorem State.setPailByte_reg {a : Nat} {b : Byte} {q : Nat} : (s.setPailByte a b).reg q = s.reg q := (rfl)

/-! ### setRet -/

@[simp] theorem State.setRet_pending {a : Nat} {b : Byte} : (s.setRet a b).pending = s.pending := (rfl)
@[simp] theorem State.setRet_now {a : Nat} {b : Byte} : (s.setRet a b).now = s.now := (rfl)
@[simp] theorem State.setRet_uptime {a : Nat} {b : Byte} : (s.setRet a b).uptime = s.uptime := (rfl)
@[simp] theorem State.setRet_regs {a : Nat} {b : Byte} : (s.setRet a b).regs = s.regs := (rfl)
@[simp] theorem State.setRet_hiLatch {a : Nat} {b : Byte} : (s.setRet a b).hiLatch = s.hiLatch := (rfl)
@[simp] theorem State.setRet_bulk {a : Nat} {b : Byte} : (s.setRet a b).bulk = s.bulk := (rfl)
@[simp] theorem State.setRet_pailMem {a : Nat} {b : Byte} : (s.setRet a b).pailMem = s.pailMem := (rfl)
@[simp] theorem State.setRet_tallyRam {a : Nat} {b : Byte} : (s.setRet a b).tallyRam = s.tallyRam := (rfl)
@[simp] theorem State.setRet_flash {a : Nat} {b : Byte} : (s.setRet a b).flash = s.flash := (rfl)
@[simp] theorem State.setRet_outs {a : Nat} {b : Byte} : (s.setRet a b).outs = s.outs := (rfl)
@[simp] theorem State.setRet_freeCount {a : Nat} {b : Byte} : (s.setRet a b).freeCount = s.freeCount := (rfl)
@[simp] theorem State.setRet_sys {a : Nat} {b : Byte} : (s.setRet a b).sys = s.sys := (rfl)
@[simp] theorem State.setRet_str {a : Nat} {b : Byte} : (s.setRet a b).str = s.str := (rfl)
@[simp] theorem State.setRet_eng {a : Nat} {b : Byte} : (s.setRet a b).eng = s.eng := (rfl)
@[simp] theorem State.setRet_sig {a : Nat} {b : Byte} : (s.setRet a b).sig = s.sig := (rfl)
@[simp] theorem State.setRet_cmd {a : Nat} {b : Byte} : (s.setRet a b).cmd = s.cmd := (rfl)
@[simp] theorem State.setRet_par {a : Nat} {b : Byte} : (s.setRet a b).par = s.par := (rfl)
@[simp] theorem State.setRet_host {a : Nat} {b : Byte} : (s.setRet a b).host = s.host := (rfl)
@[simp] theorem State.setRet_tly {a : Nat} {b : Byte} : (s.setRet a b).tly = s.tly := (rfl)
@[simp] theorem State.setRet_flt {a : Nat} {b : Byte} : (s.setRet a b).flt = s.flt := (rfl)
@[simp] theorem State.setRet_red {a : Nat} {b : Byte} : (s.setRet a b).red = s.red := (rfl)
@[simp] theorem State.setRet_ing {a : Nat} {b : Byte} : (s.setRet a b).ing = s.ing := (rfl)
@[simp] theorem State.setRet_frames {a : Nat} {b : Byte} : (s.setRet a b).frames = s.frames := (rfl)
@[simp] theorem State.setRet_layerKeep {a : Nat} {b : Byte} : (s.setRet a b).layerKeep = s.layerKeep := (rfl)
@[simp] theorem State.setRet_mem {a : Nat} {b : Byte} : (s.setRet a b).mem = s.mem := (rfl)
@[simp] theorem State.setRet_cmp {a : Nat} {b : Byte} : (s.setRet a b).cmp = s.cmp := (rfl)
@[simp] theorem State.setRet_cal {a : Nat} {b : Byte} : (s.setRet a b).cal = s.cal := (rfl)
@[simp] theorem State.setRet_sep {a : Nat} {b : Byte} : (s.setRet a b).sep = s.sep := (rfl)
@[simp] theorem State.setRet_gov {a : Nat} {b : Byte} : (s.setRet a b).gov = s.gov := (rfl)
@[simp] theorem State.setRet_links {a : Nat} {b : Byte} : (s.setRet a b).links = s.links := (rfl)
@[simp] theorem State.setRet_dvl {a : Nat} {b : Byte} : (s.setRet a b).dvl = s.dvl := (rfl)
@[simp] theorem State.setRet_fix {a : Nat} {b : Byte} : (s.setRet a b).fix = s.fix := (rfl)
@[simp] theorem State.setRet_ddp {a : Nat} {b : Byte} : (s.setRet a b).ddp = s.ddp := (rfl)
@[simp] theorem State.setRet_tim {a : Nat} {b : Byte} : (s.setRet a b).tim = s.tim := (rfl)
@[simp] theorem State.setRet_fuses {a : Nat} {b : Byte} : (s.setRet a b).fuses = s.fuses := (rfl)
@[simp] theorem State.setRet_pwr {a : Nat} {b : Byte} : (s.setRet a b).pwr = s.pwr := (rfl)
@[simp] theorem State.setRet_upd {a : Nat} {b : Byte} : (s.setRet a b).upd = s.upd := (rfl)
@[simp] theorem State.setRet_get {a : Nat} {b : Byte} {g : Field} {j : Nat} : (s.setRet a b).get g j = s.get g j := (rfl)
@[simp] theorem State.setRet_flag {a : Nat} {b : Byte} {g : Field} {j : Nat} : (s.setRet a b).flag g j = s.flag g j := (rfl)
@[simp] theorem State.setRet_get64 {a : Nat} {b : Byte} {g : Field} {j : Nat} : (s.setRet a b).get64 g j = s.get64 g j := (rfl)
@[simp] theorem State.setRet_reg {a : Nat} {b : Byte} {q : Nat} : (s.setRet a b).reg q = s.reg q := (rfl)

/-! ### setTallyByte -/

@[simp] theorem State.setTallyByte_pending {a : Nat} {b : Byte} : (s.setTallyByte a b).pending = s.pending := (rfl)
@[simp] theorem State.setTallyByte_now {a : Nat} {b : Byte} : (s.setTallyByte a b).now = s.now := (rfl)
@[simp] theorem State.setTallyByte_uptime {a : Nat} {b : Byte} : (s.setTallyByte a b).uptime = s.uptime := (rfl)
@[simp] theorem State.setTallyByte_regs {a : Nat} {b : Byte} : (s.setTallyByte a b).regs = s.regs := (rfl)
@[simp] theorem State.setTallyByte_hiLatch {a : Nat} {b : Byte} : (s.setTallyByte a b).hiLatch = s.hiLatch := (rfl)
@[simp] theorem State.setTallyByte_bulk {a : Nat} {b : Byte} : (s.setTallyByte a b).bulk = s.bulk := (rfl)
@[simp] theorem State.setTallyByte_pailMem {a : Nat} {b : Byte} : (s.setTallyByte a b).pailMem = s.pailMem := (rfl)
@[simp] theorem State.setTallyByte_retSram {a : Nat} {b : Byte} : (s.setTallyByte a b).retSram = s.retSram := (rfl)
@[simp] theorem State.setTallyByte_flash {a : Nat} {b : Byte} : (s.setTallyByte a b).flash = s.flash := (rfl)
@[simp] theorem State.setTallyByte_outs {a : Nat} {b : Byte} : (s.setTallyByte a b).outs = s.outs := (rfl)
@[simp] theorem State.setTallyByte_freeCount {a : Nat} {b : Byte} : (s.setTallyByte a b).freeCount = s.freeCount := (rfl)
@[simp] theorem State.setTallyByte_sys {a : Nat} {b : Byte} : (s.setTallyByte a b).sys = s.sys := (rfl)
@[simp] theorem State.setTallyByte_str {a : Nat} {b : Byte} : (s.setTallyByte a b).str = s.str := (rfl)
@[simp] theorem State.setTallyByte_eng {a : Nat} {b : Byte} : (s.setTallyByte a b).eng = s.eng := (rfl)
@[simp] theorem State.setTallyByte_sig {a : Nat} {b : Byte} : (s.setTallyByte a b).sig = s.sig := (rfl)
@[simp] theorem State.setTallyByte_cmd {a : Nat} {b : Byte} : (s.setTallyByte a b).cmd = s.cmd := (rfl)
@[simp] theorem State.setTallyByte_par {a : Nat} {b : Byte} : (s.setTallyByte a b).par = s.par := (rfl)
@[simp] theorem State.setTallyByte_host {a : Nat} {b : Byte} : (s.setTallyByte a b).host = s.host := (rfl)
@[simp] theorem State.setTallyByte_tly {a : Nat} {b : Byte} : (s.setTallyByte a b).tly = s.tly := (rfl)
@[simp] theorem State.setTallyByte_flt {a : Nat} {b : Byte} : (s.setTallyByte a b).flt = s.flt := (rfl)
@[simp] theorem State.setTallyByte_red {a : Nat} {b : Byte} : (s.setTallyByte a b).red = s.red := (rfl)
@[simp] theorem State.setTallyByte_ing {a : Nat} {b : Byte} : (s.setTallyByte a b).ing = s.ing := (rfl)
@[simp] theorem State.setTallyByte_frames {a : Nat} {b : Byte} : (s.setTallyByte a b).frames = s.frames := (rfl)
@[simp] theorem State.setTallyByte_layerKeep {a : Nat} {b : Byte} : (s.setTallyByte a b).layerKeep = s.layerKeep := (rfl)
@[simp] theorem State.setTallyByte_mem {a : Nat} {b : Byte} : (s.setTallyByte a b).mem = s.mem := (rfl)
@[simp] theorem State.setTallyByte_cmp {a : Nat} {b : Byte} : (s.setTallyByte a b).cmp = s.cmp := (rfl)
@[simp] theorem State.setTallyByte_cal {a : Nat} {b : Byte} : (s.setTallyByte a b).cal = s.cal := (rfl)
@[simp] theorem State.setTallyByte_sep {a : Nat} {b : Byte} : (s.setTallyByte a b).sep = s.sep := (rfl)
@[simp] theorem State.setTallyByte_gov {a : Nat} {b : Byte} : (s.setTallyByte a b).gov = s.gov := (rfl)
@[simp] theorem State.setTallyByte_links {a : Nat} {b : Byte} : (s.setTallyByte a b).links = s.links := (rfl)
@[simp] theorem State.setTallyByte_dvl {a : Nat} {b : Byte} : (s.setTallyByte a b).dvl = s.dvl := (rfl)
@[simp] theorem State.setTallyByte_fix {a : Nat} {b : Byte} : (s.setTallyByte a b).fix = s.fix := (rfl)
@[simp] theorem State.setTallyByte_ddp {a : Nat} {b : Byte} : (s.setTallyByte a b).ddp = s.ddp := (rfl)
@[simp] theorem State.setTallyByte_tim {a : Nat} {b : Byte} : (s.setTallyByte a b).tim = s.tim := (rfl)
@[simp] theorem State.setTallyByte_fuses {a : Nat} {b : Byte} : (s.setTallyByte a b).fuses = s.fuses := (rfl)
@[simp] theorem State.setTallyByte_pwr {a : Nat} {b : Byte} : (s.setTallyByte a b).pwr = s.pwr := (rfl)
@[simp] theorem State.setTallyByte_upd {a : Nat} {b : Byte} : (s.setTallyByte a b).upd = s.upd := (rfl)
@[simp] theorem State.setTallyByte_get {a : Nat} {b : Byte} {g : Field} {j : Nat} : (s.setTallyByte a b).get g j = s.get g j := (rfl)
@[simp] theorem State.setTallyByte_flag {a : Nat} {b : Byte} {g : Field} {j : Nat} : (s.setTallyByte a b).flag g j = s.flag g j := (rfl)
@[simp] theorem State.setTallyByte_get64 {a : Nat} {b : Byte} {g : Field} {j : Nat} : (s.setTallyByte a b).get64 g j = s.get64 g j := (rfl)
@[simp] theorem State.setTallyByte_reg {a : Nat} {b : Byte} {q : Nat} : (s.setTallyByte a b).reg q = s.reg q := (rfl)

/-! ### setFlash -/

@[simp] theorem State.setFlash_pending {a : Nat} {b : Byte} : (s.setFlash a b).pending = s.pending := (rfl)
@[simp] theorem State.setFlash_now {a : Nat} {b : Byte} : (s.setFlash a b).now = s.now := (rfl)
@[simp] theorem State.setFlash_uptime {a : Nat} {b : Byte} : (s.setFlash a b).uptime = s.uptime := (rfl)
@[simp] theorem State.setFlash_regs {a : Nat} {b : Byte} : (s.setFlash a b).regs = s.regs := (rfl)
@[simp] theorem State.setFlash_hiLatch {a : Nat} {b : Byte} : (s.setFlash a b).hiLatch = s.hiLatch := (rfl)
@[simp] theorem State.setFlash_bulk {a : Nat} {b : Byte} : (s.setFlash a b).bulk = s.bulk := (rfl)
@[simp] theorem State.setFlash_pailMem {a : Nat} {b : Byte} : (s.setFlash a b).pailMem = s.pailMem := (rfl)
@[simp] theorem State.setFlash_retSram {a : Nat} {b : Byte} : (s.setFlash a b).retSram = s.retSram := (rfl)
@[simp] theorem State.setFlash_tallyRam {a : Nat} {b : Byte} : (s.setFlash a b).tallyRam = s.tallyRam := (rfl)
@[simp] theorem State.setFlash_outs {a : Nat} {b : Byte} : (s.setFlash a b).outs = s.outs := (rfl)
@[simp] theorem State.setFlash_freeCount {a : Nat} {b : Byte} : (s.setFlash a b).freeCount = s.freeCount := (rfl)
@[simp] theorem State.setFlash_sys {a : Nat} {b : Byte} : (s.setFlash a b).sys = s.sys := (rfl)
@[simp] theorem State.setFlash_str {a : Nat} {b : Byte} : (s.setFlash a b).str = s.str := (rfl)
@[simp] theorem State.setFlash_eng {a : Nat} {b : Byte} : (s.setFlash a b).eng = s.eng := (rfl)
@[simp] theorem State.setFlash_sig {a : Nat} {b : Byte} : (s.setFlash a b).sig = s.sig := (rfl)
@[simp] theorem State.setFlash_cmd {a : Nat} {b : Byte} : (s.setFlash a b).cmd = s.cmd := (rfl)
@[simp] theorem State.setFlash_par {a : Nat} {b : Byte} : (s.setFlash a b).par = s.par := (rfl)
@[simp] theorem State.setFlash_host {a : Nat} {b : Byte} : (s.setFlash a b).host = s.host := (rfl)
@[simp] theorem State.setFlash_tly {a : Nat} {b : Byte} : (s.setFlash a b).tly = s.tly := (rfl)
@[simp] theorem State.setFlash_flt {a : Nat} {b : Byte} : (s.setFlash a b).flt = s.flt := (rfl)
@[simp] theorem State.setFlash_red {a : Nat} {b : Byte} : (s.setFlash a b).red = s.red := (rfl)
@[simp] theorem State.setFlash_ing {a : Nat} {b : Byte} : (s.setFlash a b).ing = s.ing := (rfl)
@[simp] theorem State.setFlash_frames {a : Nat} {b : Byte} : (s.setFlash a b).frames = s.frames := (rfl)
@[simp] theorem State.setFlash_layerKeep {a : Nat} {b : Byte} : (s.setFlash a b).layerKeep = s.layerKeep := (rfl)
@[simp] theorem State.setFlash_mem {a : Nat} {b : Byte} : (s.setFlash a b).mem = s.mem := (rfl)
@[simp] theorem State.setFlash_cmp {a : Nat} {b : Byte} : (s.setFlash a b).cmp = s.cmp := (rfl)
@[simp] theorem State.setFlash_cal {a : Nat} {b : Byte} : (s.setFlash a b).cal = s.cal := (rfl)
@[simp] theorem State.setFlash_sep {a : Nat} {b : Byte} : (s.setFlash a b).sep = s.sep := (rfl)
@[simp] theorem State.setFlash_gov {a : Nat} {b : Byte} : (s.setFlash a b).gov = s.gov := (rfl)
@[simp] theorem State.setFlash_links {a : Nat} {b : Byte} : (s.setFlash a b).links = s.links := (rfl)
@[simp] theorem State.setFlash_dvl {a : Nat} {b : Byte} : (s.setFlash a b).dvl = s.dvl := (rfl)
@[simp] theorem State.setFlash_fix {a : Nat} {b : Byte} : (s.setFlash a b).fix = s.fix := (rfl)
@[simp] theorem State.setFlash_ddp {a : Nat} {b : Byte} : (s.setFlash a b).ddp = s.ddp := (rfl)
@[simp] theorem State.setFlash_tim {a : Nat} {b : Byte} : (s.setFlash a b).tim = s.tim := (rfl)
@[simp] theorem State.setFlash_fuses {a : Nat} {b : Byte} : (s.setFlash a b).fuses = s.fuses := (rfl)
@[simp] theorem State.setFlash_pwr {a : Nat} {b : Byte} : (s.setFlash a b).pwr = s.pwr := (rfl)
@[simp] theorem State.setFlash_upd {a : Nat} {b : Byte} : (s.setFlash a b).upd = s.upd := (rfl)
@[simp] theorem State.setFlash_get {a : Nat} {b : Byte} {g : Field} {j : Nat} : (s.setFlash a b).get g j = s.get g j := (rfl)
@[simp] theorem State.setFlash_flag {a : Nat} {b : Byte} {g : Field} {j : Nat} : (s.setFlash a b).flag g j = s.flag g j := (rfl)
@[simp] theorem State.setFlash_get64 {a : Nat} {b : Byte} {g : Field} {j : Nat} : (s.setFlash a b).get64 g j = s.get64 g j := (rfl)
@[simp] theorem State.setFlash_reg {a : Nat} {b : Byte} {q : Nat} : (s.setFlash a b).reg q = s.reg q := (rfl)

/-! ### keepFlash -/

@[simp] theorem State.keepFlash_pending {p : Nat → Bool} : (s.keepFlash p).pending = s.pending := (rfl)
@[simp] theorem State.keepFlash_now {p : Nat → Bool} : (s.keepFlash p).now = s.now := (rfl)
@[simp] theorem State.keepFlash_uptime {p : Nat → Bool} : (s.keepFlash p).uptime = s.uptime := (rfl)
@[simp] theorem State.keepFlash_regs {p : Nat → Bool} : (s.keepFlash p).regs = s.regs := (rfl)
@[simp] theorem State.keepFlash_hiLatch {p : Nat → Bool} : (s.keepFlash p).hiLatch = s.hiLatch := (rfl)
@[simp] theorem State.keepFlash_bulk {p : Nat → Bool} : (s.keepFlash p).bulk = s.bulk := (rfl)
@[simp] theorem State.keepFlash_pailMem {p : Nat → Bool} : (s.keepFlash p).pailMem = s.pailMem := (rfl)
@[simp] theorem State.keepFlash_retSram {p : Nat → Bool} : (s.keepFlash p).retSram = s.retSram := (rfl)
@[simp] theorem State.keepFlash_tallyRam {p : Nat → Bool} : (s.keepFlash p).tallyRam = s.tallyRam := (rfl)
@[simp] theorem State.keepFlash_outs {p : Nat → Bool} : (s.keepFlash p).outs = s.outs := (rfl)
@[simp] theorem State.keepFlash_freeCount {p : Nat → Bool} : (s.keepFlash p).freeCount = s.freeCount := (rfl)
@[simp] theorem State.keepFlash_sys {p : Nat → Bool} : (s.keepFlash p).sys = s.sys := (rfl)
@[simp] theorem State.keepFlash_str {p : Nat → Bool} : (s.keepFlash p).str = s.str := (rfl)
@[simp] theorem State.keepFlash_eng {p : Nat → Bool} : (s.keepFlash p).eng = s.eng := (rfl)
@[simp] theorem State.keepFlash_sig {p : Nat → Bool} : (s.keepFlash p).sig = s.sig := (rfl)
@[simp] theorem State.keepFlash_cmd {p : Nat → Bool} : (s.keepFlash p).cmd = s.cmd := (rfl)
@[simp] theorem State.keepFlash_par {p : Nat → Bool} : (s.keepFlash p).par = s.par := (rfl)
@[simp] theorem State.keepFlash_host {p : Nat → Bool} : (s.keepFlash p).host = s.host := (rfl)
@[simp] theorem State.keepFlash_tly {p : Nat → Bool} : (s.keepFlash p).tly = s.tly := (rfl)
@[simp] theorem State.keepFlash_flt {p : Nat → Bool} : (s.keepFlash p).flt = s.flt := (rfl)
@[simp] theorem State.keepFlash_red {p : Nat → Bool} : (s.keepFlash p).red = s.red := (rfl)
@[simp] theorem State.keepFlash_ing {p : Nat → Bool} : (s.keepFlash p).ing = s.ing := (rfl)
@[simp] theorem State.keepFlash_frames {p : Nat → Bool} : (s.keepFlash p).frames = s.frames := (rfl)
@[simp] theorem State.keepFlash_layerKeep {p : Nat → Bool} : (s.keepFlash p).layerKeep = s.layerKeep := (rfl)
@[simp] theorem State.keepFlash_mem {p : Nat → Bool} : (s.keepFlash p).mem = s.mem := (rfl)
@[simp] theorem State.keepFlash_cmp {p : Nat → Bool} : (s.keepFlash p).cmp = s.cmp := (rfl)
@[simp] theorem State.keepFlash_cal {p : Nat → Bool} : (s.keepFlash p).cal = s.cal := (rfl)
@[simp] theorem State.keepFlash_sep {p : Nat → Bool} : (s.keepFlash p).sep = s.sep := (rfl)
@[simp] theorem State.keepFlash_gov {p : Nat → Bool} : (s.keepFlash p).gov = s.gov := (rfl)
@[simp] theorem State.keepFlash_links {p : Nat → Bool} : (s.keepFlash p).links = s.links := (rfl)
@[simp] theorem State.keepFlash_dvl {p : Nat → Bool} : (s.keepFlash p).dvl = s.dvl := (rfl)
@[simp] theorem State.keepFlash_fix {p : Nat → Bool} : (s.keepFlash p).fix = s.fix := (rfl)
@[simp] theorem State.keepFlash_ddp {p : Nat → Bool} : (s.keepFlash p).ddp = s.ddp := (rfl)
@[simp] theorem State.keepFlash_tim {p : Nat → Bool} : (s.keepFlash p).tim = s.tim := (rfl)
@[simp] theorem State.keepFlash_fuses {p : Nat → Bool} : (s.keepFlash p).fuses = s.fuses := (rfl)
@[simp] theorem State.keepFlash_pwr {p : Nat → Bool} : (s.keepFlash p).pwr = s.pwr := (rfl)
@[simp] theorem State.keepFlash_upd {p : Nat → Bool} : (s.keepFlash p).upd = s.upd := (rfl)
@[simp] theorem State.keepFlash_get {p : Nat → Bool} {g : Field} {j : Nat} : (s.keepFlash p).get g j = s.get g j := (rfl)
@[simp] theorem State.keepFlash_flag {p : Nat → Bool} {g : Field} {j : Nat} : (s.keepFlash p).flag g j = s.flag g j := (rfl)
@[simp] theorem State.keepFlash_get64 {p : Nat → Bool} {g : Field} {j : Nat} : (s.keepFlash p).get64 g j = s.get64 g j := (rfl)
@[simp] theorem State.keepFlash_reg {p : Nat → Bool} {q : Nat} : (s.keepFlash p).reg q = s.reg q := (rfl)

/-! ### clearPailMem -/

@[simp] theorem State.clearPailMem_pending : (s.clearPailMem).pending = s.pending := (rfl)
@[simp] theorem State.clearPailMem_now : (s.clearPailMem).now = s.now := (rfl)
@[simp] theorem State.clearPailMem_uptime : (s.clearPailMem).uptime = s.uptime := (rfl)
@[simp] theorem State.clearPailMem_regs : (s.clearPailMem).regs = s.regs := (rfl)
@[simp] theorem State.clearPailMem_hiLatch : (s.clearPailMem).hiLatch = s.hiLatch := (rfl)
@[simp] theorem State.clearPailMem_bulk : (s.clearPailMem).bulk = s.bulk := (rfl)
@[simp] theorem State.clearPailMem_retSram : (s.clearPailMem).retSram = s.retSram := (rfl)
@[simp] theorem State.clearPailMem_tallyRam : (s.clearPailMem).tallyRam = s.tallyRam := (rfl)
@[simp] theorem State.clearPailMem_flash : (s.clearPailMem).flash = s.flash := (rfl)
@[simp] theorem State.clearPailMem_outs : (s.clearPailMem).outs = s.outs := (rfl)
@[simp] theorem State.clearPailMem_freeCount : (s.clearPailMem).freeCount = s.freeCount := (rfl)
@[simp] theorem State.clearPailMem_sys : (s.clearPailMem).sys = s.sys := (rfl)
@[simp] theorem State.clearPailMem_str : (s.clearPailMem).str = s.str := (rfl)
@[simp] theorem State.clearPailMem_eng : (s.clearPailMem).eng = s.eng := (rfl)
@[simp] theorem State.clearPailMem_sig : (s.clearPailMem).sig = s.sig := (rfl)
@[simp] theorem State.clearPailMem_cmd : (s.clearPailMem).cmd = s.cmd := (rfl)
@[simp] theorem State.clearPailMem_par : (s.clearPailMem).par = s.par := (rfl)
@[simp] theorem State.clearPailMem_host : (s.clearPailMem).host = s.host := (rfl)
@[simp] theorem State.clearPailMem_tly : (s.clearPailMem).tly = s.tly := (rfl)
@[simp] theorem State.clearPailMem_flt : (s.clearPailMem).flt = s.flt := (rfl)
@[simp] theorem State.clearPailMem_red : (s.clearPailMem).red = s.red := (rfl)
@[simp] theorem State.clearPailMem_ing : (s.clearPailMem).ing = s.ing := (rfl)
@[simp] theorem State.clearPailMem_frames : (s.clearPailMem).frames = s.frames := (rfl)
@[simp] theorem State.clearPailMem_layerKeep : (s.clearPailMem).layerKeep = s.layerKeep := (rfl)
@[simp] theorem State.clearPailMem_mem : (s.clearPailMem).mem = s.mem := (rfl)
@[simp] theorem State.clearPailMem_cmp : (s.clearPailMem).cmp = s.cmp := (rfl)
@[simp] theorem State.clearPailMem_cal : (s.clearPailMem).cal = s.cal := (rfl)
@[simp] theorem State.clearPailMem_sep : (s.clearPailMem).sep = s.sep := (rfl)
@[simp] theorem State.clearPailMem_gov : (s.clearPailMem).gov = s.gov := (rfl)
@[simp] theorem State.clearPailMem_links : (s.clearPailMem).links = s.links := (rfl)
@[simp] theorem State.clearPailMem_dvl : (s.clearPailMem).dvl = s.dvl := (rfl)
@[simp] theorem State.clearPailMem_fix : (s.clearPailMem).fix = s.fix := (rfl)
@[simp] theorem State.clearPailMem_ddp : (s.clearPailMem).ddp = s.ddp := (rfl)
@[simp] theorem State.clearPailMem_tim : (s.clearPailMem).tim = s.tim := (rfl)
@[simp] theorem State.clearPailMem_fuses : (s.clearPailMem).fuses = s.fuses := (rfl)
@[simp] theorem State.clearPailMem_pwr : (s.clearPailMem).pwr = s.pwr := (rfl)
@[simp] theorem State.clearPailMem_upd : (s.clearPailMem).upd = s.upd := (rfl)
@[simp] theorem State.clearPailMem_get {g : Field} {j : Nat} : (s.clearPailMem).get g j = s.get g j := (rfl)
@[simp] theorem State.clearPailMem_flag {g : Field} {j : Nat} : (s.clearPailMem).flag g j = s.flag g j := (rfl)
@[simp] theorem State.clearPailMem_get64 {g : Field} {j : Nat} : (s.clearPailMem).get64 g j = s.get64 g j := (rfl)
@[simp] theorem State.clearPailMem_reg {q : Nat} : (s.clearPailMem).reg q = s.reg q := (rfl)

/-! ### setLimits -/

@[simp] theorem State.setLimits_pending {l : List RateLimit} : (s.setLimits l).pending = s.pending := (rfl)
@[simp] theorem State.setLimits_now {l : List RateLimit} : (s.setLimits l).now = s.now := (rfl)
@[simp] theorem State.setLimits_uptime {l : List RateLimit} : (s.setLimits l).uptime = s.uptime := (rfl)
@[simp] theorem State.setLimits_regs {l : List RateLimit} : (s.setLimits l).regs = s.regs := (rfl)
@[simp] theorem State.setLimits_hiLatch {l : List RateLimit} : (s.setLimits l).hiLatch = s.hiLatch := (rfl)
@[simp] theorem State.setLimits_bulk {l : List RateLimit} : (s.setLimits l).bulk = s.bulk := (rfl)
@[simp] theorem State.setLimits_pailMem {l : List RateLimit} : (s.setLimits l).pailMem = s.pailMem := (rfl)
@[simp] theorem State.setLimits_retSram {l : List RateLimit} : (s.setLimits l).retSram = s.retSram := (rfl)
@[simp] theorem State.setLimits_tallyRam {l : List RateLimit} : (s.setLimits l).tallyRam = s.tallyRam := (rfl)
@[simp] theorem State.setLimits_flash {l : List RateLimit} : (s.setLimits l).flash = s.flash := (rfl)
@[simp] theorem State.setLimits_outs {l : List RateLimit} : (s.setLimits l).outs = s.outs := (rfl)
@[simp] theorem State.setLimits_freeCount {l : List RateLimit} : (s.setLimits l).freeCount = s.freeCount := (rfl)
@[simp] theorem State.setLimits_sys {l : List RateLimit} : (s.setLimits l).sys = s.sys := (rfl)
@[simp] theorem State.setLimits_str {l : List RateLimit} : (s.setLimits l).str = s.str := (rfl)
@[simp] theorem State.setLimits_eng {l : List RateLimit} : (s.setLimits l).eng = s.eng := (rfl)
@[simp] theorem State.setLimits_sig {l : List RateLimit} : (s.setLimits l).sig = s.sig := (rfl)
@[simp] theorem State.setLimits_cmd {l : List RateLimit} : (s.setLimits l).cmd = s.cmd := (rfl)
@[simp] theorem State.setLimits_par {l : List RateLimit} : (s.setLimits l).par = s.par := (rfl)
@[simp] theorem State.setLimits_host {l : List RateLimit} : (s.setLimits l).host = s.host := (rfl)
@[simp] theorem State.setLimits_flt {l : List RateLimit} : (s.setLimits l).flt = s.flt := (rfl)
@[simp] theorem State.setLimits_red {l : List RateLimit} : (s.setLimits l).red = s.red := (rfl)
@[simp] theorem State.setLimits_ing {l : List RateLimit} : (s.setLimits l).ing = s.ing := (rfl)
@[simp] theorem State.setLimits_frames {l : List RateLimit} : (s.setLimits l).frames = s.frames := (rfl)
@[simp] theorem State.setLimits_layerKeep {l : List RateLimit} : (s.setLimits l).layerKeep = s.layerKeep := (rfl)
@[simp] theorem State.setLimits_mem {l : List RateLimit} : (s.setLimits l).mem = s.mem := (rfl)
@[simp] theorem State.setLimits_cmp {l : List RateLimit} : (s.setLimits l).cmp = s.cmp := (rfl)
@[simp] theorem State.setLimits_cal {l : List RateLimit} : (s.setLimits l).cal = s.cal := (rfl)
@[simp] theorem State.setLimits_sep {l : List RateLimit} : (s.setLimits l).sep = s.sep := (rfl)
@[simp] theorem State.setLimits_gov {l : List RateLimit} : (s.setLimits l).gov = s.gov := (rfl)
@[simp] theorem State.setLimits_links {l : List RateLimit} : (s.setLimits l).links = s.links := (rfl)
@[simp] theorem State.setLimits_dvl {l : List RateLimit} : (s.setLimits l).dvl = s.dvl := (rfl)
@[simp] theorem State.setLimits_fix {l : List RateLimit} : (s.setLimits l).fix = s.fix := (rfl)
@[simp] theorem State.setLimits_ddp {l : List RateLimit} : (s.setLimits l).ddp = s.ddp := (rfl)
@[simp] theorem State.setLimits_tim {l : List RateLimit} : (s.setLimits l).tim = s.tim := (rfl)
@[simp] theorem State.setLimits_fuses {l : List RateLimit} : (s.setLimits l).fuses = s.fuses := (rfl)
@[simp] theorem State.setLimits_pwr {l : List RateLimit} : (s.setLimits l).pwr = s.pwr := (rfl)
@[simp] theorem State.setLimits_upd {l : List RateLimit} : (s.setLimits l).upd = s.upd := (rfl)
@[simp] theorem State.setLimits_tly {l : List RateLimit} : (s.setLimits l).tly = { s.tly with limits := l } := (rfl)
@[simp] theorem State.setLimits_get {l : List RateLimit} {g : Field} {j : Nat} : (s.setLimits l).get g j = s.get g j := (rfl)
@[simp] theorem State.setLimits_flag {l : List RateLimit} {g : Field} {j : Nat} : (s.setLimits l).flag g j = s.flag g j := (rfl)
@[simp] theorem State.setLimits_get64 {l : List RateLimit} {g : Field} {j : Nat} : (s.setLimits l).get64 g j = s.get64 g j := (rfl)
@[simp] theorem State.setLimits_reg {l : List RateLimit} {q : Nat} : (s.setLimits l).reg q = s.reg q := (rfl)

/-! ### modChan -/

@[simp] theorem State.modChan_pending {k i : Nat} {f : Chan → Chan} : (s.modChan k i f).pending = s.pending := (rfl)
@[simp] theorem State.modChan_now {k i : Nat} {f : Chan → Chan} : (s.modChan k i f).now = s.now := (rfl)
@[simp] theorem State.modChan_uptime {k i : Nat} {f : Chan → Chan} : (s.modChan k i f).uptime = s.uptime := (rfl)
@[simp] theorem State.modChan_regs {k i : Nat} {f : Chan → Chan} : (s.modChan k i f).regs = s.regs := (rfl)
@[simp] theorem State.modChan_hiLatch {k i : Nat} {f : Chan → Chan} : (s.modChan k i f).hiLatch = s.hiLatch := (rfl)
@[simp] theorem State.modChan_bulk {k i : Nat} {f : Chan → Chan} : (s.modChan k i f).bulk = s.bulk := (rfl)
@[simp] theorem State.modChan_pailMem {k i : Nat} {f : Chan → Chan} : (s.modChan k i f).pailMem = s.pailMem := (rfl)
@[simp] theorem State.modChan_retSram {k i : Nat} {f : Chan → Chan} : (s.modChan k i f).retSram = s.retSram := (rfl)
@[simp] theorem State.modChan_tallyRam {k i : Nat} {f : Chan → Chan} : (s.modChan k i f).tallyRam = s.tallyRam := (rfl)
@[simp] theorem State.modChan_flash {k i : Nat} {f : Chan → Chan} : (s.modChan k i f).flash = s.flash := (rfl)
@[simp] theorem State.modChan_outs {k i : Nat} {f : Chan → Chan} : (s.modChan k i f).outs = s.outs := (rfl)
@[simp] theorem State.modChan_freeCount {k i : Nat} {f : Chan → Chan} : (s.modChan k i f).freeCount = s.freeCount := (rfl)
@[simp] theorem State.modChan_sys {k i : Nat} {f : Chan → Chan} : (s.modChan k i f).sys = s.sys := (rfl)
@[simp] theorem State.modChan_str {k i : Nat} {f : Chan → Chan} : (s.modChan k i f).str = s.str := (rfl)
@[simp] theorem State.modChan_eng {k i : Nat} {f : Chan → Chan} : (s.modChan k i f).eng = s.eng := (rfl)
@[simp] theorem State.modChan_sig {k i : Nat} {f : Chan → Chan} : (s.modChan k i f).sig = s.sig := (rfl)
@[simp] theorem State.modChan_par {k i : Nat} {f : Chan → Chan} : (s.modChan k i f).par = s.par := (rfl)
@[simp] theorem State.modChan_host {k i : Nat} {f : Chan → Chan} : (s.modChan k i f).host = s.host := (rfl)
@[simp] theorem State.modChan_tly {k i : Nat} {f : Chan → Chan} : (s.modChan k i f).tly = s.tly := (rfl)
@[simp] theorem State.modChan_flt {k i : Nat} {f : Chan → Chan} : (s.modChan k i f).flt = s.flt := (rfl)
@[simp] theorem State.modChan_red {k i : Nat} {f : Chan → Chan} : (s.modChan k i f).red = s.red := (rfl)
@[simp] theorem State.modChan_ing {k i : Nat} {f : Chan → Chan} : (s.modChan k i f).ing = s.ing := (rfl)
@[simp] theorem State.modChan_frames {k i : Nat} {f : Chan → Chan} : (s.modChan k i f).frames = s.frames := (rfl)
@[simp] theorem State.modChan_layerKeep {k i : Nat} {f : Chan → Chan} : (s.modChan k i f).layerKeep = s.layerKeep := (rfl)
@[simp] theorem State.modChan_mem {k i : Nat} {f : Chan → Chan} : (s.modChan k i f).mem = s.mem := (rfl)
@[simp] theorem State.modChan_cmp {k i : Nat} {f : Chan → Chan} : (s.modChan k i f).cmp = s.cmp := (rfl)
@[simp] theorem State.modChan_cal {k i : Nat} {f : Chan → Chan} : (s.modChan k i f).cal = s.cal := (rfl)
@[simp] theorem State.modChan_sep {k i : Nat} {f : Chan → Chan} : (s.modChan k i f).sep = s.sep := (rfl)
@[simp] theorem State.modChan_gov {k i : Nat} {f : Chan → Chan} : (s.modChan k i f).gov = s.gov := (rfl)
@[simp] theorem State.modChan_links {k i : Nat} {f : Chan → Chan} : (s.modChan k i f).links = s.links := (rfl)
@[simp] theorem State.modChan_dvl {k i : Nat} {f : Chan → Chan} : (s.modChan k i f).dvl = s.dvl := (rfl)
@[simp] theorem State.modChan_fix {k i : Nat} {f : Chan → Chan} : (s.modChan k i f).fix = s.fix := (rfl)
@[simp] theorem State.modChan_ddp {k i : Nat} {f : Chan → Chan} : (s.modChan k i f).ddp = s.ddp := (rfl)
@[simp] theorem State.modChan_tim {k i : Nat} {f : Chan → Chan} : (s.modChan k i f).tim = s.tim := (rfl)
@[simp] theorem State.modChan_fuses {k i : Nat} {f : Chan → Chan} : (s.modChan k i f).fuses = s.fuses := (rfl)
@[simp] theorem State.modChan_pwr {k i : Nat} {f : Chan → Chan} : (s.modChan k i f).pwr = s.pwr := (rfl)
@[simp] theorem State.modChan_upd {k i : Nat} {f : Chan → Chan} : (s.modChan k i f).upd = s.upd := (rfl)
@[simp] theorem State.modChan_get {k i : Nat} {f : Chan → Chan} {g : Field} {j : Nat} : (s.modChan k i f).get g j = s.get g j := (rfl)
@[simp] theorem State.modChan_flag {k i : Nat} {f : Chan → Chan} {g : Field} {j : Nat} : (s.modChan k i f).flag g j = s.flag g j := (rfl)
@[simp] theorem State.modChan_get64 {k i : Nat} {f : Chan → Chan} {g : Field} {j : Nat} : (s.modChan k i f).get64 g j = s.get64 g j := (rfl)
@[simp] theorem State.modChan_reg {k i : Nat} {f : Chan → Chan} {q : Nat} : (s.modChan k i f).reg q = s.reg q := (rfl)

/-! ### modSys -/

@[simp] theorem State.modSys_pending {f : Sys → Sys} : (s.modSys f).pending = s.pending := (rfl)
@[simp] theorem State.modSys_now {f : Sys → Sys} : (s.modSys f).now = s.now := (rfl)
@[simp] theorem State.modSys_uptime {f : Sys → Sys} : (s.modSys f).uptime = s.uptime := (rfl)
@[simp] theorem State.modSys_regs {f : Sys → Sys} : (s.modSys f).regs = s.regs := (rfl)
@[simp] theorem State.modSys_hiLatch {f : Sys → Sys} : (s.modSys f).hiLatch = s.hiLatch := (rfl)
@[simp] theorem State.modSys_bulk {f : Sys → Sys} : (s.modSys f).bulk = s.bulk := (rfl)
@[simp] theorem State.modSys_pailMem {f : Sys → Sys} : (s.modSys f).pailMem = s.pailMem := (rfl)
@[simp] theorem State.modSys_retSram {f : Sys → Sys} : (s.modSys f).retSram = s.retSram := (rfl)
@[simp] theorem State.modSys_tallyRam {f : Sys → Sys} : (s.modSys f).tallyRam = s.tallyRam := (rfl)
@[simp] theorem State.modSys_flash {f : Sys → Sys} : (s.modSys f).flash = s.flash := (rfl)
@[simp] theorem State.modSys_outs {f : Sys → Sys} : (s.modSys f).outs = s.outs := (rfl)
@[simp] theorem State.modSys_freeCount {f : Sys → Sys} : (s.modSys f).freeCount = s.freeCount := (rfl)
@[simp] theorem State.modSys_str {f : Sys → Sys} : (s.modSys f).str = s.str := (rfl)
@[simp] theorem State.modSys_eng {f : Sys → Sys} : (s.modSys f).eng = s.eng := (rfl)
@[simp] theorem State.modSys_sig {f : Sys → Sys} : (s.modSys f).sig = s.sig := (rfl)
@[simp] theorem State.modSys_cmd {f : Sys → Sys} : (s.modSys f).cmd = s.cmd := (rfl)
@[simp] theorem State.modSys_par {f : Sys → Sys} : (s.modSys f).par = s.par := (rfl)
@[simp] theorem State.modSys_host {f : Sys → Sys} : (s.modSys f).host = s.host := (rfl)
@[simp] theorem State.modSys_tly {f : Sys → Sys} : (s.modSys f).tly = s.tly := (rfl)
@[simp] theorem State.modSys_flt {f : Sys → Sys} : (s.modSys f).flt = s.flt := (rfl)
@[simp] theorem State.modSys_red {f : Sys → Sys} : (s.modSys f).red = s.red := (rfl)
@[simp] theorem State.modSys_ing {f : Sys → Sys} : (s.modSys f).ing = s.ing := (rfl)
@[simp] theorem State.modSys_frames {f : Sys → Sys} : (s.modSys f).frames = s.frames := (rfl)
@[simp] theorem State.modSys_layerKeep {f : Sys → Sys} : (s.modSys f).layerKeep = s.layerKeep := (rfl)
@[simp] theorem State.modSys_mem {f : Sys → Sys} : (s.modSys f).mem = s.mem := (rfl)
@[simp] theorem State.modSys_cmp {f : Sys → Sys} : (s.modSys f).cmp = s.cmp := (rfl)
@[simp] theorem State.modSys_cal {f : Sys → Sys} : (s.modSys f).cal = s.cal := (rfl)
@[simp] theorem State.modSys_sep {f : Sys → Sys} : (s.modSys f).sep = s.sep := (rfl)
@[simp] theorem State.modSys_gov {f : Sys → Sys} : (s.modSys f).gov = s.gov := (rfl)
@[simp] theorem State.modSys_links {f : Sys → Sys} : (s.modSys f).links = s.links := (rfl)
@[simp] theorem State.modSys_dvl {f : Sys → Sys} : (s.modSys f).dvl = s.dvl := (rfl)
@[simp] theorem State.modSys_fix {f : Sys → Sys} : (s.modSys f).fix = s.fix := (rfl)
@[simp] theorem State.modSys_ddp {f : Sys → Sys} : (s.modSys f).ddp = s.ddp := (rfl)
@[simp] theorem State.modSys_tim {f : Sys → Sys} : (s.modSys f).tim = s.tim := (rfl)
@[simp] theorem State.modSys_fuses {f : Sys → Sys} : (s.modSys f).fuses = s.fuses := (rfl)
@[simp] theorem State.modSys_pwr {f : Sys → Sys} : (s.modSys f).pwr = s.pwr := (rfl)
@[simp] theorem State.modSys_upd {f : Sys → Sys} : (s.modSys f).upd = s.upd := (rfl)
@[simp] theorem State.modSys_sys {f : Sys → Sys} : (s.modSys f).sys = f s.sys := (rfl)
@[simp] theorem State.modSys_get {f : Sys → Sys} {g : Field} {j : Nat} : (s.modSys f).get g j = s.get g j := (rfl)
@[simp] theorem State.modSys_flag {f : Sys → Sys} {g : Field} {j : Nat} : (s.modSys f).flag g j = s.flag g j := (rfl)
@[simp] theorem State.modSys_get64 {f : Sys → Sys} {g : Field} {j : Nat} : (s.modSys f).get64 g j = s.get64 g j := (rfl)
@[simp] theorem State.modSys_reg {f : Sys → Sys} {q : Nat} : (s.modSys f).reg q = s.reg q := (rfl)

/-! ### modHost -/

@[simp] theorem State.modHost_pending {f : HostLink → HostLink} : (s.modHost f).pending = s.pending := (rfl)
@[simp] theorem State.modHost_now {f : HostLink → HostLink} : (s.modHost f).now = s.now := (rfl)
@[simp] theorem State.modHost_uptime {f : HostLink → HostLink} : (s.modHost f).uptime = s.uptime := (rfl)
@[simp] theorem State.modHost_regs {f : HostLink → HostLink} : (s.modHost f).regs = s.regs := (rfl)
@[simp] theorem State.modHost_hiLatch {f : HostLink → HostLink} : (s.modHost f).hiLatch = s.hiLatch := (rfl)
@[simp] theorem State.modHost_bulk {f : HostLink → HostLink} : (s.modHost f).bulk = s.bulk := (rfl)
@[simp] theorem State.modHost_pailMem {f : HostLink → HostLink} : (s.modHost f).pailMem = s.pailMem := (rfl)
@[simp] theorem State.modHost_retSram {f : HostLink → HostLink} : (s.modHost f).retSram = s.retSram := (rfl)
@[simp] theorem State.modHost_tallyRam {f : HostLink → HostLink} : (s.modHost f).tallyRam = s.tallyRam := (rfl)
@[simp] theorem State.modHost_flash {f : HostLink → HostLink} : (s.modHost f).flash = s.flash := (rfl)
@[simp] theorem State.modHost_outs {f : HostLink → HostLink} : (s.modHost f).outs = s.outs := (rfl)
@[simp] theorem State.modHost_freeCount {f : HostLink → HostLink} : (s.modHost f).freeCount = s.freeCount := (rfl)
@[simp] theorem State.modHost_sys {f : HostLink → HostLink} : (s.modHost f).sys = s.sys := (rfl)
@[simp] theorem State.modHost_str {f : HostLink → HostLink} : (s.modHost f).str = s.str := (rfl)
@[simp] theorem State.modHost_eng {f : HostLink → HostLink} : (s.modHost f).eng = s.eng := (rfl)
@[simp] theorem State.modHost_sig {f : HostLink → HostLink} : (s.modHost f).sig = s.sig := (rfl)
@[simp] theorem State.modHost_cmd {f : HostLink → HostLink} : (s.modHost f).cmd = s.cmd := (rfl)
@[simp] theorem State.modHost_par {f : HostLink → HostLink} : (s.modHost f).par = s.par := (rfl)
@[simp] theorem State.modHost_tly {f : HostLink → HostLink} : (s.modHost f).tly = s.tly := (rfl)
@[simp] theorem State.modHost_flt {f : HostLink → HostLink} : (s.modHost f).flt = s.flt := (rfl)
@[simp] theorem State.modHost_red {f : HostLink → HostLink} : (s.modHost f).red = s.red := (rfl)
@[simp] theorem State.modHost_ing {f : HostLink → HostLink} : (s.modHost f).ing = s.ing := (rfl)
@[simp] theorem State.modHost_frames {f : HostLink → HostLink} : (s.modHost f).frames = s.frames := (rfl)
@[simp] theorem State.modHost_layerKeep {f : HostLink → HostLink} : (s.modHost f).layerKeep = s.layerKeep := (rfl)
@[simp] theorem State.modHost_mem {f : HostLink → HostLink} : (s.modHost f).mem = s.mem := (rfl)
@[simp] theorem State.modHost_cmp {f : HostLink → HostLink} : (s.modHost f).cmp = s.cmp := (rfl)
@[simp] theorem State.modHost_cal {f : HostLink → HostLink} : (s.modHost f).cal = s.cal := (rfl)
@[simp] theorem State.modHost_sep {f : HostLink → HostLink} : (s.modHost f).sep = s.sep := (rfl)
@[simp] theorem State.modHost_gov {f : HostLink → HostLink} : (s.modHost f).gov = s.gov := (rfl)
@[simp] theorem State.modHost_links {f : HostLink → HostLink} : (s.modHost f).links = s.links := (rfl)
@[simp] theorem State.modHost_dvl {f : HostLink → HostLink} : (s.modHost f).dvl = s.dvl := (rfl)
@[simp] theorem State.modHost_fix {f : HostLink → HostLink} : (s.modHost f).fix = s.fix := (rfl)
@[simp] theorem State.modHost_ddp {f : HostLink → HostLink} : (s.modHost f).ddp = s.ddp := (rfl)
@[simp] theorem State.modHost_tim {f : HostLink → HostLink} : (s.modHost f).tim = s.tim := (rfl)
@[simp] theorem State.modHost_fuses {f : HostLink → HostLink} : (s.modHost f).fuses = s.fuses := (rfl)
@[simp] theorem State.modHost_pwr {f : HostLink → HostLink} : (s.modHost f).pwr = s.pwr := (rfl)
@[simp] theorem State.modHost_upd {f : HostLink → HostLink} : (s.modHost f).upd = s.upd := (rfl)
@[simp] theorem State.modHost_host {f : HostLink → HostLink} : (s.modHost f).host = f s.host := (rfl)
@[simp] theorem State.modHost_get {f : HostLink → HostLink} {g : Field} {j : Nat} : (s.modHost f).get g j = s.get g j := (rfl)
@[simp] theorem State.modHost_flag {f : HostLink → HostLink} {g : Field} {j : Nat} : (s.modHost f).flag g j = s.flag g j := (rfl)
@[simp] theorem State.modHost_get64 {f : HostLink → HostLink} {g : Field} {j : Nat} : (s.modHost f).get64 g j = s.get64 g j := (rfl)
@[simp] theorem State.modHost_reg {f : HostLink → HostLink} {q : Nat} : (s.modHost f).reg q = s.reg q := (rfl)

/-! ### modRed -/

@[simp] theorem State.modRed_pending {f : Red → Red} : (s.modRed f).pending = s.pending := (rfl)
@[simp] theorem State.modRed_now {f : Red → Red} : (s.modRed f).now = s.now := (rfl)
@[simp] theorem State.modRed_uptime {f : Red → Red} : (s.modRed f).uptime = s.uptime := (rfl)
@[simp] theorem State.modRed_regs {f : Red → Red} : (s.modRed f).regs = s.regs := (rfl)
@[simp] theorem State.modRed_hiLatch {f : Red → Red} : (s.modRed f).hiLatch = s.hiLatch := (rfl)
@[simp] theorem State.modRed_bulk {f : Red → Red} : (s.modRed f).bulk = s.bulk := (rfl)
@[simp] theorem State.modRed_pailMem {f : Red → Red} : (s.modRed f).pailMem = s.pailMem := (rfl)
@[simp] theorem State.modRed_retSram {f : Red → Red} : (s.modRed f).retSram = s.retSram := (rfl)
@[simp] theorem State.modRed_tallyRam {f : Red → Red} : (s.modRed f).tallyRam = s.tallyRam := (rfl)
@[simp] theorem State.modRed_flash {f : Red → Red} : (s.modRed f).flash = s.flash := (rfl)
@[simp] theorem State.modRed_outs {f : Red → Red} : (s.modRed f).outs = s.outs := (rfl)
@[simp] theorem State.modRed_freeCount {f : Red → Red} : (s.modRed f).freeCount = s.freeCount := (rfl)
@[simp] theorem State.modRed_sys {f : Red → Red} : (s.modRed f).sys = s.sys := (rfl)
@[simp] theorem State.modRed_str {f : Red → Red} : (s.modRed f).str = s.str := (rfl)
@[simp] theorem State.modRed_eng {f : Red → Red} : (s.modRed f).eng = s.eng := (rfl)
@[simp] theorem State.modRed_sig {f : Red → Red} : (s.modRed f).sig = s.sig := (rfl)
@[simp] theorem State.modRed_cmd {f : Red → Red} : (s.modRed f).cmd = s.cmd := (rfl)
@[simp] theorem State.modRed_par {f : Red → Red} : (s.modRed f).par = s.par := (rfl)
@[simp] theorem State.modRed_host {f : Red → Red} : (s.modRed f).host = s.host := (rfl)
@[simp] theorem State.modRed_tly {f : Red → Red} : (s.modRed f).tly = s.tly := (rfl)
@[simp] theorem State.modRed_flt {f : Red → Red} : (s.modRed f).flt = s.flt := (rfl)
@[simp] theorem State.modRed_ing {f : Red → Red} : (s.modRed f).ing = s.ing := (rfl)
@[simp] theorem State.modRed_frames {f : Red → Red} : (s.modRed f).frames = s.frames := (rfl)
@[simp] theorem State.modRed_layerKeep {f : Red → Red} : (s.modRed f).layerKeep = s.layerKeep := (rfl)
@[simp] theorem State.modRed_mem {f : Red → Red} : (s.modRed f).mem = s.mem := (rfl)
@[simp] theorem State.modRed_cmp {f : Red → Red} : (s.modRed f).cmp = s.cmp := (rfl)
@[simp] theorem State.modRed_cal {f : Red → Red} : (s.modRed f).cal = s.cal := (rfl)
@[simp] theorem State.modRed_sep {f : Red → Red} : (s.modRed f).sep = s.sep := (rfl)
@[simp] theorem State.modRed_gov {f : Red → Red} : (s.modRed f).gov = s.gov := (rfl)
@[simp] theorem State.modRed_links {f : Red → Red} : (s.modRed f).links = s.links := (rfl)
@[simp] theorem State.modRed_dvl {f : Red → Red} : (s.modRed f).dvl = s.dvl := (rfl)
@[simp] theorem State.modRed_fix {f : Red → Red} : (s.modRed f).fix = s.fix := (rfl)
@[simp] theorem State.modRed_ddp {f : Red → Red} : (s.modRed f).ddp = s.ddp := (rfl)
@[simp] theorem State.modRed_tim {f : Red → Red} : (s.modRed f).tim = s.tim := (rfl)
@[simp] theorem State.modRed_fuses {f : Red → Red} : (s.modRed f).fuses = s.fuses := (rfl)
@[simp] theorem State.modRed_pwr {f : Red → Red} : (s.modRed f).pwr = s.pwr := (rfl)
@[simp] theorem State.modRed_upd {f : Red → Red} : (s.modRed f).upd = s.upd := (rfl)
@[simp] theorem State.modRed_red {f : Red → Red} : (s.modRed f).red = f s.red := (rfl)
@[simp] theorem State.modRed_get {f : Red → Red} {g : Field} {j : Nat} : (s.modRed f).get g j = s.get g j := (rfl)
@[simp] theorem State.modRed_flag {f : Red → Red} {g : Field} {j : Nat} : (s.modRed f).flag g j = s.flag g j := (rfl)
@[simp] theorem State.modRed_get64 {f : Red → Red} {g : Field} {j : Nat} : (s.modRed f).get64 g j = s.get64 g j := (rfl)
@[simp] theorem State.modRed_reg {f : Red → Red} {q : Nat} : (s.modRed f).reg q = s.reg q := (rfl)

/-! ### modPwr -/

@[simp] theorem State.modPwr_pending {f : Pwr → Pwr} : (s.modPwr f).pending = s.pending := (rfl)
@[simp] theorem State.modPwr_now {f : Pwr → Pwr} : (s.modPwr f).now = s.now := (rfl)
@[simp] theorem State.modPwr_uptime {f : Pwr → Pwr} : (s.modPwr f).uptime = s.uptime := (rfl)
@[simp] theorem State.modPwr_regs {f : Pwr → Pwr} : (s.modPwr f).regs = s.regs := (rfl)
@[simp] theorem State.modPwr_hiLatch {f : Pwr → Pwr} : (s.modPwr f).hiLatch = s.hiLatch := (rfl)
@[simp] theorem State.modPwr_bulk {f : Pwr → Pwr} : (s.modPwr f).bulk = s.bulk := (rfl)
@[simp] theorem State.modPwr_pailMem {f : Pwr → Pwr} : (s.modPwr f).pailMem = s.pailMem := (rfl)
@[simp] theorem State.modPwr_retSram {f : Pwr → Pwr} : (s.modPwr f).retSram = s.retSram := (rfl)
@[simp] theorem State.modPwr_tallyRam {f : Pwr → Pwr} : (s.modPwr f).tallyRam = s.tallyRam := (rfl)
@[simp] theorem State.modPwr_flash {f : Pwr → Pwr} : (s.modPwr f).flash = s.flash := (rfl)
@[simp] theorem State.modPwr_outs {f : Pwr → Pwr} : (s.modPwr f).outs = s.outs := (rfl)
@[simp] theorem State.modPwr_freeCount {f : Pwr → Pwr} : (s.modPwr f).freeCount = s.freeCount := (rfl)
@[simp] theorem State.modPwr_sys {f : Pwr → Pwr} : (s.modPwr f).sys = s.sys := (rfl)
@[simp] theorem State.modPwr_str {f : Pwr → Pwr} : (s.modPwr f).str = s.str := (rfl)
@[simp] theorem State.modPwr_eng {f : Pwr → Pwr} : (s.modPwr f).eng = s.eng := (rfl)
@[simp] theorem State.modPwr_sig {f : Pwr → Pwr} : (s.modPwr f).sig = s.sig := (rfl)
@[simp] theorem State.modPwr_cmd {f : Pwr → Pwr} : (s.modPwr f).cmd = s.cmd := (rfl)
@[simp] theorem State.modPwr_par {f : Pwr → Pwr} : (s.modPwr f).par = s.par := (rfl)
@[simp] theorem State.modPwr_host {f : Pwr → Pwr} : (s.modPwr f).host = s.host := (rfl)
@[simp] theorem State.modPwr_tly {f : Pwr → Pwr} : (s.modPwr f).tly = s.tly := (rfl)
@[simp] theorem State.modPwr_flt {f : Pwr → Pwr} : (s.modPwr f).flt = s.flt := (rfl)
@[simp] theorem State.modPwr_red {f : Pwr → Pwr} : (s.modPwr f).red = s.red := (rfl)
@[simp] theorem State.modPwr_ing {f : Pwr → Pwr} : (s.modPwr f).ing = s.ing := (rfl)
@[simp] theorem State.modPwr_frames {f : Pwr → Pwr} : (s.modPwr f).frames = s.frames := (rfl)
@[simp] theorem State.modPwr_layerKeep {f : Pwr → Pwr} : (s.modPwr f).layerKeep = s.layerKeep := (rfl)
@[simp] theorem State.modPwr_mem {f : Pwr → Pwr} : (s.modPwr f).mem = s.mem := (rfl)
@[simp] theorem State.modPwr_cmp {f : Pwr → Pwr} : (s.modPwr f).cmp = s.cmp := (rfl)
@[simp] theorem State.modPwr_cal {f : Pwr → Pwr} : (s.modPwr f).cal = s.cal := (rfl)
@[simp] theorem State.modPwr_sep {f : Pwr → Pwr} : (s.modPwr f).sep = s.sep := (rfl)
@[simp] theorem State.modPwr_gov {f : Pwr → Pwr} : (s.modPwr f).gov = s.gov := (rfl)
@[simp] theorem State.modPwr_links {f : Pwr → Pwr} : (s.modPwr f).links = s.links := (rfl)
@[simp] theorem State.modPwr_dvl {f : Pwr → Pwr} : (s.modPwr f).dvl = s.dvl := (rfl)
@[simp] theorem State.modPwr_fix {f : Pwr → Pwr} : (s.modPwr f).fix = s.fix := (rfl)
@[simp] theorem State.modPwr_ddp {f : Pwr → Pwr} : (s.modPwr f).ddp = s.ddp := (rfl)
@[simp] theorem State.modPwr_tim {f : Pwr → Pwr} : (s.modPwr f).tim = s.tim := (rfl)
@[simp] theorem State.modPwr_fuses {f : Pwr → Pwr} : (s.modPwr f).fuses = s.fuses := (rfl)
@[simp] theorem State.modPwr_upd {f : Pwr → Pwr} : (s.modPwr f).upd = s.upd := (rfl)
@[simp] theorem State.modPwr_pwr {f : Pwr → Pwr} : (s.modPwr f).pwr = f s.pwr := (rfl)
@[simp] theorem State.modPwr_get {f : Pwr → Pwr} {g : Field} {j : Nat} : (s.modPwr f).get g j = s.get g j := (rfl)
@[simp] theorem State.modPwr_flag {f : Pwr → Pwr} {g : Field} {j : Nat} : (s.modPwr f).flag g j = s.flag g j := (rfl)
@[simp] theorem State.modPwr_get64 {f : Pwr → Pwr} {g : Field} {j : Nat} : (s.modPwr f).get64 g j = s.get64 g j := (rfl)
@[simp] theorem State.modPwr_reg {f : Pwr → Pwr} {q : Nat} : (s.modPwr f).reg q = s.reg q := (rfl)

/-! ### modUpd -/

@[simp] theorem State.modUpd_pending {f : Upd → Upd} : (s.modUpd f).pending = s.pending := (rfl)
@[simp] theorem State.modUpd_now {f : Upd → Upd} : (s.modUpd f).now = s.now := (rfl)
@[simp] theorem State.modUpd_uptime {f : Upd → Upd} : (s.modUpd f).uptime = s.uptime := (rfl)
@[simp] theorem State.modUpd_regs {f : Upd → Upd} : (s.modUpd f).regs = s.regs := (rfl)
@[simp] theorem State.modUpd_hiLatch {f : Upd → Upd} : (s.modUpd f).hiLatch = s.hiLatch := (rfl)
@[simp] theorem State.modUpd_bulk {f : Upd → Upd} : (s.modUpd f).bulk = s.bulk := (rfl)
@[simp] theorem State.modUpd_pailMem {f : Upd → Upd} : (s.modUpd f).pailMem = s.pailMem := (rfl)
@[simp] theorem State.modUpd_retSram {f : Upd → Upd} : (s.modUpd f).retSram = s.retSram := (rfl)
@[simp] theorem State.modUpd_tallyRam {f : Upd → Upd} : (s.modUpd f).tallyRam = s.tallyRam := (rfl)
@[simp] theorem State.modUpd_flash {f : Upd → Upd} : (s.modUpd f).flash = s.flash := (rfl)
@[simp] theorem State.modUpd_outs {f : Upd → Upd} : (s.modUpd f).outs = s.outs := (rfl)
@[simp] theorem State.modUpd_freeCount {f : Upd → Upd} : (s.modUpd f).freeCount = s.freeCount := (rfl)
@[simp] theorem State.modUpd_sys {f : Upd → Upd} : (s.modUpd f).sys = s.sys := (rfl)
@[simp] theorem State.modUpd_str {f : Upd → Upd} : (s.modUpd f).str = s.str := (rfl)
@[simp] theorem State.modUpd_eng {f : Upd → Upd} : (s.modUpd f).eng = s.eng := (rfl)
@[simp] theorem State.modUpd_sig {f : Upd → Upd} : (s.modUpd f).sig = s.sig := (rfl)
@[simp] theorem State.modUpd_cmd {f : Upd → Upd} : (s.modUpd f).cmd = s.cmd := (rfl)
@[simp] theorem State.modUpd_par {f : Upd → Upd} : (s.modUpd f).par = s.par := (rfl)
@[simp] theorem State.modUpd_host {f : Upd → Upd} : (s.modUpd f).host = s.host := (rfl)
@[simp] theorem State.modUpd_tly {f : Upd → Upd} : (s.modUpd f).tly = s.tly := (rfl)
@[simp] theorem State.modUpd_flt {f : Upd → Upd} : (s.modUpd f).flt = s.flt := (rfl)
@[simp] theorem State.modUpd_red {f : Upd → Upd} : (s.modUpd f).red = s.red := (rfl)
@[simp] theorem State.modUpd_ing {f : Upd → Upd} : (s.modUpd f).ing = s.ing := (rfl)
@[simp] theorem State.modUpd_frames {f : Upd → Upd} : (s.modUpd f).frames = s.frames := (rfl)
@[simp] theorem State.modUpd_layerKeep {f : Upd → Upd} : (s.modUpd f).layerKeep = s.layerKeep := (rfl)
@[simp] theorem State.modUpd_mem {f : Upd → Upd} : (s.modUpd f).mem = s.mem := (rfl)
@[simp] theorem State.modUpd_cmp {f : Upd → Upd} : (s.modUpd f).cmp = s.cmp := (rfl)
@[simp] theorem State.modUpd_cal {f : Upd → Upd} : (s.modUpd f).cal = s.cal := (rfl)
@[simp] theorem State.modUpd_sep {f : Upd → Upd} : (s.modUpd f).sep = s.sep := (rfl)
@[simp] theorem State.modUpd_gov {f : Upd → Upd} : (s.modUpd f).gov = s.gov := (rfl)
@[simp] theorem State.modUpd_links {f : Upd → Upd} : (s.modUpd f).links = s.links := (rfl)
@[simp] theorem State.modUpd_dvl {f : Upd → Upd} : (s.modUpd f).dvl = s.dvl := (rfl)
@[simp] theorem State.modUpd_fix {f : Upd → Upd} : (s.modUpd f).fix = s.fix := (rfl)
@[simp] theorem State.modUpd_ddp {f : Upd → Upd} : (s.modUpd f).ddp = s.ddp := (rfl)
@[simp] theorem State.modUpd_tim {f : Upd → Upd} : (s.modUpd f).tim = s.tim := (rfl)
@[simp] theorem State.modUpd_fuses {f : Upd → Upd} : (s.modUpd f).fuses = s.fuses := (rfl)
@[simp] theorem State.modUpd_pwr {f : Upd → Upd} : (s.modUpd f).pwr = s.pwr := (rfl)
@[simp] theorem State.modUpd_upd {f : Upd → Upd} : (s.modUpd f).upd = f s.upd := (rfl)
@[simp] theorem State.modUpd_get {f : Upd → Upd} {g : Field} {j : Nat} : (s.modUpd f).get g j = s.get g j := (rfl)
@[simp] theorem State.modUpd_flag {f : Upd → Upd} {g : Field} {j : Nat} : (s.modUpd f).flag g j = s.flag g j := (rfl)
@[simp] theorem State.modUpd_get64 {f : Upd → Upd} {g : Field} {j : Nat} : (s.modUpd f).get64 g j = s.get64 g j := (rfl)
@[simp] theorem State.modUpd_reg {f : Upd → Upd} {q : Nat} : (s.modUpd f).reg q = s.reg q := (rfl)

/-! ### modTly -/

@[simp] theorem State.modTly_pending {f : Tly → Tly} : (s.modTly f).pending = s.pending := (rfl)
@[simp] theorem State.modTly_now {f : Tly → Tly} : (s.modTly f).now = s.now := (rfl)
@[simp] theorem State.modTly_uptime {f : Tly → Tly} : (s.modTly f).uptime = s.uptime := (rfl)
@[simp] theorem State.modTly_regs {f : Tly → Tly} : (s.modTly f).regs = s.regs := (rfl)
@[simp] theorem State.modTly_hiLatch {f : Tly → Tly} : (s.modTly f).hiLatch = s.hiLatch := (rfl)
@[simp] theorem State.modTly_bulk {f : Tly → Tly} : (s.modTly f).bulk = s.bulk := (rfl)
@[simp] theorem State.modTly_pailMem {f : Tly → Tly} : (s.modTly f).pailMem = s.pailMem := (rfl)
@[simp] theorem State.modTly_retSram {f : Tly → Tly} : (s.modTly f).retSram = s.retSram := (rfl)
@[simp] theorem State.modTly_tallyRam {f : Tly → Tly} : (s.modTly f).tallyRam = s.tallyRam := (rfl)
@[simp] theorem State.modTly_flash {f : Tly → Tly} : (s.modTly f).flash = s.flash := (rfl)
@[simp] theorem State.modTly_outs {f : Tly → Tly} : (s.modTly f).outs = s.outs := (rfl)
@[simp] theorem State.modTly_freeCount {f : Tly → Tly} : (s.modTly f).freeCount = s.freeCount := (rfl)
@[simp] theorem State.modTly_sys {f : Tly → Tly} : (s.modTly f).sys = s.sys := (rfl)
@[simp] theorem State.modTly_str {f : Tly → Tly} : (s.modTly f).str = s.str := (rfl)
@[simp] theorem State.modTly_eng {f : Tly → Tly} : (s.modTly f).eng = s.eng := (rfl)
@[simp] theorem State.modTly_sig {f : Tly → Tly} : (s.modTly f).sig = s.sig := (rfl)
@[simp] theorem State.modTly_cmd {f : Tly → Tly} : (s.modTly f).cmd = s.cmd := (rfl)
@[simp] theorem State.modTly_par {f : Tly → Tly} : (s.modTly f).par = s.par := (rfl)
@[simp] theorem State.modTly_host {f : Tly → Tly} : (s.modTly f).host = s.host := (rfl)
@[simp] theorem State.modTly_flt {f : Tly → Tly} : (s.modTly f).flt = s.flt := (rfl)
@[simp] theorem State.modTly_red {f : Tly → Tly} : (s.modTly f).red = s.red := (rfl)
@[simp] theorem State.modTly_ing {f : Tly → Tly} : (s.modTly f).ing = s.ing := (rfl)
@[simp] theorem State.modTly_frames {f : Tly → Tly} : (s.modTly f).frames = s.frames := (rfl)
@[simp] theorem State.modTly_layerKeep {f : Tly → Tly} : (s.modTly f).layerKeep = s.layerKeep := (rfl)
@[simp] theorem State.modTly_mem {f : Tly → Tly} : (s.modTly f).mem = s.mem := (rfl)
@[simp] theorem State.modTly_cmp {f : Tly → Tly} : (s.modTly f).cmp = s.cmp := (rfl)
@[simp] theorem State.modTly_cal {f : Tly → Tly} : (s.modTly f).cal = s.cal := (rfl)
@[simp] theorem State.modTly_sep {f : Tly → Tly} : (s.modTly f).sep = s.sep := (rfl)
@[simp] theorem State.modTly_gov {f : Tly → Tly} : (s.modTly f).gov = s.gov := (rfl)
@[simp] theorem State.modTly_links {f : Tly → Tly} : (s.modTly f).links = s.links := (rfl)
@[simp] theorem State.modTly_dvl {f : Tly → Tly} : (s.modTly f).dvl = s.dvl := (rfl)
@[simp] theorem State.modTly_fix {f : Tly → Tly} : (s.modTly f).fix = s.fix := (rfl)
@[simp] theorem State.modTly_ddp {f : Tly → Tly} : (s.modTly f).ddp = s.ddp := (rfl)
@[simp] theorem State.modTly_tim {f : Tly → Tly} : (s.modTly f).tim = s.tim := (rfl)
@[simp] theorem State.modTly_fuses {f : Tly → Tly} : (s.modTly f).fuses = s.fuses := (rfl)
@[simp] theorem State.modTly_pwr {f : Tly → Tly} : (s.modTly f).pwr = s.pwr := (rfl)
@[simp] theorem State.modTly_upd {f : Tly → Tly} : (s.modTly f).upd = s.upd := (rfl)
@[simp] theorem State.modTly_tly {f : Tly → Tly} : (s.modTly f).tly = f s.tly := (rfl)
@[simp] theorem State.modTly_get {f : Tly → Tly} {g : Field} {j : Nat} : (s.modTly f).get g j = s.get g j := (rfl)
@[simp] theorem State.modTly_flag {f : Tly → Tly} {g : Field} {j : Nat} : (s.modTly f).flag g j = s.flag g j := (rfl)
@[simp] theorem State.modTly_get64 {f : Tly → Tly} {g : Field} {j : Nat} : (s.modTly f).get64 g j = s.get64 g j := (rfl)
@[simp] theorem State.modTly_reg {f : Tly → Tly} {q : Nat} : (s.modTly f).reg q = s.reg q := (rfl)

/-! ### modMem -/

@[simp] theorem State.modMem_pending {f : Mem → Mem} : (s.modMem f).pending = s.pending := (rfl)
@[simp] theorem State.modMem_now {f : Mem → Mem} : (s.modMem f).now = s.now := (rfl)
@[simp] theorem State.modMem_uptime {f : Mem → Mem} : (s.modMem f).uptime = s.uptime := (rfl)
@[simp] theorem State.modMem_regs {f : Mem → Mem} : (s.modMem f).regs = s.regs := (rfl)
@[simp] theorem State.modMem_hiLatch {f : Mem → Mem} : (s.modMem f).hiLatch = s.hiLatch := (rfl)
@[simp] theorem State.modMem_bulk {f : Mem → Mem} : (s.modMem f).bulk = s.bulk := (rfl)
@[simp] theorem State.modMem_pailMem {f : Mem → Mem} : (s.modMem f).pailMem = s.pailMem := (rfl)
@[simp] theorem State.modMem_retSram {f : Mem → Mem} : (s.modMem f).retSram = s.retSram := (rfl)
@[simp] theorem State.modMem_tallyRam {f : Mem → Mem} : (s.modMem f).tallyRam = s.tallyRam := (rfl)
@[simp] theorem State.modMem_flash {f : Mem → Mem} : (s.modMem f).flash = s.flash := (rfl)
@[simp] theorem State.modMem_outs {f : Mem → Mem} : (s.modMem f).outs = s.outs := (rfl)
@[simp] theorem State.modMem_freeCount {f : Mem → Mem} : (s.modMem f).freeCount = s.freeCount := (rfl)
@[simp] theorem State.modMem_sys {f : Mem → Mem} : (s.modMem f).sys = s.sys := (rfl)
@[simp] theorem State.modMem_str {f : Mem → Mem} : (s.modMem f).str = s.str := (rfl)
@[simp] theorem State.modMem_eng {f : Mem → Mem} : (s.modMem f).eng = s.eng := (rfl)
@[simp] theorem State.modMem_sig {f : Mem → Mem} : (s.modMem f).sig = s.sig := (rfl)
@[simp] theorem State.modMem_cmd {f : Mem → Mem} : (s.modMem f).cmd = s.cmd := (rfl)
@[simp] theorem State.modMem_par {f : Mem → Mem} : (s.modMem f).par = s.par := (rfl)
@[simp] theorem State.modMem_host {f : Mem → Mem} : (s.modMem f).host = s.host := (rfl)
@[simp] theorem State.modMem_tly {f : Mem → Mem} : (s.modMem f).tly = s.tly := (rfl)
@[simp] theorem State.modMem_flt {f : Mem → Mem} : (s.modMem f).flt = s.flt := (rfl)
@[simp] theorem State.modMem_red {f : Mem → Mem} : (s.modMem f).red = s.red := (rfl)
@[simp] theorem State.modMem_ing {f : Mem → Mem} : (s.modMem f).ing = s.ing := (rfl)
@[simp] theorem State.modMem_frames {f : Mem → Mem} : (s.modMem f).frames = s.frames := (rfl)
@[simp] theorem State.modMem_layerKeep {f : Mem → Mem} : (s.modMem f).layerKeep = s.layerKeep := (rfl)
@[simp] theorem State.modMem_cmp {f : Mem → Mem} : (s.modMem f).cmp = s.cmp := (rfl)
@[simp] theorem State.modMem_cal {f : Mem → Mem} : (s.modMem f).cal = s.cal := (rfl)
@[simp] theorem State.modMem_sep {f : Mem → Mem} : (s.modMem f).sep = s.sep := (rfl)
@[simp] theorem State.modMem_gov {f : Mem → Mem} : (s.modMem f).gov = s.gov := (rfl)
@[simp] theorem State.modMem_links {f : Mem → Mem} : (s.modMem f).links = s.links := (rfl)
@[simp] theorem State.modMem_dvl {f : Mem → Mem} : (s.modMem f).dvl = s.dvl := (rfl)
@[simp] theorem State.modMem_fix {f : Mem → Mem} : (s.modMem f).fix = s.fix := (rfl)
@[simp] theorem State.modMem_ddp {f : Mem → Mem} : (s.modMem f).ddp = s.ddp := (rfl)
@[simp] theorem State.modMem_tim {f : Mem → Mem} : (s.modMem f).tim = s.tim := (rfl)
@[simp] theorem State.modMem_fuses {f : Mem → Mem} : (s.modMem f).fuses = s.fuses := (rfl)
@[simp] theorem State.modMem_pwr {f : Mem → Mem} : (s.modMem f).pwr = s.pwr := (rfl)
@[simp] theorem State.modMem_upd {f : Mem → Mem} : (s.modMem f).upd = s.upd := (rfl)
@[simp] theorem State.modMem_mem {f : Mem → Mem} : (s.modMem f).mem = f s.mem := (rfl)
@[simp] theorem State.modMem_get {f : Mem → Mem} {g : Field} {j : Nat} : (s.modMem f).get g j = s.get g j := (rfl)
@[simp] theorem State.modMem_flag {f : Mem → Mem} {g : Field} {j : Nat} : (s.modMem f).flag g j = s.flag g j := (rfl)
@[simp] theorem State.modMem_get64 {f : Mem → Mem} {g : Field} {j : Nat} : (s.modMem f).get64 g j = s.get64 g j := (rfl)
@[simp] theorem State.modMem_reg {f : Mem → Mem} {q : Nat} : (s.modMem f).reg q = s.reg q := (rfl)

/-! ### modEng -/

@[simp] theorem State.modEng_pending {e : Nat} {f : Eng → Eng} : (s.modEng e f).pending = s.pending := (rfl)
@[simp] theorem State.modEng_now {e : Nat} {f : Eng → Eng} : (s.modEng e f).now = s.now := (rfl)
@[simp] theorem State.modEng_uptime {e : Nat} {f : Eng → Eng} : (s.modEng e f).uptime = s.uptime := (rfl)
@[simp] theorem State.modEng_regs {e : Nat} {f : Eng → Eng} : (s.modEng e f).regs = s.regs := (rfl)
@[simp] theorem State.modEng_hiLatch {e : Nat} {f : Eng → Eng} : (s.modEng e f).hiLatch = s.hiLatch := (rfl)
@[simp] theorem State.modEng_bulk {e : Nat} {f : Eng → Eng} : (s.modEng e f).bulk = s.bulk := (rfl)
@[simp] theorem State.modEng_pailMem {e : Nat} {f : Eng → Eng} : (s.modEng e f).pailMem = s.pailMem := (rfl)
@[simp] theorem State.modEng_retSram {e : Nat} {f : Eng → Eng} : (s.modEng e f).retSram = s.retSram := (rfl)
@[simp] theorem State.modEng_tallyRam {e : Nat} {f : Eng → Eng} : (s.modEng e f).tallyRam = s.tallyRam := (rfl)
@[simp] theorem State.modEng_flash {e : Nat} {f : Eng → Eng} : (s.modEng e f).flash = s.flash := (rfl)
@[simp] theorem State.modEng_outs {e : Nat} {f : Eng → Eng} : (s.modEng e f).outs = s.outs := (rfl)
@[simp] theorem State.modEng_freeCount {e : Nat} {f : Eng → Eng} : (s.modEng e f).freeCount = s.freeCount := (rfl)
@[simp] theorem State.modEng_sys {e : Nat} {f : Eng → Eng} : (s.modEng e f).sys = s.sys := (rfl)
@[simp] theorem State.modEng_str {e : Nat} {f : Eng → Eng} : (s.modEng e f).str = s.str := (rfl)
@[simp] theorem State.modEng_sig {e : Nat} {f : Eng → Eng} : (s.modEng e f).sig = s.sig := (rfl)
@[simp] theorem State.modEng_cmd {e : Nat} {f : Eng → Eng} : (s.modEng e f).cmd = s.cmd := (rfl)
@[simp] theorem State.modEng_par {e : Nat} {f : Eng → Eng} : (s.modEng e f).par = s.par := (rfl)
@[simp] theorem State.modEng_host {e : Nat} {f : Eng → Eng} : (s.modEng e f).host = s.host := (rfl)
@[simp] theorem State.modEng_tly {e : Nat} {f : Eng → Eng} : (s.modEng e f).tly = s.tly := (rfl)
@[simp] theorem State.modEng_flt {e : Nat} {f : Eng → Eng} : (s.modEng e f).flt = s.flt := (rfl)
@[simp] theorem State.modEng_red {e : Nat} {f : Eng → Eng} : (s.modEng e f).red = s.red := (rfl)
@[simp] theorem State.modEng_ing {e : Nat} {f : Eng → Eng} : (s.modEng e f).ing = s.ing := (rfl)
@[simp] theorem State.modEng_frames {e : Nat} {f : Eng → Eng} : (s.modEng e f).frames = s.frames := (rfl)
@[simp] theorem State.modEng_layerKeep {e : Nat} {f : Eng → Eng} : (s.modEng e f).layerKeep = s.layerKeep := (rfl)
@[simp] theorem State.modEng_mem {e : Nat} {f : Eng → Eng} : (s.modEng e f).mem = s.mem := (rfl)
@[simp] theorem State.modEng_cmp {e : Nat} {f : Eng → Eng} : (s.modEng e f).cmp = s.cmp := (rfl)
@[simp] theorem State.modEng_cal {e : Nat} {f : Eng → Eng} : (s.modEng e f).cal = s.cal := (rfl)
@[simp] theorem State.modEng_sep {e : Nat} {f : Eng → Eng} : (s.modEng e f).sep = s.sep := (rfl)
@[simp] theorem State.modEng_gov {e : Nat} {f : Eng → Eng} : (s.modEng e f).gov = s.gov := (rfl)
@[simp] theorem State.modEng_links {e : Nat} {f : Eng → Eng} : (s.modEng e f).links = s.links := (rfl)
@[simp] theorem State.modEng_dvl {e : Nat} {f : Eng → Eng} : (s.modEng e f).dvl = s.dvl := (rfl)
@[simp] theorem State.modEng_fix {e : Nat} {f : Eng → Eng} : (s.modEng e f).fix = s.fix := (rfl)
@[simp] theorem State.modEng_ddp {e : Nat} {f : Eng → Eng} : (s.modEng e f).ddp = s.ddp := (rfl)
@[simp] theorem State.modEng_tim {e : Nat} {f : Eng → Eng} : (s.modEng e f).tim = s.tim := (rfl)
@[simp] theorem State.modEng_fuses {e : Nat} {f : Eng → Eng} : (s.modEng e f).fuses = s.fuses := (rfl)
@[simp] theorem State.modEng_pwr {e : Nat} {f : Eng → Eng} : (s.modEng e f).pwr = s.pwr := (rfl)
@[simp] theorem State.modEng_upd {e : Nat} {f : Eng → Eng} : (s.modEng e f).upd = s.upd := (rfl)
@[simp] theorem State.modEng_eng {e : Nat} {f : Eng → Eng} : (s.modEng e f).eng = s.eng.modify e f := (rfl)
@[simp] theorem State.modEng_get {e : Nat} {f : Eng → Eng} {g : Field} {j : Nat} : (s.modEng e f).get g j = s.get g j := (rfl)
@[simp] theorem State.modEng_flag {e : Nat} {f : Eng → Eng} {g : Field} {j : Nat} : (s.modEng e f).flag g j = s.flag g j := (rfl)
@[simp] theorem State.modEng_get64 {e : Nat} {f : Eng → Eng} {g : Field} {j : Nat} : (s.modEng e f).get64 g j = s.get64 g j := (rfl)
@[simp] theorem State.modEng_reg {e : Nat} {f : Eng → Eng} {q : Nat} : (s.modEng e f).reg q = s.reg q := (rfl)

/-! ### modLink -/

@[simp] theorem State.modLink_pending {l : Nat} {f : Link → Link} : (s.modLink l f).pending = s.pending := (rfl)
@[simp] theorem State.modLink_now {l : Nat} {f : Link → Link} : (s.modLink l f).now = s.now := (rfl)
@[simp] theorem State.modLink_uptime {l : Nat} {f : Link → Link} : (s.modLink l f).uptime = s.uptime := (rfl)
@[simp] theorem State.modLink_regs {l : Nat} {f : Link → Link} : (s.modLink l f).regs = s.regs := (rfl)
@[simp] theorem State.modLink_hiLatch {l : Nat} {f : Link → Link} : (s.modLink l f).hiLatch = s.hiLatch := (rfl)
@[simp] theorem State.modLink_bulk {l : Nat} {f : Link → Link} : (s.modLink l f).bulk = s.bulk := (rfl)
@[simp] theorem State.modLink_pailMem {l : Nat} {f : Link → Link} : (s.modLink l f).pailMem = s.pailMem := (rfl)
@[simp] theorem State.modLink_retSram {l : Nat} {f : Link → Link} : (s.modLink l f).retSram = s.retSram := (rfl)
@[simp] theorem State.modLink_tallyRam {l : Nat} {f : Link → Link} : (s.modLink l f).tallyRam = s.tallyRam := (rfl)
@[simp] theorem State.modLink_flash {l : Nat} {f : Link → Link} : (s.modLink l f).flash = s.flash := (rfl)
@[simp] theorem State.modLink_outs {l : Nat} {f : Link → Link} : (s.modLink l f).outs = s.outs := (rfl)
@[simp] theorem State.modLink_freeCount {l : Nat} {f : Link → Link} : (s.modLink l f).freeCount = s.freeCount := (rfl)
@[simp] theorem State.modLink_sys {l : Nat} {f : Link → Link} : (s.modLink l f).sys = s.sys := (rfl)
@[simp] theorem State.modLink_str {l : Nat} {f : Link → Link} : (s.modLink l f).str = s.str := (rfl)
@[simp] theorem State.modLink_eng {l : Nat} {f : Link → Link} : (s.modLink l f).eng = s.eng := (rfl)
@[simp] theorem State.modLink_sig {l : Nat} {f : Link → Link} : (s.modLink l f).sig = s.sig := (rfl)
@[simp] theorem State.modLink_cmd {l : Nat} {f : Link → Link} : (s.modLink l f).cmd = s.cmd := (rfl)
@[simp] theorem State.modLink_par {l : Nat} {f : Link → Link} : (s.modLink l f).par = s.par := (rfl)
@[simp] theorem State.modLink_host {l : Nat} {f : Link → Link} : (s.modLink l f).host = s.host := (rfl)
@[simp] theorem State.modLink_tly {l : Nat} {f : Link → Link} : (s.modLink l f).tly = s.tly := (rfl)
@[simp] theorem State.modLink_flt {l : Nat} {f : Link → Link} : (s.modLink l f).flt = s.flt := (rfl)
@[simp] theorem State.modLink_red {l : Nat} {f : Link → Link} : (s.modLink l f).red = s.red := (rfl)
@[simp] theorem State.modLink_ing {l : Nat} {f : Link → Link} : (s.modLink l f).ing = s.ing := (rfl)
@[simp] theorem State.modLink_frames {l : Nat} {f : Link → Link} : (s.modLink l f).frames = s.frames := (rfl)
@[simp] theorem State.modLink_layerKeep {l : Nat} {f : Link → Link} : (s.modLink l f).layerKeep = s.layerKeep := (rfl)
@[simp] theorem State.modLink_mem {l : Nat} {f : Link → Link} : (s.modLink l f).mem = s.mem := (rfl)
@[simp] theorem State.modLink_cmp {l : Nat} {f : Link → Link} : (s.modLink l f).cmp = s.cmp := (rfl)
@[simp] theorem State.modLink_cal {l : Nat} {f : Link → Link} : (s.modLink l f).cal = s.cal := (rfl)
@[simp] theorem State.modLink_sep {l : Nat} {f : Link → Link} : (s.modLink l f).sep = s.sep := (rfl)
@[simp] theorem State.modLink_gov {l : Nat} {f : Link → Link} : (s.modLink l f).gov = s.gov := (rfl)
@[simp] theorem State.modLink_dvl {l : Nat} {f : Link → Link} : (s.modLink l f).dvl = s.dvl := (rfl)
@[simp] theorem State.modLink_fix {l : Nat} {f : Link → Link} : (s.modLink l f).fix = s.fix := (rfl)
@[simp] theorem State.modLink_ddp {l : Nat} {f : Link → Link} : (s.modLink l f).ddp = s.ddp := (rfl)
@[simp] theorem State.modLink_tim {l : Nat} {f : Link → Link} : (s.modLink l f).tim = s.tim := (rfl)
@[simp] theorem State.modLink_fuses {l : Nat} {f : Link → Link} : (s.modLink l f).fuses = s.fuses := (rfl)
@[simp] theorem State.modLink_pwr {l : Nat} {f : Link → Link} : (s.modLink l f).pwr = s.pwr := (rfl)
@[simp] theorem State.modLink_upd {l : Nat} {f : Link → Link} : (s.modLink l f).upd = s.upd := (rfl)
@[simp] theorem State.modLink_links {l : Nat} {f : Link → Link} : (s.modLink l f).links = s.links.modify l f := (rfl)
@[simp] theorem State.modLink_get {l : Nat} {f : Link → Link} {g : Field} {j : Nat} : (s.modLink l f).get g j = s.get g j := (rfl)
@[simp] theorem State.modLink_flag {l : Nat} {f : Link → Link} {g : Field} {j : Nat} : (s.modLink l f).flag g j = s.flag g j := (rfl)
@[simp] theorem State.modLink_get64 {l : Nat} {f : Link → Link} {g : Field} {j : Nat} : (s.modLink l f).get64 g j = s.get64 g j := (rfl)
@[simp] theorem State.modLink_reg {l : Nat} {f : Link → Link} {q : Nat} : (s.modLink l f).reg q = s.reg q := (rfl)

/-! ### modBg -/

@[simp] theorem State.modBg_pending {a : Nat} {f : Bg → Bg} : (s.modBg a f).pending = s.pending := (rfl)
@[simp] theorem State.modBg_now {a : Nat} {f : Bg → Bg} : (s.modBg a f).now = s.now := (rfl)
@[simp] theorem State.modBg_uptime {a : Nat} {f : Bg → Bg} : (s.modBg a f).uptime = s.uptime := (rfl)
@[simp] theorem State.modBg_regs {a : Nat} {f : Bg → Bg} : (s.modBg a f).regs = s.regs := (rfl)
@[simp] theorem State.modBg_hiLatch {a : Nat} {f : Bg → Bg} : (s.modBg a f).hiLatch = s.hiLatch := (rfl)
@[simp] theorem State.modBg_bulk {a : Nat} {f : Bg → Bg} : (s.modBg a f).bulk = s.bulk := (rfl)
@[simp] theorem State.modBg_pailMem {a : Nat} {f : Bg → Bg} : (s.modBg a f).pailMem = s.pailMem := (rfl)
@[simp] theorem State.modBg_retSram {a : Nat} {f : Bg → Bg} : (s.modBg a f).retSram = s.retSram := (rfl)
@[simp] theorem State.modBg_tallyRam {a : Nat} {f : Bg → Bg} : (s.modBg a f).tallyRam = s.tallyRam := (rfl)
@[simp] theorem State.modBg_flash {a : Nat} {f : Bg → Bg} : (s.modBg a f).flash = s.flash := (rfl)
@[simp] theorem State.modBg_outs {a : Nat} {f : Bg → Bg} : (s.modBg a f).outs = s.outs := (rfl)
@[simp] theorem State.modBg_freeCount {a : Nat} {f : Bg → Bg} : (s.modBg a f).freeCount = s.freeCount := (rfl)
@[simp] theorem State.modBg_str {a : Nat} {f : Bg → Bg} : (s.modBg a f).str = s.str := (rfl)
@[simp] theorem State.modBg_eng {a : Nat} {f : Bg → Bg} : (s.modBg a f).eng = s.eng := (rfl)
@[simp] theorem State.modBg_sig {a : Nat} {f : Bg → Bg} : (s.modBg a f).sig = s.sig := (rfl)
@[simp] theorem State.modBg_cmd {a : Nat} {f : Bg → Bg} : (s.modBg a f).cmd = s.cmd := (rfl)
@[simp] theorem State.modBg_par {a : Nat} {f : Bg → Bg} : (s.modBg a f).par = s.par := (rfl)
@[simp] theorem State.modBg_host {a : Nat} {f : Bg → Bg} : (s.modBg a f).host = s.host := (rfl)
@[simp] theorem State.modBg_tly {a : Nat} {f : Bg → Bg} : (s.modBg a f).tly = s.tly := (rfl)
@[simp] theorem State.modBg_flt {a : Nat} {f : Bg → Bg} : (s.modBg a f).flt = s.flt := (rfl)
@[simp] theorem State.modBg_red {a : Nat} {f : Bg → Bg} : (s.modBg a f).red = s.red := (rfl)
@[simp] theorem State.modBg_ing {a : Nat} {f : Bg → Bg} : (s.modBg a f).ing = s.ing := (rfl)
@[simp] theorem State.modBg_frames {a : Nat} {f : Bg → Bg} : (s.modBg a f).frames = s.frames := (rfl)
@[simp] theorem State.modBg_layerKeep {a : Nat} {f : Bg → Bg} : (s.modBg a f).layerKeep = s.layerKeep := (rfl)
@[simp] theorem State.modBg_mem {a : Nat} {f : Bg → Bg} : (s.modBg a f).mem = s.mem := (rfl)
@[simp] theorem State.modBg_cmp {a : Nat} {f : Bg → Bg} : (s.modBg a f).cmp = s.cmp := (rfl)
@[simp] theorem State.modBg_cal {a : Nat} {f : Bg → Bg} : (s.modBg a f).cal = s.cal := (rfl)
@[simp] theorem State.modBg_sep {a : Nat} {f : Bg → Bg} : (s.modBg a f).sep = s.sep := (rfl)
@[simp] theorem State.modBg_gov {a : Nat} {f : Bg → Bg} : (s.modBg a f).gov = s.gov := (rfl)
@[simp] theorem State.modBg_links {a : Nat} {f : Bg → Bg} : (s.modBg a f).links = s.links := (rfl)
@[simp] theorem State.modBg_dvl {a : Nat} {f : Bg → Bg} : (s.modBg a f).dvl = s.dvl := (rfl)
@[simp] theorem State.modBg_fix {a : Nat} {f : Bg → Bg} : (s.modBg a f).fix = s.fix := (rfl)
@[simp] theorem State.modBg_ddp {a : Nat} {f : Bg → Bg} : (s.modBg a f).ddp = s.ddp := (rfl)
@[simp] theorem State.modBg_tim {a : Nat} {f : Bg → Bg} : (s.modBg a f).tim = s.tim := (rfl)
@[simp] theorem State.modBg_fuses {a : Nat} {f : Bg → Bg} : (s.modBg a f).fuses = s.fuses := (rfl)
@[simp] theorem State.modBg_pwr {a : Nat} {f : Bg → Bg} : (s.modBg a f).pwr = s.pwr := (rfl)
@[simp] theorem State.modBg_upd {a : Nat} {f : Bg → Bg} : (s.modBg a f).upd = s.upd := (rfl)
@[simp] theorem State.modBg_sys {a : Nat} {f : Bg → Bg} : (s.modBg a f).sys = { s.sys with bg := s.sys.bg.modify a f } := (rfl)
@[simp] theorem State.modBg_get {a : Nat} {f : Bg → Bg} {g : Field} {j : Nat} : (s.modBg a f).get g j = s.get g j := (rfl)
@[simp] theorem State.modBg_flag {a : Nat} {f : Bg → Bg} {g : Field} {j : Nat} : (s.modBg a f).flag g j = s.flag g j := (rfl)
@[simp] theorem State.modBg_get64 {a : Nat} {f : Bg → Bg} {g : Field} {j : Nat} : (s.modBg a f).get64 g j = s.get64 g j := (rfl)
@[simp] theorem State.modBg_reg {a : Nat} {f : Bg → Bg} {q : Nat} : (s.modBg a f).reg q = s.reg q := (rfl)

/-! ### modPail -/

@[simp] theorem State.modPail_pending {p : Nat} {f : Pail → Pail} : (s.modPail p f).pending = s.pending := (rfl)
@[simp] theorem State.modPail_now {p : Nat} {f : Pail → Pail} : (s.modPail p f).now = s.now := (rfl)
@[simp] theorem State.modPail_uptime {p : Nat} {f : Pail → Pail} : (s.modPail p f).uptime = s.uptime := (rfl)
@[simp] theorem State.modPail_regs {p : Nat} {f : Pail → Pail} : (s.modPail p f).regs = s.regs := (rfl)
@[simp] theorem State.modPail_hiLatch {p : Nat} {f : Pail → Pail} : (s.modPail p f).hiLatch = s.hiLatch := (rfl)
@[simp] theorem State.modPail_bulk {p : Nat} {f : Pail → Pail} : (s.modPail p f).bulk = s.bulk := (rfl)
@[simp] theorem State.modPail_pailMem {p : Nat} {f : Pail → Pail} : (s.modPail p f).pailMem = s.pailMem := (rfl)
@[simp] theorem State.modPail_retSram {p : Nat} {f : Pail → Pail} : (s.modPail p f).retSram = s.retSram := (rfl)
@[simp] theorem State.modPail_tallyRam {p : Nat} {f : Pail → Pail} : (s.modPail p f).tallyRam = s.tallyRam := (rfl)
@[simp] theorem State.modPail_flash {p : Nat} {f : Pail → Pail} : (s.modPail p f).flash = s.flash := (rfl)
@[simp] theorem State.modPail_outs {p : Nat} {f : Pail → Pail} : (s.modPail p f).outs = s.outs := (rfl)
@[simp] theorem State.modPail_freeCount {p : Nat} {f : Pail → Pail} : (s.modPail p f).freeCount = s.freeCount := (rfl)
@[simp] theorem State.modPail_sys {p : Nat} {f : Pail → Pail} : (s.modPail p f).sys = s.sys := (rfl)
@[simp] theorem State.modPail_str {p : Nat} {f : Pail → Pail} : (s.modPail p f).str = s.str := (rfl)
@[simp] theorem State.modPail_eng {p : Nat} {f : Pail → Pail} : (s.modPail p f).eng = s.eng := (rfl)
@[simp] theorem State.modPail_sig {p : Nat} {f : Pail → Pail} : (s.modPail p f).sig = s.sig := (rfl)
@[simp] theorem State.modPail_cmd {p : Nat} {f : Pail → Pail} : (s.modPail p f).cmd = s.cmd := (rfl)
@[simp] theorem State.modPail_host {p : Nat} {f : Pail → Pail} : (s.modPail p f).host = s.host := (rfl)
@[simp] theorem State.modPail_tly {p : Nat} {f : Pail → Pail} : (s.modPail p f).tly = s.tly := (rfl)
@[simp] theorem State.modPail_flt {p : Nat} {f : Pail → Pail} : (s.modPail p f).flt = s.flt := (rfl)
@[simp] theorem State.modPail_red {p : Nat} {f : Pail → Pail} : (s.modPail p f).red = s.red := (rfl)
@[simp] theorem State.modPail_ing {p : Nat} {f : Pail → Pail} : (s.modPail p f).ing = s.ing := (rfl)
@[simp] theorem State.modPail_frames {p : Nat} {f : Pail → Pail} : (s.modPail p f).frames = s.frames := (rfl)
@[simp] theorem State.modPail_layerKeep {p : Nat} {f : Pail → Pail} : (s.modPail p f).layerKeep = s.layerKeep := (rfl)
@[simp] theorem State.modPail_mem {p : Nat} {f : Pail → Pail} : (s.modPail p f).mem = s.mem := (rfl)
@[simp] theorem State.modPail_cmp {p : Nat} {f : Pail → Pail} : (s.modPail p f).cmp = s.cmp := (rfl)
@[simp] theorem State.modPail_cal {p : Nat} {f : Pail → Pail} : (s.modPail p f).cal = s.cal := (rfl)
@[simp] theorem State.modPail_sep {p : Nat} {f : Pail → Pail} : (s.modPail p f).sep = s.sep := (rfl)
@[simp] theorem State.modPail_gov {p : Nat} {f : Pail → Pail} : (s.modPail p f).gov = s.gov := (rfl)
@[simp] theorem State.modPail_links {p : Nat} {f : Pail → Pail} : (s.modPail p f).links = s.links := (rfl)
@[simp] theorem State.modPail_dvl {p : Nat} {f : Pail → Pail} : (s.modPail p f).dvl = s.dvl := (rfl)
@[simp] theorem State.modPail_fix {p : Nat} {f : Pail → Pail} : (s.modPail p f).fix = s.fix := (rfl)
@[simp] theorem State.modPail_ddp {p : Nat} {f : Pail → Pail} : (s.modPail p f).ddp = s.ddp := (rfl)
@[simp] theorem State.modPail_tim {p : Nat} {f : Pail → Pail} : (s.modPail p f).tim = s.tim := (rfl)
@[simp] theorem State.modPail_fuses {p : Nat} {f : Pail → Pail} : (s.modPail p f).fuses = s.fuses := (rfl)
@[simp] theorem State.modPail_pwr {p : Nat} {f : Pail → Pail} : (s.modPail p f).pwr = s.pwr := (rfl)
@[simp] theorem State.modPail_upd {p : Nat} {f : Pail → Pail} : (s.modPail p f).upd = s.upd := (rfl)
@[simp] theorem State.modPail_get {p : Nat} {f : Pail → Pail} {g : Field} {j : Nat} : (s.modPail p f).get g j = s.get g j := (rfl)
@[simp] theorem State.modPail_flag {p : Nat} {f : Pail → Pail} {g : Field} {j : Nat} : (s.modPail p f).flag g j = s.flag g j := (rfl)
@[simp] theorem State.modPail_get64 {p : Nat} {f : Pail → Pail} {g : Field} {j : Nat} : (s.modPail p f).get64 g j = s.get64 g j := (rfl)
@[simp] theorem State.modPail_reg {p : Nat} {f : Pail → Pail} {q : Nat} : (s.modPail p f).reg q = s.reg q := (rfl)

/-! ### modItem -/

@[simp] theorem State.modItem_pending {p n : Nat} {f : Item → Item} : (s.modItem p n f).pending = s.pending := (rfl)
@[simp] theorem State.modItem_now {p n : Nat} {f : Item → Item} : (s.modItem p n f).now = s.now := (rfl)
@[simp] theorem State.modItem_uptime {p n : Nat} {f : Item → Item} : (s.modItem p n f).uptime = s.uptime := (rfl)
@[simp] theorem State.modItem_regs {p n : Nat} {f : Item → Item} : (s.modItem p n f).regs = s.regs := (rfl)
@[simp] theorem State.modItem_hiLatch {p n : Nat} {f : Item → Item} : (s.modItem p n f).hiLatch = s.hiLatch := (rfl)
@[simp] theorem State.modItem_bulk {p n : Nat} {f : Item → Item} : (s.modItem p n f).bulk = s.bulk := (rfl)
@[simp] theorem State.modItem_pailMem {p n : Nat} {f : Item → Item} : (s.modItem p n f).pailMem = s.pailMem := (rfl)
@[simp] theorem State.modItem_retSram {p n : Nat} {f : Item → Item} : (s.modItem p n f).retSram = s.retSram := (rfl)
@[simp] theorem State.modItem_tallyRam {p n : Nat} {f : Item → Item} : (s.modItem p n f).tallyRam = s.tallyRam := (rfl)
@[simp] theorem State.modItem_flash {p n : Nat} {f : Item → Item} : (s.modItem p n f).flash = s.flash := (rfl)
@[simp] theorem State.modItem_outs {p n : Nat} {f : Item → Item} : (s.modItem p n f).outs = s.outs := (rfl)
@[simp] theorem State.modItem_freeCount {p n : Nat} {f : Item → Item} : (s.modItem p n f).freeCount = s.freeCount := (rfl)
@[simp] theorem State.modItem_sys {p n : Nat} {f : Item → Item} : (s.modItem p n f).sys = s.sys := (rfl)
@[simp] theorem State.modItem_str {p n : Nat} {f : Item → Item} : (s.modItem p n f).str = s.str := (rfl)
@[simp] theorem State.modItem_eng {p n : Nat} {f : Item → Item} : (s.modItem p n f).eng = s.eng := (rfl)
@[simp] theorem State.modItem_sig {p n : Nat} {f : Item → Item} : (s.modItem p n f).sig = s.sig := (rfl)
@[simp] theorem State.modItem_cmd {p n : Nat} {f : Item → Item} : (s.modItem p n f).cmd = s.cmd := (rfl)
@[simp] theorem State.modItem_host {p n : Nat} {f : Item → Item} : (s.modItem p n f).host = s.host := (rfl)
@[simp] theorem State.modItem_tly {p n : Nat} {f : Item → Item} : (s.modItem p n f).tly = s.tly := (rfl)
@[simp] theorem State.modItem_flt {p n : Nat} {f : Item → Item} : (s.modItem p n f).flt = s.flt := (rfl)
@[simp] theorem State.modItem_red {p n : Nat} {f : Item → Item} : (s.modItem p n f).red = s.red := (rfl)
@[simp] theorem State.modItem_ing {p n : Nat} {f : Item → Item} : (s.modItem p n f).ing = s.ing := (rfl)
@[simp] theorem State.modItem_frames {p n : Nat} {f : Item → Item} : (s.modItem p n f).frames = s.frames := (rfl)
@[simp] theorem State.modItem_layerKeep {p n : Nat} {f : Item → Item} : (s.modItem p n f).layerKeep = s.layerKeep := (rfl)
@[simp] theorem State.modItem_mem {p n : Nat} {f : Item → Item} : (s.modItem p n f).mem = s.mem := (rfl)
@[simp] theorem State.modItem_cmp {p n : Nat} {f : Item → Item} : (s.modItem p n f).cmp = s.cmp := (rfl)
@[simp] theorem State.modItem_cal {p n : Nat} {f : Item → Item} : (s.modItem p n f).cal = s.cal := (rfl)
@[simp] theorem State.modItem_sep {p n : Nat} {f : Item → Item} : (s.modItem p n f).sep = s.sep := (rfl)
@[simp] theorem State.modItem_gov {p n : Nat} {f : Item → Item} : (s.modItem p n f).gov = s.gov := (rfl)
@[simp] theorem State.modItem_links {p n : Nat} {f : Item → Item} : (s.modItem p n f).links = s.links := (rfl)
@[simp] theorem State.modItem_dvl {p n : Nat} {f : Item → Item} : (s.modItem p n f).dvl = s.dvl := (rfl)
@[simp] theorem State.modItem_fix {p n : Nat} {f : Item → Item} : (s.modItem p n f).fix = s.fix := (rfl)
@[simp] theorem State.modItem_ddp {p n : Nat} {f : Item → Item} : (s.modItem p n f).ddp = s.ddp := (rfl)
@[simp] theorem State.modItem_tim {p n : Nat} {f : Item → Item} : (s.modItem p n f).tim = s.tim := (rfl)
@[simp] theorem State.modItem_fuses {p n : Nat} {f : Item → Item} : (s.modItem p n f).fuses = s.fuses := (rfl)
@[simp] theorem State.modItem_pwr {p n : Nat} {f : Item → Item} : (s.modItem p n f).pwr = s.pwr := (rfl)
@[simp] theorem State.modItem_upd {p n : Nat} {f : Item → Item} : (s.modItem p n f).upd = s.upd := (rfl)
@[simp] theorem State.modItem_get {p n : Nat} {f : Item → Item} {g : Field} {j : Nat} : (s.modItem p n f).get g j = s.get g j := (rfl)
@[simp] theorem State.modItem_flag {p n : Nat} {f : Item → Item} {g : Field} {j : Nat} : (s.modItem p n f).flag g j = s.flag g j := (rfl)
@[simp] theorem State.modItem_get64 {p n : Nat} {f : Item → Item} {g : Field} {j : Nat} : (s.modItem p n f).get64 g j = s.get64 g j := (rfl)
@[simp] theorem State.modItem_reg {p n : Nat} {f : Item → Item} {q : Nat} : (s.modItem p n f).reg q = s.reg q := (rfl)

/-! ### modRing -/

@[simp] theorem State.modRing_pending {r : Nat} {f : RingSt → RingSt} : (s.modRing r f).pending = s.pending := (rfl)
@[simp] theorem State.modRing_now {r : Nat} {f : RingSt → RingSt} : (s.modRing r f).now = s.now := (rfl)
@[simp] theorem State.modRing_uptime {r : Nat} {f : RingSt → RingSt} : (s.modRing r f).uptime = s.uptime := (rfl)
@[simp] theorem State.modRing_regs {r : Nat} {f : RingSt → RingSt} : (s.modRing r f).regs = s.regs := (rfl)
@[simp] theorem State.modRing_hiLatch {r : Nat} {f : RingSt → RingSt} : (s.modRing r f).hiLatch = s.hiLatch := (rfl)
@[simp] theorem State.modRing_bulk {r : Nat} {f : RingSt → RingSt} : (s.modRing r f).bulk = s.bulk := (rfl)
@[simp] theorem State.modRing_pailMem {r : Nat} {f : RingSt → RingSt} : (s.modRing r f).pailMem = s.pailMem := (rfl)
@[simp] theorem State.modRing_retSram {r : Nat} {f : RingSt → RingSt} : (s.modRing r f).retSram = s.retSram := (rfl)
@[simp] theorem State.modRing_tallyRam {r : Nat} {f : RingSt → RingSt} : (s.modRing r f).tallyRam = s.tallyRam := (rfl)
@[simp] theorem State.modRing_flash {r : Nat} {f : RingSt → RingSt} : (s.modRing r f).flash = s.flash := (rfl)
@[simp] theorem State.modRing_outs {r : Nat} {f : RingSt → RingSt} : (s.modRing r f).outs = s.outs := (rfl)
@[simp] theorem State.modRing_freeCount {r : Nat} {f : RingSt → RingSt} : (s.modRing r f).freeCount = s.freeCount := (rfl)
@[simp] theorem State.modRing_sys {r : Nat} {f : RingSt → RingSt} : (s.modRing r f).sys = s.sys := (rfl)
@[simp] theorem State.modRing_str {r : Nat} {f : RingSt → RingSt} : (s.modRing r f).str = s.str := (rfl)
@[simp] theorem State.modRing_eng {r : Nat} {f : RingSt → RingSt} : (s.modRing r f).eng = s.eng := (rfl)
@[simp] theorem State.modRing_sig {r : Nat} {f : RingSt → RingSt} : (s.modRing r f).sig = s.sig := (rfl)
@[simp] theorem State.modRing_cmd {r : Nat} {f : RingSt → RingSt} : (s.modRing r f).cmd = s.cmd := (rfl)
@[simp] theorem State.modRing_par {r : Nat} {f : RingSt → RingSt} : (s.modRing r f).par = s.par := (rfl)
@[simp] theorem State.modRing_host {r : Nat} {f : RingSt → RingSt} : (s.modRing r f).host = s.host := (rfl)
@[simp] theorem State.modRing_tly {r : Nat} {f : RingSt → RingSt} : (s.modRing r f).tly = s.tly := (rfl)
@[simp] theorem State.modRing_flt {r : Nat} {f : RingSt → RingSt} : (s.modRing r f).flt = s.flt := (rfl)
@[simp] theorem State.modRing_red {r : Nat} {f : RingSt → RingSt} : (s.modRing r f).red = s.red := (rfl)
@[simp] theorem State.modRing_ing {r : Nat} {f : RingSt → RingSt} : (s.modRing r f).ing = s.ing := (rfl)
@[simp] theorem State.modRing_frames {r : Nat} {f : RingSt → RingSt} : (s.modRing r f).frames = s.frames := (rfl)
@[simp] theorem State.modRing_layerKeep {r : Nat} {f : RingSt → RingSt} : (s.modRing r f).layerKeep = s.layerKeep := (rfl)
@[simp] theorem State.modRing_mem {r : Nat} {f : RingSt → RingSt} : (s.modRing r f).mem = s.mem := (rfl)
@[simp] theorem State.modRing_cmp {r : Nat} {f : RingSt → RingSt} : (s.modRing r f).cmp = s.cmp := (rfl)
@[simp] theorem State.modRing_cal {r : Nat} {f : RingSt → RingSt} : (s.modRing r f).cal = s.cal := (rfl)
@[simp] theorem State.modRing_sep {r : Nat} {f : RingSt → RingSt} : (s.modRing r f).sep = s.sep := (rfl)
@[simp] theorem State.modRing_gov {r : Nat} {f : RingSt → RingSt} : (s.modRing r f).gov = s.gov := (rfl)
@[simp] theorem State.modRing_links {r : Nat} {f : RingSt → RingSt} : (s.modRing r f).links = s.links := (rfl)
@[simp] theorem State.modRing_fix {r : Nat} {f : RingSt → RingSt} : (s.modRing r f).fix = s.fix := (rfl)
@[simp] theorem State.modRing_ddp {r : Nat} {f : RingSt → RingSt} : (s.modRing r f).ddp = s.ddp := (rfl)
@[simp] theorem State.modRing_tim {r : Nat} {f : RingSt → RingSt} : (s.modRing r f).tim = s.tim := (rfl)
@[simp] theorem State.modRing_fuses {r : Nat} {f : RingSt → RingSt} : (s.modRing r f).fuses = s.fuses := (rfl)
@[simp] theorem State.modRing_pwr {r : Nat} {f : RingSt → RingSt} : (s.modRing r f).pwr = s.pwr := (rfl)
@[simp] theorem State.modRing_upd {r : Nat} {f : RingSt → RingSt} : (s.modRing r f).upd = s.upd := (rfl)
@[simp] theorem State.modRing_dvl {r : Nat} {f : RingSt → RingSt} : (s.modRing r f).dvl = { s.dvl with rings := s.dvl.rings.modify r f } := (rfl)
@[simp] theorem State.modRing_get {r : Nat} {f : RingSt → RingSt} {g : Field} {j : Nat} : (s.modRing r f).get g j = s.get g j := (rfl)
@[simp] theorem State.modRing_flag {r : Nat} {f : RingSt → RingSt} {g : Field} {j : Nat} : (s.modRing r f).flag g j = s.flag g j := (rfl)
@[simp] theorem State.modRing_get64 {r : Nat} {f : RingSt → RingSt} {g : Field} {j : Nat} : (s.modRing r f).get64 g j = s.get64 g j := (rfl)
@[simp] theorem State.modRing_reg {r : Nat} {f : RingSt → RingSt} {q : Nat} : (s.modRing r f).reg q = s.reg q := (rfl)

/-! ### modFrame -/

@[simp] theorem State.modFrame_pending {n : Nat} {f : FrameWork → FrameWork} : (s.modFrame n f).pending = s.pending := (rfl)
@[simp] theorem State.modFrame_now {n : Nat} {f : FrameWork → FrameWork} : (s.modFrame n f).now = s.now := (rfl)
@[simp] theorem State.modFrame_uptime {n : Nat} {f : FrameWork → FrameWork} : (s.modFrame n f).uptime = s.uptime := (rfl)
@[simp] theorem State.modFrame_regs {n : Nat} {f : FrameWork → FrameWork} : (s.modFrame n f).regs = s.regs := (rfl)
@[simp] theorem State.modFrame_hiLatch {n : Nat} {f : FrameWork → FrameWork} : (s.modFrame n f).hiLatch = s.hiLatch := (rfl)
@[simp] theorem State.modFrame_bulk {n : Nat} {f : FrameWork → FrameWork} : (s.modFrame n f).bulk = s.bulk := (rfl)
@[simp] theorem State.modFrame_pailMem {n : Nat} {f : FrameWork → FrameWork} : (s.modFrame n f).pailMem = s.pailMem := (rfl)
@[simp] theorem State.modFrame_retSram {n : Nat} {f : FrameWork → FrameWork} : (s.modFrame n f).retSram = s.retSram := (rfl)
@[simp] theorem State.modFrame_tallyRam {n : Nat} {f : FrameWork → FrameWork} : (s.modFrame n f).tallyRam = s.tallyRam := (rfl)
@[simp] theorem State.modFrame_flash {n : Nat} {f : FrameWork → FrameWork} : (s.modFrame n f).flash = s.flash := (rfl)
@[simp] theorem State.modFrame_outs {n : Nat} {f : FrameWork → FrameWork} : (s.modFrame n f).outs = s.outs := (rfl)
@[simp] theorem State.modFrame_freeCount {n : Nat} {f : FrameWork → FrameWork} : (s.modFrame n f).freeCount = s.freeCount := (rfl)
@[simp] theorem State.modFrame_sys {n : Nat} {f : FrameWork → FrameWork} : (s.modFrame n f).sys = s.sys := (rfl)
@[simp] theorem State.modFrame_str {n : Nat} {f : FrameWork → FrameWork} : (s.modFrame n f).str = s.str := (rfl)
@[simp] theorem State.modFrame_eng {n : Nat} {f : FrameWork → FrameWork} : (s.modFrame n f).eng = s.eng := (rfl)
@[simp] theorem State.modFrame_sig {n : Nat} {f : FrameWork → FrameWork} : (s.modFrame n f).sig = s.sig := (rfl)
@[simp] theorem State.modFrame_cmd {n : Nat} {f : FrameWork → FrameWork} : (s.modFrame n f).cmd = s.cmd := (rfl)
@[simp] theorem State.modFrame_par {n : Nat} {f : FrameWork → FrameWork} : (s.modFrame n f).par = s.par := (rfl)
@[simp] theorem State.modFrame_host {n : Nat} {f : FrameWork → FrameWork} : (s.modFrame n f).host = s.host := (rfl)
@[simp] theorem State.modFrame_tly {n : Nat} {f : FrameWork → FrameWork} : (s.modFrame n f).tly = s.tly := (rfl)
@[simp] theorem State.modFrame_flt {n : Nat} {f : FrameWork → FrameWork} : (s.modFrame n f).flt = s.flt := (rfl)
@[simp] theorem State.modFrame_red {n : Nat} {f : FrameWork → FrameWork} : (s.modFrame n f).red = s.red := (rfl)
@[simp] theorem State.modFrame_ing {n : Nat} {f : FrameWork → FrameWork} : (s.modFrame n f).ing = s.ing := (rfl)
@[simp] theorem State.modFrame_layerKeep {n : Nat} {f : FrameWork → FrameWork} : (s.modFrame n f).layerKeep = s.layerKeep := (rfl)
@[simp] theorem State.modFrame_mem {n : Nat} {f : FrameWork → FrameWork} : (s.modFrame n f).mem = s.mem := (rfl)
@[simp] theorem State.modFrame_cmp {n : Nat} {f : FrameWork → FrameWork} : (s.modFrame n f).cmp = s.cmp := (rfl)
@[simp] theorem State.modFrame_cal {n : Nat} {f : FrameWork → FrameWork} : (s.modFrame n f).cal = s.cal := (rfl)
@[simp] theorem State.modFrame_sep {n : Nat} {f : FrameWork → FrameWork} : (s.modFrame n f).sep = s.sep := (rfl)
@[simp] theorem State.modFrame_gov {n : Nat} {f : FrameWork → FrameWork} : (s.modFrame n f).gov = s.gov := (rfl)
@[simp] theorem State.modFrame_links {n : Nat} {f : FrameWork → FrameWork} : (s.modFrame n f).links = s.links := (rfl)
@[simp] theorem State.modFrame_dvl {n : Nat} {f : FrameWork → FrameWork} : (s.modFrame n f).dvl = s.dvl := (rfl)
@[simp] theorem State.modFrame_fix {n : Nat} {f : FrameWork → FrameWork} : (s.modFrame n f).fix = s.fix := (rfl)
@[simp] theorem State.modFrame_ddp {n : Nat} {f : FrameWork → FrameWork} : (s.modFrame n f).ddp = s.ddp := (rfl)
@[simp] theorem State.modFrame_tim {n : Nat} {f : FrameWork → FrameWork} : (s.modFrame n f).tim = s.tim := (rfl)
@[simp] theorem State.modFrame_fuses {n : Nat} {f : FrameWork → FrameWork} : (s.modFrame n f).fuses = s.fuses := (rfl)
@[simp] theorem State.modFrame_pwr {n : Nat} {f : FrameWork → FrameWork} : (s.modFrame n f).pwr = s.pwr := (rfl)
@[simp] theorem State.modFrame_upd {n : Nat} {f : FrameWork → FrameWork} : (s.modFrame n f).upd = s.upd := (rfl)
@[simp] theorem State.modFrame_frames {n : Nat} {f : FrameWork → FrameWork} : (s.modFrame n f).frames = s.frames.map (fun w => if w.frame == n then f w else w) := (rfl)
@[simp] theorem State.modFrame_get {n : Nat} {f : FrameWork → FrameWork} {g : Field} {j : Nat} : (s.modFrame n f).get g j = s.get g j := (rfl)
@[simp] theorem State.modFrame_flag {n : Nat} {f : FrameWork → FrameWork} {g : Field} {j : Nat} : (s.modFrame n f).flag g j = s.flag g j := (rfl)
@[simp] theorem State.modFrame_get64 {n : Nat} {f : FrameWork → FrameWork} {g : Field} {j : Nat} : (s.modFrame n f).get64 g j = s.get64 g j := (rfl)
@[simp] theorem State.modFrame_reg {n : Nat} {f : FrameWork → FrameWork} {q : Nat} : (s.modFrame n f).reg q = s.reg q := (rfl)

/-! ### modStream -/

@[simp] theorem State.modStream_pending {i : Nat} {f : Stream → Stream} : (s.modStream i f).pending = s.pending := (rfl)
@[simp] theorem State.modStream_now {i : Nat} {f : Stream → Stream} : (s.modStream i f).now = s.now := (rfl)
@[simp] theorem State.modStream_uptime {i : Nat} {f : Stream → Stream} : (s.modStream i f).uptime = s.uptime := (rfl)
@[simp] theorem State.modStream_regs {i : Nat} {f : Stream → Stream} : (s.modStream i f).regs = s.regs := (rfl)
@[simp] theorem State.modStream_hiLatch {i : Nat} {f : Stream → Stream} : (s.modStream i f).hiLatch = s.hiLatch := (rfl)
@[simp] theorem State.modStream_bulk {i : Nat} {f : Stream → Stream} : (s.modStream i f).bulk = s.bulk := (rfl)
@[simp] theorem State.modStream_pailMem {i : Nat} {f : Stream → Stream} : (s.modStream i f).pailMem = s.pailMem := (rfl)
@[simp] theorem State.modStream_retSram {i : Nat} {f : Stream → Stream} : (s.modStream i f).retSram = s.retSram := (rfl)
@[simp] theorem State.modStream_tallyRam {i : Nat} {f : Stream → Stream} : (s.modStream i f).tallyRam = s.tallyRam := (rfl)
@[simp] theorem State.modStream_flash {i : Nat} {f : Stream → Stream} : (s.modStream i f).flash = s.flash := (rfl)
@[simp] theorem State.modStream_outs {i : Nat} {f : Stream → Stream} : (s.modStream i f).outs = s.outs := (rfl)
@[simp] theorem State.modStream_freeCount {i : Nat} {f : Stream → Stream} : (s.modStream i f).freeCount = s.freeCount := (rfl)
@[simp] theorem State.modStream_sys {i : Nat} {f : Stream → Stream} : (s.modStream i f).sys = s.sys := (rfl)
@[simp] theorem State.modStream_str {i : Nat} {f : Stream → Stream} : (s.modStream i f).str = s.str := (rfl)
@[simp] theorem State.modStream_eng {i : Nat} {f : Stream → Stream} : (s.modStream i f).eng = s.eng := (rfl)
@[simp] theorem State.modStream_sig {i : Nat} {f : Stream → Stream} : (s.modStream i f).sig = s.sig := (rfl)
@[simp] theorem State.modStream_cmd {i : Nat} {f : Stream → Stream} : (s.modStream i f).cmd = s.cmd := (rfl)
@[simp] theorem State.modStream_par {i : Nat} {f : Stream → Stream} : (s.modStream i f).par = s.par := (rfl)
@[simp] theorem State.modStream_host {i : Nat} {f : Stream → Stream} : (s.modStream i f).host = s.host := (rfl)
@[simp] theorem State.modStream_tly {i : Nat} {f : Stream → Stream} : (s.modStream i f).tly = s.tly := (rfl)
@[simp] theorem State.modStream_flt {i : Nat} {f : Stream → Stream} : (s.modStream i f).flt = s.flt := (rfl)
@[simp] theorem State.modStream_red {i : Nat} {f : Stream → Stream} : (s.modStream i f).red = s.red := (rfl)
@[simp] theorem State.modStream_frames {i : Nat} {f : Stream → Stream} : (s.modStream i f).frames = s.frames := (rfl)
@[simp] theorem State.modStream_layerKeep {i : Nat} {f : Stream → Stream} : (s.modStream i f).layerKeep = s.layerKeep := (rfl)
@[simp] theorem State.modStream_mem {i : Nat} {f : Stream → Stream} : (s.modStream i f).mem = s.mem := (rfl)
@[simp] theorem State.modStream_cmp {i : Nat} {f : Stream → Stream} : (s.modStream i f).cmp = s.cmp := (rfl)
@[simp] theorem State.modStream_cal {i : Nat} {f : Stream → Stream} : (s.modStream i f).cal = s.cal := (rfl)
@[simp] theorem State.modStream_sep {i : Nat} {f : Stream → Stream} : (s.modStream i f).sep = s.sep := (rfl)
@[simp] theorem State.modStream_gov {i : Nat} {f : Stream → Stream} : (s.modStream i f).gov = s.gov := (rfl)
@[simp] theorem State.modStream_links {i : Nat} {f : Stream → Stream} : (s.modStream i f).links = s.links := (rfl)
@[simp] theorem State.modStream_dvl {i : Nat} {f : Stream → Stream} : (s.modStream i f).dvl = s.dvl := (rfl)
@[simp] theorem State.modStream_fix {i : Nat} {f : Stream → Stream} : (s.modStream i f).fix = s.fix := (rfl)
@[simp] theorem State.modStream_ddp {i : Nat} {f : Stream → Stream} : (s.modStream i f).ddp = s.ddp := (rfl)
@[simp] theorem State.modStream_tim {i : Nat} {f : Stream → Stream} : (s.modStream i f).tim = s.tim := (rfl)
@[simp] theorem State.modStream_fuses {i : Nat} {f : Stream → Stream} : (s.modStream i f).fuses = s.fuses := (rfl)
@[simp] theorem State.modStream_pwr {i : Nat} {f : Stream → Stream} : (s.modStream i f).pwr = s.pwr := (rfl)
@[simp] theorem State.modStream_upd {i : Nat} {f : Stream → Stream} : (s.modStream i f).upd = s.upd := (rfl)
@[simp] theorem State.modStream_ing {i : Nat} {f : Stream → Stream} : (s.modStream i f).ing = { s.ing with streams := s.ing.streams.modify i f } := (rfl)
@[simp] theorem State.modStream_get {i : Nat} {f : Stream → Stream} {g : Field} {j : Nat} : (s.modStream i f).get g j = s.get g j := (rfl)
@[simp] theorem State.modStream_flag {i : Nat} {f : Stream → Stream} {g : Field} {j : Nat} : (s.modStream i f).flag g j = s.flag g j := (rfl)
@[simp] theorem State.modStream_get64 {i : Nat} {f : Stream → Stream} {g : Field} {j : Nat} : (s.modStream i f).get64 g j = s.get64 g j := (rfl)
@[simp] theorem State.modStream_reg {i : Nat} {f : Stream → Stream} {q : Nat} : (s.modStream i f).reg q = s.reg q := (rfl)

/-! ### modPtp -/

@[simp] theorem State.modPtp_pending {p : Nat} {f : PtpPort → PtpPort} : (s.modPtp p f).pending = s.pending := (rfl)
@[simp] theorem State.modPtp_now {p : Nat} {f : PtpPort → PtpPort} : (s.modPtp p f).now = s.now := (rfl)
@[simp] theorem State.modPtp_uptime {p : Nat} {f : PtpPort → PtpPort} : (s.modPtp p f).uptime = s.uptime := (rfl)
@[simp] theorem State.modPtp_regs {p : Nat} {f : PtpPort → PtpPort} : (s.modPtp p f).regs = s.regs := (rfl)
@[simp] theorem State.modPtp_hiLatch {p : Nat} {f : PtpPort → PtpPort} : (s.modPtp p f).hiLatch = s.hiLatch := (rfl)
@[simp] theorem State.modPtp_bulk {p : Nat} {f : PtpPort → PtpPort} : (s.modPtp p f).bulk = s.bulk := (rfl)
@[simp] theorem State.modPtp_pailMem {p : Nat} {f : PtpPort → PtpPort} : (s.modPtp p f).pailMem = s.pailMem := (rfl)
@[simp] theorem State.modPtp_retSram {p : Nat} {f : PtpPort → PtpPort} : (s.modPtp p f).retSram = s.retSram := (rfl)
@[simp] theorem State.modPtp_tallyRam {p : Nat} {f : PtpPort → PtpPort} : (s.modPtp p f).tallyRam = s.tallyRam := (rfl)
@[simp] theorem State.modPtp_flash {p : Nat} {f : PtpPort → PtpPort} : (s.modPtp p f).flash = s.flash := (rfl)
@[simp] theorem State.modPtp_outs {p : Nat} {f : PtpPort → PtpPort} : (s.modPtp p f).outs = s.outs := (rfl)
@[simp] theorem State.modPtp_freeCount {p : Nat} {f : PtpPort → PtpPort} : (s.modPtp p f).freeCount = s.freeCount := (rfl)
@[simp] theorem State.modPtp_sys {p : Nat} {f : PtpPort → PtpPort} : (s.modPtp p f).sys = s.sys := (rfl)
@[simp] theorem State.modPtp_str {p : Nat} {f : PtpPort → PtpPort} : (s.modPtp p f).str = s.str := (rfl)
@[simp] theorem State.modPtp_eng {p : Nat} {f : PtpPort → PtpPort} : (s.modPtp p f).eng = s.eng := (rfl)
@[simp] theorem State.modPtp_sig {p : Nat} {f : PtpPort → PtpPort} : (s.modPtp p f).sig = s.sig := (rfl)
@[simp] theorem State.modPtp_cmd {p : Nat} {f : PtpPort → PtpPort} : (s.modPtp p f).cmd = s.cmd := (rfl)
@[simp] theorem State.modPtp_par {p : Nat} {f : PtpPort → PtpPort} : (s.modPtp p f).par = s.par := (rfl)
@[simp] theorem State.modPtp_host {p : Nat} {f : PtpPort → PtpPort} : (s.modPtp p f).host = s.host := (rfl)
@[simp] theorem State.modPtp_tly {p : Nat} {f : PtpPort → PtpPort} : (s.modPtp p f).tly = s.tly := (rfl)
@[simp] theorem State.modPtp_flt {p : Nat} {f : PtpPort → PtpPort} : (s.modPtp p f).flt = s.flt := (rfl)
@[simp] theorem State.modPtp_red {p : Nat} {f : PtpPort → PtpPort} : (s.modPtp p f).red = s.red := (rfl)
@[simp] theorem State.modPtp_ing {p : Nat} {f : PtpPort → PtpPort} : (s.modPtp p f).ing = s.ing := (rfl)
@[simp] theorem State.modPtp_frames {p : Nat} {f : PtpPort → PtpPort} : (s.modPtp p f).frames = s.frames := (rfl)
@[simp] theorem State.modPtp_layerKeep {p : Nat} {f : PtpPort → PtpPort} : (s.modPtp p f).layerKeep = s.layerKeep := (rfl)
@[simp] theorem State.modPtp_mem {p : Nat} {f : PtpPort → PtpPort} : (s.modPtp p f).mem = s.mem := (rfl)
@[simp] theorem State.modPtp_cmp {p : Nat} {f : PtpPort → PtpPort} : (s.modPtp p f).cmp = s.cmp := (rfl)
@[simp] theorem State.modPtp_cal {p : Nat} {f : PtpPort → PtpPort} : (s.modPtp p f).cal = s.cal := (rfl)
@[simp] theorem State.modPtp_sep {p : Nat} {f : PtpPort → PtpPort} : (s.modPtp p f).sep = s.sep := (rfl)
@[simp] theorem State.modPtp_gov {p : Nat} {f : PtpPort → PtpPort} : (s.modPtp p f).gov = s.gov := (rfl)
@[simp] theorem State.modPtp_links {p : Nat} {f : PtpPort → PtpPort} : (s.modPtp p f).links = s.links := (rfl)
@[simp] theorem State.modPtp_dvl {p : Nat} {f : PtpPort → PtpPort} : (s.modPtp p f).dvl = s.dvl := (rfl)
@[simp] theorem State.modPtp_fix {p : Nat} {f : PtpPort → PtpPort} : (s.modPtp p f).fix = s.fix := (rfl)
@[simp] theorem State.modPtp_ddp {p : Nat} {f : PtpPort → PtpPort} : (s.modPtp p f).ddp = s.ddp := (rfl)
@[simp] theorem State.modPtp_fuses {p : Nat} {f : PtpPort → PtpPort} : (s.modPtp p f).fuses = s.fuses := (rfl)
@[simp] theorem State.modPtp_pwr {p : Nat} {f : PtpPort → PtpPort} : (s.modPtp p f).pwr = s.pwr := (rfl)
@[simp] theorem State.modPtp_upd {p : Nat} {f : PtpPort → PtpPort} : (s.modPtp p f).upd = s.upd := (rfl)
@[simp] theorem State.modPtp_tim {p : Nat} {f : PtpPort → PtpPort} : (s.modPtp p f).tim = { s.tim with ports := s.tim.ports.modify p f } := (rfl)
@[simp] theorem State.modPtp_get {p : Nat} {f : PtpPort → PtpPort} {g : Field} {j : Nat} : (s.modPtp p f).get g j = s.get g j := (rfl)
@[simp] theorem State.modPtp_flag {p : Nat} {f : PtpPort → PtpPort} {g : Field} {j : Nat} : (s.modPtp p f).flag g j = s.flag g j := (rfl)
@[simp] theorem State.modPtp_get64 {p : Nat} {f : PtpPort → PtpPort} {g : Field} {j : Nat} : (s.modPtp p f).get64 g j = s.get64 g j := (rfl)
@[simp] theorem State.modPtp_reg {p : Nat} {f : PtpPort → PtpPort} {q : Nat} : (s.modPtp p f).reg q = s.reg q := (rfl)

/-! ### modDd -/

@[simp] theorem State.modDd_pending {p : Nat} {f : DdPort → DdPort} : (s.modDd p f).pending = s.pending := (rfl)
@[simp] theorem State.modDd_now {p : Nat} {f : DdPort → DdPort} : (s.modDd p f).now = s.now := (rfl)
@[simp] theorem State.modDd_uptime {p : Nat} {f : DdPort → DdPort} : (s.modDd p f).uptime = s.uptime := (rfl)
@[simp] theorem State.modDd_regs {p : Nat} {f : DdPort → DdPort} : (s.modDd p f).regs = s.regs := (rfl)
@[simp] theorem State.modDd_hiLatch {p : Nat} {f : DdPort → DdPort} : (s.modDd p f).hiLatch = s.hiLatch := (rfl)
@[simp] theorem State.modDd_bulk {p : Nat} {f : DdPort → DdPort} : (s.modDd p f).bulk = s.bulk := (rfl)
@[simp] theorem State.modDd_pailMem {p : Nat} {f : DdPort → DdPort} : (s.modDd p f).pailMem = s.pailMem := (rfl)
@[simp] theorem State.modDd_retSram {p : Nat} {f : DdPort → DdPort} : (s.modDd p f).retSram = s.retSram := (rfl)
@[simp] theorem State.modDd_tallyRam {p : Nat} {f : DdPort → DdPort} : (s.modDd p f).tallyRam = s.tallyRam := (rfl)
@[simp] theorem State.modDd_flash {p : Nat} {f : DdPort → DdPort} : (s.modDd p f).flash = s.flash := (rfl)
@[simp] theorem State.modDd_outs {p : Nat} {f : DdPort → DdPort} : (s.modDd p f).outs = s.outs := (rfl)
@[simp] theorem State.modDd_freeCount {p : Nat} {f : DdPort → DdPort} : (s.modDd p f).freeCount = s.freeCount := (rfl)
@[simp] theorem State.modDd_sys {p : Nat} {f : DdPort → DdPort} : (s.modDd p f).sys = s.sys := (rfl)
@[simp] theorem State.modDd_str {p : Nat} {f : DdPort → DdPort} : (s.modDd p f).str = s.str := (rfl)
@[simp] theorem State.modDd_eng {p : Nat} {f : DdPort → DdPort} : (s.modDd p f).eng = s.eng := (rfl)
@[simp] theorem State.modDd_sig {p : Nat} {f : DdPort → DdPort} : (s.modDd p f).sig = s.sig := (rfl)
@[simp] theorem State.modDd_cmd {p : Nat} {f : DdPort → DdPort} : (s.modDd p f).cmd = s.cmd := (rfl)
@[simp] theorem State.modDd_par {p : Nat} {f : DdPort → DdPort} : (s.modDd p f).par = s.par := (rfl)
@[simp] theorem State.modDd_host {p : Nat} {f : DdPort → DdPort} : (s.modDd p f).host = s.host := (rfl)
@[simp] theorem State.modDd_tly {p : Nat} {f : DdPort → DdPort} : (s.modDd p f).tly = s.tly := (rfl)
@[simp] theorem State.modDd_flt {p : Nat} {f : DdPort → DdPort} : (s.modDd p f).flt = s.flt := (rfl)
@[simp] theorem State.modDd_red {p : Nat} {f : DdPort → DdPort} : (s.modDd p f).red = s.red := (rfl)
@[simp] theorem State.modDd_ing {p : Nat} {f : DdPort → DdPort} : (s.modDd p f).ing = s.ing := (rfl)
@[simp] theorem State.modDd_frames {p : Nat} {f : DdPort → DdPort} : (s.modDd p f).frames = s.frames := (rfl)
@[simp] theorem State.modDd_layerKeep {p : Nat} {f : DdPort → DdPort} : (s.modDd p f).layerKeep = s.layerKeep := (rfl)
@[simp] theorem State.modDd_mem {p : Nat} {f : DdPort → DdPort} : (s.modDd p f).mem = s.mem := (rfl)
@[simp] theorem State.modDd_cmp {p : Nat} {f : DdPort → DdPort} : (s.modDd p f).cmp = s.cmp := (rfl)
@[simp] theorem State.modDd_cal {p : Nat} {f : DdPort → DdPort} : (s.modDd p f).cal = s.cal := (rfl)
@[simp] theorem State.modDd_sep {p : Nat} {f : DdPort → DdPort} : (s.modDd p f).sep = s.sep := (rfl)
@[simp] theorem State.modDd_gov {p : Nat} {f : DdPort → DdPort} : (s.modDd p f).gov = s.gov := (rfl)
@[simp] theorem State.modDd_links {p : Nat} {f : DdPort → DdPort} : (s.modDd p f).links = s.links := (rfl)
@[simp] theorem State.modDd_dvl {p : Nat} {f : DdPort → DdPort} : (s.modDd p f).dvl = s.dvl := (rfl)
@[simp] theorem State.modDd_fix {p : Nat} {f : DdPort → DdPort} : (s.modDd p f).fix = s.fix := (rfl)
@[simp] theorem State.modDd_tim {p : Nat} {f : DdPort → DdPort} : (s.modDd p f).tim = s.tim := (rfl)
@[simp] theorem State.modDd_fuses {p : Nat} {f : DdPort → DdPort} : (s.modDd p f).fuses = s.fuses := (rfl)
@[simp] theorem State.modDd_pwr {p : Nat} {f : DdPort → DdPort} : (s.modDd p f).pwr = s.pwr := (rfl)
@[simp] theorem State.modDd_upd {p : Nat} {f : DdPort → DdPort} : (s.modDd p f).upd = s.upd := (rfl)
@[simp] theorem State.modDd_ddp {p : Nat} {f : DdPort → DdPort} : (s.modDd p f).ddp = { s.ddp with ports := s.ddp.ports.modify p f } := (rfl)
@[simp] theorem State.modDd_get {p : Nat} {f : DdPort → DdPort} {g : Field} {j : Nat} : (s.modDd p f).get g j = s.get g j := (rfl)
@[simp] theorem State.modDd_flag {p : Nat} {f : DdPort → DdPort} {g : Field} {j : Nat} : (s.modDd p f).flag g j = s.flag g j := (rfl)
@[simp] theorem State.modDd_get64 {p : Nat} {f : DdPort → DdPort} {g : Field} {j : Nat} : (s.modDd p f).get64 g j = s.get64 g j := (rfl)
@[simp] theorem State.modDd_reg {p : Nat} {f : DdPort → DdPort} {q : Nat} : (s.modDd p f).reg q = s.reg q := (rfl)

/-! ### setCalZone -/

@[simp] theorem State.setCalZone_pending {z : CalZone} : (s.setCalZone z).pending = s.pending := (rfl)
@[simp] theorem State.setCalZone_now {z : CalZone} : (s.setCalZone z).now = s.now := (rfl)
@[simp] theorem State.setCalZone_uptime {z : CalZone} : (s.setCalZone z).uptime = s.uptime := (rfl)
@[simp] theorem State.setCalZone_regs {z : CalZone} : (s.setCalZone z).regs = s.regs := (rfl)
@[simp] theorem State.setCalZone_hiLatch {z : CalZone} : (s.setCalZone z).hiLatch = s.hiLatch := (rfl)
@[simp] theorem State.setCalZone_bulk {z : CalZone} : (s.setCalZone z).bulk = s.bulk := (rfl)
@[simp] theorem State.setCalZone_pailMem {z : CalZone} : (s.setCalZone z).pailMem = s.pailMem := (rfl)
@[simp] theorem State.setCalZone_retSram {z : CalZone} : (s.setCalZone z).retSram = s.retSram := (rfl)
@[simp] theorem State.setCalZone_tallyRam {z : CalZone} : (s.setCalZone z).tallyRam = s.tallyRam := (rfl)
@[simp] theorem State.setCalZone_flash {z : CalZone} : (s.setCalZone z).flash = s.flash := (rfl)
@[simp] theorem State.setCalZone_outs {z : CalZone} : (s.setCalZone z).outs = s.outs := (rfl)
@[simp] theorem State.setCalZone_freeCount {z : CalZone} : (s.setCalZone z).freeCount = s.freeCount := (rfl)
@[simp] theorem State.setCalZone_sys {z : CalZone} : (s.setCalZone z).sys = s.sys := (rfl)
@[simp] theorem State.setCalZone_str {z : CalZone} : (s.setCalZone z).str = s.str := (rfl)
@[simp] theorem State.setCalZone_eng {z : CalZone} : (s.setCalZone z).eng = s.eng := (rfl)
@[simp] theorem State.setCalZone_sig {z : CalZone} : (s.setCalZone z).sig = s.sig := (rfl)
@[simp] theorem State.setCalZone_cmd {z : CalZone} : (s.setCalZone z).cmd = s.cmd := (rfl)
@[simp] theorem State.setCalZone_par {z : CalZone} : (s.setCalZone z).par = s.par := (rfl)
@[simp] theorem State.setCalZone_host {z : CalZone} : (s.setCalZone z).host = s.host := (rfl)
@[simp] theorem State.setCalZone_tly {z : CalZone} : (s.setCalZone z).tly = s.tly := (rfl)
@[simp] theorem State.setCalZone_flt {z : CalZone} : (s.setCalZone z).flt = s.flt := (rfl)
@[simp] theorem State.setCalZone_red {z : CalZone} : (s.setCalZone z).red = s.red := (rfl)
@[simp] theorem State.setCalZone_ing {z : CalZone} : (s.setCalZone z).ing = s.ing := (rfl)
@[simp] theorem State.setCalZone_frames {z : CalZone} : (s.setCalZone z).frames = s.frames := (rfl)
@[simp] theorem State.setCalZone_layerKeep {z : CalZone} : (s.setCalZone z).layerKeep = s.layerKeep := (rfl)
@[simp] theorem State.setCalZone_mem {z : CalZone} : (s.setCalZone z).mem = s.mem := (rfl)
@[simp] theorem State.setCalZone_cmp {z : CalZone} : (s.setCalZone z).cmp = s.cmp := (rfl)
@[simp] theorem State.setCalZone_sep {z : CalZone} : (s.setCalZone z).sep = s.sep := (rfl)
@[simp] theorem State.setCalZone_gov {z : CalZone} : (s.setCalZone z).gov = s.gov := (rfl)
@[simp] theorem State.setCalZone_links {z : CalZone} : (s.setCalZone z).links = s.links := (rfl)
@[simp] theorem State.setCalZone_dvl {z : CalZone} : (s.setCalZone z).dvl = s.dvl := (rfl)
@[simp] theorem State.setCalZone_fix {z : CalZone} : (s.setCalZone z).fix = s.fix := (rfl)
@[simp] theorem State.setCalZone_ddp {z : CalZone} : (s.setCalZone z).ddp = s.ddp := (rfl)
@[simp] theorem State.setCalZone_tim {z : CalZone} : (s.setCalZone z).tim = s.tim := (rfl)
@[simp] theorem State.setCalZone_fuses {z : CalZone} : (s.setCalZone z).fuses = s.fuses := (rfl)
@[simp] theorem State.setCalZone_pwr {z : CalZone} : (s.setCalZone z).pwr = s.pwr := (rfl)
@[simp] theorem State.setCalZone_upd {z : CalZone} : (s.setCalZone z).upd = s.upd := (rfl)
@[simp] theorem State.setCalZone_get {z : CalZone} {g : Field} {j : Nat} : (s.setCalZone z).get g j = s.get g j := (rfl)
@[simp] theorem State.setCalZone_flag {z : CalZone} {g : Field} {j : Nat} : (s.setCalZone z).flag g j = s.flag g j := (rfl)
@[simp] theorem State.setCalZone_get64 {z : CalZone} {g : Field} {j : Nat} : (s.setCalZone z).get64 g j = s.get64 g j := (rfl)
@[simp] theorem State.setCalZone_reg {z : CalZone} {q : Nat} : (s.setCalZone z).reg q = s.reg q := (rfl)

/-! ### setGovEp -/

@[simp] theorem State.setGovEp_pending {x : GovEp} : (s.setGovEp x).pending = s.pending := (rfl)
@[simp] theorem State.setGovEp_now {x : GovEp} : (s.setGovEp x).now = s.now := (rfl)
@[simp] theorem State.setGovEp_uptime {x : GovEp} : (s.setGovEp x).uptime = s.uptime := (rfl)
@[simp] theorem State.setGovEp_regs {x : GovEp} : (s.setGovEp x).regs = s.regs := (rfl)
@[simp] theorem State.setGovEp_hiLatch {x : GovEp} : (s.setGovEp x).hiLatch = s.hiLatch := (rfl)
@[simp] theorem State.setGovEp_bulk {x : GovEp} : (s.setGovEp x).bulk = s.bulk := (rfl)
@[simp] theorem State.setGovEp_pailMem {x : GovEp} : (s.setGovEp x).pailMem = s.pailMem := (rfl)
@[simp] theorem State.setGovEp_retSram {x : GovEp} : (s.setGovEp x).retSram = s.retSram := (rfl)
@[simp] theorem State.setGovEp_tallyRam {x : GovEp} : (s.setGovEp x).tallyRam = s.tallyRam := (rfl)
@[simp] theorem State.setGovEp_flash {x : GovEp} : (s.setGovEp x).flash = s.flash := (rfl)
@[simp] theorem State.setGovEp_outs {x : GovEp} : (s.setGovEp x).outs = s.outs := (rfl)
@[simp] theorem State.setGovEp_freeCount {x : GovEp} : (s.setGovEp x).freeCount = s.freeCount := (rfl)
@[simp] theorem State.setGovEp_sys {x : GovEp} : (s.setGovEp x).sys = s.sys := (rfl)
@[simp] theorem State.setGovEp_str {x : GovEp} : (s.setGovEp x).str = s.str := (rfl)
@[simp] theorem State.setGovEp_eng {x : GovEp} : (s.setGovEp x).eng = s.eng := (rfl)
@[simp] theorem State.setGovEp_sig {x : GovEp} : (s.setGovEp x).sig = s.sig := (rfl)
@[simp] theorem State.setGovEp_cmd {x : GovEp} : (s.setGovEp x).cmd = s.cmd := (rfl)
@[simp] theorem State.setGovEp_par {x : GovEp} : (s.setGovEp x).par = s.par := (rfl)
@[simp] theorem State.setGovEp_host {x : GovEp} : (s.setGovEp x).host = s.host := (rfl)
@[simp] theorem State.setGovEp_tly {x : GovEp} : (s.setGovEp x).tly = s.tly := (rfl)
@[simp] theorem State.setGovEp_flt {x : GovEp} : (s.setGovEp x).flt = s.flt := (rfl)
@[simp] theorem State.setGovEp_red {x : GovEp} : (s.setGovEp x).red = s.red := (rfl)
@[simp] theorem State.setGovEp_ing {x : GovEp} : (s.setGovEp x).ing = s.ing := (rfl)
@[simp] theorem State.setGovEp_frames {x : GovEp} : (s.setGovEp x).frames = s.frames := (rfl)
@[simp] theorem State.setGovEp_layerKeep {x : GovEp} : (s.setGovEp x).layerKeep = s.layerKeep := (rfl)
@[simp] theorem State.setGovEp_mem {x : GovEp} : (s.setGovEp x).mem = s.mem := (rfl)
@[simp] theorem State.setGovEp_cmp {x : GovEp} : (s.setGovEp x).cmp = s.cmp := (rfl)
@[simp] theorem State.setGovEp_cal {x : GovEp} : (s.setGovEp x).cal = s.cal := (rfl)
@[simp] theorem State.setGovEp_sep {x : GovEp} : (s.setGovEp x).sep = s.sep := (rfl)
@[simp] theorem State.setGovEp_links {x : GovEp} : (s.setGovEp x).links = s.links := (rfl)
@[simp] theorem State.setGovEp_dvl {x : GovEp} : (s.setGovEp x).dvl = s.dvl := (rfl)
@[simp] theorem State.setGovEp_fix {x : GovEp} : (s.setGovEp x).fix = s.fix := (rfl)
@[simp] theorem State.setGovEp_ddp {x : GovEp} : (s.setGovEp x).ddp = s.ddp := (rfl)
@[simp] theorem State.setGovEp_tim {x : GovEp} : (s.setGovEp x).tim = s.tim := (rfl)
@[simp] theorem State.setGovEp_fuses {x : GovEp} : (s.setGovEp x).fuses = s.fuses := (rfl)
@[simp] theorem State.setGovEp_pwr {x : GovEp} : (s.setGovEp x).pwr = s.pwr := (rfl)
@[simp] theorem State.setGovEp_upd {x : GovEp} : (s.setGovEp x).upd = s.upd := (rfl)
@[simp] theorem State.setGovEp_get {x : GovEp} {g : Field} {j : Nat} : (s.setGovEp x).get g j = s.get g j := (rfl)
@[simp] theorem State.setGovEp_flag {x : GovEp} {g : Field} {j : Nat} : (s.setGovEp x).flag g j = s.flag g j := (rfl)
@[simp] theorem State.setGovEp_get64 {x : GovEp} {g : Field} {j : Nat} : (s.setGovEp x).get64 g j = s.get64 g j := (rfl)
@[simp] theorem State.setGovEp_reg {x : GovEp} {q : Nat} : (s.setGovEp x).reg q = s.reg q := (rfl)

/-! ### setMotion -/

@[simp] theorem State.setMotion_pending {m : Motion} : (s.setMotion m).pending = s.pending := (rfl)
@[simp] theorem State.setMotion_now {m : Motion} : (s.setMotion m).now = s.now := (rfl)
@[simp] theorem State.setMotion_uptime {m : Motion} : (s.setMotion m).uptime = s.uptime := (rfl)
@[simp] theorem State.setMotion_regs {m : Motion} : (s.setMotion m).regs = s.regs := (rfl)
@[simp] theorem State.setMotion_hiLatch {m : Motion} : (s.setMotion m).hiLatch = s.hiLatch := (rfl)
@[simp] theorem State.setMotion_bulk {m : Motion} : (s.setMotion m).bulk = s.bulk := (rfl)
@[simp] theorem State.setMotion_pailMem {m : Motion} : (s.setMotion m).pailMem = s.pailMem := (rfl)
@[simp] theorem State.setMotion_retSram {m : Motion} : (s.setMotion m).retSram = s.retSram := (rfl)
@[simp] theorem State.setMotion_tallyRam {m : Motion} : (s.setMotion m).tallyRam = s.tallyRam := (rfl)
@[simp] theorem State.setMotion_flash {m : Motion} : (s.setMotion m).flash = s.flash := (rfl)
@[simp] theorem State.setMotion_outs {m : Motion} : (s.setMotion m).outs = s.outs := (rfl)
@[simp] theorem State.setMotion_freeCount {m : Motion} : (s.setMotion m).freeCount = s.freeCount := (rfl)
@[simp] theorem State.setMotion_sys {m : Motion} : (s.setMotion m).sys = s.sys := (rfl)
@[simp] theorem State.setMotion_str {m : Motion} : (s.setMotion m).str = s.str := (rfl)
@[simp] theorem State.setMotion_eng {m : Motion} : (s.setMotion m).eng = s.eng := (rfl)
@[simp] theorem State.setMotion_sig {m : Motion} : (s.setMotion m).sig = s.sig := (rfl)
@[simp] theorem State.setMotion_cmd {m : Motion} : (s.setMotion m).cmd = s.cmd := (rfl)
@[simp] theorem State.setMotion_par {m : Motion} : (s.setMotion m).par = s.par := (rfl)
@[simp] theorem State.setMotion_host {m : Motion} : (s.setMotion m).host = s.host := (rfl)
@[simp] theorem State.setMotion_tly {m : Motion} : (s.setMotion m).tly = s.tly := (rfl)
@[simp] theorem State.setMotion_flt {m : Motion} : (s.setMotion m).flt = s.flt := (rfl)
@[simp] theorem State.setMotion_red {m : Motion} : (s.setMotion m).red = s.red := (rfl)
@[simp] theorem State.setMotion_ing {m : Motion} : (s.setMotion m).ing = s.ing := (rfl)
@[simp] theorem State.setMotion_frames {m : Motion} : (s.setMotion m).frames = s.frames := (rfl)
@[simp] theorem State.setMotion_layerKeep {m : Motion} : (s.setMotion m).layerKeep = s.layerKeep := (rfl)
@[simp] theorem State.setMotion_mem {m : Motion} : (s.setMotion m).mem = s.mem := (rfl)
@[simp] theorem State.setMotion_cmp {m : Motion} : (s.setMotion m).cmp = s.cmp := (rfl)
@[simp] theorem State.setMotion_cal {m : Motion} : (s.setMotion m).cal = s.cal := (rfl)
@[simp] theorem State.setMotion_sep {m : Motion} : (s.setMotion m).sep = s.sep := (rfl)
@[simp] theorem State.setMotion_gov {m : Motion} : (s.setMotion m).gov = s.gov := (rfl)
@[simp] theorem State.setMotion_links {m : Motion} : (s.setMotion m).links = s.links := (rfl)
@[simp] theorem State.setMotion_dvl {m : Motion} : (s.setMotion m).dvl = s.dvl := (rfl)
@[simp] theorem State.setMotion_ddp {m : Motion} : (s.setMotion m).ddp = s.ddp := (rfl)
@[simp] theorem State.setMotion_tim {m : Motion} : (s.setMotion m).tim = s.tim := (rfl)
@[simp] theorem State.setMotion_fuses {m : Motion} : (s.setMotion m).fuses = s.fuses := (rfl)
@[simp] theorem State.setMotion_pwr {m : Motion} : (s.setMotion m).pwr = s.pwr := (rfl)
@[simp] theorem State.setMotion_upd {m : Motion} : (s.setMotion m).upd = s.upd := (rfl)
@[simp] theorem State.setMotion_get {m : Motion} {g : Field} {j : Nat} : (s.setMotion m).get g j = s.get g j := (rfl)
@[simp] theorem State.setMotion_flag {m : Motion} {g : Field} {j : Nat} : (s.setMotion m).flag g j = s.flag g j := (rfl)
@[simp] theorem State.setMotion_get64 {m : Motion} {g : Field} {j : Nat} : (s.setMotion m).get64 g j = s.get64 g j := (rfl)
@[simp] theorem State.setMotion_reg {m : Motion} {q : Nat} : (s.setMotion m).reg q = s.reg q := (rfl)

/-! ### setUniv -/

@[simp] theorem State.setUniv_pending {u : Univ} : (s.setUniv u).pending = s.pending := (rfl)
@[simp] theorem State.setUniv_now {u : Univ} : (s.setUniv u).now = s.now := (rfl)
@[simp] theorem State.setUniv_uptime {u : Univ} : (s.setUniv u).uptime = s.uptime := (rfl)
@[simp] theorem State.setUniv_regs {u : Univ} : (s.setUniv u).regs = s.regs := (rfl)
@[simp] theorem State.setUniv_hiLatch {u : Univ} : (s.setUniv u).hiLatch = s.hiLatch := (rfl)
@[simp] theorem State.setUniv_bulk {u : Univ} : (s.setUniv u).bulk = s.bulk := (rfl)
@[simp] theorem State.setUniv_pailMem {u : Univ} : (s.setUniv u).pailMem = s.pailMem := (rfl)
@[simp] theorem State.setUniv_retSram {u : Univ} : (s.setUniv u).retSram = s.retSram := (rfl)
@[simp] theorem State.setUniv_tallyRam {u : Univ} : (s.setUniv u).tallyRam = s.tallyRam := (rfl)
@[simp] theorem State.setUniv_flash {u : Univ} : (s.setUniv u).flash = s.flash := (rfl)
@[simp] theorem State.setUniv_outs {u : Univ} : (s.setUniv u).outs = s.outs := (rfl)
@[simp] theorem State.setUniv_freeCount {u : Univ} : (s.setUniv u).freeCount = s.freeCount := (rfl)
@[simp] theorem State.setUniv_sys {u : Univ} : (s.setUniv u).sys = s.sys := (rfl)
@[simp] theorem State.setUniv_str {u : Univ} : (s.setUniv u).str = s.str := (rfl)
@[simp] theorem State.setUniv_eng {u : Univ} : (s.setUniv u).eng = s.eng := (rfl)
@[simp] theorem State.setUniv_sig {u : Univ} : (s.setUniv u).sig = s.sig := (rfl)
@[simp] theorem State.setUniv_cmd {u : Univ} : (s.setUniv u).cmd = s.cmd := (rfl)
@[simp] theorem State.setUniv_par {u : Univ} : (s.setUniv u).par = s.par := (rfl)
@[simp] theorem State.setUniv_host {u : Univ} : (s.setUniv u).host = s.host := (rfl)
@[simp] theorem State.setUniv_tly {u : Univ} : (s.setUniv u).tly = s.tly := (rfl)
@[simp] theorem State.setUniv_flt {u : Univ} : (s.setUniv u).flt = s.flt := (rfl)
@[simp] theorem State.setUniv_red {u : Univ} : (s.setUniv u).red = s.red := (rfl)
@[simp] theorem State.setUniv_ing {u : Univ} : (s.setUniv u).ing = s.ing := (rfl)
@[simp] theorem State.setUniv_frames {u : Univ} : (s.setUniv u).frames = s.frames := (rfl)
@[simp] theorem State.setUniv_layerKeep {u : Univ} : (s.setUniv u).layerKeep = s.layerKeep := (rfl)
@[simp] theorem State.setUniv_mem {u : Univ} : (s.setUniv u).mem = s.mem := (rfl)
@[simp] theorem State.setUniv_cmp {u : Univ} : (s.setUniv u).cmp = s.cmp := (rfl)
@[simp] theorem State.setUniv_cal {u : Univ} : (s.setUniv u).cal = s.cal := (rfl)
@[simp] theorem State.setUniv_sep {u : Univ} : (s.setUniv u).sep = s.sep := (rfl)
@[simp] theorem State.setUniv_gov {u : Univ} : (s.setUniv u).gov = s.gov := (rfl)
@[simp] theorem State.setUniv_links {u : Univ} : (s.setUniv u).links = s.links := (rfl)
@[simp] theorem State.setUniv_dvl {u : Univ} : (s.setUniv u).dvl = s.dvl := (rfl)
@[simp] theorem State.setUniv_ddp {u : Univ} : (s.setUniv u).ddp = s.ddp := (rfl)
@[simp] theorem State.setUniv_tim {u : Univ} : (s.setUniv u).tim = s.tim := (rfl)
@[simp] theorem State.setUniv_fuses {u : Univ} : (s.setUniv u).fuses = s.fuses := (rfl)
@[simp] theorem State.setUniv_pwr {u : Univ} : (s.setUniv u).pwr = s.pwr := (rfl)
@[simp] theorem State.setUniv_upd {u : Univ} : (s.setUniv u).upd = s.upd := (rfl)
@[simp] theorem State.setUniv_get {u : Univ} {g : Field} {j : Nat} : (s.setUniv u).get g j = s.get g j := (rfl)
@[simp] theorem State.setUniv_flag {u : Univ} {g : Field} {j : Nat} : (s.setUniv u).flag g j = s.flag g j := (rfl)
@[simp] theorem State.setUniv_get64 {u : Univ} {g : Field} {j : Nat} : (s.setUniv u).get64 g j = s.get64 g j := (rfl)
@[simp] theorem State.setUniv_reg {u : Univ} {q : Nat} : (s.setUniv u).reg q = s.reg q := (rfl)

end Sys2Proof.Machine
end

