-- ==== Sys2Proof/Laws/Regs.lean ====
section
/-! SUPPORT. Reading a register field after an update of the state: the field itself, another field, and what the
composite operations (an event bit, a Tally record) do to a field. -/
namespace Sys2Proof.Machine

variable {s : State}

/-- The field lies in its 32-bit register. -/
def Field.fits (f : Field) : Bool := decide (f.lo + f.width ≤ 32)

/-- Two field elements lie in different registers, or in bits of one register that do not meet. -/
def Field.apart (f : Field) (i : Nat) (g : Field) (j : Nat) : Prop :=
  f.addr i ≠ g.addr j ∨ f.lo + f.width ≤ g.lo ∨ g.lo + g.width ≤ f.lo

/-! ## Bits of a number -/

theorem putBits_same (x lo w v : Nat) : putBits x lo w v / 2 ^ lo % 2 ^ w = v % 2 ^ w := by
  have hpos : 0 < 2 ^ lo := Nat.two_pow_pos lo
  have h : putBits x lo w v = x % 2 ^ lo + 2 ^ lo * (v % 2 ^ w + 2 ^ w * (x / 2 ^ (lo + w))) := by
    simp only [putBits, Nat.pow_add, Nat.mul_add]
    ac_rfl
  rw [h, Nat.add_mul_div_left _ _ hpos, Nat.div_eq_of_lt (Nat.mod_lt _ hpos), Nat.zero_add, Nat.add_mul_mod_self_left, Nat.mod_mod]

theorem putBits_low (x lo w v m n : Nat) (h : m + n ≤ lo) : putBits x lo w v / 2 ^ m % 2 ^ n = x / 2 ^ m % 2 ^ n := by
  obtain ⟨d, rfl⟩ := Nat.exists_eq_add_of_le h
  have e : putBits x (m + n + d) w v =
      x % 2 ^ (m + n + d) + 2 ^ (m + n) * (2 ^ d * (v % 2 ^ w) + 2 ^ (d + w) * (x / 2 ^ (m + n + d + w))) := by
    simp only [putBits, Nat.pow_add, Nat.mul_add, Nat.mul_assoc, Nat.mul_comm, Nat.mul_left_comm, Nat.add_assoc,
      Nat.add_comm, Nat.add_left_comm]
  have key : ∀ a b : Nat, (a + 2 ^ (m + n) * b) / 2 ^ m % 2 ^ n = a / 2 ^ m % 2 ^ n := by
    intro a b
    rw [Nat.pow_add, Nat.mul_assoc, Nat.add_mul_div_left _ _ (Nat.two_pow_pos m), Nat.add_mul_mod_self_left]
  rw [e, key]
  have hx : x = x % 2 ^ (m + n + d) + 2 ^ (m + n) * (2 ^ d * (x / 2 ^ (m + n + d))) := by
    rw [← Nat.mul_assoc, ← Nat.pow_add]
    exact (Nat.mod_add_div x _).symm
  conv => rhs; rw [hx, key]

theorem putBits_high (x lo w v m n : Nat) (h : lo + w ≤ m) : putBits x lo w v / 2 ^ m % 2 ^ n = x / 2 ^ m % 2 ^ n := by
  obtain ⟨d, rfl⟩ := Nat.exists_eq_add_of_le h
  have hlt : x % 2 ^ lo + v % 2 ^ w * 2 ^ lo < 2 ^ (lo + w) := by
    have h1 : x % 2 ^ lo < 2 ^ lo := Nat.mod_lt _ (Nat.two_pow_pos lo)
    have h2 : v % 2 ^ w + 1 ≤ 2 ^ w := Nat.mod_lt _ (Nat.two_pow_pos w)
    calc x % 2 ^ lo + v % 2 ^ w * 2 ^ lo < 2 ^ lo + v % 2 ^ w * 2 ^ lo := by omega
      _ = (v % 2 ^ w + 1) * 2 ^ lo := by rw [Nat.add_mul, Nat.one_mul, Nat.add_comm]
      _ ≤ 2 ^ w * 2 ^ lo := Nat.mul_le_mul_right _ h2
      _ = 2 ^ (lo + w) := by rw [Nat.pow_add, Nat.mul_comm]
  have hq : putBits x lo w v / 2 ^ (lo + w) = x / 2 ^ (lo + w) := by
    unfold putBits
    rw [Nat.add_mul_div_right _ _ (Nat.two_pow_pos _), Nat.div_eq_of_lt hlt, Nat.zero_add]
  rw [Nat.pow_add, ← Nat.div_div_eq_div_mul, ← Nat.div_div_eq_div_mul, hq]

theorem putBits_lt (x lo w v : Nat) (hx : x < 2 ^ 32) (h : lo + w ≤ 32) : putBits x lo w v < 2 ^ 32 := by
  have h1 : putBits x lo w v / 2 ^ (lo + w) = x / 2 ^ (lo + w) := by
    have := putBits_high x lo w v (lo + w) (32 - (lo + w)) (Nat.le_refl _)
    unfold putBits
    have hlt : x % 2 ^ lo + v % 2 ^ w * 2 ^ lo < 2 ^ (lo + w) := by
      have h1 : x % 2 ^ lo < 2 ^ lo := Nat.mod_lt _ (Nat.two_pow_pos lo)
      have h2 : v % 2 ^ w + 1 ≤ 2 ^ w := Nat.mod_lt _ (Nat.two_pow_pos w)
      calc x % 2 ^ lo + v % 2 ^ w * 2 ^ lo < 2 ^ lo + v % 2 ^ w * 2 ^ lo := by omega
        _ = (v % 2 ^ w + 1) * 2 ^ lo := by rw [Nat.add_mul, Nat.one_mul, Nat.add_comm]
        _ ≤ 2 ^ w * 2 ^ lo := Nat.mul_le_mul_right _ h2
        _ = 2 ^ (lo + w) := by rw [Nat.pow_add, Nat.mul_comm]
    rw [Nat.add_mul_div_right _ _ (Nat.two_pow_pos _), Nat.div_eq_of_lt hlt, Nat.zero_add]
  have e : (2 : Nat) ^ 32 = 2 ^ (32 - (lo + w)) * 2 ^ (lo + w) := by rw [← Nat.pow_add]; congr 1; omega
  rw [e, ← Nat.div_lt_iff_lt_mul (Nat.two_pow_pos _), h1, Nat.div_lt_iff_lt_mul (Nat.two_pow_pos _), ← e]
  exact hx

/-! ## Registers -/

@[simp] theorem State.reg_setReg_same {a : Nat} {v : Word} : (s.setReg a v).reg a = v := sparseGet_set_same _ _ _ _

theorem State.reg_setReg_ne {a b : Nat} {v : Word} (h : a ≠ b) : (s.setReg a v).reg b = s.reg b := sparseGet_set_ne _ _ _ h

theorem State.reg_put_ne {f : Field} {v i a : Nat} (h : f.addr i ≠ a) : (s.put f v i).reg a = s.reg a := State.reg_setReg_ne h

/-- A field reads as what was put into it, cut to its width. -/
theorem State.get_put_same {f : Field} {v i : Nat} (h : f.fits = true) : (s.put f v i).get f i = v % 2 ^ f.width := by
  have hf : f.lo + f.width ≤ 32 := by simpa [Field.fits] using h
  unfold State.get State.put
  rw [State.reg_setReg_same, BitVec.toNat_ofNat, Nat.mod_eq_of_lt (putBits_lt _ _ _ _ (BitVec.isLt _) hf)]
  exact putBits_same _ _ _ _

/-- A put into one field leaves every field that lies apart from it. -/
theorem State.get_put_apart {f g : Field} {v i j : Nat} (h : f.apart i g j) (hf : f.fits = true) :
    (s.put f v i).get g j = s.get g j := by
  have hf : f.lo + f.width ≤ 32 := by simpa [Field.fits] using hf
  unfold State.get
  by_cases ha : f.addr i = g.addr j
  · rcases h with h | h | h
    · exact absurd ha h
    · unfold State.put
      rw [ha, State.reg_setReg_same, BitVec.toNat_ofNat, Nat.mod_eq_of_lt (putBits_lt _ _ _ _ (BitVec.isLt _) hf)]
      exact putBits_high _ _ _ _ _ _ h
    · unfold State.put
      rw [ha, State.reg_setReg_same, BitVec.toNat_ofNat, Nat.mod_eq_of_lt (putBits_lt _ _ _ _ (BitVec.isLt _) hf)]
      exact putBits_low _ _ _ _ _ _ h
  · rw [State.reg_put_ne ha]

/-- A field never exceeds its width. -/
theorem State.get_lt {f : Field} {i : Nat} : s.get f i < 2 ^ f.width := Nat.mod_lt _ (Nat.two_pow_pos _)

theorem State.get_putFlag_same {f : Field} {b : Bool} {i : Nat} (h : f.fits = true) (hw : f.width = 1) :
    (s.putFlag f b i).get f i = if b then 1 else 0 := by
  unfold State.putFlag
  rw [State.get_put_same h, hw]
  cases b <;> rfl

theorem State.flag_putFlag_same {f : Field} {b : Bool} {i : Nat} (h : f.fits = true) (hw : f.width = 1) :
    (s.putFlag f b i).flag f i = b := by
  unfold State.flag
  rw [State.get_putFlag_same h hw]
  cases b <;> rfl

theorem State.get_putFlag_apart {f g : Field} {b : Bool} {i j : Nat} (h : f.apart i g j) (hf : f.fits = true) :
    (s.putFlag f b i).get g j = s.get g j := State.get_put_apart h hf

theorem State.flag_put_apart {f g : Field} {v i j : Nat} (h : f.apart i g j) (hf : f.fits = true) :
    (s.put f v i).flag g j = s.flag g j := by
  unfold State.flag
  rw [State.get_put_apart h hf]

theorem State.flag_putFlag_apart {f g : Field} {b : Bool} {i j : Nat} (h : f.apart i g j) (hf : f.fits = true) :
    (s.putFlag f b i).flag g j = s.flag g j := State.flag_put_apart h hf

theorem State.get_add_same {f : Field} {n i : Nat} (h : f.fits = true) :
    (s.add f n i).get f i = min (2 ^ f.width - 1) (s.get f i + n) := by
  unfold State.add
  rw [State.get_put_same h]
  have : satAdd (2 ^ f.width - 1) (s.get f i) n < 2 ^ f.width := by
    have := Nat.two_pow_pos f.width
    unfold satAdd
    exact Nat.lt_of_le_of_lt (Nat.min_le_left _ _) (by omega)
  rw [Nat.mod_eq_of_lt this]
  rfl

theorem State.get_add_apart {f g : Field} {n i j : Nat} (h : f.apart i g j) (hf : f.fits = true) :
    (s.add f n i).get g j = s.get g j := State.get_put_apart h hf

theorem State.flag_add_apart {f g : Field} {n i j : Nat} (h : f.apart i g j) (hf : f.fits = true) :
    (s.add f n i).flag g j = s.flag g j := State.flag_put_apart h hf

theorem State.get_bump_same {f : Field} {i : Nat} (h : f.fits = true) :
    (s.bump f i).get f i = min (2 ^ f.width - 1) (s.get f i + 1) := State.get_add_same h

theorem State.get_bump_apart {f g : Field} {i j : Nat} (h : f.apart i g j) (hf : f.fits = true) :
    (s.bump f i).get g j = s.get g j := State.get_put_apart h hf

theorem State.flag_bump_apart {f g : Field} {i j : Nat} (h : f.apart i g j) (hf : f.fits = true) :
    (s.bump f i).flag g j = s.flag g j := State.flag_put_apart h hf

theorem State.get_advance_same {f : Field} {i : Nat} (h : f.fits = true) :
    (s.advance f i).get f i = (s.get f i + 1) % 2 ^ f.width := State.get_put_same h

theorem State.get_advance_apart {f g : Field} {i j : Nat} (h : f.apart i g j) (hf : f.fits = true) :
    (s.advance f i).get g j = s.get g j := State.get_put_apart h hf

theorem State.flag_advance_apart {f g : Field} {i j : Nat} (h : f.apart i g j) (hf : f.fits = true) :
    (s.advance f i).flag g j = s.flag g j := State.flag_put_apart h hf

/-! ## Messages, events and records -/

@[simp] theorem State.msi_get {v : Nat} {g : Field} {j : Nat} : (s.msi v).get g j = s.get g j := by
  unfold State.msi
  repeat' (first | rfl | split)

@[simp] theorem State.msi_flag {v : Nat} {g : Field} {j : Nat} : (s.msi v).flag g j = s.flag g j := by
  unfold State.flag
  rw [State.msi_get]

/-- Everything that raising an event can do: nothing where its bit stands, else the bit is set, with a message or without. -/
theorem State.raise_cases (s : State) (f : Field) (i : Nat) :
    (s.flag f i = true ∧ s.raise f i = s) ∨ (s.flag f i = false ∧ s.raise f i = s.putFlag f true i) ∨
      (s.flag f i = false ∧ s.raise f i = (s.putFlag f true i).msi ((s.putFlag f true i).vectorOf (f.addr i))) := by
  cases h : s.flag f i
  · right
    unfold State.raise
    simp only [h, Bool.false_eq_true, if_false]
    by_cases h1 : (inByre (f.addr i) && (s.putFlag f true i).flag F.DBR_CTL_POLL_EN) = true
    · left
      exact ⟨trivial, if_pos h1⟩
    · by_cases h2 : (s.putFlag f true i).vectorOf (f.addr i) < 64
      · right
        exact ⟨trivial, by rw [if_neg h1, if_pos h2]⟩
      · left
        exact ⟨trivial, by rw [if_neg h1, if_neg h2]⟩
  · left
    unfold State.raise
    simp only [h, if_true, and_self]

/-- An event bit that is raised stands. -/
theorem State.flag_raise_same {f : Field} {i : Nat} (h : f.fits = true) (hw : f.width = 1) : (s.raise f i).flag f i = true := by
  rcases State.raise_cases s f i with ⟨h1, h2⟩ | ⟨_, h2⟩ | ⟨_, h2⟩ <;> rw [h2]
  · exact h1
  · exact State.flag_putFlag_same h hw
  · rw [State.msi_flag]
    exact State.flag_putFlag_same h hw

/-- Raising an event changes no field but its bit. -/
theorem State.get_raise_apart {f g : Field} {i j : Nat} (h : f.apart i g j) (hf : f.fits = true) :
    (s.raise f i).get g j = s.get g j := by
  rcases State.raise_cases s f i with ⟨_, h2⟩ | ⟨_, h2⟩ | ⟨_, h2⟩ <;> rw [h2]
  · exact State.get_putFlag_apart h hf
  · rw [State.msi_get]
    exact State.get_putFlag_apart h hf

theorem State.flag_raise_apart {f g : Field} {i j : Nat} (h : f.apart i g j) (hf : f.fits = true) :
    (s.raise f i).flag g j = s.flag g j := by
  unfold State.flag
  rw [State.get_raise_apart h hf]

/-- A record that the intake has room for. -/
theorem State.tally_room {code : Nat} {items : List Nat} (h : s.tly.intake.length < 64) :
    s.tally code items = { s with
      tly := { s.tly with intake := s.tly.intake ++ [⟨code, s.nowNs % 2 ^ 64, items⟩] } } := by
  unfold State.tally
  rw [if_pos h]

/-- A Tally record changes no field but TLY_LOST and its event bit. -/
theorem State.get_tally_apart {code : Nat} {items : List Nat} {g : Field} {j : Nat} (h : R.TLY_LOST.apart 0 g j)
    (h' : F.TLY_EVT_LOST.apart 0 g j) : (s.tally code items).get g j = s.get g j := by
  unfold State.tally
  split
  · rfl
  · dsimp only
    rw [State.get_raise_apart h' (by decide), State.get_bump_apart h (by decide)]
    rfl

theorem State.flag_tally_apart {code : Nat} {items : List Nat} {g : Field} {j : Nat} (h : R.TLY_LOST.apart 0 g j)
    (h' : F.TLY_EVT_LOST.apart 0 g j) : (s.tally code items).flag g j = s.flag g j := by
  unfold State.flag
  rw [State.get_tally_apart h h']

end Sys2Proof.Machine
end

