-- ==== Sys2Proof/Laws/Events.lean ====
section
/-! SUPPORT. What the composite operations leave of each field: a message, an event bit, a Tally record with or without a
limit, and the coming of an instant. First everything each can do, then its fields one by one. -/
namespace Sys2Proof.Machine

variable {s : State}

theorem State.msi_frame (s : State) (v : Nat) : ∃ h o, s.msi v = { s with host := h, outs := o } := by
  unfold State.msi
  split
  · exact ⟨s.host, s.outs, rfl⟩
  · split
    · exact ⟨_, s.outs, rfl⟩
    · exact ⟨s.host, _, rfl⟩

theorem State.raise_frame (s : State) (f : Field) (i : Nat) :
    ∃ r h o, s.raise f i = { s with regs := r, host := h, outs := o } := by
  rcases State.raise_cases s f i with ⟨_, e⟩ | ⟨_, e⟩ | ⟨_, e⟩
  · exact ⟨s.regs, s.host, s.outs, e⟩
  · exact ⟨_, s.host, s.outs, e⟩
  · obtain ⟨h, o, m⟩ := State.msi_frame (s.putFlag f true i) ((s.putFlag f true i).vectorOf (f.addr i))
    exact ⟨_, h, o, e.trans m⟩

/-- A record that finds the intake full. -/
theorem State.tally_full (s : State) {c : Nat} {l : List Nat} (hl : ¬ s.tly.intake.length < 64) :
    s.tally c l = (({ s with tly := { s.tly with lostIntake := s.tly.lostIntake + 1 } } : State).bump R.TLY_LOST).raise
      F.TLY_EVT_LOST 0 := by
  unfold State.tally
  rw [if_neg hl]

theorem State.tally_frame (s : State) (c : Nat) (l : List Nat) :
    ∃ r h o t, s.tally c l = { s with regs := r, host := h, outs := o, tly := t } := by
  have key (x : State) (f g : Field) : ∃ r h o t, (x.bump f).raise g 0 = { x with regs := r, host := h, outs := o, tly := t } := by
    obtain ⟨r, h, o, e⟩ := State.raise_frame (x.bump f) g 0
    exact ⟨r, h, o, x.tly, e⟩
  by_cases hl : s.tly.intake.length < 64
  · rw [State.tally_room hl]
    exact ⟨s.regs, s.host, s.outs, _, rfl⟩
  · rw [State.tally_full s hl]
    obtain ⟨r, h, o, t, e⟩ := key { s with tly := { s.tly with lostIntake := s.tly.lostIntake + 1 } } R.TLY_LOST F.TLY_EVT_LOST
    exact ⟨r, h, o, t, e⟩

theorem State.tallyLimitedV_frame (s : State) (k p c v : Nat) (l : Nat → Nat → List Nat) :
    ∃ r h o t, s.tallyLimitedV k p c v l = { s with regs := r, host := h, outs := o, tly := t } := by
  unfold State.tallyLimitedV
  split
  · obtain ⟨r, h, o, t, e⟩ := State.tally_frame (s.setLimits (s.tly.limits ++ [⟨k, s.uptime, 0, 0⟩])) c (l 1 v)
    exact ⟨r, h, o, t, e⟩
  · split
    · obtain ⟨r, h, o, t, e⟩ := State.tally_frame _ c _
      exact ⟨r, h, o, t, e⟩
    · exact ⟨s.regs, s.host, s.outs, _, rfl⟩

theorem State.atTime_frame (s : State) (t : Nat) : ∃ n u, s.atTime t = { s with now := n, uptime := u } := by
  unfold State.atTime
  split
  · exact ⟨_, _, rfl⟩
  · exact ⟨s.now, s.uptime, rfl⟩

theorem State.atUptime_frame (s : State) (t : Nat) : ∃ n u, s.atUptime t = { s with now := n, uptime := u } := by
  unfold State.atUptime
  split
  · exact ⟨_, _, rfl⟩
  · exact ⟨s.now, s.uptime, rfl⟩

/-! ### msi -/

@[simp] theorem State.msi_pending {v : Nat} : (s.msi v).pending = s.pending := by
  obtain ⟨_, _, e⟩ := State.msi_frame s v; rw [e]
@[simp] theorem State.msi_now {v : Nat} : (s.msi v).now = s.now := by
  obtain ⟨_, _, e⟩ := State.msi_frame s v; rw [e]
@[simp] theorem State.msi_uptime {v : Nat} : (s.msi v).uptime = s.uptime := by
  obtain ⟨_, _, e⟩ := State.msi_frame s v; rw [e]
@[simp] theorem State.msi_regs {v : Nat} : (s.msi v).regs = s.regs := by
  obtain ⟨_, _, e⟩ := State.msi_frame s v; rw [e]
@[simp] theorem State.msi_hiLatch {v : Nat} : (s.msi v).hiLatch = s.hiLatch := by
  obtain ⟨_, _, e⟩ := State.msi_frame s v; rw [e]
@[simp] theorem State.msi_bulk {v : Nat} : (s.msi v).bulk = s.bulk := by
  obtain ⟨_, _, e⟩ := State.msi_frame s v; rw [e]
@[simp] theorem State.msi_pailMem {v : Nat} : (s.msi v).pailMem = s.pailMem := by
  obtain ⟨_, _, e⟩ := State.msi_frame s v; rw [e]
@[simp] theorem State.msi_retSram {v : Nat} : (s.msi v).retSram = s.retSram := by
  obtain ⟨_, _, e⟩ := State.msi_frame s v; rw [e]
@[simp] theorem State.msi_tallyRam {v : Nat} : (s.msi v).tallyRam = s.tallyRam := by
  obtain ⟨_, _, e⟩ := State.msi_frame s v; rw [e]
@[simp] theorem State.msi_flash {v : Nat} : (s.msi v).flash = s.flash := by
  obtain ⟨_, _, e⟩ := State.msi_frame s v; rw [e]
@[simp] theorem State.msi_freeCount {v : Nat} : (s.msi v).freeCount = s.freeCount := by
  obtain ⟨_, _, e⟩ := State.msi_frame s v; rw [e]
@[simp] theorem State.msi_sys {v : Nat} : (s.msi v).sys = s.sys := by
  obtain ⟨_, _, e⟩ := State.msi_frame s v; rw [e]
@[simp] theorem State.msi_str {v : Nat} : (s.msi v).str = s.str := by
  obtain ⟨_, _, e⟩ := State.msi_frame s v; rw [e]
@[simp] theorem State.msi_eng {v : Nat} : (s.msi v).eng = s.eng := by
  obtain ⟨_, _, e⟩ := State.msi_frame s v; rw [e]
@[simp] theorem State.msi_sig {v : Nat} : (s.msi v).sig = s.sig := by
  obtain ⟨_, _, e⟩ := State.msi_frame s v; rw [e]
@[simp] theorem State.msi_cmd {v : Nat} : (s.msi v).cmd = s.cmd := by
  obtain ⟨_, _, e⟩ := State.msi_frame s v; rw [e]
@[simp] theorem State.msi_par {v : Nat} : (s.msi v).par = s.par := by
  obtain ⟨_, _, e⟩ := State.msi_frame s v; rw [e]
@[simp] theorem State.msi_tly {v : Nat} : (s.msi v).tly = s.tly := by
  obtain ⟨_, _, e⟩ := State.msi_frame s v; rw [e]
@[simp] theorem State.msi_flt {v : Nat} : (s.msi v).flt = s.flt := by
  obtain ⟨_, _, e⟩ := State.msi_frame s v; rw [e]
@[simp] theorem State.msi_red {v : Nat} : (s.msi v).red = s.red := by
  obtain ⟨_, _, e⟩ := State.msi_frame s v; rw [e]
@[simp] theorem State.msi_ing {v : Nat} : (s.msi v).ing = s.ing := by
  obtain ⟨_, _, e⟩ := State.msi_frame s v; rw [e]
@[simp] theorem State.msi_frames {v : Nat} : (s.msi v).frames = s.frames := by
  obtain ⟨_, _, e⟩ := State.msi_frame s v; rw [e]
@[simp] theorem State.msi_layerKeep {v : Nat} : (s.msi v).layerKeep = s.layerKeep := by
  obtain ⟨_, _, e⟩ := State.msi_frame s v; rw [e]
@[simp] theorem State.msi_mem {v : Nat} : (s.msi v).mem = s.mem := by
  obtain ⟨_, _, e⟩ := State.msi_frame s v; rw [e]
@[simp] theorem State.msi_cmp {v : Nat} : (s.msi v).cmp = s.cmp := by
  obtain ⟨_, _, e⟩ := State.msi_frame s v; rw [e]
@[simp] theorem State.msi_cal {v : Nat} : (s.msi v).cal = s.cal := by
  obtain ⟨_, _, e⟩ := State.msi_frame s v; rw [e]
@[simp] theorem State.msi_sep {v : Nat} : (s.msi v).sep = s.sep := by
  obtain ⟨_, _, e⟩ := State.msi_frame s v; rw [e]
@[simp] theorem State.msi_gov {v : Nat} : (s.msi v).gov = s.gov := by
  obtain ⟨_, _, e⟩ := State.msi_frame s v; rw [e]
@[simp] theorem State.msi_links {v : Nat} : (s.msi v).links = s.links := by
  obtain ⟨_, _, e⟩ := State.msi_frame s v; rw [e]
@[simp] theorem State.msi_dvl {v : Nat} : (s.msi v).dvl = s.dvl := by
  obtain ⟨_, _, e⟩ := State.msi_frame s v; rw [e]
@[simp] theorem State.msi_fix {v : Nat} : (s.msi v).fix = s.fix := by
  obtain ⟨_, _, e⟩ := State.msi_frame s v; rw [e]
@[simp] theorem State.msi_ddp {v : Nat} : (s.msi v).ddp = s.ddp := by
  obtain ⟨_, _, e⟩ := State.msi_frame s v; rw [e]
@[simp] theorem State.msi_tim {v : Nat} : (s.msi v).tim = s.tim := by
  obtain ⟨_, _, e⟩ := State.msi_frame s v; rw [e]
@[simp] theorem State.msi_fuses {v : Nat} : (s.msi v).fuses = s.fuses := by
  obtain ⟨_, _, e⟩ := State.msi_frame s v; rw [e]
@[simp] theorem State.msi_pwr {v : Nat} : (s.msi v).pwr = s.pwr := by
  obtain ⟨_, _, e⟩ := State.msi_frame s v; rw [e]
@[simp] theorem State.msi_upd {v : Nat} : (s.msi v).upd = s.upd := by
  obtain ⟨_, _, e⟩ := State.msi_frame s v; rw [e]

/-! ### raise -/

@[simp] theorem State.raise_pending {g : Field} {i : Nat} : (s.raise g i).pending = s.pending := by
  obtain ⟨_, _, _, e⟩ := State.raise_frame s g i; rw [e]
@[simp] theorem State.raise_now {g : Field} {i : Nat} : (s.raise g i).now = s.now := by
  obtain ⟨_, _, _, e⟩ := State.raise_frame s g i; rw [e]
@[simp] theorem State.raise_uptime {g : Field} {i : Nat} : (s.raise g i).uptime = s.uptime := by
  obtain ⟨_, _, _, e⟩ := State.raise_frame s g i; rw [e]
@[simp] theorem State.raise_hiLatch {g : Field} {i : Nat} : (s.raise g i).hiLatch = s.hiLatch := by
  obtain ⟨_, _, _, e⟩ := State.raise_frame s g i; rw [e]
@[simp] theorem State.raise_bulk {g : Field} {i : Nat} : (s.raise g i).bulk = s.bulk := by
  obtain ⟨_, _, _, e⟩ := State.raise_frame s g i; rw [e]
@[simp] theorem State.raise_pailMem {g : Field} {i : Nat} : (s.raise g i).pailMem = s.pailMem := by
  obtain ⟨_, _, _, e⟩ := State.raise_frame s g i; rw [e]
@[simp] theorem State.raise_retSram {g : Field} {i : Nat} : (s.raise g i).retSram = s.retSram := by
  obtain ⟨_, _, _, e⟩ := State.raise_frame s g i; rw [e]
@[simp] theorem State.raise_tallyRam {g : Field} {i : Nat} : (s.raise g i).tallyRam = s.tallyRam := by
  obtain ⟨_, _, _, e⟩ := State.raise_frame s g i; rw [e]
@[simp] theorem State.raise_flash {g : Field} {i : Nat} : (s.raise g i).flash = s.flash := by
  obtain ⟨_, _, _, e⟩ := State.raise_frame s g i; rw [e]
@[simp] theorem State.raise_freeCount {g : Field} {i : Nat} : (s.raise g i).freeCount = s.freeCount := by
  obtain ⟨_, _, _, e⟩ := State.raise_frame s g i; rw [e]
@[simp] theorem State.raise_sys {g : Field} {i : Nat} : (s.raise g i).sys = s.sys := by
  obtain ⟨_, _, _, e⟩ := State.raise_frame s g i; rw [e]
@[simp] theorem State.raise_str {g : Field} {i : Nat} : (s.raise g i).str = s.str := by
  obtain ⟨_, _, _, e⟩ := State.raise_frame s g i; rw [e]
@[simp] theorem State.raise_eng {g : Field} {i : Nat} : (s.raise g i).eng = s.eng := by
  obtain ⟨_, _, _, e⟩ := State.raise_frame s g i; rw [e]
@[simp] theorem State.raise_sig {g : Field} {i : Nat} : (s.raise g i).sig = s.sig := by
  obtain ⟨_, _, _, e⟩ := State.raise_frame s g i; rw [e]
@[simp] theorem State.raise_cmd {g : Field} {i : Nat} : (s.raise g i).cmd = s.cmd := by
  obtain ⟨_, _, _, e⟩ := State.raise_frame s g i; rw [e]
@[simp] theorem State.raise_par {g : Field} {i : Nat} : (s.raise g i).par = s.par := by
  obtain ⟨_, _, _, e⟩ := State.raise_frame s g i; rw [e]
@[simp] theorem State.raise_tly {g : Field} {i : Nat} : (s.raise g i).tly = s.tly := by
  obtain ⟨_, _, _, e⟩ := State.raise_frame s g i; rw [e]
@[simp] theorem State.raise_flt {g : Field} {i : Nat} : (s.raise g i).flt = s.flt := by
  obtain ⟨_, _, _, e⟩ := State.raise_frame s g i; rw [e]
@[simp] theorem State.raise_red {g : Field} {i : Nat} : (s.raise g i).red = s.red := by
  obtain ⟨_, _, _, e⟩ := State.raise_frame s g i; rw [e]
@[simp] theorem State.raise_ing {g : Field} {i : Nat} : (s.raise g i).ing = s.ing := by
  obtain ⟨_, _, _, e⟩ := State.raise_frame s g i; rw [e]
@[simp] theorem State.raise_frames {g : Field} {i : Nat} : (s.raise g i).frames = s.frames := by
  obtain ⟨_, _, _, e⟩ := State.raise_frame s g i; rw [e]
@[simp] theorem State.raise_layerKeep {g : Field} {i : Nat} : (s.raise g i).layerKeep = s.layerKeep := by
  obtain ⟨_, _, _, e⟩ := State.raise_frame s g i; rw [e]
@[simp] theorem State.raise_mem {g : Field} {i : Nat} : (s.raise g i).mem = s.mem := by
  obtain ⟨_, _, _, e⟩ := State.raise_frame s g i; rw [e]
@[simp] theorem State.raise_cmp {g : Field} {i : Nat} : (s.raise g i).cmp = s.cmp := by
  obtain ⟨_, _, _, e⟩ := State.raise_frame s g i; rw [e]
@[simp] theorem State.raise_cal {g : Field} {i : Nat} : (s.raise g i).cal = s.cal := by
  obtain ⟨_, _, _, e⟩ := State.raise_frame s g i; rw [e]
@[simp] theorem State.raise_sep {g : Field} {i : Nat} : (s.raise g i).sep = s.sep := by
  obtain ⟨_, _, _, e⟩ := State.raise_frame s g i; rw [e]
@[simp] theorem State.raise_gov {g : Field} {i : Nat} : (s.raise g i).gov = s.gov := by
  obtain ⟨_, _, _, e⟩ := State.raise_frame s g i; rw [e]
@[simp] theorem State.raise_links {g : Field} {i : Nat} : (s.raise g i).links = s.links := by
  obtain ⟨_, _, _, e⟩ := State.raise_frame s g i; rw [e]
@[simp] theorem State.raise_dvl {g : Field} {i : Nat} : (s.raise g i).dvl = s.dvl := by
  obtain ⟨_, _, _, e⟩ := State.raise_frame s g i; rw [e]
@[simp] theorem State.raise_fix {g : Field} {i : Nat} : (s.raise g i).fix = s.fix := by
  obtain ⟨_, _, _, e⟩ := State.raise_frame s g i; rw [e]
@[simp] theorem State.raise_ddp {g : Field} {i : Nat} : (s.raise g i).ddp = s.ddp := by
  obtain ⟨_, _, _, e⟩ := State.raise_frame s g i; rw [e]
@[simp] theorem State.raise_tim {g : Field} {i : Nat} : (s.raise g i).tim = s.tim := by
  obtain ⟨_, _, _, e⟩ := State.raise_frame s g i; rw [e]
@[simp] theorem State.raise_fuses {g : Field} {i : Nat} : (s.raise g i).fuses = s.fuses := by
  obtain ⟨_, _, _, e⟩ := State.raise_frame s g i; rw [e]
@[simp] theorem State.raise_pwr {g : Field} {i : Nat} : (s.raise g i).pwr = s.pwr := by
  obtain ⟨_, _, _, e⟩ := State.raise_frame s g i; rw [e]
@[simp] theorem State.raise_upd {g : Field} {i : Nat} : (s.raise g i).upd = s.upd := by
  obtain ⟨_, _, _, e⟩ := State.raise_frame s g i; rw [e]

/-! ### tally -/

@[simp] theorem State.tally_pending {c : Nat} {l : List Nat} : (s.tally c l).pending = s.pending := by
  obtain ⟨_, _, _, _, e⟩ := State.tally_frame s c l; rw [e]
@[simp] theorem State.tally_now {c : Nat} {l : List Nat} : (s.tally c l).now = s.now := by
  obtain ⟨_, _, _, _, e⟩ := State.tally_frame s c l; rw [e]
@[simp] theorem State.tally_uptime {c : Nat} {l : List Nat} : (s.tally c l).uptime = s.uptime := by
  obtain ⟨_, _, _, _, e⟩ := State.tally_frame s c l; rw [e]
@[simp] theorem State.tally_hiLatch {c : Nat} {l : List Nat} : (s.tally c l).hiLatch = s.hiLatch := by
  obtain ⟨_, _, _, _, e⟩ := State.tally_frame s c l; rw [e]
@[simp] theorem State.tally_bulk {c : Nat} {l : List Nat} : (s.tally c l).bulk = s.bulk := by
  obtain ⟨_, _, _, _, e⟩ := State.tally_frame s c l; rw [e]
@[simp] theorem State.tally_pailMem {c : Nat} {l : List Nat} : (s.tally c l).pailMem = s.pailMem := by
  obtain ⟨_, _, _, _, e⟩ := State.tally_frame s c l; rw [e]
@[simp] theorem State.tally_retSram {c : Nat} {l : List Nat} : (s.tally c l).retSram = s.retSram := by
  obtain ⟨_, _, _, _, e⟩ := State.tally_frame s c l; rw [e]
@[simp] theorem State.tally_tallyRam {c : Nat} {l : List Nat} : (s.tally c l).tallyRam = s.tallyRam := by
  obtain ⟨_, _, _, _, e⟩ := State.tally_frame s c l; rw [e]
@[simp] theorem State.tally_flash {c : Nat} {l : List Nat} : (s.tally c l).flash = s.flash := by
  obtain ⟨_, _, _, _, e⟩ := State.tally_frame s c l; rw [e]
@[simp] theorem State.tally_freeCount {c : Nat} {l : List Nat} : (s.tally c l).freeCount = s.freeCount := by
  obtain ⟨_, _, _, _, e⟩ := State.tally_frame s c l; rw [e]
@[simp] theorem State.tally_sys {c : Nat} {l : List Nat} : (s.tally c l).sys = s.sys := by
  obtain ⟨_, _, _, _, e⟩ := State.tally_frame s c l; rw [e]
@[simp] theorem State.tally_str {c : Nat} {l : List Nat} : (s.tally c l).str = s.str := by
  obtain ⟨_, _, _, _, e⟩ := State.tally_frame s c l; rw [e]
@[simp] theorem State.tally_eng {c : Nat} {l : List Nat} : (s.tally c l).eng = s.eng := by
  obtain ⟨_, _, _, _, e⟩ := State.tally_frame s c l; rw [e]
@[simp] theorem State.tally_sig {c : Nat} {l : List Nat} : (s.tally c l).sig = s.sig := by
  obtain ⟨_, _, _, _, e⟩ := State.tally_frame s c l; rw [e]
@[simp] theorem State.tally_cmd {c : Nat} {l : List Nat} : (s.tally c l).cmd = s.cmd := by
  obtain ⟨_, _, _, _, e⟩ := State.tally_frame s c l; rw [e]
@[simp] theorem State.tally_par {c : Nat} {l : List Nat} : (s.tally c l).par = s.par := by
  obtain ⟨_, _, _, _, e⟩ := State.tally_frame s c l; rw [e]
@[simp] theorem State.tally_flt {c : Nat} {l : List Nat} : (s.tally c l).flt = s.flt := by
  obtain ⟨_, _, _, _, e⟩ := State.tally_frame s c l; rw [e]
@[simp] theorem State.tally_red {c : Nat} {l : List Nat} : (s.tally c l).red = s.red := by
  obtain ⟨_, _, _, _, e⟩ := State.tally_frame s c l; rw [e]
@[simp] theorem State.tally_ing {c : Nat} {l : List Nat} : (s.tally c l).ing = s.ing := by
  obtain ⟨_, _, _, _, e⟩ := State.tally_frame s c l; rw [e]
@[simp] theorem State.tally_frames {c : Nat} {l : List Nat} : (s.tally c l).frames = s.frames := by
  obtain ⟨_, _, _, _, e⟩ := State.tally_frame s c l; rw [e]
@[simp] theorem State.tally_layerKeep {c : Nat} {l : List Nat} : (s.tally c l).layerKeep = s.layerKeep := by
  obtain ⟨_, _, _, _, e⟩ := State.tally_frame s c l; rw [e]
@[simp] theorem State.tally_mem {c : Nat} {l : List Nat} : (s.tally c l).mem = s.mem := by
  obtain ⟨_, _, _, _, e⟩ := State.tally_frame s c l; rw [e]
@[simp] theorem State.tally_cmp {c : Nat} {l : List Nat} : (s.tally c l).cmp = s.cmp := by
  obtain ⟨_, _, _, _, e⟩ := State.tally_frame s c l; rw [e]
@[simp] theorem State.tally_cal {c : Nat} {l : List Nat} : (s.tally c l).cal = s.cal := by
  obtain ⟨_, _, _, _, e⟩ := State.tally_frame s c l; rw [e]
@[simp] theorem State.tally_sep {c : Nat} {l : List Nat} : (s.tally c l).sep = s.sep := by
  obtain ⟨_, _, _, _, e⟩ := State.tally_frame s c l; rw [e]
@[simp] theorem State.tally_gov {c : Nat} {l : List Nat} : (s.tally c l).gov = s.gov := by
  obtain ⟨_, _, _, _, e⟩ := State.tally_frame s c l; rw [e]
@[simp] theorem State.tally_links {c : Nat} {l : List Nat} : (s.tally c l).links = s.links := by
  obtain ⟨_, _, _, _, e⟩ := State.tally_frame s c l; rw [e]
@[simp] theorem State.tally_dvl {c : Nat} {l : List Nat} : (s.tally c l).dvl = s.dvl := by
  obtain ⟨_, _, _, _, e⟩ := State.tally_frame s c l; rw [e]
@[simp] theorem State.tally_fix {c : Nat} {l : List Nat} : (s.tally c l).fix = s.fix := by
  obtain ⟨_, _, _, _, e⟩ := State.tally_frame s c l; rw [e]
@[simp] theorem State.tally_ddp {c : Nat} {l : List Nat} : (s.tally c l).ddp = s.ddp := by
  obtain ⟨_, _, _, _, e⟩ := State.tally_frame s c l; rw [e]
@[simp] theorem State.tally_tim {c : Nat} {l : List Nat} : (s.tally c l).tim = s.tim := by
  obtain ⟨_, _, _, _, e⟩ := State.tally_frame s c l; rw [e]
@[simp] theorem State.tally_fuses {c : Nat} {l : List Nat} : (s.tally c l).fuses = s.fuses := by
  obtain ⟨_, _, _, _, e⟩ := State.tally_frame s c l; rw [e]
@[simp] theorem State.tally_pwr {c : Nat} {l : List Nat} : (s.tally c l).pwr = s.pwr := by
  obtain ⟨_, _, _, _, e⟩ := State.tally_frame s c l; rw [e]
@[simp] theorem State.tally_upd {c : Nat} {l : List Nat} : (s.tally c l).upd = s.upd := by
  obtain ⟨_, _, _, _, e⟩ := State.tally_frame s c l; rw [e]

/-! ### tallyLimitedV -/

@[simp] theorem State.tallyLimitedV_pending {k p c v : Nat} {l : Nat → Nat → List Nat} : (s.tallyLimitedV k p c v l).pending = s.pending := by
  obtain ⟨_, _, _, _, e⟩ := State.tallyLimitedV_frame s k p c v l; rw [e]
@[simp] theorem State.tallyLimitedV_now {k p c v : Nat} {l : Nat → Nat → List Nat} : (s.tallyLimitedV k p c v l).now = s.now := by
  obtain ⟨_, _, _, _, e⟩ := State.tallyLimitedV_frame s k p c v l; rw [e]
@[simp] theorem State.tallyLimitedV_uptime {k p c v : Nat} {l : Nat → Nat → List Nat} : (s.tallyLimitedV k p c v l).uptime = s.uptime := by
  obtain ⟨_, _, _, _, e⟩ := State.tallyLimitedV_frame s k p c v l; rw [e]
@[simp] theorem State.tallyLimitedV_hiLatch {k p c v : Nat} {l : Nat → Nat → List Nat} : (s.tallyLimitedV k p c v l).hiLatch = s.hiLatch := by
  obtain ⟨_, _, _, _, e⟩ := State.tallyLimitedV_frame s k p c v l; rw [e]
@[simp] theorem State.tallyLimitedV_bulk {k p c v : Nat} {l : Nat → Nat → List Nat} : (s.tallyLimitedV k p c v l).bulk = s.bulk := by
  obtain ⟨_, _, _, _, e⟩ := State.tallyLimitedV_frame s k p c v l; rw [e]
@[simp] theorem State.tallyLimitedV_pailMem {k p c v : Nat} {l : Nat → Nat → List Nat} : (s.tallyLimitedV k p c v l).pailMem = s.pailMem := by
  obtain ⟨_, _, _, _, e⟩ := State.tallyLimitedV_frame s k p c v l; rw [e]
@[simp] theorem State.tallyLimitedV_retSram {k p c v : Nat} {l : Nat → Nat → List Nat} : (s.tallyLimitedV k p c v l).retSram = s.retSram := by
  obtain ⟨_, _, _, _, e⟩ := State.tallyLimitedV_frame s k p c v l; rw [e]
@[simp] theorem State.tallyLimitedV_tallyRam {k p c v : Nat} {l : Nat → Nat → List Nat} : (s.tallyLimitedV k p c v l).tallyRam = s.tallyRam := by
  obtain ⟨_, _, _, _, e⟩ := State.tallyLimitedV_frame s k p c v l; rw [e]
@[simp] theorem State.tallyLimitedV_flash {k p c v : Nat} {l : Nat → Nat → List Nat} : (s.tallyLimitedV k p c v l).flash = s.flash := by
  obtain ⟨_, _, _, _, e⟩ := State.tallyLimitedV_frame s k p c v l; rw [e]
@[simp] theorem State.tallyLimitedV_freeCount {k p c v : Nat} {l : Nat → Nat → List Nat} : (s.tallyLimitedV k p c v l).freeCount = s.freeCount := by
  obtain ⟨_, _, _, _, e⟩ := State.tallyLimitedV_frame s k p c v l; rw [e]
@[simp] theorem State.tallyLimitedV_sys {k p c v : Nat} {l : Nat → Nat → List Nat} : (s.tallyLimitedV k p c v l).sys = s.sys := by
  obtain ⟨_, _, _, _, e⟩ := State.tallyLimitedV_frame s k p c v l; rw [e]
@[simp] theorem State.tallyLimitedV_str {k p c v : Nat} {l : Nat → Nat → List Nat} : (s.tallyLimitedV k p c v l).str = s.str := by
  obtain ⟨_, _, _, _, e⟩ := State.tallyLimitedV_frame s k p c v l; rw [e]
@[simp] theorem State.tallyLimitedV_eng {k p c v : Nat} {l : Nat → Nat → List Nat} : (s.tallyLimitedV k p c v l).eng = s.eng := by
  obtain ⟨_, _, _, _, e⟩ := State.tallyLimitedV_frame s k p c v l; rw [e]
@[simp] theorem State.tallyLimitedV_sig {k p c v : Nat} {l : Nat → Nat → List Nat} : (s.tallyLimitedV k p c v l).sig = s.sig := by
  obtain ⟨_, _, _, _, e⟩ := State.tallyLimitedV_frame s k p c v l; rw [e]
@[simp] theorem State.tallyLimitedV_cmd {k p c v : Nat} {l : Nat → Nat → List Nat} : (s.tallyLimitedV k p c v l).cmd = s.cmd := by
  obtain ⟨_, _, _, _, e⟩ := State.tallyLimitedV_frame s k p c v l; rw [e]
@[simp] theorem State.tallyLimitedV_par {k p c v : Nat} {l : Nat → Nat → List Nat} : (s.tallyLimitedV k p c v l).par = s.par := by
  obtain ⟨_, _, _, _, e⟩ := State.tallyLimitedV_frame s k p c v l; rw [e]
@[simp] theorem State.tallyLimitedV_flt {k p c v : Nat} {l : Nat → Nat → List Nat} : (s.tallyLimitedV k p c v l).flt = s.flt := by
  obtain ⟨_, _, _, _, e⟩ := State.tallyLimitedV_frame s k p c v l; rw [e]
@[simp] theorem State.tallyLimitedV_red {k p c v : Nat} {l : Nat → Nat → List Nat} : (s.tallyLimitedV k p c v l).red = s.red := by
  obtain ⟨_, _, _, _, e⟩ := State.tallyLimitedV_frame s k p c v l; rw [e]
@[simp] theorem State.tallyLimitedV_ing {k p c v : Nat} {l : Nat → Nat → List Nat} : (s.tallyLimitedV k p c v l).ing = s.ing := by
  obtain ⟨_, _, _, _, e⟩ := State.tallyLimitedV_frame s k p c v l; rw [e]
@[simp] theorem State.tallyLimitedV_frames {k p c v : Nat} {l : Nat → Nat → List Nat} : (s.tallyLimitedV k p c v l).frames = s.frames := by
  obtain ⟨_, _, _, _, e⟩ := State.tallyLimitedV_frame s k p c v l; rw [e]
@[simp] theorem State.tallyLimitedV_layerKeep {k p c v : Nat} {l : Nat → Nat → List Nat} : (s.tallyLimitedV k p c v l).layerKeep = s.layerKeep := by
  obtain ⟨_, _, _, _, e⟩ := State.tallyLimitedV_frame s k p c v l; rw [e]
@[simp] theorem State.tallyLimitedV_mem {k p c v : Nat} {l : Nat → Nat → List Nat} : (s.tallyLimitedV k p c v l).mem = s.mem := by
  obtain ⟨_, _, _, _, e⟩ := State.tallyLimitedV_frame s k p c v l; rw [e]
@[simp] theorem State.tallyLimitedV_cmp {k p c v : Nat} {l : Nat → Nat → List Nat} : (s.tallyLimitedV k p c v l).cmp = s.cmp := by
  obtain ⟨_, _, _, _, e⟩ := State.tallyLimitedV_frame s k p c v l; rw [e]
@[simp] theorem State.tallyLimitedV_cal {k p c v : Nat} {l : Nat → Nat → List Nat} : (s.tallyLimitedV k p c v l).cal = s.cal := by
  obtain ⟨_, _, _, _, e⟩ := State.tallyLimitedV_frame s k p c v l; rw [e]
@[simp] theorem State.tallyLimitedV_sep {k p c v : Nat} {l : Nat → Nat → List Nat} : (s.tallyLimitedV k p c v l).sep = s.sep := by
  obtain ⟨_, _, _, _, e⟩ := State.tallyLimitedV_frame s k p c v l; rw [e]
@[simp] theorem State.tallyLimitedV_gov {k p c v : Nat} {l : Nat → Nat → List Nat} : (s.tallyLimitedV k p c v l).gov = s.gov := by
  obtain ⟨_, _, _, _, e⟩ := State.tallyLimitedV_frame s k p c v l; rw [e]
@[simp] theorem State.tallyLimitedV_links {k p c v : Nat} {l : Nat → Nat → List Nat} : (s.tallyLimitedV k p c v l).links = s.links := by
  obtain ⟨_, _, _, _, e⟩ := State.tallyLimitedV_frame s k p c v l; rw [e]
@[simp] theorem State.tallyLimitedV_dvl {k p c v : Nat} {l : Nat → Nat → List Nat} : (s.tallyLimitedV k p c v l).dvl = s.dvl := by
  obtain ⟨_, _, _, _, e⟩ := State.tallyLimitedV_frame s k p c v l; rw [e]
@[simp] theorem State.tallyLimitedV_fix {k p c v : Nat} {l : Nat → Nat → List Nat} : (s.tallyLimitedV k p c v l).fix = s.fix := by
  obtain ⟨_, _, _, _, e⟩ := State.tallyLimitedV_frame s k p c v l; rw [e]
@[simp] theorem State.tallyLimitedV_ddp {k p c v : Nat} {l : Nat → Nat → List Nat} : (s.tallyLimitedV k p c v l).ddp = s.ddp := by
  obtain ⟨_, _, _, _, e⟩ := State.tallyLimitedV_frame s k p c v l; rw [e]
@[simp] theorem State.tallyLimitedV_tim {k p c v : Nat} {l : Nat → Nat → List Nat} : (s.tallyLimitedV k p c v l).tim = s.tim := by
  obtain ⟨_, _, _, _, e⟩ := State.tallyLimitedV_frame s k p c v l; rw [e]
@[simp] theorem State.tallyLimitedV_fuses {k p c v : Nat} {l : Nat → Nat → List Nat} : (s.tallyLimitedV k p c v l).fuses = s.fuses := by
  obtain ⟨_, _, _, _, e⟩ := State.tallyLimitedV_frame s k p c v l; rw [e]
@[simp] theorem State.tallyLimitedV_pwr {k p c v : Nat} {l : Nat → Nat → List Nat} : (s.tallyLimitedV k p c v l).pwr = s.pwr := by
  obtain ⟨_, _, _, _, e⟩ := State.tallyLimitedV_frame s k p c v l; rw [e]
@[simp] theorem State.tallyLimitedV_upd {k p c v : Nat} {l : Nat → Nat → List Nat} : (s.tallyLimitedV k p c v l).upd = s.upd := by
  obtain ⟨_, _, _, _, e⟩ := State.tallyLimitedV_frame s k p c v l; rw [e]

/-! ### tallyLimited -/

@[simp] theorem State.tallyLimited_pending {k p c : Nat} {l : Nat → List Nat} : (s.tallyLimited k p c l).pending = s.pending :=
  State.tallyLimitedV_pending
@[simp] theorem State.tallyLimited_now {k p c : Nat} {l : Nat → List Nat} : (s.tallyLimited k p c l).now = s.now :=
  State.tallyLimitedV_now
@[simp] theorem State.tallyLimited_uptime {k p c : Nat} {l : Nat → List Nat} : (s.tallyLimited k p c l).uptime = s.uptime :=
  State.tallyLimitedV_uptime
@[simp] theorem State.tallyLimited_hiLatch {k p c : Nat} {l : Nat → List Nat} : (s.tallyLimited k p c l).hiLatch = s.hiLatch :=
  State.tallyLimitedV_hiLatch
@[simp] theorem State.tallyLimited_bulk {k p c : Nat} {l : Nat → List Nat} : (s.tallyLimited k p c l).bulk = s.bulk :=
  State.tallyLimitedV_bulk
@[simp] theorem State.tallyLimited_pailMem {k p c : Nat} {l : Nat → List Nat} : (s.tallyLimited k p c l).pailMem = s.pailMem :=
  State.tallyLimitedV_pailMem
@[simp] theorem State.tallyLimited_retSram {k p c : Nat} {l : Nat → List Nat} : (s.tallyLimited k p c l).retSram = s.retSram :=
  State.tallyLimitedV_retSram
@[simp] theorem State.tallyLimited_tallyRam {k p c : Nat} {l : Nat → List Nat} : (s.tallyLimited k p c l).tallyRam = s.tallyRam :=
  State.tallyLimitedV_tallyRam
@[simp] theorem State.tallyLimited_flash {k p c : Nat} {l : Nat → List Nat} : (s.tallyLimited k p c l).flash = s.flash :=
  State.tallyLimitedV_flash
@[simp] theorem State.tallyLimited_freeCount {k p c : Nat} {l : Nat → List Nat} : (s.tallyLimited k p c l).freeCount = s.freeCount :=
  State.tallyLimitedV_freeCount
@[simp] theorem State.tallyLimited_sys {k p c : Nat} {l : Nat → List Nat} : (s.tallyLimited k p c l).sys = s.sys :=
  State.tallyLimitedV_sys
@[simp] theorem State.tallyLimited_str {k p c : Nat} {l : Nat → List Nat} : (s.tallyLimited k p c l).str = s.str :=
  State.tallyLimitedV_str
@[simp] theorem State.tallyLimited_eng {k p c : Nat} {l : Nat → List Nat} : (s.tallyLimited k p c l).eng = s.eng :=
  State.tallyLimitedV_eng
@[simp] theorem State.tallyLimited_sig {k p c : Nat} {l : Nat → List Nat} : (s.tallyLimited k p c l).sig = s.sig :=
  State.tallyLimitedV_sig
@[simp] theorem State.tallyLimited_cmd {k p c : Nat} {l : Nat → List Nat} : (s.tallyLimited k p c l).cmd = s.cmd :=
  State.tallyLimitedV_cmd
@[simp] theorem State.tallyLimited_par {k p c : Nat} {l : Nat → List Nat} : (s.tallyLimited k p c l).par = s.par :=
  State.tallyLimitedV_par
@[simp] theorem State.tallyLimited_flt {k p c : Nat} {l : Nat → List Nat} : (s.tallyLimited k p c l).flt = s.flt :=
  State.tallyLimitedV_flt
@[simp] theorem State.tallyLimited_red {k p c : Nat} {l : Nat → List Nat} : (s.tallyLimited k p c l).red = s.red :=
  State.tallyLimitedV_red
@[simp] theorem State.tallyLimited_ing {k p c : Nat} {l : Nat → List Nat} : (s.tallyLimited k p c l).ing = s.ing :=
  State.tallyLimitedV_ing
@[simp] theorem State.tallyLimited_frames {k p c : Nat} {l : Nat → List Nat} : (s.tallyLimited k p c l).frames = s.frames :=
  State.tallyLimitedV_frames
@[simp] theorem State.tallyLimited_layerKeep {k p c : Nat} {l : Nat → List Nat} : (s.tallyLimited k p c l).layerKeep = s.layerKeep :=
  State.tallyLimitedV_layerKeep
@[simp] theorem State.tallyLimited_mem {k p c : Nat} {l : Nat → List Nat} : (s.tallyLimited k p c l).mem = s.mem :=
  State.tallyLimitedV_mem
@[simp] theorem State.tallyLimited_cmp {k p c : Nat} {l : Nat → List Nat} : (s.tallyLimited k p c l).cmp = s.cmp :=
  State.tallyLimitedV_cmp
@[simp] theorem State.tallyLimited_cal {k p c : Nat} {l : Nat → List Nat} : (s.tallyLimited k p c l).cal = s.cal :=
  State.tallyLimitedV_cal
@[simp] theorem State.tallyLimited_sep {k p c : Nat} {l : Nat → List Nat} : (s.tallyLimited k p c l).sep = s.sep :=
  State.tallyLimitedV_sep
@[simp] theorem State.tallyLimited_gov {k p c : Nat} {l : Nat → List Nat} : (s.tallyLimited k p c l).gov = s.gov :=
  State.tallyLimitedV_gov
@[simp] theorem State.tallyLimited_links {k p c : Nat} {l : Nat → List Nat} : (s.tallyLimited k p c l).links = s.links :=
  State.tallyLimitedV_links
@[simp] theorem State.tallyLimited_dvl {k p c : Nat} {l : Nat → List Nat} : (s.tallyLimited k p c l).dvl = s.dvl :=
  State.tallyLimitedV_dvl
@[simp] theorem State.tallyLimited_fix {k p c : Nat} {l : Nat → List Nat} : (s.tallyLimited k p c l).fix = s.fix :=
  State.tallyLimitedV_fix
@[simp] theorem State.tallyLimited_ddp {k p c : Nat} {l : Nat → List Nat} : (s.tallyLimited k p c l).ddp = s.ddp :=
  State.tallyLimitedV_ddp
@[simp] theorem State.tallyLimited_tim {k p c : Nat} {l : Nat → List Nat} : (s.tallyLimited k p c l).tim = s.tim :=
  State.tallyLimitedV_tim
@[simp] theorem State.tallyLimited_fuses {k p c : Nat} {l : Nat → List Nat} : (s.tallyLimited k p c l).fuses = s.fuses :=
  State.tallyLimitedV_fuses
@[simp] theorem State.tallyLimited_pwr {k p c : Nat} {l : Nat → List Nat} : (s.tallyLimited k p c l).pwr = s.pwr :=
  State.tallyLimitedV_pwr
@[simp] theorem State.tallyLimited_upd {k p c : Nat} {l : Nat → List Nat} : (s.tallyLimited k p c l).upd = s.upd :=
  State.tallyLimitedV_upd

/-! ### atTime -/

@[simp] theorem State.atTime_pending {t : Nat} : (s.atTime t).pending = s.pending := by
  obtain ⟨_, _, e⟩ := State.atTime_frame s t; rw [e]
@[simp] theorem State.atTime_regs {t : Nat} : (s.atTime t).regs = s.regs := by
  obtain ⟨_, _, e⟩ := State.atTime_frame s t; rw [e]
@[simp] theorem State.atTime_hiLatch {t : Nat} : (s.atTime t).hiLatch = s.hiLatch := by
  obtain ⟨_, _, e⟩ := State.atTime_frame s t; rw [e]
@[simp] theorem State.atTime_bulk {t : Nat} : (s.atTime t).bulk = s.bulk := by
  obtain ⟨_, _, e⟩ := State.atTime_frame s t; rw [e]
@[simp] theorem State.atTime_pailMem {t : Nat} : (s.atTime t).pailMem = s.pailMem := by
  obtain ⟨_, _, e⟩ := State.atTime_frame s t; rw [e]
@[simp] theorem State.atTime_retSram {t : Nat} : (s.atTime t).retSram = s.retSram := by
  obtain ⟨_, _, e⟩ := State.atTime_frame s t; rw [e]
@[simp] theorem State.atTime_tallyRam {t : Nat} : (s.atTime t).tallyRam = s.tallyRam := by
  obtain ⟨_, _, e⟩ := State.atTime_frame s t; rw [e]
@[simp] theorem State.atTime_flash {t : Nat} : (s.atTime t).flash = s.flash := by
  obtain ⟨_, _, e⟩ := State.atTime_frame s t; rw [e]
@[simp] theorem State.atTime_outs {t : Nat} : (s.atTime t).outs = s.outs := by
  obtain ⟨_, _, e⟩ := State.atTime_frame s t; rw [e]
@[simp] theorem State.atTime_freeCount {t : Nat} : (s.atTime t).freeCount = s.freeCount := by
  obtain ⟨_, _, e⟩ := State.atTime_frame s t; rw [e]
@[simp] theorem State.atTime_sys {t : Nat} : (s.atTime t).sys = s.sys := by
  obtain ⟨_, _, e⟩ := State.atTime_frame s t; rw [e]
@[simp] theorem State.atTime_str {t : Nat} : (s.atTime t).str = s.str := by
  obtain ⟨_, _, e⟩ := State.atTime_frame s t; rw [e]
@[simp] theorem State.atTime_eng {t : Nat} : (s.atTime t).eng = s.eng := by
  obtain ⟨_, _, e⟩ := State.atTime_frame s t; rw [e]
@[simp] theorem State.atTime_sig {t : Nat} : (s.atTime t).sig = s.sig := by
  obtain ⟨_, _, e⟩ := State.atTime_frame s t; rw [e]
@[simp] theorem State.atTime_cmd {t : Nat} : (s.atTime t).cmd = s.cmd := by
  obtain ⟨_, _, e⟩ := State.atTime_frame s t; rw [e]
@[simp] theorem State.atTime_par {t : Nat} : (s.atTime t).par = s.par := by
  obtain ⟨_, _, e⟩ := State.atTime_frame s t; rw [e]
@[simp] theorem State.atTime_host {t : Nat} : (s.atTime t).host = s.host := by
  obtain ⟨_, _, e⟩ := State.atTime_frame s t; rw [e]
@[simp] theorem State.atTime_tly {t : Nat} : (s.atTime t).tly = s.tly := by
  obtain ⟨_, _, e⟩ := State.atTime_frame s t; rw [e]
@[simp] theorem State.atTime_flt {t : Nat} : (s.atTime t).flt = s.flt := by
  obtain ⟨_, _, e⟩ := State.atTime_frame s t; rw [e]
@[simp] theorem State.atTime_red {t : Nat} : (s.atTime t).red = s.red := by
  obtain ⟨_, _, e⟩ := State.atTime_frame s t; rw [e]
@[simp] theorem State.atTime_ing {t : Nat} : (s.atTime t).ing = s.ing := by
  obtain ⟨_, _, e⟩ := State.atTime_frame s t; rw [e]
@[simp] theorem State.atTime_frames {t : Nat} : (s.atTime t).frames = s.frames := by
  obtain ⟨_, _, e⟩ := State.atTime_frame s t; rw [e]
@[simp] theorem State.atTime_layerKeep {t : Nat} : (s.atTime t).layerKeep = s.layerKeep := by
  obtain ⟨_, _, e⟩ := State.atTime_frame s t; rw [e]
@[simp] theorem State.atTime_mem {t : Nat} : (s.atTime t).mem = s.mem := by
  obtain ⟨_, _, e⟩ := State.atTime_frame s t; rw [e]
@[simp] theorem State.atTime_cmp {t : Nat} : (s.atTime t).cmp = s.cmp := by
  obtain ⟨_, _, e⟩ := State.atTime_frame s t; rw [e]
@[simp] theorem State.atTime_cal {t : Nat} : (s.atTime t).cal = s.cal := by
  obtain ⟨_, _, e⟩ := State.atTime_frame s t; rw [e]
@[simp] theorem State.atTime_sep {t : Nat} : (s.atTime t).sep = s.sep := by
  obtain ⟨_, _, e⟩ := State.atTime_frame s t; rw [e]
@[simp] theorem State.atTime_gov {t : Nat} : (s.atTime t).gov = s.gov := by
  obtain ⟨_, _, e⟩ := State.atTime_frame s t; rw [e]
@[simp] theorem State.atTime_links {t : Nat} : (s.atTime t).links = s.links := by
  obtain ⟨_, _, e⟩ := State.atTime_frame s t; rw [e]
@[simp] theorem State.atTime_dvl {t : Nat} : (s.atTime t).dvl = s.dvl := by
  obtain ⟨_, _, e⟩ := State.atTime_frame s t; rw [e]
@[simp] theorem State.atTime_fix {t : Nat} : (s.atTime t).fix = s.fix := by
  obtain ⟨_, _, e⟩ := State.atTime_frame s t; rw [e]
@[simp] theorem State.atTime_ddp {t : Nat} : (s.atTime t).ddp = s.ddp := by
  obtain ⟨_, _, e⟩ := State.atTime_frame s t; rw [e]
@[simp] theorem State.atTime_tim {t : Nat} : (s.atTime t).tim = s.tim := by
  obtain ⟨_, _, e⟩ := State.atTime_frame s t; rw [e]
@[simp] theorem State.atTime_fuses {t : Nat} : (s.atTime t).fuses = s.fuses := by
  obtain ⟨_, _, e⟩ := State.atTime_frame s t; rw [e]
@[simp] theorem State.atTime_pwr {t : Nat} : (s.atTime t).pwr = s.pwr := by
  obtain ⟨_, _, e⟩ := State.atTime_frame s t; rw [e]
@[simp] theorem State.atTime_upd {t : Nat} : (s.atTime t).upd = s.upd := by
  obtain ⟨_, _, e⟩ := State.atTime_frame s t; rw [e]

/-! ### atUptime -/

@[simp] theorem State.atUptime_pending {t : Nat} : (s.atUptime t).pending = s.pending := by
  obtain ⟨_, _, e⟩ := State.atUptime_frame s t; rw [e]
@[simp] theorem State.atUptime_regs {t : Nat} : (s.atUptime t).regs = s.regs := by
  obtain ⟨_, _, e⟩ := State.atUptime_frame s t; rw [e]
@[simp] theorem State.atUptime_hiLatch {t : Nat} : (s.atUptime t).hiLatch = s.hiLatch := by
  obtain ⟨_, _, e⟩ := State.atUptime_frame s t; rw [e]
@[simp] theorem State.atUptime_bulk {t : Nat} : (s.atUptime t).bulk = s.bulk := by
  obtain ⟨_, _, e⟩ := State.atUptime_frame s t; rw [e]
@[simp] theorem State.atUptime_pailMem {t : Nat} : (s.atUptime t).pailMem = s.pailMem := by
  obtain ⟨_, _, e⟩ := State.atUptime_frame s t; rw [e]
@[simp] theorem State.atUptime_retSram {t : Nat} : (s.atUptime t).retSram = s.retSram := by
  obtain ⟨_, _, e⟩ := State.atUptime_frame s t; rw [e]
@[simp] theorem State.atUptime_tallyRam {t : Nat} : (s.atUptime t).tallyRam = s.tallyRam := by
  obtain ⟨_, _, e⟩ := State.atUptime_frame s t; rw [e]
@[simp] theorem State.atUptime_flash {t : Nat} : (s.atUptime t).flash = s.flash := by
  obtain ⟨_, _, e⟩ := State.atUptime_frame s t; rw [e]
@[simp] theorem State.atUptime_outs {t : Nat} : (s.atUptime t).outs = s.outs := by
  obtain ⟨_, _, e⟩ := State.atUptime_frame s t; rw [e]
@[simp] theorem State.atUptime_freeCount {t : Nat} : (s.atUptime t).freeCount = s.freeCount := by
  obtain ⟨_, _, e⟩ := State.atUptime_frame s t; rw [e]
@[simp] theorem State.atUptime_sys {t : Nat} : (s.atUptime t).sys = s.sys := by
  obtain ⟨_, _, e⟩ := State.atUptime_frame s t; rw [e]
@[simp] theorem State.atUptime_str {t : Nat} : (s.atUptime t).str = s.str := by
  obtain ⟨_, _, e⟩ := State.atUptime_frame s t; rw [e]
@[simp] theorem State.atUptime_eng {t : Nat} : (s.atUptime t).eng = s.eng := by
  obtain ⟨_, _, e⟩ := State.atUptime_frame s t; rw [e]
@[simp] theorem State.atUptime_sig {t : Nat} : (s.atUptime t).sig = s.sig := by
  obtain ⟨_, _, e⟩ := State.atUptime_frame s t; rw [e]
@[simp] theorem State.atUptime_cmd {t : Nat} : (s.atUptime t).cmd = s.cmd := by
  obtain ⟨_, _, e⟩ := State.atUptime_frame s t; rw [e]
@[simp] theorem State.atUptime_par {t : Nat} : (s.atUptime t).par = s.par := by
  obtain ⟨_, _, e⟩ := State.atUptime_frame s t; rw [e]
@[simp] theorem State.atUptime_host {t : Nat} : (s.atUptime t).host = s.host := by
  obtain ⟨_, _, e⟩ := State.atUptime_frame s t; rw [e]
@[simp] theorem State.atUptime_tly {t : Nat} : (s.atUptime t).tly = s.tly := by
  obtain ⟨_, _, e⟩ := State.atUptime_frame s t; rw [e]
@[simp] theorem State.atUptime_flt {t : Nat} : (s.atUptime t).flt = s.flt := by
  obtain ⟨_, _, e⟩ := State.atUptime_frame s t; rw [e]
@[simp] theorem State.atUptime_red {t : Nat} : (s.atUptime t).red = s.red := by
  obtain ⟨_, _, e⟩ := State.atUptime_frame s t; rw [e]
@[simp] theorem State.atUptime_ing {t : Nat} : (s.atUptime t).ing = s.ing := by
  obtain ⟨_, _, e⟩ := State.atUptime_frame s t; rw [e]
@[simp] theorem State.atUptime_frames {t : Nat} : (s.atUptime t).frames = s.frames := by
  obtain ⟨_, _, e⟩ := State.atUptime_frame s t; rw [e]
@[simp] theorem State.atUptime_layerKeep {t : Nat} : (s.atUptime t).layerKeep = s.layerKeep := by
  obtain ⟨_, _, e⟩ := State.atUptime_frame s t; rw [e]
@[simp] theorem State.atUptime_mem {t : Nat} : (s.atUptime t).mem = s.mem := by
  obtain ⟨_, _, e⟩ := State.atUptime_frame s t; rw [e]
@[simp] theorem State.atUptime_cmp {t : Nat} : (s.atUptime t).cmp = s.cmp := by
  obtain ⟨_, _, e⟩ := State.atUptime_frame s t; rw [e]
@[simp] theorem State.atUptime_cal {t : Nat} : (s.atUptime t).cal = s.cal := by
  obtain ⟨_, _, e⟩ := State.atUptime_frame s t; rw [e]
@[simp] theorem State.atUptime_sep {t : Nat} : (s.atUptime t).sep = s.sep := by
  obtain ⟨_, _, e⟩ := State.atUptime_frame s t; rw [e]
@[simp] theorem State.atUptime_gov {t : Nat} : (s.atUptime t).gov = s.gov := by
  obtain ⟨_, _, e⟩ := State.atUptime_frame s t; rw [e]
@[simp] theorem State.atUptime_links {t : Nat} : (s.atUptime t).links = s.links := by
  obtain ⟨_, _, e⟩ := State.atUptime_frame s t; rw [e]
@[simp] theorem State.atUptime_dvl {t : Nat} : (s.atUptime t).dvl = s.dvl := by
  obtain ⟨_, _, e⟩ := State.atUptime_frame s t; rw [e]
@[simp] theorem State.atUptime_fix {t : Nat} : (s.atUptime t).fix = s.fix := by
  obtain ⟨_, _, e⟩ := State.atUptime_frame s t; rw [e]
@[simp] theorem State.atUptime_ddp {t : Nat} : (s.atUptime t).ddp = s.ddp := by
  obtain ⟨_, _, e⟩ := State.atUptime_frame s t; rw [e]
@[simp] theorem State.atUptime_tim {t : Nat} : (s.atUptime t).tim = s.tim := by
  obtain ⟨_, _, e⟩ := State.atUptime_frame s t; rw [e]
@[simp] theorem State.atUptime_fuses {t : Nat} : (s.atUptime t).fuses = s.fuses := by
  obtain ⟨_, _, e⟩ := State.atUptime_frame s t; rw [e]
@[simp] theorem State.atUptime_pwr {t : Nat} : (s.atUptime t).pwr = s.pwr := by
  obtain ⟨_, _, e⟩ := State.atUptime_frame s t; rw [e]
@[simp] theorem State.atUptime_upd {t : Nat} : (s.atUptime t).upd = s.upd := by
  obtain ⟨_, _, e⟩ := State.atUptime_frame s t; rw [e]

@[simp] theorem State.atTime_get {t : Nat} {g : Field} {j : Nat} : (s.atTime t).get g j = s.get g j := by
  obtain ⟨_, _, e⟩ := State.atTime_frame s t; rw [e]; rfl
@[simp] theorem State.atTime_flag {t : Nat} {g : Field} {j : Nat} : (s.atTime t).flag g j = s.flag g j := by
  obtain ⟨_, _, e⟩ := State.atTime_frame s t; rw [e]; rfl
@[simp] theorem State.atTime_get64 {t : Nat} {g : Field} {j : Nat} : (s.atTime t).get64 g j = s.get64 g j := by
  obtain ⟨_, _, e⟩ := State.atTime_frame s t; rw [e]; rfl
@[simp] theorem State.atUptime_get {t : Nat} {g : Field} {j : Nat} : (s.atUptime t).get g j = s.get g j := by
  obtain ⟨_, _, e⟩ := State.atUptime_frame s t; rw [e]; rfl
@[simp] theorem State.atUptime_flag {t : Nat} {g : Field} {j : Nat} : (s.atUptime t).flag g j = s.flag g j := by
  obtain ⟨_, _, e⟩ := State.atUptime_frame s t; rw [e]; rfl
@[simp] theorem State.atUptime_get64 {t : Nat} {g : Field} {j : Nat} : (s.atUptime t).get64 g j = s.get64 g j := by
  obtain ⟨_, _, e⟩ := State.atUptime_frame s t; rw [e]; rfl

theorem State.get_tallyLimitedV_apart {k p c v : Nat} {l : Nat → Nat → List Nat} {g : Field} {j : Nat}
    (h : R.TLY_LOST.apart 0 g j) (h' : F.TLY_EVT_LOST.apart 0 g j) : (s.tallyLimitedV k p c v l).get g j = s.get g j := by
  unfold State.tallyLimitedV
  split
  · rw [State.get_tally_apart h h']
    rfl
  · split
    · rw [State.get_tally_apart h h']
      rfl
    · rfl

theorem State.get_tallyLimited_apart {k p c : Nat} {l : Nat → List Nat} {g : Field} {j : Nat}
    (h : R.TLY_LOST.apart 0 g j) (h' : F.TLY_EVT_LOST.apart 0 g j) : (s.tallyLimited k p c l).get g j = s.get g j :=
  State.get_tallyLimitedV_apart h h'

theorem State.flag_tallyLimited_apart {k p c : Nat} {l : Nat → List Nat} {g : Field} {j : Nat}
    (h : R.TLY_LOST.apart 0 g j) (h' : F.TLY_EVT_LOST.apart 0 g j) : (s.tallyLimited k p c l).flag g j = s.flag g j := by
  unfold State.flag
  rw [State.get_tallyLimited_apart h h']

end Sys2Proof.Machine
end

