-- ==== Sys2Proof/Laws/Frames.lean ====
section
/-! SUPPORT. The frame relation through every primitive update: what a chain of updates leaves follows from its links. -/
namespace Sys2Proof.Machine

variable {s t : State} {l : List (Field × Nat)} {p : List Part}

theorem testBit_putBits (x lo w v b : Nat) (h : ¬ (lo ≤ b ∧ b < lo + w)) : (putBits x lo w v).testBit b = x.testBit b := by
  have e : putBits x lo w v / 2 ^ b % 2 ^ 1 = x / 2 ^ b % 2 ^ 1 := by
    by_cases h1 : lo ≤ b
    · exact putBits_high x lo w v b 1 (by omega)
    · exact putBits_low x lo w v b 1 (by omega)
  rw [Nat.testBit_eq_decide_div_mod_eq, Nat.testBit_eq_decide_div_mod_eq]
  simp only [Nat.pow_one] at e
  rw [e]

/-- A put leaves every bit of every register outside its field. -/
theorem State.bit_put (t : State) (f : Field) (v i a b : Nat) (h : ¬ (f.addr i = a ∧ f.lo ≤ b ∧ b < f.lo + f.width)) :
    ((t.put f v i).reg a).getLsbD b = (t.reg a).getLsbD b := by
  by_cases ha : f.addr i = a
  · subst ha
    unfold State.put
    rw [State.reg_setReg_same, BitVec.getLsbD_ofNat]
    by_cases hb : b < 32
    · rw [testBit_putBits _ _ _ _ _ (fun x => h ⟨rfl, x⟩)]
      simp [hb, BitVec.getLsbD]
    · rw [BitVec.getLsbD_of_ge _ _ (Nat.le_of_not_lt hb)]
      simp [hb]
  · rw [State.reg_put_ne ha]

theorem inFields_mem {f : Field} {i a b : Nat} (m : (f, i) ∈ l) (h : inFields l a b = false) :
    ¬ (f.addr i = a ∧ f.lo ≤ b ∧ b < f.lo + f.width) := by
  rintro ⟨h1, h2, h3⟩
  have : inFields l a b = true := List.any_eq_true.mpr ⟨(f, i), m, by simp [h1, h2, h3]⟩
  rw [h] at this
  exact absurd this (by decide)

theorem State.Leaves.refl (s : State) (l : List (Field × Nat)) (p : List Part) : s.Leaves l p s := by
  constructor <;> first | rfl | exact List.prefix_rfl | (intros; rfl) | (intros; exact ⟨rfl, rfl⟩)

/-- A change of registers within the listed fields. -/
theorem State.Leaves.regsTo (h : s.Leaves l p t) {u : State} (e : u = { t with regs := u.regs })
    (m : .regs ∉ p → ∀ a b, inFields (l ++ lostFields) a b = false → (u.reg a).getLsbD b = (t.reg a).getLsbD b) : s.Leaves l p u := by
  constructor
  · rw [e]; exact h.pending
  · rw [e]; exact h.outs
  · exact fun hp a b hb => (m hp a b hb).trans (h.regs hp a b hb)
  · rw [e]; exact h.time
  · rw [e]; exact h.hiLatch
  · rw [e]; exact h.bulk
  · rw [e]; exact h.pailMem
  · rw [e]; exact h.retSram
  · rw [e]; exact h.tallyRam
  · rw [e]; exact h.flash
  · rw [e]; exact h.free
  · rw [e]; exact h.host
  · rw [e]; exact h.tly
  · rw [e]; exact h.sys
  · rw [e]; exact h.str
  · rw [e]; exact h.eng
  · rw [e]; exact h.sig
  · rw [e]; exact h.cmd
  · rw [e]; exact h.par
  · rw [e]; exact h.flt
  · rw [e]; exact h.red
  · rw [e]; exact h.ing
  · rw [e]; exact h.frames
  · rw [e]; exact h.layerKeep
  · rw [e]; exact h.mem
  · rw [e]; exact h.cmp
  · rw [e]; exact h.cal
  · rw [e]; exact h.sep
  · rw [e]; exact h.gov
  · rw [e]; exact h.links
  · rw [e]; exact h.dvl
  · rw [e]; exact h.fix
  · rw [e]; exact h.ddp
  · rw [e]; exact h.tim
  · rw [e]; exact h.fuses
  · rw [e]; exact h.pwr
  · rw [e]; exact h.upd

theorem State.Leaves.put (h : s.Leaves l p t) {f : Field} {v i : Nat} (m : (f, i) ∈ l ++ lostFields ∨ .regs ∈ p) :
    s.Leaves l p (t.put f v i) := by
  refine h.regsTo rfl (fun hp a b hb => ?_)
  rcases m with m | m
  · exact State.bit_put t f v i a b (inFields_mem m hb)
  · exact absurd m hp

theorem State.Leaves.putFlag (h : s.Leaves l p t) {f : Field} {v : Bool} {i : Nat} (m : (f, i) ∈ l ++ lostFields ∨ .regs ∈ p) :
    s.Leaves l p (t.putFlag f v i) := h.put m

theorem State.Leaves.add (h : s.Leaves l p t) {f : Field} {n i : Nat} (m : (f, i) ∈ l ++ lostFields ∨ .regs ∈ p) :
    s.Leaves l p (t.add f n i) := h.put m

theorem State.Leaves.bump (h : s.Leaves l p t) {f : Field} {i : Nat} (m : (f, i) ∈ l ++ lostFields ∨ .regs ∈ p) :
    s.Leaves l p (t.bump f i) := h.put m

theorem State.Leaves.advance (h : s.Leaves l p t) {f : Field} {i : Nat} (m : (f, i) ∈ l ++ lostFields ∨ .regs ∈ p) :
    s.Leaves l p (t.advance f i) := h.put m

/-- A register that is one listed field of its full width. -/
theorem State.Leaves.setReg (h : s.Leaves l p t) {f : Field} {v : Word} {i a : Nat} (m : (f, i) ∈ l ++ lostFields ∨ .regs ∈ p)
    (ha : f.addr i = a) (h0 : f.lo = 0) (hw : f.width = 32) : s.Leaves l p (t.setReg a v) := by
  refine h.regsTo rfl (fun hp x b hb => ?_)
  rcases m with m | m
  · have k := inFields_mem m hb
    by_cases hx : a = x
    · have hb32 : 32 ≤ b := by
        have := fun hh => k ⟨ha.trans hx, hh⟩
        rw [h0, hw] at this
        omega
      rw [BitVec.getLsbD_of_ge _ _ hb32, BitVec.getLsbD_of_ge _ _ hb32]
    · rw [State.reg_setReg_ne hx]
  · exact absurd m hp

/-- Two registers that hold a 64-bit value, each a listed field of its full width. -/
theorem State.Leaves.put64 (h : s.Leaves l p t) {f g : Field} {v i : Nat} (m : (f, i) ∈ l ++ lostFields ∨ .regs ∈ p)
    (m' : (g, i) ∈ l ++ lostFields ∨ .regs ∈ p) (hg : g.addr i = f.addr i + 4) (h0 : f.lo = 0) (hw : f.width = 32) (h0' : g.lo = 0)
    (hw' : g.width = 32) : s.Leaves l p (t.put64 f v i) := (h.setReg m rfl h0 hw).setReg m' hg h0' hw'

theorem State.Leaves.msi (h : s.Leaves l p t) {v : Nat} : s.Leaves l p (t.msi v) := by
  have hp : (t.msi v).host = { t.host with pba := (t.msi v).host.pba } := by
    unfold State.msi
    repeat' (first | rfl | split)
  have ho : t.outs <+: (t.msi v).outs := by
    unfold State.msi
    repeat' (first | exact List.prefix_rfl | exact List.prefix_append _ _ | split)
  obtain ⟨x, y, e⟩ := State.msi_frame t v
  constructor
  · rw [e]; exact h.pending
  · exact h.outs.trans ho
  · rw [e]; exact h.regs
  · rw [e]; exact h.time
  · rw [e]; exact h.hiLatch
  · rw [e]; exact h.bulk
  · rw [e]; exact h.pailMem
  · rw [e]; exact h.retSram
  · rw [e]; exact h.tallyRam
  · rw [e]; exact h.flash
  · rw [e]; exact h.free
  · intro q; rw [hp, h.host q]
  · rw [e]; exact h.tly
  · rw [e]; exact h.sys
  · rw [e]; exact h.str
  · rw [e]; exact h.eng
  · rw [e]; exact h.sig
  · rw [e]; exact h.cmd
  · rw [e]; exact h.par
  · rw [e]; exact h.flt
  · rw [e]; exact h.red
  · rw [e]; exact h.ing
  · rw [e]; exact h.frames
  · rw [e]; exact h.layerKeep
  · rw [e]; exact h.mem
  · rw [e]; exact h.cmp
  · rw [e]; exact h.cal
  · rw [e]; exact h.sep
  · rw [e]; exact h.gov
  · rw [e]; exact h.links
  · rw [e]; exact h.dvl
  · rw [e]; exact h.fix
  · rw [e]; exact h.ddp
  · rw [e]; exact h.tim
  · rw [e]; exact h.fuses
  · rw [e]; exact h.pwr
  · rw [e]; exact h.upd

theorem State.Leaves.raise (h : s.Leaves l p t) {f : Field} {i : Nat} (m : (f, i) ∈ l ++ lostFields ∨ .regs ∈ p) :
    s.Leaves l p (t.raise f i) := by
  rcases State.raise_cases t f i with ⟨_, e⟩ | ⟨_, e⟩ | ⟨_, e⟩ <;> rw [e]
  · exact h
  · exact h.putFlag m
  · exact (h.putFlag m).msi

/-- A change of the Tally's intake, its count of lost records and its rate limits alone. -/
theorem State.Leaves.tlyTo (h : s.Leaves l p t) {x : Tly} (e : x = { t.tly with intake := x.intake, lostIntake := x.lostIntake, limits := x.limits }) : s.Leaves l p { t with tly := x } := by
  have ht := h.tly
  cases h; constructor <;> first | assumption | exact fun q => e.trans (by rw [ht q])

theorem State.Leaves.tally (h : s.Leaves l p t) {c : Nat} {items : List Nat} : s.Leaves l p (t.tally c items) := by
  unfold State.tally
  split
  · exact h.tlyTo rfl
  · exact ((h.tlyTo rfl).bump (.inl (by simp [lostFields]))).raise (.inl (by simp [lostFields]))

theorem State.Leaves.tallyLimitedV (h : s.Leaves l p t) {k q c v : Nat} {items : Nat → Nat → List Nat} :
    s.Leaves l p (t.tallyLimitedV k q c v items) := by
  unfold State.tallyLimitedV
  split
  · exact State.Leaves.tally (h.tlyTo rfl)
  · split
    · exact State.Leaves.tally (h.tlyTo rfl)
    · exact h.tlyTo rfl

theorem State.Leaves.tallyLimited (h : s.Leaves l p t) {k q c : Nat} {items : Nat → List Nat} :
    s.Leaves l p (t.tallyLimited k q c items) := h.tallyLimitedV

theorem State.Leaves.tallyAtMost (h : s.Leaves l p t) {k n q c : Nat} {items : List Nat} :
    s.Leaves l p (t.tallyAtMost k n q c items) := by
  unfold State.tallyAtMost
  split
  · exact State.Leaves.tally (h.tlyTo rfl)
  · dsimp only
    repeat' (first | exact State.Leaves.tally (h.tlyTo rfl) | exact h | split)

theorem State.Leaves.emit (h : s.Leaves l p t) {o : Out} : s.Leaves l p (t.emit o) := by
  have := h.outs
  cases h; constructor <;> first | assumption | exact this.trans (List.prefix_append _ _)

/-! ## Changes of a listed part -/

theorem State.Leaves.hiLatchTo (h : s.Leaves l p t) (m : .hiLatch ∈ p) {x : List (Nat × Word)} : s.Leaves l p { t with hiLatch := x } := by
  cases h; constructor <;> first | assumption | exact fun q => absurd m q
theorem State.Leaves.freeTo (h : s.Leaves l p t) (m : .free ∈ p) {x : Nat} : s.Leaves l p { t with freeCount := x } := by
  cases h; constructor <;> first | assumption | exact fun q => absurd m q
theorem State.Leaves.sysTo (h : s.Leaves l p t) (m : .sys ∈ p) {x : Sys} : s.Leaves l p { t with sys := x } := by
  cases h; constructor <;> first | assumption | exact fun q => absurd m q
theorem State.Leaves.strTo (h : s.Leaves l p t) (m : .str ∈ p) {x : Str} : s.Leaves l p { t with str := x } := by
  cases h; constructor <;> first | assumption | exact fun q => absurd m q
theorem State.Leaves.engTo (h : s.Leaves l p t) (m : .eng ∈ p) {x : List Eng} : s.Leaves l p { t with eng := x } := by
  cases h; constructor <;> first | assumption | exact fun q => absurd m q
theorem State.Leaves.sigTo (h : s.Leaves l p t) (m : .sig ∈ p) {x : SigTest} : s.Leaves l p { t with sig := x } := by
  cases h; constructor <;> first | assumption | exact fun q => absurd m q
theorem State.Leaves.cmdTo (h : s.Leaves l p t) (m : .cmd ∈ p) {x : Cmd} : s.Leaves l p { t with cmd := x } := by
  cases h; constructor <;> first | assumption | exact fun q => absurd m q
theorem State.Leaves.parTo (h : s.Leaves l p t) (m : .par ∈ p) {x : Par} : s.Leaves l p { t with par := x } := by
  cases h; constructor <;> first | assumption | exact fun q => absurd m q
theorem State.Leaves.fltTo (h : s.Leaves l p t) (m : .flt ∈ p) {x : Flt} : s.Leaves l p { t with flt := x } := by
  cases h; constructor <;> first | assumption | exact fun q => absurd m q
theorem State.Leaves.redTo (h : s.Leaves l p t) (m : .red ∈ p) {x : Red} : s.Leaves l p { t with red := x } := by
  cases h; constructor <;> first | assumption | exact fun q => absurd m q
theorem State.Leaves.ingTo (h : s.Leaves l p t) (m : .ing ∈ p) {x : Ing} : s.Leaves l p { t with ing := x } := by
  cases h; constructor <;> first | assumption | exact fun q => absurd m q
theorem State.Leaves.framesTo (h : s.Leaves l p t) (m : .frames ∈ p) {x : List FrameWork} : s.Leaves l p { t with frames := x } := by
  cases h; constructor <;> first | assumption | exact fun q => absurd m q
theorem State.Leaves.layerKeepTo (h : s.Leaves l p t) (m : .layerKeep ∈ p) {x : List (Nat × LayerKeep)} : s.Leaves l p { t with layerKeep := x } := by
  cases h; constructor <;> first | assumption | exact fun q => absurd m q
theorem State.Leaves.memTo (h : s.Leaves l p t) (m : .mem ∈ p) {x : Mem} : s.Leaves l p { t with mem := x } := by
  cases h; constructor <;> first | assumption | exact fun q => absurd m q
theorem State.Leaves.cmpTo (h : s.Leaves l p t) (m : .cmp ∈ p) {x : Cmp} : s.Leaves l p { t with cmp := x } := by
  cases h; constructor <;> first | assumption | exact fun q => absurd m q
theorem State.Leaves.calTo (h : s.Leaves l p t) (m : .cal ∈ p) {x : Cal} : s.Leaves l p { t with cal := x } := by
  cases h; constructor <;> first | assumption | exact fun q => absurd m q
theorem State.Leaves.sepTo (h : s.Leaves l p t) (m : .sep ∈ p) {x : Sep} : s.Leaves l p { t with sep := x } := by
  cases h; constructor <;> first | assumption | exact fun q => absurd m q
theorem State.Leaves.govTo (h : s.Leaves l p t) (m : .gov ∈ p) {x : Gov} : s.Leaves l p { t with gov := x } := by
  cases h; constructor <;> first | assumption | exact fun q => absurd m q
theorem State.Leaves.linksTo (h : s.Leaves l p t) (m : .links ∈ p) {x : List Link} : s.Leaves l p { t with links := x } := by
  cases h; constructor <;> first | assumption | exact fun q => absurd m q
theorem State.Leaves.dvlTo (h : s.Leaves l p t) (m : .dvl ∈ p) {x : Dvl} : s.Leaves l p { t with dvl := x } := by
  cases h; constructor <;> first | assumption | exact fun q => absurd m q
theorem State.Leaves.fixTo (h : s.Leaves l p t) (m : .fix ∈ p) {x : Fix} : s.Leaves l p { t with fix := x } := by
  cases h; constructor <;> first | assumption | exact fun q => absurd m q
theorem State.Leaves.ddpTo (h : s.Leaves l p t) (m : .ddp ∈ p) {x : Ddp} : s.Leaves l p { t with ddp := x } := by
  cases h; constructor <;> first | assumption | exact fun q => absurd m q
theorem State.Leaves.timTo (h : s.Leaves l p t) (m : .tim ∈ p) {x : Tim} : s.Leaves l p { t with tim := x } := by
  cases h; constructor <;> first | assumption | exact fun q => absurd m q
theorem State.Leaves.fusesTo (h : s.Leaves l p t) (m : .fuses ∈ p) {x : Fuses} : s.Leaves l p { t with fuses := x } := by
  cases h; constructor <;> first | assumption | exact fun q => absurd m q
theorem State.Leaves.pwrTo (h : s.Leaves l p t) (m : .pwr ∈ p) {x : Pwr} : s.Leaves l p { t with pwr := x } := by
  cases h; constructor <;> first | assumption | exact fun q => absurd m q
theorem State.Leaves.updTo (h : s.Leaves l p t) (m : .upd ∈ p) {x : Upd} : s.Leaves l p { t with upd := x } := by
  cases h; constructor <;> first | assumption | exact fun q => absurd m q
theorem State.Leaves.hostTo (h : s.Leaves l p t) (m : .host ∈ p) {x : HostLink} : s.Leaves l p { t with host := x } := by
  cases h; constructor <;> first | assumption | exact fun q => absurd m q
theorem State.Leaves.tlyAllTo (h : s.Leaves l p t) (m : .tly ∈ p) {x : Tly} : s.Leaves l p { t with tly := x } := by
  cases h; constructor <;> first | assumption | exact fun q => absurd m q
theorem State.Leaves.bulkTo (h : s.Leaves l p t) (m : .bulk ∈ p) {x : List Host.Cell} : s.Leaves l p { t with bulk := x } := by
  cases h; constructor <;> first | assumption | exact fun q => absurd m q
theorem State.Leaves.pailMemTo (h : s.Leaves l p t) (m : .pailMem ∈ p) {x : List Host.Cell} : s.Leaves l p { t with pailMem := x } := by
  cases h; constructor <;> first | assumption | exact fun q => absurd m q
theorem State.Leaves.retSramTo (h : s.Leaves l p t) (m : .retSram ∈ p) {x : List Host.Cell} : s.Leaves l p { t with retSram := x } := by
  cases h; constructor <;> first | assumption | exact fun q => absurd m q
theorem State.Leaves.tallyRamTo (h : s.Leaves l p t) (m : .tallyRam ∈ p) {x : List Host.Cell} : s.Leaves l p { t with tallyRam := x } := by
  cases h; constructor <;> first | assumption | exact fun q => absurd m q
theorem State.Leaves.flashTo (h : s.Leaves l p t) (m : .flash ∈ p) {x : List Host.Cell} : s.Leaves l p { t with flash := x } := by
  cases h; constructor <;> first | assumption | exact fun q => absurd m q
theorem State.Leaves.timeTo (h : s.Leaves l p t) (m : .time ∈ p) {n u : Nat} : s.Leaves l p { t with now := n, uptime := u } := by
  cases h; constructor <;> first | assumption | exact fun q => absurd m q

theorem State.Leaves.atTime (h : s.Leaves l p t) (m : .time ∈ p) {n : Nat} : s.Leaves l p (t.atTime n) := by
  obtain ⟨x, y, e⟩ := State.atTime_frame t n
  rw [e]
  exact h.timeTo m

theorem State.Leaves.atUptime (h : s.Leaves l p t) (m : .time ∈ p) {n : Nat} : s.Leaves l p (t.atUptime n) := by
  obtain ⟨x, y, e⟩ := State.atUptime_frame t n
  rw [e]
  exact h.timeTo m

/-! ## Folds and branches -/

theorem State.Leaves.ite (c : Prop) [Decidable c] {u : State} (h : s.Leaves l p t) (h' : s.Leaves l p u) :
    s.Leaves l p (if c then t else u) := by
  split
  · exact h
  · exact h'

theorem State.Leaves.each (h : s.Leaves l p t) {α : Type} {xs : List α} {f : α → State → State}
    (hf : ∀ x u, x ∈ xs → s.Leaves l p u → s.Leaves l p (f x u)) : s.Leaves l p (t.each xs f) := by
  unfold State.each
  induction xs generalizing t with
  | nil => exact h
  | cons x xs ih => exact ih (hf x t (List.mem_cons_self ..) h) (fun y u hy => hf y u (List.mem_cons_of_mem _ hy))

/-! ## Records -/

theorem State.Records.none (h : t.tly = s.tly) : s.Records [] t := by
  simp [State.Records, h]

/-- What a record does to the Tally. -/
theorem State.tally_tly (t : State) (c : Nat) (items : List Nat) :
    (t.tally c items).tly = if t.tly.intake.length < 64
      then { t.tly with intake := t.tly.intake ++ [⟨c, t.nowNs % 2 ^ 64, items⟩] }
      else { t.tly with lostIntake := t.tly.lostIntake + 1 } := by
  by_cases hl : t.tly.intake.length < 64
  · rw [State.tally_room hl, if_pos hl]
  · rw [State.tally_full t hl, State.raise_tly, State.bump_tly, if_neg hl]

/-- One more record. -/
theorem State.Records.snoc {l' : List (Nat × List Nat)} (h : s.Records l' t) {c : Nat} {items : List Nat} :
    s.Records (l' ++ [(c, items)]) (t.tally c items) := by
  obtain ⟨h1, h2⟩ := h
  have hn : (t.tally c items).nowNs = t.nowNs := by unfold State.nowNs; rw [State.tally_now]
  have hlen : t.tly.intake.length = s.tly.intake.length + min (64 - s.tly.intake.length) l'.length := by
    rw [h1]; simp
  unfold State.Records
  rw [hn, State.tally_tly]
  by_cases hl : t.tly.intake.length < 64
  · have e : List.take (64 - s.tly.intake.length) (l' ++ [(c, items)]) = l' ++ [(c, items)] :=
      List.take_of_length_le (by simp; omega)
    have e' : List.take (64 - s.tly.intake.length) l' = l' := List.take_of_length_le (by omega)
    rw [if_pos hl, e]
    rw [e'] at h1
    refine ⟨?_, ?_⟩
    · dsimp only
      rw [h1, List.map_append, List.append_assoc, List.map_cons, List.map_nil]
    · dsimp only
      rw [h2, List.length_append, List.length_singleton]
      omega
  · have e : List.take (64 - s.tly.intake.length) (l' ++ [(c, items)]) = List.take (64 - s.tly.intake.length) l' :=
      List.take_append_of_le_length (by omega)
    rw [if_neg hl, e]
    refine ⟨h1, ?_⟩
    dsimp only
    rw [h2, List.length_append, List.length_singleton]
    omega

/-- One record, of a state whose Tally stands as it was. -/
theorem State.Records.one (h : t.tly = s.tly) {c : Nat} {items : List Nat} : s.Records [(c, items)] (t.tally c items) :=
  State.Records.snoc (State.Records.none h)

theorem State.Records.after {l' : List (Nat × List Nat)} (h : s.Records l' t) {u : State} (e : u.tly = t.tly) (n : u.now = t.now) : s.Records l' u := by
  unfold State.Records at *
  rw [e]
  unfold State.nowNs at *
  rw [n]
  exact h

/-! ## Fields through a change of a part -/

theorem State.hiLatchTo_get {x : List (Nat × Word)} {g : Field} {j : Nat} : ({ s with hiLatch := x } : State).get g j = s.get g j := (rfl)
theorem State.hiLatchTo_flag {x : List (Nat × Word)} {g : Field} {j : Nat} : ({ s with hiLatch := x } : State).flag g j = s.flag g j := (rfl)
theorem State.freeCountTo_get {x : Nat} {g : Field} {j : Nat} : ({ s with freeCount := x } : State).get g j = s.get g j := (rfl)
theorem State.freeCountTo_flag {x : Nat} {g : Field} {j : Nat} : ({ s with freeCount := x } : State).flag g j = s.flag g j := (rfl)
theorem State.sysTo_get {x : Sys} {g : Field} {j : Nat} : ({ s with sys := x } : State).get g j = s.get g j := (rfl)
theorem State.sysTo_flag {x : Sys} {g : Field} {j : Nat} : ({ s with sys := x } : State).flag g j = s.flag g j := (rfl)
theorem State.strTo_get {x : Str} {g : Field} {j : Nat} : ({ s with str := x } : State).get g j = s.get g j := (rfl)
theorem State.strTo_flag {x : Str} {g : Field} {j : Nat} : ({ s with str := x } : State).flag g j = s.flag g j := (rfl)
theorem State.engTo_get {x : List Eng} {g : Field} {j : Nat} : ({ s with eng := x } : State).get g j = s.get g j := (rfl)
theorem State.engTo_flag {x : List Eng} {g : Field} {j : Nat} : ({ s with eng := x } : State).flag g j = s.flag g j := (rfl)
theorem State.sigTo_get {x : SigTest} {g : Field} {j : Nat} : ({ s with sig := x } : State).get g j = s.get g j := (rfl)
theorem State.sigTo_flag {x : SigTest} {g : Field} {j : Nat} : ({ s with sig := x } : State).flag g j = s.flag g j := (rfl)
theorem State.cmdTo_get {x : Cmd} {g : Field} {j : Nat} : ({ s with cmd := x } : State).get g j = s.get g j := (rfl)
theorem State.cmdTo_flag {x : Cmd} {g : Field} {j : Nat} : ({ s with cmd := x } : State).flag g j = s.flag g j := (rfl)
theorem State.parTo_get {x : Par} {g : Field} {j : Nat} : ({ s with par := x } : State).get g j = s.get g j := (rfl)
theorem State.parTo_flag {x : Par} {g : Field} {j : Nat} : ({ s with par := x } : State).flag g j = s.flag g j := (rfl)
theorem State.hostTo_get {x : HostLink} {g : Field} {j : Nat} : ({ s with host := x } : State).get g j = s.get g j := (rfl)
theorem State.hostTo_flag {x : HostLink} {g : Field} {j : Nat} : ({ s with host := x } : State).flag g j = s.flag g j := (rfl)
theorem State.tlyTo_get {x : Tly} {g : Field} {j : Nat} : ({ s with tly := x } : State).get g j = s.get g j := (rfl)
theorem State.tlyTo_flag {x : Tly} {g : Field} {j : Nat} : ({ s with tly := x } : State).flag g j = s.flag g j := (rfl)
theorem State.fltTo_get {x : Flt} {g : Field} {j : Nat} : ({ s with flt := x } : State).get g j = s.get g j := (rfl)
theorem State.fltTo_flag {x : Flt} {g : Field} {j : Nat} : ({ s with flt := x } : State).flag g j = s.flag g j := (rfl)
theorem State.redTo_get {x : Red} {g : Field} {j : Nat} : ({ s with red := x } : State).get g j = s.get g j := (rfl)
theorem State.redTo_flag {x : Red} {g : Field} {j : Nat} : ({ s with red := x } : State).flag g j = s.flag g j := (rfl)
theorem State.ingTo_get {x : Ing} {g : Field} {j : Nat} : ({ s with ing := x } : State).get g j = s.get g j := (rfl)
theorem State.ingTo_flag {x : Ing} {g : Field} {j : Nat} : ({ s with ing := x } : State).flag g j = s.flag g j := (rfl)
theorem State.framesTo_get {x : List FrameWork} {g : Field} {j : Nat} : ({ s with frames := x } : State).get g j = s.get g j := (rfl)
theorem State.framesTo_flag {x : List FrameWork} {g : Field} {j : Nat} : ({ s with frames := x } : State).flag g j = s.flag g j := (rfl)
theorem State.layerKeepTo_get {x : List (Nat × LayerKeep)} {g : Field} {j : Nat} : ({ s with layerKeep := x } : State).get g j = s.get g j := (rfl)
theorem State.layerKeepTo_flag {x : List (Nat × LayerKeep)} {g : Field} {j : Nat} : ({ s with layerKeep := x } : State).flag g j = s.flag g j := (rfl)
theorem State.memTo_get {x : Mem} {g : Field} {j : Nat} : ({ s with mem := x } : State).get g j = s.get g j := (rfl)
theorem State.memTo_flag {x : Mem} {g : Field} {j : Nat} : ({ s with mem := x } : State).flag g j = s.flag g j := (rfl)
theorem State.cmpTo_get {x : Cmp} {g : Field} {j : Nat} : ({ s with cmp := x } : State).get g j = s.get g j := (rfl)
theorem State.cmpTo_flag {x : Cmp} {g : Field} {j : Nat} : ({ s with cmp := x } : State).flag g j = s.flag g j := (rfl)
theorem State.calTo_get {x : Cal} {g : Field} {j : Nat} : ({ s with cal := x } : State).get g j = s.get g j := (rfl)
theorem State.calTo_flag {x : Cal} {g : Field} {j : Nat} : ({ s with cal := x } : State).flag g j = s.flag g j := (rfl)
theorem State.sepTo_get {x : Sep} {g : Field} {j : Nat} : ({ s with sep := x } : State).get g j = s.get g j := (rfl)
theorem State.sepTo_flag {x : Sep} {g : Field} {j : Nat} : ({ s with sep := x } : State).flag g j = s.flag g j := (rfl)
theorem State.govTo_get {x : Gov} {g : Field} {j : Nat} : ({ s with gov := x } : State).get g j = s.get g j := (rfl)
theorem State.govTo_flag {x : Gov} {g : Field} {j : Nat} : ({ s with gov := x } : State).flag g j = s.flag g j := (rfl)
theorem State.linksTo_get {x : List Link} {g : Field} {j : Nat} : ({ s with links := x } : State).get g j = s.get g j := (rfl)
theorem State.linksTo_flag {x : List Link} {g : Field} {j : Nat} : ({ s with links := x } : State).flag g j = s.flag g j := (rfl)
theorem State.dvlTo_get {x : Dvl} {g : Field} {j : Nat} : ({ s with dvl := x } : State).get g j = s.get g j := (rfl)
theorem State.dvlTo_flag {x : Dvl} {g : Field} {j : Nat} : ({ s with dvl := x } : State).flag g j = s.flag g j := (rfl)
theorem State.fixTo_get {x : Fix} {g : Field} {j : Nat} : ({ s with fix := x } : State).get g j = s.get g j := (rfl)
theorem State.fixTo_flag {x : Fix} {g : Field} {j : Nat} : ({ s with fix := x } : State).flag g j = s.flag g j := (rfl)
theorem State.ddpTo_get {x : Ddp} {g : Field} {j : Nat} : ({ s with ddp := x } : State).get g j = s.get g j := (rfl)
theorem State.ddpTo_flag {x : Ddp} {g : Field} {j : Nat} : ({ s with ddp := x } : State).flag g j = s.flag g j := (rfl)
theorem State.timTo_get {x : Tim} {g : Field} {j : Nat} : ({ s with tim := x } : State).get g j = s.get g j := (rfl)
theorem State.timTo_flag {x : Tim} {g : Field} {j : Nat} : ({ s with tim := x } : State).flag g j = s.flag g j := (rfl)
theorem State.fusesTo_get {x : Fuses} {g : Field} {j : Nat} : ({ s with fuses := x } : State).get g j = s.get g j := (rfl)
theorem State.fusesTo_flag {x : Fuses} {g : Field} {j : Nat} : ({ s with fuses := x } : State).flag g j = s.flag g j := (rfl)
theorem State.pwrTo_get {x : Pwr} {g : Field} {j : Nat} : ({ s with pwr := x } : State).get g j = s.get g j := (rfl)
theorem State.pwrTo_flag {x : Pwr} {g : Field} {j : Nat} : ({ s with pwr := x } : State).flag g j = s.flag g j := (rfl)
theorem State.updTo_get {x : Upd} {g : Field} {j : Nat} : ({ s with upd := x } : State).get g j = s.get g j := (rfl)
theorem State.updTo_flag {x : Upd} {g : Field} {j : Nat} : ({ s with upd := x } : State).flag g j = s.flag g j := (rfl)
theorem State.bulkTo_get {x : List Host.Cell} {g : Field} {j : Nat} : ({ s with bulk := x } : State).get g j = s.get g j := (rfl)
theorem State.bulkTo_flag {x : List Host.Cell} {g : Field} {j : Nat} : ({ s with bulk := x } : State).flag g j = s.flag g j := (rfl)
theorem State.pailMemTo_get {x : List Host.Cell} {g : Field} {j : Nat} : ({ s with pailMem := x } : State).get g j = s.get g j := (rfl)
theorem State.pailMemTo_flag {x : List Host.Cell} {g : Field} {j : Nat} : ({ s with pailMem := x } : State).flag g j = s.flag g j := (rfl)
theorem State.retSramTo_get {x : List Host.Cell} {g : Field} {j : Nat} : ({ s with retSram := x } : State).get g j = s.get g j := (rfl)
theorem State.retSramTo_flag {x : List Host.Cell} {g : Field} {j : Nat} : ({ s with retSram := x } : State).flag g j = s.flag g j := (rfl)
theorem State.tallyRamTo_get {x : List Host.Cell} {g : Field} {j : Nat} : ({ s with tallyRam := x } : State).get g j = s.get g j := (rfl)
theorem State.tallyRamTo_flag {x : List Host.Cell} {g : Field} {j : Nat} : ({ s with tallyRam := x } : State).flag g j = s.flag g j := (rfl)
theorem State.flashTo_get {x : List Host.Cell} {g : Field} {j : Nat} : ({ s with flash := x } : State).get g j = s.get g j := (rfl)
theorem State.flashTo_flag {x : List Host.Cell} {g : Field} {j : Nat} : ({ s with flash := x } : State).flag g j = s.flag g j := (rfl)
theorem State.outsTo_get {x : List Out} {g : Field} {j : Nat} : ({ s with outs := x } : State).get g j = s.get g j := (rfl)
theorem State.outsTo_flag {x : List Out} {g : Field} {j : Nat} : ({ s with outs := x } : State).flag g j = s.flag g j := (rfl)

/-! ## Named changes of a part -/

theorem State.modLoad_get {f : StrLoad → StrLoad} {g : Field} {j : Nat} : (s.modLoad f).get g j = s.get g j := (rfl)
theorem State.modLoad_flag {f : StrLoad → StrLoad} {g : Field} {j : Nat} : (s.modLoad f).flag g j = s.flag g j := (rfl)
theorem State.modJoined_get {e q : Nat} {f : Joined → Joined} {g : Field} {j : Nat} : (s.modJoined e q f).get g j = s.get g j := (rfl)
theorem State.modJoined_flag {e q : Nat} {f : Joined → Joined} {g : Field} {j : Nat} : (s.modJoined e q f).flag g j = s.flag g j := (rfl)
theorem State.modSem_get {e : Nat} {f : Sem → Sem} {g : Field} {j : Nat} : (s.modSem e f).get g j = s.get g j := (rfl)
theorem State.modSem_flag {e : Nat} {f : Sem → Sem} {g : Field} {j : Nat} : (s.modSem e f).flag g j = s.flag g j := (rfl)
theorem State.modBell_get {b : Bool} {f : Bell → Bell} {g : Field} {j : Nat} : (s.modBell b f).get g j = s.get g j := (rfl)
theorem State.modBell_flag {b : Bool} {f : Bell → Bell} {g : Field} {j : Nat} : (s.modBell b f).flag g j = s.flag g j := (rfl)
theorem State.Leaves.modSys (h : s.Leaves l p t) (m : .sys ∈ p) {f : Sys → Sys} : s.Leaves l p (t.modSys f) := h.sysTo m
theorem State.Leaves.modHost (h : s.Leaves l p t) (m : .host ∈ p) {f : HostLink → HostLink} : s.Leaves l p (t.modHost f) := h.hostTo m
theorem State.Leaves.modRed (h : s.Leaves l p t) (m : .red ∈ p) {f : Red → Red} : s.Leaves l p (t.modRed f) := h.redTo m
theorem State.Leaves.modMem (h : s.Leaves l p t) (m : .mem ∈ p) {f : Mem → Mem} : s.Leaves l p (t.modMem f) := h.memTo m
theorem State.Leaves.modPwr (h : s.Leaves l p t) (m : .pwr ∈ p) {f : Pwr → Pwr} : s.Leaves l p (t.modPwr f) := h.pwrTo m
theorem State.Leaves.modUpd (h : s.Leaves l p t) (m : .upd ∈ p) {f : Upd → Upd} : s.Leaves l p (t.modUpd f) := h.updTo m
theorem State.Leaves.modTly (h : s.Leaves l p t) (m : .tly ∈ p) {f : Tly → Tly} : s.Leaves l p (t.modTly f) := h.tlyAllTo m
theorem State.Leaves.modEng (h : s.Leaves l p t) (m : .eng ∈ p) {e : Nat} {f : Eng → Eng} : s.Leaves l p (t.modEng e f) := h.engTo m
theorem State.Leaves.modLink (h : s.Leaves l p t) (m : .links ∈ p) {e : Nat} {f : Link → Link} : s.Leaves l p (t.modLink e f) := h.linksTo m
theorem State.Leaves.modLoad (h : s.Leaves l p t) (m : .str ∈ p) {f : StrLoad → StrLoad} : s.Leaves l p (t.modLoad f) := h.strTo m
theorem State.Leaves.modStream (h : s.Leaves l p t) (m : .ing ∈ p) {e : Nat} {f : Stream → Stream} : s.Leaves l p (t.modStream e f) := h.ingTo m
theorem State.Leaves.modPail (h : s.Leaves l p t) (m : .par ∈ p) {e : Nat} {f : Pail → Pail} : s.Leaves l p (t.modPail e f) := h.parTo m
theorem State.Leaves.modFrame (h : s.Leaves l p t) (m : .frames ∈ p) {e : Nat} {f : FrameWork → FrameWork} : s.Leaves l p (t.modFrame e f) := h.framesTo m
theorem State.Leaves.modRing (h : s.Leaves l p t) (m : .dvl ∈ p) {e : Nat} {f : RingSt → RingSt} : s.Leaves l p (t.modRing e f) := h.dvlTo m
theorem State.Leaves.modJoined (h : s.Leaves l p t) (m : .dvl ∈ p) {e q : Nat} {f : Joined → Joined} : s.Leaves l p (t.modJoined e q f) := h.dvlTo m
theorem State.Leaves.modDd (h : s.Leaves l p t) (m : .ddp ∈ p) {e : Nat} {f : DdPort → DdPort} : s.Leaves l p (t.modDd e f) := h.ddpTo m
theorem State.Leaves.modPtp (h : s.Leaves l p t) (m : .tim ∈ p) {e : Nat} {f : PtpPort → PtpPort} : s.Leaves l p (t.modPtp e f) := h.timTo m
theorem State.Leaves.modSem (h : s.Leaves l p t) (m : .host ∈ p) {e : Nat} {f : Sem → Sem} : s.Leaves l p (t.modSem e f) := h.hostTo m
theorem State.Leaves.modChan (h : s.Leaves l p t) (m : .cmd ∈ p) {e q : Nat} {f : Chan → Chan} : s.Leaves l p (t.modChan e q f) := h.cmdTo m
theorem State.Leaves.modBg (h : s.Leaves l p t) (m : .sys ∈ p) {a : Nat} {f : Bg → Bg} : s.Leaves l p (t.modBg a f) := h.sysTo m
theorem State.Leaves.modItem (h : s.Leaves l p t) (m : .par ∈ p) {a n : Nat} {f : Item → Item} : s.Leaves l p (t.modItem a n f) := h.parTo m
theorem State.Leaves.setCalZone (h : s.Leaves l p t) (m : .cal ∈ p) {z : CalZone} : s.Leaves l p (t.setCalZone z) := h.calTo m
theorem State.Leaves.setGovEp (h : s.Leaves l p t) (m : .gov ∈ p) {x : GovEp} : s.Leaves l p (t.setGovEp x) := h.govTo m
theorem State.Leaves.setMotion (h : s.Leaves l p t) (m : .fix ∈ p) {x : Motion} : s.Leaves l p (t.setMotion x) := h.fixTo m
theorem State.Leaves.setUniv (h : s.Leaves l p t) (m : .fix ∈ p) {x : Univ} : s.Leaves l p (t.setUniv x) := h.fixTo m
theorem State.Leaves.modBell (h : s.Leaves l p t) (m : .red ∈ p) {b : Bool} {f : Bell → Bell} : s.Leaves l p (t.modBell b f) := h.redTo m

end Sys2Proof.Machine
end

