-- ==== Sys2Proof/Laws/Keep.lean ====
section
/-! SUPPORT. What every operation of the machine keeps: the queue, what has been sent, the count of free values, the fuses
and the canonical form. One lemma for each primitive; the other Keep files say it of every operation and meaning. -/
namespace Sys2Proof.Machine

/-- `t` continues `s`, and is canonical where `s` is. -/
structure Keeps (s t : State) : Prop where
  continues : s.Continues t
  canonical : s.canonical = true → t.canonical = true

theorem Keeps.refl (s : State) : Keeps s s :=
  ⟨⟨rfl, List.prefix_refl _, Nat.le_refl _, Nat.le_refl _, Nat.le_refl _, rfl⟩, id⟩

theorem Keeps.trans {r s t : State} (h : Keeps r s) (k : Keeps s t) : Keeps r t :=
  ⟨⟨k.1.pending.trans h.1.pending, h.1.sent.trans k.1.sent, Nat.le_trans h.1.free k.1.free,
    Nat.le_trans h.1.fwCounter k.1.fwCounter, Nat.le_trans h.1.strCounter k.1.strCounter, by
      rw [k.1.fuses, h.1.fuses]⟩, fun c => k.2 (h.2 c)⟩

variable {s0 s : State}

/-- A state that differs from `s` in fields that the invariant does not speak of. -/
theorem Keeps.mk_iff
    {now' : Nat} {uptime' : Nat} {hiLatch' : List (Nat × Word)} {sys' : Sys} {str' : Str} {eng' : List Eng} {sig' :
    SigTest} {cmd' : Cmd} {par' : Par} {host' : HostLink} {tly' : Tly} {flt' : Flt} {red' : Red} {ing' : Ing}
    {frames' : List FrameWork} {layerKeep' : List (Nat × LayerKeep)} {mem' : Mem} {cmp' : Cmp} {cal' : Cal} {sep' :
    Sep} {gov' : Gov} {links' : List Link} {dvl' : Dvl} {fix' : Fix} {ddp' : Ddp} {tim' : Tim} {pwr' : Pwr} {upd' :
    Upd} :
    Keeps s0 {
      pending := s.pending, now := now', uptime := uptime', regs := s.regs, hiLatch := hiLatch', bulk := s.bulk,
      pailMem := s.pailMem, retSram := s.retSram, tallyRam := s.tallyRam, flash := s.flash, outs := s.outs, freeCount
      := s.freeCount, sys := sys', str := str', eng := eng', sig := sig', cmd := cmd', par := par', host := host', tly
      := tly', flt := flt', red := red', ing := ing', frames := frames', layerKeep := layerKeep', mem := mem', cmp :=
      cmp', cal := cal', sep := sep', gov := gov', links := links', dvl := dvl', fix := fix', ddp := ddp', tim :=
      tim', fuses := s.fuses, pwr := pwr', upd := upd' } ↔
      Keeps s0 s :=
  ⟨fun h => ⟨⟨h.1.1, h.1.2, h.1.3, h.1.4, h.1.5, h.1.6⟩, h.2⟩, fun h => ⟨⟨h.1.1, h.1.2, h.1.3, h.1.4, h.1.5, h.1.6⟩, h.2⟩⟩

theorem State.canonical_iff (s : State) : s.canonical = true ↔
    sparseWf regReset s.regs = true ∧ Memory.wf 0 s.bulk = true ∧ Memory.wf 0 s.pailMem = true ∧
      Memory.wf 0 s.retSram = true ∧ Memory.wf 0 s.tallyRam = true ∧ Memory.wf 0xFF s.flash = true := by
  simp only [State.canonical, Bool.and_eq_true, and_assoc]

theorem State.setReg_keeps (h : Keeps s0 s) {a : Nat} {v : Word} : Keeps s0 (s.setReg a v) :=
  h.trans ⟨⟨rfl, List.prefix_refl _, Nat.le_refl _, Nat.le_refl _, Nat.le_refl _, rfl⟩, fun c => by
    rw [State.canonical_iff] at c ⊢
    exact ⟨sparseWf_set _ _ _ c.1, c.2⟩⟩

theorem State.setBulk_keeps (h : Keeps s0 s) {a : Nat} {b : Byte} : Keeps s0 (s.setBulk a b) :=
  h.trans ⟨⟨rfl, List.prefix_refl _, Nat.le_refl _, Nat.le_refl _, Nat.le_refl _, rfl⟩, fun c => by
    rw [State.canonical_iff] at c ⊢
    exact ⟨c.1, sparseWf_set _ _ _ c.2.1, c.2.2⟩⟩

theorem State.setPailByte_keeps (h : Keeps s0 s) {a : Nat} {b : Byte} : Keeps s0 (s.setPailByte a b) :=
  h.trans ⟨⟨rfl, List.prefix_refl _, Nat.le_refl _, Nat.le_refl _, Nat.le_refl _, rfl⟩, fun c => by
    rw [State.canonical_iff] at c ⊢
    exact ⟨c.1, c.2.1, sparseWf_set _ _ _ c.2.2.1, c.2.2.2⟩⟩

theorem State.setRet_keeps (h : Keeps s0 s) {a : Nat} {b : Byte} : Keeps s0 (s.setRet a b) :=
  h.trans ⟨⟨rfl, List.prefix_refl _, Nat.le_refl _, Nat.le_refl _, Nat.le_refl _, rfl⟩, fun c => by
    rw [State.canonical_iff] at c ⊢
    exact ⟨c.1, c.2.1, c.2.2.1, sparseWf_set _ _ _ c.2.2.2.1, c.2.2.2.2⟩⟩

theorem State.setTallyByte_keeps (h : Keeps s0 s) {a : Nat} {b : Byte} : Keeps s0 (s.setTallyByte a b) :=
  h.trans ⟨⟨rfl, List.prefix_refl _, Nat.le_refl _, Nat.le_refl _, Nat.le_refl _, rfl⟩, fun c => by
    rw [State.canonical_iff] at c ⊢
    exact ⟨c.1, c.2.1, c.2.2.1, c.2.2.2.1, sparseWf_set _ _ _ c.2.2.2.2.1, c.2.2.2.2.2⟩⟩

theorem State.setFlash_keeps (h : Keeps s0 s) {a : Nat} {b : Byte} : Keeps s0 (s.setFlash a b) :=
  h.trans ⟨⟨rfl, List.prefix_refl _, Nat.le_refl _, Nat.le_refl _, Nat.le_refl _, rfl⟩, fun c => by
    rw [State.canonical_iff] at c ⊢
    exact ⟨c.1, c.2.1, c.2.2.1, c.2.2.2.1, c.2.2.2.2.1, sparseWf_set _ _ _ c.2.2.2.2.2⟩⟩

theorem State.emit_keeps (h : Keeps s0 s) {o : Out} : Keeps s0 (s.emit o) :=
  h.trans ⟨⟨rfl, ⟨[o], rfl⟩, Nat.le_refl _, Nat.le_refl _, Nat.le_refl _, rfl⟩, id⟩

theorem State.free_keeps (h : Keeps s0 s) {w : Nat} : Keeps s0 (s.free w).2 :=
  h.trans ⟨⟨rfl, List.prefix_refl _, Nat.le_succ _, Nat.le_refl _, Nat.le_refl _, rfl⟩, id⟩

theorem State.each_keeps {α : Type} {f : α → State → State} {l : List α} (h : Keeps s0 s)
    (hf : ∀ a t, Keeps s0 t → Keeps s0 (f a t)) : Keeps s0 (s.each l f) := by
  unfold State.each
  induction l generalizing s with
  | nil => exact h
  | cons a l ih => exact ih (hf a s h)

theorem State.when_keeps {c : Bool} {f : State → State} (h : Keeps s0 s) (hf : ∀ t, Keeps s0 t → Keeps s0 (f t)) :
    Keeps s0 (s.when c f) := by
  unfold State.when
  split
  · exact hf s h
  · exact h

theorem ite_keeps {c : Prop} [Decidable c] {t : State} (h : Keeps s0 s) (k : Keeps s0 t) : Keeps s0 (if c then s else t) := by
  split <;> assumption

theorem foldl_keeps {α : Type} {f : State → α → State} {l : List α} (h : Keeps s0 s)
    (hf : ∀ t a, Keeps s0 t → Keeps s0 (f t a)) : Keeps s0 (l.foldl f s) := by
  induction l generalizing s with
  | nil => exact h
  | cons a l ih => exact ih (hf s a h)

theorem writeBytes_keeps {w : State → Nat → Byte → State} {a : Nat} {l : List Nat} (h : Keeps s0 s)
    (hw : ∀ t a b, Keeps s0 t → Keeps s0 (w t a b)) : Keeps s0 (writeBytes w s a l) := by
  induction l generalizing s a with
  | nil => exact h
  | cons b l ih => exact ih (hw s a _ h)

theorem foldl_keeps_snd {α β : Type} {f : β × State → α → β × State} {l : List α} {p : β × State} (h : Keeps s0 p.2)
    (hf : ∀ p a, Keeps s0 p.2 → Keeps s0 (f p a).2) : Keeps s0 (l.foldl f p).2 := by
  induction l generalizing p with
  | nil => exact h
  | cons a l ih => exact ih (hf p a h)

theorem State.clearPailMem_keeps (h : Keeps s0 s) : Keeps s0 s.clearPailMem :=
  h.trans ⟨⟨rfl, List.prefix_refl _, Nat.le_refl _, Nat.le_refl _, Nat.le_refl _, rfl⟩, fun c => by
    rw [State.canonical_iff] at c ⊢
    exact ⟨c.1, c.2.1, rfl, c.2.2.2⟩⟩

theorem State.keepRegs_keeps (h : Keeps s0 s) {p : Nat → Bool} : Keeps s0 (s.keepRegs p) :=
  h.trans ⟨⟨rfl, List.prefix_refl _, Nat.le_refl _, Nat.le_refl _, Nat.le_refl _, rfl⟩, fun c => by
    rw [State.canonical_iff] at c ⊢
    exact ⟨sparseWf_filter _ _ c.1, c.2⟩⟩

theorem State.keepFlash_keeps (h : Keeps s0 s) {p : Nat → Bool} : Keeps s0 (s.keepFlash p) :=
  h.trans ⟨⟨rfl, List.prefix_refl _, Nat.le_refl _, Nat.le_refl _, Nat.le_refl _, rfl⟩, fun c => by
    rw [State.canonical_iff] at c ⊢
    exact ⟨c.1, c.2.1, c.2.2.1, c.2.2.2.1, c.2.2.2.2.1, sparseWf_filter _ _ c.2.2.2.2.2⟩⟩

end Sys2Proof.Machine
end

