-- ==== Sys2Proof/Laws/KeepOps.lean ====
section
/-! SUPPORT. What the operations of Machine/Ops keep (Laws/Keep). -/
namespace Sys2Proof.Machine

variable {σ : State}

theorem State.put_keeps {s : State} {f : Field} {v : Nat} {i : optParam Nat 0} (hk : Keeps σ s) : Keeps σ (State.put s f v i) := by
  unfold State.put
  try dsimp only
  repeat' (first | intro _ | with_reducible (first | assumption | apply State.setReg_keeps | apply ite_keeps | apply foldl_keeps | apply foldl_keeps_snd) | split | simp only [Keeps.mk_iff] | dsimp only)

theorem State.putFlag_keeps {s : State} {f : Field} {b : Bool} {i : optParam Nat 0} (hk : Keeps σ s) : Keeps σ (State.putFlag s f b i) := by
  unfold State.putFlag
  try dsimp only
  repeat' (first | intro _ | with_reducible (first | assumption | apply State.put_keeps | apply ite_keeps | apply foldl_keeps | apply foldl_keeps_snd) | split | simp only [Keeps.mk_iff] | dsimp only)

theorem State.msi_keeps {s : State} {v : Nat} (hk : Keeps σ s) : Keeps σ (State.msi s v) := by
  unfold State.msi
  try dsimp only
  repeat' (first | intro _ | with_reducible (first | assumption | apply State.emit_keeps | apply ite_keeps | apply foldl_keeps | apply foldl_keeps_snd) | split | simp only [Keeps.mk_iff] | dsimp only)

theorem State.raise_keeps {s : State} {f : Field} {i : optParam Nat 0} (hk : Keeps σ s) : Keeps σ (State.raise s f i) := by
  unfold State.raise
  try dsimp only
  repeat' (first | intro _ | with_reducible (first | assumption | apply State.putFlag_keeps | apply State.msi_keeps | apply ite_keeps | apply foldl_keeps | apply foldl_keeps_snd) | split | simp only [Keeps.mk_iff] | dsimp only)

theorem State.add_keeps {s : State} {f : Field} {n : Nat} {i : optParam Nat 0} (hk : Keeps σ s) : Keeps σ (State.add s f n i) := by
  unfold State.add
  try dsimp only
  repeat' (first | intro _ | with_reducible (first | assumption | apply State.put_keeps | apply ite_keeps | apply foldl_keeps | apply foldl_keeps_snd) | split | simp only [Keeps.mk_iff] | dsimp only)

theorem State.bump_keeps {s : State} {f : Field} {i : optParam Nat 0} (hk : Keeps σ s) : Keeps σ (State.bump s f i) := by
  unfold State.bump
  try dsimp only
  repeat' (first | intro _ | with_reducible (first | assumption | apply State.add_keeps | apply ite_keeps | apply foldl_keeps | apply foldl_keeps_snd) | split | simp only [Keeps.mk_iff] | dsimp only)

theorem State.tally_keeps {s : State} {code : Nat} {items : List Nat} (hk : Keeps σ s) : Keeps σ (State.tally s code items) := by
  unfold State.tally
  try dsimp only
  repeat' (first | intro _ | with_reducible (first | assumption | apply State.raise_keeps | apply State.bump_keeps | apply ite_keeps | apply foldl_keeps | apply foldl_keeps_snd) | split | simp only [Keeps.mk_iff] | dsimp only)

theorem State.advance_keeps {s : State} {f : Field} {i : optParam Nat 0} (hk : Keeps σ s) : Keeps σ (State.advance s f i) := by
  unfold State.advance
  try dsimp only
  repeat' (first | intro _ | with_reducible (first | assumption | apply State.put_keeps | apply ite_keeps | apply foldl_keeps | apply foldl_keeps_snd) | split | simp only [Keeps.mk_iff] | dsimp only)

theorem State.setLimits_keeps {s : State} {l : List RateLimit} (hk : Keeps σ s) : Keeps σ (State.setLimits s l) := by
  unfold State.setLimits
  try dsimp only
  repeat' (first | intro _ | with_reducible (first | assumption | apply ite_keeps | apply foldl_keeps | apply foldl_keeps_snd) | split | simp only [Keeps.mk_iff] | dsimp only)

theorem State.tallyLimitedV_keeps {s : State} {key : Nat} {period : Nat} {code : Nat} {v : Nat} {items : Nat → Nat → List Nat} (hk : Keeps σ s) : Keeps σ (State.tallyLimitedV s key period code v items) := by
  unfold State.tallyLimitedV
  try dsimp only
  repeat' (first | intro _ | with_reducible (first | assumption | apply State.tally_keeps | apply State.setLimits_keeps | apply ite_keeps | apply foldl_keeps | apply foldl_keeps_snd) | split | simp only [Keeps.mk_iff] | dsimp only)

theorem State.writeBulk_keeps {s : State} {a : Nat} {bs : List Nat} (hk : Keeps σ s) : Keeps σ (State.writeBulk s a bs) := by
  unfold State.writeBulk
  try dsimp only
  repeat' (first | intro _ | with_reducible (first | assumption | apply writeBytes_keeps | apply State.setBulk_keeps | apply ite_keeps | apply foldl_keeps | apply foldl_keeps_snd) | split | simp only [Keeps.mk_iff] | dsimp only)

theorem State.writePailMem_keeps {s : State} {a : Nat} {bs : List Nat} (hk : Keeps σ s) : Keeps σ (State.writePailMem s a bs) := by
  unfold State.writePailMem
  try dsimp only
  repeat' (first | intro _ | with_reducible (first | assumption | apply writeBytes_keeps | apply State.setPailByte_keeps | apply ite_keeps | apply foldl_keeps | apply foldl_keeps_snd) | split | simp only [Keeps.mk_iff] | dsimp only)

theorem State.msiAssigned_keeps {s : State} {v : Nat} (hk : Keeps σ s) : Keeps σ (State.msiAssigned s v) := by
  unfold State.msiAssigned
  try dsimp only
  repeat' (first | intro _ | with_reducible (first | assumption | apply State.msi_keeps | apply ite_keeps | apply foldl_keeps | apply foldl_keeps_snd) | split | simp only [Keeps.mk_iff] | dsimp only)

theorem State.tallyLimited_keeps {s : State} {key : Nat} {period : Nat} {code : Nat} {items : Nat → List Nat} (hk : Keeps σ s) : Keeps σ (State.tallyLimited s key period code items) := by
  unfold State.tallyLimited
  try dsimp only
  repeat' (first | intro _ | with_reducible (first | assumption | apply State.tallyLimitedV_keeps | apply ite_keeps | apply foldl_keeps | apply foldl_keeps_snd) | split | simp only [Keeps.mk_iff] | dsimp only)

theorem State.modChan_keeps {s : State} {kind : Nat} {index : Nat} {f : Chan → Chan} (hk : Keeps σ s) : Keeps σ (State.modChan s kind index f) := by
  unfold State.modChan
  try dsimp only
  repeat' (first | intro _ | with_reducible (first | assumption | apply ite_keeps | apply foldl_keeps | apply foldl_keeps_snd) | split | simp only [Keeps.mk_iff] | dsimp only)

theorem State.writeTally_keeps {s : State} {a : Nat} {bs : List Nat} (hk : Keeps σ s) : Keeps σ (State.writeTally s a bs) := by
  unfold State.writeTally
  try dsimp only
  repeat' (first | intro _ | with_reducible (first | assumption | apply writeBytes_keeps | apply State.setTallyByte_keeps | apply ite_keeps | apply foldl_keeps | apply foldl_keeps_snd) | split | simp only [Keeps.mk_iff] | dsimp only)

theorem State.put64_keeps {s : State} {lo : Field} {v : Nat} {i : optParam Nat 0} (hk : Keeps σ s) : Keeps σ (State.put64 s lo v i) := by
  unfold State.put64
  try dsimp only
  repeat' (first | intro _ | with_reducible (first | assumption | apply State.setReg_keeps | apply ite_keeps | apply foldl_keeps | apply foldl_keeps_snd) | split | simp only [Keeps.mk_iff] | dsimp only)

theorem State.add64_keeps {s : State} {lo : Field} {n : Nat} {i : optParam Nat 0} (hk : Keeps σ s) : Keeps σ (State.add64 s lo n i) := by
  unfold State.add64
  try dsimp only
  repeat' (first | intro _ | with_reducible (first | assumption | apply State.put64_keeps | apply ite_keeps | apply foldl_keeps | apply foldl_keeps_snd) | split | simp only [Keeps.mk_iff] | dsimp only)

theorem State.rejectS_keeps {s : State} {a : Nat} (hk : Keeps σ s) : Keeps σ (State.rejectS s a) := by
  unfold State.rejectS
  try dsimp only
  repeat' (first | intro _ | with_reducible (first | assumption | apply State.put_keeps | apply State.bump_keeps | apply State.raise_keeps | apply ite_keeps | apply foldl_keeps | apply foldl_keeps_snd) | split | simp only [Keeps.mk_iff] | dsimp only)

theorem State.modSys_keeps {s : State} {f : Sys → Sys} (hk : Keeps σ s) : Keeps σ (State.modSys s f) := by
  unfold State.modSys
  try dsimp only
  repeat' (first | intro _ | with_reducible (first | assumption | apply ite_keeps | apply foldl_keeps | apply foldl_keeps_snd) | split | simp only [Keeps.mk_iff] | dsimp only)

theorem State.atTime_keeps {s : State} {t : Nat} (hk : Keeps σ s) : Keeps σ (State.atTime s t) := by
  unfold State.atTime
  try dsimp only
  repeat' (first | intro _ | with_reducible (first | assumption | apply ite_keeps | apply foldl_keeps | apply foldl_keeps_snd) | split | simp only [Keeps.mk_iff] | dsimp only)

theorem State.atUptime_keeps {s : State} {u : Nat} (hk : Keeps σ s) : Keeps σ (State.atUptime s u) := by
  unfold State.atUptime
  try dsimp only
  repeat' (first | intro _ | with_reducible (first | assumption | apply ite_keeps | apply foldl_keeps | apply foldl_keeps_snd) | split | simp only [Keeps.mk_iff] | dsimp only)

theorem State.writeFlash_keeps {s : State} {a : Nat} {bs : List Nat} (hk : Keeps σ s) : Keeps σ (State.writeFlash s a bs) := by
  unfold State.writeFlash
  try dsimp only
  repeat' (first | intro _ | with_reducible (first | assumption | apply writeBytes_keeps | apply State.setFlash_keeps | apply ite_keeps | apply foldl_keeps | apply foldl_keeps_snd) | split | simp only [Keeps.mk_iff] | dsimp only)

theorem State.writeRet_keeps {s : State} {a : Nat} {bs : List Nat} (hk : Keeps σ s) : Keeps σ (State.writeRet s a bs) := by
  unfold State.writeRet
  try dsimp only
  repeat' (first | intro _ | with_reducible (first | assumption | apply writeBytes_keeps | apply State.setRet_keeps | apply ite_keeps | apply foldl_keeps | apply foldl_keeps_snd) | split | simp only [Keeps.mk_iff] | dsimp only)

theorem State.rollRx_keeps {s : State} (hk : Keeps σ s) : Keeps σ (State.rollRx s) := by
  unfold State.rollRx
  try dsimp only
  repeat' (first | intro _ | with_reducible (first | assumption | apply State.put_keeps | apply ite_keeps | apply foldl_keeps | apply foldl_keeps_snd) | split | simp only [Keeps.mk_iff] | dsimp only)

theorem State.tallyAtMost_keeps {s : State} {key : Nat} {n : Nat} {period : Nat} {code : Nat} {items : List Nat} (hk : Keeps σ s) : Keeps σ (State.tallyAtMost s key n period code items) := by
  unfold State.tallyAtMost
  try dsimp only
  repeat' (first | intro _ | with_reducible (first | assumption | apply State.tally_keeps | apply State.setLimits_keeps | apply ite_keeps | apply foldl_keeps | apply foldl_keeps_snd) | split | simp only [Keeps.mk_iff] | dsimp only)

theorem State.writeBulkLe_keeps {s : State} {a : Nat} {n : Nat} {v : Nat} (hk : Keeps σ s) : Keeps σ (State.writeBulkLe s a n v) := by
  unfold State.writeBulkLe
  try dsimp only
  repeat' (first | intro _ | with_reducible (first | assumption | apply State.writeBulk_keeps | apply ite_keeps | apply foldl_keeps | apply foldl_keeps_snd) | split | simp only [Keeps.mk_iff] | dsimp only)

end Sys2Proof.Machine
end

