-- ==== Sys2Proof/Laws/KeepFaultOps.lean ====
section
/-! SUPPORT. What the operations of Machine/FaultOps keep (Laws/Keep). -/
namespace Sys2Proof.Machine

variable {σ : State}

theorem State.syncArmed_keeps {s : State} (hk : Keeps σ s) : Keeps σ (State.syncArmed s) := by
  unfold State.syncArmed
  try dsimp only
  repeat' (first | intro _ | with_reducible (first | assumption | apply State.put_keeps | apply State.putFlag_keeps | apply ite_keeps | apply foldl_keeps | apply foldl_keeps_snd) | split | simp only [Keeps.mk_iff] | dsimp only)

theorem State.fireArmed_keeps {s : State} {a : Armed} (hk : Keeps σ s) : Keeps σ (State.fireArmed s a) := by
  unfold State.fireArmed
  try dsimp only
  repeat' (first | intro _ | with_reducible (first | assumption | apply State.tally_keeps | apply State.raise_keeps | apply State.bump_keeps | apply State.syncArmed_keeps | apply ite_keeps | apply foldl_keeps | apply foldl_keeps_snd) | split | simp only [Keeps.mk_iff] | dsimp only)

theorem State.opportunity_keeps {s : State} {det : Nat} {unit : Nat} {arg : Nat} (hk : Keeps σ s) : Keeps σ (State.opportunity s det unit arg).2 := by
  unfold State.opportunity
  try dsimp only
  repeat' (first | intro _ | with_reducible (first | assumption | apply State.fireArmed_keeps | apply ite_keeps | apply foldl_keeps | apply foldl_keeps_snd) | split | simp only [Keeps.mk_iff] | dsimp only)
theorem State.opportunity_keeps' {s : State} {det : Nat} {unit : Nat} {arg : Nat} (hk : Keeps σ s) {a t} (e : State.opportunity s det unit arg = (a, t)) : Keeps σ t := by
  have k := congrArg (fun q => Keeps σ q.2) e
  exact k ▸ State.opportunity_keeps hk

theorem State.detect_keeps {s : State} {id : Nat} (hk : Keeps σ s) : Keeps σ (State.detect s id) := by
  unfold State.detect
  try dsimp only
  repeat' (first | intro _ | with_reducible (first | assumption | apply State.raise_keeps | apply State.bump_keeps | apply ite_keeps | apply foldl_keeps | apply foldl_keeps_snd) | split | simp only [Keeps.mk_iff] | dsimp only)

theorem State.pairFatal_keeps {s : State} (hk : Keeps σ s) : Keeps σ (State.pairFatal s) := by
  unfold State.pairFatal
  try dsimp only
  repeat' (first | intro _ | with_reducible (first | assumption | apply ite_keeps | apply foldl_keeps | apply foldl_keeps_snd) | split | simp only [Keeps.mk_iff] | dsimp only)

theorem State.cancelArmed_keeps {s : State} {cause : Nat} (hk : Keeps σ s) : Keeps σ (State.cancelArmed s cause) := by
  unfold State.cancelArmed
  try dsimp only
  repeat' (first | intro _ | with_reducible (first | assumption | apply State.syncArmed_keeps | apply State.tally_keeps | apply State.raise_keeps | apply ite_keeps | apply foldl_keeps | apply foldl_keeps_snd) | split | simp only [Keeps.mk_iff] | dsimp only)

theorem State.detected_keeps {s : State} {det : Nat} {unit : Nat} {arg : Nat} (hk : Keeps σ s) : Keeps σ (State.detected s det unit arg) := by
  unfold State.detected
  try dsimp only
  repeat' (first | intro _ | with_reducible (first | assumption | apply State.detect_keeps | apply State.opportunity_keeps | apply State.opportunity_keeps' (e := by assumption) | apply ite_keeps | apply foldl_keeps | apply foldl_keeps_snd) | split | simp only [Keeps.mk_iff] | dsimp only)

end Sys2Proof.Machine
end

