-- ==== Sys2Proof/Laws/KeepPairOps.lean ====
section
/-! SUPPORT. What the operations of Machine/PairOps keep (Laws/Keep). -/
namespace Sys2Proof.Machine

variable {σ : State}

theorem State.postMirror_keeps {s : State} {frame : Nat} {band : Nat} {what : Mirrored} (hk : Keeps σ s) : Keeps σ (State.postMirror s frame band what).2 := by
  unfold State.postMirror
  try dsimp only
  repeat' (first | intro _ | with_reducible (first | assumption | apply State.opportunity_keeps | apply State.opportunity_keeps' (e := by assumption) | apply State.put_keeps | apply State.emit_keeps | apply ite_keeps | apply foldl_keeps | apply foldl_keeps_snd) | split | simp only [Keeps.mk_iff] | dsimp only)
theorem State.postMirror_keeps' {s : State} {frame : Nat} {band : Nat} {what : Mirrored} (hk : Keeps σ s) {a t} (e : State.postMirror s frame band what = (a, t)) : Keeps σ t := by
  have k := congrArg (fun q => Keeps σ q.2) e
  exact k ▸ State.postMirror_keeps hk

theorem State.sendMirrorAt_keeps {s : State} {frame : Nat} {band : Nat} {acts : Bool} {what : Mirrored} (hk : Keeps σ s) : Keeps σ (State.sendMirrorAt s frame band acts what) := by
  unfold State.sendMirrorAt
  try dsimp only
  repeat' (first | intro _ | with_reducible (first | assumption | apply State.postMirror_keeps | apply State.postMirror_keeps' (e := by assumption) | apply ite_keeps | apply foldl_keeps | apply foldl_keeps_snd) | split | simp only [Keeps.mk_iff] | dsimp only)

theorem State.keepLate_keeps {s : State} {frame : Nat} {band : Nat} {chan : Option Chan} {addr : Option Nat} (hk : Keeps σ s) : Keeps σ (State.keepLate s frame band chan addr) := by
  unfold State.keepLate
  try dsimp only
  repeat' (first | intro _ | with_reducible (first | assumption | apply ite_keeps | apply foldl_keeps | apply foldl_keeps_snd) | split | simp only [Keeps.mk_iff] | dsimp only)

theorem State.undoLate_keeps {s : State} {l : LateValue} (hk : Keeps σ s) : Keeps σ (State.undoLate s l) := by
  unfold State.undoLate
  try dsimp only
  repeat' (first | intro _ | with_reducible (first | assumption | apply State.modChan_keeps | apply State.setReg_keeps | apply ite_keeps | apply foldl_keeps | apply foldl_keeps_snd) | split | simp only [Keeps.mk_iff] | dsimp only)

theorem State.asOf_keeps {s : State} {n : Nat} {place : Nat} (hk : Keeps σ s) : Keeps σ (State.asOf s n place) := by
  unfold State.asOf
  try dsimp only
  repeat' (first | intro _ | with_reducible (first | assumption | apply State.each_keeps | apply State.undoLate_keeps | apply ite_keeps | apply foldl_keeps | apply foldl_keeps_snd) | split | simp only [Keeps.mk_iff] | dsimp only)

theorem State.sendMirror_keeps {s : State} {frame : Nat} {acts : Bool} {what : Mirrored} (hk : Keeps σ s) : Keeps σ (State.sendMirror s frame acts what) := by
  unfold State.sendMirror
  try dsimp only
  repeat' (first | intro _ | with_reducible (first | assumption | apply State.sendMirrorAt_keeps | apply ite_keeps | apply foldl_keeps | apply foldl_keeps_snd) | split | simp only [Keeps.mk_iff] | dsimp only)

theorem State.mirroredFrom_keeps {s : State} {frame : Nat} {accepted : Bool} {what : Mirrored} {act : State → State} (hk : Keeps σ s) (hf : ∀ t, Keeps σ t → Keeps σ (act t)) : Keeps σ (State.mirroredFrom s frame accepted what act) := by
  unfold State.mirroredFrom
  try dsimp only
  repeat' (first | intro _ | with_reducible (first | assumption | apply hf | apply State.sendMirror_keeps | apply ite_keeps | apply foldl_keeps | apply foldl_keeps_snd) | split | simp only [Keeps.mk_iff] | dsimp only)

theorem State.mirrored_keeps {s : State} {accepted : Bool} {what : Mirrored} {act : State → State} (hk : Keeps σ s) (hf : ∀ t, Keeps σ t → Keeps σ (act t)) : Keeps σ (State.mirrored s accepted what act) := by
  unfold State.mirrored
  try dsimp only
  repeat' (first | intro _ | with_reducible (first | assumption | apply hf | apply State.mirroredFrom_keeps | apply ite_keeps | apply foldl_keeps | apply foldl_keeps_snd) | split | simp only [Keeps.mk_iff] | dsimp only)

theorem State.dropLate_keeps {s : State} {n : Nat} (hk : Keeps σ s) : Keeps σ (State.dropLate s n) := by
  unfold State.dropLate
  try dsimp only
  repeat' (first | intro _ | with_reducible (first | assumption | apply ite_keeps | apply foldl_keeps | apply foldl_keeps_snd) | split | simp only [Keeps.mk_iff] | dsimp only)

end Sys2Proof.Machine
end

