-- ==== Sys2Proof/Laws/KeepCalibration.lean ====
section
/-! SUPPORT. What the operations of Machine/Calibration keep (Laws/Keep). -/
namespace Sys2Proof.Machine

variable {σ : State}

theorem State.showCal_keeps {s : State} (hk : Keeps σ s) : Keeps σ (State.showCal s) := by
  unfold State.showCal
  try dsimp only
  repeat' (first | intro _ | with_reducible (first | assumption | apply State.putFlag_keeps | apply State.put_keeps | apply ite_keeps | apply foldl_keeps | apply foldl_keeps_snd) | split | simp only [Keeps.mk_iff] | dsimp only)

theorem State.accDone_keeps {s : State} {n : Nat} (hk : Keeps σ s) : Keeps σ (State.accDone s n) := by
  unfold State.accDone
  try dsimp only
  repeat' (first | intro _ | with_reducible (first | assumption | apply State.showCal_keeps | apply ite_keeps | apply foldl_keeps | apply foldl_keeps_snd) | split | simp only [Keeps.mk_iff] | dsimp only)

theorem State.setCalZone_keeps {s : State} {z : CalZone} (hk : Keeps σ s) : Keeps σ (State.setCalZone s z) := by
  unfold State.setCalZone
  try dsimp only
  repeat' (first | intro _ | with_reducible (first | assumption | apply ite_keeps | apply foldl_keeps | apply foldl_keeps_snd) | split | simp only [Keeps.mk_iff] | dsimp only)

theorem State.showZone_keeps {s : State} {z : Chan} (hk : Keeps σ s) : Keeps σ (State.showZone s z) := by
  unfold State.showZone
  try dsimp only
  repeat' (first | intro _ | with_reducible (first | assumption | apply State.put_keeps | apply ite_keeps | apply foldl_keeps | apply foldl_keeps_snd) | split | simp only [Keeps.mk_iff] | dsimp only)

theorem State.showZones_keeps {s : State} (hk : Keeps σ s) : Keeps σ (State.showZones s) := by
  unfold State.showZones
  try dsimp only
  repeat' (first | intro _ | with_reducible (first | assumption | apply State.put_keeps | apply State.each_keeps | apply State.showZone_keeps | apply ite_keeps | apply foldl_keeps | apply foldl_keeps_snd) | split | simp only [Keeps.mk_iff] | dsimp only)

theorem State.setCalMember_keeps {s : State} {m : CalMember} (hk : Keeps σ s) : Keeps σ (State.setCalMember s m) := by
  unfold State.setCalMember
  try dsimp only
  repeat' (first | intro _ | with_reducible (first | assumption | apply ite_keeps | apply foldl_keeps | apply foldl_keeps_snd) | split | simp only [Keeps.mk_iff] | dsimp only)

theorem State.calAccepted_keeps {s : State} {i : Nat} {n : Nat} (hk : Keeps σ s) : Keeps σ (State.calAccepted s i n) := by
  unfold State.calAccepted
  try dsimp only
  repeat' (first | intro _ | with_reducible (first | assumption | apply State.setCalZone_keeps | apply State.showZones_keeps | apply State.each_keeps | apply State.setCalMember_keeps | apply ite_keeps | apply foldl_keeps | apply foldl_keeps_snd) | split | simp only [Keeps.mk_iff] | dsimp only)

theorem State.modWindow_keeps {s : State} {c : Chan} {w : Nat} {f : Window → Window} (hk : Keeps σ s) : Keeps σ (State.modWindow s c w f) := by
  unfold State.modWindow
  try dsimp only
  repeat' (first | intro _ | with_reducible (first | assumption | apply State.setCalMember_keeps | apply ite_keeps | apply foldl_keeps | apply foldl_keeps_snd) | split | simp only [Keeps.mk_iff] | dsimp only)

theorem State.accumulate_keeps {s : State} {c : Chan} {w : Nat} {q : Behind} (hk : Keeps σ s) : Keeps σ (State.accumulate s c w q) := by
  unfold State.accumulate
  try dsimp only
  repeat' (first | intro _ | with_reducible (first | assumption | apply State.modWindow_keeps | apply ite_keeps | apply foldl_keeps | apply foldl_keeps_snd) | split | simp only [Keeps.mk_iff] | dsimp only)

theorem State.noteDropped_keeps {s : State} {zone : Nat} {frame : Nat} {n : Nat} {cause : Nat} (hk : Keeps σ s) : Keeps σ (State.noteDropped s zone frame n cause) := by
  unfold State.noteDropped
  try dsimp only
  repeat' (first | intro _ | with_reducible (first | assumption | apply State.tally_keeps | apply State.raise_keeps | apply ite_keeps | apply foldl_keeps | apply foldl_keeps_snd) | split | simp only [Keeps.mk_iff] | dsimp only)

theorem State.dropStaged_keeps {s : State} {cause : Nat} {keep : Staged → Nat × Nat × Nat × Nat → Bool} (hk : Keeps σ s) : Keeps σ (State.dropStaged s cause keep) := by
  unfold State.dropStaged
  try dsimp only
  repeat' (first | intro _ | with_reducible (first | assumption | apply State.each_keeps | apply State.noteDropped_keeps | apply ite_keeps | apply foldl_keeps | apply foldl_keeps_snd) | split | simp only [Keeps.mk_iff] | dsimp only)

theorem State.dropGone_keeps {s : State} (hk : Keeps σ s) : Keeps σ (State.dropGone s) := by
  unfold State.dropGone
  try dsimp only
  repeat' (first | intro _ | with_reducible (first | assumption | apply State.dropStaged_keeps | apply ite_keeps | apply foldl_keeps | apply foldl_keeps_snd) | split | simp only [Keeps.mk_iff] | dsimp only)

theorem State.noteGain_keeps {s : State} {kind : Nat} {i : Nat} {n : Nat} (hk : Keeps σ s) : Keeps σ (State.noteGain s kind i n) := by
  unfold State.noteGain
  try dsimp only
  repeat' (first | intro _ | with_reducible (first | assumption | apply State.setCalMember_keeps | apply ite_keeps | apply foldl_keeps | apply foldl_keeps_snd) | split | simp only [Keeps.mk_iff] | dsimp only)

theorem State.setMemberGain_keeps {s : State} {kind : Nat} {i : Nat} {colour : Nat} {g : Nat} (hk : Keeps σ s) : Keeps σ (State.setMemberGain s kind i colour g) := by
  unfold State.setMemberGain
  try dsimp only
  repeat' (first | intro _ | with_reducible (first | assumption | apply State.put_keeps | apply ite_keeps | apply foldl_keeps | apply foldl_keeps_snd) | split | simp only [Keeps.mk_iff] | dsimp only)

theorem State.takeCorrection_keeps {s : State} {g : Staged} {n : Nat} (hk : Keeps σ s) : Keeps σ (State.takeCorrection s g n) := by
  unfold State.takeCorrection
  try dsimp only
  repeat' (first | intro _ | with_reducible (first | assumption | apply State.bump_keeps | apply State.each_keeps | apply State.noteGain_keeps | apply State.setMemberGain_keeps | apply State.setCalZone_keeps | apply State.put_keeps | apply State.put64_keeps | apply ite_keeps | apply foldl_keeps | apply foldl_keeps_snd) | split | simp only [Keeps.mk_iff] | dsimp only)

theorem State.gainResult_keeps {s : State} {entries : Nat} {frame : Nat} {status : Nat} {check : Nat} (hk : Keeps σ s) : Keeps σ (State.gainResult s entries frame status check) := by
  unfold State.gainResult
  try dsimp only
  repeat' (first | intro _ | with_reducible (first | assumption | apply State.tally_keeps | apply State.raise_keeps | apply State.advance_keeps | apply State.put_keeps | apply ite_keeps | apply foldl_keeps | apply foldl_keeps_snd) | split | simp only [Keeps.mk_iff] | dsimp only)

theorem State.applyCorrections_keeps {s : State} {n : Nat} (hk : Keeps σ s) : Keeps σ (State.applyCorrections s n) := by
  unfold State.applyCorrections
  try dsimp only
  repeat' (first | intro _ | with_reducible (first | assumption | apply State.dropGone_keeps | apply State.dropStaged_keeps | apply State.each_keeps | apply State.takeCorrection_keeps | apply State.noteGain_keeps | apply State.setMemberGain_keeps | apply State.gainResult_keeps | apply State.bump_keeps | apply ite_keeps | apply foldl_keeps | apply foldl_keeps_snd) | split | simp only [Keeps.mk_iff] | dsimp only)

theorem State.dropAllStaged_keeps {s : State} {cause : Nat} (hk : Keeps σ s) : Keeps σ (State.dropAllStaged s cause) := by
  unfold State.dropAllStaged
  try dsimp only
  repeat' (first | intro _ | with_reducible (first | assumption | apply State.dropStaged_keeps | apply ite_keeps | apply foldl_keeps | apply foldl_keeps_snd) | split | simp only [Keeps.mk_iff] | dsimp only)

theorem doGainLoad_keeps {s : State} {value : Nat} (hk : Keeps σ s) : Keeps σ (doGainLoad value s) := by
  unfold doGainLoad
  try dsimp only
  repeat' (first | intro _ | with_reducible (first | assumption | apply State.put_keeps | apply State.gainResult_keeps | apply ite_keeps | apply foldl_keeps | apply foldl_keeps_snd) | split | simp only [Keeps.mk_iff] | dsimp only)

theorem State.sensorClear_keeps {s : State} {c : Chan} (hk : Keeps σ s) : Keeps σ (State.sensorClear s c) := by
  unfold State.sensorClear
  try dsimp only
  repeat' (first | intro _ | with_reducible (first | assumption | apply State.put_keeps | apply State.putFlag_keeps | apply ite_keeps | apply foldl_keeps | apply foldl_keeps_snd) | split | simp only [Keeps.mk_iff] | dsimp only)

theorem doClearFailedMarks_keeps {s : State} (hk : Keeps σ s) : Keeps σ (doClearFailedMarks s) := by
  unfold doClearFailedMarks
  try dsimp only
  repeat' (first | intro _ | with_reducible (first | assumption | apply State.put_keeps | apply State.raise_keeps | apply State.showZone_keeps | apply State.tally_keeps | apply State.each_keeps | apply State.sensorClear_keeps | apply ite_keeps | apply foldl_keeps | apply foldl_keeps_snd) | split | simp only [Keeps.mk_iff] | dsimp only)

theorem State.voidOpen_keeps {s : State} {z : Chan} (hk : Keeps σ s) : Keeps σ (State.voidOpen s z) := by
  unfold State.voidOpen
  try dsimp only
  repeat' (first | intro _ | with_reducible (first | assumption | apply State.each_keeps | apply State.setCalMember_keeps | apply State.setCalZone_keeps | apply ite_keeps | apply foldl_keeps | apply foldl_keeps_snd) | split | simp only [Keeps.mk_iff] | dsimp only)

theorem doVoidOpenWindows_keeps {s : State} (hk : Keeps σ s) : Keeps σ (doVoidOpenWindows s) := by
  unfold doVoidOpenWindows
  try dsimp only
  repeat' (first | intro _ | with_reducible (first | assumption | apply State.put_keeps | apply State.raise_keeps | apply State.voidOpen_keeps | apply ite_keeps | apply foldl_keeps | apply foldl_keeps_snd) | split | simp only [Keeps.mk_iff] | dsimp only)

theorem State.stageEntries_keeps {s : State} {zone : Nat} {w : Nat} {k : Nat} {es : List (Nat × Nat × Nat × Nat)} (hk : Keeps σ s) : Keeps σ (State.stageEntries s zone w k es) := by
  unfold State.stageEntries
  try dsimp only
  repeat' (first | intro _ | with_reducible (first | assumption | apply ite_keeps | apply foldl_keeps | apply foldl_keeps_snd) | split | simp only [Keeps.mk_iff] | dsimp only)

theorem State.restage_keeps {s : State} {from_ : Nat → Nat} (hk : Keeps σ s) : Keeps σ (State.restage s from_) := by
  unfold State.restage
  try dsimp only
  repeat' (first | intro _ | with_reducible (first | assumption | apply ite_keeps | apply foldl_keeps | apply foldl_keeps_snd) | split | simp only [Keeps.mk_iff] | dsimp only)

theorem State.voidWindows_keeps {s : State} {a : Nat} {b : Nat} (hk : Keeps σ s) : Keeps σ (State.voidWindows s a b) := by
  unfold State.voidWindows
  try dsimp only
  repeat' (first | intro _ | with_reducible (first | assumption | apply State.each_keeps | apply State.setCalZone_keeps | apply ite_keeps | apply foldl_keeps | apply foldl_keeps_snd) | split | simp only [Keeps.mk_iff] | dsimp only)

theorem State.calRate_keeps {s : State} {last : Nat} {first : Nat} (hk : Keeps σ s) : Keeps σ (State.calRate s last first) := by
  unfold State.calRate
  try dsimp only
  repeat' (first | intro _ | with_reducible (first | assumption | apply State.restage_keeps | apply State.voidWindows_keeps | apply ite_keeps | apply foldl_keeps | apply foldl_keeps_snd) | split | simp only [Keeps.mk_iff] | dsimp only)

theorem State.calReject_keeps {s : State} {z : Chan} {wb : Nat} {reason : Nat} {colours : Nat} (hk : Keeps σ s) : Keeps σ (State.calReject s z wb reason colours) := by
  unfold State.calReject
  try dsimp only
  repeat' (first | intro _ | with_reducible (first | assumption | apply State.tally_keeps | apply State.put_keeps | apply State.raise_keeps | apply State.bump_keeps | apply ite_keeps | apply foldl_keeps | apply foldl_keeps_snd) | split | simp only [Keeps.mk_iff] | dsimp only)

theorem State.showZoneOf_keeps {s : State} {c : Chan} (hk : Keeps σ s) : Keeps σ (State.showZoneOf s c) := by
  unfold State.showZoneOf
  try dsimp only
  repeat' (first | intro _ | with_reducible (first | assumption | apply State.showZone_keeps | apply ite_keeps | apply foldl_keeps | apply foldl_keeps_snd) | split | simp only [Keeps.mk_iff] | dsimp only)

theorem State.calRejoin_keeps {s : State} {c : Chan} (hk : Keeps σ s) : Keeps σ (State.calRejoin s c) := by
  unfold State.calRejoin
  try dsimp only
  repeat' (first | intro _ | with_reducible (first | assumption | apply State.showZoneOf_keeps | apply State.sensorClear_keeps | apply State.setCalMember_keeps | apply State.tally_keeps | apply ite_keeps | apply foldl_keeps | apply foldl_keeps_snd) | split | simp only [Keeps.mk_iff] | dsimp only)

theorem State.openWindow_keeps {s : State} {z : Chan} {w : Nat} (hk : Keeps σ s) : Keeps σ (State.openWindow s z w) := by
  unfold State.openWindow
  try dsimp only
  repeat' (first | intro _ | with_reducible (first | assumption | apply State.setCalZone_keeps | apply ite_keeps | apply foldl_keeps | apply foldl_keeps_snd) | split | simp only [Keeps.mk_iff] | dsimp only)

theorem State.sensorFail_keeps {s : State} {c : Chan} {cause : Nat} (hk : Keeps σ s) : Keeps σ (State.sensorFail s c cause) := by
  unfold State.sensorFail
  try dsimp only
  repeat' (first | intro _ | with_reducible (first | assumption | apply State.tally_keeps | apply State.raise_keeps | apply State.putFlag_keeps | apply ite_keeps | apply foldl_keeps | apply foldl_keeps_snd) | split | simp only [Keeps.mk_iff] | dsimp only)

theorem State.sensorReport_keeps {s : State} {c : Chan} {wno : Nat} {r : SensorReport} (hk : Keeps σ s) : Keeps σ (State.sensorReport s c wno r) := by
  unfold State.sensorReport
  try dsimp only
  repeat' (first | intro _ | with_reducible (first | assumption | apply State.setCalMember_keeps | apply State.showZoneOf_keeps | apply State.sensorFail_keeps | apply ite_keeps | apply foldl_keeps | apply foldl_keeps_snd) | split | simp only [Keeps.mk_iff] | dsimp only)

theorem doAccMissed_keeps {s : State} {n : Nat} (hk : Keeps σ s) : Keeps σ (doAccMissed n s) := by
  unfold doAccMissed
  try dsimp only
  repeat' (first | intro _ | with_reducible (first | assumption | apply State.accDone_keeps | apply State.each_keeps | apply State.openWindow_keeps | apply State.modWindow_keeps | apply State.tally_keeps | apply State.raise_keeps | apply State.bump_keeps | apply ite_keeps | apply foldl_keeps | apply foldl_keeps_snd) | split | simp only [Keeps.mk_iff] | dsimp only)

theorem doAccRead_keeps {s : State} {n : Nat} (hk : Keeps σ s) : Keeps σ (doAccRead n s) := by
  unfold doAccRead
  try dsimp only
  repeat' (first | intro _ | with_reducible (first | assumption | apply State.accDone_keeps | apply State.each_keeps | apply State.showZone_keeps | apply State.openWindow_keeps | apply State.accumulate_keeps | apply ite_keeps | apply foldl_keeps | apply foldl_keeps_snd) | split | simp only [Keeps.mk_iff] | dsimp only)

theorem doCalEvaluate_keeps {s : State} {i : Nat} (hk : Keeps σ s) : Keeps σ (doCalEvaluate i s) := by
  unfold doCalEvaluate
  try dsimp only
  repeat' (first | intro _ | with_reducible (first | assumption | apply State.showZone_keeps | apply State.setCalZone_keeps | apply State.calReject_keeps | apply State.each_keeps | apply State.putFlag_keeps | apply State.put_keeps | apply State.sensorFail_keeps | apply State.raise_keeps | apply State.bump_keeps | apply State.tally_keeps | apply State.sendMirror_keeps | apply State.stageEntries_keeps | apply ite_keeps | apply foldl_keeps | apply foldl_keeps_snd) | split | simp only [Keeps.mk_iff] | dsimp only)

theorem doCalSkipped_keeps {s : State} {i : Nat} (hk : Keeps σ s) : Keeps σ (doCalSkipped i s) := by
  unfold doCalSkipped
  try dsimp only
  repeat' (first | intro _ | with_reducible (first | assumption | apply State.setCalZone_keeps | apply State.tally_keeps | apply State.put_keeps | apply State.raise_keeps | apply State.bump_keeps | apply ite_keeps | apply foldl_keeps | apply foldl_keeps_snd) | split | simp only [Keeps.mk_iff] | dsimp only)

theorem doWindowClose_keeps {s : State} {i : Nat} (hk : Keeps σ s) : Keeps σ (doWindowClose i s) := by
  unfold doWindowClose
  try dsimp only
  repeat' (first | intro _ | with_reducible (first | assumption | apply State.atTime_keeps | apply State.add_keeps | apply State.each_keeps | apply State.putFlag_keeps | apply State.put_keeps | apply State.setCalZone_keeps | apply State.showZone_keeps | apply ite_keeps | apply foldl_keeps | apply foldl_keeps_snd) | split | simp only [Keeps.mk_iff] | dsimp only)

end Sys2Proof.Machine
end

