-- ==== Sys2Proof/Laws/KeepPailOps.lean ====
section
/-! SUPPORT. What the operations of Machine/PailOps keep (Laws/Keep). -/
namespace Sys2Proof.Machine

variable {σ : State}

theorem State.syncPail_keeps {s : State} {p : Nat} (hk : Keeps σ s) : Keeps σ (State.syncPail s p) := by
  unfold State.syncPail
  try dsimp only
  repeat' (first | intro _ | with_reducible (first | assumption | apply State.putFlag_keeps | apply State.put_keeps | apply ite_keeps | apply foldl_keeps | apply foldl_keeps_snd) | split | simp only [Keeps.mk_iff] | dsimp only)

theorem State.modPail_keeps {s : State} {p : Nat} {f : Pail → Pail} (hk : Keeps σ s) : Keeps σ (State.modPail s p f) := by
  unfold State.modPail
  try dsimp only
  repeat' (first | intro _ | with_reducible (first | assumption | apply ite_keeps | apply foldl_keeps | apply foldl_keeps_snd) | split | simp only [Keeps.mk_iff] | dsimp only)

theorem State.wrAdvance_keeps {s : State} {q : Pail} {n : Nat} (hk : Keeps σ s) : Keeps σ (State.wrAdvance s q n) := by
  unfold State.wrAdvance
  try dsimp only
  repeat' (first | intro _ | with_reducible (first | assumption | apply State.put_keeps | apply ite_keeps | apply foldl_keeps | apply foldl_keeps_snd) | split | simp only [Keeps.mk_iff] | dsimp only)

theorem State.pailLost_keeps {s : State} {p : Nat} {lostSeq : Nat} (hk : Keeps σ s) : Keeps σ (State.pailLost s p lostSeq) := by
  unfold State.pailLost
  try dsimp only
  repeat' (first | intro _ | with_reducible (first | assumption | apply State.tallyLimitedV_keeps | apply State.raise_keeps | apply State.bump_keeps | apply ite_keeps | apply foldl_keeps | apply foldl_keeps_snd) | split | simp only [Keeps.mk_iff] | dsimp only)

theorem State.rdAdvance_keeps {s : State} {q : Pail} {n : Nat} (hk : Keeps σ s) : Keeps σ (State.rdAdvance s q n) := by
  unfold State.rdAdvance
  try dsimp only
  repeat' (first | intro _ | with_reducible (first | assumption | apply State.put_keeps | apply ite_keeps | apply foldl_keeps | apply foldl_keeps_snd) | split | simp only [Keeps.mk_iff] | dsimp only)

theorem State.reserve_keeps {s : State} {p : Nat} {producer : Nat} (hk : Keeps σ s) : Keeps σ (State.reserve s p producer) := by
  unfold State.reserve
  try dsimp only
  repeat' (first | intro _ | with_reducible (first | assumption | apply State.syncPail_keeps | apply State.modPail_keeps | apply State.advance_keeps | apply State.wrAdvance_keeps | apply State.pailLost_keeps | apply State.rdAdvance_keeps | apply ite_keeps | apply foldl_keeps | apply foldl_keeps_snd) | split | simp only [Keeps.mk_iff] | dsimp only)

theorem State.writePail_keeps {s : State} {q : Pail} {a : Nat} {bs : List Nat} (hk : Keeps σ s) : Keeps σ (State.writePail s q a bs) := by
  unfold State.writePail
  try dsimp only
  repeat' (first | intro _ | with_reducible (first | assumption | apply State.writeBulk_keeps | apply State.writePailMem_keeps | apply ite_keeps | apply foldl_keeps | apply foldl_keeps_snd) | split | simp only [Keeps.mk_iff] | dsimp only)

theorem State.poison_keeps {s : State} {who : Initiator} (hk : Keeps σ s) : Keeps σ (State.poison s who) := by
  unfold State.poison
  try dsimp only
  repeat' (first | intro _ | with_reducible (first | assumption | apply State.tally_keeps | apply State.raise_keeps | apply State.emit_keeps | apply ite_keeps | apply foldl_keeps | apply foldl_keeps_snd) | split | simp only [Keeps.mk_iff] | dsimp only)

theorem State.answer_keeps {s : State} {who : Initiator} {v : Nat} (hk : Keeps σ s) : Keeps σ (State.answer s who v) := by
  unfold State.answer
  try dsimp only
  repeat' (first | intro _ | with_reducible (first | assumption | apply State.opportunity_keeps | apply State.opportunity_keeps' (e := by assumption) | apply State.poison_keeps | apply State.detect_keeps | apply State.emit_keeps | apply ite_keeps | apply foldl_keeps | apply foldl_keeps_snd) | split | simp only [Keeps.mk_iff] | dsimp only)

theorem State.popAdvance_keeps {s : State} {p : Nat} {who : Initiator} {pos : Nat} (hk : Keeps σ s) : Keeps σ (State.popAdvance s p who pos) := by
  unfold State.popAdvance
  try dsimp only
  repeat' (first | intro _ | with_reducible (first | assumption | apply State.syncPail_keeps | apply State.modPail_keeps | apply State.rdAdvance_keeps | apply ite_keeps | apply foldl_keeps | apply foldl_keeps_snd) | split | simp only [Keeps.mk_iff] | dsimp only)

theorem State.answerPop_keeps {s : State} {p : Nat} {who : Initiator} {pos : Nat} {v : Nat} (hk : Keeps σ s) : Keeps σ (State.answerPop s p who pos v) := by
  unfold State.answerPop
  try dsimp only
  repeat' (first | intro _ | with_reducible (first | assumption | apply State.answer_keeps | apply State.popAdvance_keeps | apply ite_keeps | apply foldl_keeps | apply foldl_keeps_snd) | split | simp only [Keeps.mk_iff] | dsimp only)

theorem State.serveWaiting_keeps {s : State} {p : Nat} (hk : Keeps σ s) : Keeps σ (State.serveWaiting s p) := by
  unfold State.serveWaiting
  try dsimp only
  repeat' (first | intro _ | with_reducible (first | assumption | apply State.answerPop_keeps | apply State.modPail_keeps | apply ite_keeps | apply foldl_keeps | apply foldl_keeps_snd) | split | simp only [Keeps.mk_iff] | dsimp only)

theorem State.crossLevel_keeps {s : State} {q : Pail} {before : Nat} {after : Nat} (hk : Keeps σ s) : Keeps σ (State.crossLevel s q before after) := by
  unfold State.crossLevel
  try dsimp only
  repeat' (first | intro _ | with_reducible (first | assumption | apply State.putFlag_keeps | apply State.msi_keeps | apply State.msiAssigned_keeps | apply ite_keeps | apply foldl_keeps | apply foldl_keeps_snd) | split | simp only [Keeps.mk_iff] | dsimp only)

theorem State.syncFlow_keeps {s : State} {flow : Nat} (hk : Keeps σ s) : Keeps σ (State.syncFlow s flow) := by
  unfold State.syncFlow
  try dsimp only
  repeat' (first | intro _ | with_reducible (first | assumption | apply State.put_keeps | apply State.putFlag_keeps | apply ite_keeps | apply foldl_keeps | apply foldl_keeps_snd) | split | simp only [Keeps.mk_iff] | dsimp only)

theorem State.syncPar_keeps {s : State} (hk : Keeps σ s) : Keeps σ (State.syncPar s) := by
  unfold State.syncPar
  try dsimp only
  repeat' (first | intro _ | with_reducible (first | assumption | apply State.put_keeps | apply State.each_keeps | apply ite_keeps | apply foldl_keeps | apply foldl_keeps_snd) | split | simp only [Keeps.mk_iff] | dsimp only)

theorem State.releaseDone_keeps {s : State} {p : Nat} (hk : Keeps σ s) : Keeps σ (State.releaseDone s p) := by
  unfold State.releaseDone
  try dsimp only
  repeat' (first | intro _ | with_reducible (first | assumption | apply State.syncPail_keeps | apply State.modPail_keeps | apply State.rdAdvance_keeps | apply ite_keeps | apply foldl_keeps | apply foldl_keeps_snd) | split | simp only [Keeps.mk_iff] | dsimp only)

theorem State.pailRead_keeps {s : State} {q : Pail} (hk : Keeps σ s) : Keeps σ (State.pailRead s q).2 := by
  unfold State.pailRead
  try dsimp only
  repeat' (first | intro _ | with_reducible (first | assumption | apply State.opportunity_keeps | apply State.opportunity_keeps' (e := by assumption) | apply State.detect_keeps | apply ite_keeps | apply foldl_keeps | apply foldl_keeps_snd) | split | simp only [Keeps.mk_iff] | dsimp only)
theorem State.pailRead_keeps' {s : State} {q : Pail} (hk : Keeps σ s) {a t} (e : State.pailRead s q = (a, t)) : Keeps σ t := by
  have k := congrArg (fun q => Keeps σ q.2) e
  exact k ▸ State.pailRead_keeps hk

theorem State.writeItem_keeps {s : State} {p : Nat} {seq : Nat} {payload : List Nat} {void : Bool} (hk : Keeps σ s) : Keeps σ (State.writeItem s p seq payload void) := by
  unfold State.writeItem
  try dsimp only
  repeat' (first | intro _ | with_reducible (first | assumption | apply State.writePail_keeps | apply State.modPail_keeps | apply State.serveWaiting_keeps | apply State.syncPail_keeps | apply State.crossLevel_keeps | apply State.releaseDone_keeps | apply State.syncPar_keeps | apply State.syncFlow_keeps | apply ite_keeps | apply foldl_keeps | apply foldl_keeps_snd) | split | simp only [Keeps.mk_iff] | dsimp only)

theorem State.voidReservations_keeps {s : State} {producer : Nat} (hk : Keeps σ s) : Keeps σ (State.voidReservations s producer) := by
  unfold State.voidReservations
  try dsimp only
  repeat' (first | intro _ | with_reducible (first | assumption | apply State.each_keeps | apply State.writeItem_keeps | apply ite_keeps | apply foldl_keeps | apply foldl_keeps_snd) | split | simp only [Keeps.mk_iff] | dsimp only)

theorem State.flushPail_keeps {s : State} {p : Nat} {cause : Nat} (hk : Keeps σ s) : Keeps σ (State.flushPail s p cause) := by
  unfold State.flushPail
  try dsimp only
  repeat' (first | intro _ | with_reducible (first | assumption | apply State.releaseDone_keeps | apply State.modPail_keeps | apply State.put_keeps | apply State.tally_keeps | apply State.raise_keeps | apply State.add_keeps | apply State.syncPar_keeps | apply State.syncPail_keeps | apply ite_keeps | apply foldl_keeps | apply foldl_keeps_snd) | split | simp only [Keeps.mk_iff] | dsimp only)

theorem State.skipVoid_keeps {s : State} {p : Nat} (hk : Keeps σ s) : Keeps σ (State.skipVoid s p) := by
  unfold State.skipVoid
  try dsimp only
  repeat' (first | intro _ | with_reducible (first | assumption | apply State.syncPail_keeps | apply State.modPail_keeps | apply State.rdAdvance_keeps | apply ite_keeps | apply foldl_keeps | apply foldl_keeps_snd) | split | simp only [Keeps.mk_iff] | dsimp only)

end Sys2Proof.Machine
end

