-- ==== Sys2Proof/Laws/KeepCmdOps.lean ====
section
/-! SUPPORT. What the operations of Machine/CmdOps keep (Laws/Keep). -/
namespace Sys2Proof.Machine

variable {σ : State}

theorem State.pushRecord_keeps {s : State} {p : Nat} {bytes : List Nat} (hk : Keeps σ s) : Keeps σ (State.pushRecord s p bytes) := by
  unfold State.pushRecord
  try dsimp only
  repeat' (first | intro _ | with_reducible (first | assumption | apply State.reserve_keeps | apply State.modPail_keeps | apply State.writePail_keeps | apply State.serveWaiting_keeps | apply State.syncPail_keeps | apply State.crossLevel_keeps | apply ite_keeps | apply foldl_keeps | apply foldl_keeps_snd) | split | simp only [Keeps.mk_iff] | dsimp only)

theorem State.deliver_keeps {s : State} {f : InFlight} {c : Completion} (hk : Keeps σ s) : Keeps σ (State.deliver s f c).2 := by
  unfold State.deliver
  try dsimp only
  repeat' (first | intro _ | with_reducible (first | assumption | apply State.tally_keeps | apply State.pushRecord_keeps | apply State.msi_keeps | apply ite_keeps | apply foldl_keeps | apply foldl_keeps_snd) | split | simp only [Keeps.mk_iff] | dsimp only)
theorem State.deliver_keeps' {s : State} {f : InFlight} {c : Completion} (hk : Keeps σ s) {a t} (e : State.deliver s f c = (a, t)) : Keeps σ t := by
  have k := congrArg (fun q => Keeps σ q.2) e
  exact k ▸ State.deliver_keeps hk

theorem State.settleGo_keeps {s : State} {x1 : Nat} (hk : Keeps σ s) : Keeps σ (State.settleGo s x1) := by
  induction x1 generalizing s with
  | zero => exact hk
  | succ n ih =>
    unfold State.settleGo
    try dsimp only
    repeat' (first | intro _ | with_reducible (first | assumption | apply ih | apply State.deliver_keeps | apply State.deliver_keeps' (e := by assumption) | apply ite_keeps | apply foldl_keeps | apply foldl_keeps_snd) | split | simp only [Keeps.mk_iff] | dsimp only)

theorem State.settle_keeps {s : State} (hk : Keeps σ s) : Keeps σ (State.settle s) := by
  unfold State.settle
  try dsimp only
  repeat' (first | intro _ | with_reducible (first | assumption | apply State.settleGo_keeps | apply ite_keeps | apply foldl_keeps | apply foldl_keeps_snd) | split | simp only [Keeps.mk_iff] | dsimp only)

theorem State.syncCmd_keeps {s : State} (hk : Keeps σ s) : Keeps σ (State.syncCmd s) := by
  unfold State.syncCmd
  try dsimp only
  repeat' (first | intro _ | with_reducible (first | assumption | apply State.put_keeps | apply State.each_keeps | apply State.putFlag_keeps | apply ite_keeps | apply foldl_keeps | apply foldl_keeps_snd) | split | simp only [Keeps.mk_iff] | dsimp only)

theorem State.logStatus_keeps {s : State} {f : InFlight} {c : Completion} (hk : Keeps σ s) : Keeps σ (State.logStatus s f c) := by
  unfold State.logStatus
  try dsimp only
  repeat' (first | intro _ | with_reducible (first | assumption | apply State.put_keeps | apply ite_keeps | apply foldl_keeps | apply foldl_keeps_snd) | split | simp only [Keeps.mk_iff] | dsimp only)

theorem State.noteStale_keeps {s : State} {handle : Nat} {opcode : Nat} {pail : Nat} (hk : Keeps σ s) : Keeps σ (State.noteStale s handle opcode pail) := by
  unfold State.noteStale
  try dsimp only
  repeat' (first | intro _ | with_reducible (first | assumption | apply State.tallyLimited_keeps | apply State.bump_keeps | apply ite_keeps | apply foldl_keeps | apply foldl_keeps_snd) | split | simp only [Keeps.mk_iff] | dsimp only)

theorem State.complete_keeps {s : State} {id : Nat} {handle : Nat} {c : Completion} (hk : Keeps σ s) : Keeps σ (State.complete s id handle c) := by
  unfold State.complete
  try dsimp only
  repeat' (first | intro _ | with_reducible (first | assumption | apply State.logStatus_keeps | apply State.noteStale_keeps | apply ite_keeps | apply foldl_keeps | apply foldl_keeps_snd) | split | simp only [Keeps.mk_iff] | dsimp only)

theorem State.modSet_keeps {s : State} {n : Nat} {f : ShadowSet → ShadowSet} (hk : Keeps σ s) : Keeps σ (State.modSet s n f) := by
  unfold State.modSet
  try dsimp only
  repeat' (first | intro _ | with_reducible (first | assumption | apply ite_keeps | apply foldl_keeps | apply foldl_keeps_snd) | split | simp only [Keeps.mk_iff] | dsimp only)

theorem State.dropDeferred_keeps {s : State} {d : Deferred} (hk : Keeps σ s) : Keeps σ (State.dropDeferred s d) := by
  unfold State.dropDeferred
  try dsimp only
  repeat' (first | intro _ | with_reducible (first | assumption | apply ite_keeps | apply foldl_keeps | apply foldl_keeps_snd) | split | simp only [Keeps.mk_iff] | dsimp only)

theorem State.unlockSet_keeps {s : State} {n : Nat} {keep : Bool} (hk : Keeps σ s) : Keeps σ (State.unlockSet s n keep) := by
  unfold State.unlockSet
  try dsimp only
  repeat' (first | intro _ | with_reducible (first | assumption | apply State.modSet_keeps | apply ite_keeps | apply foldl_keeps | apply foldl_keeps_snd) | split | simp only [Keeps.mk_iff] | dsimp only)

theorem State.timeoutOne_keeps {s : State} {d : Deferred} (hk : Keeps σ s) : Keeps σ (State.timeoutOne s d) := by
  unfold State.timeoutOne
  try dsimp only
  repeat' (first | intro _ | with_reducible (first | assumption | apply State.dropDeferred_keeps | apply State.unlockSet_keeps | apply State.modChan_keeps | apply State.complete_keeps | apply ite_keeps | apply foldl_keeps | apply foldl_keeps_snd) | split | simp only [Keeps.mk_iff] | dsimp only)

theorem State.timeoutDeferred_keeps {s : State} {p : Deferred → Bool} (hk : Keeps σ s) : Keeps σ (State.timeoutDeferred s p) := by
  unfold State.timeoutDeferred
  try dsimp only
  repeat' (first | intro _ | with_reducible (first | assumption | apply State.syncCmd_keeps | apply State.settle_keeps | apply State.each_keeps | apply State.timeoutOne_keeps | apply ite_keeps | apply foldl_keeps | apply foldl_keeps_snd) | split | simp only [Keeps.mk_iff] | dsimp only)

theorem State.settleLattice_keeps {s : State} (hk : Keeps σ s) : Keeps σ (State.settleLattice s) := by
  unfold State.settleLattice
  try dsimp only
  repeat' (first | intro _ | with_reducible (first | assumption | apply ite_keeps | apply foldl_keeps | apply foldl_keeps_snd) | split | simp only [Keeps.mk_iff] | dsimp only)

end Sys2Proof.Machine
end

