-- ==== Sys2Proof/Laws/KeepDirectDrive.lean ====
section
/-! SUPPORT. What the operations of Machine/DirectDrive keep (Laws/Keep). -/
namespace Sys2Proof.Machine

variable {σ : State}

theorem State.copyLamps_keeps {s : State} {handle : Nat} {k : Nat} {value : Nat} (hk : Keeps σ s) : Keeps σ (State.copyLamps s handle k value) := by
  unfold State.copyLamps
  try dsimp only
  repeat' (first | intro _ | with_reducible (first | assumption | apply ite_keeps | apply foldl_keeps | apply foldl_keeps_snd) | split | simp only [Keeps.mk_iff] | dsimp only)

theorem State.ddEnter_keeps {s : State} {p : Nat} {st : Nat} (hk : Keeps σ s) : Keeps σ (State.ddEnter s p st) := by
  unfold State.ddEnter
  try dsimp only
  repeat' (first | intro _ | with_reducible (first | assumption | apply State.tally_keeps | apply State.put_keeps | apply ite_keeps | apply foldl_keeps | apply foldl_keeps_snd) | split | simp only [Keeps.mk_iff] | dsimp only)

theorem State.modDd_keeps {s : State} {p : Nat} {f : DdPort → DdPort} (hk : Keeps σ s) : Keeps σ (State.modDd s p f) := by
  unfold State.modDd
  try dsimp only
  repeat' (first | intro _ | with_reducible (first | assumption | apply ite_keeps | apply foldl_keeps | apply foldl_keeps_snd) | split | simp only [Keeps.mk_iff] | dsimp only)

theorem State.ddClear_keeps {s : State} {p : Nat} (hk : Keeps σ s) : Keeps σ (State.ddClear s p) := by
  unfold State.ddClear
  try dsimp only
  repeat' (first | intro _ | with_reducible (first | assumption | apply State.putFlag_keeps | apply State.modDd_keeps | apply ite_keeps | apply foldl_keeps | apply foldl_keeps_snd) | split | simp only [Keeps.mk_iff] | dsimp only)

theorem State.ddHighImpedance_keeps {s : State} (hk : Keeps σ s) : Keeps σ (State.ddHighImpedance s) := by
  unfold State.ddHighImpedance
  try dsimp only
  repeat' (first | intro _ | with_reducible (first | assumption | apply State.each_keeps | apply State.ddEnter_keeps | apply State.ddClear_keeps | apply ite_keeps | apply foldl_keeps | apply foldl_keeps_snd) | split | simp only [Keeps.mk_iff] | dsimp only)

theorem State.refreshDd_keeps {s : State} (hk : Keeps σ s) : Keeps σ (State.refreshDd s) := by
  unfold State.refreshDd
  try dsimp only
  repeat' (first | intro _ | with_reducible (first | assumption | apply State.put_keeps | apply State.each_keeps | apply State.putFlag_keeps | apply ite_keeps | apply foldl_keeps | apply foldl_keeps_snd) | split | simp only [Keeps.mk_iff] | dsimp only)

theorem State.ddMode_keeps {s : State} {old : Nat} {new : Nat} {k : Nat} (hk : Keeps σ s) : Keeps σ (State.ddMode s old new k) := by
  unfold State.ddMode
  try dsimp only
  repeat' (first | intro _ | with_reducible (first | assumption | apply State.each_keeps | apply State.ddEnter_keeps | apply State.ddClear_keeps | apply State.modDd_keeps | apply ite_keeps | apply foldl_keeps | apply foldl_keeps_snd) | split | simp only [Keeps.mk_iff] | dsimp only)

theorem State.ddBegin_keeps {s : State} {p : Nat} (hk : Keeps σ s) : Keeps σ (State.ddBegin s p) := by
  unfold State.ddBegin
  try dsimp only
  repeat' (first | intro _ | with_reducible (first | assumption | apply State.ddEnter_keeps | apply State.modDd_keeps | apply State.ddClear_keeps | apply ite_keeps | apply foldl_keeps | apply foldl_keeps_snd) | split | simp only [Keeps.mk_iff] | dsimp only)

theorem State.ddSwap_keeps {s : State} {p : Nat} {n : Nat} (hk : Keeps σ s) : Keeps σ (State.ddSwap s p n) := by
  unfold State.ddSwap
  try dsimp only
  repeat' (first | intro _ | with_reducible (first | assumption | apply State.modDd_keeps | apply State.emit_keeps | apply State.ddEnter_keeps | apply State.putFlag_keeps | apply ite_keeps | apply foldl_keeps | apply foldl_keeps_snd) | split | simp only [Keeps.mk_iff] | dsimp only)

theorem State.ddPortBoundary_keeps {s : State} {n : Nat} {p : Nat} (hk : Keeps σ s) : Keeps σ (State.ddPortBoundary s n p) := by
  unfold State.ddPortBoundary
  try dsimp only
  repeat' (first | intro _ | with_reducible (first | assumption | apply State.ddSwap_keeps | apply State.ddEnter_keeps | apply State.modDd_keeps | apply State.ddClear_keeps | apply ite_keeps | apply foldl_keeps | apply foldl_keeps_snd) | split | simp only [Keeps.mk_iff] | dsimp only)

theorem State.ddBoundary_keeps {s : State} {n : Nat} (hk : Keeps σ s) : Keeps σ (State.ddBoundary s n) := by
  unfold State.ddBoundary
  try dsimp only
  repeat' (first | intro _ | with_reducible (first | assumption | apply State.each_keeps | apply State.ddPortBoundary_keeps | apply ite_keeps | apply foldl_keeps | apply foldl_keeps_snd) | split | simp only [Keeps.mk_iff] | dsimp only)

theorem State.confBad_keeps {s : State} {p : Nat} {n : Nat} (hk : Keeps σ s) : Keeps σ (State.confBad s p n) := by
  unfold State.confBad
  try dsimp only
  repeat' (first | intro _ | with_reducible (first | assumption | apply State.detect_keeps | apply State.tally_keeps | apply State.bump_keeps | apply State.putFlag_keeps | apply State.modDd_keeps | apply State.ddEnter_keeps | apply ite_keeps | apply foldl_keeps | apply foldl_keeps_snd) | split | simp only [Keeps.mk_iff] | dsimp only)

theorem State.checkConf_keeps {s : State} {p : Nat} {n : Nat} {phase : Bool} {written : List Nat} {conf : List Nat} (hk : Keeps σ s) : Keeps σ (State.checkConf s p n phase written conf) := by
  unfold State.checkConf
  try dsimp only
  repeat' (first | intro _ | with_reducible (first | assumption | apply State.opportunity_keeps | apply State.opportunity_keeps' (e := by assumption) | apply State.confBad_keeps | apply State.modDd_keeps | apply ite_keeps | apply foldl_keeps | apply foldl_keeps_snd) | split | simp only [Keeps.mk_iff] | dsimp only)

theorem State.directWrite_keeps {s : State} {w : FrameWork} {p : Nat} (hk : Keeps σ s) : Keeps σ (State.directWrite s w p) := by
  unfold State.directWrite
  try dsimp only
  repeat' (first | intro _ | with_reducible (first | assumption | apply State.modDd_keeps | apply State.writeBulk_keeps | apply ite_keeps | apply foldl_keeps | apply foldl_keeps_snd) | split | simp only [Keeps.mk_iff] | dsimp only)

theorem State.groupSums_keeps {s : State} {w : FrameWork} {c : Chan} (hk : Keeps σ s) : Keeps σ (State.groupSums s w c) := by
  unfold State.groupSums
  try dsimp only
  repeat' (first | intro _ | with_reducible (first | assumption | apply State.writeBulk_keeps | apply ite_keeps | apply foldl_keeps | apply foldl_keeps_snd) | split | simp only [Keeps.mk_iff] | dsimp only)

theorem State.finishDirect_keeps {s : State} {n : Nat} (hk : Keeps σ s) : Keeps σ (State.finishDirect s n) := by
  unfold State.finishDirect
  try dsimp only
  repeat' (first | intro _ | with_reducible (first | assumption | apply State.each_keeps | apply State.directWrite_keeps | apply State.groupSums_keeps | apply ite_keeps | apply foldl_keeps | apply foldl_keeps_snd) | split | simp only [Keeps.mk_iff] | dsimp only)

theorem State.ddEdge_keeps {s : State} {p : Nat} (hk : Keeps σ s) : Keeps σ (State.ddEdge s p) := by
  unfold State.ddEdge
  try dsimp only
  repeat' (first | intro _ | with_reducible (first | assumption | apply State.bump_keeps | apply State.ddSwap_keeps | apply ite_keeps | apply foldl_keeps | apply foldl_keeps_snd) | split | simp only [Keeps.mk_iff] | dsimp only)

theorem State.plainBlack_keeps {s : State} {p : Nat} (hk : Keeps σ s) : Keeps σ (State.plainBlack s p) := by
  unfold State.plainBlack
  try dsimp only
  repeat' (first | intro _ | with_reducible (first | assumption | apply State.emit_keeps | apply ite_keeps | apply foldl_keeps | apply foldl_keeps_snd) | split | simp only [Keeps.mk_iff] | dsimp only)

theorem State.ddPortStart_keeps {s : State} {n : Nat} {p : Nat} (hk : Keeps σ s) : Keeps σ (State.ddPortStart s n p) := by
  unfold State.ddPortStart
  try dsimp only
  repeat' (first | intro _ | with_reducible (first | assumption | apply State.plainBlack_keeps | apply State.ddEnter_keeps | apply State.modDd_keeps | apply ite_keeps | apply foldl_keeps | apply foldl_keeps_snd) | split | simp only [Keeps.mk_iff] | dsimp only)

theorem State.ddWorkStart_keeps {s : State} {n : Nat} (hk : Keeps σ s) : Keeps σ (State.ddWorkStart s n) := by
  unfold State.ddWorkStart
  try dsimp only
  repeat' (first | intro _ | with_reducible (first | assumption | apply State.each_keeps | apply State.ddPortStart_keeps | apply ite_keeps | apply foldl_keeps | apply foldl_keeps_snd) | split | simp only [Keeps.mk_iff] | dsimp only)

theorem doReleaseBlanked_keeps {s : State} {p : Nat} (hk : Keeps σ s) : Keeps σ (doReleaseBlanked p s) := by
  unfold doReleaseBlanked
  try dsimp only
  repeat' (first | intro _ | with_reducible (first | assumption | apply State.raise_keeps | apply ite_keeps | apply foldl_keeps | apply foldl_keeps_snd) | split | simp only [Keeps.mk_iff] | dsimp only)

theorem doTestStart_keeps {s : State} {p : Nat} (hk : Keeps σ s) : Keeps σ (doTestStart p s) := by
  unfold doTestStart
  try dsimp only
  repeat' (first | intro _ | with_reducible (first | assumption | apply State.raise_keeps | apply State.modDd_keeps | apply ite_keeps | apply foldl_keeps | apply foldl_keeps_snd) | split | simp only [Keeps.mk_iff] | dsimp only)

theorem doTestEnd_keeps {s : State} {p : Nat} (hk : Keeps σ s) : Keeps σ (doTestEnd p s) := by
  unfold doTestEnd
  try dsimp only
  repeat' (first | intro _ | with_reducible (first | assumption | apply State.raise_keeps | apply State.modDd_keeps | apply ite_keeps | apply foldl_keeps | apply foldl_keeps_snd) | split | simp only [Keeps.mk_iff] | dsimp only)

theorem State.groupFaults_keeps {s : State} {c : Chan} {n : Nat} {lamps : List Nat} (hk : Keeps σ s) : Keeps σ (State.groupFaults s c n lamps) := by
  unfold State.groupFaults
  try dsimp only
  repeat' (first | intro _ | with_reducible (first | assumption | apply State.put_keeps | apply State.putFlag_keeps | apply State.tally_keeps | apply State.raise_keeps | apply State.modDd_keeps | apply ite_keeps | apply foldl_keeps | apply foldl_keeps_snd) | split | simp only [Keeps.mk_iff] | dsimp only)

theorem State.readFaults_keeps {s : State} {chans : List Chan} {p : Nat} {n : Nat} {faults : List Nat} (hk : Keeps σ s) : Keeps σ (State.readFaults s chans p n faults) := by
  unfold State.readFaults
  try dsimp only
  repeat' (first | intro _ | with_reducible (first | assumption | apply State.writeBulk_keeps | apply State.free_keeps | apply State.free_keeps' (e := by assumption) | apply State.tallyLimited_keeps | apply State.raise_keeps | apply State.put_keeps | apply State.each_keeps | apply State.groupFaults_keeps | apply ite_keeps | apply foldl_keeps | apply foldl_keeps_snd) | split | simp only [Keeps.mk_iff] | dsimp only)

theorem State.skipShifted_keeps {s : State} {p : Nat} (hk : Keeps σ s) : Keeps σ (State.skipShifted s p) := by
  unfold State.skipShifted
  try dsimp only
  repeat' (first | intro _ | with_reducible (first | assumption | apply State.modDd_keeps | apply State.each_keeps | apply State.tally_keeps | apply State.bump_keeps | apply ite_keeps | apply foldl_keeps | apply foldl_keeps_snd) | split | simp only [Keeps.mk_iff] | dsimp only)

theorem State.fullShift_keeps {s : State} {chans : List Chan} {p : Nat} {n : Nat} {frame : Nat} {at_ : Nat} {conf : List Nat} {faults : List Nat} (hk : Keeps σ s) : Keeps σ (State.fullShift s chans p n frame at_ conf faults) := by
  unfold State.fullShift
  try dsimp only
  repeat' (first | intro _ | with_reducible (first | assumption | apply State.readFaults_keeps | apply State.checkConf_keeps | apply State.skipShifted_keeps | apply State.modDd_keeps | apply State.emit_keeps | apply ite_keeps | apply foldl_keeps | apply foldl_keeps_snd) | split | simp only [Keeps.mk_iff] | dsimp only)

theorem State.holdShift_keeps {s : State} {p : Nat} {n : Nat} {conf : List Nat} {faults : List Nat} (hk : Keeps σ s) : Keeps σ (State.holdShift s p n conf faults) := by
  unfold State.holdShift
  try dsimp only
  repeat' (first | intro _ | with_reducible (first | assumption | apply State.fullShift_keeps | apply State.readFaults_keeps | apply State.checkConf_keeps | apply State.putFlag_keeps | apply State.modDd_keeps | apply State.emit_keeps | apply ite_keeps | apply foldl_keeps | apply foldl_keeps_snd) | split | simp only [Keeps.mk_iff] | dsimp only)

theorem State.pinShort_keeps {s : State} {p : Nat} {walk : Nat} {f : PinFind} (hk : Keeps σ s) : Keeps σ (State.pinShort s p walk f) := by
  unfold State.pinShort
  try dsimp only
  repeat' (first | intro _ | with_reducible (first | assumption | apply State.putFlag_keeps | apply State.put_keeps | apply State.tally_keeps | apply State.raise_keeps | apply State.ddEnter_keeps | apply ite_keeps | apply foldl_keeps | apply foldl_keeps_snd) | split | simp only [Keeps.mk_iff] | dsimp only)

theorem doPortEnable_keeps {s : State} {p : Nat} {on : Bool} (hk : Keeps σ s) : Keeps σ (doPortEnable p on s) := by
  unfold doPortEnable
  try dsimp only
  repeat' (first | intro _ | with_reducible (first | assumption | apply State.tally_keeps | apply State.raise_keeps | apply State.put_keeps | apply State.putFlag_keeps | apply State.refreshDd_keeps | apply State.ddBegin_keeps | apply State.modDd_keeps | apply State.ddEnter_keeps | apply State.ddClear_keeps | apply ite_keeps | apply foldl_keeps | apply foldl_keeps_snd) | split | simp only [Keeps.mk_iff] | dsimp only)

theorem State.senseErr_keeps {s : State} {c : Chan} {cause : Nat} (hk : Keeps σ s) : Keeps σ (State.senseErr s c cause) := by
  unfold State.senseErr
  try dsimp only
  repeat' (first | intro _ | with_reducible (first | assumption | apply State.tally_keeps | apply State.raise_keeps | apply ite_keeps | apply foldl_keeps | apply foldl_keeps_snd) | split | simp only [Keeps.mk_iff] | dsimp only)

theorem State.shiftLate_keeps {s : State} {p : Nat} {n : Nat} (hk : Keeps σ s) : Keeps σ (State.shiftLate s p n) := by
  unfold State.shiftLate
  try dsimp only
  repeat' (first | intro _ | with_reducible (first | assumption | apply State.modDd_keeps | apply State.tally_keeps | apply State.raise_keeps | apply State.bump_keeps | apply State.each_keeps | apply State.writeBulk_keeps | apply ite_keeps | apply foldl_keeps | apply foldl_keeps_snd) | split | simp only [Keeps.mk_iff] | dsimp only)

theorem doDdShift_keeps {s : State} {n : Nat} {p : Nat} {conf : List Nat} {faults : List Nat} (hk : Keeps σ s) : Keeps σ (doDdShift n p conf faults s) := by
  unfold doDdShift
  try dsimp only
  repeat' (first | intro _ | with_reducible (first | assumption | apply State.holdShift_keeps | apply State.atTime_keeps | apply State.directWrite_keeps | apply State.shiftLate_keeps | apply State.fullShift_keeps | apply ite_keeps | apply foldl_keeps | apply foldl_keeps_snd) | split | simp only [Keeps.mk_iff] | dsimp only)

theorem doDdSyncEdge_keeps {s : State} (hk : Keeps σ s) : Keeps σ (doDdSyncEdge s) := by
  unfold doDdSyncEdge
  try dsimp only
  repeat' (first | intro _ | with_reducible (first | assumption | apply State.putFlag_keeps | apply State.each_keeps | apply State.ddEdge_keeps | apply ite_keeps | apply foldl_keeps | apply foldl_keeps_snd) | split | simp only [Keeps.mk_iff] | dsimp only)

theorem doIdleWalk_keeps {s : State} {p : Nat} {found : Option PinFind} (hk : Keeps σ s) : Keeps σ (doIdleWalk p found s) := by
  unfold doIdleWalk
  try dsimp only
  repeat' (first | intro _ | with_reducible (first | assumption | apply State.pinShort_keeps | apply ite_keeps | apply foldl_keeps | apply foldl_keeps_snd) | split | simp only [Keeps.mk_iff] | dsimp only)

theorem doSenseWindow_keeps {s : State} {n : Nat} {p : Nat} {nak : Bool} (hk : Keeps σ s) : Keeps σ (doSenseWindow n p nak s) := by
  unfold doSenseWindow
  try dsimp only
  repeat' (first | intro _ | with_reducible (first | assumption | apply State.atTime_keeps | apply State.each_keeps | apply State.emit_keeps | apply State.senseErr_keeps | apply ite_keeps | apply foldl_keeps | apply foldl_keeps_snd) | split | simp only [Keeps.mk_iff] | dsimp only)

theorem doSensorRead_keeps {s : State} {i : Nat} {first : SenseRead} {second : SenseRead} (hk : Keeps σ s) : Keeps σ (doSensorRead i first second s) := by
  unfold doSensorRead
  try dsimp only
  repeat' (first | intro _ | with_reducible (first | assumption | apply State.sensorReport_keeps | apply State.senseErr_keeps | apply ite_keeps | apply foldl_keeps | apply foldl_keeps_snd) | split | simp only [Keeps.mk_iff] | dsimp only)

theorem doShiftLate_keeps {s : State} {n : Nat} {p : Nat} (hk : Keeps σ s) : Keeps σ (doShiftLate n p s) := by
  unfold doShiftLate
  try dsimp only
  repeat' (first | intro _ | with_reducible (first | assumption | apply State.shiftLate_keeps | apply State.directWrite_keeps | apply State.atTime_keeps | apply ite_keeps | apply foldl_keeps | apply foldl_keeps_snd) | split | simp only [Keeps.mk_iff] | dsimp only)

theorem doStartUpWalk_keeps {s : State} {p : Nat} {found : Option PinFind} (hk : Keeps σ s) : Keeps σ (doStartUpWalk p found s) := by
  unfold doStartUpWalk
  try dsimp only
  repeat' (first | intro _ | with_reducible (first | assumption | apply State.raise_keeps | apply State.pinShort_keeps | apply State.ddBegin_keeps | apply ite_keeps | apply foldl_keeps | apply foldl_keeps_snd) | split | simp only [Keeps.mk_iff] | dsimp only)

theorem doSyncLost_keeps {s : State} (hk : Keeps σ s) : Keeps σ (doSyncLost s) := by
  unfold doSyncLost
  try dsimp only
  repeat' (first | intro _ | with_reducible (first | assumption | apply State.atUptime_keeps | apply State.tally_keeps | apply State.raise_keeps | apply State.putFlag_keeps | apply ite_keeps | apply foldl_keeps | apply foldl_keeps_snd) | split | simp only [Keeps.mk_iff] | dsimp only)

end Sys2Proof.Machine
end

