-- ==== Sys2Proof/Laws/KeepConsistency.lean ====
section
/-! SUPPORT. What the operations of Machine/Consistency keep (Laws/Keep). -/
namespace Sys2Proof.Machine

variable {σ : State}

theorem State.applyEntry_keeps {s : State} {e : SetEntry} (hk : Keeps σ s) : Keeps σ (State.applyEntry s e) := by
  unfold State.applyEntry
  try dsimp only
  repeat' (first | intro _ | with_reducible (first | assumption | apply State.modChan_keeps | apply State.setReg_keeps | apply ite_keeps | apply foldl_keeps | apply foldl_keeps_snd) | split | simp only [Keeps.mk_iff] | dsimp only)

theorem State.copyLists_keeps {s : State} {k : Nat} {es : List SetEntry} (hk : Keeps σ s) : Keeps σ (State.copyLists s k es) := by
  unfold State.copyLists
  try dsimp only
  repeat' (first | intro _ | with_reducible (first | assumption | apply State.each_keeps | apply State.copyLamps_keeps | apply ite_keeps | apply foldl_keeps | apply foldl_keeps_snd) | split | simp only [Keeps.mk_iff] | dsimp only)

theorem State.applyEntries_keeps {s : State} {es : List SetEntry} (hk : Keeps σ s) : Keeps σ (State.applyEntries s es) := by
  unfold State.applyEntries
  try dsimp only
  repeat' (first | intro _ | with_reducible (first | assumption | apply State.each_keeps | apply State.applyEntry_keeps | apply ite_keeps | apply foldl_keeps | apply foldl_keeps_snd) | split | simp only [Keeps.mk_iff] | dsimp only)

end Sys2Proof.Machine
end

