-- ==== Sys2Proof/Laws/KeepNetOps.lean ====
section
/-! SUPPORT. What the operations of Machine/NetOps keep (Laws/Keep). -/
namespace Sys2Proof.Machine

variable {σ : State}

theorem State.modLink_keeps {s : State} {l : Nat} {f : Link → Link} (hk : Keeps σ s) : Keeps σ (State.modLink s l f) := by
  unfold State.modLink
  try dsimp only
  repeat' (first | intro _ | with_reducible (first | assumption | apply ite_keeps | apply foldl_keeps | apply foldl_keeps_snd) | split | simp only [Keeps.mk_iff] | dsimp only)

theorem State.setExact_keeps {s : State} {l : Nat} {e : Nat} {mac : Nat} {owner : Nat} {valid : Bool} (hk : Keeps σ s) : Keeps σ (State.setExact s l e mac owner valid) := by
  unfold State.setExact
  try dsimp only
  repeat' (first | intro _ | with_reducible (first | assumption | apply State.modLink_keeps | apply State.put_keeps | apply State.putFlag_keeps | apply ite_keeps | apply foldl_keeps | apply foldl_keeps_snd) | split | simp only [Keeps.mk_iff] | dsimp only)

theorem State.joinMac_keeps {s : State} {l : Nat} {stream : Nat} {mac : Nat} (hk : Keeps σ s) : Keeps σ (State.joinMac s l stream mac).1 := by
  unfold State.joinMac
  try dsimp only
  repeat' (first | intro _ | with_reducible (first | assumption | apply State.modLink_keeps | apply State.setExact_keeps | apply State.put_keeps | apply ite_keeps | apply foldl_keeps | apply foldl_keeps_snd) | split | simp only [Keeps.mk_iff] | dsimp only)
theorem State.joinMac_keeps' {s : State} {l : Nat} {stream : Nat} {mac : Nat} (hk : Keeps σ s) {t b} (e : State.joinMac s l stream mac = (t, b)) : Keeps σ t := by
  have k := congrArg (fun q => Keeps σ q.1) e
  exact k ▸ State.joinMac_keeps hk

theorem State.sendIgmp_keeps {s : State} {l : Nat} {version : Nat} {leave : Bool} {group : Nat} {source : Nat} (hk : Keeps σ s) : Keeps σ (State.sendIgmp s l version leave group source) := by
  unfold State.sendIgmp
  try dsimp only
  repeat' (first | intro _ | with_reducible (first | assumption | apply State.add64_keeps | apply State.emit_keeps | apply ite_keeps | apply foldl_keeps | apply foldl_keeps_snd) | split | simp only [Keeps.mk_iff] | dsimp only)

theorem State.leaveMac_keeps {s : State} {l : Nat} {stream : Nat} {mac : Nat} (hk : Keeps σ s) : Keeps σ (State.leaveMac s l stream mac) := by
  unfold State.leaveMac
  try dsimp only
  repeat' (first | intro _ | with_reducible (first | assumption | apply State.modLink_keeps | apply State.setExact_keeps | apply State.put_keeps | apply ite_keeps | apply foldl_keeps | apply foldl_keeps_snd) | split | simp only [Keeps.mk_iff] | dsimp only)

theorem State.emitFrame_keeps {s : State} {l : Nat} {bytes : List Nat} (hk : Keeps σ s) : Keeps σ (State.emitFrame s l bytes) := by
  unfold State.emitFrame
  try dsimp only
  repeat' (first | intro _ | with_reducible (first | assumption | apply State.add64_keeps | apply State.emit_keeps | apply ite_keeps | apply foldl_keeps | apply foldl_keeps_snd) | split | simp only [Keeps.mk_iff] | dsimp only)

theorem State.markTwin_keeps {s : State} {l : Nat} {p : TxPart} (hk : Keeps σ s) : Keeps σ (State.markTwin s l p) := by
  unfold State.markTwin
  try dsimp only
  repeat' (first | intro _ | with_reducible (first | assumption | apply State.modLink_keeps | apply ite_keeps | apply foldl_keeps | apply foldl_keeps_snd) | split | simp only [Keeps.mk_iff] | dsimp only)

theorem State.flushQueue_keeps {s : State} {l : Nat} (hk : Keeps σ s) : Keeps σ (State.flushQueue s l) := by
  unfold State.flushQueue
  try dsimp only
  repeat' (first | intro _ | with_reducible (first | assumption | apply State.each_keeps | apply State.modLink_keeps | apply State.emitFrame_keeps | apply State.markTwin_keeps | apply ite_keeps | apply foldl_keeps | apply foldl_keeps_snd) | split | simp only [Keeps.mk_iff] | dsimp only)

theorem State.settleLink_keeps {s : State} {l : Nat} (hk : Keeps σ s) : Keeps σ (State.settleLink s l) := by
  unfold State.settleLink
  try dsimp only
  repeat' (first | intro _ | with_reducible (first | assumption | apply State.putFlag_keeps | apply State.modLink_keeps | apply State.add_keeps | apply State.flushQueue_keeps | apply ite_keeps | apply foldl_keeps | apply foldl_keeps_snd) | split | simp only [Keeps.mk_iff] | dsimp only)

theorem State.txSend_keeps {s : State} {l : Nat} {prio : Nat} {bytes : List Nat} {part : Option TxPart} (hk : Keeps σ s) : Keeps σ (State.txSend s l prio bytes part).1 := by
  unfold State.txSend
  try dsimp only
  repeat' (first | intro _ | with_reducible (first | assumption | apply State.settleLink_keeps | apply State.modLink_keeps | apply State.tallyLimited_keeps | apply State.raise_keeps | apply State.bump_keeps | apply State.emitFrame_keeps | apply ite_keeps | apply foldl_keeps | apply foldl_keeps_snd) | split | simp only [Keeps.mk_iff] | dsimp only)
theorem State.txSend_keeps' {s : State} {l : Nat} {prio : Nat} {bytes : List Nat} {part : Option TxPart} (hk : Keeps σ s) {t b} (e : State.txSend s l prio bytes part = (t, b)) : Keeps σ t := by
  have k := congrArg (fun q => Keeps σ q.1) e
  exact k ▸ State.txSend_keeps hk

theorem State.txFrameD_keeps {s : State} {l : Nat} {prio : Nat} {bytes : List Nat} (hk : Keeps σ s) : Keeps σ (State.txFrameD s l prio bytes).1 := by
  unfold State.txFrameD
  try dsimp only
  repeat' (first | intro _ | with_reducible (first | assumption | apply State.txSend_keeps | apply State.txSend_keeps' (e := by assumption) | apply ite_keeps | apply foldl_keeps | apply foldl_keeps_snd) | split | simp only [Keeps.mk_iff] | dsimp only)
theorem State.txFrameD_keeps' {s : State} {l : Nat} {prio : Nat} {bytes : List Nat} (hk : Keeps σ s) {t b} (e : State.txFrameD s l prio bytes = (t, b)) : Keeps σ t := by
  have k := congrArg (fun q => Keeps σ q.1) e
  exact k ▸ State.txFrameD_keeps hk

theorem State.txFrame_keeps {s : State} {l : Nat} {prio : Nat} {bytes : List Nat} (hk : Keeps σ s) : Keeps σ (State.txFrame s l prio bytes) := by
  unfold State.txFrame
  try dsimp only
  repeat' (first | intro _ | with_reducible (first | assumption | apply State.txFrameD_keeps | apply State.txFrameD_keeps' (e := by assumption) | apply ite_keeps | apply foldl_keeps | apply foldl_keeps_snd) | split | simp only [Keeps.mk_iff] | dsimp only)

theorem State.sendArp_keeps {s : State} {l : Nat} {ip : Nat} (hk : Keeps σ s) : Keeps σ (State.sendArp s l ip) := by
  unfold State.sendArp
  try dsimp only
  repeat' (first | intro _ | with_reducible (first | assumption | apply State.txFrame_keeps | apply ite_keeps | apply foldl_keeps | apply foldl_keeps_snd) | split | simp only [Keeps.mk_iff] | dsimp only)

theorem State.arpMiss_keeps {s : State} {l : Nat} {ip : Nat} (hk : Keeps σ s) : Keeps σ (State.arpMiss s l ip) := by
  unfold State.arpMiss
  try dsimp only
  repeat' (first | intro _ | with_reducible (first | assumption | apply State.bump_keeps | apply State.modLink_keeps | apply State.sendArp_keeps | apply ite_keeps | apply foldl_keeps | apply foldl_keeps_snd) | split | simp only [Keeps.mk_iff] | dsimp only)

theorem State.sendIpTag_keeps {s : State} {tag : Option (Nat × Nat)} {l : Nat} {dst : Nat} {proto : Nat} {payload : List Nat} (hk : Keeps σ s) : Keeps σ (State.sendIpTag s tag l dst proto payload).1 := by
  unfold State.sendIpTag
  try dsimp only
  repeat' (first | intro _ | with_reducible (first | assumption | apply State.txFrameD_keeps | apply State.txFrameD_keeps' (e := by assumption) | apply State.arpMiss_keeps | apply ite_keeps | apply foldl_keeps | apply foldl_keeps_snd) | split | simp only [Keeps.mk_iff] | dsimp only)
theorem State.sendIpTag_keeps' {s : State} {tag : Option (Nat × Nat)} {l : Nat} {dst : Nat} {proto : Nat} {payload : List Nat} (hk : Keeps σ s) {t b} (e : State.sendIpTag s tag l dst proto payload = (t, b)) : Keeps σ t := by
  have k := congrArg (fun q => Keeps σ q.1) e
  exact k ▸ State.sendIpTag_keeps hk

theorem State.sendIp_keeps {s : State} {l : Nat} {dst : Nat} {proto : Nat} {payload : List Nat} (hk : Keeps σ s) : Keeps σ (State.sendIp s l dst proto payload).1 := by
  unfold State.sendIp
  try dsimp only
  repeat' (first | intro _ | with_reducible (first | assumption | apply State.sendIpTag_keeps | apply State.sendIpTag_keeps' (e := by assumption) | apply ite_keeps | apply foldl_keeps | apply foldl_keeps_snd) | split | simp only [Keeps.mk_iff] | dsimp only)
theorem State.sendIp_keeps' {s : State} {l : Nat} {dst : Nat} {proto : Nat} {payload : List Nat} (hk : Keeps σ s) {t b} (e : State.sendIp s l dst proto payload = (t, b)) : Keeps σ t := by
  have k := congrArg (fun q => Keeps σ q.1) e
  exact k ▸ State.sendIp_keeps hk

theorem State.sendUdp_keeps {s : State} {l : Nat} {dst : Nat} {sport : Nat} {dport : Nat} {payload : List Nat} (hk : Keeps σ s) : Keeps σ (State.sendUdp s l dst sport dport payload) := by
  unfold State.sendUdp
  try dsimp only
  repeat' (first | intro _ | with_reducible (first | assumption | apply State.sendIp_keeps | apply State.sendIp_keeps' (e := by assumption) | apply ite_keeps | apply foldl_keeps | apply foldl_keeps_snd) | split | simp only [Keeps.mk_iff] | dsimp only)

end Sys2Proof.Machine
end

