-- ==== Sys2Proof/Laws/KeepParams.lean ====
section
/-! SUPPORT. What the operations of Machine/Params keep (Laws/Keep). -/
namespace Sys2Proof.Machine

variable {σ : State}

theorem State.noteInput_keeps {s : State} (hk : Keeps σ s) : Keeps σ (State.noteInput s) := by
  unfold State.noteInput
  try dsimp only
  repeat' (first | intro _ | with_reducible (first | assumption | apply ite_keeps | apply foldl_keeps | apply foldl_keeps_snd) | split | simp only [Keeps.mk_iff] | dsimp only)

theorem State.modFrame_keeps {s : State} {n : Nat} {f : FrameWork → FrameWork} (hk : Keeps σ s) : Keeps σ (State.modFrame s n f) := by
  unfold State.modFrame
  try dsimp only
  repeat' (first | intro _ | with_reducible (first | assumption | apply ite_keeps | apply foldl_keeps | apply foldl_keeps_snd) | split | simp only [Keeps.mk_iff] | dsimp only)

end Sys2Proof.Machine
end

