-- ==== Sys2Proof/Laws/KeepFixtures.lean ====
section
/-! SUPPORT. What the operations of Machine/Fixtures keep (Laws/Keep). -/
namespace Sys2Proof.Machine

variable {σ : State}

theorem State.terminateUniverse_keeps {s : State} {u : Chan} {k : Nat} {cause : Nat} (hk : Keeps σ s) : Keeps σ (State.terminateUniverse s u k cause) := by
  unfold State.terminateUniverse
  try dsimp only
  repeat' (first | intro _ | with_reducible (first | assumption | apply ite_keeps | apply foldl_keeps | apply foldl_keeps_snd) | split | simp only [Keeps.mk_iff] | dsimp only)

theorem State.dropFixture_keeps {s : State} {handle : Nat} (hk : Keeps σ s) : Keeps σ (State.dropFixture s handle) := by
  unfold State.dropFixture
  try dsimp only
  repeat' (first | intro _ | with_reducible (first | assumption | apply ite_keeps | apply foldl_keeps | apply foldl_keeps_snd) | split | simp only [Keeps.mk_iff] | dsimp only)

theorem State.setMotion_keeps {s : State} {m : Motion} (hk : Keeps σ s) : Keeps σ (State.setMotion s m) := by
  unfold State.setMotion
  try dsimp only
  repeat' (first | intro _ | with_reducible (first | assumption | apply ite_keeps | apply foldl_keeps | apply foldl_keeps_snd) | split | simp only [Keeps.mk_iff] | dsimp only)

theorem State.moveAttr_keeps {s : State} {c : Chan} {a : Nat} {n : Nat} {pz : Nat} {tgt : Nat} (hk : Keeps σ s) : Keeps σ (State.moveAttr s c a n pz tgt).2 := by
  unfold State.moveAttr
  try dsimp only
  repeat' (first | intro _ | with_reducible (first | assumption | apply State.writeBulk_keeps | apply State.setMotion_keeps | apply ite_keeps | apply foldl_keeps | apply foldl_keeps_snd) | split | simp only [Keeps.mk_iff] | dsimp only)
theorem State.moveAttr_keeps' {s : State} {c : Chan} {a : Nat} {n : Nat} {pz : Nat} {tgt : Nat} (hk : Keeps σ s) {a t} (e : State.moveAttr s c a n pz tgt = (a, t)) : Keeps σ t := by
  have k := congrArg (fun q => Keeps σ q.2) e
  exact k ▸ State.moveAttr_keeps hk

theorem State.attrFrame_keeps {s : State} {w : FrameWork} {c : Chan} {a : Nat} (hk : Keeps σ s) : Keeps σ (State.attrFrame s w c a).2 := by
  unfold State.attrFrame
  try dsimp only
  repeat' (first | intro _ | with_reducible (first | assumption | apply State.tallyLimited_keeps | apply State.raise_keeps | apply State.add_keeps | apply State.moveAttr_keeps | apply State.moveAttr_keeps' (e := by assumption) | apply ite_keeps | apply foldl_keeps | apply foldl_keeps_snd) | split | simp only [Keeps.mk_iff] | dsimp only)
theorem State.attrFrame_keeps' {s : State} {w : FrameWork} {c : Chan} {a : Nat} (hk : Keeps σ s) {a t} (e : State.attrFrame s w c a = (a, t)) : Keeps σ t := by
  have k := congrArg (fun q => Keeps σ q.2) e
  exact k ▸ State.attrFrame_keeps hk

theorem State.setUniv_keeps {s : State} {u : Univ} (hk : Keeps σ s) : Keeps σ (State.setUniv s u) := by
  unfold State.setUniv
  try dsimp only
  repeat' (first | intro _ | with_reducible (first | assumption | apply ite_keeps | apply foldl_keeps | apply foldl_keeps_snd) | split | simp only [Keeps.mk_iff] | dsimp only)

theorem State.fixtureFrame_keeps {s : State} {w : FrameWork} {c : Chan} (hk : Keeps σ s) : Keeps σ (State.fixtureFrame s w c) := by
  unfold State.fixtureFrame
  try dsimp only
  repeat' (first | intro _ | with_reducible (first | assumption | apply State.attrFrame_keeps | apply State.attrFrame_keeps' (e := by assumption) | apply ite_keeps | apply foldl_keeps | apply foldl_keeps_snd) | split | simp only [Keeps.mk_iff] | dsimp only)

theorem State.fixtureHold_keeps {s : State} {w : FrameWork} {c : Chan} (hk : Keeps σ s) : Keeps σ (State.fixtureHold s w c) := by
  unfold State.fixtureHold
  try dsimp only
  repeat' (first | intro _ | with_reducible (first | assumption | apply State.each_keeps | apply State.moveAttr_keeps | apply State.moveAttr_keeps' (e := by assumption) | apply ite_keeps | apply foldl_keeps | apply foldl_keeps_snd) | split | simp only [Keeps.mk_iff] | dsimp only)

theorem State.refreshFix_keeps {s : State} (hk : Keeps σ s) : Keeps σ (State.refreshFix s) := by
  unfold State.refreshFix
  try dsimp only
  repeat' (first | intro _ | with_reducible (first | assumption | apply State.put_keeps | apply State.each_keeps | apply State.putFlag_keeps | apply ite_keeps | apply foldl_keeps | apply foldl_keeps_snd) | split | simp only [Keeps.mk_iff] | dsimp only)

theorem State.univLate_keeps {s : State} {u : Chan} {n : Nat} (hk : Keeps σ s) : Keeps σ (State.univLate s u n) := by
  unfold State.univLate
  try dsimp only
  repeat' (first | intro _ | with_reducible (first | assumption | apply State.tallyAtMost_keeps | apply State.putFlag_keeps | apply State.raise_keeps | apply State.bump_keeps | apply State.setUniv_keeps | apply ite_keeps | apply foldl_keeps | apply foldl_keeps_snd) | split | simp only [Keeps.mk_iff] | dsimp only)

theorem doSacnLate_keeps {s : State} {n : Nat} {i : Nat} (hk : Keeps σ s) : Keeps σ (doSacnLate n i s) := by
  unfold doSacnLate
  try dsimp only
  repeat' (first | intro _ | with_reducible (first | assumption | apply State.atTime_keeps | apply State.univLate_keeps | apply ite_keeps | apply foldl_keeps | apply foldl_keeps_snd) | split | simp only [Keeps.mk_iff] | dsimp only)

theorem State.sendE131_keeps {s : State} {tag : Option (Nat × Nat)} {l : Nat} {dst : Nat} {p : List Nat} (hk : Keeps σ s) : Keeps σ (State.sendE131 s tag l dst p).1 := by
  unfold State.sendE131
  try dsimp only
  repeat' (first | intro _ | with_reducible (first | assumption | apply State.sendIpTag_keeps | apply State.sendIpTag_keeps' (e := by assumption) | apply ite_keeps | apply foldl_keeps | apply foldl_keeps_snd) | split | simp only [Keeps.mk_iff] | dsimp only)
theorem State.sendE131_keeps' {s : State} {tag : Option (Nat × Nat)} {l : Nat} {dst : Nat} {p : List Nat} (hk : Keeps σ s) {t b} (e : State.sendE131 s tag l dst p = (t, b)) : Keeps σ t := by
  have k := congrArg (fun q => Keeps σ q.1) e
  exact k ▸ State.sendE131_keeps hk

theorem State.sendUniverse_keeps {s : State} {u : Chan} {sync : Nat} {terminated : Bool} {slots : List Nat} (hk : Keeps σ s) : Keeps σ (State.sendUniverse s u sync terminated slots).1 := by
  unfold State.sendUniverse
  try dsimp only
  repeat' (first | intro _ | with_reducible (first | assumption | apply State.put_keeps | apply State.setUniv_keeps | apply State.sendE131_keeps | apply State.sendE131_keeps' (e := by assumption) | apply State.add64_keeps | apply ite_keeps | apply foldl_keeps | apply foldl_keeps_snd) | split | simp only [Keeps.mk_iff] | dsimp only)
theorem State.sendUniverse_keeps' {s : State} {u : Chan} {sync : Nat} {terminated : Bool} {slots : List Nat} (hk : Keeps σ s) {t b} (e : State.sendUniverse s u sync terminated slots = (t, b)) : Keeps σ t := by
  have k := congrArg (fun q => Keeps σ q.1) e
  exact k ▸ State.sendUniverse_keeps hk

theorem State.univOutcome_keeps {s : State} {u : Chan} {n : Nat} {slots : List Nat} {x1 : SendResult} (hk : Keeps σ s) : Keeps σ (State.univOutcome s u n slots x1) := by
  unfold State.univOutcome
  try dsimp only
  repeat' (first | intro _ | with_reducible (first | assumption | apply State.univLate_keeps | apply State.setUniv_keeps | apply State.putFlag_keeps | apply ite_keeps | apply foldl_keeps | apply foldl_keeps_snd) | split | simp only [Keeps.mk_iff] | dsimp only)

theorem State.sendBuilt_keeps {s : State} {w : FrameWork} {n : Nat} {i : Nat} (hk : Keeps σ s) : Keeps σ (State.sendBuilt s w n i) := by
  unfold State.sendBuilt
  try dsimp only
  repeat' (first | intro _ | with_reducible (first | assumption | apply State.sendUniverse_keeps | apply State.sendUniverse_keeps' (e := by assumption) | apply State.univOutcome_keeps | apply ite_keeps | apply foldl_keeps | apply foldl_keeps_snd) | split | simp only [Keeps.mk_iff] | dsimp only)

theorem State.sendSync_keeps {s : State} {tag : Option (Nat × Nat)} {sync : Nat} {l : Nat} (hk : Keeps σ s) : Keeps σ (State.sendSync s tag sync l) := by
  unfold State.sendSync
  try dsimp only
  repeat' (first | intro _ | with_reducible (first | assumption | apply State.sendE131_keeps | apply State.sendE131_keeps' (e := by assumption) | apply ite_keeps | apply foldl_keeps | apply foldl_keeps_snd) | split | simp only [Keeps.mk_iff] | dsimp only)

theorem doFixtureFrame_keeps {s : State} {n : Nat} (hk : Keeps σ s) : Keeps σ (doFixtureFrame n s) := by
  unfold doFixtureFrame
  try dsimp only
  repeat' (first | intro _ | with_reducible (first | assumption | apply State.modFrame_keeps | apply State.each_keeps | apply State.atTime_keeps | apply State.fixtureHold_keeps | apply State.fixtureFrame_keeps | apply ite_keeps | apply foldl_keeps | apply foldl_keeps_snd) | split | simp only [Keeps.mk_iff] | dsimp only)

theorem doSacnData_keeps {s : State} {n : Nat} {i : Nat} (hk : Keeps σ s) : Keeps σ (doSacnData n i s) := by
  unfold doSacnData
  try dsimp only
  repeat' (first | intro _ | with_reducible (first | assumption | apply State.atTime_keeps | apply State.univLate_keeps | apply State.sendBuilt_keeps | apply ite_keeps | apply foldl_keeps | apply foldl_keeps_snd) | split | simp only [Keeps.mk_iff] | dsimp only)

theorem doSacnHoldResend_keeps {s : State} (hk : Keeps σ s) : Keeps σ (doSacnHoldResend s) := by
  unfold doSacnHoldResend
  try dsimp only
  repeat' (first | intro _ | with_reducible (first | assumption | apply State.each_keeps | apply State.sendUniverse_keeps | apply State.sendUniverse_keeps' (e := by assumption) | apply ite_keeps | apply foldl_keeps | apply foldl_keeps_snd) | split | simp only [Keeps.mk_iff] | dsimp only)

theorem doSacnSync_keeps {s : State} {n : Nat} {sync : Nat} (hk : Keeps σ s) : Keeps σ (doSacnSync n sync s) := by
  unfold doSacnSync
  try dsimp only
  repeat' (first | intro _ | with_reducible (first | assumption | apply State.atTime_keeps | apply State.each_keeps | apply State.sendSync_keeps | apply ite_keeps | apply foldl_keeps | apply foldl_keeps_snd) | split | simp only [Keeps.mk_iff] | dsimp only)

theorem doUnivTerminated_keeps {s : State} {i : Nat} (hk : Keeps σ s) : Keeps σ (doUnivTerminated i s) := by
  unfold doUnivTerminated
  try dsimp only
  repeat' (first | intro _ | with_reducible (first | assumption | apply State.each_keeps | apply State.sendUniverse_keeps | apply State.sendUniverse_keeps' (e := by assumption) | apply State.atTime_keeps | apply State.tally_keeps | apply State.raise_keeps | apply ite_keeps | apply foldl_keeps | apply foldl_keeps_snd) | split | simp only [Keeps.mk_iff] | dsimp only)

theorem doUniverseDiscovery_keeps {s : State} (hk : Keeps σ s) : Keeps σ (doUniverseDiscovery s) := by
  unfold doUniverseDiscovery
  try dsimp only
  repeat' (first | intro _ | with_reducible (first | assumption | apply State.each_keeps | apply State.sendE131_keeps | apply State.sendE131_keeps' (e := by assumption) | apply ite_keeps | apply foldl_keeps | apply foldl_keeps_snd) | split | simp only [Keeps.mk_iff] | dsimp only)

end Sys2Proof.Machine
end

