-- ==== Sys2Proof/Laws/KeepGovernor.lean ====
section
/-! SUPPORT. What the operations of Machine/Governor keep (Laws/Keep). -/
namespace Sys2Proof.Machine

variable {σ : State}

theorem State.setGovEp_keeps {s : State} {g : GovEp} (hk : Keeps σ s) : Keeps σ (State.setGovEp s g) := by
  unfold State.setGovEp
  try dsimp only
  repeat' (first | intro _ | with_reducible (first | assumption | apply ite_keeps | apply foldl_keeps | apply foldl_keeps_snd) | split | simp only [Keeps.mk_iff] | dsimp only)

theorem State.setGovFeed_keeps {s : State} {g : GovFeed} (hk : Keeps σ s) : Keeps σ (State.setGovFeed s g) := by
  unfold State.setGovFeed
  try dsimp only
  repeat' (first | intro _ | with_reducible (first | assumption | apply ite_keeps | apply foldl_keeps | apply foldl_keeps_snd) | split | simp only [Keeps.mk_iff] | dsimp only)

theorem State.applyCorrection_keeps {s : State} {c : Chan} (hk : Keeps σ s) : Keeps σ (State.applyCorrection s c) := by
  unfold State.applyCorrection
  try dsimp only
  repeat' (first | intro _ | with_reducible (first | assumption | apply State.setGovEp_keeps | apply ite_keeps | apply foldl_keeps | apply foldl_keeps_snd) | split | simp only [Keeps.mk_iff] | dsimp only)

theorem State.governorRest_keeps {s : State} {power : Nat} (hk : Keeps σ s) : Keeps σ (State.governorRest s power) := by
  unfold State.governorRest
  try dsimp only
  repeat' (first | intro _ | with_reducible (first | assumption | apply ite_keeps | apply foldl_keeps | apply foldl_keeps_snd) | split | simp only [Keeps.mk_iff] | dsimp only)

theorem State.modelResult_keeps {s : State} {types : Nat} {frame : Nat} {status : Nat} {check : Nat} (hk : Keeps σ s) : Keeps σ (State.modelResult s types frame status check) := by
  unfold State.modelResult
  try dsimp only
  repeat' (first | intro _ | with_reducible (first | assumption | apply State.tally_keeps | apply State.raise_keeps | apply State.advance_keeps | apply State.put_keeps | apply ite_keeps | apply foldl_keeps | apply foldl_keeps_snd) | split | simp only [Keeps.mk_iff] | dsimp only)

theorem doModelLoad_keeps {s : State} {value : Nat} (hk : Keeps σ s) : Keeps σ (doModelLoad value s) := by
  unfold doModelLoad
  try dsimp only
  repeat' (first | intro _ | with_reducible (first | assumption | apply State.put_keeps | apply State.modelResult_keeps | apply ite_keeps | apply foldl_keeps | apply foldl_keeps_snd) | split | simp only [Keeps.mk_iff] | dsimp only)

theorem State.applyModels_keeps {s : State} {n : Nat} (hk : Keeps σ s) : Keeps σ (State.applyModels s n) := by
  unfold State.applyModels
  try dsimp only
  repeat' (first | intro _ | with_reducible (first | assumption | apply State.modelResult_keeps | apply State.put_keeps | apply State.bump_keeps | apply ite_keeps | apply foldl_keeps | apply foldl_keeps_snd) | split | simp only [Keeps.mk_iff] | dsimp only)

theorem State.sendGroup_keeps {s : State} {n : Nat} {i : Nat} {words : List Nat} (hk : Keeps σ s) : Keeps σ (State.sendGroup s n i words) := by
  unfold State.sendGroup
  try dsimp only
  repeat' (first | intro _ | with_reducible (first | assumption | apply ite_keeps | apply foldl_keeps | apply foldl_keeps_snd) | split | simp only [Keeps.mk_iff] | dsimp only)

theorem State.reportFeed_keeps {s : State} {n : Nat} {f : Chan} {p : Nat} {cause : Nat} {q : FeedForecast} (hk : Keeps σ s) : Keeps σ (State.reportFeed s n f p cause q) := by
  unfold State.reportFeed
  try dsimp only
  repeat' (first | intro _ | with_reducible (first | assumption | apply State.put_keeps | apply State.putFlag_keeps | apply State.tally_keeps | apply State.raise_keeps | apply State.bump_keeps | apply State.tallyAtMost_keeps | apply State.setGovFeed_keeps | apply ite_keeps | apply foldl_keeps | apply foldl_keeps_snd) | split | simp only [Keeps.mk_iff] | dsimp only)

theorem State.showThermal_keeps {s : State} {c : Chan} (hk : Keeps σ s) : Keeps σ (State.showThermal s c) := by
  unfold State.showThermal
  try dsimp only
  repeat' (first | intro _ | with_reducible (first | assumption | apply State.put_keeps | apply ite_keeps | apply foldl_keeps | apply foldl_keeps_snd) | split | simp only [Keeps.mk_iff] | dsimp only)

theorem State.heatEndpoint_keeps {s : State} {c : Chan} {n : Nat} {current : Rat} {heat : Rat} {held : Bool} (hk : Keeps σ s) : Keeps σ (State.heatEndpoint s c n current heat held) := by
  unfold State.heatEndpoint
  try dsimp only
  repeat' (first | intro _ | with_reducible (first | assumption | apply State.showThermal_keeps | apply State.setGovEp_keeps | apply ite_keeps | apply foldl_keeps | apply foldl_keeps_snd) | split | simp only [Keeps.mk_iff] | dsimp only)

theorem State.holdEndpoint_keeps {s : State} {c : Chan} {n : Nat} (hk : Keeps σ s) : Keeps σ (State.holdEndpoint s c n) := by
  unfold State.holdEndpoint
  try dsimp only
  repeat' (first | intro _ | with_reducible (first | assumption | apply State.heatEndpoint_keeps | apply ite_keeps | apply foldl_keeps | apply foldl_keeps_snd) | split | simp only [Keeps.mk_iff] | dsimp only)

theorem State.writeTerms_keeps {s : State} {n : Nat} {ts : List EpTerms} (hk : Keeps σ s) : Keeps σ (State.writeTerms s n ts) := by
  unfold State.writeTerms
  try dsimp only
  repeat' (first | intro _ | with_reducible (first | assumption | apply State.put64_keeps | apply State.each_keeps | apply State.writeBulk_keeps | apply ite_keeps | apply foldl_keeps | apply foldl_keeps_snd) | split | simp only [Keeps.mk_iff] | dsimp only)

theorem State.forecastWith_keeps {s : State} {w : FrameWork} {draws : List EpDraw} (hk : Keeps σ s) : Keeps σ (State.forecastWith s w draws) := by
  unfold State.forecastWith
  try dsimp only
  repeat' (first | intro _ | with_reducible (first | assumption | apply State.each_keeps | apply State.reportFeed_keeps | apply State.holdEndpoint_keeps | apply State.heatEndpoint_keeps | apply State.putFlag_keeps | apply State.setGovEp_keeps | apply State.put_keeps | apply State.writeTerms_keeps | apply State.modFrame_keeps | apply ite_keeps | apply foldl_keeps | apply foldl_keeps_snd) | split | simp only [Keeps.mk_iff] | dsimp only)

theorem State.noteClamped_keeps {s : State} {e : EpDraw} (hk : Keeps σ s) : Keeps σ (State.noteClamped s e) := by
  unfold State.noteClamped
  try dsimp only
  repeat' (first | intro _ | with_reducible (first | assumption | apply State.putFlag_keeps | apply State.tallyLimited_keeps | apply ite_keeps | apply foldl_keeps | apply foldl_keeps_snd) | split | simp only [Keeps.mk_iff] | dsimp only)

theorem State.noteTerms_keeps {s : State} {n : Nat} (hk : Keeps σ s) : Keeps σ (State.noteTerms s n) := by
  unfold State.noteTerms
  try dsimp only
  repeat' (first | intro _ | with_reducible (first | assumption | apply State.noteInput_keeps | apply ite_keeps | apply foldl_keeps | apply foldl_keeps_snd) | split | simp only [Keeps.mk_iff] | dsimp only)

theorem State.temperatureReport_keeps {s : State} {c : Chan} {frame : Option Nat} {meas : Rat} (hk : Keeps σ s) : Keeps σ (State.temperatureReport s c frame meas) := by
  unfold State.temperatureReport
  try dsimp only
  repeat' (first | intro _ | with_reducible (first | assumption | apply State.putFlag_keeps | apply State.setGovEp_keeps | apply State.sendMirror_keeps | apply ite_keeps | apply foldl_keeps | apply foldl_keeps_snd) | split | simp only [Keeps.mk_iff] | dsimp only)

theorem doForecastLate_keeps {s : State} {n : Nat} (hk : Keeps σ s) : Keeps σ (doForecastLate n s) := by
  unfold doForecastLate
  try dsimp only
  repeat' (first | intro _ | with_reducible (first | assumption | apply State.atTime_keeps | apply State.forecastWith_keeps | apply State.noteTerms_keeps | apply State.tally_keeps | apply State.bump_keeps | apply State.putFlag_keeps | apply ite_keeps | apply foldl_keeps | apply foldl_keeps_snd) | split | simp only [Keeps.mk_iff] | dsimp only)

theorem doForecast_keeps {s : State} {n : Nat} (hk : Keeps σ s) : Keeps σ (doForecast n s) := by
  unfold doForecast
  try dsimp only
  repeat' (first | intro _ | with_reducible (first | assumption | apply doForecastLate_keeps | apply State.each_keeps | apply State.applyCorrection_keeps | apply State.noteTerms_keeps | apply State.forecastWith_keeps | apply State.noteClamped_keeps | apply ite_keeps | apply foldl_keeps | apply foldl_keeps_snd) | split | simp only [Keeps.mk_iff] | dsimp only)

theorem doModelUpdate_keeps {s : State} {n : Nat} (hk : Keeps σ s) : Keeps σ (doModelUpdate n s) := by
  unfold doModelUpdate
  try dsimp only
  repeat' (first | intro _ | with_reducible (first | assumption | apply State.each_keeps | apply State.showThermal_keeps | apply State.setGovEp_keeps | apply State.sendMirror_keeps | apply State.put_keeps | apply State.setGovFeed_keeps | apply State.tallyAtMost_keeps | apply State.raise_keeps | apply State.bump_keeps | apply State.modFrame_keeps | apply ite_keeps | apply foldl_keeps | apply foldl_keeps_snd) | split | simp only [Keeps.mk_iff] | dsimp only)

theorem doTelemStale_keeps {s : State} {i : Nat} (hk : Keeps σ s) : Keeps σ (doTelemStale i s) := by
  unfold doTelemStale
  try dsimp only
  repeat' (first | intro _ | with_reducible (first | assumption | apply State.atUptime_keeps | apply State.tally_keeps | apply State.raise_keeps | apply State.putFlag_keeps | apply ite_keeps | apply foldl_keeps | apply foldl_keeps_snd) | split | simp only [Keeps.mk_iff] | dsimp only)

theorem doThermalFit_keeps {s : State} {i : Nat} (hk : Keeps σ s) : Keeps σ (doThermalFit i s) := by
  unfold doThermalFit
  try dsimp only
  repeat' (first | intro _ | with_reducible (first | assumption | apply State.sendMirror_keeps | apply State.putFlag_keeps | apply State.setGovEp_keeps | apply State.tally_keeps | apply State.raise_keeps | apply ite_keeps | apply foldl_keeps | apply foldl_keeps_snd) | split | simp only [Keeps.mk_iff] | dsimp only)

end Sys2Proof.Machine
end

