-- ==== Sys2Proof/Laws/KeepEngineOps.lean ====
section
/-! SUPPORT. What the operations of Machine/EngineOps keep (Laws/Keep). -/
namespace Sys2Proof.Machine

variable {σ : State}

theorem State.syncEngine_keeps {s : State} {e : Nat} (hk : Keeps σ s) : Keeps σ (State.syncEngine s e) := by
  unfold State.syncEngine
  try dsimp only
  repeat' (first | intro _ | with_reducible (first | assumption | apply State.put_keeps | apply ite_keeps | apply foldl_keeps | apply foldl_keeps_snd) | split | simp only [Keeps.mk_iff] | dsimp only)

theorem State.modEng_keeps {s : State} {e : Nat} {f : Eng → Eng} (hk : Keeps σ s) : Keeps σ (State.modEng s e f) := by
  unfold State.modEng
  try dsimp only
  repeat' (first | intro _ | with_reducible (first | assumption | apply ite_keeps | apply foldl_keeps | apply foldl_keeps_snd) | split | simp only [Keeps.mk_iff] | dsimp only)

theorem State.runEngine_keeps {s : State} {e : Nat} (hk : Keeps σ s) : Keeps σ (State.runEngine s e) := by
  unfold State.runEngine
  try dsimp only
  repeat' (first | intro _ | with_reducible (first | assumption | apply State.put_keeps | apply ite_keeps | apply foldl_keeps | apply foldl_keeps_snd) | split | simp only [Keeps.mk_iff] | dsimp only)

theorem State.loadStores_keeps {s : State} {e : Nat} {x : Option EngineSec} (hk : Keeps σ s) : Keeps σ (State.loadStores s e x) := by
  unfold State.loadStores
  try dsimp only
  repeat' (first | intro _ | with_reducible (first | assumption | apply State.modEng_keeps | apply ite_keeps | apply foldl_keeps | apply foldl_keeps_snd) | split | simp only [Keeps.mk_iff] | dsimp only)

theorem State.askSpare_keeps {s : State} {e : Nat} {cause : StandinCause} {delay : Nat} (hk : Keeps σ s) : Keeps σ (State.askSpare s e cause delay) := by
  unfold State.askSpare
  try dsimp only
  repeat' (first | intro _ | with_reducible (first | assumption | apply State.loadStores_keeps | apply ite_keeps | apply foldl_keeps | apply foldl_keeps_snd) | split | simp only [Keeps.mk_iff] | dsimp only)

theorem State.strFinish_keeps {s : State} {result : Nat} {check : Nat} {phase : Nat} (hk : Keeps σ s) : Keeps σ (State.strFinish s result check phase) := by
  unfold State.strFinish
  try dsimp only
  repeat' (first | intro _ | with_reducible (first | assumption | apply State.raise_keeps | apply State.advance_keeps | apply State.put_keeps | apply ite_keeps | apply foldl_keeps | apply foldl_keeps_snd) | split | simp only [Keeps.mk_iff] | dsimp only)

theorem State.strWithdraw_keeps {s : State} {cause : Nat} (hk : Keeps σ s) : Keeps σ (State.strWithdraw s cause) := by
  unfold State.strWithdraw
  try dsimp only
  repeat' (first | intro _ | with_reducible (first | assumption | apply State.tally_keeps | apply State.strFinish_keeps | apply ite_keeps | apply foldl_keeps | apply foldl_keeps_snd) | split | simp only [Keeps.mk_iff] | dsimp only)

theorem State.gateEngines_keeps {s : State} (hk : Keeps σ s) : Keeps σ (State.gateEngines s) := by
  unfold State.gateEngines
  try dsimp only
  repeat' (first | intro _ | with_reducible (first | assumption | apply State.each_keeps | apply State.runEngine_keeps | apply ite_keeps | apply foldl_keeps | apply foldl_keeps_snd) | split | simp only [Keeps.mk_iff] | dsimp only)

theorem State.backInService_keeps {s : State} {e : Nat} {j : Nat} {passed : Bool} (hk : Keeps σ s) : Keeps σ (State.backInService s e j passed) := by
  unfold State.backInService
  try dsimp only
  repeat' (first | intro _ | with_reducible (first | assumption | apply State.runEngine_keeps | apply State.modEng_keeps | apply State.put64_keeps | apply ite_keeps | apply foldl_keeps | apply foldl_keeps_snd) | split | simp only [Keeps.mk_iff] | dsimp only)

theorem State.standinEnd_keeps {s : State} {j : Nat} (hk : Keeps σ s) : Keeps σ (State.standinEnd s j) := by
  unfold State.standinEnd
  try dsimp only
  repeat' (first | intro _ | with_reducible (first | assumption | apply State.modEng_keeps | apply State.raise_keeps | apply State.put_keeps | apply State.backInService_keeps | apply State.putFlag_keeps | apply State.tally_keeps | apply ite_keeps | apply foldl_keeps | apply foldl_keeps_snd) | split | simp only [Keeps.mk_iff] | dsimp only)

theorem State.endTesting_keeps {s : State} (hk : Keeps σ s) : Keeps σ (State.endTesting s) := by
  unfold State.endTesting
  try dsimp only
  repeat' (first | intro _ | with_reducible (first | assumption | apply State.standinEnd_keeps | apply State.runEngine_keeps | apply ite_keeps | apply foldl_keeps | apply foldl_keeps_snd) | split | simp only [Keeps.mk_iff] | dsimp only)

theorem State.showTesting_keeps {s : State} {e : Nat} (hk : Keeps σ s) : Keeps σ (State.showTesting s e) := by
  unfold State.showTesting
  try dsimp only
  repeat' (first | intro _ | with_reducible (first | assumption | apply State.put_keeps | apply ite_keeps | apply foldl_keeps | apply foldl_keeps_snd) | split | simp only [Keeps.mk_iff] | dsimp only)

theorem State.reloadInPlace_keeps {s : State} {e : Nat} {cause : Nat} (hk : Keeps σ s) : Keeps σ (State.reloadInPlace s e cause) := by
  unfold State.reloadInPlace
  try dsimp only
  repeat' (first | intro _ | with_reducible (first | assumption | apply State.tally_keeps | apply State.put_keeps | apply State.modEng_keeps | apply ite_keeps | apply foldl_keeps | apply foldl_keeps_snd) | split | simp only [Keeps.mk_iff] | dsimp only)

theorem State.closeAccounts_keeps {s : State} {windowClocks : Nat → Nat} (hk : Keeps σ s) : Keeps σ (State.closeAccounts s windowClocks) := by
  unfold State.closeAccounts
  try dsimp only
  repeat' (first | intro _ | with_reducible (first | assumption | apply State.each_keeps | apply State.put_keeps | apply State.bump_keeps | apply State.modEng_keeps | apply ite_keeps | apply foldl_keeps | apply foldl_keeps_snd) | split | simp only [Keeps.mk_iff] | dsimp only)

theorem State.useClocks_keeps {s : State} {e : Nat} {order : Nat} {clocks : Nat} (hk : Keeps σ s) : Keeps σ (State.useClocks s e order clocks) := by
  unfold State.useClocks
  try dsimp only
  repeat' (first | intro _ | with_reducible (first | assumption | apply State.modEng_keeps | apply ite_keeps | apply foldl_keeps | apply foldl_keeps_snd) | split | simp only [Keeps.mk_iff] | dsimp only)

theorem State.coverFault_keeps {s : State} {e : Nat} {again : Bool} (hk : Keeps σ s) : Keeps σ (State.coverFault s e again) := by
  unfold State.coverFault
  try dsimp only
  repeat' (first | intro _ | with_reducible (first | assumption | apply State.modEng_keeps | apply State.reloadInPlace_keeps | apply State.strWithdraw_keeps | apply State.endTesting_keeps | apply State.askSpare_keeps | apply ite_keeps | apply foldl_keeps | apply foldl_keeps_snd) | split | simp only [Keeps.mk_iff] | dsimp only)

theorem State.serveNext_keeps {s : State} {e : Nat} (hk : Keeps σ s) : Keeps σ (State.serveNext s e) := by
  unfold State.serveNext
  try dsimp only
  repeat' (first | intro _ | with_reducible (first | assumption | apply State.modEng_keeps | apply ite_keeps | apply foldl_keeps | apply foldl_keeps_snd) | split | simp only [Keeps.mk_iff] | dsimp only)

theorem State.returnItems_keeps {s : State} {e : Nat} (hk : Keeps σ s) : Keeps σ (State.returnItems s e) := by
  unfold State.returnItems
  try dsimp only
  repeat' (first | intro _ | with_reducible (first | assumption | apply State.tally_keeps | apply State.raise_keeps | apply State.add_keeps | apply State.serveNext_keeps | apply State.syncPar_keeps | apply State.syncEngine_keeps | apply ite_keeps | apply foldl_keeps | apply foldl_keeps_snd) | split | simp only [Keeps.mk_iff] | dsimp only)

theorem State.stopTest_keeps {s : State} {e : Nat} (hk : Keeps σ s) : Keeps σ (State.stopTest s e) := by
  unfold State.stopTest
  try dsimp only
  repeat' (first | intro _ | with_reducible (first | assumption | apply ite_keeps | apply foldl_keeps | apply foldl_keeps_snd) | split | simp only [Keeps.mk_iff] | dsimp only)

theorem State.leaveRole_keeps {s : State} {e : Nat} {again : Bool} (hk : Keeps σ s) : Keeps σ (State.leaveRole s e again) := by
  unfold State.leaveRole
  try dsimp only
  repeat' (first | intro _ | with_reducible (first | assumption | apply State.stopTest_keeps | apply State.modEng_keeps | apply State.pairFatal_keeps | apply State.detect_keeps | apply State.coverFault_keeps | apply State.put_keeps | apply ite_keeps | apply foldl_keeps | apply foldl_keeps_snd) | split | simp only [Keeps.mk_iff] | dsimp only)

theorem State.engineFault_keeps {s : State} {e : Nat} {code : Nat} (hk : Keeps σ s) : Keeps σ (State.engineFault s e code) := by
  unfold State.engineFault
  try dsimp only
  repeat' (first | intro _ | with_reducible (first | assumption | apply State.detect_keeps | apply State.voidReservations_keeps | apply State.returnItems_keeps | apply State.msi_keeps | apply State.raise_keeps | apply State.put_keeps | apply State.bump_keeps | apply State.tally_keeps | apply State.leaveRole_keeps | apply ite_keeps | apply foldl_keeps | apply foldl_keeps_snd) | split | simp only [Keeps.mk_iff] | dsimp only)

theorem State.modBg_keeps {s : State} {a : Nat} {f : Bg → Bg} (hk : Keeps σ s) : Keeps σ (State.modBg s a f) := by
  unfold State.modBg
  try dsimp only
  repeat' (first | intro _ | with_reducible (first | assumption | apply State.modSys_keeps | apply ite_keeps | apply foldl_keeps | apply foldl_keeps_snd) | split | simp only [Keeps.mk_iff] | dsimp only)

theorem State.overShare_keeps {s : State} {e : Nat} {order : Nat} (hk : Keeps σ s) : Keeps σ (State.overShare s e order) := by
  unfold State.overShare
  try dsimp only
  repeat' (first | intro _ | with_reducible (first | assumption | apply State.modEng_keeps | apply State.tally_keeps | apply State.bump_keeps | apply State.raise_keeps | apply ite_keeps | apply foldl_keeps | apply foldl_keeps_snd) | split | simp only [Keeps.mk_iff] | dsimp only)

theorem State.reloadStores_keeps {s : State} (hk : Keeps σ s) : Keeps σ (State.reloadStores s) := by
  unfold State.reloadStores
  try dsimp only
  repeat' (first | intro _ | with_reducible (first | assumption | apply State.each_keeps | apply State.loadStores_keeps | apply ite_keeps | apply foldl_keeps | apply foldl_keeps_snd) | split | simp only [Keeps.mk_iff] | dsimp only)

theorem State.serveAhead_keeps {s : State} {n : Nat} (hk : Keeps σ s) : Keeps σ (State.serveAhead s n) := by
  unfold State.serveAhead
  try dsimp only
  repeat' (first | intro _ | with_reducible (first | assumption | apply State.each_keeps | apply State.modBg_keeps | apply ite_keeps | apply foldl_keeps | apply foldl_keeps_snd) | split | simp only [Keeps.mk_iff] | dsimp only)

theorem State.takeBack_keeps {s : State} {e : Nat} {passed : Bool} (hk : Keeps σ s) : Keeps σ (State.takeBack s e passed) := by
  unfold State.takeBack
  try dsimp only
  repeat' (first | intro _ | with_reducible (first | assumption | apply ite_keeps | apply foldl_keeps | apply foldl_keeps_snd) | split | simp only [Keeps.mk_iff] | dsimp only)

theorem State.spareFaulty_keeps {s : State} {sp : Nat} (hk : Keeps σ s) : Keeps σ (State.spareFaulty s sp) := by
  unfold State.spareFaulty
  try dsimp only
  repeat' (first | intro _ | with_reducible (first | assumption | apply State.put_keeps | apply ite_keeps | apply foldl_keeps | apply foldl_keeps_snd) | split | simp only [Keeps.mk_iff] | dsimp only)

theorem State.standinBegin_keeps {s : State} {k : Nat} (hk : Keeps σ s) : Keeps σ (State.standinBegin s k) := by
  unfold State.standinBegin
  try dsimp only
  repeat' (first | intro _ | with_reducible (first | assumption | apply State.raise_keeps | apply State.put_keeps | apply State.runEngine_keeps | apply State.tally_keeps | apply State.showTesting_keeps | apply ite_keeps | apply foldl_keeps | apply foldl_keeps_snd) | split | simp only [Keeps.mk_iff] | dsimp only)

theorem State.standinStep_keeps {s : State} {k : Nat} (hk : Keeps σ s) : Keeps σ (State.standinStep s k) := by
  unfold State.standinStep
  try dsimp only
  repeat' (first | intro _ | with_reducible (first | assumption | apply State.standinEnd_keeps | apply State.standinBegin_keeps | apply State.each_keeps | apply State.backInService_keeps | apply ite_keeps | apply foldl_keeps | apply foldl_keeps_snd) | split | simp only [Keeps.mk_iff] | dsimp only)

end Sys2Proof.Machine
end

