-- ==== Sys2Proof/Laws/KeepLayerStore.lean ====
section
/-! SUPPORT. What the operations of Machine/LayerStore keep (Laws/Keep). -/
namespace Sys2Proof.Machine

variable {σ : State}

theorem State.writePicture_keeps {s : State} {base : Nat} {w : Nat} {h : Nat} {skim : Bool} {px : Nat → Nat → Px} (hk : Keeps σ s) : Keeps σ (State.writePicture s base w h skim px) := by
  unfold State.writePicture
  try dsimp only
  repeat' (first | intro _ | with_reducible (first | assumption | apply State.writeBulk_keeps | apply ite_keeps | apply foldl_keeps | apply foldl_keeps_snd) | split | simp only [Keeps.mk_iff] | dsimp only)

end Sys2Proof.Machine
end

