-- ==== Sys2Proof/Laws/KeepIngest.lean ====
section
/-! SUPPORT. What the operations of Machine/Ingest keep (Laws/Keep). -/
namespace Sys2Proof.Machine

variable {σ : State}

theorem State.modStream_keeps {s : State} {i : Nat} {f : Stream → Stream} (hk : Keeps σ s) : Keeps σ (State.modStream s i f) := by
  unfold State.modStream
  try dsimp only
  repeat' (first | intro _ | with_reducible (first | assumption | apply ite_keeps | apply foldl_keeps | apply foldl_keeps_snd) | split | simp only [Keeps.mk_iff] | dsimp only)

theorem State.sendReport_keeps {s : State} {port : Nat} {leave : Bool} {group : Nat} {source : Nat} (hk : Keeps σ s) : Keeps σ (State.sendReport s port leave group source) := by
  unfold State.sendReport
  try dsimp only
  repeat' (first | intro _ | with_reducible (first | assumption | apply State.each_keeps | apply State.sendIgmp_keeps | apply ite_keeps | apply foldl_keeps | apply foldl_keeps_snd) | split | simp only [Keeps.mk_iff] | dsimp only)

theorem State.changeReport_keeps {s : State} {port : Nat} {leave : Bool} {group : Nat} {source : Nat} (hk : Keeps σ s) : Keeps σ (State.changeReport s port leave group source) := by
  unfold State.changeReport
  try dsimp only
  repeat' (first | intro _ | with_reducible (first | assumption | apply State.sendReport_keeps | apply ite_keeps | apply foldl_keeps | apply foldl_keeps_snd) | split | simp only [Keeps.mk_iff] | dsimp only)

theorem State.joinStream_keeps {s : State} {c : Chan} (hk : Keeps σ s) : Keeps σ (State.joinStream s c) := by
  unfold State.joinStream
  try dsimp only
  repeat' (first | intro _ | with_reducible (first | assumption | apply State.each_keeps | apply State.joinMac_keeps | apply State.joinMac_keeps' (e := by assumption) | apply State.tally_keeps | apply State.raise_keeps | apply State.putFlag_keeps | apply State.changeReport_keeps | apply ite_keeps | apply foldl_keeps | apply foldl_keeps_snd) | split | simp only [Keeps.mk_iff] | dsimp only)

theorem State.leaveStream_keeps {s : State} {c : Chan} (hk : Keeps σ s) : Keeps σ (State.leaveStream s c) := by
  unfold State.leaveStream
  try dsimp only
  repeat' (first | intro _ | with_reducible (first | assumption | apply State.each_keeps | apply State.putFlag_keeps | apply State.leaveMac_keeps | apply State.changeReport_keeps | apply ite_keeps | apply foldl_keeps | apply foldl_keeps_snd) | split | simp only [Keeps.mk_iff] | dsimp only)

theorem State.writePixels_keeps {s : State} {c : Chan} {p : Picture} {keys : List Nat} (hk : Keeps σ s) : Keeps σ (State.writePixels s c p keys) := by
  unfold State.writePixels
  try dsimp only
  repeat' (first | intro _ | with_reducible (first | assumption | apply State.each_keeps | apply State.writeBulk_keeps | apply ite_keeps | apply foldl_keeps | apply foldl_keeps_snd) | split | simp only [Keeps.mk_iff] | dsimp only)

theorem State.streamResumed_keeps {s : State} {c : Chan} {i : Nat} (hk : Keeps σ s) : Keeps σ (State.streamResumed s c i) := by
  unfold State.streamResumed
  try dsimp only
  repeat' (first | intro _ | with_reducible (first | assumption | apply State.tally_keeps | apply State.raise_keeps | apply State.modStream_keeps | apply ite_keeps | apply foldl_keeps | apply foldl_keeps_snd) | split | simp only [Keeps.mk_iff] | dsimp only)

theorem State.pictureComplete_keeps {s : State} {c : Chan} {i : Nat} {p : Picture} (hk : Keeps σ s) : Keeps σ (State.pictureComplete s c i p) := by
  unfold State.pictureComplete
  try dsimp only
  repeat' (first | intro _ | with_reducible (first | assumption | apply State.writePicture_keeps | apply State.modStream_keeps | apply State.put64_keeps | apply State.bump_keeps | apply State.put_keeps | apply State.streamResumed_keeps | apply ite_keeps | apply foldl_keeps | apply foldl_keeps_snd) | split | simp only [Keeps.mk_iff] | dsimp only)

theorem State.addPacket_keeps {s : State} {c : Chan} {i : Nat} {p : RtpPacket} (hk : Keeps σ s) : Keeps σ (State.addPacket s c i p) := by
  unfold State.addPacket
  try dsimp only
  repeat' (first | intro _ | with_reducible (first | assumption | apply State.modStream_keeps | apply State.writePixels_keeps | apply State.pictureComplete_keeps | apply ite_keeps | apply foldl_keeps | apply foldl_keeps_snd) | split | simp only [Keeps.mk_iff] | dsimp only)

theorem State.jobResult_keeps {s : State} {handle : Nat} {slot : Nat} {status : Nat} {check : Nat} (hk : Keeps σ s) : Keeps σ (State.jobResult s handle slot status check) := by
  unfold State.jobResult
  try dsimp only
  repeat' (first | intro _ | with_reducible (first | assumption | apply State.tally_keeps | apply State.raise_keeps | apply State.advance_keeps | apply State.put_keeps | apply ite_keeps | apply foldl_keeps | apply foldl_keeps_snd) | split | simp only [Keeps.mk_iff] | dsimp only)

theorem doJobSubmit_keeps {s : State} {value : Nat} (hk : Keeps σ s) : Keeps σ (doJobSubmit value s) := by
  unfold doJobSubmit
  try dsimp only
  repeat' (first | intro _ | with_reducible (first | assumption | apply State.modStream_keeps | apply State.gateEngines_keeps | apply State.put_keeps | apply State.jobResult_keeps | apply ite_keeps | apply foldl_keeps | apply foldl_keeps_snd) | split | simp only [Keeps.mk_iff] | dsimp only)

theorem State.formatDiscard_keeps {s : State} {c : Chan} {i : Nat} {rule : Nat} (hk : Keeps σ s) : Keeps σ (State.formatDiscard s c i rule) := by
  unfold State.formatDiscard
  try dsimp only
  repeat' (first | intro _ | with_reducible (first | assumption | apply State.modStream_keeps | apply State.bump_keeps | apply State.tallyLimited_keeps | apply State.raise_keeps | apply ite_keeps | apply foldl_keeps | apply foldl_keeps_snd) | split | simp only [Keeps.mk_iff] | dsimp only)

theorem State.openOlder_keeps {s : State} {c : Chan} {i : Nat} {p : RtpPacket} (hk : Keeps σ s) : Keeps σ (State.openOlder s c i p) := by
  unfold State.openOlder
  try dsimp only
  repeat' (first | intro _ | with_reducible (first | assumption | apply State.modStream_keeps | apply ite_keeps | apply foldl_keeps | apply foldl_keeps_snd) | split | simp only [Keeps.mk_iff] | dsimp only)

theorem State.picturePartial_keeps {s : State} {c : Chan} {i : Nat} {p : Picture} (hk : Keeps σ s) : Keeps σ (State.picturePartial s c i p) := by
  unfold State.picturePartial
  try dsimp only
  repeat' (first | intro _ | with_reducible (first | assumption | apply State.modStream_keeps | apply State.tallyLimited_keeps | apply State.raise_keeps | apply State.bump_keeps | apply ite_keeps | apply foldl_keeps | apply foldl_keeps_snd) | split | simp only [Keeps.mk_iff] | dsimp only)

theorem State.openPicture_keeps {s : State} {c : Chan} {i : Nat} {p : RtpPacket} (hk : Keeps σ s) : Keeps σ (State.openPicture s c i p) := by
  unfold State.openPicture
  try dsimp only
  repeat' (first | intro _ | with_reducible (first | assumption | apply State.add_keeps | apply State.modStream_keeps | apply State.each_keeps | apply State.picturePartial_keeps | apply ite_keeps | apply foldl_keeps | apply foldl_keeps_snd) | split | simp only [Keeps.mk_iff] | dsimp only)

theorem State.pathHeard_keeps {s : State} {i : Nat} {b : Bool} {bytes : Nat} (hk : Keeps σ s) : Keeps σ (State.pathHeard s i b bytes) := by
  unfold State.pathHeard
  try dsimp only
  repeat' (first | intro _ | with_reducible (first | assumption | apply State.modStream_keeps | apply State.rollRx_keeps | apply State.putFlag_keeps | apply ite_keeps | apply foldl_keeps | apply foldl_keeps_snd) | split | simp only [Keeps.mk_iff] | dsimp only)

theorem doIgmpQuery_keeps {s : State} {port : Nat} {version : Nat} {group : Nat} (hk : Keeps σ s) : Keeps σ (doIgmpQuery port version group s) := by
  unfold doIgmpQuery
  try dsimp only
  repeat' (first | intro _ | with_reducible (first | assumption | apply State.sendReport_keeps | apply State.each_keeps | apply ite_keeps | apply foldl_keeps | apply foldl_keeps_snd) | split | simp only [Keeps.mk_iff] | dsimp only)

theorem doJobDone_keeps {s : State} (hk : Keeps σ s) : Keeps σ (doJobDone s) := by
  unfold doJobDone
  try dsimp only
  repeat' (first | intro _ | with_reducible (first | assumption | apply State.gateEngines_keeps | apply State.put_keeps | apply State.writePicture_keeps | apply State.jobResult_keeps | apply State.modStream_keeps | apply State.raise_keeps | apply State.bump_keeps | apply ite_keeps | apply foldl_keeps | apply foldl_keeps_snd) | split | simp only [Keeps.mk_iff] | dsimp only)

theorem doPacketReceive_keeps {s : State} {i : Nat} {b : Bool} {p : RtpPacket} (hk : Keeps σ s) : Keeps σ (doPacketReceive i b p s) := by
  unfold doPacketReceive
  try dsimp only
  repeat' (first | intro _ | with_reducible (first | assumption | apply State.bump_keeps | apply State.formatDiscard_keeps | apply State.pathHeard_keeps | apply State.addPacket_keeps | apply State.openPicture_keeps | apply State.openOlder_keeps | apply ite_keeps | apply foldl_keeps | apply foldl_keeps_snd) | split | simp only [Keeps.mk_iff] | dsimp only)

theorem doPathLost_keeps {s : State} {i : Nat} {b : Bool} (hk : Keeps σ s) : Keeps σ (doPathLost i b s) := by
  unfold doPathLost
  try dsimp only
  repeat' (first | intro _ | with_reducible (first | assumption | apply State.atUptime_keeps | apply State.putFlag_keeps | apply State.tally_keeps | apply State.raise_keeps | apply ite_keeps | apply foldl_keeps | apply foldl_keeps_snd) | split | simp only [Keeps.mk_iff] | dsimp only)

theorem doPicturePartialTimeout_keeps {s : State} {i : Nat} (hk : Keeps σ s) : Keeps σ (doPicturePartialTimeout i s) := by
  unfold doPicturePartialTimeout
  try dsimp only
  repeat' (first | intro _ | with_reducible (first | assumption | apply State.picturePartial_keeps | apply State.atUptime_keeps | apply ite_keeps | apply foldl_keeps | apply foldl_keeps_snd) | split | simp only [Keeps.mk_iff] | dsimp only)

theorem doStreamNoSignal_keeps {s : State} {i : Nat} (hk : Keeps σ s) : Keeps σ (doStreamNoSignal i s) := by
  unfold doStreamNoSignal
  try dsimp only
  repeat' (first | intro _ | with_reducible (first | assumption | apply State.atUptime_keeps | apply State.put_keeps | apply State.modStream_keeps | apply State.putFlag_keeps | apply State.tally_keeps | apply State.raise_keeps | apply ite_keeps | apply foldl_keeps | apply foldl_keeps_snd) | split | simp only [Keeps.mk_iff] | dsimp only)

end Sys2Proof.Machine
end

