-- ==== Sys2Proof/Laws/KeepChannels.lean ====
section
/-! SUPPORT. What the operations of Machine/Channels keep (Laws/Keep). -/
namespace Sys2Proof.Machine

variable {σ : State}

theorem State.markHeads_keeps {s : State} (hk : Keeps σ s) : Keeps σ (State.markHeads s) := by
  unfold State.markHeads
  try dsimp only
  repeat' (first | intro _ | with_reducible (first | assumption | apply ite_keeps | apply foldl_keeps | apply foldl_keeps_snd) | split | simp only [Keeps.mk_iff] | dsimp only)

theorem State.refreshRoutes_keeps {s : State} (hk : Keeps σ s) : Keeps σ (State.refreshRoutes s) := by
  unfold State.refreshRoutes
  try dsimp only
  repeat' (first | intro _ | with_reducible (first | assumption | apply ite_keeps | apply foldl_keeps | apply foldl_keeps_snd) | split | simp only [Keeps.mk_iff] | dsimp only)

theorem State.takeItem_keeps {s : State} {pail : Nat} (hk : Keeps σ s) : Keeps σ (State.takeItem s pail) := by
  unfold State.takeItem
  try dsimp only
  repeat' (first | intro _ | with_reducible (first | assumption | apply State.refreshRoutes_keeps | apply State.syncPail_keeps | apply State.modPail_keeps | apply State.rdAdvance_keeps | apply ite_keeps | apply foldl_keeps | apply foldl_keeps_snd) | split | simp only [Keeps.mk_iff] | dsimp only)

theorem State.takeFlight_keeps {s : State} {pail : Nat} {cpail : Nat} {d : Desc} (hk : Keeps σ s) : Keeps σ (State.takeFlight s pail cpail d).2 := by
  unfold State.takeFlight
  try dsimp only
  repeat' (first | intro _ | with_reducible (first | assumption | apply ite_keeps | apply foldl_keeps | apply foldl_keeps_snd) | split | simp only [Keeps.mk_iff] | dsimp only)
theorem State.takeFlight_keeps' {s : State} {pail : Nat} {cpail : Nat} {d : Desc} (hk : Keeps σ s) {a t} (e : State.takeFlight s pail cpail d = (a, t)) : Keeps σ t := by
  have k := congrArg (fun q => Keeps σ q.2) e
  exact k ▸ State.takeFlight_keeps hk

theorem State.toReset_keeps {s : State} {f : Field} {i : Nat} (hk : Keeps σ s) : Keeps σ (State.toReset s f i) := by
  unfold State.toReset
  try dsimp only
  repeat' (first | intro _ | with_reducible (first | assumption | apply State.setReg_keeps | apply ite_keeps | apply foldl_keeps | apply foldl_keeps_snd) | split | simp only [Keeps.mk_iff] | dsimp only)

theorem State.setCue_keeps {s : State} {i : Nat} {es : List SetEntry} (hk : Keeps σ s) : Keeps σ (State.setCue s i es) := by
  unfold State.setCue
  try dsimp only
  repeat' (first | intro _ | with_reducible (first | assumption | apply ite_keeps | apply foldl_keeps | apply foldl_keeps_snd) | split | simp only [Keeps.mk_iff] | dsimp only)

theorem State.freshChannel_keeps {s : State} {kind : Nat} {i : Nat} (hk : Keeps σ s) : Keeps σ (State.freshChannel s kind i) := by
  unfold State.freshChannel
  try dsimp only
  repeat' (first | intro _ | with_reducible (first | assumption | apply State.each_keeps | apply State.toReset_keeps | apply State.modStream_keeps | apply State.put_keeps | apply State.setGovEp_keeps | apply State.setGovFeed_keeps | apply State.setCue_keeps | apply ite_keeps | apply foldl_keeps | apply foldl_keeps_snd) | split | simp only [Keeps.mk_iff] | dsimp only)

theorem State.newChannel_keeps {s : State} {kind : Nat} {i : Nat} (hk : Keeps σ s) : Keeps σ (State.newChannel s kind i).2 := by
  unfold State.newChannel
  try dsimp only
  repeat' (first | intro _ | with_reducible (first | assumption | apply State.freshChannel_keeps | apply ite_keeps | apply foldl_keeps | apply foldl_keeps_snd) | split | simp only [Keeps.mk_iff] | dsimp only)
theorem State.newChannel_keeps' {s : State} {kind : Nat} {i : Nat} (hk : Keeps σ s) {a t} (e : State.newChannel s kind i = (a, t)) : Keeps σ t := by
  have k := congrArg (fun q => Keeps σ q.2) e
  exact k ▸ State.newChannel_keeps hk

theorem State.defer_keeps {s : State} {id : Nat} {k : Nat} {d : Desc} {act : DeferredAct} (hk : Keeps σ s) : Keeps σ (State.defer s id k d act) := by
  unfold State.defer
  try dsimp only
  repeat' (first | intro _ | with_reducible (first | assumption | apply ite_keeps | apply foldl_keeps | apply foldl_keeps_snd) | split | simp only [Keeps.mk_iff] | dsimp only)

theorem State.setEntries_keeps {s : State} {n : Nat} {es : List SetEntry} (hk : Keeps σ s) : Keeps σ (State.setEntries s n es) := by
  unfold State.setEntries
  try dsimp only
  repeat' (first | intro _ | with_reducible (first | assumption | apply State.modSet_keeps | apply ite_keeps | apply foldl_keeps | apply foldl_keeps_snd) | split | simp only [Keeps.mk_iff] | dsimp only)

theorem State.carryOut_keeps {s : State} {id : Nat} {d : Desc} (hk : Keeps σ s) : Keeps σ (State.carryOut s id d) := by
  unfold State.carryOut
  try dsimp only
  repeat' (first | intro _ | with_reducible (first | assumption | apply State.complete_keeps | apply State.newChannel_keeps | apply State.newChannel_keeps' (e := by assumption) | apply State.defer_keeps | apply State.modChan_keeps | apply State.setEntries_keeps | apply State.applyEntry_keeps | apply State.calAccepted_keeps | apply State.noteInput_keeps | apply State.modSet_keeps | apply State.copyLists_keeps | apply State.timeoutOne_keeps | apply State.setCue_keeps | apply ite_keeps | apply foldl_keeps | apply foldl_keeps_snd) | split | simp only [Keeps.mk_iff] | dsimp only)

theorem State.actOn_keeps {s : State} {mirror : Bool} {found : Bool} {id : Nat} {d : Desc} (hk : Keeps σ s) : Keeps σ (State.actOn s mirror found id d) := by
  unfold State.actOn
  try dsimp only
  repeat' (first | intro _ | with_reducible (first | assumption | apply State.complete_keeps | apply State.carryOut_keeps | apply ite_keeps | apply foldl_keeps | apply foldl_keeps_snd) | split | simp only [Keeps.mk_iff] | dsimp only)

theorem State.keepLateCommand_keeps {s : State} {at_ : Nat × Nat} {d : Desc} (hk : Keeps σ s) : Keeps σ (State.keepLateCommand s at_ d) := by
  unfold State.keepLateCommand
  try dsimp only
  repeat' (first | intro _ | with_reducible (first | assumption | apply State.keepLate_keeps | apply ite_keeps | apply foldl_keeps | apply foldl_keeps_snd) | split | simp only [Keeps.mk_iff] | dsimp only)

theorem State.logCommand_keeps {s : State} {id : Nat} {pail : Nat} {mseq : Nat} {d : Desc} (hk : Keeps σ s) : Keeps σ (State.logCommand s id pail mseq d) := by
  unfold State.logCommand
  try dsimp only
  repeat' (first | intro _ | with_reducible (first | assumption | apply State.put_keeps | apply ite_keeps | apply foldl_keeps | apply foldl_keeps_snd) | split | simp only [Keeps.mk_iff] | dsimp only)

theorem State.begin_keeps {s : State} {pail : Nat} {cpail : Nat} {found : Bool} {d : Desc} (hk : Keeps σ s) : Keeps σ (State.begin s pail cpail found d) := by
  unfold State.begin
  try dsimp only
  repeat' (first | intro _ | with_reducible (first | assumption | apply State.takeFlight_keeps | apply State.takeFlight_keeps' (e := by assumption) | apply State.complete_keeps | apply State.sendMirrorAt_keeps | apply State.actOn_keeps | apply State.keepLateCommand_keeps | apply State.logCommand_keeps | apply ite_keeps | apply foldl_keeps | apply foldl_keeps_snd) | split | simp only [Keeps.mk_iff] | dsimp only)

theorem State.runHeldGo_keeps {s0 : State} {x1 : Nat} (hk : Keeps σ s0) : Keeps σ (State.runHeldGo s0 x1) := by
  induction x1 generalizing s0 with
  | zero => exact hk
  | succ n ih =>
    unfold State.runHeldGo
    try dsimp only
    repeat' (first | intro _ | with_reducible (first | assumption | apply ih | apply State.markHeads_keeps | apply State.takeItem_keeps | apply State.settle_keeps | apply State.begin_keeps | apply ite_keeps | apply foldl_keeps | apply foldl_keeps_snd) | split | simp only [Keeps.mk_iff] | dsimp only)

theorem State.pump_keeps {s : State} (hk : Keeps σ s) : Keeps σ (State.pump s) := by
  unfold State.pump
  try dsimp only
  repeat' (first | intro _ | with_reducible (first | assumption | apply State.settle_keeps | apply State.syncCmd_keeps | apply State.runHeldGo_keeps | apply ite_keeps | apply foldl_keeps | apply foldl_keeps_snd) | split | simp only [Keeps.mk_iff] | dsimp only)

theorem State.acceptAwaiting_keeps {s : State} {mseq : Nat} (hk : Keeps σ s) : Keeps σ (State.acceptAwaiting s mseq) := by
  unfold State.acceptAwaiting
  try dsimp only
  repeat' (first | intro _ | with_reducible (first | assumption | apply State.pump_keeps | apply State.actOn_keeps | apply State.keepLateCommand_keeps | apply State.logCommand_keeps | apply ite_keeps | apply foldl_keeps | apply foldl_keeps_snd) | split | simp only [Keeps.mk_iff] | dsimp only)

theorem State.startStream_keeps {s : State} {c : Chan} (hk : Keeps σ s) : Keeps σ (State.startStream s c) := by
  unfold State.startStream
  try dsimp only
  repeat' (first | intro _ | with_reducible (first | assumption | apply State.modStream_keeps | apply State.put_keeps | apply State.joinStream_keeps | apply ite_keeps | apply foldl_keeps | apply foldl_keeps_snd) | split | simp only [Keeps.mk_iff] | dsimp only)

theorem State.stopStream_keeps {s : State} {c : Chan} (hk : Keeps σ s) : Keeps σ (State.stopStream s c) := by
  unfold State.stopStream
  try dsimp only
  repeat' (first | intro _ | with_reducible (first | assumption | apply State.leaveStream_keeps | apply State.put_keeps | apply State.modStream_keeps | apply State.putFlag_keeps | apply ite_keeps | apply foldl_keeps | apply foldl_keeps_snd) | split | simp only [Keeps.mk_iff] | dsimp only)

theorem State.runChanged_keeps {s : State} {old : Chan} {new : Chan} {n : Nat} (hk : Keeps σ s) : Keeps σ (State.runChanged s old new n) := by
  unfold State.runChanged
  try dsimp only
  repeat' (first | intro _ | with_reducible (first | assumption | apply State.startStream_keeps | apply State.stopStream_keeps | apply State.terminateUniverse_keeps | apply ite_keeps | apply foldl_keeps | apply foldl_keeps_snd) | split | simp only [Keeps.mk_iff] | dsimp only)

theorem State.takeEffect_keeps {s : State} {es : List SetEntry} {n : Nat} (hk : Keeps σ s) : Keeps σ (State.takeEffect s es n) := by
  unfold State.takeEffect
  try dsimp only
  repeat' (first | intro _ | with_reducible (first | assumption | apply State.applyEntries_keeps | apply State.each_keeps | apply State.runChanged_keeps | apply State.noteInput_keeps | apply State.modStream_keeps | apply State.calAccepted_keeps | apply ite_keeps | apply foldl_keeps | apply foldl_keeps_snd) | split | simp only [Keeps.mk_iff] | dsimp only)

theorem State.actCommit_keeps {s : State} {d : Deferred} {n : Nat} (hk : Keeps σ s) : Keeps σ (State.actCommit s d n) := by
  unfold State.actCommit
  try dsimp only
  repeat' (first | intro _ | with_reducible (first | assumption | apply State.applyEntries_keeps | apply State.copyLists_keeps | apply State.unlockSet_keeps | apply State.takeEffect_keeps | apply State.complete_keeps | apply State.tally_keeps | apply State.bump_keeps | apply State.msi_keeps | apply State.raise_keeps | apply ite_keeps | apply foldl_keeps | apply foldl_keeps_snd) | split | simp only [Keeps.mk_iff] | dsimp only)

theorem State.nullRefs_keeps {s : State} {h : Nat} (hk : Keeps σ s) : Keeps σ (State.nullRefs s h) := by
  unfold State.nullRefs
  try dsimp only
  repeat' (first | intro _ | with_reducible (first | assumption | apply State.each_keeps | apply State.tally_keeps | apply State.raise_keeps | apply State.modChan_keeps | apply ite_keeps | apply foldl_keeps | apply foldl_keeps_snd) | split | simp only [Keeps.mk_iff] | dsimp only)

theorem State.actDestroy_keeps {s : State} {h : Nat} {force : Bool} {n : Nat} (hk : Keeps σ s) : Keeps σ (State.actDestroy s h force n) := by
  unfold State.actDestroy
  try dsimp only
  repeat' (first | intro _ | with_reducible (first | assumption | apply State.noteInput_keeps | apply State.modChan_keeps | apply State.nullRefs_keeps | apply State.stopStream_keeps | apply State.dropFixture_keeps | apply State.terminateUniverse_keeps | apply State.setCue_keeps | apply ite_keeps | apply foldl_keeps | apply foldl_keeps_snd) | split | simp only [Keeps.mk_iff] | dsimp only)

theorem State.actOne_keeps {s : State} {d : Deferred} {n : Nat} (hk : Keeps σ s) : Keeps σ (State.actOne s d n) := by
  unfold State.actOne
  try dsimp only
  repeat' (first | intro _ | with_reducible (first | assumption | apply State.complete_keeps | apply State.actDestroy_keeps | apply State.actCommit_keeps | apply ite_keeps | apply foldl_keeps | apply foldl_keeps_snd) | split | simp only [Keeps.mk_iff] | dsimp only)

theorem State.actDeferred_keeps {s : State} {n : Nat} (hk : Keeps σ s) : Keeps σ (State.actDeferred s n) := by
  unfold State.actDeferred
  try dsimp only
  repeat' (first | intro _ | with_reducible (first | assumption | apply State.pump_keeps | apply State.each_keeps | apply State.actOne_keeps | apply ite_keeps | apply foldl_keeps | apply foldl_keeps_snd) | split | simp only [Keeps.mk_iff] | dsimp only)

theorem State.followLate_keeps {s : State} {frame : Nat} {band : Nat} (hk : Keeps σ s) : Keeps σ (State.followLate s frame band) := by
  unfold State.followLate
  try dsimp only
  repeat' (first | intro _ | with_reducible (first | assumption | apply ite_keeps | apply foldl_keeps | apply foldl_keeps_snd) | split | simp only [Keeps.mk_iff] | dsimp only)

theorem State.applyMirroredCommand_keeps {s0 : State} {pail : Nat} {mseq : Nat} {frame : Nat} {band : Nat} {d : Desc} {result : Nat} (hk : Keeps σ s0) : Keeps σ (State.applyMirroredCommand s0 pail mseq frame band d result).2 := by
  unfold State.applyMirroredCommand
  try dsimp only
  repeat' (first | intro _ | with_reducible (first | assumption | apply State.keepLateCommand_keeps | apply State.followLate_keeps | apply State.takeFlight_keeps | apply State.takeFlight_keeps' (e := by assumption) | apply State.pump_keeps | apply State.actOn_keeps | apply State.logCommand_keeps | apply ite_keeps | apply foldl_keeps | apply foldl_keeps_snd) | split | simp only [Keeps.mk_iff] | dsimp only)
theorem State.applyMirroredCommand_keeps' {s0 : State} {pail : Nat} {mseq : Nat} {frame : Nat} {band : Nat} {d : Desc} {result : Nat} (hk : Keeps σ s0) {a t} (e : State.applyMirroredCommand s0 pail mseq frame band d result = (a, t)) : Keeps σ t := by
  have k := congrArg (fun q => Keeps σ q.2) e
  exact k ▸ State.applyMirroredCommand_keeps hk

theorem State.noteUnrouted_keeps {s : State} {pail : Nat} (hk : Keeps σ s) : Keeps σ (State.noteUnrouted s pail) := by
  unfold State.noteUnrouted
  try dsimp only
  repeat' (first | intro _ | with_reducible (first | assumption | apply State.tally_keeps | apply State.raise_keeps | apply ite_keeps | apply foldl_keeps | apply foldl_keeps_snd) | split | simp only [Keeps.mk_iff] | dsimp only)

theorem State.command_keeps {s0 : State} {pail : Nat} {d0 : Desc} (hk : Keeps σ s0) : Keeps σ (State.command s0 pail d0) := by
  unfold State.command
  try dsimp only
  repeat' (first | intro _ | with_reducible (first | assumption | apply State.detected_keeps | apply State.pailRead_keeps | apply State.pailRead_keeps' (e := by assumption) | apply State.noteUnrouted_keeps | apply State.pump_keeps | apply State.begin_keeps | apply State.takeItem_keeps | apply ite_keeps | apply foldl_keeps | apply foldl_keeps_snd) | split | simp only [Keeps.mk_iff] | dsimp only)

theorem doChDrained_keeps {s : State} {kind : Nat} {index : Nat} (hk : Keeps σ s) : Keeps σ (doChDrained kind index s) := by
  unfold doChDrained
  try dsimp only
  repeat' (first | intro _ | with_reducible (first | assumption | apply State.syncCmd_keeps | apply State.tally_keeps | apply ite_keeps | apply foldl_keeps | apply foldl_keeps_snd) | split | simp only [Keeps.mk_iff] | dsimp only)

end Sys2Proof.Machine
end

