-- ==== Sys2Proof/Laws/KeepDvlOps.lean ====
section
/-! SUPPORT. What the operations of Machine/DvlOps keep (Laws/Keep). -/
namespace Sys2Proof.Machine

variable {σ : State}

theorem State.advanceSeq_keeps {s : State} {n : Nat} (hk : Keeps σ s) : Keeps σ (State.advanceSeq s n) := by
  unfold State.advanceSeq
  try dsimp only
  repeat' (first | intro _ | with_reducible (first | assumption | apply State.put_keeps | apply ite_keeps | apply foldl_keeps | apply foldl_keeps_snd) | split | simp only [Keeps.mk_iff] | dsimp only)

theorem State.showEndpoint_keeps {s : State} {chans : List Chan} {c : Chan} (hk : Keeps σ s) : Keeps σ (State.showEndpoint s chans c) := by
  unfold State.showEndpoint
  try dsimp only
  repeat' (first | intro _ | with_reducible (first | assumption | apply State.put_keeps | apply State.noteInput_keeps | apply State.tally_keeps | apply State.raise_keeps | apply ite_keeps | apply foldl_keeps | apply foldl_keeps_snd) | split | simp only [Keeps.mk_iff] | dsimp only)

theorem State.writeDisc_keeps {s : State} {j : Joined} {st : Nat} {handle : Nat} (hk : Keeps σ s) : Keeps σ (State.writeDisc s j st handle) := by
  unfold State.writeDisc
  try dsimp only
  repeat' (first | intro _ | with_reducible (first | assumption | apply State.writeBulk_keeps | apply ite_keeps | apply foldl_keeps | apply foldl_keeps_snd) | split | simp only [Keeps.mk_iff] | dsimp only)

theorem State.showDisc_keeps {s : State} {chans : List Chan} {j : Joined} (hk : Keeps σ s) : Keeps σ (State.showDisc s chans j) := by
  unfold State.showDisc
  try dsimp only
  repeat' (first | intro _ | with_reducible (first | assumption | apply State.writeDisc_keeps | apply ite_keeps | apply foldl_keeps | apply foldl_keeps_snd) | split | simp only [Keeps.mk_iff] | dsimp only)

theorem State.modRing_keeps {s : State} {r : Nat} {f : RingSt → RingSt} (hk : Keeps σ s) : Keeps σ (State.modRing s r f) := by
  unfold State.modRing
  try dsimp only
  repeat' (first | intro _ | with_reducible (first | assumption | apply ite_keeps | apply foldl_keeps | apply foldl_keeps_snd) | split | simp only [Keeps.mk_iff] | dsimp only)

theorem State.showReach_keeps {s : State} {chans : List Chan} {r : Nat} (hk : Keeps σ s) : Keeps σ (State.showReach s chans r) := by
  unfold State.showReach
  try dsimp only
  repeat' (first | intro _ | with_reducible (first | assumption | apply State.put_keeps | apply State.tally_keeps | apply State.raise_keeps | apply State.putFlag_keeps | apply State.modRing_keeps | apply ite_keeps | apply foldl_keeps | apply foldl_keeps_snd) | split | simp only [Keeps.mk_iff] | dsimp only)

theorem State.showRing_keeps {s : State} {chans : List Chan} {r : Nat} (hk : Keeps σ s) : Keeps σ (State.showRing s chans r) := by
  unfold State.showRing
  try dsimp only
  repeat' (first | intro _ | with_reducible (first | assumption | apply State.putFlag_keeps | apply State.put_keeps | apply ite_keeps | apply foldl_keeps | apply foldl_keeps_snd) | split | simp only [Keeps.mk_iff] | dsimp only)

theorem State.refreshDvl_keeps {s : State} (hk : Keeps σ s) : Keeps σ (State.refreshDvl s) := by
  unfold State.refreshDvl
  try dsimp only
  repeat' (first | intro _ | with_reducible (first | assumption | apply State.each_keeps | apply State.showEndpoint_keeps | apply State.showDisc_keeps | apply State.showReach_keeps | apply State.showRing_keeps | apply State.putFlag_keeps | apply State.put_keeps | apply ite_keeps | apply foldl_keeps | apply foldl_keeps_snd) | split | simp only [Keeps.mk_iff] | dsimp only)

theorem State.ringSend_keeps {s : State} {c : Chan} {odd : Bool} {kind : Nat} {step : Bool} {addr : Nat} {epoch : Nat} {seq : Nat} {body : List Nat} {part : Option TxPart} (hk : Keeps σ s) : Keeps σ (State.ringSend s c odd kind step addr epoch seq body part).1 := by
  unfold State.ringSend
  try dsimp only
  repeat' (first | intro _ | with_reducible (first | assumption | apply State.txSend_keeps | apply State.txSend_keeps' (e := by assumption) | apply ite_keeps | apply foldl_keeps | apply foldl_keeps_snd) | split | simp only [Keeps.mk_iff] | dsimp only)
theorem State.ringSend_keeps' {s : State} {c : Chan} {odd : Bool} {kind : Nat} {step : Bool} {addr : Nat} {epoch : Nat} {seq : Nat} {body : List Nat} {part : Option TxPart} (hk : Keeps σ s) {t b} (e : State.ringSend s c odd kind step addr epoch seq body part = (t, b)) : Keeps σ t := by
  have k := congrArg (fun q => Keeps σ q.1) e
  exact k ▸ State.ringSend_keeps hk

theorem State.sendRingPort_keeps {s : State} {c : Chan} {odd : Bool} {kind : Nat} {step : Bool} {addr : Nat} {epoch : Nat} {seq : Nat} {body : List Nat} (hk : Keeps σ s) : Keeps σ (State.sendRingPort s c odd kind step addr epoch seq body) := by
  unfold State.sendRingPort
  try dsimp only
  repeat' (first | intro _ | with_reducible (first | assumption | apply State.ringSend_keeps | apply State.ringSend_keeps' (e := by assumption) | apply ite_keeps | apply foldl_keeps | apply foldl_keeps_snd) | split | simp only [Keeps.mk_iff] | dsimp only)

theorem State.sendRing_keeps {s : State} {c : Chan} {kind : Nat} {step : Bool} {addr : Nat} {seq : Nat} {body : List Nat} (hk : Keeps σ s) : Keeps σ (State.sendRing s c kind step addr seq body) := by
  unfold State.sendRing
  try dsimp only
  repeat' (first | intro _ | with_reducible (first | assumption | apply State.sendRingPort_keeps | apply ite_keeps | apply foldl_keeps | apply foldl_keeps_snd) | split | simp only [Keeps.mk_iff] | dsimp only)

theorem State.sendControl_keeps {s : State} {c : Chan} {addr : Nat} {seq : Nat} {op : Nat} {ptime : Nat} {fields : List Nat} (hk : Keeps σ s) : Keeps σ (State.sendControl s c addr seq op ptime fields) := by
  unfold State.sendControl
  try dsimp only
  repeat' (first | intro _ | with_reducible (first | assumption | apply State.sendRing_keeps | apply ite_keeps | apply foldl_keeps | apply foldl_keeps_snd) | split | simp only [Keeps.mk_iff] | dsimp only)

theorem State.sendTime_keeps {s : State} {c : Chan} {step : Bool} (hk : Keeps σ s) : Keeps σ (State.sendTime s c step) := by
  unfold State.sendTime
  try dsimp only
  repeat' (first | intro _ | with_reducible (first | assumption | apply State.sendRing_keeps | apply ite_keeps | apply foldl_keeps | apply foldl_keeps_snd) | split | simp only [Keeps.mk_iff] | dsimp only)

theorem State.modJoined_keeps {s : State} {ring : Nat} {pos : Nat} {f : Joined → Joined} (hk : Keeps σ s) : Keeps σ (State.modJoined s ring pos f) := by
  unfold State.modJoined
  try dsimp only
  repeat' (first | intro _ | with_reducible (first | assumption | apply ite_keeps | apply foldl_keeps | apply foldl_keeps_snd) | split | simp only [Keeps.mk_iff] | dsimp only)

theorem State.sendSteps_keeps {s : State} (hk : Keeps σ s) : Keeps σ (State.sendSteps s) := by
  unfold State.sendSteps
  try dsimp only
  repeat' (first | intro _ | with_reducible (first | assumption | apply State.each_keeps | apply State.sendTime_keeps | apply ite_keeps | apply foldl_keeps | apply foldl_keeps_snd) | split | simp only [Keeps.mk_iff] | dsimp only)

theorem State.sendHold_keeps {s : State} {c : Chan} {seq : Nat} {cause : Nat} (hk : Keeps σ s) : Keeps σ (State.sendHold s c seq cause) := by
  unfold State.sendHold
  try dsimp only
  repeat' (first | intro _ | with_reducible (first | assumption | apply State.sendRing_keeps | apply ite_keeps | apply foldl_keeps | apply foldl_keeps_snd) | split | simp only [Keeps.mk_iff] | dsimp only)

theorem State.sendHoldNotices_keeps {s : State} {seq : Nat} (hk : Keeps σ s) : Keeps σ (State.sendHoldNotices s seq) := by
  unfold State.sendHoldNotices
  try dsimp only
  repeat' (first | intro _ | with_reducible (first | assumption | apply State.each_keeps | apply State.sendControl_keeps | apply ite_keeps | apply foldl_keeps | apply foldl_keeps_snd) | split | simp only [Keeps.mk_iff] | dsimp only)

theorem State.sendPart_keeps {s : State} {c : Chan} {addr : Nat} {seq : Nat} {body : List Nat} {p : TxPart} (hk : Keeps σ s) : Keeps σ (State.sendPart s c addr seq body p).1 := by
  unfold State.sendPart
  try dsimp only
  repeat' (first | intro _ | with_reducible (first | assumption | apply State.ringSend_keeps | apply State.ringSend_keeps' (e := by assumption) | apply State.markTwin_keeps | apply ite_keeps | apply foldl_keeps | apply foldl_keeps_snd) | split | simp only [Keeps.mk_iff] | dsimp only)
theorem State.sendPart_keeps' {s : State} {c : Chan} {addr : Nat} {seq : Nat} {body : List Nat} {p : TxPart} (hk : Keeps σ s) {t b} (e : State.sendPart s c addr seq body p = (t, b)) : Keeps σ t := by
  have k := congrArg (fun q => Keeps σ q.1) e
  exact k ▸ State.sendPart_keeps hk

end Sys2Proof.Machine
end

