-- ==== Sys2Proof/Laws/KeepClock.lean ====
section
/-! SUPPORT. What the operations of Machine/Clock keep (Laws/Keep). -/
namespace Sys2Proof.Machine

variable {σ : State}

theorem State.refreshPtp_keeps {s : State} (hk : Keeps σ s) : Keeps σ (State.refreshPtp s) := by
  unfold State.refreshPtp
  try dsimp only
  repeat' (first | intro _ | with_reducible (first | assumption | apply State.each_keeps | apply State.putFlag_keeps | apply State.put_keeps | apply ite_keeps | apply foldl_keeps | apply foldl_keeps_snd) | split | simp only [Keeps.mk_iff] | dsimp only)

theorem State.modPtp_keeps {s : State} {p : Nat} {f : PtpPort → PtpPort} (hk : Keeps σ s) : Keeps σ (State.modPtp s p f) := by
  unfold State.modPtp
  try dsimp only
  repeat' (first | intro _ | with_reducible (first | assumption | apply ite_keeps | apply foldl_keeps | apply foldl_keeps_snd) | split | simp only [Keeps.mk_iff] | dsimp only)

theorem State.clockState_keeps {s : State} {n : Nat} (hk : Keeps σ s) : Keeps σ (State.clockState s n) := by
  unfold State.clockState
  try dsimp only
  repeat' (first | intro _ | with_reducible (first | assumption | apply State.putFlag_keeps | apply State.put_keeps | apply ite_keeps | apply foldl_keeps | apply foldl_keeps_snd) | split | simp only [Keeps.mk_iff] | dsimp only)

theorem State.takeSource_keeps {s : State} {src : Nat} {gm : Nat} (hk : Keeps σ s) : Keeps σ (State.takeSource s src gm) := by
  unfold State.takeSource
  try dsimp only
  repeat' (first | intro _ | with_reducible (first | assumption | apply State.put64_keeps | apply State.put_keeps | apply State.clockState_keeps | apply ite_keeps | apply foldl_keeps | apply foldl_keeps_snd) | split | simp only [Keeps.mk_iff] | dsimp only)

theorem State.setRate_keeps {s : State} {r : Int} (hk : Keeps σ s) : Keeps σ (State.setRate s r) := by
  unfold State.setRate
  try dsimp only
  repeat' (first | intro _ | with_reducible (first | assumption | apply State.put_keeps | apply ite_keeps | apply foldl_keeps | apply foldl_keeps_snd) | split | simp only [Keeps.mk_iff] | dsimp only)

theorem State.loseSource_keeps {s : State} (hk : Keeps σ s) : Keeps σ (State.loseSource s) := by
  unfold State.loseSource
  try dsimp only
  repeat' (first | intro _ | with_reducible (first | assumption | apply State.putFlag_keeps | apply State.put_keeps | apply State.tally_keeps | apply State.raise_keeps | apply State.setRate_keeps | apply State.clockState_keeps | apply ite_keeps | apply foldl_keeps | apply foldl_keeps_snd) | split | simp only [Keeps.mk_iff] | dsimp only)

theorem State.runBmca_keeps {s : State} (hk : Keeps σ s) : Keeps σ (State.runBmca s) := by
  unfold State.runBmca
  try dsimp only
  repeat' (first | intro _ | with_reducible (first | assumption | apply State.modPtp_keeps | apply State.takeSource_keeps | apply State.loseSource_keeps | apply State.refreshPtp_keeps | apply ite_keeps | apply foldl_keeps | apply foldl_keeps_snd) | split | simp only [Keeps.mk_iff] | dsimp only)

theorem State.refreshCorr_keeps {s : State} (hk : Keeps σ s) : Keeps σ (State.refreshCorr s) := by
  unfold State.refreshCorr
  try dsimp only
  repeat' (first | intro _ | with_reducible (first | assumption | apply State.each_keeps | apply State.put_keeps | apply ite_keeps | apply foldl_keeps | apply foldl_keeps_snd) | split | simp only [Keeps.mk_iff] | dsimp only)

theorem State.ptpConfig_keeps {s : State} {value : Nat} (hk : Keeps σ s) : Keeps σ (State.ptpConfig s value) := by
  unfold State.ptpConfig
  try dsimp only
  repeat' (first | intro _ | with_reducible (first | assumption | apply State.raise_keeps | apply State.put_keeps | apply State.refreshPtp_keeps | apply State.loseSource_keeps | apply ite_keeps | apply foldl_keeps | apply foldl_keeps_snd) | split | simp only [Keeps.mk_iff] | dsimp only)

theorem State.beginStep_keeps {s : State} {theta : Int} (hk : Keeps σ s) : Keeps σ (State.beginStep s theta) := by
  unfold State.beginStep
  try dsimp only
  repeat' (first | intro _ | with_reducible (first | assumption | apply State.timeoutDeferred_keeps | apply State.putFlag_keeps | apply State.strWithdraw_keeps | apply ite_keeps | apply foldl_keeps | apply foldl_keeps_snd) | split | simp only [Keeps.mk_iff] | dsimp only)

theorem State.showHoldover_keeps {s : State} (hk : Keeps σ s) : Keeps σ (State.showHoldover s) := by
  unfold State.showHoldover
  try dsimp only
  repeat' (first | intro _ | with_reducible (first | assumption | apply State.put_keeps | apply ite_keeps | apply foldl_keeps | apply foldl_keeps_snd) | split | simp only [Keeps.mk_iff] | dsimp only)

theorem State.decideStep_keeps {s : State} {theta : Int} (hk : Keeps σ s) : Keeps σ (State.decideStep s theta) := by
  unfold State.decideStep
  try dsimp only
  repeat' (first | intro _ | with_reducible (first | assumption | apply State.mirrored_keeps | apply State.beginStep_keeps | apply ite_keeps | apply foldl_keeps | apply foldl_keeps_snd) | split | simp only [Keeps.mk_iff] | dsimp only)

theorem State.diverge_keeps {s : State} {theta : Int} (hk : Keeps σ s) : Keeps σ (State.diverge s theta) := by
  unfold State.diverge
  try dsimp only
  repeat' (first | intro _ | with_reducible (first | assumption | apply State.tally_keeps | apply State.raise_keeps | apply ite_keeps | apply foldl_keeps | apply foldl_keeps_snd) | split | simp only [Keeps.mk_iff] | dsimp only)

theorem State.wakeStep_keeps {s : State} (hk : Keeps σ s) : Keeps σ (State.wakeStep s) := by
  unfold State.wakeStep
  try dsimp only
  repeat' (first | intro _ | with_reducible (first | assumption | apply State.decideStep_keeps | apply ite_keeps | apply foldl_keeps | apply foldl_keeps_snd) | split | simp only [Keeps.mk_iff] | dsimp only)

theorem State.lockClock_keeps {s : State} (hk : Keeps σ s) : Keeps σ (State.lockClock s) := by
  unfold State.lockClock
  try dsimp only
  repeat' (first | intro _ | with_reducible (first | assumption | apply State.showHoldover_keeps | apply State.tally_keeps | apply State.raise_keeps | apply State.clockState_keeps | apply ite_keeps | apply foldl_keeps | apply foldl_keeps_snd) | split | simp only [Keeps.mk_iff] | dsimp only)

theorem State.slewStart_keeps {s : State} {theta : Int} (hk : Keeps σ s) : Keeps σ (State.slewStart s theta) := by
  unfold State.slewStart
  try dsimp only
  repeat' (first | intro _ | with_reducible (first | assumption | apply State.tally_keeps | apply State.putFlag_keeps | apply ite_keeps | apply foldl_keeps | apply foldl_keeps_snd) | split | simp only [Keeps.mk_iff] | dsimp only)

theorem State.newMaster_keeps {s : State} {old : Nat} {theta : Int} (hk : Keeps σ s) : Keeps σ (State.newMaster s old theta) := by
  unfold State.newMaster
  try dsimp only
  repeat' (first | intro _ | with_reducible (first | assumption | apply State.tally_keeps | apply State.raise_keeps | apply State.slewStart_keeps | apply State.diverge_keeps | apply State.putFlag_keeps | apply State.decideStep_keeps | apply ite_keeps | apply foldl_keeps | apply foldl_keeps_snd) | split | simp only [Keeps.mk_iff] | dsimp only)

theorem State.servo_keeps {s : State} (hk : Keeps σ s) : Keeps σ (State.servo s) := by
  unfold State.servo
  try dsimp only
  repeat' (first | intro _ | with_reducible (first | assumption | apply State.free_keeps | apply State.free_keeps' (e := by assumption) | apply State.setRate_keeps | apply ite_keeps | apply foldl_keeps | apply foldl_keeps_snd) | split | simp only [Keeps.mk_iff] | dsimp only)

theorem State.measure_keeps {s : State} {port : Nat} {theta : Int} (hk : Keeps σ s) : Keeps σ (State.measure s port theta) := by
  unfold State.measure
  try dsimp only
  repeat' (first | intro _ | with_reducible (first | assumption | apply State.put_keeps | apply State.tally_keeps | apply State.raise_keeps | apply State.newMaster_keeps | apply State.servo_keeps | apply State.lockClock_keeps | apply ite_keeps | apply foldl_keeps | apply foldl_keeps_snd) | split | simp only [Keeps.mk_iff] | dsimp only)

theorem State.ptpAnnounce_keeps {s : State} {p : Nat} {m : PtpMessage} {info : MasterSet} (hk : Keeps σ s) : Keeps σ (State.ptpAnnounce s p m info) := by
  unfold State.ptpAnnounce
  try dsimp only
  repeat' (first | intro _ | with_reducible (first | assumption | apply State.runBmca_keeps | apply ite_keeps | apply foldl_keeps | apply foldl_keeps_snd) | split | simp only [Keeps.mk_iff] | dsimp only)

theorem State.ptpOffset_keeps {s : State} {p : Nat} {t1 : Int} {t2 : Nat} (hk : Keeps σ s) : Keeps σ (State.ptpOffset s p t1 t2) := by
  unfold State.ptpOffset
  try dsimp only
  repeat' (first | intro _ | with_reducible (first | assumption | apply State.modPtp_keeps | apply State.measure_keeps | apply ite_keeps | apply foldl_keeps | apply foldl_keeps_snd) | split | simp only [Keeps.mk_iff] | dsimp only)

theorem State.relattice_keeps {s : State} (hk : Keeps σ s) : Keeps σ (State.relattice s) := by
  unfold State.relattice
  try dsimp only
  repeat' (first | intro _ | with_reducible (first | assumption | apply ite_keeps | apply foldl_keeps | apply foldl_keeps_snd) | split | simp only [Keeps.mk_iff] | dsimp only)

theorem doTimeSet_keeps {s : State} (hk : Keeps σ s) : Keeps σ (doTimeSet s) := by
  unfold doTimeSet
  try dsimp only
  repeat' (first | intro _ | with_reducible (first | assumption | apply State.sendSteps_keeps | apply State.relattice_keeps | apply State.tally_keeps | apply State.raise_keeps | apply ite_keeps | apply foldl_keeps | apply foldl_keeps_snd) | split | simp only [Keeps.mk_iff] | dsimp only)

theorem doApplyStep_keeps {s : State} (hk : Keeps σ s) : Keeps σ (doApplyStep s) := by
  unfold doApplyStep
  try dsimp only
  repeat' (first | intro _ | with_reducible (first | assumption | apply State.decideStep_keeps | apply State.putFlag_keeps | apply State.raise_keeps | apply ite_keeps | apply foldl_keeps | apply foldl_keeps_snd) | split | simp only [Keeps.mk_iff] | dsimp only)

theorem State.sendPtp_keeps {s : State} {p : Nat} {dst : Nat} {udp : Nat} {msg : List Nat} (hk : Keeps σ s) : Keeps σ (State.sendPtp s p dst udp msg) := by
  unfold State.sendPtp
  try dsimp only
  repeat' (first | intro _ | with_reducible (first | assumption | apply State.sendUdp_keeps | apply ite_keeps | apply foldl_keeps | apply foldl_keeps_snd) | split | simp only [Keeps.mk_iff] | dsimp only)

theorem doAnnounceSend_keeps {s : State} (hk : Keeps σ s) : Keeps σ (doAnnounceSend s) := by
  unfold doAnnounceSend
  try dsimp only
  repeat' (first | intro _ | with_reducible (first | assumption | apply State.each_keeps | apply State.modPtp_keeps | apply State.sendPtp_keeps | apply ite_keeps | apply foldl_keeps | apply foldl_keeps_snd) | split | simp only [Keeps.mk_iff] | dsimp only)

theorem doDelayReqSend_keeps {s : State} (hk : Keeps σ s) : Keeps σ (doDelayReqSend s) := by
  unfold doDelayReqSend
  try dsimp only
  repeat' (first | intro _ | with_reducible (first | assumption | apply State.sendPtp_keeps | apply State.modPtp_keeps | apply ite_keeps | apply foldl_keeps | apply foldl_keeps_snd) | split | simp only [Keeps.mk_iff] | dsimp only)

theorem doHoldoverEnter_keeps {s : State} (hk : Keeps σ s) : Keeps σ (doHoldoverEnter s) := by
  unfold doHoldoverEnter
  try dsimp only
  repeat' (first | intro _ | with_reducible (first | assumption | apply State.runBmca_keeps | apply State.loseSource_keeps | apply ite_keeps | apply foldl_keeps | apply foldl_keeps_snd) | split | simp only [Keeps.mk_iff] | dsimp only)

theorem doPtpMessage_keeps {s : State} {p : Nat} {m : PtpMessage} (hk : Keeps σ s) : Keeps σ (doPtpMessage p m s) := by
  unfold doPtpMessage
  try dsimp only
  repeat' (first | intro _ | with_reducible (first | assumption | apply State.ptpAnnounce_keeps | apply State.modPtp_keeps | apply State.ptpOffset_keeps | apply State.sendPtp_keeps | apply State.put_keeps | apply ite_keeps | apply foldl_keeps | apply foldl_keeps_snd) | split | simp only [Keeps.mk_iff] | dsimp only)

theorem doSlewDone_keeps {s : State} (hk : Keeps σ s) : Keeps σ (doSlewDone s) := by
  unfold doSlewDone
  try dsimp only
  repeat' (first | intro _ | with_reducible (first | assumption | apply State.tally_keeps | apply State.raise_keeps | apply State.putFlag_keeps | apply ite_keeps | apply foldl_keeps | apply foldl_keeps_snd) | split | simp only [Keeps.mk_iff] | dsimp only)

theorem doStepped_keeps {s : State} (hk : Keeps σ s) : Keeps σ (doStepped s) := by
  unfold doStepped
  try dsimp only
  repeat' (first | intro _ | with_reducible (first | assumption | apply State.atTime_keeps | apply State.put64_keeps | apply State.bump_keeps | apply State.relattice_keeps | apply State.tally_keeps | apply State.raise_keeps | apply State.settleLattice_keeps | apply State.restage_keeps | apply State.voidWindows_keeps | apply State.sendSteps_keeps | apply ite_keeps | apply foldl_keeps | apply foldl_keeps_snd) | split | simp only [Keeps.mk_iff] | dsimp only)

theorem doSyncSend_keeps {s : State} (hk : Keeps σ s) : Keeps σ (doSyncSend s) := by
  unfold doSyncSend
  try dsimp only
  repeat' (first | intro _ | with_reducible (first | assumption | apply State.each_keeps | apply State.sendPtp_keeps | apply State.modPtp_keeps | apply ite_keeps | apply foldl_keeps | apply foldl_keeps_snd) | split | simp only [Keeps.mk_iff] | dsimp only)

theorem doWclkEdge_keeps {s : State} (hk : Keeps σ s) : Keeps σ (doWclkEdge s) := by
  unfold doWclkEdge
  try dsimp only
  repeat' (first | intro _ | with_reducible (first | assumption | apply State.measure_keeps | apply State.takeSource_keeps | apply ite_keeps | apply foldl_keeps | apply foldl_keeps_snd) | split | simp only [Keeps.mk_iff] | dsimp only)

end Sys2Proof.Machine
end

