-- ==== Sys2Proof/Laws/KeepCompose.lean ====
section
/-! SUPPORT. What the operations of Machine/Compose keep (Laws/Keep). -/
namespace Sys2Proof.Machine

variable {σ : State}

theorem State.slotReady_keeps {s : State} {h : Nat} {slot : Nat} {ready : Bool} (hk : Keeps σ s) : Keeps σ (State.slotReady s h slot ready) := by
  unfold State.slotReady
  try dsimp only
  repeat' (first | intro _ | with_reducible (first | assumption | apply ite_keeps | apply foldl_keeps | apply foldl_keeps_snd) | split | simp only [Keeps.mk_iff] | dsimp only)

theorem State.wbStart_keeps {s : State} {n : Nat} {i : Nat} (hk : Keeps σ s) : Keeps σ (State.wbStart s n i) := by
  unfold State.wbStart
  try dsimp only
  repeat' (first | intro _ | with_reducible (first | assumption | apply State.slotReady_keeps | apply ite_keeps | apply foldl_keeps | apply foldl_keeps_snd) | split | simp only [Keeps.mk_iff] | dsimp only)

theorem State.coefResult_keeps {s : State} {bank : Nat} {status : Nat} {check : Nat} (hk : Keeps σ s) : Keeps σ (State.coefResult s bank status check) := by
  unfold State.coefResult
  try dsimp only
  repeat' (first | intro _ | with_reducible (first | assumption | apply State.tally_keeps | apply State.raise_keeps | apply State.advance_keeps | apply State.put_keeps | apply ite_keeps | apply foldl_keeps | apply foldl_keeps_snd) | split | simp only [Keeps.mk_iff] | dsimp only)

theorem doCoefLoad_keeps {s : State} {value : Nat} (hk : Keeps σ s) : Keeps σ (doCoefLoad value s) := by
  unfold doCoefLoad
  try dsimp only
  repeat' (first | intro _ | with_reducible (first | assumption | apply State.put_keeps | apply State.coefResult_keeps | apply ite_keeps | apply foldl_keeps | apply foldl_keeps_snd) | split | simp only [Keeps.mk_iff] | dsimp only)

theorem State.composeEnd_keeps {s : State} {w : FrameWork} (hk : Keeps σ s) : Keeps σ (State.composeEnd s w) := by
  unfold State.composeEnd
  try dsimp only
  repeat' (first | intro _ | with_reducible (first | assumption | apply State.put_keeps | apply State.tallyAtMost_keeps | apply ite_keeps | apply foldl_keeps | apply foldl_keeps_snd) | split | simp only [Keeps.mk_iff] | dsimp only)

theorem State.wbWrite_keeps {s : State} {w : FrameWork} {k : WbWork} (hk : Keeps σ s) : Keeps σ (State.wbWrite s w k) := by
  unfold State.wbWrite
  try dsimp only
  repeat' (first | intro _ | with_reducible (first | assumption | apply State.each_keeps | apply State.writeBulk_keeps | apply State.writePicture_keeps | apply ite_keeps | apply foldl_keeps | apply foldl_keeps_snd) | split | simp only [Keeps.mk_iff] | dsimp only)

theorem doCoefLoaded_keeps {s : State} (hk : Keeps σ s) : Keeps σ (doCoefLoaded s) := by
  unfold doCoefLoaded
  try dsimp only
  repeat' (first | intro _ | with_reducible (first | assumption | apply State.coefResult_keeps | apply State.put_keeps | apply ite_keeps | apply foldl_keeps | apply foldl_keeps_snd) | split | simp only [Keeps.mk_iff] | dsimp only)

theorem doComposeBand_keeps {s : State} {n : Nat} (hk : Keeps σ s) : Keeps σ (doComposeBand n s) := by
  unfold doComposeBand
  try dsimp only
  repeat' (first | intro _ | with_reducible (first | assumption | apply State.asOf_keeps | apply State.each_keeps | apply State.putFlag_keeps | apply State.modFrame_keeps | apply State.raise_keeps | apply State.add_keeps | apply State.bump_keeps | apply State.serveAhead_keeps | apply State.composeEnd_keeps | apply ite_keeps | apply foldl_keeps | apply foldl_keeps_snd) | split | simp only [Keeps.mk_iff] | dsimp only)

theorem doWbComplete_keeps {s : State} {i : Nat} (hk : Keeps σ s) : Keeps σ (doWbComplete i s) := by
  unfold doWbComplete
  try dsimp only
  repeat' (first | intro _ | with_reducible (first | assumption | apply State.wbWrite_keeps | apply State.putFlag_keeps | apply State.put_keeps | apply State.put64_keeps | apply State.slotReady_keeps | apply ite_keeps | apply foldl_keeps | apply foldl_keeps_snd) | split | simp only [Keeps.mk_iff] | dsimp only)

theorem doWbIncomplete_keeps {s : State} {i : Nat} (hk : Keeps σ s) : Keeps σ (doWbIncomplete i s) := by
  unfold doWbIncomplete
  try dsimp only
  repeat' (first | intro _ | with_reducible (first | assumption | apply State.atTime_keeps | apply State.tally_keeps | apply State.raise_keeps | apply State.putFlag_keeps | apply ite_keeps | apply foldl_keeps | apply foldl_keeps_snd) | split | simp only [Keeps.mk_iff] | dsimp only)

end Sys2Proof.Machine
end

