-- ==== Sys2Proof/Laws/KeepDvoreLink.lean ====
section
/-! SUPPORT. What the operations of Machine/DvoreLink keep (Laws/Keep). -/
namespace Sys2Proof.Machine

variable {σ : State}

theorem State.joinEndpoint_keeps {s : State} {r : Nat} {pos : Nat} {j : JoinRec} {even : Option Nat} {odd : Option Nat} {bucket : Nat} {faults : Nat} {missed : Nat} (hk : Keeps σ s) : Keeps σ (State.joinEndpoint s r pos j even odd bucket faults missed) := by
  unfold State.joinEndpoint
  try dsimp only
  repeat' (first | intro _ | with_reducible (first | assumption | apply State.each_keeps | apply State.writeDisc_keeps | apply State.writeBulkLe_keeps | apply State.writeBulk_keeps | apply State.calRejoin_keeps | apply State.refreshDvl_keeps | apply State.tally_keeps | apply State.raise_keeps | apply ite_keeps | apply foldl_keeps | apply foldl_keeps_snd) | split | simp only [Keeps.mk_iff] | dsimp only)

theorem State.observeGrant_keeps {s : State} {r : Nat} {serial : Nat} {pos : Nat} {bucket : Nat} (hk : Keeps σ s) : Keeps σ (State.observeGrant s r serial pos bucket) := by
  unfold State.observeGrant
  try dsimp only
  repeat' (first | intro _ | with_reducible (first | assumption | apply State.joinEndpoint_keeps | apply ite_keeps | apply foldl_keeps | apply foldl_keeps_snd) | split | simp only [Keeps.mk_iff] | dsimp only)

theorem State.learnLength_keeps {s : State} {r : Nat} {even : Option Nat} {odd : Option Nat} (hk : Keeps σ s) : Keeps σ (State.learnLength s r even odd) := by
  unfold State.learnLength
  try dsimp only
  repeat' (first | intro _ | with_reducible (first | assumption | apply State.put_keeps | apply ite_keeps | apply foldl_keeps | apply foldl_keeps_snd) | split | simp only [Keeps.mk_iff] | dsimp only)

theorem State.sendGrant_keeps {s : State} {c : Chan} {serial : Nat} {pos : Nat} (hk : Keeps σ s) : Keeps σ (State.sendGrant s c serial pos) := by
  unfold State.sendGrant
  try dsimp only
  repeat' (first | intro _ | with_reducible (first | assumption | apply State.sendControl_keeps | apply ite_keeps | apply foldl_keeps | apply foldl_keeps_snd) | split | simp only [Keeps.mk_iff] | dsimp only)

theorem State.sendLink_keeps {s : State} {l : Nat} {op : Nat} {t2 : Nat} {t3 : Nat} (hk : Keeps σ s) : Keeps σ (State.sendLink s l op t2 t3) := by
  unfold State.sendLink
  try dsimp only
  repeat' (first | intro _ | with_reducible (first | assumption | apply State.sendRingPort_keeps | apply ite_keeps | apply foldl_keeps | apply foldl_keeps_snd) | split | simp only [Keeps.mk_iff] | dsimp only)

theorem State.telemRecord_keeps {s : State} {r : Nat} {pos : Nat} {cs : List Chan} {x1 : TelemRec} (hk : Keeps σ s) : Keeps σ (State.telemRecord s r pos cs x1) := by
  unfold State.telemRecord
  try dsimp only
  repeat' (first | intro _ | with_reducible (first | assumption | apply State.writeBulk_keeps | apply State.modJoined_keeps | apply State.each_keeps | apply State.put_keeps | apply State.tallyLimitedV_keeps | apply State.raise_keeps | apply State.tally_keeps | apply State.temperatureReport_keeps | apply State.sensorReport_keeps | apply ite_keeps | apply foldl_keeps | apply foldl_keeps_snd) | split | simp only [Keeps.mk_iff] | dsimp only)

theorem doDarkBroadcast_keeps {s : State} {r : Nat} (hk : Keeps σ s) : Keeps σ (doDarkBroadcast r s) := by
  unfold doDarkBroadcast
  try dsimp only
  repeat' (first | intro _ | with_reducible (first | assumption | apply State.sendControl_keeps | apply ite_keeps | apply foldl_keeps | apply foldl_keeps_snd) | split | simp only [Keeps.mk_iff] | dsimp only)

theorem doGrantUpdate_keeps {s : State} {r : Nat} (hk : Keeps σ s) : Keeps σ (doGrantUpdate r s) := by
  unfold doGrantUpdate
  try dsimp only
  repeat' (first | intro _ | with_reducible (first | assumption | apply State.each_keeps | apply State.sendGrant_keeps | apply ite_keeps | apply foldl_keeps | apply foldl_keeps_snd) | split | simp only [Keeps.mk_iff] | dsimp only)

theorem doHoldFrame_keeps {s : State} {r : Nat} (hk : Keeps σ s) : Keeps σ (doHoldFrame r s) := by
  unfold doHoldFrame
  try dsimp only
  repeat' (first | intro _ | with_reducible (first | assumption | apply State.sendHold_keeps | apply ite_keeps | apply foldl_keeps | apply foldl_keeps_snd) | split | simp only [Keeps.mk_iff] | dsimp only)

theorem doJoinRequest_keeps {s : State} {r : Nat} {even : Option Nat} {odd : Option Nat} {j : JoinRec} {faults : Nat} {missed : Nat} (hk : Keeps σ s) : Keeps σ (doJoinRequest r even odd j faults missed s) := by
  unfold doJoinRequest
  try dsimp only
  repeat' (first | intro _ | with_reducible (first | assumption | apply State.learnLength_keeps | apply State.sendGrant_keeps | apply State.joinEndpoint_keeps | apply ite_keeps | apply foldl_keeps | apply foldl_keeps_snd) | split | simp only [Keeps.mk_iff] | dsimp only)

theorem doLinkDelayRequest_keeps {s : State} {l : Nat} (hk : Keeps σ s) : Keeps σ (doLinkDelayRequest l s) := by
  unfold doLinkDelayRequest
  try dsimp only
  repeat' (first | intro _ | with_reducible (first | assumption | apply State.sendLink_keeps | apply ite_keeps | apply foldl_keeps | apply foldl_keeps_snd) | split | simp only [Keeps.mk_iff] | dsimp only)

theorem doLinkFrameReceive_keeps {s : State} {l : Nat} {op : Nat} {t2 : Nat} {t3 : Nat} (hk : Keeps σ s) : Keeps σ (doLinkFrameReceive l op t2 t3 s) := by
  unfold doLinkFrameReceive
  try dsimp only
  repeat' (first | intro _ | with_reducible (first | assumption | apply State.sendLink_keeps | apply ite_keeps | apply foldl_keeps | apply foldl_keeps_snd) | split | simp only [Keeps.mk_iff] | dsimp only)

theorem doReachTimeout_keeps {s : State} {r : Nat} {pos : Nat} {odd : Bool} (hk : Keeps σ s) : Keeps σ (doReachTimeout r pos odd s) := by
  unfold doReachTimeout
  try dsimp only
  repeat' (first | intro _ | with_reducible (first | assumption | apply State.atUptime_keeps | apply State.modJoined_keeps | apply State.refreshDvl_keeps | apply State.each_keeps | apply State.tally_keeps | apply State.raise_keeps | apply ite_keeps | apply foldl_keeps | apply foldl_keeps_snd) | split | simp only [Keeps.mk_iff] | dsimp only)

theorem doTelemetryReceive_keeps {s : State} {r : Nat} {addr : Nat} {even : Option Nat} {odd : Option Nat} {records : List TelemRec} (hk : Keeps σ s) : Keeps σ (doTelemetryReceive r addr even odd records s) := by
  unfold doTelemetryReceive
  try dsimp only
  repeat' (first | intro _ | with_reducible (first | assumption | apply State.learnLength_keeps | apply State.modJoined_keeps | apply State.raise_keeps | apply State.each_keeps | apply State.bump_keeps | apply State.refreshDvl_keeps | apply State.tallyLimited_keeps | apply State.telemRecord_keeps | apply ite_keeps | apply foldl_keeps | apply foldl_keeps_snd) | split | simp only [Keeps.mk_iff] | dsimp only)

theorem doTimeFrame_keeps {s : State} {r : Nat} (hk : Keeps σ s) : Keeps σ (doTimeFrame r s) := by
  unfold doTimeFrame
  try dsimp only
  repeat' (first | intro _ | with_reducible (first | assumption | apply State.modRing_keeps | apply State.sendTime_keeps | apply ite_keeps | apply foldl_keeps | apply foldl_keeps_snd) | split | simp only [Keeps.mk_iff] | dsimp only)

end Sys2Proof.Machine
end

