-- ==== Sys2Proof/Laws/KeepEngines.lean ====
section
/-! SUPPORT. What the operations of Machine/Engines keep (Laws/Keep). -/
namespace Sys2Proof.Machine

variable {σ : State}

theorem doCeQuarantine_keeps {s : State} {e : Nat} {on : Bool} (hk : Keeps σ s) : Keeps σ (doCeQuarantine e on s) := by
  unfold doCeQuarantine
  try dsimp only
  repeat' (first | intro _ | with_reducible (first | assumption | apply State.tally_keeps | apply State.raise_keeps | apply State.putFlag_keeps | apply State.put_keeps | apply State.askSpare_keeps | apply State.endTesting_keeps | apply State.showTesting_keeps | apply ite_keeps | apply foldl_keeps | apply foldl_keeps_snd) | split | simp only [Keeps.mk_iff] | dsimp only)

theorem doCeRetry_keeps {s : State} {e : Nat} (hk : Keeps σ s) : Keeps σ (doCeRetry e s) := by
  unfold doCeRetry
  try dsimp only
  repeat' (first | intro _ | with_reducible (first | assumption | apply State.reloadInPlace_keeps | apply ite_keeps | apply foldl_keeps | apply foldl_keeps_snd) | split | simp only [Keeps.mk_iff] | dsimp only)

theorem doSigNow_keeps {s : State} {e : Nat} (hk : Keeps σ s) : Keeps σ (doSigNow e s) := by
  unfold doSigNow
  try dsimp only
  repeat' (first | intro _ | with_reducible (first | assumption | apply ite_keeps | apply foldl_keeps | apply foldl_keeps_snd) | split | simp only [Keeps.mk_iff] | dsimp only)

theorem State.sigPass_keeps {s : State} {e : Nat} {passed : Bool} (hk : Keeps σ s) : Keeps σ (State.sigPass s e passed) := by
  unfold State.sigPass
  try dsimp only
  repeat' (first | intro _ | with_reducible (first | assumption | apply State.modEng_keeps | apply State.takeBack_keeps | apply State.put_keeps | apply State.backInService_keeps | apply ite_keeps | apply foldl_keeps | apply foldl_keeps_snd) | split | simp only [Keeps.mk_iff] | dsimp only)

theorem doItemOvertime_keeps {s : State} {e : Nat} (hk : Keeps σ s) : Keeps σ (doItemOvertime e s) := by
  unfold doItemOvertime
  try dsimp only
  repeat' (first | intro _ | with_reducible (first | assumption | apply State.engineFault_keeps | apply ite_keeps | apply foldl_keeps | apply foldl_keeps_snd) | split | simp only [Keeps.mk_iff] | dsimp only)

theorem doCeFault_keeps {s : State} {e : Nat} {code : Nat} (hk : Keeps σ s) : Keeps σ (doCeFault e code s) := by
  unfold doCeFault
  try dsimp only
  repeat' (first | intro _ | with_reducible (first | assumption | apply doItemOvertime_keeps | apply State.engineFault_keeps | apply ite_keeps | apply foldl_keeps | apply foldl_keeps_snd) | split | simp only [Keeps.mk_iff] | dsimp only)

theorem doCeReload_keeps {s : State} {e : Nat} {reference : Word} {signature : Word} (hk : Keeps σ s) : Keeps σ (doCeReload e reference signature s) := by
  unfold doCeReload
  try dsimp only
  repeat' (first | intro _ | with_reducible (first | assumption | apply State.setReg_keeps | apply State.loadStores_keeps | apply State.modEng_keeps | apply State.put_keeps | apply State.takeBack_keeps | apply ite_keeps | apply foldl_keeps | apply foldl_keeps_snd) | split | simp only [Keeps.mk_iff] | dsimp only)

theorem doSigTestDone_keeps {s : State} {signature : Word} {again : SigRepeat} (hk : Keeps σ s) : Keeps σ (doSigTestDone signature again s) := by
  unfold doSigTestDone
  try dsimp only
  repeat' (first | intro _ | with_reducible (first | assumption | apply State.opportunity_keeps | apply State.opportunity_keeps' (e := by assumption) | apply State.setReg_keeps | apply State.sigPass_keeps | apply State.raise_keeps | apply State.detect_keeps | apply State.tally_keeps | apply State.spareFaulty_keeps | apply State.engineFault_keeps | apply ite_keeps | apply foldl_keeps | apply foldl_keeps_snd) | split | simp only [Keeps.mk_iff] | dsimp only)

theorem doSigTestStart_keeps {s : State} {spareOk : Bool} {reference : Word} (hk : Keeps σ s) : Keeps σ (doSigTestStart spareOk reference s) := by
  unfold doSigTestStart
  try dsimp only
  repeat' (first | intro _ | with_reducible (first | assumption | apply State.spareFaulty_keeps | apply State.tally_keeps | apply State.raise_keeps | apply State.setReg_keeps | apply State.put_keeps | apply State.loadStores_keeps | apply State.askSpare_keeps | apply ite_keeps | apply foldl_keeps | apply foldl_keeps_snd) | split | simp only [Keeps.mk_iff] | dsimp only)

end Sys2Proof.Machine
end

