-- ==== Sys2Proof/Laws/KeepFrame.lean ====
section
/-! SUPPORT. What the operations of Machine/Frame keep (Laws/Keep). -/
namespace Sys2Proof.Machine

variable {σ : State}

theorem State.keepPicks_keeps {s : State} {n : Nat} {picks : List (Nat × Pick × Option Nat)} (hk : Keeps σ s) : Keeps σ (State.keepPicks s n picks) := by
  unfold State.keepPicks
  try dsimp only
  repeat' (first | intro _ | with_reducible (first | assumption | apply State.each_keeps | apply State.modStream_keeps | apply State.put_keeps | apply ite_keeps | apply foldl_keeps | apply foldl_keeps_snd) | split | simp only [Keeps.mk_iff] | dsimp only)

theorem State.noScaler_keeps {s : State} {i : Nat} (hk : Keeps σ s) : Keeps σ (State.noScaler s i) := by
  unfold State.noScaler
  try dsimp only
  repeat' (first | intro _ | with_reducible (first | assumption | apply State.put_keeps | apply State.putFlag_keeps | apply ite_keeps | apply foldl_keeps | apply foldl_keeps_snd) | split | simp only [Keeps.mk_iff] | dsimp only)

theorem State.noPicture_keeps {s : State} {i : Nat} (hk : Keeps σ s) : Keeps σ (State.noPicture s i) := by
  unfold State.noPicture
  try dsimp only
  repeat' (first | intro _ | with_reducible (first | assumption | apply State.putFlag_keeps | apply State.noScaler_keeps | apply ite_keeps | apply foldl_keeps | apply foldl_keeps_snd) | split | simp only [Keeps.mk_iff] | dsimp only)

theorem State.keepLayer_keeps {s : State} {i : Nat} {k : LayerKeep} (hk : Keeps σ s) : Keeps σ (State.keepLayer s i k) := by
  unfold State.keepLayer
  try dsimp only
  repeat' (first | intro _ | with_reducible (first | assumption | apply ite_keeps | apply foldl_keeps | apply foldl_keeps_snd) | split | simp only [Keeps.mk_iff] | dsimp only)

theorem State.fitScaler_keeps {s : State} {c : Chan} {p : Pick} (hk : Keeps σ s) : Keeps σ (State.fitScaler s c p).2.2 := by
  unfold State.fitScaler
  try dsimp only
  repeat' (first | intro _ | with_reducible (first | assumption | apply State.putFlag_keeps | apply State.tally_keeps | apply State.raise_keeps | apply ite_keeps | apply foldl_keeps | apply foldl_keeps_snd) | split | simp only [Keeps.mk_iff] | dsimp only)
theorem State.fitScaler_keeps' {s : State} {c : Chan} {p : Pick} (hk : Keeps σ s) {a b t} (e : State.fitScaler s c p = (a, b, t)) : Keeps σ t := by
  have k := congrArg (fun q => Keeps σ q.2.2) e
  exact k ▸ State.fitScaler_keeps hk

theorem State.layerPicture_keeps {s : State} {c : Chan} {p : Pick} {k : LayerKeep} (hk : Keeps σ s) : Keeps σ (State.layerPicture s c p k).2 := by
  unfold State.layerPicture
  try dsimp only
  repeat' (first | intro _ | with_reducible (first | assumption | apply State.keepLayer_keeps | apply State.putFlag_keeps | apply State.tally_keeps | apply State.raise_keeps | apply State.fitScaler_keeps | apply State.fitScaler_keeps' (e := by assumption) | apply State.noScaler_keeps | apply State.put_keeps | apply ite_keeps | apply foldl_keeps | apply foldl_keeps_snd) | split | simp only [Keeps.mk_iff] | dsimp only)
theorem State.layerPicture_keeps' {s : State} {c : Chan} {p : Pick} {k : LayerKeep} (hk : Keeps σ s) {a t} (e : State.layerPicture s c p k = (a, t)) : Keeps σ t := by
  have k := congrArg (fun q => Keeps σ q.2) e
  exact k ▸ State.layerPicture_keeps hk

theorem State.decideLayer_keeps {s : State} {n : Nat} {picks : List (Nat × Pick × Option Nat)} {c : Chan} (hk : Keeps σ s) : Keeps σ (State.decideLayer s n picks c).2 := by
  unfold State.decideLayer
  try dsimp only
  repeat' (first | intro _ | with_reducible (first | assumption | apply State.noPicture_keeps | apply State.put_keeps | apply State.keepLayer_keeps | apply State.bump_keeps | apply State.tally_keeps | apply State.raise_keeps | apply State.layerPicture_keeps | apply State.layerPicture_keeps' (e := by assumption) | apply ite_keeps | apply foldl_keeps | apply foldl_keeps_snd) | split | simp only [Keeps.mk_iff] | dsimp only)
theorem State.decideLayer_keeps' {s : State} {n : Nat} {picks : List (Nat × Pick × Option Nat)} {c : Chan} (hk : Keeps σ s) {a t} (e : State.decideLayer s n picks c = (a, t)) : Keeps σ t := by
  have k := congrArg (fun q => Keeps σ q.2) e
  exact k ▸ State.decideLayer_keeps hk

theorem State.decideFrame_keeps {s : State} {n : Nat} {marks : List (Nat × Nat × Nat)} (hk : Keeps σ s) : Keeps σ (State.decideFrame s n marks) := by
  unfold State.decideFrame
  try dsimp only
  repeat' (first | intro _ | with_reducible (first | assumption | apply State.keepPicks_keeps | apply State.each_keeps | apply State.noPicture_keeps | apply State.put_keeps | apply State.decideLayer_keeps | apply State.decideLayer_keeps' (e := by assumption) | apply State.modFrame_keeps | apply ite_keeps | apply foldl_keeps | apply foldl_keeps_snd) | split | simp only [Keeps.mk_iff] | dsimp only)

theorem State.latch_keeps {s : State} {n : Nat} {active : Bool} (hk : Keeps σ s) : Keeps σ (State.latch s n active) := by
  unfold State.latch
  try dsimp only
  repeat' (first | intro _ | with_reducible (first | assumption | apply ite_keeps | apply foldl_keeps | apply foldl_keeps_snd) | split | simp only [Keeps.mk_iff] | dsimp only)

end Sys2Proof.Machine
end

