-- ==== Sys2Proof/Laws/KeepHostLink.lean ====
section
/-! SUPPORT. What the operations of Machine/HostLink keep (Laws/Keep). -/
namespace Sys2Proof.Machine

variable {σ : State}

theorem State.syncHost_keeps {s : State} (hk : Keeps σ s) : Keeps σ (State.syncHost s) := by
  unfold State.syncHost
  try dsimp only
  repeat' (first | intro _ | with_reducible (first | assumption | apply State.putFlag_keeps | apply State.put_keeps | apply ite_keeps | apply foldl_keeps | apply foldl_keeps_snd) | split | simp only [Keeps.mk_iff] | dsimp only)

theorem State.modSem_keeps {s : State} {n : Nat} {f : Sem → Sem} (hk : Keeps σ s) : Keeps σ (State.modSem s n f) := by
  unfold State.modSem
  try dsimp only
  repeat' (first | intro _ | with_reducible (first | assumption | apply ite_keeps | apply foldl_keeps | apply foldl_keeps_snd) | split | simp only [Keeps.mk_iff] | dsimp only)

theorem State.passSem_keeps {s : State} {n : Nat} (hk : Keeps σ s) : Keeps σ (State.passSem s n) := by
  unfold State.passSem
  try dsimp only
  repeat' (first | intro _ | with_reducible (first | assumption | apply State.modSem_keeps | apply State.put_keeps | apply ite_keeps | apply foldl_keeps | apply foldl_keeps_snd) | split | simp only [Keeps.mk_iff] | dsimp only)

theorem State.revokeSem_keeps {s : State} {n : Nat} {cause : Nat} (hk : Keeps σ s) : Keeps σ (State.revokeSem s n cause) := by
  unfold State.revokeSem
  try dsimp only
  repeat' (first | intro _ | with_reducible (first | assumption | apply State.tally_keeps | apply State.raise_keeps | apply State.putFlag_keeps | apply State.passSem_keeps | apply State.modSem_keeps | apply ite_keeps | apply foldl_keeps | apply foldl_keeps_snd) | split | simp only [Keeps.mk_iff] | dsimp only)

theorem State.releaseSems_keeps {s : State} {who : Option Initiator} (hk : Keeps σ s) : Keeps σ (State.releaseSems s who) := by
  unfold State.releaseSems
  try dsimp only
  repeat' (first | intro _ | with_reducible (first | assumption | apply State.each_keeps | apply State.put_keeps | apply State.revokeSem_keeps | apply ite_keeps | apply foldl_keeps | apply foldl_keeps_snd) | split | simp only [Keeps.mk_iff] | dsimp only)

theorem State.hostReset_keeps {s : State} (hk : Keeps σ s) : Keeps σ (State.hostReset s) := by
  unfold State.hostReset
  try dsimp only
  repeat' (first | intro _ | with_reducible (first | assumption | apply State.syncHost_keeps | apply State.put_keeps | apply State.setReg_keeps | apply ite_keeps | apply foldl_keeps | apply foldl_keeps_snd) | split | simp only [Keeps.mk_iff] | dsimp only)

theorem State.sendPending_keeps {s : State} (hk : Keeps σ s) : Keeps σ (State.sendPending s) := by
  unfold State.sendPending
  try dsimp only
  repeat' (first | intro _ | with_reducible (first | assumption | apply State.each_keeps | apply State.emit_keeps | apply ite_keeps | apply foldl_keeps | apply foldl_keeps_snd) | split | simp only [Keeps.mk_iff] | dsimp only)

theorem State.semFields_keeps {s : State} {n : Nat} {value : Word} (hk : Keeps σ s) : Keeps σ (State.semFields s n value) := by
  unfold State.semFields
  try dsimp only
  repeat' (first | intro _ | with_reducible (first | assumption | apply State.put_keeps | apply State.putFlag_keeps | apply ite_keeps | apply foldl_keeps | apply foldl_keeps_snd) | split | simp only [Keeps.mk_iff] | dsimp only)

theorem doSemTake_keeps {s : State} {who : Initiator} {n : Nat} {value : Word} (hk : Keeps σ s) : Keeps σ (doSemTake who n value s) := by
  unfold doSemTake
  try dsimp only
  repeat' (first | intro _ | with_reducible (first | assumption | apply State.semFields_keeps | apply State.modSem_keeps | apply State.put_keeps | apply ite_keeps | apply foldl_keeps | apply foldl_keeps_snd) | split | simp only [Keeps.mk_iff] | dsimp only)

theorem doSemGive_keeps {s : State} {who : Initiator} {n : Nat} {value : Word} (hk : Keeps σ s) : Keeps σ (doSemGive who n value s) := by
  unfold doSemGive
  try dsimp only
  repeat' (first | intro _ | with_reducible (first | assumption | apply State.semFields_keeps | apply State.passSem_keeps | apply ite_keeps | apply foldl_keeps | apply foldl_keeps_snd) | split | simp only [Keeps.mk_iff] | dsimp only)

theorem doAerUncorrectable_keeps {s : State} {status : Word} (hk : Keeps σ s) : Keeps σ (doAerUncorrectable status s) := by
  unfold doAerUncorrectable
  try dsimp only
  repeat' (first | intro _ | with_reducible (first | assumption | apply State.tally_keeps | apply State.raise_keeps | apply ite_keeps | apply foldl_keeps | apply foldl_keeps_snd) | split | simp only [Keeps.mk_iff] | dsimp only)

theorem doBoostFail_keeps {s : State} (hk : Keeps σ s) : Keeps σ (doBoostFail s) := by
  unfold doBoostFail
  try dsimp only
  repeat' (first | intro _ | with_reducible (first | assumption | apply State.each_keeps | apply State.emit_keeps | apply State.syncHost_keeps | apply State.tally_keeps | apply State.raise_keeps | apply State.detected_keeps | apply ite_keeps | apply foldl_keeps | apply foldl_keeps_snd) | split | simp only [Keeps.mk_iff] | dsimp only)

theorem doBoostStop_keeps {s : State} (hk : Keeps σ s) : Keeps σ (doBoostStop s) := by
  unfold doBoostStop
  try dsimp only
  repeat' (first | intro _ | with_reducible (first | assumption | apply State.syncHost_keeps | apply ite_keeps | apply foldl_keeps | apply foldl_keeps_snd) | split | simp only [Keeps.mk_iff] | dsimp only)

theorem doD3hot_keeps {s : State} {enter : Bool} (hk : Keeps σ s) : Keeps σ (doD3hot enter s) := by
  unfold doD3hot
  try dsimp only
  repeat' (first | intro _ | with_reducible (first | assumption | apply ite_keeps | apply foldl_keeps | apply foldl_keeps_snd) | split | simp only [Keeps.mk_iff] | dsimp only)

theorem doFlr_keeps {s : State} (hk : Keeps σ s) : Keeps σ (doFlr s) := by
  unfold doFlr
  try dsimp only
  repeat' (first | intro _ | with_reducible (first | assumption | apply State.bump_keeps | apply State.hostReset_keeps | apply State.tally_keeps | apply ite_keeps | apply foldl_keeps | apply foldl_keeps_snd) | split | simp only [Keeps.mk_iff] | dsimp only)

theorem doHostLinkDown_keeps {s : State} (hk : Keeps σ s) : Keeps σ (doHostLinkDown s) := by
  unfold doHostLinkDown
  try dsimp only
  repeat' (first | intro _ | with_reducible (first | assumption | apply State.put_keeps | apply State.putFlag_keeps | apply State.hostReset_keeps | apply State.tally_keeps | apply State.raise_keeps | apply ite_keeps | apply foldl_keeps | apply foldl_keeps_snd) | split | simp only [Keeps.mk_iff] | dsimp only)

theorem doHostLinkUp_keeps {s : State} {speed : Nat} {width : Nat} (hk : Keeps σ s) : Keeps σ (doHostLinkUp speed width s) := by
  unfold doHostLinkUp
  try dsimp only
  repeat' (first | intro _ | with_reducible (first | assumption | apply State.tally_keeps | apply State.raise_keeps | apply State.put_keeps | apply State.putFlag_keeps | apply ite_keeps | apply foldl_keeps | apply foldl_keeps_snd) | split | simp only [Keeps.mk_iff] | dsimp only)

theorem doMsixUnmask_keeps {s : State} {vector : Option (Fin 64)} (hk : Keeps σ s) : Keeps σ (doMsixUnmask vector s) := by
  unfold doMsixUnmask
  try dsimp only
  repeat' (first | intro _ | with_reducible (first | assumption | apply State.sendPending_keeps | apply ite_keeps | apply foldl_keeps | apply foldl_keeps_snd) | split | simp only [Keeps.mk_iff] | dsimp only)

theorem doPoll_keeps {s : State} (hk : Keeps σ s) : Keeps σ (doPoll s) := by
  unfold doPoll
  try dsimp only
  repeat' (first | intro _ | with_reducible (first | assumption | apply State.each_keeps | apply State.put_keeps | apply ite_keeps | apply foldl_keeps | apply foldl_keeps_snd) | split | simp only [Keeps.mk_iff] | dsimp only)

theorem doSemRevoked_keeps {s : State} {n : Nat} (hk : Keeps σ s) : Keeps σ (doSemRevoked n s) := by
  unfold doSemRevoked
  try dsimp only
  repeat' (first | intro _ | with_reducible (first | assumption | apply State.revokeSem_keeps | apply ite_keeps | apply foldl_keeps | apply foldl_keeps_snd) | split | simp only [Keeps.mk_iff] | dsimp only)

end Sys2Proof.Machine
end

