-- ==== Sys2Proof/Laws/KeepPairLink.lean ====
section
/-! SUPPORT. What the operations of Machine/PairLink keep (Laws/Keep). -/
namespace Sys2Proof.Machine

variable {σ : State}

theorem State.refreshReady_keeps {s : State} (hk : Keeps σ s) : Keeps σ (State.refreshReady s) := by
  unfold State.refreshReady
  try dsimp only
  repeat' (first | intro _ | with_reducible (first | assumption | apply State.putFlag_keeps | apply State.put_keeps | apply State.tally_keeps | apply State.raise_keeps | apply ite_keeps | apply foldl_keeps | apply foldl_keeps_snd) | split | simp only [Keeps.mk_iff] | dsimp only)

theorem State.modRed_keeps {s : State} {f : Red → Red} (hk : Keeps σ s) : Keeps σ (State.modRed s f) := by
  unfold State.modRed
  try dsimp only
  repeat' (first | intro _ | with_reducible (first | assumption | apply ite_keeps | apply foldl_keeps | apply foldl_keeps_snd) | split | simp only [Keeps.mk_iff] | dsimp only)

theorem State.takeRole_keeps {s : State} {role : Nat} {red : Nat} (hk : Keeps σ s) : Keeps σ (State.takeRole s role red) := by
  unfold State.takeRole
  try dsimp only
  repeat' (first | intro _ | with_reducible (first | assumption | apply State.refreshReady_keeps | apply State.put_keeps | apply ite_keeps | apply foldl_keeps | apply foldl_keeps_snd) | split | simp only [Keeps.mk_iff] | dsimp only)

theorem State.advanceEpoch_keeps {s : State} {new : Nat} (hk : Keeps σ s) : Keeps σ (State.advanceEpoch s new) := by
  unfold State.advanceEpoch
  try dsimp only
  repeat' (first | intro _ | with_reducible (first | assumption | apply State.put_keeps | apply State.tally_keeps | apply ite_keeps | apply foldl_keeps | apply foldl_keeps_snd) | split | simp only [Keeps.mk_iff] | dsimp only)

theorem State.freshEpoch_keeps {s : State} (hk : Keeps σ s) : Keeps σ (State.freshEpoch s) := by
  unfold State.freshEpoch
  try dsimp only
  repeat' (first | intro _ | with_reducible (first | assumption | apply State.advanceEpoch_keeps | apply ite_keeps | apply foldl_keeps | apply foldl_keeps_snd) | split | simp only [Keeps.mk_iff] | dsimp only)

theorem State.startPair_keeps {s : State} (hk : Keeps σ s) : Keeps σ (State.startPair s) := by
  unfold State.startPair
  try dsimp only
  repeat' (first | intro _ | with_reducible (first | assumption | apply State.takeRole_keeps | apply State.modRed_keeps | apply State.freshEpoch_keeps | apply ite_keeps | apply foldl_keeps | apply foldl_keeps_snd) | split | simp only [Keeps.mk_iff] | dsimp only)

theorem State.sendBellB_keeps {s : State} {kind : Nat} {body : List Nat} (hk : Keeps σ s) : Keeps σ (State.sendBellB s kind body) := by
  unfold State.sendBellB
  try dsimp only
  repeat' (first | intro _ | with_reducible (first | assumption | apply State.opportunity_keeps | apply State.opportunity_keeps' (e := by assumption) | apply State.txFrame_keeps | apply ite_keeps | apply foldl_keeps | apply foldl_keeps_snd) | split | simp only [Keeps.mk_iff] | dsimp only)

theorem State.unmute_keeps {s : State} (hk : Keeps σ s) : Keeps σ (State.unmute s) := by
  unfold State.unmute
  try dsimp only
  repeat' (first | intro _ | with_reducible (first | assumption | apply State.modRed_keeps | apply ite_keeps | apply foldl_keeps | apply foldl_keeps_snd) | split | simp only [Keeps.mk_iff] | dsimp only)

theorem State.modBell_keeps {s : State} {b : Bool} {f : Bell → Bell} (hk : Keeps σ s) : Keeps σ (State.modBell s b f) := by
  unfold State.modBell
  try dsimp only
  repeat' (first | intro _ | with_reducible (first | assumption | apply State.modRed_keeps | apply ite_keeps | apply foldl_keeps | apply foldl_keeps_snd) | split | simp only [Keeps.mk_iff] | dsimp only)

theorem State.sendHeartbeatB_keeps {s : State} {handover : Bool} (hk : Keeps σ s) : Keeps σ (State.sendHeartbeatB s handover) := by
  unfold State.sendHeartbeatB
  try dsimp only
  repeat' (first | intro _ | with_reducible (first | assumption | apply State.modBell_keeps | apply State.sendBellB_keeps | apply ite_keeps | apply foldl_keeps | apply foldl_keeps_snd) | split | simp only [Keeps.mk_iff] | dsimp only)

theorem State.sendBellA_keeps {s : State} {handover : Bool} (hk : Keeps σ s) : Keeps σ (State.sendBellA s handover) := by
  unfold State.sendBellA
  try dsimp only
  repeat' (first | intro _ | with_reducible (first | assumption | apply State.opportunity_keeps | apply State.opportunity_keeps' (e := by assumption) | apply State.modBell_keeps | apply State.emit_keeps | apply ite_keeps | apply foldl_keeps | apply foldl_keeps_snd) | split | simp only [Keeps.mk_iff] | dsimp only)

theorem State.ringBells_keeps {s : State} {handover : Bool} (hk : Keeps σ s) : Keeps σ (State.ringBells s handover) := by
  unfold State.ringBells
  try dsimp only
  repeat' (first | intro _ | with_reducible (first | assumption | apply State.sendHeartbeatB_keeps | apply State.sendBellA_keeps | apply ite_keeps | apply foldl_keeps | apply foldl_keeps_snd) | split | simp only [Keeps.mk_iff] | dsimp only)

theorem State.failPair_keeps {s : State} (hk : Keeps σ s) : Keeps σ (State.failPair s) := by
  unfold State.failPair
  try dsimp only
  repeat' (first | intro _ | with_reducible (first | assumption | apply State.ringBells_keeps | apply State.pairFatal_keeps | apply ite_keeps | apply foldl_keeps | apply foldl_keeps_snd) | split | simp only [Keeps.mk_iff] | dsimp only)

theorem State.sendSignatures_keeps {s : State} {n : Nat} (hk : Keeps σ s) : Keeps σ (State.sendSignatures s n) := by
  unfold State.sendSignatures
  try dsimp only
  repeat' (first | intro _ | with_reducible (first | assumption | apply State.modRed_keeps | apply State.opportunity_keeps | apply State.opportunity_keeps' (e := by assumption) | apply State.each_keeps | apply State.sendBellB_keeps | apply ite_keeps | apply foldl_keeps | apply foldl_keeps_snd) | split | simp only [Keeps.mk_iff] | dsimp only)

theorem State.sendSnapshot_keeps {s : State} {n : Nat} (hk : Keeps σ s) : Keeps σ (State.sendSnapshot s n) := by
  unfold State.sendSnapshot
  try dsimp only
  repeat' (first | intro _ | with_reducible (first | assumption | apply State.modRed_keeps | apply State.put_keeps | apply State.emit_keeps | apply ite_keeps | apply foldl_keeps | apply foldl_keeps_snd) | split | simp only [Keeps.mk_iff] | dsimp only)

end Sys2Proof.Machine
end

