-- ==== Sys2Proof/Laws/KeepNetwork.lean ====
section
/-! SUPPORT. What the operations of Machine/Network keep (Laws/Keep). -/
namespace Sys2Proof.Machine

variable {σ : State}

theorem State.linkDown_keeps {s : State} {l : Nat} {cause : Nat} (hk : Keeps σ s) : Keeps σ (State.linkDown s l cause) := by
  unfold State.linkDown
  try dsimp only
  repeat' (first | intro _ | with_reducible (first | assumption | apply State.put_keeps | apply State.modLink_keeps | apply State.putFlag_keeps | apply State.refreshDvl_keeps | apply State.tally_keeps | apply State.raise_keeps | apply State.bump_keeps | apply ite_keeps | apply foldl_keeps | apply foldl_keeps_snd) | split | simp only [Keeps.mk_iff] | dsimp only)

theorem State.arpPacket_keeps {s : State} {l : Nat} {f : RxFrame} (hk : Keeps σ s) : Keeps σ (State.arpPacket s l f) := by
  unfold State.arpPacket
  try dsimp only
  repeat' (first | intro _ | with_reducible (first | assumption | apply State.txFrame_keeps | apply State.modLink_keeps | apply ite_keeps | apply foldl_keeps | apply foldl_keeps_snd) | split | simp only [Keeps.mk_iff] | dsimp only)

theorem State.capture_keeps {s : State} {l : Nat} {f : RxFrame} (hk : Keeps σ s) : Keeps σ (State.capture s l f) := by
  unfold State.capture
  try dsimp only
  repeat' (first | intro _ | with_reducible (first | assumption | apply State.put_keeps | apply State.writeBulk_keeps | apply ite_keeps | apply foldl_keeps | apply foldl_keeps_snd) | split | simp only [Keeps.mk_iff] | dsimp only)

theorem State.damagedFrame_keeps {s : State} {l : Nat} {f : RxFrame} (hk : Keeps σ s) : Keeps σ (State.damagedFrame s l f) := by
  unfold State.damagedFrame
  try dsimp only
  repeat' (first | intro _ | with_reducible (first | assumption | apply State.capture_keeps | apply State.bump_keeps | apply State.detect_keeps | apply ite_keeps | apply foldl_keeps | apply foldl_keeps_snd) | split | simp only [Keeps.mk_iff] | dsimp only)

theorem State.dvlPacket_keeps {s : State} {l : Nat} {f : RxFrame} (hk : Keeps σ s) : Keeps σ (State.dvlPacket s l f) := by
  unfold State.dvlPacket
  try dsimp only
  repeat' (first | intro _ | with_reducible (first | assumption | apply State.opportunity_keeps | apply State.opportunity_keeps' (e := by assumption) | apply State.bump_keeps | apply State.detect_keeps | apply State.observeGrant_keeps | apply ite_keeps | apply foldl_keeps | apply foldl_keeps_snd) | split | simp only [Keeps.mk_iff] | dsimp only)

theorem State.pauseFrame_keeps {s : State} {l : Nat} {f : RxFrame} {pfc : Bool} (hk : Keeps σ s) : Keeps σ (State.pauseFrame s l f pfc) := by
  unfold State.pauseFrame
  try dsimp only
  repeat' (first | intro _ | with_reducible (first | assumption | apply State.bump_keeps | apply State.settleLink_keeps | apply State.modLink_keeps | apply ite_keeps | apply foldl_keeps | apply foldl_keeps_snd) | split | simp only [Keeps.mk_iff] | dsimp only)

theorem State.icmpPacket_keeps {s : State} {l : Nat} {f : RxFrame} (hk : Keeps σ s) : Keeps σ (State.icmpPacket s l f) := by
  unfold State.icmpPacket
  try dsimp only
  repeat' (first | intro _ | with_reducible (first | assumption | apply State.modLink_keeps | apply State.sendIp_keeps | apply State.sendIp_keeps' (e := by assumption) | apply ite_keeps | apply foldl_keeps | apply foldl_keeps_snd) | split | simp only [Keeps.mk_iff] | dsimp only)

theorem State.takeFrame_keeps {s : State} {l : Nat} {f : RxFrame} (hk : Keeps σ s) : Keeps σ (State.takeFrame s l f) := by
  unfold State.takeFrame
  try dsimp only
  repeat' (first | intro _ | with_reducible (first | assumption | apply State.add64_keeps | apply State.arpPacket_keeps | apply State.icmpPacket_keeps | apply State.dvlPacket_keeps | apply ite_keeps | apply foldl_keeps | apply foldl_keeps_snd) | split | simp only [Keeps.mk_iff] | dsimp only)

theorem State.frameArrives_keeps {s : State} {l : Nat} {f : RxFrame} (hk : Keeps σ s) : Keeps σ (State.frameArrives s l f) := by
  unfold State.frameArrives
  try dsimp only
  repeat' (first | intro _ | with_reducible (first | assumption | apply State.damagedFrame_keeps | apply State.pauseFrame_keeps | apply State.bump_keeps | apply State.takeFrame_keeps | apply ite_keeps | apply foldl_keeps | apply foldl_keeps_snd) | split | simp only [Keeps.mk_iff] | dsimp only)

theorem doExactEntryWrite_keeps {s : State} {l : Nat} {e : Nat} {value : Nat} (hk : Keeps σ s) : Keeps σ (doExactEntryWrite l e value s) := by
  unfold doExactEntryWrite
  try dsimp only
  repeat' (first | intro _ | with_reducible (first | assumption | apply State.tally_keeps | apply State.raise_keeps | apply State.setExact_keeps | apply State.put_keeps | apply ite_keeps | apply foldl_keeps | apply foldl_keeps_snd) | split | simp only [Keeps.mk_iff] | dsimp only)

theorem doArpExpire_keeps {s : State} {l : Nat} {ip : Nat} (hk : Keeps σ s) : Keeps σ (doArpExpire l ip s) := by
  unfold doArpExpire
  try dsimp only
  repeat' (first | intro _ | with_reducible (first | assumption | apply State.modLink_keeps | apply State.atUptime_keeps | apply ite_keeps | apply foldl_keeps | apply foldl_keeps_snd) | split | simp only [Keeps.mk_iff] | dsimp only)

theorem doArpRequest_keeps {s : State} {l : Nat} {ip : Nat} (hk : Keeps σ s) : Keeps σ (doArpRequest l ip s) := by
  unfold doArpRequest
  try dsimp only
  repeat' (first | intro _ | with_reducible (first | assumption | apply State.sendArp_keeps | apply State.modLink_keeps | apply ite_keeps | apply foldl_keeps | apply foldl_keeps_snd) | split | simp only [Keeps.mk_iff] | dsimp only)

theorem doArpUnresolved_keeps {s : State} {l : Nat} {ip : Nat} (hk : Keeps σ s) : Keeps σ (doArpUnresolved l ip s) := by
  unfold doArpUnresolved
  try dsimp only
  repeat' (first | intro _ | with_reducible (first | assumption | apply State.atUptime_keeps | apply State.modLink_keeps | apply State.tallyLimited_keeps | apply State.raise_keeps | apply ite_keeps | apply foldl_keeps | apply foldl_keeps_snd) | split | simp only [Keeps.mk_iff] | dsimp only)

theorem doEqRetrain_keeps {s : State} {l : Nat} {w : Nat} {h : Nat} (hk : Keeps σ s) : Keeps σ (doEqRetrain l w h s) := by
  unfold doEqRetrain
  try dsimp only
  repeat' (first | intro _ | with_reducible (first | assumption | apply State.modLink_keeps | apply State.tally_keeps | apply State.raise_keeps | apply State.putFlag_keeps | apply State.bump_keeps | apply ite_keeps | apply foldl_keeps | apply foldl_keeps_snd) | split | simp only [Keeps.mk_iff] | dsimp only)

theorem doEyeMeasure_keeps {s : State} {l : Nat} {w : Nat} {h : Nat} (hk : Keeps σ s) : Keeps σ (doEyeMeasure l w h s) := by
  unfold doEyeMeasure
  try dsimp only
  repeat' (first | intro _ | with_reducible (first | assumption | apply State.put_keeps | apply State.putFlag_keeps | apply State.modLink_keeps | apply ite_keeps | apply foldl_keeps | apply foldl_keeps_snd) | split | simp only [Keeps.mk_iff] | dsimp only)

theorem doFrameReceive_keeps {s : State} {l : Nat} {f0 : RxFrame} (hk : Keeps σ s) : Keeps σ (doFrameReceive l f0 s) := by
  unfold doFrameReceive
  try dsimp only
  repeat' (first | intro _ | with_reducible (first | assumption | apply State.opportunity_keeps | apply State.opportunity_keeps' (e := by assumption) | apply State.settleLink_keeps | apply State.add_keeps | apply State.bump_keeps | apply State.frameArrives_keeps | apply ite_keeps | apply foldl_keeps | apply foldl_keeps_snd) | split | simp only [Keeps.mk_iff] | dsimp only)

theorem doLinkDown_keeps {s : State} {l : Nat} {cause : Nat} (hk : Keeps σ s) : Keeps σ (doLinkDown l cause s) := by
  unfold doLinkDown
  try dsimp only
  repeat' (first | intro _ | with_reducible (first | assumption | apply State.linkDown_keeps | apply ite_keeps | apply foldl_keeps | apply foldl_keeps_snd) | split | simp only [Keeps.mk_iff] | dsimp only)

theorem doLinkUp_keeps {s : State} {l : Nat} (hk : Keeps σ s) : Keeps σ (doLinkUp l s) := by
  unfold doLinkUp
  try dsimp only
  repeat' (first | intro _ | with_reducible (first | assumption | apply State.modLink_keeps | apply State.put_keeps | apply State.putFlag_keeps | apply State.refreshDvl_keeps | apply State.tally_keeps | apply State.raise_keeps | apply ite_keeps | apply foldl_keeps | apply foldl_keeps_snd) | split | simp only [Keeps.mk_iff] | dsimp only)

theorem doPauseBreak_keeps {s : State} {l : Nat} (hk : Keeps σ s) : Keeps σ (doPauseBreak l s) := by
  unfold doPauseBreak
  try dsimp only
  repeat' (first | intro _ | with_reducible (first | assumption | apply State.atUptime_keeps | apply State.modLink_keeps | apply State.add_keeps | apply State.bump_keeps | apply State.raise_keeps | apply State.putFlag_keeps | apply State.flushQueue_keeps | apply State.tallyLimited_keeps | apply ite_keeps | apply foldl_keeps | apply foldl_keeps_snd) | split | simp only [Keeps.mk_iff] | dsimp only)

theorem doPauseBreakEnd_keeps {s : State} {l : Nat} (hk : Keeps σ s) : Keeps σ (doPauseBreakEnd l s) := by
  unfold doPauseBreakEnd
  try dsimp only
  repeat' (first | intro _ | with_reducible (first | assumption | apply State.putFlag_keeps | apply State.atUptime_keeps | apply ite_keeps | apply foldl_keeps | apply foldl_keeps_snd) | split | simp only [Keeps.mk_iff] | dsimp only)

end Sys2Proof.Machine
end

