-- ==== Sys2Proof/Laws/KeepStructure.lean ====
section
/-! SUPPORT. What the operations of Machine/Structure keep (Laws/Keep). -/
namespace Sys2Proof.Machine

variable {σ : State}

theorem State.relink_keeps {s : State} (hk : Keeps σ s) : Keeps σ (State.relink s) := by
  unfold State.relink
  try dsimp only
  repeat' (first | intro _ | with_reducible (first | assumption | apply State.each_keeps | apply State.linkDown_keeps | apply ite_keeps | apply foldl_keeps | apply foldl_keeps_snd) | split | simp only [Keeps.mk_iff] | dsimp only)

theorem State.freshPail_keeps {s : State} {p : Nat} (hk : Keeps σ s) : Keeps σ (State.freshPail s p) := by
  unfold State.freshPail
  try dsimp only
  repeat' (first | intro _ | with_reducible (first | assumption | apply State.each_keeps | apply State.toReset_keeps | apply ite_keeps | apply foldl_keeps | apply foldl_keeps_snd) | split | simp only [Keeps.mk_iff] | dsimp only)

theorem State.showPail_keeps {s : State} {q : Pail} (hk : Keeps σ s) : Keeps σ (State.showPail s q) := by
  unfold State.showPail
  try dsimp only
  repeat' (first | intro _ | with_reducible (first | assumption | apply State.putFlag_keeps | apply State.put_keeps | apply State.syncPail_keeps | apply State.put64_keeps | apply ite_keeps | apply foldl_keeps | apply foldl_keeps_snd) | split | simp only [Keeps.mk_iff] | dsimp only)

theorem State.bindPails_keeps {s : State} {st : Structure} (hk : Keeps σ s) : Keeps σ (State.bindPails s st) := by
  unfold State.bindPails
  try dsimp only
  repeat' (first | intro _ | with_reducible (first | assumption | apply State.each_keeps | apply State.tally_keeps | apply State.freshPail_keeps | apply State.toReset_keeps | apply State.writePail_keeps | apply State.showPail_keeps | apply State.put_keeps | apply State.syncFlow_keeps | apply State.syncPar_keeps | apply State.syncEngine_keeps | apply ite_keeps | apply foldl_keeps | apply foldl_keeps_snd) | split | simp only [Keeps.mk_iff] | dsimp only)

theorem State.loadEngines_keeps {s : State} (hk : Keeps σ s) : Keeps σ (State.loadEngines s) := by
  unfold State.loadEngines
  try dsimp only
  repeat' (first | intro _ | with_reducible (first | assumption | apply State.each_keeps | apply State.modEng_keeps | apply State.put_keeps | apply State.putFlag_keeps | apply State.runEngine_keeps | apply State.loadStores_keeps | apply State.askSpare_keeps | apply ite_keeps | apply foldl_keeps | apply foldl_keeps_snd) | split | simp only [Keeps.mk_iff] | dsimp only)

theorem State.showCurves_keeps {s : State} (hk : Keeps σ s) : Keeps σ (State.showCurves s) := by
  unfold State.showCurves
  try dsimp only
  repeat' (first | intro _ | with_reducible (first | assumption | apply State.each_keeps | apply State.put_keeps | apply State.putFlag_keeps | apply ite_keeps | apply foldl_keeps | apply foldl_keeps_snd) | split | simp only [Keeps.mk_iff] | dsimp only)

theorem State.syncDomains_keeps {s : State} (hk : Keeps σ s) : Keeps σ (State.syncDomains s) := by
  unfold State.syncDomains
  try dsimp only
  repeat' (first | intro _ | with_reducible (first | assumption | apply State.put_keeps | apply ite_keeps | apply foldl_keeps | apply foldl_keeps_snd) | split | simp only [Keeps.mk_iff] | dsimp only)

theorem State.showScalers_keeps {s : State} (hk : Keeps σ s) : Keeps σ (State.showScalers s) := by
  unfold State.showScalers
  try dsimp only
  repeat' (first | intro _ | with_reducible (first | assumption | apply State.each_keeps | apply State.put_keeps | apply ite_keeps | apply foldl_keeps | apply foldl_keeps_snd) | split | simp only [Keeps.mk_iff] | dsimp only)

theorem State.refreshStr_keeps {s : State} (hk : Keeps σ s) : Keeps σ (State.refreshStr s) := by
  unfold State.refreshStr
  try dsimp only
  repeat' (first | intro _ | with_reducible (first | assumption | apply State.putFlag_keeps | apply State.put_keeps | apply State.put64_keeps | apply State.each_keeps | apply ite_keeps | apply foldl_keeps | apply foldl_keeps_snd) | split | simp only [Keeps.mk_iff] | dsimp only)

theorem State.refreshAll_keeps {s : State} (hk : Keeps σ s) : Keeps σ (State.refreshAll s) := by
  unfold State.refreshAll
  try dsimp only
  repeat' (first | intro _ | with_reducible (first | assumption | apply State.showCurves_keeps | apply State.refreshDd_keeps | apply State.refreshDvl_keeps | apply State.refreshRoutes_keeps | apply State.refreshPtp_keeps | apply State.refreshCorr_keeps | apply State.syncDomains_keeps | apply State.showScalers_keeps | apply State.refreshStr_keeps | apply ite_keeps | apply foldl_keeps | apply foldl_keeps_snd) | split | simp only [Keeps.mk_iff] | dsimp only)

theorem State.applyFull_keeps {s : State} {st : Structure} (hk : Keeps σ s) : Keeps σ (State.applyFull s st) := by
  unfold State.applyFull
  try dsimp only
  repeat' (first | intro _ | with_reducible (first | assumption | apply State.relink_keeps | apply State.bindPails_keeps | apply State.loadEngines_keeps | apply State.tally_keeps | apply State.refreshAll_keeps | apply ite_keeps | apply foldl_keeps | apply foldl_keeps_snd) | split | simp only [Keeps.mk_iff] | dsimp only)

theorem State.armStandin_keeps {s : State} (hk : Keeps σ s) : Keeps σ (State.armStandin s) := by
  unfold State.armStandin
  try dsimp only
  repeat' (first | intro _ | with_reducible (first | assumption | apply State.endTesting_keeps | apply ite_keeps | apply foldl_keeps | apply foldl_keeps_snd) | split | simp only [Keeps.mk_iff] | dsimp only)

theorem State.loadInjections_keeps {s : State} {sections : Nat} (hk : Keeps σ s) : Keeps σ (State.loadInjections s sections).2.2 := by
  unfold State.loadInjections
  try dsimp only
  repeat' (first | intro _ | with_reducible (first | assumption | apply State.opportunity_keeps | apply State.opportunity_keeps' (e := by assumption) | apply ite_keeps | apply foldl_keeps | apply foldl_keeps_snd) | split | simp only [Keeps.mk_iff] | dsimp only)
theorem State.loadInjections_keeps' {s : State} {sections : Nat} (hk : Keeps σ s) {a b t} (e : State.loadInjections s sections = (a, b, t)) : Keeps σ t := by
  have k := congrArg (fun q => Keeps σ q.2.2) e
  exact k ▸ State.loadInjections_keeps hk

theorem State.dropLoad_keeps {s : State} (hk : Keeps σ s) : Keeps σ (State.dropLoad s) := by
  unfold State.dropLoad
  try dsimp only
  repeat' (first | intro _ | with_reducible (first | assumption | apply ite_keeps | apply foldl_keeps | apply foldl_keeps_snd) | split | simp only [Keeps.mk_iff] | dsimp only)

theorem State.modLoad_keeps {s : State} {f : StrLoad → StrLoad} (hk : Keeps σ s) : Keeps σ (State.modLoad s f) := by
  unfold State.modLoad
  try dsimp only
  repeat' (first | intro _ | with_reducible (first | assumption | apply ite_keeps | apply foldl_keeps | apply foldl_keeps_snd) | split | simp only [Keeps.mk_iff] | dsimp only)

theorem State.partialInForce_keeps {s : State} {st : Structure} {k : Nat} (hk : Keeps σ s) : Keeps σ (State.partialInForce s st k) := by
  unfold State.partialInForce
  try dsimp only
  repeat' (first | intro _ | with_reducible (first | assumption | apply State.tally_keeps | apply State.refreshAll_keeps | apply ite_keeps | apply foldl_keeps | apply foldl_keeps_snd) | split | simp only [Keeps.mk_iff] | dsimp only)

theorem State.stageImage_keeps {s : State} {src : Nat} {len : Nat} (hk : Keeps σ s) : Keeps σ (State.stageImage s src len) := by
  unfold State.stageImage
  try dsimp only
  repeat' (first | intro _ | with_reducible (first | assumption | apply State.writeBulk_keeps | apply ite_keeps | apply foldl_keeps | apply foldl_keeps_snd) | split | simp only [Keeps.mk_iff] | dsimp only)

theorem doStrLoad_keeps {s : State} {value : Word} (hk : Keeps σ s) : Keeps σ (doStrLoad value s) := by
  unfold doStrLoad
  try dsimp only
  repeat' (first | intro _ | with_reducible (first | assumption | apply State.put_keeps | apply State.tally_keeps | apply State.strFinish_keeps | apply State.stageImage_keeps | apply ite_keeps | apply foldl_keeps | apply foldl_keeps_snd) | split | simp only [Keeps.mk_iff] | dsimp only)

theorem doStrAbort_keeps {s : State} (hk : Keeps σ s) : Keeps σ (doStrAbort s) := by
  unfold doStrAbort
  try dsimp only
  repeat' (first | intro _ | with_reducible (first | assumption | apply State.raise_keeps | apply State.strFinish_keeps | apply State.dropLoad_keeps | apply State.strWithdraw_keeps | apply ite_keeps | apply foldl_keeps | apply foldl_keeps_snd) | split | simp only [Keeps.mk_iff] | dsimp only)

theorem State.takePartial_keeps {s : State} {k : Nat} (hk : Keeps σ s) : Keeps σ (State.takePartial s k) := by
  unfold State.takePartial
  try dsimp only
  repeat' (first | intro _ | with_reducible (first | assumption | apply State.partialInForce_keeps | apply State.put_keeps | apply State.runEngine_keeps | apply State.loadStores_keeps | apply ite_keeps | apply foldl_keeps | apply foldl_keeps_snd) | split | simp only [Keeps.mk_iff] | dsimp only)

theorem doMergeDone_keeps {s : State} (hk : Keeps σ s) : Keeps σ (doMergeDone s) := by
  unfold doMergeDone
  try dsimp only
  repeat' (first | intro _ | with_reducible (first | assumption | apply State.writeBulk_keeps | apply State.dropLoad_keeps | apply State.strFinish_keeps | apply ite_keeps | apply foldl_keeps | apply foldl_keeps_snd) | split | simp only [Keeps.mk_iff] | dsimp only)

theorem doStandinReady_keeps {s0 : State} (hk : Keeps σ s0) : Keeps σ (doStandinReady s0) := by
  unfold doStandinReady
  try dsimp only
  repeat' (first | intro _ | with_reducible (first | assumption | apply State.armStandin_keeps | apply State.put_keeps | apply State.loadStores_keeps | apply State.modLoad_keeps | apply ite_keeps | apply foldl_keeps | apply foldl_keeps_snd) | split | simp only [Keeps.mk_iff] | dsimp only)

theorem doStrApplied_keeps {s : State} (hk : Keeps σ s) : Keeps σ (doStrApplied s) := by
  unfold doStrApplied
  try dsimp only
  repeat' (first | intro _ | with_reducible (first | assumption | apply State.pump_keeps | apply State.strFinish_keeps | apply State.applyFull_keeps | apply ite_keeps | apply foldl_keeps | apply foldl_keeps_snd) | split | simp only [Keeps.mk_iff] | dsimp only)

theorem doStrHandbackFail_keeps {s : State} {reason : Nat} (hk : Keeps σ s) : Keeps σ (doStrHandbackFail reason s) := by
  unfold doStrHandbackFail
  try dsimp only
  repeat' (first | intro _ | with_reducible (first | assumption | apply State.tally_keeps | apply State.msi_keeps | apply State.putFlag_keeps | apply State.put_keeps | apply State.modEng_keeps | apply ite_keeps | apply foldl_keeps | apply foldl_keeps_snd) | split | simp only [Keeps.mk_iff] | dsimp only)

theorem doStrEngineReady_keeps {s : State} {reference : Word} {signature : Word} (hk : Keeps σ s) : Keeps σ (doStrEngineReady reference signature s) := by
  unfold doStrEngineReady
  try dsimp only
  repeat' (first | intro _ | with_reducible (first | assumption | apply State.loadStores_keeps | apply State.setReg_keeps | apply State.takeBack_keeps | apply State.modLoad_keeps | apply State.put_keeps | apply doStrHandbackFail_keeps | apply ite_keeps | apply foldl_keeps | apply foldl_keeps_snd) | split | simp only [Keeps.mk_iff] | dsimp only)

theorem doStrValidated_keeps {s : State} (hk : Keeps σ s) : Keeps σ (doStrValidated s) := by
  unfold doStrValidated
  try dsimp only
  repeat' (first | intro _ | with_reducible (first | assumption | apply State.loadInjections_keeps | apply State.loadInjections_keeps' (e := by assumption) | apply State.detect_keeps | apply State.tally_keeps | apply State.strFinish_keeps | apply State.dropLoad_keeps | apply State.modLoad_keeps | apply State.armStandin_keeps | apply ite_keeps | apply foldl_keeps | apply foldl_keeps_snd) | split | simp only [Keeps.mk_iff] | dsimp only)

end Sys2Proof.Machine
end

