-- ==== Sys2Proof/Laws/KeepSeparator.lean ====
section
/-! SUPPORT. What the operations of Machine/Separator keep (Laws/Keep). -/
namespace Sys2Proof.Machine

variable {σ : State}

theorem State.curveResult_keeps {s : State} {curve : Nat} {status : Nat} {check : Nat} (hk : Keeps σ s) : Keeps σ (State.curveResult s curve status check) := by
  unfold State.curveResult
  try dsimp only
  repeat' (first | intro _ | with_reducible (first | assumption | apply State.tally_keeps | apply State.raise_keeps | apply State.advance_keeps | apply State.put_keeps | apply ite_keeps | apply foldl_keeps | apply foldl_keeps_snd) | split | simp only [Keeps.mk_iff] | dsimp only)

theorem doCurveLoad_keeps {s : State} {value : Nat} (hk : Keeps σ s) : Keeps σ (doCurveLoad value s) := by
  unfold doCurveLoad
  try dsimp only
  repeat' (first | intro _ | with_reducible (first | assumption | apply State.put_keeps | apply State.curveResult_keeps | apply ite_keeps | apply foldl_keeps | apply foldl_keeps_snd) | split | simp only [Keeps.mk_iff] | dsimp only)

theorem State.cutParts_keeps {s : State} {n : Nat} {i : Nat} (hk : Keeps σ s) : Keeps σ (State.cutParts s n i) := by
  unfold State.cutParts
  try dsimp only
  repeat' (first | intro _ | with_reducible (first | assumption | apply State.each_keeps | apply State.modLink_keeps | apply ite_keeps | apply foldl_keeps | apply foldl_keeps_snd) | split | simp only [Keeps.mk_iff] | dsimp only)

theorem State.bandUnsent_keeps {s : State} {n : Nat} {c : Chan} {band : Nat} (hk : Keeps σ s) : Keeps σ (State.bandUnsent s n c band) := by
  unfold State.bandUnsent
  try dsimp only
  repeat' (first | intro _ | with_reducible (first | assumption | apply State.modFrame_keeps | apply State.cutParts_keeps | apply State.sendControl_keeps | apply State.msi_keeps | apply State.tally_keeps | apply State.putFlag_keeps | apply State.bump_keeps | apply ite_keeps | apply foldl_keeps | apply foldl_keeps_snd) | split | simp only [Keeps.mk_iff] | dsimp only)

theorem State.endpointSums_keeps {s : State} {w : FrameWork} {c : Chan} (hk : Keeps σ s) : Keeps σ (State.endpointSums s w c) := by
  unfold State.endpointSums
  try dsimp only
  repeat' (first | intro _ | with_reducible (first | assumption | apply State.sendGroup_keeps | apply State.writeBulk_keeps | apply State.putFlag_keeps | apply State.bump_keeps | apply State.tallyLimitedV_keeps | apply State.raise_keeps | apply State.add_keeps | apply ite_keeps | apply foldl_keeps | apply foldl_keeps_snd) | split | simp only [Keeps.mk_iff] | dsimp only)

theorem State.finishSums_keeps {s : State} {n : Nat} (hk : Keeps σ s) : Keeps σ (State.finishSums s n) := by
  unfold State.finishSums
  try dsimp only
  repeat' (first | intro _ | with_reducible (first | assumption | apply State.each_keeps | apply State.settleLink_keeps | apply State.bandUnsent_keeps | apply State.cutParts_keeps | apply State.endpointSums_keeps | apply State.modFrame_keeps | apply State.put64_keeps | apply ite_keeps | apply foldl_keeps | apply foldl_keeps_snd) | split | simp only [Keeps.mk_iff] | dsimp only)

theorem State.noteIdentity_keeps {s : State} {w : FrameWork} {c : Chan} {identity : Bool} (hk : Keeps σ s) : Keeps σ (State.noteIdentity s w c identity) := by
  unfold State.noteIdentity
  try dsimp only
  repeat' (first | intro _ | with_reducible (first | assumption | apply State.tally_keeps | apply ite_keeps | apply foldl_keeps | apply foldl_keeps_snd) | split | simp only [Keeps.mk_iff] | dsimp only)

theorem State.separateEndpoint_keeps {s : State} {w : FrameWork} {c : Chan} {bands : List Nat} {b : Nat} {place : Nat} (hk : Keeps σ s) : Keeps σ (State.separateEndpoint s w c bands b place) := by
  unfold State.separateEndpoint
  try dsimp only
  repeat' (first | intro _ | with_reducible (first | assumption | apply State.noteIdentity_keeps | apply State.asOf_keeps | apply State.modFrame_keeps | apply State.bandUnsent_keeps | apply State.sendPart_keeps | apply State.sendPart_keeps' (e := by assumption) | apply State.add64_keeps | apply ite_keeps | apply foldl_keeps | apply foldl_keeps_snd) | split | simp only [Keeps.mk_iff] | dsimp only)

theorem doBandUnsent_keeps {s : State} {n : Nat} {i : Nat} (hk : Keeps σ s) : Keeps σ (doBandUnsent n i s) := by
  unfold doBandUnsent
  try dsimp only
  repeat' (first | intro _ | with_reducible (first | assumption | apply State.each_keeps | apply State.atTime_keeps | apply State.settleLink_keeps | apply State.bandUnsent_keeps | apply ite_keeps | apply foldl_keeps | apply foldl_keeps_snd) | split | simp only [Keeps.mk_iff] | dsimp only)

theorem doCurveLoaded_keeps {s : State} (hk : Keeps σ s) : Keeps σ (doCurveLoaded s) := by
  unfold doCurveLoaded
  try dsimp only
  repeat' (first | intro _ | with_reducible (first | assumption | apply State.curveResult_keeps | apply State.put_keeps | apply ite_keeps | apply foldl_keeps | apply foldl_keeps_snd) | split | simp only [Keeps.mk_iff] | dsimp only)

theorem doSeparateBand_keeps {s : State} {n : Nat} (hk : Keeps σ s) : Keeps σ (doSeparateBand n s) := by
  unfold doSeparateBand
  try dsimp only
  repeat' (first | intro _ | with_reducible (first | assumption | apply State.each_keeps | apply State.separateEndpoint_keeps | apply State.modFrame_keeps | apply State.serveAhead_keeps | apply State.finishSums_keeps | apply State.sendHoldNotices_keeps | apply ite_keeps | apply foldl_keeps | apply foldl_keeps_snd) | split | simp only [Keeps.mk_iff] | dsimp only)

end Sys2Proof.Machine
end

