-- ==== Sys2Proof/Laws/KeepSystem.lean ====
section
/-! SUPPORT. What the operations of Machine/System keep (Laws/Keep). -/
namespace Sys2Proof.Machine

variable {σ : State}

theorem State.holdEscalated_keeps {s : State} (hk : Keeps σ s) : Keeps σ (State.holdEscalated s) := by
  unfold State.holdEscalated
  try dsimp only
  repeat' (first | intro _ | with_reducible (first | assumption | apply State.putFlag_keeps | apply ite_keeps | apply foldl_keeps | apply foldl_keeps_snd) | split | simp only [Keeps.mk_iff] | dsimp only)

theorem State.modeResult_keeps {s : State} {st : Nat} (hk : Keeps σ s) : Keeps σ (State.modeResult s st) := by
  unfold State.modeResult
  try dsimp only
  repeat' (first | intro _ | with_reducible (first | assumption | apply State.advance_keeps | apply State.put_keeps | apply ite_keeps | apply foldl_keeps | apply foldl_keeps_snd) | split | simp only [Keeps.mk_iff] | dsimp only)

theorem State.beginRate_keeps {s : State} {rate : Nat} {frate : Nat} {frame : Nat} (hk : Keeps σ s) : Keeps σ (State.beginRate s rate frate frame) := by
  unfold State.beginRate
  try dsimp only
  repeat' (first | intro _ | with_reducible (first | assumption | apply State.timeoutDeferred_keeps | apply State.modSys_keeps | apply ite_keeps | apply foldl_keeps | apply foldl_keeps_snd) | split | simp only [Keeps.mk_iff] | dsimp only)

theorem acceptMode_keeps {s : State} {frame : Nat} {v : Nat} (hk : Keeps σ s) : Keeps σ (acceptMode frame v s) := by
  unfold acceptMode
  try dsimp only
  repeat' (first | intro _ | with_reducible (first | assumption | apply State.strWithdraw_keeps | apply State.modSys_keeps | apply State.putFlag_keeps | apply State.modeResult_keeps | apply State.put_keeps | apply State.beginRate_keeps | apply ite_keeps | apply foldl_keeps | apply foldl_keeps_snd) | split | simp only [Keeps.mk_iff] | dsimp only)

theorem State.sendDark_keeps {s : State} {k : Nat} {chans : List Chan} {cs : List Chan} (hk : Keeps σ s) : Keeps σ (State.sendDark s k chans cs) := by
  unfold State.sendDark
  try dsimp only
  repeat' (first | intro _ | with_reducible (first | assumption | apply State.each_keeps | apply State.sendControl_keeps | apply ite_keeps | apply foldl_keeps | apply foldl_keeps_snd) | split | simp only [Keeps.mk_iff] | dsimp only)

theorem State.leaveHold_keeps {s : State} {k : Nat} (hk : Keeps σ s) : Keeps σ (State.leaveHold s k) := by
  unfold State.leaveHold
  try dsimp only
  repeat' (first | intro _ | with_reducible (first | assumption | apply State.tally_keeps | apply State.raise_keeps | apply State.put_keeps | apply ite_keeps | apply foldl_keeps | apply foldl_keeps_snd) | split | simp only [Keeps.mk_iff] | dsimp only)

theorem State.enterHold_keeps {s : State} {k : Nat} {cause : Nat} (hk : Keeps σ s) : Keeps σ (State.enterHold s k cause) := by
  unfold State.enterHold
  try dsimp only
  repeat' (first | intro _ | with_reducible (first | assumption | apply State.raise_keeps | apply State.bump_keeps | apply State.put_keeps | apply State.modSys_keeps | apply State.tally_keeps | apply ite_keeps | apply foldl_keeps | apply foldl_keeps_snd) | split | simp only [Keeps.mk_iff] | dsimp only)

theorem State.noteMode_keeps {s : State} {old : Nat} {k : Nat} (hk : Keeps σ s) : Keeps σ (State.noteMode s old k) := by
  unfold State.noteMode
  try dsimp only
  repeat' (first | intro _ | with_reducible (first | assumption | apply State.tally_keeps | apply ite_keeps | apply foldl_keeps | apply foldl_keeps_snd) | split | simp only [Keeps.mk_iff] | dsimp only)

theorem State.applyPower_keeps {s : State} {new : Nat} {k : Nat} {cause : Nat} (hk : Keeps σ s) : Keeps σ (State.applyPower s new k cause) := by
  unfold State.applyPower
  try dsimp only
  repeat' (first | intro _ | with_reducible (first | assumption | apply State.dropAllStaged_keeps | apply State.sendDark_keeps | apply State.each_keeps | apply State.terminateUniverse_keeps | apply State.leaveHold_keeps | apply State.enterHold_keeps | apply State.put_keeps | apply State.modSys_keeps | apply State.governorRest_keeps | apply State.ddMode_keeps | apply State.gateEngines_keeps | apply State.noteMode_keeps | apply ite_keeps | apply foldl_keeps | apply foldl_keeps_snd) | split | simp only [Keeps.mk_iff] | dsimp only)

theorem State.ownPower_keeps {s : State} {new : Nat} {k : Nat} {cause : Nat} (hk : Keeps σ s) : Keeps σ (State.ownPower s new k cause) := by
  unfold State.ownPower
  try dsimp only
  repeat' (first | intro _ | with_reducible (first | assumption | apply State.sendMirror_keeps | apply State.applyPower_keeps | apply ite_keeps | apply foldl_keeps | apply foldl_keeps_snd) | split | simp only [Keeps.mk_iff] | dsimp only)

theorem State.autoHold_keeps {s : State} {k : Nat} (hk : Keeps σ s) : Keeps σ (State.autoHold s k) := by
  unfold State.autoHold
  try dsimp only
  repeat' (first | intro _ | with_reducible (first | assumption | apply State.ownPower_keeps | apply State.modSys_keeps | apply ite_keeps | apply foldl_keeps | apply foldl_keeps_snd) | split | simp only [Keeps.mk_iff] | dsimp only)

theorem State.sendWindows_keeps {s : State} {n : Nat} (hk : Keeps σ s) : Keeps σ (State.sendWindows s n) := by
  unfold State.sendWindows
  try dsimp only
  repeat' (first | intro _ | with_reducible (first | assumption | apply State.each_keeps | apply State.sendControl_keeps | apply ite_keeps | apply foldl_keeps | apply foldl_keeps_snd) | split | simp only [Keeps.mk_iff] | dsimp only)

theorem State.darkStopped_keeps {s : State} {old : List Chan} {n : Nat} (hk : Keeps σ s) : Keeps σ (State.darkStopped s old n) := by
  unfold State.darkStopped
  try dsimp only
  repeat' (first | intro _ | with_reducible (first | assumption | apply State.sendDark_keeps | apply ite_keeps | apply foldl_keeps | apply foldl_keeps_snd) | split | simp only [Keeps.mk_iff] | dsimp only)

theorem State.boundary_keeps {s : State} {n : Nat} (hk : Keeps σ s) : Keeps σ (State.boundary s n) := by
  unfold State.boundary
  try dsimp only
  repeat' (first | intro _ | with_reducible (first | assumption | apply State.msi_keeps | apply State.put64_keeps | apply State.modSys_keeps | apply State.atTime_keeps | apply State.holdEscalated_keeps | apply State.ddBoundary_keeps | apply State.put_keeps | apply ite_keeps | apply foldl_keeps | apply foldl_keeps_snd) | split | simp only [Keeps.mk_iff] | dsimp only)

theorem State.chooseSources_keeps {s : State} {n : Nat} (hk : Keeps σ s) : Keeps σ (State.chooseSources s n) := by
  unfold State.chooseSources
  try dsimp only
  repeat' (first | intro _ | with_reducible (first | assumption | apply State.decideFrame_keeps | apply State.sendMirror_keeps | apply ite_keeps | apply foldl_keeps | apply foldl_keeps_snd) | split | simp only [Keeps.mk_iff] | dsimp only)

theorem State.closeFrame_keeps {s : State} {n : Nat} (hk : Keeps σ s) : Keeps σ (State.closeFrame s n) := by
  unfold State.closeFrame
  try dsimp only
  repeat' (first | intro _ | with_reducible (first | assumption | apply State.finishDirect_keeps | apply State.finishSums_keeps | apply State.dropLate_keeps | apply State.sendSignatures_keeps | apply State.closeAccounts_keeps | apply State.showCal_keeps | apply ite_keeps | apply foldl_keeps | apply foldl_keeps_snd) | split | simp only [Keeps.mk_iff] | dsimp only)

theorem State.convertPicture_keeps {s : State} {base : Nat} {w : Nat} {h : Nat} {skim : Bool} (hk : Keeps σ s) : Keeps σ (State.convertPicture s base w h skim) := by
  unfold State.convertPicture
  try dsimp only
  repeat' (first | intro _ | with_reducible (first | assumption | apply State.writePicture_keeps | apply ite_keeps | apply foldl_keeps | apply foldl_keeps_snd) | split | simp only [Keeps.mk_iff] | dsimp only)

theorem State.countSame_keeps {s : State} (hk : Keeps σ s) : Keeps σ (State.countSame s) := by
  unfold State.countSame
  try dsimp only
  repeat' (first | intro _ | with_reducible (first | assumption | apply State.modSys_keeps | apply ite_keeps | apply foldl_keeps | apply foldl_keeps_snd) | split | simp only [Keeps.mk_iff] | dsimp only)

theorem State.switchRate_keeps {s : State} (hk : Keeps σ s) : Keeps σ (State.switchRate s) := by
  unfold State.switchRate
  try dsimp only
  repeat' (first | intro _ | with_reducible (first | assumption | apply State.put_keeps | apply State.atTime_keeps | apply State.put64_keeps | apply State.modSys_keeps | apply State.settleLattice_keeps | apply State.refreshAll_keeps | apply State.calRate_keeps | apply State.tally_keeps | apply State.noteMode_keeps | apply ite_keeps | apply foldl_keeps | apply foldl_keeps_snd) | split | simp only [Keeps.mk_iff] | dsimp only)

theorem State.endOldLattice_keeps {s : State} (hk : Keeps σ s) : Keeps σ (State.endOldLattice s) := by
  unfold State.endOldLattice
  try dsimp only
  repeat' (first | intro _ | with_reducible (first | assumption | apply State.switchRate_keeps | apply ite_keeps | apply foldl_keeps | apply foldl_keeps_snd) | split | simp only [Keeps.mk_iff] | dsimp only)

theorem State.finishMode_keeps {s : State} {m : ModeTrans} (hk : Keeps σ s) : Keeps σ (State.finishMode s m) := by
  unfold State.finishMode
  try dsimp only
  repeat' (first | intro _ | with_reducible (first | assumption | apply State.modSys_keeps | apply State.putFlag_keeps | apply State.modeResult_keeps | apply State.raise_keeps | apply State.put_keeps | apply State.wakeStep_keeps | apply ite_keeps | apply foldl_keeps | apply foldl_keeps_snd) | split | simp only [Keeps.mk_iff] | dsimp only)

theorem State.modeStep_keeps {s : State} {k : Nat} (hk : Keeps σ s) : Keeps σ (State.modeStep s k) := by
  unfold State.modeStep
  try dsimp only
  repeat' (first | intro _ | with_reducible (first | assumption | apply State.ownPower_keeps | apply State.refreshAll_keeps | apply State.noteMode_keeps | apply State.put_keeps | apply State.applyPower_keeps | apply ite_keeps | apply foldl_keeps | apply foldl_keeps_snd) | split | simp only [Keeps.mk_iff] | dsimp only)

theorem doAdvanceWrite_keeps {s : State} {value : Word} (hk : Keeps σ s) : Keeps σ (doAdvanceWrite value s) := by
  unfold doAdvanceWrite
  try dsimp only
  repeat' (first | intro _ | with_reducible (first | assumption | apply State.refreshAll_keeps | apply State.put_keeps | apply State.rejectS_keeps | apply State.tally_keeps | apply State.putFlag_keeps | apply ite_keeps | apply foldl_keeps | apply foldl_keeps_snd) | split | simp only [Keeps.mk_iff] | dsimp only)

theorem doModeRequest_keeps {s : State} {value : Word} (hk : Keeps σ s) : Keeps σ (doModeRequest value s) := by
  unfold doModeRequest
  try dsimp only
  repeat' (first | intro _ | with_reducible (first | assumption | apply State.setReg_keeps | apply State.tally_keeps | apply State.raise_keeps | apply State.modeResult_keeps | apply State.modSys_keeps | apply State.mirroredFrom_keeps | apply acceptMode_keeps | apply ite_keeps | apply foldl_keeps | apply foldl_keeps_snd) | split | simp only [Keeps.mk_iff] | dsimp only)

theorem State.showRunning_keeps {s : State} {old : List Chan} (hk : Keeps σ s) : Keeps σ (State.showRunning s old) := by
  unfold State.showRunning
  try dsimp only
  repeat' (first | intro _ | with_reducible (first | assumption | apply State.put_keeps | apply State.each_keeps | apply State.putFlag_keeps | apply State.showZones_keeps | apply State.showCurves_keeps | apply ite_keeps | apply foldl_keeps | apply foldl_keeps_snd) | split | simp only [Keeps.mk_iff] | dsimp only)

theorem State.startWork_keeps {s : State} {n : Nat} {old : List Chan} {active : Bool} (hk : Keeps σ s) : Keeps σ (State.startWork s n old active) := by
  unfold State.startWork
  try dsimp only
  repeat' (first | intro _ | with_reducible (first | assumption | apply State.each_keeps | apply State.advanceSeq_keeps | apply State.wbStart_keeps | apply State.refreshFix_keeps | apply State.refreshDvl_keeps | apply State.darkStopped_keeps | apply State.sendSnapshot_keeps | apply State.sendWindows_keeps | apply State.showRunning_keeps | apply State.ddWorkStart_keeps | apply State.refreshDd_keeps | apply ite_keeps | apply foldl_keeps | apply foldl_keeps_snd) | split | simp only [Keeps.mk_iff] | dsimp only)

theorem State.takeChanges_keeps {s : State} {n : Nat} (hk : Keeps σ s) : Keeps σ (State.takeChanges s n) := by
  unfold State.takeChanges
  try dsimp only
  repeat' (first | intro _ | with_reducible (first | assumption | apply State.countSame_keeps | apply State.wakeStep_keeps | apply State.actDeferred_keeps | apply State.takePartial_keeps | apply State.standinStep_keeps | apply State.modeStep_keeps | apply State.applyCorrections_keeps | apply State.noteInput_keeps | apply State.applyModels_keeps | apply State.autoHold_keeps | apply ite_keeps | apply foldl_keeps | apply foldl_keeps_snd) | split | simp only [Keeps.mk_iff] | dsimp only)

theorem State.workStart_keeps {s : State} {n : Nat} (hk : Keeps σ s) : Keeps σ (State.workStart s n) := by
  unfold State.workStart
  try dsimp only
  repeat' (first | intro _ | with_reducible (first | assumption | apply State.modSys_keeps | apply State.atTime_keeps | apply State.takeChanges_keeps | apply State.closeFrame_keeps | apply State.startWork_keeps | apply State.chooseSources_keeps | apply State.latch_keeps | apply ite_keeps | apply foldl_keeps | apply foldl_keeps_snd) | split | simp only [Keeps.mk_iff] | dsimp only)

theorem doBgEscalate_keeps {s0 : State} {a : Nat} (hk : Keeps σ s0) : Keeps σ (doBgEscalate a s0) := by
  unfold doBgEscalate
  try dsimp only
  repeat' (first | intro _ | with_reducible (first | assumption | apply State.atUptime_keeps | apply State.put_keeps | apply State.modBg_keeps | apply State.bump_keeps | apply State.tally_keeps | apply State.putFlag_keeps | apply ite_keeps | apply foldl_keeps | apply foldl_keeps_snd) | split | simp only [Keeps.mk_iff] | dsimp only)

theorem doBgRestored_keeps {s : State} {a : Nat} (hk : Keeps σ s) : Keeps σ (doBgRestored a s) := by
  unfold doBgRestored
  try dsimp only
  repeat' (first | intro _ | with_reducible (first | assumption | apply State.modBg_keeps | apply State.tally_keeps | apply State.put_keeps | apply ite_keeps | apply foldl_keeps | apply foldl_keeps_snd) | split | simp only [Keeps.mk_iff] | dsimp only)

theorem doFrameBoundary_keeps {s : State} (hk : Keeps σ s) : Keeps σ (doFrameBoundary s) := by
  unfold doFrameBoundary
  try dsimp only
  repeat' (first | intro _ | with_reducible (first | assumption | apply State.endOldLattice_keeps | apply State.boundary_keeps | apply ite_keeps | apply foldl_keeps | apply foldl_keeps_snd) | split | simp only [Keeps.mk_iff] | dsimp only)

theorem doModeChange_keeps {s : State} (hk : Keeps σ s) : Keeps σ (doModeChange s) := by
  unfold doModeChange
  try dsimp only
  repeat' (first | intro _ | with_reducible (first | assumption | apply State.gateEngines_keeps | apply State.noteMode_keeps | apply State.enterHold_keeps | apply State.finishMode_keeps | apply State.ddMode_keeps | apply State.modSys_keeps | apply ite_keeps | apply foldl_keeps | apply foldl_keeps_snd) | split | simp only [Keeps.mk_iff] | dsimp only)

theorem doPrecisionChange_keeps {s : State} (hk : Keeps σ s) : Keeps σ (doPrecisionChange s) := by
  unfold doPrecisionChange
  try dsimp only
  repeat' (first | intro _ | with_reducible (first | assumption | apply State.noteMode_keeps | apply State.putFlag_keeps | apply State.each_keeps | apply State.convertPicture_keeps | apply State.modStream_keeps | apply State.noteInput_keeps | apply State.refreshAll_keeps | apply State.gateEngines_keeps | apply State.reloadStores_keeps | apply State.dropAllStaged_keeps | apply State.voidWindows_keeps | apply State.beginRate_keeps | apply ite_keeps | apply foldl_keeps | apply foldl_keeps_snd) | split | simp only [Keeps.mk_iff] | dsimp only)

theorem doRateChange_keeps {s : State} (hk : Keeps σ s) : Keeps σ (doRateChange s) := by
  unfold doRateChange
  try dsimp only
  repeat' (first | intro _ | with_reducible (first | assumption | apply State.switchRate_keeps | apply ite_keeps | apply foldl_keeps | apply foldl_keeps_snd) | split | simp only [Keeps.mk_iff] | dsimp only)

theorem doWorkStart_keeps {s : State} (hk : Keeps σ s) : Keeps σ (doWorkStart s) := by
  unfold doWorkStart
  try dsimp only
  repeat' (first | intro _ | with_reducible (first | assumption | apply State.workStart_keeps | apply State.switchRate_keeps | apply ite_keeps | apply foldl_keeps | apply foldl_keeps_snd) | split | simp only [Keeps.mk_iff] | dsimp only)

end Sys2Proof.Machine
end

