-- ==== Sys2Proof/Laws/KeepTally.lean ====
section
/-! SUPPORT. What the operations of Machine/Tally keep (Laws/Keep). -/
namespace Sys2Proof.Machine

variable {σ : State}

theorem State.modTly_keeps {s : State} {f : Tly → Tly} (hk : Keeps σ s) : Keeps σ (State.modTly s f) := by
  unfold State.modTly
  try dsimp only
  repeat' (first | intro _ | with_reducible (first | assumption | apply ite_keeps | apply foldl_keeps | apply foldl_keeps_snd) | split | simp only [Keeps.mk_iff] | dsimp only)

theorem State.loseOverwritten_keeps {s : State} {n : Nat} (hk : Keeps σ s) : Keeps σ (State.loseOverwritten s n) := by
  unfold State.loseOverwritten
  try dsimp only
  repeat' (first | intro _ | with_reducible (first | assumption | apply State.raise_keeps | apply State.add_keeps | apply State.modTly_keeps | apply ite_keeps | apply foldl_keeps | apply foldl_keeps_snd) | split | simp only [Keeps.mk_iff] | dsimp only)

theorem State.clearCovered_keeps {s : State} {off : Nat} {len : Nat} (hk : Keeps σ s) : Keeps σ (State.clearCovered s off len) := by
  unfold State.clearCovered
  try dsimp only
  repeat' (first | intro _ | with_reducible (first | assumption | apply State.modTly_keeps | apply State.each_keeps | apply State.bump_keeps | apply State.writeTally_keeps | apply State.loseOverwritten_keeps | apply ite_keeps | apply foldl_keeps | apply foldl_keeps_snd) | split | simp only [Keeps.mk_iff] | dsimp only)

theorem State.syncRing_keeps {s : State} {next : Nat} (hk : Keeps σ s) : Keeps σ (State.syncRing s next) := by
  unfold State.syncRing
  try dsimp only
  repeat' (first | intro _ | with_reducible (first | assumption | apply State.put_keeps | apply ite_keeps | apply foldl_keeps | apply foldl_keeps_snd) | split | simp only [Keeps.mk_iff] | dsimp only)

theorem State.writeRecord_keeps {s : State} {r : TallyRec} {done : Bool} (hk : Keeps σ s) : Keeps σ (State.writeRecord s r done) := by
  unfold State.writeRecord
  try dsimp only
  repeat' (first | intro _ | with_reducible (first | assumption | apply State.writeTally_keeps | apply State.clearCovered_keeps | apply State.put64_keeps | apply State.modTly_keeps | apply State.syncRing_keeps | apply ite_keeps | apply foldl_keeps | apply foldl_keeps_snd) | split | simp only [Keeps.mk_iff] | dsimp only)

theorem State.setTokens_keeps {s : State} {code : Nat} {n : Nat} (hk : Keeps σ s) : Keeps σ (State.setTokens s code n) := by
  unfold State.setTokens
  try dsimp only
  repeat' (first | intro _ | with_reducible (first | assumption | apply State.modTly_keeps | apply ite_keeps | apply foldl_keeps | apply foldl_keeps_snd) | split | simp only [Keeps.mk_iff] | dsimp only)

theorem State.acceptRecord_keeps {s : State} {r : TallyRec} {done : Bool} (hk : Keeps σ s) : Keeps σ (State.acceptRecord s r done) := by
  unfold State.acceptRecord
  try dsimp only
  repeat' (first | intro _ | with_reducible (first | assumption | apply State.writeRecord_keeps | apply State.setTokens_keeps | apply State.raise_keeps | apply State.bump_keeps | apply State.modTly_keeps | apply ite_keeps | apply foldl_keeps | apply foldl_keeps_snd) | split | simp only [Keeps.mk_iff] | dsimp only)

theorem State.writeCode_keeps {s : State} {code : Nat} {value : Nat} (hk : Keeps σ s) : Keeps σ (State.writeCode s code value) := by
  unfold State.writeCode
  try dsimp only
  repeat' (first | intro _ | with_reducible (first | assumption | apply State.put_keeps | apply State.setTokens_keeps | apply ite_keeps | apply foldl_keeps | apply foldl_keeps_snd) | split | simp only [Keeps.mk_iff] | dsimp only)

theorem State.badSector_keeps {s : State} {i : Nat} {cause : Nat} (hk : Keeps σ s) : Keeps σ (State.badSector s i cause) := by
  unfold State.badSector
  try dsimp only
  repeat' (first | intro _ | with_reducible (first | assumption | apply State.tally_keeps | apply State.raise_keeps | apply State.bump_keeps | apply State.modTly_keeps | apply ite_keeps | apply foldl_keeps | apply foldl_keeps_snd) | split | simp only [Keeps.mk_iff] | dsimp only)

theorem State.closeRecord_keeps {s : State} (hk : Keeps σ s) : Keeps σ (State.closeRecord s) := by
  unfold State.closeRecord
  try dsimp only
  repeat' (first | intro _ | with_reducible (first | assumption | apply State.raise_keeps | apply State.bump_keeps | apply State.modTly_keeps | apply State.writeTally_keeps | apply ite_keeps | apply foldl_keeps | apply foldl_keeps_snd) | split | simp only [Keeps.mk_iff] | dsimp only)

theorem doInjectionCancelled_keeps {s : State} {key : Nat} (hk : Keeps σ s) : Keeps σ (doInjectionCancelled key s) := by
  unfold doInjectionCancelled
  try dsimp only
  repeat' (first | intro _ | with_reducible (first | assumption | apply State.cancelArmed_keeps | apply ite_keeps | apply foldl_keeps | apply foldl_keeps_snd) | split | simp only [Keeps.mk_iff] | dsimp only)

theorem doInjectionArmed_keeps {s : State} {key : Nat} (hk : Keeps σ s) : Keeps σ (doInjectionArmed key s) := by
  unfold doInjectionArmed
  try dsimp only
  repeat' (first | intro _ | with_reducible (first | assumption | apply State.raise_keeps | apply State.advance_keeps | apply State.put_keeps | apply State.tally_keeps | apply State.syncArmed_keeps | apply ite_keeps | apply foldl_keeps | apply foldl_keeps_snd) | split | simp only [Keeps.mk_iff] | dsimp only)

theorem State.openSector_keeps {s : State} {i : Nat} {first : Nat} (hk : Keeps σ s) : Keeps σ (State.openSector s i first) := by
  unfold State.openSector
  try dsimp only
  repeat' (first | intro _ | with_reducible (first | assumption | apply State.modTly_keeps | apply State.writeFlash_keeps | apply State.keepFlash_keeps | apply ite_keeps | apply foldl_keeps | apply foldl_keeps_snd) | split | simp only [Keeps.mk_iff] | dsimp only)

theorem State.scanMirror_keeps {s : State} (hk : Keeps σ s) : Keeps σ (State.scanMirror s) := by
  unfold State.scanMirror
  try dsimp only
  repeat' (first | intro _ | with_reducible (first | assumption | apply State.modTly_keeps | apply State.put_keeps | apply State.tally_keeps | apply State.putFlag_keeps | apply ite_keeps | apply foldl_keeps | apply foldl_keeps_snd) | split | simp only [Keeps.mk_iff] | dsimp only)

theorem State.reportLost_keeps {s : State} (hk : Keeps σ s) : Keeps σ (State.reportLost s) := by
  unfold State.reportLost
  try dsimp only
  repeat' (first | intro _ | with_reducible (first | assumption | apply State.tally_keeps | apply State.modTly_keeps | apply ite_keeps | apply foldl_keeps | apply foldl_keeps_snd) | split | simp only [Keeps.mk_iff] | dsimp only)

theorem doCheckValue_keeps {s : State} {u : Nat} {a : Nat} {n : Nat} {variant : Nat} {message : List Nat} (hk : Keeps σ s) : Keeps σ (doCheckValue u a n variant message s) := by
  unfold doCheckValue
  try dsimp only
  repeat' (first | intro _ | with_reducible (first | assumption | apply State.opportunity_keeps | apply State.opportunity_keeps' (e := by assumption) | apply State.bump_keeps | apply State.put64_keeps | apply State.tally_keeps | apply State.raise_keeps | apply State.detect_keeps | apply ite_keeps | apply foldl_keeps | apply foldl_keeps_snd) | split | simp only [Keeps.mk_iff] | dsimp only)

theorem doTallyMirror_keeps {s : State} {eraseFails : Bool} {programFails : Bool} (hk : Keeps σ s) : Keeps σ (doTallyMirror eraseFails programFails s) := by
  unfold doTallyMirror
  try dsimp only
  repeat' (first | intro _ | with_reducible (first | assumption | apply State.putFlag_keeps | apply State.badSector_keeps | apply State.openSector_keeps | apply State.writeFlash_keeps | apply State.put64_keeps | apply State.modTly_keeps | apply ite_keeps | apply foldl_keeps | apply foldl_keeps_snd) | split | simp only [Keeps.mk_iff] | dsimp only)

theorem doTallyRecord_keeps {s : State} {interrupted : Bool} (hk : Keeps σ s) : Keeps σ (doTallyRecord interrupted s) := by
  unfold doTallyRecord
  try dsimp only
  repeat' (first | intro _ | with_reducible (first | assumption | apply State.reportLost_keeps | apply State.acceptRecord_keeps | apply State.modTly_keeps | apply ite_keeps | apply foldl_keeps | apply foldl_keeps_snd) | split | simp only [Keeps.mk_iff] | dsimp only)

theorem doTallyReportSecond_keeps {s : State} (hk : Keeps σ s) : Keeps σ (doTallyReportSecond s) := by
  unfold doTallyReportSecond
  try dsimp only
  repeat' (first | intro _ | with_reducible (first | assumption | apply State.each_keeps | apply State.modTly_keeps | apply State.writeRecord_keeps | apply ite_keeps | apply foldl_keeps | apply foldl_keeps_snd) | split | simp only [Keeps.mk_iff] | dsimp only)

end Sys2Proof.Machine
end

