-- ==== Sys2Proof/Laws/KeepUpdate.lean ====
section
/-! SUPPORT. What the operations of Machine/Update keep (Laws/Keep). -/
namespace Sys2Proof.Machine

variable {σ : State}

theorem State.modUpd_keeps {s : State} {f : Upd → Upd} (hk : Keeps σ s) : Keeps σ (State.modUpd s f) := by
  unfold State.modUpd
  try dsimp only
  repeat' (first | intro _ | with_reducible (first | assumption | apply ite_keeps | apply foldl_keeps | apply foldl_keeps_snd) | split | simp only [Keeps.mk_iff] | dsimp only)

theorem State.askCore_keeps {s : State} {core : Nat} (hk : Keeps σ s) : Keeps σ (State.askCore s core) := by
  unfold State.askCore
  try dsimp only
  repeat' (first | intro _ | with_reducible (first | assumption | apply State.modUpd_keeps | apply State.put_keeps | apply ite_keeps | apply foldl_keeps | apply foldl_keeps_snd) | split | simp only [Keeps.mk_iff] | dsimp only)

theorem State.showSlots_keeps {s : State} (hk : Keeps σ s) : Keeps σ (State.showSlots s) := by
  unfold State.showSlots
  try dsimp only
  repeat' (first | intro _ | with_reducible (first | assumption | apply State.each_keeps | apply State.putFlag_keeps | apply State.put_keeps | apply ite_keeps | apply foldl_keeps | apply foldl_keeps_snd) | split | simp only [Keeps.mk_iff] | dsimp only)

theorem State.writeSlots_keeps {s : State} {copy : Nat} {seq : Nat} {l : List SlotEntry} (hk : Keeps σ s) : Keeps σ (State.writeSlots s copy seq l) := by
  unfold State.writeSlots
  try dsimp only
  repeat' (first | intro _ | with_reducible (first | assumption | apply State.showSlots_keeps | apply State.writeFlash_keeps | apply ite_keeps | apply foldl_keeps | apply foldl_keeps_snd) | split | simp only [Keeps.mk_iff] | dsimp only)

theorem State.updateSlots_keeps {s : State} {fails : Nat} {f : Nat → Nat → SlotEntry → SlotEntry} (hk : Keeps σ s) : Keeps σ (State.updateSlots s fails f) := by
  unfold State.updateSlots
  try dsimp only
  repeat' (first | intro _ | with_reducible (first | assumption | apply State.writeSlots_keeps | apply State.tally_keeps | apply State.raise_keeps | apply ite_keeps | apply foldl_keeps | apply foldl_keeps_snd) | split | simp only [Keeps.mk_iff] | dsimp only)

theorem State.updIdle_keeps {s : State} (hk : Keeps σ s) : Keeps σ (State.updIdle s) := by
  unfold State.updIdle
  try dsimp only
  repeat' (first | intro _ | with_reducible (first | assumption | apply State.modUpd_keeps | apply State.put_keeps | apply ite_keeps | apply foldl_keeps | apply foldl_keeps_snd) | split | simp only [Keeps.mk_iff] | dsimp only)

theorem State.finishRevert_keeps {s : State} {fails : Nat} (hk : Keeps σ s) : Keeps σ (State.finishRevert s fails) := by
  unfold State.finishRevert
  try dsimp only
  repeat' (first | intro _ | with_reducible (first | assumption | apply State.modUpd_keeps | apply State.updateSlots_keeps | apply State.updIdle_keeps | apply State.tally_keeps | apply State.raise_keeps | apply ite_keeps | apply foldl_keeps | apply foldl_keeps_snd) | split | simp only [Keeps.mk_iff] | dsimp only)

theorem State.beginRevert_keeps {s : State} {cause : Nat} (hk : Keeps σ s) : Keeps σ (State.beginRevert s cause) := by
  unfold State.beginRevert
  try dsimp only
  repeat' (first | intro _ | with_reducible (first | assumption | apply State.modUpd_keeps | apply State.finishRevert_keeps | apply State.askCore_keeps | apply State.put_keeps | apply ite_keeps | apply foldl_keeps | apply foldl_keeps_snd) | split | simp only [Keeps.mk_iff] | dsimp only)

theorem State.bootKind_keeps {s : State} {kind : Nat} (hk : Keeps σ s) : Keeps σ (State.bootKind s kind).2 := by
  unfold State.bootKind
  try dsimp only
  repeat' (first | intro _ | with_reducible (first | assumption | apply State.each_keeps | apply State.updateSlots_keeps | apply State.tally_keeps | apply ite_keeps | apply foldl_keeps | apply foldl_keeps_snd) | split | simp only [Keeps.mk_iff] | dsimp only)
theorem State.bootKind_keeps' {s : State} {kind : Nat} (hk : Keeps σ s) {a t} (e : State.bootKind s kind = (a, t)) : Keeps σ t := by
  have k := congrArg (fun q => Keeps σ q.2) e
  exact k ▸ State.bootKind_keeps hk

theorem State.showFirmware_keeps {s : State} (hk : Keeps σ s) : Keeps σ (State.showFirmware s) := by
  unfold State.showFirmware
  try dsimp only
  repeat' (first | intro _ | with_reducible (first | assumption | apply State.showSlots_keeps | apply State.each_keeps | apply State.put_keeps | apply ite_keeps | apply foldl_keeps | apply foldl_keeps_snd) | split | simp only [Keeps.mk_iff] | dsimp only)

theorem State.bootSlots_keeps {s : State} (hk : Keeps σ s) : Keeps σ (State.bootSlots s).2 := by
  unfold State.bootSlots
  try dsimp only
  repeat' (first | intro _ | with_reducible (first | assumption | apply State.bootKind_keeps | apply State.bootKind_keeps' (e := by assumption) | apply State.showFirmware_keeps | apply ite_keeps | apply foldl_keeps | apply foldl_keeps_snd) | split | simp only [Keeps.mk_iff] | dsimp only)
theorem State.bootSlots_keeps' {s : State} (hk : Keeps σ s) {a t} (e : State.bootSlots s = (a, t)) : Keeps σ t := by
  have k := congrArg (fun q => Keeps σ q.2) e
  exact k ▸ State.bootSlots_keeps hk

theorem State.resetCore_keeps {s : State} {n : Nat} (hk : Keeps σ s) : Keeps σ (State.resetCore s n) := by
  unfold State.resetCore
  try dsimp only
  repeat' (first | intro _ | with_reducible (first | assumption | apply State.syncHost_keeps | apply State.releaseSems_keeps | apply ite_keeps | apply foldl_keeps | apply foldl_keeps_snd) | split | simp only [Keeps.mk_iff] | dsimp only)

theorem State.burnFw_keeps {s : State} {v : Nat} (hk : Keeps σ s) : Keeps σ (State.burnFw s v) := by
  unfold State.burnFw
  exact hk.trans ⟨⟨rfl, List.prefix_refl _, Nat.le_refl _, Nat.le_max_left _ _, Nat.le_refl _, rfl⟩, id⟩

theorem State.burnStr_keeps {s : State} {v : Nat} (hk : Keeps σ s) : Keeps σ (State.burnStr s v) := by
  unfold State.burnStr
  exact hk.trans ⟨⟨rfl, List.prefix_refl _, Nat.le_refl _, Nat.le_refl _, Nat.le_max_left _ _, rfl⟩, id⟩

theorem State.updCommand_keeps {s : State} {value : Nat} (hk : Keeps σ s) : Keeps σ (State.updCommand s value) := by
  unfold State.updCommand
  try dsimp only
  repeat' (first | intro _ | with_reducible (first | assumption | apply State.put_keeps | apply ite_keeps | apply foldl_keeps | apply foldl_keeps_snd) | split | simp only [Keeps.mk_iff] | dsimp only)

theorem State.updResult_keeps {s : State} {status : Nat} {check : Nat} (hk : Keeps σ s) : Keeps σ (State.updResult s status check) := by
  unfold State.updResult
  try dsimp only
  repeat' (first | intro _ | with_reducible (first | assumption | apply State.raise_keeps | apply State.advance_keeps | apply State.put_keeps | apply ite_keeps | apply foldl_keeps | apply foldl_keeps_snd) | split | simp only [Keeps.mk_iff] | dsimp only)

theorem doFwLoad_keeps {s : State} {value : Word} (hk : Keeps σ s) : Keeps σ (doFwLoad value s) := by
  unfold doFwLoad
  try dsimp only
  repeat' (first | intro _ | with_reducible (first | assumption | apply State.updCommand_keeps | apply State.opportunity_keeps | apply State.opportunity_keeps' (e := by assumption) | apply State.detect_keeps | apply State.tally_keeps | apply State.updResult_keeps | apply State.writeBulk_keeps | apply State.put_keeps | apply State.modUpd_keeps | apply ite_keeps | apply foldl_keeps | apply foldl_keeps_snd) | split | simp only [Keeps.mk_iff] | dsimp only)

theorem State.tryConfirm_keeps {s : State} {fails : Nat} (hk : Keeps σ s) : Keeps σ (State.tryConfirm s fails) := by
  unfold State.tryConfirm
  try dsimp only
  repeat' (first | intro _ | with_reducible (first | assumption | apply State.modUpd_keeps | apply State.updateSlots_keeps | apply State.updResult_keeps | apply State.updIdle_keeps | apply State.tally_keeps | apply State.raise_keeps | apply ite_keeps | apply foldl_keeps | apply foldl_keeps_snd) | split | simp only [Keeps.mk_iff] | dsimp only)

theorem doFwConfirm_keeps {s : State} {tableFails : Nat} (hk : Keeps σ s) : Keeps σ (doFwConfirm tableFails s) := by
  unfold doFwConfirm
  try dsimp only
  repeat' (first | intro _ | with_reducible (first | assumption | apply State.put_keeps | apply State.tryConfirm_keeps | apply State.updResult_keeps | apply State.modUpd_keeps | apply ite_keeps | apply foldl_keeps | apply foldl_keeps_snd) | split | simp only [Keeps.mk_iff] | dsimp only)

theorem doFwRevert_keeps {s : State} (hk : Keeps σ s) : Keeps σ (doFwRevert s) := by
  unfold doFwRevert
  try dsimp only
  repeat' (first | intro _ | with_reducible (first | assumption | apply State.put_keeps | apply State.beginRevert_keeps | apply State.updResult_keeps | apply ite_keeps | apply foldl_keeps | apply foldl_keeps_snd) | split | simp only [Keeps.mk_iff] | dsimp only)

theorem doFwAbort_keeps {s : State} (hk : Keeps σ s) : Keeps σ (doFwAbort s) := by
  unfold doFwAbort
  try dsimp only
  repeat' (first | intro _ | with_reducible (first | assumption | apply State.put_keeps | apply State.updateSlots_keeps | apply State.updResult_keeps | apply State.updIdle_keeps | apply ite_keeps | apply foldl_keeps | apply foldl_keeps_snd) | split | simp only [Keeps.mk_iff] | dsimp only)

theorem doBurnFwCounter_keeps {s : State} (hk : Keeps σ s) : Keeps σ (doBurnFwCounter s) := by
  unfold doBurnFwCounter
  try dsimp only
  repeat' (first | intro _ | with_reducible (first | assumption | apply State.put_keeps | apply State.updResult_keeps | apply State.updateSlots_keeps | apply State.burnFw_keeps | apply State.tally_keeps | apply State.raise_keeps | apply ite_keeps | apply foldl_keeps | apply foldl_keeps_snd) | split | simp only [Keeps.mk_iff] | dsimp only)

theorem doBurnStrCounter_keeps {s : State} (hk : Keeps σ s) : Keeps σ (doBurnStrCounter s) := by
  unfold doBurnStrCounter
  try dsimp only
  repeat' (first | intro _ | with_reducible (first | assumption | apply State.put_keeps | apply State.updResult_keeps | apply State.burnStr_keeps | apply State.tally_keeps | apply State.raise_keeps | apply ite_keeps | apply foldl_keeps | apply foldl_keeps_snd) | split | simp only [Keeps.mk_iff] | dsimp only)

theorem State.reportCore_keeps {s : State} {core : Nat} {old : Nat} {v : Nat} {gap : Nat} (hk : Keeps σ s) : Keeps σ (State.reportCore s core old v gap) := by
  unfold State.reportCore
  try dsimp only
  repeat' (first | intro _ | with_reducible (first | assumption | apply State.tally_keeps | apply State.raise_keeps | apply State.put_keeps | apply ite_keeps | apply foldl_keeps | apply foldl_keeps_snd) | split | simp only [Keeps.mk_iff] | dsimp only)

theorem State.updWatchdog_keeps {s : State} {core : Nat} (hk : Keeps σ s) : Keeps σ (State.updWatchdog s core) := by
  unfold State.updWatchdog
  try dsimp only
  repeat' (first | intro _ | with_reducible (first | assumption | apply State.modUpd_keeps | apply State.each_keeps | apply State.voidOpen_keeps | apply State.beginRevert_keeps | apply ite_keeps | apply foldl_keeps | apply foldl_keeps_snd) | split | simp only [Keeps.mk_iff] | dsimp only)

theorem doConfirmWindowExpire_keeps {s : State} (hk : Keeps σ s) : Keeps σ (doConfirmWindowExpire s) := by
  unfold doConfirmWindowExpire
  try dsimp only
  repeat' (first | intro _ | with_reducible (first | assumption | apply State.beginRevert_keeps | apply State.put_keeps | apply State.atUptime_keeps | apply ite_keeps | apply foldl_keeps | apply foldl_keeps_snd) | split | simp only [Keeps.mk_iff] | dsimp only)

theorem doFwHandover_keeps {s : State} {tableFails : Nat} (hk : Keeps σ s) : Keeps σ (doFwHandover tableFails s) := by
  unfold doFwHandover
  try dsimp only
  repeat' (first | intro _ | with_reducible (first | assumption | apply State.modUpd_keeps | apply State.reportCore_keeps | apply State.askCore_keeps | apply State.updateSlots_keeps | apply State.put_keeps | apply State.finishRevert_keeps | apply ite_keeps | apply foldl_keeps | apply foldl_keeps_snd) | split | simp only [Keeps.mk_iff] | dsimp only)

theorem doFwSelfConfirm_keeps {s : State} {tableFails : Nat} (hk : Keeps σ s) : Keeps σ (doFwSelfConfirm tableFails s) := by
  unfold doFwSelfConfirm
  try dsimp only
  repeat' (first | intro _ | with_reducible (first | assumption | apply State.tryConfirm_keeps | apply State.modUpd_keeps | apply ite_keeps | apply foldl_keeps | apply foldl_keeps_snd) | split | simp only [Keeps.mk_iff] | dsimp only)

theorem doFwStaged_keeps {s : State} {outcome : Nat} (hk : Keeps σ s) : Keeps σ (doFwStaged outcome s) := by
  unfold doFwStaged
  try dsimp only
  repeat' (first | intro _ | with_reducible (first | assumption | apply State.updateSlots_keeps | apply State.updResult_keeps | apply State.updIdle_keeps | apply State.tally_keeps | apply State.raise_keeps | apply State.writeFlash_keeps | apply State.put_keeps | apply State.askCore_keeps | apply State.modUpd_keeps | apply ite_keeps | apply foldl_keeps | apply foldl_keeps_snd) | split | simp only [Keeps.mk_iff] | dsimp only)

theorem doQuiesceAck_keeps {s : State} (hk : Keeps σ s) : Keeps σ (doQuiesceAck s) := by
  unfold doQuiesceAck
  try dsimp only
  repeat' (first | intro _ | with_reducible (first | assumption | apply State.resetCore_keeps | apply ite_keeps | apply foldl_keeps | apply foldl_keeps_snd) | split | simp only [Keeps.mk_iff] | dsimp only)

theorem doQuiesceTimeout_keeps {s : State} (hk : Keeps σ s) : Keeps σ (doQuiesceTimeout s) := by
  unfold doQuiesceTimeout
  try dsimp only
  repeat' (first | intro _ | with_reducible (first | assumption | apply State.beginRevert_keeps | apply State.updResult_keeps | apply ite_keeps | apply foldl_keeps | apply foldl_keeps_snd) | split | simp only [Keeps.mk_iff] | dsimp only)

theorem doSelfCheckFailed_keeps {s : State} (hk : Keeps σ s) : Keeps σ (doSelfCheckFailed s) := by
  unfold doSelfCheckFailed
  try dsimp only
  repeat' (first | intro _ | with_reducible (first | assumption | apply State.beginRevert_keeps | apply ite_keeps | apply foldl_keeps | apply foldl_keeps_snd) | split | simp only [Keeps.mk_iff] | dsimp only)

end Sys2Proof.Machine
end

