-- ==== Sys2Proof/Laws/KeepPower.lean ====
section
/-! SUPPORT. What the operations of Machine/Power keep (Laws/Keep). -/
namespace Sys2Proof.Machine

variable {σ : State}

theorem State.applyOptions_keeps {s : State} (hk : Keeps σ s) : Keeps σ (State.applyOptions s) := by
  unfold State.applyOptions
  try dsimp only
  repeat' (first | intro _ | with_reducible (first | assumption | apply State.putFlag_keeps | apply ite_keeps | apply foldl_keeps | apply foldl_keeps_snd) | split | simp only [Keeps.mk_iff] | dsimp only)

theorem State.syncIdle_keeps {s : State} (hk : Keeps σ s) : Keeps σ (State.syncIdle s) := by
  unfold State.syncIdle
  try dsimp only
  repeat' (first | intro _ | with_reducible (first | assumption | apply State.put_keeps | apply ite_keeps | apply foldl_keeps | apply foldl_keeps_snd) | split | simp only [Keeps.mk_iff] | dsimp only)

theorem State.modPwr_keeps {s : State} {f : Pwr → Pwr} (hk : Keeps σ s) : Keeps σ (State.modPwr s f) := by
  unfold State.modPwr
  try dsimp only
  repeat' (first | intro _ | with_reducible (first | assumption | apply ite_keeps | apply foldl_keeps | apply foldl_keeps_snd) | split | simp only [Keeps.mk_iff] | dsimp only)

theorem State.askIdle_keeps {s : State} {unit : Nat} {source : Nat} (hk : Keeps σ s) : Keeps σ (State.askIdle s unit source) := by
  unfold State.askIdle
  try dsimp only
  repeat' (first | intro _ | with_reducible (first | assumption | apply State.syncIdle_keeps | apply State.modPwr_keeps | apply ite_keeps | apply foldl_keeps | apply foldl_keeps_snd) | split | simp only [Keeps.mk_iff] | dsimp only)

theorem State.backToDormant_keeps {s : State} (hk : Keeps σ s) : Keeps σ (State.backToDormant s) := by
  unfold State.backToDormant
  try dsimp only
  repeat' (first | intro _ | with_reducible (first | assumption | apply State.modPwr_keeps | apply State.put_keeps | apply ite_keeps | apply foldl_keeps | apply foldl_keeps_snd) | split | simp only [Keeps.mk_iff] | dsimp only)

theorem State.enterPhase_keeps {s : State} {p : Nat} (hk : Keeps σ s) : Keeps σ (State.enterPhase s p) := by
  unfold State.enterPhase
  try dsimp only
  repeat' (first | intro _ | with_reducible (first | assumption | apply State.modPwr_keeps | apply State.put_keeps | apply ite_keeps | apply foldl_keeps | apply foldl_keeps_snd) | split | simp only [Keeps.mk_iff] | dsimp only)

theorem State.beginWake_keeps {s : State} {cause : Nat} {savedOk : Bool} (hk : Keeps σ s) : Keeps σ (State.beginWake s cause savedOk) := by
  unfold State.beginWake
  try dsimp only
  repeat' (first | intro _ | with_reducible (first | assumption | apply State.modPwr_keeps | apply State.enterPhase_keeps | apply ite_keeps | apply foldl_keeps | apply foldl_keeps_snd) | split | simp only [Keeps.mk_iff] | dsimp only)

theorem State.bootStructure_keeps {s : State} (hk : Keeps σ s) : Keeps σ (State.bootStructure s) := by
  unfold State.bootStructure
  try dsimp only
  repeat' (first | intro _ | with_reducible (first | assumption | apply State.tally_keeps | apply State.writeBulk_keeps | apply State.loadInjections_keeps | apply State.loadInjections_keeps' (e := by assumption) | apply State.applyFull_keeps | apply State.detect_keeps | apply ite_keeps | apply foldl_keeps | apply foldl_keeps_snd) | split | simp only [Keeps.mk_iff] | dsimp only)

theorem State.recordReset_keeps {s : State} {source : Nat} {reach : Nat} {absorbed : Bool} {mode : Nat} {frame : Nat} (hk : Keeps σ s) : Keeps σ (State.recordReset s source reach absorbed mode frame) := by
  unfold State.recordReset
  try dsimp only
  repeat' (first | intro _ | with_reducible (first | assumption | apply State.raise_keeps | apply State.bump_keeps | apply State.put_keeps | apply State.tally_keeps | apply ite_keeps | apply foldl_keeps | apply foldl_keeps_snd) | split | simp only [Keeps.mk_iff] | dsimp only)

theorem doBlkRst_keeps {s : State} {value : Word} (hk : Keeps σ s) : Keeps σ (doBlkRst value s) := by
  unfold doBlkRst
  try dsimp only
  repeat' (first | intro _ | with_reducible (first | assumption | apply State.putFlag_keeps | apply State.tally_keeps | apply State.raise_keeps | apply State.rejectS_keeps | apply State.each_keeps | apply State.recordReset_keeps | apply State.askIdle_keeps | apply ite_keeps | apply foldl_keeps | apply foldl_keeps_snd) | split | simp only [Keeps.mk_iff] | dsimp only)

theorem State.showFuses_keeps {s : State} (hk : Keeps σ s) : Keeps σ (State.showFuses s) := by
  unfold State.showFuses
  try dsimp only
  repeat' (first | intro _ | with_reducible (first | assumption | apply State.syncArmed_keeps | apply State.put_keeps | apply ite_keeps | apply foldl_keeps | apply foldl_keeps_snd) | split | simp only [Keeps.mk_iff] | dsimp only)

theorem State.resetAll_keeps {s : State} (hk : Keeps σ s) : Keeps σ (State.resetAll s) := by
  unfold State.resetAll
  refine State.showFuses_keeps (hk.trans ⟨⟨rfl, List.prefix_refl _, Nat.le_refl _, Nat.le_refl _, Nat.le_refl _, rfl⟩, fun c => ?_⟩)
  rw [State.canonical_iff] at c ⊢
  exact ⟨rfl, rfl, rfl, rfl, rfl, c.2.2.2.2.2⟩

theorem State.fastState_keeps {s : State} {keep : Nat → Bool} (hk : Keeps σ s) : Keeps σ (State.fastState s keep) := by
  unfold State.fastState
  try dsimp only
  repeat' (first | intro _ | with_reducible (first | assumption | apply State.clearPailMem_keeps | apply State.keepRegs_keeps | apply State.showFuses_keeps | apply ite_keeps | apply foldl_keeps | apply foldl_keeps_snd) | split | simp only [Keeps.mk_iff] | dsimp only)

theorem State.cancelByReset_keeps {s : State} {all : Bool} (hk : Keeps σ s) : Keeps σ (State.cancelByReset s all) := by
  unfold State.cancelByReset
  try dsimp only
  repeat' (first | intro _ | with_reducible (first | assumption | apply State.cancelArmed_keeps | apply ite_keeps | apply foldl_keeps | apply foldl_keeps_snd) | split | simp only [Keeps.mk_iff] | dsimp only)

theorem State.resetDevice_keeps {s : State} (hk : Keeps σ s) : Keeps σ (State.resetDevice s) := by
  unfold State.resetDevice
  try dsimp only
  repeat' (first | intro _ | with_reducible (first | assumption | apply State.fastState_keeps | apply State.cancelByReset_keeps | apply State.raise_keeps | apply State.put_keeps | apply State.ddHighImpedance_keeps | apply ite_keeps | apply foldl_keeps | apply foldl_keeps_snd) | split | simp only [Keeps.mk_iff] | dsimp only)

theorem State.setDomains_keeps {s : State} {ds : List Nat} (hk : Keeps σ s) : Keeps σ (State.setDomains s ds) := by
  unfold State.setDomains
  try dsimp only
  repeat' (first | intro _ | with_reducible (first | assumption | apply State.put_keeps | apply ite_keeps | apply foldl_keeps | apply foldl_keeps_snd) | split | simp only [Keeps.mk_iff] | dsimp only)

theorem State.onlyByre_keeps {s : State} (hk : Keeps σ s) : Keeps σ (State.onlyByre s) := by
  unfold State.onlyByre
  try dsimp only
  repeat' (first | intro _ | with_reducible (first | assumption | apply State.put_keeps | apply State.setDomains_keeps | apply ite_keeps | apply foldl_keeps | apply foldl_keeps_snd) | split | simp only [Keeps.mk_iff] | dsimp only)

theorem State.fastReset_keeps {s : State} (hk : Keeps σ s) : Keeps σ (State.fastReset s) := by
  unfold State.fastReset
  try dsimp only
  repeat' (first | intro _ | with_reducible (first | assumption | apply State.fastState_keeps | apply State.cancelByReset_keeps | apply State.modPwr_keeps | apply State.startPair_keeps | apply State.applyOptions_keeps | apply State.ddHighImpedance_keeps | apply State.onlyByre_keeps | apply ite_keeps | apply foldl_keeps | apply foldl_keeps_snd) | split | simp only [Keeps.mk_iff] | dsimp only)

theorem State.resetFast_keeps {s : State} (hk : Keeps σ s) : Keeps σ (State.resetFast s) := by
  unfold State.resetFast
  try dsimp only
  repeat' (first | intro _ | with_reducible (first | assumption | apply State.modPwr_keeps | apply State.enterPhase_keeps | apply State.fastReset_keeps | apply ite_keeps | apply foldl_keeps | apply foldl_keeps_snd) | split | simp only [Keeps.mk_iff] | dsimp only)

theorem State.resetByre_keeps {s : State} (hk : Keeps σ s) : Keeps σ (State.resetByre s) := by
  unfold State.resetByre
  try dsimp only
  repeat' (first | intro _ | with_reducible (first | assumption | apply State.each_keeps | apply State.emit_keeps | apply State.syncHost_keeps | apply State.releaseSems_keeps | apply State.add_keeps | apply State.tally_keeps | apply State.raise_keeps | apply State.finishRevert_keeps | apply State.modUpd_keeps | apply ite_keeps | apply foldl_keeps | apply foldl_keeps_snd) | split | simp only [Keeps.mk_iff] | dsimp only)

theorem State.resetCoreReach_keeps {s : State} {n : Nat} (hk : Keeps σ s) : Keeps σ (State.resetCoreReach s n) := by
  unfold State.resetCoreReach
  try dsimp only
  repeat' (first | intro _ | with_reducible (first | assumption | apply State.resetCore_keeps | apply ite_keeps | apply foldl_keeps | apply foldl_keeps_snd) | split | simp only [Keeps.mk_iff] | dsimp only)

theorem State.resetSerdes_keeps {s : State} (hk : Keeps σ s) : Keeps σ (State.resetSerdes s) := by
  unfold State.resetSerdes
  try dsimp only
  repeat' (first | intro _ | with_reducible (first | assumption | apply State.each_keeps | apply State.linkDown_keeps | apply ite_keeps | apply foldl_keeps | apply foldl_keeps_snd) | split | simp only [Keeps.mk_iff] | dsimp only)

theorem State.loseService_keeps {s : State} (hk : Keeps σ s) : Keeps σ (State.loseService s) := by
  unfold State.loseService
  try dsimp only
  repeat' (first | intro _ | with_reducible (first | assumption | apply State.syncPar_keeps | apply State.each_keeps | apply State.releaseDone_keeps | apply State.syncEngine_keeps | apply ite_keeps | apply foldl_keeps | apply foldl_keeps_snd) | split | simp only [Keeps.mk_iff] | dsimp only)

theorem State.warmAtOnce_keeps {s : State} (hk : Keeps σ s) : Keeps σ (State.warmAtOnce s) := by
  unfold State.warmAtOnce
  try dsimp only
  repeat' (first | intro _ | with_reducible (first | assumption | apply State.modSys_keeps | apply State.putFlag_keeps | apply State.put_keeps | apply State.each_keeps | apply State.ddEnter_keeps | apply State.modDd_keeps | apply ite_keeps | apply foldl_keeps | apply foldl_keeps_snd) | split | simp only [Keeps.mk_iff] | dsimp only)

theorem State.resetStructure_keeps {s : State} (hk : Keeps σ s) : Keeps σ (State.resetStructure s) := by
  unfold State.resetStructure
  try dsimp only
  repeat' (first | intro _ | with_reducible (first | assumption | apply State.each_keeps | apply State.loseService_keeps | apply State.syncPail_keeps | apply State.modPail_keeps | apply State.put_keeps | apply State.toReset_keeps | apply State.syncPar_keeps | apply State.refreshAll_keeps | apply State.relink_keeps | apply State.warmAtOnce_keeps | apply ite_keeps | apply foldl_keeps | apply foldl_keeps_snd) | split | simp only [Keeps.mk_iff] | dsimp only)

theorem State.emptyPail_keeps {s : State} {q : Pail} (hk : Keeps σ s) : Keeps σ (State.emptyPail s q) := by
  unfold State.emptyPail
  try dsimp only
  repeat' (first | intro _ | with_reducible (first | assumption | apply State.syncPail_keeps | apply State.modPail_keeps | apply State.freshPail_keeps | apply ite_keeps | apply foldl_keeps | apply foldl_keeps_snd) | split | simp only [Keeps.mk_iff] | dsimp only)

theorem State.resetParlour_keeps {s : State} (hk : Keeps σ s) : Keeps σ (State.resetParlour s) := by
  unfold State.resetParlour
  try dsimp only
  repeat' (first | intro _ | with_reducible (first | assumption | apply State.each_keeps | apply State.loseService_keeps | apply State.emptyPail_keeps | apply State.clearPailMem_keeps | apply State.toReset_keeps | apply State.syncPar_keeps | apply State.warmAtOnce_keeps | apply State.syncFlow_keeps | apply ite_keeps | apply foldl_keeps | apply foldl_keeps_snd) | split | simp only [Keeps.mk_iff] | dsimp only)

theorem State.resetChannels_keeps {s : State} (hk : Keeps σ s) : Keeps σ (State.resetChannels s) := by
  unfold State.resetChannels
  try dsimp only
  repeat' (first | intro _ | with_reducible (first | assumption | apply State.each_keeps | apply State.freshChannel_keeps | apply State.leaveStream_keeps | apply State.put_keeps | apply State.toReset_keeps | apply State.noteInput_keeps | apply State.refreshAll_keeps | apply State.syncCmd_keeps | apply State.warmAtOnce_keeps | apply ite_keeps | apply foldl_keeps | apply foldl_keeps_snd) | split | simp only [Keeps.mk_iff] | dsimp only)

theorem State.resetReach_keeps {s : State} {reach : Nat} {arg : Nat} (hk : Keeps σ s) : Keeps σ (State.resetReach s reach arg) := by
  unfold State.resetReach
  try dsimp only
  repeat' (first | intro _ | with_reducible (first | assumption | apply State.resetAll_keeps | apply State.resetDevice_keeps | apply State.resetFast_keeps | apply State.resetByre_keeps | apply State.resetCoreReach_keeps | apply State.resetSerdes_keeps | apply State.resetStructure_keeps | apply State.resetParlour_keeps | apply State.resetChannels_keeps | apply ite_keeps | apply foldl_keeps | apply foldl_keeps_snd) | split | simp only [Keeps.mk_iff] | dsimp only)

theorem State.takeReset_keeps {s : State} {source : Nat} {reach : Nat} {arg : Nat} (hk : Keeps σ s) : Keeps σ (State.takeReset s source reach arg) := by
  unfold State.takeReset
  try dsimp only
  repeat' (first | intro _ | with_reducible (first | assumption | apply State.recordReset_keeps | apply State.failPair_keeps | apply State.modPwr_keeps | apply State.resetReach_keeps | apply State.emit_keeps | apply State.each_keeps | apply State.closeRecord_keeps | apply ite_keeps | apply foldl_keeps | apply foldl_keeps_snd) | split | simp only [Keeps.mk_iff] | dsimp only)

theorem doSwReset_keeps {s : State} {value : Word} (hk : Keeps σ s) : Keeps σ (doSwReset value s) := by
  unfold doSwReset
  try dsimp only
  repeat' (first | intro _ | with_reducible (first | assumption | apply State.takeReset_keeps | apply ite_keeps | apply foldl_keeps | apply foldl_keeps_snd) | split | simp only [Keeps.mk_iff] | dsimp only)

theorem doParity_keeps {s : State} {addr : Nat} (hk : Keeps σ s) : Keeps σ (doParity addr s) := by
  unfold doParity
  try dsimp only
  repeat' (first | intro _ | with_reducible (first | assumption | apply State.tally_keeps | apply State.put_keeps | apply State.detected_keeps | apply State.takeReset_keeps | apply State.setReg_keeps | apply ite_keeps | apply foldl_keeps | apply foldl_keeps_snd) | split | simp only [Keeps.mk_iff] | dsimp only)

theorem State.checkBanks_keeps {s : State} {banks : Nat} (hk : Keeps σ s) : Keeps σ (State.checkBanks s banks) := by
  unfold State.checkBanks
  try dsimp only
  repeat' (first | intro _ | with_reducible (first | assumption | apply State.each_keeps | apply State.put_keeps | apply State.tally_keeps | apply ite_keeps | apply foldl_keeps | apply foldl_keeps_snd) | split | simp only [Keeps.mk_iff] | dsimp only)

theorem State.dropSaved_keeps {s : State} (hk : Keeps σ s) : Keeps σ (State.dropSaved s) := by
  unfold State.dropSaved
  try dsimp only
  repeat' (first | intro _ | with_reducible (first | assumption | apply State.modPwr_keeps | apply State.applyOptions_keeps | apply State.put_keeps | apply State.keepRegs_keeps | apply ite_keeps | apply foldl_keeps | apply foldl_keeps_snd) | split | simp only [Keeps.mk_iff] | dsimp only)

theorem State.pllLock_keeps {s : State} {pll : Nat} {on : Bool} (hk : Keeps σ s) : Keeps σ (State.pllLock s pll on) := by
  unfold State.pllLock
  try dsimp only
  repeat' (first | intro _ | with_reducible (first | assumption | apply State.setReg_keeps | apply ite_keeps | apply foldl_keeps | apply foldl_keeps_snd) | split | simp only [Keeps.mk_iff] | dsimp only)

theorem State.pllLost_keeps {s : State} {pll : Nat} (hk : Keeps σ s) : Keeps σ (State.pllLost s pll) := by
  unfold State.pllLost
  try dsimp only
  repeat' (first | intro _ | with_reducible (first | assumption | apply State.takeReset_keeps | apply State.failPair_keeps | apply ite_keeps | apply foldl_keeps | apply foldl_keeps_snd) | split | simp only [Keeps.mk_iff] | dsimp only)

theorem State.powerDomains_keeps {s : State} (hk : Keeps σ s) : Keeps σ (State.powerDomains s) := by
  unfold State.powerDomains
  try dsimp only
  repeat' (first | intro _ | with_reducible (first | assumption | apply State.each_keeps | apply State.put_keeps | apply State.setDomains_keeps | apply State.ddEnter_keeps | apply ite_keeps | apply foldl_keeps | apply foldl_keeps_snd) | split | simp only [Keeps.mk_iff] | dsimp only)

theorem State.publish_keeps {s : State} (hk : Keeps σ s) : Keeps σ (State.publish s) := by
  unfold State.publish
  try dsimp only
  repeat' (first | intro _ | with_reducible (first | assumption | apply State.put_keeps | apply State.put64_keeps | apply State.startPair_keeps | apply State.scanMirror_keeps | apply State.putFlag_keeps | apply State.applyOptions_keeps | apply ite_keeps | apply foldl_keeps | apply foldl_keeps_snd) | split | simp only [Keeps.mk_iff] | dsimp only)

theorem State.recoveryBoot_keeps {s : State} (hk : Keeps σ s) : Keeps σ (State.recoveryBoot s) := by
  unfold State.recoveryBoot
  try dsimp only
  repeat' (first | intro _ | with_reducible (first | assumption | apply State.publish_keeps | apply State.modPwr_keeps | apply State.putFlag_keeps | apply ite_keeps | apply foldl_keeps | apply foldl_keeps_snd) | split | simp only [Keeps.mk_iff] | dsimp only)

theorem State.requestCore_keeps {s : State} (hk : Keeps σ s) : Keeps σ (State.requestCore s) := by
  unfold State.requestCore
  try dsimp only
  repeat' (first | intro _ | with_reducible (first | assumption | apply State.free_keeps | apply State.free_keeps' (e := by assumption) | apply State.put_keeps | apply ite_keeps | apply foldl_keeps | apply foldl_keeps_snd) | split | simp only [Keeps.mk_iff] | dsimp only)

theorem State.resetTank_keeps {s : State} (hk : Keeps σ s) : Keeps σ (State.resetTank s) := by
  unfold State.resetTank
  try dsimp only
  repeat' (first | intro _ | with_reducible (first | assumption | apply State.add64_keeps | apply State.put_keeps | apply ite_keeps | apply foldl_keeps | apply foldl_keeps_snd) | split | simp only [Keeps.mk_iff] | dsimp only)

theorem State.resetUnit_keeps {s : State} {u : Nat} (hk : Keeps σ s) : Keeps σ (State.resetUnit s u) := by
  unfold State.resetUnit
  try dsimp only
  repeat' (first | intro _ | with_reducible (first | assumption | apply State.voidReservations_keeps | apply State.returnItems_keeps | apply State.coverFault_keeps | apply State.modEng_keeps | apply State.put_keeps | apply State.each_keeps | apply State.modStream_keeps | apply doSacnLate_keeps | apply State.ddHighImpedance_keeps | apply State.ddBegin_keeps | apply State.ddEnter_keeps | apply State.refreshAll_keeps | apply State.relattice_keeps | apply State.clockState_keeps | apply State.resetCore_keeps | apply State.resetTank_keeps | apply State.resetParlour_keeps | apply State.resetChannels_keeps | apply State.resetStructure_keeps | apply State.resetByre_keeps | apply ite_keeps | apply foldl_keeps | apply foldl_keeps_snd) | split | simp only [Keeps.mk_iff] | dsimp only)

theorem State.resetIdle_keeps {s : State} {q : IdleReq} (hk : Keeps σ s) : Keeps σ (State.resetIdle s q) := by
  unfold State.resetIdle
  try dsimp only
  repeat' (first | intro _ | with_reducible (first | assumption | apply State.syncIdle_keeps | apply State.modPwr_keeps | apply State.resetUnit_keeps | apply State.failPair_keeps | apply State.put_keeps | apply State.closeRecord_keeps | apply State.recordReset_keeps | apply State.emit_keeps | apply ite_keeps | apply foldl_keeps | apply foldl_keeps_snd) | split | simp only [Keeps.mk_iff] | dsimp only)

theorem State.restoreSaved_keeps {s : State} (hk : Keeps σ s) : Keeps σ (State.restoreSaved s) := by
  unfold State.restoreSaved
  try dsimp only
  repeat' (first | intro _ | with_reducible (first | assumption | apply State.showFirmware_keeps | apply State.syncCmd_keeps | apply State.refreshAll_keeps | apply State.relink_keeps | apply State.each_keeps | apply State.loadEngines_keeps | apply State.showPail_keeps | apply ite_keeps | apply foldl_keeps | apply foldl_keeps_snd) | split | simp only [Keeps.mk_iff] | dsimp only)

theorem State.setBases_keeps {s : State} (hk : Keeps σ s) : Keeps σ (State.setBases s) := by
  unfold State.setBases
  try dsimp only
  repeat' (first | intro _ | with_reducible (first | assumption | apply State.each_keeps | apply State.put64_keeps | apply ite_keeps | apply foldl_keeps | apply foldl_keeps_snd) | split | simp only [Keeps.mk_iff] | dsimp only)

theorem State.switchOff_keeps {s : State} (hk : Keeps σ s) : Keeps σ (State.switchOff s) := by
  unfold State.switchOff
  try dsimp only
  repeat' (first | intro _ | with_reducible (first | assumption | apply State.fastState_keeps | apply State.ddHighImpedance_keeps | apply State.onlyByre_keeps | apply ite_keeps | apply foldl_keeps | apply foldl_keeps_snd) | split | simp only [Keeps.mk_iff] | dsimp only)

theorem State.wakeChange_keeps {s : State} {f : State → State} (hk : Keeps σ s) (hf : ∀ t, Keeps σ t → Keeps σ (f t)) : Keeps σ (State.wakeChange s f) := by
  unfold State.wakeChange
  try dsimp only
  repeat' (first | intro _ | with_reducible (first | assumption | apply hf | apply State.noteMode_keeps | apply ite_keeps | apply foldl_keeps | apply foldl_keeps_snd) | split | simp only [Keeps.mk_iff] | dsimp only)

theorem State.wakeModes_keeps {s : State} (hk : Keeps σ s) : Keeps σ (State.wakeModes s) := by
  unfold State.wakeModes
  try dsimp only
  repeat' (first | intro _ | with_reducible (first | assumption | apply State.wakeChange_keeps | apply State.put_keeps | apply State.modPwr_keeps | apply ite_keeps | apply foldl_keeps | apply foldl_keeps_snd) | split | simp only [Keeps.mk_iff] | dsimp only)

theorem doDormantEnter_keeps {s : State} (hk : Keeps σ s) : Keeps σ (doDormantEnter s) := by
  unfold doDormantEnter
  try dsimp only
  repeat' (first | intro _ | with_reducible (first | assumption | apply State.free_keeps | apply State.free_keeps' (e := by assumption) | apply State.hostReset_keeps | apply State.dropAllStaged_keeps | apply State.voidWindows_keeps | apply State.finishMode_keeps | apply State.noteMode_keeps | apply State.put_keeps | apply State.switchOff_keeps | apply State.modPwr_keeps | apply State.tally_keeps | apply ite_keeps | apply foldl_keeps | apply foldl_keeps_snd) | split | simp only [Keeps.mk_iff] | dsimp only)

theorem doEccReset_keeps {s : State} {table : Nat} {unit : Nat} {word : Nat} (hk : Keeps σ s) : Keeps σ (doEccReset table unit word s) := by
  unfold doEccReset
  try dsimp only
  repeat' (first | intro _ | with_reducible (first | assumption | apply State.askIdle_keeps | apply State.failPair_keeps | apply State.detected_keeps | apply ite_keeps | apply foldl_keeps | apply foldl_keeps_snd) | split | simp only [Keeps.mk_iff] | dsimp only)

theorem doIdleAck_keeps {s : State} {unit : Nat} (hk : Keeps σ s) : Keeps σ (doIdleAck unit s) := by
  unfold doIdleAck
  try dsimp only
  repeat' (first | intro _ | with_reducible (first | assumption | apply State.resetIdle_keeps | apply ite_keeps | apply foldl_keeps | apply foldl_keeps_snd) | split | simp only [Keeps.mk_iff] | dsimp only)

theorem doIdleTimeout_keeps {s : State} {unit : Nat} (hk : Keeps σ s) : Keeps σ (doIdleTimeout unit s) := by
  unfold doIdleTimeout
  try dsimp only
  repeat' (first | intro _ | with_reducible (first | assumption | apply State.bump_keeps | apply State.atUptime_keeps | apply State.resetIdle_keeps | apply State.tally_keeps | apply State.raise_keeps | apply ite_keeps | apply foldl_keeps | apply foldl_keeps_snd) | split | simp only [Keeps.mk_iff] | dsimp only)

theorem doPllLockLoss_keeps {s : State} {pll : Nat} (hk : Keeps σ s) : Keeps σ (doPllLockLoss pll s) := by
  unfold doPllLockLoss
  try dsimp only
  repeat' (first | intro _ | with_reducible (first | assumption | apply State.pllLost_keeps | apply State.tally_keeps | apply State.pllLock_keeps | apply State.detected_keeps | apply ite_keeps | apply foldl_keeps | apply foldl_keeps_snd) | split | simp only [Keeps.mk_iff] | dsimp only)

theorem doPllRestart_keeps {s : State} {pll : Nat} (hk : Keeps σ s) : Keeps σ (doPllRestart pll s) := by
  unfold doPllRestart
  try dsimp only
  repeat' (first | intro _ | with_reducible (first | assumption | apply State.modPwr_keeps | apply State.pllLost_keeps | apply ite_keeps | apply foldl_keeps | apply foldl_keeps_snd) | split | simp only [Keeps.mk_iff] | dsimp only)

theorem doPowerOn_keeps {s : State} (hk : Keeps σ s) : Keeps σ (doPowerOn s) := by
  unfold doPowerOn
  try dsimp only
  repeat' (first | intro _ | with_reducible (first | assumption | apply State.takeReset_keeps | apply ite_keeps | apply foldl_keeps | apply foldl_keeps_snd) | split | simp only [Keeps.mk_iff] | dsimp only)

theorem doRefLoss_keeps {s : State} {ref156 : Bool} {ppm : Int} (hk : Keeps σ s) : Keeps σ (doRefLoss ref156 ppm s) := by
  unfold doRefLoss
  try dsimp only
  repeat' (first | intro _ | with_reducible (first | assumption | apply State.tally_keeps | apply State.detected_keeps | apply State.putFlag_keeps | apply State.modPwr_keeps | apply State.put_keeps | apply State.takeReset_keeps | apply State.failPair_keeps | apply ite_keeps | apply foldl_keeps | apply foldl_keeps_snd) | split | simp only [Keeps.mk_iff] | dsimp only)

theorem doRefRestored_keeps {s : State} {ref156 : Bool} (hk : Keeps σ s) : Keeps σ (doRefRestored ref156 s) := by
  unfold doRefRestored
  try dsimp only
  repeat' (first | intro _ | with_reducible (first | assumption | apply State.syncDomains_keeps | apply State.modPwr_keeps | apply State.putFlag_keeps | apply ite_keeps | apply foldl_keeps | apply foldl_keeps_snd) | split | simp only [Keeps.mk_iff] | dsimp only)

theorem doReleaseHeld_keeps {s : State} {unit : Bool} {which : Nat} {clock : Nat} {us : Nat} (hk : Keeps σ s) : Keeps σ (doReleaseHeld unit which clock us s) := by
  unfold doReleaseHeld
  try dsimp only
  repeat' (first | intro _ | with_reducible (first | assumption | apply State.put_keeps | apply State.tally_keeps | apply State.raise_keeps | apply ite_keeps | apply foldl_keeps | apply foldl_keeps_snd) | split | simp only [Keeps.mk_iff] | dsimp only)

theorem doResetN_keeps {s : State} (hk : Keeps σ s) : Keeps σ (doResetN s) := by
  unfold doResetN
  try dsimp only
  repeat' (first | intro _ | with_reducible (first | assumption | apply State.takeReset_keeps | apply State.backToDormant_keeps | apply ite_keeps | apply foldl_keeps | apply foldl_keeps_snd) | split | simp only [Keeps.mk_iff] | dsimp only)

theorem doStartDone_keeps {s : State} (hk : Keeps σ s) : Keeps σ (doStartDone s) := by
  unfold doStartDone
  try dsimp only
  repeat' (first | intro _ | with_reducible (first | assumption | apply State.clockState_keeps | apply State.setBases_keeps | apply State.put_keeps | apply State.wakeModes_keeps | apply State.modSys_keeps | apply State.relattice_keeps | apply State.refreshAll_keeps | apply State.startPair_keeps | apply State.raise_keeps | apply State.tally_keeps | apply State.noteInput_keeps | apply State.modPwr_keeps | apply ite_keeps | apply foldl_keeps | apply foldl_keeps_snd) | split | simp only [Keeps.mk_iff] | dsimp only)

theorem doStartUp_keeps {s : State} {banks : Nat} (hk : Keeps σ s) : Keeps σ (doStartUp banks s) := by
  unfold doStartUp
  try dsimp only
  repeat' (first | intro _ | with_reducible (first | assumption | apply State.modPwr_keeps | apply State.enterPhase_keeps | apply State.putFlag_keeps | apply State.put_keeps | apply State.checkBanks_keeps | apply State.requestCore_keeps | apply State.powerDomains_keeps | apply State.bootSlots_keeps | apply State.bootSlots_keeps' (e := by assumption) | apply State.setDomains_keeps | apply State.recoveryBoot_keeps | apply State.restoreSaved_keeps | apply State.bootStructure_keeps | apply State.resetStructure_keeps | apply State.resetChannels_keeps | apply State.dropSaved_keeps | apply ite_keeps | apply foldl_keeps | apply foldl_keeps_snd) | split | simp only [Keeps.mk_iff] | dsimp only)

theorem doStarterAttempt_keeps {s : State} {readFault : Option (Nat × Nat)} (hk : Keeps σ s) : Keeps σ (doStarterAttempt readFault s) := by
  unfold doStarterAttempt
  try dsimp only
  repeat' (first | intro _ | with_reducible (first | assumption | apply State.modPwr_keeps | apply State.opportunity_keeps | apply State.opportunity_keeps' (e := by assumption) | apply State.detect_keeps | apply State.raise_keeps | apply State.put_keeps | apply State.tally_keeps | apply State.putFlag_keeps | apply State.recoveryBoot_keeps | apply State.publish_keeps | apply ite_keeps | apply foldl_keeps | apply foldl_keeps_snd) | split | simp only [Keeps.mk_iff] | dsimp only)

theorem doSupplyFault_keeps {s : State} {supply : Nat} (hk : Keeps σ s) : Keeps σ (doSupplyFault supply s) := by
  unfold doSupplyFault
  try dsimp only
  repeat' (first | intro _ | with_reducible (first | assumption | apply State.detected_keeps | apply State.put_keeps | apply State.tally_keeps | apply State.modPwr_keeps | apply State.takeReset_keeps | apply State.each_keeps | apply State.ddEnter_keeps | apply State.modDd_keeps | apply ite_keeps | apply foldl_keeps | apply foldl_keeps_snd) | split | simp only [Keeps.mk_iff] | dsimp only)

theorem doThermalRestart_keeps {s : State} (hk : Keeps σ s) : Keeps σ (doThermalRestart s) := by
  unfold doThermalRestart
  try dsimp only
  repeat' (first | intro _ | with_reducible (first | assumption | apply State.modPwr_keeps | apply State.enterPhase_keeps | apply ite_keeps | apply foldl_keeps | apply foldl_keeps_snd) | split | simp only [Keeps.mk_iff] | dsimp only)

theorem doThermalTrip_keeps {s : State} {die : Int} (hk : Keeps σ s) : Keeps σ (doThermalTrip die s) := by
  unfold doThermalTrip
  try dsimp only
  repeat' (first | intro _ | with_reducible (first | assumption | apply State.takeReset_keeps | apply State.detected_keeps | apply State.put_keeps | apply State.tally_keeps | apply State.modPwr_keeps | apply ite_keeps | apply foldl_keeps | apply foldl_keeps_snd) | split | simp only [Keeps.mk_iff] | dsimp only)

theorem doWake_keeps {s : State} {frame : Option RxFrame} {savedOk : Bool} (hk : Keeps σ s) : Keeps σ (doWake frame savedOk s) := by
  unfold doWake
  try dsimp only
  repeat' (first | intro _ | with_reducible (first | assumption | apply State.bump_keeps | apply State.beginWake_keeps | apply State.tally_keeps | apply State.put_keeps | apply ite_keeps | apply foldl_keeps | apply foldl_keeps_snd) | split | simp only [Keeps.mk_iff] | dsimp only)

theorem doWakeAlarm_keeps {s : State} {savedOk : Bool} (hk : Keeps σ s) : Keeps σ (doWakeAlarm savedOk s) := by
  unfold doWakeAlarm
  try dsimp only
  repeat' (first | intro _ | with_reducible (first | assumption | apply State.beginWake_keeps | apply State.atUptime_keeps | apply ite_keeps | apply foldl_keeps | apply foldl_keeps_snd) | split | simp only [Keeps.mk_iff] | dsimp only)

theorem doWdogExpired_keeps {s : State} {core : Nat} (hk : Keeps σ s) : Keeps σ (doWdogExpired core s) := by
  unfold doWdogExpired
  try dsimp only
  repeat' (first | intro _ | with_reducible (first | assumption | apply State.put_keeps | apply State.detected_keeps | apply State.tally_keeps | apply State.raise_keeps | apply State.modPwr_keeps | apply State.updWatchdog_keeps | apply State.takeReset_keeps | apply ite_keeps | apply foldl_keeps | apply foldl_keeps_snd) | split | simp only [Keeps.mk_iff] | dsimp only)

theorem doXtalFallback_keeps {s : State} (hk : Keeps σ s) : Keeps σ (doXtalFallback s) := by
  unfold doXtalFallback
  try dsimp only
  repeat' (first | intro _ | with_reducible (first | assumption | apply State.putFlag_keeps | apply State.detected_keeps | apply State.tally_keeps | apply State.raise_keeps | apply ite_keeps | apply foldl_keeps | apply foldl_keeps_snd) | split | simp only [Keeps.mk_iff] | dsimp only)

theorem doXtalRestored_keeps {s : State} (hk : Keeps σ s) : Keeps σ (doXtalRestored s) := by
  unfold doXtalRestored
  try dsimp only
  repeat' (first | intro _ | with_reducible (first | assumption | apply State.tally_keeps | apply State.putFlag_keeps | apply ite_keeps | apply foldl_keeps | apply foldl_keeps_snd) | split | simp only [Keeps.mk_iff] | dsimp only)

end Sys2Proof.Machine
end

