-- ==== Sys2Proof/Laws/KeepMemory.lean ====
section
/-! SUPPORT. What the operations of Machine/Memory keep (Laws/Keep). -/
namespace Sys2Proof.Machine

variable {σ : State}

theorem State.showTol_keeps {s : State} (hk : Keeps σ s) : Keeps σ (State.showTol s) := by
  unfold State.showTol
  try dsimp only
  repeat' (first | intro _ | with_reducible (first | assumption | apply State.put_keeps | apply ite_keeps | apply foldl_keeps | apply foldl_keeps_snd) | split | simp only [Keeps.mk_iff] | dsimp only)

theorem State.showScrub_keeps {s : State} (hk : Keeps σ s) : Keeps σ (State.showScrub s) := by
  unfold State.showScrub
  try dsimp only
  repeat' (first | intro _ | with_reducible (first | assumption | apply State.put_keeps | apply ite_keeps | apply foldl_keeps | apply foldl_keeps_snd) | split | simp only [Keeps.mk_iff] | dsimp only)

theorem State.modMem_keeps {s : State} {f : Mem → Mem} (hk : Keeps σ s) : Keeps σ (State.modMem s f) := by
  unfold State.modMem
  try dsimp only
  repeat' (first | intro _ | with_reducible (first | assumption | apply ite_keeps | apply foldl_keeps | apply foldl_keeps_snd) | split | simp only [Keeps.mk_iff] | dsimp only)

theorem State.closeUtil_keeps {s : State} (hk : Keeps σ s) : Keeps σ (State.closeUtil s) := by
  unfold State.closeUtil
  try dsimp only
  repeat' (first | intro _ | with_reducible (first | assumption | apply State.modMem_keeps | apply State.put_keeps | apply ite_keeps | apply foldl_keeps | apply foldl_keeps_snd) | split | simp only [Keeps.mk_iff] | dsimp only)

theorem State.channelAwake_keeps {s : State} {channel : Nat} (hk : Keeps σ s) : Keeps σ (State.channelAwake s channel) := by
  unfold State.channelAwake
  try dsimp only
  repeat' (first | intro _ | with_reducible (first | assumption | apply State.put_keeps | apply ite_keeps | apply foldl_keeps | apply foldl_keeps_snd) | split | simp only [Keeps.mk_iff] | dsimp only)

theorem State.countWait_keeps {s : State} {x : Flying} (hk : Keeps σ s) : Keeps σ (State.countWait s x) := by
  unfold State.countWait
  try dsimp only
  repeat' (first | intro _ | with_reducible (first | assumption | apply State.useClocks_keeps | apply ite_keeps | apply foldl_keeps | apply foldl_keeps_snd) | split | simp only [Keeps.mk_iff] | dsimp only)

theorem State.halfFinds_keeps {s : State} {half : Nat} {f : HalfFault} (hk : Keeps σ s) : Keeps σ (State.halfFinds s half f).2 := by
  unfold State.halfFinds
  try dsimp only
  repeat' (first | intro _ | with_reducible (first | assumption | apply State.detected_keeps | apply State.opportunity_keeps | apply State.opportunity_keeps' (e := by assumption) | apply State.detect_keeps | apply ite_keeps | apply foldl_keeps | apply foldl_keeps_snd) | split | simp only [Keeps.mk_iff] | dsimp only)
theorem State.halfFinds_keeps' {s : State} {half : Nat} {f : HalfFault} (hk : Keeps σ s) {a t} (e : State.halfFinds s half f = (a, t)) : Keeps σ t := by
  have k := congrArg (fun q => Keeps σ q.2) e
  exact k ▸ State.halfFinds_keeps hk

theorem State.memAdmit_keeps {s : State} (hk : Keeps σ s) : Keeps σ (State.memAdmit s) := by
  unfold State.memAdmit
  try dsimp only
  repeat' (first | intro _ | with_reducible (first | assumption | apply State.each_keeps | apply State.countWait_keeps | apply State.modMem_keeps | apply ite_keeps | apply foldl_keeps | apply foldl_keeps_snd) | split | simp only [Keeps.mk_iff] | dsimp only)

theorem State.memArrive_keeps {s : State} {channel : Nat} {r : MemReq} (hk : Keeps σ s) : Keeps σ (State.memArrive s channel r) := by
  unfold State.memArrive
  try dsimp only
  repeat' (first | intro _ | with_reducible (first | assumption | apply State.modMem_keeps | apply ite_keeps | apply foldl_keeps | apply foldl_keeps_snd) | split | simp only [Keeps.mk_iff] | dsimp only)

theorem State.takeDerate_keeps {s : State} {package : Nat} {refresh : Nat} (hk : Keeps σ s) : Keeps σ (State.takeDerate s package refresh) := by
  unfold State.takeDerate
  try dsimp only
  repeat' (first | intro _ | with_reducible (first | assumption | apply State.modMem_keeps | apply State.tally_keeps | apply State.raise_keeps | apply State.put_keeps | apply ite_keeps | apply foldl_keeps | apply foldl_keeps_snd) | split | simp only [Keeps.mk_iff] | dsimp only)

theorem State.memAwake_keeps {s : State} (hk : Keeps σ s) : Keeps σ (State.memAwake s) := by
  unfold State.memAwake
  try dsimp only
  repeat' (first | intro _ | with_reducible (first | assumption | apply State.add64_keeps | apply State.put_keeps | apply State.modMem_keeps | apply State.each_keeps | apply State.takeDerate_keeps | apply ite_keeps | apply foldl_keeps | apply foldl_keeps_snd) | split | simp only [Keeps.mk_iff] | dsimp only)

theorem State.memCorrected_keeps {s : State} {a : Nat} {byScrub : Bool} (hk : Keeps σ s) : Keeps σ (State.memCorrected s a byScrub) := by
  unfold State.memCorrected
  try dsimp only
  repeat' (first | intro _ | with_reducible (first | assumption | apply State.modMem_keeps | apply State.raise_keeps | apply State.bump_keeps | apply State.tallyLimitedV_keeps | apply ite_keeps | apply foldl_keeps | apply foldl_keeps_snd) | split | simp only [Keeps.mk_iff] | dsimp only)

theorem State.memEarly_keeps {s : State} {r : MemReq} (hk : Keeps σ s) : Keeps σ (State.memEarly s r) := by
  unfold State.memEarly
  try dsimp only
  repeat' (first | intro _ | with_reducible (first | assumption | apply State.tally_keeps | apply State.raise_keeps | apply State.bump_keeps | apply ite_keeps | apply foldl_keeps | apply foldl_keeps_snd) | split | simp only [Keeps.mk_iff] | dsimp only)

theorem State.voidPailItems_keeps {s : State} {half : Nat} (hk : Keeps σ s) : Keeps σ (State.voidPailItems s half) := by
  unfold State.voidPailItems
  try dsimp only
  repeat' (first | intro _ | with_reducible (first | assumption | apply State.each_keeps | apply State.modPail_keeps | apply State.syncPar_keeps | apply State.releaseDone_keeps | apply ite_keeps | apply foldl_keeps | apply foldl_keeps_snd) | split | simp only [Keeps.mk_iff] | dsimp only)

theorem State.memReaderActs_keeps {s : State} {r : MemReq} {half : Nat} (hk : Keeps σ s) : Keeps σ (State.memReaderActs s r half) := by
  unfold State.memReaderActs
  try dsimp only
  repeat' (first | intro _ | with_reducible (first | assumption | apply State.poison_keeps | apply State.takeReset_keeps | apply State.detected_keeps | apply State.askIdle_keeps | apply State.failPair_keeps | apply State.voidPailItems_keeps | apply ite_keeps | apply foldl_keeps | apply foldl_keeps_snd) | split | simp only [Keeps.mk_iff] | dsimp only)

theorem State.memUncorrectable_keeps {s : State} {r : MemReq} {half : Nat} {fold : Bool} (hk : Keeps σ s) : Keeps σ (State.memUncorrectable s r half fold) := by
  unfold State.memUncorrectable
  try dsimp only
  repeat' (first | intro _ | with_reducible (first | assumption | apply State.put64_keeps | apply State.raise_keeps | apply State.bump_keeps | apply State.tally_keeps | apply State.msi_keeps | apply State.setReg_keeps | apply State.modMem_keeps | apply ite_keeps | apply foldl_keeps | apply foldl_keeps_snd) | split | simp only [Keeps.mk_iff] | dsimp only)

theorem State.memHalf_keeps {s : State} {r : MemReq} {half : Nat} {f : HalfFault} (hk : Keeps σ s) : Keeps σ (State.memHalf s r half f) := by
  unfold State.memHalf
  try dsimp only
  repeat' (first | intro _ | with_reducible (first | assumption | apply State.modMem_keeps | apply State.halfFinds_keeps | apply State.halfFinds_keeps' (e := by assumption) | apply State.memCorrected_keeps | apply State.memReaderActs_keeps | apply State.memUncorrectable_keeps | apply ite_keeps | apply foldl_keeps | apply foldl_keeps_snd) | split | simp only [Keeps.mk_iff] | dsimp only)

theorem State.memServe_keeps {s : State} {channel : Nat} {r : MemReq} (hk : Keeps σ s) : Keeps σ (State.memServe s channel r) := by
  unfold State.memServe
  try dsimp only
  repeat' (first | intro _ | with_reducible (first | assumption | apply State.closeUtil_keeps | apply State.channelAwake_keeps | apply State.memAwake_keeps | apply State.modMem_keeps | apply State.modBg_keeps | apply State.memHalf_keeps | apply State.emit_keeps | apply ite_keeps | apply foldl_keeps | apply foldl_keeps_snd) | split | simp only [Keeps.mk_iff] | dsimp only)

theorem doMemAccess_keeps {s : State} {channel : Nat} {reqs : List MemReq} (hk : Keeps σ s) : Keeps σ (doMemAccess channel reqs s) := by
  unfold doMemAccess
  try dsimp only
  repeat' (first | intro _ | with_reducible (first | assumption | apply State.each_keeps | apply State.memArrive_keeps | apply State.memEarly_keeps | apply State.memAdmit_keeps | apply State.memServe_keeps | apply State.modMem_keeps | apply ite_keeps | apply foldl_keeps | apply foldl_keeps_snd) | split | simp only [Keeps.mk_iff] | dsimp only)

theorem doMemSleepEnter_keeps {s : State} {level : Nat} {channel : Nat} (hk : Keeps σ s) : Keeps σ (doMemSleepEnter level channel s) := by
  unfold doMemSleepEnter
  try dsimp only
  repeat' (first | intro _ | with_reducible (first | assumption | apply State.put_keeps | apply State.modMem_keeps | apply ite_keeps | apply foldl_keeps | apply foldl_keeps_snd) | split | simp only [Keeps.mk_iff] | dsimp only)

theorem doMemSleepExit_keeps {s : State} {channel : Nat} (hk : Keeps σ s) : Keeps σ (doMemSleepExit channel s) := by
  unfold doMemSleepExit
  try dsimp only
  repeat' (first | intro _ | with_reducible (first | assumption | apply State.channelAwake_keeps | apply State.memAwake_keeps | apply ite_keeps | apply foldl_keeps | apply foldl_keeps_snd) | split | simp only [Keeps.mk_iff] | dsimp only)

theorem doRefreshDerate_keeps {s : State} {package : Nat} {refresh : Nat} (hk : Keeps σ s) : Keeps σ (doRefreshDerate package refresh s) := by
  unfold doRefreshDerate
  try dsimp only
  repeat' (first | intro _ | with_reducible (first | assumption | apply State.modMem_keeps | apply State.takeDerate_keeps | apply ite_keeps | apply foldl_keeps | apply foldl_keeps_snd) | split | simp only [Keeps.mk_iff] | dsimp only)

theorem doScrubBehind_keeps {s : State} {minutes : Nat} (hk : Keeps σ s) : Keeps σ (doScrubBehind minutes s) := by
  unfold doScrubBehind
  try dsimp only
  repeat' (first | intro _ | with_reducible (first | assumption | apply State.modMem_keeps | apply State.put_keeps | apply State.tally_keeps | apply ite_keeps | apply foldl_keeps | apply foldl_keeps_snd) | split | simp only [Keeps.mk_iff] | dsimp only)

theorem doScrubPass_keeps {s : State} (hk : Keeps σ s) : Keeps σ (doScrubPass s) := by
  unfold doScrubPass
  try dsimp only
  repeat' (first | intro _ | with_reducible (first | assumption | apply State.tally_keeps | apply State.raise_keeps | apply State.bump_keeps | apply State.modMem_keeps | apply ite_keeps | apply foldl_keeps | apply foldl_keeps_snd) | split | simp only [Keeps.mk_iff] | dsimp only)

end Sys2Proof.Machine
end

