-- ==== Sys2Proof/Laws/KeepPailRows.lean ====
section
/-! SUPPORT. What the operations of Machine/PailRows keep (Laws/Keep). -/
namespace Sys2Proof.Machine

variable {σ : State}

theorem State.ptrBad_keeps {s : State} {p : Nat} {reg : Field} {value : Nat} (hk : Keeps σ s) : Keeps σ (State.ptrBad s p reg value) := by
  unfold State.ptrBad
  try dsimp only
  repeat' (first | intro _ | with_reducible (first | assumption | apply State.tally_keeps | apply State.raise_keeps | apply ite_keeps | apply foldl_keeps | apply foldl_keeps_snd) | split | simp only [Keeps.mk_iff] | dsimp only)

theorem doPlWrWrite_keeps {s : State} {p : Nat} {value : Nat} (hk : Keeps σ s) : Keeps σ (doPlWrWrite p value s) := by
  unfold doPlWrWrite
  try dsimp only
  repeat' (first | intro _ | with_reducible (first | assumption | apply State.ptrBad_keeps | apply State.modPail_keeps | apply State.put_keeps | apply State.refreshRoutes_keeps | apply State.syncPail_keeps | apply State.crossLevel_keeps | apply State.noteUnrouted_keeps | apply ite_keeps | apply foldl_keeps | apply foldl_keeps_snd) | split | simp only [Keeps.mk_iff] | dsimp only)

theorem doPlRdWrite_keeps {s : State} {p : Nat} {value : Nat} (hk : Keeps σ s) : Keeps σ (doPlRdWrite p value s) := by
  unfold doPlRdWrite
  try dsimp only
  repeat' (first | intro _ | with_reducible (first | assumption | apply State.ptrBad_keeps | apply State.pump_keeps | apply State.syncPail_keeps | apply State.modPail_keeps | apply State.put_keeps | apply ite_keeps | apply foldl_keeps | apply foldl_keeps_snd) | split | simp only [Keeps.mk_iff] | dsimp only)

theorem doFlush_keeps {s : State} {p : Nat} (hk : Keeps σ s) : Keeps σ (doFlush p s) := by
  unfold doFlush
  try dsimp only
  repeat' (first | intro _ | with_reducible (first | assumption | apply State.tally_keeps | apply State.raise_keeps | apply State.pump_keeps | apply State.flushPail_keeps | apply ite_keeps | apply foldl_keeps | apply foldl_keeps_snd) | split | simp only [Keeps.mk_iff] | dsimp only)

theorem State.popEcc_keeps {s : State} {p : Nat} (hk : Keeps σ s) : Keeps σ (State.popEcc s p) := by
  unfold State.popEcc
  try dsimp only
  repeat' (first | intro _ | with_reducible (first | assumption | apply State.pailRead_keeps | apply State.pailRead_keeps' (e := by assumption) | apply State.skipVoid_keeps | apply State.modPail_keeps | apply ite_keeps | apply foldl_keeps | apply foldl_keeps_snd) | split | simp only [Keeps.mk_iff] | dsimp only)

theorem doPlPop_keeps {s0 : State} {who : Initiator} {p : Nat} (hk : Keeps σ s0) : Keeps σ (doPlPop who p s0) := by
  unfold doPlPop
  try dsimp only
  repeat' (first | intro _ | with_reducible (first | assumption | apply State.popEcc_keeps | apply State.skipVoid_keeps | apply State.answer_keeps | apply State.raise_keeps | apply State.pump_keeps | apply State.answerPop_keeps | apply State.modPail_keeps | apply ite_keeps | apply foldl_keeps | apply foldl_keeps_snd) | split | simp only [Keeps.mk_iff] | dsimp only)

theorem doHwConsumerRead_keeps {s0 : State} {p : Nat} (hk : Keeps σ s0) : Keeps σ (doHwConsumerRead p s0) := by
  unfold doHwConsumerRead
  try dsimp only
  repeat' (first | intro _ | with_reducible (first | assumption | apply State.skipVoid_keeps | apply State.emit_keeps | apply State.pailRead_keeps | apply State.pailRead_keeps' (e := by assumption) | apply State.syncPail_keeps | apply State.modPail_keeps | apply State.rdAdvance_keeps | apply State.tallyAtMost_keeps | apply State.raise_keeps | apply State.bump_keeps | apply ite_keeps | apply foldl_keeps | apply foldl_keeps_snd) | split | simp only [Keeps.mk_iff] | dsimp only)

theorem doLengthWordWrite_keeps {s : State} {p : Nat} {seq : Nat} {payload : List Nat} (hk : Keeps σ s) : Keeps σ (doLengthWordWrite p seq payload s) := by
  unfold doLengthWordWrite
  try dsimp only
  repeat' (first | intro _ | with_reducible (first | assumption | apply State.writeItem_keeps | apply ite_keeps | apply foldl_keeps | apply foldl_keeps_snd) | split | simp only [Keeps.mk_iff] | dsimp only)

theorem doPailReserve_keeps {s : State} {p : Nat} {producer : Nat} (hk : Keeps σ s) : Keeps σ (doPailReserve p producer s) := by
  unfold doPailReserve
  try dsimp only
  repeat' (first | intro _ | with_reducible (first | assumption | apply State.reserve_keeps | apply ite_keeps | apply foldl_keeps | apply foldl_keeps_snd) | split | simp only [Keeps.mk_iff] | dsimp only)

theorem doPopWaitExpire_keeps {s : State} {p : Nat} (hk : Keeps σ s) : Keeps σ (doPopWaitExpire p s) := by
  unfold doPopWaitExpire
  try dsimp only
  repeat' (first | intro _ | with_reducible (first | assumption | apply State.answer_keeps | apply State.modPail_keeps | apply State.atUptime_keeps | apply ite_keeps | apply foldl_keeps | apply foldl_keeps_snd) | split | simp only [Keeps.mk_iff] | dsimp only)

theorem doProducerResume_keeps {s : State} {p : Nat} (hk : Keeps σ s) : Keeps σ (doProducerResume p s) := by
  unfold doProducerResume
  try dsimp only
  repeat' (first | intro _ | with_reducible (first | assumption | apply State.modPail_keeps | apply State.add_keeps | apply ite_keeps | apply foldl_keeps | apply foldl_keeps_snd) | split | simp only [Keeps.mk_iff] | dsimp only)

end Sys2Proof.Machine
end

