-- ==== Sys2Proof/Laws/KeepRegWrite.lean ====
section
/-! SUPPORT. What the operations of Machine/RegWrite keep (Laws/Keep). -/
namespace Sys2Proof.Machine

variable {σ : State}

theorem State.timeControl_keeps {s : State} (hk : Keeps σ s) : Keeps σ (State.timeControl s) := by
  unfold State.timeControl
  try dsimp only
  repeat' (first | intro _ | with_reducible (first | assumption | apply State.refreshPtp_keeps | apply State.runBmca_keeps | apply State.loseSource_keeps | apply ite_keeps | apply foldl_keeps | apply foldl_keeps_snd) | split | simp only [Keeps.mk_iff] | dsimp only)

theorem State.checkUnit_keeps {s : State} {u : Nat} {was : Bool} (hk : Keeps σ s) : Keeps σ (State.checkUnit s u was) := by
  unfold State.checkUnit
  try dsimp only
  repeat' (first | intro _ | with_reducible (first | assumption | apply State.raise_keeps | apply State.putFlag_keeps | apply ite_keeps | apply foldl_keeps | apply foldl_keeps_snd) | split | simp only [Keeps.mk_iff] | dsimp only)

theorem State.afterWrite_keeps {s : State} {old : State} {a : Nat} (hk : Keeps σ s) : Keeps σ (State.afterWrite s old a) := by
  unfold State.afterWrite
  try dsimp only
  repeat' (first | intro _ | with_reducible (first | assumption | apply State.holdEscalated_keeps | apply State.pump_keeps | apply State.refreshRoutes_keeps | apply State.put_keeps | apply State.timeControl_keeps | apply State.linkDown_keeps | apply State.refreshReady_keeps | apply State.startPair_keeps | apply State.checkUnit_keeps | apply ite_keeps | apply foldl_keeps | apply foldl_keeps_snd) | split | simp only [Keeps.mk_iff] | dsimp only)

theorem State.enterFields_keeps {s : State} {a : Nat} {v : Nat} {fs : List FieldDesc} (hk : Keeps σ s) : Keeps σ (State.enterFields s a v fs) := by
  unfold State.enterFields
  try dsimp only
  repeat' (first | intro _ | with_reducible (first | assumption | apply State.each_keeps | apply State.raise_keeps | apply State.syncCmd_keeps | apply State.modSet_keeps | apply ite_keeps | apply foldl_keeps | apply foldl_keeps_snd) | split | simp only [Keeps.mk_iff] | dsimp only)

theorem State.storeReg_keeps {s : State} {a : Nat} {v : Nat} (hk : Keeps σ s) : Keeps σ (State.storeReg s a v) := by
  unfold State.storeReg
  try dsimp only
  repeat' (first | intro _ | with_reducible (first | assumption | apply State.setReg_keeps | apply State.rejectS_keeps | apply State.enterFields_keeps | apply ite_keeps | apply foldl_keeps | apply foldl_keeps_snd) | split | simp only [Keeps.mk_iff] | dsimp only)

theorem State.plainWrite_keeps {s : State} {a : Nat} {v : Nat} (hk : Keeps σ s) : Keeps σ (State.plainWrite s a v) := by
  unfold State.plainWrite
  try dsimp only
  repeat' (first | intro _ | with_reducible (first | assumption | apply State.ptpConfig_keeps | apply State.writeCode_keeps | apply State.afterWrite_keeps | apply State.storeReg_keeps | apply ite_keeps | apply foldl_keeps | apply foldl_keeps_snd) | split | simp only [Keeps.mk_iff] | dsimp only)

end Sys2Proof.Machine
end

