-- ==== Sys2Proof/Laws/KeepHostOps.lean ====
section
/-! SUPPORT. What the operations of Machine/HostOps keep (Laws/Keep). -/
namespace Sys2Proof.Machine

variable {σ : State}

theorem State.modHost_keeps {s : State} {f : HostLink → HostLink} (hk : Keeps σ s) : Keeps σ (State.modHost s f) := by
  unfold State.modHost
  try dsimp only
  repeat' (first | intro _ | with_reducible (first | assumption | apply ite_keeps | apply foldl_keeps | apply foldl_keeps_snd) | split | simp only [Keeps.mk_iff] | dsimp only)

theorem State.askBoost_keeps {s : State} (hk : Keeps σ s) : Keeps σ (State.askBoost s) := by
  unfold State.askBoost
  try dsimp only
  repeat' (first | intro _ | with_reducible (first | assumption | apply State.modHost_keeps | apply ite_keeps | apply foldl_keeps | apply foldl_keeps_snd) | split | simp only [Keeps.mk_iff] | dsimp only)

theorem State.consumeReg_keeps {s : State} {a : Nat} {v : Nat} (hk : Keeps σ s) : Keeps σ (State.consumeReg s a v) := by
  unfold State.consumeReg
  try dsimp only
  repeat' (first | intro _ | with_reducible (first | assumption | apply State.put_keeps | apply ite_keeps | apply foldl_keeps | apply foldl_keeps_snd) | split | simp only [Keeps.mk_iff] | dsimp only)

theorem State.writeByre_keeps {s : State} {a : Nat} {bytes : List Nat} (hk : Keeps σ s) : Keeps σ (State.writeByre s a bytes) := by
  unfold State.writeByre
  try dsimp only
  repeat' (first | intro _ | with_reducible (first | assumption | apply State.writeRet_keeps | apply doBlkRst_keeps | apply doSwReset_keeps | apply State.plainWrite_keeps | apply ite_keeps | apply foldl_keeps | apply foldl_keeps_snd) | split | simp only [Keeps.mk_iff] | dsimp only)

theorem State.drain_keeps {x2 : State} {x1 : Nat} (hk : Keeps σ x2) : Keeps σ (State.drain x1 x2) := by
  induction x1 generalizing x2 with
  | zero => exact hk
  | succ n ih =>
    unfold State.drain
    try dsimp only
    repeat' (first | intro _ | with_reducible (first | assumption | apply ih | apply State.modHost_keeps | apply State.consumeReg_keeps | apply State.writeByre_keeps | apply ite_keeps | apply foldl_keeps | apply foldl_keeps_snd) | split | simp only [Keeps.mk_iff] | dsimp only)

theorem readWords_keeps {x3 : State} {word : State → Nat → Nat × State} {x1 : Nat} {x2 : Nat} (hk : Keeps σ x3) (hf : ∀ t a, Keeps σ t → Keeps σ (word t a).2) : Keeps σ (readWords word x1 x2 x3).2 := by
  induction x1 generalizing x3 x2 with
  | zero => exact hk
  | succ n ih =>
    unfold readWords
    try dsimp only
    repeat' (first | intro _ | with_reducible (first | assumption | apply ih | apply hf | apply ite_keeps | apply foldl_keeps | apply foldl_keeps_snd) | split | simp only [Keeps.mk_iff] | dsimp only)
theorem readWords_keeps' {x3 : State} {word : State → Nat → Nat × State} {x1 : Nat} {x2 : Nat} (hk : Keeps σ x3) (hf : ∀ t a, Keeps σ t → Keeps σ (word t a).2) {a t} (e : readWords word x1 x2 x3 = (a, t)) : Keeps σ t := by
  have k := congrArg (fun q => Keeps σ q.2) e
  exact k ▸ readWords_keeps hk hf

theorem State.retWord_keeps {s : State} {a : Nat} (hk : Keeps σ s) : Keeps σ (State.retWord s a).2 := by
  unfold State.retWord
  try dsimp only
  repeat' (first | intro _ | with_reducible (first | assumption | apply State.opportunity_keeps | apply State.opportunity_keeps' (e := by assumption) | apply State.raise_keeps | apply State.detect_keeps | apply ite_keeps | apply foldl_keeps | apply foldl_keeps_snd) | split | simp only [Keeps.mk_iff] | dsimp only)
theorem State.retWord_keeps' {s : State} {a : Nat} (hk : Keeps σ s) {a t} (e : State.retWord s a = (a, t)) : Keeps σ t := by
  have k := congrArg (fun q => Keeps σ q.2) e
  exact k ▸ State.retWord_keeps hk

theorem State.tallyWord_keeps {s : State} {a : Nat} (hk : Keeps σ s) : Keeps σ (State.tallyWord s a).2 := by
  unfold State.tallyWord
  try dsimp only
  repeat' (first | intro _ | with_reducible (first | assumption | apply State.opportunity_keeps | apply State.opportunity_keeps' (e := by assumption) | apply State.tally_keeps | apply State.raise_keeps | apply State.bump_keeps | apply State.detect_keeps | apply ite_keeps | apply foldl_keeps | apply foldl_keeps_snd) | split | simp only [Keeps.mk_iff] | dsimp only)
theorem State.tallyWord_keeps' {s : State} {a : Nat} (hk : Keeps σ s) {a t} (e : State.tallyWord s a = (a, t)) : Keeps σ t := by
  have k := congrArg (fun q => Keeps σ q.2) e
  exact k ▸ State.tallyWord_keeps hk

theorem State.refreshReg_keeps {s : State} {who : Initiator} {a : Nat} (hk : Keeps σ s) : Keeps σ (State.refreshReg s who a) := by
  unfold State.refreshReg
  try dsimp only
  repeat' (first | intro _ | with_reducible (first | assumption | apply State.put_keeps | apply State.showHoldover_keeps | apply State.showTol_keeps | apply State.showScrub_keeps | apply State.closeUtil_keeps | apply State.rollRx_keeps | apply State.each_keeps | apply State.showRing_keeps | apply ite_keeps | apply foldl_keeps | apply foldl_keeps_snd) | split | simp only [Keeps.mk_iff] | dsimp only)

theorem State.latchHigh_keeps {s : State} {a : Nat} (hk : Keeps σ s) : Keeps σ (State.latchHigh s a) := by
  unfold State.latchHigh
  try dsimp only
  repeat' (first | intro _ | with_reducible (first | assumption | apply ite_keeps | apply foldl_keeps | apply foldl_keeps_snd) | split | simp only [Keeps.mk_iff] | dsimp only)

theorem State.readReg_keeps {s : State} {who : Initiator} {a : Nat} (hk : Keeps σ s) : Keeps σ (State.readReg s who a).2 := by
  unfold State.readReg
  try dsimp only
  repeat' (first | intro _ | with_reducible (first | assumption | apply State.refreshReg_keeps | apply State.latchHigh_keeps | apply ite_keeps | apply foldl_keeps | apply foldl_keeps_snd) | split | simp only [Keeps.mk_iff] | dsimp only)
theorem State.readReg_keeps' {s : State} {who : Initiator} {a : Nat} (hk : Keeps σ s) {a t} (e : State.readReg s who a = (a, t)) : Keeps σ t := by
  have k := congrArg (fun q => Keeps σ q.2) e
  exact k ▸ State.readReg_keeps hk

theorem State.readByre_keeps {s : State} {who : Initiator} {a : Nat} {len : Nat} (hk : Keeps σ s) : Keeps σ (State.readByre s who a len).2 := by
  unfold State.readByre
  try dsimp only
  repeat' (first | intro _ | with_reducible (first | assumption | apply readWords_keeps | apply readWords_keeps' (e := by assumption) | apply State.retWord_keeps | apply State.retWord_keeps' (e := by assumption) | apply State.tallyWord_keeps | apply State.tallyWord_keeps' (e := by assumption) | apply State.readReg_keeps | apply State.readReg_keeps' (e := by assumption) | apply doParity_keeps | apply ite_keeps | apply foldl_keeps | apply foldl_keeps_snd) | split | simp only [Keeps.mk_iff] | dsimp only)
theorem State.readByre_keeps' {s : State} {who : Initiator} {a : Nat} {len : Nat} (hk : Keeps σ s) {a t} (e : State.readByre s who a len = (a, t)) : Keeps σ t := by
  have k := congrArg (fun q => Keeps σ q.2) e
  exact k ▸ State.readByre_keeps hk

theorem State.hold_keeps {s : State} {a : Nat} {v : Nat} {byre : Bool} (hk : Keeps σ s) : Keeps σ (State.hold s a v byre) := by
  unfold State.hold
  try dsimp only
  repeat' (first | intro _ | with_reducible (first | assumption | apply State.syncHost_keeps | apply State.modHost_keeps | apply ite_keeps | apply foldl_keeps | apply foldl_keeps_snd) | split | simp only [Keeps.mk_iff] | dsimp only)

theorem State.runPosted_keeps {s : State} (hk : Keeps σ s) : Keeps σ (State.runPosted s) := by
  unfold State.runPosted
  try dsimp only
  repeat' (first | intro _ | with_reducible (first | assumption | apply State.askBoost_keeps | apply State.syncHost_keeps | apply State.drain_keeps | apply ite_keeps | apply foldl_keeps | apply foldl_keeps_snd) | split | simp only [Keeps.mk_iff] | dsimp only)

theorem State.post_keeps {s : State} {w : PostedWrite} (hk : Keeps σ s) : Keeps σ (State.post s w) := by
  unfold State.post
  try dsimp only
  repeat' (first | intro _ | with_reducible (first | assumption | apply State.runPosted_keeps | apply State.modHost_keeps | apply ite_keeps | apply foldl_keeps | apply foldl_keeps_snd) | split | simp only [Keeps.mk_iff] | dsimp only)

theorem State.takeData_keeps {s : State} {r : RetryRead} (hk : Keeps σ s) : Keeps σ (State.takeData s r) := by
  unfold State.takeData
  try dsimp only
  repeat' (first | intro _ | with_reducible (first | assumption | apply State.readByre_keeps | apply State.readByre_keeps' (e := by assumption) | apply State.answer_keeps | apply State.modHost_keeps | apply State.hold_keeps | apply State.put_keeps | apply State.post_keeps | apply State.syncHost_keeps | apply ite_keeps | apply foldl_keeps | apply foldl_keeps_snd) | split | simp only [Keeps.mk_iff] | dsimp only)

theorem State.bridgeRead_keeps {s : State} {who : Initiator} {a : Nat} {len : Nat} (hk : Keeps σ s) : Keeps σ (State.bridgeRead s who a len) := by
  unfold State.bridgeRead
  try dsimp only
  repeat' (first | intro _ | with_reducible (first | assumption | apply State.syncHost_keeps | apply State.bump_keeps | apply State.modHost_keeps | apply State.askBoost_keeps | apply State.drain_keeps | apply doParity_keeps | apply State.takeData_keeps | apply ite_keeps | apply foldl_keeps | apply foldl_keeps_snd) | split | simp only [Keeps.mk_iff] | dsimp only)

theorem State.bridgeWrite_keeps {s : State} {who : Initiator} {a : Nat} {bytes : List Nat} (hk : Keeps σ s) : Keeps σ (State.bridgeWrite s who a bytes) := by
  unfold State.bridgeWrite
  try dsimp only
  repeat' (first | intro _ | with_reducible (first | assumption | apply State.writeByre_keeps | apply State.tallyLimited_keeps | apply State.bump_keeps | apply State.runPosted_keeps | apply State.post_keeps | apply ite_keeps | apply foldl_keeps | apply foldl_keeps_snd) | split | simp only [Keeps.mk_iff] | dsimp only)

theorem State.offAccess_keeps {s : State} {who : Initiator} {a : Nat} (hk : Keeps σ s) : Keeps σ (State.offAccess s who a) := by
  unfold State.offAccess
  try dsimp only
  repeat' (first | intro _ | with_reducible (first | assumption | apply State.tallyLimitedV_keeps | apply State.raise_keeps | apply State.bump_keeps | apply ite_keeps | apply foldl_keeps | apply foldl_keeps_snd) | split | simp only [Keeps.mk_iff] | dsimp only)

theorem State.readOwn_keeps {s : State} {who : Initiator} {a : Nat} {len : Nat} (hk : Keeps σ s) : Keeps σ (State.readOwn s who a len).2 := by
  unfold State.readOwn
  try dsimp only
  repeat' (first | intro _ | with_reducible (first | assumption | apply State.readReg_keeps | apply State.readReg_keeps' (e := by assumption) | apply ite_keeps | apply foldl_keeps | apply foldl_keeps_snd) | split | simp only [Keeps.mk_iff] | dsimp only)
theorem State.readOwn_keeps' {s : State} {who : Initiator} {a : Nat} {len : Nat} (hk : Keeps σ s) {a t} (e : State.readOwn s who a len = (a, t)) : Keeps σ t := by
  have k := congrArg (fun q => Keeps σ q.2) e
  exact k ▸ State.readOwn_keeps hk

theorem State.readAccess_keeps {s : State} {who : Initiator} {a : Nat} {len : Nat} (hk : Keeps σ s) : Keeps σ (State.readAccess s who a len) := by
  unfold State.readAccess
  try dsimp only
  repeat' (first | intro _ | with_reducible (first | assumption | apply State.emit_keeps | apply State.answer_keeps | apply State.offAccess_keeps | apply doParity_keeps | apply State.readByre_keeps | apply State.readByre_keeps' (e := by assumption) | apply State.consumeReg_keeps | apply State.bridgeRead_keeps | apply doPlPop_keeps | apply State.readOwn_keeps | apply State.readOwn_keeps' (e := by assumption) | apply State.hold_keeps | apply ite_keeps | apply foldl_keeps | apply foldl_keeps_snd) | split | simp only [Keeps.mk_iff] | dsimp only)

end Sys2Proof.Machine
end

