-- ==== Sys2Proof/Laws/KeepPairs.lean ====
section
/-! SUPPORT. What the operations of Machine/Pairs keep (Laws/Keep). -/
namespace Sys2Proof.Machine

variable {σ : State}

theorem State.fence_keeps {s : State} {role : Nat} (hk : Keeps σ s) : Keeps σ (State.fence s role) := by
  unfold State.fence
  try dsimp only
  repeat' (first | intro _ | with_reducible (first | assumption | apply State.modRed_keeps | apply State.refreshPtp_keeps | apply State.ddHighImpedance_keeps | apply State.takeRole_keeps | apply State.pump_keeps | apply State.actOn_keeps | apply ite_keeps | apply foldl_keeps | apply foldl_keeps_snd) | split | simp only [Keeps.mk_iff] | dsimp only)

theorem State.activeHears_keeps {s : State} {hb : Heartbeat} (hk : Keeps σ s) : Keeps σ (State.activeHears s hb) := by
  unfold State.activeHears
  try dsimp only
  repeat' (first | intro _ | with_reducible (first | assumption | apply State.refreshReady_keeps | apply State.tally_keeps | apply State.raise_keeps | apply State.fence_keeps | apply State.modRed_keeps | apply State.putFlag_keeps | apply ite_keeps | apply foldl_keeps | apply foldl_keeps_snd) | split | simp only [Keeps.mk_iff] | dsimp only)

theorem State.startResync_keeps {s : State} {cause : Nat} (hk : Keeps σ s) : Keeps σ (State.startResync s cause) := by
  unfold State.startResync
  try dsimp only
  repeat' (first | intro _ | with_reducible (first | assumption | apply State.put_keeps | apply State.modRed_keeps | apply State.refreshReady_keeps | apply State.tally_keeps | apply State.sendBellB_keeps | apply ite_keeps | apply foldl_keeps | apply foldl_keeps_snd) | split | simp only [Keeps.mk_iff] | dsimp only)

theorem State.followMode_keeps {s : State} {frame : Nat} {v : Nat} (hk : Keeps σ s) : Keeps σ (State.followMode s frame v) := by
  unfold State.followMode
  try dsimp only
  repeat' (first | intro _ | with_reducible (first | assumption | apply acceptMode_keeps | apply State.modRed_keeps | apply State.refreshReady_keeps | apply State.tally_keeps | apply State.raise_keeps | apply ite_keeps | apply foldl_keeps | apply foldl_keeps_snd) | split | simp only [Keeps.mk_iff] | dsimp only)

theorem State.setActive_keeps {s : State} {k : Nat} {on : Bool} (hk : Keeps σ s) : Keeps σ (State.setActive s k on) := by
  unfold State.setActive
  try dsimp only
  repeat' (first | intro _ | with_reducible (first | assumption | apply State.modFrame_keeps | apply State.each_keeps | apply State.advanceSeq_keeps | apply State.wbStart_keeps | apply State.put_keeps | apply ite_keeps | apply foldl_keeps | apply foldl_keeps_snd) | split | simp only [Keeps.mk_iff] | dsimp only)

theorem State.followPower_keeps {s : State} {k : Nat} {power : Nat} {cause : Nat} (hk : Keeps σ s) : Keeps σ (State.followPower s k power cause) := by
  unfold State.followPower
  try dsimp only
  repeat' (first | intro _ | with_reducible (first | assumption | apply State.applyPower_keeps | apply State.each_keeps | apply State.setActive_keeps | apply ite_keeps | apply foldl_keeps | apply foldl_keeps_snd) | split | simp only [Keeps.mk_iff] | dsimp only)

theorem State.asActive_keeps {s : State} (hk : Keeps σ s) : Keeps σ (State.asActive s) := by
  unfold State.asActive
  try dsimp only
  repeat' (first | intro _ | with_reducible (first | assumption | apply State.put_keeps | apply ite_keeps | apply foldl_keeps | apply foldl_keeps_snd) | split | simp only [Keeps.mk_iff] | dsimp only)

theorem State.followWith_keeps {s : State} {f : State → State} (hk : Keeps σ s) (hf : ∀ t, Keeps σ t → Keeps σ (f t)) : Keeps σ (State.followWith s f) := by
  unfold State.followWith
  try dsimp only
  repeat' (first | intro _ | with_reducible (first | assumption | apply hf | apply State.put_keeps | apply State.asActive_keeps | apply ite_keeps | apply foldl_keeps | apply foldl_keeps_snd) | split | simp only [Keeps.mk_iff] | dsimp only)

theorem State.followLoad_keeps {s : State} {ok : Bool} {f : State → State} (hk : Keeps σ s) (hf : ∀ t, Keeps σ t → Keeps σ (f t)) : Keeps σ (State.followLoad s ok f).2 := by
  unfold State.followLoad
  try dsimp only
  repeat' (first | intro _ | with_reducible (first | assumption | apply hf | apply State.followWith_keeps | apply ite_keeps | apply foldl_keeps | apply foldl_keeps_snd) | split | simp only [Keeps.mk_iff] | dsimp only)
theorem State.followLoad_keeps' {s : State} {ok : Bool} {f : State → State} (hk : Keeps σ s) (hf : ∀ t, Keeps σ t → Keeps σ (f t)) {a t} (e : State.followLoad s ok f = (a, t)) : Keeps σ t := by
  have k := congrArg (fun q => Keeps σ q.2) e
  exact k ▸ State.followLoad_keeps hk hf

theorem State.followMarks_keeps {s : State} {n : Nat} {marks : List (Nat × Nat × Nat)} (hk : Keeps σ s) : Keeps σ (State.followMarks s n marks) := by
  unfold State.followMarks
  try dsimp only
  repeat' (first | intro _ | with_reducible (first | assumption | apply State.modRed_keeps | apply State.decideFrame_keeps | apply ite_keeps | apply foldl_keeps | apply foldl_keeps_snd) | split | simp only [Keeps.mk_iff] | dsimp only)

theorem State.applyMirrored_keeps {s : State} {mseq : Nat} {frame : Nat} {band : Nat} {what : Mirrored} (hk : Keeps σ s) : Keeps σ (State.applyMirrored s mseq frame band what).2 := by
  unfold State.applyMirrored
  try dsimp only
  repeat' (first | intro _ | with_reducible (first | assumption | apply State.applyMirroredCommand_keeps | apply State.applyMirroredCommand_keeps' (e := by assumption) | apply State.plainWrite_keeps | apply State.keepLate_keeps | apply State.followLate_keeps | apply State.followMode_keeps | apply State.followPower_keeps | apply State.followLoad_keeps | apply State.followLoad_keeps' (e := by assumption) | apply State.asActive_keeps | apply doJobSubmit_keeps | apply doCoefLoad_keeps | apply doCurveLoad_keeps | apply doGainLoad_keeps | apply doModelLoad_keeps | apply doClearFailedMarks_keeps | apply doVoidOpenWindows_keeps | apply State.stageEntries_keeps | apply State.setGovEp_keeps | apply State.put_keeps | apply State.setGovFeed_keeps | apply State.followWith_keeps | apply State.beginStep_keeps | apply State.followMarks_keeps | apply ite_keeps | apply foldl_keeps | apply foldl_keeps_snd) | split | simp only [Keeps.mk_iff] | dsimp only)
theorem State.applyMirrored_keeps' {s : State} {mseq : Nat} {frame : Nat} {band : Nat} {what : Mirrored} (hk : Keeps σ s) {a t} (e : State.applyMirrored s mseq frame band what = (a, t)) : Keeps σ t := by
  have k := congrArg (fun q => Keeps σ q.2) e
  exact k ▸ State.applyMirrored_keeps hk

theorem State.takeMirrored_keeps {s : State} {k : KeptRec} (hk : Keeps σ s) : Keeps σ (State.takeMirrored s k) := by
  unfold State.takeMirrored
  try dsimp only
  repeat' (first | intro _ | with_reducible (first | assumption | apply State.startResync_keeps | apply State.tally_keeps | apply State.applyMirrored_keeps | apply State.applyMirrored_keeps' (e := by assumption) | apply State.sendBellB_keeps | apply State.put_keeps | apply State.modRed_keeps | apply ite_keeps | apply foldl_keeps | apply foldl_keeps_snd) | split | simp only [Keeps.mk_iff] | dsimp only)

theorem State.applyKept_keeps {s : State} {l : List KeptRec} (hk : Keeps σ s) : Keeps σ (State.applyKept s l) := by
  unfold State.applyKept
  try dsimp only
  repeat' (first | intro _ | with_reducible (first | assumption | apply State.each_keeps | apply State.takeMirrored_keeps | apply ite_keeps | apply foldl_keeps | apply foldl_keeps_snd) | split | simp only [Keeps.mk_iff] | dsimp only)

theorem State.takeEpoch_keeps {s : State} {epoch : Nat} {seq : Nat} (hk : Keeps σ s) : Keeps σ (State.takeEpoch s epoch seq) := by
  unfold State.takeEpoch
  try dsimp only
  repeat' (first | intro _ | with_reducible (first | assumption | apply State.put_keeps | apply ite_keeps | apply foldl_keeps | apply foldl_keeps_snd) | split | simp only [Keeps.mk_iff] | dsimp only)

theorem State.applySnapshot_keeps {s : State} {p : Snapshot} (hk : Keeps σ s) : Keeps σ (State.applySnapshot s p) := by
  unfold State.applySnapshot
  try dsimp only
  repeat' (first | intro _ | with_reducible (first | assumption | apply State.each_keeps | apply State.putFlag_keeps | apply State.setMemberGain_keeps | apply State.runChanged_keeps | apply State.stopStream_keeps | apply State.startStream_keeps | apply State.modRed_keeps | apply State.noteInput_keeps | apply State.syncCmd_keeps | apply State.refreshAll_keeps | apply State.takeEpoch_keeps | apply ite_keeps | apply foldl_keeps | apply foldl_keeps_snd) | split | simp only [Keeps.mk_iff] | dsimp only)

theorem State.startOutputs_keeps {s : State} (hk : Keeps σ s) : Keeps σ (State.startOutputs s) := by
  unfold State.startOutputs
  try dsimp only
  repeat' (first | intro _ | with_reducible (first | assumption | apply State.refreshDvl_keeps | apply State.refreshPtp_keeps | apply State.unmute_keeps | apply State.refreshReady_keeps | apply State.each_keeps | apply State.ddBegin_keeps | apply ite_keeps | apply foldl_keeps | apply foldl_keeps_snd) | split | simp only [Keeps.mk_iff] | dsimp only)

theorem State.becomeActive_keeps {s : State} (hk : Keeps σ s) : Keeps σ (State.becomeActive s) := by
  unfold State.becomeActive
  try dsimp only
  repeat' (first | intro _ | with_reducible (first | assumption | apply State.startOutputs_keeps | apply State.modRed_keeps | apply State.freshEpoch_keeps | apply State.takeRole_keeps | apply ite_keeps | apply foldl_keeps | apply foldl_keeps_snd) | split | simp only [Keeps.mk_iff] | dsimp only)

theorem State.resendSacn_keeps {s : State} (hk : Keeps σ s) : Keeps σ (State.resendSacn s) := by
  unfold State.resendSacn
  try dsimp only
  repeat' (first | intro _ | with_reducible (first | assumption | apply State.each_keeps | apply State.setUniv_keeps | apply ite_keeps | apply foldl_keeps | apply foldl_keeps_snd) | split | simp only [Keeps.mk_iff] | dsimp only)

theorem State.resendNotices_keeps {s : State} (hk : Keeps σ s) : Keeps σ (State.resendNotices s) := by
  unfold State.resendNotices
  try dsimp only
  repeat' (first | intro _ | with_reducible (first | assumption | apply State.each_keeps | apply State.sendControl_keeps | apply State.sendWindows_keeps | apply State.darkStopped_keeps | apply ite_keeps | apply foldl_keeps | apply foldl_keeps_snd) | split | simp only [Keeps.mk_iff] | dsimp only)

theorem State.becomeSender_keeps {s : State} {detect : Nat} (hk : Keeps σ s) : Keeps σ (State.becomeSender s detect) := by
  unfold State.becomeSender
  try dsimp only
  repeat' (first | intro _ | with_reducible (first | assumption | apply State.modRed_keeps | apply State.applyKept_keeps | apply State.applySnapshot_keeps | apply State.takeEpoch_keeps | apply State.advanceEpoch_keeps | apply State.free_keeps | apply State.free_keeps' (e := by assumption) | apply State.put_keeps | apply State.bump_keeps | apply State.takeRole_keeps | apply State.tally_keeps | apply State.raise_keeps | apply State.startOutputs_keeps | apply State.each_keeps | apply State.sendTime_keeps | apply State.resendSacn_keeps | apply State.resendNotices_keeps | apply ite_keeps | apply foldl_keeps | apply foldl_keeps_snd) | split | simp only [Keeps.mk_iff] | dsimp only)

theorem State.becomeStandby_keeps {s : State} {hb : Heartbeat} (hk : Keeps σ s) : Keeps σ (State.becomeStandby s hb) := by
  unfold State.becomeStandby
  try dsimp only
  repeat' (first | intro _ | with_reducible (first | assumption | apply State.startResync_keeps | apply State.takeEpoch_keeps | apply State.takeRole_keeps | apply ite_keeps | apply foldl_keeps | apply foldl_keeps_snd) | split | simp only [Keeps.mk_iff] | dsimp only)

theorem State.handOver_keeps {s : State} {w : Switching} {n : Nat} (hk : Keeps σ s) : Keeps σ (State.handOver s w n) := by
  unfold State.handOver
  try dsimp only
  repeat' (first | intro _ | with_reducible (first | assumption | apply State.modRed_keeps | apply State.ringBells_keeps | apply ite_keeps | apply foldl_keeps | apply foldl_keeps_snd) | split | simp only [Keeps.mk_iff] | dsimp only)

theorem State.beginSwitch_keeps {s : State} {dormant : Bool} {force : Bool} (hk : Keeps σ s) : Keeps σ (State.beginSwitch s dormant force) := by
  unfold State.beginSwitch
  try dsimp only
  repeat' (first | intro _ | with_reducible (first | assumption | apply State.modRed_keeps | apply State.handOver_keeps | apply ite_keeps | apply foldl_keeps | apply foldl_keeps_snd) | split | simp only [Keeps.mk_iff] | dsimp only)

theorem State.bellOffset_keeps {s : State} {hb : Heartbeat} (hk : Keeps σ s) : Keeps σ (State.bellOffset s hb) := by
  unfold State.bellOffset
  try dsimp only
  repeat' (first | intro _ | with_reducible (first | assumption | apply State.modRed_keeps | apply State.put_keeps | apply ite_keeps | apply foldl_keeps | apply foldl_keeps_snd) | split | simp only [Keeps.mk_iff] | dsimp only)

theorem State.declareFailure_keeps {s : State} {cause : Nat} (hk : Keeps σ s) : Keeps σ (State.declareFailure s cause) := by
  unfold State.declareFailure
  try dsimp only
  repeat' (first | intro _ | with_reducible (first | assumption | apply State.putFlag_keeps | apply State.tally_keeps | apply State.raise_keeps | apply State.modRed_keeps | apply ite_keeps | apply foldl_keeps | apply foldl_keeps_snd) | split | simp only [Keeps.mk_iff] | dsimp only)

theorem State.bothSilent_keeps {s : State} (hk : Keeps σ s) : Keeps σ (State.bothSilent s) := by
  unfold State.bothSilent
  try dsimp only
  repeat' (first | intro _ | with_reducible (first | assumption | apply State.modRed_keeps | apply State.tally_keeps | apply State.raise_keeps | apply State.declareFailure_keeps | apply ite_keeps | apply foldl_keeps | apply foldl_keeps_snd) | split | simp only [Keeps.mk_iff] | dsimp only)

theorem State.judgePulse_keeps {s : State} (hk : Keeps σ s) : Keeps σ (State.judgePulse s) := by
  unfold State.judgePulse
  try dsimp only
  repeat' (first | intro _ | with_reducible (first | assumption | apply State.modRed_keeps | apply ite_keeps | apply foldl_keeps | apply foldl_keeps_snd) | split | simp only [Keeps.mk_iff] | dsimp only)

theorem State.notePartner_keeps {s : State} {bellB : Bool} {hb : Heartbeat} {info : Option PartnerInfo} (hk : Keeps σ s) : Keeps σ (State.notePartner s bellB hb info) := by
  unfold State.notePartner
  try dsimp only
  repeat' (first | intro _ | with_reducible (first | assumption | apply State.putFlag_keeps | apply State.put_keeps | apply State.bellOffset_keeps | apply State.put64_keeps | apply State.modRed_keeps | apply ite_keeps | apply foldl_keeps | apply foldl_keeps_snd) | split | simp only [Keeps.mk_iff] | dsimp only)

theorem State.pathAlarm_keeps {s : State} {bellB : Bool} (hk : Keeps σ s) : Keeps σ (State.pathAlarm s bellB) := by
  unfold State.pathAlarm
  try dsimp only
  repeat' (first | intro _ | with_reducible (first | assumption | apply State.raise_keeps | apply State.modBell_keeps | apply State.tally_keeps | apply State.bump_keeps | apply ite_keeps | apply foldl_keeps | apply foldl_keeps_snd) | split | simp only [Keeps.mk_iff] | dsimp only)

theorem State.redCommand_keeps {s : State} {value : Nat} (hk : Keeps σ s) : Keeps σ (State.redCommand s value) := by
  unfold State.redCommand
  try dsimp only
  repeat' (first | intro _ | with_reducible (first | assumption | apply State.put_keeps | apply ite_keeps | apply foldl_keeps | apply foldl_keeps_snd) | split | simp only [Keeps.mk_iff] | dsimp only)

theorem State.redResult_keeps {s : State} {st : Nat} (hk : Keeps σ s) : Keeps σ (State.redResult s st) := by
  unfold State.redResult
  try dsimp only
  repeat' (first | intro _ | with_reducible (first | assumption | apply State.advance_keeps | apply State.put_keeps | apply ite_keeps | apply foldl_keeps | apply foldl_keeps_snd) | split | simp only [Keeps.mk_iff] | dsimp only)

theorem doSwitch_keeps {s : State} {value : Word} (hk : Keeps σ s) : Keeps σ (doSwitch value s) := by
  unfold doSwitch
  try dsimp only
  repeat' (first | intro _ | with_reducible (first | assumption | apply State.redCommand_keeps | apply State.redResult_keeps | apply State.beginSwitch_keeps | apply ite_keeps | apply foldl_keeps | apply foldl_keeps_snd) | split | simp only [Keeps.mk_iff] | dsimp only)

theorem doForceActive_keeps {s : State} (hk : Keeps σ s) : Keeps σ (doForceActive s) := by
  unfold doForceActive
  try dsimp only
  repeat' (first | intro _ | with_reducible (first | assumption | apply State.redResult_keeps | apply State.becomeActive_keeps | apply State.declareFailure_keeps | apply ite_keeps | apply foldl_keeps | apply foldl_keeps_snd) | split | simp only [Keeps.mk_iff] | dsimp only)

theorem doUnfence_keeps {s : State} (hk : Keeps σ s) : Keeps σ (doUnfence s) := by
  unfold doUnfence
  try dsimp only
  repeat' (first | intro _ | with_reducible (first | assumption | apply State.redResult_keeps | apply State.putFlag_keeps | apply ite_keeps | apply foldl_keeps | apply foldl_keeps_snd) | split | simp only [Keeps.mk_iff] | dsimp only)

theorem doResync_keeps {s : State} (hk : Keeps σ s) : Keeps σ (doResync s) := by
  unfold doResync
  try dsimp only
  repeat' (first | intro _ | with_reducible (first | assumption | apply State.startResync_keeps | apply State.redResult_keeps | apply ite_keeps | apply foldl_keeps | apply foldl_keeps_snd) | split | simp only [Keeps.mk_iff] | dsimp only)

theorem State.ringHeard_keeps {s : State} {bellB : Bool} {hb : Heartbeat} (hk : Keeps σ s) : Keeps σ (State.ringHeard s bellB hb) := by
  unfold State.ringHeard
  try dsimp only
  repeat' (first | intro _ | with_reducible (first | assumption | apply State.modBell_keeps | apply State.putFlag_keeps | apply State.tally_keeps | apply ite_keeps | apply foldl_keeps | apply foldl_keeps_snd) | split | simp only [Keeps.mk_iff] | dsimp only)

theorem State.runMirrored_keeps {s : State} {r : MirrorRec} (hk : Keeps σ s) : Keeps σ (State.runMirrored s r) := by
  unfold State.runMirrored
  try dsimp only
  repeat' (first | intro _ | with_reducible (first | assumption | apply State.acceptAwaiting_keeps | apply State.plainWrite_keeps | apply State.keepLate_keeps | apply acceptMode_keeps | apply doJobSubmit_keeps | apply doCoefLoad_keeps | apply doCurveLoad_keeps | apply doGainLoad_keeps | apply doModelLoad_keeps | apply doClearFailedMarks_keeps | apply doVoidOpenWindows_keeps | apply State.beginStep_keeps | apply ite_keeps | apply foldl_keeps | apply foldl_keeps_snd) | split | simp only [Keeps.mk_iff] | dsimp only)

theorem State.runQueue_keeps {s : State} (hk : Keeps σ s) : Keeps σ (State.runQueue s) := by
  unfold State.runQueue
  try dsimp only
  repeat' (first | intro _ | with_reducible (first | assumption | apply State.each_keeps | apply State.modRed_keeps | apply State.runMirrored_keeps | apply ite_keeps | apply foldl_keeps | apply foldl_keeps_snd) | split | simp only [Keeps.mk_iff] | dsimp only)

theorem State.showHealth_keeps {s : State} {b : List Nat} (hk : Keeps σ s) : Keeps σ (State.showHealth s b) := by
  unfold State.showHealth
  try dsimp only
  repeat' (first | intro _ | with_reducible (first | assumption | apply State.each_keeps | apply State.put_keeps | apply ite_keeps | apply foldl_keeps | apply foldl_keeps_snd) | split | simp only [Keeps.mk_iff] | dsimp only)

theorem State.standbyHears_keeps {s : State} {hb : Heartbeat} (hk : Keeps σ s) : Keeps σ (State.standbyHears s hb) := by
  unfold State.standbyHears
  try dsimp only
  repeat' (first | intro _ | with_reducible (first | assumption | apply State.takeEpoch_keeps | apply State.declareFailure_keeps | apply State.becomeSender_keeps | apply State.putFlag_keeps | apply ite_keeps | apply foldl_keeps | apply foldl_keeps_snd) | split | simp only [Keeps.mk_iff] | dsimp only)

theorem State.switched_keeps {s : State} (hk : Keeps σ s) : Keeps σ (State.switched s) := by
  unfold State.switched
  try dsimp only
  repeat' (first | intro _ | with_reducible (first | assumption | apply State.free_keeps | apply State.free_keeps' (e := by assumption) | apply State.modRed_keeps | apply State.redResult_keeps | apply State.tally_keeps | apply State.raise_keeps | apply State.modSys_keeps | apply ite_keeps | apply foldl_keeps | apply foldl_keeps_snd) | split | simp only [Keeps.mk_iff] | dsimp only)

theorem doAckReceive_keeps {s : State} {mseq : Nat} (hk : Keeps σ s) : Keeps σ (doAckReceive mseq s) := by
  unfold doAckReceive
  try dsimp only
  repeat' (first | intro _ | with_reducible (first | assumption | apply State.each_keeps | apply State.modRed_keeps | apply State.runMirrored_keeps | apply ite_keeps | apply foldl_keeps | apply foldl_keeps_snd) | split | simp only [Keeps.mk_iff] | dsimp only)

theorem doBellAHeartbeat_keeps {s : State} (hk : Keeps σ s) : Keeps σ (doBellAHeartbeat s) := by
  unfold doBellAHeartbeat
  try dsimp only
  repeat' (first | intro _ | with_reducible (first | assumption | apply State.sendBellA_keeps | apply ite_keeps | apply foldl_keeps | apply foldl_keeps_snd) | split | simp only [Keeps.mk_iff] | dsimp only)

theorem doBellBHeartbeat_keeps {s : State} (hk : Keeps σ s) : Keeps σ (doBellBHeartbeat s) := by
  unfold doBellBHeartbeat
  try dsimp only
  repeat' (first | intro _ | with_reducible (first | assumption | apply State.sendHeartbeatB_keeps | apply ite_keeps | apply foldl_keeps | apply foldl_keeps_snd) | split | simp only [Keeps.mk_iff] | dsimp only)

theorem doBellSilent_keeps {s : State} {bellB : Bool} (hk : Keeps σ s) : Keeps σ (doBellSilent bellB s) := by
  unfold doBellSilent
  try dsimp only
  repeat' (first | intro _ | with_reducible (first | assumption | apply State.atUptime_keeps | apply State.putFlag_keeps | apply State.modBell_keeps | apply State.refreshReady_keeps | apply State.pathAlarm_keeps | apply State.bothSilent_keeps | apply ite_keeps | apply foldl_keeps | apply foldl_keeps_snd) | split | simp only [Keeps.mk_iff] | dsimp only)

theorem doDormantHandover_keeps {s : State} (hk : Keeps σ s) : Keeps σ (doDormantHandover s) := by
  unfold doDormantHandover
  try dsimp only
  repeat' (first | intro _ | with_reducible (first | assumption | apply State.beginSwitch_keeps | apply ite_keeps | apply foldl_keeps | apply foldl_keeps_snd) | split | simp only [Keeps.mk_iff] | dsimp only)

theorem doFenceAlarm_keeps {s : State} (hk : Keeps σ s) : Keeps σ (doFenceAlarm s) := by
  unfold doFenceAlarm
  try dsimp only
  repeat' (first | intro _ | with_reducible (first | assumption | apply State.judgePulse_keeps | apply State.atUptime_keeps | apply State.refreshReady_keeps | apply State.tally_keeps | apply State.raise_keeps | apply State.modRed_keeps | apply ite_keeps | apply foldl_keeps | apply foldl_keeps_snd) | split | simp only [Keeps.mk_iff] | dsimp only)

theorem doFenceInPulse_keeps {s : State} (hk : Keeps σ s) : Keeps σ (doFenceInPulse s) := by
  unfold doFenceInPulse
  try dsimp only
  repeat' (first | intro _ | with_reducible (first | assumption | apply State.modRed_keeps | apply ite_keeps | apply foldl_keeps | apply foldl_keeps_snd) | split | simp only [Keeps.mk_iff] | dsimp only)

theorem doFenceInQualified_keeps {s : State} (hk : Keeps σ s) : Keeps σ (doFenceInQualified s) := by
  unfold doFenceInQualified
  try dsimp only
  repeat' (first | intro _ | with_reducible (first | assumption | apply State.takeReset_keeps | apply State.putFlag_keeps | apply State.refreshReady_keeps | apply State.switched_keeps | apply State.fence_keeps | apply ite_keeps | apply foldl_keeps | apply foldl_keeps_snd) | split | simp only [Keeps.mk_iff] | dsimp only)

theorem doFenceInReleased_keeps {s : State} (hk : Keeps σ s) : Keeps σ (doFenceInReleased s) := by
  unfold doFenceInReleased
  try dsimp only
  repeat' (first | intro _ | with_reducible (first | assumption | apply State.putFlag_keeps | apply State.each_keeps | apply State.ddEnter_keeps | apply State.refreshReady_keeps | apply State.takeRole_keeps | apply State.startPair_keeps | apply State.refreshAll_keeps | apply State.ddBegin_keeps | apply ite_keeps | apply foldl_keeps | apply foldl_keeps_snd) | split | simp only [Keeps.mk_iff] | dsimp only)

theorem doFencePulse_keeps {s : State} (hk : Keeps σ s) : Keeps σ (doFencePulse s) := by
  unfold doFencePulse
  try dsimp only
  repeat' (first | intro _ | with_reducible (first | assumption | apply State.opportunity_keeps | apply State.opportunity_keeps' (e := by assumption) | apply State.judgePulse_keeps | apply State.emit_keeps | apply State.modRed_keeps | apply ite_keeps | apply foldl_keeps | apply foldl_keeps_snd) | split | simp only [Keeps.mk_iff] | dsimp only)

theorem doHealthReport_keeps {s : State} {report : List Nat} (hk : Keeps σ s) : Keeps σ (doHealthReport report s) := by
  unfold doHealthReport
  try dsimp only
  repeat' (first | intro _ | with_reducible (first | assumption | apply State.sendBellB_keeps | apply State.showHealth_keeps | apply State.modRed_keeps | apply State.putFlag_keeps | apply ite_keeps | apply foldl_keeps | apply foldl_keeps_snd) | split | simp only [Keeps.mk_iff] | dsimp only)

theorem doHealthStale_keeps {s : State} (hk : Keeps σ s) : Keeps σ (doHealthStale s) := by
  unfold doHealthStale
  try dsimp only
  repeat' (first | intro _ | with_reducible (first | assumption | apply State.putFlag_keeps | apply State.atUptime_keeps | apply ite_keeps | apply foldl_keeps | apply foldl_keeps_snd) | split | simp only [Keeps.mk_iff] | dsimp only)

theorem doHeartbeatReceive_keeps {s : State} {bellB : Bool} {hb : Heartbeat} {info : Option PartnerInfo} (hk : Keeps σ s) : Keeps σ (doHeartbeatReceive bellB hb info s) := by
  unfold doHeartbeatReceive
  try dsimp only
  repeat' (first | intro _ | with_reducible (first | assumption | apply State.notePartner_keeps | apply State.ringHeard_keeps | apply State.becomeStandby_keeps | apply State.becomeActive_keeps | apply State.activeHears_keeps | apply State.standbyHears_keeps | apply State.tally_keeps | apply State.refreshReady_keeps | apply ite_keeps | apply foldl_keeps | apply foldl_keeps_snd) | split | simp only [Keeps.mk_iff] | dsimp only)

theorem doLinkLoopbackTest_keeps {s : State} {port : Nat} {pass : Bool} (hk : Keeps σ s) : Keeps σ (doLinkLoopbackTest port pass s) := by
  unfold doLinkLoopbackTest
  try dsimp only
  repeat' (first | intro _ | with_reducible (first | assumption | apply State.refreshReady_keeps | apply State.modRed_keeps | apply ite_keeps | apply foldl_keeps | apply foldl_keeps_snd) | split | simp only [Keeps.mk_iff] | dsimp only)

theorem doMarkWaitExpire_keeps {s : State} (hk : Keeps σ s) : Keeps σ (doMarkWaitExpire s) := by
  unfold doMarkWaitExpire
  try dsimp only
  repeat' (first | intro _ | with_reducible (first | assumption | apply State.modRed_keeps | apply State.decideFrame_keeps | apply State.atTime_keeps | apply ite_keeps | apply foldl_keeps | apply foldl_keeps_snd) | split | simp only [Keeps.mk_iff] | dsimp only)

theorem doMirrorLag_keeps {s : State} (hk : Keeps σ s) : Keeps σ (doMirrorLag s) := by
  unfold doMirrorLag
  try dsimp only
  repeat' (first | intro _ | with_reducible (first | assumption | apply State.tally_keeps | apply State.atUptime_keeps | apply State.runQueue_keeps | apply State.modRed_keeps | apply ite_keeps | apply foldl_keeps | apply foldl_keeps_snd) | split | simp only [Keeps.mk_iff] | dsimp only)

theorem doMirrorReceive_keeps {s : State} {mseq : Nat} {frame : Nat} {band : Nat} {tcrc : Nat} {what : Mirrored} (hk : Keeps σ s) : Keeps σ (doMirrorReceive mseq frame band tcrc what s) := by
  unfold doMirrorReceive
  try dsimp only
  repeat' (first | intro _ | with_reducible (first | assumption | apply State.modRed_keeps | apply State.refreshReady_keeps | apply State.takeMirrored_keeps | apply State.startResync_keeps | apply State.tally_keeps | apply State.sendBellB_keeps | apply ite_keeps | apply foldl_keeps | apply foldl_keeps_snd) | split | simp only [Keeps.mk_iff] | dsimp only)

theorem doMirrorResend_keeps {s : State} {mseq : Nat} (hk : Keeps σ s) : Keeps σ (doMirrorResend mseq s) := by
  unfold doMirrorResend
  try dsimp only
  repeat' (first | intro _ | with_reducible (first | assumption | apply State.emit_keeps | apply State.atUptime_keeps | apply ite_keeps | apply foldl_keeps | apply foldl_keeps_snd) | split | simp only [Keeps.mk_iff] | dsimp only)

theorem doResyncReqReceive_keeps {s : State} {reason : Nat} (hk : Keeps σ s) : Keeps σ (doResyncReqReceive reason s) := by
  unfold doResyncReqReceive
  try dsimp only
  repeat' (first | intro _ | with_reducible (first | assumption | apply State.tally_keeps | apply State.put_keeps | apply State.modRed_keeps | apply ite_keeps | apply foldl_keeps | apply foldl_keeps_snd) | split | simp only [Keeps.mk_iff] | dsimp only)

theorem doSeekTimeout_keeps {s : State} (hk : Keeps σ s) : Keeps σ (doSeekTimeout s) := by
  unfold doSeekTimeout
  try dsimp only
  repeat' (first | intro _ | with_reducible (first | assumption | apply State.becomeActive_keeps | apply State.atUptime_keeps | apply ite_keeps | apply foldl_keeps | apply foldl_keeps_snd) | split | simp only [Keeps.mk_iff] | dsimp only)

theorem doSigCompare_keeps {s : State} {n : Nat} {partner : Option (Nat × List Nat)} (hk : Keeps σ s) : Keeps σ (doSigCompare n partner s) := by
  unfold doSigCompare
  try dsimp only
  repeat' (first | intro _ | with_reducible (first | assumption | apply State.bump_keeps | apply State.modRed_keeps | apply State.raise_keeps | apply State.refreshReady_keeps | apply State.tally_keeps | apply ite_keeps | apply foldl_keeps | apply foldl_keeps_snd) | split | simp only [Keeps.mk_iff] | dsimp only)

theorem doSnapshotReceive_keeps {s : State} {part : Option (Snapshot × Nat)} (hk : Keeps σ s) : Keeps σ (doSnapshotReceive part s) := by
  unfold doSnapshotReceive
  try dsimp only
  repeat' (first | intro _ | with_reducible (first | assumption | apply State.modRed_keeps | apply State.atUptime_keeps | apply State.atTime_keeps | apply State.applyKept_keeps | apply State.applySnapshot_keeps | apply State.raise_keeps | apply State.put_keeps | apply State.refreshReady_keeps | apply State.tally_keeps | apply ite_keeps | apply foldl_keeps | apply foldl_keeps_snd) | split | simp only [Keeps.mk_iff] | dsimp only)

theorem doSwitchHandover_keeps {s : State} (hk : Keeps σ s) : Keeps σ (doSwitchHandover s) := by
  unfold doSwitchHandover
  try dsimp only
  repeat' (first | intro _ | with_reducible (first | assumption | apply State.handOver_keeps | apply State.atTime_keeps | apply ite_keeps | apply foldl_keeps | apply foldl_keeps_snd) | split | simp only [Keeps.mk_iff] | dsimp only)

theorem doSwitchTimeout_keeps {s : State} (hk : Keeps σ s) : Keeps σ (doSwitchTimeout s) := by
  unfold doSwitchTimeout
  try dsimp only
  repeat' (first | intro _ | with_reducible (first | assumption | apply State.atUptime_keeps | apply State.free_keeps | apply State.free_keeps' (e := by assumption) | apply State.modRed_keeps | apply State.unmute_keeps | apply State.advanceEpoch_keeps | apply State.putFlag_keeps | apply State.modeResult_keeps | apply State.raise_keeps | apply State.modSys_keeps | apply State.redResult_keeps | apply State.tally_keeps | apply ite_keeps | apply foldl_keeps | apply foldl_keeps_snd) | split | simp only [Keeps.mk_iff] | dsimp only)

theorem doTakeover_keeps {s : State} (hk : Keeps σ s) : Keeps σ (doTakeover s) := by
  unfold doTakeover
  try dsimp only
  repeat' (first | intro _ | with_reducible (first | assumption | apply State.becomeSender_keeps | apply State.atUptime_keeps | apply ite_keeps | apply foldl_keeps | apply foldl_keeps_snd) | split | simp only [Keeps.mk_iff] | dsimp only)

end Sys2Proof.Machine
end

