-- ==== Sys2Proof/Laws/KeepHostAccess.lean ====
section
/-! SUPPORT. What the operations of Machine/HostAccess keep (Laws/Keep). -/
namespace Sys2Proof.Machine

variable {σ : State}

theorem State.calCmd_keeps {s : State} {v : Nat} (hk : Keeps σ s) : Keeps σ (State.calCmd s v) := by
  unfold State.calCmd
  try dsimp only
  repeat' (first | intro _ | with_reducible (first | assumption | apply State.put_keeps | apply State.mirrored_keeps | apply doClearFailedMarks_keeps | apply doVoidOpenWindows_keeps | apply ite_keeps | apply foldl_keeps | apply foldl_keeps_snd) | split | simp only [Keeps.mk_iff] | dsimp only)

theorem State.ceCtl_keeps {s : State} {e : Nat} {v : Nat} (hk : Keeps σ s) : Keeps σ (State.ceCtl s e v) := by
  unfold State.ceCtl
  try dsimp only
  repeat' (first | intro _ | with_reducible (first | assumption | apply State.put_keeps | apply doCeQuarantine_keeps | apply doCeRetry_keeps | apply doSigNow_keeps | apply ite_keeps | apply foldl_keeps | apply foldl_keeps_snd) | split | simp only [Keeps.mk_iff] | dsimp only)

theorem State.consumeHeld_keeps {s : State} {h : HeldRead} (hk : Keeps σ s) : Keeps σ (State.consumeHeld s h) := by
  unfold State.consumeHeld
  try dsimp only
  repeat' (first | intro _ | with_reducible (first | assumption | apply State.pump_keeps | apply State.popAdvance_keeps | apply State.post_keeps | apply State.consumeReg_keeps | apply ite_keeps | apply foldl_keeps | apply foldl_keeps_snd) | split | simp only [Keeps.mk_iff] | dsimp only)

theorem State.ddpCmd_keeps {s : State} {v : Nat} (hk : Keeps σ s) : Keeps σ (State.ddpCmd s v) := by
  unfold State.ddpCmd
  try dsimp only
  repeat' (first | intro _ | with_reducible (first | assumption | apply State.put_keeps | apply doReleaseBlanked_keeps | apply State.raise_keeps | apply doTestStart_keeps | apply doTestEnd_keeps | apply ite_keeps | apply foldl_keeps | apply foldl_keeps_snd) | split | simp only [Keeps.mk_iff] | dsimp only)

theorem State.dropHeld_keeps {s : State} {h : HeldRead} (hk : Keeps σ s) : Keeps σ (State.dropHeld s h) := by
  unfold State.dropHeld
  try dsimp only
  repeat' (first | intro _ | with_reducible (first | assumption | apply State.modHost_keeps | apply ite_keeps | apply foldl_keeps | apply foldl_keeps_snd) | split | simp only [Keeps.mk_iff] | dsimp only)

theorem State.injCtl_keeps {s : State} {v : Nat} (hk : Keeps σ s) : Keeps σ (State.injCtl s v) := by
  unfold State.injCtl
  try dsimp only
  repeat' (first | intro _ | with_reducible (first | assumption | apply doInjectionCancelled_keeps | apply doInjectionArmed_keeps | apply ite_keeps | apply foldl_keeps | apply foldl_keeps_snd) | split | simp only [Keeps.mk_iff] | dsimp only)

theorem State.msixWrite_keeps {s : State} {a : Nat} {v : Nat} (hk : Keeps σ s) : Keeps σ (State.msixWrite s a v) := by
  unfold State.msixWrite
  try dsimp only
  repeat' (first | intro _ | with_reducible (first | assumption | apply State.sendPending_keeps | apply State.modHost_keeps | apply ite_keeps | apply foldl_keeps | apply foldl_keeps_snd) | split | simp only [Keeps.mk_iff] | dsimp only)

theorem State.pailRegWrite_keeps {s : State} {a : Nat} {v : Nat} (hk : Keeps σ s) : Keeps σ (State.pailRegWrite s a v) := by
  unfold State.pailRegWrite
  try dsimp only
  repeat' (first | intro _ | with_reducible (first | assumption | apply doPlWrWrite_keeps | apply doPlRdWrite_keeps | apply State.put_keeps | apply doFlush_keeps | apply State.plainWrite_keeps | apply ite_keeps | apply foldl_keeps | apply foldl_keeps_snd) | split | simp only [Keeps.mk_iff] | dsimp only)

theorem State.portCtl_keeps {s : State} {p : Nat} {v : Nat} (hk : Keeps σ s) : Keeps σ (State.portCtl s p v) := by
  unfold State.portCtl
  try dsimp only
  repeat' (first | intro _ | with_reducible (first | assumption | apply doPortEnable_keeps | apply State.storeReg_keeps | apply ite_keeps | apply foldl_keeps | apply foldl_keeps_snd) | split | simp only [Keeps.mk_iff] | dsimp only)

theorem State.redCmd_keeps {s : State} {v : Nat} (hk : Keeps σ s) : Keeps σ (State.redCmd s v) := by
  unfold State.redCmd
  try dsimp only
  repeat' (first | intro _ | with_reducible (first | assumption | apply State.redCommand_keeps | apply doSwitch_keeps | apply doForceActive_keeps | apply doUnfence_keeps | apply doResync_keeps | apply ite_keeps | apply foldl_keeps | apply foldl_keeps_snd) | split | simp only [Keeps.mk_iff] | dsimp only)

theorem State.strLoadCtl_keeps {s : State} {v : Nat} (hk : Keeps σ s) : Keeps σ (State.strLoadCtl s v) := by
  unfold State.strLoadCtl
  try dsimp only
  repeat' (first | intro _ | with_reducible (first | assumption | apply doStrLoad_keeps | apply doStrAbort_keeps | apply ite_keeps | apply foldl_keeps | apply foldl_keeps_snd) | split | simp only [Keeps.mk_iff] | dsimp only)

theorem State.timCmd_keeps {s : State} {v : Nat} (hk : Keeps σ s) : Keeps σ (State.timCmd s v) := by
  unfold State.timCmd
  try dsimp only
  repeat' (first | intro _ | with_reducible (first | assumption | apply State.put_keeps | apply doTimeSet_keeps | apply doApplyStep_keeps | apply State.raise_keeps | apply ite_keeps | apply foldl_keeps | apply foldl_keeps_snd) | split | simp only [Keeps.mk_iff] | dsimp only)

theorem State.semWrite_keeps {s : State} {who : Initiator} {n : Nat} {v : Nat} (hk : Keeps σ s) : Keeps σ (State.semWrite s who n v) := by
  unfold State.semWrite
  try dsimp only
  repeat' (first | intro _ | with_reducible (first | assumption | apply doSemTake_keeps | apply doSemGive_keeps | apply State.semFields_keeps | apply ite_keeps | apply foldl_keeps | apply foldl_keeps_snd) | split | simp only [Keeps.mk_iff] | dsimp only)

theorem State.updCmd_keeps {s : State} {v : Nat} (hk : Keeps σ s) : Keeps σ (State.updCmd s v) := by
  unfold State.updCmd
  try dsimp only
  repeat' (first | intro _ | with_reducible (first | assumption | apply State.updCommand_keeps | apply doFwLoad_keeps | apply doFwConfirm_keeps | apply doFwRevert_keeps | apply doFwAbort_keeps | apply doBurnFwCounter_keeps | apply doBurnStrCounter_keeps | apply ite_keeps | apply foldl_keeps | apply foldl_keeps_snd) | split | simp only [Keeps.mk_iff] | dsimp only)

theorem State.storeWrite_keeps {s : State} {who : Initiator} {a : Nat} {v : Nat} (hk : Keeps σ s) : Keeps σ (State.storeWrite s who a v) := by
  unfold State.storeWrite
  try dsimp only
  repeat' (first | intro _ | with_reducible (first | assumption | apply State.sendMirrorAt_keeps | apply State.plainWrite_keeps | apply State.keepLate_keeps | apply ite_keeps | apply foldl_keeps | apply foldl_keeps_snd) | split | simp only [Keeps.mk_iff] | dsimp only)

theorem State.regWrite_keeps {s : State} {who : Initiator} {a : Nat} {v : Nat} (hk : Keeps σ s) : Keeps σ (State.regWrite s who a v) := by
  unfold State.regWrite
  try dsimp only
  repeat' (first | intro _ | with_reducible (first | assumption | apply doAdvanceWrite_keeps | apply doModeRequest_keeps | apply State.strLoadCtl_keeps | apply State.ceCtl_keeps | apply State.mirrored_keeps | apply doJobSubmit_keeps | apply doCoefLoad_keeps | apply doCurveLoad_keeps | apply doGainLoad_keeps | apply State.calCmd_keeps | apply doModelLoad_keeps | apply State.ddpCmd_keeps | apply State.portCtl_keeps | apply State.timCmd_keeps | apply doExactEntryWrite_keeps | apply State.pailRegWrite_keeps | apply State.semWrite_keeps | apply State.redCmd_keeps | apply State.injCtl_keeps | apply State.updCmd_keeps | apply State.storeWrite_keeps | apply ite_keeps | apply foldl_keeps | apply foldl_keeps_snd) | split | simp only [Keeps.mk_iff] | dsimp only)

theorem State.writeOwn_keeps {s : State} {who : Initiator} {a : Nat} {bytes : List Nat} (hk : Keeps σ s) : Keeps σ (State.writeOwn s who a bytes) := by
  unfold State.writeOwn
  try dsimp only
  repeat' (first | intro _ | with_reducible (first | assumption | apply State.msixWrite_keeps | apply State.writePailMem_keeps | apply State.regWrite_keeps | apply ite_keeps | apply foldl_keeps | apply foldl_keeps_snd) | split | simp only [Keeps.mk_iff] | dsimp only)

theorem State.writeAccess_keeps {s : State} {who : Initiator} {a : Nat} {bytes : List Nat} (hk : Keeps σ s) : Keeps σ (State.writeAccess s who a bytes) := by
  unfold State.writeAccess
  try dsimp only
  repeat' (first | intro _ | with_reducible (first | assumption | apply State.emit_keeps | apply State.bump_keeps | apply State.offAccess_keeps | apply State.bridgeWrite_keeps | apply State.writeOwn_keeps | apply ite_keeps | apply foldl_keeps | apply foldl_keeps_snd) | split | simp only [Keeps.mk_iff] | dsimp only)

theorem doBar2Write_keeps {s : State} {a : Nat} {bytes : List Nat} (hk : Keeps σ s) : Keeps σ (doBar2Write a bytes s) := by
  unfold doBar2Write
  try dsimp only
  repeat' (first | intro _ | with_reducible (first | assumption | apply State.emit_keeps | apply State.offAccess_keeps | apply State.each_keeps | apply State.setBulk_keeps | apply State.modMem_keeps | apply State.tallyLimited_keeps | apply State.raise_keeps | apply State.bump_keeps | apply ite_keeps | apply foldl_keeps | apply foldl_keeps_snd) | split | simp only [Keeps.mk_iff] | dsimp only)

theorem doBridgeRead_keeps {s : State} {who : Initiator} {a : Nat} {len : Nat} (hk : Keeps σ s) : Keeps σ (doBridgeRead who a len s) := by
  unfold doBridgeRead
  try dsimp only
  repeat' (first | intro _ | with_reducible (first | assumption | apply State.readAccess_keeps | apply ite_keeps | apply foldl_keeps | apply foldl_keeps_snd) | split | simp only [Keeps.mk_iff] | dsimp only)

theorem doBridgeWrite_keeps {s : State} {who : Initiator} {a : Nat} {bytes : List Nat} (hk : Keeps σ s) : Keeps σ (doBridgeWrite who a bytes s) := by
  unfold doBridgeWrite
  try dsimp only
  repeat' (first | intro _ | with_reducible (first | assumption | apply State.writeAccess_keeps | apply ite_keeps | apply foldl_keeps | apply foldl_keeps_snd) | split | simp only [Keeps.mk_iff] | dsimp only)

theorem doConsume_keeps {s : State} {who : Initiator} {a : Nat} (hk : Keeps σ s) : Keeps σ (doConsume who a s) := by
  unfold doConsume
  try dsimp only
  repeat' (first | intro _ | with_reducible (first | assumption | apply State.modHost_keeps | apply State.syncHost_keeps | apply State.consumeHeld_keeps | apply State.dropHeld_keeps | apply ite_keeps | apply foldl_keeps | apply foldl_keeps_snd) | split | simp only [Keeps.mk_iff] | dsimp only)

theorem doRcRead_keeps {s : State} {who : Initiator} {a : Nat} {len : Nat} (hk : Keeps σ s) : Keeps σ (doRcRead who a len s) := by
  unfold doRcRead
  try dsimp only
  repeat' (first | intro _ | with_reducible (first | assumption | apply State.readAccess_keeps | apply ite_keeps | apply foldl_keeps | apply foldl_keeps_snd) | split | simp only [Keeps.mk_iff] | dsimp only)

theorem doReadAbandoned_keeps {s : State} {who : Initiator} {a : Nat} (hk : Keeps σ s) : Keeps σ (doReadAbandoned who a s) := by
  unfold doReadAbandoned
  try dsimp only
  repeat' (first | intro _ | with_reducible (first | assumption | apply State.detected_keeps | apply State.dropHeld_keeps | apply State.atUptime_keeps | apply State.raise_keeps | apply State.bump_keeps | apply State.syncHost_keeps | apply State.tally_keeps | apply ite_keeps | apply foldl_keeps | apply foldl_keeps_snd) | split | simp only [Keeps.mk_iff] | dsimp only)

theorem doRegisterWrite_keeps {s : State} {who : Initiator} {req : WriteReq} (hk : Keeps σ s) : Keeps σ (doRegisterWrite who req s) := by
  unfold doRegisterWrite
  try dsimp only
  repeat' (first | intro _ | with_reducible (first | assumption | apply State.writeAccess_keeps | apply State.put_keeps | apply State.sendPending_keeps | apply State.modHost_keeps | apply ite_keeps | apply foldl_keeps | apply foldl_keeps_snd) | split | simp only [Keeps.mk_iff] | dsimp only)

end Sys2Proof.Machine
end

