-- ==== Sys2Proof/Laws/KeepSwitch.lean ====
section
/-! SUPPORT. What the operations of Machine/Switch keep (Laws/Keep). -/
namespace Sys2Proof.Machine

variable {σ : State}

theorem State.drainPart_keeps {s : State} {e : Nat} {kept : List OutPart} {p : OutPart} (hk : Keeps σ s) : Keeps σ (State.drainPart s e kept p).2 := by
  unfold State.drainPart
  try dsimp only
  repeat' (first | intro _ | with_reducible (first | assumption | apply State.modEng_keeps | apply State.useClocks_keeps | apply ite_keeps | apply foldl_keeps | apply foldl_keeps_snd) | split | simp only [Keeps.mk_iff] | dsimp only)
theorem State.drainPart_keeps' {s : State} {e : Nat} {kept : List OutPart} {p : OutPart} (hk : Keeps σ s) {a t} (e : State.drainPart s e kept p = (a, t)) : Keeps σ t := by
  have k := congrArg (fun q => Keeps σ q.2) e
  exact k ▸ State.drainPart_keeps hk

theorem State.drainEngine_keeps {s : State} {e : Nat} (hk : Keeps σ s) : Keeps σ (State.drainEngine s e) := by
  unfold State.drainEngine
  exact State.modEng_keeps (foldl_keeps_snd hk (fun _ _ h => State.drainPart_keeps h))

theorem State.giveCells_keeps {s : State} {e : Nat} {order : Nat} {frame : Nat} {unit : Nat} {gives : List (Nat × Nat)} (hk : Keeps σ s) : Keeps σ (State.giveCells s e order frame unit gives) := by
  unfold State.giveCells
  try dsimp only
  repeat' (first | intro _ | with_reducible (first | assumption | apply State.drainEngine_keeps | apply State.modEng_keeps | apply ite_keeps | apply foldl_keeps | apply foldl_keeps_snd) | split | simp only [Keeps.mk_iff] | dsimp only)

theorem State.takeCells_keeps {s : State} {e : Nat} {takes : List (Nat × Nat)} (hk : Keeps σ s) : Keeps σ (State.takeCells s e takes) := by
  unfold State.takeCells
  try dsimp only
  repeat' (first | intro _ | with_reducible (first | assumption | apply State.opportunity_keeps | apply State.opportunity_keeps' (e := by assumption) | apply State.modEng_keeps | apply State.engineFault_keeps | apply State.each_keeps | apply State.drainEngine_keeps | apply ite_keeps | apply foldl_keeps | apply foldl_keeps_snd) | split | simp only [Keeps.mk_iff] | dsimp only)

end Sys2Proof.Machine
end

