-- ==== Sys2Proof/Laws/KeepParlour.lean ====
section
/-! SUPPORT. What the operations of Machine/Parlour keep (Laws/Keep). -/
namespace Sys2Proof.Machine

variable {σ : State}

theorem State.modItem_keeps {s : State} {p : Nat} {seq : Nat} {f : Item → Item} (hk : Keeps σ s) : Keeps σ (State.modItem s p seq f) := by
  unfold State.modItem
  try dsimp only
  repeat' (first | intro _ | with_reducible (first | assumption | apply State.modPail_keeps | apply ite_keeps | apply foldl_keeps | apply foldl_keeps_snd) | split | simp only [Keeps.mk_iff] | dsimp only)

theorem State.lateItem_keeps {s : State} {d : TaskDesc} (hk : Keeps σ s) : Keeps σ (State.lateItem s d) := by
  unfold State.lateItem
  try dsimp only
  repeat' (first | intro _ | with_reducible (first | assumption | apply State.raise_keeps | apply State.bump_keeps | apply State.tally_keeps | apply ite_keeps | apply foldl_keeps | apply foldl_keeps_snd) | split | simp only [Keeps.mk_iff] | dsimp only)

theorem State.place_keeps {s : State} {e : Nat} {q : Pail} {i : Item} (hk : Keeps σ s) : Keeps σ (State.place s e q i) := by
  unfold State.place
  try dsimp only
  repeat' (first | intro _ | with_reducible (first | assumption | apply State.opportunity_keeps | apply State.opportunity_keeps' (e := by assumption) | apply State.modItem_keeps | apply State.modPail_keeps | apply State.lateItem_keeps | apply State.add64_keeps | apply State.serveNext_keeps | apply State.syncEngine_keeps | apply State.syncPar_keeps | apply State.syncFlow_keeps | apply ite_keeps | apply foldl_keeps | apply foldl_keeps_snd) | split | simp only [Keeps.mk_iff] | dsimp only)

theorem State.retireBad_keeps {s : State} {p : Nat} {seq : Nat} (hk : Keeps σ s) : Keeps σ (State.retireBad s p seq) := by
  unfold State.retireBad
  try dsimp only
  repeat' (first | intro _ | with_reducible (first | assumption | apply State.raise_keeps | apply State.bump_keeps | apply State.releaseDone_keeps | apply State.modItem_keeps | apply ite_keeps | apply foldl_keeps | apply foldl_keeps_snd) | split | simp only [Keeps.mk_iff] | dsimp only)

theorem State.dispatchGo_keeps {s : State} {e : Nat} {x1 : Nat} (hk : Keeps σ s) : Keeps σ (State.dispatchGo s e x1) := by
  induction x1 generalizing s with
  | zero => exact hk
  | succ n ih =>
    unfold State.dispatchGo
    try dsimp only
    repeat' (first | intro _ | with_reducible (first | assumption | apply ih | apply State.pailRead_keeps | apply State.pailRead_keeps' (e := by assumption) | apply State.syncPar_keeps | apply State.releaseDone_keeps | apply State.modItem_keeps | apply State.place_keeps | apply State.retireBad_keeps | apply ite_keeps | apply foldl_keeps | apply foldl_keeps_snd) | split | simp only [Keeps.mk_iff] | dsimp only)

theorem State.eccCorrected_keeps {s : State} {e : Nat} {granule : Nat} (hk : Keeps σ s) : Keeps σ (State.eccCorrected s e granule) := by
  unfold State.eccCorrected
  try dsimp only
  repeat' (first | intro _ | with_reducible (first | assumption | apply State.tally_keeps | apply State.raise_keeps | apply State.bump_keeps | apply State.detect_keeps | apply ite_keeps | apply foldl_keeps | apply foldl_keeps_snd) | split | simp only [Keeps.mk_iff] | dsimp only)

theorem doDispatch_keeps {s : State} {e : Nat} {granule : Option Nat} (hk : Keeps σ s) : Keeps σ (doDispatch e granule s) := by
  unfold doDispatch
  try dsimp only
  repeat' (first | intro _ | with_reducible (first | assumption | apply State.dispatchGo_keeps | apply State.each_keeps | apply State.overShare_keeps | apply State.opportunity_keeps | apply State.opportunity_keeps' (e := by assumption) | apply State.eccCorrected_keeps | apply State.engineFault_keeps | apply ite_keeps | apply foldl_keeps | apply foldl_keeps_snd) | split | simp only [Keeps.mk_iff] | dsimp only)

theorem doItemComplete_keeps {s : State} {e : Nat} {p : Nat} {seq : Nat} {used : ItemUse} (hk : Keeps σ s) : Keeps σ (doItemComplete e p seq used s) := by
  unfold doItemComplete
  try dsimp only
  repeat' (first | intro _ | with_reducible (first | assumption | apply State.releaseDone_keeps | apply State.modItem_keeps | apply State.useClocks_keeps | apply State.add64_keeps | apply State.modChan_keeps | apply State.raise_keeps | apply State.bump_keeps | apply State.giveCells_keeps | apply State.takeCells_keeps | apply State.showTesting_keeps | apply State.serveNext_keeps | apply State.syncEngine_keeps | apply State.syncPar_keeps | apply State.syncFlow_keeps | apply ite_keeps | apply foldl_keeps | apply foldl_keeps_snd) | split | simp only [Keeps.mk_iff] | dsimp only)

end Sys2Proof.Machine
end

