-- ==== Sys2Proof/Laws/KeepTime.lean ====
section
/-! SUPPORT. What the operations of Machine/Time keep (Laws/Keep). -/
namespace Sys2Proof.Machine

variable {σ : State}

theorem State.idle_keeps {s : State} (hk : Keeps σ s) : Keeps σ (State.idle s) := by
  unfold State.idle
  try dsimp only
  repeat' (first | intro _ | with_reducible (first | assumption | apply ite_keeps | apply foldl_keeps | apply foldl_keeps_snd) | split | simp only [Keeps.mk_iff] | dsimp only)

end Sys2Proof.Machine
end

