-- ==== Sys2Proof/Tests/Slice0.lean ====
section
/-! SUPPORT. Tests: for every statement that has hypotheses a concrete state and operands that meet
them all, the smoke test of well-formedness, and one-step tests whose expected values are the spec's
own worked examples. -/

namespace Sys2Proof.Tests

set_option linter.all false
set_option maxRecDepth 4000
set_option Elab.async false

open Sys2Proof Sys2Proof.Machine

def warm : State := ((State.reset.put F.PCR_PD_STAT_ON 0xFFFF).put F.PCR_STAT_PHASE 15).modSys (fun y => { y with started := true })
def hold : State := warm.put F.SYS_MODE_STAT_POWER 2
def shw : State := warm.put F.SYS_MODE_STAT_POWER 3
def dorm : State := warm.put F.SYS_MODE_STAT_POWER 0
def hb0 : Heartbeat := ⟨0, false, false, false, false, false, false, 0, 0, 0, 0, 0, 0, 0, 0, 0⟩
def hbSt : Heartbeat := { hb0 with role := 2, ready := true }
def eng0 (e kind : Nat) : EngineSec := ⟨e, 0, 1, [⟨kind, 0, 1024, 1⟩], [], [], 0, []⟩
def st0 : Structure := ⟨false, 1, 7, 0, 1, 0, 0xFFF, 0, 0xFFFFFFFF, [eng0 2 0xA, eng0 3 1], some [], [], [], (List.range 70).map (fun k => ⟨0, k, 200⟩), [0]⟩
def withStr (st : Structure) (s : State) : State := { s with str := { s.str with inForce := some st } }
def sp (s : State) : State := withStr st0 s
def chan (kind index : Nat) (params : List (Nat × Nat) := []) : Chan := ⟨kind, index, 1, .running, params, [], 0, none, false, 0⟩
def withChans (l : List Chan) (s : State) : State := { s with cmd := { s.cmd with chans := s.cmd.chans ++ l } }
def fw0 (n : Nat) (l : List Chan) : FrameWork := ⟨n, false, 9, 1, l, [], true, [], [], 0, 0, [], [], [], false, 0, [], false, false, false, 0, none, (0, 0)⟩
def withFrame (w : FrameWork) (s : State) : State := { s with frames := w :: s.frames }
def ep3 : Chan := chan kEndpoint 3 [(0x0501, 0)]
def pail0 (num role : Nat) : Pail := ⟨num, role, 0, false, false, 0, 0, 0xFFF, 64, 4, 0, [], none, none, 0, []⟩
def withPails (l : List Pail) (s : State) : State := { s with par := { s.par with pails := l } }
def cmdS : State := (((withStr { st0 with caps := [⟨0, 1, 40⟩, ⟨0, 4, 5⟩, ⟨0, 5, 300⟩, ⟨0, 0x42, 16⟩, ⟨0, 0xD, 16⟩] } (withPails [pail0 0 0, pail0 1 1, pail0 2 1] warm)).putFlag F.CH_ROUTE_EN true 0).put F.CH_ROUTE_COMP_PAIL 1 0)
def dsc (op : Nat) : Desc := ⟨op, 0, 99, 0x04040000, 0xFF, 0, 0, 0, 0, 0, 0, false⟩
def actS (p : Nat) (follows : Bool) : State := (((warm.put F.SYS_MODE_STAT_POWER p).put F.SYS_MODE_STAT_ROLE 1).put F.RED_STAT_ROLE 1).putFlag F.RED_CTL_PAIR_EN true |>.modRed (fun r => { r with partner := some hbSt, follows := follows })
def srvStr : Structure := { st0 with engines := eng0 10 0xA :: (List.range 10).map (fun k => eng0 k (k + 1)) }
def srv (s : State) : State := (List.range 11).foldl (fun t e => t.put F.CE_STAT_STATE 2 e) (withStr srvStr s)
def tt0 : TileType := ⟨0, true, true, 5, [1, 2, 3], 10, 10, 10, 10, 10, 25, 5, []⟩
theorem accepts_of {s : State} {op p c : Nat} {d : Desc} (h : d.opcode = op ∧ d.unreadable = false ∧ s.flt.armed = none ∧
    (s.pail p).any (fun q => q.role == 0) = true ∧ s.route p = some c ∧ s.cmd.fenced.any (fun x => x.pail == p) = false ∧
    s.mustHold p c d = false ∧ (d.restricted = true → (s.takeItem p).mirroring = false ∧ (s.takeItem p).hasStandby = false) ∧
    (s.taken p c d).commandFail false d = none) : s.Accepts op p c d := by
  obtain ⟨h1, h2, h3, h4, h5, h6, h7, h8, h9⟩ := h
  refine ⟨h1, h2, h3, ?_, h5, h6, h7, h8, h9⟩
  cases hp : s.pail p with
  | none => rw [hp] at h4; cases h4
  | some q => rw [hp] at h4; exact ⟨q, rfl, by simpa using h4⟩


namespace C01
def step0 : State := { State.reset with pending := [.powerOn] }

theorem test_meets_StepRunsFrontCommand :
    (∃ (c : Instr), ∃ (rest : List Instr), ∃ (s : State), s.pending = c :: rest) :=
  ⟨.powerOn, [], step0, by decide +kernel⟩

theorem test_meets_IdleStepPassesTime :
    (∃ (s : State), s.pending = []) :=
  ⟨State.reset, by decide +kernel⟩

theorem test_meets_StepKeepsCanonical :
    (∃ (s : State), ∃ (t : State), s.canonical = true ∧ step s = .next t) :=
  ⟨State.reset, _, by decide +kernel, rfl⟩

theorem test_meets_ResetState :
    (∃ q, q ∈ ([ (R.SYS_ID, 1, 0x19612), (R.SYS_CAP0, 1, 0x86608C), (R.SYS_CAP1, 1, 0x40404080), (R.SYS_MODE_REQ, 1, 0x190), (R.SYS_MODE_STAT, 1, 0x190), (R.SYS_MODE_CTL, 1, 0x20), (R.STR_STAT, 1, 0xFF00), (R.CE_STAT, 12, 0xF00), (R.CH_CTL, 1, 0xC8), (R.CH_CUE_FREE, 1, 0x100000), (R.CMP_DITHER, 1, 0x2), (R.CMP_SCALER, 64, 0xF000), (R.WB_CTL, 16, 0x404), (R.GOV_CTL, 1, 0x40), (R.GOV_AMBIENT, 1, 0x190), (R.FIX_CTL, 1, 0x40), (R.P_CHAIN, 32, 0x400800), (R.P_CLK, 32, 0x19000FA), (R.P_PITCH, 32, 0x1000100), (R.TIM_CTL, 1, 0x9), (R.TIM_PTP_CFG, 1, 0xD3ED7F), (R.TIM_PTP_PRIO, 1, 0x8080), (R.TIM_SERVO, 1, 0x1388), (R.NET_WAKE_CTL, 1, 0x90000), (R.NET_WAKE_ETYPE, 1, 0x88B6), (R.NL_CTL, 25, 0x7D003FE), (R.NL_EQ_THR, 25, 0x1E10), (R.DBR_CTL, 1, 0x19006400), (R.DBR_SEM, 16, 0x7), (R.MEM_CTL, 1, 0xC0), (R.RED_CTL, 1, 0x4), (R.RED_BELLB, 1, 0x88B7), (R.PCR_CTL, 1, 0x1900), (R.PCR_WDOG_MC, 1, 0x3E8), (R.PCR_WDOG_BYRE, 1, 0x7D0), (R.PCR_BKP_VALID, 1, 0xFFFF), (R.FLT_INJ_SEL, 1, 0x10000), (R.TLY_CTL, 1, 0x40), (R.UPD_CTL, 1, 0x1E00)] : List (Field × Nat × Nat)) ∧ ∃ i, i < q.2.1) :=
  ⟨(R.SYS_ID, 1, 0x19612), by decide +kernel, 0, by decide +kernel⟩

end C01

namespace C02
def chg : RateChg := ⟨5, 9, 7, 11, 9, 4, 1⟩
def rc (s : State) (b sn : Nat) : State := s.modSys (fun y => { y with rateChg := some chg, nextB := b, nextS := sn })
def mt : ModeTrans := ⟨0, 9, 2, 1, 0, false, 0, false⟩
def mt0 : ModeTrans := ⟨0, 9, 1, 0, 0, false, 0, false⟩
def mt3 : ModeTrans := ⟨0, 9, 3, 0, 0, false, 0, false⟩
def tr (s : State) (m : ModeTrans) := s.modSys (fun y => { y with trans := some m })
def dh (p : Nat) : State := tr (actS p true) ⟨0, 9, 0, 0, 0, true, 0, false⟩

theorem test_meets_BackgroundEscalation :
    (∃ (s : State), ∃ (a : Fin 10), a.val ≠ 9 ∧ s.get F.SYS_BG_STAT_LEVEL a < 3) ∧
    (∃ (s : State), ∃ (a : Fin 10), (a.val = 9 ∨ s.get F.SYS_BG_STAT_LEVEL a = 3)) ∧
    (∃ (s : State), ∃ (a : Fin 10), s.sys.bg.length = 10 ∧ s.get F.SYS_BG_STAT_LEVEL a ≠ 0) ∧
    (∃ (s : State), ∃ (a : Fin 10), s.sys.bg.length = 10 ∧ s.get F.SYS_BG_STAT_LEVEL a = 0) :=
  ⟨⟨warm, 2, by decide +kernel, by decide +kernel⟩,
   ⟨warm, 9, by decide +kernel⟩,
   ⟨warm.put F.SYS_BG_STAT_LEVEL 1 3, 3, by decide +kernel, by decide +kernel⟩,
   ⟨warm, 0, by decide +kernel, by decide +kernel⟩⟩

theorem test_meets_AdvanceWriteStoresOrRefuses :
    (∃ (s : State), ∃ (w : Word), s.advanceRefusal (w.toNat % 16384) = none) ∧
    (∃ (s : State), ∃ (w : Word), ∃ (rule : Nat), s.advanceRefusal (w.toNat % 16384) = some rule) :=
  ⟨⟨warm, 300, by decide +kernel⟩,
   ⟨shw, 5, ((let s : State := shw; let w : Word := 5; s.advanceRefusal (w.toNat % 16384))).get (by decide +kernel), (Option.some_get _).symm⟩⟩

theorem test_meets_LatticeAndBoundaries :
    (∃ (s : State), s.sys.started = true ∧ ((∀ r, s.sys.rateChg = some r → s.sys.nextB ≤ r.lastB))) ∧
    (∃ (s : State), ∃ (n : Nat), n < 2 ^ 64 ∧ s.host.msixEnable = true ∧ s.host.msixMaskAll = false ∧ s.vectorMasked 1 = false) ∧
    (∃ (s : State), ∃ (r : RateChg), s.sys.started = true ∧ s.sys.rateChg = some r ∧ r.lastB < s.sys.nextB) ∧
    (∃ (s : State), ∃ (r : RateChg), s.sys.rateChg = some r ∧ r.lastB < s.sys.nextB ∧ (s.power = 3 ∨ r.last < s.sys.nextS)) ∧
    (∃ (s : State), ((∀ r, s.sys.rateChg = some r → s.sys.nextB ≤ r.lastB ∨ (s.power ≠ 3 ∧ s.sys.nextS ≤ r.last)))) ∧
    (∃ (s : State), ∃ (r : RateChg), s.sys.started = true ∧ s.sys.rateChg = some r ∧ r.newRate ≠ s.rate ∧ r.last < s.sys.nextS) ∧
    (∃ (s : State), ∃ (p : StepPlan), s.sys.rateChg = none ∧ s.tim.plan = some p ∧ p.done = false ∧ p.last < s.sys.nextS) ∧
    (∃ (s : State), s.sys.started = false) :=
  ⟨⟨rc warm 7 3, by decide +kernel, by decide +kernel⟩,
   ⟨warm.modHost (fun h => { h with msixEnable := true, msixTable := [(7, 0#32)] }), 4, by decide +kernel, by decide +kernel, by decide +kernel, by decide +kernel⟩,
   ⟨rc shw 8 6, ((let s : State := rc shw 8 6; s.sys.rateChg)).get (by decide +kernel), by decide +kernel, (Option.some_get _).symm, by decide +kernel⟩,
   ⟨rc shw 8 3, ((let s : State := rc shw 8 3; s.sys.rateChg)).get (by decide +kernel), (Option.some_get _).symm, by decide +kernel, by decide +kernel⟩,
   ⟨rc shw 7 5, by decide +kernel⟩,
   ⟨rc shw 8 6, ((let s : State := rc shw 8 6; s.sys.rateChg)).get (by decide +kernel), by decide +kernel, (Option.some_get _).symm, by decide +kernel, by decide +kernel⟩,
   ⟨{ (warm.modSys (fun y => { y with nextS := 7 })) with tim := { warm.tim with plan := some ⟨5, 4, 5, 6, false⟩ } }, ((let s : State := { (warm.modSys (fun y => { y with nextS := 7 })) with tim := { warm.tim with plan := some ⟨5, 4, 5, 6, false⟩ } }; s.tim.plan)).get (by decide +kernel), by decide +kernel, (Option.some_get _).symm, by decide +kernel, by decide +kernel⟩,
   ⟨State.reset, by decide +kernel⟩⟩

theorem test_meets_ModeRequestChecks :
    (∃ (s : State), ∃ (w : Word), bitAt w.toNat 31 = false) ∧
    (∃ (s : State), ∃ (w : Word), ∃ (n : Nat), ∃ (st : Nat), bitAt w.toNat 31 = true ∧ st ≠ stOK ∧ st < 16 ∧ firstFail ((s.setReg R.SYS_MODE_REQ.base (w &&& 0x17F3)).modeChecks false w.toNat) = (n, st)) ∧
    (∃ (s : State), ∃ (u : State), ∃ (w : Word), bitAt w.toNat 31 = true ∧ u = s.setReg R.SYS_MODE_REQ.base (w &&& 0x17F3) ∧ (firstFail (u.modeChecks false w.toNat)).2 = stOK ∧ u.mirroring = true) ∧
    (∃ (s : State), ∃ (u : State), ∃ (w : Word), bitAt w.toNat 31 = true ∧ u = s.setReg R.SYS_MODE_REQ.base (w &&& 0x17F3) ∧ (firstFail (u.modeChecks false w.toNat)).2 = stOK ∧ u.mirroring = false ∧ u.hasStandby = true) ∧
    (∃ (s : State), ∃ (u : State), ∃ (w : Word), bitAt w.toNat 31 = true ∧ u = s.setReg R.SYS_MODE_REQ.base (w &&& 0x17F3) ∧ (firstFail (u.modeChecks false w.toNat)).2 = stOK ∧ u.mirroring = false ∧ u.hasStandby = false) :=
  ⟨⟨warm, 0x31, by decide +kernel⟩,
   ⟨warm, 0x800001b0, (let s : State := warm; let w : Word := 0x800001b0; firstFail ((s.setReg R.SYS_MODE_REQ.base (w &&& 0x17F3)).modeChecks false w.toNat)).1, (let s : State := warm; let w : Word := 0x800001b0; firstFail ((s.setReg R.SYS_MODE_REQ.base (w &&& 0x17F3)).modeChecks false w.toNat)).2, by decide +kernel, by decide +kernel, by decide +kernel, rfl⟩,
   ⟨actS 1 true, (actS 1 true).setReg R.SYS_MODE_REQ.base (0x80000190 &&& 0x17F3), 0x80000190, by decide +kernel, by decide +kernel, by decide +kernel, by decide +kernel⟩,
   ⟨actS 1 false, (actS 1 false).setReg R.SYS_MODE_REQ.base (0x80000190 &&& 0x17F3), 0x80000190, by decide +kernel, by decide +kernel, by decide +kernel, by decide +kernel, by decide +kernel⟩,
   ⟨warm, (warm).setReg R.SYS_MODE_REQ.base (0x80000190 &&& 0x17F3), 0x80000190, by decide +kernel, by decide +kernel, by decide +kernel, by decide +kernel, by decide +kernel⟩⟩

theorem test_meets_ModeTransitions :
    (∃ (s : State), ∃ (v : State), ∃ (m : ModeTrans), s.sys.trans = some m ∧ s.powerReady m = true ∧ ((s.power = m.power ∧ v = s) ∨ (s.power = 1 ∧ m.power = 2 ∧ v = ((((s.enterHold s.sys.nextS 1).noteMode s.modeStat s.frameNum).gateEngines).ddMode 1 2 (((s.enterHold s.sys.nextS 1).noteMode s.modeStat s.frameNum).gateEngines).sys.nextS)))) ∧
    (∃ (s : State), ∃ (m : ModeTrans), s.sys.trans = some m ∧ s.powerReady m = true ∧ s.power = 1 ∧ m.power = 3) ∧
    (∃ (s : State), ((∀ m, s.sys.trans = some m → s.powerReady m = false ∨ (s.power ≠ m.power ∧ ¬ (s.power = 1 ∧ (m.power = 2 ∨ m.power = 3)))))) ∧
    (∃ (s : State), ((∀ m, s.sys.trans = some m → m.power = 0 ∨ s.power = 0 ∨ s.power = 3 ∨ decide (m.prec = 1) = s.skim))) ∧
    (∃ (s : State), ∃ (m : ModeTrans), s.sys.trans = some m ∧ m.power ≠ 0 ∧ s.power ≠ 0 ∧ s.power ≠ 3 ∧ decide (m.prec = 1) ≠ s.skim) ∧
    (∃ (s : State), (s.sys.trans.any (fun m => m.handover) = true) ∧ s.red.switching = none ∧ s.switchAllowed false = true) ∧
    (∃ (s : State), (s.sys.trans.any (fun m => m.handover) = false ∨ s.red.switching.isSome = true ∨ s.switchAllowed false = false)) :=
  ⟨⟨tr warm mt0, tr warm mt0, ((let s : State := tr warm mt0; s.sys.trans)).get (by decide +kernel), (Option.some_get _).symm, by decide +kernel, by decide +kernel⟩,
   ⟨tr warm mt3, ((let s : State := tr warm mt3; s.sys.trans)).get (by decide +kernel), (Option.some_get _).symm, by decide +kernel, by decide +kernel, by decide +kernel⟩,
   ⟨warm, by decide +kernel⟩,
   ⟨tr shw mt, by decide +kernel⟩,
   ⟨tr hold mt, ((let s : State := tr hold mt; s.sys.trans)).get (by decide +kernel), (Option.some_get _).symm, by decide +kernel, by decide +kernel, by decide +kernel, by decide +kernel⟩,
   ⟨dh 1, by decide +kernel, by decide +kernel, by decide +kernel⟩,
   ⟨tr (actS 1 true) mt, by decide +kernel⟩⟩

end C02

namespace C03
def ld0 : StrLoad := ⟨true, false, 0x10000, 4096, 5, none, 0, false, none, 0⟩
def sd0 : Standin := ⟨3, .replacement, 0, true, none, false⟩
def wl (s : State) (p : Nat) (l : Option StrLoad) (d : Option Standin) : State := { s.put F.STR_LOAD_STAT_PHASE p with str := { s.str with load := l, standin := d } }
def im (s : State) := (s.put R.STR_LOAD_ADDR_LO 0x10000).put R.STR_LOAD_LEN 4096

theorem test_meets_StructureLoadCompletes :
    (∃ (s : State), ∃ (l : StrLoad), s.str.load = some l ∧ s.strPhase = 1 ∧ l.image = none) ∧
    (∃ (s : State), ∃ (l : StrLoad), ∃ (st : Structure), s.str.load = some l ∧ l.image = some st ∧ st.partialImage = false) :=
  ⟨⟨wl (im warm) 1 (some ld0) none, ((let s : State := wl (im warm) 1 (some ld0) none; s.str.load)).get (by decide +kernel), (Option.some_get _).symm, by decide +kernel, by decide +kernel⟩,
   ⟨wl (im warm) 1 (some { ld0 with image := some st0 }) none, ((let s : State := wl (im warm) 1 (some { ld0 with image := some st0 }) none; s.str.load)).get (by decide +kernel), ((let l : StrLoad := ((let s : State := wl (im warm) 1 (some { ld0 with image := some st0 }) none; s.str.load)).get (by decide +kernel); l.image)).get (by decide +kernel), (Option.some_get _).symm, (Option.some_get _).symm, by decide +kernel⟩⟩

theorem test_meets_ReplacementsAndAborts :
    (∃ (s : State), ∃ (l : StrLoad), ∃ (d : Standin), ∃ (sp : Nat), s.str.load = some l ∧ s.str.standin = some d ∧ s.spare = some sp ∧ s.strPhase = 2 ∧ d.cause = .replacement) ∧
    (∃ (s : State), ∃ (d : Standin), ∃ (run : TestRun), s.str.standin = some d ∧ s.strPhase = 4 ∧ d.cause = .replacement ∧ d.engine < 12 ∧ s.serving d.engine = [] ∧ run.signature = run.reference) ∧
    (∃ (s : State), ∃ (d : Standin), ∃ (run : TestRun), s.str.standin = some d ∧ s.strPhase = 4 ∧ d.cause = .replacement ∧ s.serving d.engine = [] ∧ run.signature ≠ run.reference) ∧
    (∃ (s : State), ∃ (d : Standin), ∃ (reason : Nat), s.str.standin = some d ∧ s.strPhase = 4 ∧ d.cause = .replacement ∧ d.engine < 12) ∧
    (∃ (s : State), ∃ (l : StrLoad), ∃ (st : Structure), ∃ (part : Structure), s.strPhase = 5 ∧ s.str.inForce = some st ∧ s.str.load = some l ∧ l.image = some part) ∧
    (∃ (s : State), ∃ (l : StrLoad), s.str.load = some l ∧ s.strPhase = 1) ∧
    (∃ (s : State), ∃ (l : StrLoad), s.str.load = some l ∧ ((s.strPhase = 2 ∨ s.strPhase = 3)) ∧ (s.now : Int) + 1000000 * 65536 < s.sLattice l.frame) ∧
    (∃ (s : State), ∃ (l : StrLoad), s.str.load = some l ∧ ((s.strPhase = 4 ∨ s.strPhase = 5 ∨ ((s.strPhase = 2 ∨ s.strPhase = 3) ∧ s.sLattice l.frame ≤ (s.now : Int) + 1000000 * 65536)))) ∧
    (∃ (s : State), s.str.load = none ∧ s.strPhase = 0) :=
  ⟨⟨wl (sp warm) 2 (some { ld0 with image := some st0 }) (some sd0), ((let s : State := wl (sp warm) 2 (some { ld0 with image := some st0 }) (some sd0); s.str.load)).get (by decide +kernel), ((let s : State := wl (sp warm) 2 (some { ld0 with image := some st0 }) (some sd0); s.str.standin)).get (by decide +kernel), ((let s : State := wl (sp warm) 2 (some { ld0 with image := some st0 }) (some sd0); s.spare)).get (by decide +kernel), (Option.some_get _).symm, (Option.some_get _).symm, (Option.some_get _).symm, by decide +kernel, by decide +kernel⟩,
   ⟨wl (sp warm) 4 (some ld0) (some sd0), ((let s : State := wl (sp warm) 4 (some ld0) (some sd0); s.str.standin)).get (by decide +kernel), ⟨77, 77⟩, (Option.some_get _).symm, by decide +kernel, by decide +kernel, by decide +kernel, by decide +kernel, by decide +kernel⟩,
   ⟨wl (sp warm) 4 (some ld0) (some sd0), ((let s : State := wl (sp warm) 4 (some ld0) (some sd0); s.str.standin)).get (by decide +kernel), ⟨77, 78⟩, (Option.some_get _).symm, by decide +kernel, by decide +kernel, by decide +kernel, by decide +kernel⟩,
   ⟨wl (sp warm) 4 (some ld0) (some sd0), ((let s : State := wl (sp warm) 4 (some ld0) (some sd0); s.str.standin)).get (by decide +kernel), 1, (Option.some_get _).symm, by decide +kernel, by decide +kernel, by decide +kernel⟩,
   ⟨wl (sp warm) 5 (some { ld0 with image := some { st0 with partialImage := true } }) (some sd0), ((let s : State := wl (sp warm) 5 (some { ld0 with image := some { st0 with partialImage := true } }) (some sd0); s.str.load)).get (by decide +kernel), ((let s : State := wl (sp warm) 5 (some { ld0 with image := some { st0 with partialImage := true } }) (some sd0); s.str.inForce)).get (by decide +kernel), ((let l : StrLoad := ((let s : State := wl (sp warm) 5 (some { ld0 with image := some { st0 with partialImage := true } }) (some sd0); s.str.load)).get (by decide +kernel); l.image)).get (by decide +kernel), by decide +kernel, (Option.some_get _).symm, (Option.some_get _).symm, (Option.some_get _).symm⟩,
   ⟨wl warm 1 (some ld0) none, ((let s : State := wl warm 1 (some ld0) none; s.str.load)).get (by decide +kernel), (Option.some_get _).symm, by decide +kernel⟩,
   ⟨wl (sp warm) 3 (some {ld0 with frame := 500}) (some sd0), ((let s : State := wl (sp warm) 3 (some {ld0 with frame := 500}) (some sd0); s.str.load)).get (by decide +kernel), (Option.some_get _).symm, by decide +kernel, by decide +kernel⟩,
   ⟨wl (sp warm) 4 (some ld0) (some sd0), ((let s : State := wl (sp warm) 4 (some ld0) (some sd0); s.str.load)).get (by decide +kernel), (Option.some_get _).symm, by decide +kernel⟩,
   ⟨warm, by decide +kernel, by decide +kernel⟩⟩

end C03

namespace C04
def sgs (s : State) (f : SigTest → SigTest) : State := { s with sig := f s.sig }
def si (s : State) (d : Standin) : State := { s with str := { s.str with standin := some d } }
def it (n : Nat) (ph : ItemPhase) : Item := { newItem n 255 false with len := 64, phase := ph }
def busy (e : Nat) (s : State) : State := withPails [{ pail0 5 2 with items := [it 3 (.inService e)] }] s
def tg (s : State) : State := sgs s (fun x => { x with testing := some 4, refNow := 77 })
def rl (s : State) : State := s.modEng 3 (fun x => { x with reloading := some 3 })

theorem test_meets_SignatureTest :
    (∃ (s : State), ∃ (ref : Word), ∃ (sp : Nat), ∃ (e : Nat), ∃ (rest : List Nat), s.spare = some sp ∧ s.sig.stopped = false ∧ s.str.standin = none ∧ s.sig.testing = none ∧ s.testRotation = e :: rest) ∧
    (∃ (s : State), ∃ (ref : Word), ∃ (sp : Nat), s.spare = some sp ∧ s.sig.stopped = false ∧ s.str.standin = none ∧ s.sig.testing = none) ∧
    (∃ (s : State), ∃ (w : Word), ∃ (again : SigRepeat), ∃ (sp : Nat), ∃ (e : Nat), s.spare = some sp ∧ s.sig.testing = some e ∧ s.testRuns e = true ∧ s.flt.armed = none ∧ w.toNat = s.sig.refNow) ∧
    (∃ (s : State), ∃ (w : Word), ∃ (again : SigRepeat), ∃ (sp : Nat), ∃ (e : Nat), s.spare = some sp ∧ s.sig.testing = some e ∧ s.testRuns e = true ∧ s.flt.armed = none ∧ w.toNat ≠ s.sig.refNow ∧ again.spareOk = false) ∧
    (∃ (s : State), ∃ (w : Word), ∃ (again : SigRepeat), ∃ (sp : Nat), ∃ (e : Nat), s.spare = some sp ∧ s.sig.testing = some e ∧ s.testRuns e = true ∧ s.flt.armed = none ∧ w.toNat ≠ s.sig.refNow ∧ again.spareOk = true ∧ again.reference.toNat ≠ s.sig.refNow) ∧
    (∃ (s : State), ∃ (w : Word), ∃ (again : SigRepeat), ∃ (sp : Nat), ∃ (e : Nat), s.spare = some sp ∧ s.sig.testing = some e ∧ s.testRuns e = true ∧ s.flt.armed = none ∧ w.toNat ≠ s.sig.refNow ∧ again.spareOk = true ∧ again.reference.toNat = s.sig.refNow ∧ again.signature = again.reference) :=
  ⟨⟨sp shw, 77, ((let s : State := sp shw; s.spare)).get (by decide +kernel), 0, [1,3,4,5,6,7,8,9,10,11], (Option.some_get _).symm, by decide +kernel, by decide +kernel, by decide +kernel, by decide +kernel⟩,
   ⟨sp warm, 77, ((let s : State := sp warm; s.spare)).get (by decide +kernel), (Option.some_get _).symm, by decide +kernel, by decide +kernel, by decide +kernel⟩,
   ⟨tg (sp warm), 77, ⟨true, 77, 77⟩, ((let s : State := tg (sp warm); s.spare)).get (by decide +kernel), ((let s : State := tg (sp warm); s.sig.testing)).get (by decide +kernel), (Option.some_get _).symm, (Option.some_get _).symm, by decide +kernel, by decide +kernel, by decide +kernel⟩,
   ⟨tg (sp warm), 78, ⟨false, 77, 77⟩, ((let s : State := tg (sp warm); s.spare)).get (by decide +kernel), ((let s : State := tg (sp warm); s.sig.testing)).get (by decide +kernel), (Option.some_get _).symm, (Option.some_get _).symm, by decide +kernel, by decide +kernel, by decide +kernel, by decide +kernel⟩,
   ⟨tg (sp warm), 78, ⟨true, 76, 77⟩, ((let s : State := tg (sp warm); s.spare)).get (by decide +kernel), ((let s : State := tg (sp warm); s.sig.testing)).get (by decide +kernel), (Option.some_get _).symm, (Option.some_get _).symm, by decide +kernel, by decide +kernel, by decide +kernel, by decide +kernel, by decide +kernel⟩,
   ⟨tg (sp warm), 78, ⟨true, 77, 77⟩, ((let s : State := tg (sp warm); s.spare)).get (by decide +kernel), ((let s : State := tg (sp warm); s.sig.testing)).get (by decide +kernel), (Option.some_get _).symm, (Option.some_get _).symm, by decide +kernel, by decide +kernel, by decide +kernel, by decide +kernel, by decide +kernel, by decide +kernel⟩⟩

theorem test_meets_EngineFaultsAndQuarantine :
    (∃ (s : State), ∃ (e : Fin 12), ∃ (code : Nat), (code = 1 ∨ code = 3 ∨ code = 4 ∨ code = 5)) ∧
    (∃ (s : State), ∃ (e : Fin 12), s.overtime e = true) ∧
    (∃ (s : State), ∃ (e : Fin 12), s.overtime e = false) ∧
    (∃ (s : State), ∃ (e : Fin 12), ∃ (run : TestRun), (s.engAt e).reloading.isSome = true ∧ (s.str.standin.any (fun d => d.engine == e.val) = false)) ∧
    (∃ (s : State), ∃ (e : Fin 12), ∃ (run : TestRun), ∃ (d : Standin), s.str.standin = some d ∧ d.engine = e.val ∧ ((s.engAt e).reloading.isSome = true ∨ s.get F.CE_STAT_STATE e = 1)) ∧
    (∃ (s : State), ∃ (e : Fin 12), s.get F.CE_STAT_STATE e = 4) ∧
    (∃ (s : State), ∃ (e : Fin 12), s.get F.CE_STAT_STATE e ≠ 4) ∧
    (∃ (s : State), ∃ (e : Fin 12), quarantineCause e s ≠ 0) ∧
    (∃ (s : State), ∃ (e : Fin 12), quarantineCause e s = 0 ∧ s.str.standin = none) ∧
    (∃ (s : State), ∃ (e : Fin 12), ∃ (d : Standin), quarantineCause e s = 0 ∧ s.str.standin = some d ∧ d.engine = e.val ∧ d.active = true) ∧
    (∃ (s : State), ∃ (e : Fin 12), ((∀ d, s.str.standin = some d → d.engine ≠ e.val ∨ d.cause ≠ .quarantine))) ∧
    (∃ (s : State), ∃ (e : Fin 12), ∃ (d : Standin), s.str.standin = some d ∧ d.engine = e.val ∧ d.cause = .quarantine) :=
  ⟨⟨sp shw, 3, 4, by decide +kernel⟩,
   ⟨{ busy 3 (sp shw) with now := 999999999999999 }, 3, by decide +kernel⟩,
   ⟨busy 3 (sp shw), 3, by decide +kernel⟩,
   ⟨rl (sp shw), 3, ⟨5, 0⟩, by decide +kernel, by decide +kernel⟩,
   ⟨si (rl (sp shw)) ⟨3, .fault, 0, true, none, false⟩, 3, ⟨5, 5⟩, ((let s : State := si (rl (sp shw)) ⟨3, .fault, 0, true, none, false⟩; s.str.standin)).get (by decide +kernel), (Option.some_get _).symm, by decide +kernel, by decide +kernel⟩,
   ⟨(sp shw).put F.CE_STAT_STATE 4 3, 3, by decide +kernel⟩,
   ⟨sp shw, 3, by decide +kernel⟩,
   ⟨warm, 3, by decide +kernel⟩,
   ⟨sp warm, 3, by decide +kernel, by decide +kernel⟩,
   ⟨si (tg (sp shw)) ⟨4, .signature, 0, true, none, false⟩, 4, ((let s : State := si (tg (sp shw)) ⟨4, .signature, 0, true, none, false⟩; s.str.standin)).get (by decide +kernel), by decide +kernel, (Option.some_get _).symm, by decide +kernel, by decide +kernel⟩,
   ⟨si (sp shw) ⟨4, .signature, 0, true, none, false⟩, 4, by decide +kernel⟩,
   ⟨si (sp shw) ⟨4, .quarantine, 0, true, none, false⟩, 4, ((let s : State := si (sp shw) ⟨4, .quarantine, 0, true, none, false⟩; s.str.standin)).get (by decide +kernel), (Option.some_get _).symm, by decide +kernel, by decide +kernel⟩⟩

end C04

namespace C05
def lay : Chan := chan 1 0
def cs := withChans [lay] cmdS
def ac (n : Nat) : Desc := { dsc n with frame := 900 }
def row1 : (Fin 256 → Desc → Instr) × Nat := (.query, opQuery)
def pairS (f : Bool) : State := (cs.put F.SYS_MODE_STAT_ROLE 1).modRed (fun r => { r with partner := some hbSt, follows := f })
def d0 (n : Nat) : Desc := { dsc n with handle := 0 }
def cue : Chan := { chan 13 0 with st := .stopped }
def csS := withChans [{ lay with st := .stopped }, cue] cmdS
def hq : Nat := mkHandle 13 1 0
def def1 : Deferred := ⟨3, 900, false, 99, opCommit, .commit 3 false⟩
def badCs : State := let s := withChans [{ chan 2 0 with st := .stopped }] cmdS; { s with cmd := { s.cmd with sets := s.cmd.sets.modify 3 (fun x => { x with entries := [.run (mkHandle 2 1 0) true], locked := true }) } }
def row2 : (Fin 256 → Desc → Instr) × Nat := (.stop, opStop)

theorem test_meets_CommandUnitTakesCommands :
    (∃ row, row ∈ [(Instr.create, opCreate), (.destroy, opDestroy), (.start, opStart), (.stop, opStop), (.setParam, opSetParam), (.getParam, opGetParam), (.clearSet, opClearSet), (.copySet, opCopySet), (.commit, opCommit), (.cancel, opCancel), (.cueStore, opCueStore), (.cueLoad, opCueLoad), (.cueFire, opCueFire), (.wait, opWait), (.query, opQuery)] ∧ ∃ (s : State), ∃ (p : Fin 256), ∃ (d : Desc), s.flt.armed = none ∧ s.pail p = none) ∧
    (∃ row, row ∈ [(Instr.create, opCreate), (.destroy, opDestroy), (.start, opStart), (.stop, opStop), (.setParam, opSetParam), (.getParam, opGetParam), (.clearSet, opClearSet), (.copySet, opCopySet), (.commit, opCommit), (.cancel, opCancel), (.cueStore, opCueStore), (.cueLoad, opCueLoad), (.cueFire, opCueFire), (.wait, opWait), (.query, opQuery)] ∧ ∃ (s : State), ∃ (p : Fin 256), ∃ (d : Desc), s.flt.armed = none ∧ ∃ q, s.pail p = some q ∧ q.role ≠ 0 ∧ d.unreadable = false) ∧
    (∃ row, row ∈ [(Instr.create, opCreate), (.destroy, opDestroy), (.start, opStart), (.stop, opStop), (.setParam, opSetParam), (.getParam, opGetParam), (.clearSet, opClearSet), (.copySet, opCopySet), (.commit, opCommit), (.cancel, opCancel), (.cueStore, opCueStore), (.cueLoad, opCueLoad), (.cueFire, opCueFire), (.wait, opWait), (.query, opQuery)] ∧ ∃ (s : State), ∃ (p : Fin 256), ∃ (d : Desc), s.flt.armed = none ∧ ∃ q, s.pail p = some q ∧ q.role = 0 ∧ d.unreadable = false ∧ s.route p = none) ∧
    (∃ row, row ∈ [(Instr.create, opCreate), (.destroy, opDestroy), (.start, opStart), (.stop, opStop), (.setParam, opSetParam), (.getParam, opGetParam), (.clearSet, opClearSet), (.copySet, opCopySet), (.commit, opCommit), (.cancel, opCancel), (.cueStore, opCueStore), (.cueLoad, opCueLoad), (.cueFire, opCueFire), (.wait, opWait), (.query, opQuery)] ∧ ∃ (s : State), ∃ (p : Fin 256), ∃ (d : Desc), s.flt.armed = none ∧ let e := d.inRow row.2; ∃ q, ∃ c, s.pail p = some q ∧ q.role = 0 ∧ d.unreadable = false ∧ s.route p = some c ∧ (s.cmd.fenced.any (fun x => x.pail == p.val) = true ∨ s.mustHold p c e = true)) ∧
    (∃ row, row ∈ [(Instr.create, opCreate), (.destroy, opDestroy), (.start, opStart), (.stop, opStop), (.setParam, opSetParam), (.getParam, opGetParam), (.clearSet, opClearSet), (.copySet, opCopySet), (.commit, opCommit), (.cancel, opCancel), (.cueStore, opCueStore), (.cueLoad, opCueLoad), (.cueFire, opCueFire), (.wait, opWait), (.query, opQuery)] ∧ ∃ (s : State), ∃ (p : Fin 256), ∃ (d : Desc), s.flt.armed = none ∧ let e := d.inRow row.2; ∃ (q : Pail), ∃ (c : Nat), ∃ (r : State), s.pail p = some q ∧ q.role = 0 ∧ d.unreadable = true ∧ r = (if q.bulk then s else s.detect 0x0F) ∧ r.route p = some c ∧ (r.cmd.fenced.any (fun x => x.pail == p.val) = false) ∧ r.mustHold p c e = false) ∧
    (∃ row, row ∈ [(Instr.create, opCreate), (.destroy, opDestroy), (.start, opStart), (.stop, opStop), (.setParam, opSetParam), (.getParam, opGetParam), (.clearSet, opClearSet), (.copySet, opCopySet), (.commit, opCommit), (.cancel, opCancel), (.cueStore, opCueStore), (.cueLoad, opCueLoad), (.cueFire, opCueFire), (.wait, opWait), (.query, opQuery)] ∧ ∃ (s : State), ∃ (p : Fin 256), ∃ (d : Desc), s.flt.armed = none ∧ let e := d.inRow row.2; ∃ (q : Pail), ∃ (c : Nat), ∃ (id : Nat), ∃ (u : State), ∃ (v : State), s.pail p = some q ∧ q.role = 0 ∧ d.unreadable = false ∧ s.route p = some c ∧ (s.cmd.fenced.any (fun x => x.pail == p.val) = false) ∧ s.mustHold p c e = false ∧ u = s.takeItem p ∧ v = s.taken p c e ∧ id = u.cmd.nextId ∧ ((u.mirroring = false ∧ u.hasStandby = false) ∨ e.restricted = false ∨ (u.commandFail false e).isSome = true) ∧ ∃ check, ∃ status, ∃ pos, v.commandFail false e = some (check, status, pos)) ∧
    (∃ row, row ∈ [(Instr.create, opCreate), (.destroy, opDestroy), (.start, opStart), (.stop, opStop), (.setParam, opSetParam), (.getParam, opGetParam), (.clearSet, opClearSet), (.copySet, opCopySet), (.commit, opCommit), (.cancel, opCancel), (.cueStore, opCueStore), (.cueLoad, opCueLoad), (.cueFire, opCueFire), (.wait, opWait), (.query, opQuery)] ∧ ∃ (s : State), ∃ (p : Fin 256), ∃ (d : Desc), s.flt.armed = none ∧ let e := d.inRow row.2; ∃ (q : Pail), ∃ (c : Nat), ∃ (id : Nat), ∃ (u : State), ∃ (v : State), s.pail p = some q ∧ q.role = 0 ∧ d.unreadable = false ∧ s.route p = some c ∧ (s.cmd.fenced.any (fun x => x.pail == p.val) = false) ∧ s.mustHold p c e = false ∧ u = s.takeItem p ∧ v = s.taken p c e ∧ id = u.cmd.nextId ∧ ((u.mirroring = false ∧ u.hasStandby = false) ∨ e.restricted = false ∨ (u.commandFail false e).isSome = true) ∧ v.commandFail false e = none) ∧
    (∃ row, row ∈ [(Instr.create, opCreate), (.destroy, opDestroy), (.start, opStart), (.stop, opStop), (.setParam, opSetParam), (.getParam, opGetParam), (.clearSet, opClearSet), (.copySet, opCopySet), (.commit, opCommit), (.cancel, opCancel), (.cueStore, opCueStore), (.cueLoad, opCueLoad), (.cueFire, opCueFire), (.wait, opWait), (.query, opQuery)] ∧ ∃ (s : State), ∃ (p : Fin 256), ∃ (d : Desc), s.flt.armed = none ∧ let e := d.inRow row.2; ∃ (q : Pail), ∃ (c : Nat), ∃ (id : Nat), ∃ (u : State), ∃ (v : State), s.pail p = some q ∧ q.role = 0 ∧ d.unreadable = false ∧ s.route p = some c ∧ (s.cmd.fenced.any (fun x => x.pail == p.val) = false) ∧ s.mustHold p c e = false ∧ u = s.takeItem p ∧ v = s.taken p c e ∧ id = u.cmd.nextId ∧ u.commandFail false e = none ∧ u.mirroring = true ∧ e.restricted = true) ∧
    (∃ row, row ∈ [(Instr.create, opCreate), (.destroy, opDestroy), (.start, opStart), (.stop, opStop), (.setParam, opSetParam), (.getParam, opGetParam), (.clearSet, opClearSet), (.copySet, opCopySet), (.commit, opCommit), (.cancel, opCancel), (.cueStore, opCueStore), (.cueLoad, opCueLoad), (.cueFire, opCueFire), (.wait, opWait), (.query, opQuery)] ∧ ∃ (s : State), ∃ (p : Fin 256), ∃ (d : Desc), s.flt.armed = none ∧ let e := d.inRow row.2; ∃ (q : Pail), ∃ (c : Nat), ∃ (id : Nat), ∃ (u : State), ∃ (v : State), s.pail p = some q ∧ q.role = 0 ∧ d.unreadable = false ∧ s.route p = some c ∧ (s.cmd.fenced.any (fun x => x.pail == p.val) = false) ∧ s.mustHold p c e = false ∧ u = s.takeItem p ∧ v = s.taken p c e ∧ id = u.cmd.nextId ∧ u.commandFail false e = none ∧ u.mirroring = false ∧ u.hasStandby = true ∧ e.restricted = true) :=
  ⟨⟨row1, by simp [row1, row2], warm, 0, dsc opQuery, by decide +kernel, by decide +kernel⟩,
   ⟨row1, by simp [row1, row2], cs, 1, dsc opQuery, by decide +kernel, ((let s : State := cs; let p : Fin 256 := 1; s.pail p)).get (by decide +kernel), (Option.some_get _).symm, by decide +kernel, by decide +kernel⟩,
   ⟨row1, by simp [row1, row2], cs.putFlag F.CH_ROUTE_EN false 0, 0, dsc opQuery, by decide +kernel, ((let s : State := cs.putFlag F.CH_ROUTE_EN false 0; let p : Fin 256 := 0; s.pail p)).get (by decide +kernel), (Option.some_get _).symm, by decide +kernel, by decide +kernel, by decide +kernel⟩,
   ⟨row1, by simp [row1, row2], { cs with cmd := { cs.cmd with fenced := [⟨0, dsc opQuery, none⟩] } }, 0, dsc opQuery, by decide +kernel, ((let s : State := { cs with cmd := { cs.cmd with fenced := [⟨0, dsc opQuery, none⟩] } }; let p : Fin 256 := 0; s.pail p)).get (by decide +kernel), ((let s : State := { cs with cmd := { cs.cmd with fenced := [⟨0, dsc opQuery, none⟩] } }; let p : Fin 256 := 0; s.route p)).get (by decide +kernel), (Option.some_get _).symm, by decide +kernel, by decide +kernel, (Option.some_get _).symm, by decide +kernel⟩,
   ⟨row1, by simp [row1, row2], cs, 0, { dsc opQuery with unreadable := true }, by decide +kernel, ((let s : State := cs; let p : Fin 256 := 0; s.pail p)).get (by decide +kernel), 1, _, (Option.some_get _).symm, by decide +kernel, by decide +kernel, rfl, by decide +kernel, by decide +kernel, by decide +kernel⟩,
   ⟨row1, by simp [row1, row2], cs, 0, { dsc opQuery with set := 5 }, by decide +kernel, ((let s : State := cs; let p : Fin 256 := 0; s.pail p)).get (by decide +kernel), ((let s : State := cs; let p : Fin 256 := 0; s.route p)).get (by decide +kernel), (cs.takeItem 0).cmd.nextId, _, _, (Option.some_get _).symm, by decide +kernel, by decide +kernel, (Option.some_get _).symm, by decide +kernel, by decide +kernel, rfl, rfl, by decide +kernel, by decide +kernel, (((let row := row1; let d : Desc := { dsc opQuery with set := 5 }; let v : State := (let row := row1; let s : State := cs; let p : Fin 256 := 0; let d : Desc := { dsc opQuery with set := 5 }; let c : Nat := ((let s : State := cs; let p : Fin 256 := 0; s.route p)).get (by decide +kernel); let e := d.inRow row.2; s.taken p c e); let e := d.inRow row.2; v.commandFail false e)).get (by decide +kernel)).1, (((let row := row1; let d : Desc := { dsc opQuery with set := 5 }; let v : State := (let row := row1; let s : State := cs; let p : Fin 256 := 0; let d : Desc := { dsc opQuery with set := 5 }; let c : Nat := ((let s : State := cs; let p : Fin 256 := 0; s.route p)).get (by decide +kernel); let e := d.inRow row.2; s.taken p c e); let e := d.inRow row.2; v.commandFail false e)).get (by decide +kernel)).2.1, (((let row := row1; let d : Desc := { dsc opQuery with set := 5 }; let v : State := (let row := row1; let s : State := cs; let p : Fin 256 := 0; let d : Desc := { dsc opQuery with set := 5 }; let c : Nat := ((let s : State := cs; let p : Fin 256 := 0; s.route p)).get (by decide +kernel); let e := d.inRow row.2; s.taken p c e); let e := d.inRow row.2; v.commandFail false e)).get (by decide +kernel)).2.2, by decide +kernel⟩,
   ⟨row1, by simp [row1, row2], cs, 0, dsc opQuery, by decide +kernel, ((let s : State := cs; let p : Fin 256 := 0; s.pail p)).get (by decide +kernel), ((let s : State := cs; let p : Fin 256 := 0; s.route p)).get (by decide +kernel), (cs.takeItem 0).cmd.nextId, _, _, (Option.some_get _).symm, by decide +kernel, by decide +kernel, (Option.some_get _).symm, by decide +kernel, by decide +kernel, rfl, rfl, by decide +kernel, by decide +kernel, by decide +kernel⟩,
   ⟨row2, by simp [row1, row2], pairS true, 0, ac opStop, by decide +kernel, ((let s : State := pairS true; let p : Fin 256 := 0; s.pail p)).get (by decide +kernel), ((let s : State := pairS true; let p : Fin 256 := 0; s.route p)).get (by decide +kernel), ((pairS true).takeItem 0).cmd.nextId, _, _, (Option.some_get _).symm, by decide +kernel, by decide +kernel, (Option.some_get _).symm, by decide +kernel, by decide +kernel, rfl, rfl, by decide +kernel, by decide +kernel, by decide +kernel, by decide +kernel⟩,
   ⟨row2, by simp [row1, row2], pairS false, 0, ac opStop, by decide +kernel, ((let s : State := pairS false; let p : Fin 256 := 0; s.pail p)).get (by decide +kernel), ((let s : State := pairS false; let p : Fin 256 := 0; s.route p)).get (by decide +kernel), ((pairS false).takeItem 0).cmd.nextId, _, _, (Option.some_get _).symm, by decide +kernel, by decide +kernel, (Option.some_get _).symm, by decide +kernel, by decide +kernel, rfl, rfl, by decide +kernel, by decide +kernel, by decide +kernel, by decide +kernel, by decide +kernel⟩⟩

theorem test_meets_AcceptedCommands :
    (∃ (s : State), ∃ (p : Fin 256), ∃ (c : Nat), ∃ (d : Desc), s.Accepts opDestroy p c d) ∧
    (∃ (s : State), ∃ (p : Fin 256), ∃ (c : Nat), ∃ (d : Desc), s.Accepts opStart p c d ∧ d.inSet = false) ∧
    (∃ (s : State), ∃ (p : Fin 256), ∃ (c : Nat), ∃ (d : Desc), s.Accepts opStart p c d ∧ d.inSet = true) ∧
    (∃ (s : State), ∃ (p : Fin 256), ∃ (c : Nat), ∃ (d : Desc), s.Accepts opStop p c d ∧ d.inSet = false) ∧
    (∃ (s : State), ∃ (p : Fin 256), ∃ (c : Nat), ∃ (d : Desc), s.Accepts opStop p c d ∧ d.inSet = true) ∧
    (∃ (s : State), ∃ (p : Fin 256), ∃ (c : Nat), ∃ (d : Desc), s.Accepts opGetParam p c d) ∧
    (∃ (s : State), ∃ (p : Fin 256), ∃ (c : Nat), ∃ (d : Desc), s.Accepts opClearSet p c d) ∧
    (∃ (s : State), ∃ (p : Fin 256), ∃ (c : Nat), ∃ (d : Desc), s.Accepts opCopySet p c d) ∧
    (∃ (s : State), ∃ (p : Fin 256), ∃ (c : Nat), ∃ (d : Desc), s.Accepts opCommit p c d) ∧
    (∃ (s : State), ∃ (p : Fin 256), ∃ (c : Nat), ∃ (d : Desc), s.Accepts opCueStore p c d) ∧
    (∃ (s : State), ∃ (p : Fin 256), ∃ (c : Nat), ∃ (d : Desc), s.Accepts opCueLoad p c d) ∧
    (∃ (s : State), ∃ (p : Fin 256), ∃ (c : Nat), ∃ (d : Desc), s.Accepts opCueFire p c d) ∧
    (∃ (s : State), ∃ (p : Fin 256), ∃ (c : Nat), ∃ (d : Desc), s.Accepts opWait p c d ∧ d.frame = 0) ∧
    (∃ (s : State), ∃ (p : Fin 256), ∃ (c : Nat), ∃ (d : Desc), s.Accepts opWait p c d ∧ d.frame ≠ 0) :=
  ⟨⟨cs, 0, 1, ac opDestroy, accepts_of (by decide +kernel)⟩,
   ⟨csS, 0, 1, ac opStart, accepts_of (by decide +kernel), by decide +kernel⟩,
   ⟨cs, 0, 1, { dsc opStart with set := 3 }, accepts_of (by decide +kernel), by decide +kernel⟩,
   ⟨cs, 0, 1, ac opStop, accepts_of (by decide +kernel), by decide +kernel⟩,
   ⟨cs, 0, 1, { dsc opStop with set := 3 }, accepts_of (by decide +kernel), by decide +kernel⟩,
   ⟨cs, 0, 1, { dsc opGetParam with param := 0x0101 }, accepts_of (by decide +kernel)⟩,
   ⟨cs, 0, 1, { d0 opClearSet with set := 3 }, accepts_of (by decide +kernel)⟩,
   ⟨cs, 0, 1, { d0 opCopySet with set := 3, aux := 4 }, accepts_of (by decide +kernel)⟩,
   ⟨cs, 0, 1, { d0 opCommit with frame := 900, set := 3 }, accepts_of (by decide +kernel)⟩,
   ⟨csS, 0, 1, { dsc opCueStore with set := 3, handle := hq }, accepts_of (by decide +kernel)⟩,
   ⟨csS, 0, 1, { dsc opCueLoad with set := 3, handle := hq }, accepts_of (by decide +kernel)⟩,
   ⟨csS, 0, 1, { ac opCueFire with handle := hq }, accepts_of (by decide +kernel)⟩,
   ⟨cs, 0, 1, d0 opWait, accepts_of (by decide +kernel), by decide +kernel⟩,
   ⟨cs, 0, 1, { d0 opWait with frame := 900 }, accepts_of (by decide +kernel), by decide +kernel⟩⟩

theorem test_meets_RefusedCommitsAndDrains :
    (∃ (s : State), ∃ (d : Deferred), ∃ (n : Nat), ∃ (m : Nat), ∃ (keep : Bool), d.act = .commit m keep ∧ m < s.cmd.sets.length ∧ ((((s.copyLists n (s.setAt m).entries).applyEntries (s.setAt m).entries).consistency s n).2.1 ≠ stOK)) ∧
    (∃ (s : State), ∃ (kind : Nat), ∃ (index : Nat), ∃ (c : Chan), s.chanAt kind index = some c ∧ c.st = .draining) ∧
    (∃ (s : State), ∃ (kind : Nat), ∃ (index : Nat), ((s.chanAt kind index).any (fun c => decide (c.st = .draining)) = false)) :=
  ⟨⟨badCs, def1, 900, 3, false, by decide +kernel, by decide +kernel, by decide +kernel⟩,
   ⟨withChans [{ lay with st := .draining }] cmdS, 1, 0, ((let s : State := withChans [{ lay with st := .draining }] cmdS; let kind : Nat := 1; let index : Nat := 0; s.chanAt kind index)).get (by decide +kernel), (Option.some_get _).symm, by decide +kernel⟩,
   ⟨cs, 1, 0, by decide +kernel⟩⟩

end C05

namespace C06
def f0 : Chan := chan kFeed 5 [(0x0702, 20000), (0x0701, 100)]
def gs := srv (withFrame (fw0 7 [ep3, f0]) shw)
def ft (k : Nat) : State := let s := (srv (withChans [{ ep3 with params := [(0x0501, 0), (0x0520, 0)] }] shw)).putFlag F.GOV_CTL_FIT_EN true 0
  { s with gov := { s.gov with types := [tt0] } }.setGovEp { s.govEp 3 with reports := (List.range 16).map (fun (i : Nat) => { time := s.uptime, rise := ((k * i : Nat) : Rat), meas := ((5 * i : Nat) : Rat) }) }

theorem test_meets_FeedScaleIsWithinLimits :
    (∃ (s : State), ∃ (f : Chan), ∃ (on : List EpDraw), f.st = .running ∧ let q := s.feedScale f on; let g := q.2.2; g.dyn = 0) ∧
    (∃ (s : State), ∃ (f : Chan), ∃ (on : List EpDraw), f.st = .running ∧ let q := s.feedScale f on; let g := q.2.2; g.dyn ≠ 0 ∧ (32768 * (g.allow - g.c0) / g.dyn).floor < 0) ∧
    (∃ (s : State), ∃ (f : Chan), ∃ (on : List EpDraw), f.st = .running ∧ let q := s.feedScale f on; let g := q.2.2; g.dyn ≠ 0 ∧ 0 ≤ (32768 * (g.allow - g.c0) / g.dyn).floor) ∧
    (∃ (s : State), ∃ (f : Chan), ∃ (on : List EpDraw), f.st = .running ∧ let q := s.feedScale f on; let g := q.2.2; 0 < g.dyn ∧ q.2.1 ≠ 3) :=
  ⟨⟨warm, f0, [], by decide +kernel, by decide +kernel⟩,
   ⟨warm, f0, [⟨ep3, [], [], 0, 110, 500⟩], by decide +kernel, by decide +kernel, by decide +kernel⟩,
   ⟨warm, f0, [⟨ep3, [], [], 0, 10, 500⟩], by decide +kernel, by decide +kernel, by decide +kernel⟩,
   ⟨warm, f0, [⟨ep3, [], [], 0, 10, 500⟩], by decide +kernel, by decide +kernel, by decide +kernel⟩⟩

theorem test_meets_Forecasts :
    (∃ (s : State), ∃ (n : Nat), ∃ (w : FrameWork), s.frameWork n = some w ∧ w.forecastDone = false ∧ 2 ≤ s.power ∧ s.kindServed 5 = true ∧ s.now ≤ s.sAt n + periodOf s.rate / 16) ∧
    (∃ (s : State), ∃ (n : Nat), ∃ (w : FrameWork), s.frameWork n = some w ∧ w.forecastDone = false ∧ 2 ≤ s.power ∧ s.kindServed 5 = true ∧ s.sAt n + periodOf s.rate / 16 < s.now) ∧
    (∃ (s : State), ∃ (n : Nat), ((∀ w, s.frameWork n = some w → w.forecastDone = true) ∨ s.power < 2)) ∧
    (∃ (s : State), ∃ (n : Nat), s.kindServed 5 = false) ∧
    (∃ (s : State), ∃ (n : Nat), ∃ (w : FrameWork), s.frameWork n = some w ∧ w.forecastDone = false ∧ 2 ≤ s.power) :=
  ⟨⟨gs, 7, ((let s : State := gs; let n : Nat := 7; s.frameWork n)).get (by decide +kernel), (Option.some_get _).symm, by decide +kernel, by decide +kernel, by decide +kernel, by decide +kernel⟩,
   ⟨{ gs with now := 900000000000000 }, 7, ((let s : State := { gs with now := 900000000000000 }; let n : Nat := 7; s.frameWork n)).get (by decide +kernel), (Option.some_get _).symm, by decide +kernel, by decide +kernel, by decide +kernel, by decide +kernel⟩,
   ⟨srv (withFrame (fw0 7 [ep3]) warm), 7, by decide +kernel⟩,
   ⟨withFrame (fw0 7 [ep3]) shw, 7, by decide +kernel⟩,
   ⟨gs, 7, ((let s : State := gs; let n : Nat := 7; s.frameWork n)).get (by decide +kernel), (Option.some_get _).symm, by decide +kernel, by decide +kernel⟩⟩

theorem test_meets_ModelUpdateKeepsBiasBounds :
    (∃ (s : State), ∃ (n : Nat), ∃ (w : FrameWork), s.frameWork n = some w ∧ w.sumsDone = true ∧ w.updated = false ∧ s.kindServed 5 = true) ∧
    (∃ (s : State), ∃ (n : Nat), ((∀ w, s.frameWork n = some w → w.updated = true ∨ w.sumsDone = false) ∨ s.kindServed 5 = false)) :=
  ⟨⟨srv (withFrame { fw0 7 [ep3, f0] with sumsDone := true } shw), 7, ((let s : State := srv (withFrame { fw0 7 [ep3, f0] with sumsDone := true } shw); let n : Nat := 7; s.frameWork n)).get (by decide +kernel), (Option.some_get _).symm, by decide +kernel, by decide +kernel, by decide +kernel⟩,
   ⟨withFrame { fw0 7 [ep3, f0] with sumsDone := true } shw, 7, by decide +kernel⟩⟩

theorem test_meets_UnsentBandsAndTelemetry :
    (∃ (s : State), ∃ (n : Nat), ∃ (e : Fin 4096), ∃ (w : FrameWork), ∃ (c : Chan), s.frameWork n = some w ∧ ((w.running kEndpoint).find? (fun c => c.index == e.val) = some c) ∧ w.active = true ∧ w.sumsDone = false) ∧
    (∃ (s : State), ∃ (n : Nat), ∃ (c : Chan), ∃ (band : Nat), ∃ (w : FrameWork), s.frameWork n = some w ∧ (w.sumsOf c.index).repeated = false) ∧
    (∃ (s : State), ∃ (n : Nat), ∃ (c : Chan), ∃ (band : Nat), ((s.frameWork n).any (fun w => !(w.sumsOf c.index).repeated) = false)) ∧
    (∃ (s : State), ∃ (e : Fin 4096), ∃ (c : Chan), s.chanAt kEndpoint e = some c ∧ s.flag F.EPG_FIT_STALE e = false) ∧
    (∃ (s : State), ∃ (e : Fin 4096), ∃ (c : Chan), ∃ (q : Rat × Rat), s.chanAt kEndpoint e = some c ∧ s.flag F.GOV_CTL_FIT_EN = true ∧ (s.thermType c).isSome = true ∧ s.role ≠ 2 ∧ s.hasStandby = false ∧ s.mirroring = false ∧ (fitReports (s.govEp e).sigma ((s.govEp e).reports.filter (fun r => decide (s.uptime < r.time + 60 * oneSecond))) = some q)) :=
  ⟨⟨withFrame (fw0 7 [ep3]) warm, 7, 3, ((let s : State := withFrame (fw0 7 [ep3]) warm; let n : Nat := 7; s.frameWork n)).get (by decide +kernel), ((let e : Fin 4096 := 3; let w : FrameWork := ((let s : State := withFrame (fw0 7 [ep3]) warm; let n : Nat := 7; s.frameWork n)).get (by decide +kernel); (w.running kEndpoint).find? (fun c => c.index == e.val))).get (by decide +kernel), (Option.some_get _).symm, (Option.some_get _).symm, by decide +kernel, by decide +kernel⟩,
   ⟨withFrame (fw0 7 [ep3]) warm, 7, ep3, 4, ((let s : State := withFrame (fw0 7 [ep3]) warm; let n : Nat := 7; s.frameWork n)).get (by decide +kernel), (Option.some_get _).symm, by decide +kernel⟩,
   ⟨warm, 7, ep3, 4, by decide +kernel⟩,
   ⟨withChans [ep3] warm, 3, ((let s : State := withChans [ep3] warm; let e : Fin 4096 := 3; s.chanAt kEndpoint e)).get (by decide +kernel), (Option.some_get _).symm, by decide +kernel⟩,
   ⟨ft 5, 3, ((let s : State := ft 5; let e : Fin 4096 := 3; s.chanAt kEndpoint e)).get (by decide +kernel), ((let s : State := ft 5; let e : Fin 4096 := 3; fitReports (s.govEp e).sigma ((s.govEp e).reports.filter (fun r => decide (s.uptime < r.time + 60 * oneSecond))))).get (by decide +kernel), (Option.some_get _).symm, by decide +kernel, by decide +kernel, by decide +kernel, by decide +kernel, by decide +kernel, (Option.some_get _).symm⟩⟩

end C06

namespace C07
def cu : State := (warm.put R.SEP_CURVE_ADDR_LO 0x10000).put F.SEP_STAT_CURVES 5
def gn : State := ((withChans [ep3] warm).put R.CAL_LOAD_ADDR_LO 0x10000).put F.CAL_LOAD_COUNT_COUNT 1 |>.writeBulk 0x10000 (leBytes 4 ep3.handle ++ [0,1,0,2,0,3,0,0])
def md : State := ((warm.put R.GOV_MODEL_ADDR_LO 0x10000).writeBulk 0x10000 (List.replicate 416 0))

theorem test_meets_TableLoads :
    (∃ (s : State), ∃ (w : Word), s.hasStandby = false ∧ s.mirroring = false ∧ bitAt w.toNat 0 = true ∧ let s1 := s.put F.CMP_COEF_CTL_BANK (bits w.toNat 4 1); ∃ n, ∃ st, firstFail (s1.coefChecks (bits w.toNat 4 1)) = (n, st) ∧ st < 16 ∧ n < 16) ∧
    (∃ (s : State), ∃ (bank : Nat), ∃ (table : List Int), s.cmp.loading = some (bank, table) ∧ 1 ≤ bank ∧ bank ≤ 8) ∧
    (∃ (s : State), ∃ (w : Word), s.hasStandby = false ∧ s.mirroring = false ∧ bitAt w.toNat 0 = true ∧ let s1 := s.put F.SEP_CURVE_CTL_CURVE (bits w.toNat 5 1); ∃ n, ∃ st, firstFail (s1.curveChecks (bits w.toNat 5 1)) = (n, st) ∧ st < 16 ∧ n < 16) ∧
    (∃ (s : State), ∃ (curve : Nat), ∃ (table : List Nat), s.sep.loading = some (curve, table) ∧ curve < 32) ∧
    (∃ (s : State), ∃ (w : Word), s.hasStandby = false ∧ s.mirroring = false ∧ bitAt w.toNat 0 = true ∧ let s1 := s.put F.CAL_LOAD_CTL_AT_FRAME (bits w.toNat 1 1); ∃ n, ∃ st, firstFail (s1.gainChecks (bitAt w.toNat 1)) = (n, st) ∧ st < 16 ∧ n < 16) ∧
    (∃ (s : State), ∃ (w : Word), s.hasStandby = false ∧ s.mirroring = false ∧ bitAt w.toNat 0 = true ∧ let s1 := (s.put F.GOV_MODEL_CTL_AT_FRAME (bits w.toNat 1 1)).put F.GOV_MODEL_CTL_COUNT (bits w.toNat 8 2); let ts := (List.range (bits w.toNat 8 2)).map (fun k => s1.readType (s1.get64 R.GOV_MODEL_ADDR_LO + 416 * k)); ∃ n, ∃ st, firstFail (s1.modelChecks (s1.get64 R.GOV_MODEL_ADDR_LO) (bits w.toNat 8 2) (s1.get64 R.GOV_MODEL_FRAME_LO) (bitAt w.toNat 1) ts) = (n, st) ∧ st < 16 ∧ n < 16) ∧
    (∃ (s : State), ∃ (w : Word), bitAt w.toNat 0 = false) :=
  ⟨⟨warm, 0x31, by decide +kernel, by decide +kernel, by decide +kernel, (let s : State := warm; let w : Word := 0x31; let s1 := s.put F.CMP_COEF_CTL_BANK (bits w.toNat 4 1); firstFail (s1.coefChecks (bits w.toNat 4 1))).1, (let s : State := warm; let w : Word := 0x31; let s1 := s.put F.CMP_COEF_CTL_BANK (bits w.toNat 4 1); firstFail (s1.coefChecks (bits w.toNat 4 1))).2, rfl, by decide +kernel, by decide +kernel⟩,
   ⟨{ warm with cmp := { warm.cmp with loading := some (8, [5]) } }, (((let s : State := { warm with cmp := { warm.cmp with loading := some (8, [5]) } }; s.cmp.loading)).get (by decide +kernel)).1, (((let s : State := { warm with cmp := { warm.cmp with loading := some (8, [5]) } }; s.cmp.loading)).get (by decide +kernel)).2, by decide +kernel, by decide +kernel, by decide +kernel⟩,
   ⟨cu, 0x7, by decide +kernel, by decide +kernel, by decide +kernel, (let s : State := cu; let w : Word := 0x7; let s1 := s.put F.SEP_CURVE_CTL_CURVE (bits w.toNat 5 1); firstFail (s1.curveChecks (bits w.toNat 5 1))).1, (let s : State := cu; let w : Word := 0x7; let s1 := s.put F.SEP_CURVE_CTL_CURVE (bits w.toNat 5 1); firstFail (s1.curveChecks (bits w.toNat 5 1))).2, rfl, by decide +kernel, by decide +kernel⟩,
   ⟨{ warm with sep := { warm.sep with loading := some (31, [5]) } }, (((let s : State := { warm with sep := { warm.sep with loading := some (31, [5]) } }; s.sep.loading)).get (by decide +kernel)).1, (((let s : State := { warm with sep := { warm.sep with loading := some (31, [5]) } }; s.sep.loading)).get (by decide +kernel)).2, by decide +kernel, by decide +kernel⟩,
   ⟨gn, 1, by decide +kernel, by decide +kernel, by decide +kernel, (let s : State := gn; let w : Word := 1; let s1 := s.put F.CAL_LOAD_CTL_AT_FRAME (bits w.toNat 1 1); firstFail (s1.gainChecks (bitAt w.toNat 1))).1, (let s : State := gn; let w : Word := 1; let s1 := s.put F.CAL_LOAD_CTL_AT_FRAME (bits w.toNat 1 1); firstFail (s1.gainChecks (bitAt w.toNat 1))).2, rfl, by decide +kernel, by decide +kernel⟩,
   ⟨md, 0x101, by decide +kernel, by decide +kernel, by decide +kernel, (let s : State := md; let w : Word := 0x101; let s1 := (s.put F.GOV_MODEL_CTL_AT_FRAME (bits w.toNat 1 1)).put F.GOV_MODEL_CTL_COUNT (bits w.toNat 8 2); let ts := (List.range (bits w.toNat 8 2)).map (fun k => s1.readType (s1.get64 R.GOV_MODEL_ADDR_LO + 416 * k)); firstFail (s1.modelChecks (s1.get64 R.GOV_MODEL_ADDR_LO) (bits w.toNat 8 2) (s1.get64 R.GOV_MODEL_FRAME_LO)
        (bitAt w.toNat 1) ts)).1, (let s : State := md; let w : Word := 0x101; let s1 := (s.put F.GOV_MODEL_CTL_AT_FRAME (bits w.toNat 1 1)).put F.GOV_MODEL_CTL_COUNT (bits w.toNat 8 2); let ts := (List.range (bits w.toNat 8 2)).map (fun k => s1.readType (s1.get64 R.GOV_MODEL_ADDR_LO + 416 * k)); firstFail (s1.modelChecks (s1.get64 R.GOV_MODEL_ADDR_LO) (bits w.toNat 8 2) (s1.get64 R.GOV_MODEL_FRAME_LO)
        (bitAt w.toNat 1) ts)).2, rfl, by decide +kernel, by decide +kernel⟩,
   ⟨warm, 0x1FE, by decide +kernel⟩⟩

end C07

namespace C08
def ns : Chan := chan kStream 4
def srd (r : Nat) : Srd := ⟨false, r, 0, List.replicate 5 7⟩
def pk : RtpPacket := ⟨2, 5, 100, 9000, false, [srd 3]⟩
def nss := srv (withChans [ns] shw)
def nx (s : State) (f : Stream → Stream) : State := s.modStream 4 f
def ns2 : Chan := chan kStream 4 [(0x0206, 1 * 2 ^ 80)]
def js := srv ((((withChans [chan kStream 5 [(0x0201, 1), (0x0203, 0x00040004), (0x0207, 1 * 2 ^ 64)]] warm).put R.ING_JOB_DST 0x08040005).put64 R.ING_JOB_SRC_LO 0x10000).put R.ING_JOB_PITCH 64)
def jb : Job := ⟨0x08040005, 0, 0x10000, 64, 0⟩
def jq (s : State) : State := { s with ing := { s.ing with jobs := [jb] } }

theorem test_meets_PacketsReceived :
    (∃ (s : State), ∃ (i : Fin 32), ∃ (b : Bool), ∃ (p : RtpPacket), ((s.netStream i).any (fun c => c.hasPath b) = false)) ∧
    (∃ (s : State), ∃ (i : Fin 32), ∃ (b : Bool), ∃ (p : RtpPacket), ∃ (c : Chan), s.netStream i = some c ∧ c.hasPath b = true ∧ (s.power < 2 ∨ packetAccepted p = false)) ∧
    (∃ (s : State), ∃ (i : Fin 32), ∃ (b : Bool), ∃ (p : RtpPacket), ∃ (c : Chan), s.netStream i = some c ∧ c.hasPath b = true ∧ 2 ≤ s.power ∧ packetAccepted p = true ∧ ∃ rule, s.formatBreak c i p = some rule) ∧
    (∃ (s : State), ∃ (i : Fin 32), ∃ (b : Bool), ∃ (p : RtpPacket), ∃ (c : Chan), s.netStream i = some c ∧ c.hasPath b = true ∧ 2 ≤ s.power ∧ packetAccepted p = true ∧ let x := s.stream i; s.formatBreak c i p = none ∧ x.twinAt p.seq = none) ∧
    (∃ (u : State), ∃ (c : Chan), ∃ (i : Nat), ∃ (p : RtpPacket), ((u.stream i).pics.find? (fun q => q.timestamp == p.timestamp) = none)) ∧
    (∃ (u : State), ∃ (c : Chan), ∃ (i : Nat), ∃ (p : RtpPacket), ∃ q, ((u.stream i).pics.find? (fun q => q.timestamp == p.timestamp) = some q)) :=
  ⟨⟨warm, 4, true, pk, by decide +kernel⟩,
   ⟨withChans [ns] warm, 4, false, pk, ((let s : State := withChans [ns] warm; let i : Fin 32 := 4; s.netStream i)).get (by decide +kernel), (Option.some_get _).symm, by decide +kernel, by decide +kernel⟩,
   ⟨nss, 4, false, { pk with version := 1 }, ((let s : State := nss; let i : Fin 32 := 4; s.netStream i)).get (by decide +kernel), (Option.some_get _).symm, by decide +kernel, by decide +kernel, by decide +kernel, ((let s : State := nss; let i : Fin 32 := 4; let p : RtpPacket := { pk with version := 1 }; let c : Chan := ((let s : State := nss; let i : Fin 32 := 4; s.netStream i)).get (by decide +kernel); s.formatBreak c i p)).get (by decide +kernel), (Option.some_get _).symm⟩,
   ⟨nss, 4, false, pk, ((let s : State := nss; let i : Fin 32 := 4; s.netStream i)).get (by decide +kernel), (Option.some_get _).symm, by decide +kernel, by decide +kernel, by decide +kernel, by decide +kernel, by decide +kernel⟩,
   ⟨nss, ns, 4, pk, by decide +kernel⟩,
   ⟨nx nss (fun y => { y with pics := [⟨9000, 5, some 0, [(98, 0)], none, [], some (50, 99)⟩] }), ns, 4, pk, ((let u : State := nx nss (fun y => { y with pics := [⟨9000, 5, some 0, [(98, 0)], none, [], some (50, 99)⟩] }); let i : Nat := 4; let p : RtpPacket := pk; (u.stream i).pics.find? (fun q => q.timestamp == p.timestamp))).get (by decide +kernel), (Option.some_get _).symm⟩⟩

theorem test_meets_StreamEvents :
    (∃ (s : State), ∃ (i : Fin 32), ∃ (c : Chan), s.netStream i = some c ∧ (s.stream i).noSignal = none) ∧
    (∃ (s : State), ∃ (i : Fin 32), s.netStream i = none) ∧
    (∃ (s : State), ∃ (i : Fin 32), ∃ (b : Bool), ∃ (c : Chan), s.netStream i = some c ∧ c.hasPath true = true) ∧
    (∃ (s : State), ∃ (i : Fin 32), ∃ (c : Chan), ∃ (q : Picture), ∃ (at_ : Nat), s.netStream i = some c ∧ (s.stream i).nextPartial = some (q, at_) ∧ i.val < s.ing.streams.length) :=
  ⟨⟨nss, 4, ((let s : State := nss; let i : Fin 32 := 4; s.netStream i)).get (by decide +kernel), (Option.some_get _).symm, by decide +kernel⟩,
   ⟨warm, 4, by decide +kernel⟩,
   ⟨withChans [ns2] warm, 4, true, ((let s : State := withChans [ns2] warm; let i : Fin 32 := 4; s.netStream i)).get (by decide +kernel), (Option.some_get _).symm, by decide +kernel⟩,
   ⟨nx nss (fun y => { y with pics := [⟨9000, 5, some 0, [(98, 0)], none, [], some (50, 99)⟩, ⟨9200, 5, some 1, [(98, 0)], none, [], none⟩] }), 4, ((let s : State := nx nss (fun y => { y with pics := [⟨9000, 5, some 0, [(98, 0)], none, [], some (50, 99)⟩, ⟨9200, 5, some 1, [(98, 0)], none, [], none⟩] }); let i : Fin 32 := 4; s.netStream i)).get (by decide +kernel), (((let s : State := nx nss (fun y => { y with pics := [⟨9000, 5, some 0, [(98, 0)], none, [], some (50, 99)⟩, ⟨9200, 5, some 1, [(98, 0)], none, [], none⟩] }); let i : Fin 32 := 4; (s.stream i).nextPartial)).get (by decide +kernel)).1, (((let s : State := nx nss (fun y => { y with pics := [⟨9000, 5, some 0, [(98, 0)], none, [], some (50, 99)⟩, ⟨9200, 5, some 1, [(98, 0)], none, [], none⟩] }); let i : Fin 32 := 4; (s.stream i).nextPartial)).get (by decide +kernel)).2, (Option.some_get _).symm, by decide +kernel, by decide +kernel⟩⟩

theorem test_meets_StillLoadJobs :
    (∃ (s : State), ∃ (w : Word), s.hasStandby = false ∧ s.mirroring = false ∧ bitAt w.toNat 0 = true ∧ ∃ n, ∃ st, firstFail s.jobChecks = (n, st) ∧ st < 16 ∧ n < 16) ∧
    (∃ (s : State), ∃ (w : Word), bitAt w.toNat 0 = false) ∧
    (∃ (s : State), ∃ (j : Job), ∃ (rest : List Job), ∃ (c : Chan), s.ing.jobs = j :: rest ∧ s.power ≠ 0 ∧ s.kindServed 1 = true ∧ s.chanOf j.handle = some c) ∧
    (∃ (s : State), ∃ (j : Job), ∃ (rest : List Job), s.ing.jobs = j :: rest ∧ s.power ≠ 0 ∧ s.kindServed 1 = true ∧ s.chanOf j.handle = none) ∧
    (∃ (s : State), (s.ing.jobs = [] ∨ s.power = 0 ∨ s.kindServed 1 = false)) :=
  ⟨⟨srv warm, 1, by decide +kernel, by decide +kernel, by decide +kernel, (let s : State := srv warm; firstFail s.jobChecks).1, (let s : State := srv warm; firstFail s.jobChecks).2, rfl, by decide +kernel, by decide +kernel⟩,
   ⟨warm, 0, by decide +kernel⟩,
   ⟨jq js, jb, [], ((let s : State := jq js; let j : Job := jb; s.chanOf j.handle)).get (by decide +kernel), by decide +kernel, by decide +kernel, by decide +kernel, (Option.some_get _).symm⟩,
   ⟨jq (srv warm), jb, [], by decide +kernel, by decide +kernel, by decide +kernel, by decide +kernel⟩,
   ⟨jq warm, by decide +kernel⟩⟩

end C08

namespace C09
def rg : RegionWork := ⟨2, 0x0C040002, 0, 0, 8, 40⟩
def lyr : Chan := chan kLayer 0 [(0x0112, 8 * 2 ^ 64 + 40 * 2 ^ 96)]
def lw : LayerWork := ⟨lyr, .fill, false, false, none, 0, 8⟩
def fb : FrameWork := { fw0 7 [chan kRegion 2 [(0x0301, 8 * 2^32 + 40 * 2^48)], lyr, ep3] with regions := [rg], layers := [lw, { lw with chan := { lyr with index := 1 } }] }
def sb : State := withFrame fb (srv shw)
def fs : FrameWork := { fb with bandsDone := 2, forecastDone := true }
def ww : WbWork := ⟨7, 1, 0, 2, 0, 0, 4, 4, 0x20000, 64, 0, 0⟩
def wbs : State := { sb with cmp := { sb.cmp with wb := [(3, ww)] } }

theorem test_meets_DroppedLayersAreFewest :
    (∃ (avail2 : Nat), ∃ (l : List (Nat × Nat)), l ≠ []) ∧
    (∃ (avail2 : Nat), ∃ (l : List (Nat × Nat)), let q := dropLayers avail2 l; ∃ k, k < q.1.length) :=
  ⟨⟨50, [(3,4)], by decide +kernel⟩,
   ⟨5, [(0,4),(1,4),(2,0),(3,9)], 2, by decide +kernel⟩⟩

theorem test_meets_BandsInOrder :
    (∃ (s : State), ∃ (n : Nat), s.frameWork n = none) ∧
    (∃ (s : State), ∃ (n : Nat), ∃ (w : FrameWork), s.frameWork n = some w ∧ (w.active = false ∨ s.kindServed 3 = false ∨ (bandSequence w.regions).length ≤ w.bandsDone)) ∧
    (∃ (s : State), ∃ (n : Nat), ∃ (w : FrameWork), ∃ (r : RegionWork), ∃ (b : Nat), s.frameWork n = some w ∧ w.active = true ∧ s.kindServed 3 = true ∧ (bandSequence w.regions)[w.bandsDone]? = some (r, b)) ∧
    (∃ (s : State), ∃ (n : Nat), ∃ (w : FrameWork), s.frameWork n = some w ∧ (w.active = false ∨ w.forecastDone = false ∨ w.sumsDone = true ∨ max 1 (bandSequence w.regions).length ≤ w.bandsSent ∨ ((bandSequence w.regions) ≠ [] ∧ w.bandsDone ≤ w.bandsSent) ∨ s.mayBegin n w.bandsSent = false ∨ s.kindServed 4 = false ∨ s.kindServed 6 = false)) ∧
    (∃ (s : State), ∃ (n : Nat), ∃ (w : FrameWork), s.frameWork n = some w ∧ w.active = true ∧ w.forecastDone = true ∧ w.sumsDone = false ∧ w.bandsSent < max 1 (bandSequence w.regions).length ∧ ((bandSequence w.regions = [] ∨ w.bandsSent < w.bandsDone)) ∧ s.mayBegin n w.bandsSent = true ∧ s.kindServed 4 = true ∧ s.kindServed 6 = true) ∧
    (∃ (s : State), ∃ (i : Fin 16), ∃ (q : Nat × WbWork), ∃ (w : FrameWork), (s.cmp.wb.find? (fun q => q.1 == i.val) = some q) ∧ s.frameWork q.2.frame = some w ∧ s.kindServed 9 = true) ∧
    (∃ (s : State), ∃ (i : Fin 16), ∃ (q : Nat × WbWork), (s.cmp.wb.find? (fun q => q.1 == i.val) = some q)) ∧
    (∃ (s : State), ∃ (i : Fin 16), s.kindServed 9 = false) ∧
    (∃ (s : State), ∃ (i : Fin 16), (s.cmp.wb.find? (fun q => q.1 == i.val) = none)) :=
  ⟨⟨shw, 7, by decide +kernel⟩,
   ⟨withFrame fb shw, 7, ((let s : State := withFrame fb shw; let n : Nat := 7; s.frameWork n)).get (by decide +kernel), (Option.some_get _).symm, by decide +kernel⟩,
   ⟨sb, 7, ((let s : State := sb; let n : Nat := 7; s.frameWork n)).get (by decide +kernel), (((let w : FrameWork := ((let s : State := sb; let n : Nat := 7; s.frameWork n)).get (by decide +kernel); (bandSequence w.regions)[w.bandsDone]?)).get (by decide +kernel)).1, (((let w : FrameWork := ((let s : State := sb; let n : Nat := 7; s.frameWork n)).get (by decide +kernel); (bandSequence w.regions)[w.bandsDone]?)).get (by decide +kernel)).2, (Option.some_get _).symm, by decide +kernel, by decide +kernel, by decide +kernel⟩,
   ⟨sb, 7, ((let s : State := sb; let n : Nat := 7; s.frameWork n)).get (by decide +kernel), (Option.some_get _).symm, by decide +kernel⟩,
   ⟨withFrame fs (srv shw), 7, ((let s : State := withFrame fs (srv shw); let n : Nat := 7; s.frameWork n)).get (by decide +kernel), (Option.some_get _).symm, by decide +kernel, by decide +kernel, by decide +kernel, by decide +kernel, by decide +kernel, by decide +kernel, by decide +kernel, by decide +kernel⟩,
   ⟨wbs, 3, ((let s : State := wbs; let i : Fin 16 := 3; s.cmp.wb.find? (fun q => q.1 == i.val))).get (by decide +kernel), ((let s : State := wbs; let q : Nat × WbWork := ((let s : State := wbs; let i : Fin 16 := 3; s.cmp.wb.find? (fun q => q.1 == i.val))).get (by decide +kernel); s.frameWork q.2.frame)).get (by decide +kernel), (Option.some_get _).symm, (Option.some_get _).symm, by decide +kernel⟩,
   ⟨wbs, 3, ((let s : State := wbs; let i : Fin 16 := 3; s.cmp.wb.find? (fun q => q.1 == i.val))).get (by decide +kernel), (Option.some_get _).symm⟩,
   ⟨withFrame fb shw, 3, by decide +kernel⟩,
   ⟨sb, 3, by decide +kernel⟩⟩

end C09

namespace C10
def zn : Chan := chan kZone 6
def bh (n : Nat) : Behind := ⟨n, n, false, [{ zn with params := [(0x0610, 1)] }, ep3]⟩
def zne : Chan := chan kZone 6 [(0x0610, 1)]
def cz : CalZone := ⟨6, [(5, 99), (6, 199)], some 4, true, [2, 3], none, none, false, []⟩
def zs (c : CalZone) : State := { (srv (withChans [zne, ep3] shw)) with cal := { shw.cal with zones := [c] } }
def zf : State := { (srv (withChans [chan kZone 6 [(0x0610, 3)], ep3] shw)) with cal := { shw.cal with zones := [cz] } }

theorem test_meets_StagedGainIsBounded :
    (∃ (z : Chan), ∃ (ra : Option Rat), ∃ (rb : Option Rat), ∃ (g : Nat), ∃ (n : Nat), ∃ (cut : Bool), agree z ra rb g = .stage n cut ∧ ∃ p, ∃ q, ra = some p ∧ rb = some q) ∧
    (∃ (z : Chan), ∃ (p : Rat), ∃ (q : Rat), ∃ (g : Nat), (p < 1 / 2 ∨ 2 < p ∨ q < 1 / 2 ∨ 2 < q)) :=
  ⟨⟨zn, some 1, some 1, 0x4000, 16384, false, by decide +kernel, ((let ra : Option Rat := some 1; ra)).get (by decide +kernel), ((let rb : Option Rat := some 1; rb)).get (by decide +kernel), (Option.some_get _).symm, (Option.some_get _).symm⟩,
   ⟨zn, 3, 1, 99, by decide +kernel⟩⟩

theorem test_meets_CalibrationWindows :
    (∃ (s : State), ∃ (n : Nat), (s.role = 2 ∨ (s.cal.behind.find? (fun q => q.frame == n)) = none)) ∧
    (∃ (s : State), ∃ (n : Nat), ∃ (q : Behind), s.role ≠ 2 ∧ (s.cal.behind.find? (fun q => q.frame == n) = some q)) ∧
    (∃ (s : State), ∃ (i : Fin 256), ∃ (z : Chan), ∃ (w : Nat), ∃ (at_ : Nat), ∃ (rest : List (Nat × Nat)), s.chanAt kZone i = some z ∧ (s.calZone i).opens = (w, at_) :: rest ∧ z.calEn = true) ∧
    (∃ (s : State), ∃ (i : Fin 256), ((∀ z, s.chanAt kZone i = some z → z.calEn = false) ∨ (s.calZone i).opens = [])) :=
  ⟨⟨warm, 4, by decide +kernel⟩,
   ⟨{ (withChans [zn, ep3] shw) with cal := { shw.cal with behind := [bh 3, bh 4] } }, 4, ((let s : State := { (withChans [zn, ep3] shw) with cal := { shw.cal with behind := [bh 3, bh 4] } }; let n : Nat := 4; s.cal.behind.find? (fun q => q.frame == n))).get (by decide +kernel), by decide +kernel, (Option.some_get _).symm⟩,
   ⟨zs cz, 6, ((let s : State := zs cz; let i : Fin 256 := 6; s.chanAt kZone i)).get (by decide +kernel), 5, 99, [(6, 199)], (Option.some_get _).symm, by decide +kernel, by decide +kernel⟩,
   ⟨warm, 6, by decide +kernel⟩⟩

theorem test_meets_CalibrationPairsAndCommands :
    (∃ (s : State), ∃ (i : Fin 256), ((s.chanAt kZone i).isNone = true ∨ (s.calZone i).closed = none ∨ (s.calZone i).due = false ∨ s.role = 2 ∨ s.power < 2)) ∧
    (∃ (s : State), ∃ (i : Fin 256), ∃ (z : Chan), ∃ (wb : Nat), s.chanAt kZone i = some z ∧ (s.calZone i).closed = some wb ∧ (s.calZone i).due = true ∧ s.role ≠ 2 ∧ 2 ≤ s.power) ∧
    (∃ (s : State), ∃ (i : Fin 256), ∃ (z : Chan), ∃ (wb : Nat), s.chanAt kZone i = some z ∧ (s.calZone i).closed = some wb ∧ (s.calZone i).due = true ∧ s.role ≠ 2 ∧ 2 ≤ s.power) ∧
    (∃ (s : State), ∃ (i : Fin 256), ∃ (z : Chan), ∃ (wb : Nat), ∃ (rest : List Nat), s.chanAt kZone i = some z ∧ (s.calZone i).late = wb :: rest) ∧
    (∃ (s : State), ∃ (z : Chan), s.hasStandby = false ∧ s.mirroring = false ∧ s.cmdZone = some z) ∧
    (∃ (s : State), s.cmdZone = none) :=
  ⟨⟨zs { cz with due := false }, 6, by decide +kernel⟩,
   ⟨zf, 6, ((let s : State := zf; let i : Fin 256 := 6; s.chanAt kZone i)).get (by decide +kernel), ((let s : State := zf; let i : Fin 256 := 6; (s.calZone i).closed)).get (by decide +kernel), (Option.some_get _).symm, (Option.some_get _).symm, by decide +kernel, by decide +kernel, by decide +kernel⟩,
   ⟨zs cz, 6, ((let s : State := zs cz; let i : Fin 256 := 6; s.chanAt kZone i)).get (by decide +kernel), ((let s : State := zs cz; let i : Fin 256 := 6; (s.calZone i).closed)).get (by decide +kernel), (Option.some_get _).symm, (Option.some_get _).symm, by decide +kernel, by decide +kernel, by decide +kernel⟩,
   ⟨zs cz, 6, ((let s : State := zs cz; let i : Fin 256 := 6; s.chanAt kZone i)).get (by decide +kernel), 2, [3], (Option.some_get _).symm, by decide +kernel⟩,
   ⟨(zs cz).put R.CAL_CMD_ZONE zne.handle, ((let s : State := (zs cz).put R.CAL_CMD_ZONE zne.handle; s.cmdZone)).get (by decide +kernel), by decide +kernel, by decide +kernel, (Option.some_get _).symm⟩,
   ⟨warm, by decide +kernel⟩⟩

end C10

namespace C11
def uv : Chan := chan kUniverse 3 [(0x0901, 7)]
def uv2 : Chan := chan kUniverse 4 [(0x0901, 8 + 9 * 2 ^ 16)]
def fx : Chan := chan kFixture 2
def st1 : Structure := { srvStr with ports := [⟨0, 1, 7⟩, ⟨1, 1, 7⟩] }
def u0 : State := withChans [fx, uv, uv2] (withStr st1 (srv shw))
def us : State := withFrame (fw0 7 [fx, uv, uv2]) u0

theorem test_meets_SacnOutput :
    (∃ (s : State), ∃ (n : Nat), ∃ (w : FrameWork), s.frameWork n = some w ∧ w.moved = false ∧ 2 ≤ s.power ∧ s.kindServed 7 = true ∧ w.active = false) ∧
    (∃ (s : State), ∃ (n : Nat), ((∀ w, s.frameWork n = some w → w.moved = true) ∨ s.power < 2 ∨ s.kindServed 7 = false)) ∧
    (∃ (s : State), ∃ (n : Nat), ∃ (i : Fin 8192), ∃ (w : FrameWork), s.frameWork n = some w ∧ w.active = true ∧ (s.atTime (s.dAt n)).univDue w i = none) ∧
    (∃ (s : State), ∃ (n : Nat), ∃ (i : Fin 8192), ∃ (w : FrameWork), s.frameWork n = some w ∧ w.active = true ∧ ∃ u, (s.atTime (s.dAt n)).univDue w i = some u) ∧
    (∃ (s : State), ∃ (n : Nat), ∃ (sync : Nat), ∃ (w : FrameWork), ∃ (u : Chan), ∃ (us : List Chan), s.frameWork n = some w ∧ w.syncUniverses sync = u :: us ∧ w.active = true ∧ s.red.sacnStop = false) ∧
    (∃ (s : State), ∃ (n : Nat), ∃ (sync : Nat), ∃ (i : Fin 8192), ((s.frameWork n).any (fun w => w.active) = false) ∧ s.frameWork n = none) ∧
    (∃ (s : State), s.power = 2) ∧
    (∃ (s : State), s.power ≠ 2) ∧
    (∃ (s : State), ∃ (i : Fin 8192), (s.fix.terms.find? (fun t => t.chan.index == i.val) = none)) ∧
    (∃ (s : State), ∃ (i : Fin 8192), ∃ d, (s.fix.terms.find? (fun t => t.chan.index == i.val) = some d) ∧ d.cause = 0 ∧ s.role ≠ 2 ∧ s.red.sacnStop = false) ∧
    (∃ (s : State), (s.flag F.FIX_CTL_DISC_EN = false ∨ s.role = 2 ∨ s.red.sacnStop = true)) ∧
    (∃ (s : State), s.flag F.FIX_CTL_DISC_EN = true ∧ s.role ≠ 2 ∧ s.red.sacnStop = false) :=
  ⟨⟨withFrame { fw0 7 [fx, uv] with active := false } (u0.put F.SYS_MODE_STAT_POWER 2), 7, ((let s : State := withFrame { fw0 7 [fx, uv] with active := false } (u0.put F.SYS_MODE_STAT_POWER 2); let n : Nat := 7; s.frameWork n)).get (by decide +kernel), (Option.some_get _).symm, by decide +kernel, by decide +kernel, by decide +kernel, by decide +kernel⟩,
   ⟨withFrame { fw0 7 [fx, uv] with moved := true } u0, 7, by decide +kernel⟩,
   ⟨us, 7, 5, ((let s : State := us; let n : Nat := 7; s.frameWork n)).get (by decide +kernel), (Option.some_get _).symm, by decide +kernel, by decide +kernel⟩,
   ⟨us, 7, 3, ((let s : State := us; let n : Nat := 7; s.frameWork n)).get (by decide +kernel), (Option.some_get _).symm, by decide +kernel, ((let s : State := us; let n : Nat := 7; let i : Fin 8192 := 3; let w : FrameWork := ((let s : State := us; let n : Nat := 7; s.frameWork n)).get (by decide +kernel); (s.atTime (s.dAt n)).univDue w i)).get (by decide +kernel), (Option.some_get _).symm⟩,
   ⟨us, 7, 9, ((let s : State := us; let n : Nat := 7; s.frameWork n)).get (by decide +kernel), uv2, [], (Option.some_get _).symm, by decide +kernel, by decide +kernel, by decide +kernel⟩,
   ⟨warm, 7, 0, 3, by decide +kernel, by decide +kernel⟩,
   ⟨us.put F.SYS_MODE_STAT_POWER 2, by decide +kernel⟩,
   ⟨us, by decide +kernel⟩,
   ⟨us, 3, by decide +kernel⟩,
   ⟨{ us with fix := { us.fix with terms := [⟨uv, 7, 0⟩] } }, 3, ((let s : State := { us with fix := { us.fix with terms := [⟨uv, 7, 0⟩] } }; let i : Fin 8192 := 3; s.fix.terms.find? (fun t => t.chan.index == i.val))).get (by decide +kernel), (Option.some_get _).symm, by decide +kernel, by decide +kernel, by decide +kernel⟩,
   ⟨us.putFlag F.FIX_CTL_DISC_EN false, by decide +kernel⟩,
   ⟨us.putFlag F.FIX_CTL_DISC_EN true, by decide +kernel, by decide +kernel, by decide +kernel⟩⟩

end C11

namespace C12
def gp : Chan := chan kDdgroup 9 [(0x0A01, 5)]
def en (s : State) : State := s.putFlag F.P_CTL_EN true 5
def dds (k : Nat) (s : State) : State := s.put F.P_STAT_STATE k 5
def src (s : State) : State := ((s.putFlag F.P_CTL_SOURCE true 5).put F.P_CHAIN_CHIPS 1 5)
def st8 : Structure := { st0 with engines := [eng0 2 0xA, eng0 3 8] }
def fd : FrameWork := fw0 7 [gp]
def sd : State := withFrame fd (withChans [gp] (src (en (dds 3 shw))))
def gz : Chan := chan kDdgroup 9 [(0x0A01, 5 + 64 * 2 ^ 64), (0x0A02, 3), (0x0A03, 0x18040006)]
def zz : Chan := chan kZone 6
def ss : State := { en shw with cmd := { shw.cmd with latched := [gz, zz], chans := [gz, zz] } }
def sn : State := ({ ss with now := ss.bAt 600 } : State).put64 R.SYS_FRAME_NUM_LO 600

theorem test_meets_DirectDrivePorts :
    (∃ (s : State), ∃ (p : Fin 32), ∃ (on : Bool), s.ddEnabled p = on) ∧
    (∃ (s : State), ∃ (p : Fin 32), ∃ (r : Nat), s.ddEnabled p = false ∧ (firstFail (s.enableChecks p)).1 = r ∧ r ≠ 0 ∧ r < 8) ∧
    (∃ (s : State), ∃ (p : Fin 32), s.ddEnabled p = false ∧ (firstFail (s.enableChecks p)).1 = 0) ∧
    (∃ (s : State), ∃ (p : Fin 32), s.ddEnabled p = true) ∧
    (∃ (s : State), ∃ (p : Fin 32), s.ddEnabled p = false) ∧
    (∃ (s : State), ∃ (p : Fin 32), ∃ (f : PinFind), s.ddEnabled p = true ∧ s.ddState p = 6) ∧
    (∃ (s : State), ∃ (p : Fin 32), ∃ (f : PinFind), s.ddEnabled p = true ∧ s.ddState p ≠ 6) ∧
    (∃ (s : State), ∃ (p : Fin 32), ∃ (f : PinFind), s.ddEnabled p = true ∧ s.ddState p ∈ [2, 3, 4, 5]) ∧
    (∃ (s : State), ∃ (p : Fin 32), s.ddEnabled p = true) :=
  ⟨⟨warm, 5, _, rfl⟩,
   ⟨warm, 5, _, by decide +kernel, rfl, by decide +kernel, by decide +kernel⟩,
   ⟨withStr st8 (src warm), 5, by decide +kernel, by decide +kernel⟩,
   ⟨en (dds 2 warm), 5, by decide +kernel⟩,
   ⟨warm, 5, by decide +kernel⟩,
   ⟨en (dds 6 warm), 5, ⟨1, 2, 5, true⟩, by decide +kernel, by decide +kernel⟩,
   ⟨en (dds 4 warm), 5, ⟨1, 2, 5, true⟩, by decide +kernel, by decide +kernel⟩,
   ⟨en (dds 4 warm), 5, ⟨1, 2, 5, true⟩, by decide +kernel, by decide +kernel⟩,
   ⟨(withChans [gp] (en (dds 4 shw))).putFlag F.G_STAT_BLANKED true 9, 5, by decide +kernel⟩⟩

theorem test_meets_DirectDriveShifts :
    (∃ (s : State), ∃ (n : Nat), ∃ (p : Fin 32), ∃ (conf : List Nat), ∃ (faults : List Nat), ∃ (w : FrameWork), s.frameWork n = some w ∧ w.active = true ∧ s.ddShifts p n = true ∧ (s.ddPort p).done ≠ some n) ∧
    (∃ (s : State), ∃ (n : Nat), ∃ (p : Fin 32), ∃ (conf : List Nat), ∃ (faults : List Nat), ∃ (w : FrameWork), s.frameWork n = some w ∧ w.active = false ∧ s.ddState p = 4 ∧ s.ddEnabled p = true) ∧
    (∃ (s : State), ∃ (n : Nat), ∃ (p : Fin 32), ∃ (conf : List Nat), ∃ (faults : List Nat), s.frameWork n = none) ∧
    (∃ (s : State), s.ddp.lastEdge ≠ 0 ∧ s.uptime < s.ddp.lastEdge + 1000000) ∧
    (∃ (s : State), (s.ddp.lastEdge = 0 ∨ s.ddp.lastEdge + 1000000 ≤ s.uptime)) ∧
    (∃ (s : State), ∃ (p : Fin 32), s.flag F.DDP_STAT_SYNC_LOST = false ∧ s.ddEnabled p = true ∧ s.flag F.P_CTL_SYNC_SRC p = true) ∧
    (∃ (s : State), ∃ (n : Nat), ∃ (p : Fin 32), ((s.sensedGroups p).filter (fun q => q.2.calWindow != 0 && decide (n % q.2.calWindow = 0)) ≠ [])) ∧
    (∃ (s : State), ∃ (i : Fin 2048), ∃ (a : SenseRead), ∃ (b : SenseRead), ∃ (c : Chan), ∃ (q : Chan × Chan), (s.cmd.latched.find? (fun c => c.kind == kDdgroup && c.index == i.val) = some c) ∧ ((s.sensedGroups c.ddPortNo).find? (fun q => q.1.index == i.val) = some q) ∧ s.frameNum / max 1 q.2.calWindow ≠ 0 ∧ let wno := (s.frameNum / max 1 q.2.calWindow - 1) % 2 ^ 32; ∃ r, readOf wno a = .inr r) ∧
    (∃ (s : State), ∃ (i : Fin 2048), ∃ (a : SenseRead), ∃ (b : SenseRead), ∃ (c : Chan), ∃ (q : Chan × Chan), (s.cmd.latched.find? (fun c => c.kind == kDdgroup && c.index == i.val) = some c) ∧ ((s.sensedGroups c.ddPortNo).find? (fun q => q.1.index == i.val) = some q) ∧ s.frameNum / max 1 q.2.calWindow ≠ 0 ∧ let wno := (s.frameNum / max 1 q.2.calWindow - 1) % 2 ^ 32; ∃ k, ∃ r, readOf wno a = .inl k ∧ readOf wno b = .inr r) ∧
    (∃ (s : State), ∃ (i : Fin 2048), ∃ (a : SenseRead), ∃ (b : SenseRead), ∃ (c : Chan), ∃ (q : Chan × Chan), (s.cmd.latched.find? (fun c => c.kind == kDdgroup && c.index == i.val) = some c) ∧ ((s.sensedGroups c.ddPortNo).find? (fun q => q.1.index == i.val) = some q) ∧ s.frameNum / max 1 q.2.calWindow ≠ 0 ∧ let wno := (s.frameNum / max 1 q.2.calWindow - 1) % 2 ^ 32; ∃ k, ∃ l, readOf wno a = .inl k ∧ readOf wno b = .inl l) :=
  ⟨⟨sd, 7, 5, [], [], ((let s : State := sd; let n : Nat := 7; s.frameWork n)).get (by decide +kernel), (Option.some_get _).symm, by decide +kernel, by decide +kernel, by decide +kernel⟩,
   ⟨withFrame { fd with active := false } (en (dds 4 hold)), 7, 5, [], [], ((let s : State := withFrame { fd with active := false } (en (dds 4 hold)); let n : Nat := 7; s.frameWork n)).get (by decide +kernel), (Option.some_get _).symm, by decide +kernel, by decide +kernel, by decide +kernel⟩,
   ⟨warm, 7, 5, [], [], by decide +kernel⟩,
   ⟨{ warm with uptime := 1500, ddp := { warm.ddp with lastEdge := 7000001000 } }, by decide +kernel, by decide +kernel⟩,
   ⟨warm, by decide +kernel⟩,
   ⟨(en warm).putFlag F.P_CTL_SYNC_SRC true 5, 5, by decide +kernel, by decide +kernel, by decide +kernel⟩,
   ⟨ss, 2560, 5, by decide +kernel⟩,
   ⟨{ ss with now := ss.bAt 600 }.put64 R.SYS_FRAME_NUM_LO 600, 9, .report 1 5 6 7 true false false, .nak, ((let s : State := { ss with now := ss.bAt 600 }.put64 R.SYS_FRAME_NUM_LO 600; let i : Fin 2048 := 9; s.cmd.latched.find? (fun c => c.kind == kDdgroup && c.index == i.val))).get (by decide +kernel), ((let s : State := { ss with now := ss.bAt 600 }.put64 R.SYS_FRAME_NUM_LO 600; let i : Fin 2048 := 9; let c : Chan := ((let s : State := { ss with now := ss.bAt 600 }.put64 R.SYS_FRAME_NUM_LO 600; let i : Fin 2048 := 9; s.cmd.latched.find? (fun c => c.kind == kDdgroup && c.index == i.val))).get (by decide +kernel); (s.sensedGroups c.ddPortNo).find? (fun q => q.1.index == i.val))).get (by decide +kernel), (Option.some_get _).symm, (Option.some_get _).symm, by decide +kernel, ⟨[5,6,7], true, false, false⟩, by decide +kernel⟩,
   ⟨sn, 9, .pec, .report 1 5 6 7 true false false, ((let s : State := sn; let i : Fin 2048 := 9; s.cmd.latched.find? (fun c => c.kind == kDdgroup && c.index == i.val))).get (by decide +kernel), ((let s : State := sn; let i : Fin 2048 := 9; let c : Chan := ((let s : State := sn; let i : Fin 2048 := 9; s.cmd.latched.find? (fun c => c.kind == kDdgroup && c.index == i.val))).get (by decide +kernel); (s.sensedGroups c.ddPortNo).find? (fun q => q.1.index == i.val))).get (by decide +kernel), (Option.some_get _).symm, (Option.some_get _).symm, by decide +kernel, 1, ⟨[5,6,7], true, false, false⟩, by decide +kernel, by decide +kernel⟩,
   ⟨sn, 9, .nak, .pec, ((let s : State := sn; let i : Fin 2048 := 9; s.cmd.latched.find? (fun c => c.kind == kDdgroup && c.index == i.val))).get (by decide +kernel), ((let s : State := sn; let i : Fin 2048 := 9; let c : Chan := ((let s : State := sn; let i : Fin 2048 := 9; s.cmd.latched.find? (fun c => c.kind == kDdgroup && c.index == i.val))).get (by decide +kernel); (s.sensedGroups c.ddPortNo).find? (fun q => q.1.index == i.val))).get (by decide +kernel), (Option.some_get _).symm, (Option.some_get _).symm, by decide +kernel, 0, 1, by decide +kernel, by decide +kernel⟩⟩

end C12

namespace C13
def rc : Chan := chan kRing 2 [(0x0401, 0)]
def jr : JoinRec := ⟨77, 3, 8, 8, 12, 3, 0, 1, 1⟩
def jd : Joined := ⟨rc.ringNo % 8, 3, [], 77, 8, 8, 12, 3, 0, some 5, none, 4, 0, 0, 0, 0, false⟩
def rs : State := { withChans [rc] shw with dvl := { shw.dvl with joined := [jd], asked := [(0, 500), (1, 600)], delays := [(0, [4, 5])] } }

theorem test_meets_RingFrames :
    (∃ (s : State), ∃ (r : Fin 8), ∃ (even : Option Nat), ∃ (odd : Option Nat), ∃ (j : JoinRec), ∃ (f : Nat), ∃ (m : Nat), ∃ (a : Nat), ∃ (recs : List TelemRec), s.ringChan r = none) ∧
    (∃ (s : State), ∃ (l : Fin 16), ∃ (op : Nat), ∃ (t2 : Nat), ∃ (t3 : Nat), s.ringChan (l / 2) = none) ∧
    (∃ (s : State), ∃ (r : Fin 8), ∃ (c : Chan), s.ringChan r = some c ∧ ∃ q, s.holdDue = some q) ∧
    (∃ (s : State), ∃ (r : Fin 8), ∃ (c : Chan), s.ringChan r = some c ∧ s.holdDue = none) ∧
    (∃ (s : State), ∃ (r : Fin 8), ∃ (c : Chan), s.ringChan r = some c ∧ s.power = 1) ∧
    (∃ (s : State), ∃ (r : Fin 8), ∃ (c : Chan), s.ringChan r = some c ∧ s.power ≠ 1) ∧
    (∃ (s : State), ∃ (r : Fin 8), ∃ (c : Chan), ∃ (even : Option Nat), ∃ (odd : Option Nat), ∃ (j : JoinRec), ∃ (f : Nat), ∃ (m : Nat), ∃ (pos : Nat), s.ringChan r = some c ∧ s.role ≠ 2 ∧ (s.learnLength r even odd).positionOf r even odd = some pos ∧ 1 ≤ pos ∧ pos ≤ 512) ∧
    (∃ (s : State), ∃ (r : Fin 8), ∃ (c : Chan), ∃ (even : Option Nat), ∃ (odd : Option Nat), ∃ (j : JoinRec), ∃ (f : Nat), ∃ (m : Nat), s.ringChan r = some c ∧ s.role ≠ 2 ∧ (((s.learnLength r even odd).positionOf r even odd).any (fun p => decide (1 ≤ p ∧ p ≤ 512)) = false)) ∧
    (∃ (s : State), ∃ (l : Fin 16), (s.ringChan (l / 2)).isSome = true ∧ ∃ (t2 t3 : Nat) (q : Nat × Nat), t2 ≤ t3 ∧ (s.dvl.asked.find? (fun q => q.1 == l.val) = some q)) :=
  ⟨⟨warm, 0, some 1, none, jr, 1, 2, 3, [], by decide +kernel⟩,
   ⟨warm, 1, 1, 2, 3, by decide +kernel⟩,
   ⟨rs.put F.SYS_MODE_STAT_POWER 2, 0, ((let s : State := rs.put F.SYS_MODE_STAT_POWER 2; let r : Fin 8 := 0; s.ringChan r)).get (by decide +kernel), (Option.some_get _).symm, ((let s : State := rs.put F.SYS_MODE_STAT_POWER 2; s.holdDue)).get (by decide +kernel), (Option.some_get _).symm⟩,
   ⟨rs, 0, ((let s : State := rs; let r : Fin 8 := 0; s.ringChan r)).get (by decide +kernel), (Option.some_get _).symm, by decide +kernel⟩,
   ⟨rs.put F.SYS_MODE_STAT_POWER 1, 0, ((let s : State := rs.put F.SYS_MODE_STAT_POWER 1; let r : Fin 8 := 0; s.ringChan r)).get (by decide +kernel), (Option.some_get _).symm, by decide +kernel⟩,
   ⟨rs, 0, ((let s : State := rs; let r : Fin 8 := 0; s.ringChan r)).get (by decide +kernel), (Option.some_get _).symm, by decide +kernel⟩,
   ⟨rs, 0, ((let s : State := rs; let r : Fin 8 := 0; s.ringChan r)).get (by decide +kernel), some 1, some 4, jr, 2, 3, ((let s : State := rs; let r : Fin 8 := 0; let even : Option Nat := some 1; let odd : Option Nat := some 4; (s.learnLength r even odd).positionOf r even odd)).get (by decide +kernel), (Option.some_get _).symm, by decide +kernel, (Option.some_get _).symm, by decide +kernel, by decide +kernel⟩,
   ⟨rs, 0, ((let s : State := rs; let r : Fin 8 := 0; s.ringChan r)).get (by decide +kernel), none, some 4, jr, 2, 3, (Option.some_get _).symm, by decide +kernel, by decide +kernel⟩,
   ⟨rs, 0, by decide +kernel, 7, 8, (0, 500), by decide +kernel, by decide +kernel⟩⟩

theorem test_meets_TelemetryTokens :
    (∃ (s : State), ∃ (r : Fin 8), ∃ (a : Nat), ∃ (even : Option Nat), ∃ (odd : Option Nat), ∃ (recs : List TelemRec), ∃ (b : Bool), s.joinedAt r a = none) ∧
    (∃ (s : State), ∃ (r : Fin 8), ∃ (c : Chan), ∃ (j : Joined), ∃ (a : Nat), ∃ (even : Option Nat), ∃ (odd : Option Nat), ∃ (recs : List TelemRec), s.ringChan r = some c ∧ s.joinedAt r a = some j) ∧
    (∃ (s : State), ∃ (r : Fin 8), ∃ (a : Nat), ∃ (b : Bool), ∃ (j : Joined), s.joinedAt r a = some j ∧ (if b then j.odd else j.even) = none) ∧
    (∃ (s : State), ∃ (r : Fin 8), ∃ (a : Nat), ∃ (t : Nat), ∃ (b : Bool), ∃ (j : Joined), s.joinedAt r a = some j ∧ (if b then j.odd else j.even) = some t) :=
  ⟨⟨rs, 0, 9, some 1, none, [], true, by decide +kernel⟩,
   ⟨rs, 0, ((let s : State := rs; let r : Fin 8 := 0; s.ringChan r)).get (by decide +kernel), jd, 3, some 1, some 2, [.status 1 2 3 4 5 6 0 0, .temp 5 100, .join jr], (Option.some_get _).symm, by decide +kernel⟩,
   ⟨rs, 0, 3, true, ((let s : State := rs; let r : Fin 8 := 0; let a : Nat := 3; s.joinedAt r a)).get (by decide +kernel), (Option.some_get _).symm, by decide +kernel⟩,
   ⟨rs, 0, 3, 5, false, ((let s : State := rs; let r : Fin 8 := 0; let a : Nat := 3; s.joinedAt r a)).get (by decide +kernel), (Option.some_get _).symm, by decide +kernel⟩⟩

end C13

namespace C14
def st1 : Structure := { st0 with ports := [⟨16, 1, 16⟩, ⟨17, 1, 16⟩] }
def pw : State := withStr st1 warm
def mset : MasterSet := ⟨9, 1, 6, 0x21, 100, 1, 0⟩
def msg (b : PtpBody) : PtpMessage := ⟨127, 555, 0x0A000001, 44, b⟩
def pp (s : State) : State := { s with tim := { s.tim with parent := some (16, 555), ports := s.tim.ports.modify 16 (fun q => { q with sync := some (44, 700), dreq := some (44, 900), ms := some 33 }) } }
def gm : State := (pw.putFlag F.TIM_CTL_GM_EN true)
def g1 : State := withStr { st0 with ports := [⟨16, 1, 16⟩] } gm
def g2 : State := { g1 with tim := { g1.tim with ports := g1.tim.ports.modify 16 (fun q => { q with managed := some 7000000000 }) } }
def pl : StepPlan := ⟨1000, 5, 6, 8, false⟩
def d0 : State := pp pw

theorem test_meets_PtpMessages :
    (∃ (s : State), ∃ (p : Fin 19), ∃ (m : PtpMessage), (s.ptpActive p = false ∨ m.domain ≠ s.get F.TIM_PTP_CFG_DOMAIN)) ∧
    (∃ (s : State), ∃ (p : Fin 19), ∃ (m : PtpMessage), s.ptpActive p = true ∧ m.domain = s.get F.TIM_PTP_CFG_DOMAIN ∧ ∃ info, m.body = .announce info) ∧
    (∃ (s : State), ∃ (p : Fin 19), ∃ (m : PtpMessage), s.ptpActive p = true ∧ m.domain = s.get F.TIM_PTP_CFG_DOMAIN ∧ ∃ o, ∃ c, m.body = .sync false o c ∧ s.tim.parent = some (p.val, m.source)) ∧
    (∃ (s : State), ∃ (p : Fin 19), ∃ (m : PtpMessage), s.ptpActive p = true ∧ m.domain = s.get F.TIM_PTP_CFG_DOMAIN ∧ ∃ o, ∃ c, m.body = .sync true o c ∧ s.tim.parent = some (p.val, m.source)) ∧
    (∃ (s : State), ∃ (p : Fin 19), ∃ (m : PtpMessage), s.ptpActive p = true ∧ m.domain = s.get F.TIM_PTP_CFG_DOMAIN ∧ ∃ o, ∃ c, ∃ t2, m.body = .followUp o c ∧ s.tim.parent = some (p.val, m.source) ∧ (s.ptpPort p).sync = some (m.seq, t2)) ∧
    (∃ (s : State), ∃ (p : Fin 19), ∃ (m : PtpMessage), s.ptpActive p = true ∧ m.domain = s.get F.TIM_PTP_CFG_DOMAIN ∧ ∃ c, m.body = .delayReq c ∧ s.portState p = 6) ∧
    (∃ (s : State), ∃ (p : Fin 19), ∃ (m : PtpMessage), s.ptpActive p = true ∧ m.domain = s.get F.TIM_PTP_CFG_DOMAIN ∧ ∃ recv, ∃ c, ∃ ms, ∃ t3, m.body = .delayResp recv c (s.portId p) ∧ s.tim.parent = some (p.val, m.source) ∧ (s.ptpPort p).dreq = some (m.seq, t3) ∧ (s.ptpPort p).ms = some ms ∧ p.val < s.tim.ports.length) ∧
    (∃ (s : State), ∃ (p : Fin 19), ∃ (m : PtpMessage), s.ptpActive p = true ∧ m.domain = s.get F.TIM_PTP_CFG_DOMAIN ∧ s.tim.parent ≠ some (p.val, m.source) ∧ ((∃ b o c, m.body = .sync b o c) ∨ (∃ o c, m.body = .followUp o c))) ∧
    (∃ (s : State), ∃ (p : Fin 19), ∃ (m : PtpMessage), s.ptpActive p = true ∧ m.domain = s.get F.TIM_PTP_CFG_DOMAIN ∧ m.body = .other) ∧
    (∃ (s : State), s.masterPorts = []) ∧
    (∃ (s : State), ∃ (p : Nat), s.masterPorts = [p]) ∧
    (∃ (s : State), ∃ (p : Nat), ∃ (a : MasterSet), ∃ (u : Nat), s.masterPorts = [p] ∧ s.announced = some a) ∧
    (∃ (s : State), s.announced = none) ∧
    (∃ (s : State), s.tim.parent = none) ∧
    (∃ (s : State), ∃ (p : Nat), ∃ (src : Nat), s.tim.parent = some (p, src) ∧ s.ptpActive p = true) :=
  ⟨⟨warm, 3, msg .other, by decide +kernel⟩,
   ⟨pw, 16, msg (.announce mset), by decide +kernel, by decide +kernel, mset, by decide +kernel⟩,
   ⟨d0, 16, msg (.sync false 500 7), by decide +kernel, by decide +kernel, 500, 7, by decide +kernel, by decide +kernel⟩,
   ⟨d0, 16, msg (.sync true 500 7), by decide +kernel, by decide +kernel, 500, 7, by decide +kernel, by decide +kernel⟩,
   ⟨d0, 16, msg (.followUp 500 7), by decide +kernel, by decide +kernel, 500, 7, (((let s : State := d0; let p : Fin 19 := 16; (s.ptpPort p).sync)).get (by decide +kernel)).2, by decide +kernel, by decide +kernel, by decide +kernel⟩,
   ⟨gm, 16, msg (.delayReq 7), by decide +kernel, by decide +kernel, 7, by decide +kernel, by decide +kernel⟩,
   ⟨d0, 16, msg (.delayResp 5000 7 (pw.portId 16)), by decide +kernel, by decide +kernel, 5000, 7, ((let s : State := d0; let p : Fin 19 := 16; (s.ptpPort p).ms)).get (by decide +kernel), (((let s : State := d0; let p : Fin 19 := 16; (s.ptpPort p).dreq)).get (by decide +kernel)).2, by decide +kernel, by decide +kernel, by decide +kernel, (Option.some_get _).symm, by decide +kernel⟩,
   ⟨pw, 16, msg (.sync false 500 7), by decide +kernel, by decide +kernel, by decide +kernel, by first | exact .inl ⟨_, _, _, rfl⟩ | exact .inr ⟨_, _, rfl⟩⟩,
   ⟨pp pw, 16, msg .other, by decide +kernel, by decide +kernel, by decide +kernel⟩,
   ⟨warm, by decide +kernel⟩,
   ⟨g1, 16, by decide +kernel⟩,
   ⟨g2, 16, ((let s : State := g2; s.announced)).get (by decide +kernel), 7000000000, by decide +kernel, (Option.some_get _).symm⟩,
   ⟨warm, by decide +kernel⟩,
   ⟨warm, by decide +kernel⟩,
   ⟨pp pw, (((let s : State := pp pw; s.tim.parent)).get (by decide +kernel)).1, (((let s : State := pp pw; s.tim.parent)).get (by decide +kernel)).2, by decide +kernel, by decide +kernel⟩⟩

theorem test_meets_ShowClock :
    (∃ (s : State), (s.flag F.TIM_CTL_WCLK_EN = false ∨ s.tim.parent.isSome = true)) ∧
    (∃ (s : State), s.flag F.TIM_CTL_WCLK_EN = true ∧ s.tim.parent = none) ∧
    (∃ (s : State), s.get F.TIM_STAT_SRC ≠ 0 ∧ s.tim.parent = none) ∧
    (∃ (s : State), s.get F.TIM_STAT_SRC = 0 ∧ s.tim.parent = none) ∧
    (∃ (s : State), s.tim.slewAt = none) ∧
    (∃ (s : State), ∃ (u : Nat), s.tim.slewAt = some u) ∧
    (∃ (s : State), ∃ (p : StepPlan), s.tim.plan = some p ∧ p.done = false) ∧
    (∃ (s : State), (s.tim.plan.any (fun p => !p.done) = false)) ∧
    (∃ (s : State), s.get F.TIM_STAT_STATE = 0 ∧ s.power = 1 ∧ s.sys.started = true ∧ s.get R.TIM_SET_NS ≤ 999999999) ∧
    (∃ (s : State), (s.get F.TIM_STAT_STATE ≠ 0 ∨ s.power ≠ 1 ∨ s.sys.started = false ∨ 999999999 < s.get R.TIM_SET_NS)) ∧
    (∃ (s : State), ∃ (th : Int), s.tim.pending = some th) ∧
    (∃ (s : State), s.tim.pending = none) :=
  ⟨⟨warm, by decide +kernel⟩,
   ⟨warm.putFlag F.TIM_CTL_WCLK_EN true, by decide +kernel, by decide +kernel⟩,
   ⟨warm.put F.TIM_STAT_SRC 2, by decide +kernel, by decide +kernel⟩,
   ⟨warm, by decide +kernel, by decide +kernel⟩,
   ⟨warm, by decide +kernel⟩,
   ⟨{ warm with tim := { warm.tim with slewAt := some 0 } }, ((let s : State := { warm with tim := { warm.tim with slewAt := some 0 } }; s.tim.slewAt)).get (by decide +kernel), (Option.some_get _).symm⟩,
   ⟨{ shw with tim := { warm.tim with plan := some pl } }, ((let s : State := { shw with tim := { warm.tim with plan := some pl } }; s.tim.plan)).get (by decide +kernel), (Option.some_get _).symm, by decide +kernel⟩,
   ⟨warm, by decide +kernel⟩,
   ⟨(warm.put R.TIM_SET_S_LO 5000).put R.TIM_SET_NS 7, by decide +kernel, by decide +kernel, by decide +kernel, by decide +kernel⟩,
   ⟨shw, by decide +kernel⟩,
   ⟨{ warm with tim := { warm.tim with pending := some 99 } }, ((let s : State := { warm with tim := { warm.tim with pending := some 99 } }; s.tim.pending)).get (by decide +kernel), (Option.some_get _).symm⟩,
   ⟨warm, by decide +kernel⟩⟩

end C14

namespace C15
def st1 : Structure := { st0 with ports := [⟨0, 1, 7⟩, ⟨1, 1, 7⟩, ⟨16, 1, 16⟩] }
def lu (s : State) : State := ((withStr st1 s).putFlag F.NL_STAT_LINK true 1).put F.NET_STAT_LINK_UP 2
def fr (et : Nat) (n : Nat) : RxFrame := (fun b => ⟨b ++ leBytes 4 (etherFcs b), false, 0, 0⟩) ([255,255,255,255,255,255, 2,2,2,2,2,2] ++ beBytes 2 et ++ (List.replicate n 5).set 1 1)
def set (f : RxFrame) (s : State) := ((s.add R.NL_FEC_CORR f.fecCorr 2).add R.NL_FEC_UNCORR f.fecUncorr 2).settleLink 2
def st2 : Structure := { st0 with ports := [⟨0, 7, 1⟩, ⟨1, 7, 1⟩, ⟨2, 2, 4⟩, ⟨16, 1, 16⟩] }
def l2 (s : State) : State := ((withStr st2 s).putFlag F.NL_STAT_LINK true 2).put F.NET_STAT_LINK_UP 4
def bad : RxFrame := { fr 0x800 50 with codeBad := true }
def ml (f : Link → Link) (s : State) : State := { s with links := s.links.modify 1 f }
def gf (dst et : Nat) (b : List Nat) : RxFrame := (fun b => ⟨b ++ leBytes 4 (etherFcs b), false, 0, 0⟩) (beBytes 6 dst ++ [2,2,2,2,2,2] ++ beBytes 2 et ++ b)
def set1 (f : RxFrame) (s : State) := ((s.add R.NL_FEC_CORR f.fecCorr 1).add R.NL_FEC_UNCORR f.fecUncorr 1).settleLink 1
def body0 : List Nat := List.replicate 50 0
def mac1 : Nat := (lu warm).linkMac 1
def ring1 : Chan := chan kRing 2 [(0x0401, 0)]
def lr : State := lu (withChans [ring1] shw)
def fUn := gf mac1 0x1234 body0
def fOwn := gf 0x0344564C0000 ring1.ringEtype body0
def fFil := gf mac1 0x0800 ((body0.set 0 0x45).set 9 17)
def fArp := gf 0xFFFFFFFFFFFF 0x0806 body0

theorem test_meets_FramesPassTheSteps :
    (∃ (s : State), ∃ (l : Fin 25), ∃ (f : RxFrame), (s.dormant = true ∨ s.linkUp l = false)) ∧
    (∃ (s : State), ∃ (x : State), ∃ (u : State), ∃ (l : Fin 25), ∃ (f : RxFrame), s.dormant = false ∧ s.linkUp l = true ∧ s.flt.armed = none ∧ x = ((s.add R.NL_FEC_CORR f.fecCorr l).add R.NL_FEC_UNCORR f.fecUncorr l).settleLink l ∧ (u = (if l.val = 24 ∧ (x.wakeMatch f).isSome = true then x.bump F.NET_WAKE_STAT_SEEN else x)) ∧ f.flags ≠ 0) ∧
    (∃ (s : State), ∃ (x : State), ∃ (u : State), ∃ (l : Fin 25), ∃ (f : RxFrame), s.dormant = false ∧ s.linkUp l = true ∧ s.flt.armed = none ∧ x = ((s.add R.NL_FEC_CORR f.fecCorr l).add R.NL_FEC_UNCORR f.fecUncorr l).settleLink l ∧ (u = (if l.val = 24 ∧ (x.wakeMatch f).isSome = true then x.bump F.NET_WAKE_STAT_SEEN else x)) ∧ f.flags = 0 ∧ f.etype = 0x8808) ∧
    (∃ (s : State), ∃ (x : State), ∃ (u : State), ∃ (l : Fin 25), ∃ (f : RxFrame), s.dormant = false ∧ s.linkUp l = true ∧ s.flt.armed = none ∧ x = ((s.add R.NL_FEC_CORR f.fecCorr l).add R.NL_FEC_UNCORR f.fecUncorr l).settleLink l ∧ (u = (if l.val = 24 ∧ (x.wakeMatch f).isSome = true then x.bump F.NET_WAKE_STAT_SEEN else x)) ∧ f.flags = 0 ∧ f.etype ≠ 0x8808 ∧ u.strainerPass l f = false) ∧
    (∃ (s : State), ∃ (x : State), ∃ (u : State), ∃ (l : Fin 25), ∃ (f : RxFrame), s.dormant = false ∧ s.linkUp l = true ∧ s.flt.armed = none ∧ x = ((s.add R.NL_FEC_CORR f.fecCorr l).add R.NL_FEC_UNCORR f.fecUncorr l).settleLink l ∧ (u = (if l.val = 24 ∧ (x.wakeMatch f).isSome = true then x.bump F.NET_WAKE_STAT_SEEN else x)) ∧ f.flags = 0 ∧ f.etype ≠ 0x8808 ∧ u.strainerPass l f = true ∧ u.claim l f = .unclaimed) ∧
    (∃ (s : State), ∃ (x : State), ∃ (u : State), ∃ (l : Fin 25), ∃ (f : RxFrame), s.dormant = false ∧ s.linkUp l = true ∧ s.flt.armed = none ∧ x = ((s.add R.NL_FEC_CORR f.fecCorr l).add R.NL_FEC_UNCORR f.fecUncorr l).settleLink l ∧ (u = (if l.val = 24 ∧ (x.wakeMatch f).isSome = true then x.bump F.NET_WAKE_STAT_SEEN else x)) ∧ f.flags = 0 ∧ f.etype ≠ 0x8808 ∧ u.strainerPass l f = true ∧ u.claim l f = .ownCopy) ∧
    (∃ (s : State), ∃ (x : State), ∃ (u : State), ∃ (l : Fin 25), ∃ (f : RxFrame), s.dormant = false ∧ s.linkUp l = true ∧ s.flt.armed = none ∧ x = ((s.add R.NL_FEC_CORR f.fecCorr l).add R.NL_FEC_UNCORR f.fecUncorr l).settleLink l ∧ (u = (if l.val = 24 ∧ (x.wakeMatch f).isSome = true then x.bump F.NET_WAKE_STAT_SEEN else x)) ∧ f.flags = 0 ∧ f.etype ≠ 0x8808 ∧ u.strainerPass l f = true ∧ u.claim l f = .filtered) ∧
    (∃ (s : State), ∃ (x : State), ∃ (u : State), ∃ (l : Fin 25), ∃ (f : RxFrame), s.dormant = false ∧ s.linkUp l = true ∧ s.flt.armed = none ∧ x = ((s.add R.NL_FEC_CORR f.fecCorr l).add R.NL_FEC_UNCORR f.fecUncorr l).settleLink l ∧ (u = (if l.val = 24 ∧ (x.wakeMatch f).isSome = true then x.bump F.NET_WAKE_STAT_SEEN else x)) ∧ f.flags = 0 ∧ f.etype ≠ 0x8808 ∧ u.strainerPass l f = true ∧ u.claim l f = .taken) ∧
    (∃ (s : State), ∃ (l : Fin 25), ∃ (f : RxFrame), s.flag F.NL_CTL_ERR_DELIVER l = false ∧ s.hasRole (linkPort l) 1 = false ∧ f.codeBad = true) ∧
    (∃ (s : State), ∃ (l : Fin 25), ∃ (f : RxFrame), s.flag F.NL_CTL_ERR_DELIVER l = false ∧ s.hasRole (linkPort l) 1 = false ∧ f.codeBad = false ∧ f.bytes.length < 64) ∧
    (∃ (s : State), ∃ (l : Fin 25), ∃ (f : RxFrame), s.flag F.NL_CTL_ERR_DELIVER l = false ∧ s.hasRole (linkPort l) 1 = false ∧ f.codeBad = false ∧ 9216 < f.bytes.length) ∧
    (∃ (s : State), ∃ (l : Fin 25), ∃ (f : RxFrame), s.flag F.NL_CTL_ERR_DELIVER l = false ∧ s.hasRole (linkPort l) 1 = false ∧ f.codeBad = false ∧ 64 ≤ f.bytes.length ∧ f.bytes.length ≤ 9216) :=
  ⟨⟨warm, 1, fr 0x800 50, by decide +kernel⟩,
   ⟨l2 warm, set bad (l2 warm), set bad (l2 warm), 2, bad, by decide +kernel, by decide +kernel, by decide +kernel, by decide +kernel, by decide +kernel, by decide +kernel⟩,
   ⟨l2 warm, set (fr 0x8808 50) (l2 warm), set (fr 0x8808 50) (l2 warm), 2, fr 0x8808 50, by decide +kernel, by decide +kernel, by decide +kernel, by decide +kernel, by decide +kernel, by decide +kernel, by decide +kernel⟩,
   ⟨l2 warm, set (fr 0x800 50) (l2 warm), set (fr 0x800 50) (l2 warm), 2, fr 0x800 50, by decide +kernel, by decide +kernel, by decide +kernel, by decide +kernel, by decide +kernel, by decide +kernel, by decide +kernel, by decide +kernel⟩,
   ⟨lu warm, set1 fUn (lu warm), set1 fUn (lu warm), 1, fUn, by decide +kernel, by decide +kernel, by decide +kernel, by decide +kernel, by decide +kernel, by decide +kernel, by decide +kernel, by decide +kernel, by decide +kernel⟩,
   ⟨lr, set1 fOwn lr, set1 fOwn lr, 1, fOwn, by decide +kernel, by decide +kernel, by decide +kernel, by decide +kernel, by decide +kernel, by decide +kernel, by decide +kernel, by decide +kernel, by decide +kernel⟩,
   ⟨lu warm, set1 fFil (lu warm), set1 fFil (lu warm), 1, fFil, by decide +kernel, by decide +kernel, by decide +kernel, by decide +kernel, by decide +kernel, by decide +kernel, by decide +kernel, by decide +kernel, by decide +kernel⟩,
   ⟨lu warm, set1 fArp (lu warm), set1 fArp (lu warm), 1, fArp, by decide +kernel, by decide +kernel, by decide +kernel, by decide +kernel, by decide +kernel, by decide +kernel, by decide +kernel, by decide +kernel, by decide +kernel⟩,
   ⟨l2 warm, 2, bad, by decide +kernel, by decide +kernel, by decide +kernel⟩,
   ⟨l2 warm, 2, fr 0x800 5, by decide +kernel, by decide +kernel, by decide +kernel, by decide +kernel⟩,
   ⟨l2 warm, 2, fr 0x800 9300, by decide +kernel, by decide +kernel, by decide +kernel, by decide +kernel⟩,
   ⟨l2 warm, 2, fr 0x800 50, by decide +kernel, by decide +kernel, by decide +kernel, by decide +kernel, by decide +kernel⟩⟩

theorem test_meets_LinksAndArp :
    (∃ (s : State), ∃ (l : Fin 25), ∃ (cause : Nat), s.linkUp l = true) ∧
    (∃ (s : State), ∃ (l : Fin 25), ∃ (cause : Nat), s.linkUp l = false) ∧
    (∃ (s : State), ∃ (l : Fin 25), (s.linkUp l = true ∨ s.flag F.NL_CTL_HOLD_DOWN l = true ∨ s.linkExists l = false ∨ s.dormant = true)) ∧
    (∃ (s : State), ∃ (l : Fin 25), s.linkUp l = false ∧ s.flag F.NL_CTL_HOLD_DOWN l = false ∧ s.linkExists l = true ∧ s.dormant = false) ∧
    (∃ (s : State), ∃ (l : Fin 25), ∃ (w : Nat), ∃ (h : Nat), l.val < s.links.length) ∧
    (∃ (s : State), ∃ (l : Fin 25), ∃ (w : Nat), ∃ (h : Nat), ∃ (before : Nat), (s.linkAt l).retrain = some before ∧ l.val < s.links.length) ∧
    (∃ (s : State), ∃ (l : Fin 25), ∃ (w : Nat), ∃ (h : Nat), (s.linkAt l).retrain = none) ∧
    (∃ (s : State), ∃ (l : Fin 25), ∃ (t0 : Nat), (s.linkAt l).heldFrom = some t0 ∧ (s.linkAt l).queue ≠ [] ∧ t0 + s.wdogNs l ≤ s.holdEnd l) ∧
    (∃ (s : State), ∃ (l : Fin 25), s.flag F.NL_STAT_PAUSE_IGNORED l = true) ∧
    (∃ (s : State), ∃ (l : Fin 25), ∃ (ip : Nat), ∃ (w : ArpWait), ((s.linkAt l).arpWait.find? (fun w => w.ip == ip) = some w) ∧ w.unresolved = false ∧ l.val < s.links.length) ∧
    (∃ (s : State), ∃ (l : Fin 25), ∃ (ip : Nat), ∃ (a : ArpEntry), ((s.linkAt l).arp.find? (fun a => a.ip == ip) = some a) ∧ l.val < s.links.length) ∧
    (∃ (s : State), ∃ (l : Fin 25), ∃ (ip : Nat), ((s.linkAt l).arpWait.find? (fun w => w.ip == ip) = none) ∧ ((s.linkAt l).arp.any (fun a => a.ip == ip && decide (a.until_ ≤ s.uptime + 10 * oneSecond)) = true)) ∧
    (∃ (s : State), ∃ (l : Fin 25), ∃ (e : Fin 64), ∃ (w : Word), s.exactOwner l e = 1) ∧
    (∃ (s : State), ∃ (l : Fin 25), ∃ (e : Fin 64), ∃ (w : Word), s.exactOwner l e ≠ 1 ∧ bitAt w.toNat 16 = true ∧ l.val < s.links.length) ∧
    (∃ (s : State), ∃ (l : Fin 25), ∃ (e : Fin 64), ∃ (w : Word), s.exactOwner l e = 2 ∧ bitAt w.toNat 16 = false ∧ l.val < s.links.length) ∧
    (∃ (s : State), ∃ (l : Fin 25), ∃ (e : Fin 64), ∃ (w : Word), s.exactOwner l e ≠ 1 ∧ s.exactOwner l e ≠ 2 ∧ bitAt w.toNat 16 = false) :=
  ⟨⟨lu warm, 1, 3, by decide +kernel⟩,
   ⟨warm, 1, 3, by decide +kernel⟩,
   ⟨lu warm, 1, by decide +kernel⟩,
   ⟨withStr st1 warm, 1, by decide +kernel, by decide +kernel, by decide +kernel, by decide +kernel⟩,
   ⟨lu warm, 1, 3, 4, by decide +kernel⟩,
   ⟨ml (fun x => { x with retrain := some 0x50006 }) (lu warm), 1, 3, 4, ((let s : State := ml (fun x => { x with retrain := some 0x50006 }) (lu warm); let l : Fin 25 := 1; (s.linkAt l).retrain)).get (by decide +kernel), (Option.some_get _).symm, by decide +kernel⟩,
   ⟨lu warm, 1, 3, 4, by decide +kernel⟩,
   ⟨ml (fun x => { x with heldFrom := some 0, queue := [⟨0, [1], none⟩], pauseUntil := 10 ^ 12 }) (lu warm), 1, ((let s : State := ml (fun x => { x with heldFrom := some 0, queue := [⟨0, [1], none⟩], pauseUntil := 10 ^ 12 }) (lu warm); let l : Fin 25 := 1; (s.linkAt l).heldFrom)).get (by decide +kernel), (Option.some_get _).symm, by decide +kernel, by decide +kernel⟩,
   ⟨(lu warm).putFlag F.NL_STAT_PAUSE_IGNORED true 1, 1, by decide +kernel⟩,
   ⟨ml (fun x => { x with arpWait := [⟨5, 7, 7, [], false⟩] }) (lu warm), 1, 5, ((let s : State := ml (fun x => { x with arpWait := [⟨5, 7, 7, [], false⟩] }) (lu warm); let l : Fin 25 := 1; let ip : Nat := 5; (s.linkAt l).arpWait.find? (fun w => w.ip == ip))).get (by decide +kernel), (Option.some_get _).symm, by decide +kernel, by decide +kernel⟩,
   ⟨ml (fun x => { x with arp := [⟨5, 7, 7⟩] }) (lu warm), 1, 5, ((let s : State := ml (fun x => { x with arp := [⟨5, 7, 7⟩] }) (lu warm); let l : Fin 25 := 1; let ip : Nat := 5; (s.linkAt l).arp.find? (fun a => a.ip == ip))).get (by decide +kernel), (Option.some_get _).symm, by decide +kernel⟩,
   ⟨ml (fun x => { x with arp := [⟨5, 7, 7⟩] }) (lu warm), 1, 5, by decide +kernel, by decide +kernel⟩,
   ⟨(lu warm).put F.NS_EXACT_HI_OWNER 1 (exactIx 1 7), 1, 7, 0x11234, by decide +kernel⟩,
   ⟨lu warm, 1, 7, 0x11234, by decide +kernel, by decide +kernel, by decide +kernel⟩,
   ⟨(lu warm).put F.NS_EXACT_HI_OWNER 2 (exactIx 1 7), 1, 7, 0x1234, by decide +kernel, by decide +kernel, by decide +kernel⟩,
   ⟨lu warm, 1, 7, 0x1234, by decide +kernel, by decide +kernel, by decide +kernel⟩⟩

end C15

namespace C16
def it (n : Nat) (ph : ItemPhase) : Item := { newItem n 255 false with len := 64, phase := ph }
def P (num role : Nat) (items : List Item) (f : Pail → Pail := id) : Pail := f { pail0 num role with items := items }
def W (l : List Pail) : State := withStr st0 (withPails l warm)
def rdy := it 3 .ready
def rsv := it 4 .reserved
def full := [rdy, it 4 .ready, rsv, it 6 .reserved]
def P0 (items : List Item) : State := W [P 5 0 items]
def td (k : Nat) (ph : ItemPhase := .ready) (n := 3) : Item := { it n ph with task := some ⟨k, false, false, 0, 0, 0, 0, 0⟩ }
def run (s : State) : State := s.put F.CE_STAT_STATE 2 3
def D1 : State := run <| W [P 5 2 [td 1]]
def D2 : State := run <| W [P 5 2 [td 1 (.inService 3)]]

theorem test_meets_PailProducers :
    (∃ (s : State), ∃ (p : Fin 256), ∃ (who : Nat), ∃ (q : Pail), s.pail p = some q ∧ 2 ≤ q.role ∧ q.items.length < q.depth) ∧
    (∃ (s : State), ∃ (p : Fin 256), ∃ (who : Nat), ∃ (q : Pail), s.pail p = some q ∧ q.role = 2 ∧ q.depth ≤ q.items.length) ∧
    (∃ (s : State), ∃ (p : Fin 256), ∃ (who : Nat), ∃ (q : Pail), s.pail p = some q ∧ (q.role = 3 ∨ q.role = 4) ∧ q.depth ≤ q.items.length ∧ q.items ≠ [] ∧ q.popping = none) ∧
    (∃ (s : State), ∃ (p : Fin 256), ∃ (who : Nat), ∃ (seq : Nat), ∃ (bytes : List Nat), ((s.pail p).any (fun q => decide (2 ≤ q.role)) = false)) ∧
    (∃ (s : State), ∃ (p : Fin 256), ∃ (seq : Nat), ∃ (bytes : List Nat), ∃ (q : Pail), s.pail p = some q ∧ 2 ≤ q.role ∧ reservedAt q seq = none) ∧
    (∃ (s : State), ∃ (p : Fin 256), ∃ (seq : Nat), ∃ (k : Nat), ∃ (bytes : List Nat), ∃ (q : Pail), s.pail p = some q ∧ q.role = 4 ∧ q.waitPop = [] ∧ reservedAt q seq = some k) ∧
    (∃ (s : State), ∃ (p : Fin 256), ∃ (q : Pail), ∃ (since : Nat), s.pail p = some q ∧ q.stalled = some since ∧ q.items.length < q.depth) ∧
    (∃ (s : State), ∃ (p : Fin 256), ((s.pail p).any (fun q => q.stalled.isSome && decide (q.items.length < q.depth)) = false)) ∧
    (∃ (s : State), ∃ (p : Fin 16), ∃ (q : Pail), s.pail p = some q ∧ q.items = []) ∧
    (∃ (s : State), ∃ (p : Fin 16), ∃ (q : Pail), ∃ (i : Item), ∃ (l : List Item), s.pail p = some q ∧ q.items = i :: l ∧ i.phase = .reserved) ∧
    (∃ (s : State), ∃ (p : Fin 16), ∃ (q : Pail), ∃ (i : Item), ∃ (l : List Item), s.pail p = some q ∧ q.items = i :: l ∧ i.phase = .ready ∧ s.flt.armed = none) :=
  ⟨⟨W [P 5 2 []], 5, 7, ((let s : State := W [P 5 2 []]; let p : Fin 256 := 5; s.pail p)).get (by decide +kernel), (Option.some_get _).symm, by decide +kernel, by decide +kernel⟩,
   ⟨W [P 5 2 full], 5, 7, ((let s : State := W [P 5 2 full]; let p : Fin 256 := 5; s.pail p)).get (by decide +kernel), (Option.some_get _).symm, by decide +kernel, by decide +kernel⟩,
   ⟨W [P 5 3 full], 5, 7, ((let s : State := W [P 5 3 full]; let p : Fin 256 := 5; s.pail p)).get (by decide +kernel), (Option.some_get _).symm, by decide +kernel, by decide +kernel, by decide +kernel, by decide +kernel⟩,
   ⟨W [P 5 1 full], 5, 7, 8, [1,2], by decide +kernel⟩,
   ⟨W [P 5 2 [rdy]], 5, 7, [1,2], ((let s : State := W [P 5 2 [rdy]]; let p : Fin 256 := 5; s.pail p)).get (by decide +kernel), (Option.some_get _).symm, by decide +kernel, by decide +kernel⟩,
   ⟨W [P 5 4 [rdy, rsv]], 5, 4, 1, [1,2], ((let s : State := W [P 5 4 [rdy, rsv]]; let p : Fin 256 := 5; s.pail p)).get (by decide +kernel), (Option.some_get _).symm, by decide +kernel, by decide +kernel, by decide +kernel⟩,
   ⟨W [P 5 2 [rsv] (fun q => { q with stalled := some 3 })], 5, ((let s : State := W [P 5 2 [rsv] (fun q => { q with stalled := some 3 })]; let p : Fin 256 := 5; s.pail p)).get (by decide +kernel), ((let q : Pail := ((let s : State := W [P 5 2 [rsv] (fun q => { q with stalled := some 3 })]; let p : Fin 256 := 5; s.pail p)).get (by decide +kernel); q.stalled)).get (by decide +kernel), (Option.some_get _).symm, (Option.some_get _).symm, by decide +kernel⟩,
   ⟨W [P 5 2 [rsv]], 5, by decide +kernel⟩,
   ⟨W [P 5 4 []], 5, ((let s : State := W [P 5 4 []]; let p : Fin 16 := 5; s.pail p)).get (by decide +kernel), (Option.some_get _).symm, by decide +kernel⟩,
   ⟨W [P 5 4 [rsv, rdy]], 5, ((let s : State := W [P 5 4 [rsv, rdy]]; let p : Fin 16 := 5; s.pail p)).get (by decide +kernel), rsv, [rdy], (Option.some_get _).symm, by decide +kernel, by decide +kernel⟩,
   ⟨W [P 5 4 [rdy, rdy]], 5, ((let s : State := W [P 5 4 [rdy, rdy]]; let p : Fin 16 := 5; s.pail p)).get (by decide +kernel), rdy, [rdy], (Option.some_get _).symm, by decide +kernel, by decide +kernel, by decide +kernel⟩⟩

theorem test_meets_PailConsumers :
    (∃ (s : State), ∃ (p : Fin 256), ∃ (w : Nat), ∃ (q : Pail), s.pail p = some q ∧ q.role = 0) ∧
    (∃ (s : State), ∃ (p : Fin 256), ∃ (w : Nat), ∃ (q : Pail), s.pail p = some q ∧ (q.role = 1 ∨ q.role = 3) ∧ w < 2 * q.depth ∧ fillOf q.depth w (s.plRd p) ≤ s.fill q ∧ q.popping = none) ∧
    (∃ (s : State), ∃ (p : Fin 256), ∃ (w : Nat), s.pail p = none) ∧
    (∃ (s : State), ∃ (p : Fin 256), ∃ (who : Initiator), ∃ (q : Pail), s.flt.armed = none ∧ s.pail p = some q ∧ (q.items.head?.all (fun i => decide (i.phase ≠ .void)) = true) ∧ q.role ≠ 1 ∧ q.role ≠ 3) ∧
    (∃ (s : State), ∃ (p : Fin 256), ∃ (who : Initiator), ∃ (q : Pail), s.flt.armed = none ∧ s.pail p = some q ∧ (q.items.head?.all (fun i => decide (i.phase ≠ .void)) = true) ∧ (q.role = 1 ∨ q.role = 3) ∧ (q.popping.all (fun c => decide (c.who = who)) = true) ∧ ∃ pos, ∃ v, s.popPeek q = some (pos, v)) ∧
    (∃ (s : State), ∃ (p : Fin 256), ∃ (who : Initiator), ∃ (q : Pail), s.flt.armed = none ∧ s.pail p = some q ∧ (q.items.head?.all (fun i => decide (i.phase ≠ .void)) = true) ∧ (q.role = 1 ∨ q.role = 3) ∧ (q.popping.all (fun c => decide (c.who = who)) = true) ∧ s.popPeek q = none ∧ s.popWait = 0) ∧
    (∃ (s : State), ∃ (p : Fin 256), ∃ (who : Initiator), ∃ (q : Pail), s.flt.armed = none ∧ s.pail p = some q ∧ (q.items.head?.all (fun i => decide (i.phase ≠ .void)) = true) ∧ (q.role = 1 ∨ q.role = 3) ∧ (q.popping.all (fun c => decide (c.who = who)) = true) ∧ s.popPeek q = none ∧ s.popWait ≠ 0) ∧
    (∃ (s : State), ∃ (p : Fin 256), ∃ (q : Pail), ∃ (w : Initiator × Nat), ∃ (l : List (Initiator × Nat)), s.pail p = some q ∧ q.waitPop = w :: l) ∧
    (∃ (s : State), ∃ (p : Fin 256), ∃ (q : Pail), s.pail p = some q ∧ q.role = 2 ∧ s.power ≠ 1) ∧
    (∃ (s : State), ∃ (p : Fin 256), ∃ (q : Pail), s.pail p = some q ∧ q.role ≠ 2 ∧ q.popping = none) :=
  ⟨⟨P0 [], 5, 9, ((let s : State := P0 []; let p : Fin 256 := 5; s.pail p)).get (by decide +kernel), (Option.some_get _).symm, by decide +kernel⟩,
   ⟨(W [P 5 1 [rdy]]).put F.PL_WR_VALUE 1 5, 5, 1, ((let s : State := (W [P 5 1 [rdy]]).put F.PL_WR_VALUE 1 5; let p : Fin 256 := 5; s.pail p)).get (by decide +kernel), (Option.some_get _).symm, by decide +kernel, by decide +kernel, by decide +kernel, by decide +kernel⟩,
   ⟨warm, 5, 9, by decide +kernel⟩,
   ⟨W [P 5 0 [rdy]], 5, .mc0, ((let s : State := W [P 5 0 [rdy]]; let p : Fin 256 := 5; s.pail p)).get (by decide +kernel), by decide +kernel, (Option.some_get _).symm, by decide +kernel, by decide +kernel, by decide +kernel⟩,
   ⟨W [P 5 1 [rdy]], 5, .mc0, ((let s : State := W [P 5 1 [rdy]]; let p : Fin 256 := 5; s.pail p)).get (by decide +kernel), by decide +kernel, (Option.some_get _).symm, by decide +kernel, by decide +kernel, by decide +kernel, (((let s : State := W [P 5 1 [rdy]]; let q : Pail := ((let s : State := W [P 5 1 [rdy]]; let p : Fin 256 := 5; s.pail p)).get (by decide +kernel); s.popPeek q)).get (by decide +kernel)).1, (((let s : State := W [P 5 1 [rdy]]; let q : Pail := ((let s : State := W [P 5 1 [rdy]]; let p : Fin 256 := 5; s.pail p)).get (by decide +kernel); s.popPeek q)).get (by decide +kernel)).2, by decide +kernel⟩,
   ⟨W [P 5 1 []], 5, .mc0, ((let s : State := W [P 5 1 []]; let p : Fin 256 := 5; s.pail p)).get (by decide +kernel), by decide +kernel, (Option.some_get _).symm, by decide +kernel, by decide +kernel, by decide +kernel, by decide +kernel, by decide +kernel⟩,
   ⟨(W [P 5 1 []]).put F.PAIL_CTL_POP_WAIT 4, 5, .mc0, ((let s : State := (W [P 5 1 []]).put F.PAIL_CTL_POP_WAIT 4; let p : Fin 256 := 5; s.pail p)).get (by decide +kernel), by decide +kernel, (Option.some_get _).symm, by decide +kernel, by decide +kernel, by decide +kernel, by decide +kernel, by decide +kernel⟩,
   ⟨W [P 5 1 [] (fun q => { q with waitPop := [(.mc0, 44), (.host, 55)] })], 5, ((let s : State := W [P 5 1 [] (fun q => { q with waitPop := [(.mc0, 44), (.host, 55)] })]; let p : Fin 256 := 5; s.pail p)).get (by decide +kernel), (.mc0, 44), [(.host, 55)], (Option.some_get _).symm, by decide +kernel⟩,
   ⟨(W [P 5 2 [rdy]]).put F.SYS_MODE_STAT_POWER 2, 5, ((let s : State := (W [P 5 2 [rdy]]).put F.SYS_MODE_STAT_POWER 2; let p : Fin 256 := 5; s.pail p)).get (by decide +kernel), (Option.some_get _).symm, by decide +kernel, by decide +kernel⟩,
   ⟨W [P 5 1 [rdy, rsv]], 5, ((let s : State := W [P 5 1 [rdy, rsv]]; let p : Fin 256 := 5; s.pail p)).get (by decide +kernel), (Option.some_get _).symm, by decide +kernel, by decide +kernel⟩⟩

theorem test_meets_DispatchAndCompletion :
    (∃ (s : State), ∃ (e : Fin 12), ∃ (g : Option Nat), s.flt.armed = none) ∧
    (∃ (s : State), ∃ (e : Fin 12), ∃ (p : Fin 256), ∃ (seq : Nat), ∃ (use : ItemUse), (((s.pail p).bind (fun q => q.items.find? (fun i => i.seq == seq && decide (i.phase = .inService e) && !i.stuck))) = none)) ∧
    (∃ (s : State), ∃ (e : Fin 12), ∃ (p : Fin 256), ∃ (seq : Nat), ∃ (use : ItemUse), ∃ (q : Pail), ∃ (i : Item), ∃ (d : TaskDesc), s.pail p = some q ∧ (q.items.find? (fun i => i.seq == seq && decide (i.phase = .inService e) && !i.stuck) = some i) ∧ i.task = some d) :=
  ⟨⟨D1, 3, none, by decide +kernel⟩,
   ⟨D1, 3, 5, 3, ⟨100, [(0, 1)], [(0, 2)]⟩, by decide +kernel⟩,
   ⟨D2, 3, 5, 3, ⟨100, [(0, 1)], [(0, 2)]⟩, ((let s : State := D2; let p : Fin 256 := 5; s.pail p)).get (by decide +kernel), ((let e : Fin 12 := 3; let seq : Nat := 3; let q : Pail := ((let s : State := D2; let p : Fin 256 := 5; s.pail p)).get (by decide +kernel); q.items.find? (fun i => i.seq == seq && decide (i.phase = .inService e) && !i.stuck))).get (by decide +kernel), ((let i : Item := ((let e : Fin 12 := 3; let seq : Nat := 3; let q : Pail := ((let s : State := D2; let p : Fin 256 := 5; s.pail p)).get (by decide +kernel); q.items.find? (fun i => i.seq == seq && decide (i.phase = .inService e) && !i.stuck))).get (by decide +kernel); i.task)).get (by decide +kernel), (Option.some_get _).symm, (Option.some_get _).symm, (Option.some_get _).symm⟩⟩

end C16

namespace C17


theorem test_meets_HandleLayout :
    (∃ (kind : Nat), ∃ (gen : Nat), ∃ (index : Nat), kind < 64 ∧ gen < 256 ∧ index < 262144) ∧
    (∃ (h : Nat), h < 2 ^ 32) :=
  ⟨⟨63, 255, 262143, by decide +kernel, by decide +kernel, by decide +kernel⟩,
   ⟨0xFFFFFFFF, by decide +kernel⟩⟩

theorem test_meets_LowReadLatchesHigh :
    (∃ row, row ∈ loPairs ∧ ∃ (i : Nat), ∃ (lo : Nat), ∃ (s : State), ∃ (t : State), ∃ (who : Initiator), ∃ (other : Initiator), i < row.2.2 ∧ lo = row.1 + i * row.2.1 ∧ s.unboundPail lo = false ∧ (s.hiLatch.all (fun q => q.1 != lo) = true) ∧ t.hiLatch = (s.readReg who lo).2.hiLatch ∧ t.unboundPail lo = false) :=
  ⟨(loPairs.headD (0, 0, 0)), by decide +kernel, 0, _, warm, { warm with hiLatch := (warm.readReg .host (loPairs.headD (0, 0, 0)).1).2.hiLatch }, .host, .mc0, by decide +kernel, rfl, by decide +kernel, by decide +kernel, by decide +kernel, by decide +kernel⟩

theorem test_meets_Bar0Accesses :
    (∃ (s : State), ∃ (a : Nat), ∃ (len : Nat), ∃ (bytes : List Nat), s.power = 0 ∧ s.pwr.waking = none) ∧
    (∃ (s : State), ∃ (a : Nat), ∃ (len : Nat), ∃ (bytes : List Nat), (s.power ≠ 0 ∨ s.pwr.waking ≠ none) ∧ s.host.d3hot = true) ∧
    (∃ (s : State), ∃ (who : Initiator), ∃ (a : Nat), ∃ (len : Nat), ∃ (bytes : List Nat), ((s.power ≠ 0 ∨ s.pwr.waking ≠ none) ∧ s.host.d3hot = false ∨ who ≠ .host) ∧ s.flt.armed = none ∧ widthOk a bytes.length = true ∧ s.domainOff (domainOf a) = false ∧ named a = false) ∧
    (∃ (s : State), ∃ (who : Initiator), ∃ (a : Nat), ∃ (len : Nat), ∃ (bytes : List Nat), ((s.power ≠ 0 ∨ s.pwr.waking ≠ none) ∧ s.host.d3hot = false ∨ who ≠ .host) ∧ s.flt.armed = none ∧ widthOk a len = true ∧ s.domainOff (domainOf a) = false ∧ named a = false) ∧
    (∃ (s : State), ∃ (who : Initiator), ∃ (a : Nat), ∃ (len : Nat), ∃ (bytes : List Nat), ((s.power ≠ 0 ∨ s.pwr.waking ≠ none) ∧ s.host.d3hot = false ∨ who ≠ .host) ∧ s.flt.armed = none ∧ s.access who a bytes.length = .own ∧ inMsixTable a = false ∧ inPba a = false ∧ inSpan a pailWindow 0x200000 = false) ∧
    (∃ (s : State), ∃ (who : Initiator), ∃ (a : Nat), ∃ (len : Nat), ∃ (bytes : List Nat), ((s.power ≠ 0 ∨ s.pwr.waking ≠ none) ∧ s.host.d3hot = false ∨ who ≠ .host) ∧ s.flt.armed = none ∧ s.access who a len = .own ∧ inSpan a 0xF1000 0x4000 = false ∧ isRc a = false ∧ inMsixTable a = false ∧ inPba a = false ∧ inSpan a pailWindow 0x200000 = false) :=
  ⟨⟨dorm, 0x104, 4, [1,2,3,4], by decide +kernel, by decide +kernel⟩,
   ⟨{ warm with host := { warm.host with d3hot := true } }, 0x104, 4, [1,2,3,4], by decide +kernel, by decide +kernel⟩,
   ⟨warm, .mc0, 0xFFFF0, 4, [1,2,3,4], by decide +kernel, by decide +kernel, by decide +kernel, by decide +kernel, by decide +kernel⟩,
   ⟨warm, .mc0, 0xFFFF0, 4, [1,2,3,4], by decide +kernel, by decide +kernel, by decide +kernel, by decide +kernel, by decide +kernel⟩,
   ⟨warm, .host, 0x8, 4, [1,2,3,4], by decide +kernel, by decide +kernel, by decide +kernel, by decide +kernel, by decide +kernel, by decide +kernel⟩,
   ⟨warm, .host, 0x8, 4, [1,2,3,4], by decide +kernel, by decide +kernel, by decide +kernel, by decide +kernel, by decide +kernel, by decide +kernel, by decide +kernel, by decide +kernel⟩⟩

theorem test_meets_RegisterAccessTypes :
    (∃ (s : State), ∃ (a : Nat), ∃ (v : Nat), ∃ (d : RegDesc), findReg a = some d ∧ s.refusedFields a v d.fields = [] ∧ (∀ f ∈ d.fields, f.cls ≠ .f) ∧ v < 2 ^ 32 ∧ (∃ b, b ≠ a) ∧ (∃ f, f ∈ d.fields ∧ ∃ k, f.lo ≤ k ∧ k < f.lo + f.width ∧ f.access = .rw) ∧ (∃ k, ∀ f ∈ d.fields, ¬ (f.lo ≤ k ∧ k < f.lo + f.width))) ∧
    (∃ (s : State), ∃ (a : Nat), ∃ (v : Nat), ∃ (d : RegDesc), findReg a = some d ∧ s.refusedFields a v d.fields = [] ∧ (∀ f ∈ d.fields, f.cls ≠ .f) ∧ v < 2 ^ 32 ∧ ∃ f, f ∈ d.fields ∧ ∃ k, f.lo ≤ k ∧ k < f.lo + f.width ∧ f.access = .w1c) ∧
    (∃ (s : State), ∃ (a : Nat), ∃ (v : Nat), ∃ (d : RegDesc), findReg a = some d ∧ s.refusedFields a v d.fields = [] ∧ (∀ f ∈ d.fields, f.cls ≠ .f) ∧ v < 2 ^ 32 ∧ ∃ f, f ∈ d.fields ∧ ∃ k, f.lo ≤ k ∧ k < f.lo + f.width ∧ f.access ≠ .rw ∧ f.access ≠ .w1c) :=
  ⟨⟨warm, R.TLY_CTL.base, 0xFFFFFFFF, (findReg R.TLY_CTL.base).get (by decide +kernel), (Option.some_get _).symm, by decide +kernel, by decide +kernel, by decide +kernel, ⟨0, by decide +kernel⟩, ⟨(((findReg R.TLY_CTL.base).get (by decide +kernel)).fields.head (by decide +kernel)), by decide +kernel, (((findReg R.TLY_CTL.base).get (by decide +kernel)).fields.head (by decide +kernel)).lo, by decide +kernel, by decide +kernel, by decide +kernel⟩, ⟨40, by decide +kernel⟩⟩,
   ⟨warm, R.NET_EVT.base, 1, (findReg R.NET_EVT.base).get (by decide +kernel), (Option.some_get _).symm, by decide +kernel, by decide +kernel, by decide +kernel, (((findReg R.NET_EVT.base).get (by decide +kernel)).fields.head (by decide +kernel)), by decide +kernel, (((findReg R.NET_EVT.base).get (by decide +kernel)).fields.head (by decide +kernel)).lo, by decide +kernel, by decide +kernel, by decide +kernel⟩,
   ⟨warm, R.NET_STAT.base, 1, (findReg R.NET_STAT.base).get (by decide +kernel), (Option.some_get _).symm, by decide +kernel, by decide +kernel, by decide +kernel, (((findReg R.NET_STAT.base).get (by decide +kernel)).fields.head (by decide +kernel)), by decide +kernel, (((findReg R.NET_STAT.base).get (by decide +kernel)).fields.head (by decide +kernel)).lo, by decide +kernel, by decide +kernel, by decide +kernel⟩⟩

end C17

namespace C17b
def pk : State := ((warm.setReg R.F_PEAK.base 0x1234).setReg R.DBR_HELD_MAX.base 0x55).setReg F.MEM_UTIL_PEAK.base 0x77
def hr (byre : Bool) (a : Nat) (v : Nat) : HeldRead := ⟨.host, a, v, 44, byre, none, false, 0⟩
def hs (byre : Bool) (a v : Nat) : State := { pk with host := { pk.host with held := [hr byre a v, { hr byre a v with who := .mc1 }] } }

theorem test_meets_ReadsAreConsumedOnDelivery :
    (∃ (s : State), ∃ (a : Nat), s.access .host a 4 = .own ∧ isRc a = true ∧ s.flt.armed = none) ∧
    (∃ (s : State), ∃ (who : Initiator), ∃ (a : Nat), s.access who a 4 = .own ∧ isRc a = true ∧ who ≠ .host) ∧
    (∃ (s : State), ∃ (who : Initiator), ∃ (a : Nat), (s.host.held.find? (fun h => decide (h.who = who) && h.addr == a) = none)) ∧
    (∃ (s : State), ∃ (who : Initiator), ∃ (a : Nat), ∃ (h : HeldRead), (s.host.held.find? (fun h => decide (h.who = who) && h.addr == a && !h.dead) = some h) ∧ s.flt.armed = none) ∧
    (∃ (s : State), ∃ (who : Initiator), ∃ (a : Nat), ∃ (h : HeldRead), (s.host.held.find? (fun h => decide (h.who = who) && h.addr == a) = some h) ∧ s.flt.armed = none) :=
  ⟨⟨pk, R.F_PEAK.base, by decide +kernel, by decide +kernel, by decide +kernel⟩,
   ⟨pk, .mc0, R.F_PEAK.base, by decide +kernel, by decide +kernel, by decide +kernel⟩,
   ⟨warm, .host, 0x104, by decide +kernel⟩,
   ⟨hs false R.F_PEAK.base 0x1234, .host, R.F_PEAK.base, ((let s : State := hs false R.F_PEAK.base 0x1234; let who : Initiator := .host; let a : Nat := R.F_PEAK.base; s.host.held.find? (fun h => decide (h.who = who) && h.addr == a && !h.dead))).get (by decide +kernel), (Option.some_get _).symm, by decide +kernel⟩,
   ⟨hs true R.STA_EVT.base 0x4, .host, R.STA_EVT.base, ((let s : State := hs true R.STA_EVT.base 0x4; let who : Initiator := .host; let a : Nat := R.STA_EVT.base; s.host.held.find? (fun h => decide (h.who = who) && h.addr == a))).get (by decide +kernel), (Option.some_get _).symm, by decide +kernel⟩⟩

end C17b

namespace C18
def hl (s : State) : State := { s with host := { s.host with held := [⟨.host, 4, 5, 44, true, none, false, 0⟩, ⟨.mc1, 4, 5, 44, true, none, false, 0⟩], retrying := [⟨.host, 4, 4, 55⟩, ⟨.mc0, 4, 4, 55⟩], posted := [⟨.host, 4, [1,2,3,4], none⟩], boost := true, msixEnable := true, msixTable := [(3, 5#32)], pba := 9 } }
def ms (m all : Bool) (s : State) : State := { s with host := { s.host with msixEnable := true, msixMaskAll := all, pba := 8, msixTable := if m then [] else (List.range 64).map (fun v => (4 * v + 3, 0#32)) } }
def sem (r : Nat) (s : State) : State := ((s.put F.DBR_SEM_OWNER 2 3).putFlag F.DBR_SEM_GUARD true 3).put F.DBR_SEM_REGION r 3
def po : State := warm.putFlag F.DBR_CTL_POLL_EN true
def full : State := { warm with host := { warm.host with retrying := (List.range 80).map (fun k => ⟨.mc0, 4 * k, 4, 55⟩) } }

theorem test_meets_HostLinkEvents :
    (∃ (s : State), ∃ (speed : Nat), ∃ (width : Nat), ∃ (a : Nat), ∃ (bytes : List Nat), s.power = 0 ∧ s.pwr.waking = none) ∧
    (∃ (s : State), ∃ (speed : Nat), ∃ (width : Nat), (s.power ≠ 0 ∨ s.pwr.waking ≠ none) ∧ speed < 2 ^ F.HBR_STAT_SPEED.width ∧ width < 2 ^ F.HBR_STAT_WIDTH.width) ∧
    (∃ (s : State), ∃ (a : Nat), ∃ (bytes : List Nat), (s.power ≠ 0 ∨ s.pwr.waking ≠ none) ∧ s.host.d3hot = false ∧ s.domainOff 9 = false ∧ s.domainOff 2 = false) ∧
    (∃ (s : State), s.flt.armed = none) ∧
    (∃ (s : State), (s.host.retrying ≠ [] ∨ s.host.posted ≠ [])) ∧
    (∃ (s : State), s.flag F.DBR_CTL_POLL_EN = false) ∧
    (∃ (s : State), s.flag F.DBR_CTL_POLL_EN = true) :=
  ⟨⟨dorm, 3, 4, 0x100, [1], by decide +kernel, by decide +kernel⟩,
   ⟨warm, 3, 4, by decide +kernel, by decide +kernel, by decide +kernel⟩,
   ⟨warm, 0x100, [1,2,300,4], by decide +kernel, by decide +kernel, by decide +kernel, by decide +kernel⟩,
   ⟨hl warm, by decide +kernel⟩,
   ⟨hl warm, by decide +kernel⟩,
   ⟨warm, by decide +kernel⟩,
   ⟨po, by decide +kernel⟩⟩

theorem test_meets_MessagesFollowTheMasks :
    (∃ (s : State), ∃ (v : Nat), s.host.msixEnable = false) ∧
    (∃ (s : State), ∃ (v : Nat), s.host.msixEnable = true ∧ (s.host.msixMaskAll = true ∨ s.vectorMasked v = true)) ∧
    (∃ (s : State), ∃ (v : Nat), s.host.msixEnable = true ∧ s.host.msixMaskAll = false ∧ s.vectorMasked v = false) ∧
    (∃ (s : State), ∃ (f : Field), ∃ (i : Nat), s.flag f i = true) ∧
    (∃ (s : State), ∃ (v : Fin 64), s.host.msixEnable = true ∧ s.host.msixMaskAll = false ∧ s.vectorMasked v = true ∧ s.host.pba = 2 ^ v.val) ∧
    (∃ (s : State), ∃ (v : Option (Fin 64)), s.host.msixEnable = false) ∧
    (∃ (s : State), s.host.msixEnable = true ∧ s.host.msixMaskAll = true ∧ s.host.pba = 0) :=
  ⟨⟨warm, 3, by decide +kernel⟩,
   ⟨ms true false warm, 4, by decide +kernel, by decide +kernel⟩,
   ⟨ms false false warm, 5, by decide +kernel, by decide +kernel, by decide +kernel⟩,
   ⟨warm.putFlag F.NET_EVT_LINK_CHANGE true, F.NET_EVT_LINK_CHANGE, 0, by decide +kernel⟩,
   ⟨ms true false warm, 3, by decide +kernel, by decide +kernel, by decide +kernel, by decide +kernel⟩,
   ⟨warm, none, by decide +kernel⟩,
   ⟨{ ms true true warm with host := { (ms true true warm).host with pba := 0 } }, by decide +kernel, by decide +kernel, by decide +kernel⟩⟩

theorem test_meets_BridgeAndSemaphores :
    (∃ (s : State), ∃ (who : Initiator), ∃ (a : Nat), ∃ (len : Nat), s.access who a len = .byre ∧ who ≠ .supervisor ∧ (s.host.retrying.find? (fun r => decide (r.who = who) && r.addr == a && r.len == len) = none) ∧ readSlots who ≤ s.slotsBusy who) ∧
    (∃ (s : State), ∃ (who : Initiator), ∃ (a : Nat), ∃ (e : Nat), ∃ (bytes : List Nat), s.access who a bytes.length = .byre ∧ who ≠ .supervisor ∧ entryOf a = some e ∧ ∃ n, s.guardOf who e = some n) ∧
    (∃ (s : State), ∃ (who : Initiator), ∃ (a : Nat), ∃ (e : Nat), ∃ (bytes : List Nat), s.access who a bytes.length = .byre ∧ who ≠ .supervisor ∧ entryOf a = some e ∧ s.guardOf who e = none ∧ regionWrites e = true ∧ s.host.posted.length < 64) ∧
    (∃ (s : State), ∃ (who : Initiator), ∃ (n : Fin 16), ∃ (w : Word), semDenied who n = true) ∧
    (∃ (s : State), ∃ (who : Initiator), ∃ (n : Fin 16), ∃ (w : Word), semDenied who n = false) ∧
    (∃ (s : State), ∃ (n : Fin 16), s.get F.DBR_SEM_OWNER n = 7) ∧
    (∃ (s : State), ∃ (n : Fin 16), ∃ (o : Nat), s.get F.DBR_SEM_OWNER n = o ∧ o ≠ 7) :=
  ⟨⟨full, .mc0, 0x140000, 4, by decide +kernel, by decide +kernel, by decide +kernel, by decide +kernel⟩,
   ⟨sem 1 warm, .mc0, 0x140000, ((let a : Nat := 0x140000; entryOf a)).get (by decide +kernel), [1,2,3,4], by decide +kernel, by decide +kernel, (Option.some_get _).symm, ((let s : State := sem 1 warm; let who : Initiator := .mc0; let e : Nat := ((let a : Nat := 0x140000; entryOf a)).get (by decide +kernel); s.guardOf who e)).get (by decide +kernel), (Option.some_get _).symm⟩,
   ⟨warm, .host, 0xD0F00, ((let a : Nat := 0xD0F00; entryOf a)).get (by decide +kernel), [1,2,3,4], by decide +kernel, by decide +kernel, (Option.some_get _).symm, by decide +kernel, by decide +kernel, by decide +kernel⟩,
   ⟨warm, .host, 13, 0x3C00, by decide +kernel⟩,
   ⟨sem 0 warm, .mc0, 3, 0x2C00, by decide +kernel⟩,
   ⟨warm.put F.DBR_SEM_OWNER 7 3, 3, by decide +kernel⟩,
   ⟨(sem 0 warm).put F.DBR_SEM_OWNER 4 3, 3, _, rfl, by decide +kernel⟩⟩

end C18

namespace C19
def rq (o : MemOwner) (a len : Nat) (wr := false) : MemReq := ⟨o, none, 0, a, len, wr, .none, .none⟩
def k0 := rq .kernel 0x100 32
def uA (s : State) (l : List MemReq) : State := s.each l (fun r t => (t.memEarly r).memArrive 3 r)
def slp (k : Nat) (s : State) : State := ((s.put F.MEM_STAT_LEVEL k).modMem (fun m => { m with derateNext := [(1,2),(0,1)] })).put F.MEM_STAT_PD_CH 8
def se (s : State) : State := (s.putFlag F.MEM_CTL_SR_EN true).putFlag F.MEM_CTL_DSR_EN true

theorem test_meets_MemoryService :
    (∃ (s : State), ∃ (u : State), ∃ (ch : Fin 16), ∃ (reqs : List MemReq), (u = s.each reqs (fun r t => (t.memEarly r).memArrive ch r)) ∧ let here := u.mem.flying.filter (fun x => x.channel == ch.val); u.memPick ch (here.map u.waited) = none) ∧
    (∃ (s : State), ∃ (u : State), ∃ (ch : Fin 16), ∃ (reqs : List MemReq), (u = s.each reqs (fun r t => (t.memEarly r).memArrive ch r)) ∧ let here := u.mem.flying.filter (fun x => x.channel == ch.val); ∃ r, u.memPick ch (here.map u.waited) = some r) ∧
    (∃ (s : State), ∃ (ch : Nat), ∃ (r : MemReq), (r.len = 0 ∨ r.addr % 32 + r.len ≤ 32)) ∧
    (∃ (s : State), ∃ (ch : Fin 16), ∃ (reqs : List MemReq), ∃ (o : MemOwner), ∃ (r : MemReq), slotOwner (s.mem.slots.getD ch 0) = some o ∧ (reqs.find? (fun r => decide (r.owner = o)) = some r)) ∧
    (∃ (s : State), ∃ (r : MemReq), ∃ (c : Nat), ∃ (d : Nat), ((ownerClient r.owner).bind (fun c => s.deadlines.find? (fun d => d.1 == c)) = some (c, d)) ∧ c ≠ 3 ∧ s.now < d) ∧
    (∃ (s : State), ∃ (level : Fin 3), ∃ (ch : Fin 16), s.power ≠ 0 ∧ 1 ≤ level.val ∧ let on := if level.val = 1 then s.flag F.MEM_CTL_SR_EN else s.flag F.MEM_CTL_DSR_EN; (s.queuesEmpty none = false ∨ on = false ∨ level ≤ s.get F.MEM_STAT_LEVEL ∨ s.sleepAllowed (if level.val = 1 then 8000 else 200000) = false)) ∧
    (∃ (s : State), ∃ (ch : Fin 16), s.power ≠ 0 ∧ s.queuesEmpty (some ch.val) = true ∧ s.get F.MEM_STAT_LEVEL = 0 ∧ s.sleepAllowed 500 = true ∧ bitAt (s.get F.MEM_STAT_PD_CH) ch = false) ∧
    (∃ (s : State), ∃ (ch : Fin 16), s.get F.MEM_STAT_LEVEL = 0) ∧
    (∃ (s : State), ∃ (p : Fin 4), ∃ (f : Fin 3), s.get F.MEM_STAT_LEVEL = 2) ∧
    (∃ (s : State), ∃ (p : Fin 4), ∃ (f : Fin 3), s.get F.MEM_STAT_LEVEL ≠ 2 ∧ s.mem.derate.getD p 0 ≠ f) ∧
    (∃ (s : State), ∃ (p : Fin 4), ∃ (f : Fin 3), s.get F.MEM_STAT_LEVEL ≠ 2 ∧ s.mem.derate.getD p 0 = f) :=
  ⟨⟨warm, warm, 3, [], by decide +kernel, by decide +kernel⟩,
   ⟨warm, uA warm [k0], 3, [k0], by decide +kernel, ((let u : State := uA warm [k0]; let ch : Fin 16 := 3; let here := u.mem.flying.filter (fun x => x.channel == ch.val); u.memPick ch (here.map u.waited))).get (by decide +kernel), (Option.some_get _).symm⟩,
   ⟨warm, 3, k0, by decide +kernel⟩,
   ⟨warm, 3, [rq .kernel 0 0, rq .scrub 0x100 32], ((let s : State := warm; let ch : Fin 16 := 3; slotOwner (s.mem.slots.getD ch 0))).get (by decide +kernel), ((let reqs : List MemReq := [rq .kernel 0 0, rq .scrub 0x100 32]; let o : MemOwner := ((let s : State := warm; let ch : Fin 16 := 3; slotOwner (s.mem.slots.getD ch 0))).get (by decide +kernel); reqs.find? (fun r => decide (r.owner = o)))).get (by decide +kernel), (Option.some_get _).symm, (Option.some_get _).symm⟩,
   ⟨warm, rq .dispatcher 0 0, (((let s : State := warm; let r : MemReq := rq .dispatcher 0 0; (ownerClient r.owner).bind (fun c => s.deadlines.find? (fun d => d.1 == c)))).get (by decide +kernel)).1, (((let s : State := warm; let r : MemReq := rq .dispatcher 0 0; (ownerClient r.owner).bind (fun c => s.deadlines.find? (fun d => d.1 == c)))).get (by decide +kernel)).2, by decide +kernel, by decide +kernel, by decide +kernel⟩,
   ⟨slp 2 (se warm), 1, 3, by decide +kernel, by decide +kernel, by decide +kernel⟩,
   ⟨warm, 3, by decide +kernel, by decide +kernel, by decide +kernel, by decide +kernel, by decide +kernel⟩,
   ⟨slp 0 warm, 3, by decide +kernel⟩,
   ⟨slp 2 warm, 3, 1, by decide +kernel⟩,
   ⟨slp 1 warm, 3, 1, by decide +kernel, by decide +kernel⟩,
   ⟨warm, 3, 0, by decide +kernel, by decide +kernel⟩⟩

end C19

namespace C20
def pr (role : Nat) (s : State) : State := (s.putFlag F.RED_CTL_PAIR_EN true).put F.RED_STAT_ROLE role
def mr (f : Red → Red) (s : State) : State := s.modRed f
def act : State := mr (fun r => { r with partner := some hbSt, bellA := { r.bellA with heard := some 5 } }) (pr 1 warm)
def stb : State := mr (fun r => { r with partner := some { hb0 with role := 1 }, bellA := { r.bellA with heard := some 5 } }) (pr 2 warm)
def sk : State := (pr 0 warm).putFlag F.RED_CTL_PRIMARY true
def hbA : Heartbeat := { hb0 with role := 1, epoch := 3, seq := 9 }
def rh (s : State) (b : Bool) (hb : Heartbeat) (i : Option PartnerInfo) : State := (s.ringHeard b hb).notePartner b hb i
def fi (s : State) := s.putFlag F.RED_STAT_FENCE_IN true

theorem test_meets_PairHeartbeatsAndFences :
    (∃ (s : State), ∃ (b : Bool), ∃ (hb : Heartbeat), ∃ (info : Option PartnerInfo), ∃ (p : Fin 19), ∃ (ok : Bool), s.pairOn = false) ∧
    (∃ (s : State), s.pairOn = true) ∧
    (∃ (s : State), s.pairOn = true ∧ s.flt.armed = none) ∧
    (∃ (s : State), ∃ (u : State), ∃ (b : Bool), ∃ (hb : Heartbeat), ∃ (info : Option PartnerInfo), s.pairOn = true ∧ u = (s.ringHeard b hb).notePartner b hb info ∧ u.redRole = 0 ∧ hb.role = 1) ∧
    (∃ (s : State), ∃ (u : State), ∃ (b : Bool), ∃ (hb : Heartbeat), ∃ (info : Option PartnerInfo), s.pairOn = true ∧ u = (s.ringHeard b hb).notePartner b hb info ∧ s.formed = true ∧ u.redRole = 1) ∧
    (∃ (s : State), ∃ (u : State), ∃ (b : Bool), ∃ (hb : Heartbeat), ∃ (info : Option PartnerInfo), s.pairOn = true ∧ u = (s.ringHeard b hb).notePartner b hb info ∧ s.formed = true ∧ u.redRole = 2) ∧
    (∃ (s : State), ∃ (u : State), ∃ (b : Bool), ∃ (hb : Heartbeat), ∃ (info : Option PartnerInfo), s.pairOn = true ∧ u = (s.ringHeard b hb).notePartner b hb info ∧ 3 ≤ u.redRole) ∧
    (∃ (s : State), ∃ (b : Bool), (s.bell b).silent.isSome = true) ∧
    (∃ (s : State), ∃ (b : Bool), ∃ (t : Nat), s.pairOn = true ∧ (s.bell b).silent = none ∧ (s.bell b).heard = some t) ∧
    (∃ (s : State), ∃ (td : Nat), ∃ (tf : Nat), s.red.failedAt = some (td, tf)) ∧
    (∃ (s : State), s.red.failedAt = none) ∧
    (∃ (s : State), s.pairOn = true ∧ s.seeking = true ∧ s.flag F.RED_CTL_PRIMARY = true ∧ s.fencedIn = false) ∧
    (∃ (s : State), (s.seeking = false ∨ s.flag F.RED_CTL_PRIMARY = false ∨ s.fencedIn = true)) ∧
    (∃ (s : State), (s.power = 0 ∨ s.fencedIn = true)) ∧
    (∃ (s : State), ∃ (u : State), s.power ≠ 0 ∧ s.fencedIn = false ∧ u = (s.putFlag F.RED_STAT_FENCE_IN true).takeReset 13 reachOutput 0 ∧ u.red.switching = none) ∧
    (∃ (s : State), s.fencedIn = false) ∧
    (∃ (s : State), ∃ (u : State), s.fencedIn = true ∧ (u = (s.putFlag F.RED_STAT_FENCE_IN false).each (List.range 32) (fun p t => if t.ddState p = 7 ∧ bitAt (t.get F.PCR_SUPPLY_BANK_HELD) (p / 8) = false then t.ddEnter p (if t.ddEnabled p then 1 else 0) else t)) ∧ u.paired = true ∧ u.redRole = 3) ∧
    (∃ (s : State), ∃ (u : State), s.fencedIn = true ∧ (u = (s.putFlag F.RED_STAT_FENCE_IN false).each (List.range 32) (fun p t => if t.ddState p = 7 ∧ bitAt (t.get F.PCR_SUPPLY_BANK_HELD) (p / 8) = false then t.ddEnter p (if t.ddEnabled p then 1 else 0) else t)) ∧ u.paired = true ∧ u.redRole ≠ 3) ∧
    (∃ (s : State), s.pairOn = true ∧ s.flag F.RED_STAT_FENCE_OUT = false ∧ s.flt.armed = none) ∧
    (∃ (s : State), s.flag F.RED_STAT_FENCE_OUT = true) ∧
    (∃ (s : State), ∃ (t0 : Nat), s.pairOn = true ∧ s.red.pulseAt = some t0 ∧ 2 ≤ s.red.unseen ∧ s.red.fenceAlarm = false) ∧
    (∃ (s : State), ∃ (p : Fin 19), s.pairOn = true ∧ s.redRole = 2) :=
  ⟨⟨warm, true, hb0, none, 3, true, by decide +kernel⟩,
   ⟨act, by decide +kernel⟩,
   ⟨act, by decide +kernel, by decide +kernel⟩,
   ⟨sk, rh sk true hbA none, true, hbA, none, by decide +kernel, by decide +kernel, by decide +kernel, by decide +kernel⟩,
   ⟨act, rh act true hbA none, true, hbA, none, by decide +kernel, by decide +kernel, by decide +kernel, by decide +kernel⟩,
   ⟨stb, rh stb true hbA none, true, hbA, none, by decide +kernel, by decide +kernel, by decide +kernel, by decide +kernel⟩,
   ⟨pr 3 warm, rh (pr 3 warm) false hbSt none, false, hbSt, none, by decide +kernel, by decide +kernel, by decide +kernel⟩,
   ⟨mr (fun r => { r with bellA := { r.bellA with silent := some 5 }}) stb, false, by decide +kernel⟩,
   ⟨stb, false, ((let s : State := stb; let b : Bool := false; (s.bell b).heard)).get (by decide +kernel), by decide +kernel, by decide +kernel, (Option.some_get _).symm⟩,
   ⟨mr (fun r => { r with failedAt := some (500, 300) }) stb, (((let s : State := mr (fun r => { r with failedAt := some (500, 300) }) stb; s.red.failedAt)).get (by decide +kernel)).1, (((let s : State := mr (fun r => { r with failedAt := some (500, 300) }) stb; s.red.failedAt)).get (by decide +kernel)).2, by decide +kernel⟩,
   ⟨stb, by decide +kernel⟩,
   ⟨sk, by decide +kernel, by decide +kernel, by decide +kernel, by decide +kernel⟩,
   ⟨stb, by decide +kernel⟩,
   ⟨dorm, by decide +kernel⟩,
   ⟨sk, _, by decide +kernel, by decide +kernel, rfl, by decide +kernel⟩,
   ⟨act, by decide +kernel⟩,
   ⟨fi (pr 3 warm), _, by decide +kernel, rfl, by decide +kernel, by decide +kernel⟩,
   ⟨fi act, _, by decide +kernel, rfl, by decide +kernel, by decide +kernel⟩,
   ⟨act, by decide +kernel, by decide +kernel, by decide +kernel⟩,
   ⟨act.putFlag F.RED_STAT_FENCE_OUT true, by decide +kernel⟩,
   ⟨mr (fun r => { r with pulseAt := some 5, unseen := 2 }) act, ((let s : State := mr (fun r => { r with pulseAt := some 5, unseen := 2 }) act; s.red.pulseAt)).get (by decide +kernel), by decide +kernel, (Option.some_get _).symm, by decide +kernel, by decide +kernel⟩,
   ⟨stb, 3, by decide +kernel, by decide +kernel⟩⟩

end C20

namespace C20b
def pr (role : Nat) (s : State) : State := (s.putFlag F.RED_CTL_PAIR_EN true).put F.RED_STAT_ROLE role
def mr (f : Red → Red) (s : State) : State := s.modRed f
def act : State := mr (fun r => { r with partner := some hbSt, bellA := { r.bellA with heard := some 5 } }) (pr 1 warm)
def stb : State := mr (fun r => { r with partner := some { hb0 with role := 1 }, bellA := { r.bellA with heard := some 5 } }) (pr 2 warm)
def sk : State := (pr 0 warm).putFlag F.RED_CTL_PRIMARY true
def rc (s : State) (w : Nat) : State := s.redCommand w
def swi (sent : Option Nat) (s : State) : State := mr (fun r => { r with switching := some ⟨false, false, sent, 7⟩ }) s
def lone (s : State) : State := mr (fun r => { r with partner := none, bellA := { r.bellA with heard := none } }) s
def mo : Mirrored := .mode 3
def rec (n : Nat) : MirrorRec := ⟨n, 4, 5, 6, 700, true, mo⟩
def q2 : State := mr (fun r => { r with queue := [rec 5, rec 6] }) act
def snap : Snapshot := ⟨4, [], [], [], [], [], [], [], [], 0, [], [], [], [], [], 0, 0, 0, 0⟩
def rsy (s : State) : State := mr (fun r => { r with resync := some ⟨none, 5, [], 66⟩ }) s
def ow (s : State) : State := mr (fun r => { r with own := [⟨7, 0x500000003, [(1, 8), (2, 9)]⟩], misses := 1 }) s

theorem test_meets_PairSwitchesAndMirror :
    (∃ (s : State), ∃ (u : State), ∃ (w : Word), u = s.redCommand w.toNat ∧ s.red.switching.isSome = true) ∧
    (∃ (s : State), ∃ (u : State), ∃ (w : Word), u = s.redCommand w.toNat ∧ s.red.switching = none ∧ s.pairOn = true ∧ s.switchAllowed (bitAt w.toNat 3) = true) ∧
    (∃ (s : State), ∃ (u : State), ∃ (w : Word), u = s.redCommand w.toNat ∧ s.red.switching = none ∧ (s.pairOn = false ∨ s.switchAllowed (bitAt w.toNat 3) = false)) ∧
    (∃ (s : State), ∃ (st : Nat), st < 16) ∧
    (∃ (s : State), ∃ (w : Switching), s.red.switching = some w ∧ w.sentAt = none) ∧
    (∃ (s : State), s.red.switching = none) ∧
    (∃ (s : State), ∃ (w : Switching), ∃ (t0 : Nat), s.red.switching = some w ∧ w.sentAt = some t0 ∧ w.dormant = false) ∧
    (∃ (s : State), (s.pairOn = false ∨ s.fencedIn = true ∨ ((s.red.bellA.isHeard || s.red.bellB.isHeard) && s.red.partner.any (fun h => h.role == 1)) = true)) ∧
    (∃ (s : State), s.pairOn = true ∧ s.fencedIn = false ∧ (((s.red.bellA.isHeard || s.red.bellB.isHeard) && s.red.partner.any (fun h => h.role == 1)) = false) ∧ s.seeking = true) ∧
    (∃ (s : State), s.pairOn = true ∧ s.fencedIn = false ∧ (((s.red.bellA.isHeard || s.red.bellB.isHeard) && s.red.partner.any (fun h => h.role == 1)) = false) ∧ s.seeking = false ∧ s.red.blocked = true) ∧
    (∃ (s : State), s.pairOn = true ∧ s.fencedIn = false ∧ (((s.red.bellA.isHeard || s.red.bellB.isHeard) && s.red.partner.any (fun h => h.role == 1)) = false) ∧ s.seeking = false ∧ s.red.blocked = false) ∧
    (∃ (s : State), s.pairOn = true ∧ s.redRole = 2) ∧
    (∃ (s : State), (s.pairOn = false ∨ s.redRole ≠ 2)) ∧
    (∃ (s : State), ∃ (m : Nat), ∃ (f : Nat), ∃ (b : Nat), ∃ (c : Nat), ∃ (x : Mirrored), ∃ (p : Option (Snapshot × Nat)), (s.pairOn = false ∨ s.redRole ≠ 2)) ∧
    (∃ (s : State), ∃ (m : Nat), ∃ (f : Nat), ∃ (b : Nat), ∃ (c : Nat), ∃ (x : Mirrored), s.pairOn = true ∧ s.redRole = 2 ∧ s.red.resync = none ∧ m = s.red.next) ∧
    (∃ (s : State), ∃ (m : Nat), ∃ (f : Nat), ∃ (b : Nat), ∃ (c : Nat), ∃ (x : Mirrored), s.pairOn = true ∧ s.redRole = 2 ∧ s.red.resync = none ∧ m ≠ s.red.next ∧ seqAtLeast m s.red.next = false) ∧
    (∃ (s : State), ∃ (m : Nat), ∃ (reason : Nat), (s.pairOn = false ∨ s.redRole ≠ 1) ∧ s.redRole ≠ 1) ∧
    (∃ (s : State), ∃ (m : Nat), s.pairOn = true ∧ s.redRole = 1 ∧ ∃ r, (s.red.queue.find? (fun r => r.mseq == m) = some r)) ∧
    (∃ (s : State), ∃ (m : Nat), s.pairOn = true ∧ s.redRole = 1 ∧ ∃ r, ∃ rest, s.red.queue = r :: rest) ∧
    (∃ (s : State), ∃ (reason : Nat), s.pairOn = true ∧ s.redRole = 1) ∧
    (∃ (s : State), ∃ (r : Resync), ∃ (p : Snapshot), ∃ (n : Nat), s.pairOn = true ∧ s.redRole = 2 ∧ s.red.resync = some r) ∧
    (∃ (s : State), ∃ (f : Nat), ∃ (p : Option (Nat × List Nat)), ∃ o, s.pairOn = true ∧ (s.red.own.find? (fun g => g.frame == f) = some o) ∧ s.red.voids.contains f = true) ∧
    (∃ (s : State), ∃ (f : Nat), ∃ (p : Option (Nat × List Nat)), ∃ o, s.pairOn = true ∧ (s.red.own.find? (fun g => g.frame == f) = some o) ∧ s.red.voids.contains f = false ∧ p = none) ∧
    (∃ (s : State), ∃ (f : Nat), ∃ (p : Option (Nat × List Nat)), ∃ (b : List Nat), s.pairOn = false) ∧
    (∃ (s : State), ∃ (b : List Nat), s.pairOn = true ∧ s.redRole = 2) ∧
    (∃ (s : State), ∃ (t0 : Nat), s.pairOn = true ∧ s.redRole = 1 ∧ s.red.healthAt = some t0) ∧
    (∃ (s : State), s.red.waitMarks = none) ∧
    (∃ (s : State), ∃ (n : Nat), s.red.waitMarks = some n) :=
  ⟨⟨swi none act, rc (swi none act) 8, 8, by decide +kernel, by decide +kernel⟩,
   ⟨act, rc act 0, 0, by decide +kernel, by decide +kernel, by decide +kernel, by decide +kernel⟩,
   ⟨stb, rc stb 8, 8, by decide +kernel, by decide +kernel, by decide +kernel⟩,
   ⟨warm, 15, by decide +kernel⟩,
   ⟨swi none act, ((let s : State := swi none act; s.red.switching)).get (by decide +kernel), (Option.some_get _).symm, by decide +kernel⟩,
   ⟨act, by decide +kernel⟩,
   ⟨swi (some 500) act, ((let s : State := swi (some 500) act; s.red.switching)).get (by decide +kernel), ((let w : Switching := ((let s : State := swi (some 500) act; s.red.switching)).get (by decide +kernel); w.sentAt)).get (by decide +kernel), (Option.some_get _).symm, (Option.some_get _).symm, by decide +kernel⟩,
   ⟨stb, by decide +kernel⟩,
   ⟨sk, by decide +kernel, by decide +kernel, by decide +kernel, by decide +kernel⟩,
   ⟨mr (fun r => { r with blocked := true }) (lone stb), by decide +kernel, by decide +kernel, by decide +kernel, by decide +kernel, by decide +kernel⟩,
   ⟨lone stb, by decide +kernel, by decide +kernel, by decide +kernel, by decide +kernel, by decide +kernel⟩,
   ⟨stb, by decide +kernel, by decide +kernel⟩,
   ⟨act, by decide +kernel⟩,
   ⟨act, 3, 4, 5, 6, .mode 3, none, by decide +kernel⟩,
   ⟨mr (fun r => { r with next := 3 }) stb, _, 4, 5, 6, mo, by decide +kernel, by decide +kernel, by decide +kernel, rfl⟩,
   ⟨mr (fun r => { r with next := 3 }) stb, 2, 4, 5, 6, mo, by decide +kernel, by decide +kernel, by decide +kernel, by decide +kernel, by decide +kernel⟩,
   ⟨stb, 3, 4, by decide +kernel, by decide +kernel⟩,
   ⟨q2, 5, by decide +kernel, by decide +kernel, ((let s : State := q2; let m : Nat := 5; s.red.queue.find? (fun r => r.mseq == m))).get (by decide +kernel), (Option.some_get _).symm⟩,
   ⟨q2, 5, by decide +kernel, by decide +kernel, rec 5, [rec 6], by decide +kernel⟩,
   ⟨act, 4, by decide +kernel, by decide +kernel⟩,
   ⟨rsy stb, ((let s : State := rsy stb; s.red.resync)).get (by decide +kernel), snap, 77, by decide +kernel, by decide +kernel, (Option.some_get _).symm⟩,
   ⟨mr (fun r => { r with voids := [7] }) (ow act), 7, none, ((let s : State := mr (fun r => { r with voids := [7] }) (ow act); let f : Nat := 7; s.red.own.find? (fun g => g.frame == f))).get (by decide +kernel), by decide +kernel, (Option.some_get _).symm, by decide +kernel⟩,
   ⟨ow act, 7, _, ((let s : State := ow act; let f : Nat := 7; s.red.own.find? (fun g => g.frame == f))).get (by decide +kernel), by decide +kernel, (Option.some_get _).symm, by decide +kernel, rfl⟩,
   ⟨warm, 7, none, [1,2], by decide +kernel⟩,
   ⟨stb, [1,2], by decide +kernel, by decide +kernel⟩,
   ⟨mr (fun r => { r with healthAt := some 88 }) act, ((let s : State := mr (fun r => { r with healthAt := some 88 }) act; s.red.healthAt)).get (by decide +kernel), by decide +kernel, by decide +kernel, (Option.some_get _).symm⟩,
   ⟨warm, by decide +kernel⟩,
   ⟨mr (fun r => { r with waitMarks := some 3 }) stb, ((let s : State := mr (fun r => { r with waitMarks := some 3 }) stb; s.red.waitMarks)).get (by decide +kernel), (Option.some_get _).symm⟩⟩

end C20b

namespace C21
def mp (f : Pwr → Pwr) (s : State) : State := s.modPwr f
def lk : State := warm.setReg R.PCR_CLK_STAT.base 0xFFFFFF
def iq : State := mp (fun p => { p with idle := [⟨5, 77, 14⟩] }) warm

theorem test_meets_ResetSources :
    (∃ (s : State), (s.power ≠ 0 ∨ s.pwr.waking.isSome = true)) ∧
    (∃ (s : State), s.power = 0 ∧ s.pwr.waking = none) ∧
    (∃ (s : State), ∃ (w : Word), bitAt w.toNat 31 = true ∧ bits w.toNat 15 0 = 0xD1A5) ∧
    (∃ (s : State), ∃ (w : Word), (bitAt w.toNat 31 = false ∨ bits w.toNat 15 0 ≠ 0xD1A5)) ∧
    (∃ (s : State), ∃ (k : Nat), s.power = 0) ∧
    (∃ (s : State), ∃ (k : Nat), s.power ≠ 0 ∧ s.flt.armed = none ∧ k ≤ 6) ∧
    (∃ (s : State), ∃ (k : Nat), s.power ≠ 0 ∧ 8 ≤ k ∧ k ≤ 11) ∧
    (∃ (s : State), (s.pwr.tripped = false ∨ s.pwr.waitsWake = true)) ∧
    (∃ (s : State), ∃ (r : Bool), ∃ (ppm : Int), s.flt.armed = none) ∧
    (∃ (s : State), s.flt.armed = none) ∧
    (∃ (s : State), s.flag F.PCR_CLK_STAT_RC_FALLBACK = false) ∧
    (∃ (s : State), ∃ (k : Nat), s.power ≠ 0 ∧ s.flt.armed = none ∧ ((4 ≤ k ∧ k ≤ 13) ∨ (16 ≤ k ∧ k ≤ 21)) ∧ bitAt (s.reg R.PCR_CLK_STAT.base).toNat k = false) ∧
    (∃ (s : State), ∃ (k : Nat), ∃ (n : Nat), (n = ((s.pwr.tries.find? (fun q => q.1 == k)).map Prod.snd).getD 0)) ∧
    (∃ (s : State), ∃ (unit : Bool), ∃ (which : Nat), ∃ (clock : Nat), ∃ (us : Nat), which < 16) ∧
    (∃ (s : State), ∃ (i : Nat), i < 16 ∧ s.flt.armed = none) ∧
    (∃ (s : State), ∃ (a : Nat), (a < 0x140100 ∨ 0x140140 ≤ a) ∧ regInByre a = true) ∧
    (∃ (s : State), ∃ (a : Nat), (a < 0x140100 ∨ 0x140140 ≤ a) ∧ regInByre a = false) :=
  ⟨⟨warm, by decide +kernel⟩,
   ⟨dorm, by decide +kernel, by decide +kernel⟩,
   ⟨warm, 0x8000D1A5, by decide +kernel, by decide +kernel⟩,
   ⟨warm, 0xD1A5, by decide +kernel⟩,
   ⟨dorm, 3, by decide +kernel⟩,
   ⟨warm, 3, by decide +kernel, by decide +kernel, by decide +kernel⟩,
   ⟨warm, 9, by decide +kernel, by decide +kernel, by decide +kernel⟩,
   ⟨warm, by decide +kernel⟩,
   ⟨dorm, true, 5, by decide +kernel⟩,
   ⟨warm, by decide +kernel⟩,
   ⟨warm, by decide +kernel⟩,
   ⟨lk.setReg R.PCR_CLK_STAT.base 0, 18, by decide +kernel, by decide +kernel, by decide +kernel, by decide +kernel⟩,
   ⟨warm, 5, _, rfl⟩,
   ⟨warm, true, 5, 3, 44, by decide +kernel⟩,
   ⟨warm.put F.PCR_BKP_VALID_VALID 0xFFFF, 5, by decide +kernel, by decide +kernel⟩,
   ⟨warm, 0x140004, by decide +kernel, by decide +kernel⟩,
   ⟨warm, 0x10004, by decide +kernel, by decide +kernel⟩⟩

theorem test_meets_UnitResets :
    (∃ (s : State), ∃ (w : Word), (s.power = 1 ∨ (∀ u, u < 24 → bitAt w.toNat u = true → unitStatic u = false)) ∧ s.pwr.resetting = none) ∧
    (∃ (s : State), ∃ (w : Word), ∃ (u : Nat), s.power ≠ 1 ∧ u < 24 ∧ ((List.range 24).filter (fun u => bitAt w.toNat u) = [u]) ∧ unitStatic u = true) ∧
    (∃ (s : State), ∃ (u : Fin 24), ∃ (q : IdleReq), (s.pwr.idle.find? (fun q => q.unit == u.val) = some q)) ∧
    (∃ (s : State), ∃ (u : Fin 24), (s.pwr.idle.find? (fun q => q.unit == u.val) = none)) :=
  ⟨⟨warm, 0xFF, by decide +kernel, by decide +kernel⟩,
   ⟨dorm, 0x4000, 14, by decide +kernel, by decide +kernel, by decide +kernel, by decide +kernel⟩,
   ⟨iq, 5, ((let s : State := iq; let u : Fin 24 := 5; s.pwr.idle.find? (fun q => q.unit == u.val))).get (by decide +kernel), (Option.some_get _).symm⟩,
   ⟨iq, 6, by decide +kernel⟩⟩

end C21

namespace C21c
def mp (f : Pwr → Pwr) (s : State) : State := s.modPwr f
def ph (k : Nat) (s : State) : State := s.put F.PCR_STAT_PHASE k
def s1 : State := ph 1 (mp (fun p => { p with loaded := false, resetting := some 4 }) warm)
def tr (s : State) : State := s.modSys (fun y => { y with trans := some ⟨2, 3, 0, 1, 55, false, 0, true⟩ })
def aw (s : State) : State := (s.put R.PCR_WAKE_ALARM 9).putFlag F.NET_WAKE_CTL_LINK_EN true
def wkS : State := ((warm.put R.NET_WAKE_KEY 1 0).putFlag F.NET_WAKE_CTL_FRAME_EN true).put R.NET_WAKE_ETYPE 0x1234
def wkF : RxFrame := (fun b => ⟨b ++ leBytes 4 (etherFcs b), false, 0, 0⟩) (List.replicate 6 255 ++ [2, 2, 2, 2, 2, 2, 0x12, 0x34, 0, 0, 0, 1] ++ List.replicate 42 0)

theorem test_meets_StartUpAndWake :
    (∃ (s : State), ∃ (f : Option (Nat × Nat)), (s.pwr.loaded = true ∨ s.phase ≠ 1 ∨ s.flag F.STA_STAT_RECOVERY = true)) ∧
    (∃ (s : State), ∃ (u : State), ∃ (f : Option (Nat × Nat)), ∃ (copy : Option Nat), s.pwr.loaded = false ∧ s.phase = 1 ∧ s.flag F.STA_STAT_RECOVERY = false ∧ s.flt.armed = none ∧ (u = s.modPwr (fun w => { w with resetting := none })) ∧ copy = (if u.headerValid 0 then some 0 else if u.headerValid 1 then some 1 else none) ∧ ∃ code, ∃ at_, u.attemptFails f copy = some (code, at_) ∧ s.pwr.failed < 2) ∧
    (∃ (s : State), ∃ (u : State), ∃ (f : Option (Nat × Nat)), ∃ (copy : Option Nat), s.pwr.loaded = false ∧ s.phase = 1 ∧ s.flag F.STA_STAT_RECOVERY = false ∧ s.flt.armed = none ∧ (u = s.modPwr (fun w => { w with resetting := none })) ∧ copy = (if u.headerValid 0 then some 0 else if u.headerValid 1 then some 1 else none) ∧ ∃ code, ∃ at_, u.attemptFails f copy = some (code, at_) ∧ s.pwr.failed = 2) ∧
    (∃ (s : State), ∃ (banks : Nat), (s.power ≠ 0 ∨ s.pwr.waking.isSome = true) ∧ s.phase = 1 ∧ s.pwr.loaded = false ∧ s.flag F.STA_STAT_RECOVERY = false) ∧
    (∃ (s : State), ∃ (banks : Nat), (s.power ≠ 0 ∨ s.pwr.waking.isSome = true) ∧ s.phase = 2 ∧ s.pwr.lost25 = false) ∧
    (∃ (s : State), ∃ (banks : Nat), (s.power ≠ 0 ∨ s.pwr.waking.isSome = true) ∧ (s.phase = 2 ∨ s.phase = 3) ∧ s.pwr.lost25 = true) ∧
    (∃ (s : State), ∃ (banks : Nat), (s.power ≠ 0 ∨ s.pwr.waking.isSome = true) ∧ s.phase = 3 ∧ s.pwr.lost25 = false ∧ s.pwr.supplyFault = false) ∧
    (∃ (s : State), ∃ (banks : Nat), (s.power ≠ 0 ∨ s.pwr.waking.isSome = true) ∧ s.phase = 4) ∧
    (∃ (s : State), ∃ (banks : Nat), (s.power ≠ 0 ∨ s.pwr.waking.isSome = true) ∧ s.phase = 5) ∧
    (∃ (s : State), ∃ (banks : Nat), (s.power ≠ 0 ∨ s.pwr.waking.isSome = true) ∧ s.phase = 6 ∧ (s.flag F.STA_STAT_RECOVERY = true ∨ s.pwr.saved = true)) ∧
    (∃ (s : State), ∃ (banks : Nat), (s.power ≠ 0 ∨ s.pwr.waking.isSome = true) ∧ s.phase = 6 ∧ s.flag F.STA_STAT_RECOVERY = false ∧ s.pwr.saved = false) ∧
    (∃ (s : State), ∃ (banks : Nat), (s.power ≠ 0 ∨ s.pwr.waking.isSome = true) ∧ s.phase = 7 ∧ s.pwr.waking = none) ∧
    (∃ (s : State), ∃ (banks : Nat), (s.power ≠ 0 ∨ s.pwr.waking.isSome = true) ∧ ∃ w, s.phase = 7 ∧ s.pwr.waking = some w) ∧
    (∃ (s : State), s.phase ≠ 8) ∧
    (∃ (s : State), s.phase = 8 ∧ s.pwr.waking = none) ∧
    (∃ (s : State), ∃ (w : Waking), ∃ (rate : Nat), ∃ (frate : Nat), ∃ (prec : Nat), s.phase = 8 ∧ s.pwr.waking = some w ∧ s.pwr.stored = some (rate, frate, prec) ∧ rate < 2 ^ F.SYS_MODE_STAT_RATE.width ∧ frate < 2 ^ F.SYS_MODE_STAT_FRATE.width ∧ prec < 2 ^ F.SYS_MODE_STAT_PREC.width) ∧
    (∃ (s : State), s.power ≠ 1) ∧
    (∃ (s : State), ∃ (m : ModeTrans), s.sys.trans = some m ∧ m.power = 0 ∧ m.handover = false ∧ s.power = 1) ∧
    (∃ (s : State), ∃ (f : Option RxFrame), ∃ (ok : Bool), ∃ (c : Nat), (match f with | none => if s.flag F.NET_WAKE_CTL_LINK_EN then some 1 else none | some f => s.wakeMatch f) = some c ∧ s.awaitsWake = true ∧ s.pwr.lost25 = false) ∧
    (∃ (s : State), ∃ (f : Option RxFrame), ∃ (ok : Bool), ∃ (c : Nat), (match f with | none => if s.flag F.NET_WAKE_CTL_LINK_EN then some 1 else none | some f => s.wakeMatch f) = some c ∧ s.awaitsWake = false ∧ s.pwr.tripped = false ∧ f.isSome = true) ∧
    (∃ (s : State), ∃ (f : RxFrame), ∃ (ok : Bool), s.wakeMatch f = none) ∧
    (∃ (s : State), ∃ (ok : Bool), ∃ (t0 : Nat), s.pwr.dormantAt = some t0 ∧ s.awaitsWake = true ∧ s.get R.PCR_WAKE_ALARM ≠ 0) ∧
    (∃ (s : State), ∃ (ok : Bool), ∃ (t0 : Nat), s.pwr.dormantAt = some t0 ∧ (s.awaitsWake = false ∨ s.get R.PCR_WAKE_ALARM = 0)) :=
  ⟨⟨warm, none, by decide +kernel⟩,
   ⟨s1, _, none, _, by decide +kernel, by decide +kernel, by decide +kernel, by decide +kernel, rfl, rfl, (((let u : State := (let s : State := s1; s.modPwr (fun w => { w with resetting := none })); let f : Option (Nat × Nat) := none; let copy : Option Nat := (let u : State := (let s : State := s1; s.modPwr (fun w => { w with resetting := none })); (if u.headerValid 0 then some 0 else if u.headerValid 1 then some 1 else none)); u.attemptFails f copy)).get (by decide +kernel)).1, (((let u : State := (let s : State := s1; s.modPwr (fun w => { w with resetting := none })); let f : Option (Nat × Nat) := none; let copy : Option Nat := (let u : State := (let s : State := s1; s.modPwr (fun w => { w with resetting := none })); (if u.headerValid 0 then some 0 else if u.headerValid 1 then some 1 else none)); u.attemptFails f copy)).get (by decide +kernel)).2, by decide +kernel, by decide +kernel⟩,
   ⟨mp (fun p => { p with failed := 2 }) s1, _, none, _, by decide +kernel, by decide +kernel, by decide +kernel, by decide +kernel, rfl, rfl, (((let u : State := (let s : State := mp (fun p => { p with failed := 2 }) s1; s.modPwr (fun w => { w with resetting := none })); let f : Option (Nat × Nat) := none; let copy : Option Nat := (let u : State := (let s : State := mp (fun p => { p with failed := 2 }) s1; s.modPwr (fun w => { w with resetting := none })); (if u.headerValid 0 then some 0 else if u.headerValid 1 then some 1 else none)); u.attemptFails f copy)).get (by decide +kernel)).1, (((let u : State := (let s : State := mp (fun p => { p with failed := 2 }) s1; s.modPwr (fun w => { w with resetting := none })); let f : Option (Nat × Nat) := none; let copy : Option Nat := (let u : State := (let s : State := mp (fun p => { p with failed := 2 }) s1; s.modPwr (fun w => { w with resetting := none })); (if u.headerValid 0 then some 0 else if u.headerValid 1 then some 1 else none)); u.attemptFails f copy)).get (by decide +kernel)).2, by decide +kernel, by decide +kernel⟩,
   ⟨ph 1 warm, 0xF, by decide +kernel, by decide +kernel, by decide +kernel, by decide +kernel⟩,
   ⟨ph 2 warm, 0xF, by decide +kernel, by decide +kernel, by decide +kernel⟩,
   ⟨ph 2 (mp (fun p => { p with lost25 := true }) warm), 0xF, by decide +kernel, by decide +kernel, by decide +kernel⟩,
   ⟨ph 3 warm, 0xF, by decide +kernel, by decide +kernel, by decide +kernel, by decide +kernel⟩,
   ⟨ph 4 warm, 0xF, by decide +kernel, by decide +kernel⟩,
   ⟨ph 5 warm, 0xF, by decide +kernel, by decide +kernel⟩,
   ⟨ph 6 (warm.putFlag F.STA_STAT_RECOVERY true), 0xF, by decide +kernel, by decide +kernel, by decide +kernel⟩,
   ⟨ph 6 warm, 0xF, by decide +kernel, by decide +kernel, by decide +kernel, by decide +kernel⟩,
   ⟨ph 7 warm, 0xF, by decide +kernel, by decide +kernel, by decide +kernel⟩,
   ⟨ph 7 (mp (fun p => { p with saved := true, waking := some ⟨1, true, 5⟩ }) dorm), 0xF, by decide +kernel, ((let s : State := ph 7 (mp (fun p => { p with saved := true, waking := some ⟨1, true, 5⟩ }) dorm); s.pwr.waking)).get (by decide +kernel), by decide +kernel, (Option.some_get _).symm⟩,
   ⟨warm, by decide +kernel⟩,
   ⟨ph 8 warm, by decide +kernel, by decide +kernel⟩,
   ⟨ph 8 (mp (fun p => { p with saved := true, waking := some ⟨1, true, 5⟩, stored := some (2, 1, 1) }) dorm), ((let s : State := ph 8 (mp (fun p => { p with saved := true, waking := some ⟨1, true, 5⟩, stored := some (2, 1, 1) }) dorm); s.pwr.waking)).get (by decide +kernel), (((let s : State := ph 8 (mp (fun p => { p with saved := true, waking := some ⟨1, true, 5⟩, stored := some (2, 1, 1) }) dorm); s.pwr.stored)).get (by decide +kernel)).1, (((let s : State := ph 8 (mp (fun p => { p with saved := true, waking := some ⟨1, true, 5⟩, stored := some (2, 1, 1) }) dorm); s.pwr.stored)).get (by decide +kernel)).2.1, (((let s : State := ph 8 (mp (fun p => { p with saved := true, waking := some ⟨1, true, 5⟩, stored := some (2, 1, 1) }) dorm); s.pwr.stored)).get (by decide +kernel)).2.2, by decide +kernel, (Option.some_get _).symm, by decide +kernel, by decide +kernel, by decide +kernel, by decide +kernel⟩,
   ⟨shw, by decide +kernel⟩,
   ⟨tr warm, ((let s : State := tr warm; s.sys.trans)).get (by decide +kernel), (Option.some_get _).symm, by decide +kernel, by decide +kernel, by decide +kernel⟩,
   ⟨aw dorm, none, true, ((let s : State := aw dorm; let f : Option RxFrame := none; (match f with | none => if s.flag F.NET_WAKE_CTL_LINK_EN then some 1 else none | some f => s.wakeMatch f))).get (by decide +kernel), (Option.some_get _).symm, by decide +kernel, by decide +kernel⟩,
   ⟨wkS, some wkF, true, ((let s : State := wkS; let f : Option RxFrame := some wkF; (match f with | none => if s.flag F.NET_WAKE_CTL_LINK_EN then some 1 else none | some f => s.wakeMatch f))).get (by decide +kernel), (Option.some_get _).symm, by decide +kernel, by decide +kernel, by decide +kernel⟩,
   ⟨warm, ⟨[], false, 0, 0⟩, true, by decide +kernel⟩,
   ⟨aw (mp (fun p => { p with dormantAt := some 8 }) dorm), true, ((let s : State := aw (mp (fun p => { p with dormantAt := some 8 }) dorm); s.pwr.dormantAt)).get (by decide +kernel), (Option.some_get _).symm, by decide +kernel, by decide +kernel⟩,
   ⟨(mp (fun p => { p with dormantAt := some 8 }) warm), true, ((let s : State := (mp (fun p => { p with dormantAt := some 8 }) warm); s.pwr.dormantAt)).get (by decide +kernel), (Option.some_get _).symm, by decide +kernel⟩⟩

end C21c

namespace C22
def inj (det unit arg cnt : Nat) (s : State) : State := (((s.put F.FLT_INJ_SEL_DETECTOR det).put F.FLT_INJ_SEL_UNIT unit).put R.FLT_INJ_ARG arg).put F.FLT_INJ_SEL_COUNT cnt
def arm (s : State) : State := { s with flt := { s.flt with armed := some ⟨0x2E, 3, 0, 6, false, none⟩ } }
def rcd (c : Nat) : TallyRec := ⟨c, 777, [1, 2]⟩
def int (c : Nat) (s : State) : State := s.modTly (fun y => { y with intake := [rcd c, rcd 3] })
def nx (c : Nat) (s : State) : State := s.modTly (fun y => { y with intake := [rcd 3] })

theorem test_meets_InjectionsAndRecords_w22 :
    (∃ (s : State), ∃ (key : Nat), key ≠ 0xFA17) ∧
    (∃ (s : State), ∃ (det : Nat), ∃ (unit : Nat), ∃ (arg : Nat), ∃ (n : Nat), ∃ (st : Nat), det = s.get F.FLT_INJ_SEL_DETECTOR ∧ unit = s.get F.FLT_INJ_SEL_UNIT ∧ arg = s.get R.FLT_INJ_ARG ∧ firstFail (s.injectionChecks det unit arg) = (n, st)) ∧
    (∃ (s : State), s.flt.armed = none) ∧
    (∃ (s : State), ∃ (a : Armed), s.flt.armed = some a) ∧
    (∃ (s : State), ∃ (cut : Bool), s.tly.intake = []) ∧
    (∃ (s : State), ∃ (u : State), ∃ (cut : Bool), ∃ (r : TallyRec), ∃ (l : List TallyRec), s.tly.intake = r :: l ∧ (u = s.modTly (fun y => { y with intake := l })) ∧ s.codeRate r.code = 255) :=
  ⟨⟨warm, 5, by decide +kernel⟩,
   ⟨inj 0 30 0 65 warm, _, _, _, (let s : State := inj 0 30 0 65 warm; let det : Nat := (let s : State := inj 0 30 0 65 warm; s.get F.FLT_INJ_SEL_DETECTOR); let unit : Nat := (let s : State := inj 0 30 0 65 warm; s.get F.FLT_INJ_SEL_UNIT); let arg : Nat := (let s : State := inj 0 30 0 65 warm; s.get R.FLT_INJ_ARG); firstFail (s.injectionChecks det unit arg)).1, (let s : State := inj 0 30 0 65 warm; let det : Nat := (let s : State := inj 0 30 0 65 warm; s.get F.FLT_INJ_SEL_DETECTOR); let unit : Nat := (let s : State := inj 0 30 0 65 warm; s.get F.FLT_INJ_SEL_UNIT); let arg : Nat := (let s : State := inj 0 30 0 65 warm; s.get R.FLT_INJ_ARG); firstFail (s.injectionChecks det unit arg)).2, rfl, rfl, rfl, rfl⟩,
   ⟨warm, by decide +kernel⟩,
   ⟨(arm warm).put F.FLT_INJ_STAT_REMAINING 6, ((let s : State := (arm warm).put F.FLT_INJ_STAT_REMAINING 6; s.flt.armed)).get (by decide +kernel), (Option.some_get _).symm⟩,
   ⟨warm, true, by decide +kernel⟩,
   ⟨int 0x20 warm, nx 0 (int 0x20 warm), true, rcd 0x20, [rcd 3], by decide +kernel, by decide +kernel, by decide +kernel⟩⟩

end C22

namespace C22b
def rcd (c : Nat) : TallyRec := ⟨c, 777, [1, 2^64+2]⟩
def rg (off : Nat) (s : State) : State := (s.put F.TLY_NEXT_OFFSET off).modTly (fun y => { y with ring := [⟨0, 16, 4⟩, ⟨16, 32, 5⟩] })
def mir (s : State) : State := (s.putFlag F.TLY_CTL_MIRROR_EN true).modPwr (fun p => { p with opts := { p.opts with tallyLen := 131072, tallyOff := 0x200000 } })
def m1 (s : State) : State := mir ((rg 48 s).modTly (fun y => { y with mirror := { y.mirror with used := 500, cur := 1 } }))
def m2 : State := ((m1 warm).put64 R.TLY_MIRROR_SEQ_LO 5).writeTally 16 [1,2,3,4,255,6]
def ck (s : State) : State := ((s.putFlag F.CK_CTL_EN true 3).put F.CK_CTL_POINT 1 3).put F.CK_CTL_ALG 0 3

theorem test_meets_InjectionsAndRecords_w22b :
    (∃ (s : State), ∃ (r : TallyRec), ∃ (next : Nat), ∃ (len : Nat), next = s.get F.TLY_NEXT_OFFSET ∧ r.items.length ≤ 30 ∧ len = 16 + 8 * r.items.length ∧ next + len ≤ ringBytes ∧ (s.tly.ring.all (fun q => decide (next + len ≤ q.off ∨ q.off + q.len ≤ next)) = true)) ∧
    (∃ (s : State), ∃ (u : State), (u = s.modTly (fun y => { y with second := [] })) ∧ s.tly.second = []) ∧
    (∃ (s : State), ∃ (u : State), (u = s.modTly (fun y => { y with second := [] })) ∧ ∃ c, ∃ n, ∃ d, ∃ m, s.tly.second = [(c, n), (d, m)]) ∧
    (∃ (s : State), ∃ (er : Bool), ∃ (pr : Bool), (s.flag F.TLY_CTL_MIRROR_EN = false ∨ s.mirrorRegion = false ∨ bitAt (s.get F.PCR_PD_STAT_ON) 1 = false)) ∧
    (∃ (s : State), ∃ (er : Bool), ∃ (pr : Bool), ∃ (r : RingRec), s.flag F.TLY_CTL_MIRROR_EN = true ∧ s.mirrorRegion = true ∧ bitAt (s.get F.PCR_PD_STAT_ON) 1 = true ∧ (s.tly.ring.find? (fun r => decide (s.get64 R.TLY_MIRROR_SEQ_LO ≤ r.seq) && s.tly.reserved != some r) = some r) ∧ 0 < s.tly.mirror.used ∧ s.tly.mirror.used + r.len ≤ 65536) ∧
    (∃ (s : State), ∃ (u : Fin 8), ∃ (a : Nat), ∃ (n : Nat), ∃ (v : Nat), ∃ (m : List Nat), (s.flag F.CK_CTL_EN u = false ∨ s.get F.CK_CTL_POINT u = 0 ∨ (s.flag F.CK_CTL_MATCH_EN u = true ∧ s.get F.CK_MATCH_A u ≠ a % 65536))) ∧
    (∃ (s : State), ∃ (u : Fin 8), ∃ (a : Nat), ∃ (n : Nat), ∃ (variant : Nat), ∃ (v : Nat), ∃ (m : List Nat), ∃ (alg : CrcAlg), s.flag F.CK_CTL_EN u = true ∧ s.get F.CK_CTL_POINT u ≠ 0 ∧ ((s.flag F.CK_CTL_MATCH_EN u = true → s.get F.CK_MATCH_A u = a % 65536)) ∧ s.flt.armed = none ∧ alg = crcAlgOf (s.get F.CK_CTL_ALG u) ∧ v = crcSeeded alg (checkSeed alg (s.get F.CK_CTL_POINT u) (s.get F.CK_CTL_FOLD u) (a % 65536) n variant m) m) :=
  ⟨⟨warm, rcd 5, _, _, rfl, by decide +kernel, rfl, by decide +kernel, by decide +kernel⟩,
   ⟨warm, _, rfl, by decide +kernel⟩,
   ⟨warm.modTly (fun y => { y with second := [(3, 5), (4, 7)] }), _, rfl, 3, 5, 4, 7, by decide +kernel⟩,
   ⟨warm, true, false, by decide +kernel⟩,
   ⟨m2, true, true, ((let s : State := m2; s.tly.ring.find? (fun r => decide (s.get64 R.TLY_MIRROR_SEQ_LO ≤ r.seq) && s.tly.reserved != some r))).get (by decide +kernel), by decide +kernel, by decide +kernel, by decide +kernel, (Option.some_get _).symm, by decide +kernel, by decide +kernel⟩,
   ⟨warm, 3, 5, 6, 7, [1,2], by decide +kernel⟩,
   ⟨ck warm, 3, 5, 6, 7, crcSeeded (crcAlgOf 0) (checkSeed (crcAlgOf 0) 1 0 5 6 7 [1,2,3]) [1,2,3], [1,2,3], _, by decide +kernel, by decide +kernel, by decide +kernel, by decide +kernel, rfl, by decide +kernel⟩⟩

end C22b

namespace C23
def mu (f : Upd → Upd) (s : State) : State := s.modUpd f
def im (v : Nat) : FwImage := ⟨v, 3, 1, 1, 1, 1, 1, 1, 1, 1, 4096⟩
def ph (k : Nat) (s : State) : State := s.put F.UPD_STAT_PHASE k
def nx (k : Nat) (s : State) : State := ph k (mu (fun u => { u with next := some (im 77), kind := 1, action := 2, running := [im 5, im 6], slots := [0, 1] }) s)
def rv (h : List Nat) (c : Nat) : State := mu (fun u => { u with handed := h, gapFrom := some 4 }) ((nx 6 warm).put F.UPD_STAT_CORE c)
def st9 : State := withStr { st0 with secVer := 9 } warm
def sl : State := { warm with flash := (((slotBytes 1 ((List.range 4).map (fun i => ⟨0, 0, 9, 6 + i / 2, if i % 2 = 0 then 3 else 1⟩))).zipIdx).filter (fun q => q.1 != 255)).map (fun q => (q.2, BitVec.ofNat 8 q.1)) }

theorem test_meets_LiveUpdateRuns :
    (∃ (s : State), ∃ (u : State), ∃ (w : Word), ∃ (rd : Reader), ∃ (n : Nat), ∃ (st : Nat), u = s.updCommand w.toNat ∧ s.flt.armed = none ∧ (rd = (fun o n => s.bulkLe (s.get64 R.UPD_SRC_LO + o) n)) ∧ firstFail (u.firmwareChecks rd false) = (n, st)) ∧
    (∃ (s : State), ∃ (o : Fin 4), (s.upd.next = none ∨ s.updPhase ≠ 2)) ∧
    (∃ (s : State), ∃ (u : State), ∃ (o : Fin 4), ∃ (i : FwImage), s.upd.next = some i ∧ s.updPhase = 2 ∧ o.val ≠ 0 ∧ u = s.updateSlots 0 (setSlot s.upd.kind s.targetSlot 4)) ∧
    (∃ (s : State), s.updPhase ≠ 4 ∧ s.updPhase ≠ 6) ∧
    (∃ (s : State), s.get F.UPD_STAT_CORE = 0) ∧
    (∃ (s : State), s.updPhase ≠ 4) ∧
    (∃ (s : State), s.updPhase = 4) ∧
    (∃ (s : State), ∃ (f : Nat), s.upd.next = none) ∧
    (∃ (s : State), ∃ (f : Nat), s.updPhase ≠ 4 ∧ s.updPhase ≠ 6) ∧
    (∃ (s : State), ∃ (f : Nat), ∃ (core : Nat), ∃ (gap : Nat), ∃ (i : FwImage), s.upd.next = some i ∧ i.version < 2 ^ 32 ∧ core = s.get F.UPD_STAT_CORE ∧ core ≤ 3 ∧ gap = (s.uptime - s.upd.gapFrom.getD s.uptime) / 1000000 ∧ s.updPhase = 4 ∧ ∃ c, ∃ l, ((coreOrder s.upd.kind).filter (fun c => !(s.upd.handed ++ [core]).contains c) = c :: l)) ∧
    (∃ (s : State), ∃ (f : Nat), ∃ (core : Nat), ∃ (gap : Nat), ∃ (i : FwImage), s.upd.next = some i ∧ (s.firmware s.upd.kind).version < 2 ^ 32 ∧ core = s.get F.UPD_STAT_CORE ∧ core ≤ 3 ∧ gap = (s.uptime - s.upd.gapFrom.getD s.uptime) / 1000000 ∧ s.updPhase = 6) ∧
    (∃ (s : State), ∃ (f : Nat), (s.updPhase ≠ 5 ∨ s.upd.expired ≠ [] ∨ (kindActivities s.upd.kind).any (fun a => s.get F.SYS_BG_STAT_LEVEL a != 0) = true)) ∧
    (∃ (s : State), ∃ (f : Nat), s.updPhase = 5 ∧ s.upd.expired = [] ∧ ((kindActivities s.upd.kind).all (fun a => s.get F.SYS_BG_STAT_LEVEL a == 0) = true)) ∧
    (∃ (s : State), ∃ (u : State), ∃ (f : Nat), u = s.put F.UPD_CMD_OP 2 ∧ s.updPhase ≠ 5) ∧
    (∃ (s : State), ∃ (u : State), ∃ (f : Nat), u = s.put F.UPD_CMD_OP 2 ∧ s.updPhase = 5) ∧
    (∃ (s : State), ∃ (f : Nat), (s.upd.selfOk = false ∨ (s.flag F.UPD_CTL_HOST_CONFIRM = true ∧ s.upd.hostOk = false))) ∧
    (∃ (s : State), ∃ (i : FwImage), s.upd.next = some i ∧ s.updPhase = 5 ∧ s.upd.selfOk = true ∧ (s.flag F.UPD_CTL_HOST_CONFIRM = false ∨ s.upd.hostOk = true)) ∧
    (∃ (s : State), ∃ (u : State), u = s.put F.UPD_CMD_OP 3 ∧ s.updPhase ≠ 5) ∧
    (∃ (s : State), ∃ (u : State), u = s.put F.UPD_CMD_OP 3 ∧ s.updPhase = 5) ∧
    (∃ (s : State), s.updPhase ≠ 5) ∧
    (∃ (s : State), ∃ (cause : Nat), s.upd.handed = []) ∧
    (∃ (s : State), ∃ (cause : Nat), ∃ c, s.upd.handed.getLast? = some c ∧ c ≤ 3) ∧
    (∃ (s : State), ∃ (u : State), u = s.put F.UPD_CMD_OP 4 ∧ (s.updPhase = 0 ∨ 4 ≤ s.updPhase)) ∧
    (∃ (s : State), ∃ (u : State), u = s.put F.UPD_CMD_OP 4 ∧ (s.updPhase = 1 ∨ s.updPhase = 3)) ∧
    (∃ (s : State), ∃ (u : State), u = s.put F.UPD_CMD_OP 4 ∧ s.updPhase = 2) ∧
    (∃ (s : State), ∃ (u : State), ∃ (v : State), u = s.put F.UPD_CMD_OP 5 ∧ v = s.put F.UPD_CMD_OP 6 ∧ (s.updPhase = 5 ∨ s.updPhase = 6)) ∧
    (∃ (s : State), ∃ (u : State), ∃ (v : State), u = s.put F.UPD_CMD_OP 5 ∧ v = s.put F.UPD_CMD_OP 6 ∧ s.updPhase ≠ 5 ∧ s.updPhase ≠ 6 ∧ s.str.inForce = none) ∧
    (∃ (s : State), ∃ (u : State), ∃ (v : State), u = s.put F.UPD_CMD_OP 5 ∧ v = s.put F.UPD_CMD_OP 6 ∧ s.updPhase ≠ 5 ∧ s.updPhase ≠ 6 ∧ ∃ st, s.str.inForce = some st ∧ st.secVer ≤ s.fuses.strCounter) ∧
    (∃ (s : State), ∃ (u : State), ∃ (v : State), u = s.put F.UPD_CMD_OP 5 ∧ v = s.put F.UPD_CMD_OP 6 ∧ s.updPhase ≠ 5 ∧ s.updPhase ≠ 6 ∧ (s.confirmedSec 0 = none ∨ s.confirmedSec 1 = none)) ∧
    (∃ (s : State), ∃ (u : State), ∃ (v : State), u = s.put F.UPD_CMD_OP 5 ∧ v = s.put F.UPD_CMD_OP 6 ∧ s.updPhase ≠ 5 ∧ s.updPhase ≠ 6 ∧ ∃ a, ∃ b, s.confirmedSec 0 = some a ∧ s.confirmedSec 1 = some b ∧ min a b ≤ s.fuses.fwCounter) ∧
    (∃ (s : State), ∃ (u : State), ∃ (i : FwImage), s.upd.next = some i ∧ s.updPhase = 2 ∧ u = (s.writeFlash (s.slotEntry s.upd.kind s.targetSlot).offset (s.bulkBytes updateBuffer i.len)).updateSlots 0 (fun k n x => if k = s.upd.kind ∧ n = s.targetSlot then { x with version := i.version, secVer := i.secVer, state := 1 } else x) ∧ s.upd.action = 1) ∧
    (∃ (s : State), ∃ (u : State), ∃ (i : FwImage), s.upd.next = some i ∧ s.updPhase = 2 ∧ u = (s.writeFlash (s.slotEntry s.upd.kind s.targetSlot).offset (s.bulkBytes updateBuffer i.len)).updateSlots 0 (fun k n x => if k = s.upd.kind ∧ n = s.targetSlot then { x with version := i.version, secVer := i.secVer, state := 1 } else x) ∧ s.upd.action = 2) :=
  ⟨⟨warm, warm.updCommand 9, 9, _, (let u : State := warm.updCommand 9; let rd : Reader := (let s : State := warm; (fun o n => s.bulkLe (s.get64 R.UPD_SRC_LO + o) n)); firstFail (u.firmwareChecks rd false)).1, (let u : State := warm.updCommand 9; let rd : Reader := (let s : State := warm; (fun o n => s.bulkLe (s.get64 R.UPD_SRC_LO + o) n)); firstFail (u.firmwareChecks rd false)).2, by decide +kernel, by decide +kernel, rfl, rfl⟩,
   ⟨warm, 2, by decide +kernel⟩,
   ⟨nx 2 warm, _, 2, ((let s : State := nx 2 warm; s.upd.next)).get (by decide +kernel), (Option.some_get _).symm, by decide +kernel, by decide +kernel, rfl⟩,
   ⟨warm, by decide +kernel, by decide +kernel⟩,
   ⟨(nx 4 warm).put F.UPD_STAT_CORE 0, by decide +kernel⟩,
   ⟨nx 5 warm, by decide +kernel⟩,
   ⟨nx 4 warm, by decide +kernel⟩,
   ⟨warm, 1, by decide +kernel⟩,
   ⟨warm, 1, by decide +kernel, by decide +kernel⟩,
   ⟨(nx 4 warm).put F.UPD_STAT_CORE 3, 0, _, _, ((let s : State := (nx 4 warm).put F.UPD_STAT_CORE 3; s.upd.next)).get (by decide +kernel), (Option.some_get _).symm, by decide +kernel, rfl, by decide +kernel, rfl, by decide +kernel, 2, [1], by decide +kernel⟩,
   ⟨rv [2] 2, 0, _, _, ((let s : State := rv [2] 2; s.upd.next)).get (by decide +kernel), (Option.some_get _).symm, by decide +kernel, rfl, by decide +kernel, rfl, by decide +kernel⟩,
   ⟨warm, 3, by decide +kernel⟩,
   ⟨nx 5 warm, 0, by decide +kernel, by decide +kernel, by decide +kernel⟩,
   ⟨warm, _, 0, rfl, by decide +kernel⟩,
   ⟨nx 5 warm, _, 0, rfl, by decide +kernel⟩,
   ⟨nx 5 warm, 2, by decide +kernel⟩,
   ⟨mu (fun u => { u with selfOk := true, hostOk := true, trialAt := some 4 }) (nx 5 warm), ((let s : State := mu (fun u => { u with selfOk := true, hostOk := true, trialAt := some 4 }) (nx 5 warm); s.upd.next)).get (by decide +kernel), (Option.some_get _).symm, by decide +kernel, by decide +kernel, by decide +kernel⟩,
   ⟨warm, _, rfl, by decide +kernel⟩,
   ⟨nx 5 warm, _, rfl, by decide +kernel⟩,
   ⟨warm, by decide +kernel⟩,
   ⟨nx 5 warm, 2, by decide +kernel⟩,
   ⟨mu (fun u => { u with trialAt := some 4, handed := [3,2,1] }) (nx 5 warm), 2, ((let s : State := mu (fun u => { u with trialAt := some 4, handed := [3,2,1] }) (nx 5 warm); s.upd.handed.getLast?)).get (by decide +kernel), (Option.some_get _).symm, by decide +kernel⟩,
   ⟨warm, _, rfl, by decide +kernel⟩,
   ⟨nx 3 warm, _, rfl, by decide +kernel⟩,
   ⟨nx 2 warm, _, rfl, by decide +kernel⟩,
   ⟨nx 5 warm, _, _, rfl, rfl, by decide +kernel⟩,
   ⟨sl, _, _, rfl, rfl, by decide +kernel, by decide +kernel, by decide +kernel⟩,
   ⟨sp warm, _, _, rfl, rfl, by decide +kernel, by decide +kernel, ((let s : State := sp warm; s.str.inForce)).get (by decide +kernel), (Option.some_get _).symm, by decide +kernel⟩,
   ⟨st9, _, _, rfl, rfl, by decide +kernel, by decide +kernel, by decide +kernel⟩,
   ⟨{ sl with fuses := { sl.fuses with fwCounter := 8 } }, _, _, rfl, rfl, by decide +kernel, by decide +kernel, ((let s : State := { sl with fuses := { sl.fuses with fwCounter := 8 } }; s.confirmedSec 0)).get (by decide +kernel), ((let s : State := { sl with fuses := { sl.fuses with fwCounter := 8 } }; s.confirmedSec 1)).get (by decide +kernel), (Option.some_get _).symm, (Option.some_get _).symm, by decide +kernel⟩,
   ⟨mu (fun u => { u with action := 1 }) (nx 2 warm), _, im 77, by decide +kernel, by decide +kernel, rfl, by decide +kernel⟩,
   ⟨nx 2 warm, _, im 77, by decide +kernel, by decide +kernel, rfl, by decide +kernel⟩⟩

end C23

/-! ## Well-formedness: each check refuses an ill-formed command -/

def someDesc : Desc := ⟨0, 0, 0, 0, 0, 0, 0, 0, 0, 0, 0, false⟩
def someUse : ItemUse := ⟨1, [(4, 1)], []⟩
def someReq : MemReq := ⟨.kernel, some (1, 1), 0, 0, 64, false, .none, .none⟩
def somePacket : RtpPacket := ⟨2, 1, 1, 1, false, []⟩
def someJoin : JoinRec := ⟨1, 1, 1, 1, 1, 1, 1, 1, 1⟩
def someMessage : PtpMessage := ⟨0, 1, 1, 1, .other⟩
def someHeartbeat : Heartbeat := ⟨2, true, false, false, false, false, false, 0, 0, 0, 0, 0, 0, 0, 0, 0⟩

theorem test_wf_register_write :
    [Instr.registerWrite .host (.bar0 0x4000000 [0]), .registerWrite .host (.bar0 0 []), .registerWrite .host (.bar0 0 [256]),
     .registerWrite .host (.cfg (.maxPayload 8))].map Instr.wf = [false, false, false, false] := by decide +kernel
theorem test_wf_rc_read :
    [Instr.rcRead .host 0x4000000 4, .rcRead .host 0 0, .consume .host 0x4000000, .readAbandoned .host 0x4000000].map Instr.wf =
      [false, false, false, false] := by decide +kernel
theorem test_wf_descriptor :
    [{ someDesc with opcode := 256 }, { someDesc with tag := 2 ^ 32 }, { someDesc with frame := 2 ^ 64 },
     { someDesc with param := 65536 }, { someDesc with value := 2 ^ 128 }].map (fun d => (Instr.commit 0 d).wf) =
      [false, false, false, false, false] := by decide +kernel
theorem test_wf_engines :
    [Instr.ceFault 0 0, .ceFault 0 6, .itemComplete 0 0 0 someUse, .chDrained 64 0, .chDrained 0 (2 ^ 18)].map Instr.wf =
      [false, false, false, false, false] := by decide +kernel
theorem test_wf_memory :
    [{ someReq with kind := some (12, 0) }, { someReq with kind := some (0, 8) }, { someReq with addr := 2 ^ 34 },
     { someReq with len := 0 }, { someReq with addr := 1 }].map (fun r => (Instr.memAccess 0 [r]).wf) =
      [false, false, false, false, false] := by decide +kernel
theorem test_wf_ingest :
    [Instr.packetReceive 0 false { somePacket with version := 4 }, .packetReceive 0 false { somePacket with seq := 2 ^ 32 },
     .packetReceive 0 false { somePacket with srds := [⟨false, 2 ^ 15, 0, []⟩] },
     .packetReceive 0 false { somePacket with srds := [⟨false, 0, 0, [256]⟩] }, .igmpQuery 0 1 0, .igmpQuery 0 3 (2 ^ 64)].map
      Instr.wf = [false, false, false, false, false, false] := by decide +kernel
theorem test_wf_links :
    [Instr.frameReceive 0 ⟨[256], false, 0, 0⟩, .wake (some ⟨[256], false, 0, 0⟩) true, .arpRequest 0 (2 ^ 32), .arpUnresolved 0 (2 ^ 32),
     .arpExpire 0 (2 ^ 32)].map Instr.wf = [false, false, false, false, false] := by decide +kernel
theorem test_wf_rings :
    [Instr.joinRequest 0 none none { someJoin with w := 65536 } 0 0,
     .telemetryReceive 0 1 none none [.status (2 ^ 32) 0 0 0 0 0 0 0], .telemetryReceive 0 1 none none [.temp 0 (2 ^ 15)],
     .telemetryReceive 0 1 none none [.sensor 0 (2 ^ 32) 0 0 true false false],
     .telemetryReceive 0 1 none none [.linkstat 65536 0 0], .telemetryReceive 0 1 none none [.other 256]].map Instr.wf =
      [false, false, false, false, false, false] := by decide +kernel
theorem test_wf_outputs :
    [Instr.sacnSync 0 0, .sacnSync 0 64000, .ddShift 0 0 [65536] [], .ddShift 0 0 [] [65536], .sensorRead 0 (.report (2 ^ 32) 0 0 0 true false false) .nak,
     .startUpWalk 0 (some ⟨15, 0, 0, false⟩), .idleWalk 0 (some ⟨0, 0, 32, false⟩)].map Instr.wf =
      [false, false, false, false, false, false, false] := by decide +kernel
theorem test_wf_time :
    [Instr.ptpMessage 0 { someMessage with domain := 256 }, .ptpMessage 0 { someMessage with source := 2 ^ 80 },
     .ptpMessage 0 { someMessage with ip := 2 ^ 32 }, .ptpMessage 0 { someMessage with seq := 65536 }].map Instr.wf =
      [false, false, false, false] := by decide +kernel
theorem test_wf_pails :
    [Instr.lengthWordWrite 0 0 [256], .plWrWrite 0 (2 ^ 32), .plRdWrite 0 (2 ^ 32), .checkValue 0 0 0 0 [256],
     .injectionArmed 65536, .injectionCancelled 65536].map Instr.wf = [false, false, false, false, false, false] := by decide +kernel
theorem test_wf_host_link :
    [Instr.hostLinkUp 0 1, .hostLinkUp 5 1, .hostLinkUp 4 3, .bar2Write (2 ^ 34) [0], .bar2Write 0 [256], .bridgeRead .host 0x4000000 4,
     .bridgeRead .host 0 0, .bridgeWrite .host 0x4000000 [0], .bridgeWrite .host 0 [256], .parity 0x4000000].map Instr.wf =
      [false, false, false, false, false, false, false, false, false, false] := by decide +kernel
theorem test_wf_pair :
    [Instr.heartbeatReceive false { someHeartbeat with role := 4 } none, .mirrorReceive (2 ^ 32) 0 0 0 (.mode 0),
     .mirrorReceive 0 0 65536 0 (.mode 0), .mirrorReceive 0 0 0 (2 ^ 32) (.mode 0), .ackReceive (2 ^ 32), .mirrorResend (2 ^ 32),
     .healthReport [], .healthReport (List.replicate 64 256)].map Instr.wf =
      [false, false, false, false, false, false, false, false] := by decide +kernel
theorem test_wf_accepts :
    [Instr.registerWrite .host (.bar0 0 [0, 0, 0, 0]), .commit 0 someDesc, .memAccess 0 [someReq], .ceFault 0 5, .hostLinkUp 4 4, .frameBoundary].map
      Instr.wf = [true, true, true, true, true, true] := by decide +kernel

/-! ## The command of a word: the table gives no row any bits -/

theorem test_no_word_spells_a_command : (decodeTableWord 32 0x80000001, decodeTableWord 0 0) = (none, none) := by decide

/-! ## The spec's own figures -/

/-- 00_scope.md line 124: handle 0x0418_0123 is KIND 1, GEN 6 and INDEX 291. -/
theorem test_handle_of_the_scope : (handleKind 0x04180123, handleGen 0x04180123, handleIndex 0x04180123) = (1, 6, 291) := by decide

/-- R538: the check values of the four algorithms over "123456789". -/
theorem test_check_values :
    (List.range 4).map (fun a => crcSeeded (crcAlgOf a) (if a = 3 then 0 else 2 ^ (crcAlgOf a).width - 1) [49, 50, 51, 52, 53, 54, 55, 56, 57]) =
      [0xE3069283, 0xCBF43926, 0x29B1, 0x6C40DF5F0B497347] := by decide +kernel

/-- 06_ingest.md line 135: a 10-bit grey of Y′ 502 has E′ = 1/2. -/
theorem test_grey_code : ((502 - 64 : Rat) / 876) = 1 / 2 := by decide +kernel

/-- 07_composition.md line 151: the taps and the width that fit 20 granules, by source. -/
theorem test_line_fit :
    [1024, 1280, 3840, 7680].map (fun w => lineFit 8 w 20 false) = [(8, 1024), (6, 1280), (1, 3840), (1, 5120)] := by decide +kernel

/-- 08_separator.md line 144: one pixel through stages 1 to 3. -/
theorem test_pixel_through_stages :
    let q := State.reset.stages ⟨5, 0, 1, .running, [], [], 0, none, false, 0⟩ ⟨[1980, 40, 0, -20, 2020, 0, 0, 0, 2090], [-16, 0, 0], false⟩
      [16056, 16384, 16712] [17040, 0, 0, 0, 16500, 0, 0, 0, 16384] 29491 [30000, 16000, 8000]
    (q.1, q.2.1) = ([28713, 15488, 8327], [26877, 14038, 7494]) := by decide +kernel

/-! ## The board -/

/-- R578: the signals and the ground balls. -/
theorem test_signal_balls : (ballCount Ball.isSignal, ballCount (· == .vss)) = (1215, 507) := by decide +kernel

/-- R578: the balls of the core, SRAM, I/O and Byre supplies. -/
theorem test_core_balls : [Ball.vddCore, .vddSram, .vddIo18, .vddByre].map (fun b => ballCount (· == b)) = [150, 45, 30, 15] := by
  decide +kernel

/-- R578: the balls of the memory, direct-drive and SerDes supplies. -/
theorem test_other_balls :
    [Ball.vddq, .vdd2h, .vddDd 0, .vddDd 1, .vddDd 2, .vddDd 3, .avddSd, .avddSdh].map (fun b => ballCount (· == b)) =
      [28, 16, 8, 8, 8, 8, 39, 39] := by decide +kernel

/-- 24_pins_and_electrical.md line 72: N7_TXP at AD1, DD12_DCLK at AE11, DD12_SDA at AY11. -/
theorem test_named_balls :
    [ballAt (ballRow "AD") 1, ballAt (ballRow "AE") 11, ballAt (ballRow "AY") 11] = [.laneTx 7 false, .dd 12 0, .dd 12 14] := by decide +kernel

end Sys2Proof.Tests
end

section
/-! PROOFS. What every command and every step keep (O4). -/
namespace Sys2Proof.Machine

/-- Every command answers a next state, and that state continues the one before and is canonical where it is. -/
theorem exec_keeps (c : Instr) (s : State) : ∃ t, exec c s = .next t ∧ Keeps s t := by
  have k := Keeps.refl s
  cases c with
  | registerWrite => exact ⟨_, rfl, doRegisterWrite_keeps k⟩
  | rcRead => exact ⟨_, rfl, doRcRead_keeps k⟩
  | consume => exact ⟨_, rfl, doConsume_keeps k⟩
  | readAbandoned => exact ⟨_, rfl, doReadAbandoned_keeps k⟩
  | frameBoundary => exact ⟨_, rfl, doFrameBoundary_keeps k⟩
  | workStart => exact ⟨_, rfl, doWorkStart_keeps k⟩
  | forecast => exact ⟨_, rfl, doForecast_keeps k⟩
  | forecastLate => exact ⟨_, rfl, doForecastLate_keeps k⟩
  | modelUpdate => exact ⟨_, rfl, doModelUpdate_keeps k⟩
  | bandUnsent => exact ⟨_, rfl, doBandUnsent_keeps k⟩
  | bgEscalate => exact ⟨_, rfl, doBgEscalate_keeps k⟩
  | bgRestored => exact ⟨_, rfl, doBgRestored_keeps k⟩
  | advanceWrite => exact ⟨_, rfl, doAdvanceWrite_keeps k⟩
  | modeRequest => exact ⟨_, rfl, doModeRequest_keeps k⟩
  | modeChange => exact ⟨_, rfl, doModeChange_keeps k⟩
  | rateChange => exact ⟨_, rfl, doRateChange_keeps k⟩
  | precisionChange => exact ⟨_, rfl, doPrecisionChange_keeps k⟩
  | dormantHandover => exact ⟨_, rfl, doDormantHandover_keeps k⟩
  | strLoad => exact ⟨_, rfl, doStrLoad_keeps k⟩
  | strValidated => exact ⟨_, rfl, doStrValidated_keeps k⟩
  | strApplied => exact ⟨_, rfl, doStrApplied_keeps k⟩
  | standinReady => exact ⟨_, rfl, doStandinReady_keeps k⟩
  | strEngineReady => exact ⟨_, rfl, doStrEngineReady_keeps k⟩
  | strHandbackFail => exact ⟨_, rfl, doStrHandbackFail_keeps k⟩
  | mergeDone => exact ⟨_, rfl, doMergeDone_keeps k⟩
  | strAbort => exact ⟨_, rfl, doStrAbort_keeps k⟩
  | sigTestStart => exact ⟨_, rfl, doSigTestStart_keeps k⟩
  | sigTestDone => exact ⟨_, rfl, doSigTestDone_keeps k⟩
  | sigNow => exact ⟨_, rfl, doSigNow_keeps k⟩
  | ceFault => exact ⟨_, rfl, doCeFault_keeps k⟩
  | itemOvertime => exact ⟨_, rfl, doItemOvertime_keeps k⟩
  | ceReload => exact ⟨_, rfl, doCeReload_keeps k⟩
  | ceQuarantine => exact ⟨_, rfl, doCeQuarantine_keeps k⟩
  | ceRetry => exact ⟨_, rfl, doCeRetry_keeps k⟩
  | create => exact ⟨_, rfl, State.command_keeps k⟩
  | destroy => exact ⟨_, rfl, State.command_keeps k⟩
  | start => exact ⟨_, rfl, State.command_keeps k⟩
  | stop => exact ⟨_, rfl, State.command_keeps k⟩
  | setParam => exact ⟨_, rfl, State.command_keeps k⟩
  | getParam => exact ⟨_, rfl, State.command_keeps k⟩
  | clearSet => exact ⟨_, rfl, State.command_keeps k⟩
  | copySet => exact ⟨_, rfl, State.command_keeps k⟩
  | commit => exact ⟨_, rfl, State.command_keeps k⟩
  | cancel => exact ⟨_, rfl, State.command_keeps k⟩
  | cueStore => exact ⟨_, rfl, State.command_keeps k⟩
  | cueLoad => exact ⟨_, rfl, State.command_keeps k⟩
  | cueFire => exact ⟨_, rfl, State.command_keeps k⟩
  | wait => exact ⟨_, rfl, State.command_keeps k⟩
  | query => exact ⟨_, rfl, State.command_keeps k⟩
  | chDrained => exact ⟨_, rfl, doChDrained_keeps k⟩
  | packetReceive => exact ⟨_, rfl, doPacketReceive_keeps k⟩
  | streamNoSignal => exact ⟨_, rfl, doStreamNoSignal_keeps k⟩
  | pathLost => exact ⟨_, rfl, doPathLost_keeps k⟩
  | igmpQuery => exact ⟨_, rfl, doIgmpQuery_keeps k⟩
  | jobSubmit => exact ⟨_, rfl, State.mirrored_keeps k (fun _ => doJobSubmit_keeps)⟩
  | jobDone => exact ⟨_, rfl, doJobDone_keeps k⟩
  | composeBand => exact ⟨_, rfl, doComposeBand_keeps k⟩
  | separateBand => exact ⟨_, rfl, doSeparateBand_keeps k⟩
  | wbComplete => exact ⟨_, rfl, doWbComplete_keeps k⟩
  | wbIncomplete => exact ⟨_, rfl, doWbIncomplete_keeps k⟩
  | coefLoad => exact ⟨_, rfl, State.mirrored_keeps k (fun _ => doCoefLoad_keeps)⟩
  | coefLoaded => exact ⟨_, rfl, doCoefLoaded_keeps k⟩
  | curveLoad => exact ⟨_, rfl, State.mirrored_keeps k (fun _ => doCurveLoad_keeps)⟩
  | curveLoaded => exact ⟨_, rfl, doCurveLoaded_keeps k⟩
  | accRead => exact ⟨_, rfl, doAccRead_keeps k⟩
  | accMissed => exact ⟨_, rfl, doAccMissed_keeps k⟩
  | windowClose => exact ⟨_, rfl, doWindowClose_keeps k⟩
  | calEvaluate => exact ⟨_, rfl, doCalEvaluate_keeps k⟩
  | calSkipped => exact ⟨_, rfl, doCalSkipped_keeps k⟩
  | gainLoad => exact ⟨_, rfl, State.mirrored_keeps k (fun _ => doGainLoad_keeps)⟩
  | clearFailedMarks => exact ⟨_, rfl, State.mirrored_keeps k (fun _ => doClearFailedMarks_keeps)⟩
  | voidOpenWindows => exact ⟨_, rfl, State.mirrored_keeps k (fun _ => doVoidOpenWindows_keeps)⟩
  | modelLoad => exact ⟨_, rfl, State.mirrored_keeps k (fun _ => doModelLoad_keeps)⟩
  | telemStale => exact ⟨_, rfl, doTelemStale_keeps k⟩
  | thermalFit => exact ⟨_, rfl, doThermalFit_keeps k⟩
  | fixtureFrame => exact ⟨_, rfl, doFixtureFrame_keeps k⟩
  | sacnData => exact ⟨_, rfl, doSacnData_keeps k⟩
  | sacnLate => exact ⟨_, rfl, doSacnLate_keeps k⟩
  | sacnSync => exact ⟨_, rfl, doSacnSync_keeps k⟩
  | universeDiscovery => exact ⟨_, rfl, doUniverseDiscovery_keeps k⟩
  | sacnHoldResend => exact ⟨_, rfl, doSacnHoldResend_keeps k⟩
  | univTerminated => exact ⟨_, rfl, doUnivTerminated_keeps k⟩
  | portEnable => exact ⟨_, rfl, doPortEnable_keeps k⟩
  | ddShift => exact ⟨_, rfl, doDdShift_keeps k⟩
  | shiftLate => exact ⟨_, rfl, doShiftLate_keeps k⟩
  | ddSyncEdge => exact ⟨_, rfl, doDdSyncEdge_keeps k⟩
  | syncLost => exact ⟨_, rfl, doSyncLost_keeps k⟩
  | senseWindow => exact ⟨_, rfl, doSenseWindow_keeps k⟩
  | sensorRead => exact ⟨_, rfl, doSensorRead_keeps k⟩
  | startUpWalk => exact ⟨_, rfl, doStartUpWalk_keeps k⟩
  | idleWalk => exact ⟨_, rfl, doIdleWalk_keeps k⟩
  | releaseBlanked => exact ⟨_, rfl, doReleaseBlanked_keeps k⟩
  | testStart => exact ⟨_, rfl, doTestStart_keeps k⟩
  | testEnd => exact ⟨_, rfl, doTestEnd_keeps k⟩
  | timeFrame => exact ⟨_, rfl, doTimeFrame_keeps k⟩
  | linkDelayRequest => exact ⟨_, rfl, doLinkDelayRequest_keeps k⟩
  | linkFrameReceive => exact ⟨_, rfl, doLinkFrameReceive_keeps k⟩
  | joinRequest => exact ⟨_, rfl, doJoinRequest_keeps k⟩
  | grantUpdate => exact ⟨_, rfl, doGrantUpdate_keeps k⟩
  | telemetryReceive => exact ⟨_, rfl, doTelemetryReceive_keeps k⟩
  | reachTimeout => exact ⟨_, rfl, doReachTimeout_keeps k⟩
  | holdFrame => exact ⟨_, rfl, doHoldFrame_keeps k⟩
  | darkBroadcast => exact ⟨_, rfl, doDarkBroadcast_keeps k⟩
  | ptpMessage => exact ⟨_, rfl, doPtpMessage_keeps k⟩
  | syncSend => exact ⟨_, rfl, doSyncSend_keeps k⟩
  | announceSend => exact ⟨_, rfl, doAnnounceSend_keeps k⟩
  | delayReqSend => exact ⟨_, rfl, doDelayReqSend_keeps k⟩
  | wclkEdge => exact ⟨_, rfl, doWclkEdge_keeps k⟩
  | holdoverEnter => exact ⟨_, rfl, doHoldoverEnter_keeps k⟩
  | slewDone => exact ⟨_, rfl, doSlewDone_keeps k⟩
  | stepped => exact ⟨_, rfl, doStepped_keeps k⟩
  | timeSet => exact ⟨_, rfl, doTimeSet_keeps k⟩
  | applyStep => exact ⟨_, rfl, doApplyStep_keeps k⟩
  | frameReceive => exact ⟨_, rfl, doFrameReceive_keeps k⟩
  | pauseBreak => exact ⟨_, rfl, doPauseBreak_keeps k⟩
  | pauseBreakEnd => exact ⟨_, rfl, doPauseBreakEnd_keeps k⟩
  | eyeMeasure => exact ⟨_, rfl, doEyeMeasure_keeps k⟩
  | eqRetrain => exact ⟨_, rfl, doEqRetrain_keeps k⟩
  | linkDown => exact ⟨_, rfl, doLinkDown_keeps k⟩
  | linkUp => exact ⟨_, rfl, doLinkUp_keeps k⟩
  | arpRequest => exact ⟨_, rfl, doArpRequest_keeps k⟩
  | arpUnresolved => exact ⟨_, rfl, doArpUnresolved_keeps k⟩
  | arpExpire => exact ⟨_, rfl, doArpExpire_keeps k⟩
  | exactEntryWrite => exact ⟨_, rfl, doExactEntryWrite_keeps k⟩
  | wake => exact ⟨_, rfl, doWake_keeps k⟩
  | wakeAlarm => exact ⟨_, rfl, doWakeAlarm_keeps k⟩
  | dispatch => exact ⟨_, rfl, doDispatch_keeps k⟩
  | itemComplete => exact ⟨_, rfl, doItemComplete_keeps k⟩
  | pailReserve => exact ⟨_, rfl, doPailReserve_keeps k⟩
  | producerResume => exact ⟨_, rfl, doProducerResume_keeps k⟩
  | lengthWordWrite => exact ⟨_, rfl, doLengthWordWrite_keeps k⟩
  | hwConsumerRead => exact ⟨_, rfl, doHwConsumerRead_keeps k⟩
  | flush => exact ⟨_, rfl, doFlush_keeps k⟩
  | plWrWrite => exact ⟨_, rfl, doPlWrWrite_keeps k⟩
  | plRdWrite => exact ⟨_, rfl, doPlRdWrite_keeps k⟩
  | plPop => exact ⟨_, rfl, doPlPop_keeps k⟩
  | popWaitExpire => exact ⟨_, rfl, doPopWaitExpire_keeps k⟩
  | hostLinkUp => exact ⟨_, rfl, doHostLinkUp_keeps k⟩
  | hostLinkDown => exact ⟨_, rfl, doHostLinkDown_keeps k⟩
  | flr => exact ⟨_, rfl, doFlr_keeps k⟩
  | bar2Write => exact ⟨_, rfl, doBar2Write_keeps k⟩
  | bridgeRead => exact ⟨_, rfl, doBridgeRead_keeps k⟩
  | bridgeWrite => exact ⟨_, rfl, doBridgeWrite_keeps k⟩
  | boostFail => exact ⟨_, rfl, doBoostFail_keeps k⟩
  | boostStop => exact ⟨_, rfl, doBoostStop_keeps k⟩
  | msixUnmask => exact ⟨_, rfl, doMsixUnmask_keeps k⟩
  | semTake => exact ⟨_, rfl, doSemTake_keeps k⟩
  | semGive => exact ⟨_, rfl, doSemGive_keeps k⟩
  | semRevoked => exact ⟨_, rfl, doSemRevoked_keeps k⟩
  | poll => exact ⟨_, rfl, doPoll_keeps k⟩
  | aerUncorrectable => exact ⟨_, rfl, doAerUncorrectable_keeps k⟩
  | memAccess => exact ⟨_, rfl, doMemAccess_keeps k⟩
  | scrubPass => exact ⟨_, rfl, doScrubPass_keeps k⟩
  | scrubBehind => exact ⟨_, rfl, doScrubBehind_keeps k⟩
  | memSleepEnter => exact ⟨_, rfl, doMemSleepEnter_keeps k⟩
  | memSleepExit => exact ⟨_, rfl, doMemSleepExit_keeps k⟩
  | refreshDerate => exact ⟨_, rfl, doRefreshDerate_keeps k⟩
  | bellAHeartbeat => exact ⟨_, rfl, doBellAHeartbeat_keeps k⟩
  | bellBHeartbeat => exact ⟨_, rfl, doBellBHeartbeat_keeps k⟩
  | heartbeatReceive => exact ⟨_, rfl, doHeartbeatReceive_keeps k⟩
  | bellSilent => exact ⟨_, rfl, doBellSilent_keeps k⟩
  | takeover => exact ⟨_, rfl, doTakeover_keeps k⟩
  | seekTimeout => exact ⟨_, rfl, doSeekTimeout_keeps k⟩
  | fenceInQualified => exact ⟨_, rfl, doFenceInQualified_keeps k⟩
  | fencePulse => exact ⟨_, rfl, doFencePulse_keeps k⟩
  | fenceInPulse => exact ⟨_, rfl, doFenceInPulse_keeps k⟩
  | fenceAlarm => exact ⟨_, rfl, doFenceAlarm_keeps k⟩
  | switch => exact ⟨_, rfl, doSwitch_keeps k⟩
  | switchHandover => exact ⟨_, rfl, doSwitchHandover_keeps k⟩
  | switchTimeout => exact ⟨_, rfl, doSwitchTimeout_keeps k⟩
  | forceActive => exact ⟨_, rfl, doForceActive_keeps k⟩
  | unfence => exact ⟨_, rfl, doUnfence_keeps k⟩
  | resync => exact ⟨_, rfl, doResync_keeps k⟩
  | mirrorReceive => exact ⟨_, rfl, doMirrorReceive_keeps k⟩
  | ackReceive => exact ⟨_, rfl, doAckReceive_keeps k⟩
  | mirrorResend => exact ⟨_, rfl, doMirrorResend_keeps k⟩
  | mirrorLag => exact ⟨_, rfl, doMirrorLag_keeps k⟩
  | resyncReqReceive => exact ⟨_, rfl, doResyncReqReceive_keeps k⟩
  | snapshotReceive => exact ⟨_, rfl, doSnapshotReceive_keeps k⟩
  | sigCompare => exact ⟨_, rfl, doSigCompare_keeps k⟩
  | healthReport => exact ⟨_, rfl, doHealthReport_keeps k⟩
  | healthStale => exact ⟨_, rfl, doHealthStale_keeps k⟩
  | powerOn => exact ⟨_, rfl, doPowerOn_keeps k⟩
  | resetN => exact ⟨_, rfl, doResetN_keeps k⟩
  | swReset => exact ⟨_, rfl, doSwReset_keeps k⟩
  | supplyFault => exact ⟨_, rfl, doSupplyFault_keeps k⟩
  | thermalTrip => exact ⟨_, rfl, doThermalTrip_keeps k⟩
  | thermalRestart => exact ⟨_, rfl, doThermalRestart_keeps k⟩
  | refLoss => exact ⟨_, rfl, doRefLoss_keeps k⟩
  | xtalFallback => exact ⟨_, rfl, doXtalFallback_keeps k⟩
  | xtalRestored => exact ⟨_, rfl, doXtalRestored_keeps k⟩
  | pllLockLoss => exact ⟨_, rfl, doPllLockLoss_keeps k⟩
  | pllRestart => exact ⟨_, rfl, doPllRestart_keeps k⟩
  | releaseHeld => exact ⟨_, rfl, doReleaseHeld_keeps k⟩
  | wdogExpired => exact ⟨_, rfl, doWdogExpired_keeps k⟩
  | parity => exact ⟨_, rfl, doParity_keeps k⟩
  | eccReset => exact ⟨_, rfl, doEccReset_keeps k⟩
  | blkRst => exact ⟨_, rfl, doBlkRst_keeps k⟩
  | idleAck => exact ⟨_, rfl, doIdleAck_keeps k⟩
  | idleTimeout => exact ⟨_, rfl, doIdleTimeout_keeps k⟩
  | starterAttempt => exact ⟨_, rfl, doStarterAttempt_keeps k⟩
  | startUp => exact ⟨_, rfl, doStartUp_keeps k⟩
  | startDone => exact ⟨_, rfl, doStartDone_keeps k⟩
  | dormantEnter => exact ⟨_, rfl, doDormantEnter_keeps k⟩
  | injectionArmed => exact ⟨_, rfl, doInjectionArmed_keeps k⟩
  | injectionCancelled => exact ⟨_, rfl, doInjectionCancelled_keeps k⟩
  | tallyRecord => exact ⟨_, rfl, doTallyRecord_keeps k⟩
  | tallyReportSecond => exact ⟨_, rfl, doTallyReportSecond_keeps k⟩
  | tallyMirror => exact ⟨_, rfl, doTallyMirror_keeps k⟩
  | checkValue => exact ⟨_, rfl, doCheckValue_keeps k⟩
  | fwLoad => exact ⟨_, rfl, doFwLoad_keeps k⟩
  | fwStaged => exact ⟨_, rfl, doFwStaged_keeps k⟩
  | quiesceAck => exact ⟨_, rfl, doQuiesceAck_keeps k⟩
  | quiesceTimeout => exact ⟨_, rfl, doQuiesceTimeout_keeps k⟩
  | fwHandover => exact ⟨_, rfl, doFwHandover_keeps k⟩
  | fwSelfConfirm => exact ⟨_, rfl, doFwSelfConfirm_keeps k⟩
  | fwConfirm => exact ⟨_, rfl, doFwConfirm_keeps k⟩
  | fwRevert => exact ⟨_, rfl, doFwRevert_keeps k⟩
  | confirmWindowExpire => exact ⟨_, rfl, doConfirmWindowExpire_keeps k⟩
  | fwAbort => exact ⟨_, rfl, doFwAbort_keeps k⟩
  | burnFwCounter => exact ⟨_, rfl, doBurnFwCounter_keeps k⟩
  | burnStrCounter => exact ⟨_, rfl, doBurnStrCounter_keeps k⟩
  | fenceInReleased => exact ⟨_, rfl, doFenceInReleased_keeps k⟩
  | refRestored => exact ⟨_, rfl, doRefRestored_keeps k⟩
  | linkLoopbackTest => exact ⟨_, rfl, doLinkLoopbackTest_keeps k⟩
  | d3hot => exact ⟨_, rfl, doD3hot_keeps k⟩
  | markWaitExpire => exact ⟨_, rfl, doMarkWaitExpire_keeps k⟩
  | picturePartialTimeout => exact ⟨_, rfl, doPicturePartialTimeout_keeps k⟩
  | selfCheckFailed => exact ⟨_, rfl, doSelfCheckFailed_keeps k⟩

theorem State.idle_canonical {s : State} (h : s.canonical = true) : s.idle.canonical = true :=
  (State.idle_keeps (.refl s)).canonical h

/-- Settles O4: the front command, or the idle step, keeps the form; the queue is no part of it. -/
theorem stepKeepsCanonical : Obligations.StepKeepsCanonical := by
  intro s t hs ht
  unfold step at ht
  split at ht
  next =>
    cases ht
    exact State.idle_canonical hs
  next c rest _ =>
    obtain ⟨u, hu, k⟩ := exec_keeps c { s with pending := rest }
    cases hu.symm.trans ht
    exact k.canonical hs

end Sys2Proof.Machine
end

section
/-! PROOFS. The layout of a handle (O45). -/
namespace Sys2Proof.Machine

theorem mkHandle_lt {kind gen index : Nat} (hk : kind < 64) : mkHandle kind gen index < 2 ^ 32 := by
  unfold mkHandle
  omega

theorem handleKind_mkHandle {kind gen index : Nat} (hk : kind < 64) : handleKind (mkHandle kind gen index) = kind := by
  simp only [handleKind, bits, mkHandle]
  omega

theorem handleGen_mkHandle {kind gen index : Nat} (hg : gen < 256) : handleGen (mkHandle kind gen index) = gen := by
  simp only [handleGen, bits, mkHandle]
  omega

theorem handleIndex_mkHandle {kind gen index : Nat} (hi : index < 262144) : handleIndex (mkHandle kind gen index) = index := by
  simp only [handleIndex, bits, mkHandle]
  omega

theorem mkHandle_parts {h : Nat} (hh : h < 2 ^ 32) : mkHandle (handleKind h) (handleGen h) (handleIndex h) = h := by
  simp only [handleKind, handleGen, handleIndex, bits, mkHandle]
  omega

/-- Settles O45: the three fields lie side by side, so a word and its three parts determine each other (R11). -/
theorem handleLayout : Obligations.HandleLayout :=
  ⟨fun _ _ _ hk hg hi => ⟨mkHandle_lt hk, handleKind_mkHandle hk, handleGen_mkHandle hg, handleIndex_mkHandle hi⟩,
    fun _ hh => ⟨rfl, rfl, rfl, mkHandle_parts hh⟩⟩

end Sys2Proof.Machine
end

section
/-! PROOFS. What a register write stores (O48). -/
namespace Sys2Proof.Machine

/-! ### Bits of a number with a field replaced -/

/-- Taking from a number the bits it shares with another clears those bits and no other: no bit is borrowed. -/
theorem testBit_sub_land (a b k : Nat) : (a - (a &&& b)).testBit k = (a.testBit k && !b.testBit k) := by
  have hdiv : (a &&& b) / 2 = a / 2 &&& b / 2 := Nat.and_div_two
  have hle : a / 2 &&& b / 2 ≤ a / 2 := Nat.and_le_left
  have hmod : (a &&& b) % 2 = 1 ↔ a % 2 = 1 ∧ b % 2 = 1 := Nat.and_mod_two_eq_one
  cases k with
  | zero =>
    have hparity : (a - (a &&& b)) % 2 = 1 ↔ a % 2 = 1 ∧ ¬ b % 2 = 1 := by omega
    simp only [Nat.testBit_zero, hparity, Bool.decide_and, decide_not]
  | succ k =>
    have hhalf : (a - (a &&& b)) / 2 = a / 2 - (a / 2 &&& b / 2) := by omega
    simp only [Nat.testBit_succ, hhalf]
    exact testBit_sub_land (a / 2) (b / 2) k

/-- Two folds whose steps agree on the members of the list agree. -/
theorem foldl_eq_of_mem {α β : Type} {f g : β → α → β} {l : List α} (h : ∀ x ∈ l, ∀ w, f w x = g w x) (w : β) :
    l.foldl f w = l.foldl g w := by
  induction l generalizing w with
  | nil => rfl
  | cons x l ih =>
    rw [List.forall_mem_cons] at h
    rw [List.foldl_cons, List.foldl_cons, h.1, ih h.2]

theorem testBit_putBits_of_mem {x lo w v k : Nat} (h : lo ≤ k) (h' : k < lo + w) :
    (putBits x lo w v).testBit k = v.testBit (k - lo) := by
  have e := congrArg (Nat.testBit · (k - lo)) (putBits_same x lo w v)
  have hk : k - lo < w := by omega
  simpa [Nat.testBit_mod_two_pow, Nat.testBit_div_two_pow, hk, Nat.add_sub_cancel' h, Nat.sub_add_cancel h] using e

theorem FieldDesc.testBit_part {f : FieldDesc} {x k : Nat} (h : f.lo ≤ k) (h' : k < f.lo + f.width) :
    (f.part x).testBit (k - f.lo) = x.testBit k := by
  have hk : k - f.lo < f.width := by omega
  simp [FieldDesc.part, Nat.testBit_mod_two_pow, Nat.testBit_div_two_pow, hk, Nat.sub_add_cancel h]

/-! ### What a write does to the fields of a register -/

/-- The bit `k` lies in the field. -/
def FieldDesc.has (f : FieldDesc) (k : Nat) : Prop := f.lo ≤ k ∧ k < f.lo + f.width

/-- The word after a field that is not of class F, and that no rule refuses, has taken its part of a write of `v`. -/
def FieldDesc.take (f : FieldDesc) (v w : Nat) : Nat :=
  match f.access with
  | .rw => putBits w f.lo f.width (f.part v)
  | .w1c => putBits w f.lo f.width (f.part w - (f.part w &&& f.part v))
  | _ => w

theorem FieldDesc.take_of_other {f : FieldDesc} (v w : Nat) (h : f.access ≠ .rw) (h' : f.access ≠ .w1c) : f.take v w = w := by
  unfold FieldDesc.take
  split <;> simp_all

theorem FieldDesc.testBit_take_of_not_has {f : FieldDesc} {k : Nat} (v w : Nat) (h : ¬ f.has k) :
    (f.take v w).testBit k = w.testBit k := by
  unfold FieldDesc.take
  split
  · exact testBit_putBits _ _ _ _ _ h
  · exact testBit_putBits _ _ _ _ _ h
  · rfl

theorem FieldDesc.testBit_take_rw {f : FieldDesc} {k : Nat} (v w : Nat) (ha : f.access = .rw) (h : f.has k) :
    (f.take v w).testBit k = v.testBit k := by
  simp only [FieldDesc.take, ha]
  rw [testBit_putBits_of_mem h.1 h.2, FieldDesc.testBit_part h.1 h.2]

theorem FieldDesc.testBit_take_w1c {f : FieldDesc} {k : Nat} (v w : Nat) (ha : f.access = .w1c) (h : f.has k) :
    (f.take v w).testBit k = (w.testBit k && !v.testBit k) := by
  simp only [FieldDesc.take, ha]
  rw [testBit_putBits_of_mem h.1 h.2, testBit_sub_land, FieldDesc.testBit_part h.1 h.2, FieldDesc.testBit_part h.1 h.2]

theorem FieldDesc.testBit_take_congr (f : FieldDesc) {k x y : Nat} (v : Nat) (h : f.has k) (e : x.testBit k = y.testBit k) :
    (f.take v x).testBit k = (f.take v y).testBit k := by
  by_cases hrw : f.access = .rw
  · rw [f.testBit_take_rw v x hrw h, f.testBit_take_rw v y hrw h]
  · by_cases hw1c : f.access = .w1c
    · rw [f.testBit_take_w1c v x hw1c h, f.testBit_take_w1c v y hw1c h, e]
    · rw [f.take_of_other v x hrw hw1c, f.take_of_other v y hrw hw1c, e]

/-- Two fields have no bit in common. -/
def FieldDesc.disjoint (f g : FieldDesc) : Prop := f.lo + f.width ≤ g.lo ∨ g.lo + g.width ≤ f.lo

theorem FieldDesc.disjoint.not_has {f g : FieldDesc} {k : Nat} (h : f.disjoint g) (hf : f.has k) : ¬ g.has k := by
  unfold FieldDesc.disjoint at h
  unfold FieldDesc.has at *
  omega

/-- The word after every field of a list has taken its part. -/
def takeFields (fs : List FieldDesc) (v w : Nat) : Nat := fs.foldl (fun w f => f.take v w) w

theorem testBit_takeFields_of_not_has {fs : List FieldDesc} {k : Nat} (v w : Nat) (h : ∀ f ∈ fs, ¬ f.has k) :
    (takeFields fs v w).testBit k = w.testBit k := by
  induction fs generalizing w with
  | nil => rfl
  | cons g fs ih =>
    rw [List.forall_mem_cons] at h
    exact (ih (g.take v w) h.2).trans (g.testBit_take_of_not_has v w h.1)

/-- A bit of a field depends on what that field takes alone. -/
theorem testBit_takeFields_of_mem {fs : List FieldDesc} {f : FieldDesc} {k : Nat} (v w : Nat)
    (hd : fs.Pairwise FieldDesc.disjoint) (hf : f ∈ fs) (hk : f.has k) :
    (takeFields fs v w).testBit k = (f.take v w).testBit k := by
  induction fs generalizing w with
  | nil => cases hf
  | cons g fs ih =>
    rw [List.pairwise_cons] at hd
    rcases List.mem_cons.1 hf with rfl | hf
    · exact testBit_takeFields_of_not_has v _ fun g hg => (hd.1 g hg).not_has hk
    · refine (ih (g.take v w) hd.2 hf).trans (f.testBit_take_congr v hk (g.testBit_take_of_not_has v w fun hg => ?_))
      exact (hd.1 f hf).not_has hg hk

/-! ### The stored word -/

theorem regTable_disjoint (n : Nat) : ∀ d ∈ regTableOf n, d.fields.Pairwise FieldDesc.disjoint := by
  have key : ∀ n < 26, ∀ d ∈ regTableOf n, d.fields.Pairwise
      (fun f g => f.lo + f.width ≤ g.lo ∨ g.lo + g.width ≤ f.lo) := by decide +kernel
  by_cases h : n < 26
  · exact key n h
  · have : regTableOf n = [] := by
      unfold regTableOf
      split <;> first | omega | rfl
    simp [this]

theorem findReg_disjoint {a : Nat} {d : RegDesc} (h : findReg a = some d) : d.fields.Pairwise FieldDesc.disjoint :=
  regTable_disjoint _ d (List.mem_of_find?_eq_some h)

variable {s : State} {a v : Nat}

theorem State.wordAfter_eq_takeFields {fs : List FieldDesc} (hr : s.refusedFields a v fs = []) (hc : ∀ f ∈ fs, f.cls ≠ .f) :
    s.wordAfter a v fs = takeFields fs v (s.reg a).toNat := by
  unfold State.wordAfter takeFields
  rw [hr]
  refine foldl_eq_of_mem (fun f hf w => ?_) _
  have hf' : ¬ (f.cls = .f ∨ [].contains f = true) := by simp [hc f hf]
  unfold FieldDesc.take
  cases f.access <;> simp only [hf', if_false]

theorem State.storeReg_eq {d : RegDesc} (hd : findReg a = some d) (hr : s.refusedFields a v d.fields = [])
    (hc : ∀ f ∈ d.fields, f.cls ≠ .f) :
    s.storeReg a v = s.setReg a (BitVec.ofNat 32 (takeFields d.fields v (s.reg a).toNat)) := by
  have hf : d.fields.filter (fun f => decide (f.access = .rw ∧ f.cls = .f)) = [] := by
    simp only [List.filter_eq_nil_iff, decide_eq_true_eq]
    exact fun f hm h => hc f hm h.2
  simp only [State.storeReg, hd, hr, hf, List.isEmpty_nil, if_true, State.wordAfter_eq_takeFields hr hc]
  rfl

theorem State.bit_storeReg {d : RegDesc} (hd : findReg a = some d) (hr : s.refusedFields a v d.fields = [])
    (hc : ∀ f ∈ d.fields, f.cls ≠ .f) (k : Nat) :
    ((s.storeReg a v).reg a).getLsbD k = (decide (k < 32) && (takeFields d.fields v (s.reg a).toNat).testBit k) := by
  rw [State.storeReg_eq hd hr hc, State.reg_setReg_same, BitVec.getLsbD_ofNat]

/-- Where the fields of a write leave bit `k` of the register's word as the bit `b`, the stored register has it. -/
theorem State.bit_storeReg_of_take {d : RegDesc} (hd : findReg a = some d) (hr : s.refusedFields a v d.fields = [])
    (hc : ∀ f ∈ d.fields, f.cls ≠ .f) {k : Nat} {b : Bool} (hb : 32 ≤ k → b = false)
    (h : (takeFields d.fields v (s.reg a).toNat).testBit k = b) : ((s.storeReg a v).reg a).getLsbD k = b := by
  rw [State.bit_storeReg hd hr hc, h]
  by_cases hk : k < 32
  · simp [hk]
  · simp [hk, hb (Nat.le_of_not_lt hk)]

/-- Settles O48: the fields of a register share no bit, so each of its bits is decided by its own field alone (R7). -/
theorem registerAccessTypes : Obligations.RegisterAccessTypes := by
  intro s a v d hd hr hc hv
  have hword (k : Nat) (hk : 32 ≤ k) : (s.reg a).getLsbD k = false := BitVec.getLsbD_of_ge _ _ hk
  have hvalue (k : Nat) (hk : 32 ≤ k) : v.testBit k = false :=
    Nat.testBit_lt_two_pow (Nat.lt_of_lt_of_le hv (Nat.pow_le_pow_right (by decide) hk))
  refine ⟨fun b hb => ?_, fun f hf k hlo hhi => ?_, fun k hk => ?_⟩
  · rw [State.storeReg_eq hd hr hc, State.reg_setReg_ne hb.symm]
  · have hbit := testBit_takeFields_of_mem v (s.reg a).toNat (findReg_disjoint hd) hf ⟨hlo, hhi⟩
    refine ⟨fun ha => ?_, fun ha => ?_, fun hrw hw1c => ?_⟩
    · exact State.bit_storeReg_of_take hd hr hc (hvalue k) (hbit.trans (f.testBit_take_rw v _ ha ⟨hlo, hhi⟩))
    · exact State.bit_storeReg_of_take hd hr hc (fun h => by simp [hword k h])
        (hbit.trans (f.testBit_take_w1c v _ ha ⟨hlo, hhi⟩))
    · exact State.bit_storeReg_of_take hd hr hc (hword k) (by rw [hbit, f.take_of_other v _ hrw hw1c]; rfl)
  · exact State.bit_storeReg_of_take hd hr hc (hword k) (testBit_takeFields_of_not_has v _ hk)

end Sys2Proof.Machine
end

section
/-! PROOFS. What a read of a register finds and latches (O46). -/
namespace Sys2Proof.Machine

/-! ### Reads of registers -/

/-- The offsets at which a read first forms the register's value (`State.refreshReg`). -/
def formedAtRead (a : Nat) : Bool :=
  inSpan a R.TIM_NOW_S_LO.base 16 || (List.range 8).any (fun r => a == R.RG_STAT.addr r) ||
  [R.TIM_HOLDOVER_MS.base, F.MEM_TOL_MIN_US.base, F.MEM_SCRUB_POS_POS.base, F.MEM_UTIL_PEAK.base, F.ING_STAT_RX_GBPS.base,
    R.DVL_LAT.base, R.DBR_STAT.base, R.UPD_PROGRESS.base].contains a

theorem State.refreshReg_of_not_formed {s : State} {who : Initiator} {a : Nat} (h : formedAtRead a = false) :
    s.refreshReg who a = s := by
  simp only [formedAtRead, Bool.or_eq_false_iff, List.contains_cons, List.contains_nil, beq_eq_false_iff_ne] at h
  obtain ⟨⟨h1, h2⟩, h3, h4, h5, h6, h7, h8, h9, h10, -⟩ := h
  simp [State.refreshReg, h1, h2, h3, h4, h5, h6, h7, h8, h9, h10]

/-- A _LO register of a 64-bit value lies with the one after it in one pail's window or in none, and neither is formed at the
read. -/
theorem loPairs_place : ∀ row ∈ loPairs, ∀ i < row.2.2,
    let lo := row.1 + i * row.2.1
    formedAtRead lo = false ∧ formedAtRead (lo + 4) = false ∧ inSpan (lo + 4) 0xF1000 0x4000 = inSpan lo 0xF1000 0x4000 ∧
      (inSpan lo 0xF1000 0x4000 = true → (lo + 4 - 0xF1000) / 0x40 = (lo - 0xF1000) / 0x40) := by
  decide +kernel

theorem isElement_of_lt {base stride count i : Nat} (hi : i < count) :
    isElement (base + i * stride) base stride count = true := by
  by_cases h : stride = 0
  · simp [isElement, h]
  · simp [isElement, h, Nat.mul_div_cancel i (Nat.pos_of_ne_zero h), hi]

theorem latchedBy_lo {row : Nat × Nat × Nat} {i : Nat} (hrow : row ∈ loPairs) (hi : i < row.2.2)
    (hf : formedAtRead (row.1 + i * row.2.1) = false) :
    latchedBy (row.1 + i * row.2.1) = [row.1 + i * row.2.1 + 4] := by
  have hnow : row.1 + i * row.2.1 ≠ R.TIM_NOW_S_LO.base := by
    rintro h
    rw [h] at hf
    exact absurd hf (by decide)
  rw [latchedBy, if_neg hnow, if_pos (List.any_eq_true.2 ⟨row, hrow, isElement_of_lt hi⟩)]

theorem State.readReg_of_not_formed {s : State} {who : Initiator} {a : Nat} (hu : s.unboundPail a = false)
    (h : formedAtRead a = false) : s.readReg who a = ((s.latchedValue a).toNat, s.latchHigh a) := by
  simp [State.readReg, hu, State.refreshReg_of_not_formed h]

theorem State.latchedValue_of_not_latched {s : State} {a : Nat} (h : s.hiLatch.all (fun q => q.1 != a) = true) :
    s.latchedValue a = s.reg a := by
  have hn : s.hiLatch.find? (fun q => q.1 == a) = none := by
    simpa [List.find?_eq_none] using h
  simp [State.latchedValue, hn]

/-- What a read has latched is what a later read finds, whatever the register holds by then. -/
theorem State.latchedValue_of_latchHigh {s t : State} {a b : Nat} (hl : latchedBy a = [b])
    (h : t.hiLatch = (s.latchHigh a).hiLatch) : t.latchedValue b = s.reg b := by
  have hn : (s.hiLatch.filter (fun q => !(latchedBy a).contains q.1)).find? (fun q => q.1 == b) = none := by
    simp [List.find?_eq_none, hl]
  rw [State.latchHigh] at h
  simp only [State.latchedValue, h, List.find?_append, hn]
  simp [hl]

/-- Settles O46: a _LO read latches the register after it with what it holds then, and a _HI read finds the latch (R5). -/
theorem lowReadLatchesHigh : Obligations.LowReadLatchesHigh := by
  intro row hrow i lo s t who other hi hlo hs hnone hlatch ht
  obtain ⟨hformed, hformed', hspan, hpail⟩ := loPairs_place row hrow i hi
  have hby := latchedBy_lo hrow hi hformed
  rw [← hlo] at hformed hformed' hby hspan hpail
  have ht' : t.unboundPail (lo + 4) = false := by
    unfold State.unboundPail at ht ⊢
    rw [hspan]
    cases hin : inSpan lo 0xF1000 0x4000
    · rfl
    · rwa [hpail hin, ← hin]
  rw [State.readReg_of_not_formed hs hformed] at hlatch ⊢
  rw [State.readReg_of_not_formed ht' hformed', State.latchedValue_of_not_latched hnone,
    State.latchedValue_of_latchHigh hby hlatch]
  exact ⟨rfl, rfl, fun _ => rfl⟩

end Sys2Proof.Machine
end

section
/-! PROOFS. Accesses to BAR0 (O47). -/
namespace Sys2Proof.Machine

variable {s : State}

/-! ### What a quiet detector leaves alone -/

theorem State.opportunity_of_quiet (h : s.flt.armed = none) (det unit arg : Nat) : s.opportunity det unit arg = (false, s) := by
  simp [State.opportunity, h]

/-- With no injection armed, the data of a read leaves as it is. -/
theorem State.answer_of_quiet (h : s.flt.armed = none) (who : Initiator) (v : Nat) :
    s.answer who v = s.emit (.readData who v) := by
  simp [State.answer, State.opportunity_of_quiet h]

/-- What no change of a list touches stands after all of them. -/
theorem State.each_proj {α β : Type} {l : List α} {f : α → State → State} {g : State → β}
    (h : ∀ x ∈ l, ∀ t, g (f x t) = g t) : g (s.each l f) = g s := by
  unfold State.each
  induction l generalizing s with
  | nil => rfl
  | cons x l ih =>
    rw [List.forall_mem_cons] at h
    exact (ih h.2).trans (h.1 s)

theorem State.showRing_flt (chans : List Chan) (r : Nat) : (s.showRing chans r).flt = s.flt := by
  unfold State.showRing
  dsimp only
  split <;> simp

theorem State.showHoldover_flt : s.showHoldover.flt = s.flt := by
  unfold State.showHoldover
  split <;> simp only [State.put_flt]

theorem State.showTol_flt : s.showTol.flt = s.flt := by
  unfold State.showTol
  split <;> simp only [State.put_flt]

theorem State.closeUtil_flt : s.closeUtil.flt = s.flt := by
  simp only [State.closeUtil, apply_ite State.flt, State.modMem_flt, State.put_flt, ite_self]

theorem State.rollRx_flt : s.rollRx.flt = s.flt := by
  simp only [State.rollRx, apply_ite State.flt, State.put_flt, ite_self]

theorem State.showRings_flt : (s.each (List.range 8) (fun r t => t.showRing t.cmd.latched r)).flt = s.flt :=
  State.each_proj fun r _ _ => State.showRing_flt _ r

/-- Forming a register's value at a read touches no injection. -/
theorem State.refreshReg_flt (who : Initiator) (a : Nat) : (s.refreshReg who a).flt = s.flt := by
  unfold State.refreshReg
  cases s.upd.trialAt <;>
    simp only [apply_ite State.flt, State.put_flt, State.showHoldover_flt, State.showTol_flt, State.showScrub,
      State.closeUtil_flt, State.rollRx_flt, State.showRings_flt, ite_self]

theorem State.readReg_flt (who : Initiator) (a : Nat) : (s.readReg who a).2.flt = s.flt := by
  unfold State.readReg
  split
  · rfl
  · exact State.refreshReg_flt who a

/-! ### How an access to BAR0 is decided (R568) -/

section
variable {who : Initiator} {a len : Nat}

/-- The link is up and not in D3hot, or the initiator does not stand behind it. -/
def State.arrives (s : State) (who : Initiator) : Prop :=
  (s.power ≠ 0 ∨ s.pwr.waking ≠ none) ∧ s.host.d3hot = false ∨ who ≠ .host

theorem State.access_down (hp : s.power = 0) (hw : s.pwr.waking = none) : s.access .host a len = .down := by
  simp [State.access, hp, hw]

theorem State.access_unsupported (h : s.power ≠ 0 ∨ s.pwr.waking ≠ none) (hd : s.host.d3hot = true) :
    s.access .host a len = .unsupported := by
  have hup : ¬ (s.power = 0 ∧ s.pwr.waking = none) := fun hdown => h.elim (· hdown.1) (· hdown.2)
  simp [State.access, hup, hd]

/-- What arrives is decided by its width, its domain and its place alone. -/
theorem State.access_of_arrives (h : s.arrives who) : s.access who a len =
    if widthOk a len = false then .width else if s.domainOff (domainOf a) then .off
    else if named a = false then .unnamed else if (entryOf a).isSome then .byre else .own := by
  have hup : ¬ (s.power = 0 ∧ s.pwr.waking.isNone = true ∧ who = .host) := by
    rw [Option.isNone_iff_eq_none]
    rintro ⟨hpower, hwaking, hwho⟩
    rcases h with ⟨hup | hup, -⟩ | hother
    · exact hup hpower
    · exact hup hwaking
    · exact hother hwho
  have hd : ¬ (s.host.d3hot = true ∧ who = .host) := by
    rcases h with ⟨-, h⟩ | h <;> simp [h]
  rw [State.access, if_neg hup, if_neg hd]

end

/-! ### An access to a domain that is off (R494) -/

/-- From `s` to `t` nothing was sent but MSI-X messages. -/
def State.signals (s t : State) : Prop := ∃ l : List Nat, t.outs = s.outs ++ l.map Out.msi

section
variable {t : State}

theorem State.signals_of_outs (h : t.outs = s.outs) : s.signals t := ⟨[], by simp [h]⟩

theorem State.signals.trans {u : State} (h : s.signals t) (k : t.signals u) : s.signals u := by
  obtain ⟨l, hl⟩ := h
  obtain ⟨m, hm⟩ := k
  exact ⟨l ++ m, by simp [hm, hl]⟩

theorem State.signals.of_outs (h : s.signals t) {u : State} (e : u.outs = t.outs) : s.signals u :=
  h.trans (State.signals_of_outs e)

theorem State.signals.msi (h : s.signals t) {v : Nat} : s.signals (t.msi v) := by
  refine h.trans ?_
  unfold State.msi
  split
  · exact State.signals_of_outs rfl
  · split
    · exact State.signals_of_outs rfl
    · exact ⟨[v], rfl⟩

theorem State.signals.raise (h : s.signals t) {f : Field} {i : Nat} : s.signals (t.raise f i) := by
  rcases State.raise_cases t f i with ⟨-, e⟩ | ⟨-, e⟩ | ⟨-, e⟩ <;> rw [e]
  · exact h
  · exact h.of_outs State.putFlag_outs
  · exact (h.of_outs State.putFlag_outs).msi

theorem State.signals.tally (h : s.signals t) {c : Nat} {items : List Nat} : s.signals (t.tally c items) := by
  by_cases hl : t.tly.intake.length < 64
  · rw [State.tally_room hl]
    exact h.of_outs rfl
  · rw [State.tally_full t hl]
    refine State.signals.raise (State.signals.of_outs ?_ State.bump_outs)
    exact h.of_outs rfl

theorem State.signals.tallyLimitedV (h : s.signals t) {k p c v : Nat} {items : Nat → Nat → List Nat} :
    s.signals (t.tallyLimitedV k p c v items) := by
  have hset (l : List RateLimit) : s.signals (t.setLimits l) := h.of_outs State.setLimits_outs
  unfold State.tallyLimitedV
  split
  · exact (hset _).tally
  · split
    · exact (hset _).tally
    · exact hset _

/-- What was sent and is no message stands as it did. -/
theorem State.signals.filter_outs (h : s.signals t) {p : Out → Bool} (hp : ∀ v, p (.msi v) = false) :
    t.outs.filter p = s.outs.filter p := by
  obtain ⟨l, hl⟩ := h
  have hl' : (l.map Out.msi).filter p = [] := by simp [List.filter_eq_nil_iff, hp]
  rw [hl, List.filter_append, hl', List.append_nil]

end

section
variable {who : Initiator} {a : Nat}

theorem State.offAccess_signals : s.signals (s.offAccess who a) :=
  ((State.signals_of_outs State.bump_outs).raise).tallyLimitedV

theorem State.offAccess_flt : (s.offAccess who a).flt = s.flt := by simp [State.offAccess]

theorem State.offAccess_count :
    (s.offAccess who a).get R.PCR_OFF_ACCESS_CNT = min 0xFFFFFFFF (s.get R.PCR_OFF_ACCESS_CNT + 1) := by
  rw [State.offAccess, State.get_tallyLimitedV_apart (.inl (by decide)) (.inl (by decide)),
    State.get_raise_apart (.inl (by decide)) (by decide)]
  exact State.get_bump_same (by decide)

theorem State.offAccess_event : (s.offAccess who a).flag F.PCR_EVT_OFF_ACCESS = true := by
  unfold State.offAccess State.flag
  rw [State.get_tallyLimitedV_apart (.inl (by decide)) (.inl (by decide))]
  exact State.flag_raise_same (by decide) rfl

theorem State.offAccess_leaves : s.Leaves [(R.PCR_OFF_ACCESS_CNT, 0), (F.PCR_EVT_OFF_ACCESS, 0)] [] (s.offAccess who a) :=
  (((State.Leaves.refl s _ _).bump (.inl (by simp))).raise (.inl (by simp))).tallyLimitedV

end

/-! ### Reads and writes of BAR0 -/

section
variable {who : Initiator} {a len : Nat} {bytes : List Nat}

theorem exec_registerWrite_bar0 : exec (.registerWrite who (.bar0 a bytes)) s = .next (s.writeAccess who a bytes) := rfl

theorem exec_rcRead : exec (.rcRead who a len) s = .next (s.readAccess who a len) := rfl

theorem State.writeOwn_register (hx : inMsixTable a = false) (hp : inPba a = false) (hw : inSpan a pailWindow 0x200000 = false) :
    s.writeOwn who a bytes = s.regWrite who a (ofLe bytes) := by
  simp [State.writeOwn, hx, hp, hw]

theorem State.readOwn_register (hx : inMsixTable a = false) (hp : inPba a = false) (hw : inSpan a pailWindow 0x200000 = false) :
    s.readOwn who a len = s.readReg who a := by
  simp [State.readOwn, hx, hp, hw]

/-- A read of a register of the fabric that is no pop: of a clear-on-read register it is held for the host and consumed for
a core. -/
theorem State.readAccess_register (h : s.access who a len = .own) (hpop : inSpan a 0xF1000 0x4000 = false)
    (hx : inMsixTable a = false) (hp : inPba a = false) (hw : inSpan a pailWindow 0x200000 = false) :
    s.readAccess who a len =
      if isRc a = false then (s.readReg who a).2.answer who (s.readReg who a).1
      else if who = .host then ((s.readReg who a).2.answer who (s.readReg who a).1).hold a (s.readReg who a).1 false
      else ((s.readReg who a).2.answer who (s.readReg who a).1).consumeReg a (s.readReg who a).1 := by
  simp [State.readAccess, h, hpop, State.readOwn_register hx hp hw]

theorem State.readReg_answer_of_quiet (h : s.flt.armed = none) (v : Nat) :
    (s.readReg who a).2.answer who v = (s.readReg who a).2.emit (.readData who v) :=
  State.answer_of_quiet (by rw [State.readReg_flt, h]) who v

end

/-- Settles O47, test by test in the order of R568. -/
theorem bar0Accesses : Obligations.Bar0Accesses := by
  refine ⟨fun s a len bytes hp hw => ?_, fun s a len bytes hup hd => ?_, fun s who a len bytes harr hq => ?_⟩
  · simp only [exec_registerWrite_bar0, exec_rcRead, State.writeAccess, State.readAccess, State.access_down hp hw, and_self]
  · simp only [exec_registerWrite_bar0, exec_rcRead, State.writeAccess, State.readAccess, State.access_unsupported hup hd, and_self]
  have hacc (n : Nat) := State.access_of_arrives (len := n) (a := a) harr
  simp only [exec_registerWrite_bar0, exec_rcRead]
  refine ⟨fun hwd => ?_, fun hwd => ?_, fun hwd hoff => ?_, fun hwd hoff => ?_, fun hwd hoff hn => ?_, fun hwd hoff hn => ?_,
    fun hown hx hpba hwin => ?_, fun hown hpail hrc hx hpba hwin => ?_⟩
  · have hw : s.access who a bytes.length = .width := by simp [hacc, hwd]
    simp only [State.writeAccess, hw]
    exact ⟨_, rfl, State.get_bump_same (by decide), (State.Leaves.refl s _ _).bump (.inl (by simp))⟩
  · have hw : s.access who a len = .width := by simp [hacc, hwd]
    simp only [State.readAccess, hw, State.answer_of_quiet hq]
    exact ⟨_, rfl, rfl, (State.Leaves.refl s _ _).emit⟩
  · have hw : s.access who a bytes.length = .off := by simp [hacc, hwd, hoff]
    simp only [State.writeAccess, hw]
    exact ⟨_, rfl, State.offAccess_signals.filter_outs fun _ => rfl, State.offAccess_count, State.offAccess_event,
      State.offAccess_leaves⟩
  · have hw : s.access who a len = .off := by simp [hacc, hwd, hoff]
    have hq' : (s.offAccess who a).flt.armed = none := by rw [State.offAccess_flt, hq]
    simp only [State.readAccess, hw, State.answer_of_quiet hq']
    exact ⟨_, rfl, by simp [allOnes], State.emit_get.trans State.offAccess_count, State.emit_flag.trans State.offAccess_event,
      State.offAccess_leaves.emit⟩
  · have hw : s.access who a bytes.length = .unnamed := by simp [hacc, hwd, hoff, hn]
    simp only [State.writeAccess, hw]
  · have hw : s.access who a len = .unnamed := by simp [hacc, hwd, hoff, hn]
    simp only [State.readAccess, hw, State.answer_of_quiet hq]
  · simp only [State.writeAccess, hown, State.writeOwn_register hx hpba hwin]
  · rw [State.readAccess_register hown hpail hx hpba hwin, if_pos hrc, State.readReg_answer_of_quiet hq]

end Sys2Proof.Machine
end

section
/-! PROOFS. Clear-on-read registers, held data, consumes and abandoned reads (O49). -/
namespace Sys2Proof.Machine

variable {s : State}

/-! ### Clear-on-read registers -/

theorem isElement_bounds {a base stride count : Nat} (h : isElement a base stride count = true) (hs : 0 < stride) :
    base ≤ a ∧ a < base + count * stride := by
  simp only [isElement, Nat.ne_of_gt hs, if_false, Bool.and_eq_true, decide_eq_true_eq] at h
  obtain ⟨⟨hle, -⟩, hlt⟩ := h
  have := (Nat.div_lt_iff_lt_mul hs).1 hlt
  omega

theorem isRc_cases {a : Nat} (h : isRc a = true) :
    (0x81018 ≤ a ∧ a < 0x83018) ∨ a = 0x11001C ∨ a = 0x150004 ∨ a = 0x120034 := by
  simp only [isRc, Bool.or_eq_true, beq_iff_eq] at h
  rcases h with ((h | h) | h) | h
  · exact .inl (isElement_bounds h (by decide))
  · exact .inr (.inl h)
  · exact .inr (.inr (.inl h))
  · exact .inr (.inr (.inr h))

theorem inSpan_eq_false {a base len : Nat} : inSpan a base len = false ↔ a < base ∨ base + len ≤ a := by
  simp only [inSpan, Bool.and_eq_false_iff, decide_eq_false_iff_not]
  omega

/-- A clear-on-read register lies in no pail's window, no table and no memory. -/
theorem isRc_place {a : Nat} (h : isRc a = true) : inSpan a 0xF1000 0x4000 = false ∧ inMsixTable a = false ∧ inPba a = false ∧
    inSpan a pailWindow 0x200000 = false := by
  have := isRc_cases h
  simp only [inMsixTable, inPba, inSpan_eq_false, pailWindow]
  omega

/-- Bringing the host link's status up to date writes HBR_STAT and DBR_STAT and no other register. -/
theorem State.reg_syncHost_of_ne {a : Nat} (h : a ≠ R.HBR_STAT.base) (h' : a ≠ R.DBR_STAT.base) : s.syncHost.reg a = s.reg a := by
  have hslots : F.HBR_STAT_SLOTS.addr ≠ a := h.symm
  have hreads : F.DBR_STAT_READS.addr ≠ a := h'.symm
  have hposted : F.DBR_STAT_POSTED.addr ≠ a := h'.symm
  have hboost : F.DBR_STAT_BOOST.addr ≠ a := h'.symm
  unfold State.syncHost State.putFlag
  dsimp only
  rw [State.reg_put_ne hboost, State.reg_put_ne hposted, State.reg_put_ne hreads, State.reg_put_ne hslots]

theorem State.get_syncHost_of_ne {f : Field} {i : Nat} (h : f.addr i ≠ R.HBR_STAT.base) (h' : f.addr i ≠ R.DBR_STAT.base) :
    s.syncHost.get f i = s.get f i := by
  unfold State.get
  rw [State.reg_syncHost_of_ne h h']

@[simp] theorem State.syncHost_uptime : s.syncHost.uptime = s.uptime := (rfl)
@[simp] theorem State.syncHost_now : s.syncHost.now = s.now := (rfl)
@[simp] theorem State.syncHost_host : s.syncHost.host = s.host := (rfl)
@[simp] theorem State.syncHost_tly : s.syncHost.tly = s.tly := (rfl)

theorem State.reg_hold_of_isRc {a v : Nat} {byre : Bool} (h : isRc a = true) : (s.hold a v byre).reg a = s.reg a := by
  have := isRc_cases h
  exact State.reg_syncHost_of_ne (by simp only [R.HBR_STAT]; omega) (by simp only [R.DBR_STAT]; omega)

theorem State.consumeReg_heldMax (v : Nat) : s.consumeReg R.DBR_HELD_MAX.base v =
    if s.get F.DBR_HELD_MAX_US = v / 2 ^ F.DBR_HELD_MAX_US.lo % 2 ^ F.DBR_HELD_MAX_US.width then s.put F.DBR_HELD_MAX_US 0 else s := by
  have h : R.DBR_HELD_MAX.base ≠ R.STA_EVT.base := by decide
  rw [State.consumeReg, if_neg h, if_pos rfl]

/-! ### Held data -/

theorem State.raise_held {f : Field} {i : Nat} : (s.raise f i).host.held = s.host.held := by
  have hmsi (t : State) (v : Nat) : (t.msi v).host.held = t.host.held := by
    unfold State.msi
    split
    · rfl
    · split <;> rfl
  rcases State.raise_cases s f i with ⟨-, e⟩ | ⟨-, e⟩ | ⟨-, e⟩ <;> rw [e]
  · rfl
  · exact hmsi _ _

theorem State.tally_held {c : Nat} {items : List Nat} : (s.tally c items).host.held = s.host.held := by
  by_cases hl : s.tly.intake.length < 64
  · rw [State.tally_room hl]
  · rw [State.tally_full s hl, State.raise_held, State.bump_host]

theorem State.atUptime_uptime {u : Nat} : (s.atUptime u).uptime = max s.uptime u := by
  unfold State.atUptime
  split
  · exact (Nat.max_eq_right (Nat.le_of_lt ‹_›)).symm
  · exact (Nat.max_eq_left (Nat.le_of_not_lt ‹_›)).symm

/-- With no injection armed, a detection is counted and nothing fires. -/
theorem State.detected_of_quiet (h : s.flt.armed = none) (det unit arg : Nat) : s.detected det unit arg = s.detect det := by
  rw [State.detected, State.opportunity_of_quiet h]

theorem doConsume_of_none {who : Initiator} {a : Nat}
    (hf : s.host.held.find? (fun h => decide (h.who = who) && h.addr == a) = none) : doConsume who a s = s := by
  have hf' : s.host.held.find? (fun h => decide (h.who = who) && h.addr == a && !h.dead) = none := by
    rw [List.find?_eq_none] at hf ⊢
    intro h hm hp
    exact hf h hm (Bool.and_eq_true_iff.1 hp).1
  simp only [doConsume, hf']

theorem doConsume_of_quiet {who : Initiator} {a : Nat} {h : HeldRead}
    (hf : s.host.held.find? (fun h => decide (h.who = who) && h.addr == a && !h.dead) = some h) (hq : s.flt.armed = none) :
    doConsume who a s = ((s.dropHeld h).consumeHeld h).syncHost := by
  simp [doConsume, hf, hq]

theorem doReadAbandoned_of_none {who : Initiator} {a : Nat}
    (hf : s.host.held.find? (fun h => decide (h.who = who) && h.addr == a) = none) : doReadAbandoned who a s = s := by
  simp only [doReadAbandoned, hf]

/-- The state in which an abandonment is counted (R429): 1 ms after the fetch, without the data, and detected. -/
def State.abandoned (s : State) (h : HeldRead) : State := ((s.atUptime (h.fetched + 1000000)).dropHeld h).detect 0x25

/-- The abandonment counted for the bridge or for the host link. -/
def State.countAbandoned (s : State) (byre : Bool) : State :=
  if byre then (s.bump R.DBR_ABANDON_CNT).raise F.DBR_EVT_ABANDON else (s.bump R.HBR_ABANDON_CNT).raise F.HBR_EVT_ABANDON

theorem doReadAbandoned_of_quiet {who : Initiator} {a : Nat} {h : HeldRead}
    (hf : s.host.held.find? (fun h => decide (h.who = who) && h.addr == a) = some h) (hq : s.flt.armed = none) :
    doReadAbandoned who a s =
      (((s.abandoned h).countAbandoned h.byre).tally 0x0F02 [rankOf who, a, h.value]).syncHost := by
  have hq' : ((s.atUptime (h.fetched + 1000000)).dropHeld h).flt.armed = none := by
    rw [State.dropHeld, State.modHost_flt, State.atUptime_flt, hq]
  simp only [doReadAbandoned, hf, State.detected_of_quiet hq']
  rfl

/-- A record, and the host link's status brought up to date, show in no other register than their own. -/
theorem State.get_record_syncHost_of_apart {c : Nat} {items : List Nat} {f : Field} {i : Nat} (h : f.addr i ≠ R.HBR_STAT.base)
    (h' : f.addr i ≠ R.DBR_STAT.base) (k : R.TLY_LOST.apart 0 f i) (k' : F.TLY_EVT_LOST.apart 0 f i) :
    ((s.tally c items).syncHost).get f i = s.get f i :=
  (State.get_syncHost_of_ne h h').trans (State.get_tally_apart k k')

theorem State.flag_record_syncHost_of_apart {c : Nat} {items : List Nat} {f : Field} {i : Nat} (h : f.addr i ≠ R.HBR_STAT.base)
    (h' : f.addr i ≠ R.DBR_STAT.base) (k : R.TLY_LOST.apart 0 f i) (k' : F.TLY_EVT_LOST.apart 0 f i) :
    ((s.tally c items).syncHost).flag f i = s.flag f i := by
  rw [State.flag, State.get_record_syncHost_of_apart h h' k k', State.flag]

section
variable {h : HeldRead} {byre : Bool}

theorem State.abandoned_uptime : (s.abandoned h).uptime = max s.uptime (h.fetched + 1000000) := by
  simp [State.abandoned, State.detect, State.dropHeld, State.atUptime_uptime]

theorem State.abandoned_held : (s.abandoned h).host.held = s.host.held.erase h := by
  rw [State.abandoned, State.detect, State.raise_held, State.bump_host, State.dropHeld, State.modHost, State.atUptime_host]

theorem State.abandoned_tly : (s.abandoned h).tly = s.tly := by
  simp [State.abandoned, State.detect, State.dropHeld]

theorem State.get_abandoned_of_apart {f : Field} {i : Nat} (h1 : F.FLT_DET_COUNT.apart 0x25 f i)
    (h2 : F.FLT_EVT_DETECTED.apart 0 f i) : (s.abandoned h).get f i = s.get f i := by
  rw [State.abandoned, State.detect, State.get_raise_apart h2 (by decide), State.get_bump_apart h1 (by decide),
    State.dropHeld, State.modHost_get, State.atUptime_get]

theorem State.countAbandoned_uptime : (s.countAbandoned byre).uptime = s.uptime := by
  cases byre <;> simp [State.countAbandoned]

theorem State.countAbandoned_held : (s.countAbandoned byre).host.held = s.host.held := by
  cases byre <;> simp [State.countAbandoned, State.raise_held]

theorem State.countAbandoned_tly : (s.countAbandoned byre).tly = s.tly := by
  cases byre <;> simp [State.countAbandoned]

/-- A counter of a whole register is one further, and the event of what it counts stands. -/
theorem State.bump_raise_shows {f g : Field} (hf : f.fits = true) (hw : f.width = 32) (hg : g.fits = true) (hg1 : g.width = 1)
    (hfg : g.apart 0 f 0) :
    ((s.bump f).raise g).get f = min 0xFFFFFFFF (s.get f + 1) ∧ ((s.bump f).raise g).flag g = true := by
  refine ⟨?_, State.flag_raise_same hg hg1⟩
  have hcount := State.get_bump_same (s := s) (i := 0) hf
  rw [hw] at hcount
  exact (State.get_raise_apart hfg hg).trans hcount

theorem State.countAbandoned_byre :
    (s.countAbandoned true).get R.DBR_ABANDON_CNT = min 0xFFFFFFFF (s.get R.DBR_ABANDON_CNT + 1) ∧
      (s.countAbandoned true).flag F.DBR_EVT_ABANDON = true := by
  rw [State.countAbandoned, if_pos rfl]
  exact State.bump_raise_shows (by decide) rfl (by decide) rfl (.inl (by decide))

theorem State.countAbandoned_host :
    (s.countAbandoned false).get R.HBR_ABANDON_CNT = min 0xFFFFFFFF (s.get R.HBR_ABANDON_CNT + 1) ∧
      (s.countAbandoned false).flag F.HBR_EVT_ABANDON = true := by
  rw [State.countAbandoned, if_neg Bool.false_ne_true]
  exact State.bump_raise_shows (by decide) rfl (by decide) rfl (.inl (by decide))

end

/-- Settles O49: what a read of each kind does, what a consume takes of a maximum, and what becomes of held data that is delivered
or abandoned. -/
theorem readsAreConsumedOnDelivery : Obligations.ReadsAreConsumedOnDelivery := by
  refine ⟨fun s a hacc hrc hq => ?_, fun s who a hacc hrc hwho => ?_, fun s v => ?_, fun s who a hnone => ?_,
    fun s who a h hf hq => ?_, fun s who a h hf hq => ?_⟩
  · obtain ⟨hpail, hx, hpba, hwin⟩ := isRc_place hrc
    refine ⟨(s.readReg .host a).2, (s.readReg .host a).1, ?_, rfl, State.reg_hold_of_isRc hrc⟩
    rw [exec_rcRead, State.readAccess_register hacc hpail hx hpba hwin, State.readReg_answer_of_quiet hq]
    simp [hrc]
  · obtain ⟨hpail, hx, hpba, hwin⟩ := isRc_place hrc
    refine ⟨(s.readReg who a).2, (s.readReg who a).1, ?_, rfl⟩
    rw [exec_rcRead, State.readAccess_register hacc hpail hx hpba hwin]
    simp [hrc, hwho, State.answer]
  · rw [State.consumeReg_heldMax]
    split
    · exact State.get_put_same (by decide)
    · rfl
  · exact ⟨congrArg Host.Outcome.next (doConsume_of_none hnone), congrArg Host.Outcome.next (doReadAbandoned_of_none hnone)⟩
  · exact congrArg Host.Outcome.next (doConsume_of_quiet hf hq)
  · refine ⟨_, congrArg Host.Outcome.next (doReadAbandoned_of_quiet hf hq), ?_, ?_, ?_, ?_, ?_⟩
    · rw [State.syncHost_uptime, State.tally_uptime, State.countAbandoned_uptime, State.abandoned_uptime]
    · rw [State.syncHost_host, State.tally_held, State.countAbandoned_held, State.abandoned_held]
    · intro hb
      rw [hb, State.get_record_syncHost_of_apart (by decide) (by decide) (.inl (by decide)) (.inl (by decide)),
        State.flag_record_syncHost_of_apart (by decide) (by decide) (.inl (by decide)) (.inl (by decide)),
        ← State.get_abandoned_of_apart (s := s) (h := h) (.inl (by decide)) (.inl (by decide))]
      exact State.countAbandoned_byre
    · intro hb
      rw [hb, State.get_record_syncHost_of_apart (by decide) (by decide) (.inl (by decide)) (.inl (by decide)),
        State.flag_record_syncHost_of_apart (by decide) (by decide) (.inl (by decide)) (.inl (by decide)),
        ← State.get_abandoned_of_apart (s := s) (h := h) (.inl (by decide)) (.inl (by decide))]
      exact State.countAbandoned_host
    · exact (State.Records.one (State.countAbandoned_tly.trans State.abandoned_tly)).after State.syncHost_tly State.syncHost_now

end Sys2Proof.Machine
end

section
/-! PROOFS. Pails: pushes, reads, pops and flushes (O43). -/
namespace Sys2Proof.Machine

variable {s : State} {p : Nat} {q : Pail}

/-! ### The pail of a number -/

theorem State.num_of_pail (h : s.pail p = some q) : q.num = p := by
  have := List.find?_some h
  simpa using this

theorem State.pail_congr {t : State} (h : t.par = s.par) (p : Nat) : t.pail p = s.pail p := by
  simp only [State.pail, h]

theorem State.pail_of_par {t : State} (h : s.pail p = some q) (e : t.par = s.par) : t.pail p = some q :=
  (State.pail_congr e p).trans h

/-- A change of a pail that keeps its number is found in that pail and in no other. -/
theorem State.pail_modPail {f : Pail → Pail} (hf : ∀ q, (f q).num = q.num) (p c : Nat) :
    (s.modPail p f).pail c = (s.pail c).map (fun q => if q.num == p then f q else q) := by
  have hnum (q : Pail) : (if q.num == p then f q else q).num = q.num := by
    split
    · exact hf q
    · rfl
  simp only [State.pail, State.modPail, List.find?_map, Function.comp_def, hnum]

theorem State.pail_modPail_same {f : Pail → Pail} (hf : ∀ q, (f q).num = q.num) (h : s.pail p = some q) :
    (s.modPail p f).pail p = some (f q) := by
  simp [State.pail_modPail hf, h, State.num_of_pail h]

/-! ### The registers of a pail -/

/-- A register of a pail's window shares nothing with what a lost record counts. -/
theorem lost_apart_pail {f : Field} (hb : 0xF1000 ≤ f.base ∧ f.base < 0xF1040) (hs : f.stride = 0x40) (hp : p < 256) :
    R.TLY_LOST.apart 0 f p ∧ F.TLY_EVT_LOST.apart 0 f p := by
  have h : f.addr p < 0x100000 := by
    simp only [Field.addr, hs]
    omega
  have h1 : 0x170024 = R.TLY_LOST.addr 0 := rfl
  have h2 : 0x170008 = F.TLY_EVT_LOST.addr 0 := rfl
  exact ⟨.inl (by omega), .inl (by omega)⟩

theorem State.syncPail_par : (s.syncPail p).par = s.par := by
  unfold State.syncPail
  split
  · rfl
  · simp only [State.putFlag_par, State.put_par]

theorem State.syncPail_cmd : (s.syncPail p).cmd = s.cmd := by
  unfold State.syncPail
  split
  · rfl
  · simp only [State.putFlag_cmd, State.put_cmd]

/-- Bringing a pail's status up to date writes its PL_STAT and no other register. -/
theorem State.get_syncPail_of_ne {f : Field} {i : Nat} (h : R.PL_STAT.addr p ≠ f.addr i) : (s.syncPail p).get f i = s.get f i := by
  unfold State.syncPail
  split
  · rfl
  · have hfill : F.PL_STAT_FILL.apart p f i := .inl h
    have hempty : F.PL_STAT_EMPTY.apart p f i := .inl h
    have hfull : F.PL_STAT_FULL.apart p f i := .inl h
    have hpopping : F.PL_STAT_POPPING.apart p f i := .inl h
    dsimp only
    rw [State.get_putFlag_apart hpopping (by decide), State.get_putFlag_apart hfull (by decide),
      State.get_putFlag_apart hempty (by decide), State.get_put_apart hfill (by decide)]

theorem State.crossLevel_of_no_level {before after : Nat} (h : s.get F.PL_LEVEL_VALUE q.num = 0) :
    s.crossLevel q before after = s := by
  simp [State.crossLevel, h]

theorem State.syncPar_par : s.syncPar.par = s.par := by
  unfold State.syncPar
  dsimp only
  rw [State.each_proj (g := State.par) fun _ _ _ => State.put_par, State.put_par, State.put_par]

theorem State.syncPar_cmd : s.syncPar.cmd = s.cmd := by
  unfold State.syncPar
  dsimp only
  rw [State.each_proj (g := State.cmd) fun _ _ _ => State.put_cmd, State.put_cmd, State.put_cmd]

/-- The Parlour's own registers are no pail's. -/
theorem State.get_syncPar_of_pail {f : Field} {i : Nat} (h : 0xF1000 ≤ f.addr i) : s.syncPar.get f i = s.get f i := by
  have hprio (l : Nat) (hl : l < 16) : F.PAR_PRIO_QUEUED.apart l f i := by
    have : F.PAR_PRIO_QUEUED.addr l = 0xE0040 + 4 * l := rfl
    exact .inl (by omega)
  have hstat : 0xE0004 ≠ f.addr i := by omega
  have hservice : F.PAR_STAT_IN_SERVICE.apart 0 f i := .inl hstat
  have hqueued : F.PAR_STAT_QUEUED.apart 0 f i := .inl hstat
  unfold State.syncPar
  dsimp only
  rw [State.each_proj (g := fun t => t.get f i) fun l hl _ =>
      State.get_put_apart (hprio l (List.mem_range.1 hl)) (by decide),
    State.get_put_apart hqueued (by decide), State.get_put_apart hservice (by decide)]

/-! ### Refusals -/

/-- An event bit and a record: the bit stands, the record is passed, and nothing else changes. -/
theorem State.raise_tally_shows {f : Field} {i c : Nat} {items : List Nat} (hf : f.fits = true) (hw : f.width = 1)
    (hl : R.TLY_LOST.apart 0 f i ∧ F.TLY_EVT_LOST.apart 0 f i) :
    ((s.raise f i).tally c items).flag f i = true ∧ s.Records [(c, items)] ((s.raise f i).tally c items) ∧
      s.Leaves [(f, i)] [] ((s.raise f i).tally c items) := by
  refine ⟨?_, State.Records.one State.raise_tly, ((State.Leaves.refl s _ _).raise (.inl (by simp))).tally⟩
  rw [State.flag_tally_apart hl.1 hl.2]
  exact State.flag_raise_same hf hw

theorem State.ptrBad_shows {reg : Field} {w : Nat} (hp : p < 256) :
    (s.ptrBad p reg w).flag F.PL_EVT_PTR_BAD p = true ∧ s.Records [(0x0E05, [p, reg.addr p, w])] (s.ptrBad p reg w) ∧
      s.Leaves [(F.PL_EVT_PTR_BAD, p)] [] (s.ptrBad p reg w) :=
  State.raise_tally_shows (by decide) rfl (lost_apart_pail (by decide) rfl hp)

/-! ### Pushes (R400) -/

/-- The descriptors that a good PL_WR adds: visible, of one slot each. -/
def pushedItems (n : Nat) : List Item := List.replicate n { newItem 0 255 false with len := 64, phase := .ready }

/-- A pail with more items at its tail. -/
def Pail.add (q : Pail) (l : List Item) : Pail := { q with items := q.items ++ l }

/-- The state after a good PL_WR of a pail without a level to cross: `n` more descriptors. -/
def State.pushed (s : State) (p w n : Nat) : State :=
  (((s.put F.PL_WR_VALUE w p).modPail p (fun x => x.add (pushedItems n))).syncPail p).refreshRoutes

theorem State.refreshRoutes_get {f : Field} {i : Nat} : s.refreshRoutes.get f i = s.get f i := (rfl)
theorem State.refreshRoutes_par : s.refreshRoutes.par = s.par := (rfl)

section
variable {w n : Nat}

theorem State.pushed_pail (c : Nat) :
    (s.pushed p w n).pail c = (s.pail c).map (fun q => if q.num == p then q.add (pushedItems n) else q) := by
  rw [State.pushed, State.pail_congr State.refreshRoutes_par, State.pail_congr State.syncPail_par,
    State.pail_modPail (f := fun x => x.add (pushedItems n)) (fun _ => rfl), State.pail_congr State.put_par]

theorem State.pushed_pail_same (h : s.pail p = some q) : (s.pushed p w n).pail p = some (q.add (pushedItems n)) := by
  simp [State.pushed_pail, h, State.num_of_pail h]

theorem State.get_pushed_of_ne {f : Field} {i : Nat} (h : R.PL_STAT.addr p ≠ f.addr i) (h' : F.PL_WR_VALUE.addr p ≠ f.addr i) :
    (s.pushed p w n).get f i = s.get f i := by
  rw [State.pushed, State.refreshRoutes_get, State.get_syncPail_of_ne h, State.modPail_get, State.get_put_apart (.inl h') (by decide)]

theorem State.get_pushed_wr : (s.pushed p w n).get F.PL_WR_VALUE p = w % 2 ^ F.PL_WR_VALUE.width := by
  have h : R.PL_STAT.addr p ≠ F.PL_WR_VALUE.addr p := by
    simp only [Field.addr, R.PL_STAT, F.PL_WR_VALUE]
    omega
  rw [State.pushed, State.refreshRoutes_get, State.get_syncPail_of_ne h, State.modPail_get, State.get_put_same (by decide)]

theorem State.compPail_isSome (c : Nat) : (s.compPail c).isSome = (s.pail c).any (fun q => decide (q.role = 1)) := by
  unfold State.compPail
  cases s.pail c with
  | none => rfl
  | some q => by_cases h : q.role = 1 <;> simp [h]

theorem State.route_isSome :
    (s.route p).isSome = (s.flag F.CH_ROUTE_EN p && (s.compPail (s.get F.CH_ROUTE_COMP_PAIL p)).isSome) := by
  unfold State.route
  dsimp only
  cases s.flag F.CH_ROUTE_EN p && (s.compPail (s.get F.CH_ROUTE_COMP_PAIL p)).isSome <;> rfl

/-- A push leaves every pail in its role. -/
theorem State.compPail_pushed (c : Nat) : ((s.pushed p w n).compPail c).isSome = (s.compPail c).isSome := by
  have hrole (q : Pail) : (if q.num == p then q.add (pushedItems n) else q).role = q.role := by
    split <;> rfl
  simp only [State.compPail_isSome, State.pushed_pail, Option.any_map, hrole]

/-- A push of descriptors leaves the route of its pail usable. -/
theorem State.route_pushed : ((s.pushed p w n).route p).isSome = (s.route p).isSome := by
  have hroute {f : Field} (hf : f.base < 0xE0000 ∧ f.stride ≤ 4) : (s.pushed p w n).get f p = s.get f p := by
    have : f.stride * p ≤ 4 * p := Nat.mul_le_mul_right _ hf.2
    refine State.get_pushed_of_ne ?_ ?_ <;> simp only [Field.addr, R.PL_STAT, F.PL_WR_VALUE] <;> omega
  simp only [State.route_isSome, State.flag, hroute (f := F.CH_ROUTE_EN) (by decide),
    hroute (f := F.CH_ROUTE_COMP_PAIL) (by decide), State.compPail_pushed]

end

theorem doPlWrWrite_good {w : Nat} (h : s.pail p = some q) (hr : q.role = 0) (hw : w < 2 * q.depth)
    (hd : fillOf q.depth w (s.plRd p) ≤ q.depth) (hf : s.fill q ≤ fillOf q.depth w (s.plRd p))
    (hl : s.get F.PL_LEVEL_VALUE p = 0) (hroute : (s.route p).isSome = true) :
    doPlWrWrite p w s = s.pushed p w (fillOf q.depth w (s.plRd p) - s.fill q) := by
  have hlevel (f : Pail → Pail) : ((s.put F.PL_WR_VALUE w p).modPail p f).get F.PL_LEVEL_VALUE q.num = 0 := by
    rw [State.modPail_get, State.num_of_pail h, State.get_put_apart (.inl ?_) (by decide), hl]
    simp only [Field.addr, F.PL_LEVEL_VALUE, F.PL_WR_VALUE]
    omega
  have hgood : ¬ (2 * q.depth ≤ w ∨ q.depth < fillOf q.depth w (s.plRd p) ∨ fillOf q.depth w (s.plRd p) < s.fill q) := by omega
  simp only [doPlWrWrite, h, hr, ne_eq, not_true_eq_false, if_false, hgood, State.crossLevel_of_no_level (hlevel _)]
  exact if_pos (.inr ((State.route_pushed).trans hroute))

theorem doPlWrWrite_bad {w : Nat} (h : s.pail p = some q) (hr : q.role = 0)
    (hbad : 2 * q.depth ≤ w ∨ q.depth < fillOf q.depth w (s.plRd p) ∨ fillOf q.depth w (s.plRd p) < s.fill q) :
    doPlWrWrite p w s = s.ptrBad p R.PL_WR w := by
  simp only [doPlWrWrite, h, hr, ne_eq, not_true_eq_false, if_false, hbad, if_true]

/-! ### Reads in place (R401) -/

theorem doPlRdWrite_bad {w : Nat} (h : s.pail p = some q) (hr : q.role = 1 ∨ q.role = 3)
    (hbad : 2 * q.depth ≤ w ∨ s.fill q < fillOf q.depth w (s.plRd p) ∨ q.popping.isSome = true) :
    doPlRdWrite p w s = s.ptrBad p R.PL_RD w := by
  have hr' : ¬ (q.role ≠ 1 ∧ q.role ≠ 3) := by omega
  simp only [doPlRdWrite, h, hr', hbad, if_true, if_false]

theorem doPlRdWrite_good {w : Nat} (h : s.pail p = some q) (hr : q.role = 1 ∨ q.role = 3) (hw : w < 2 * q.depth)
    (hf : fillOf q.depth w (s.plRd p) ≤ s.fill q) (hpop : q.popping = none) :
    doPlRdWrite p w s = (((s.put F.PL_RD_VALUE w p).modPail p
      (fun x => { x with items := x.items.drop (fillOf q.depth w (s.plRd p)) })).syncPail p).pump := by
  have hr' : ¬ (q.role ≠ 1 ∧ q.role ≠ 3) := by omega
  have hgood : ¬ (2 * q.depth ≤ w ∨ s.fill q < fillOf q.depth w (s.plRd p) ∨ q.popping.isSome = true) := by
    rw [hpop]
    rintro (hring | hpast | hpopping)
    · omega
    · omega
    · cases hpopping
  simp only [doPlRdWrite, h, hr', hgood, if_false]

/-! ### Pops (R401) -/

theorem State.skipVoid_of_head (h : s.pail p = some q) (hv : q.items.head?.all (fun i => decide (i.phase ≠ .void)) = true) :
    s.skipVoid p = s := by
  have hn : (q.items.takeWhile (fun i => decide (i.phase = .void))).length = 0 := by
    cases hi : q.items with
    | nil => rfl
    | cons i l =>
      have : i.phase ≠ .void := by simpa [hi] using hv
      simp [this]
  simp [State.skipVoid, h, hn]

theorem State.popEcc_of_quiet (hq : s.flt.armed = none) : s.popEcc p = s := by
  have hread (q : Pail) : s.pailRead q = (false, s) := by
    simp [State.pailRead, State.opportunity_of_quiet hq]
  unfold State.popEcc
  split
  · simp [hread]
  · rfl

/-- No other initiator's pop is under way where every pop under way is the initiator's own. -/
theorem Pail.no_clash {who : Initiator} (h : q.popping.all (fun c => decide (c.who = who)) = true) :
    q.popping.any (fun c => decide (c.who ≠ who)) = false := by
  cases hp : q.popping with
  | none => rfl
  | some c => simpa [hp] using h

section
variable {who : Initiator} (hq : s.flt.armed = none) (h : s.pail p = some q)
  (hv : q.items.head?.all (fun i => decide (i.phase ≠ .void)) = true)
include hq h hv

theorem doPlPop_without_role (h1 : q.role ≠ 1) (h3 : q.role ≠ 3) : doPlPop who p s = s.answer who 0xFFFFFFFF := by
  simp only [doPlPop, State.skipVoid_of_head h hv, State.popEcc_of_quiet hq, h]
  exact if_pos ⟨h1, h3⟩

section
variable (hr : q.role = 1 ∨ q.role = 3)
include hr

theorem doPlPop_of_clash (hc : ∃ c, q.popping = some c ∧ c.who ≠ who) :
    doPlPop who p s = (s.raise F.PL_EVT_POP_CLASH p).answer who 0xFFFFFFFF := by
  have hr' : ¬ (q.role ≠ 1 ∧ q.role ≠ 3) := by omega
  have hc' : q.popping.any (fun c => decide (c.who ≠ who)) = true := by
    obtain ⟨c, hc, hw⟩ := hc
    simp [hc, hw]
  simp only [doPlPop, State.skipVoid_of_head h hv, State.popEcc_of_quiet hq, h, hr', hc', if_true, if_false]

variable (hown : q.popping.all (fun c => decide (c.who = who)) = true)
include hown

theorem doPlPop_of_word {pos v : Nat} (hw : s.popPeek q = some (pos, v)) : doPlPop who p s = (s.answerPop p who pos v).pump := by
  have hr' : ¬ (q.role ≠ 1 ∧ q.role ≠ 3) := by omega
  simp only [doPlPop, State.skipVoid_of_head h hv, State.popEcc_of_quiet hq, h, hr', Pail.no_clash hown, hw, if_false,
    Bool.false_eq_true]

theorem doPlPop_without_word (hw : s.popPeek q = none) : doPlPop who p s =
    if s.popWait = 0 then s.answer who 0xFFFFFFFF
    else s.modPail p (fun x => { x with waitPop := x.waitPop ++ [(who, s.uptime)] }) := by
  have hr' : ¬ (q.role ≠ 1 ∧ q.role ≠ 3) := by omega
  simp only [doPlPop, State.skipVoid_of_head h hv, State.popEcc_of_quiet hq, h, hr', Pail.no_clash hown, hw, if_false,
    Bool.false_eq_true]

end
end

theorem doPopWaitExpire_of_waiting {w : Initiator × Nat} {l : List (Initiator × Nat)} (h : s.pail p = some q)
    (hw : q.waitPop = w :: l) : doPopWaitExpire p s =
      ((s.atUptime (w.2 + s.popWait)).modPail p (fun x => { x with waitPop := l })).answer w.1 0xFFFFFFFF := by
  simp only [doPopWaitExpire, h, Option.map_some, hw]

/-! ### Flushes (R399) -/

theorem doFlush_refused (h : s.pail p = some q) (hr : q.role = 2) (hp : s.power ≠ 1) :
    doFlush p s = (s.raise F.PL_EVT_FLUSH_REJECT p).tally 0x0E02 [p, s.power] := by
  simp only [doFlush, h]
  exact if_pos ⟨hr, hp⟩

theorem doFlush_of_other_role (h : s.pail p = some q) (hr : q.role ≠ 2) : doFlush p s = (s.flushPail p 0).pump := by
  simp only [doFlush, h]
  exact if_neg fun hh => hr hh.1

/-- A pail without items. -/
def Pail.emptied (q : Pail) : Pail := { q with items := [] }

/-- The items that a flush of a pail counts as removed. -/
def Pail.removable (q : Pail) : Nat :=
  (q.items.filter (fun i => match i.phase with | .inService _ => false | .done => false | _ => true)).length

/-- The state after the items of a pail are gone and counted, and its flush recorded. -/
def State.flushed (s : State) (p n cause : Nat) : State :=
  ((((s.put F.PL_RD_VALUE (s.plWr p) p).modPail p Pail.emptied).add R.PL_FLUSHED n p).raise F.PL_EVT_FLUSHED p).tally 0x0E01
    [p, n, cause]

/-- The state in which the command unit holds no command of a pail. -/
def State.dropHeldOf (s : State) (p : Nat) : State :=
  { s with cmd := { s.cmd with fenced := s.cmd.fenced.filter (fun x => x.pail != p) } }

theorem State.dropHeldOf_par : (s.dropHeldOf p).par = s.par := (rfl)
theorem State.dropHeldOf_fenced : (s.dropHeldOf p).cmd.fenced = s.cmd.fenced.filter (fun x => x.pail != p) := (rfl)
theorem State.dropHeldOf_get {f : Field} {i : Nat} : (s.dropHeldOf p).get f i = s.get f i := (rfl)

theorem State.flushPail_of_unpopped {cause : Nat} (h : s.pail p = some q) (hr : q.role ≠ 2) (hpop : q.popping = none) :
    s.flushPail p cause = (((s.flushed p q.removable cause).dropHeldOf p).syncPail p).syncPar := by
  have hr' : (q.role == 2) = false := by simpa using hr
  simp only [State.flushPail, h, hr', hpop, Bool.false_and]
  rfl

section
variable {n cause : Nat}

theorem State.flushed_par : (s.flushed p n cause).par = (s.modPail p Pail.emptied).par := by
  rw [State.flushed, State.tally_par, State.raise_par, State.add_par, State.modPail, State.modPail, State.put_par]

theorem State.flushed_cmd : (s.flushed p n cause).cmd = s.cmd := by
  rw [State.flushed, State.tally_cmd, State.raise_cmd, State.add_cmd, State.modPail_cmd, State.put_cmd]

/-- RD has been set to WR. -/
theorem State.flushed_rd (hp : p < 256) : (s.flushed p n cause).get F.PL_RD_VALUE p = s.get F.PL_WR_VALUE p := by
  have hl := lost_apart_pail (f := F.PL_RD_VALUE) (by decide) rfl hp
  have hevt : F.PL_EVT_FLUSHED.addr p ≠ F.PL_RD_VALUE.addr p := by
    simp only [Field.addr, F.PL_EVT_FLUSHED, F.PL_RD_VALUE]
    omega
  have hcnt : R.PL_FLUSHED.addr p ≠ F.PL_RD_VALUE.addr p := by
    simp only [Field.addr, R.PL_FLUSHED, F.PL_RD_VALUE]
    omega
  rw [State.flushed, State.get_tally_apart hl.1 hl.2, State.get_raise_apart (.inl hevt) (by decide),
    State.get_add_apart (.inl hcnt) (by decide), State.modPail_get, State.get_put_same (by decide)]
  exact Nat.mod_eq_of_lt (State.get_lt (f := F.PL_WR_VALUE))

theorem State.flushed_event (hp : p < 256) : (s.flushed p n cause).flag F.PL_EVT_FLUSHED p = true := by
  have hl := lost_apart_pail (f := F.PL_EVT_FLUSHED) (by decide) rfl hp
  rw [State.flushed, State.flag_tally_apart hl.1 hl.2]
  exact State.flag_raise_same (by decide) rfl

/-- A register of a pail other than PL_STAT stands through what a flush brings up to date at its end. -/
theorem State.get_flush_end {f : Field} {i : Nat} (h : R.PL_STAT.addr p ≠ f.addr i) (hf : 0xF1000 ≤ f.addr i) :
    ((s.dropHeldOf p).syncPail p).syncPar.get f i = s.get f i := by
  rw [State.get_syncPar_of_pail hf, State.get_syncPail_of_ne h, State.dropHeldOf_get]

theorem State.flag_flush_end {f : Field} {i : Nat} (h : R.PL_STAT.addr p ≠ f.addr i) (hf : 0xF1000 ≤ f.addr i) :
    ((s.dropHeldOf p).syncPail p).syncPar.flag f i = s.flag f i := by
  rw [State.flag, State.get_flush_end h hf, State.flag]

end

/-- Settles O43: each row of the software's side of a pail, case by case. -/
theorem pailConsumers : Obligations.PailConsumers := by
  refine ⟨fun s p w q h hr => ⟨fun hbad => ?_, fun hw hd hf hl hroute => ?_⟩,
    fun s p w q h hr => ⟨fun hbad => ?_, fun hw hf hpop => ?_⟩, fun s p w h => ?_, fun s p who q hq h hv => ?_,
    fun s p q w l h hw => ?_, fun s p q h hr hpow => ?_, fun s p q h hr hpop => ?_⟩
  · exact ⟨_, congrArg Host.Outcome.next (doPlWrWrite_bad h hr hbad), State.ptrBad_shows p.isLt⟩
  · exact ⟨_, _, congrArg Host.Outcome.next (doPlWrWrite_good h hr hw hd hf hl hroute), State.pushed_pail_same h, rfl,
      State.get_pushed_wr⟩
  · exact ⟨_, congrArg Host.Outcome.next (doPlRdWrite_bad h hr hbad), State.ptrBad_shows p.isLt⟩
  · exact congrArg Host.Outcome.next (doPlRdWrite_good h hr hw hf hpop)
  · refine ⟨congrArg Host.Outcome.next ?_, congrArg Host.Outcome.next ?_, congrArg Host.Outcome.next ?_⟩
    · simp only [doPlWrWrite, h]
    · simp only [doPlRdWrite, h]
    · simp only [doFlush, h]
  · refine ⟨fun h1 h3 => congrArg Host.Outcome.next (doPlPop_without_role hq h hv h1 h3), fun hr hc => ?_, fun hr hown => ?_⟩
    · exact ⟨_, congrArg Host.Outcome.next (doPlPop_of_clash hq h hv hr hc), State.flag_raise_same (by decide) rfl,
        (State.Leaves.refl s _ _).raise (.inl (by simp))⟩
    · have hnone := doPlPop_without_word hq h hv hr hown
      refine ⟨fun pos v hw => congrArg Host.Outcome.next (doPlPop_of_word hq h hv hr hown hw), fun hw h0 => ?_, fun hw h0 => ?_⟩
      · exact congrArg Host.Outcome.next ((hnone hw).trans (if_pos h0))
      · exact congrArg Host.Outcome.next ((hnone hw).trans (if_neg h0))
  · refine ⟨_, ?_, ?_, ?_, congrArg Host.Outcome.next (doPopWaitExpire_of_waiting h hw)⟩
    · rw [State.modPail_uptime, State.atUptime_uptime]
    · rw [State.modPail, State.modPail, State.atUptime_par]
    · exact ((State.Leaves.refl s _ _).atUptime (by simp)).modPail (by simp)
  · exact ⟨_, congrArg Host.Outcome.next (doFlush_refused h hr hpow),
      State.raise_tally_shows (by decide) rfl (lost_apart_pail (by decide) rfl p.isLt)⟩
  · refine ⟨_, q.emptied, rfl, congrArg Host.Outcome.next (doFlush_of_other_role h hr), ?_⟩
    rw [State.flushPail_of_unpopped h hr hpop]
    refine ⟨?_, rfl, ?_, ?_, ?_⟩
    · have hpar := State.pail_modPail_same (f := Pail.emptied) (fun _ => rfl) h
      exact State.pail_of_par hpar (by
        rw [State.syncPar_par, State.syncPail_par, State.dropHeldOf_par, State.flushed_par])
    · rw [State.syncPar_cmd, State.syncPail_cmd, State.dropHeldOf_fenced, State.flushed_cmd]
    · rw [State.get_flush_end (by simp only [Field.addr, R.PL_STAT, F.PL_RD_VALUE]; omega)
        (by simp only [Field.addr, F.PL_RD_VALUE]; omega), State.flushed_rd p.isLt]
    · rw [State.flag_flush_end (by simp only [Field.addr, R.PL_STAT, F.PL_EVT_FLUSHED]; omega)
        (by simp only [Field.addr, F.PL_EVT_FLUSHED]; omega), State.flushed_event p.isLt]

end Sys2Proof.Machine
end

section
/-! PROOFS. The frame number of a device time (O6). -/
namespace Sys2Proof.Machine

variable {code n t : Nat}

/-- N frames of a rate of N/D Hz last this many units of 2^-16 ns: D seconds (R20). -/
def latticeSpan (code : Nat) : Nat := (rateND code).2 * 1000000000 * 65536

theorem rateND_bounds (code : Nat) : 0 < (rateND code).1 ∧ (rateND code).1 ≤ 240000 ∧ 0 < (rateND code).2 := by
  unfold rateND
  split <;> decide

theorem rateND_le_latticeSpan (code : Nat) : (rateND code).1 ≤ latticeSpan code := by
  obtain ⟨-, hN, hD⟩ := rateND_bounds code
  unfold latticeSpan
  omega

/-- Whole ns and their fraction, each rounded down, are the quotient rounded down once (R21). -/
theorem boundaryOf_eq (code n : Nat) : boundaryOf code n = n * latticeSpan code / (rateND code).1 := by
  obtain ⟨hN, -, -⟩ := rateND_bounds code
  have hsplit (q N : Nat) (hN : 0 < N) : q / N * 65536 + q % N * 65536 / N = q * 65536 / N := by
    calc q / N * 65536 + q % N * 65536 / N = (N * (q / N * 65536) + q % N * 65536) / N := (Nat.mul_add_div hN _ _).symm
      _ = q * 65536 / N := by rw [← Nat.mul_assoc, ← Nat.add_mul, Nat.div_add_mod]
  rw [boundaryOf, hsplit _ _ hN, latticeSpan]
  simp only [Nat.mul_assoc]

theorem boundaryOf_le_iff : boundaryOf code n ≤ t ↔ n * latticeSpan code < (t + 1) * (rateND code).1 := by
  rw [boundaryOf_eq, ← Nat.lt_succ_iff, Nat.div_lt_iff_lt_mul (rateND_bounds code).1]

/-- The quotient that the search for a frame number starts from. -/
def frameGuess (code t : Nat) : Nat := t * (rateND code).1 / latticeSpan code

theorem boundaryOf_frameGuess_le : boundaryOf code (frameGuess code t) ≤ t := by
  have hle : frameGuess code t * latticeSpan code ≤ t * (rateND code).1 := Nat.div_mul_le_self _ _
  have hN := (rateND_bounds code).1
  rw [boundaryOf_le_iff, Nat.add_mul]
  omega

/-- The quotient falls short of the frame number by one at most, for a frame lasts one unit at least. -/
theorem lt_boundaryOf_frameGuess_add_two : t < boundaryOf code (frameGuess code t + 1 + 1) := by
  have hspan := rateND_le_latticeSpan code
  have hlt : t * (rateND code).1 < (frameGuess code t + 1) * latticeSpan code := by
    rw [Nat.mul_comm _ (latticeSpan code)]
    exact Nat.lt_mul_div_succ _ (Nat.lt_of_lt_of_le (rateND_bounds code).1 hspan)
  rw [← Nat.not_le, boundaryOf_le_iff, Nat.succ_mul t, Nat.succ_mul (_ + 1)]
  omega

theorem frameOf_eq (code t : Nat) : frameOf code t =
    if boundaryOf code (frameGuess code t + 1) ≤ t then frameGuess code t + 1 else frameGuess code t := by
  have hspan : 65536 * 1000000000 * (rateND code).2 = latticeSpan code := by
    rw [latticeSpan, Nat.mul_comm _ (rateND code).2, Nat.mul_comm 65536, ← Nat.mul_assoc]
  have hguess : t * (rateND code).1 / latticeSpan code = frameGuess code t := rfl
  simp only [frameOf, hspan, hguess, boundaryOf_frameGuess_le, if_true]

/-- Settles O6: the quotient or the number after it, whichever boundary came last. -/
theorem frameNumberBracketsTime : Obligations.FrameNumberBracketsTime := by
  intro code t
  rw [frameOf_eq]
  split
  next hnext => exact ⟨hnext, lt_boundaryOf_frameGuess_add_two⟩
  next hnext => exact ⟨boundaryOf_frameGuess_le, Nat.lt_of_not_le hnext⟩

end Sys2Proof.Machine
end

section
/-! PROOFS. Fields that a Tally record leaves alone. -/
namespace Sys2Proof.Machine

variable {s : State}

/-- A register below the Tally's own shares nothing with what a lost record counts. -/
theorem lost_apart_low {f : Field} {i : Nat} (h : f.addr i < 0x170000) :
    R.TLY_LOST.apart 0 f i ∧ F.TLY_EVT_LOST.apart 0 f i := by
  have hlost : R.TLY_LOST.addr 0 = 0x170024 := rfl
  have hevent : F.TLY_EVT_LOST.addr 0 = 0x170008 := rfl
  exact ⟨.inl (by omega), .inl (by omega)⟩

theorem State.get_tally_low {f : Field} {i c : Nat} {items : List Nat} (h : f.addr i < 0x170000) :
    (s.tally c items).get f i = s.get f i :=
  State.get_tally_apart (lost_apart_low h).1 (lost_apart_low h).2

theorem State.flag_tally_low {f : Field} {i c : Nat} {items : List Nat} (h : f.addr i < 0x170000) :
    (s.tally c items).flag f i = s.flag f i :=
  State.flag_tally_apart (lost_apart_low h).1 (lost_apart_low h).2

end Sys2Proof.Machine
end

section
/-! PROOFS. Background escalation (O7). -/
namespace Sys2Proof.Machine

variable {s t : State}

/-! ### The registers of a background activity -/

theorem bgStat_addr {f : Field} {a : Nat} (hb : f.base = 0x120) (hs : f.stride = 4) (ha : a < 10) :
    f.addr a < 0x170000 ∧ F.SYS_PIPE_STAT_BG_ESCALATED.addr 0 ≠ f.addr a := by
  have hpipe : F.SYS_PIPE_STAT_BG_ESCALATED.addr 0 = 0x10C := rfl
  rw [hpipe, Field.addr, hb, hs]
  omega

/-! ### A rise of a background activity (R37, R42) -/

/-- A rise from level 0 is counted, and its instant kept. -/
def State.countRise (s : State) (a l : Nat) : State :=
  if l = 0 then (s.bump F.SYS_BG_STAT_ESCALATIONS a).modBg a (fun b => { b with since := s.uptime }) else s

/-- A rise to level 3 holds BG_ESCALATED. -/
def State.holdRise (s : State) (l : Nat) : State := if l = 2 then s.putFlag F.SYS_PIPE_STAT_BG_ESCALATED true else s

/-- The state in which a rise of an activity from level l is recorded. -/
def State.risen (s : State) (a l : Nat) : State :=
  (((s.atUptime ((s.bgAt a).from_ + bgDeadlines.getD a 0 * 2 ^ l)).put F.SYS_BG_STAT_LEVEL (l + 1) a).countRise a l).holdRise l

theorem doBgEscalate_of_rises {a : Nat} (ha : a ≠ 9) (hl : s.get F.SYS_BG_STAT_LEVEL a < 3) :
    doBgEscalate a s = (s.risen a (s.get F.SYS_BG_STAT_LEVEL a)).tally 0x0012 [a, s.get F.SYS_BG_STAT_LEVEL a + 1] := by
  have hrises : ¬ (a = 9 ∨ 3 ≤ s.get F.SYS_BG_STAT_LEVEL a) := by omega
  simp only [doBgEscalate, hrises, if_false, State.risen, State.countRise, State.holdRise, State.put_uptime]

theorem doBgEscalate_of_top {a : Nat} (h : a = 9 ∨ 3 ≤ s.get F.SYS_BG_STAT_LEVEL a) : doBgEscalate a s = s := by
  simp only [doBgEscalate, h, if_true]

section
variable {a l : Nat}

theorem State.countRise_uptime : (s.countRise a l).uptime = s.uptime := by
  unfold State.countRise
  split
  · rw [State.modBg_uptime, State.bump_uptime]
  · rfl

theorem State.countRise_tly : (s.countRise a l).tly = s.tly := by
  unfold State.countRise
  split
  · rw [State.modBg_tly, State.bump_tly]
  · rfl

theorem State.get_countRise_apart {f : Field} {i : Nat} (h : F.SYS_BG_STAT_ESCALATIONS.apart a f i) :
    (s.countRise a l).get f i = s.get f i := by
  unfold State.countRise
  split
  · rw [State.modBg_get, State.get_bump_apart h (by decide)]
  · rfl

theorem State.get_countRise_escalations : (s.countRise a l).get F.SYS_BG_STAT_ESCALATIONS a =
    if l = 0 then min 65535 (s.get F.SYS_BG_STAT_ESCALATIONS a + 1) else s.get F.SYS_BG_STAT_ESCALATIONS a := by
  unfold State.countRise
  split
  · rw [State.modBg_get]
    exact State.get_bump_same (by decide)
  · rfl

theorem State.Leaves.countRise {fs : List (Field × Nat)} {p : List Part} (h : s.Leaves fs p t)
    (hf : (F.SYS_BG_STAT_ESCALATIONS, a) ∈ fs) (hp : .sys ∈ p) : s.Leaves fs p (t.countRise a l) :=
  .ite _ ((h.bump (.inl (List.mem_append_left _ hf))).modBg hp) h

theorem State.holdRise_uptime : (s.holdRise l).uptime = s.uptime := by
  unfold State.holdRise
  split
  · exact State.putFlag_uptime
  · rfl

theorem State.holdRise_tly : (s.holdRise l).tly = s.tly := by
  unfold State.holdRise
  split
  · exact State.putFlag_tly
  · rfl

theorem State.get_holdRise_apart {f : Field} {i : Nat} (h : F.SYS_PIPE_STAT_BG_ESCALATED.apart 0 f i) :
    (s.holdRise l).get f i = s.get f i := by
  unfold State.holdRise
  split
  · exact State.get_putFlag_apart h (by decide)
  · rfl

theorem State.flag_holdRise :
    (s.holdRise l).flag F.SYS_PIPE_STAT_BG_ESCALATED = (s.flag F.SYS_PIPE_STAT_BG_ESCALATED || l == 2) := by
  unfold State.holdRise
  split
  next h => rw [State.flag_putFlag_same (by decide) rfl, h]; simp
  next h => simp [h]

theorem State.Leaves.holdRise {fs : List (Field × Nat)} {p : List Part} (h : s.Leaves fs p t)
    (hf : (F.SYS_PIPE_STAT_BG_ESCALATED, 0) ∈ fs) : s.Leaves fs p (t.holdRise l) :=
  .ite _ (h.putFlag (.inl (List.mem_append_left _ hf))) h

theorem State.risen_uptime : (s.risen a l).uptime = max s.uptime ((s.bgAt a).from_ + bgDeadlines.getD a 0 * 2 ^ l) := by
  rw [State.risen, State.holdRise_uptime, State.countRise_uptime, State.put_uptime, State.atUptime_uptime]

theorem State.risen_tly : (s.risen a l).tly = s.tly := by
  rw [State.risen, State.holdRise_tly, State.countRise_tly, State.put_tly, State.atUptime_tly]

theorem State.get_risen_level (ha : a < 10) (hl : l < 3) : (s.risen a l).get F.SYS_BG_STAT_LEVEL a = l + 1 := by
  rw [State.risen, State.get_holdRise_apart (.inl (bgStat_addr rfl rfl ha).2),
    State.get_countRise_apart (.inr (.inr (by decide))), State.get_put_same (by decide)]
  exact Nat.mod_eq_of_lt (Nat.lt_of_lt_of_eq (Nat.succ_lt_succ hl) rfl)

theorem State.get_risen_escalations (ha : a < 10) : (s.risen a l).get F.SYS_BG_STAT_ESCALATIONS a =
    if l = 0 then min 65535 (s.get F.SYS_BG_STAT_ESCALATIONS a + 1) else s.get F.SYS_BG_STAT_ESCALATIONS a := by
  rw [State.risen, State.get_holdRise_apart (.inl (bgStat_addr rfl rfl ha).2), State.get_countRise_escalations,
    State.get_put_apart (.inr (.inl (by decide))) (by decide), State.atUptime_get]

theorem State.flag_risen (ha : a < 10) : (s.risen a l).flag F.SYS_PIPE_STAT_BG_ESCALATED =
    (s.flag F.SYS_PIPE_STAT_BG_ESCALATED || l == 2) := by
  have hlevel : F.SYS_BG_STAT_LEVEL.addr a ≠ F.SYS_PIPE_STAT_BG_ESCALATED.addr 0 := (bgStat_addr rfl rfl ha).2.symm
  rw [State.risen, State.flag_holdRise, State.flag, State.get_countRise_apart (.inl hlevel), ← State.flag,
    State.flag_put_apart (.inl hlevel) (by decide), State.atUptime_flag]

theorem State.risen_leaves : s.Leaves
    [(F.SYS_BG_STAT_LEVEL, a), (F.SYS_BG_STAT_ESCALATIONS, a), (F.SYS_PIPE_STAT_BG_ESCALATED, 0)] [.sys, .time] (s.risen a l) :=
  ((((State.Leaves.refl s _ _).atUptime (by simp)).put (.inl (by simp))).countRise (by simp) (by simp)).holdRise (by simp)

/-! ### A restored activity (R37) -/

/-- The state in which the deadline of an activity counts anew. -/
def State.restarted (s : State) (a : Nat) : State := s.modBg a (fun b => { b with from_ := s.uptime, ahead := 0 })

theorem State.restarted_from (h : a < s.sys.bg.length) : ((s.restarted a).bgAt a).from_ = s.uptime := by
  rw [State.restarted, State.bgAt, State.modBg_sys]
  simp [List.getD_eq_getElem?_getD, h]

theorem doBgRestored_of_raised (h : s.get F.SYS_BG_STAT_LEVEL a ≠ 0) : doBgRestored a s =
    ((s.restarted a).put F.SYS_BG_STAT_LEVEL 0 a).tally 0x0013 [a, (s.uptime - (s.bgAt a).since) / 1000000] := by
  simp only [doBgRestored, h, if_false, State.restarted]

theorem doBgRestored_of_level_zero (h : s.get F.SYS_BG_STAT_LEVEL a = 0) : doBgRestored a s = s.restarted a := by
  simp only [doBgRestored, h, if_true, State.restarted]

end

/-- Settles O7: a rise and a restoration each change the activity's own fields and leave one record. -/
theorem backgroundEscalation : Obligations.BackgroundEscalation := by
  have hplace {s : State} (a : Fin 10) (hbg : s.sys.bg.length = 10) : a.val < s.sys.bg.length :=
    Nat.lt_of_lt_of_eq a.isLt hbg.symm
  refine ⟨fun s a ha hl => ?_, fun s a h => ?_, fun s a hbg hl => ?_, fun s a hbg hl => ?_⟩
  · have hlow := (bgStat_addr (f := F.SYS_BG_STAT_LEVEL) rfl rfl a.isLt).1
    refine ⟨_, congrArg Host.Outcome.next (doBgEscalate_of_rises ha hl), ?_, ?_, ?_, ?_, .one State.risen_tly,
      State.risen_leaves.tally⟩
    · rw [State.get_tally_low hlow, State.get_risen_level a.isLt hl]
    · rw [State.tally_uptime, State.risen_uptime]
      exact Nat.le_max_right _ _
    · rw [State.get_tally_low (f := F.SYS_BG_STAT_ESCALATIONS) hlow, State.get_risen_escalations a.isLt]
    · rw [State.flag_tally_low (by decide), State.flag_risen a.isLt]
  · exact congrArg Host.Outcome.next (doBgEscalate_of_top (h.imp_right fun htop => Nat.le_of_eq htop.symm))
  · refine ⟨_, congrArg Host.Outcome.next (doBgRestored_of_raised hl), ?_, ?_, .one ?_,
      (((State.Leaves.refl s _ _).modBg (by simp)).put (.inl (by simp))).tally⟩
    · rw [State.get_tally_low (bgStat_addr rfl rfl a.isLt).1, State.get_put_same (by decide), Nat.zero_mod]
    · rw [State.bgAt, State.tally_sys, State.put_sys]
      exact State.restarted_from (hplace a hbg)
    · rw [State.put_tly, State.restarted, State.modBg_tly]
  · exact ⟨_, congrArg Host.Outcome.next (doBgRestored_of_level_zero hl), State.restarted_from (hplace a hbg),
      (State.Leaves.refl s _ _).modBg (by simp)⟩

end Sys2Proof.Machine
end

section
/-! PROOFS. Writes of the advance (O8). -/
namespace Sys2Proof.Machine

variable {s : State}


/-- The refusal in Show is counted and its register latched. -/
def State.countRefusal (s : State) (rule : Nat) : State := if rule = 9 then s.rejectS R.SYS_PIPE_CTL.base else s

theorem State.rejectS_pipeCtl :
    s.rejectS R.SYS_PIPE_CTL.base = (s.bump R.SYS_S_REJECT_CNT).put R.SYS_S_REJECT_ADDR 0x108 := rfl

theorem State.countRefusal_tly {rule : Nat} : (s.countRefusal rule).tly = s.tly := by
  unfold State.countRefusal
  split
  · rw [State.rejectS_pipeCtl, State.put_tly, State.bump_tly]
  · rfl

theorem doAdvanceWrite_of_allowed {w : Word} (h : s.advanceRefusal (w.toNat % 16384) = none) :
    doAdvanceWrite w s = (s.put F.SYS_PIPE_CTL_ADVANCE (w.toNat % 16384)).refreshAll := by
  simp only [doAdvanceWrite, h]

theorem doAdvanceWrite_of_refused {w : Word} {rule : Nat} (h : s.advanceRefusal (w.toNat % 16384) = some rule) :
    doAdvanceWrite w s = ((s.countRefusal rule).putFlag F.SYS_PIPE_STAT_ADV_REJECT true).tally 0x0014 [w.toNat % 16384, rule] := by
  simp only [doAdvanceWrite, h, State.countRefusal]

/-- Settles O8: the write's two outcomes; rule 9 is the refusal in Show. -/
theorem advanceWriteStoresOrRefuses : Obligations.AdvanceWriteStoresOrRefuses := by
  refine ⟨fun s w h => congrArg Host.Outcome.next (doAdvanceWrite_of_allowed h), fun s w rule h => ?_⟩
  refine ⟨_, congrArg Host.Outcome.next (doAdvanceWrite_of_refused h), ?_, ?_,
    .one (State.putFlag_tly.trans State.countRefusal_tly), ?_⟩
  · rw [State.flag_tally_low (by decide), State.flag_putFlag_same (by decide) rfl]
  · rintro rfl
    rw [State.get_tally_low (by decide), State.get_tally_low (by decide),
      State.get_putFlag_apart (.inl (by decide)) (by decide), State.get_putFlag_apart (.inl (by decide)) (by decide),
      State.countRefusal, if_pos rfl, State.rejectS_pipeCtl]
    refine ⟨?_, State.get_put_same (by decide)⟩
    rw [State.get_put_apart (.inl (by decide)) (by decide)]
    exact State.get_bump_same (by decide)
  · have hcount : s.Leaves ((F.SYS_PIPE_STAT_ADV_REJECT, 0) ::
        if rule = 9 then [(R.SYS_S_REJECT_CNT, 0), (R.SYS_S_REJECT_ADDR, 0)] else []) [] (s.countRefusal rule) := by
      unfold State.countRefusal
      split
      · rw [State.rejectS_pipeCtl]
        exact ((State.Leaves.refl s _ _).bump (.inl (by simp))).put (.inl (by simp))
      · exact .refl s _ _
    exact (hcount.putFlag (.inl (by simp))).tally

end Sys2Proof.Machine
end

section
/-! PROOFS. Mode transitions, the precision change and the handover before Dormant (O11). -/
namespace Sys2Proof.Machine

variable {s : State} {m : ModeTrans}

/-! ### A completed transition (R51) -/

/-- The state that a completed transition leaves before a waiting step may begin. -/
def State.modeDone (s : State) (m : ModeTrans) : State :=
  ((((s.modeResult stOK).putFlag F.SYS_MODE_STAT_TRANS false).modSys (fun y => { y with trans := none })).put R.SYS_MODE_TRANS_US
    (min (2 ^ 32 - 1) ((s.uptime - m.started) / 1000))).raise F.SYS_MODE_EVT_REQ_DONE

theorem State.finishMode_eq : s.finishMode m = (s.modeDone m).wakeStep := rfl

theorem State.modeDone_result : (s.modeDone m).get F.SYS_MODE_STAT_RESULT = stOK := by
  rw [State.modeDone, State.get_raise_apart (.inl (by decide)) (by decide), State.get_put_apart (.inl (by decide)) (by decide),
    State.modSys_get, State.get_putFlag_apart (.inr (.inl (by decide))) (by decide), State.modeResult,
    State.get_advance_apart (.inr (.inr (by decide))) (by decide), State.get_put_same (by decide)]
  rfl

theorem State.modeDone_trans_flag : (s.modeDone m).flag F.SYS_MODE_STAT_TRANS = false := by
  rw [State.modeDone, State.flag_raise_apart (.inl (by decide)) (by decide), State.flag_put_apart (.inl (by decide)) (by decide),
    State.modSys_flag, State.flag_putFlag_same (by decide) rfl]

theorem State.modeDone_event : (s.modeDone m).flag F.SYS_MODE_EVT_REQ_DONE = true := State.flag_raise_same (by decide) rfl

theorem State.modeDone_trans : (s.modeDone m).sys.trans = none := by
  rw [State.modeDone, State.raise_sys, State.put_sys, State.modSys_sys]

theorem State.modeDone_length :
    (s.modeDone m).get R.SYS_MODE_TRANS_US = min 0xFFFFFFFF ((s.uptime - m.started) / 1000) := by
  rw [State.modeDone, State.get_raise_apart (.inl (by decide)) (by decide), State.get_put_same (by decide)]
  exact Nat.mod_eq_of_lt (Nat.lt_of_le_of_lt (Nat.min_le_left _ _) (by decide))

/-! ### MODE_CHANGE (R52) -/

/-- The state from Warm in which the engines and ingest run and Hold has been entered. -/
def State.warmToHold (s : State) : State :=
  let held := ((s.enterHold s.sys.nextS 1).noteMode s.modeStat s.frameNum).gateEngines
  held.ddMode 1 2 held.sys.nextS

section
variable (hm : s.sys.trans = some m) (hr : s.powerReady m = true)
include hm hr

theorem doModeChange_at_goal (hp : s.power = m.power) : doModeChange s = s.finishMode m := by
  have hheld : ¬ (s.power = 1 ∧ m.power = 2) := by omega
  simp only [doModeChange, hm, hr, hheld, Bool.true_eq_false, if_false, if_pos hp]

theorem doModeChange_to_hold (hp : s.power = 1) (hg : m.power = 2) : doModeChange s = s.warmToHold.finishMode m := by
  simp only [doModeChange, hm, hr, hp, hg, Bool.true_eq_false, and_self, if_false, if_true, State.warmToHold]

theorem doModeChange_to_show (hp : s.power = 1) (hg : m.power = 3) :
    doModeChange s = s.modSys (fun y => { y with trans := some { m with ready := true } }) := by
  simp [doModeChange, hm, hr, hp, hg]

end

theorem doModeChange_of_nothing_due (h : ∀ m, s.sys.trans = some m → s.powerReady m = false ∨
    (s.power ≠ m.power ∧ ¬ (s.power = 1 ∧ (m.power = 2 ∨ m.power = 3)))) : doModeChange s = s := by
  unfold doModeChange
  split
  next => rfl
  next m hm =>
    rcases h m hm with hwait | ⟨hgoal, hstep⟩
    · rw [if_pos hwait]
    · have hhold : ¬ (s.power = 1 ∧ m.power = 2) := fun hh => hstep ⟨hh.1, .inl hh.2⟩
      have hshow : ¬ (s.power = 1 ∧ m.power = 3) := fun hh => hstep ⟨hh.1, .inr hh.2⟩
      rw [if_neg hhold, if_neg hgoal, if_neg hshow, ite_self]

/-! ### PRECISION_CHANGE (R61) -/

/-- The state in which the precision has changed and the change is recorded. -/
def State.recoded (s : State) (skim : Bool) : State :=
  (s.putFlag F.SYS_MODE_STAT_PREC skim).noteMode s.modeStat s.frameNum

theorem State.modeStat_tally {c : Nat} {items : List Nat} : (s.tally c items).modeStat = s.modeStat := by
  have hword (t : State) : t.get R.SYS_MODE_STAT = t.modeStat :=
    (Nat.mod_eq_of_lt (Nat.lt_of_le_of_lt (Nat.div_le_self _ _) (BitVec.isLt _))).trans (Nat.div_one _)
  rw [← hword, ← hword, State.get_tally_low (by decide)]

theorem State.recoded_skim {skim : Bool} : (s.recoded skim).skim = skim := by
  rw [State.skim, State.recoded, State.noteMode, State.flag_tally_low (by decide), State.flag_putFlag_same (by decide) rfl]

theorem State.recoded_records {skim : Bool} :
    s.Records [(0x0020, [s.modeStat, (s.recoded skim).modeStat, s.frameNum])] (s.recoded skim) := by
  rw [State.recoded, State.noteMode, State.modeStat_tally]
  exact .one State.putFlag_tly

theorem State.recoded_leaves {skim : Bool} : s.Leaves [(F.SYS_MODE_STAT_PREC, 0)] [] (s.recoded skim) :=
  ((State.Leaves.refl s _ _).putFlag (.inl (by simp))).tally

theorem doPrecisionChange_of_nothing_due
    (h : ∀ m, s.sys.trans = some m → m.power = 0 ∨ s.power = 0 ∨ s.power = 3 ∨ decide (m.prec = 1) = s.skim) :
    doPrecisionChange s = s := by
  unfold doPrecisionChange
  split
  next => rfl
  next m hm => exact if_pos (h m hm)

/-! ### DORMANT_HANDOVER (R49, R482) -/

theorem State.handOver_outs {w : Switching} {n : Nat} : (s.handOver w n).outs = (s.ringBells true).outs := by
  rw [State.handOver, State.modRed_outs, State.modRed_outs]

theorem doDormantHandover_of_due (hm : s.sys.trans.any (fun m => m.handover) = true) (hs : s.red.switching = none)
    (ha : s.switchAllowed false = true) : doDormantHandover s = s.beginSwitch true false :=
  if_pos ⟨hm, Option.isNone_iff_eq_none.2 hs, ha⟩

theorem doDormantHandover_of_not_due
    (h : s.sys.trans.any (fun m => m.handover) = false ∨ s.red.switching.isSome = true ∨ s.switchAllowed false = false) :
    doDormantHandover s = s := by
  refine if_neg fun hh => ?_
  obtain ⟨hm, hs, ha⟩ := hh
  rcases h with h | h | h
  · simp [h] at hm
  · rw [Option.isNone_iff_eq_none.1 hs] at h
    exact Bool.false_ne_true h
  · simp [h] at ha

/-- Settles O11: the three commands, each with its cases in the order of the model's tests. -/
theorem modeTransitions : Obligations.ModeTransitions := by
  refine ⟨⟨fun s v m hm hr hv => ?_, fun s m hm hr hp hg => congrArg Host.Outcome.next (doModeChange_to_show hm hr hp hg),
      fun s h => congrArg Host.Outcome.next (doModeChange_of_nothing_due h)⟩,
    ⟨fun s h => congrArg Host.Outcome.next (doPrecisionChange_of_nothing_due h), fun s m hm hg h0 h3 hprec => ?_⟩,
    fun s hm hs ha => ⟨fun hp => ?_, fun hp => ?_⟩,
    fun s h => congrArg Host.Outcome.next (doDormantHandover_of_not_due h)⟩
  · refine ⟨v.modeDone m, congrArg Host.Outcome.next ?_, State.finishMode_eq, State.modeDone_result, State.modeDone_trans_flag,
      State.modeDone_event, State.modeDone_trans, State.modeDone_length⟩
    rcases hv with ⟨hp, rfl⟩ | ⟨hp, hg, rfl⟩
    · exact doModeChange_at_goal hm hr hp
    · exact doModeChange_to_hold hm hr hp hg
  · refine ⟨s.recoded (decide (m.prec = 1)), _, _, State.recoded_skim, State.recoded_records, State.recoded_leaves, rfl, rfl,
      congrArg Host.Outcome.next ?_⟩
    have hdue : ¬ (m.power = 0 ∨ s.power = 0 ∨ s.power = 3 ∨ decide (m.prec = 1) = s.skim) :=
      not_or.2 ⟨hg, not_or.2 ⟨h0, not_or.2 ⟨h3, hprec⟩⟩⟩
    simp only [doPrecisionChange, hm, hdue, if_false]
    rfl
  · refine ⟨_, congrArg Host.Outcome.next ((doDormantHandover_of_due hm hs ha).trans (if_pos hp)), rfl,
      (State.Leaves.refl s _ _).modRed (by simp)⟩
  · refine ⟨_, congrArg Host.Outcome.next ((doDormantHandover_of_due hm hs ha).trans (if_neg hp)), rfl, ?_, ?_⟩
    · exact ⟨[], (List.append_nil _).trans State.handOver_outs.symm⟩
    · rw [State.handOver, State.modRed_red, State.modRed_uptime]

end Sys2Proof.Machine
end

section
/-! PROOFS. The forecast of a frame (O21). -/
namespace Sys2Proof.Machine

variable {s t : State} {n : Nat} {w : FrameWork}

/-! ### A frame's forecast is marked done -/

theorem State.frame_of_frameWork (h : s.frameWork n = some w) : w.frame = n := by
  simpa using List.find?_some h

/-- What a change of frame n leaves of it has the change's property. -/
theorem State.frameWork_modFrame {f : FrameWork → FrameWork} {P : FrameWork → Prop} (hf : ∀ y, P (f y))
    (h : (s.modFrame n f).frameWork n = some w) : P w := by
  have hn := State.frame_of_frameWork h
  obtain ⟨y, -, rfl⟩ := List.mem_map.1 (List.mem_of_find?_eq_some h)
  by_cases hy : (y.frame == n) = true
  · rw [if_pos hy]
    exact hf y
  · rw [if_neg hy] at hn
    exact absurd (beq_iff_eq.2 hn) hy

theorem State.forecastWith_done {draws : List EpDraw} {x : FrameWork} (hw : w.frame = n)
    (h : (s.forecastWith w draws).frameWork n = some x) : x.forecastDone = true := by
  subst hw
  exact State.frameWork_modFrame (P := fun x => x.forecastDone = true) (fun _ => rfl) h

/-! ### What noting a changed input leaves (R55) -/

/-- Noting the terms of a frame can change what R55 counts, and nothing else. -/
theorem State.noteTerms_eq (s : State) (n : Nat) : ∃ y : Sys, s.noteTerms n = { s with sys := y } := by
  unfold State.noteTerms
  split
  · split
    · exact ⟨_, rfl⟩
    · exact ⟨s.sys, rfl⟩
  · exact ⟨s.sys, rfl⟩

theorem State.noteTerms_get {f : Field} {i : Nat} : (s.noteTerms n).get f i = s.get f i := by
  obtain ⟨_, e⟩ := State.noteTerms_eq s n
  rw [e, State.sysTo_get]

theorem State.noteTerms_flag {f : Field} {i : Nat} : (s.noteTerms n).flag f i = s.flag f i := by
  rw [State.flag, State.noteTerms_get, State.flag]

theorem State.noteTerms_frameWork {k : Nat} : (s.noteTerms n).frameWork k = s.frameWork k := by
  obtain ⟨_, e⟩ := State.noteTerms_eq s n
  rw [e, State.frameWork, State.frameWork]

theorem State.Records.noteTerms {l : List (Nat × List Nat)} (h : s.Records l t) : s.Records l (t.noteTerms n) := by
  obtain ⟨_, e⟩ := State.noteTerms_eq t n
  rw [e]
  exact h.after rfl rfl

theorem State.Leaves.noteTerms {fs : List (Field × Nat)} {p : List Part} (h : s.Leaves fs p t) (hp : .sys ∈ p) :
    s.Leaves fs p (t.noteTerms n) := by
  obtain ⟨_, e⟩ := State.noteTerms_eq t n
  rw [e]
  exact h.sysTo hp

/-! ### The forecast that ends late (R32) -/

/-- A late forecast has been shown, counted and recorded. -/
def State.forecastReported (s : State) (n feeds : Nat) : State :=
  ((s.putFlag F.SYS_PIPE_STAT_FORECAST_LATE true).bump R.SYS_FORECAST_LATE_CNT).tally 0x0010 [n, feeds]

section
variable {feeds : Nat}

theorem State.forecastReported_flag : (s.forecastReported n feeds).flag F.SYS_PIPE_STAT_FORECAST_LATE = true := by
  rw [State.forecastReported, State.flag_tally_low (by decide), State.flag_bump_apart (.inl (by decide)) (by decide),
    State.flag_putFlag_same (by decide) rfl]

theorem State.forecastReported_count : (s.forecastReported n feeds).get R.SYS_FORECAST_LATE_CNT =
    min 0xFFFFFFFF (s.get R.SYS_FORECAST_LATE_CNT + 1) := by
  have hflag : F.SYS_PIPE_STAT_FORECAST_LATE.apart 0 R.SYS_FORECAST_LATE_CNT 0 := .inl (by decide)
  rw [State.forecastReported, State.get_tally_low (by decide), State.get_bump_same (by decide),
    State.get_putFlag_apart hflag (by decide)]
  rfl

theorem State.forecastReported_frameWork {k : Nat} : (s.forecastReported n feeds).frameWork k = s.frameWork k := by
  rw [State.frameWork, State.forecastReported, State.tally_frames, State.bump_frames, State.putFlag_frames, State.frameWork]

theorem State.forecastReported_records : s.Records [(0x0010, [n, feeds])] (s.forecastReported n feeds) :=
  .one (State.bump_tly.trans State.putFlag_tly)

theorem State.forecastReported_leaves {p : List Part} :
    s.Leaves [(F.SYS_PIPE_STAT_FORECAST_LATE, 0), (R.SYS_FORECAST_LATE_CNT, 0)] p (s.forecastReported n feeds) :=
  (((State.Leaves.refl s _ _).putFlag (.inl (by simp))).bump (.inl (by simp))).tally

end

/-! ### When each command acts (R32, R44, R118, R245) -/

/-- At full drive, with the terms of the frame before; flag 1, and 4 for an endpoint without a type. -/
def State.lateTerms (s : State) (c : Chan) : List Int × List Nat × Nat :=
  ((s.govEp c.index).lastH, (s.govEp c.index).lastEps, if (s.thermType c).isNone then 5 else 1)

section
variable (hw : s.frameWork n = some w) (hd : w.forecastDone = false) (hp : 2 ≤ s.power)
include hw hd hp

theorem doForecastLate_of_due {u : State} (hu : u = s.atTime (s.sAt n + periodOf s.rate / 16)) : doForecastLate n s =
    ((u.forecastWith w (u.epDraws w true u.lateTerms)).forecastReported n (w.running kFeed).length).noteTerms n := by
  subst hu
  have hdue : ¬ (w.forecastDone = true ∨ s.power < 2) := not_or.2 ⟨by simp [hd], Nat.not_lt.2 hp⟩
  simp only [doForecastLate, hw, hdue, if_false]
  rfl

/-- A forecast that is due depends on the time alone. -/
theorem doForecast_of_due (hk : s.kindServed 5 = true) : doForecast n s =
    if s.sAt n + periodOf s.rate / 16 < s.now then doForecastLate n s
    else
      let u := s.each (w.running kEndpoint) (fun c t => t.applyCorrection c)
      let draws := u.epDraws w false u.epTerms
      ((u.each draws (fun e t => t.noteClamped e)).forecastWith w draws).noteTerms n := by
  have hdue : ¬ (w.forecastDone = true ∨ s.power < 2 ∨ s.kindServed 5 = false) :=
    not_or.2 ⟨by simp [hd], not_or.2 ⟨Nat.not_lt.2 hp, by simp [hk]⟩⟩
  simp only [doForecast, hw, hdue, if_false]

theorem doForecast_in_time (hk : s.kindServed 5 = true) (ht : s.now ≤ s.sAt n + periodOf s.rate / 16) {u : State}
    (hu : u = s.each (w.running kEndpoint) (fun c t => t.applyCorrection c)) : doForecast n s =
      ((u.each (u.epDraws w false u.epTerms) (fun e t => t.noteClamped e)).forecastWith w
        (u.epDraws w false u.epTerms)).noteTerms n := by
  subst hu
  simp only [doForecast_of_due hw hd hp hk, if_neg (Nat.not_lt.2 ht)]

theorem doForecast_past_time (hk : s.kindServed 5 = true) (ht : s.sAt n + periodOf s.rate / 16 < s.now) :
    doForecast n s = doForecastLate n s := by
  rw [doForecast_of_due hw hd hp hk, if_pos ht]

end

theorem doForecastLate_of_not_due (h : (∀ w, s.frameWork n = some w → w.forecastDone = true) ∨ s.power < 2) :
    doForecastLate n s = s := by
  unfold doForecastLate
  split
  next => rfl
  next w hw => exact if_pos (h.imp_left (· w hw))

theorem doForecast_of_not_due
    (h : (∀ w, s.frameWork n = some w → w.forecastDone = true) ∨ s.power < 2 ∨ s.kindServed 5 = false) : doForecast n s = s := by
  unfold doForecast
  split
  next => rfl
  next w hw => exact if_pos (h.imp_left (· w hw))

/-- Settles O21: FORECAST in time, past its time and with nothing to do, and the late forecast. -/
theorem forecasts : Obligations.Forecasts := by
  refine ⟨⟨fun s n w hw hd hp hk ht => ?_, fun s n w hw hd hp hk ht => ?_, fun s n h => ⟨?_, ?_⟩, fun s n h => ?_⟩,
    fun s n w hw hd hp => ?_⟩
  · refine ⟨_, _, _, rfl, rfl, congrArg Host.Outcome.next (doForecast_in_time hw hd hp hk ht rfl), rfl, fun x hx => ?_⟩
    rw [State.noteTerms_frameWork] at hx
    exact State.forecastWith_done (State.frame_of_frameWork hw) hx
  · exact congrArg Host.Outcome.next (doForecast_past_time hw hd hp hk ht)
  · exact congrArg Host.Outcome.next (doForecast_of_not_due (h.imp_right .inl))
  · exact congrArg Host.Outcome.next (doForecastLate_of_not_due h)
  · exact congrArg Host.Outcome.next (doForecast_of_not_due (.inr (.inr h)))
  · refine ⟨_, _, _, rfl, rfl, congrArg Host.Outcome.next (doForecastLate_of_due hw hd hp rfl), ?_, ?_, fun x hx => ?_, ?_, ?_⟩
    · rw [State.noteTerms_flag, State.forecastReported_flag]
    · rw [State.noteTerms_get, State.forecastReported_count]
      rfl
    · rw [State.noteTerms_frameWork, State.forecastReported_frameWork] at hx
      exact State.forecastWith_done (State.frame_of_frameWork hw) hx
    · exact State.forecastReported_records.noteTerms
    · exact State.forecastReported_leaves.noteTerms (by simp)

end Sys2Proof.Machine
end

section
/-! PROOFS. The checks of a mode request (O10). -/
namespace Sys2Proof.Machine

variable {s : State} {w : Word} {n st : Nat}

/-! ### What a write of SYS_MODE_REQ stores -/

/-- The state in which the fields of a write of SYS_MODE_REQ are stored. -/
def State.modeStored (s : State) (w : Word) : State := s.setReg R.SYS_MODE_REQ.base (w &&& 0x17F3)

theorem State.get_modeStored {f : Field} {i : Nat} (h : R.SYS_MODE_REQ.base ≠ f.addr i) :
    (s.modeStored w).get f i = s.get f i := by
  rw [State.modeStored, State.get, State.reg_setReg_ne h, ← State.get]

theorem State.modeStored_leaves {l : List (Field × Nat)} {p : List Part} (h : (R.SYS_MODE_REQ, 0) ∈ l) :
    s.Leaves l p (s.modeStored w) :=
  (State.Leaves.refl s l p).setReg (.inl (List.mem_append_left _ h)) rfl rfl rfl

theorem doModeRequest_without_go (h : bitAt w.toNat 31 = false) : doModeRequest w s = s.modeStored w := if_pos h

/-! ### A request that fails a check (R50, R51) -/

/-- The state in which the refusal of a mode request with status st is recorded. -/
def State.modeRefused (s : State) (st : Nat) : State := (s.modeResult st).raise F.SYS_MODE_EVT_REQ_DONE

/-- The fields of SYS_MODE_STAT below RESULT, POWER, FRATE and PREC among them, stay. -/
theorem State.get_modeRefused_below {f : Field} (ha : f.addr 0 = 0x184) (hl : f.lo + f.width ≤ 20) :
    (s.modeRefused st).get f = s.get f := by
  have hevt : F.SYS_MODE_EVT_REQ_DONE.addr 0 ≠ f.addr 0 := ha ▸ by decide
  rw [State.modeRefused, State.get_raise_apart (.inl hevt) (by decide), State.modeResult,
    State.get_advance_apart (.inr (.inr (Nat.le_trans hl (by decide)))) (by decide), State.get_put_apart (.inr (.inr hl)) (by decide)]

theorem State.modeRefused_result (h : st < 16) : (s.modeRefused st).get F.SYS_MODE_STAT_RESULT = st := by
  rw [State.modeRefused, State.get_raise_apart (.inl (by decide)) (by decide), State.modeResult,
    State.get_advance_apart (.inr (.inr (by decide))) (by decide), State.get_put_same (by decide)]
  exact Nat.mod_eq_of_lt (Nat.lt_trans h (by decide))

theorem State.modeRefused_seq : (s.modeRefused st).get F.SYS_MODE_STAT_SEQ =
    (s.get F.SYS_MODE_STAT_SEQ + 1) % 2 ^ F.SYS_MODE_STAT_SEQ.width := by
  rw [State.modeRefused, State.get_raise_apart (.inl (by decide)) (by decide), State.modeResult,
    State.get_advance_same (by decide), State.get_put_apart (.inr (.inl (by decide))) (by decide)]

theorem State.modeRefused_event : (s.modeRefused st).flag F.SYS_MODE_EVT_REQ_DONE = true :=
  State.flag_raise_same (by decide) rfl

theorem State.modeRefused_tly : (s.modeRefused st).tly = s.tly := by
  rw [State.modeRefused, State.raise_tly, State.modeResult, State.advance_tly, State.put_tly]

theorem State.Leaves.modeRefused {t : State} {l : List (Field × Nat)} {p : List Part} (h : s.Leaves l p t)
    (hr : (F.SYS_MODE_STAT_RESULT, 0) ∈ l) (hs : (F.SYS_MODE_STAT_SEQ, 0) ∈ l) (he : (F.SYS_MODE_EVT_REQ_DONE, 0) ∈ l) :
    s.Leaves l p (t.modeRefused st) :=
  ((h.put (.inl (List.mem_append_left _ hr))).advance (.inl (List.mem_append_left _ hs))).raise
    (.inl (List.mem_append_left _ he))

theorem State.modSys_id : s.modSys id = s := rfl

/-- A refusal is recorded; a refused Dormant request in Show may then note that Hold is due (R49), in the system state alone. -/
theorem doModeRequest_of_refused (hgo : bitAt w.toNat 31 = true) (hst : st ≠ stOK)
    (hf : firstFail ((s.modeStored w).modeChecks false w.toNat) = (n, st)) :
    ∃ f : Sys → Sys, doModeRequest w s =
      (((s.modeStored w).modeRefused st).tally 0x0021 [w.toNat, st, n]).modSys f := by
  rw [State.modeStored] at hf
  simp only [doModeRequest, hgo, hf, Bool.true_eq_false, if_false, if_pos hst]
  split
  · exact ⟨_, rfl⟩
  · exact ⟨id, State.modSys_id.symm⟩

/-! ### A request that passes (R60, R472) -/

theorem doModeRequest_of_passed (hgo : bitAt w.toNat 31 = true)
    (hf : (firstFail ((s.modeStored w).modeChecks false w.toNat)).2 = stOK) :
    doModeRequest w s = (s.modeStored w).mirroredFrom ((s.modeStored w).modeFrom w.toNat) true (.mode w.toNat)
      (acceptMode ((s.modeStored w).modeFrom w.toNat) w.toNat) := by
  rw [State.modeStored] at hf ⊢
  simp only [doModeRequest, hgo, hf, Bool.true_eq_false, if_false, ne_eq, not_true_eq_false]

section
variable {frame : Nat} {what : Mirrored} {act : State → State}

theorem State.mirroredFrom_of_mirroring (h : s.mirroring = true) :
    s.mirroredFrom frame true what act = s.sendMirror frame true what := if_pos h

theorem State.mirroredFrom_of_standby (hm : s.mirroring = false) (hs : s.hasStandby = true) :
    s.mirroredFrom frame true what act = act (s.sendMirror frame false what) := by
  simp only [State.mirroredFrom, hm, hs, Bool.and_false, Bool.and_true, Bool.false_eq_true, if_false, if_true]

theorem State.mirroredFrom_of_alone (hm : s.mirroring = false) (hs : s.hasStandby = false) :
    s.mirroredFrom frame true what act = act s := by
  simp only [State.mirroredFrom, hm, hs, Bool.and_false, Bool.false_eq_true, if_false]

end

theorem State.modeFrom_of_alone {v : Nat} (hm : s.mirroring = false) (hs : s.hasStandby = false) : s.modeFrom v = 0 := by
  simp only [State.modeFrom, hm, hs, Bool.or_false, Bool.false_eq_true, if_false]

/-- Settles O10: a write without GO, a refused request and an accepted one, the last by the state of the pair. -/
theorem modeRequestChecks : Obligations.ModeRequestChecks := by
  refine ⟨fun s w hgo => ?_, fun s w n st hgo hst hlt hf => ?_, fun s u w hgo hu hf => ?_⟩
  · exact ⟨_, congrArg Host.Outcome.next (doModeRequest_without_go hgo), State.reg_setReg_same,
      State.modeStored_leaves (List.mem_singleton_self _)⟩
  · obtain ⟨f, hnext⟩ := doModeRequest_of_refused hgo hst hf
    have hkeep (g : Field) (ha : g.addr 0 = 0x184) (hl : g.lo + g.width ≤ 20) : (doModeRequest w s).get g = s.get g := by
      rw [hnext, State.modSys_get, State.get_tally_low (ha ▸ by decide), State.get_modeRefused_below ha hl,
        State.get_modeStored (ha ▸ by decide)]
    refine ⟨_, rfl, ?_, ?_, ?_, ?_, ?_, ?_, ?_, ?_⟩
    · rw [hnext, State.modSys_get, State.get_tally_low (by decide), State.modeRefused_result hlt]
    · rw [hnext, State.modSys_get, State.get_tally_low (by decide), State.modeRefused_seq, State.get_modeStored (by decide)]
    · rw [hnext, State.modSys_flag, State.flag_tally_low (by decide), State.modeRefused_event]
    · exact hkeep F.SYS_MODE_STAT_POWER rfl (by decide)
    · exact hkeep F.SYS_MODE_STAT_FRATE rfl (by decide)
    · exact congrArg (· != 0) (hkeep F.SYS_MODE_STAT_PREC rfl (by decide))
    · rw [hnext]
      exact (State.Records.one (State.modeRefused_tly.trans State.setReg_tly)).after State.modSys_tly State.modSys_now
    · rw [hnext]
      exact (((State.modeStored_leaves (by simp)).modeRefused (by simp) (by simp) (by simp)).tally).modSys (by simp)
  · subst hu
    have hpass := doModeRequest_of_passed hgo hf
    refine ⟨fun hm => congrArg Host.Outcome.next (hpass.trans (State.mirroredFrom_of_mirroring hm)),
      fun hm hs => congrArg Host.Outcome.next (hpass.trans (State.mirroredFrom_of_standby hm hs)),
      fun hm hs => congrArg Host.Outcome.next (hpass.trans ?_)⟩
    rw [State.modeStored, State.mirroredFrom_of_alone hm hs, State.modeFrom_of_alone hm hs]

end Sys2Proof.Machine
end

section
/-! PROOFS. What the shared operations of a structure load do: its completion, its removal, the stores of an engine and
writes of the Bulk Tank (R88, R90, R94). -/
namespace Sys2Proof.Machine

variable {s t : State} {result check phase : Nat} {l : List (Field × Nat)} {p : List Part}

/-! ### The completion of a load (R90) -/

@[simp] theorem State.strFinish_str : (s.strFinish result check phase).str = s.str := by
  simp only [State.strFinish, State.raise_str, State.advance_str, State.put_str]

@[simp] theorem State.strFinish_bulk : (s.strFinish result check phase).bulk = s.bulk := by
  simp only [State.strFinish, State.raise_bulk, State.advance_bulk, State.put_bulk]

@[simp] theorem State.strFinish_tly : (s.strFinish result check phase).tly = s.tly := by
  simp only [State.strFinish, State.raise_tly, State.advance_tly, State.put_tly]

/-- Below SEQ, STR_LOAD_STAT holds what the three puts of a completion leave in it. -/
theorem State.get_strFinish_below {f : Field} (ha : f.addr 0 = 0x10028) (hl : f.lo + f.width ≤ 16) :
    (s.strFinish result check phase).get f =
      (((s.put F.STR_LOAD_STAT_RESULT result).put F.STR_LOAD_STAT_CHECK check).put F.STR_LOAD_STAT_PHASE phase).get f := by
  have hevt : F.STR_EVT_DONE.addr 0 ≠ f.addr 0 := ha ▸ by decide
  rw [State.strFinish, State.get_raise_apart (.inl hevt) (by decide), State.get_advance_apart (.inr (.inr hl)) (by decide)]

theorem State.strFinish_result (hr : result < 256) (hc : check < 32) (hp : phase < 8)
    (hseq : t.get F.STR_LOAD_STAT_SEQ = s.get F.STR_LOAD_STAT_SEQ) :
    s.StrResult result check phase (t.strFinish result check phase) := by
  refine ⟨?_, ?_, ?_, ?_, State.flag_raise_same (by decide) rfl⟩
  · rw [State.get_strFinish_below rfl (by decide), State.get_put_apart (.inr (.inr (by decide))) (by decide),
      State.get_put_apart (.inr (.inr (by decide))) (by decide), State.get_put_same (by decide)]
    exact Nat.mod_eq_of_lt hr
  · rw [State.get_strFinish_below rfl (by decide), State.get_put_apart (.inr (.inr (by decide))) (by decide),
      State.get_put_same (by decide)]
    exact Nat.mod_eq_of_lt hc
  · rw [State.get_strFinish_below rfl (by decide), State.get_put_same (by decide)]
    exact Nat.mod_eq_of_lt hp
  · rw [State.strFinish, State.get_raise_apart (.inl (by decide)) (by decide), State.get_advance_same (by decide),
      State.get_put_apart (.inr (.inl (by decide))) (by decide), State.get_put_apart (.inr (.inl (by decide))) (by decide),
      State.get_put_apart (.inr (.inl (by decide))) (by decide), hseq]

theorem State.StrResult.tally (h : s.StrResult result check phase t) {c : Nat} {items : List Nat} :
    s.StrResult result check phase (t.tally c items) := by
  obtain ⟨hresult, hcheck, hphase, hseq, hdone⟩ := h
  refine ⟨?_, ?_, ?_, ?_, ?_⟩
  · rw [State.get_tally_low (by decide), hresult]
  · rw [State.get_tally_low (by decide), hcheck]
  · rw [State.get_tally_low (by decide), hphase]
  · rw [State.get_tally_low (by decide), hseq]
  · rw [State.flag_tally_low (by decide), hdone]

theorem State.Leaves.strFinish (h : s.Leaves l p t) (hl : strResultFields ⊆ l) :
    s.Leaves l p (t.strFinish result check phase) := by
  have hmem {q : Field × Nat} (hq : q ∈ strResultFields) : q ∈ l ++ lostFields ∨ .regs ∈ p :=
    .inl (List.mem_append_left _ (hl hq))
  exact ((((h.put (hmem (by simp [strResultFields]))).put (hmem (by simp [strResultFields]))).put
    (hmem (by simp [strResultFields]))).advance (hmem (by simp [strResultFields]))).raise (hmem (by simp [strResultFields]))

/-! ### The load changed and removed -/

theorem State.strTo_reg {x : Str} {a : Nat} : ({ s with str := x } : State).reg a = s.reg a := (rfl)

section
variable {f : StrLoad → StrLoad}

theorem State.modLoad_reg {a : Nat} : (s.modLoad f).reg a = s.reg a := (rfl)
theorem State.modLoad_now : (s.modLoad f).now = s.now := (rfl)
theorem State.modLoad_eng : (s.modLoad f).eng = s.eng := (rfl)
theorem State.modLoad_load : (s.modLoad f).str.load = s.str.load.map f := (rfl)
theorem State.modLoad_standin : (s.modLoad f).str.standin = s.str.standin := (rfl)

end

theorem State.dropLoad_get {f : Field} {i : Nat} : s.dropLoad.get f i = s.get f i := State.strTo_get
theorem State.dropLoad_bulk : s.dropLoad.bulk = s.bulk := (rfl)
theorem State.dropLoad_load : s.dropLoad.str.load = none := (rfl)
theorem State.dropLoad_stagingHigh : s.dropLoad.str.stagingHigh = s.str.stagingHigh := (rfl)

theorem State.Leaves.dropLoad (h : s.Leaves l p t) (m : .str ∈ p) : s.Leaves l p t.dropLoad := h.strTo m

/-! ### The stores of an engine (R73, R78) -/

section
variable {e : Nat} {x : Option EngineSec}

/-- Loading an engine's stores changes what the engines hold, and nothing else. -/
theorem State.loadStores_frame (s : State) (e : Nat) (x : Option EngineSec) :
    s.loadStores e x = { s with eng := (s.loadStores e x).eng } := by
  cases x <;> rfl

@[simp] theorem State.loadStores_str : (s.loadStores e x).str = s.str := by rw [State.loadStores_frame]

@[simp] theorem State.loadStores_now : (s.loadStores e x).now = s.now := by rw [State.loadStores_frame]

theorem State.loadStores_eng_congr (h : t.eng = s.eng) : (t.loadStores e x).eng = (s.loadStores e x).eng := by
  cases x with
  | none => exact h
  | some y => simp only [State.loadStores, State.modEng_eng, h]

theorem State.Leaves.loadStores (h : s.Leaves l p t) (m : .eng ∈ p) : s.Leaves l p (t.loadStores e x) := by
  rw [State.loadStores_frame]
  exact h.engTo m

end

/-! ### Writes of the Bulk Tank -/

/-- Writing bytes of the Bulk Tank changes its memory, and nothing else. -/
theorem State.writeBulk_frame (s : State) (a : Nat) (bs : List Nat) :
    s.writeBulk a bs = { s with bulk := (s.writeBulk a bs).bulk } := by
  unfold State.writeBulk
  induction bs generalizing s a with
  | nil => rfl
  | cons b bs ih => exact ih (s.setBulk a (BitVec.ofNat 8 b)) (a + 1)

theorem State.writeBulk_get {a : Nat} {bs : List Nat} {f : Field} {i : Nat} : (s.writeBulk a bs).get f i = s.get f i := by
  rw [State.writeBulk_frame, State.bulkTo_get]

@[simp] theorem State.writeBulk_str {a : Nat} {bs : List Nat} : (s.writeBulk a bs).str = s.str := by
  rw [State.writeBulk_frame]

theorem State.Leaves.writeBulk (h : s.Leaves l p t) (m : .bulk ∈ p) {a : Nat} {bs : List Nat} :
    s.Leaves l p (t.writeBulk a bs) := by
  rw [State.writeBulk_frame]
  exact h.bulkTo m

end Sys2Proof.Machine
end

section
/-! PROOFS. The start of a structure load (O12). -/
namespace Sys2Proof.Machine

variable {s : State} {w : Word}

/-! ### What a write of STR_LOAD_CTL stores (R66) -/

/-- The state in which the fields of a write of STR_LOAD_CTL are stored. -/
def State.loadStored (s : State) (w : Word) : State :=
  ((s.put F.STR_LOAD_CTL_ACTION (bits w.toNat 1 1)).put F.STR_LOAD_CTL_AT_FRAME (bits w.toNat 2 2)).put
    F.STR_LOAD_CTL_VECTOR (bits w.toNat 9 4)

/-- The fields of STR_LOAD_CTL that a write of it stores. -/
def loadCtlFields : List (Field × Nat) :=
  [(F.STR_LOAD_CTL_ACTION, 0), (F.STR_LOAD_CTL_AT_FRAME, 0), (F.STR_LOAD_CTL_VECTOR, 0)]

theorem State.reg_loadStored {a : Nat} (h : R.STR_LOAD_CTL.base ≠ a) : (s.loadStored w).reg a = s.reg a := by
  rw [State.loadStored, State.reg_put_ne (f := F.STR_LOAD_CTL_VECTOR) (i := 0) h,
    State.reg_put_ne (f := F.STR_LOAD_CTL_AT_FRAME) (i := 0) h, State.reg_put_ne (f := F.STR_LOAD_CTL_ACTION) (i := 0) h]

theorem State.get_loadStored {f : Field} {i : Nat} (h : R.STR_LOAD_CTL.base ≠ f.addr i) : (s.loadStored w).get f i = s.get f i := by
  rw [State.get, State.reg_loadStored h, ← State.get]

theorem State.get64_loadStored {f : Field} {i : Nat} (h : R.STR_LOAD_CTL.base ≠ f.addr i) (h' : R.STR_LOAD_CTL.base ≠ f.addr i + 4) :
    (s.loadStored w).get64 f i = s.get64 f i := by
  rw [State.get64, State.reg_loadStored h, State.reg_loadStored h', ← State.get64]

theorem State.strPhase_loadStored : (s.loadStored w).strPhase = s.strPhase := State.get_loadStored (by decide)

@[simp] theorem State.loadStored_sys : (s.loadStored w).sys = s.sys := (rfl)
@[simp] theorem State.loadStored_tly : (s.loadStored w).tly = s.tly := (rfl)

theorem State.loadStored_leaves {l : List (Field × Nat)} {p : List Part} (h : loadCtlFields ⊆ l) :
    s.Leaves l p (s.loadStored w) := by
  have hmem {q : Field × Nat} (hq : q ∈ loadCtlFields) : q ∈ l ++ lostFields ∨ .regs ∈ p :=
    .inl (List.mem_append_left _ (h hq))
  exact (((State.Leaves.refl s l p).put (hmem (by simp [loadCtlFields]))).put (hmem (by simp [loadCtlFields]))).put
    (hmem (by simp [loadCtlFields]))

/-! ### The outcomes of a write with GO (R89) -/

theorem doStrLoad_without_go (h : bitAt w.toNat 0 = false) : doStrLoad w s = s.loadStored w := if_pos h

/-- A load refused at the start: it completes with a status and the number of the failing check, and the refusal is recorded. -/
def State.loadRefused (s : State) (w : Word) (st check : Nat) : State :=
  ((s.loadStored w).strFinish st check s.strPhase).tally 0x0101 [st, check, 0]

/-- A load is in progress, or a mode transition, or a rate change: check 1 of R89 at the start. -/
def State.loadBusy (s : State) : Prop := s.strPhase ≠ 0 ∨ s.sys.trans.isSome = true ∨ s.sys.rateChg.isSome = true

theorem State.loadBusy_loadStored : (s.loadStored w).loadBusy ↔ s.loadBusy := by
  rw [State.loadBusy, State.strPhase_loadStored, State.loadStored_sys, ← State.loadBusy]

/-- The span named by STR_LOAD_ADDR and STR_LOAD_LEN is no place for an image: check 2 of R89 at the start. -/
def imageMisplaced (a n : Nat) : Prop := a % 64 ≠ 0 ∨ inUsable a n = false ∨ n < 4096 ∨ 67108864 < n

/-- The load that a write with GO begins. -/
def State.loadBegun (s : State) (w : Word) : StrLoad :=
  { action := bitAt w.toNat 1, atFrame := bitAt w.toNat 2, addr := s.get64 R.STR_LOAD_ADDR_LO, len := s.get R.STR_LOAD_LEN,
    frame := s.get64 R.STR_LOAD_FRAME_LO, image := none, acceptedAt := 0, spReady := false, engineReady := none, standinAt := 0 }

/-- The state in which the image is copied and the load waits for its validation. -/
def State.loadStaged (s : State) (w : Word) : State :=
  let t := ((s.loadStored w).stageImage (s.get64 R.STR_LOAD_ADDR_LO) (s.get R.STR_LOAD_LEN)).put F.STR_LOAD_STAT_PHASE 1
  { t with str := { t.str with load := some (s.loadBegun w) } }

theorem State.loadStaged_load : (s.loadStaged w).str.load = some (s.loadBegun w) := by simp only [State.loadStaged]

theorem State.loadStaged_phase : (s.loadStaged w).strPhase = 1 := by
  rw [State.strPhase, State.loadStaged, State.strTo_get, State.get_put_same (by decide)]
  rfl

theorem State.loadStaged_bulk : (s.loadStaged w).bulk =
    ((s.loadStored w).stageImage (s.get64 R.STR_LOAD_ADDR_LO) (s.get R.STR_LOAD_LEN)).bulk := by
  simp only [State.loadStaged, State.put_bulk]

section
variable (hgo : bitAt w.toNat 0 = true)
include hgo

theorem doStrLoad_of_busy (h : s.loadBusy) : doStrLoad w s = s.loadRefused w stBusy 1 := by
  rw [State.loadRefused, ← State.strPhase_loadStored (w := w)]
  exact (if_neg (by simp [hgo])).trans (if_pos (State.loadBusy_loadStored.2 h))

section
variable (hfree : ¬ s.loadBusy)
include hfree

theorem doStrLoad_of_misplaced (h : imageMisplaced (s.get64 R.STR_LOAD_ADDR_LO) (s.get R.STR_LOAD_LEN)) :
    doStrLoad w s = s.loadRefused w stInconsistent 2 := by
  have hidle : s.strPhase = 0 := Decidable.not_not.1 fun hphase => hfree (.inl hphase)
  rw [← State.get64_loadStored (w := w) (by decide) (by decide), ← State.get_loadStored (w := w) (by decide)] at h
  rw [State.loadRefused, hidle]
  exact (if_neg (by simp [hgo])).trans ((if_neg (mt State.loadBusy_loadStored.1 hfree)).trans (if_pos h))

theorem doStrLoad_of_placed (h : ¬ imageMisplaced (s.get64 R.STR_LOAD_ADDR_LO) (s.get R.STR_LOAD_LEN)) :
    doStrLoad w s = s.loadStaged w := by
  rw [← State.get64_loadStored (w := w) (by decide) (by decide), ← State.get_loadStored (w := w) (by decide)] at h
  rw [State.loadStaged, State.loadBegun, ← State.get64_loadStored (f := R.STR_LOAD_ADDR_LO) (w := w) (by decide) (by decide),
    ← State.get64_loadStored (f := R.STR_LOAD_FRAME_LO) (w := w) (by decide) (by decide),
    ← State.get_loadStored (f := R.STR_LOAD_LEN) (w := w) (by decide)]
  exact (if_neg (by simp [hgo])).trans ((if_neg (mt State.loadBusy_loadStored.1 hfree)).trans (if_neg h))

end

end

/-- A refused load shows its status and check, is recorded, and changes the fields of the write and of a completion alone. -/
theorem State.loadRefused_shows {st check : Nat} (hst : st < 256) (hcheck : check < 32) :
    s.StrResult st check s.strPhase (s.loadRefused w st check) ∧ s.Records [(0x0101, [st, check, 0])] (s.loadRefused w st check) ∧
      s.Leaves (strResultFields ++ loadCtlFields) [] (s.loadRefused w st check) := by
  have hshown : s.StrResult st check s.strPhase ((s.loadStored w).strFinish st check s.strPhase) :=
    State.strFinish_result hst hcheck (State.get_lt (f := F.STR_LOAD_STAT_PHASE)) (State.get_loadStored (by decide))
  refine ⟨hshown.tally, .one ?_, ?_⟩
  · rw [State.strFinish_tly, State.loadStored_tly]
  · exact ((State.loadStored_leaves (List.subset_append_right _ _)).strFinish (List.subset_append_left _ _)).tally

/-- Settles O12: a write without GO, a load refused at check 1 or 2, and one that is staged. -/
theorem structureLoadStarts : Obligations.StructureLoadStarts := by
  intro s w s1 a n
  refine ⟨fun hgo => congrArg Host.Outcome.next (doStrLoad_without_go hgo), fun hgo hbusy => ?_,
    fun hgo hphase htrans hrate hplace => ?_, fun hgo hphase htrans hrate halign husable hmin hmax => ?_⟩
  · exact ⟨_, congrArg Host.Outcome.next (doStrLoad_of_busy hgo hbusy),
      State.loadRefused_shows (st := stBusy) (check := 1) (by decide) (by decide)⟩
  · have hfree : ¬ s.loadBusy := by simp [State.loadBusy, hphase, htrans, hrate]
    have hshown := State.loadRefused_shows (s := s) (w := w) (st := stInconsistent) (check := 2) (by decide) (by decide)
    rw [hphase] at hshown
    exact ⟨_, congrArg Host.Outcome.next (doStrLoad_of_misplaced hgo hfree hplace), hshown⟩
  · have hfree : ¬ s.loadBusy := by simp [State.loadBusy, hphase, htrans, hrate]
    have hplace : ¬ imageMisplaced a n := by
      simp only [imageMisplaced, husable, Bool.true_eq_false, false_or]
      omega
    exact ⟨_, s.loadBegun w, congrArg Host.Outcome.next (doStrLoad_of_placed hgo hfree hplace), State.loadStaged_load, rfl, rfl, rfl,
      State.loadStaged_phase, State.loadStaged_bulk⟩

end Sys2Proof.Machine
end

section
/-! PROOFS. The validation of a structure image and a full image in force (O13). -/
namespace Sys2Proof.Machine

/-- Settles O13: the model's tests in their order; the two kinds of a partial image stand the other way round in it. -/
theorem structureLoadCompletes : Obligations.StructureLoadCompletes := by
  refine ⟨fun s l hl hphase himage => ?_, fun s l st hl himage hfull => congrArg Host.Outcome.next ?_⟩
  · intro rd st q r u accepted
    have hstaged : ¬ (s.strPhase ≠ 1 ∨ l.image.isSome = true) := by simp [hphase, himage]
    refine congrArg Host.Outcome.next ?_
    simp only [doStrValidated, hl, if_neg hstaged]
    refine ite_congr rfl (fun _ => rfl) fun _ => ite_congr rfl (fun _ => rfl) fun _ => ite_congr rfl (fun _ => rfl) fun _ => ?_
    by_cases hcapacity : st.target = 0xFF
    · rw [if_pos hcapacity, if_neg (fun h => h hcapacity), State.strFinish_str]
    · rw [if_neg hcapacity, if_pos hcapacity]
  · simp only [doStrApplied, hl, himage, hfull, Bool.false_eq_true, if_false]

end Sys2Proof.Machine
end

section
/-! PROOFS. The phases of a replacement and the withdrawal of a load (O14). -/
namespace Sys2Proof.Machine

variable {s t : State} {l : StrLoad} {d : Standin}

/-! ### STANDIN_READY (R94) -/

section
variable (hd : s.str.standin = some d) (hcause : d.cause = .replacement)
include hd hcause

theorem State.endTesting_of_replacement : s.endTesting = s := by
  simp [State.endTesting, hd, hcause]

/-- A replacement that the SPARE has been asked for is not asked for again. -/
theorem State.armStandin_of_replacement : s.armStandin = s := by
  unfold State.armStandin
  split
  next =>
    split
    next =>
      simp only [State.endTesting_of_replacement hd hcause, hd, ite_self]
    next => rfl
  next => rfl

theorem doStandinReady_of_replacement {sp : Nat} (hl : s.str.load = some l) (hsp : s.spare = some sp) (hphase : s.strPhase = 2) :
    doStandinReady s = ((s.modLoad (fun x => { x with spReady := true })).loadStores sp
      (l.image.bind (fun i => i.engineSec s.skim d.engine))).put F.STR_LOAD_STAT_PHASE 3 := by
  simp only [doStandinReady, State.armStandin_of_replacement hd hcause, hl, hd, hsp, hphase, hcause, and_self, if_true]

end

/-! ### STR_HANDBACK_FAIL (R96) -/

/-- The state in which a failed hand-back is shown and recorded: the SPARE goes on standing in for a faulty engine. -/
def State.handbackFailed (s : State) (d : Standin) (reason : Nat) : State :=
  let t := ((s.putFlag F.STR_STAT_STANDIN_FAIL true).msi 2).tally 0x0104 [d.engine, reason]
  let u : State := { t with str := { t.str with standin := some { d with cause := .fault, readyAt := none, passed := false } } }
  ((u.put F.CE_STAT_STATE 4 d.engine).modEng d.engine (fun x => { x with lastFault := some t.uptime, out := true })).put
    F.STR_LOAD_STAT_PHASE 5

theorem doStrHandbackFail_of_replacement {reason : Nat} (hd : s.str.standin = some d) (hphase : s.strPhase = 4)
    (hcause : d.cause = .replacement) : doStrHandbackFail reason s = s.handbackFailed d reason := by
  simp only [doStrHandbackFail, hd, hphase, hcause, ne_eq, not_true_eq_false, or_self, if_false, State.handbackFailed]

section
variable {reason : Nat}

/-- The state register of an engine is none of the structure block's. -/
theorem structure_ne_ceStat {f : Field} {e : Nat} (h : f.addr 0 < 0x20000) : f.addr 0 ≠ F.CE_STAT_STATE.addr e := by
  have haddr : F.CE_STAT_STATE.addr e = 0x20004 + 0x1000 * e := rfl
  omega

theorem State.handbackFailed_flag : (s.handbackFailed d reason).flag F.STR_STAT_STANDIN_FAIL = true := by
  rw [State.handbackFailed, State.flag_put_apart (.inl (by decide)) (by decide), State.modEng_flag,
    State.flag_put_apart (.inl (structure_ne_ceStat (by decide)).symm) (by decide), State.strTo_flag,
    State.flag_tally_low (by decide), State.msi_flag, State.flag_putFlag_same (by decide) rfl]

theorem State.handbackFailed_state : (s.handbackFailed d reason).get F.CE_STAT_STATE d.engine = 4 := by
  rw [State.handbackFailed, State.get_put_apart (.inl (structure_ne_ceStat (by decide))) (by decide), State.modEng_get,
    State.get_put_same (by decide)]
  rfl

theorem State.handbackFailed_phase : (s.handbackFailed d reason).strPhase = 5 := State.get_put_same (by decide)

theorem State.handbackFailed_standin : (s.handbackFailed d reason).str.standin =
    some { d with cause := .fault, readyAt := none, passed := false } := by
  simp only [State.handbackFailed, State.put_str, State.modEng_str]

theorem State.handbackFailed_eng : (s.handbackFailed d reason).eng =
    s.eng.modify d.engine (fun x => { x with lastFault := some s.uptime, out := true }) := by
  simp only [State.handbackFailed, State.put_eng, State.modEng_eng, State.tally_eng, State.msi_eng, State.putFlag_eng,
    State.tally_uptime, State.msi_uptime, State.putFlag_uptime]

theorem State.handbackFailed_records : s.Records [(0x0104, [d.engine, reason])] (s.handbackFailed d reason) := by
  have htly : ((s.putFlag F.STR_STAT_STANDIN_FAIL true).msi 2).tly = s.tly := by rw [State.msi_tly, State.putFlag_tly]
  refine (State.Records.one htly).after ?_ ?_
  · simp only [State.handbackFailed, State.put_tly, State.modEng_tly]
  · simp only [State.handbackFailed, State.put_now, State.modEng_now]

theorem State.handbackFailed_leaves : s.Leaves
    [(F.STR_STAT_STANDIN_FAIL, 0), (F.CE_STAT_STATE, d.engine), (F.STR_LOAD_STAT_PHASE, 0)] [.str, .eng] (s.handbackFailed d reason) :=
  (((((((State.Leaves.refl s _ _).putFlag (.inl (by simp))).msi).tally).strTo (by simp)).put (.inl (by simp))).modEng (by simp)).put
    (.inl (by simp))

end

/-! ### STR_ENGINE_READY (R94, R115) -/

/-- The drained engine is loaded with its section; the reference and its signature are stored. -/
def State.engineTested (s : State) (e : Nat) (run : TestRun) : State :=
  ((s.loadStores e (s.section e)).setReg (R.CE_SIG_REF.addr e) run.reference).setReg (R.CE_SIG_LAST.addr e) run.signature

theorem State.engineTested_str {e : Nat} {run : TestRun} : (s.engineTested e run).str = s.str := by
  rw [State.engineTested, State.setReg_str, State.setReg_str, State.loadStores_str]

/-- The engine has passed: it is stood down, its load notes when it became ready, and it takes its role back after 200 µs. -/
def State.enginePassed (s : State) (d : Standin) (run : TestRun) : State :=
  let t := ((s.engineTested d.engine run).put F.CE_STAT_STATE 3 d.engine).modLoad (fun x => { x with engineReady := some s.now })
  { t with str := { t.str with standin := some { d with readyAt := some (t.now + 200000 * 65536), passed := true } } }

section
variable {run : TestRun}

theorem State.takeBack_of_standin {passed : Bool} (hd : s.str.standin = some d) : s.takeBack d.engine passed =
    { s with str := { s.str with standin := some { d with readyAt := some (s.now + 200000 * 65536), passed := passed } } } := by
  simp only [State.takeBack, hd, if_true]

section
variable (hd : s.str.standin = some d) (hphase : s.strPhase = 4) (hcause : d.cause = .replacement) (hidle : s.serving d.engine = [])
include hd hphase hcause hidle

theorem doStrEngineReady_of_pass (hsig : run.signature = run.reference) :
    doStrEngineReady run.reference run.signature s = s.enginePassed d run := by
  have hkept : (((s.engineTested d.engine run).put F.CE_STAT_STATE 3 d.engine).modLoad
      (fun x => { x with engineReady := some s.now })).str.standin = some d := by
    rw [State.modLoad_standin, State.put_str, State.engineTested_str, hd]
  simp only [doStrEngineReady, hd, hphase, hcause, hidle, hsig, List.isEmpty_nil, Bool.true_eq_false, ne_eq,
    not_true_eq_false, or_self, if_false, if_true]
  rw [State.enginePassed, ← State.takeBack_of_standin hkept, State.engineTested, hsig]

theorem doStrEngineReady_of_mismatch (hsig : run.signature ≠ run.reference) :
    doStrEngineReady run.reference run.signature s = doStrHandbackFail 0 (s.engineTested d.engine run) := by
  simp only [doStrEngineReady, hd, hphase, hcause, hidle, hsig, List.isEmpty_nil, Bool.true_eq_false, ne_eq,
    not_true_eq_false, or_self, if_false, State.engineTested]

end

theorem State.enginePassed_reg {a : Nat} (h : F.CE_STAT_STATE.addr d.engine ≠ a) :
    (s.enginePassed d run).reg a = (s.engineTested d.engine run).reg a := by
  rw [State.enginePassed, State.strTo_reg, State.modLoad_reg, State.reg_put_ne h]

theorem State.enginePassed_reference : (s.enginePassed d run).reg (R.CE_SIG_REF.addr d.engine) = run.reference := by
  have hstate : F.CE_STAT_STATE.addr d.engine ≠ R.CE_SIG_REF.addr d.engine := by simp [Field.addr, F.CE_STAT_STATE, R.CE_SIG_REF]
  have hlast : R.CE_SIG_LAST.addr d.engine ≠ R.CE_SIG_REF.addr d.engine := by simp [Field.addr, R.CE_SIG_LAST, R.CE_SIG_REF]
  rw [State.enginePassed_reg hstate, State.engineTested, State.reg_setReg_ne hlast, State.reg_setReg_same]

theorem State.enginePassed_signature : (s.enginePassed d run).reg (R.CE_SIG_LAST.addr d.engine) = run.signature := by
  have hstate : F.CE_STAT_STATE.addr d.engine ≠ R.CE_SIG_LAST.addr d.engine := by simp [Field.addr, F.CE_STAT_STATE, R.CE_SIG_LAST]
  rw [State.enginePassed_reg hstate, State.engineTested, State.reg_setReg_same]

theorem State.enginePassed_state : (s.enginePassed d run).get F.CE_STAT_STATE d.engine = 3 := by
  rw [State.enginePassed, State.strTo_get, State.modLoad_get, State.get_put_same (by decide)]
  rfl

theorem State.enginePassed_standin : (s.enginePassed d run).str.standin =
    some { d with readyAt := some (s.now + 200000 * 65536), passed := true } := by
  simp only [State.enginePassed, State.modLoad_now, State.put_now, State.engineTested, State.setReg_now, State.loadStores_now]

theorem State.enginePassed_load : (s.enginePassed d run).str.load =
    s.str.load.map (fun l => { l with engineReady := some s.now }) := by
  simp only [State.enginePassed, State.modLoad_load, State.put_str, State.engineTested_str]

theorem State.enginePassed_eng : (s.enginePassed d run).eng = (s.loadStores d.engine (s.section d.engine)).eng := by
  simp only [State.enginePassed, State.modLoad_eng, State.put_eng, State.engineTested, State.setReg_eng]

theorem State.enginePassed_leaves : s.Leaves
    [(R.CE_SIG_REF, d.engine), (R.CE_SIG_LAST, d.engine), (F.CE_STAT_STATE, d.engine)] [.str, .eng] (s.enginePassed d run) :=
  ((((((State.Leaves.refl s _ _).loadStores (by simp)).setReg (f := R.CE_SIG_REF) (.inl (by simp)) rfl rfl rfl).setReg
    (f := R.CE_SIG_LAST) (.inl (by simp)) rfl rfl rfl).put (.inl (by simp))).modLoad (by simp)).strTo (by simp)

end

/-! ### MERGE_DONE (R88) -/

/-- The merged structure stands in the staging half, that half is active, and the load is over. -/
def State.mergeStored (s : State) (st part : Structure) : State :=
  let t := (s.writeBulk s.staging (s.mergedBytes st part)).dropLoad
  { t with str := { t.str with stagingHigh := !t.str.stagingHigh } }

section
variable {st part : Structure}

theorem doMergeDone_of_image (hphase : s.strPhase = 5) (hforce : s.str.inForce = some st) (hl : s.str.load = some l)
    (himage : l.image = some part) : doMergeDone s = (s.mergeStored st part).strFinish stOK 0 0 := by
  simp only [doMergeDone, hphase, hforce, hl, himage, Option.bind_some, if_true, State.mergeStored]

theorem State.mergeStored_get {f : Field} {i : Nat} : (s.mergeStored st part).get f i = s.get f i := by
  rw [State.mergeStored, State.strTo_get, State.dropLoad_get, State.writeBulk_get]

theorem State.mergeStored_stagingHigh : (s.mergeStored st part).str.stagingHigh = !s.str.stagingHigh := by
  simp only [State.mergeStored, State.dropLoad_stagingHigh, State.writeBulk_str]

theorem State.mergeStored_load : (s.mergeStored st part).str.load = none := by
  simp only [State.mergeStored, State.dropLoad_load]

theorem State.mergeStored_bulk : (s.mergeStored st part).bulk = (s.writeBulk s.staging (s.mergedBytes st part)).bulk := by
  simp only [State.mergeStored, State.dropLoad_bulk]

theorem State.mergeStored_leaves {fs : List (Field × Nat)} : s.Leaves fs [.str, .bulk] (s.mergeStored st part) :=
  (((State.Leaves.refl s _ _).writeBulk (by simp)).dropLoad (by simp)).strTo (by simp)

end

/-! ### ABORT (R96) -/

section
variable (hl : s.str.load = some l)
include hl

theorem doStrAbort_in_validation (hphase : s.strPhase = 1) : doStrAbort s = s.dropLoad.strFinish stTimeout 0 0 := by
  simp only [doStrAbort, hl, hphase, if_true]

theorem doStrAbort_early (hphase : s.strPhase = 2 ∨ s.strPhase = 3) (hearly : (s.now : Int) + 1000000 * 65536 < s.sLattice l.frame) :
    doStrAbort s = s.strWithdraw 0 := by
  have hvalid : s.strPhase ≠ 1 := by omega
  simp only [doStrAbort, hl, hvalid, hphase, hearly, decide_true, and_self, if_false, if_true]

theorem doStrAbort_late (hphase : s.strPhase = 4 ∨ s.strPhase = 5 ∨
    ((s.strPhase = 2 ∨ s.strPhase = 3) ∧ s.sLattice l.frame ≤ (s.now : Int) + 1000000 * 65536)) :
    doStrAbort s = s.raise F.STR_EVT_ABORT_LATE := by
  have hvalid : s.strPhase ≠ 1 := by omega
  have hbusy : s.strPhase ≠ 0 := by omega
  have hearly : ¬ ((s.strPhase = 2 ∨ s.strPhase = 3) ∧
      decide ((s.now : Int) + 1000000 * 65536 < s.sLattice l.frame) = true) := by
    rw [decide_eq_true_eq]
    omega
  simp only [doStrAbort, hl, hvalid, hbusy, hearly, if_false]

end

theorem doStrAbort_of_nothing (hl : s.str.load = none) (hphase : s.strPhase = 0) : doStrAbort s = s := by
  simp only [doStrAbort, hl, hphase, if_true]

/-- Settles O14: the four commands of a replacement, then the four outcomes of an ABORT. -/
theorem replacementsAndAborts : Obligations.ReplacementsAndAborts := by
  refine ⟨⟨fun s l d sp hl hd hsp hphase hcause => ?_, fun s d run hd hphase hcause _ hidle hsig => ?_,
      fun s d run hd hphase hcause hidle hsig => congrArg Host.Outcome.next (doStrEngineReady_of_mismatch hd hphase hcause hidle hsig),
      fun s d reason hd hphase hcause _ => ?_, fun s l st part hphase hforce hl himage => ?_⟩,
    fun s l hl hphase => ?_,
    fun s l hl hphase hearly => congrArg Host.Outcome.next (doStrAbort_early hl hphase hearly),
    fun s l hl hphase => ?_,
    fun s hl hphase => congrArg Host.Outcome.next (doStrAbort_of_nothing hl hphase)⟩
  · refine ⟨_, congrArg Host.Outcome.next (doStandinReady_of_replacement hd hcause hl hsp hphase),
      State.get_put_same (by decide), ?_, State.put_eng.trans (State.loadStores_eng_congr State.modLoad_eng),
      (((State.Leaves.refl s _ _).modLoad (by simp)).loadStores (by simp)).put (.inl (by simp))⟩
    rw [State.put_str, State.loadStores_str, State.modLoad, hl, Option.map_some]
  · exact ⟨_, congrArg Host.Outcome.next (doStrEngineReady_of_pass hd hphase hcause hidle hsig), State.enginePassed_reference,
      State.enginePassed_signature, State.enginePassed_state, State.enginePassed_standin, State.enginePassed_load,
      State.enginePassed_eng, State.enginePassed_leaves⟩
  · exact ⟨_, congrArg Host.Outcome.next (doStrHandbackFail_of_replacement hd hphase hcause), State.handbackFailed_flag,
      State.handbackFailed_state, State.handbackFailed_phase, State.handbackFailed_standin, State.handbackFailed_eng,
      State.handbackFailed_records, State.handbackFailed_leaves⟩
  · refine ⟨_, congrArg Host.Outcome.next (doMergeDone_of_image hphase hforce hl himage),
      State.strFinish_result (by decide) (by decide) (by decide) State.mergeStored_get, ?_, ?_, ?_,
      State.mergeStored_leaves.strFinish (List.Subset.refl _)⟩
    · rw [State.strFinish_str, State.mergeStored_load]
    · rw [State.strFinish_str, State.mergeStored_stagingHigh]
    · rw [State.strFinish_bulk, State.mergeStored_bulk]
  · refine ⟨_, congrArg Host.Outcome.next (doStrAbort_in_validation hl hphase),
      State.strFinish_result (by decide) (by decide) (by decide) State.dropLoad_get, ?_,
      ((State.Leaves.refl s _ _).dropLoad (by simp)).strFinish (List.Subset.refl _)⟩
    rw [State.strFinish_str, State.dropLoad_load]
  · exact ⟨_, congrArg Host.Outcome.next (doStrAbort_late hl hphase), State.flag_raise_same (by decide) rfl,
      (State.Leaves.refl s _ _).raise (.inl (by simp))⟩

end Sys2Proof.Machine
end

section
/-! PROOFS. What a completion leaves alone, a refused COMMIT and the end of a drain (O19). -/
namespace Sys2Proof.Machine

variable {s : State}

/-! ### Completions (R132, R149, R481) -/

section
variable {id handle : Nat} {c : Completion}

theorem State.logStatus_cmd {f : InFlight} : (s.logStatus f c).cmd = s.cmd := by
  unfold State.logStatus
  split
  · exact State.put_cmd
  · rfl

theorem State.noteStale_cmd {opcode pail : Nat} : (s.noteStale handle opcode pail).cmd = s.cmd := by
  rw [State.noteStale, State.tallyLimited_cmd, State.bump_cmd]

/-- A completion touches the commands in flight and nothing else of the command unit. -/
theorem State.complete_cmd (s : State) (id handle : Nat) (c : Completion) :
    ∃ l, (s.complete id handle c).cmd = { s.cmd with flight := l } := by
  unfold State.complete
  split
  · exact ⟨s.cmd.flight, rfl⟩
  · dsimp only
    split
    · exact ⟨_, State.noteStale_cmd.trans State.logStatus_cmd⟩
    · exact ⟨_, State.logStatus_cmd⟩

theorem State.get_logStatus_low {f : InFlight} {g : Field} {i : Nat} (h : g.addr i < 0x134000) :
    (s.logStatus f c).get g i = s.get g i := by
  unfold State.logStatus
  split
  next e _ =>
    have hlog : F.RED_MLOG_INFO_STATUS.addr e = 0x134004 + 0x10 * e := rfl
    exact State.get_put_apart (.inl (by omega)) (by decide)
  next => rfl

theorem State.get_noteStale_low {opcode pail : Nat} {g : Field} {i : Nat} (h : g.addr i < 0x170000)
    (hstale : R.CH_STALE_CNT.addr 0 ≠ g.addr i) : (s.noteStale handle opcode pail).get g i = s.get g i := by
  have hlost := lost_apart_low h
  rw [State.noteStale, State.get_tallyLimited_apart hlost.1 hlost.2, State.get_bump_apart (.inl hstale) (by decide)]

/-- Below the command log of a pair, a completion writes the count of stale uses alone. -/
theorem State.get_complete_low {g : Field} {i : Nat} (h : g.addr i < 0x134000) (hstale : R.CH_STALE_CNT.addr 0 ≠ g.addr i) :
    (s.complete id handle c).get g i = s.get g i := by
  unfold State.complete
  split
  · rfl
  · dsimp only
    split
    · rw [State.get_noteStale_low (by omega) hstale, State.get_logStatus_low h, State.cmdTo_get]
    · rw [State.get_logStatus_low h, State.cmdTo_get]

end

/-! ### A refused COMMIT (R142, R143) -/

section
variable {m : Nat} {keep : Bool}

theorem State.setAt_congr {t : State} (h : t.cmd.sets = s.cmd.sets) (m : Nat) : t.setAt m = s.setAt m := by
  rw [State.setAt, State.setAt, h]

theorem State.setAt_unlockSet (h : m < s.cmd.sets.length) :
    (s.unlockSet m keep).setAt m = ⟨false, if keep then (s.setAt m).entries else []⟩ := by
  simp [State.setAt, State.unlockSet, State.modSet, List.getD_eq_getElem?_getD, h]

theorem State.unlockSet_get {f : Field} {i : Nat} : (s.unlockSet m keep).get f i = s.get f i := State.cmdTo_get

/-- A refused COMMIT has unlocked its set; the refusal is counted, its event raised and vector 2 sent. -/
def State.commitRefused (s : State) (m : Nat) (keep : Bool) : State :=
  (((s.unlockSet m keep).bump R.CH_REJECT_CNT).raise F.CH_EVT_COMMIT_REJ).msi 2

theorem State.actCommit_of_refused {d : Deferred} {n : Nat} (hact : d.act = .commit m keep)
    (hfail : (((s.copyLists n (s.setAt m).entries).applyEntries (s.setAt m).entries).consistency s n).2.1 ≠ stOK) :
    ∃ items c, s.actCommit d n = ((s.commitRefused m keep).tally 0x0301 items).complete d.id 0 c := by
  simp only [State.actCommit, State.deferredEntries, hact, if_neg hfail]
  exact ⟨_, _, rfl⟩

theorem State.commitRefused_cmd : (s.commitRefused m keep).cmd = (s.unlockSet m keep).cmd := by
  rw [State.commitRefused, State.msi_cmd, State.raise_cmd, State.bump_cmd]

theorem State.commitRefused_shows :
    (s.commitRefused m keep).get R.CH_REJECT_CNT = min 0xFFFFFFFF (s.get R.CH_REJECT_CNT + 1) ∧
      (s.commitRefused m keep).flag F.CH_EVT_COMMIT_REJ = true := by
  have hcount := State.bump_raise_shows (s := s.unlockSet m keep) (f := R.CH_REJECT_CNT) (g := F.CH_EVT_COMMIT_REJ)
    (by decide) rfl (by decide) rfl (.inl (by decide))
  rw [State.unlockSet_get] at hcount
  rw [State.commitRefused, State.msi_get, State.msi_flag]
  exact hcount

end

/-! ### The end of a drain (R126, R127) -/

section
variable {kind index : Nat} {c : Chan}

/-- Bringing the command unit's status up to date writes registers and nothing else. -/
theorem State.syncCmd_proj {β : Type} {g : State → β} (hput : ∀ (t : State) f n i, g (t.put f n i) = g t) :
    g s.syncCmd = g s := by
  unfold State.syncCmd
  dsimp only
  refine (State.each_proj (g := g) fun set _ t => ?_).trans ?_
  · exact (hput _ _ _ _).trans (hput _ _ _ _)
  · rw [hput, hput, hput, hput]

theorem State.syncCmd_cmd : s.syncCmd.cmd = s.cmd := State.syncCmd_proj fun _ _ _ _ => State.put_cmd
theorem State.syncCmd_tly : s.syncCmd.tly = s.tly := State.syncCmd_proj fun _ _ _ _ => State.put_tly
theorem State.syncCmd_now : s.syncCmd.now = s.now := State.syncCmd_proj fun _ _ _ _ => State.put_now

/-- The state without a channel, its index the latest free one. -/
def State.channelFreed (s : State) (kind index : Nat) : State :=
  { s with cmd := { s.cmd with
    chans := s.cmd.chans.filter (fun x => !(x.kind == kind && x.index == index)),
    freed := s.cmd.freed ++ [(kind, index)] } }

theorem doChDrained_of_draining (hc : s.chanAt kind index = some c) (hst : c.st = .draining) : doChDrained kind index s =
    ((s.channelFreed kind index).tally 0x0302 [c.handle, c.destroyFrame.getD 0, c.discarded]).syncCmd := by
  simp only [doChDrained, hc, hst, ne_eq, not_true_eq_false, if_false, State.channelFreed]

theorem doChDrained_of_not_draining (h : (s.chanAt kind index).any (fun c => decide (c.st = .draining)) = false) :
    doChDrained kind index s = s := by
  unfold doChDrained
  split
  next => rfl
  next c hc =>
    have hst : c.st ≠ .draining := by simpa [hc] using h
    exact if_pos hst

end

/-- Settles O19: a refused COMMIT changes its set, a counter and an event bit; a drain ends with its record or does nothing. -/
theorem refusedCommitsAndDrains : Obligations.RefusedCommitsAndDrains := by
  refine ⟨fun s d n m keep hact hm hfail => ?_, fun s kind index c hc hst => ?_,
    fun s kind index h => congrArg Host.Outcome.next (doChDrained_of_not_draining h)⟩
  · obtain ⟨items, c, ht⟩ := State.actCommit_of_refused hact hfail
    obtain ⟨l, hcmd⟩ := ((s.commitRefused m keep).tally 0x0301 items).complete_cmd d.id 0 c
    rw [State.tally_cmd, State.commitRefused_cmd] at hcmd
    obtain ⟨hcount, hevent⟩ := State.commitRefused_shows (s := s) (m := m) (keep := keep)
    intro t
    simp only [t, ht]
    refine ⟨by rw [hcmd]; rfl, by rw [hcmd]; rfl, ?_, ?_, ?_⟩
    · exact (State.setAt_congr (by rw [hcmd]) m).trans (State.setAt_unlockSet hm)
    · rw [State.get_complete_low (by decide) (by decide), State.get_tally_low (by decide), hcount]
    · rw [State.flag, State.get_complete_low (by decide) (by decide), State.get_tally_low (by decide)]
      exact hevent
  · refine ⟨_, congrArg Host.Outcome.next (doChDrained_of_draining hc hst), ?_, ?_,
      (State.Records.one (s := s) (t := s.channelFreed kind index) rfl).after State.syncCmd_tly State.syncCmd_now⟩
    · rw [State.syncCmd_cmd, State.tally_cmd, State.channelFreed]
    · rw [State.syncCmd_cmd, State.tally_cmd, State.channelFreed]

end Sys2Proof.Machine
end

section
/-! PROOFS. What the command unit does with the command at the head of a pail (O17). -/
namespace Sys2Proof.Machine

variable {s r : State} {p c : Nat} {q : Pail} {d : Desc}

/-! ### Reading the descriptor (R451) -/

theorem Desc.readAs {b : Bool} (h : d.unreadable = b) : ({ d with unreadable := b } : Desc) = d := by
  rw [← h]

theorem State.pailRead_of_quiet (hquiet : s.flt.armed = none) : s.pailRead q = (false, s) := by
  simp [State.pailRead, State.opportunity_of_quiet hquiet]

/-- The state after the read of a descriptor with no injection armed: an unreadable one in an on-chip pail is detected. -/
def State.headRead (s : State) (q : Pail) (d : Desc) : State :=
  if d.unreadable = true ∧ q.bulk = false then s.detect 0x0F else s

theorem State.headRead_of_readable (h : d.unreadable = false) : s.headRead q d = s := by
  simp [State.headRead, h]

theorem State.headRead_of_unreadable (h : d.unreadable = true) : s.headRead q d = if q.bulk then s else s.detect 0x0F := by
  cases hb : q.bulk <;> simp [State.headRead, h, hb]

theorem State.pail_headRead : (s.headRead q d).pail p = s.pail p := by
  refine State.pail_congr ?_ p
  unfold State.headRead
  split
  · rw [State.detect, State.raise_par, State.bump_par]
  · rfl

theorem State.read_of_quiet (hquiet : s.flt.armed = none) :
    (if d.unreadable = true then (true, if q.bulk = true then s else s.detected 0x0F p 0) else s.pailRead q) =
      (d.unreadable, s.headRead q d) := by
  cases h : d.unreadable with
  | false => simp [State.headRead_of_readable h, State.pailRead_of_quiet hquiet]
  | true => simp [State.headRead_of_unreadable h, State.detected_of_quiet hquiet]

/-! ### The command's pail, its route and its turn (R128, R129, R134) -/

theorem State.command_of_unbound (hp : s.pail p = none) : s.command p d = s := by
  simp only [State.command, hp]

/-- The state in which a command stays at the head of its pail. -/
def State.heldBack (s : State) (p : Nat) (d : Desc) : State :=
  { s with cmd := { s.cmd with fenced := s.cmd.fenced ++ [⟨p, d, none⟩] } }

section
variable (hquiet : s.flt.armed = none) (hp : s.pail p = some q)
include hquiet hp

theorem State.command_of_other_role (hr : q.role ≠ 0) : s.command p d = s.headRead q d := by
  simp only [State.command, hp, State.read_of_quiet hquiet, State.pail_headRead]
  exact if_pos hr

variable (hr : q.role = 0) (hhead : s.headRead q d = r)
include hr hhead

theorem State.command_of_unrouted (hroute : r.route p = none) : s.command p d = r.noteUnrouted p := by
  subst hhead
  simp only [State.command, hp, State.read_of_quiet hquiet, State.pail_headRead, hr, hroute, ne_eq, not_true_eq_false, if_false]

variable (hroute : r.route p = some c)
include hroute

theorem State.command_of_held (hheld : r.cmd.fenced.any (fun x => x.pail == p) = true ∨ r.mustHold p c d = true) :
    s.command p d = (r.heldBack p d).pump := by
  subst hhead
  simp only [State.command, hp, State.read_of_quiet hquiet, State.pail_headRead, hr, hroute, ne_eq, not_true_eq_false, if_false,
    Desc.readAs rfl]
  exact if_pos (Bool.or_eq_true_iff.2 hheld)

theorem State.command_of_turn (hfirst : r.cmd.fenced.any (fun x => x.pail == p) = false) (hturn : r.mustHold p c d = false) :
    s.command p d = ((r.takeItem p).begin p c false d).pump := by
  subst hhead
  simp only [State.command, hp, State.read_of_quiet hquiet, State.pail_headRead, hr, hroute, ne_eq, not_true_eq_false, if_false,
    Desc.readAs rfl, hfirst, hturn, Bool.or_self, Bool.false_eq_true]

end

/-! ### The checks and the pair (R131, R474) -/

section
variable {mirror : Bool} {id : Nat}

/-- Only a CANCEL that found its COMMIT at the head of its pail fails otherwise than by the checks of R131. -/
theorem State.failOf_of_not_found : s.failOf mirror false d = s.commandFail mirror d := by
  unfold State.failOf
  split
  next h => simp [h]
  next => rfl

theorem State.actOn_of_fail {check status pos : Nat} (h : s.commandFail mirror d = some (check, status, pos)) :
    s.actOn mirror false id d = s.complete id
      (if check = 3 then (((s.commandEntries d)[pos]?).map SetEntry.handle).getD d.handle else d.handle)
      (failComp d (if d.deferred then s.namedFrame d else s.frameNum) check status pos) := by
  unfold State.actOn
  rw [State.failOf_of_not_found, h]

theorem State.actOn_of_pass (h : s.commandFail mirror d = none) : s.actOn mirror false id d = s.carryOut id d := by
  unfold State.actOn
  rw [State.failOf_of_not_found, h]

end

section
variable {u : State} (hu : u = s.takeItem p)
include hu

theorem State.begin_of_unreadable (h : d.unreadable = true) : u.begin p c false d = (s.taken p c d).complete u.cmd.nextId 0
    { failComp d u.frameNum 0 stIntegrity 0xFFFFFFFF with tag := 0xFFFFFFFE, opcode := 0 } := by
  subst hu
  exact if_pos h

variable (hread : d.unreadable = false)
include hread

/-- What no Standby has to take first is checked and carried out at once. -/
theorem State.begin_alone (h : (u.mirroring = false ∧ u.hasStandby = false) ∨ d.restricted = false ∨
    (u.commandFail false d).isSome = true) : u.begin p c false d = (s.taken p c d).actOn false false u.cmd.nextId d := by
  subst hu
  have hgate {b : Bool} (hb : b = false ∨ d.restricted = false ∨ ((s.takeItem p).commandFail false d).isSome = true) :
      (b && d.restricted && ((s.takeItem p).commandFail false d).isNone) = false := by
    rcases hb with hb | hb | hb
    · rw [hb, Bool.false_and, Bool.false_and]
    · rw [hb, Bool.and_false, Bool.false_and]
    · rw [Option.isNone_eq_false_iff.2 hb, Bool.and_false]
  simp only [State.begin, hread, hgate (h.imp_left And.left), hgate (h.imp_left And.right), Bool.false_eq_true, if_false]
  rfl

variable (hpass : u.commandFail false d = none) (hrestricted : d.restricted = true)
include hpass hrestricted

theorem State.begin_mirroring (hm : u.mirroring = true) : u.begin p c false d =
    ({ s.taken p c d with cmd := { (s.taken p c d).cmd with awaiting := some (u.cmd.nextId, p, d) } } : State).sendMirrorAt
      (u.mirrorPoint d).1 (u.mirrorPoint d).2 true (.command p d (u.assigned d)) := by
  subst hu
  simp only [State.begin, hread, hpass, hrestricted, hm, Option.isNone_none, Bool.and_self, Bool.false_eq_true, if_false, if_true]
  rfl

theorem State.begin_with_standby (hm : u.mirroring = false) (hs : u.hasStandby = true) : u.begin p c false d =
    ((((s.taken p c d).sendMirrorAt (u.mirrorPoint d).1 (u.mirrorPoint d).2 false (.command p d (u.assigned d))).logCommand
      u.cmd.nextId p u.red.mseq d).keepLateCommand u.lateFrom d).actOn false false u.cmd.nextId d := by
  subst hu
  simp only [State.begin, hread, hpass, hrestricted, hm, hs, Option.isNone_none, Bool.and_self, Bool.false_and,
    Bool.false_eq_true, if_false, if_true]
  rfl

end

/-! ### The rows of the commands -/

/-- The commands of a command pail, each with its opcode (R130). -/
def commandRows : List ((Fin 256 → Desc → Instr) × Nat) :=
  [(Instr.create, opCreate), (.destroy, opDestroy), (.start, opStart), (.stop, opStop), (.setParam, opSetParam),
    (.getParam, opGetParam), (.clearSet, opClearSet), (.copySet, opCopySet), (.commit, opCommit), (.cancel, opCancel),
    (.cueStore, opCueStore), (.cueLoad, opCueLoad), (.cueFire, opCueFire), (.wait, opWait), (.query, opQuery)]

theorem exec_commandRow {row : (Fin 256 → Desc → Instr) × Nat} (hrow : row ∈ commandRows) (p : Fin 256) (d : Desc)
    (s : State) : exec (row.1 p d) s = .next (s.command p.val (d.inRow row.2)) := by
  simp only [commandRows, List.mem_cons, List.not_mem_nil, or_false] at hrow
  rcases hrow with rfl | rfl | rfl | rfl | rfl | rfl | rfl | rfl | rfl | rfl | rfl | rfl | rfl | rfl | rfl <;> rfl

theorem Desc.inRow_unreadable (d : Desc) (opcode : Nat) : (d.inRow opcode).unreadable = d.unreadable := by
  unfold Desc.inRow
  split <;> rfl

/-- Settles O17: where the command's pail, its route and its turn let it begin, the checks and the pair decide what it does. -/
theorem commandUnitTakesCommands : Obligations.CommandUnitTakesCommands := by
  intro row hrow s p d hquiet e
  rw [exec_commandRow hrow]
  have hreads : e.unreadable = d.unreadable := Desc.inRow_unreadable d row.2
  have hhead {q : Pail} (hd : d.unreadable = false) : s.headRead q e = s := State.headRead_of_readable (hreads.trans hd)
  refine ⟨fun hp => ?_, fun q hp hr hd => ?_, fun q hp hr hd hroute => ?_, fun q c hp hr hd hroute hheld => ?_,
    fun q c r hp hr hd hread hroute hfirst hturn => ?_, fun q c id u v hp hr hd hroute hfirst hturn hu hv hid => ?_⟩
  · rw [State.command_of_unbound hp]
  · rw [State.command_of_other_role hquiet hp hr, hhead hd]
  · rw [State.command_of_unrouted hquiet hp hr (hhead hd) hroute]
  · rw [State.command_of_held hquiet hp hr (hhead hd) hroute hheld, State.heldBack]
  · have hdetected : s.headRead q e = r := (State.headRead_of_unreadable (hreads.trans hd)).trans hread.symm
    rw [State.command_of_turn hquiet hp hr hdetected hroute hfirst hturn, State.begin_of_unreadable rfl (hreads.trans hd)]
  · have hreadable := hreads.trans hd
    rw [State.command_of_turn hquiet hp hr (hhead hd) hroute hfirst hturn, ← hu]
    subst hv hid
    refine ⟨fun halone => ⟨fun check status pos hfail => ?_, fun hpass => ?_⟩, fun hpass hm hrestricted => ?_,
      fun hpass hm hs hrestricted => ?_⟩
    · rw [State.begin_alone hu hreadable halone, State.actOn_of_fail hfail]
    · rw [State.begin_alone hu hreadable halone, State.actOn_of_pass hpass]
    · rw [State.begin_mirroring hu hreadable hpass hrestricted hm]
    · rw [State.begin_with_standby hu hreadable hpass hrestricted hm hs]

end Sys2Proof.Machine
end

section
/-! PROOFS. The effect of each command that is taken and passes its checks (O18). -/
namespace Sys2Proof.Machine

variable {s v : State} {p c id : Nat} {d : Desc}

/-! ### From acceptance to the command's effect (R131) -/

theorem Desc.inRow_of_opcode {op : Nat} (h : d.opcode = op) : d.inRow op = d := by
  rw [Desc.inRow, ← h, ite_self]

theorem State.command_of_accepts {op : Nat} (h : s.Accepts op p c d) :
    s.command p (d.inRow op) = ((s.taken p c d).carryOut (s.takeItem p).cmd.nextId d).pump := by
  obtain ⟨q, hp, hr⟩ := h.bound
  have halone : ((s.takeItem p).mirroring = false ∧ (s.takeItem p).hasStandby = false) ∨ d.restricted = false ∨
      ((s.takeItem p).commandFail false d).isSome = true := by
    by_cases hrestricted : d.restricted = true
    · exact .inl (h.alone hrestricted)
    · exact .inr (.inl (Bool.eq_false_iff.2 hrestricted))
  rw [Desc.inRow_of_opcode h.opcode,
    State.command_of_turn h.quiet hp hr (State.headRead_of_readable h.readable) h.usable h.first h.turn,
    State.begin_alone rfl h.readable halone, State.actOn_of_pass h.passes]

/-! ### The channel that CREATE makes (R125, R126) -/

section
variable {kind i : Nat}

/-- The channel that CREATE makes at an index: STOPPED, with every parameter at its default. -/
def State.createdChan (s : State) (kind i : Nat) : Chan :=
  { kind := kind, index := i, gen := s.nextGen kind i, st := .stopped, params := [], nulls := [], createdAt := s.cmd.latches,
    destroyFrame := none, force := false, discarded := 0 }

theorem State.newChannel_handle : (s.newChannel kind i).1 = (s.createdChan kind i).handle := rfl

theorem State.toResets_cmd {fs : List Field} : (s.each fs (fun f t => t.toReset f i)).cmd = s.cmd :=
  State.each_proj fun _ _ _ => State.setReg_cmd

/-- What starts afresh at CREATE may be a cue's entries, and is no channel. -/
theorem State.freshChannel_chans : (s.freshChannel kind i).cmd.chans = s.cmd.chans := by
  unfold State.freshChannel
  split
  next => exact congrArg Cmd.chans State.toResets_cmd
  next => exact congrArg Cmd.chans (State.toResets_cmd.trans State.modStream_cmd)
  next =>
    dsimp only
    rw [State.put_cmd, State.put_cmd, State.setGovEp_cmd, State.toResets_cmd]
  next =>
    dsimp only
    rw [State.toResets_cmd]
  next => exact congrArg Cmd.chans (State.toResets_cmd (s := s) (i := i))
  next => rfl
  next =>
    dsimp only
    rw [State.toResets_cmd]
  next => rfl
  next => rfl

theorem State.newChannel_chans : (s.newChannel kind i).2.cmd.chans = s.cmd.chans ++ [s.createdChan kind i] :=
  State.freshChannel_chans

end

/-! ### What each opcode does (R130, R138, R144) -/

/-- An immediate command has completed with OK and a result. -/
def State.completed (t : State) (id : Nat) (d : Desc) (result : Nat) : State :=
  t.complete id d.handle (okComp d t.frameNum result)

theorem State.carryOut_create {i : Nat} (hop : d.opcode = opCreate) (hi : v.freeIndex (handleKind d.handle) = some i) :
    v.carryOut id d =
      (v.newChannel (handleKind d.handle) i).2.completed id d (v.createdChan (handleKind d.handle) i).handle := by
  simp only [State.carryOut, hop, opCreate, hi, Option.getD_some, State.completed, State.newChannel_handle]

theorem State.carryOut_destroy (hop : d.opcode = opDestroy) : v.carryOut id d =
    (v.modChan (handleKind d.handle) (handleIndex d.handle) (fun x =>
      if x.handle = d.handle then { x with destroyFrame := some (v.namedFrame d), force := bitAt d.flags 2 } else x)).defer id
        (v.namedFrame d) d (.destroy d.handle (bitAt d.flags 2)) := by
  simp only [State.carryOut, hop, opDestroy]

/-- START and STOP without a set wait for their frame. -/
theorem State.carryOut_run {on : Bool} (hop : d.opcode = if on then opStart else opStop) (hset : d.inSet = false) :
    v.carryOut id d = v.defer id (v.namedFrame d) d (.run d.handle on) := by
  cases on <;> simp [State.carryOut, hop, opStart, opStop, hset]

/-- START and STOP with a set enter an entry in it. -/
theorem State.carryOut_run_in_set {on : Bool} (hop : d.opcode = if on then opStart else opStop) (hset : d.inSet = true) :
    v.carryOut id d =
      (v.setEntries d.set (enterEntry (v.setAt d.set).entries (.run d.handle on))).completed id d 0 := by
  cases on <;> simp [State.carryOut, hop, opStart, opStop, hset, State.completed]

section
variable {pd : ParamDesc} (hop : d.opcode = opSetParam) (hpd : paramDesc (handleKind d.handle) d.param = some pd)
include hop hpd

theorem State.carryOut_setParam_in_set (hset : d.inSet = true) : v.carryOut id d =
    (v.setEntries d.set (enterEntry (v.setAt d.set).entries
      (.param d.handle d.param pd.len (paramValue pd d)))).completed id d 0 := by
  simp only [State.carryOut, hop, opSetParam, hpd, hset, if_true, State.completed]

theorem State.carryOut_setParam (hset : d.inSet = false) {e : SetEntry}
    (he : e = .param d.handle d.param pd.len (paramValue pd d)) {t u : State}
    (ht : t = if handleKind d.handle = kZone ∧ d.param = 0x0610 then
      (v.applyEntry e).calAccepted (handleIndex d.handle) (v.applyEntry e).frameNum else v.applyEntry e)
    (hu : u = if pd.cls = .l ∧ handleKind d.handle ∈ inputKinds then t.noteInput else t) :
    v.carryOut id d = u.completed id d 0 := by
  have hinput : (pd.cls == .l && inputKinds.contains (handleKind d.handle)) = true ↔
      pd.cls = .l ∧ handleKind d.handle ∈ inputKinds := by
    rw [Bool.and_eq_true, beq_iff_eq, List.contains_iff_mem]
  simp only [State.carryOut, hop, opSetParam, hpd, hset, Bool.false_eq_true, if_false, hinput, State.completed, hu, ht, he]

end

theorem State.carryOut_getParam (hop : d.opcode = opGetParam) : v.carryOut id d = v.complete id d.handle
    { okComp d v.frameNum 0 with len := (v.paramAnswer d).1, value := (v.paramAnswer d).2 } := by
  simp only [State.carryOut, hop, opGetParam]

theorem State.carryOut_clearSet (hop : d.opcode = opClearSet) :
    v.carryOut id d = (v.setEntries d.set []).completed id d 0 := by
  simp only [State.carryOut, hop, opClearSet, State.completed]

theorem State.carryOut_copySet (hop : d.opcode = opCopySet) :
    v.carryOut id d = (v.setEntries d.aux (v.setAt d.set).entries).completed id d 0 := by
  simp only [State.carryOut, hop, opCopySet, State.completed]

theorem State.carryOut_commit (hop : d.opcode = opCommit) : v.carryOut id d =
    ((v.copyLists (v.namedFrame d) (v.setAt d.set).entries).modSet d.set (fun x => { x with locked := true })).defer id
      (v.namedFrame d) d (.commit d.set (bitAt d.flags 3)) := by
  simp only [State.carryOut, hop, opCommit]

theorem State.carryOut_cancel (hop : d.opcode = opCancel) {x : Deferred} (hx : v.pendingCommit d.set = some x) :
    v.carryOut id d = (v.timeoutOne x).completed id d 0 := by
  simp only [State.carryOut, hop, opCancel, hx, State.completed]

theorem State.carryOut_cueStore (hop : d.opcode = opCueStore) :
    v.carryOut id d = (v.setCue (handleIndex d.handle) (v.setAt d.set).entries).completed id d 0 := by
  simp only [State.carryOut, hop, opCueStore, State.completed]

theorem State.carryOut_cueLoad (hop : d.opcode = opCueLoad) : v.carryOut id d =
    (v.setEntries d.set ((v.cueEntries (handleIndex d.handle)).foldl enterEntry (v.setAt d.set).entries)).completed id d 0 := by
  simp only [State.carryOut, hop, opCueLoad, State.completed]

theorem State.carryOut_cueFire (hop : d.opcode = opCueFire) : v.carryOut id d =
    (v.copyLists (v.namedFrame d) (v.cueEntries (handleIndex d.handle))).defer id (v.namedFrame d) d
      (.fire d.handle (v.cueEntries (handleIndex d.handle))) := by
  simp only [State.carryOut, hop, opCueFire]

theorem State.carryOut_wait_now (hop : d.opcode = opWait) (hframe : d.frame = 0) : v.carryOut id d = v.completed id d 0 := by
  simp only [State.carryOut, hop, opWait, hframe, if_true, State.completed]

theorem State.carryOut_wait (hop : d.opcode = opWait) (hframe : d.frame ≠ 0) :
    v.carryOut id d = v.defer id (v.namedFrame d) d .wait := by
  simp only [State.carryOut, hop, opWait, hframe, if_false]

theorem State.carryOut_query (hop : d.opcode = opQuery) {x : Chan} (hx : v.chanOf d.handle = some x) :
    v.carryOut id d = v.completed id d ((if x.st = .running then 2 else 1) + 4 * x.gen) := by
  simp only [State.carryOut, hop, opQuery, hx, State.completed]

/-- Settles O18: each opcode's effect, by its own equation. -/
theorem acceptedCommands : Obligations.AcceptedCommands := by
  intro s p c d v id k h kind ok into inSet
  have hexec {op : Nat} {t : State} (ha : s.Accepts op p c d) (ht : v.carryOut id d = t) :
      Host.Outcome.next (s.command p (d.inRow op)) = (.next t.pump : Host.Outcome State Fault Refusal) :=
    congrArg Host.Outcome.next ((State.command_of_accepts ha).trans (congrArg State.pump ht))
  refine ⟨fun ha i hi => ?_, fun ha => hexec ha (State.carryOut_destroy ha.opcode),
    fun ha => ⟨fun hset => hexec ha (State.carryOut_run (on := true) ha.opcode hset),
      fun hset => hexec ha (State.carryOut_run_in_set (on := true) ha.opcode hset)⟩,
    fun ha => ⟨fun hset => hexec ha (State.carryOut_run (on := false) ha.opcode hset),
      fun hset => hexec ha (State.carryOut_run_in_set (on := false) ha.opcode hset)⟩,
    fun ha pd e hpd he => ⟨fun hset => ?_, fun hset => ?_⟩,
    fun ha => hexec ha (State.carryOut_getParam ha.opcode), fun ha => hexec ha (State.carryOut_clearSet ha.opcode),
    fun ha => hexec ha (State.carryOut_copySet ha.opcode), fun ha => hexec ha (State.carryOut_commit ha.opcode),
    fun ha x hx => hexec ha (State.carryOut_cancel ha.opcode hx), fun ha => hexec ha (State.carryOut_cueStore ha.opcode),
    fun ha => hexec ha (State.carryOut_cueLoad ha.opcode), fun ha => hexec ha (State.carryOut_cueFire ha.opcode),
    fun ha => ⟨fun hframe => hexec ha (State.carryOut_wait_now ha.opcode hframe),
      fun hframe => hexec ha (State.carryOut_wait ha.opcode hframe)⟩,
    fun ha x hx => hexec ha (State.carryOut_query ha.opcode hx)⟩
  · exact ⟨v.createdChan kind i, (v.newChannel kind i).2, hexec ha (State.carryOut_create ha.opcode hi),
      State.newChannel_chans, rfl, rfl, rfl, rfl, rfl, rfl, rfl⟩
  · subst he
    exact hexec ha (State.carryOut_setParam_in_set ha.opcode hpd hset)
  · exact ⟨_, _, hexec ha (State.carryOut_setParam ha.opcode hpd hset he rfl rfl), rfl, rfl⟩

end Sys2Proof.Machine
end

section
/-! PROOFS. What becomes of a received packet (O25). -/
namespace Sys2Proof.Machine

variable {s : State} {i : Nat} {b : Bool} {p : RtpPacket} {c : Chan}

/-! ### The outcomes of PACKET_RECEIVE (R150, R157, R159) -/

theorem doPacketReceive_of_no_listener (h : (s.netStream i).any (fun c => c.hasPath b) = false) :
    doPacketReceive i b p s = s.bump R.ING_FILTERED := by
  unfold doPacketReceive
  split
  next => rfl
  next c hc => exact if_pos (by simpa [hc] using h)

section
variable (hc : s.netStream i = some c) (hb : c.hasPath b = true)
include hc hb

theorem doPacketReceive_not_taken (h : s.power < 2 ∨ packetAccepted p = false) : doPacketReceive i b p s = s := by
  simp only [doPacketReceive, hc, hb, h, Bool.true_eq_false, if_false, if_true]

section
variable (hp : 2 ≤ s.power) (ha : packetAccepted p = true)
include hp ha

theorem doPacketReceive_of_format_break {rule : Nat} (hf : s.formatBreak c i p = some rule) :
    doPacketReceive i b p s = s.formatDiscard c i rule := by
  simp only [doPacketReceive, hc, hb, ha, hf, Nat.not_lt.2 hp, Bool.true_eq_false, or_self, if_false]

variable (hf : s.formatBreak c i p = none)
include hf

theorem doPacketReceive_of_twin {t : Nat} (ht : (s.stream i).twinAt p.seq = some t) : doPacketReceive i b p s =
    if s.uptime ≤ t + tenMs then s.pathHeard i b ((p.srds.map (fun r => r.data.length)).sum) else s := by
  simp only [doPacketReceive, hc, hb, ha, hf, ht, Nat.not_lt.2 hp, Bool.true_eq_false, or_self, if_false]

/-- The first copy of a packet is added to its picture, once the path is heard and the picture is in reception. -/
theorem doPacketReceive_of_new (ht : (s.stream i).twinAt p.seq = none) {heard : State}
    (hh : heard = s.pathHeard i b ((p.srds.map (fun r => r.data.length)).sum)) : doPacketReceive i b p s =
      (if (s.stream i).pics.any (fun q => q.timestamp == p.timestamp) then heard
        else if (s.stream i).lastTs.all (fun t => laterTs p.timestamp t) then heard.openPicture c i p
        else heard.openOlder c i p).addPacket c i p := by
  simp only [doPacketReceive, hc, hb, ha, hf, ht, hh, Nat.not_lt.2 hp, Bool.true_eq_false, or_self, if_false,
    apply_ite (fun u : State => u.addPacket c i p)]

end
end

/-! ### A packet and its picture (R158, R160) -/

/-- A picture with a packet added, in its own buffer or else in a free one. -/
def State.pictureWith (s : State) (c : Chan) (i : Nat) (p : RtpPacket) (q : Picture) : Picture :=
  { q.take c.streamFmt c.streamW s.uptime p with buf := q.buf.orElse (fun _ => s.freeBuffer i) }

/-- The stream holds a picture in place of the one of a packet's timestamp, and the packet's marker. -/
def State.packetNoted (s : State) (i : Nat) (p : RtpPacket) (r : Picture) : State :=
  s.modStream i (fun y => { y with
    pics := y.pics.map (fun z => if z.timestamp == p.timestamp then r else z),
    marks := if p.marker then y.marks ++ [(p.timestamp, p.seq)] else y.marks })

/-- The samples whose pixels a packet has UNPACK write: its own where the picture already has a buffer, else all the picture's. -/
def State.unpackedKeys (s : State) (c : Chan) (i : Nat) (p : RtpPacket) (q : Picture) : List Nat :=
  if q.buf.isSome then (p.srds.flatMap (srdSamples c.streamFmt c.streamW)).map Prod.fst
  else (s.pictureWith c i p q).samples.map Prod.fst

theorem State.addPacket_of_no_picture (h : (s.stream i).pics.find? (fun q => q.timestamp == p.timestamp) = none) :
    s.addPacket c i p = s := by
  simp only [State.addPacket, h]

section
variable {q : Picture} (h : (s.stream i).pics.find? (fun q => q.timestamp == p.timestamp) = some q)
include h

theorem State.addPacket_without_unpack (hk : s.kindServed 1 = false) :
    s.addPacket c i p = s.packetNoted i p (s.pictureWith c i p q) := by
  simp only [State.addPacket, h, hk, Bool.false_and, Bool.false_eq_true, if_false]
  rfl

theorem State.addPacket_with_unpack (hk : s.kindServed 1 = true) {r : Picture} (hr : r = s.pictureWith c i p q) {w : State}
    (hw : w = (s.packetNoted i p r).writePixels c r (s.unpackedKeys c i p q)) :
    s.addPacket c i p = if (w.stream i).complete c r then w.pictureComplete c i r else w := by
  subst hw hr
  simp only [State.addPacket, h, hk, Bool.true_and, if_true]
  rfl

end

/-- Settles O25: PACKET_RECEIVE by who listens, the mode, the format and the twin, then the picture that takes the packet. -/
theorem packetsReceived : Obligations.PacketsReceived := by
  refine ⟨fun s i b p h => congrArg Host.Outcome.next (doPacketReceive_of_no_listener h),
    fun s i b p c hc hb h => congrArg Host.Outcome.next (doPacketReceive_not_taken hc hb h),
    fun s i b p c hc hb hp ha => ⟨fun rule hf => ?_, fun hf t ht => ?_, fun hf ht => ?_⟩,
    fun u c i p => ⟨State.addPacket_of_no_picture, fun q hq => ?_⟩⟩
  · exact congrArg Host.Outcome.next (doPacketReceive_of_format_break hc hb hp ha hf)
  · exact congrArg Host.Outcome.next (doPacketReceive_of_twin hc hb hp ha hf ht)
  · exact congrArg Host.Outcome.next (doPacketReceive_of_new hc hb hp ha hf ht rfl)
  · exact ⟨u.pictureWith c i p q, u.packetNoted i p (u.pictureWith c i p q), rfl, rfl, State.addPacket_without_unpack hq,
      fun hk => ⟨_, _, rfl, State.addPacket_with_unpack hq hk rfl rfl⟩⟩

end Sys2Proof.Machine
end

section
/-! PROOFS. Streams that fall silent, lose a path or give up a picture, and group queries (O26). -/
namespace Sys2Proof.Machine

variable {s t : State} {i : Nat} {c : Chan}

/-! ### The registers of a stream and the events of ingest -/

/-- A register of a stream's window lies below the Tally's. -/
theorem ingStream_low {f : Field} (hb : f.base < 0x41040) (hs : f.stride = 0x40) (hi : i < 32) : f.addr i < 0x170000 := by
  rw [Field.addr, hs]
  omega

/-- An event of ingest shares nothing with the registers of the streams, which lie above it. -/
theorem ingEvent_apart {e f : Field} (he : e.addr 0 = 0x40008) (hf : 0x41000 ≤ f.base) : e.apart 0 f i :=
  .inl (Nat.ne_of_lt (Nat.lt_of_lt_of_le (by rw [he]; decide) (Nat.le_trans hf (Nat.le_add_right _ _))))

theorem State.get64_put_of_ne {f g : Field} {v i j : Nat} (h : f.addr i ≠ g.addr j) (h' : f.addr i ≠ g.addr j + 4) :
    (s.put f v i).get64 g j = s.get64 g j := by
  rw [State.get64, State.reg_put_ne h, State.reg_put_ne h', ← State.get64]

/-- A stream's status and its media time lie in different registers. -/
theorem State.get64_put_ingStat {f : Field} {v : Nat} (hb : f.base = 0x41000) (hs : f.stride = 0x40) :
    (s.put f v i).get64 R.ING_S_MEDIA_LO i = s.get64 R.ING_S_MEDIA_LO i := by
  have hm : R.ING_S_MEDIA_LO.addr i = 0x41018 + 0x40 * i := rfl
  have hf : f.addr i = 0x41000 + 0x40 * i := by rw [Field.addr, hb, hs]
  exact State.get64_put_of_ne (by omega) (by omega)

/-! ### STREAM_NO_SIGNAL (R161) -/

/-- The stream has been silent for STALL: it is in NO_SIGNAL. -/
def State.fallenSilent (s : State) (c : Chan) (i : Nat) : State :=
  let u := s.atUptime (max (s.stream i).lastA (s.stream i).lastB + c.val 0x020B * 1000)
  (u.modStream i (fun y => { y with noSignal := some u.uptime })).put F.ING_S_STAT_STATE 3 i

/-- The one path of a stream without PATH_B is not receiving (R171). -/
def State.onePathDown (s : State) (c : Chan) (i : Nat) : State :=
  if c.hasPath true then s else s.putFlag F.ING_S_STAT_PATH_A_OK false i

/-- The state in which a stream's NO_SIGNAL is recorded. -/
def State.noSignalRaised (s : State) (c : Chan) (i : Nat) : State :=
  ((s.fallenSilent c i).onePathDown c i).raise F.ING_EVT_NO_SIGNAL

theorem State.onePathDown_uptime : (s.onePathDown c i).uptime = s.uptime := by
  unfold State.onePathDown
  split
  · rfl
  · exact State.putFlag_uptime

theorem State.onePathDown_tly : (s.onePathDown c i).tly = s.tly := by
  unfold State.onePathDown
  split
  · rfl
  · exact State.putFlag_tly

theorem State.onePathDown_state : (s.onePathDown c i).get F.ING_S_STAT_STATE i = s.get F.ING_S_STAT_STATE i := by
  unfold State.onePathDown
  split
  · rfl
  · exact State.get_putFlag_apart (.inr (.inr (by decide))) (by decide)

theorem State.onePathDown_media : (s.onePathDown c i).get64 R.ING_S_MEDIA_LO i = s.get64 R.ING_S_MEDIA_LO i := by
  unfold State.onePathDown
  split
  · rfl
  · exact State.get64_put_ingStat rfl rfl

theorem State.onePathDown_flag (h : c.hasPath true = false) : (s.onePathDown c i).flag F.ING_S_STAT_PATH_A_OK i = false := by
  rw [State.onePathDown, h, if_neg Bool.false_ne_true]
  exact State.flag_putFlag_same (by decide) rfl

theorem State.Leaves.onePathDown {l : List (Field × Nat)} {p : List Part} (h : s.Leaves l p t)
    (hf : c.hasPath true = false → (F.ING_S_STAT_PATH_A_OK, i) ∈ l) : s.Leaves l p (t.onePathDown c i) := by
  unfold State.onePathDown
  split
  next => exact h
  next hone => exact h.putFlag (.inl (List.mem_append_left _ (hf (eq_false_of_ne_true hone))))

theorem State.fallenSilent_media : (s.fallenSilent c i).get64 R.ING_S_MEDIA_LO i = s.get64 R.ING_S_MEDIA_LO i := by
  rw [State.fallenSilent, State.get64_put_ingStat rfl rfl, State.modStream_get64, State.atUptime_get64]

theorem doStreamNoSignal_of_signal (hc : s.netStream i = some c) (hn : (s.stream i).noSignal = none) : doStreamNoSignal i s =
    (s.noSignalRaised c i).tally 0x0400 [c.handle, s.get64 R.ING_S_MEDIA_LO i] := by
  rw [← State.fallenSilent_media (c := c), ← State.onePathDown_media (c := c)]
  simp only [doStreamNoSignal, hc, hn, Option.isSome_none, Bool.false_eq_true, if_false]
  rfl

theorem State.noSignalRaised_state : (s.noSignalRaised c i).get F.ING_S_STAT_STATE i = 3 := by
  rw [State.noSignalRaised, State.get_raise_apart (ingEvent_apart rfl (by decide)) (by decide), State.onePathDown_state,
    State.fallenSilent, State.get_put_same (by decide)]
  rfl

theorem State.noSignalRaised_uptime : (s.noSignalRaised c i).uptime =
    max s.uptime (max (s.stream i).lastA (s.stream i).lastB + c.val 0x020B * 1000) := by
  rw [State.noSignalRaised, State.raise_uptime, State.onePathDown_uptime, State.fallenSilent, State.put_uptime,
    State.modStream_uptime, State.atUptime_uptime]

theorem State.noSignalRaised_tly : (s.noSignalRaised c i).tly = s.tly := by
  rw [State.noSignalRaised, State.raise_tly, State.onePathDown_tly, State.fallenSilent, State.put_tly, State.modStream_tly,
    State.atUptime_tly]

theorem State.noSignalRaised_path (h : c.hasPath true = false) :
    (s.noSignalRaised c i).flag F.ING_S_STAT_PATH_A_OK i = false := by
  rw [State.noSignalRaised, State.flag_raise_apart (ingEvent_apart rfl (by decide)) (by decide), State.onePathDown_flag h]

theorem State.noSignalRaised_leaves : s.Leaves ([(F.ING_S_STAT_STATE, i), (F.ING_EVT_NO_SIGNAL, 0)] ++
    (if c.hasPath true then [] else [(F.ING_S_STAT_PATH_A_OK, i)])) [.ing, .time] (s.noSignalRaised c i) :=
  (((((State.Leaves.refl s _ _).atUptime (by simp)).modStream (by simp)).put (.inl (by simp))).onePathDown
    fun hone => by simp [hone]).raise (.inl (by simp))

/-! ### PATH_LOST (R157) -/

/-- PATH_A_OK or PATH_B_OK. -/
def pathOk (b : Bool) : Field := if b then F.ING_S_STAT_PATH_B_OK else F.ING_S_STAT_PATH_A_OK

theorem pathOk_shape (b : Bool) :
    (pathOk b).fits = true ∧ (pathOk b).width = 1 ∧ (pathOk b).base = 0x41000 ∧ (pathOk b).stride = 0x40 := by
  cases b <;> decide

/-- The state in which the loss of a path is recorded, seen at an uptime. -/
def State.pathLostRaised (s : State) (b : Bool) (i at_ : Nat) : State :=
  ((s.atUptime at_).putFlag (pathOk b) false i).raise F.ING_EVT_PATH_LOST

section
variable {b : Bool} {at_ : Nat}

theorem doPathLost_of_two_paths (hc : s.netStream i = some c) (h2 : c.hasPath true = true) : doPathLost i b s =
    (s.pathLostRaised b i ((if b then (s.stream i).lastB else (s.stream i).lastA) + c.val 0x020B * 1000)).tally 0x0407
      [c.handle, if b then 1 else 0] := by
  simp only [doPathLost, hc, h2, if_true]
  rfl

theorem State.pathLostRaised_path : (s.pathLostRaised b i at_).flag (pathOk b) i = false := by
  obtain ⟨hfits, hwidth, hbase, -⟩ := pathOk_shape b
  rw [State.pathLostRaised, State.flag_raise_apart (ingEvent_apart rfl (Nat.le_of_eq hbase.symm)) (by decide),
    State.flag_putFlag_same hfits hwidth]

theorem State.pathLostRaised_tly : (s.pathLostRaised b i at_).tly = s.tly := by
  rw [State.pathLostRaised, State.raise_tly, State.putFlag_tly, State.atUptime_tly]

theorem State.pathLostRaised_leaves :
    s.Leaves [(pathOk b, i), (F.ING_EVT_PATH_LOST, 0)] [.time] (s.pathLostRaised b i at_) :=
  (((State.Leaves.refl s _ _).atUptime (by simp)).putFlag (.inl (by simp))).raise (.inl (by simp))

end

/-! ### PICTURE_PARTIAL_TIMEOUT (R160) -/

section
variable {q : Picture} {y : Nat × Nat × Nat} {at_ : Nat}

theorem State.stream_modStream_same {f : Stream → Stream} (h : i < s.ing.streams.length) :
    (s.modStream i f).stream i = f (s.stream i) := by
  simp [State.stream, List.getD_eq_getElem?_getD, h]

/-- The stream without a picture, which it notes as judged, with the count and the event of a partial one. -/
def State.pictureGivenUp (s : State) (i : Nat) (q : Picture) (y : Nat × Nat × Nat) : State :=
  ((s.modStream i (fun x => { x with
    pics := x.pics.filter (fun z => z.timestamp != q.timestamp), judged := x.judged ++ [y] })).bump R.ING_S_PARTIAL i).raise
      F.ING_EVT_PARTIAL

theorem State.picturePartial_eq (s : State) (c : Chan) (i : Nat) (q : Picture) : ∃ y items,
    s.picturePartial c i q = (s.pictureGivenUp i q y).tallyLimited (0x04020000 + i) oneSecond 0x0402 items :=
  ⟨_, _, rfl⟩

theorem doPicturePartialTimeout_of_due (hc : s.netStream i = some c) (hq : (s.stream i).nextPartial = some (q, at_)) :
    doPicturePartialTimeout i s = (s.atUptime (at_ + tenMs)).picturePartial c i q := by
  simp only [doPicturePartialTimeout, hc, hq]

theorem State.picturePartial_uptime : (s.picturePartial c i q).uptime = s.uptime := by
  obtain ⟨y, items, e⟩ := State.picturePartial_eq s c i q
  rw [e, State.tallyLimited_uptime, State.pictureGivenUp, State.raise_uptime, State.bump_uptime, State.modStream_uptime]

theorem State.picturePartial_pics (h : i < s.ing.streams.length) :
    ((s.picturePartial c i q).stream i).pics = (s.stream i).pics.filter (fun x => x.timestamp != q.timestamp) := by
  obtain ⟨y, items, e⟩ := State.picturePartial_eq s c i q
  rw [State.stream, e, State.tallyLimited_ing, State.pictureGivenUp, State.raise_ing, State.bump_ing, ← State.stream,
    State.stream_modStream_same h]

theorem State.picturePartial_count (hi : i < 32) :
    (s.picturePartial c i q).get R.ING_S_PARTIAL i = min 0xFFFFFFFF (s.get R.ING_S_PARTIAL i + 1) := by
  obtain ⟨y, items, e⟩ := State.picturePartial_eq s c i q
  obtain ⟨hlost, hlost'⟩ := lost_apart_low (ingStream_low (f := R.ING_S_PARTIAL) (by decide) rfl hi)
  rw [e, State.get_tallyLimited_apart hlost hlost', State.pictureGivenUp,
    State.get_raise_apart (ingEvent_apart rfl (by decide)) (by decide), State.get_bump_same (by decide), State.modStream_get]
  rfl

theorem State.picturePartial_event : (s.picturePartial c i q).flag F.ING_EVT_PARTIAL = true := by
  obtain ⟨y, items, e⟩ := State.picturePartial_eq s c i q
  rw [e, State.flag_tallyLimited_apart (.inl (by decide)) (.inl (by decide))]
  exact State.flag_raise_same (by decide) rfl

theorem State.Leaves.picturePartial {l : List (Field × Nat)} {p : List Part} (h : s.Leaves l p t) (hp : .ing ∈ p)
    (hcount : (R.ING_S_PARTIAL, i) ∈ l) (hevent : (F.ING_EVT_PARTIAL, 0) ∈ l) : s.Leaves l p (t.picturePartial c i q) := by
  obtain ⟨y, items, e⟩ := State.picturePartial_eq t c i q
  rw [e]
  exact (((h.modStream hp).bump (.inl (List.mem_append_left _ hcount))).raise
    (.inl (List.mem_append_left _ hevent))).tallyLimited

end

/-! ### IGMP_QUERY (R155) -/

/-- A port that hears an IGMPv2 query remembers when. -/
def State.queryHeard (s : State) (port version : Nat) : State :=
  if version = 2 then
    { s with ing := { s.ing with v2Heard := (port, s.uptime) :: s.ing.v2Heard.filter (fun q => q.1 != port) } }
  else s

section
variable {port version group : Nat}

theorem State.queryHeard_ing : (s.queryHeard port version).ing = { s.ing with
    v2Heard := if version = 2 then (port, s.uptime) :: s.ing.v2Heard.filter (fun q => q.1 != port) else s.ing.v2Heard } := by
  unfold State.queryHeard
  split <;> rfl

theorem State.queryHeard_leaves : s.Leaves [] [.ing] (s.queryHeard port version) :=
  .ite _ ((State.Leaves.refl s _ _).ingTo (by simp)) (State.Leaves.refl s _ _)

theorem doIgmpQuery_of_source {u : State} (hu : u = s.queryHeard port version) (hg : group % 2 ^ 32 ≠ 0)
    (hs : group / 2 ^ 32 ≠ 0) : doIgmpQuery port version group s =
      if wanted (u.joined port 0) (group % 2 ^ 32) (group / 2 ^ 32)
      then u.sendReport port false (group % 2 ^ 32) (group / 2 ^ 32) else u :=
  hu ▸ if_pos ⟨hg, hs⟩

theorem doIgmpQuery_of_group {u : State} (hu : u = s.queryHeard port version)
    (h : group % 2 ^ 32 = 0 ∨ group / 2 ^ 32 = 0) : doIgmpQuery port version group s =
      (u.joined port 0).foldl (fun v j =>
        if group % 2 ^ 32 = 0 ∨ group % 2 ^ 32 = j.1 then v.sendReport port false j.1 j.2 else v) u :=
  hu ▸ if_neg fun hboth => h.elim hboth.1 hboth.2

end

/-! ### Without a running network stream nothing happens -/

section
variable (h : s.netStream i = none)
include h

theorem doStreamNoSignal_of_no_stream : doStreamNoSignal i s = s := by simp only [doStreamNoSignal, h]
theorem doPathLost_of_no_stream {b : Bool} : doPathLost i b s = s := by simp only [doPathLost, h]
theorem doPicturePartialTimeout_of_no_stream : doPicturePartialTimeout i s = s := by simp only [doPicturePartialTimeout, h]

end

/-- Settles O26: a silent stream, a stream that does not run, a lost path, a picture given up and a group query. -/
theorem streamEvents : Obligations.StreamEvents := by
  refine ⟨fun s i c hc hn => ?_, fun s i h => ?_, fun s i b c hc h2 => ?_, fun s i c q at_ hc hq hi => ?_,
    fun s port version group => ?_⟩
  · refine ⟨_, congrArg Host.Outcome.next (doStreamNoSignal_of_signal hc hn), ?_, ?_, ?_, .one State.noSignalRaised_tly,
      fun hone => ?_, State.noSignalRaised_leaves.tally⟩
    · rw [State.get_tally_low (ingStream_low (by decide) rfl i.isLt), State.noSignalRaised_state]
    · rw [State.flag_tally_low (by decide)]
      exact State.flag_raise_same (by decide) rfl
    · rw [State.tally_uptime, State.noSignalRaised_uptime]
    · rw [State.flag_tally_low (ingStream_low (by decide) rfl i.isLt), State.noSignalRaised_path hone]
  · exact ⟨congrArg Host.Outcome.next (doStreamNoSignal_of_no_stream h), congrArg Host.Outcome.next (doPathLost_of_no_stream h),
      congrArg Host.Outcome.next (doPathLost_of_no_stream h),
      congrArg Host.Outcome.next (doPicturePartialTimeout_of_no_stream h)⟩
  · obtain ⟨-, -, hbase, hstride⟩ := pathOk_shape b
    refine ⟨_, congrArg Host.Outcome.next (doPathLost_of_two_paths hc h2), ?_, ?_, .one State.pathLostRaised_tly,
      State.pathLostRaised_leaves.tally⟩
    · exact (State.flag_tally_low (ingStream_low (hbase ▸ by decide) hstride i.isLt)).trans State.pathLostRaised_path
    · rw [State.flag_tally_low (by decide)]
      exact State.flag_raise_same (by decide) rfl
  · refine ⟨_, congrArg Host.Outcome.next (doPicturePartialTimeout_of_due hc hq), ?_, ?_, ?_, State.picturePartial_event,
      ((State.Leaves.refl s _ _).atUptime (by simp)).picturePartial (by simp) (by simp) (by simp)⟩
    · rw [State.picturePartial_uptime, State.atUptime_uptime]
      rfl
    · rw [State.picturePartial_pics (by rwa [State.atUptime_ing]), State.stream, State.atUptime_ing, ← State.stream]
    · rw [State.picturePartial_count i.isLt, State.atUptime_get]
  · exact ⟨s.queryHeard port version, State.queryHeard_ing, State.queryHeard_leaves,
      fun hg hs => congrArg Host.Outcome.next (doIgmpQuery_of_source rfl hg hs),
      fun h => congrArg Host.Outcome.next (doIgmpQuery_of_group rfl h)⟩

end Sys2Proof.Machine
end

section
/-! PROOFS. The layers dropped from a band (O28). -/
namespace Sys2Proof.Machine

variable (avail2 : Nat) (l : List (Nat × Nat))

theorem dropLayers_takes_lowest :
    (dropLayers avail2 l).1 = (l.take (dropLayers avail2 l).1.length).map Prod.fst := by
  fun_induction dropLayers avail2 l with
  | case1 | case2 | case4 => rfl
  | case3 x y l cost hover q ih => exact congrArg (x.1 :: ·) ih

theorem dropLayers_cost :
    (dropLayers avail2 l).2 = ((l.drop (dropLayers avail2 l).1.length).map Prod.snd).sum := by
  fun_induction dropLayers avail2 l with
  | case1 | case2 | case4 => rfl
  | case3 x y l cost hover q ih => exact ih

/-- The topmost layer is never dropped. -/
theorem dropLayers_length_lt (h : l ≠ []) : (dropLayers avail2 l).1.length < l.length := by
  fun_induction dropLayers avail2 l with
  | case1 => exact absurd rfl h
  | case2 | case4 => exact Nat.succ_pos _
  | case3 x y l cost hover q ih => exact Nat.succ_lt_succ (ih (List.cons_ne_nil _ _))

theorem dropLayers_within_or_one_left :
    (dropLayers avail2 l).2 ≤ avail2 ∨ l.length ≤ (dropLayers avail2 l).1.length + 1 := by
  fun_induction dropLayers avail2 l with
  | case1 | case2 => exact .inr (by simp)
  | case3 x y l cost hover q ih => exact ih.imp_right Nat.succ_le_succ
  | case4 x y l cost hover => exact .inl (Nat.le_of_not_lt hover)

/-- Each layer is dropped of a band that is over its allowance without the layers below it. -/
theorem dropLayers_over_before (k : Nat) (h : k < (dropLayers avail2 l).1.length) :
    avail2 < ((l.drop k).map Prod.snd).sum := by
  fun_induction dropLayers avail2 l generalizing k with
  | case1 | case2 | case4 => exact absurd h (Nat.not_lt_zero k)
  | case3 x y l cost hover q ih =>
    cases k with
    | zero => exact hover
    | succ k => exact ih k (Nat.lt_of_succ_lt_succ h)

/-- Settles O28: each part by the recursion of `dropLayers`, which drops one layer more while the rest is over the allowance. -/
theorem droppedLayersAreFewest : Obligations.DroppedLayersAreFewest := fun avail2 l =>
  ⟨dropLayers_takes_lowest avail2 l, dropLayers_cost avail2 l, dropLayers_length_lt avail2 l,
    dropLayers_within_or_one_left avail2 l, dropLayers_over_before avail2 l⟩

end Sys2Proof.Machine
end

section
/-! PROOFS. Table loads: coefficient banks, output curves, gain loads and tile-type loads (O24). -/
namespace Sys2Proof.Machine

variable {s t : State}

/-! ### A load without a Standby (R474) -/

section
variable {accepted : Bool} {what : Mirrored} {act : State → State}

theorem State.mirrored_of_alone (hs : s.hasStandby = false) (hm : s.mirroring = false) :
    s.mirrored accepted what act = act s := by
  simp only [State.mirrored, State.mirroredFrom, hs, hm, Bool.and_false, Bool.false_eq_true, if_false]

theorem State.mirrored_of_not_accepted (h : accepted = false) : s.mirrored accepted what act = act s := by
  simp only [State.mirrored, State.mirroredFrom, h, Bool.false_and, Bool.false_eq_true, if_false]

end

/-! ### The completion of a load (R202, R221, R241, R247) -/

/-- The fields that a completed load writes: RESULT, CHECK and SEQ of its status register, side by side, and its event bit in
another register; both registers lie below the Tally's. -/
structure CompletionFields (result check seq done : Field) : Prop where
  resultBits : result.lo = 0 ∧ result.width = 8
  checkBits : check.lo = 8 ∧ check.width = 4
  seqBits : seq.lo = 12 ∧ seq.width = 3
  doneBit : done.fits = true ∧ done.width = 1
  doneApart : done.addr 0 ≠ result.addr 0 ∧ done.addr 0 ≠ check.addr 0 ∧ done.addr 0 ≠ seq.addr 0
  statusLow : result.addr 0 < 0x170000 ∧ check.addr 0 < 0x170000 ∧ seq.addr 0 < 0x170000
  doneLow : done.addr 0 < 0x170000

theorem coefCompletion :
    CompletionFields F.CMP_COEF_STAT_RESULT F.CMP_COEF_STAT_CHECK F.CMP_COEF_STAT_SEQ F.CMP_EVT_COEF_DONE := by
  constructor <;> decide

theorem curveCompletion :
    CompletionFields F.SEP_CURVE_STAT_RESULT F.SEP_CURVE_STAT_CHECK F.SEP_CURVE_STAT_SEQ F.SEP_EVT_CURVE_DONE := by
  constructor <;> decide

theorem gainCompletion :
    CompletionFields F.CAL_LOAD_STAT_RESULT F.CAL_LOAD_STAT_CHECK F.CAL_LOAD_STAT_SEQ F.CAL_EVT_LOAD_DONE := by
  constructor <;> decide

theorem modelCompletion :
    CompletionFields F.GOV_MODEL_STAT_RESULT F.GOV_MODEL_STAT_CHECK F.GOV_MODEL_STAT_SEQ F.GOV_EVT_MODEL_DONE := by
  constructor <;> decide

/-- What the four loads' completions have in common: the status is stored, SEQ advances, the event is raised and the Tally's
record written. -/
def State.completeLoad (s : State) (result check seq done : Field) (st n code : Nat) (items : List Nat) : State :=
  ((((s.put result st).put check n).advance seq).raise done).tally code items

section
variable {result check seq done : Field} {st n code : Nat} {items : List Nat} {l : List (Field × Nat)} {p : List Part}

theorem State.coefResult_eq {bank : Nat} : s.coefResult bank st n =
    s.completeLoad F.CMP_COEF_STAT_RESULT F.CMP_COEF_STAT_CHECK F.CMP_COEF_STAT_SEQ F.CMP_EVT_COEF_DONE st n
      0x0507 [bank, st, n] := (rfl)

theorem State.curveResult_eq {curve : Nat} : s.curveResult curve st n =
    s.completeLoad F.SEP_CURVE_STAT_RESULT F.SEP_CURVE_STAT_CHECK F.SEP_CURVE_STAT_SEQ F.SEP_EVT_CURVE_DONE st n
      0x0600 [curve, st, n] := (rfl)

theorem State.gainResult_eq {entries frame : Nat} : s.gainResult entries frame st n =
    s.completeLoad F.CAL_LOAD_STAT_RESULT F.CAL_LOAD_STAT_CHECK F.CAL_LOAD_STAT_SEQ F.CAL_EVT_LOAD_DONE st n
      0x0706 [entries, frame, st, n] := (rfl)

theorem State.modelResult_eq {types frame : Nat} : s.modelResult types frame st n =
    s.completeLoad F.GOV_MODEL_STAT_RESULT F.GOV_MODEL_STAT_CHECK F.GOV_MODEL_STAT_SEQ F.GOV_EVT_MODEL_DONE st n
      0x0804 [s.get R.GOV_MODEL_VER, types, frame, st, n] := (rfl)

/-- A completion of a load leaves a field that lies apart from all it writes. -/
theorem State.get_completeLoad_apart {g : Field} {i : Nat} (hg : g.addr i < 0x170000)
    (h : CompletionFields result check seq done) (hr : result.apart 0 g i) (hc : check.apart 0 g i) (hs : seq.apart 0 g i)
    (hd : done.apart 0 g i) : (s.completeLoad result check seq done st n code items).get g i = s.get g i := by
  obtain ⟨⟨hrl, hrw⟩, ⟨hcl, hcw⟩, ⟨hsl, hsw⟩, ⟨hdf, -⟩, -, -, -⟩ := h
  rw [State.completeLoad, State.get_tally_low hg, State.get_raise_apart hd hdf,
    State.get_advance_apart hs (by simp [Field.fits, hsl, hsw]), State.get_put_apart hc (by simp [Field.fits, hcl, hcw]),
    State.get_put_apart hr (by simp [Field.fits, hrl, hrw])]

theorem State.completeLoad_result (h : CompletionFields result check seq done) (hst : st < 16) (hn : n < 16)
    (hseq : t.get seq = s.get seq) :
    s.LoadResult result check seq done st n (t.completeLoad result check seq done st n code items) := by
  obtain ⟨⟨hrl, hrw⟩, ⟨hcl, hcw⟩, ⟨hsl, hsw⟩, ⟨hdf, hdw⟩, ⟨hdr, hdc, hds⟩, ⟨hlr, hlc, hls⟩, hld⟩ := h
  have hrf : result.fits = true := by simp [Field.fits, hrl, hrw]
  have hcf : check.fits = true := by simp [Field.fits, hcl, hcw]
  have hsf : seq.fits = true := by simp [Field.fits, hsl, hsw]
  refine ⟨?_, ?_, ?_, ?_⟩
  · rw [State.completeLoad, State.get_tally_low hlr, State.get_raise_apart (.inl hdr) hdf,
      State.get_advance_apart (.inr (.inr (by omega))) hsf, State.get_put_apart (.inr (.inr (by omega))) hcf,
      State.get_put_same hrf, hrw]
    exact Nat.mod_eq_of_lt (Nat.lt_trans hst (by decide))
  · rw [State.completeLoad, State.get_tally_low hlc, State.get_raise_apart (.inl hdc) hdf,
      State.get_advance_apart (.inr (.inr (by omega))) hsf, State.get_put_same hcf, hcw]
    exact Nat.mod_eq_of_lt hn
  · rw [State.completeLoad, State.get_tally_low hls, State.get_raise_apart (.inl hds) hdf, State.get_advance_same hsf,
      State.get_put_apart (.inr (.inl (by omega))) hcf, State.get_put_apart (.inr (.inl (by omega))) hrf, hseq]
  · rw [State.completeLoad, State.flag_tally_low hld]
    exact State.flag_raise_same hdf hdw

theorem State.completeLoad_records (h : t.tly = s.tly) :
    s.Records [(code, items)] (t.completeLoad result check seq done st n code items) :=
  .one (by rw [State.raise_tly, State.advance_tly, State.put_tly, State.put_tly, h])

theorem State.Leaves.completeLoad (h : s.Leaves l p t) (hl : [(result, 0), (check, 0), (seq, 0), (done, 0)] ⊆ l) :
    s.Leaves l p (t.completeLoad result check seq done st n code items) := by
  simp only [List.cons_subset] at hl
  obtain ⟨hr, hc, hs, hd, -⟩ := hl
  exact ((((h.put (.inl (List.mem_append_left _ hr))).put (.inl (List.mem_append_left _ hc))).advance
    (.inl (List.mem_append_left _ hs))).raise (.inl (List.mem_append_left _ hd))).tally

/-- A completed load shows its status and check, is recorded, and changes what its write and its completion may change. -/
theorem State.completeLoad_shows (h : CompletionFields result check seq done) (hst : st < 16) (hn : n < 16)
    (hseq : t.get seq = s.get seq) (htly : t.tly = s.tly) (hleaves : s.Leaves l p t)
    (hl : [(result, 0), (check, 0), (seq, 0), (done, 0)] ⊆ l) :
    s.LoadResult result check seq done st n (t.completeLoad result check seq done st n code items) ∧
      s.Records [(code, items)] (t.completeLoad result check seq done st n code items) ∧
      s.Leaves l p (t.completeLoad result check seq done st n code items) :=
  ⟨State.completeLoad_result h hst hn hseq, State.completeLoad_records htly, hleaves.completeLoad hl⟩

@[simp] theorem State.completeLoad_cmp : (s.completeLoad result check seq done st n code items).cmp = s.cmp := by
  rw [State.completeLoad, State.tally_cmp, State.raise_cmp, State.advance_cmp, State.put_cmp, State.put_cmp]

@[simp] theorem State.completeLoad_sep : (s.completeLoad result check seq done st n code items).sep = s.sep := by
  rw [State.completeLoad, State.tally_sep, State.raise_sep, State.advance_sep, State.put_sep, State.put_sep]

end

/-! ### The write of a load's control register -/

/-- What the four writes have in common, in the state with the written fields stored: nothing more without GO; with it the load
starts if no check fails, and is refused with the status and number of the first failing check if one does. -/
def State.loadCommand (s : State) (go : Bool) (checks : List (Nat × Bool × Nat)) (start : State)
    (refuse : Nat → Nat → State) : State :=
  if go = false then s
  else if (firstFail checks).2 = stOK then start else refuse (firstFail checks).2 (firstFail checks).1

section
variable {go : Bool} {checks : List (Nat × Bool × Nat)} {start : State} {refuse : Nat → Nat → State} {n st : Nat}

theorem State.loadCommand_without_go (h : go = false) : s.loadCommand go checks start refuse = s := if_pos h

section
variable (hgo : go = true) (hf : firstFail checks = (n, st))
include hgo hf

theorem State.loadCommand_of_refused (hst : st ≠ stOK) : s.loadCommand go checks start refuse = refuse st n := by
  simp only [State.loadCommand, hgo, hf, hst, Bool.true_eq_false, if_false]

theorem State.loadCommand_of_passed (hst : st = stOK) : s.loadCommand go checks start refuse = start := by
  simp only [State.loadCommand, hgo, hf, hst, Bool.true_eq_false, if_false, if_true]

end

end

/-! ### The command's outcome, without a Standby (R474) -/

section
variable {s1 start : State} {go : Bool} {checks : List (Nat × Bool × Nat)} {refuse : Nat → Nat → State} {n st : Nat}
  {what : Mirrored} {act : State → State} (hact : act s = s1.loadCommand go checks start refuse)
include hact

theorem next_load_without_go {c : Bool} (hgo : go = false) :
    (.next (s.mirrored (go && c) what act) : Host.Outcome State Fault Refusal) = .next s1 := by
  rw [State.mirrored_of_not_accepted (by rw [hgo, Bool.false_and]), hact, State.loadCommand_without_go hgo]

variable {accepted : Bool} (hs : s.hasStandby = false) (hm : s.mirroring = false) (hgo : go = true)
  (hf : firstFail checks = (n, st))
include hs hm hgo hf

theorem next_load_refused (hst : st ≠ stOK) :
    (.next (s.mirrored accepted what act) : Host.Outcome State Fault Refusal) = .next (refuse st n) := by
  rw [State.mirrored_of_alone hs hm, hact, State.loadCommand_of_refused hgo hf hst]

theorem next_load_passed (hst : st = stOK) :
    (.next (s.mirrored accepted what act) : Host.Outcome State Fault Refusal) = .next start := by
  rw [State.mirrored_of_alone hs hm, hact, State.loadCommand_of_passed hgo hf hst]

end

/-! ### The four loads (R202, R221, R241, R247) -/

/-- The table of a curve at an address. -/
def State.curveTable (s : State) (a : Nat) : List Nat := (List.range 3075).map (fun k => s.bulkLe (a + 2 * k) 2)

/-- The type records that a write of GOV_MODEL_CTL names. -/
def State.namedTypes (s : State) (v : Nat) : List TileType :=
  (List.range (bits v 8 2)).map (fun k => s.readType (s.get64 R.GOV_MODEL_ADDR_LO + 416 * k))

/-- The gain load that a write of CAL_LOAD_CTL begins. -/
def State.gainBegun (s : State) (v : Nat) : GainLoad :=
  { named := bitAt v 1, accepted := s.now,
    frame := if bitAt v 1 then s.get64 R.CAL_LOAD_FRAME_LO else s.firstSFrom (s.now + fiveMs),
    entries := (s.readGains (s.get64 R.CAL_LOAD_ADDR_LO) (s.get F.CAL_LOAD_COUNT_COUNT)).map Prod.fst }

/-- The type load that a write of GOV_MODEL_CTL begins. -/
def State.modelBegun (s : State) (v : Nat) : ModelLoad :=
  { frame := if bitAt v 1 then s.get64 R.GOV_MODEL_FRAME_LO else s.firstSFrom (s.now + fiveMs), types := s.namedTypes v }

/-- The state in which AT_FRAME and COUNT of a write of GOV_MODEL_CTL are stored. -/
def State.modelStored (s : State) (v : Nat) : State :=
  (s.put F.GOV_MODEL_CTL_AT_FRAME (bits v 1 1)).put F.GOV_MODEL_CTL_COUNT (bits v 8 2)

section
variable {s1 : State} {v : Nat}

theorem State.get_modelStored {f : Field} {i : Nat} (h : R.GOV_MODEL_CTL.base ≠ f.addr i) :
    (s.modelStored v).get f i = s.get f i := by
  rw [State.modelStored, State.get_put_apart (f := F.GOV_MODEL_CTL_COUNT) (i := 0) (.inl h) (by decide),
    State.get_put_apart (f := F.GOV_MODEL_CTL_AT_FRAME) (i := 0) (.inl h) (by decide)]

theorem doCoefLoad_eq (h : s1 = s.put F.CMP_COEF_CTL_BANK (bits v 4 1)) : doCoefLoad v s =
    s1.loadCommand (bitAt v 0) (s1.coefChecks (bits v 4 1))
      { s1 with cmp := { s.cmp with loading := some (bits v 4 1, s.coefTable (s.get64 R.CMP_COEF_ADDR_LO)) } }
      (s1.coefResult (bits v 4 1)) := by
  subst h
  rw [← State.get64_put_of_ne (f := F.CMP_COEF_CTL_BANK) (v := bits v 4 1) (i := 0) (by decide) (by decide)]
  rfl

theorem doCurveLoad_eq (h : s1 = s.put F.SEP_CURVE_CTL_CURVE (bits v 5 1)) : doCurveLoad v s =
    s1.loadCommand (bitAt v 0) (s1.curveChecks (bits v 5 1))
      { s1 with sep := { s.sep with loading := some (bits v 5 1, s.curveTable (s.get64 R.SEP_CURVE_ADDR_LO)) } }
      (s1.curveResult (bits v 5 1)) := by
  subst h
  rw [← State.get64_put_of_ne (f := F.SEP_CURVE_CTL_CURVE) (v := bits v 5 1) (i := 0) (by decide) (by decide)]
  rfl

theorem doGainLoad_eq (h : s1 = s.put F.CAL_LOAD_CTL_AT_FRAME (bits v 1 1)) : doGainLoad v s =
    s1.loadCommand (bitAt v 0) (s1.gainChecks (bitAt v 1)) { s1 with cal := { s1.cal with load := some (s1.gainBegun v) } }
      (s1.gainResult (s1.get F.CAL_LOAD_COUNT_COUNT) 0) := h ▸ rfl

theorem State.gainBegun_frame (h : s1 = s.put F.CAL_LOAD_CTL_AT_FRAME (bits v 1 1)) : (s1.gainBegun v).frame =
    if bitAt v 1 then s.get64 R.CAL_LOAD_FRAME_LO else s1.firstSFrom (s.now + fiveMs) := by
  subst h
  rw [State.gainBegun, State.get64_put_of_ne (by decide) (by decide), State.put_now]

theorem doModelLoad_eq (h : s1 = s.modelStored v) : doModelLoad v s =
    s1.loadCommand (bitAt v 0)
      (s1.modelChecks (s1.get64 R.GOV_MODEL_ADDR_LO) (bits v 8 2) (s1.get64 R.GOV_MODEL_FRAME_LO) (bitAt v 1) (s1.namedTypes v))
      { s1 with gov := { s1.gov with load := some (s1.modelBegun v) } } (s1.modelResult 0 0) := h ▸ rfl

end

/-! ### The end of a load (R202, R221) -/

theorem bitAt_eq_testBit (x k : Nat) : bitAt x k = x.testBit k := (Nat.testBit_eq_decide_div_mod_eq).symm

/-- A bit set in a field reads as set. -/
theorem bitAt_get_put_or {f : Field} {x k : Nat} (hf : f.fits = true) (hk : k < f.width) :
    bitAt ((s.put f (x ||| 2 ^ k)).get f) k = true := by
  rw [State.get_put_same hf, bitAt_eq_testBit, Nat.testBit_mod_two_pow, Nat.testBit_or, Nat.testBit_two_pow_self]
  simp [hk]

/-- The state in which a coefficient bank that has loaded is in force and marked as loaded. -/
def State.coefInForce (s : State) (bank : Nat) (table : List Int) : State :=
  let banks := s.cmp.banks.filter (fun b => b.1 != bank) ++ [(bank, table)]
  let t : State := { s with cmp := { s.cmp with loading := none, banks := banks } }
  t.put F.CMP_COEF_STAT_LOADED (t.get F.CMP_COEF_STAT_LOADED ||| 2 ^ (bank - 1))

/-- The state in which a curve that has loaded is in force and marked as loaded. -/
def State.curveInForce (s : State) (curve : Nat) (table : List Nat) : State :=
  let curves := s.sep.curves.filter (fun q => q.1 != curve) ++ [(curve, table)]
  let t : State := { s with sep := { s.sep with loading := none, curves := curves } }
  t.put R.SEP_CURVE_LOADED (t.get R.SEP_CURVE_LOADED ||| 2 ^ curve)

theorem State.coefInForce_cmp {bank : Nat} {table : List Int} : (s.coefInForce bank table).cmp =
    { s.cmp with loading := none, banks := s.cmp.banks.filter (fun b => b.1 != bank) ++ [(bank, table)] } := (rfl)

theorem State.curveInForce_sep {curve : Nat} {table : List Nat} : (s.curveInForce curve table).sep =
    { s.sep with loading := none, curves := s.sep.curves.filter (fun q => q.1 != curve) ++ [(curve, table)] } := (rfl)

theorem State.coefInForce_tly {bank : Nat} {table : List Int} : (s.coefInForce bank table).tly = s.tly := State.put_tly

theorem State.curveInForce_tly {curve : Nat} {table : List Nat} : (s.curveInForce curve table).tly = s.tly := State.put_tly

theorem State.get_coefInForce_seq {bank : Nat} {table : List Int} :
    (s.coefInForce bank table).get F.CMP_COEF_STAT_SEQ = s.get F.CMP_COEF_STAT_SEQ :=
  State.get_put_apart (.inr (.inr (by decide))) (by decide)

theorem State.get_curveInForce_seq {curve : Nat} {table : List Nat} :
    (s.curveInForce curve table).get F.SEP_CURVE_STAT_SEQ = s.get F.SEP_CURVE_STAT_SEQ :=
  State.get_put_apart (.inl (by decide)) (by decide)

theorem doCoefLoaded_of_loading {bank : Nat} {table : List Int} (h : s.cmp.loading = some (bank, table)) :
    doCoefLoaded s = (s.coefInForce bank table).coefResult bank stOK 0 := by
  simp only [doCoefLoaded, h, State.coefInForce]

theorem doCurveLoaded_of_loading {curve : Nat} {table : List Nat} (h : s.sep.loading = some (curve, table)) :
    doCurveLoaded s = (s.curveInForce curve table).curveResult curve stOK 0 := by
  simp only [doCurveLoaded, h, State.curveInForce]

/-- Settles O24: for each of the four loads a refusal and a start, the two completions, and the writes without GO. -/
theorem tableLoads : Obligations.TableLoads := by
  refine ⟨fun s w hs hm hgo => ?_, fun s bank table hl hmin hmax => ?_, fun s w hs hm hgo => ?_,
    fun s curve table hl hmax => ?_, fun s w hs hm hgo => ?_, fun s w hs hm hgo => ?_, fun s w hgo => ⟨?_, ?_, ?_, ?_⟩⟩
  · intro s1 n st hf hlt hn
    refine ⟨fun hst => ?_, fun hst => ?_⟩
    · exact ⟨_, (next_load_refused (doCoefLoad_eq rfl) hs hm hgo hf hst).trans
          (congrArg Host.Outcome.next State.coefResult_eq),
        State.completeLoad_shows coefCompletion hlt hn (State.get_put_apart (.inl (by decide)) (by decide)) State.put_tly
          ((State.Leaves.refl s _ _).put (.inl (by simp))) (by simp)⟩
    · exact ⟨_, next_load_passed (doCoefLoad_eq rfl) hs hm hgo hf hst, rfl,
        ((State.Leaves.refl s _ _).put (.inl (by simp))).cmpTo (by simp)⟩
  · refine ⟨_, congrArg Host.Outcome.next ((doCoefLoaded_of_loading hl).trans State.coefResult_eq),
      congrArg Cmp.loading (State.completeLoad_cmp.trans State.coefInForce_cmp),
      congrArg Cmp.banks (State.completeLoad_cmp.trans State.coefInForce_cmp), ?_,
      State.completeLoad_result coefCompletion (by decide) (by decide) State.get_coefInForce_seq,
      State.completeLoad_records State.coefInForce_tly⟩
    rw [State.get_completeLoad_apart (by decide) coefCompletion (.inr (.inl (by decide)))
      (.inr (.inl (by decide))) (.inr (.inl (by decide))) (.inl (by decide))]
    exact bitAt_get_put_or (by decide) (show bank - 1 < 8 by omega)
  · intro s1 n st hf hlt hn
    refine ⟨fun hst => ?_, fun hst => ?_⟩
    · exact ⟨_, (next_load_refused (doCurveLoad_eq rfl) hs hm hgo hf hst).trans
          (congrArg Host.Outcome.next State.curveResult_eq),
        State.completeLoad_shows curveCompletion hlt hn (State.get_put_apart (.inl (by decide)) (by decide)) State.put_tly
          ((State.Leaves.refl s _ _).put (.inl (by simp))) (by simp)⟩
    · exact ⟨_, next_load_passed (doCurveLoad_eq rfl) hs hm hgo hf hst, rfl,
        ((State.Leaves.refl s _ _).put (.inl (by simp))).sepTo (by simp)⟩
  · refine ⟨_, congrArg Host.Outcome.next ((doCurveLoaded_of_loading hl).trans State.curveResult_eq),
      congrArg Sep.loading (State.completeLoad_sep.trans State.curveInForce_sep),
      congrArg Sep.curves (State.completeLoad_sep.trans State.curveInForce_sep), ?_,
      State.completeLoad_result curveCompletion (by decide) (by decide) State.get_curveInForce_seq,
      State.completeLoad_records State.curveInForce_tly⟩
    rw [State.get_completeLoad_apart (by decide) curveCompletion (.inl (by decide))
      (.inl (by decide)) (.inl (by decide)) (.inl (by decide))]
    exact bitAt_get_put_or (by decide) hmax
  · intro s1 n st hf hlt hn
    refine ⟨fun hst => ?_, fun hst => ?_⟩
    · rw [← State.get_put_apart (f := F.CAL_LOAD_CTL_AT_FRAME) (v := bits w.toNat 1 1) (i := 0) (g := F.CAL_LOAD_COUNT_COUNT)
        (.inl (by decide)) (by decide)]
      exact ⟨_, (next_load_refused (doGainLoad_eq rfl) hs hm hgo hf hst).trans
          (congrArg Host.Outcome.next State.gainResult_eq),
        State.completeLoad_shows gainCompletion hlt hn (State.get_put_apart (.inl (by decide)) (by decide)) State.put_tly
          ((State.Leaves.refl s _ _).put (.inl (by simp))) (by simp)⟩
    · exact ⟨_, s1.gainBegun w.toNat, next_load_passed (doGainLoad_eq rfl) hs hm hgo hf hst, rfl, rfl, rfl, rfl,
        State.gainBegun_frame rfl, ((State.Leaves.refl s _ _).put (.inl (by simp))).calTo (by simp)⟩
  · intro s1 ts n st hf hlt hn
    refine ⟨fun hst => ?_, fun hst => ?_⟩
    · rw [← State.get_modelStored (v := w.toNat) (by decide)]
      exact ⟨_, (next_load_refused (doModelLoad_eq rfl) hs hm hgo hf hst).trans
          (congrArg Host.Outcome.next State.modelResult_eq),
        State.completeLoad_shows modelCompletion hlt hn (State.get_modelStored (by decide)) (State.put_tly.trans State.put_tly)
          (((State.Leaves.refl s _ _).put (.inl (by simp))).put (.inl (by simp))) (by simp)⟩
    · exact ⟨_, s1.modelBegun w.toNat, next_load_passed (doModelLoad_eq rfl) hs hm hgo hf hst, rfl, rfl, rfl,
        (((State.Leaves.refl s _ _).put (.inl (by simp))).put (.inl (by simp))).govTo (by simp)⟩
  · exact next_load_without_go (doCoefLoad_eq rfl) hgo
  · exact next_load_without_go (doCurveLoad_eq rfl) hgo
  · exact next_load_without_go (doGainLoad_eq rfl) hgo
  · exact next_load_without_go (doModelLoad_eq rfl) hgo

end Sys2Proof.Machine
end

section
/-! PROOFS. The agreement test of an entry (O30). -/
namespace Sys2Proof.Machine

/-! ### The parts of the test (R234) -/

/-- An appearance below half or above twice the zone's. -/
def strays : Option Rat → Bool
  | some q => decide (q < 1 / 2) || decide (2 < q)
  | none => false

/-- Two appearances that lie further apart than TOL of their mean. -/
def Chan.setApart (z : Chan) (ra rb : Option Rat) : Bool :=
  match ra, rb with
  | some p, some q => decide (b64 (b64 (b64 (mkRat z.calTol 10000) * b64 (p + q)) / 2) <
      if b64 (q - p) < 0 then -b64 (q - p) else b64 (q - p))
  | _, _ => false

/-- R234's lo: GMIN, or one step below the gain in force where that is higher. -/
def Chan.leastGain (z : Chan) (g : Nat) : Int :=
  max (z.calMin : Int) (b64 ((g : Rat) * b64 (1 - b64 (mkRat z.calStep 10000)))).ceil

/-- R234's hi: GMAX, or one step above the gain in force where that is lower. -/
def Chan.mostGain (z : Chan) (g : Nat) : Int :=
  min (z.calMax : Int) (b64 ((g : Rat) * b64 (1 + b64 (mkRat z.calStep 10000)))).floor

/-- R234's t, the gain that would put the mean of the two appearances at the zone's; without a number where one of them
has none. -/
def targetGain (ra rb : Option Rat) (g : Nat) : Int :=
  match ra, rb with
  | some p, some q => roundHalfUp (b64 (b64 ((g : Rat) * 2) / b64 (p + q)))
  | _, _ => Config.unstatedTarget g

/-- R234's new: the target, brought within the least and the most gain. -/
def Chan.newGain (z : Chan) (ra rb : Option Rat) (g : Nat) : Int :=
  min (z.mostGain g) (max (z.leastGain g) (targetGain ra rb g))

/-- The test by its parts, in R234's order. -/
theorem agree_eq (z : Chan) (ra rb : Option Rat) (g : Nat) :
    agree z ra rb g =
      if strays ra || strays rb then .suspect
      else if z.setApart ra rb then .disagree
      else if z.mostGain g < z.leastGain g then .limited
      else .stage (z.newGain ra rb g).toNat (decide (z.newGain ra rb g ≠ targetGain ra rb g)) :=
  rfl

/-! ### What the test finds -/

section
variable {z : Chan} {ra rb : Option Rat} {g n : Nat} {cut : Bool}

theorem leastGain_le_newGain (h : z.leastGain g ≤ z.mostGain g) : z.leastGain g ≤ z.newGain ra rb g :=
  Int.le_min.mpr ⟨h, Int.le_max_left _ _⟩

theorem newGain_le_mostGain : z.newGain ra rb g ≤ z.mostGain g :=
  Int.min_le_left _ _

/-- What a staged verdict tells: of the test's four outcomes only the last stages, where the limits leave a gain. -/
theorem agree_stage (h : agree z ra rb g = .stage n cut) :
    z.leastGain g ≤ z.mostGain g ∧ n = (z.newGain ra rb g).toNat ∧
      cut = decide (z.newGain ra rb g ≠ targetGain ra rb g) := by
  rw [agree_eq] at h
  split at h
  · cases h
  split at h
  · cases h
  split at h
  · cases h
  next hlim =>
    injection h with hn hcut
    exact ⟨Int.not_lt.mp hlim, hn.symm, hcut.symm⟩

/-- A staged gain is the new gain itself: GMIN keeps that from being negative. -/
theorem cast_eq_newGain_of_agree_stage (h : agree z ra rb g = .stage n cut) : (n : Int) = z.newGain ra rb g := by
  obtain ⟨hlim, hn, -⟩ := agree_stage h
  have hmin : (z.calMin : Int) ≤ z.newGain ra rb g := Int.le_trans (Int.le_max_left _ _) (leastGain_le_newGain hlim)
  omega

/-- An appearance out of its bounds settles the test before the agreement of the two is looked at (R238). -/
theorem agree_eq_suspect {p q : Rat} (h : p < 1 / 2 ∨ 2 < p ∨ q < 1 / 2 ∨ 2 < q) :
    agree z (some p) (some q) g = .suspect :=
  (agree_eq z _ _ g).trans (if_pos (by simpa only [strays, Bool.or_eq_true, decide_eq_true_eq, or_assoc] using h))

end

/-- Settles O30: a staged gain is the target clamped between the least and the most gain, and the test for a suspect
appearance comes first. -/
theorem stagedGainIsBounded : Obligations.StagedGainIsBounded := by
  refine ⟨fun z ra rb g n cut h => ?_, fun z p q g => agree_eq_suspect⟩
  obtain ⟨hlim, -, hcut⟩ := agree_stage h
  have hn : (n : Int) = z.newGain ra rb g := cast_eq_newGain_of_agree_stage h
  have hlow : z.leastGain g ≤ n := hn ▸ leastGain_le_newGain hlim
  have hhigh : (n : Int) ≤ z.mostGain g := hn ▸ newGain_le_mostGain
  obtain ⟨hmin, hdown⟩ := Int.max_le.mp hlow
  obtain ⟨hmax, hup⟩ := Int.le_min.mp hhigh
  refine ⟨Int.ofNat_le.mp hmin, Int.ofNat_le.mp hmax, hdown, hup, ?_⟩
  rintro p q rfl rfl
  rw [hn]
  exact hcut

end Sys2Proof.Machine
end

section
/-! PROOFS. The scale of a feed (O20). -/
namespace Sys2Proof.Machine

/-! ### What the forecast finds for a feed at a scale (R256) -/

/-- The slew limit of R256, prev + Δ. -/
def State.feedRamp (s : State) (f : Chan) (on : List EpDraw) : Rat :=
  ((s.feedLimit f).2.2.2 : Nat) + (on.map (fun e => max (s.prevCurrent e.chan.index) e.idle)).sum + s.feedDelta f

/-- The forecast of a feed at scale p. -/
def State.feedAt (s : State) (f : Chan) (on : List EpDraw) (p : Nat) : FeedForecast :=
  let beta := (s.govFeed f.index).beta
  let c0 : Rat := ((s.feedLimit f).2.2.2 : Nat) + (on.map EpDraw.idle).sum
  let dyn := beta * (on.map EpDraw.draw).sum
  { index := f.index, p := p, allow := min ((s.feedLimit f).1 : Nat) (s.feedRamp f on), c0 := c0, dyn := dyn, beta := beta,
    forecast := c0 + (p : Rat) * dyn / 32768 }

/-! ### The scale that R257 wants -/

/-- The largest whole scale at which the forecast is within ALLOW. -/
def FeedForecast.fitting (g : FeedForecast) : Int :=
  (32768 * (g.allow - g.c0) / g.dyn).floor

/-- MASTER where nothing draws, else the most of it that fits ALLOW; it does not depend on the scale of g. -/
def FeedForecast.wanted (g : FeedForecast) (master : Nat) : Int :=
  if g.dyn = 0 then master else min (master : Int) g.fitting

section
variable {g : FeedForecast} {master : Nat}

theorem FeedForecast.wanted_of_dark (h : g.dyn = 0) : g.wanted master = master :=
  if_pos h

theorem FeedForecast.wanted_of_draw (h : g.dyn ≠ 0) : g.wanted master = min (master : Int) g.fitting :=
  if_neg h

theorem FeedForecast.wanted_le_master : g.wanted master ≤ master := by
  unfold FeedForecast.wanted
  split
  · exact Int.le_refl _
  · exact Int.min_le_left _ _

/-- A scale that fits keeps the forecast of a feed that draws within ALLOW. -/
theorem FeedForecast.le_allow_of_le_fitting {p : Nat} (hdyn : 0 < g.dyn) (h : (p : Int) ≤ g.fitting) :
    g.c0 + (p : Rat) * g.dyn / 32768 ≤ g.allow := by
  have hp : (p : Rat) ≤ 32768 * (g.allow - g.c0) / g.dyn := by exact_mod_cast Rat.le_floor_iff.1 h
  have hroom : (p : Rat) * g.dyn ≤ 32768 * (g.allow - g.c0) := by
    have hmul := Rat.mul_le_mul_of_nonneg_right hp (Rat.le_of_lt hdyn)
    rwa [Rat.div_mul_cancel (Rat.ne_of_gt hdyn)] at hmul
  grind

end

/-! ### The scale that is set, and its cause (R257) -/

section
variable {s : State} {f : Chan} {on : List EpDraw}

theorem State.feedAt_wanted {p q master : Nat} : (s.feedAt f on p).wanted master = (s.feedAt f on q).wanted master :=
  rfl

theorem State.feedScale_eq : s.feedScale f on =
    if f.st ≠ .running then (32768, 0, s.feedAt f on 32768)
    else
      let w := (s.feedAt f on 0).wanted (f.val 0x0702)
      if w < 0 then (0, 3, s.feedAt f on 0)
      else if w < f.val 0x0702 then
        (w.toNat, if ((s.feedLimit f).1 : Rat) < s.feedRamp f on then 1 else 2, s.feedAt f on w.toNat)
      else (w.toNat, 0, s.feedAt f on w.toNat) :=
  rfl

section
variable (hrun : f.st = .running)
include hrun

/-- An overload: not even scale 0 fits. -/
theorem State.feedScale_of_overload (h : (s.feedAt f on 0).wanted (f.val 0x0702) < 0) :
    s.feedScale f on = (0, 3, s.feedAt f on 0) := by
  rw [State.feedScale_eq, if_neg (not_not_intro hrun)]
  exact if_pos h

/-- Any other running feed has the scale it wants, and a cause where that is below MASTER. -/
theorem State.feedScale_of_wanted {p : Nat} (h : (s.feedAt f on p).wanted (f.val 0x0702) = p) : s.feedScale f on =
    (p, if p < f.val 0x0702 then if ((s.feedLimit f).1 : Rat) < s.feedRamp f on then 1 else 2 else 0, s.feedAt f on p) := by
  rw [State.feedScale_eq, if_neg (not_not_intro hrun), State.feedAt_wanted (p := 0) (q := p), h]
  dsimp only
  rw [if_neg (by omega), Int.toNat_natCast]
  by_cases hp : p < f.val 0x0702
  · rw [if_pos hp, if_pos (by omega)]
  · rw [if_neg hp, if_neg (by omega)]

end
end

/-- Settles O20: an overload, where the scale wanted is negative, and any other running feed, which has that scale. -/
theorem feedScaleIsWithinLimits : Obligations.FeedScaleIsWithinLimits := by
  intro s f on hrun
  rcases Int.lt_or_le ((s.feedAt f on 0).wanted (f.val 0x0702)) 0 with hneg | hpos
  · rw [State.feedScale_of_overload hrun hneg]
    refine ⟨rfl, rfl, Nat.zero_le _, rfl, fun h => ?_, fun _ _ => ⟨rfl, rfl⟩, fun h hfit => ?_, fun _ h => absurd rfl h⟩
    · rw [FeedForecast.wanted_of_dark h] at hneg
      omega
    · rw [FeedForecast.wanted_of_draw h] at hneg
      exact absurd hneg (Int.not_lt.2 (Int.le_min.2 ⟨Int.natCast_nonneg _, hfit⟩))
  · obtain ⟨p, hp⟩ := Int.eq_ofNat_of_zero_le hpos
    rw [State.feedAt_wanted (q := p)] at hp hpos
    have hle : (p : Int) ≤ f.val 0x0702 := hp ▸ FeedForecast.wanted_le_master
    rw [State.feedScale_of_wanted hrun hp]
    dsimp only
    refine ⟨rfl, rfl, Int.ofNat_le.1 hle, rfl, fun h => ?_, fun h hfit => ?_, fun h _ => ⟨?_, rfl⟩, fun h _ => ?_⟩
    · have hmaster : p = f.val 0x0702 := by
        rw [FeedForecast.wanted_of_dark h] at hp
        exact (Int.ofNat_inj.1 hp).symm
      exact ⟨hmaster, if_neg (Nat.not_lt.2 (Nat.le_of_eq hmaster.symm))⟩
    · rw [FeedForecast.wanted_of_draw h] at hpos
      exact absurd hfit (Int.not_lt.2 (Int.le_min.1 hpos).2)
    · exact hp.symm.trans (FeedForecast.wanted_of_draw h)
    · have hfit : (p : Int) ≤ (s.feedAt f on p).fitting := by
        rw [← hp, FeedForecast.wanted_of_draw (Rat.ne_of_gt h)]
        exact Int.min_le_right _ _
      exact FeedForecast.le_allow_of_le_fitting h hfit

end Sys2Proof.Machine
end

section
/-! PROOFS. The model update of a frame (O22). -/
namespace Sys2Proof.Machine

/-! ### A change that leaves frames, channels and time, and keeps the bounds of a bias -/

/-- The bounds of R259. -/
def GovFeed.Bounded (g : GovFeed) : Prop := 1 / 2 ≤ g.beta ∧ g.beta ≤ 2

/-- What MODEL_UPDATE keeps before it marks the frame. -/
structure State.KeepsBias (s t : State) : Prop where
  frames : t.frames = s.frames
  cmd : t.cmd = s.cmd
  now : t.now = s.now
  bias : ∀ i, (s.govFeed i).Bounded → (t.govFeed i).Bounded

section
variable {s t u : State}

theorem State.KeepsBias.refl (s : State) : s.KeepsBias s :=
  ⟨rfl, rfl, rfl, fun _ => id⟩

theorem State.govFeed_congr (h : t.gov.feeds = s.gov.feeds) (i : Nat) : t.govFeed i = s.govFeed i := by
  rw [State.govFeed, State.govFeed, h]

/-- A further change that touches nothing the relation speaks of. -/
theorem State.KeepsBias.after (h : s.KeepsBias t) (hframes : u.frames = t.frames) (hcmd : u.cmd = t.cmd)
    (hnow : u.now = t.now) (hfeeds : u.gov.feeds = t.gov.feeds) : s.KeepsBias u := by
  obtain ⟨hf, hc, hn, hb⟩ := h
  refine ⟨hframes.trans hf, hcmd.trans hc, hnow.trans hn, fun i hi => ?_⟩
  rw [State.govFeed_congr hfeeds]
  exact hb i hi

theorem State.KeepsBias.put (h : s.KeepsBias t) {f : Field} {v i : Nat} : s.KeepsBias (t.put f v i) :=
  h.after rfl rfl rfl rfl

theorem State.KeepsBias.bump (h : s.KeepsBias t) {f : Field} {i : Nat} : s.KeepsBias (t.bump f i) :=
  h.after rfl rfl rfl rfl

theorem State.KeepsBias.setGovEp (h : s.KeepsBias t) {g : GovEp} : s.KeepsBias (t.setGovEp g) :=
  h.after rfl rfl rfl rfl

theorem State.KeepsBias.showThermal (h : s.KeepsBias t) {c : Chan} : s.KeepsBias (t.showThermal c) :=
  h.put.put.put.put

theorem State.KeepsBias.setLimits (h : s.KeepsBias t) {l : List RateLimit} : s.KeepsBias (t.setLimits l) :=
  h.after rfl rfl rfl rfl

theorem State.KeepsBias.raise (h : s.KeepsBias t) {f : Field} {i : Nat} : s.KeepsBias (t.raise f i) :=
  h.after State.raise_frames State.raise_cmd State.raise_now (congrArg Gov.feeds State.raise_gov)

theorem State.KeepsBias.tally (h : s.KeepsBias t) {c : Nat} {l : List Nat} : s.KeepsBias (t.tally c l) :=
  h.after State.tally_frames State.tally_cmd State.tally_now (congrArg Gov.feeds State.tally_gov)

theorem State.KeepsBias.tallyAtMost (h : s.KeepsBias t) {key n period c : Nat} {l : List Nat} :
    s.KeepsBias (t.tallyAtMost key n period c l) := by
  unfold State.tallyAtMost
  split
  · exact h.setLimits.tally
  · dsimp only
    split
    · exact h.setLimits.tally
    · split
      · exact h.setLimits.tally
      · exact h

theorem State.KeepsBias.redTo (h : s.KeepsBias t) {r : Red} : s.KeepsBias { t with red := r } :=
  h.after rfl rfl rfl rfl

theorem State.KeepsBias.emit (h : s.KeepsBias t) {o : Out} : s.KeepsBias (t.emit o) :=
  h.after rfl rfl rfl rfl

/-- A record without a table takes its number and leaves; no detector looks at it (R473). -/
theorem State.postMirror_of_no_table {frame band : Nat} {what : Mirrored} (h : s.loadTable what = none) :
    ∃ r o, (s.postMirror frame band what).2 = State.emit { s.put R.RED_MSEQ s.red.mseq with red := r } o := by
  unfold State.postMirror
  simp only [h, Option.isSome_none, Bool.false_eq_true, if_false]
  exact ⟨_, _, rfl⟩

theorem State.KeepsBias.sendMirror (h : s.KeepsBias t) {frame : Nat} {acts : Bool} {what : Mirrored}
    (htable : t.loadTable what = none) : s.KeepsBias (t.sendMirror frame acts what) := by
  have hpost : s.KeepsBias (t.postMirror frame 0xFFFF what).2 := by
    obtain ⟨r, o, e⟩ := State.postMirror_of_no_table htable
    rw [e]
    exact h.put.redTo.emit
  unfold State.sendMirror State.sendMirrorAt
  split
  · exact hpost.redTo
  · split
    · exact hpost
    · exact h

theorem State.KeepsBias.each {α : Type} {l : List α} {f : α → State → State} (h : s.KeepsBias t)
    (hf : ∀ x t, s.KeepsBias t → s.KeepsBias (f x t)) : s.KeepsBias (t.each l f) := by
  unfold State.each
  induction l generalizing t with
  | nil => exact h
  | cons x l ih => exact ih (hf x t h)

/-! ### The record of a feed -/

theorem State.govFeed_setGovFeed {g : GovFeed} {i : Nat} :
    (s.setGovFeed g).govFeed i = if g.index = i then g else s.govFeed i := by
  rw [State.govFeed, State.setGovFeed, List.find?_append, List.find?_filter]
  split
  next h =>
    have hgone : s.gov.feeds.find? (fun q => q.index != g.index ∧ q.index == i) = none :=
      List.find?_eq_none.2 fun q _ => by
        simp only [h, bne_iff_ne, beq_iff_eq, decide_eq_true_eq, not_and, imp_self, ne_eq]
    rw [hgone, Option.none_or, List.find?_cons_of_pos (by simp only [h, beq_self_eq_true]), Option.getD_some]
  next h =>
    have hkept : (fun q : GovFeed => decide (q.index != g.index ∧ q.index == i)) = fun q => q.index == i := by
      funext q
      grind
    rw [hkept, List.find?_cons_of_neg (by simp only [beq_iff_eq, h, not_false_eq_true]), List.find?_nil, Option.or_none]
    rfl

theorem State.KeepsBias.setGovFeed (h : s.KeepsBias t) {g : GovFeed} (hg : g.Bounded) : s.KeepsBias (t.setGovFeed g) := by
  refine ⟨h.frames, h.cmd, h.now, fun i hi => ?_⟩
  rw [State.govFeed_setGovFeed]
  split
  · exact hg
  · exact h.bias i hi

end

/-! ### The model update by its parts (R245, R259) -/

section
variable (n : Nat)

/-- The running endpoints whose drive sums have come, each with its idle current and the current recomputed from them. -/
def State.knownDraws (s : State) (w : FrameWork) : List (Chan × Rat × Rat) :=
  (w.running kEndpoint).filterMap (fun c => (s.gov.groups.find? (fun q => q.1 == n && q.2.1 == c.index)).map (fun r =>
    let e := s.elecOf c
    let codes := (List.range 3).map (fun i => s.curveOut c.epCurve i (rnd ((groupPost r.2.2).getD i 0) (max 1 c.epPixels)))
    (c, e.1, drawOf e.2 c.epPixels codes)))

/-- An endpoint's thermal state is advanced again with the recomputed current. -/
def State.reheated (s : State) (q : Chan × Rat × Rat) : State :=
  let g := s.govEp q.1.index
  let i := q.2.1 + q.2.2
  if g.states.any (fun x => x.frame == n) then
    (s.setGovEp { g with states := s.reheat q.1 n i (s.heatOf q.1 i) g.states }).showThermal q.1
  else s

/-- The bias of R259 for a ratio r: a sixteenth of the way towards it, clamped. -/
def nextBias (beta r : Rat) : Rat :=
  let b := b64 (beta + (r - beta) / 16)
  if b < 1 / 2 then 1 / 2 else if 2 < b then 2 else b

/-- A feed has a new bias b: kept, shown and sent to the Standby. -/
def State.rebiased (s : State) (c : Chan) (r b : Rat) : State :=
  (((s.setGovFeed { s.govFeed c.index with beta := b }).put F.F_BETA_BETA (roundHalfUp (b * 16384)).toNat c.index).put F.F_BETA_ERR
    (ofSigned 16 (clampInt (-32768) 32767 (roundHalfUp ((r - b) * 1024)))) c.index).sendMirror n false (.beta c.index b)

/-- A feed's recomputed total missed its forecast. -/
def State.missed (s : State) (c : Chan) (f : FeedForecast) (total : Rat) : State :=
  ((s.bump R.F_MISS_CNT c.index).raise F.GOV_EVT_FORECAST_MISS).tallyAtMost 0x08000000 10 oneSecond 0x0803
    [c.handle, n, f.forecast.floor.toNat, total.floor.toNat, f.allow.floor.toNat]

/-- A forecast feed of the frame, with its recomputed dynamic current. -/
def State.feedUpdated (s : State) (c : Chan) (f : FeedForecast) (dynNow : Rat) : State :=
  let dynF := (f.p : Rat) * f.dyn / 32768
  let r := dynNow / (dynF / f.beta)
  let t := if decide (mkRat (s.feedLimit c).1 100 < dynF) && decide (0 < f.dyn) then
    s.rebiased n c r (nextBias (s.govFeed c.index).beta r) else s
  if c.st = .running ∧ 102 / 100 * f.allow < f.c0 + dynNow then t.missed n c f (f.c0 + dynNow) else t

/-- The feed of a forecast, where the frame has its channel. -/
def State.forecastUpdated (w : FrameWork) (known : List (Chan × Rat × Rat)) (f : FeedForecast) (s : State) : State :=
  match w.chans.find? (fun c => c.kind == kFeed && c.index == f.index) with
  | none => s
  | some c => s.feedUpdated n c f ((known.filter (fun q => q.1.epFeed == c.handle)).map (fun q => q.2.2)).sum

end

section
variable {n : Nat} {s : State} {w : FrameWork}

/-- What a model update that is due does before it marks the frame. -/
def State.modelUpdated (s : State) (n : Nat) (w : FrameWork) : State :=
  (s.each (s.knownDraws n w) (fun q t => t.reheated n q)).each w.feeds (State.forecastUpdated n w (s.knownDraws n w))

theorem doModelUpdate_of_due (hw : s.frameWork n = some w) (hsums : w.sumsDone = true) (hd : w.updated = false)
    (hk : s.kindServed 5 = true) :
    doModelUpdate n s = (s.modelUpdated n w).modFrame n (fun x => { x with updated := true }) := by
  have hdue : ¬ (w.updated = true ∨ w.sumsDone = false ∨ s.kindServed 5 = false) := by simp [hd, hsums, hk]
  simp only [doModelUpdate, hw, hdue, if_false]
  rfl

theorem doModelUpdate_of_not_due
    (h : (∀ w, s.frameWork n = some w → w.updated = true ∨ w.sumsDone = false) ∨ s.kindServed 5 = false) :
    doModelUpdate n s = s := by
  unfold doModelUpdate
  split
  next => rfl
  next w hw => exact if_pos (or_assoc.1 (h.imp_left (· w hw)))

end

/-! ### What each part keeps -/

section
variable {s t : State} {n : Nat} {c : Chan} {f : FeedForecast} {r b dynNow total : Rat}

theorem nextBias_bounds {beta : Rat} : 1 / 2 ≤ nextBias beta r ∧ nextBias beta r ≤ 2 := by
  have hhalf : (1 / 2 : Rat) ≤ 2 := by grind
  unfold nextBias
  dsimp only
  split
  · exact ⟨Rat.le_refl, hhalf⟩
  · split
    · exact ⟨hhalf, Rat.le_refl⟩
    · next hlow hhigh => exact ⟨Rat.not_lt.1 hlow, Rat.not_lt.1 hhigh⟩

theorem State.KeepsBias.reheated (h : s.KeepsBias t) {q : Chan × Rat × Rat} : s.KeepsBias (t.reheated n q) := by
  unfold State.reheated
  dsimp only
  split
  · exact h.setGovEp.showThermal
  · exact h

theorem State.KeepsBias.rebiased (h : s.KeepsBias t) (hb : 1 / 2 ≤ b ∧ b ≤ 2) : s.KeepsBias (t.rebiased n c r b) :=
  State.KeepsBias.sendMirror (h.setGovFeed (g := { t.govFeed c.index with beta := b }) hb).put.put rfl

theorem State.KeepsBias.missed (h : s.KeepsBias t) : s.KeepsBias (t.missed n c f total) :=
  h.bump.raise.tallyAtMost

theorem State.KeepsBias.feedUpdated (h : s.KeepsBias t) : s.KeepsBias (t.feedUpdated n c f dynNow) := by
  have hbias (p : Bool) (r : Rat) :
      s.KeepsBias (if p then t.rebiased n c r (nextBias (t.govFeed c.index).beta r) else t) := by
    split
    · exact h.rebiased nextBias_bounds
    · exact h
  unfold State.feedUpdated
  dsimp only
  split
  · exact (hbias _ _).missed
  · exact hbias _ _

theorem State.KeepsBias.forecastUpdated (h : s.KeepsBias t) {w : FrameWork} {known : List (Chan × Rat × Rat)} :
    s.KeepsBias (t.forecastUpdated n w known f) := by
  unfold State.forecastUpdated
  split
  · exact h
  · exact h.feedUpdated

theorem State.modelUpdated_keepsBias {w : FrameWork} : s.KeepsBias (s.modelUpdated n w) :=
  ((State.KeepsBias.refl s).each fun _ _ h => h.reheated).each fun _ _ h => h.forecastUpdated

end

/-- Settles O22: an update that is due keeps the bounds part by part before it marks the frame, and any other does nothing. -/
theorem modelUpdateKeepsBiasBounds : Obligations.ModelUpdateKeepsBiasBounds := by
  refine ⟨fun s n w hw hsums hd hk => ?_, fun s n h => congrArg Host.Outcome.next (doModelUpdate_of_not_due h)⟩
  obtain ⟨hframes, hcmd, hnow, hbias⟩ := State.modelUpdated_keepsBias (s := s) (n := n) (w := w)
  refine ⟨_, congrArg Host.Outcome.next (doModelUpdate_of_due hw hsums hd hk), ?_, hcmd, hnow, hbias⟩
  rw [State.modFrame_frames, State.modFrame_frames, hframes]

end Sys2Proof.Machine
end

section
/-! PROOFS. The frames of a ring and the joins of its endpoints (O36). -/
namespace Sys2Proof.Machine

variable {s : State} {r : Nat} {c : Chan}

/-! ### A ring that is not running -/

theorem doTimeFrame_of_none (h : s.ringChan r = none) : doTimeFrame r s = s := by
  simp only [doTimeFrame, h]

theorem doJoinRequest_of_none (h : s.ringChan r = none) {even odd : Option Nat} {j : JoinRec} {f m : Nat} :
    doJoinRequest r even odd j f m s = s := by
  simp only [doJoinRequest, h]

theorem doGrantUpdate_of_none (h : s.ringChan r = none) : doGrantUpdate r s = s := by
  simp only [doGrantUpdate, h]

theorem doHoldFrame_of_none (h : s.ringChan r = none) : doHoldFrame r s = s := by
  simp only [doHoldFrame, h]

theorem doDarkBroadcast_of_none (h : s.ringChan r = none) : doDarkBroadcast r s = s := by
  simp only [doDarkBroadcast, h]

theorem doTelemetryReceive_of_none (h : s.ringChan r = none) {a : Nat} {even odd : Option Nat} {recs : List TelemRec} :
    doTelemetryReceive r a even odd recs s = s := by
  simp only [doTelemetryReceive, h]

theorem doLinkDelayRequest_of_none {l : Nat} (h : s.ringChan (l / 2) = none) : doLinkDelayRequest l s = s := by
  rw [doLinkDelayRequest, if_pos (by rw [h]; rfl)]

theorem doLinkFrameReceive_of_none {l op t2 t3 : Nat} (h : s.ringChan (l / 2) = none) :
    doLinkFrameReceive l op t2 t3 s = s := by
  rw [doLinkFrameReceive, if_pos (by rw [h]; rfl)]

/-! ### The frames of a running ring -/

theorem doTimeFrame_of_running (h : s.ringChan r = some c) :
    doTimeFrame r s = (s.sendTime (s.live c) (s.ringAt r).timeStep).modRing r (fun x => { x with timeStep := false }) := by
  simp only [doTimeFrame, h]

theorem doGrantUpdate_of_running (h : s.ringChan r = some c) :
    doGrantUpdate r s = s.each (s.dvl.joined.filter (fun j => j.ring == r)) (fun j t => t.sendGrant c j.serial j.pos) := by
  simp only [doGrantUpdate, h]

theorem doHoldFrame_of_due (h : s.ringChan r = some c) {q : Nat × Nat} (hq : s.holdDue = some q) :
    doHoldFrame r s = s.sendHold c q.2 q.1 := by
  simp only [doHoldFrame, h, hq]

theorem doHoldFrame_of_not_due (h : s.ringChan r = some c) (hq : s.holdDue = none) : doHoldFrame r s = s := by
  simp only [doHoldFrame, h, hq]

theorem doDarkBroadcast_of_warm (h : s.ringChan r = some c) (hw : s.power = 1) :
    doDarkBroadcast r s = s.sendControl c 0xFFFF s.seqNow opDark s.now [] := by
  simp only [doDarkBroadcast, h, if_pos hw]

theorem doDarkBroadcast_of_not_warm (h : s.ringChan r = some c) (hw : s.power ≠ 1) : doDarkBroadcast r s = s := by
  simp only [doDarkBroadcast, h, if_neg hw]

/-! ### Link delays (R283) -/

/-- The time of arrival of an answer, with the port's correction (R354), less t1, less the time the answerer held it: half
of it is the delay. -/
def State.linkDelayOf (s : State) (l t1 t2 t3 : Nat) : Int :=
  ((((s.now : Int) - toSigned 32 (s.get R.TP_ASYM l) * 256) - t1) - ((t3 : Int) - t2)) / 2

/-- The delays kept of a port. -/
def State.delaysOf (s : State) (l : Nat) : List Int :=
  ((s.dvl.delays.find? (fun p => p.1 == l)).map Prod.snd).getD []

/-- The state after an answer has given a delay: the request is no longer open, and the delay is the last of 16. -/
def State.measured (s : State) (l : Nat) (d : Int) : State :=
  { s with dvl := { s.dvl with
    asked := s.dvl.asked.filter (fun p => p.1 != l)
    delays := s.dvl.delays.filter (fun p => p.1 != l) ++
      [(l, (s.delaysOf l ++ [d]).drop ((s.delaysOf l).length + 1 - 16))] } }

theorem State.measured_leaves {l : Nat} {d : Int} : s.Leaves [] [.dvl] (s.measured l d) :=
  (State.Leaves.refl s _ _).dvlTo (by simp)

theorem find?_replaced {α : Type} (l : List (Nat × α)) (k : Nat) (v : α) :
    (l.filter (fun p => p.1 != k) ++ [(k, v)]).find? (fun p => p.1 == k) = some (k, v) := by
  have hnone : (l.filter (fun p => p.1 != k)).find? (fun p => p.1 == k) = none := by
    rw [List.find?_eq_none]
    intro p hp
    simpa using (List.mem_filter.1 hp).2
  rw [List.find?_append, hnone]
  simp

theorem State.measured_delays {l : Nat} {d : Int} :
    ((s.measured l d).dvl.delays.find? (fun p => p.1 == l)).map Prod.snd =
      some ((s.delaysOf l ++ [d]).drop ((s.delaysOf l).length + 1 - 16)) := by
  rw [State.measured, find?_replaced, Option.map_some]

theorem doLinkDelayRequest_of_running {l : Nat} (h : (s.ringChan (l / 2)).isSome = true) :
    doLinkDelayRequest l s =
      if s.mayRing l then
        { s.sendLink l 1 0 0 with dvl := { (s.sendLink l 1 0 0).dvl with
          asked := (s.sendLink l 1 0 0).dvl.asked.filter (fun q => q.1 != l) ++ [(l, (s.sendLink l 1 0 0).now)] } }
      else s.sendLink l 1 0 0 := by
  rw [doLinkDelayRequest, if_neg (by simpa [Option.isSome_iff_ne_none] using h)]

theorem doLinkFrameReceive_of_request {l t2 t3 : Nat} (h : (s.ringChan (l / 2)).isSome = true) :
    doLinkFrameReceive l 1 t2 t3 s = s.sendLink l 2 s.now s.now := by
  rw [doLinkFrameReceive, if_neg (by simpa [Option.isSome_iff_ne_none] using h), if_pos rfl]

theorem doLinkFrameReceive_of_answer {l t2 t3 : Nat} {q : Nat × Nat} (h : (s.ringChan (l / 2)).isSome = true)
    (hq : s.dvl.asked.find? (fun q => q.1 == l) = some q) :
    doLinkFrameReceive l 2 t2 t3 s = s.measured l (s.linkDelayOf l q.2 t2 t3) := by
  rw [doLinkFrameReceive, if_neg (by simpa [Option.isSome_iff_ne_none] using h), if_neg (by decide), if_pos rfl, hq]
  rfl

/-! ### Joins (R292) -/

/-- What a ring learns of its length is a register: no channel changes. -/
theorem State.learnLength_live {even odd : Option Nat} : (s.learnLength r even odd).live c = s.live c := by
  have hcmd : (s.learnLength r even odd).cmd = s.cmd := by
    unfold State.learnLength
    split
    · exact State.put_cmd
    · rfl
  rw [State.live, State.chanAt, hcmd, ← State.chanAt, ← State.live]

theorem doJoinRequest_of_position (h : s.ringChan r = some c) (hrole : s.role ≠ 2) {even odd : Option Nat} {pos : Nat}
    (hpos : (s.learnLength r even odd).positionOf r even odd = some pos) (hle : 1 ≤ pos ∧ pos ≤ 512) {j : JoinRec} {f m : Nat} :
    doJoinRequest r even odd j f m s =
      ((s.learnLength r even odd).joinEndpoint r pos j even odd (s.live c).telemBucket f m).sendGrant c j.serial pos := by
  simp only [doJoinRequest, h, if_neg hrole, hpos, if_pos hle, State.learnLength_live]

theorem doJoinRequest_of_no_position (h : s.ringChan r = some c) (hrole : s.role ≠ 2) {even odd : Option Nat}
    (hpos : ((s.learnLength r even odd).positionOf r even odd).any (fun p => decide (1 ≤ p ∧ p ≤ 512)) = false)
    {j : JoinRec} {f m : Nat} : doJoinRequest r even odd j f m s = s.learnLength r even odd := by
  simp only [doJoinRequest, h, if_neg hrole]
  split
  · rfl
  · next pos hsome =>
    rw [hsome] at hpos
    exact if_neg (of_decide_eq_false hpos)

/-- Settles O36: each frame by the equation of its command, and a measured delay by what replaces a port's list. -/
theorem ringFrames : Obligations.RingFrames := by
  refine ⟨fun s r even odd j f m a recs h => ?_, fun s l op t2 t3 h => ?_, fun s r c h => ?_, fun s l h => ?_,
    fun s r c even odd j f m pos h hrole hpos hlow hhigh => ?_, fun s r c even odd j f m h hrole hpos => ?_⟩
  · exact ⟨congrArg Host.Outcome.next (doTimeFrame_of_none h), congrArg Host.Outcome.next (doJoinRequest_of_none h),
      congrArg Host.Outcome.next (doGrantUpdate_of_none h), congrArg Host.Outcome.next (doHoldFrame_of_none h),
      congrArg Host.Outcome.next (doDarkBroadcast_of_none h), congrArg Host.Outcome.next (doTelemetryReceive_of_none h)⟩
  · exact ⟨congrArg Host.Outcome.next (doLinkDelayRequest_of_none h), congrArg Host.Outcome.next (doLinkFrameReceive_of_none h)⟩
  · exact ⟨congrArg Host.Outcome.next (doTimeFrame_of_running h), congrArg Host.Outcome.next (doGrantUpdate_of_running h),
      fun q hq => congrArg Host.Outcome.next (doHoldFrame_of_due h hq),
      fun hq => congrArg Host.Outcome.next (doHoldFrame_of_not_due h hq),
      fun hw => congrArg Host.Outcome.next (doDarkBroadcast_of_warm h hw),
      fun hw => congrArg Host.Outcome.next (doDarkBroadcast_of_not_warm h hw)⟩
  · refine ⟨⟨_, _, rfl, congrArg Host.Outcome.next (doLinkDelayRequest_of_running h), rfl⟩,
      fun t2 t3 => congrArg Host.Outcome.next (doLinkFrameReceive_of_request h), fun t2 t3 q hq => ?_⟩
    exact ⟨s.measured l (s.linkDelayOf l q.2 t2 t3), s.delaysOf l, congrArg Host.Outcome.next (doLinkFrameReceive_of_answer h hq),
      rfl, rfl, State.measured_delays, State.measured_leaves⟩
  · exact congrArg Host.Outcome.next (doJoinRequest_of_position h hrole hpos ⟨hlow, hhigh⟩)
  · exact congrArg Host.Outcome.next (doJoinRequest_of_no_position h hrole hpos)

end Sys2Proof.Machine
end

section
/-! PROOFS. Telemetry from a joined position and its reach (O37). -/
namespace Sys2Proof.Machine

variable {s : State} {r a : Nat} {even odd : Option Nat} {recs : List TelemRec}

/-! ### Telemetry (R295, R297) -/

theorem doTelemetryReceive_of_unjoined (h : s.joinedAt r a = none) : doTelemetryReceive r a even odd recs s = s := by
  unfold doTelemetryReceive
  split
  · next hj => exact absurd (h.symm.trans hj) nofun
  · rfl

/-- The position as TELEMETRY_RECEIVE finds it: its bucket filled, the arrival noted at the ports where a copy came. -/
def State.telemArrived (s : State) (r a : Nat) (c : Chan) (even odd : Option Nat) : State :=
  (s.learnLength r even odd).modJoined r a (fun j =>
    let q := j.fill (s.live c).telemRate (s.live c).telemBucket (s.learnLength r even odd).uptime
    { q with even := arrived even q.even (s.learnLength r even odd).uptime
             odd := arrived odd q.odd (s.learnLength r even odd).uptime
             lost := false })

/-- The tokens of a position. -/
def State.tokensAt (s : State) (r a : Nat) : Nat := ((s.joinedAt r a).map Joined.tokens).getD 0

/-- A frame without a token: discarded, counted for the ring and its channels, and reported at most once a minute. -/
def State.telemDropped (s : State) (r a : Nat) : State :=
  ((((s.bump R.RG_TELEM_DROP r).each (s.chansAt r a) (fun c t => t.bump F.E_ERR_OVER c.index)).raise
    F.DVL_EVT_OVER_RATE).tallyLimited (0x09050000 + r * 512 + a) (60 * oneSecond) 0x0905 (fun n => [r, a, n])).refreshDvl

/-- A frame that has its token: the token is spent and the frame counted. -/
def State.telemSpent (s : State) (r a : Nat) : State :=
  (s.modJoined r a (fun j => { j with tokens := j.tokens - 1 })).bump R.RG_TELEM_RX r

/-- The records of a frame go to the channels that are bound at the position. -/
def State.telemTaken (s : State) (r a : Nat) (cs : List Chan) (recs : List TelemRec) : State :=
  (s.each recs (fun q t => t.telemRecord r a (cs.filter (fun c => (s.boundTo s.cmd.latched c).isSome)) q)).refreshDvl

theorem doTelemetryReceive_of_joined {c : Chan} {j : Joined} (hc : s.ringChan r = some c) (hj : s.joinedAt r a = some j) :
    doTelemetryReceive r a even odd recs s =
      let u := s.telemArrived r a c even odd
      if u.tokensAt r a = 0 then u.telemDropped r a else (u.telemSpent r a).telemTaken r a (u.chansAt r a) recs := by
  simp only [doTelemetryReceive, hc, hj]
  rfl

/-! ### What bringing the registers of DvoreLink up to date leaves alone -/

/-- The uptime and the endpoints that have joined. -/
def State.joins (s : State) : Nat × List Joined := (s.uptime, s.dvl.joined)

@[simp] theorem State.put_joins {f : Field} {v i : Nat} : (s.put f v i).joins = s.joins := (rfl)

@[simp] theorem State.putFlag_joins {f : Field} {b : Bool} {i : Nat} : (s.putFlag f b i).joins = s.joins := (rfl)

@[simp] theorem State.modRing_joins {f : RingSt → RingSt} : (s.modRing r f).joins = s.joins := (rfl)

@[simp] theorem State.noteInput_joins : s.noteInput.joins = s.joins := (rfl)

@[simp] theorem State.raise_joins {f : Field} {i : Nat} : (s.raise f i).joins = s.joins := by
  rw [State.joins, State.raise_uptime, State.raise_dvl, State.joins]

@[simp] theorem State.tally_joins {c : Nat} {l : List Nat} : (s.tally c l).joins = s.joins := by
  rw [State.joins, State.tally_uptime, State.tally_dvl, State.joins]

theorem State.writeDisc_joins {j : Joined} {st handle : Nat} : (s.writeDisc j st handle).joins = s.joins := by
  rw [State.writeDisc, State.writeBulk_frame, State.writeBulk_frame s]
  rfl

theorem State.showDisc_joins {chans : List Chan} {j : Joined} : (s.showDisc chans j).joins = s.joins :=
  State.writeDisc_joins

theorem State.showEndpoint_joins {chans : List Chan} {c : Chan} : (s.showEndpoint chans c).joins = s.joins := by
  unfold State.showEndpoint
  extract_lets i q st was s1 s2 s3 known rest d s4
  clear_value q st was
  have hshown : s2.joins = s.joins := by
    unfold s2 s1
    split <;> simp only [State.put_joins]
  have hnoted : s3.joins = s2.joins := by
    unfold s3
    split <;> simp only [State.noteInput_joins]
  have hmismatch : s4.joins = s.joins := hnoted.trans hshown
  clear_value known s4
  split <;> simp only [State.tally_joins, State.raise_joins, hmismatch]

theorem State.showRing_joins {chans : List Chan} : (s.showRing chans r).joins = s.joins := by
  unfold State.showRing
  extract_lets ch s1
  clear_value ch
  split <;> simp only [s1, State.put_joins, State.putFlag_joins]

theorem State.showReach_joins {chans : List Chan} : (s.showReach chans r).joins = s.joins := by
  unfold State.showReach
  extract_lets js m has up le fo s1 bound one all
  have hshown : s1.joins = s.joins := by simp only [s1, State.put_joins]
  clear_value s1 one all le fo
  split <;> split <;>
    simp only [State.tally_joins, State.raise_joins, State.putFlag_joins, State.modRing_joins, hshown]

theorem State.refreshDvl_joins : s.refreshDvl.joins = s.joins := by
  unfold State.refreshDvl
  extract_lets chans s1 s2 bound rings
  clear_value bound rings
  rw [State.putFlag_joins, State.put_joins, State.put_joins]
  unfold s2 s1
  rw [State.each_proj fun _ _ _ => State.showReach_joins.trans State.showRing_joins,
    State.each_proj fun _ _ _ => State.showDisc_joins, State.each_proj fun _ _ _ => State.showEndpoint_joins]

/-! ### Reach (R298) -/

/-- The uptime of the latest arrival at a port. -/
def Joined.arrivedAt (j : Joined) (odd : Bool) : Option Nat := if odd then j.odd else j.even

/-- The endpoint without an arrival at a port. -/
def Joined.silence (odd : Bool) (j : Joined) : Joined := if odd then { j with odd := none } else { j with even := none }

theorem Joined.silence_arrivedAt {odd : Bool} {j : Joined} : (j.silence odd).arrivedAt odd = none := by
  cases odd <;> rfl

/-- Nothing has arrived at a port from the position. -/
def State.SilentAt (s : State) (r a : Nat) (odd : Bool) : Prop := ∀ k, s.joinedAt r a = some k → k.arrivedAt odd = none

theorem State.SilentAt.of_joins {t : State} {odd : Bool} (h : s.SilentAt r a odd) (e : t.joins = s.joins) :
    t.SilentAt r a odd := by
  have hjoined : t.dvl.joined = s.dvl.joined := congrArg Prod.snd e
  intro k hk
  rw [State.joinedAt, hjoined] at hk
  exact h k hk

/-- An endpoint has joined at a position of a ring. -/
def Joined.isAt (r a : Nat) (j : Joined) : Bool := j.ring == r && j.pos == a

/-- The endpoint at a position after a change that moves none is the changed one. -/
theorem State.modJoined_joinedAt {f : Joined → Joined} (hat : ∀ j, (f j).isAt r a = j.isAt r a) :
    (s.modJoined r a f).joinedAt r a = (s.joinedAt r a).map f := by
  have hsame : Joined.isAt r a ∘ (fun j => if j.isAt r a then f j else j) = Joined.isAt r a := by
    funext j
    rw [Function.comp_apply]
    split
    · exact hat j
    · rfl
  change (s.dvl.joined.map (fun j => if j.isAt r a then f j else j)).find? (Joined.isAt r a) =
    (s.dvl.joined.find? (Joined.isAt r a)).map f
  rw [List.find?_map, hsame]
  exact Option.map_congr fun j hj => if_pos (List.find?_some hj)

theorem Joined.silence_isAt {odd : Bool} {j : Joined} : (j.silence odd).isAt r a = j.isAt r a := by
  cases odd <;> rfl

/-- 3 s have passed since the latest arrival at a port, and that port's reach is cleared. -/
def State.silenced (s : State) (r a t : Nat) (odd : Bool) : State := (s.atUptime (t + threeS)).modJoined r a (Joined.silence odd)

/-- The position is lost, and reported so for the channels bound there. -/
def State.lossReported (s : State) (r a : Nat) (bound : List Chan) : State :=
  (s.modJoined r a (fun x => { x with lost := true })).each bound
    (fun c t => (t.raise F.DVL_EVT_LOST).tally 0x0902 [r, a, c.handle])

theorem threeS_eq : threeS = 3000000000 := (rfl)

theorem State.modJoined_uptime {f : Joined → Joined} : (s.modJoined r a f).uptime = s.uptime := (rfl)

theorem State.silenced_uptime {t : Nat} {odd : Bool} : (s.silenced r a t odd).uptime = max s.uptime (t + 3000000000) := by
  rw [State.silenced, State.modJoined_uptime, State.atUptime_uptime, threeS_eq]

theorem State.silenced_silentAt {t : Nat} {odd : Bool} : (s.silenced r a t odd).SilentAt r a odd := by
  intro k hk
  rw [State.silenced, State.modJoined_joinedAt fun _ => Joined.silence_isAt] at hk
  obtain ⟨j, -, rfl⟩ := Option.map_eq_some_iff.1 hk
  exact Joined.silence_arrivedAt

theorem State.lossReported_joins {bound : List Chan} :
    (s.lossReported r a bound).joins = (s.modJoined r a (fun x => { x with lost := true })).joins :=
  State.each_proj fun _ _ _ => State.tally_joins.trans State.raise_joins

theorem State.lossReported_uptime {bound : List Chan} : (s.lossReported r a bound).uptime = s.uptime :=
  congrArg Prod.fst (State.lossReported_joins (bound := bound))

theorem State.SilentAt.lossReported {odd : Bool} {bound : List Chan} (h : s.SilentAt r a odd) :
    (s.lossReported r a bound).SilentAt r a odd := by
  refine State.SilentAt.of_joins (fun k hk => ?_) State.lossReported_joins
  rw [State.modJoined_joinedAt (f := fun x => { x with lost := true }) fun _ => rfl] at hk
  obtain ⟨j, hj, rfl⟩ := Option.map_eq_some_iff.1 hk
  exact h j hj

theorem doReachTimeout_of_unjoined {odd : Bool} (h : s.joinedAt r a = none) : doReachTimeout r a odd s = s := by
  simp only [doReachTimeout, h]

theorem doReachTimeout_of_silent {odd : Bool} {j : Joined} (h : s.joinedAt r a = some j) (hj : j.arrivedAt odd = none) :
    doReachTimeout r a odd s = s := by
  rw [Joined.arrivedAt] at hj
  simp only [doReachTimeout, h, hj]

/-- The reach of the port is cleared, and where the position is lost by it, that is reported first. -/
theorem doReachTimeout_cases {odd : Bool} {j : Joined} {t : Nat} (h : s.joinedAt r a = some j) (hj : j.arrivedAt odd = some t) :
    (∃ bound, doReachTimeout r a odd s = ((s.silenced r a t odd).lossReported r a bound).refreshDvl) ∨
      doReachTimeout r a odd s = (s.silenced r a t odd).refreshDvl := by
  unfold doReachTimeout
  split
  · next hnone => exact absurd (h.symm.trans hnone) nofun
  · next k hk =>
    obtain rfl := Option.some.inj (h.symm.trans hk)
    split
    · next hnone => exact absurd (hj.symm.trans hnone) nofun
    · next t' ht =>
      obtain rfl := Option.some.inj (hj.symm.trans ht)
      extract_lets s1 s2 gone bound
      split
      · exact .inl ⟨bound, rfl⟩
      · exact .inr rfl

theorem State.refreshDvl_uptime : s.refreshDvl.uptime = s.uptime :=
  congrArg Prod.fst State.refreshDvl_joins

theorem doReachTimeout_of_arrived {odd : Bool} {j : Joined} {t : Nat} (h : s.joinedAt r a = some j)
    (hj : j.arrivedAt odd = some t) :
    (doReachTimeout r a odd s).uptime = max s.uptime (t + 3000000000) ∧ (doReachTimeout r a odd s).SilentAt r a odd := by
  obtain ⟨bound, e⟩ | e := doReachTimeout_cases h hj <;> rw [e, State.refreshDvl_uptime]
  · rw [State.lossReported_uptime]
    exact ⟨State.silenced_uptime, State.silenced_silentAt.lossReported.of_joins State.refreshDvl_joins⟩
  · exact ⟨State.silenced_uptime, State.silenced_silentAt.of_joins State.refreshDvl_joins⟩

/-- Settles O37: telemetry by the equation of its command, split by whether the bucket holds a token; a timeout because what
it reports and shows afterwards changes neither the uptime nor an arrival. -/
theorem telemetryTokens : Obligations.TelemetryTokens := by
  refine ⟨fun s r a even odd recs b h => ?_, fun s r c j a even odd recs hc hj => ?_, fun s r a b j h hj => ?_,
    fun s r a t b j h hj => ?_⟩
  · exact ⟨congrArg Host.Outcome.next (doTelemetryReceive_of_unjoined h), congrArg Host.Outcome.next (doReachTimeout_of_unjoined h)⟩
  · have hexec := doTelemetryReceive_of_joined (even := even) (odd := odd) (recs := recs) hc hj
    refine ⟨s.telemArrived r a c even odd, rfl, fun hnone => ?_, fun hsome => ⟨_, rfl, ?_⟩⟩
    · exact congrArg Host.Outcome.next (hexec.trans (if_pos hnone))
    · exact congrArg Host.Outcome.next (hexec.trans (if_neg hsome))
  · exact congrArg Host.Outcome.next (doReachTimeout_of_silent h hj)
  · exact ⟨_, rfl, doReachTimeout_of_arrived h hj⟩

end Sys2Proof.Machine
end

section
/-! PROOFS. What a step runs (O1), what every command continues (O3), and the reset state (O5). -/
namespace Sys2Proof.Machine

/-- Settles O1: the queue's first case of `step`. -/
theorem stepRunsFrontCommand : Obligations.StepRunsFrontCommand := by
  intro c rest s hqueue
  rw [step, hqueue]

/-- Settles O3: every command keeps its state's invariant, which holds what it continues. -/
theorem everyCommandContinues : Obligations.EveryCommandContinues := by
  intro c s
  obtain ⟨t, hexec, hkeeps⟩ := exec_keeps c s
  exact ⟨t, hexec, hkeeps.continues⟩

/-- Settles O5: the reset state stores nothing, so that its form is canonical and each register reads its reset value. -/
theorem resetState : Obligations.ResetState := by
  unfold Obligations.ResetState
  have hform : State.reset.canonical = true := by decide +kernel
  exact ⟨hform, rfl, rfl, by decide +kernel⟩

end Sys2Proof.Machine
end

section
/-! PROOFS. A universe that is given up (O33). -/
namespace Sys2Proof.Machine

/-- A running universe with every parameter at its default: it is due in every frame. -/
def dueUniverse : Chan := ⟨kUniverse, 3, 1, .running, [(0x0902, 0x10000)], [], 0, none, false, 0⟩

/-- Frame 7, composed and sent, with that universe. -/
def dueFrame : FrameWork :=
  ⟨7, false, 9, 1, [dueUniverse], [], true, [], [], 0, 0, [], [], [], false, 0, [], false, false, false, 0, none, (0, 0)⟩

/-- A device in work on that frame whose host has enabled MSI-X, with FIX_CTL's vector 21 unmasked. -/
def dueState : State :=
  let s := State.reset.put F.FIX_CTL_VECTOR 21
  { s with frames := [dueFrame], host := { s.host with msixEnable := true, msixTable := [(87, 0)] } }

/-- The event LATE of a universe given up reaches the host as a message of its vector. -/
theorem doSacnLate_dueState_outs : (doSacnLate 7 3 dueState).outs = [.msi 21] := by decide +kernel

/-- Refutes O33: SACN_LATE is said to send nothing, but the event FIX_EVT.LATE, when it goes from 0 to 1, sends the message of
the vector that FIX_CTL assigns to it, as it does in `dueState`. -/
theorem not_sacnOutput : ¬ Obligations.SacnOutput := by
  unfold Obligations.SacnOutput
  rintro ⟨-, -, hlate, -⟩
  have hdue : (dueState.atTime (dueState.dAt 7)).univDue dueFrame 3 = some dueUniverse := by decide +kernel
  obtain ⟨-, -, hgiven⟩ := hlate dueState 7 3 dueFrame (by decide +kernel) rfl
  obtain ⟨t, hexec, -, -, -, -, hsent⟩ := hgiven dueUniverse hdue
  obtain rfl : doSacnLate 7 3 dueState = t := Host.Outcome.next.inj hexec
  exact absurd (doSacnLate_dueState_outs.symm.trans hsent) (by decide +kernel)

end Sys2Proof.Machine
end

section
/-! PROOFS. What an operation on one field leaves of another, as rules that `simp` applies when both fields are closed. -/
namespace Sys2Proof.Machine

variable {s : State}

/-- Writing the one field element changes nothing of the other; unlike `Field.apart` it evaluates. -/
def Field.clear (f : Field) (i : Nat) (g : Field) (j : Nat) : Bool :=
  f.fits && (Nat.ble (f.lo + f.width) g.lo || Nat.ble (g.lo + g.width) f.lo || !(Nat.beq (f.addr i) (g.addr j)))

theorem Field.clear_iff {f g : Field} {i j : Nat} : f.clear i g j = true ↔ f.fits = true ∧ f.apart i g j := by
  have haddr : Nat.beq (f.addr i) (g.addr j) = false ↔ f.addr i ≠ g.addr j := by
    rw [← Bool.not_eq_true, Nat.beq_eq]
  simp only [Field.clear, Field.apart, Bool.and_eq_true, Bool.or_eq_true, Nat.ble_eq, Bool.not_eq_true', haddr]
  tauto

/-- Elements of different registers. -/
theorem Field.clear_of_addr {f g : Field} {i j : Nat} (hf : f.fits = true) (h : f.addr i ≠ g.addr j) : f.clear i g j = true :=
  Field.clear_iff.2 ⟨hf, .inl h⟩

@[simp] theorem State.get_put_clear {f g : Field} {v i j : Nat} (h : f.clear i g j = true) : (s.put f v i).get g j = s.get g j :=
  State.get_put_apart (Field.clear_iff.1 h).2 (Field.clear_iff.1 h).1

@[simp] theorem State.flag_put_clear {f g : Field} {v i j : Nat} (h : f.clear i g j = true) : (s.put f v i).flag g j = s.flag g j :=
  State.flag_put_apart (Field.clear_iff.1 h).2 (Field.clear_iff.1 h).1

@[simp] theorem State.get_putFlag_clear {f g : Field} {b : Bool} {i j : Nat} (h : f.clear i g j = true) :
    (s.putFlag f b i).get g j = s.get g j := State.get_put_clear h

@[simp] theorem State.flag_putFlag_clear {f g : Field} {b : Bool} {i j : Nat} (h : f.clear i g j = true) :
    (s.putFlag f b i).flag g j = s.flag g j := State.flag_put_clear h

@[simp] theorem State.get_add_clear {f g : Field} {n i j : Nat} (h : f.clear i g j = true) : (s.add f n i).get g j = s.get g j :=
  State.get_put_clear h

@[simp] theorem State.flag_add_clear {f g : Field} {n i j : Nat} (h : f.clear i g j = true) : (s.add f n i).flag g j = s.flag g j :=
  State.flag_put_clear h

@[simp] theorem State.get_bump_clear {f g : Field} {i j : Nat} (h : f.clear i g j = true) : (s.bump f i).get g j = s.get g j :=
  State.get_put_clear h

@[simp] theorem State.flag_bump_clear {f g : Field} {i j : Nat} (h : f.clear i g j = true) : (s.bump f i).flag g j = s.flag g j :=
  State.flag_put_clear h

@[simp] theorem State.get_advance_clear {f g : Field} {i j : Nat} (h : f.clear i g j = true) :
    (s.advance f i).get g j = s.get g j := State.get_put_clear h

@[simp] theorem State.flag_advance_clear {f g : Field} {i j : Nat} (h : f.clear i g j = true) :
    (s.advance f i).flag g j = s.flag g j := State.flag_put_clear h

@[simp] theorem State.get_raise_clear {f g : Field} {i j : Nat} (h : f.clear i g j = true) : (s.raise f i).get g j = s.get g j :=
  State.get_raise_apart (Field.clear_iff.1 h).2 (Field.clear_iff.1 h).1

@[simp] theorem State.flag_raise_clear {f g : Field} {i j : Nat} (h : f.clear i g j = true) : (s.raise f i).flag g j = s.flag g j :=
  State.flag_raise_apart (Field.clear_iff.1 h).2 (Field.clear_iff.1 h).1

@[simp] theorem State.get_tally_clear {g : Field} {c j : Nat} {items : List Nat} (h : R.TLY_LOST.clear 0 g j = true)
    (h' : F.TLY_EVT_LOST.clear 0 g j = true) : (s.tally c items).get g j = s.get g j :=
  State.get_tally_apart (Field.clear_iff.1 h).2 (Field.clear_iff.1 h').2

@[simp] theorem State.flag_tally_clear {g : Field} {c j : Nat} {items : List Nat} (h : R.TLY_LOST.clear 0 g j = true)
    (h' : F.TLY_EVT_LOST.clear 0 g j = true) : (s.tally c items).flag g j = s.flag g j :=
  State.flag_tally_apart (Field.clear_iff.1 h).2 (Field.clear_iff.1 h').2

/-- A counter stays at its largest value. -/
theorem State.get_bump_max {f : Field} {i m : Nat} (h : f.fits = true) (hm : 2 ^ f.width - 1 = m) :
    (s.bump f i).get f i = min m (s.get f i + 1) := by
  rw [State.get_bump_same h, hm]

/-- A value that the field can hold is read back as it was written. -/
theorem State.get_put_of_lt {f : Field} {v i : Nat} (h : f.fits = true) (hv : v < 2 ^ f.width) : (s.put f v i).get f i = v :=
  (State.get_put_same h).trans (Nat.mod_eq_of_lt hv)

end Sys2Proof.Machine
end

section
/-! PROOFS. Unit resets (O57). -/
namespace Sys2Proof.Machine

variable {s : State}

/-- The units that a write of PCR_BLK_RST names. -/
def unitsNamed (w : Word) : List Nat := (List.range 24).filter (fun u => bitAt w.toNat u)

/-- The units of it that are refused: a static unit may be reset in Warm alone. -/
def State.staticRefused (s : State) (w : Word) : List Nat := if s.power = 1 then [] else (unitsNamed w).filter unitStatic

theorem State.staticRefused_eq_nil {w : Word}
    (h : s.power = 1 ∨ (∀ u, u < 24 → bitAt w.toNat u = true → unitStatic u = false)) : s.staticRefused w = [] := by
  unfold State.staticRefused
  split
  · rfl
  · next hwarm =>
    refine List.filter_eq_nil_iff.2 fun u hu => ?_
    obtain ⟨hmem, hbit⟩ := List.mem_filter.1 hu
    rw [(h.resolve_left hwarm) u (List.mem_range.1 hmem) hbit]
    exact Bool.false_ne_true

theorem State.staticRefused_of_static {w : Word} {u : Nat} (hp : s.power ≠ 1) (hu : unitsNamed w = [u]) (hstatic : unitStatic u = true) :
    s.staticRefused w = [u] := by
  rw [State.staticRefused, if_neg hp, hu, List.filter_cons_of_pos hstatic, List.filter_nil]

/-- The write is shown as refused, if it is. -/
def State.blkShown (s : State) (bad : List Nat) : State :=
  let s1 := s.putFlag F.PCR_BLK_RST_STAT_REJECT (!bad.isEmpty)
  if bad.isEmpty then s1
  else ((s1.rejectS R.PCR_BLK_RST.base).raise F.PCR_EVT_BLK_REJECT).tally 0x120B [(bad.map (fun u => 2 ^ u)).sum, s.power]

theorem doBlkRst_eq {w : Word} : doBlkRst w s =
    (s.blkShown (s.staticRefused w)).each ((unitsNamed w).filter (fun u => !(s.staticRefused w).contains u)) (fun u t =>
      if s.pwr.resetting.isSome then t.recordReset 14 reachUnit true t.power t.frameNum else t.askIdle u 14) := rfl

theorem doBlkRst_of_admitted {w : Word} (h : s.staticRefused w = []) (hr : s.pwr.resetting = none) :
    doBlkRst w s = (s.putFlag F.PCR_BLK_RST_STAT_REJECT false).each (unitsNamed w) (fun u t => t.askIdle u 14) := by
  have hall : (unitsNamed w).filter (fun u => !([] : List Nat).contains u) = unitsNamed w :=
    List.filter_eq_self.2 fun _ _ => rfl
  rw [doBlkRst_eq, h, hr, hall]
  rfl

/-- A write of PCR_BLK_RST that names static units alone, outside Warm. -/
def State.blkRefused (s : State) (u : Nat) : State :=
  (((s.putFlag F.PCR_BLK_RST_STAT_REJECT true).rejectS R.PCR_BLK_RST.base).raise F.PCR_EVT_BLK_REJECT).tally 0x120B [2 ^ u, s.power]

theorem State.each_nil {α : Type} {f : α → State → State} : s.each [] f = s := rfl

theorem State.blkShown_single {u : Nat} : s.blkShown [u] = s.blkRefused u := by
  have hone : [u].isEmpty = false := rfl
  simp only [State.blkShown, State.blkRefused, hone, Bool.not_false, Bool.false_eq_true, if_false, List.map_singleton,
    List.sum_singleton]

theorem doBlkRst_of_static {w : Word} {u : Nat} (hp : s.power ≠ 1) (hu : unitsNamed w = [u]) (hstatic : unitStatic u = true) :
    doBlkRst w s = s.blkRefused u := by
  have hnone : ([u].filter fun v => !([u] : List Nat).contains v) = [] :=
    List.filter_eq_nil_iff.2 fun v hv => by simp [List.mem_singleton.1 hv]
  rw [doBlkRst_eq, State.staticRefused_of_static hp hu hstatic, hu, hnone, State.each_nil, State.blkShown_single]

/-- A refused S-class write of a register outside the blocks that show it themselves. -/
theorem State.rejectS_blkRst : s.rejectS R.PCR_BLK_RST.base =
    (s.bump R.SYS_S_REJECT_CNT).put R.SYS_S_REJECT_ADDR R.PCR_BLK_RST.base := rfl

theorem State.blkRefused_eq {u : Nat} : s.blkRefused u =
    ((((s.putFlag F.PCR_BLK_RST_STAT_REJECT true).bump R.SYS_S_REJECT_CNT).put R.SYS_S_REJECT_ADDR R.PCR_BLK_RST.base).raise
      F.PCR_EVT_BLK_REJECT).tally 0x120B [2 ^ u, s.power] := by
  rw [State.blkRefused, State.rejectS_blkRst]

theorem State.blkRefused_shows {u : Nat} : (s.blkRefused u).flag F.PCR_BLK_RST_STAT_REJECT = true ∧
    (s.blkRefused u).flag F.PCR_EVT_BLK_REJECT = true ∧
    (s.blkRefused u).get R.SYS_S_REJECT_CNT = min 0xFFFFFFFF (s.get R.SYS_S_REJECT_CNT + 1) ∧
    (s.blkRefused u).get R.SYS_S_REJECT_ADDR = R.PCR_BLK_RST.base := by
  rw [State.blkRefused_eq]
  refine ⟨?_, ?_, ?_, ?_⟩
  · simp (disch := decide) only [State.flag_tally_clear, State.flag_raise_clear, State.flag_put_clear, State.flag_bump_clear,
      State.flag_putFlag_same]
  · simp (disch := decide) only [State.flag_tally_clear, State.flag_raise_same]
  · rw [State.get_tally_clear rfl rfl, State.get_raise_clear rfl, State.get_put_clear rfl, State.get_bump_max (m := 0xFFFFFFFF) rfl rfl,
      State.get_putFlag_clear rfl]
  · rw [State.get_tally_clear rfl rfl, State.get_raise_clear rfl, State.get_put_of_lt rfl (by decide)]

theorem State.blkRefused_records {u : Nat} : s.Records [(0x120B, [2 ^ u, s.power])] (s.blkRefused u) := by
  rw [State.blkRefused_eq]
  exact State.Records.one (by simp)

theorem State.blkRefused_leaves {u : Nat} : s.Leaves [(F.PCR_BLK_RST_STAT_REJECT, 0), (F.PCR_EVT_BLK_REJECT, 0),
    (R.SYS_S_REJECT_CNT, 0), (R.SYS_S_REJECT_ADDR, 0)] [] (s.blkRefused u) := by
  rw [State.blkRefused_eq]
  exact (((((State.Leaves.refl s _ _).putFlag (.inl (by simp))).bump (.inl (by simp))).put (.inl (by simp))).raise
    (.inl (by simp))).tally

theorem doIdleAck_of_asked {u : Nat} {q : IdleReq} (h : s.pwr.idle.find? (fun q => q.unit == u) = some q) :
    doIdleAck u s = s.resetIdle q := by
  simp only [doIdleAck, h]

/-- A unit asked at an uptime has not become idle within its wait. -/
def State.idleOverdue (s : State) (u since us : Nat) : State :=
  (((s.atUptime (since + us * 1000)).bump R.PCR_IDLE_TO_CNT).raise F.PCR_EVT_IDLE_TIMEOUT).tally 0x1204 [u, us]

theorem doIdleTimeout_of_asked {u : Nat} {q : IdleReq} (h : s.pwr.idle.find? (fun q => q.unit == u) = some q) :
    doIdleTimeout u s = (s.idleOverdue u q.since (max 10 (min 10000 (s.get F.PCR_CTL_IDLE_TIMEOUT)))).resetIdle q := by
  simp only [doIdleTimeout, h, State.idleOverdue]

theorem State.idleOverdue_spec {u since us : Nat} : (s.idleOverdue u since us).uptime = max s.uptime (since + us * 1000) ∧
    (s.idleOverdue u since us).get R.PCR_IDLE_TO_CNT = min 0xFFFFFFFF (s.get R.PCR_IDLE_TO_CNT + 1) ∧
    (s.idleOverdue u since us).flag F.PCR_EVT_IDLE_TIMEOUT = true ∧
    s.Records [(0x1204, [u, us])] (s.idleOverdue u since us) ∧
    s.Leaves [(R.PCR_IDLE_TO_CNT, 0), (F.PCR_EVT_IDLE_TIMEOUT, 0)] [.time] (s.idleOverdue u since us) := by
  unfold State.idleOverdue
  refine ⟨?_, ?_, ?_, State.Records.one ?_, ?_⟩
  · rw [State.tally_uptime, State.raise_uptime, State.bump_uptime, State.atUptime_uptime]
  · rw [State.get_tally_clear rfl rfl, State.get_raise_clear rfl, State.get_bump_max (m := 0xFFFFFFFF) rfl rfl, State.atUptime_get]
  · rw [State.flag_tally_clear rfl rfl, State.flag_raise_same rfl rfl]
  · simp
  · exact ((((State.Leaves.refl s _ _).atUptime (by simp)).bump (.inl (by simp))).raise (.inl (by simp))).tally

theorem doIdleAck_of_unasked {u : Nat} (h : s.pwr.idle.find? (fun q => q.unit == u) = none) : doIdleAck u s = s := by
  simp only [doIdleAck, h]

theorem doIdleTimeout_of_unasked {u : Nat} (h : s.pwr.idle.find? (fun q => q.unit == u) = none) : doIdleTimeout u s = s := by
  simp only [doIdleTimeout, h]

/-- Settles O57: each command by its equation, and what a refusal and an overdue unit show by their operations. -/
theorem unitResets : Obligations.UnitResets := by
  refine ⟨fun s table unit word => rfl, fun s w h hr => ?_, fun s w u hp _ hu hstatic => ?_, fun s u q h => ?_, fun s u h => ?_⟩
  · exact congrArg Host.Outcome.next (doBlkRst_of_admitted (State.staticRefused_eq_nil h) hr)
  · obtain ⟨hreject, hevent, hcount, haddr⟩ := s.blkRefused_shows (u := u)
    exact ⟨_, congrArg Host.Outcome.next (doBlkRst_of_static hp hu hstatic), hreject, hevent, hcount, haddr,
      State.blkRefused_records, State.blkRefused_leaves⟩
  · obtain ⟨huptime, hcount, hevent, hrec, hleaves⟩ := s.idleOverdue_spec (u := u) (since := q.since)
      (us := max 10 (min 10000 (s.get F.PCR_CTL_IDLE_TIMEOUT)))
    exact ⟨congrArg Host.Outcome.next (doIdleAck_of_asked h), _, huptime, hcount, hevent, hrec, hleaves,
      congrArg Host.Outcome.next (doIdleTimeout_of_asked h)⟩
  · exact ⟨congrArg Host.Outcome.next (doIdleAck_of_unasked h), congrArg Host.Outcome.next (doIdleTimeout_of_unasked h)⟩

end Sys2Proof.Machine
end

section
/-! PROOFS. What a frame says of a field that it does not list. -/
namespace Sys2Proof.Machine

variable {s t : State} {l : List (Field × Nat)} {p : List Part}

theorem inFields_eq_false {a b : Nat} (h : ∀ q ∈ l, q.1.addr q.2 = a → q.1.lo ≤ b → ¬ b < q.1.lo + q.1.width) :
    inFields l a b = false := by
  refine List.any_eq_false.2 fun q hq => ?_
  simp only [Bool.and_eq_true, beq_iff_eq, decide_eq_true_eq, not_and]
  exact h q hq

/-- A field apart from every listed one, and from what counts a dropped record, keeps its value. -/
theorem State.Leaves.get_apart (h : s.Leaves l p t) (hr : .regs ∉ p) {g : Field} {j : Nat}
    (hl : ∀ q ∈ l ++ lostFields, q.1.apart q.2 g j) : t.get g j = s.get g j := by
  refine Nat.eq_of_testBit_eq fun b => ?_
  simp only [State.get, Nat.testBit_mod_two_pow, Nat.testBit_div_two_pow]
  by_cases hb : b < g.width
  · have hfree : inFields (l ++ lostFields) (g.addr j) (b + g.lo) = false := by
      refine inFields_eq_false fun q hq haddr hlow hhigh => ?_
      rcases hl q hq with hne | hbelow | habove
      · exact hne haddr
      · omega
      · omega
    have hbit : (t.reg (g.addr j)).toNat.testBit (b + g.lo) = (s.reg (g.addr j)).toNat.testBit (b + g.lo) :=
      h.regs hr (g.addr j) (b + g.lo) hfree
    rw [hbit]
  · simp only [hb, decide_false, Bool.false_and]

theorem State.Leaves.get_clear (h : s.Leaves l p t) (hr : .regs ∉ p) {g : Field} {j : Nat}
    (hl : (l ++ lostFields).all (fun q => q.1.clear q.2 g j) = true) : t.get g j = s.get g j :=
  h.get_apart hr fun q hq => (Field.clear_iff.1 (List.all_eq_true.1 hl q hq)).2

theorem State.Leaves.flag_clear (h : s.Leaves l p t) (hr : .regs ∉ p) {g : Field} {j : Nat}
    (hl : (l ++ lostFields).all (fun q => q.1.clear q.2 g j) = true) : t.flag g j = s.flag g j := by
  rw [State.flag, h.get_clear hr hl, State.flag]

/-- Registers of one array's element at different places. -/
theorem Field.clear_of_base {f g : Field} {i : Nat} (hf : f.fits = true) (hs : f.stride = g.stride) (h : f.base ≠ g.base) :
    f.clear i g i = true := by
  refine Field.clear_of_addr hf ?_
  simp only [Field.addr, hs]
  omega

end Sys2Proof.Machine
end

section
/-! PROOFS. Producers and hardware consumers of pails (O42). -/
namespace Sys2Proof.Machine

variable {s : State} {p : Nat} {q : Pail}

/-! ### Reservations (R395, R396) -/

/-- A field of a pail other than its status is not changed by bringing the status up to date. -/
theorem State.get_syncPail_of_base {f : Field} (hs : f.stride = 0x40) (hb : R.PL_STAT.base ≠ f.base) :
    (s.syncPail p).get f p = s.get f p := by
  refine State.get_syncPail_of_ne ?_
  have hstride : R.PL_STAT.stride = 0x40 := rfl
  simp only [Field.addr, hs, hstride]
  omega

/-- The slot after the last is reserved. -/
def State.reserved (s : State) (q : Pail) (p who : Nat) : State :=
  (((s.wrAdvance q 1).advance F.PL_SEQ_NEXT p).modPail p
    (fun q => { q with items := q.items ++ [newItem (s.get F.PL_SEQ_NEXT p) who false] })).syncPail p

/-- The oldest item of a full pail gives way to a reserved one. -/
def State.overwritten (s : State) (q : Pail) (p who : Nat) : State :=
  (((s.rdAdvance q 1).wrAdvance q 1).advance F.PL_SEQ_NEXT p).modPail p
    (fun x => { x with items := x.items.drop 1 ++ [newItem (s.get F.PL_SEQ_NEXT p) who true] }) |>.syncPail p

theorem doPailReserve_of_producer {who : Nat} (h : s.pail p = some q) (hr : 2 ≤ q.role) : doPailReserve p who s = s.reserve p who := by
  simp only [doPailReserve, h, if_pos hr]

theorem State.reserve_of_room {who : Nat} (h : s.pail p = some q) (hroom : q.items.length < q.depth) :
    s.reserve p who = s.reserved q p who := by
  simp only [State.reserve, State.reserved, h, if_pos hroom]

theorem State.reserve_of_stall {who : Nat} (h : s.pail p = some q) (hr : q.role = 2) (hfull : q.depth ≤ q.items.length) :
    s.reserve p who = s.modPail p (fun q => { q with stalled := some (q.stalled.getD s.uptime) }) := by
  simp [State.reserve, h, hr, Nat.not_lt.2 hfull]

theorem State.reserve_of_overwrite {who : Nat} (h : s.pail p = some q) (hr : q.role = 3 ∨ q.role = 4)
    (hfull : q.depth ≤ q.items.length) (hpop : q.popping = none) :
    s.reserve p who = (s.overwritten q p who).pailLost p ((q.items.head?.map Item.seq).getD 0) := by
  simp only [State.reserve, State.overwritten, h, if_neg (Nat.not_lt.2 hfull), if_pos hr, hpop]

theorem State.pailLost_par {n : Nat} : (s.pailLost p n).par = s.par := by
  rw [State.pailLost, State.tallyLimitedV_par, State.raise_par, State.bump_par]

theorem State.wrAdvance_par {n : Nat} : (s.wrAdvance q n).par = s.par := State.put_par

theorem State.rdAdvance_par {n : Nat} : (s.rdAdvance q n).par = s.par := State.put_par

theorem State.reserved_pail {who : Nat} (h : s.pail p = some q) :
    (s.reserved q p who).pail p = some { q with items := q.items ++ [newItem (s.get F.PL_SEQ_NEXT p) who false] } := by
  rw [State.reserved, State.pail_congr State.syncPail_par]
  exact State.pail_modPail_same (fun _ => rfl) (State.pail_of_par h (State.advance_par.trans State.wrAdvance_par))

theorem State.reserved_seq {who : Nat} (h : s.pail p = some q) :
    (s.reserved q p who).get F.PL_SEQ_NEXT p = (s.get F.PL_SEQ_NEXT p + 1) % 2 ^ F.PL_SEQ_NEXT.width := by
  have hclear : F.PL_WR_VALUE.clear p F.PL_SEQ_NEXT p = true := Field.clear_of_base rfl rfl (by decide)
  rw [State.reserved, State.get_syncPail_of_base rfl (by decide), State.modPail_get, State.get_advance_same rfl, State.wrAdvance,
    State.num_of_pail h, State.get_put_clear hclear]

theorem State.overwritten_pail {who : Nat} (h : s.pail p = some q) :
    (s.overwritten q p who).pail p = some { q with items := q.items.drop 1 ++ [newItem (s.get F.PL_SEQ_NEXT p) who true] } := by
  rw [State.overwritten, State.pail_congr State.syncPail_par]
  exact State.pail_modPail_same (f := fun x => { x with items := x.items.drop 1 ++ [newItem (s.get F.PL_SEQ_NEXT p) who true] })
    (fun _ => rfl) (State.pail_of_par h (State.advance_par.trans (State.wrAdvance_par.trans State.rdAdvance_par)))

theorem State.get_overwritten_lost {who : Nat} (h : s.pail p = some q) : (s.overwritten q p who).get R.PL_LOST p = s.get R.PL_LOST p := by
  have hseq : F.PL_SEQ_NEXT.clear p R.PL_LOST p = true := Field.clear_of_base rfl rfl (by decide)
  have hwr : F.PL_WR_VALUE.clear p R.PL_LOST p = true := Field.clear_of_base rfl rfl (by decide)
  have hrd : F.PL_RD_VALUE.clear p R.PL_LOST p = true := Field.clear_of_base rfl rfl (by decide)
  rw [State.overwritten, State.get_syncPail_of_base rfl (by decide), State.modPail_get, State.get_advance_clear hseq, State.wrAdvance,
    State.rdAdvance, State.num_of_pail h, State.get_put_clear hwr, State.get_put_clear hrd]

/-- What a lost item shows: the count and the event bit. -/
theorem State.pailLost_shows {n : Nat} (hp : p < 256) : (s.pailLost p n).get R.PL_LOST p = min 0xFFFFFFFF (s.get R.PL_LOST p + 1) ∧
    (s.pailLost p n).flag F.PL_EVT_LOST p = true := by
  have hevent : F.PL_EVT_LOST.clear p R.PL_LOST p = true := Field.clear_of_base rfl rfl (by decide)
  obtain ⟨hcount, hcount'⟩ := lost_apart_pail (f := R.PL_LOST) (by decide) rfl hp
  obtain ⟨hflag, hflag'⟩ := lost_apart_pail (f := F.PL_EVT_LOST) (by decide) rfl hp
  constructor
  · rw [State.pailLost, State.get_tallyLimitedV_apart hcount hcount', State.get_raise_clear hevent,
      State.get_bump_max (m := 0xFFFFFFFF) rfl rfl]
  · rw [State.pailLost, State.flag, State.get_tallyLimitedV_apart hflag hflag']
    exact State.flag_raise_same rfl rfl

/-- A pail without a device producer takes no reservation and no length word. -/
theorem doPailReserve_of_other {who : Nat} (h : (s.pail p).any (fun q => decide (2 ≤ q.role)) = false) : doPailReserve p who s = s := by
  unfold doPailReserve
  split
  · next q hq =>
    have hr : ¬ 2 ≤ q.role := by simpa [hq] using h
    exact if_neg hr
  · rfl

theorem doLengthWordWrite_of_other {seq : Nat} {bytes : List Nat} (h : (s.pail p).any (fun q => decide (2 ≤ q.role)) = false) :
    doLengthWordWrite p seq bytes s = s := by
  unfold doLengthWordWrite
  split
  · next q hq =>
    have hr : ¬ 2 ≤ q.role := by simpa [hq] using h
    exact if_neg hr
  · rfl

/-! ### Length words (R394, R395) -/

theorem doLengthWordWrite_of_producer {seq : Nat} {bytes : List Nat} (h : s.pail p = some q) (hr : 2 ≤ q.role) :
    doLengthWordWrite p seq bytes s = s.writeItem p seq bytes false := by
  simp only [doLengthWordWrite, h, if_pos hr]

theorem State.writeItem_of_unreserved {seq : Nat} {bytes : List Nat} (h : s.pail p = some q) (hk : reservedAt q seq = none) :
    s.writeItem p seq bytes false = s := by
  simp only [State.writeItem, h, hk]

theorem State.writePailMem_par {a : Nat} {bs : List Nat} : (s.writePailMem a bs).par = s.par := by
  unfold State.writePailMem
  induction bs generalizing s a with
  | nil => rfl
  | cons b bs ih => exact ih (s := s.setPailByte a (BitVec.ofNat 8 b))

theorem State.writePail_par {a : Nat} {bs : List Nat} : (s.writePail q a bs).par = s.par := by
  unfold State.writePail
  split
  · rw [State.writeBulk_frame]
  · exact State.writePailMem_par

theorem State.msiAssigned_par {v : Nat} : (s.msiAssigned v).par = s.par := by
  unfold State.msiAssigned
  split
  · exact State.msi_par
  · rfl

theorem State.crossLevel_par {before after : Nat} : (s.crossLevel q before after).par = s.par := by
  unfold State.crossLevel
  dsimp only
  split
  · split
    · exact State.msi_par.trans State.putFlag_par
    · exact State.msiAssigned_par.trans State.putFlag_par
  · rfl

theorem State.serveWaiting_of_none (h : s.pail p = some q) (hw : q.waitPop = []) : s.serveWaiting p = s := by
  simp only [State.serveWaiting, h, hw]

/-- The pail with the item at an index made visible. -/
def Pail.fillItem (k len : Nat) (bytes : List Nat) (x : Pail) : Pail :=
  { x with items := x.items.modify k (fun i =>
    { i with len := len, phase := .ready, task := if x.role = 2 then some (taskOfBytes bytes) else none }) }

/-- The bytes of a length word and what follows it stand in the slot of an item. -/
def State.slotWritten (s : State) (q : Pail) (k len seq : Nat) (bytes : List Nat) : State :=
  (s.writePail q (s.slotAddr q k + 4) (bytes.take (q.itemBytes - 4))).writePail q (s.slotAddr q k)
    (leBytes 4 (lengthWord len false false seq))

theorem State.slotWritten_par {k len seq : Nat} {bytes : List Nat} : (s.slotWritten q k len seq bytes).par = s.par :=
  State.writePail_par.trans State.writePail_par

theorem State.writeItem_of_telemetry {seq k : Nat} {bytes : List Nat} (h : s.pail p = some q) (hr : q.role = 4)
    (hk : reservedAt q seq = some k) : ∃ after, s.writeItem p seq bytes false =
      (((((s.slotWritten q k (min (4 + bytes.length) q.itemBytes) seq bytes).modPail p
        (Pail.fillItem k (min (4 + bytes.length) q.itemBytes) bytes)).crossLevel q (countedItems q.items) after).syncPail p).serveWaiting p) := by
  have htask : ¬ q.role = 2 := by omega
  simp only [State.writeItem, h, hk, htask, if_false, Bool.false_eq_true]
  exact ⟨_, rfl⟩

theorem State.writeItem_pail {seq k : Nat} {bytes : List Nat} (h : s.pail p = some q) (hr : q.role = 4) (hw : q.waitPop = [])
    (hk : reservedAt q seq = some k) : (s.writeItem p seq bytes false).pail p =
      some (q.fillItem k (min (4 + bytes.length) q.itemBytes) bytes) := by
  obtain ⟨after, heq⟩ := State.writeItem_of_telemetry (bytes := bytes) h hr hk
  have hfilled := State.pail_modPail_same (f := Pail.fillItem k (min (4 + bytes.length) q.itemBytes) bytes) (fun _ => rfl)
    (State.pail_of_par h (State.slotWritten_par (q := q) (k := k) (len := min (4 + bytes.length) q.itemBytes) (seq := seq) (bytes := bytes)))
  have hstatus := State.pail_of_par hfilled ((State.syncPail_par (p := p)).trans
    (State.crossLevel_par (q := q) (before := countedItems q.items) (after := after)))
  rw [heq, State.serveWaiting_of_none hstatus hw]
  exact hstatus

theorem Pail.fillItem_get {seq k len : Nat} {bytes : List Nat} (hk : reservedAt q seq = some k) :
    ∃ i, (q.fillItem k len bytes).items[k]? = some i ∧ i.phase = .ready ∧ i.len = len := by
  obtain ⟨hlt, -⟩ := List.findIdx?_eq_some_iff_getElem.1 hk
  have hget := List.getElem?_eq_getElem hlt
  simp only [Pail.fillItem, List.getElem?_modify, if_pos, hget]
  exact ⟨_, rfl, rfl, rfl⟩

/-! ### The end of a stall (R396) -/

/-- A stalled producer goes on, and its wait is counted. -/
def State.resumed (s : State) (p since : Nat) : State :=
  (s.add R.PL_STALL_US ((s.uptime - since) / 1000) p).modPail p (fun x => { x with stalled := none })

theorem doProducerResume_of_room {since : Nat} (h : s.pail p = some q) (hs : q.stalled = some since)
    (hroom : q.items.length < q.depth) : doProducerResume p s = s.resumed p since := by
  simp only [doProducerResume, State.resumed, h, hs, if_pos hroom]

theorem doProducerResume_of_other
    (h : (s.pail p).any (fun q => q.stalled.isSome && decide (q.items.length < q.depth)) = false) : doProducerResume p s = s := by
  unfold doProducerResume
  split
  · rfl
  · next q hq =>
    split
    · next since hs =>
      have hroom : ¬ q.items.length < q.depth := by simpa [hq, hs] using h
      exact if_neg hroom
    · rfl

theorem State.resumed_pail {since : Nat} (h : s.pail p = some q) : (s.resumed p since).pail p = some { q with stalled := none } :=
  State.pail_modPail_same (fun _ => rfl) (State.pail_of_par h State.add_par)

theorem State.resumed_count {since : Nat} : (s.resumed p since).get R.PL_STALL_US p =
    min 0xFFFFFFFF (s.get R.PL_STALL_US p + (s.uptime - since) / 1000) := by
  have hmax : 2 ^ R.PL_STALL_US.width - 1 = 0xFFFFFFFF := rfl
  rw [State.resumed, State.modPail_get, State.get_add_same rfl, hmax]

/-! ### Hardware consumers (R397) -/

theorem doHwConsumerRead_of_empty (h : s.pail p = some q) (hi : q.items = []) :
    doHwConsumerRead p s = s.emit (.hwItem p (s.idleItem p)) := by
  have hskip : s.skipVoid p = s := State.skipVoid_of_head h (by rw [hi]; rfl)
  simp only [doHwConsumerRead, hskip, h, hi, List.head?_nil]

/-- A read that finds its pail's head reserved. -/
def State.starved (s : State) (p : Nat) : State :=
  (((s.bump R.PL_STARVE p).raise F.PL_EVT_STARVED p).tallyAtMost 0x0E07 10 oneSecond 0x0E07 [p, s.frameNum]).emit
    (.hwItem p (s.idleItem p))

theorem doHwConsumerRead_of_reserved {i : Item} {l : List Item} (h : s.pail p = some q) (hi : q.items = i :: l)
    (hphase : i.phase = .reserved) : doHwConsumerRead p s = s.starved p := by
  have hskip : s.skipVoid p = s := State.skipVoid_of_head h (by rw [hi, List.head?_cons, Option.all_some, hphase]; rfl)
  have hready : ¬ i.phase = .ready := by simp [hphase]
  simp only [doHwConsumerRead, State.starved, hskip, h, hi, List.head?_cons, if_neg hready]

theorem State.starved_leaves : s.Leaves [(R.PL_STARVE, p), (F.PL_EVT_STARVED, p)] [] (s.starved p) :=
  ((((State.Leaves.refl s _ _).bump (.inl (by simp))).raise (.inl (by simp))).tallyAtMost).emit

theorem State.starved_shows (hp : p < 256) : (s.starved p).get R.PL_STARVE p = min 0xFFFFFFFF (s.get R.PL_STARVE p + 1) ∧
    (s.starved p).flag F.PL_EVT_STARVED p = true := by
  have hevent : F.PL_EVT_STARVED.clear p R.PL_STARVE p = true := Field.clear_of_base rfl rfl (by decide)
  have hrecord (f : Field) (hb : 0xF1000 ≤ f.base ∧ f.base < 0xF1040) (hs : f.stride = 0x40) :
      (s.starved p).get f p = ((s.bump R.PL_STARVE p).raise F.PL_EVT_STARVED p).get f p := by
    refine State.Leaves.get_apart (l := []) (p := []) (((State.Leaves.refl _ _ _).tallyAtMost).emit) (by simp) ?_
    intro q hq
    obtain ⟨hcount, hflag⟩ := lost_apart_pail hb hs hp
    simp only [lostFields, List.nil_append, List.mem_cons, List.not_mem_nil, or_false] at hq
    rcases hq with rfl | rfl
    · exact hcount
    · exact hflag
  constructor
  · rw [hrecord R.PL_STARVE (by decide) rfl, State.get_raise_clear hevent, State.get_bump_max (m := 0xFFFFFFFF) rfl rfl]
  · rw [State.flag, hrecord F.PL_EVT_STARVED (by decide) rfl]
    exact State.flag_raise_same rfl rfl

/-- A read that takes the item at the head. -/
def State.headTaken (s : State) (q : Pail) (p : Nat) (i : Item) : State :=
  (((s.emit (.hwItem p (s.pailBytes q (s.slotAddr q 0) i.len))).rdAdvance q 1).modPail p
    (fun x => { x with items := x.items.drop 1 })).syncPail p

theorem doHwConsumerRead_of_ready {i : Item} {l : List Item} (h : s.pail p = some q) (hi : q.items = i :: l)
    (hphase : i.phase = .ready) (hquiet : s.flt.armed = none) : doHwConsumerRead p s = s.headTaken q p i := by
  have hskip : s.skipVoid p = s := State.skipVoid_of_head h (by rw [hi, List.head?_cons, Option.all_some, hphase]; rfl)
  simp only [doHwConsumerRead, State.headTaken, hskip, h, hi, List.head?_cons, if_pos hphase, State.pailRead_of_quiet hquiet]

theorem State.headTaken_pail {i : Item} (h : s.pail p = some q) :
    (s.headTaken q p i).pail p = some { q with items := q.items.drop 1 } := by
  rw [State.headTaken, State.pail_congr State.syncPail_par]
  exact State.pail_modPail_same (f := fun x => { x with items := x.items.drop 1 }) (fun _ => rfl)
    (State.pail_of_par h State.rdAdvance_par)

theorem State.syncPail_outs : (s.syncPail p).outs = s.outs := by
  unfold State.syncPail
  split
  · rfl
  · simp only [State.putFlag_outs, State.put_outs]

theorem State.headTaken_outs {i : Item} :
    (s.headTaken q p i).outs = s.outs ++ [.hwItem p (s.pailBytes q (s.slotAddr q 0) i.len)] := by
  rw [State.headTaken, State.syncPail_outs]
  rfl

/-- Settles O42: each command by its equation in each case, and the pail it leaves by the rules of a pail's changes. -/
theorem pailProducers : Obligations.PailProducers := by
  refine ⟨fun s p who q h hr hroom => ?_, fun s p who q h hr hfull => ?_, fun s p who q h hr hfull _ hpop => ?_,
    fun s p who seq bytes h => ?_, fun s p seq bytes q h hr hk => ?_, fun s p seq k bytes q h hr hw hk => ?_,
    fun s p q since h hs hroom => ?_, fun s p h => ?_, fun s p q h hi => ?_, fun s p q i l h hi hphase => ?_,
    fun s p q i l h hi hphase hquiet => ?_⟩
  · have hexec := (doPailReserve_of_producer h hr (who := who)).trans (State.reserve_of_room h hroom)
    exact ⟨_, _, congrArg Host.Outcome.next hexec, State.reserved_pail h, rfl, State.reserved_seq h⟩
  · have hexec := (doPailReserve_of_producer h hr.ge (who := who)).trans (State.reserve_of_stall h hr hfull)
    exact ⟨_, _, congrArg Host.Outcome.next hexec, State.pail_modPail_same (fun _ => rfl) h, rfl, rfl,
      (State.Leaves.refl s _ _).modPail (by simp)⟩
  · have hproducer : 2 ≤ q.role := by omega
    have hexec := (doPailReserve_of_producer h hproducer (who := who)).trans (State.reserve_of_overwrite h hr hfull hpop)
    obtain ⟨hcount, hevent⟩ := State.pailLost_shows (s := s.overwritten q p who) (n := (q.items.head?.map Item.seq).getD 0) p.isLt
    rw [State.get_overwritten_lost h] at hcount
    exact ⟨_, _, congrArg Host.Outcome.next hexec, State.pail_of_par (State.overwritten_pail h) State.pailLost_par, rfl, hcount, hevent⟩
  · exact ⟨congrArg Host.Outcome.next (doPailReserve_of_other h), congrArg Host.Outcome.next (doLengthWordWrite_of_other h)⟩
  · exact congrArg Host.Outcome.next ((doLengthWordWrite_of_producer h hr).trans (State.writeItem_of_unreserved h hk))
  · have hproducer : 2 ≤ q.role := by omega
    obtain ⟨i, hget, hphase, hlen⟩ := Pail.fillItem_get (len := min (4 + bytes.length) q.itemBytes) (bytes := bytes) hk
    exact ⟨_, _, i, congrArg Host.Outcome.next (doLengthWordWrite_of_producer h hproducer), State.writeItem_pail h hr hw hk, hget,
      hphase, hlen⟩
  · exact ⟨_, _, congrArg Host.Outcome.next (doProducerResume_of_room h hs hroom), State.resumed_pail h, rfl, rfl, State.resumed_count,
      ((State.Leaves.refl s _ _).add (.inl (by simp))).modPail (by simp)⟩
  · exact congrArg Host.Outcome.next (doProducerResume_of_other h)
  · exact ⟨_, congrArg Host.Outcome.next (doHwConsumerRead_of_empty h hi), rfl, (State.Leaves.refl s _ _).emit⟩
  · obtain ⟨hcount, hevent⟩ := State.starved_shows (s := s) (p := p) (by omega)
    exact ⟨_, congrArg Host.Outcome.next (doHwConsumerRead_of_reserved h hi hphase), List.mem_append_right _ (List.mem_singleton.2 rfl),
      State.starved_leaves.par (by simp), hcount, hevent, State.starved_leaves⟩
  · exact ⟨_, _, congrArg Host.Outcome.next (doHwConsumerRead_of_ready h hi hphase hquiet), State.headTaken_pail h,
      by rw [hi, List.drop_succ_cons, List.drop_zero], State.headTaken_outs⟩

end Sys2Proof.Machine
end

section
/-! PROOFS. PTP messages (O38). -/
namespace Sys2Proof.Machine

variable {s : State} {p : Nat} {m : PtpMessage}

/-! ### Messages received (R349) -/

theorem doPtpMessage_of_other_domain (h : s.ptpActive p = false ∨ m.domain ≠ s.get F.TIM_PTP_CFG_DOMAIN) :
    doPtpMessage p m s = s := by
  have hout : (!s.ptpActive p) = true ∨ m.domain ≠ s.get F.TIM_PTP_CFG_DOMAIN := by simpa using h
  exact if_pos hout

/-- The message is taken: the port takes part in PTP, and its domain is the device's. -/
def State.ptpTakes (s : State) (p : Nat) (m : PtpMessage) : Prop := s.ptpActive p = true ∧ m.domain = s.get F.TIM_PTP_CFG_DOMAIN

/-- The message comes from the parent. -/
def State.fromParent (s : State) (p : Nat) (m : PtpMessage) : Bool := s.tim.parent == some (p, m.source)

theorem State.fromParent_of_parent (h : s.tim.parent = some (p, m.source)) : s.fromParent p m = true := beq_iff_eq.2 h

theorem State.fromParent_of_other (h : s.tim.parent ≠ some (p, m.source)) : s.fromParent p m = false := beq_eq_false_iff_ne.2 h

/-- When the message arrived at the port. -/
def State.arrivedAt (s : State) (p : Nat) : Nat := ((s.now : Int) - s.asym p).toNat

section
variable (ht : s.ptpTakes p m)
include ht

theorem State.ptpTakes.not_out : ¬ ((!s.ptpActive p) = true ∨ m.domain ≠ s.get F.TIM_PTP_CFG_DOMAIN) := by
  simp [ht.1, ht.2]

theorem doPtpMessage_announce {info : MasterSet} (hb : m.body = .announce info) : doPtpMessage p m s = s.ptpAnnounce p m info := by
  rw [doPtpMessage, if_neg ht.not_out, hb]

theorem doPtpMessage_sync {twoStep : Bool} {o : Nat} {c : Int} (hb : m.body = .sync twoStep o c) : doPtpMessage p m s =
    if !s.fromParent p m then s
    else if twoStep then s.modPtp p (fun q => { q with sync := some (m.seq, ((s.arrivedAt p : Int) - c).toNat) })
    else s.ptpOffset p ((o : Int) + c) (s.arrivedAt p) := by
  rw [doPtpMessage, if_neg ht.not_out, hb, State.fromParent, State.arrivedAt]

theorem doPtpMessage_followUp {o seq t2 : Nat} {c : Int} (hb : m.body = .followUp o c) (hsync : (s.ptpPort p).sync = some (seq, t2)) :
    doPtpMessage p m s = if s.fromParent p m && seq == m.seq then s.ptpOffset p ((o : Int) + c) t2 else s := by
  rw [doPtpMessage, if_neg ht.not_out, hb, hsync, State.fromParent]

theorem doPtpMessage_followUp_of_no_sync {o : Nat} {c : Int} (hb : m.body = .followUp o c) (hsync : (s.ptpPort p).sync = none) :
    doPtpMessage p m s = s := by
  rw [doPtpMessage, if_neg ht.not_out, hb, hsync]

theorem doPtpMessage_delayReq {c : Int} (hb : m.body = .delayReq c) (hm : s.portState p = 6) : doPtpMessage p m s =
    s.sendPtp p ptpGroup 320 (s.ptpMessage p 9 0x0008 3 m.seq (c - ((s.arrivedAt p % 65536 : Nat) : Int))
      (logOctet (s.get F.TIM_PTP_CFG_LOG_DREQ)) (stamp10 (s.arrivedAt p) ++ beBytes 10 m.source)) := by
  rw [doPtpMessage, if_neg ht.not_out, hb, State.arrivedAt]
  exact if_pos hm

/-- The path delay of a port is known. -/
def State.delayKnown (s : State) (p : Nat) (d : Int) : State :=
  (s.modPtp p (fun x => { x with dreq := none, delay := some d })).put R.TP_DELAY (ofSigned 32 (d / 256)) p

theorem doPtpMessage_delayResp {recv : Nat} {c ms : Int} {t3 : Nat} (hb : m.body = .delayResp recv c (s.portId p))
    (hp : s.tim.parent = some (p, m.source)) (hd : (s.ptpPort p).dreq = some (m.seq, t3)) (hms : (s.ptpPort p).ms = some ms) :
    doPtpMessage p m s = s.delayKnown p ((ms + ((recv : Int) - c - t3)) / 2) := by
  rw [doPtpMessage, if_neg ht.not_out, hb, hd, hms]
  exact if_pos (by rw [hp, beq_self_eq_true, beq_self_eq_true, beq_self_eq_true]; rfl)

theorem doPtpMessage_other (hb : m.body = .other) : doPtpMessage p m s = s := by
  rw [doPtpMessage, if_neg ht.not_out, hb]

theorem doPtpMessage_sync_of_other (hp : s.tim.parent ≠ some (p, m.source))
    (hb : (∃ b o c, m.body = .sync b o c) ∨ (∃ o c, m.body = .followUp o c)) : doPtpMessage p m s = s := by
  rcases hb with ⟨b, o, c, hb⟩ | ⟨o, c, hb⟩
  · rw [doPtpMessage_sync ht hb, State.fromParent_of_other hp]
    rfl
  · cases hsync : (s.ptpPort p).sync with
    | none => exact doPtpMessage_followUp_of_no_sync ht hb hsync
    | some q =>
      rw [doPtpMessage_followUp ht hb hsync, State.fromParent_of_other hp]
      rfl

end

theorem State.ptpPort_modPtp {f : PtpPort → PtpPort} (hp : p < s.tim.ports.length) : (s.modPtp p f).ptpPort p = f (s.ptpPort p) := by
  simp [State.ptpPort, State.modPtp, List.getD, hp]

theorem State.delayKnown_port {d : Int} (hp : p < s.tim.ports.length) :
    (s.delayKnown p d).ptpPort p = { s.ptpPort p with dreq := none, delay := some d } := by
  rw [State.delayKnown, State.ptpPort, State.put_tim, ← State.ptpPort, State.ptpPort_modPtp hp]

theorem State.delayKnown_register {d : Int} : (s.delayKnown p d).get R.TP_DELAY p = ofSigned 32 (d / 256) % 2 ^ 32 :=
  State.get_put_same rfl

/-! ### Messages sent (R349) -/

theorem State.each_cons {α : Type} {f : α → State → State} {x : α} {l : List α} : s.each (x :: l) f = (f x s).each l f := rfl

/-- Sync and its Follow_Up leave a port in MASTER. -/
def State.syncFrom (p : Nat) (s : State) : State :=
  let q := (s.ptpPort p).seqSync
  let log := logOctet (s.get F.TIM_PTP_CFG_LOG_SYNC)
  let t1 := s.sendPtp p ptpGroup 319 (s.ptpMessage p 0 0x0208 0 q 0 log (List.replicate 10 0))
  let t2 := t1.sendPtp p ptpGroup 320 (t1.ptpMessage p 8 0x0008 2 q ((t1.now % 65536 : Nat) : Int) log (stamp10 t1.now))
  t2.modPtp p (fun x => { x with seqSync := (q + 1) % 65536 })

theorem doSyncSend_eq : doSyncSend s = s.each s.masterPorts State.syncFrom := rfl

/-- Announce leaves a port in MASTER. -/
def State.announceFrom (s : State) (a : MasterSet) (p : Nat) : State :=
  let q := (s.ptpPort p).seqAnn
  (s.sendPtp p ptpGroup 320 (s.ptpMessage p 0xB 0x0008 5 q 0 (logOctet (s.get F.TIM_PTP_CFG_LOG_ANN))
    (List.replicate 10 0 ++ [0, 0, 0, a.prio1, a.cls, a.accuracy] ++ beBytes 2 a.variance ++ [a.prio2] ++ beBytes 8 a.gm ++
      beBytes 2 a.steps ++ [0xA0]))).modPtp p (fun x => { x with seqAnn := (q + 1) % 65536 })

theorem doAnnounceSend_of_unannounced (h : s.announced = none) : doAnnounceSend s = s := by
  simp only [doAnnounceSend, h]

theorem doAnnounceSend_of_no_master (h : s.masterPorts = []) : doAnnounceSend s = s := by
  unfold doAnnounceSend
  split
  · rfl
  · rw [h]
    rfl

/-- With the management message sent less than a second ago, Announce goes alone. -/
theorem doAnnounceSend_of_managed {a : MasterSet} {u : Nat} (h : s.masterPorts = [p]) (ha : s.announced = some a)
    (hu : ((s.announceFrom a p).ptpPort p).managed = some u) (hrecent : (s.announceFrom a p).uptime < u + oneSecond) :
    doAnnounceSend s = s.announceFrom a p := by
  have hwait : ¬ (((((s.announceFrom a p).ptpPort p).managed.map
      (fun u => decide (u + oneSecond ≤ (s.announceFrom a p).uptime))).getD true) = true) := by
    rw [hu, Option.map_some, Option.getD_some, decide_eq_true_eq]
    exact Nat.not_le.2 hrecent
  simp only [State.announceFrom] at hwait ⊢
  simp only [doAnnounceSend, ha, h, State.each_cons, State.each_nil]
  exact if_neg hwait

theorem doDelayReqSend_of_no_parent (h : s.tim.parent = none) : doDelayReqSend s = s := by
  simp only [doDelayReqSend, h]

/-- Where the clock sends its Delay_Req. -/
def State.delayReqTo (s : State) (p src : Nat) : Nat :=
  if s.flag F.TIM_PTP_CFG_DREQ_UNICAST then ((s.tim.foreign.find? (fun f => f.port == p && f.src == src)).map Foreign.ip).getD ptpGroup
  else ptpGroup

theorem doDelayReqSend_of_parent {src : Nat} (h : s.tim.parent = some (p, src)) (ha : s.ptpActive p = true) : doDelayReqSend s =
    (s.sendPtp p (s.delayReqTo p src) 319 (s.ptpMessage p 1 0x0008 1 (s.ptpPort p).seqDreq 0 0x7F (List.replicate 10 0))).modPtp p
      (fun x => { x with seqDreq := ((s.ptpPort p).seqDreq + 1) % 65536, dreq := some ((s.ptpPort p).seqDreq, s.now) }) := by
  have hactive : ¬ ((!s.ptpActive p) = true) := by simp [ha]
  simp only [doDelayReqSend, h, if_neg hactive, State.delayReqTo]

/-- Settles O38: a message received by its body, a message sent by its sender's equation for one port. -/
theorem ptpMessages : Obligations.PtpMessages := by
  refine ⟨fun s p m h => congrArg Host.Outcome.next (doPtpMessage_of_other_domain h), fun s p m hactive hdomain => ?_,
    fun s h => ⟨congrArg Host.Outcome.next ?_, congrArg Host.Outcome.next (doAnnounceSend_of_no_master h)⟩,
    fun s p h => ⟨_, _, _, rfl, rfl, rfl, congrArg Host.Outcome.next ?_⟩,
    fun s p a u h ha => ⟨_, _, rfl, rfl, fun hu hrecent => congrArg Host.Outcome.next (doAnnounceSend_of_managed h ha hu hrecent)⟩,
    fun s h => congrArg Host.Outcome.next (doAnnounceSend_of_unannounced h),
    fun s h => congrArg Host.Outcome.next (doDelayReqSend_of_no_parent h),
    fun s p src h ha => ⟨_, rfl, congrArg Host.Outcome.next (doDelayReqSend_of_parent h ha)⟩⟩
  · have ht : s.ptpTakes p m := ⟨hactive, hdomain⟩
    refine ⟨fun info hb => congrArg Host.Outcome.next (doPtpMessage_announce ht hb), fun o c hb hp => congrArg Host.Outcome.next ?_,
      fun o c hb hp => congrArg Host.Outcome.next ?_, fun o c t2 hb hp hsync => congrArg Host.Outcome.next ?_,
      fun c hb hm => congrArg Host.Outcome.next (doPtpMessage_delayReq ht hb hm), fun recv c ms t3 hb hp hd hms hlen => ?_,
      fun hp hb => congrArg Host.Outcome.next (doPtpMessage_sync_of_other ht hp hb),
      fun hb => congrArg Host.Outcome.next (doPtpMessage_other ht hb)⟩
    · rw [doPtpMessage_sync ht hb, State.fromParent_of_parent hp]
      rfl
    · rw [doPtpMessage_sync ht hb, State.fromParent_of_parent hp]
      rfl
    · rw [doPtpMessage_followUp ht hb hsync, State.fromParent_of_parent hp]
      exact if_pos (by rw [beq_self_eq_true]; rfl)
    · have hport := State.delayKnown_port (d := (ms + ((recv : Int) - c - t3)) / 2) hlen
      exact ⟨_, _, congrArg Host.Outcome.next (doPtpMessage_delayResp ht hb hp hd hms), rfl, congrArg PtpPort.delay hport,
        congrArg PtpPort.dreq hport, State.delayKnown_register, ((State.Leaves.refl s _ _).modPtp (by simp)).put (.inl (by simp))⟩
  · rw [doSyncSend_eq, h, State.each_nil]
  · rw [doSyncSend_eq, h]
    rfl

end Sys2Proof.Machine
end

section
/-! PROOFS. Direct-drive ports are enabled, walked and tested (O34). -/
namespace Sys2Proof.Machine

variable {s : State} {p : Nat}

/-- A register below an array shares nothing with its elements. -/
theorem Field.clear_of_lt {f g : Field} {i j : Nat} (hf : f.fits = true) (h : f.addr i < g.base) : f.clear i g j = true :=
  Field.clear_of_addr hf (Nat.ne_of_lt (Nat.lt_of_lt_of_le h (Nat.le_add_right _ _)))

theorem portField_low {f : Field} (hb : f.base < 0xC0000) (hs : f.stride = 0x40) (hp : p < 32) : f.addr p < 0x170000 := by
  simp only [Field.addr, hs]
  omega

/-! ### Enabling (R335) -/

theorem doPortEnable_of_same {on : Bool} (h : s.ddEnabled p = on) : doPortEnable p on s = s :=
  if_pos h.symm

/-- An enable is refused for a reason of R335. -/
def State.enableRefused (s : State) (p r : Nat) : State := ((s.put F.P_STAT_REJECT r p).raise F.DDP_EVT_EN_REJECT).tally 0x0B01 [p, r]

theorem doPortEnable_refused (h : s.ddEnabled p = false) (hr : (firstFail (s.enableChecks p)).1 ≠ 0) :
    doPortEnable p true s = s.enableRefused p (firstFail (s.enableChecks p)).1 := by
  have hon : ¬ true = s.ddEnabled p := by simp [h]
  rw [doPortEnable, if_neg hon, if_pos rfl]
  exact if_pos hr

theorem State.enableRefused_reason {r : Nat} (hp : p < 32) (hr : r < 8) : (s.enableRefused p r).get F.P_STAT_REJECT p = r := by
  have hevent : F.DDP_EVT_EN_REJECT.clear 0 F.P_STAT_REJECT p = true := Field.clear_of_lt rfl (by decide)
  rw [State.enableRefused, State.get_tally_low (portField_low (by decide) rfl hp), State.get_raise_clear hevent,
    State.get_put_of_lt rfl hr]

theorem State.enableRefused_enabled {r : Nat} (hp : p < 32) : (s.enableRefused p r).ddEnabled p = s.ddEnabled p := by
  have hevent : F.DDP_EVT_EN_REJECT.clear 0 F.P_CTL_EN p = true := Field.clear_of_lt rfl (by decide)
  have hreason : F.P_STAT_REJECT.clear p F.P_CTL_EN p = true := Field.clear_of_base rfl rfl (by decide)
  rw [State.enableRefused, State.ddEnabled, State.flag_tally_low (portField_low (by decide) rfl hp), State.flag_raise_clear hevent,
    State.flag_put_clear hreason, State.ddEnabled]

theorem State.enableRefused_event {r : Nat} : (s.enableRefused p r).flag F.DDP_EVT_EN_REJECT = true := by
  rw [State.enableRefused, State.flag_tally_clear rfl rfl, State.flag_raise_same rfl rfl]

theorem State.enableRefused_records {r : Nat} : s.Records [(0x0B01, [p, r])] (s.enableRefused p r) :=
  State.Records.one (State.raise_tly.trans State.put_tly)

theorem State.enableRefused_leaves {r : Nat} :
    s.Leaves [(F.P_STAT_REJECT, p), (F.DDP_EVT_EN_REJECT, 0)] [] (s.enableRefused p r) :=
  (((State.Leaves.refl s _ _).put (.inl (by simp))).raise (.inl (by simp))).tally

/-- EN is in a register of its own beside the port's state. -/
theorem State.ddState_enable {on : Bool} : (s.putFlag F.P_CTL_EN on p).ddState p = s.ddState p :=
  State.get_putFlag_clear (Field.clear_of_base rfl rfl (by decide))

theorem doPortEnable_on (h : s.ddEnabled p = false) (hr : (firstFail (s.enableChecks p)).1 = 0) :
    doPortEnable p true s =
      (if s.ddState p = 7 then s.putFlag F.P_CTL_EN true p else (s.putFlag F.P_CTL_EN true p).ddBegin p).refreshDd := by
  have hon : ¬ true = s.ddEnabled p := by simp [h]
  have hpass : ¬ (firstFail (s.enableChecks p)).1 ≠ 0 := not_not_intro hr
  rw [doPortEnable, if_neg hon, if_pos rfl, ← State.ddState_enable (s := s) (on := true)]
  exact if_neg hpass

theorem doPortEnable_off (h : s.ddEnabled p = true) : doPortEnable p false s =
    (if [2, 3, 4, 5].contains (s.ddState p) then
        (s.putFlag F.P_CTL_EN false p).modDd p (fun d => { d with stopAt := some s.sys.nextS })
      else if s.ddState p = 7 then s.putFlag F.P_CTL_EN false p
      else ((s.putFlag F.P_CTL_EN false p).ddClear p).ddEnter p 0).refreshDd := by
  have hoff : ¬ false = s.ddEnabled p := by simp [h]
  rw [doPortEnable, if_neg hoff, if_neg Bool.false_ne_true, ← State.ddState_enable (s := s) (on := false)]
  dsimp only
  rw [State.putFlag_sys]

/-! ### Commands of a port that is not enabled (R345) -/

theorem ddCommand_of_disabled {c : Instr} {p : Fin 32} (h : s.ddEnabled p = false)
    (hc : c ∈ [Instr.startUpWalk p none, .releaseBlanked p, .testStart p, .testEnd p]) :
    exec c s = .next (s.raise F.DDP_EVT_CMD_REJECT) := by
  have htest : (s.ddEnabled p = false || s.power != 3) = true := by simp [h]
  simp only [List.mem_cons, List.not_mem_nil, or_false] at hc
  rcases hc with rfl | rfl | rfl | rfl
  · exact congrArg Host.Outcome.next (if_pos h)
  · exact congrArg Host.Outcome.next (if_pos h)
  · exact congrArg Host.Outcome.next (if_pos htest)
  · exact congrArg Host.Outcome.next (if_pos h)

/-! ### Walks (R342, R343) -/

theorem doStartUpWalk_of_short {f : PinFind} (h : s.ddEnabled p = true) : doStartUpWalk p (some f) s = s.pinShort p 0 f := by
  have hon : ¬ s.ddEnabled p = false := by simp [h]
  exact if_neg hon

theorem doStartUpWalk_of_sound (h : s.ddEnabled p = true) :
    doStartUpWalk p none s = if s.ddState p = 6 then s.ddBegin p else s := by
  have hon : ¬ s.ddEnabled p = false := by simp [h]
  exact if_neg hon

theorem doIdleWalk_none : doIdleWalk p none s = s := by
  unfold doIdleWalk
  split <;> rfl

theorem doIdleWalk_of_driving {f : PinFind} (h : s.ddEnabled p = true) (hd : s.ddState p ∈ [2, 3, 4, 5]) :
    doIdleWalk p (some f) s = s.pinShort p 1 f := by
  have hwalk : (s.ddEnabled p && [2, 3, 4, 5].contains (s.ddState p)) = true := by
    rw [h, Bool.true_and]
    exact List.contains_iff_mem.2 hd
  exact if_pos hwalk

/-! ### Release and test (R334, R339) -/

theorem doReleaseBlanked_of_enabled (h : s.ddEnabled p = true) : doReleaseBlanked p s =
    { s with ddp := { s.ddp with releasing := (s.ddp.releasing ++
      ((groupsOf s.cmd.chans p).map Chan.index).filter (fun i => s.flag F.G_STAT_BLANKED i)).eraseDups } } := by
  have hon : ¬ s.ddEnabled p = false := by simp [h]
  exact if_neg hon

theorem doTestStart_of_enabled (h : s.ddEnabled p = true) (hshow : s.power = 3) :
    doTestStart p s = s.modDd p (fun d => { d with testAt := some (s.sys.nextS, true) }) := by
  have hon : ¬ (s.ddEnabled p = false || s.power != 3) = true := by simp [h, hshow]
  exact if_neg hon

theorem doTestEnd_of_enabled (h : s.ddEnabled p = true) :
    doTestEnd p s = s.modDd p (fun d => { d with testAt := some (s.sys.nextS, false) }) := by
  have hon : ¬ s.ddEnabled p = false := by simp [h]
  exact if_neg hon

theorem State.ddPort_modDd {f : DdPort → DdPort} (hp : p < s.ddp.ports.length) : (s.modDd p f).ddPort p = f (s.ddPort p) := by
  simp [State.ddPort, State.modDd, List.getD, hp]

/-- Settles O34: each command by its equation in the port's state. -/
theorem directDrivePorts : Obligations.DirectDrivePorts := by
  refine ⟨fun s p on h => congrArg Host.Outcome.next (doPortEnable_of_same h), fun s p r h hr hne hlt => ?_, fun s p h hr => ?_,
    fun s p h => ?_, fun s p h c hc => ?_, fun s p f h => ?_, fun s p => congrArg Host.Outcome.next doIdleWalk_none,
    fun s p h => ?_⟩
  · subst hr
    exact ⟨_, congrArg Host.Outcome.next (doPortEnable_refused h hne), State.enableRefused_reason p.isLt hlt,
      (State.enableRefused_enabled p.isLt).trans h, State.enableRefused_event, State.enableRefused_records, State.enableRefused_leaves⟩
  · have hexec := doPortEnable_on h hr
    refine ⟨_, rfl, fun hfenced => congrArg Host.Outcome.next ?_, fun hfree => congrArg Host.Outcome.next ?_⟩
    · rw [hexec, if_pos hfenced]
    · rw [hexec, if_neg hfree]
  · have hexec := doPortEnable_off h
    refine ⟨_, rfl, fun hdriving => congrArg Host.Outcome.next ?_, fun hfenced => congrArg Host.Outcome.next ?_,
      fun hidle => congrArg Host.Outcome.next ?_⟩
    · rw [hexec, if_pos (List.contains_iff_mem.2 hdriving)]
    · have hquiet : ¬ [2, 3, 4, 5].contains (s.ddState p) = true := by rw [hfenced]; decide
      rw [hexec, if_neg hquiet, if_pos hfenced]
    · simp only [List.mem_cons, List.not_mem_nil, or_false] at hidle
      have hquiet : ¬ [2, 3, 4, 5].contains (s.ddState p) = true := by rcases hidle with e | e | e <;> rw [e] <;> decide
      have hfree : s.ddState p ≠ 7 := by omega
      rw [hexec, if_neg hquiet, if_neg hfree]
  · exact ⟨_, ddCommand_of_disabled h hc, State.flag_raise_same rfl rfl, (State.Leaves.refl s _ _).raise (.inl (by simp))⟩
  · refine ⟨congrArg Host.Outcome.next (doStartUpWalk_of_short h), fun hshort => congrArg Host.Outcome.next ?_,
      fun hfree => congrArg Host.Outcome.next ?_, fun hd => congrArg Host.Outcome.next (doIdleWalk_of_driving h hd)⟩
    · exact (doStartUpWalk_of_sound h).trans (if_pos hshort)
    · exact (doStartUpWalk_of_sound h).trans (if_neg hfree)
  · exact ⟨⟨_, congrArg Host.Outcome.next (doReleaseBlanked_of_enabled h), rfl, (State.Leaves.refl s _ _).ddpTo (by simp)⟩,
      fun hshow hp => ⟨_, congrArg Host.Outcome.next (doTestStart_of_enabled h hshow), State.ddPort_modDd hp,
        (State.Leaves.refl s _ _).modDd (by simp)⟩,
      fun hp => ⟨_, congrArg Host.Outcome.next (doTestEnd_of_enabled h), State.ddPort_modDd hp,
        (State.Leaves.refl s _ _).modDd (by simp)⟩⟩

end Sys2Proof.Machine
end

section
/-! PROOFS. Direct-drive shifts, edges and sensors (O35). -/
namespace Sys2Proof.Machine

variable {s : State} {n p : Nat} {w : FrameWork}

/-! ### Shifts (R327, R330, R334) -/

/-- The port has still to shift the frame. -/
def State.awaitsShift (s : State) (p n : Nat) : Prop := s.ddShifts p n = true ∧ (s.ddPort p).done ≠ some n

theorem State.awaitsShift.not_skipped (h : s.awaitsShift p n) (hw : w.active = true) :
    ¬ (w.active = false || !s.ddShifts p n || (s.ddPort p).done == some n) = true := by
  have hdone : ((s.ddPort p).done == some n) = false := beq_eq_false_iff_ne.2 h.2
  rw [hw, h.1, hdone]
  decide

theorem doDdShift_of_due {conf faults : List Nat} (hf : s.frameWork n = some w) (hw : w.active = true) (h : s.awaitsShift p n) :
    doDdShift n p conf faults s =
      if ((s.atTime (s.eAt n)).directWrite w p).shiftWindow < ((s.atTime (s.eAt n)).directWrite w p).shiftTime p then
        ((s.atTime (s.eAt n)).directWrite w p).shiftLate p n
      else ((s.atTime (s.eAt n)).directWrite w p).fullShift w.chans p n n n conf faults := by
  have hlive : ¬ (s.ddState p = 4 && !(w.active && s.ddShifts p n)) = true := by rw [hw, h.1]; simp
  simp only [doDdShift, hf]
  rw [if_neg hlive, if_neg (h.not_skipped hw)]

theorem doShiftLate_of_due (hf : s.frameWork n = some w) (hw : w.active = true) (h : s.awaitsShift p n) :
    doShiftLate n p s = ((s.atTime (s.showAt n - s.adv - 50000 * 65536)).directWrite w p).shiftLate p n := by
  simp only [doShiftLate, hf]
  rw [if_neg (h.not_skipped hw)]

theorem doDdShift_of_hold {conf faults : List Nat} (hf : s.frameWork n = some w) (hw : w.active = false) (hd : s.ddState p = 4)
    (he : s.ddEnabled p = true) : doDdShift n p conf faults s = (s.atTime (s.showAt n)).holdShift p n conf faults := by
  have hheld : (s.ddState p = 4 && !(w.active && s.ddShifts p n)) = true := by rw [hw, hd]; rfl
  simp only [doDdShift, hf]
  rw [if_pos hheld, if_pos he]

theorem doDdShift_of_no_frame {conf faults : List Nat} (hf : s.frameWork n = none) : doDdShift n p conf faults s = s := by
  simp only [doDdShift, hf]

theorem doShiftLate_of_no_frame (hf : s.frameWork n = none) : doShiftLate n p s = s := by
  simp only [doShiftLate, hf]

/-! ### Edges of DD_SYNC (R329) -/

theorem doDdSyncEdge_of_early (h : s.ddp.lastEdge ≠ 0) (hu : s.uptime < s.ddp.lastEdge + 1000000) : doDdSyncEdge s = s :=
  if_pos ⟨h, hu⟩

/-- An accepted edge is noted. -/
def State.edgeNoted (s : State) : State :=
  ({ s with ddp := { s.ddp with lastEdge := s.uptime } } : State).putFlag F.DDP_STAT_SYNC_LOST false

theorem doDdSyncEdge_of_edge (h : s.ddp.lastEdge = 0 ∨ s.ddp.lastEdge + 1000000 ≤ s.uptime) :
    doDdSyncEdge s = s.edgeNoted.each (List.range 32) (fun p t => t.ddEdge p) := by
  have hlate : ¬ (s.ddp.lastEdge ≠ 0 ∧ s.uptime < s.ddp.lastEdge + 1000000) := by
    rintro ⟨hne, hlt⟩
    rcases h with h | h
    · exact hne h
    · exact absurd hlt (Nat.not_lt.2 h)
  exact if_neg hlate

theorem State.edgeNoted_ddp : s.edgeNoted.ddp = { s.ddp with lastEdge := s.uptime } := State.putFlag_ddp

/-- The edges have stopped for 1 s. -/
def State.edgesLost (s : State) : State :=
  ((s.putFlag F.DDP_STAT_SYNC_LOST true).raise F.DDP_EVT_SYNC_LOST).tally 0x0B07 [(s.uptime - s.ddp.lastEdge) / oneSecond]

theorem doSyncLost_of_waiting (hs : s.flag F.DDP_STAT_SYNC_LOST = false) (hp : p < 32) (he : s.ddEnabled p = true)
    (hsrc : s.flag F.P_CTL_SYNC_SRC p = true) : doSyncLost s = (s.atUptime (s.ddp.lastEdge + oneSecond)).edgesLost := by
  have hwaits : (List.range 32).any (fun p => s.ddEnabled p && s.flag F.P_CTL_SYNC_SRC p) = true :=
    List.any_eq_true.2 ⟨p, List.mem_range.2 hp, by rw [he, hsrc]; rfl⟩
  have hdue : ¬ (s.flag F.DDP_STAT_SYNC_LOST ||
      !(List.range 32).any (fun p => s.ddEnabled p && s.flag F.P_CTL_SYNC_SRC p)) = true := by
    rw [hs, hwaits]
    decide
  rw [doSyncLost, if_neg hdue, State.edgesLost]

theorem State.edgesLost_shows : s.edgesLost.flag F.DDP_STAT_SYNC_LOST = true ∧ s.edgesLost.flag F.DDP_EVT_SYNC_LOST = true := by
  constructor
  · rw [State.edgesLost, State.flag_tally_clear rfl rfl, State.flag_raise_clear rfl, State.flag_putFlag_same rfl rfl]
  · rw [State.edgesLost, State.flag_tally_clear rfl rfl, State.flag_raise_same rfl rfl]

theorem State.edgesLost_uptime : s.edgesLost.uptime = s.uptime := by
  rw [State.edgesLost, State.tally_uptime, State.raise_uptime, State.putFlag_uptime]

theorem oneSecond_eq : oneSecond = 1000000000 := (rfl)

theorem doSyncLost_spec (hs : s.flag F.DDP_STAT_SYNC_LOST = false) (hp : p < 32) (he : s.ddEnabled p = true)
    (hsrc : s.flag F.P_CTL_SYNC_SRC p = true) : (doSyncLost s).uptime = max s.uptime (s.ddp.lastEdge + 1000000000) ∧
      s.Leaves [(F.DDP_STAT_SYNC_LOST, 0), (F.DDP_EVT_SYNC_LOST, 0)] [.time] (doSyncLost s) := by
  rw [doSyncLost_of_waiting hs hp he hsrc]
  constructor
  · rw [State.edgesLost_uptime, State.atUptime_uptime, oneSecond_eq]
  · exact ((((State.Leaves.refl s _ _).atUptime (by simp)).putFlag (.inl (by simp))).raise (.inl (by simp))).tally

/-! ### Sensors (R341) -/

/-- The sensed groups of a port whose window ends at a frame. -/
def State.windowsEnding (s : State) (n p : Nat) : List (Chan × Chan) :=
  (s.sensedGroups p).filter (fun q => q.2.calWindow != 0 && decide (n % q.2.calWindow = 0))

/-- The windows that they begin. -/
def windowNumbers (n : Nat) (gs : List (Chan × Chan)) : List Nat := (gs.map (fun q => n / q.2.calWindow % 2 ^ 32)).eraseDups

/-- The block write of a window number on a port's sense bus. -/
def senseWrite (p w : Nat) : Out := .sense p ([0x00, 0xD0, 4] ++ leBytes 4 w ++ [smbusPec ([0x00, 0xD0, 4] ++ leBytes 4 w)])

theorem doSenseWindow_of_ending (h : s.windowsEnding n p ≠ []) : doSenseWindow n p false s =
    (s.atTime (s.showAt n)).each (windowNumbers n (s.windowsEnding n p)) (fun w t => t.emit (senseWrite p w)) := by
  rw [State.windowsEnding] at h ⊢
  unfold doSenseWindow
  dsimp only
  split
  · next hnone => exact absurd hnone h
  · rfl

/-- Sends one after another append to what was sent. -/
theorem State.each_emit_outs {α : Type} {l : List α} {f : α → Out} : (s.each l (fun x t => t.emit (f x))).outs = s.outs ++ l.map f := by
  induction l generalizing s with
  | nil => exact (List.append_nil _).symm
  | cons x l ih =>
    have hemit : (s.emit (f x)).outs = s.outs ++ [f x] := rfl
    rw [State.each_cons, ih, hemit, List.append_assoc, List.singleton_append, List.map_cons]

theorem State.atTime_reached {t : Nat} : t ≤ (s.atTime t).now := by
  unfold State.atTime
  split
  · exact Nat.le_refl _
  · exact Nat.le_of_not_lt ‹_›

theorem State.each_emit_now {α : Type} {l : List α} {f : α → Out} : (s.each l (fun x t => t.emit (f x))).now = s.now :=
  State.each_proj (g := State.now) fun _ _ _ => rfl

theorem State.Leaves.each_emit {t : State} {fields : List (Field × Nat)} {parts : List Part} {α : Type} {l : List α} {f : α → Out}
    (h : s.Leaves fields parts t) : s.Leaves fields parts (t.each l (fun x u => u.emit (f x))) :=
  h.each fun _ _ _ hu => hu.emit

/-- The window number that a sensor's report must carry: that of the window that ended last. -/
def State.lastWindow (s : State) (z : Chan) : Nat := (s.frameNum / max 1 z.calWindow - 1) % 2 ^ 32

/-- What the two reads of a sensor come to. -/
def State.sensorResult (s : State) (c : Chan) (wno : Nat) (a b : SenseRead) : State :=
  match readOf wno a with
  | .inr r => s.sensorReport c wno r
  | .inl _ =>
    match readOf wno b with
    | .inr r => s.sensorReport c wno r
    | .inl cause => s.senseErr c cause

theorem doSensorRead_of_sensed {i : Nat} {a b : SenseRead} {c : Chan} {q : Chan × Chan}
    (hc : s.cmd.latched.find? (fun c => c.kind == kDdgroup && c.index == i) = some c)
    (hq : (s.sensedGroups c.ddPortNo).find? (fun q => q.1.index == i) = some q) (hw : s.frameNum / max 1 q.2.calWindow ≠ 0) :
    doSensorRead i a b s = s.sensorResult c (s.lastWindow q.2) a b := by
  simp only [doSensorRead, hc, hq]
  rw [if_neg hw]
  rfl

theorem State.senseErr_spec {c : Chan} {l : Nat} : (s.senseErr c l).flag F.DDP_EVT_SENSE_ERR = true ∧
    s.Records [(0x0B09, [c.index, l])] (s.senseErr c l) ∧ s.Leaves [(F.DDP_EVT_SENSE_ERR, 0)] [] (s.senseErr c l) :=
  State.raise_tally_shows rfl rfl (lost_apart_low (by decide))

/-- Settles O35: each command by its equation in each case. -/
theorem directDriveShifts : Obligations.DirectDriveShifts := by
  refine ⟨fun s n p conf faults w hf hw hs hd => ⟨_, rfl, fun hlate => congrArg Host.Outcome.next ?_,
      fun hfits => congrArg Host.Outcome.next ?_, congrArg Host.Outcome.next (doShiftLate_of_due hf hw ⟨hs, hd⟩)⟩,
    fun s n p conf faults w hf hw hd he => congrArg Host.Outcome.next (doDdShift_of_hold hf hw hd he),
    fun s n p conf faults hf => ⟨congrArg Host.Outcome.next (doDdShift_of_no_frame hf), congrArg Host.Outcome.next (doShiftLate_of_no_frame hf)⟩,
    fun s h hu => congrArg Host.Outcome.next (doDdSyncEdge_of_early h hu),
    fun s h => ⟨s.edgeNoted, State.flag_putFlag_same rfl rfl, State.edgeNoted_ddp,
      ((State.Leaves.refl s _ _).ddpTo (by simp)).putFlag (.inl (by simp)), congrArg Host.Outcome.next (doDdSyncEdge_of_edge h)⟩,
    fun s p hs he hsrc => ?_, fun s n p h => ?_, fun s i a b c q hc hq hw => ?_⟩
  · exact (doDdShift_of_due hf hw ⟨hs, hd⟩).trans (if_pos hlate)
  · exact (doDdShift_of_due hf hw ⟨hs, hd⟩).trans (if_neg (Nat.not_lt.2 hfits))
  · obtain ⟨huptime, hleaves⟩ := doSyncLost_spec hs p.isLt he hsrc
    obtain ⟨hlost, hevent⟩ := (s.atUptime (s.ddp.lastEdge + oneSecond)).edgesLost_shows
    rw [← doSyncLost_of_waiting hs p.isLt he hsrc] at hlost hevent
    exact ⟨_, rfl, huptime, hlost, hevent, hleaves⟩
  · refine ⟨_, congrArg Host.Outcome.next (doSenseWindow_of_ending h), ?_, ((State.Leaves.refl s _ _).atTime (by simp)).each_emit, ?_⟩
    · rw [State.each_emit_now]
      exact State.atTime_reached
    · rw [State.each_emit_outs, State.atTime_outs]
      rfl
  · have hexec := doSensorRead_of_sensed (a := a) (b := b) hc hq hw
    refine ⟨fun r ha => congrArg Host.Outcome.next ?_, fun k r ha hb => congrArg Host.Outcome.next ?_, fun k l ha hb => ?_⟩
    · rw [hexec, State.sensorResult, State.lastWindow, ha]
    · rw [hexec, State.sensorResult, State.lastWindow, ha, hb]
    · have herr : doSensorRead i a b s = s.senseErr c l := by rw [hexec, State.sensorResult, State.lastWindow, ha, hb]
      exact ⟨_, congrArg Host.Outcome.next herr, State.senseErr_spec⟩

end Sys2Proof.Machine
end

section
/-! PROOFS. A received frame passes the steps in order (O40). -/
namespace Sys2Proof.Machine

variable {s : State} {l : Nat} {f : RxFrame}

theorem doFrameReceive_of_deaf (h : s.dormant = true ∨ s.linkUp l = false) : doFrameReceive l f s = s := by
  have hdeaf : (s.dormant || !s.linkUp l) = true := by
    rcases h with h | h <;> rw [h]
    · exact Bool.true_or _
    · exact Bool.or_true _
  exact if_pos hdeaf

/-- A frame that has come over a link: its FEC counts are added, and the link's pause is brought up to date. -/
def State.fecCounted (s : State) (l : Nat) (f : RxFrame) : State :=
  ((s.add R.NL_FEC_CORR f.fecCorr l).add R.NL_FEC_UNCORR f.fecUncorr l).settleLink l

/-- MGMT counts a frame that matches a wake filter. -/
def State.wakeSeen (s : State) (l : Nat) (f : RxFrame) : State :=
  if l = 24 ∧ (s.wakeMatch f).isSome = true then s.bump F.NET_WAKE_STAT_SEEN else s

/-- With no injection armed the frame reaches the MAC as it came. -/
theorem doFrameReceive_of_quiet (hawake : s.dormant = false) (hup : s.linkUp l = true) (hquiet : s.flt.armed = none) :
    doFrameReceive l f s = ((s.fecCounted l f).wakeSeen l f).frameArrives l f := by
  have hhears : ¬ (s.dormant || !s.linkUp l) = true := by rw [hawake, hup]; decide
  have hsame : ({ f with codeBad := f.codeBad || false, bytes := f.bytes } : RxFrame) = f := by rw [Bool.or_false]
  rw [doFrameReceive, if_neg hhears]
  simp only [State.opportunity_of_quiet hquiet, Bool.false_eq_true, if_false, hsame, State.fecCounted, State.wakeSeen]
  rfl

/-! ### The steps at the MAC (R374, R375) -/

/-- What becomes of a frame that has passed the Strainer, by its consumer. -/
def State.claimed (s : State) (l : Nat) (f : RxFrame) : Claim → State
  | .unclaimed => s.bump R.NL_UNCLAIMED l
  | .ownCopy => s
  | .filtered => s.bump R.ING_FILTERED
  | .taken => s.takeFrame l f

theorem State.frameArrives_damaged (h : f.flags ≠ 0) : s.frameArrives l f = s.damagedFrame l f := if_pos h

theorem State.frameArrives_control (h : f.flags = 0) (ht : f.etype = 0x8808) : s.frameArrives l f =
    if f.be (f.typeAt + 2) 2 = 1 then s.pauseFrame l f false
    else if f.be (f.typeAt + 2) 2 = 0x0101 then s.pauseFrame l f true else s.bump R.NL_STRAINED l := by
  rw [State.frameArrives, if_neg (not_not_intro h), if_pos ht]

section
variable (h : f.flags = 0) (ht : f.etype ≠ 0x8808)
include h ht

theorem State.frameArrives_strained (hs : s.strainerPass l f = false) : s.frameArrives l f = s.bump R.NL_STRAINED l := by
  rw [State.frameArrives, if_neg (not_not_intro h), if_neg ht, if_pos hs]

theorem State.frameArrives_passed (hs : s.strainerPass l f = true) : s.frameArrives l f = s.claimed l f (s.claim l f) := by
  have hpass : ¬ s.strainerPass l f = false := by rw [hs]; decide
  refine ((if_neg (not_not_intro h)).trans (if_neg ht)).trans ((if_neg hpass).trans ?_)
  cases s.claim l f <;> rfl

end

/-! ### Damage (R374) -/

/-- A detection counts nothing of a link. -/
theorem State.get_detect_link {g : Field} {id : Nat} (hb : g.base < 0xE0000) (hs : g.stride = 0x400) (hl : l < 25) :
    (s.detect id).get g l = s.get g l := by
  have hlow : g.addr l < 0x160000 := by
    simp only [Field.addr, hs]
    omega
  have hcount : 0x160000 ≤ F.FLT_DET_COUNT.addr id := Nat.le_trans (by decide) (Nat.le_add_right _ _)
  have hevent : 0x160000 ≤ F.FLT_EVT_DETECTED.addr 0 := by decide
  rw [State.detect, State.get_raise_clear (Field.clear_of_addr rfl (by omega)), State.get_bump_clear (Field.clear_of_addr rfl (by omega))]

/-- Which test a damaged frame fails first, on a link that neither delivers errors nor serves a ring. -/
theorem State.damagedFrame_of_plain (he : s.flag F.NL_CTL_ERR_DELIVER l = false) (hr : s.hasRole (linkPort l) 1 = false) :
    s.damagedFrame l f =
      if f.codeBad then (s.detect 0x1A).bump R.NL_CODE_ERR l
      else if f.bytes.length < 64 then s.bump R.NL_RUNT l
      else if 9216 < f.bytes.length then s.bump R.NL_OVERSIZE l
      else (s.detect 0x1B).bump R.NL_FCS_ERR l := by
  have hring : ¬ (false && bitAt f.flags 3 && (s.ringChan (l / 2)).isSome) = true := by simp
  simp only [State.damagedFrame, he, hr, Bool.false_eq_true, if_false, if_neg hring]

theorem State.bump_detect_link {g : Field} {id : Nat} (hf : g.fits = true) (hw : 2 ^ g.width - 1 = 0xFFFFFFFF)
    (hb : g.base < 0xE0000) (hs : g.stride = 0x400) (hl : l < 25) :
    ((s.detect id).bump g l).get g l = min 0xFFFFFFFF (s.get g l + 1) := by
  rw [State.get_bump_max hf hw, State.get_detect_link hb hs hl]

/-- Settles O40: a link that hears nothing and the first failing step by the branches of the reception, the damage by what the
counts leave of one another. -/
theorem framesPassTheSteps : Obligations.FramesPassTheSteps := by
  refine ⟨fun s l f h => congrArg Host.Outcome.next (doFrameReceive_of_deaf h), fun s x u l f hawake hup hquiet hx hu => ?_,
    fun s l f he hr => ?_⟩
  · have hexec : doFrameReceive l f s = u.frameArrives l f := by
      rw [doFrameReceive_of_quiet hawake hup hquiet, hu, hx]
      rfl
    refine ⟨fun hd => congrArg Host.Outcome.next (hexec.trans (State.frameArrives_damaged hd)),
      fun hg ht => congrArg Host.Outcome.next (hexec.trans (State.frameArrives_control hg ht)),
      fun hg ht hs => congrArg Host.Outcome.next (hexec.trans (State.frameArrives_strained hg ht hs)), fun hg ht hs => ?_⟩
    have hpassed := hexec.trans (State.frameArrives_passed hg ht hs)
    refine ⟨fun hc => congrArg Host.Outcome.next ?_, fun hc => congrArg Host.Outcome.next ?_,
      fun hc => congrArg Host.Outcome.next ?_, fun hc => congrArg Host.Outcome.next ?_⟩ <;> rw [hpassed, hc] <;> rfl
  · have hfirst := State.damagedFrame_of_plain (f := f) he hr
    refine ⟨fun hcode => ?_, fun hcode hrunt => ?_, fun hcode hover => ?_, fun hcode hmin hmax => ?_⟩ <;> rw [hfirst, hcode]
    · exact State.bump_detect_link rfl rfl (by decide) rfl l.isLt
    · rw [if_neg Bool.false_ne_true, if_pos hrunt, State.get_bump_max (m := 0xFFFFFFFF) rfl rfl]
    · have hlong : ¬ f.bytes.length < 64 := by omega
      rw [if_neg Bool.false_ne_true, if_neg hlong, if_pos hover, State.get_bump_max (m := 0xFFFFFFFF) rfl rfl]
    · rw [if_neg Bool.false_ne_true, if_neg (Nat.not_lt.2 hmin), if_neg (Nat.not_lt.2 hmax)]
      exact State.bump_detect_link rfl rfl (by decide) rfl l.isLt

end Sys2Proof.Machine
end

section
/-! PROOFS. Heartbeats, fences and roles of a pair (O54). -/
namespace Sys2Proof.Machine

variable {s u : State} {b : Bool} {hb : Heartbeat} {info : Option PartnerInfo}

/-! ### Out of a pair -/

theorem heartbeats_of_unpaired (h : s.pairOn = false) : doBellAHeartbeat s = s ∧ doBellBHeartbeat s = s ∧
    doHeartbeatReceive b hb info s = s ∧ doBellSilent b s = s := by
  refine ⟨?_, ?_, ?_, ?_⟩
  · simp [doBellAHeartbeat, h]
  · simp [doBellBHeartbeat, h]
  · simp [doHeartbeatReceive, h]
  · simp [doBellSilent, h]

theorem fences_of_unpaired {p : Nat} {ok : Bool} (h : s.pairOn = false) : doFencePulse s = s ∧ doFenceInPulse s = s ∧
    doFenceAlarm s = s ∧ doSeekTimeout s = s ∧ doLinkLoopbackTest p ok s = s := by
  refine ⟨?_, ?_, ?_, ?_, ?_⟩
  · simp [doFencePulse, h]
  · simp [doFenceInPulse, h]
  · simp [doFenceAlarm, h]
  · simp [doSeekTimeout, h]
  · simp [doLinkLoopbackTest, h]

/-! ### Heartbeats received (R462 to R468) -/

/-- What a device does at its partner's heartbeat, by its role. -/
def State.answerHeartbeat (s : State) (hb : Heartbeat) : State :=
  match s.redRole with
  | 0 => if hb.role = 1 then s.becomeStandby hb else if hb.role = 0 ∧ s.winsSeek hb = true then s.becomeActive else s
  | 1 => s.activeHears hb
  | 2 => s.standbyHears hb
  | _ => s

/-- A pair that was not formed before and is formed now is recorded. -/
def State.noteFormed (s : State) (was : Bool) : State :=
  if s.formed && !was then s.tally 0x1100 [s.redRole, s.partnerId, s.get R.DVL_EPOCH] else s

theorem State.noteFormed_of_formed : s.noteFormed true = s := if_neg (by simp)

theorem State.noteFormed_of_forming (h : s.formed = true) :
    s.noteFormed false = s.tally 0x1100 [s.redRole, s.partnerId, s.get R.DVL_EPOCH] := if_pos (by rw [h]; rfl)

theorem State.noteFormed_of_unformed {was : Bool} (h : s.formed = false) : s.noteFormed was = s := if_neg (by rw [h]; simp)

/-- A fenced device is of no formed pair. -/
theorem State.formed_of_fenced (h : 3 ≤ s.redRole) : s.formed = false := by
  have hactive : (s.redRole == 1) = false := beq_eq_false_iff_ne.2 (by omega)
  have hstandby : (s.redRole == 2) = false := beq_eq_false_iff_ne.2 (by omega)
  rw [State.formed, hactive, hstandby, Bool.false_and, Bool.false_and, Bool.or_false]

theorem State.answerHeartbeat_seeking (h : s.redRole = 0) (hr : hb.role = 1) : s.answerHeartbeat hb = s.becomeStandby hb := by
  simp only [State.answerHeartbeat, h, if_pos hr]

theorem State.answerHeartbeat_active (h : s.redRole = 1) : s.answerHeartbeat hb = s.activeHears hb := by
  simp only [State.answerHeartbeat, h]

theorem State.answerHeartbeat_standby (h : s.redRole = 2) : s.answerHeartbeat hb = s.standbyHears hb := by
  simp only [State.answerHeartbeat, h]

theorem State.answerHeartbeat_fenced (h : 3 ≤ s.redRole) : s.answerHeartbeat hb = s := by
  obtain ⟨n, hn⟩ := Nat.exists_eq_add_of_le' h
  simp only [State.answerHeartbeat, hn]

theorem doHeartbeatReceive_of_paired (h : s.pairOn = true) (hu : u = (s.ringHeard b hb).notePartner b hb info) :
    doHeartbeatReceive b hb info s = ((u.answerHeartbeat hb).noteFormed s.formed).refreshReady := by
  have hon : ¬ (!s.pairOn) = true := by rw [h]; decide
  rw [hu, doHeartbeatReceive, if_neg hon]
  rfl

/-! ### Heartbeats sent (R465) -/

theorem State.sendBellA_of_quiet (h : s.flt.armed = none) : s.sendBellA false =
    (s.emit (.bellA (s.heartbeatBytes s.red.bellA.sent false ++ beBytes 2 (crc16 (s.heartbeatBytes s.red.bellA.sent false))))).modBell
      false (fun x => { x with sent := (x.sent + 1) % 65536 }) := by
  simp only [State.sendBellA, State.opportunity_of_quiet h, Bool.false_eq_true, if_false]

/-! ### Silence (R468) -/

/-- A bell is marked silent 8 µs after it was heard. -/
def State.markSilent (s : State) (b : Bool) (t : Nat) : State :=
  ((s.atUptime (t + 8000)).modBell b (fun x => { x with silent := some (s.atUptime (t + 8000)).uptime, back := none })).putFlag
    (if b then F.RED_STAT_BELL_B_OK else F.RED_STAT_BELL_A_OK) false

theorem doBellSilent_of_silent (h : (s.bell b).silent.isSome = true) : doBellSilent b s = s := if_pos (by rw [h, Bool.or_true])

theorem doBellSilent_of_heard {t : Nat} (h : s.pairOn = true) (hs : (s.bell b).silent = none) (ht : (s.bell b).heard = some t) :
    doBellSilent b s = (if ((s.markSilent b t).bell (!b)).isHeard then (s.markSilent b t).pathAlarm b
      else (s.markSilent b t).bothSilent).refreshReady := by
  have hmarked : ¬ (!s.pairOn || (s.bell b).silent.isSome) = true := by rw [h, hs]; decide
  rw [doBellSilent, if_neg hmarked, ht]
  rfl

theorem State.markSilent_uptime {t : Nat} : (s.markSilent b t).uptime = max s.uptime (t + 8000) := by
  rw [State.markSilent, State.putFlag_uptime]
  exact State.atUptime_uptime

theorem State.markSilent_red {t : Nat} : (s.markSilent b t).red =
    (if b then { s.red with bellB := { s.red.bellB with silent := some (s.markSilent b t).uptime, back := none } }
      else { s.red with bellA := { s.red.bellA with silent := some (s.markSilent b t).uptime, back := none } }) := by
  have hup : (s.markSilent b t).uptime = (s.atUptime (t + 8000)).uptime := by
    rw [State.markSilent, State.putFlag_uptime]
    rfl
  rw [hup, State.markSilent, State.putFlag_red]
  cases b <;> simp [State.modBell]

theorem State.markSilent_bell {t : Nat} : ((s.markSilent b t).bell b).silent = some (s.markSilent b t).uptime ∧
    (s.markSilent b t).bell (!b) = s.bell (!b) := by
  have hred := State.markSilent_red (s := s) (b := b) (t := t)
  cases b <;> simp only [State.bell, hred] <;> exact ⟨rfl, rfl⟩

theorem State.markSilent_flag {t : Nat} :
    (s.markSilent b t).flag (if b then F.RED_STAT_BELL_B_OK else F.RED_STAT_BELL_A_OK) = false := by
  cases b <;> exact State.flag_putFlag_same rfl rfl

theorem State.markSilent_leaves {t : Nat} :
    s.Leaves [(if b then F.RED_STAT_BELL_B_OK else F.RED_STAT_BELL_A_OK, 0)] [.red, .time] (s.markSilent b t) :=
  (((State.Leaves.refl s _ _).atUptime (by simp)).modBell (by simp)).putFlag (.inl (by simp))

/-! ### Takeover and seeking (R462, R478) -/

theorem doTakeover_of_failed {td tf : Nat} (h : s.red.failedAt = some (td, tf)) :
    doTakeover s = (s.atUptime (td + 3000)).becomeSender (td - tf) := by simp only [doTakeover, h]

theorem doTakeover_of_none (h : s.red.failedAt = none) : doTakeover s = s := by simp only [doTakeover, h]

theorem doSeekTimeout_of_primary (h : s.pairOn = true) (hs : s.seeking = true) (hp : s.flag F.RED_CTL_PRIMARY = true)
    (hf : s.fencedIn = false) : doSeekTimeout s = (s.atUptime (s.red.seekFrom + oneSecond)).becomeActive :=
  if_pos (by rw [h, hs, hp, hf]; rfl)

theorem doSeekTimeout_of_other (h : s.seeking = false ∨ s.flag F.RED_CTL_PRIMARY = false ∨ s.fencedIn = true) : doSeekTimeout s = s := by
  refine if_neg ?_
  rcases h with h | h | h <;> simp [h]

/-! ### The fence (R469, R470, R498) -/

theorem doFenceInQualified_of_idle (h : s.power = 0 ∨ s.fencedIn = true) : doFenceInQualified s = s := if_pos h

theorem doFenceInQualified_of_new (hp : s.power ≠ 0) (hf : s.fencedIn = false)
    (hu : u = (s.putFlag F.RED_STAT_FENCE_IN true).takeReset 13 reachOutput 0) (hs : u.red.switching = none) :
    doFenceInQualified s = (u.fence (if s.seeking then 2 else 3)).refreshReady := by
  have hnew : ¬ (s.power = 0 ∨ s.fencedIn = true) := by
    rw [hf]
    simpa using hp
  have hcalm : ¬ (u.red.switching.any (fun w => w.sentAt.isSome)) = true := by rw [hs]; decide
  rw [doFenceInQualified, if_neg hnew]
  dsimp only
  rw [← hu, if_neg hcalm]

theorem doFenceInReleased_of_free (h : s.fencedIn = false) : doFenceInReleased s = s := if_pos h

theorem doFenceInReleased_of_paired (h : s.fencedIn = true) (hu : u = (s.putFlag F.RED_STAT_FENCE_IN false).each (List.range 32) (fun p t =>
      if t.ddState p = 7 ∧ bitAt (t.get F.PCR_SUPPLY_BANK_HELD) (p / 8) = false then t.ddEnter p (if t.ddEnabled p then 1 else 0) else t))
    (hp : u.paired = true) : doFenceInReleased s = (if u.redRole = 3 then u.takeRole 2 2 else u).refreshReady := by
  have hheld : ¬ s.fencedIn = false := by rw [h]; decide
  rw [doFenceInReleased, if_neg hheld]
  dsimp only
  rw [← hu, if_pos hp]

theorem State.judgePulse_flt : s.judgePulse.flt = s.flt := by
  unfold State.judgePulse
  split <;> rfl

theorem State.judgePulse_outs : s.judgePulse.outs = s.outs := by
  unfold State.judgePulse
  split <;> rfl

theorem State.judgePulse_uptime : s.judgePulse.uptime = s.uptime := by
  unfold State.judgePulse
  split <;> rfl

theorem State.judgePulse_tly : s.judgePulse.tly = s.tly := by
  unfold State.judgePulse
  split <;> rfl

theorem State.judgePulse_unseen :
    s.judgePulse.red.unseen = (if s.red.pulseAt.isSome then s.red.unseen + 1 else s.red.unseen) := by
  unfold State.judgePulse
  split <;> rfl

theorem State.judgePulse_of_pulse {t : Nat} (h : s.red.pulseAt = some t) :
    s.judgePulse = s.modRed (fun r => { r with pulseAt := none, unseen := r.unseen + 1 }) := if_pos (by rw [h]; rfl)

theorem State.Leaves.judgePulse {t : State} {l : List (Field × Nat)} {p : List Part} (h : s.Leaves l p t) (m : .red ∈ p) :
    s.Leaves l p t.judgePulse := (h.modRed m).ite _ h

theorem doFencePulse_of_unfenced (h : s.pairOn = true) (hf : s.flag F.RED_STAT_FENCE_OUT = false) (hq : s.flt.armed = none) :
    doFencePulse s = (s.judgePulse.emit (.fencePulse 100)).modRed
      (fun r => { r with pulseAt := some s.uptime, pulseSeen := r.partner.any Heartbeat.ftog }) := by
  have hlow : ¬ (!s.pairOn || s.flag F.RED_STAT_FENCE_OUT) = true := by rw [h, hf]; decide
  have hquiet : s.judgePulse.flt.armed = none := by rw [State.judgePulse_flt, hq]
  rw [doFencePulse, if_neg hlow]
  simp only [State.opportunity_of_quiet hquiet, Bool.false_eq_true, if_false]

theorem doFencePulse_of_fenced (h : s.flag F.RED_STAT_FENCE_OUT = true) : doFencePulse s = s := if_pos (by rw [h, Bool.or_true])

/-- The alarm after the third fence pulse in a row that was not seen. -/
def State.fenceUnseen (s : State) (t0 : Nat) : State :=
  (((s.atUptime (t0 + 100000000)).judgePulse.modRed (fun r => { r with fenceAlarm := true })).raise F.RED_EVT_FENCE_ALARM).tally 0x1105
    [s.red.unseen + 1]

theorem doFenceAlarm_of_third {t0 : Nat} (h : s.pairOn = true) (hp : s.red.pulseAt = some t0) (hu : 2 ≤ s.red.unseen)
    (ha : s.red.fenceAlarm = false) : doFenceAlarm s = (s.fenceUnseen t0).refreshReady := by
  have hjudged : ((s.atUptime (t0 + 100000000)).judgePulse).red = { s.red with pulseAt := none, unseen := s.red.unseen + 1 } := by
    rw [State.judgePulse_of_pulse (t := t0) (by rw [State.atUptime_red, hp]), State.modRed_red, State.atUptime_red]
  have hthird : 3 ≤ ((s.atUptime (t0 + 100000000)).judgePulse).red.unseen ∧
      ((s.atUptime (t0 + 100000000)).judgePulse).red.fenceAlarm = false := by
    rw [hjudged]
    exact ⟨Nat.succ_le_succ hu, ha⟩
  simp only [doFenceAlarm, h, if_true, hp]
  rw [if_pos hthird, hjudged, State.fenceUnseen]

theorem State.fenceUnseen_spec {t0 : Nat} : (s.fenceUnseen t0).uptime = max s.uptime (t0 + 100000000) ∧
    (s.fenceUnseen t0).red.fenceAlarm = true ∧ (s.fenceUnseen t0).flag F.RED_EVT_FENCE_ALARM = true ∧
    s.Records [(0x1105, [s.red.unseen + 1])] (s.fenceUnseen t0) ∧
    s.Leaves [(F.RED_EVT_FENCE_ALARM, 0)] [.red, .time] (s.fenceUnseen t0) := by
  have hmark := ((State.Leaves.refl s [(F.RED_EVT_FENCE_ALARM, 0)] [.red, .time]).atUptime (n := t0 + 100000000) (by simp)).judgePulse
    (by simp)
  have htly : ((s.atUptime (t0 + 100000000)).judgePulse).tly = s.tly := State.judgePulse_tly.trans State.atUptime_tly
  rw [State.fenceUnseen]
  refine ⟨?_, ?_, ?_, State.Records.one ((State.raise_tly.trans State.modRed_tly).trans htly),
    ((hmark.modRed (by simp)).raise (.inl (by simp))).tally⟩
  · rw [State.tally_uptime, State.raise_uptime, State.modRed_uptime, State.judgePulse_uptime, State.atUptime_uptime]
  · rw [State.tally_red, State.raise_red, State.modRed_red]
  · rw [State.flag_tally_clear rfl rfl, State.flag_raise_same rfl rfl]

/-! ### Loopback (R486) -/

theorem doLinkLoopbackTest_of_pass {p : Nat} (h : s.pairOn = true) (hr : s.redRole = 2) :
    doLinkLoopbackTest p true s = (s.modRed (fun r => { r with
      loops := (p, s.uptime) :: r.loops.filter (fun q => q.1 != p), loopFail := r.loopFail.filter (fun q => q != p) })).refreshReady := by
  have hstandby : ¬ (!s.pairOn || s.redRole != 2) = true := by rw [h, hr]; decide
  rw [doLinkLoopbackTest, if_neg hstandby]
  simp only [if_true, List.append_nil]

/-- Settles O54: each command by the branches of its definition, a heartbeat by the role that hears it, silence, pulses and the
alarm by what they note. -/
theorem pairHeartbeatsAndFences : Obligations.PairHeartbeatsAndFences := by
  refine ⟨fun s b hb info p ok h => ?_, fun s h => ⟨?_, ?_, _, rfl, ?_, ?_⟩, fun s h hq => ⟨_, _, State.sendBellA_of_quiet hq, rfl, rfl, ?_⟩,
    fun s u b hb info h hu hrole hact => ⟨_, rfl, fun hf => ?_, fun hf hv => ?_⟩,
    fun s u b hb info h hu hf => ⟨fun hrole => ?_, fun hrole => ?_⟩, fun s u b hb info h hu hrole => ?_,
    fun s b h => congrArg Host.Outcome.next (doBellSilent_of_silent h),
    fun s b t h hs ht => ⟨s.markSilent b t, State.markSilent_uptime, State.markSilent_bell.1, State.markSilent_flag,
      State.markSilent_bell.2, State.markSilent_leaves, congrArg Host.Outcome.next (doBellSilent_of_heard h hs ht)⟩,
    fun s td tf h => congrArg Host.Outcome.next (doTakeover_of_failed h), fun s h => congrArg Host.Outcome.next (doTakeover_of_none h),
    fun s h hs hp hf => congrArg Host.Outcome.next (doSeekTimeout_of_primary h hs hp hf),
    fun s h => congrArg Host.Outcome.next (doSeekTimeout_of_other h),
    fun s h => congrArg Host.Outcome.next (doFenceInQualified_of_idle h),
    fun s u hp hf hu hs => congrArg Host.Outcome.next (doFenceInQualified_of_new hp hf hu hs),
    fun s h => congrArg Host.Outcome.next (doFenceInReleased_of_free h),
    fun s u h hu hp => ⟨fun hrole => congrArg Host.Outcome.next ?_, fun hrole => congrArg Host.Outcome.next ?_⟩,
    fun s h hf hq => ⟨_, congrArg Host.Outcome.next (doFencePulse_of_unfenced h hf hq), ?_, rfl, ?_, ?_⟩,
    fun s h => congrArg Host.Outcome.next (doFencePulse_of_fenced h),
    fun s t0 h hp hu ha => ⟨s.fenceUnseen t0, ?_⟩,
    fun s p h hr => ⟨_, congrArg Host.Outcome.next (doLinkLoopbackTest_of_pass h hr), rfl, rfl, (State.Leaves.refl s _ _).modRed (by simp)⟩⟩
  · obtain ⟨hbellA, hbellB, hreceive, hsilent⟩ := heartbeats_of_unpaired (b := b) (hb := hb) (info := info) h
    obtain ⟨hpulse, hinPulse, halarm, hseek, hloop⟩ := fences_of_unpaired (p := p) (ok := ok) h
    exact ⟨congrArg Host.Outcome.next hbellA, congrArg Host.Outcome.next hbellB, congrArg Host.Outcome.next hreceive,
      congrArg Host.Outcome.next hsilent, congrArg Host.Outcome.next hpulse, congrArg Host.Outcome.next hinPulse,
      congrArg Host.Outcome.next halarm, congrArg Host.Outcome.next hseek, congrArg Host.Outcome.next hloop⟩
  · exact congrArg Host.Outcome.next (if_pos h)
  · exact congrArg Host.Outcome.next (if_pos h)
  · rw [doFenceInPulse, if_pos h, State.modRed_red]
  · rw [doFenceInPulse, if_pos h]
    exact (State.Leaves.refl s _ _).modRed (by simp)
  · exact (State.Leaves.refl s _ _).emit.modBell (by simp)
  · refine congrArg Host.Outcome.next ?_
    rw [doHeartbeatReceive_of_paired h hu, hf, State.answerHeartbeat_seeking hrole hact, State.noteFormed_of_formed]
  · refine congrArg Host.Outcome.next ?_
    rw [doHeartbeatReceive_of_paired h hu, hf, State.answerHeartbeat_seeking hrole hact, State.noteFormed_of_forming hv]
  · refine congrArg Host.Outcome.next ?_
    rw [doHeartbeatReceive_of_paired h hu, hf, State.answerHeartbeat_active hrole, State.noteFormed_of_formed]
  · refine congrArg Host.Outcome.next ?_
    rw [doHeartbeatReceive_of_paired h hu, hf, State.answerHeartbeat_standby hrole, State.noteFormed_of_formed]
  · refine congrArg Host.Outcome.next ?_
    rw [doHeartbeatReceive_of_paired h hu, State.answerHeartbeat_fenced hrole, State.noteFormed_of_unformed (State.formed_of_fenced hrole)]
  · rw [doFenceInReleased_of_paired h hu hp, if_pos hrole]
  · rw [doFenceInReleased_of_paired h hu hp, if_neg hrole]
  · rw [State.modRed_outs, State.emit_outs, State.judgePulse_outs]
  · rw [State.modRed_red, State.emit_red, State.judgePulse_unseen]
  · exact (((State.Leaves.refl s _ _).judgePulse (by simp)).emit).modRed (by simp)
  · obtain ⟨hup, hred, hflag, hrec, hleaves⟩ := State.fenceUnseen_spec (s := s) (t0 := t0)
    exact ⟨hup, hred, hflag, hrec, hleaves, congrArg Host.Outcome.next (doFenceAlarm_of_third h hp hu ha)⟩

end Sys2Proof.Machine
end

section
/-! PROOFS. The pair's own state under a frame sent and a device's readiness brought up to date. -/
namespace Sys2Proof.Machine

variable {s : State}

theorem State.emitFrame_red {l : Nat} {bs : List Nat} : (s.emitFrame l bs).red = s.red := by
  rw [State.emitFrame, State.add64_red, State.add64_red, State.emit_red]

theorem State.markTwin_red {l : Nat} {p : TxPart} : (s.markTwin l p).red = s.red := State.modLink_red

theorem State.flushQueue_red {l : Nat} : (s.flushQueue l).red = s.red := by
  unfold State.flushQueue
  refine (State.each_proj (g := State.red) fun f _ t => ?_).trans State.modLink_red
  dsimp only
  split
  · split
    · exact State.markTwin_red.trans State.emitFrame_red
    · exact State.emitFrame_red
  · rfl

theorem State.settleLink_red {l : Nat} : (s.settleLink l).red = s.red := by
  unfold State.settleLink
  extract_lets k now s1
  have hs1 : s1.red = s.red := by
    unfold s1
    split
    · rw [State.putFlag_red, State.modLink_red]
    · rw [State.add_red, State.putFlag_red, State.modLink_red]
    · rfl
  split
  · exact hs1
  · exact State.flushQueue_red.trans hs1

theorem State.txSend_red {l prio : Nat} {bs : List Nat} {part : Option TxPart} : (s.txSend l prio bs part).1.red = s.red := by
  unfold State.txSend
  dsimp only
  split
  · exact State.settleLink_red
  · split
    · split
      · exact State.modLink_red.trans State.settleLink_red
      · rw [State.tallyLimited_red, State.raise_red, State.bump_red, State.settleLink_red]
    · exact State.emitFrame_red.trans State.settleLink_red

theorem State.txFrame_red {l prio : Nat} {bs : List Nat} : (s.txFrame l prio bs).red = s.red := State.txSend_red

theorem State.syncArmed_red : s.syncArmed.red = s.red := by
  unfold State.syncArmed
  split <;> rw [State.put_red, State.putFlag_red]

theorem State.withFlt_red {x : Flt} : ({ s with flt := x } : State).red = s.red := rfl

theorem State.fireArmed_red {a : Armed} : (s.fireArmed a).red = s.red := by
  unfold State.fireArmed
  dsimp only
  split
  · rw [State.syncArmed_red, State.raise_red, State.withFlt_red, State.tally_red, State.raise_red, State.bump_red]
  · rw [State.syncArmed_red, State.withFlt_red, State.tally_red, State.raise_red, State.bump_red]

theorem State.opportunity_red {det unit arg : Nat} : (s.opportunity det unit arg).2.red = s.red := by
  unfold State.opportunity
  split
  · split
    · exact State.fireArmed_red
    · rfl
  · rfl

theorem State.sendBellB_red {kind : Nat} {body : List Nat} : (s.sendBellB kind body).red = s.red := by
  unfold State.sendBellB
  split
  · rfl
  · exact State.txFrame_red.trans State.opportunity_red

theorem State.refreshReady_red : s.refreshReady.red = s.red := by
  unfold State.refreshReady
  dsimp only
  generalize (if s.redRole = 2 then s.notReadyCauses else 1) = causes
  generalize (decide (s.redRole = 2) && decide (causes = 0)) = ready
  split
  · rw [State.putFlag_red, State.put_red]
  · rw [State.tally_red, State.raise_red, State.putFlag_red, State.put_red]

theorem State.startResync_red {cause : Nat} : (s.startResync cause).red =
    { s.red with resync := some { snap := none, lastAt := s.uptime, kept := [], bytes := 0 } } := by
  rw [State.startResync, State.refreshReady_red, State.tally_red, State.sendBellB_red, State.put_red, State.modRed_red]

theorem State.modRed_sAt {f : Red → Red} {n : Nat} : (s.modRed f).sAt n = s.sAt n := (rfl)

/-- Each element of an array holds what was put there. -/
theorem State.get_each_put {f : Field} {v : Nat → Nat} {n i : Nat} (hf : f.fits = true) (hs : f.stride ≠ 0) (hi : i < n) :
    (s.each (List.range n) (fun k t => t.put f (v k) k)).get f i = v i % 2 ^ f.width := by
  induction n with
  | zero => exact absurd hi (Nat.not_lt_zero i)
  | succ n ih =>
    rw [State.each, List.range_succ, List.foldl_append]
    by_cases h : i = n
    · rw [h]
      exact State.get_put_same hf
    · have hother : f.clear n f i = true := by
        refine Field.clear_of_addr hf fun heq => h ?_
        rw [Field.addr, Field.addr] at heq
        exact (Nat.eq_of_mul_eq_mul_left (Nat.pos_of_ne_zero hs) (Nat.add_left_cancel heq)).symm
      exact (State.get_put_clear hother).trans (ih (by omega))

end Sys2Proof.Machine
end

section
/-! PROOFS. Planned switches, mirror records, resynchronisation and comparison of a pair (O55). -/
namespace Sys2Proof.Machine

variable {s u : State}

/-! ### RED_CMD (R462, R471, R480, R482, R487) -/

theorem State.redCommand_red {v : Nat} : (s.redCommand v).red = s.red := State.put_red.trans State.put_red

theorem State.redCommand_pairOn {v : Nat} : (s.redCommand v).pairOn = s.pairOn := by
  rw [State.pairOn, State.paired, State.power, State.redCommand, State.flag_put_clear rfl, State.flag_put_clear rfl,
    State.get_put_clear rfl, State.get_put_clear rfl, State.pairOn, State.paired, State.power]

theorem State.redCommand_switchAllowed {v : Nat} {force : Bool} : (s.redCommand v).switchAllowed force = s.switchAllowed force := by
  rw [State.switchAllowed, State.redCommand_red, State.redRole, State.redCommand, State.get_put_clear rfl, State.get_put_clear rfl,
    State.get_put_clear rfl, State.get_put_clear rfl, State.switchAllowed, State.redRole]

theorem doSwitch_of_running {w : Word} (h : s.red.switching.isSome = true) :
    doSwitch w s = (s.redCommand w.toNat).redResult stBusy :=
  if_pos (by rw [State.redCommand_red, h])

theorem doSwitch_of_free {w : Word} (h : s.red.switching = none) : doSwitch w s =
    if s.pairOn && s.switchAllowed (bitAt w.toNat 3) then (s.redCommand w.toNat).beginSwitch false (bitAt w.toNat 3)
    else (s.redCommand w.toNat).redResult stWrongMode := by
  have hfree : ¬ (s.redCommand w.toNat).red.switching.isSome = true := by rw [State.redCommand_red, h]; decide
  rw [doSwitch, if_neg hfree, State.redCommand_pairOn, State.redCommand_switchAllowed]

theorem State.redResult_spec {st : Nat} (h : st < 16) : (s.redResult st).get F.RED_CMD_STAT_RESULT = st ∧
    (s.redResult st).get F.RED_CMD_STAT_SEQ = (s.get F.RED_CMD_STAT_SEQ + 1) % 2 ^ F.RED_CMD_STAT_SEQ.width ∧
    s.Leaves [(F.RED_CMD_STAT_RESULT, 0), (F.RED_CMD_STAT_SEQ, 0)] [] (s.redResult st) := by
  refine ⟨?_, ?_, ((State.Leaves.refl s _ _).put (.inl (by simp))).advance (.inl (by simp))⟩
  · rw [State.redResult, State.get_advance_clear rfl, State.get_put_of_lt rfl (Nat.lt_of_lt_of_le h (by decide))]
  · rw [State.redResult, State.get_advance_same rfl, State.get_put_clear rfl]

theorem doSwitchHandover_of_due {w : Switching} (h : s.red.switching = some w) (hw : w.sentAt = none) :
    doSwitchHandover s = (s.atTime (s.eAt s.nextE)).handOver w s.nextE := by
  have hdue : ¬ w.sentAt.isSome = true := by rw [hw]; decide
  simp only [doSwitchHandover, h]
  rw [if_neg hdue]

theorem doSwitchHandover_of_sent {w : Switching} {t0 : Nat} (h : s.red.switching = some w) (hw : w.sentAt = some t0) :
    doSwitchHandover s = s := by
  simp only [doSwitchHandover, h]
  rw [if_pos (by rw [hw]; rfl)]

theorem doSwitchHandover_of_none (h : s.red.switching = none) : doSwitchHandover s = s := by simp only [doSwitchHandover, h]

theorem doSwitchTimeout_of_none (h : s.red.switching = none) : doSwitchTimeout s = s := by simp only [doSwitchTimeout, h]

theorem doSwitchTimeout_of_unsent {w : Switching} (h : s.red.switching = some w) (hw : w.sentAt = none) : doSwitchTimeout s = s := by
  simp only [doSwitchTimeout, h, hw]

theorem doSwitchTimeout_of_sent {w : Switching} {t0 : Nat} (h : s.red.switching = some w) (hw : w.sentAt = some t0)
    (hd : w.dormant = false) {gap : Nat × State} (hg : gap = (s.atUptime (t0 + 50000)).free 32)
    (hu : u = ((gap.2.advanceEpoch ((s.get R.DVL_EPOCH + 1) % 2 ^ 32)).unmute).modRed (fun r => { r with switching := none })) :
    doSwitchTimeout s = (u.redResult stTimeout).tally 0x1109 [stTimeout, w.frame, gap.1] := by
  simp only [doSwitchTimeout, h, hw, hd, Bool.false_eq_true, if_false]
  rw [State.atUptime_get, ← hg, ← hu]

/-- An Active is heard. -/
def State.hearsActive (s : State) : Bool :=
  (s.red.bellA.isHeard || s.red.bellB.isHeard) && s.red.partner.any (fun h => h.role == 1)

theorem doForceActive_of_refused (h : s.pairOn = false ∨ s.fencedIn = true ∨ s.hearsActive = true) :
    doForceActive s = s.redResult stWrongMode := by
  have hrefused : (!s.pairOn || s.fencedIn || s.hearsActive) = true := by
    rcases h with h | h | h <;> rw [h]
    · rfl
    · rw [Bool.or_true, Bool.true_or]
    · rw [Bool.or_true]
  exact if_pos hrefused

theorem doForceActive_of_free (h : s.pairOn = true) (hf : s.fencedIn = false) (ha : s.hearsActive = false) : doForceActive s =
    if s.seeking then (s.becomeActive).redResult stOK
    else if s.red.blocked then (s.declareFailure 0).redResult stOK else s.redResult stWrongMode := by
  have hfree : ¬ (!s.pairOn || s.fencedIn || s.hearsActive) = true := by rw [h, hf, ha]; decide
  exact if_neg hfree

theorem doUnfence_spec : (doUnfence s).flag F.RED_STAT_FENCE_OUT = false ∧ (doUnfence s).get F.RED_CMD_STAT_RESULT = stOK ∧
    s.Leaves [(F.RED_STAT_FENCE_OUT, 0), (F.RED_CMD_STAT_RESULT, 0), (F.RED_CMD_STAT_SEQ, 0)] [] (doUnfence s) := by
  refine ⟨?_, (State.redResult_spec (by decide)).1,
    (((State.Leaves.refl s _ _).putFlag (.inl (by simp))).put (.inl (by simp))).advance (.inl (by simp))⟩
  rw [doUnfence, State.redResult, State.flag_advance_clear rfl, State.flag_put_clear rfl, State.flag_putFlag_same rfl rfl]

theorem doResync_of_standby (h : s.pairOn = true) (hr : s.redRole = 2) : doResync s = (s.redResult stOK).startResync 4 :=
  if_pos (by rw [h, hr]; rfl)

theorem doResync_of_other (h : s.pairOn = false ∨ s.redRole ≠ 2) : doResync s = s.redResult stWrongMode := by
  refine if_neg ?_
  rcases h with h | h <;> simp [h]

/-! ### A Standby follows (R474, R487) -/

section
variable {m f b c : Nat} {x : Mirrored}

theorem doMirrorReceive_of_other (h : s.pairOn = false ∨ s.redRole ≠ 2) : doMirrorReceive m f b c x s = s := by
  refine if_pos ?_
  rcases h with h | h <;> simp [h]

theorem doSnapshotReceive_of_other {p : Option (Snapshot × Nat)} (h : s.pairOn = false ∨ s.redRole ≠ 2) : doSnapshotReceive p s = s := by
  have hother : ¬ (s.pairOn && s.redRole == 2) = true := by rcases h with h | h <;> simp [h]
  simp only [doSnapshotReceive]
  rw [if_neg hother]

/-- A gap in the mirror records: the Standby resynchronises and keeps the record. -/
def State.gapFound (s : State) (k : KeptRec) : State :=
  ((s.tally 0x110D [k.mseq, 0]).startResync 1).modRed
    (fun q => { q with resync := q.resync.map (fun r => { r with kept := [k] }) })

theorem doMirrorReceive_of_standby (h : s.pairOn = true) (hr : s.redRole = 2) (hn : s.red.resync = none) :
    doMirrorReceive m f b c x s =
      if m = s.red.next then (s.takeMirrored ⟨m, f, b, c, s.uptime, x⟩).refreshReady
      else if seqAtLeast m s.red.next then s.gapFound ⟨m, f, b, c, s.uptime, x⟩
      else s.sendBellB 3 (beBytes 4 ((s.red.next + 2 ^ 32 - 1) % 2 ^ 32)) := by
  have hstandby : ¬ (!s.pairOn || s.redRole != 2) = true := by rw [h, hr]; decide
  rw [doMirrorReceive, if_neg hstandby, hn]
  rfl

theorem State.gapFound_kept {k : KeptRec} : (s.gapFound k).red.resync.map Resync.kept = some [k] := by
  rw [State.gapFound, State.modRed_red, State.startResync_red]
  rfl

end

theorem doSnapshotReceive_of_part {r : Resync} {p : Snapshot} {n : Nat} (h : s.pairOn = true) (hr : s.redRole = 2)
    (hs : s.red.resync = some r) : doSnapshotReceive (some (p, n)) s =
      s.modRed (fun q => { q with resync := some { r with snap := some p, lastAt := s.uptime, bytes := r.bytes + n } }) := by
  have hstandby : (s.pairOn && s.redRole == 2) = true := by rw [h, hr]; rfl
  simp only [doSnapshotReceive]
  rw [if_pos hstandby, hs]

/-! ### An Active is acknowledged (R474, R487) -/

theorem mirroring_of_other {m reason : Nat} (h : s.pairOn = false ∨ s.redRole ≠ 1) : doAckReceive m s = s ∧ doMirrorResend m s = s ∧
    doMirrorLag s = s ∧ doResyncReqReceive reason s = s := by
  have hskip : (!s.pairOn || s.redRole != 1) = true := by rcases h with h | h <;> simp [h]
  have hother : ¬ (s.pairOn && s.redRole == 1) = true := by rcases h with h | h <;> simp [h]
  refine ⟨if_pos hskip, ?_, ?_, if_pos hskip⟩
  · simp only [doMirrorResend]
    rw [if_neg hother]
  · simp only [doMirrorLag]
    rw [if_neg hother]

theorem doHealthStale_of_other (h : s.redRole ≠ 1) : doHealthStale s = s := if_neg (by simp [h])

section
variable (h : s.pairOn = true) (hr : s.redRole = 1)
include h hr

theorem doAckReceive_of_active {m : Nat} : doAckReceive m s =
    (s.modRed (fun r => { r with queue := r.queue.filter (fun x => !seqAtLeast m x.mseq) })).each
      (s.red.queue.filter (fun r => seqAtLeast m r.mseq)) (fun r t => t.runMirrored r) := by
  have hactive : ¬ (!s.pairOn || s.redRole != 1) = true := by rw [h, hr]; decide
  exact if_neg hactive

theorem doMirrorResend_of_active {m : Nat} {r : MirrorRec} (hf : s.red.queue.find? (fun r => r.mseq == m) = some r) :
    doMirrorResend m s = (s.atUptime (r.sentAt + 20000)).emit (.mirror r.mseq r.frame r.band r.tcrc r.what) := by
  have hactive : (s.pairOn && s.redRole == 1) = true := by rw [h, hr]; rfl
  simp only [doMirrorResend]
  rw [if_pos hactive, hf]

/-- The Active acts alone until the Standby has resynchronised. -/
def State.lagging (s : State) (r : MirrorRec) : State :=
  ((s.atUptime (r.sentAt + 50000)).tally 0x110D [r.mseq, 50]).modRed (fun x => { x with follows := false, lag := true })

theorem doMirrorLag_of_active {r : MirrorRec} {rest : List MirrorRec} (hq : s.red.queue = r :: rest) :
    doMirrorLag s = (s.lagging r).runQueue := by
  have hactive : (s.pairOn && s.redRole == 1) = true := by rw [h, hr]; rfl
  simp only [doMirrorLag]
  rw [if_pos hactive, hq]
  rfl

/-- The Active promises a snapshot at the next S(k). -/
def State.snapshotPromised (s : State) (reason : Nat) : State :=
  ((s.modRed (fun r => { r with sends := some s.sys.nextS, follows := false })).put F.RED_RESYNC_PROGRESS 0).tally 0x110A
    [reason, s.sys.nextS]

theorem doResyncReqReceive_of_active {reason : Nat} : doResyncReqReceive reason s = s.snapshotPromised reason := by
  have hactive : ¬ (!s.pairOn || s.redRole != 1) = true := by rw [h, hr]; decide
  exact if_neg hactive

theorem doHealthReport_of_active {b : List Nat} : doHealthReport b s =
    ((s.showHealth b).putFlag F.RED_STAT_HEALTH_STALE false).modRed (fun r => { r with healthAt := some s.uptime }) := by
  have hon : ¬ (!s.pairOn) = true := by rw [h]; decide
  have hstandby : ¬ s.redRole = 2 := by rw [hr]; decide
  rw [doHealthReport, if_neg hon, if_neg hstandby, if_pos hr]

theorem doHealthStale_of_active {t0 : Nat} (ht : s.red.healthAt = some t0) :
    doHealthStale s = (s.atUptime (t0 + 300000000)).putFlag F.RED_STAT_HEALTH_STALE true := by
  have hactive : (s.pairOn && s.redRole == 1) = true := by rw [h, hr]; rfl
  rw [doHealthStale, if_pos hactive, ht]

end

theorem State.lagging_spec {r : MirrorRec} : (s.lagging r).red = { s.red with follows := false, lag := true } ∧
    s.Leaves [] [.red, .time] (s.lagging r) ∧ s.Records [(0x110D, [r.mseq, 50])] (s.lagging r) := by
  rw [State.lagging]
  refine ⟨?_, (((State.Leaves.refl s _ _).atUptime (by simp)).tally).modRed (by simp),
    (State.Records.one State.atUptime_tly).after State.modRed_tly State.modRed_now⟩
  rw [State.modRed_red, State.tally_red, State.atUptime_red]

theorem State.snapshotPromised_spec {reason : Nat} :
    (s.snapshotPromised reason).red = { s.red with sends := some s.sys.nextS, follows := false } ∧
    (s.snapshotPromised reason).get F.RED_RESYNC_PROGRESS = 0 ∧
    s.Records [(0x110A, [reason, s.sys.nextS])] (s.snapshotPromised reason) ∧
    s.Leaves [(F.RED_RESYNC_PROGRESS, 0)] [.red] (s.snapshotPromised reason) := by
  rw [State.snapshotPromised]
  refine ⟨?_, ?_, State.Records.one (State.put_tly.trans State.modRed_tly),
    (((State.Leaves.refl s _ _).modRed (by simp)).put (.inl (by simp))).tally⟩
  · rw [State.tally_red, State.put_red, State.modRed_red]
  · rw [State.get_tally_clear rfl rfl, State.get_put_same rfl, Nat.zero_mod]

theorem State.mirrored_spec {t : Nat} {o : Out} : ((s.atUptime t).emit o).outs = s.outs ++ [o] ∧
    ((s.atUptime t).emit o).uptime = max s.uptime t ∧ s.Leaves [] [.time] ((s.atUptime t).emit o) := by
  refine ⟨?_, ?_, ((State.Leaves.refl s _ _).atUptime (by simp)).emit⟩
  · rw [State.emit_outs, State.atUptime_outs]
  · rw [State.emit_uptime, State.atUptime_uptime]

/-! ### Signatures (R484, R485) -/

theorem firstDiff_of_same {l : List (Nat × Nat)} : firstDiff l (l.map Prod.snd) = none := by
  induction l with
  | nil => rfl
  | cons q l ih => exact (if_pos rfl).trans ih

section
variable {f : Nat} {o : FrameSigs} {p : Option (Nat × List Nat)}
variable (h : s.pairOn = true) (ho : s.red.own.find? (fun g => g.frame == f) = some o)
include h ho

theorem doSigCompare_of_void (hv : s.red.voids.contains f = true) : doSigCompare f p s = s.bump R.RED_SIG_VOID_CNT := by
  simp only [doSigCompare]
  rw [if_pos h, ho]
  exact if_pos hv

theorem doSigCompare_of_absent (hv : s.red.voids.contains f = false) : doSigCompare f none s = s := by
  have hvalid : ¬ s.red.voids.contains f = true := by rw [hv]; decide
  simp only [doSigCompare]
  rw [if_pos h, ho]
  exact if_neg hvalid

/-- A frame whose signatures agree: 64 of them end the alarm. -/
def State.sigsAgree (s : State) : State :=
  s.modRed (fun r => { r with
    misses := 0
    matches_ := if s.red.sigAlarm && decide (64 ≤ s.red.matches_ + 1) then 0 else if r.sigAlarm then s.red.matches_ + 1 else 0
    sigAlarm := r.sigAlarm && !(s.red.sigAlarm && decide (64 ≤ s.red.matches_ + 1)) })

/-- A second frame in a row whose signatures differ. -/
def State.sigsDiffer (s : State) (f st : Nat) (o : FrameSigs) : State :=
  ((((s.modRed (fun r => { r with misses := r.misses + 1, matches_ := 0 })).modRed (fun r => { r with sigAlarm := true })).raise
    F.RED_EVT_SIG_MISMATCH).bump R.RED_SIG_MISMATCH_CNT).tally 0x1106 [f, 0xFFFF, o.stateId % 2 ^ 32, st]

theorem doSigCompare_of_same {st : Nat} (hv : s.red.voids.contains f = false) :
    doSigCompare f (some (st, o.sigs.map Prod.snd)) s =
      if o.stateId % 2 ^ 32 = st then s.sigsAgree.refreshReady
      else if s.red.misses + 1 = 2 ∧ s.red.sigAlarm = false then (s.sigsDiffer f st o).refreshReady
      else s.modRed (fun r => { r with misses := r.misses + 1, matches_ := 0 }) := by
  have hvalid : ¬ s.red.voids.contains f = true := by rw [hv]; decide
  have hlen : decide (o.sigs.length < (o.sigs.map Prod.snd).length) = false := by simp
  simp only [doSigCompare]
  rw [if_pos h, ho]
  dsimp only
  rw [if_neg hvalid, hlen, firstDiff_of_same, Option.isSome_none, Bool.false_or, Bool.or_false]
  by_cases hst : o.stateId % 2 ^ 32 = st
  · have hsame : ¬ decide (o.stateId % 2 ^ 32 ≠ st) = true := by simpa using hst
    rw [if_pos hst, if_neg hsame]
    rfl
  · rw [if_neg hst, if_pos (decide_eq_true hst)]
    rfl

end

theorem State.sigsDiffer_spec {f st : Nat} {o : FrameSigs} : (s.sigsDiffer f st o).red.misses = s.red.misses + 1 ∧
    (s.sigsDiffer f st o).red.sigAlarm = true ∧ (s.sigsDiffer f st o).flag F.RED_EVT_SIG_MISMATCH = true := by
  have hred : (s.sigsDiffer f st o).red = { s.red with misses := s.red.misses + 1, matches_ := 0, sigAlarm := true } := by
    rw [State.sigsDiffer, State.tally_red, State.bump_red, State.raise_red, State.modRed_red, State.modRed_red]
  refine ⟨by rw [hred], by rw [hred], ?_⟩
  rw [State.sigsDiffer, State.flag_tally_clear rfl rfl, State.flag_bump_clear rfl, State.flag_raise_same rfl rfl]

/-! ### Health (R486) -/

theorem State.showHealth_get {b : List Nat} {i : Nat} (hi : i < 16) :
    (s.showHealth b).get R.RED_HEALTH i = ofLe ((b.drop (4 * i)).take 4).reverse % 2 ^ 32 :=
  State.get_each_put (v := fun i => ofLe ((b.drop (4 * i)).take 4).reverse) rfl (by decide) hi

theorem State.Leaves.showHealth {t : State} {l : List (Field × Nat)} {p : List Part} {b : List Nat} (h : s.Leaves l p t)
    (hl : (List.range 16).map (fun i => (R.RED_HEALTH, i)) ⊆ l) : s.Leaves l p (t.showHealth b) := by
  refine h.each fun i t hi ht => ht.put (.inl (List.mem_append_left _ (hl (List.mem_map.2 ⟨i, hi, rfl⟩))))

theorem State.healthTaken_spec {b : List Nat} {x : Red → Red} :
    (((s.showHealth b).putFlag F.RED_STAT_HEALTH_STALE false).modRed x).flag F.RED_STAT_HEALTH_STALE = false ∧
    (∀ i, i < 16 → (((s.showHealth b).putFlag F.RED_STAT_HEALTH_STALE false).modRed x).get R.RED_HEALTH i =
      ofLe ((b.drop (4 * i)).take 4).reverse % 2 ^ 32) ∧
    s.Leaves ((F.RED_STAT_HEALTH_STALE, 0) :: (List.range 16).map (fun i => (R.RED_HEALTH, i))) [.red]
      (((s.showHealth b).putFlag F.RED_STAT_HEALTH_STALE false).modRed x) := by
  refine ⟨?_, fun i hi => ?_, (((State.Leaves.refl s _ _).showHealth (List.subset_cons_self _ _)).putFlag
    (.inl List.mem_cons_self)).modRed (by simp)⟩
  · rw [State.modRed_flag, State.flag_putFlag_same rfl rfl]
  · have hclear : F.RED_STAT_HEALTH_STALE.clear 0 R.RED_HEALTH i = true := Field.clear_of_lt rfl (by decide)
    rw [State.modRed_get, State.get_putFlag_clear hclear, State.showHealth_get hi]

theorem doHealthReport_of_standby {b : List Nat} (h : s.pairOn = true) (hr : s.redRole = 2) :
    doHealthReport b s = (s.showHealth s.healthReport).sendBellB 5 s.healthReport := by
  have hon : ¬ (!s.pairOn) = true := by rw [h]; decide
  rw [doHealthReport, if_neg hon, if_pos hr]

/-! ### Marks (R475) -/

/-- A Standby goes on without the Active's marks. -/
def State.marksMissed (s : State) (n : Nat) : State :=
  (s.modRed (fun r => { r with waitMarks := none, voids := n :: r.voids.take 15 })).atTime (s.sAt n + 20000 * 65536)

theorem doMarkWaitExpire_of_waiting {n : Nat} (h : s.red.waitMarks = some n) : doMarkWaitExpire s =
    (s.marksMissed n).decideFrame n ((s.cmd.chans.filter (fun c => c.kind == kStream)).map (fun c => (c.index, 2, 0))) := by
  simp only [doMarkWaitExpire, h]
  rw [State.modRed_sAt, State.marksMissed]

theorem State.marksMissed_spec {n : Nat} :
    (s.marksMissed n).red = { s.red with waitMarks := none, voids := n :: s.red.voids.take 15 } ∧
    s.Leaves [] [.red, .time] (s.marksMissed n) ∧ s.sAt n + 20000 * 65536 ≤ (s.marksMissed n).now := by
  rw [State.marksMissed]
  refine ⟨?_, ((State.Leaves.refl s _ _).modRed (by simp)).atTime (by simp), State.atTime_reached⟩
  rw [State.atTime_red, State.modRed_red]

/-- Settles O55: each command by the branches of its definition, its effect by what the state it leaves shows. -/
theorem pairSwitchesAndMirror : Obligations.PairSwitchesAndMirror := by
  refine ⟨fun s u w hu => ⟨fun h => ?_, fun h hp hs => ?_, fun h hp => ?_⟩, fun s st h => State.redResult_spec h,
    fun s w h hw => ⟨congrArg Host.Outcome.next (doSwitchHandover_of_due h hw), congrArg Host.Outcome.next (doSwitchTimeout_of_unsent h hw)⟩,
    fun s h => ⟨congrArg Host.Outcome.next (doSwitchHandover_of_none h), congrArg Host.Outcome.next (doSwitchTimeout_of_none h)⟩,
    fun s w t0 h hw hd => ⟨congrArg Host.Outcome.next (doSwitchHandover_of_sent h hw), _, _, rfl, rfl,
      congrArg Host.Outcome.next (doSwitchTimeout_of_sent h hw hd rfl rfl)⟩,
    fun s h => congrArg Host.Outcome.next (doForceActive_of_refused h),
    fun s h hf ha => ⟨fun hs => congrArg Host.Outcome.next ?_, fun hs hb => congrArg Host.Outcome.next ?_,
      fun hs hb => congrArg Host.Outcome.next ?_⟩,
    fun s => ⟨_, rfl, doUnfence_spec⟩,
    fun s => ⟨fun h hr => congrArg Host.Outcome.next (doResync_of_standby h hr), fun h => congrArg Host.Outcome.next (doResync_of_other h)⟩,
    fun s m f b c x p h => ⟨congrArg Host.Outcome.next (doMirrorReceive_of_other h), congrArg Host.Outcome.next (doSnapshotReceive_of_other h)⟩,
    fun s m f b c x h hr hn => ⟨fun hm => congrArg Host.Outcome.next ?_, fun hm hq => congrArg Host.Outcome.next ?_,
      fun hm hq => ⟨s.gapFound _, congrArg Host.Outcome.next ?_, State.gapFound_kept⟩⟩,
    fun s m reason h => ?_,
    fun s m h hr => ⟨congrArg Host.Outcome.next (doAckReceive_of_active h hr),
      fun r hf => ⟨_, congrArg Host.Outcome.next (doMirrorResend_of_active h hr hf), State.mirrored_spec⟩,
      fun r rest hq => ?_⟩,
    fun s reason h hr => ⟨_, congrArg Host.Outcome.next (doResyncReqReceive_of_active h hr), State.snapshotPromised_spec⟩,
    fun s r p n h hr hs => ⟨_, congrArg Host.Outcome.next (doSnapshotReceive_of_part h hr hs), rfl, (State.Leaves.refl s _ _).modRed (by simp)⟩,
    fun s f p o h ho => ⟨fun hv => congrArg Host.Outcome.next (doSigCompare_of_void h ho hv), fun hv hp => ?_, fun hv hp => ?_,
      fun hv st hp hst hm ha => ?_⟩,
    fun s f p b h => ⟨congrArg Host.Outcome.next ?_, congrArg Host.Outcome.next (if_pos (by rw [h]; rfl))⟩,
    fun s b h => ⟨fun hr => congrArg Host.Outcome.next (doHealthReport_of_standby h hr), fun hr => ?_⟩,
    fun s t0 h hr ht => ⟨_, congrArg Host.Outcome.next (doHealthStale_of_active h hr ht), State.flag_putFlag_same rfl rfl, ?_,
      ((State.Leaves.refl s _ _).atUptime (by simp)).putFlag (.inl (by simp))⟩,
    fun s h => congrArg Host.Outcome.next ?_, fun s n h => ?_⟩
  · rw [hu]
    exact congrArg Host.Outcome.next (doSwitch_of_running h)
  · rw [hu]
    exact congrArg Host.Outcome.next ((doSwitch_of_free h).trans (if_pos (by rw [hp, hs]; rfl)))
  · rw [hu]
    refine congrArg Host.Outcome.next ((doSwitch_of_free h).trans (if_neg ?_))
    rcases hp with hp | hp <;> simp [hp]
  · exact (doForceActive_of_free h hf ha).trans (if_pos hs)
  · rw [doForceActive_of_free h hf ha, hs, hb, if_neg Bool.false_ne_true, if_pos rfl]
  · rw [doForceActive_of_free h hf ha, hs, hb, if_neg Bool.false_ne_true, if_neg Bool.false_ne_true]
  · rw [doMirrorReceive_of_standby h hr hn, if_pos hm]
  · rw [doMirrorReceive_of_standby h hr hn, if_neg hm, hq, if_neg Bool.false_ne_true]
  · rw [doMirrorReceive_of_standby h hr hn, if_neg hm, hq, if_pos rfl]
  · obtain ⟨hack, hresend, hlag, hreq⟩ := mirroring_of_other (m := m) (reason := reason) h
    exact ⟨congrArg Host.Outcome.next hack, congrArg Host.Outcome.next hresend, congrArg Host.Outcome.next hlag,
      congrArg Host.Outcome.next hreq, fun hr => congrArg Host.Outcome.next (doHealthStale_of_other hr)⟩
  · obtain ⟨hred, hleaves, hrec⟩ := State.lagging_spec (s := s) (r := r)
    exact ⟨_, hred, hleaves, hrec, congrArg Host.Outcome.next (doMirrorLag_of_active h hr hq)⟩
  · rw [hp]
    exact congrArg Host.Outcome.next (doSigCompare_of_absent h ho hv)
  · rw [hp]
    exact ⟨_, congrArg Host.Outcome.next ((doSigCompare_of_same h ho hv).trans (if_pos rfl)), rfl, rfl,
      (State.Leaves.refl s _ _).modRed (by simp)⟩
  · obtain ⟨hmisses, halarm, hflag⟩ := State.sigsDiffer_spec (s := s) (f := f) (st := st) (o := o)
    have hsecond : s.red.misses + 1 = 2 ∧ s.red.sigAlarm = false := ⟨by rw [hm], ha⟩
    rw [hp]
    exact ⟨_, congrArg Host.Outcome.next ((doSigCompare_of_same h ho hv).trans ((if_neg hst).trans (if_pos hsecond))),
      hmisses.trans (by rw [hm]), halarm, hflag⟩
  · simp only [doSigCompare, h, Bool.false_eq_true, if_false]
  · obtain ⟨hflag, hget, hleaves⟩ := State.healthTaken_spec (s := s) (b := b) (x := fun r => { r with healthAt := some s.uptime })
    exact ⟨_, congrArg Host.Outcome.next (doHealthReport_of_active h hr), hflag, rfl, hget, hleaves⟩
  · rw [State.putFlag_uptime, State.atUptime_uptime]
  · simp only [doMarkWaitExpire, h]
  · obtain ⟨hred, hleaves, hnow⟩ := State.marksMissed_spec (s := s) (n := n)
    exact ⟨_, hred, hleaves, hnow, congrArg Host.Outcome.next (doMarkWaitExpire_of_waiting h)⟩

end Sys2Proof.Machine
end

section
/-! PROOFS. Memories written byte by byte, numbers of two registers, and frames of a wider list of fields. -/
namespace Sys2Proof.Machine

variable {s t : State}

/-! ### Bytes written one after another -/

/-- A one-byte writer whose byte a reader gives back, the others standing. -/
def ReadsBack (w : State → Nat → Byte → State) (r : State → Nat → Byte) : Prop :=
  ∀ s a b x, r (w s a b) x = if a = x then b else r s x

section
variable {w : State → Nat → Byte → State} {r : State → Nat → Byte} {a : Nat} {bs : List Nat}

theorem ReadsBack.outside (h : ReadsBack w r) {x : Nat} (hx : x < a ∨ a + bs.length ≤ x) : r (writeBytes w s a bs) x = r s x := by
  induction bs generalizing s a with
  | nil => rfl
  | cons b bs ih =>
    have hne : a ≠ x := by
      rw [List.length_cons] at hx
      omega
    have hrest : x < a + 1 ∨ a + 1 + bs.length ≤ x := by
      rw [List.length_cons] at hx
      omega
    rw [writeBytes, ih hrest, h, if_neg hne]

theorem ReadsBack.inside (h : ReadsBack w r) {k : Nat} (hk : k < bs.length) :
    r (writeBytes w s a bs) (a + k) = BitVec.ofNat 8 bs[k] := by
  induction bs generalizing s a k with
  | nil => exact absurd hk (Nat.not_lt_zero k)
  | cons b bs ih =>
    rw [writeBytes]
    cases k with
    | zero => rw [h.outside (by omega), h, if_pos (Nat.add_zero a).symm, List.getElem_cons_zero]
    | succ k =>
      rw [List.length_cons] at hk
      have hnext : a + (k + 1) = a + 1 + k := by omega
      rw [hnext, ih (by omega), List.getElem_cons_succ]

/-- What has been written is read back as it was. -/
theorem ReadsBack.bytes (h : ReadsBack w r) (hb : ∀ b ∈ bs, b < 256) :
    (List.range bs.length).map (fun k => (r (writeBytes w s a bs) (a + k)).toNat) = bs := by
  refine List.ext_getElem (by simp) fun k hk hk' => ?_
  have hbyte : bs[k] % 2 ^ 8 = bs[k] := Nat.mod_eq_of_lt (hb _ (List.getElem_mem hk'))
  rw [List.getElem_map, List.getElem_range, h.inside hk', BitVec.toNat_ofNat, hbyte]

end

theorem sparse_readsBack {d : Nat → Byte} {m : List (Nat × Byte)} {a x : Nat} {b : Byte} :
    sparseGet d (sparseSet d m a b) x = if a = x then b else sparseGet d m x := by
  by_cases h : a = x
  · rw [if_pos h, ← h, sparseGet_set_same]
  · rw [if_neg h, sparseGet_set_ne _ _ _ h]

theorem setBulk_readsBack : ReadsBack State.setBulk State.bulkByte := fun _ _ _ _ => sparse_readsBack
theorem setTallyByte_readsBack : ReadsBack State.setTallyByte State.tallyByte := fun _ _ _ _ => sparse_readsBack
theorem setFlash_readsBack : ReadsBack State.setFlash State.flashByte := fun _ _ _ _ => sparse_readsBack

theorem leBytes_length {n x : Nat} : (leBytes n x).length = n := by
  induction n generalizing x with
  | zero => rfl
  | succ n ih => rw [leBytes, List.length_cons, ih]

theorem leBytes_lt {n x b : Nat} (h : b ∈ leBytes n x) : b < 256 := by
  induction n generalizing x with
  | zero => exact absurd h List.not_mem_nil
  | succ n ih =>
    rcases List.mem_cons.1 h with h | h
    · rw [h]
      exact Nat.mod_lt _ (by decide)
    · exact ih h

theorem State.writeTally_frame (s : State) (a : Nat) (bs : List Nat) :
    s.writeTally a bs = { s with tallyRam := (s.writeTally a bs).tallyRam } := by
  unfold State.writeTally
  induction bs generalizing s a with
  | nil => rfl
  | cons b bs ih => exact ih (s.setTallyByte a (BitVec.ofNat 8 b)) (a + 1)

theorem State.writeFlash_frame (s : State) (a : Nat) (bs : List Nat) :
    s.writeFlash a bs = { s with flash := (s.writeFlash a bs).flash } := by
  unfold State.writeFlash
  induction bs generalizing s a with
  | nil => rfl
  | cons b bs ih => exact ih (s.setFlash a (BitVec.ofNat 8 b)) (a + 1)

theorem State.Leaves.writeTally {l : List (Field × Nat)} {p : List Part} (h : s.Leaves l p t) (m : .tallyRam ∈ p) {a : Nat}
    {bs : List Nat} : s.Leaves l p (t.writeTally a bs) := by
  rw [State.writeTally_frame]
  exact h.tallyRamTo m

theorem State.Leaves.writeFlash {l : List (Field × Nat)} {p : List Part} (h : s.Leaves l p t) (m : .flash ∈ p) {a : Nat}
    {bs : List Nat} : s.Leaves l p (t.writeFlash a bs) := by
  rw [State.writeFlash_frame]
  exact h.flashTo m

/-! ### Numbers of two registers (R5) -/

theorem State.get64_put64_same {f : Field} {v i : Nat} : (s.put64 f v i).get64 f i = v % 2 ^ 64 := by
  have hne : f.addr i + 4 ≠ f.addr i := by omega
  rw [State.get64, State.put64, State.reg_setReg_ne hne, State.reg_setReg_same, State.reg_setReg_same, BitVec.toNat_ofNat,
    BitVec.toNat_ofNat]
  omega

theorem State.get_put64_of_ne {f g : Field} {v i j : Nat} (h : f.addr i ≠ g.addr j) (h' : f.addr i + 4 ≠ g.addr j) :
    (s.put64 f v i).get g j = s.get g j := by
  rw [State.get, State.put64, State.reg_setReg_ne h', State.reg_setReg_ne h, ← State.get]

theorem State.get64_put64_of_ne {f g : Field} {v i j : Nat} (h : f.addr i ≠ g.addr j) (h' : f.addr i + 4 ≠ g.addr j)
    (h'' : f.addr i ≠ g.addr j + 4) : (s.put64 f v i).get64 g j = s.get64 g j := by
  have hhigh : f.addr i + 4 ≠ g.addr j + 4 := by omega
  rw [State.get64, State.put64, State.reg_setReg_ne h', State.reg_setReg_ne h, State.reg_setReg_ne hhigh, State.reg_setReg_ne h'',
    ← State.get64]

/-! ### Frames -/

/-- A field element lies within another's bits. -/
def Field.within (q x : Field × Nat) : Bool :=
  Nat.beq (q.1.addr q.2) (x.1.addr x.2) && Nat.ble x.1.lo q.1.lo && Nat.ble (q.1.lo + q.1.width) (x.1.lo + x.1.width)

theorem inFields_of_within {l l' : List (Field × Nat)} {a b : Nat} (hl : ∀ q ∈ l, l'.any (Field.within q) = true)
    (h : inFields l a b = true) : inFields l' a b = true := by
  obtain ⟨q, hq, hin⟩ := List.any_eq_true.1 h
  obtain ⟨x, hx, hwithin⟩ := List.any_eq_true.1 (hl q hq)
  simp only [Field.within, Bool.and_eq_true, Nat.beq_eq, Nat.ble_eq] at hwithin
  obtain ⟨⟨haddr, hlow⟩, hhigh⟩ := hwithin
  simp only [Bool.and_eq_true, beq_iff_eq, decide_eq_true_eq] at hin
  obtain ⟨hat, hfrom, hto⟩ := hin
  refine List.any_eq_true.2 ⟨x, hx, ?_⟩
  simp only [Bool.and_eq_true, beq_iff_eq, decide_eq_true_eq]
  exact ⟨haddr.symm.trans hat, by omega, by omega⟩

/-- A frame with wider fields and more parts listed. -/
theorem State.Leaves.widen {l l' : List (Field × Nat)} {p : List Part} (h : s.Leaves l p t)
    (hl : ∀ q ∈ l ++ lostFields, (l' ++ lostFields).any (Field.within q) = true) : s.Leaves l' p t :=
  { h with regs := fun hr a b hb => h.regs hr a b (by
      rw [← Bool.not_eq_true] at hb ⊢
      exact fun hin => hb (inFields_of_within hl hin)) }

/-! ### The first failing check -/

/-- The outcome of a list of checks is a member's number and status, or that of none failing. -/
theorem firstFail_mem {l : List (Nat × Bool × Nat)} {n st : Nat} (h : firstFail l = (n, st)) :
    (n = 0 ∧ st = stOK) ∨ ∃ b, (n, b, st) ∈ l := by
  induction l with
  | nil => exact .inl ⟨(congrArg Prod.fst h).symm, (congrArg Prod.snd h).symm⟩
  | cons q l ih =>
    obtain ⟨m, failed, x⟩ := q
    rw [firstFail] at h
    cases hf : failed with
    | true =>
      rw [if_pos hf] at h
      obtain ⟨rfl, rfl⟩ := Prod.mk.inj h
      exact .inr ⟨true, List.mem_cons_self⟩
    | false =>
      rw [if_neg (by rw [hf]; decide)] at h
      rcases ih h with hnone | ⟨b, hb⟩
      · exact .inl hnone
      · exact .inr ⟨b, List.mem_cons_of_mem _ hb⟩

/-- Bounds that every check of a list keeps hold of the first failing one. -/
theorem firstFail_bounds {l : List (Nat × Bool × Nat)} {n st a b : Nat} (h : firstFail l = (n, st))
    (hl : l.all (fun q => Nat.ble q.1 a && Nat.ble q.2.2 b) = true) : n ≤ a ∧ st ≤ b := by
  rcases firstFail_mem h with ⟨rfl, rfl⟩ | ⟨failed, hmem⟩
  · exact ⟨Nat.zero_le _, Nat.zero_le _⟩
  · have hq := List.all_eq_true.1 hl _ hmem
    simpa only [Bool.and_eq_true, Nat.ble_eq] using hq

end Sys2Proof.Machine
end

section
/-! PROOFS. Injections (O59). -/
namespace Sys2Proof.Machine

variable {s t : State} {a : Armed}

/-! ### What a frame says of whole registers -/

theorem State.Leaves.reg_of_ne {l : List (Field × Nat)} {p : List Part} (h : s.Leaves l p t) (hr : .regs ∉ p) {x : Nat}
    (hl : ∀ q ∈ l ++ lostFields, q.1.addr q.2 ≠ x) : t.reg x = s.reg x := by
  refine BitVec.eq_of_getLsbD_eq fun b _ => h.regs hr x b ?_
  exact inFields_eq_false fun q hq haddr _ => absurd haddr (hl q hq)

/-- Neither register of a 64-bit number is listed. -/
def Field.clear64 (g : Field) (j : Nat) (q : Field × Nat) : Bool :=
  !(Nat.beq (q.1.addr q.2) (g.addr j)) && !(Nat.beq (q.1.addr q.2) (g.addr j + 4))

theorem State.Leaves.get64_clear {l : List (Field × Nat)} {p : List Part} (h : s.Leaves l p t) (hr : .regs ∉ p) {g : Field} {j : Nat}
    (hl : (l ++ lostFields).all (g.clear64 j) = true) : t.get64 g j = s.get64 g j := by
  have hne : ∀ q ∈ l ++ lostFields, q.1.addr q.2 ≠ g.addr j ∧ q.1.addr q.2 ≠ g.addr j + 4 := by
    intro q hq
    have hq := List.all_eq_true.1 hl q hq
    simp only [Field.clear64, Bool.and_eq_true, Bool.not_eq_true'] at hq
    obtain ⟨hlow, hhigh⟩ := hq
    exact ⟨Nat.ne_of_beq_eq_false hlow, Nat.ne_of_beq_eq_false hhigh⟩
  rw [State.get64, h.reg_of_ne hr fun q hq => (hne q hq).1, h.reg_of_ne hr fun q hq => (hne q hq).2, State.get64]

/-- No record yet, of a state whose intake stands as it was. -/
theorem State.Records.begin (h : t.tly.intake = s.tly.intake) (h' : t.tly.lostIntake = s.tly.lostIntake) : s.Records [] t := by
  simp [State.Records, h, h']

/-! ### The armed injection shown (R524) -/

theorem State.syncArmed_of_armed (h : s.flt.armed = some a) :
    s.syncArmed = (s.putFlag F.FLT_INJ_STAT_ARMED true).put F.FLT_INJ_STAT_REMAINING a.left := by simp only [State.syncArmed, h]

theorem State.syncArmed_of_none (h : s.flt.armed = none) :
    s.syncArmed = (s.putFlag F.FLT_INJ_STAT_ARMED false).put F.FLT_INJ_STAT_REMAINING 0 := by simp only [State.syncArmed, h]

theorem State.syncArmed_flt : s.syncArmed.flt = s.flt := by
  unfold State.syncArmed
  split <;> rw [State.put_flt, State.putFlag_flt]

theorem State.syncArmed_tly : s.syncArmed.tly = s.tly := by
  unfold State.syncArmed
  split <;> rw [State.put_tly, State.putFlag_tly]

theorem State.syncArmed_now : s.syncArmed.now = s.now := by
  unfold State.syncArmed
  split <;> rw [State.put_now, State.putFlag_now]

theorem State.get_syncArmed_clear {g : Field} {j : Nat} (h : F.FLT_INJ_STAT_ARMED.clear 0 g j = true)
    (h' : F.FLT_INJ_STAT_REMAINING.clear 0 g j = true) : s.syncArmed.get g j = s.get g j := by
  unfold State.syncArmed
  split <;> rw [State.get_put_clear h', State.get_putFlag_clear h]

theorem State.Leaves.syncArmed {l : List (Field × Nat)} {p : List Part} (h : s.Leaves l p t)
    (m : (F.FLT_INJ_STAT_ARMED, 0) ∈ l) (m' : (F.FLT_INJ_STAT_REMAINING, 0) ∈ l) : s.Leaves l p t.syncArmed := by
  have hshown : ∀ b n, s.Leaves l p ((t.putFlag F.FLT_INJ_STAT_ARMED b).put F.FLT_INJ_STAT_REMAINING n) := fun b n =>
    (h.putFlag (.inl (List.mem_append_left _ m))).put (.inl (List.mem_append_left _ m'))
  unfold State.syncArmed
  split
  · exact hshown true _
  · exact hshown false 0

/-- The state with another injection, or none, armed. -/
def State.withArmed (s : State) (x : Option Armed) : State := { s with flt := { s.flt with armed := x } }

theorem State.withArmed_tly {x : Option Armed} : (s.withArmed x).tly = s.tly := rfl
theorem State.withArmed_get {x : Option Armed} {g : Field} {j : Nat} : (s.withArmed x).get g j = s.get g j := rfl

/-! ### INJECTION_ARMED (R523) -/

/-- The outcome of an arm, shown. -/
def State.armShown (s : State) (n st : Nat) : State :=
  (((s.put F.FLT_INJ_STAT_RESULT st).put F.FLT_INJ_STAT_CHECK n).advance F.FLT_INJ_STAT_SEQ).raise F.FLT_EVT_INJ_DONE

/-- The injection that FLT_INJ_SEL and FLT_INJ_ARG name. -/
def State.chosenArm (s : State) : Armed :=
  { detector := s.get F.FLT_INJ_SEL_DETECTOR, unit := s.get F.FLT_INJ_SEL_UNIT, arg := s.get R.FLT_INJ_ARG,
    left := max 1 (s.get F.FLT_INJ_SEL_COUNT), perFrame := s.flag F.FLT_INJ_SEL_MODE, lastFrame := none }

/-- An accepted arm, armed and recorded. -/
def State.armAccepted (s : State) (a : Armed) : State :=
  ((s.withArmed (some a)).syncArmed).tally 0x1300 [a.detector, a.unit, a.arg, a.left, if a.perFrame then 1 else 0]

section
variable {n st : Nat}

theorem doInjectionArmed_of_checks
    (h : firstFail (s.injectionChecks (s.get F.FLT_INJ_SEL_DETECTOR) (s.get F.FLT_INJ_SEL_UNIT) (s.get R.FLT_INJ_ARG)) = (n, st)) :
    doInjectionArmed 0xFA17 s = if st ≠ stOK then s.armShown n st else (s.armShown n st).armAccepted s.chosenArm := by
  have hkey : ¬ (0xFA17 : Nat) ≠ 0xFA17 := not_not_intro rfl
  rw [doInjectionArmed, if_neg hkey]
  dsimp only
  rw [h]
  rfl

theorem injectionChecks_bounds {det unit arg : Nat} (h : firstFail (s.injectionChecks det unit arg) = (n, st)) : n ≤ 5 ∧ st ≤ 11 :=
  firstFail_bounds h rfl

theorem State.armShown_result (hn : n ≤ 5) (hst : st ≤ 11) :
    s.LoadResult F.FLT_INJ_STAT_RESULT F.FLT_INJ_STAT_CHECK F.FLT_INJ_STAT_SEQ F.FLT_EVT_INJ_DONE st n (s.armShown n st) := by
  refine ⟨?_, ?_, ?_, State.flag_raise_same rfl rfl⟩
  · rw [State.armShown, State.get_raise_clear rfl, State.get_advance_clear rfl, State.get_put_clear rfl,
      State.get_put_of_lt rfl (Nat.lt_of_le_of_lt hst (by decide))]
  · rw [State.armShown, State.get_raise_clear rfl, State.get_advance_clear rfl,
      State.get_put_of_lt rfl (Nat.lt_of_le_of_lt hn (by decide))]
  · rw [State.armShown, State.get_raise_clear rfl, State.get_advance_same rfl, State.get_put_clear rfl, State.get_put_clear rfl]

theorem State.Leaves.armShown {l : List (Field × Nat)} {p : List Part} (h : s.Leaves l p t)
    (hl : [(F.FLT_INJ_STAT_RESULT, 0), (F.FLT_INJ_STAT_CHECK, 0), (F.FLT_INJ_STAT_SEQ, 0), (F.FLT_EVT_INJ_DONE, 0)] ⊆ l) :
    s.Leaves l p (t.armShown n st) := by
  simp only [List.cons_subset] at hl
  obtain ⟨hresult, hcheck, hseq, hdone, -⟩ := hl
  exact (((h.put (.inl (List.mem_append_left _ hresult))).put (.inl (List.mem_append_left _ hcheck))).advance
    (.inl (List.mem_append_left _ hseq))).raise (.inl (List.mem_append_left _ hdone))

theorem State.armShown_flt : (s.armShown n st).flt = s.flt := by
  rw [State.armShown, State.raise_flt, State.advance_flt, State.put_flt, State.put_flt]

theorem State.armShown_tly : (s.armShown n st).tly = s.tly := by
  rw [State.armShown, State.raise_tly, State.advance_tly, State.put_tly, State.put_tly]

end

theorem State.armAccepted_flt : (s.armAccepted a).flt = { s.flt with armed := some a } := by
  rw [State.armAccepted, State.tally_flt, State.syncArmed_flt]
  rfl

theorem State.armAccepted_shown (ha : a.left < 256) : (s.armAccepted a).flag F.FLT_INJ_STAT_ARMED = true ∧
    (s.armAccepted a).get F.FLT_INJ_STAT_REMAINING = a.left := by
  constructor
  · rw [State.armAccepted, State.flag_tally_clear rfl rfl, State.syncArmed_of_armed (a := a) rfl, State.flag_put_clear rfl,
      State.flag_putFlag_same rfl rfl]
  · rw [State.armAccepted, State.get_tally_clear rfl rfl, State.syncArmed_of_armed (a := a) rfl,
      State.get_put_of_lt rfl (Nat.lt_of_lt_of_le ha (by decide))]

theorem State.get_armAccepted_clear {g : Field} {j : Nat} (h : F.FLT_INJ_STAT_ARMED.clear 0 g j = true)
    (h' : F.FLT_INJ_STAT_REMAINING.clear 0 g j = true) (hl : R.TLY_LOST.clear 0 g j = true)
    (hl' : F.TLY_EVT_LOST.clear 0 g j = true) : (s.armAccepted a).get g j = s.get g j := by
  rw [State.armAccepted, State.get_tally_clear hl hl', State.get_syncArmed_clear h h', State.withArmed_get]

/-- The fields that an accepted arm writes. -/
def armFields : List (Field × Nat) :=
  [(F.FLT_INJ_STAT_RESULT, 0), (F.FLT_INJ_STAT_CHECK, 0), (F.FLT_INJ_STAT_SEQ, 0), (F.FLT_EVT_INJ_DONE, 0),
    (F.FLT_INJ_STAT_ARMED, 0), (F.FLT_INJ_STAT_REMAINING, 0)]

theorem State.armed_leaves {n st : Nat} :
    s.Leaves [(R.FLT_INJ_STAT, 0), (F.FLT_EVT_INJ_DONE, 0)] [.flt] ((s.armShown n st).armAccepted a) := by
  have hshown : s.Leaves armFields [.flt] (s.armShown n st) := (State.Leaves.refl s _ _).armShown (by simp [armFields])
  have haccepted := ((hshown.fltTo (x := { (s.armShown n st).flt with armed := some a }) (by simp)).syncArmed (by simp [armFields])
    (by simp [armFields])).tally (c := 0x1300) (items := [a.detector, a.unit, a.arg, a.left, if a.perFrame then 1 else 0])
  exact haccepted.widen (by decide)

/-! ### INJECTION_CANCELLED (R526) -/

/-- An armed injection ended and recorded. -/
def State.armEnded (s : State) (a : Armed) (cause : Nat) : State :=
  (((s.withArmed none).raise F.FLT_EVT_INJ_DONE).tally 0x1302 [a.detector, a.left, cause])

theorem State.cancelArmed_of_armed {cause : Nat} (h : s.flt.armed = some a) :
    s.cancelArmed cause = (s.armEnded a cause).syncArmed := by
  simp only [State.cancelArmed, h]
  rfl

theorem State.armEnded_flt {cause : Nat} : (s.armEnded a cause).flt = { s.flt with armed := none } := by
  rw [State.armEnded, State.tally_flt, State.raise_flt]
  rfl

theorem State.armEnded_shown {cause : Nat} : (s.armEnded a cause).syncArmed.flag F.FLT_EVT_INJ_DONE = true ∧
    (s.armEnded a cause).syncArmed.flag F.FLT_INJ_STAT_ARMED = false ∧
    (s.armEnded a cause).syncArmed.get F.FLT_INJ_STAT_REMAINING = 0 := by
  have hnone : (s.armEnded a cause).flt.armed = none := by rw [State.armEnded_flt]
  rw [State.syncArmed_of_none hnone]
  refine ⟨?_, ?_, ?_⟩
  · rw [State.flag_put_clear rfl, State.flag_putFlag_clear rfl, State.armEnded, State.flag_tally_clear rfl rfl,
      State.flag_raise_same rfl rfl]
  · rw [State.flag_put_clear rfl, State.flag_putFlag_same rfl rfl]
  · rw [State.get_put_same rfl, Nat.zero_mod]

theorem State.armEnded_records {cause : Nat} : s.Records [(0x1302, [a.detector, a.left, cause])] (s.armEnded a cause).syncArmed := by
  refine State.Records.after ?_ State.syncArmed_tly State.syncArmed_now
  rw [State.armEnded]
  exact State.Records.one (State.raise_tly.trans State.withArmed_tly)

theorem State.armEnded_leaves {cause : Nat} :
    s.Leaves [(F.FLT_INJ_STAT_ARMED, 0), (F.FLT_INJ_STAT_REMAINING, 0), (F.FLT_EVT_INJ_DONE, 0)] [.flt] (s.armEnded a cause).syncArmed :=
  ((((State.Leaves.refl s _ _).fltTo (by simp)).raise (.inl (by simp))).tally).syncArmed (by simp) (by simp)

end Sys2Proof.Machine
end

section
/-! PROOFS. The records of the Tally and its mirror (O59). -/
namespace Sys2Proof.Machine

variable {s t u : State} {r : TallyRec} {off len : Nat}

/-! ### The ring (R529 to R532) -/

theorem State.loseOverwritten_zero : s.loseOverwritten 0 = s := if_pos rfl

/-- A span that no record of the ring reaches into clears nothing. -/
theorem State.clearCovered_of_free
    (h : s.tly.ring.all (fun q => decide (off + len ≤ q.off ∨ q.off + q.len ≤ off)) = true) : s.clearCovered off len = s := by
  have hmiss : ∀ q ∈ s.tly.ring.reverse, (!(decide (q.off < off + len) && decide (off < q.off + q.len))) = true := by
    intro q hq
    have hfree := of_decide_eq_true (List.all_eq_true.1 h q (List.mem_reverse.1 hq))
    rw [Bool.not_eq_true', Bool.and_eq_false_iff, decide_eq_false_iff_not, decide_eq_false_iff_not]
    omega
  have hkept : s.tly.ring.length - (s.tly.ring.reverse.takeWhile (fun q =>
      !(decide (q.off < off + len) && decide (off < q.off + q.len)))).length = 0 := by
    rw [List.takeWhile_eq_self_iff.2 hmiss, List.length_reverse, Nat.sub_self]
  unfold State.clearCovered
  dsimp only
  rw [hkept, List.take_zero, State.each_nil, List.filter_nil, List.length_nil, State.loseOverwritten_zero, ite_self]
  rfl

/-- A whole record at a place of the ring. -/
def State.recordPlaced (s : State) (r : TallyRec) (off len : Nat) : State :=
  ((((s.writeTally (off + 4) (leBytes 4 (s.get64 R.TLY_SEQ_LO % 2 ^ 32) ++ leBytes 8 r.time ++
    r.items.flatMap (fun i => leBytes 8 (i % 2 ^ 64)))).writeTally off (leBytes 4 (headWord r.code len 0x5A))).modTly
      (fun y => { y with ring := y.ring ++ [{ off := off, len := len, seq := s.get64 R.TLY_SEQ_LO }] })).put64
        R.TLY_SEQ_LO (s.get64 R.TLY_SEQ_LO + 1)).syncRing (off + len)

theorem State.writeRecord_of_free (hi : r.items.length ≤ 30) (hl : len = 16 + 8 * r.items.length)
    (hr : s.get F.TLY_NEXT_OFFSET + len ≤ ringBytes)
    (h : s.tly.ring.all (fun q => decide (s.get F.TLY_NEXT_OFFSET + len ≤ q.off ∨ q.off + q.len ≤ s.get F.TLY_NEXT_OFFSET)) = true) :
    s.writeRecord r true = s.recordPlaced r (s.get F.TLY_NEXT_OFFSET) len := by
  have hitems : r.items.take 30 = r.items := List.take_of_length_le hi
  have hroom : decide (ringBytes < s.get F.TLY_NEXT_OFFSET + len) = false := decide_eq_false (Nat.not_lt.2 hr)
  unfold State.writeRecord
  dsimp only
  rw [hitems, ← hl, hroom]
  simp only [Bool.false_eq_true, if_false, if_true]
  rw [State.clearCovered_of_free h]
  rfl

theorem State.syncRing_tly {n : Nat} : (s.syncRing n).tly = s.tly := by rw [State.syncRing, State.put_tly, State.put_tly]

theorem State.syncRing_tallyRam {n : Nat} : (s.syncRing n).tallyRam = s.tallyRam := by
  rw [State.syncRing, State.put_tallyRam, State.put_tallyRam]

theorem State.writeTally_tly {a : Nat} {bs : List Nat} : (s.writeTally a bs).tly = s.tly := by rw [State.writeTally_frame]

theorem State.recordPlaced_ring : (s.recordPlaced r off len).tly.ring =
    s.tly.ring ++ [{ off := off, len := len, seq := s.get64 R.TLY_SEQ_LO }] := by
  rw [State.recordPlaced, State.syncRing_tly, State.put64_tly, State.modTly_tly, State.writeTally_tly, State.writeTally_tly]

theorem State.recordPlaced_seq : (s.recordPlaced r off len).get64 R.TLY_SEQ_LO = (s.get64 R.TLY_SEQ_LO + 1) % 2 ^ 64 := by
  rw [State.recordPlaced, State.syncRing, State.get64_put_of_ne (by decide) (by decide), State.get64_put_of_ne (by decide) (by decide),
    State.get64_put64_same]

theorem State.recordPlaced_next : (s.recordPlaced r off len).get F.TLY_NEXT_OFFSET = (off + len) % ringBytes := by
  have hfits : (off + len) % ringBytes < 2 ^ F.TLY_NEXT_OFFSET.width :=
    Nat.lt_of_lt_of_le (Nat.mod_lt _ (by decide)) (by decide)
  rw [State.recordPlaced, State.syncRing, State.get_put_clear rfl, State.get_put_of_lt rfl hfits]

/-- The bytes of a record behind its HEAD. -/
def recordBody (seq : Nat) (r : TallyRec) : List Nat :=
  leBytes 4 seq ++ leBytes 8 r.time ++ r.items.flatMap (fun i => leBytes 8 (i % 2 ^ 64))

theorem recordBody_length {seq : Nat} : (recordBody seq r).length = 12 + 8 * r.items.length := by
  have hitems : (r.items.flatMap (fun i => leBytes 8 (i % 2 ^ 64))).length = 8 * r.items.length := by
    induction r.items with
    | nil => rfl
    | cons i l ih =>
      rw [List.flatMap_cons, List.length_append, leBytes_length, ih, List.length_cons]
      omega
  rw [recordBody, List.length_append, List.length_append, leBytes_length, leBytes_length, hitems]

theorem recordBody_lt {seq b : Nat} (h : b ∈ recordBody seq r) : b < 256 := by
  rw [recordBody, List.mem_append, List.mem_append, List.mem_flatMap] at h
  rcases h with (h | h) | ⟨i, -, h⟩ <;> exact leBytes_lt h

theorem State.recordPlaced_byte {x : Nat} : (s.recordPlaced r off len).tallyByte x =
    ((s.writeTally (off + 4) (recordBody (s.get64 R.TLY_SEQ_LO % 2 ^ 32) r)).writeTally off
      (leBytes 4 (headWord r.code len 0x5A))).tallyByte x := by
  have hram : (s.recordPlaced r off len).tallyRam = ((s.writeTally (off + 4) (recordBody (s.get64 R.TLY_SEQ_LO % 2 ^ 32) r)).writeTally off
      (leBytes 4 (headWord r.code len 0x5A))).tallyRam := by
    rw [State.recordPlaced, State.syncRing_tallyRam, State.put64_tallyRam, State.modTly_tallyRam, recordBody]
  rw [State.tallyByte, hram, ← State.tallyByte]

theorem State.tallyBytes_add {a m n : Nat} : s.tallyBytes a (m + n) = s.tallyBytes a m ++ s.tallyBytes (a + m) n := by
  rw [State.tallyBytes, List.range_add, List.map_append, List.map_map]
  refine congrArg (s.tallyBytes a m ++ ·) (List.map_congr_left fun k _ => ?_)
  rw [Function.comp_apply, Nat.add_assoc]

theorem State.recordPlaced_bytes (hl : len = 16 + 8 * r.items.length) : (s.recordPlaced r off len).tallyBytes off len =
    leBytes 4 (headWord r.code len 0x5A) ++ recordBody (s.get64 R.TLY_SEQ_LO % 2 ^ 32) r := by
  have hsplit : len = 4 + (recordBody (s.get64 R.TLY_SEQ_LO % 2 ^ 32) r).length := by
    rw [recordBody_length]
    omega
  have hhead : (s.recordPlaced r off len).tallyBytes off 4 = leBytes 4 (headWord r.code len 0x5A) := by
    have hbytes := setTallyByte_readsBack.bytes (s := s.writeTally (off + 4) (recordBody (s.get64 R.TLY_SEQ_LO % 2 ^ 32) r)) (a := off)
      (bs := leBytes 4 (headWord r.code len 0x5A)) fun b hb => leBytes_lt hb
    rw [leBytes_length] at hbytes
    rw [← hbytes]
    exact List.map_congr_left fun k _ => congrArg BitVec.toNat State.recordPlaced_byte
  have hbody : (s.recordPlaced r off len).tallyBytes (off + 4) (recordBody (s.get64 R.TLY_SEQ_LO % 2 ^ 32) r).length =
      recordBody (s.get64 R.TLY_SEQ_LO % 2 ^ 32) r := by
    have hbytes := setTallyByte_readsBack.bytes (s := s) (a := off + 4) (bs := recordBody (s.get64 R.TLY_SEQ_LO % 2 ^ 32) r)
      fun b hb => recordBody_lt hb
    refine Eq.trans (List.map_congr_left fun k _ => congrArg BitVec.toNat ?_) hbytes
    rw [State.recordPlaced_byte]
    refine setTallyByte_readsBack.outside (.inr ?_)
    rw [leBytes_length]
    omega
  have hparts := State.tallyBytes_add (s := s.recordPlaced r off len) (a := off) (m := 4)
    (n := (recordBody (s.get64 R.TLY_SEQ_LO % 2 ^ 32) r).length)
  rw [hhead, hbody, ← hsplit] at hparts
  exact hparts

theorem State.recordPlaced_outside (hl : len = 16 + 8 * r.items.length) {a : Nat} (ha : a < off ∨ off + len ≤ a) :
    (s.recordPlaced r off len).tallyByte a = s.tallyByte a := by
  have hbody := recordBody_length (r := r) (seq := s.get64 R.TLY_SEQ_LO % 2 ^ 32)
  rw [State.recordPlaced_byte]
  refine (setTallyByte_readsBack.outside ?_).trans (setTallyByte_readsBack.outside ?_)
  · rw [leBytes_length]
    omega
  · rw [hbody]
    omega

theorem State.Leaves.syncRing {l : List (Field × Nat)} {p : List Part} {n : Nat} (h : s.Leaves l p t)
    (m : (F.TLY_NEXT_OFFSET, 0) ∈ l ++ lostFields ∨ .regs ∈ p) (m' : (F.TLY_OLDEST_OFFSET, 0) ∈ l ++ lostFields ∨ .regs ∈ p) :
    s.Leaves l p (t.syncRing n) := (h.put m).put m'

theorem State.recordPlaced_leaves :
    s.Leaves [(R.TLY_SEQ_LO, 0), (R.TLY_SEQ_HI, 0), (F.TLY_NEXT_OFFSET, 0), (F.TLY_OLDEST_OFFSET, 0)] [.tly, .tallyRam]
      (s.recordPlaced r off len) :=
  (((((State.Leaves.refl s _ _).writeTally (by simp)).writeTally (by simp)).modTly (by simp)).put64 (g := R.TLY_SEQ_HI)
    (.inl (by simp)) (.inl (by simp)) rfl rfl rfl rfl rfl).syncRing (.inl (by simp)) (.inl (by simp))

/-! ### What any record written leaves -/

section
variable {l : List (Field × Nat)} {p : List Part} (hr : .regs ∈ p) (ht : .tly ∈ p) (hm : .tallyRam ∈ p)
include hr ht hm

theorem State.Leaves.clearCovered (h : s.Leaves l p t) : s.Leaves l p (t.clearCovered off len) := by
  unfold State.clearCovered
  dsimp only
  refine State.Leaves.ite _ ?_ ?_
  · refine State.Leaves.ite _ ?_ (State.Leaves.raise (State.Leaves.add (State.Leaves.modTly ?_ ht) (.inr hr)) (.inr hr))
    · exact (h.modTly ht).each fun q v _ hv => (hv.writeTally hm).bump (.inr hr)
    · exact (h.modTly ht).each fun q v _ hv => (hv.writeTally hm).bump (.inr hr)
  · exact (h.modTly ht).each fun q v _ hv => (hv.writeTally hm).bump (.inr hr)

theorem State.Leaves.writeRecord {done : Bool} (h : s.Leaves l p t) : s.Leaves l p (t.writeRecord r done) := by
  unfold State.writeRecord
  dsimp only
  refine State.Leaves.syncRing (State.Leaves.put64 (g := R.TLY_SEQ_HI) (State.Leaves.modTly (State.Leaves.ite _ ?_ ?_) ht) (.inr hr)
    (.inr hr) rfl rfl rfl rfl rfl) (.inr hr) (.inr hr)
  · exact (((State.Leaves.ite _ ((h.clearCovered hr ht hm).writeTally hm) h).clearCovered hr ht hm).writeTally hm).writeTally hm
  · exact (((State.Leaves.ite _ ((h.clearCovered hr ht hm).writeTally hm) h).clearCovered hr ht hm).writeTally hm).writeTally hm

end

theorem State.writeRecord_nowNs {done : Bool} : (s.writeRecord r done).nowNs = s.nowNs := by
  have hleaves := (State.Leaves.refl s [] [.regs, .tly, .tallyRam]).writeRecord (r := r) (done := done) (by simp) (by simp) (by simp)
  obtain ⟨hnow, -⟩ := hleaves.time (by simp)
  rw [State.nowNs, hnow, State.nowNs]

/-! ### Records accepted and suppressed (R531, R533) -/

theorem doTallyRecord_of_empty {cut : Bool} (h : s.tly.intake = []) : doTallyRecord cut s = s.reportLost := by
  simp only [doTallyRecord, h]

theorem doTallyRecord_of_waiting {cut : Bool} {l : List TallyRec} (h : s.tly.intake = r :: l) :
    doTallyRecord cut s = ((s.modTly (fun y => { y with intake := l })).acceptRecord r (!cut)).reportLost := by
  simp only [doTallyRecord, h]

theorem State.codeRate_intake {l : List TallyRec} {c : Nat} : (s.modTly (fun y => { y with intake := l })).codeRate c = s.codeRate c := rfl

theorem State.codeTokens_intake {l : List TallyRec} {c : Nat} :
    (s.modTly (fun y => { y with intake := l })).codeTokens c = s.codeTokens c := rfl

theorem State.codeTokens_le {c : Nat} : s.codeTokens c ≤ s.codeBurst c * wholeToken := by
  unfold State.codeTokens
  split
  · exact Nat.min_le_left _ _
  · exact Nat.le_refl _

theorem State.codeTokens_setTokens_same {c n : Nat} (h : n ≤ s.codeBurst c * wholeToken) : (s.setTokens c n).codeTokens c = n := by
  have hfind : (s.setTokens c n).tly.buckets.find? (fun b => b.code == c) = some { code := c, tokens := n, filled := s.uptime } := by
    have hnone : (s.tly.buckets.filter (fun b => b.code != c)).find? (fun b => b.code == c) = none := by
      refine List.find?_eq_none.2 fun b hb => ?_
      simpa using (List.mem_filter.1 hb).2
    have hlast : (([{ code := c, tokens := n, filled := s.uptime }] : List Bucket).find? (fun b => b.code == c)) =
        some { code := c, tokens := n, filled := s.uptime } := List.find?_cons_of_pos (beq_self_eq_true c)
    rw [State.setTokens, State.modTly_tly, List.find?_append, hnone, hlast, Option.none_or]
  have hup : (s.setTokens c n).uptime = s.uptime := State.modTly_uptime
  have hburst : (s.setTokens c n).codeBurst c = s.codeBurst c := rfl
  rw [State.codeTokens, hfind]
  dsimp only
  rw [hup, Nat.sub_self, Nat.mul_zero, Nat.add_zero, hburst, Nat.min_eq_right h]

theorem State.codeTokens_setTokens_other {c d n : Nat} (h : d ≠ c) : (s.setTokens c n).codeTokens d = s.codeTokens d := by
  have hfind : (s.setTokens c n).tly.buckets.find? (fun b => b.code == d) = s.tly.buckets.find? (fun b => b.code == d) := by
    have hkept : (s.tly.buckets.filter (fun b => b.code != c)).find? (fun b => b.code == d) =
        s.tly.buckets.find? (fun b => b.code == d) := by
      rw [List.find?_filter]
      refine congrArg (List.find? · s.tly.buckets) (funext fun b => ?_)
      by_cases hb : b.code = d
      · simp [hb, h]
      · simp [hb]
    have hlast : (([{ code := c, tokens := n, filled := s.uptime }] : List Bucket).find? (fun b => b.code == d)) = none :=
      List.find?_eq_none.2 fun b hb => by
        rw [List.mem_singleton.1 hb]
        simpa using Ne.symm h
    rw [State.setTokens, State.modTly_tly, List.find?_append, hkept, hlast, Option.or_none]
  rw [State.codeTokens, hfind, State.codeTokens]
  rfl

/-- A record of a code without a token is counted as suppressed. -/
def State.suppressed (s : State) (c : Nat) : State :=
  (((s.setTokens c (s.codeTokens c)).bump R.TLY_SUPPRESSED).bump F.TLY_CODE_SUPPRESSED c).raise F.TLY_EVT_SUPPRESSED

/-- It is noted for the report of the second. -/
def State.suppressionNoted (s : State) (c : Nat) : State :=
  s.modTly (fun y => { y with second := y.second.filter (fun q => q.1 != c) ++
    [(c, ((s.tly.second.find? (fun q => q.1 == c)).map Prod.snd).getD 0 + 1)] })

section
variable {done : Bool}

theorem State.acceptRecord_of_unlimited (h : s.codeRate r.code = 255) : s.acceptRecord r done = s.writeRecord r done := if_pos h

theorem State.acceptRecord_of_token (h : s.codeRate r.code ≠ 255) (hn : wholeToken ≤ s.codeTokens r.code) :
    s.acceptRecord r done = (s.setTokens r.code (s.codeTokens r.code - wholeToken)).writeRecord r done :=
  (if_neg h).trans (if_pos hn)

theorem State.acceptRecord_of_spent (h : s.codeRate r.code ≠ 255) (hn : s.codeTokens r.code < wholeToken) :
    s.acceptRecord r done = (s.suppressed r.code).suppressionNoted r.code := (if_neg h).trans (if_neg (Nat.not_le.2 hn))

end

theorem State.suppressionNoted_spec {c d : Nat} : ((s.suppressed c).suppressionNoted d).get R.TLY_SUPPRESSED =
      min 0xFFFFFFFF (s.get R.TLY_SUPPRESSED + 1) ∧
    ((s.suppressed c).suppressionNoted d).get F.TLY_CODE_SUPPRESSED c = min 0xFFFF (s.get F.TLY_CODE_SUPPRESSED c + 1) ∧
    ((s.suppressed c).suppressionNoted d).flag F.TLY_EVT_SUPPRESSED = true ∧
    ((s.suppressed c).suppressionNoted d).tly.ring = s.tly.ring ∧
    s.Leaves [(R.TLY_SUPPRESSED, 0), (F.TLY_CODE_SUPPRESSED, c), (F.TLY_EVT_SUPPRESSED, 0)] [.tly] ((s.suppressed c).suppressionNoted d) := by
  have habove : F.TLY_CODE_SUPPRESSED.clear c R.TLY_SUPPRESSED 0 = true :=
    Field.clear_of_addr rfl (Nat.ne_of_gt (Nat.lt_of_lt_of_le (by decide) (Nat.le_add_right _ _)))
  have hbelow : R.TLY_SUPPRESSED.clear 0 F.TLY_CODE_SUPPRESSED c = true := Field.clear_of_lt rfl (by decide)
  have hevent : F.TLY_EVT_SUPPRESSED.clear 0 F.TLY_CODE_SUPPRESSED c = true := Field.clear_of_lt rfl (by decide)
  rw [State.suppressionNoted, State.suppressed]
  refine ⟨?_, ?_, ?_, ?_, (((((State.Leaves.refl s _ _).modTly (by simp)).bump (.inl (by simp))).bump (.inl (by simp))).raise
    (.inl (by simp))).modTly (by simp)⟩
  · rw [State.modTly_get, State.get_raise_clear rfl, State.get_bump_clear habove, State.get_bump_max (m := 0xFFFFFFFF) rfl rfl,
      State.setTokens, State.modTly_get]
  · rw [State.modTly_get, State.get_raise_clear hevent, State.get_bump_max (m := 0xFFFF) rfl rfl, State.get_bump_clear hbelow,
      State.setTokens, State.modTly_get]
  · rw [State.modTly_flag, State.flag_raise_same rfl rfl]
  · rw [State.modTly_tly, State.raise_tly, State.bump_tly, State.bump_tly, State.setTokens, State.modTly_tly]

/-! ### The report of a second (R533) -/

/-- A suppressed code's record. -/
def suppressedRecord (now : Nat) (q : Nat × Nat) : TallyRec := { code := 0x1304, time := now % 2 ^ 64, items := [q.1, q.2] }

theorem doTallyReportSecond_of_none (h : s.tly.second = []) : doTallyReportSecond s = s.modTly (fun y => { y with second := [] }) := by
  rw [doTallyReportSecond, h]
  rfl

theorem doTallyReportSecond_of_two {c n d m : Nat} (h : s.tly.second = [(c, n), (d, m)])
    (hu : u = s.modTly (fun y => { y with second := [] })) : doTallyReportSecond s =
      if m ≤ n then (u.writeRecord (suppressedRecord s.nowNs (c, n)) true).writeRecord (suppressedRecord s.nowNs (d, m)) true
      else (u.writeRecord (suppressedRecord s.nowNs (d, m)) true).writeRecord (suppressedRecord s.nowNs (c, n)) true := by
  have hsorted : (sortBy (fun a b => decide (b.2 ≤ a.2)) [(c, n), (d, m)]).take 16 =
      if m ≤ n then [(c, n), (d, m)] else [(d, m), (c, n)] := by
    by_cases hmn : m ≤ n
    · simp [sortBy, insertBy, hmn]
    · simp [sortBy, insertBy, hmn]
  rw [doTallyReportSecond, h, hsorted, ← hu]
  by_cases hmn : m ≤ n
  · rw [if_pos hmn, if_pos hmn]
    rfl
  · rw [if_neg hmn, if_neg hmn]
    rfl

/-! ### The mirror (R535) -/

theorem doTallyMirror_of_off {er pr : Bool}
    (h : s.flag F.TLY_CTL_MIRROR_EN = false ∨ s.mirrorRegion = false ∨ bitAt (s.get F.PCR_PD_STAT_ON) 1 = false) :
    doTallyMirror er pr s = s := by
  refine if_pos ?_
  rcases h with h | h | h <;> simp [h]

/-- The next record to be mirrored. -/
def State.nextMirrored (s : State) : Option RingRec :=
  s.tly.ring.find? (fun r => decide (s.get64 R.TLY_MIRROR_SEQ_LO ≤ r.seq) && s.tly.reserved != some r)

/-- A record copied behind what its sector holds. -/
def State.flashCopied (s : State) (r : RingRec) : State :=
  ((s.writeFlash (s.sectorAt s.tly.mirror.cur + s.tly.mirror.used) (s.tallyBytes r.off r.len)).modTly
    (fun y => { y with mirror := { y.mirror with used := y.mirror.used + r.len } })).put64 R.TLY_MIRROR_SEQ_LO (r.seq + 1)

section
variable {er pr : Bool} {q : RingRec} (he : s.flag F.TLY_CTL_MIRROR_EN = true) (hr : s.mirrorRegion = true)
  (hp : bitAt (s.get F.PCR_PD_STAT_ON) 1 = true) (hn : s.nextMirrored = some q) (hu : 0 < s.tly.mirror.used)
  (hl : s.tly.mirror.used + q.len ≤ 65536)
include he hr hp hn hu hl

theorem doTallyMirror_of_room : doTallyMirror er pr s =
    if pr then s.badSector s.tly.mirror.cur 2
    else (s.flashCopied q).putFlag F.TLY_STAT_MIRROR_RUN (decide (q.seq + 1 < (s.flashCopied q).get64 R.TLY_SEQ_LO)) := by
  have hon : ¬ (!(s.flag F.TLY_CTL_MIRROR_EN && s.mirrorRegion && bitAt (s.get F.PCR_PD_STAT_ON) 1)) = true := by
    rw [he, hr, hp]
    decide
  have hfresh : ¬ (s.tly.mirror.used = 0 ∨ 65536 < s.tly.mirror.used + q.len) :=
    not_or.2 ⟨Nat.ne_of_gt hu, Nat.not_lt.2 hl⟩
  have herase : ¬ ((s.tly.mirror.used = 0 ∨ 65536 < s.tly.mirror.used + q.len) ∧ er = true) := fun h => hfresh h.1
  rw [State.nextMirrored] at hn
  rw [doTallyMirror, if_neg hon]
  dsimp only
  rw [hn]
  dsimp only
  rw [if_neg hfresh]
  dsimp only
  rw [if_neg herase, if_neg hfresh]
  rfl

end

theorem State.writeFlash_tly {a : Nat} {bs : List Nat} : (s.writeFlash a bs).tly = s.tly := by rw [State.writeFlash_frame]

section
variable {q : RingRec} {b : Bool}

theorem State.flashCopied_seq : ((s.flashCopied q).putFlag F.TLY_STAT_MIRROR_RUN b).get64 R.TLY_MIRROR_SEQ_LO = (q.seq + 1) % 2 ^ 64 := by
  rw [State.putFlag, State.get64_put_of_ne (by decide) (by decide), State.flashCopied, State.get64_put64_same]

theorem State.flashCopied_tly : ((s.flashCopied q).putFlag F.TLY_STAT_MIRROR_RUN b).tly.mirror =
    { s.tly.mirror with used := s.tly.mirror.used + q.len } := by
  rw [State.putFlag_tly, State.flashCopied, State.put64_tly, State.modTly_tly, State.writeFlash_tly]

theorem State.flashCopied_byte {x : Nat} : ((s.flashCopied q).putFlag F.TLY_STAT_MIRROR_RUN b).flashByte x =
    (s.writeFlash (s.sectorAt s.tly.mirror.cur + s.tly.mirror.used) (s.tallyBytes q.off q.len)).flashByte x := by
  rw [State.flashByte, State.putFlag_flash, State.flashCopied, State.put64_flash, State.modTly_flash, ← State.flashByte]

theorem State.tallyBytes_length {a n : Nat} : (s.tallyBytes a n).length = n := by
  rw [State.tallyBytes, List.length_map, List.length_range]

theorem State.flashCopied_inside {k : Nat} (hk : k < q.len) : ((s.flashCopied q).putFlag F.TLY_STAT_MIRROR_RUN b).flashByte
    (s.sectorAt s.tly.mirror.cur + s.tly.mirror.used + k) = s.tallyByte (q.off + k) := by
  have hlen : k < (s.tallyBytes q.off q.len).length := by rwa [State.tallyBytes_length]
  have hbyte : (s.tallyBytes q.off q.len)[k] = (s.tallyByte (q.off + k)).toNat := by
    simp only [State.tallyBytes, List.getElem_map, List.getElem_range]
  rw [State.flashCopied_byte]
  refine (setFlash_readsBack.inside hlen).trans ?_
  rw [hbyte, BitVec.ofNat_toNat, BitVec.setWidth_eq]

theorem State.flashCopied_outside {x : Nat} (hx : x < s.sectorAt s.tly.mirror.cur + s.tly.mirror.used ∨
    s.sectorAt s.tly.mirror.cur + s.tly.mirror.used + q.len ≤ x) :
    ((s.flashCopied q).putFlag F.TLY_STAT_MIRROR_RUN b).flashByte x = s.flashByte x := by
  rw [State.flashCopied_byte]
  refine setFlash_readsBack.outside ?_
  rwa [State.tallyBytes_length]

theorem State.flashCopied_leaves : s.Leaves [(R.TLY_MIRROR_SEQ_LO, 0), (R.TLY_MIRROR_SEQ_HI, 0), (F.TLY_STAT_MIRROR_RUN, 0)] [.tly, .flash]
    ((s.flashCopied q).putFlag F.TLY_STAT_MIRROR_RUN b) :=
  ((((State.Leaves.refl s _ _).writeFlash (by simp)).modTly (by simp)).put64 (g := R.TLY_MIRROR_SEQ_HI)
    (.inl (by simp)) (.inl (by simp)) rfl rfl rfl rfl rfl).putFlag (.inl (by simp))

end

theorem State.badSector_spec {i cause : Nat} : (s.badSector i cause).get F.TLY_STAT_BAD_SECTORS = min 0xFFFF (s.get F.TLY_STAT_BAD_SECTORS + 1) ∧
    (s.badSector i cause).flag F.TLY_EVT_MIRROR_FAIL = true ∧ (s.badSector i cause).tly.mirror.bad = s.tly.mirror.bad ++ [i] ∧
    s.Records [(0x1305, [cause, i])] (s.badSector i cause) ∧
    s.Leaves [(F.TLY_STAT_BAD_SECTORS, 0), (F.TLY_EVT_MIRROR_FAIL, 0)] [.tly] (s.badSector i cause) := by
  rw [State.badSector]
  refine ⟨?_, ?_, ?_, State.Records.snoc (l' := []) (State.Records.begin ?_ ?_),
    ((((State.Leaves.refl s _ _).modTly (by simp)).bump (.inl (by simp))).raise (.inl (by simp))).tally⟩
  · rw [State.get_tally_clear rfl rfl, State.get_raise_clear rfl, State.get_bump_max (m := 0xFFFF) rfl rfl, State.modTly_get]
  · rw [State.flag_tally_clear rfl rfl, State.flag_raise_same rfl rfl]
  · rw [State.tally_tly]
    split <;> rw [State.raise_tly, State.bump_tly, State.modTly_tly]
  · rw [State.raise_tly, State.bump_tly, State.modTly_tly]
  · rw [State.raise_tly, State.bump_tly, State.modTly_tly]

end Sys2Proof.Machine
end

section
/-! PROOFS. Check-value units, and the obligation on injections and records (O59). -/
namespace Sys2Proof.Machine

variable {s t : State}

/-! ### An accepted arm (R523) -/

/-- What the state shows after an accepted arm. -/
theorem State.armAccepted_spec {a : Armed} {n st : Nat} (hn : n ≤ 5) (hst : st ≤ 11) (ha : a.left < 256)
    (ht : t = (s.armShown n st).armAccepted a) : t.flt = { s.flt with armed := some a } ∧ t.flag F.FLT_INJ_STAT_ARMED = true ∧
    t.get F.FLT_INJ_STAT_REMAINING = a.left ∧ t.get F.FLT_INJ_STAT_RESULT = st ∧ t.flag F.FLT_EVT_INJ_DONE = true ∧
    s.Records [(0x1300, [a.detector, a.unit, a.arg, a.left, if a.perFrame then 1 else 0])] t ∧
    s.Leaves [(R.FLT_INJ_STAT, 0), (F.FLT_EVT_INJ_DONE, 0)] [.flt] t := by
  obtain ⟨hresult, -, -, hdone⟩ := State.armShown_result (s := s) hn hst
  obtain ⟨harmed, hleft⟩ := State.armAccepted_shown (s := s.armShown n st) ha
  subst ht
  refine ⟨?_, harmed, hleft, ?_, ?_, ?_, State.armed_leaves⟩
  · rw [State.armAccepted_flt, State.armShown_flt]
  · rw [State.get_armAccepted_clear rfl rfl rfl rfl, hresult]
  · rw [State.flag, State.get_armAccepted_clear rfl rfl rfl rfl]
    exact hdone
  · rw [State.armAccepted]
    exact State.Records.one ((State.syncArmed_tly.trans State.withArmed_tly).trans State.armShown_tly)

/-! ### Check values (R538 to R541) -/

/-- The unit takes no message of this kind. -/
def State.ckPasses (s : State) (u a : Nat) : Prop :=
  s.flag F.CK_CTL_EN u = false ∨ s.get F.CK_CTL_POINT u = 0 ∨ (s.flag F.CK_CTL_MATCH_EN u = true ∧ s.get F.CK_MATCH_A u ≠ a % 65536)

/-- A unit's value of a message: kept as the last one, added to the others and counted. -/
def State.ckTaken (s : State) (u v : Nat) : State :=
  ((s.put64 R.CK_LAST_LO v u).put64 R.CK_ACC_LO (s.get64 R.CK_ACC_LO u ^^^ v) u).bump R.CK_COUNT u

/-- The event bit of a unit's mismatch. -/
def ckBit (u : Nat) : Field := { F.CRC_EVT_MISMATCH with lo := u, width := 1 }

/-- A value that is not the expected one: detected, counted, shown and recorded. -/
def State.ckMismatch (s : State) (u v expect n : Nat) : State :=
  (((s.detect 0x2E).bump R.CK_MISMATCH u).raise (ckBit u)).tally 0x1306 [u, v, expect, n]

section
variable {u a n variant v : Nat} {m : List Nat} {alg : CrcAlg}

theorem doCheckValue_of_pass (h : s.ckPasses u a) : doCheckValue u a n variant m s = s := if_pos h

theorem doCheckValue_of_quiet (h : ¬ s.ckPasses u a) (hq : s.flt.armed = none) (ha : alg = crcAlgOf (s.get F.CK_CTL_ALG u))
    (hv : v = crcSeeded alg (checkSeed alg (s.get F.CK_CTL_POINT u) (s.get F.CK_CTL_FOLD u) (a % 65536) n variant m) m) :
    doCheckValue u a n variant m s =
      if (s.ckTaken u v).flag F.CK_CTL_CMP_EN u && v != (s.ckTaken u v).get64 R.CK_EXPECT_LO u % 2 ^ alg.width then
        (s.ckTaken u v).ckMismatch u v ((s.ckTaken u v).get64 R.CK_EXPECT_LO u % 2 ^ alg.width) n
      else s.ckTaken u v := by
  rw [State.ckPasses] at h
  unfold doCheckValue
  dsimp only
  rw [if_neg h, State.opportunity_of_quiet hq]
  dsimp only
  simp only [Bool.false_eq_true, if_false]
  rw [← ha, ← hv]
  rfl

end

/-- The fields in which a unit keeps a value. -/
def ckFields (u : Nat) : List (Field × Nat) :=
  [(R.CK_LAST_LO, u), (R.CK_LAST_HI, u), (R.CK_ACC_LO, u), (R.CK_ACC_HI, u), (R.CK_COUNT, u)]

/-- The fields in which a mismatch shows. -/
def ckMismatchFields (u : Nat) : List (Field × Nat) :=
  [(R.CK_MISMATCH, u), (ckBit u, 0), (F.FLT_DET_COUNT, 0x2E), (F.FLT_EVT_DETECTED, 0)]

section
variable {u : Fin 8} {v expect n : Nat}

theorem State.Leaves.ckTaken {l : List (Field × Nat)} {p : List Part} (h : s.Leaves l p t) (hl : ckFields u ⊆ l) :
    s.Leaves l p (t.ckTaken u v) := by
  simp only [ckFields, List.cons_subset] at hl
  obtain ⟨hlast, hlast', hacc, hacc', hcount, -⟩ := hl
  have hhigh : R.CK_LAST_HI.addr u = R.CK_LAST_LO.addr u + 4 := Nat.add_right_comm 0x180108 4 _
  have hhigh' : R.CK_ACC_HI.addr u = R.CK_ACC_LO.addr u + 4 := Nat.add_right_comm 0x180110 4 _
  exact ((h.put64 (.inl (List.mem_append_left _ hlast)) (.inl (List.mem_append_left _ hlast')) hhigh rfl rfl rfl rfl).put64
    (.inl (List.mem_append_left _ hacc)) (.inl (List.mem_append_left _ hacc')) hhigh' rfl rfl rfl rfl).bump
    (.inl (List.mem_append_left _ hcount))

theorem State.Leaves.ckMismatch {l : List (Field × Nat)} {p : List Part} (h : s.Leaves l p t) (hl : ckMismatchFields u ⊆ l) :
    s.Leaves l p (t.ckMismatch u v expect n) := by
  simp only [ckMismatchFields, List.cons_subset] at hl
  obtain ⟨hcount, hbit, hdetected, hevent, -⟩ := hl
  exact ((((h.bump (.inl (List.mem_append_left _ hdetected))).raise (.inl (List.mem_append_left _ hevent))).bump
    (.inl (List.mem_append_left _ hcount))).raise (.inl (List.mem_append_left _ hbit))).tally

theorem State.ckTaken_leaves : s.Leaves (ckFields u) [] (s.ckTaken u v) := (State.Leaves.refl s _ _).ckTaken (List.Subset.refl _)

theorem State.ckTaken_flag : (s.ckTaken u v).flag F.CK_CTL_CMP_EN u = s.flag F.CK_CTL_CMP_EN u := by
  have hclear : ∀ u : Fin 8, (ckFields u ++ lostFields).all (fun q => q.1.clear q.2 F.CK_CTL_CMP_EN u) = true := by decide
  exact State.ckTaken_leaves.flag_clear (by simp) (hclear u)

theorem State.ckTaken_expect : (s.ckTaken u v).get64 R.CK_EXPECT_LO u = s.get64 R.CK_EXPECT_LO u := by
  have hclear : ∀ u : Fin 8, (ckFields u ++ lostFields).all (R.CK_EXPECT_LO.clear64 u) = true := by decide
  exact State.ckTaken_leaves.get64_clear (by simp) (hclear u)

theorem State.ckTaken_mismatch : (s.ckTaken u v).get R.CK_MISMATCH u = s.get R.CK_MISMATCH u := by
  have hclear : ∀ u : Fin 8, (ckFields u ++ lostFields).all (fun q => q.1.clear q.2 R.CK_MISMATCH u) = true := by decide
  exact State.ckTaken_leaves.get_clear (by simp) (hclear u)

theorem State.get64_lt {f : Field} {i : Nat} : s.get64 f i < 2 ^ 64 := by
  have hlow := (s.reg (f.addr i)).isLt
  have hhigh := (s.reg (f.addr i + 4)).isLt
  rw [State.get64]
  omega

theorem State.ckTaken_shows : (s.ckTaken u v).get64 R.CK_LAST_LO u = v % 2 ^ 64 ∧
    (s.ckTaken u v).get64 R.CK_ACC_LO u = s.get64 R.CK_ACC_LO u ^^^ (v % 2 ^ 64) ∧
    (s.ckTaken u v).get R.CK_COUNT u = min 0xFFFFFFFF (s.get R.CK_COUNT u + 1) := by
  have hcount : R.CK_COUNT.addr u = 0x180120 + 0x40 * u := rfl
  have hlast : R.CK_LAST_LO.addr u = 0x180108 + 0x40 * u := rfl
  have hacc : R.CK_ACC_LO.addr u = 0x180110 + 0x40 * u := rfl
  rw [State.ckTaken]
  refine ⟨?_, ?_, ?_⟩
  · rw [State.bump, State.add, State.get64_put_of_ne (by omega) (by omega), State.get64_put64_of_ne (by omega) (by omega) (by omega),
      State.get64_put64_same]
  · rw [State.bump, State.add, State.get64_put_of_ne (by omega) (by omega), State.get64_put64_same, Nat.xor_mod_two_pow,
      Nat.mod_eq_of_lt State.get64_lt]
  · rw [State.get_bump_max (m := 0xFFFFFFFF) rfl rfl, State.get_put64_of_ne (by omega) (by omega),
      State.get_put64_of_ne (by omega) (by omega)]

theorem State.ckMismatch_leaves : s.Leaves (ckMismatchFields u) [] (s.ckMismatch u v expect n) :=
  (State.Leaves.refl s _ _).ckMismatch (List.Subset.refl _)

theorem State.ckMismatch_last : (s.ckMismatch u v expect n).get64 R.CK_LAST_LO u = s.get64 R.CK_LAST_LO u := by
  have hclear : ∀ u : Fin 8, (ckMismatchFields u ++ lostFields).all (R.CK_LAST_LO.clear64 u) = true := by decide
  exact State.ckMismatch_leaves.get64_clear (by simp) (hclear u)

theorem State.ckMismatch_acc : (s.ckMismatch u v expect n).get64 R.CK_ACC_LO u = s.get64 R.CK_ACC_LO u := by
  have hclear : ∀ u : Fin 8, (ckMismatchFields u ++ lostFields).all (R.CK_ACC_LO.clear64 u) = true := by decide
  exact State.ckMismatch_leaves.get64_clear (by simp) (hclear u)

theorem State.ckMismatch_count : (s.ckMismatch u v expect n).get R.CK_COUNT u = s.get R.CK_COUNT u := by
  have hclear : ∀ u : Fin 8, (ckMismatchFields u ++ lostFields).all (fun q => q.1.clear q.2 R.CK_COUNT u) = true := by decide
  exact State.ckMismatch_leaves.get_clear (by simp) (hclear u)

/-- A bit of the units' event field, as a field of its own. -/
theorem bitAt_get_mismatch : bitAt (s.get F.CRC_EVT_MISMATCH) u = s.flag (ckBit u) := by
  have hlow : s.get F.CRC_EVT_MISMATCH = (s.reg 0x180008).toNat / 2 ^ 0 % 2 ^ 8 := rfl
  have hbit : s.get (ckBit u) = (s.reg 0x180008).toNat / 2 ^ u.val % 2 ^ 1 := rfl
  have hu : u.val < 8 := u.isLt
  rw [State.flag, hbit, hlow, bitAt_eq_testBit, Nat.testBit_mod_two_pow, Nat.pow_zero, Nat.div_one, decide_eq_true hu, Bool.true_and,
    Nat.testBit_eq_decide_div_mod_eq, Nat.pow_one]
  rcases Nat.mod_two_eq_zero_or_one ((s.reg 0x180008).toNat / 2 ^ u.val) with h | h <;> rw [h] <;> rfl

theorem State.ckMismatch_shows : (s.ckMismatch u v expect n).get R.CK_MISMATCH u = min 0xFFFFFFFF (s.get R.CK_MISMATCH u + 1) ∧
    bitAt ((s.ckMismatch u v expect n).get F.CRC_EVT_MISMATCH) u = true := by
  have hfits : ∀ u : Fin 8, (ckBit u).fits = true := by decide
  have hlost : ∀ u : Fin 8, R.TLY_LOST.clear 0 R.CK_MISMATCH u = true ∧ F.TLY_EVT_LOST.clear 0 R.CK_MISMATCH u = true ∧
      (ckBit u).clear 0 R.CK_MISMATCH u = true ∧ F.FLT_DET_COUNT.clear 0x2E R.CK_MISMATCH u = true ∧
      F.FLT_EVT_DETECTED.clear 0 R.CK_MISMATCH u = true ∧ R.TLY_LOST.clear 0 (ckBit u) 0 = true ∧
      F.TLY_EVT_LOST.clear 0 (ckBit u) 0 = true := by decide
  obtain ⟨hlost, hlost', hbit, hcount, hdetected, hbitLost, hbitLost'⟩ := hlost u
  constructor
  · rw [State.ckMismatch, State.get_tally_clear hlost hlost', State.get_raise_clear hbit, State.get_bump_max (m := 0xFFFFFFFF) rfl rfl,
      State.detect, State.get_raise_clear hdetected, State.get_bump_clear hcount]
  · rw [bitAt_get_mismatch, State.ckMismatch, State.flag_tally_clear hbitLost hbitLost', State.flag_raise_same (hfits u) rfl]

theorem State.ckTaken_tly : (s.ckTaken u v).tly = s.tly := by rw [State.ckTaken, State.bump_tly, State.put64_tly, State.put64_tly]

theorem State.ckMismatch_records : s.Records [(0x1306, [u.val, v, expect, n])] ((s.ckTaken u v).ckMismatch u v expect n) := by
  rw [State.ckMismatch]
  refine State.Records.one ?_
  rw [State.raise_tly, State.bump_tly, State.detect, State.raise_tly, State.bump_tly, State.ckTaken_tly]

/-- What a mismatch changes, in the fields of the obligation. -/
theorem State.ckMismatch_widened : s.Leaves [(R.CK_LAST_LO, u), (R.CK_LAST_HI, u), (R.CK_ACC_LO, u), (R.CK_ACC_HI, u), (R.CK_COUNT, u),
    (R.CK_MISMATCH, u), (F.CRC_EVT_MISMATCH, 0), (F.FLT_DET_COUNT, 0x2E), (F.FLT_EVT_DETECTED, 0)] []
    ((s.ckTaken u v).ckMismatch u v expect n) := by
  have hwithin : ∀ u : Fin 8, ∀ q ∈ (ckFields u ++ ckMismatchFields u) ++ lostFields,
      ([(R.CK_LAST_LO, u.val), (R.CK_LAST_HI, u.val), (R.CK_ACC_LO, u.val), (R.CK_ACC_HI, u.val), (R.CK_COUNT, u.val),
        (R.CK_MISMATCH, u.val), (F.CRC_EVT_MISMATCH, 0), (F.FLT_DET_COUNT, 0x2E), (F.FLT_EVT_DETECTED, 0)] ++ lostFields).any
        (Field.within q) = true := by decide
  have htaken : s.Leaves (ckFields u ++ ckMismatchFields u) [] (s.ckTaken u v) :=
    (State.Leaves.refl s _ _).ckTaken (List.subset_append_left _ _)
  exact (htaken.ckMismatch (List.subset_append_right _ _)).widen (hwithin u)

end

/-- Settles O59: arms by the first failing check, records by the token of their code, the ring and the mirror by the bytes
written, check values by what a unit keeps. -/
theorem injectionsAndRecords : Obligations.InjectionsAndRecords := by
  refine ⟨fun s key h => ⟨congrArg Host.Outcome.next (if_pos h), congrArg Host.Outcome.next (if_pos h)⟩,
    fun s det unit arg n st hdet hunit harg hf => ?_, fun s h => congrArg Host.Outcome.next ?_, fun s a h => ?_,
    fun s cut h => congrArg Host.Outcome.next (doTallyRecord_of_empty h), fun s u cut r l h hu => ⟨fun hrate => ?_, fun hrate htok => ?_,
      fun hrate htok => ?_⟩,
    fun s r next len hn hi hl hr hfree => ?_, fun s u hu => ⟨fun h => ?_, fun c n d m h => ?_⟩,
    fun s er pr h => congrArg Host.Outcome.next (doTallyMirror_of_off h), fun s er pr r he hm hp hr hu hl => ⟨fun hpr => ?_, fun hpr => ?_⟩,
    fun s u a n v m h => congrArg Host.Outcome.next (doCheckValue_of_pass h),
    fun s u a n variant v m alg hen hpoint hmatch hq halg hv => ?_⟩
  · subst hdet hunit harg
    obtain ⟨hn, hst⟩ := injectionChecks_bounds hf
    have hexec := doInjectionArmed_of_checks hf
    have hcount : s.chosenArm.left < 256 := Nat.max_lt.2 ⟨by decide, State.get_lt⟩
    obtain ⟨hflt, harmed, hleft, hshown, hdone, hrec, hleaves⟩ := State.armAccepted_spec hn hst hcount rfl
    exact ⟨s.armShown n st, State.armShown_result hn hst, fun hbad => ⟨congrArg Host.Outcome.next (hexec.trans (if_pos hbad)),
      (State.Leaves.refl s _ _).armShown (List.Subset.refl _)⟩, fun hok => ⟨_, congrArg Host.Outcome.next (hexec.trans
        (if_neg (not_not_intro hok))), hflt, harmed, hleft, hshown.trans hok, hdone, hrec, hleaves⟩⟩
  · have hkey : ¬ (0xFA17 : Nat) ≠ 0xFA17 := not_not_intro rfl
    rw [doInjectionCancelled, if_neg hkey]
    simp only [State.cancelArmed, h]
  · have hkey : ¬ (0xFA17 : Nat) ≠ 0xFA17 := not_not_intro rfl
    obtain ⟨hdone, harmed, hleft⟩ := State.armEnded_shown (s := s) (a := a) (cause := 0)
    exact ⟨_, congrArg Host.Outcome.next ((if_neg hkey).trans (State.cancelArmed_of_armed h)),
      State.syncArmed_flt.trans State.armEnded_flt, hdone, harmed, hleft, State.armEnded_records, State.armEnded_leaves⟩
  · refine congrArg Host.Outcome.next ?_
    rw [doTallyRecord_of_waiting h, ← hu, State.acceptRecord_of_unlimited (by rw [hu, State.codeRate_intake, hrate])]
  · have hrate' : u.codeRate r.code ≠ 255 := by rwa [hu, State.codeRate_intake]
    have hsame : ∀ c, u.codeTokens c = s.codeTokens c := fun c => by rw [hu, State.codeTokens_intake]
    have hexec := State.acceptRecord_of_token (done := !cut) hrate' (by rw [hsame]; exact htok)
    refine ⟨u.setTokens r.code (u.codeTokens r.code - wholeToken), congrArg Host.Outcome.next
      ((doTallyRecord_of_waiting h).trans ?_), ?_, fun c hc => ?_, (State.Leaves.refl u _ _).modTly (by simp)⟩
    · rw [← hu, hexec]
    · rw [State.codeTokens_setTokens_same (Nat.le_trans (Nat.sub_le _ _) State.codeTokens_le), hsame]
    · rw [State.codeTokens_setTokens_other hc, hsame]
  · have hrate' : u.codeRate r.code ≠ 255 := by rwa [hu, State.codeRate_intake]
    have hspent : u.codeTokens r.code < wholeToken := by rwa [hu, State.codeTokens_intake]
    obtain ⟨hall, hcode, hflag, hring, hleaves⟩ := State.suppressionNoted_spec (s := u) (c := r.code) (d := r.code)
    refine ⟨_, congrArg Host.Outcome.next ((doTallyRecord_of_waiting h).trans ?_), ?_, ?_, hflag, ?_, hleaves⟩
    · rw [← hu, State.acceptRecord_of_spent hrate' hspent]
    · rw [hall, hu, State.modTly_get]
    · rw [hcode, hu, State.modTly_get]
    · rw [hring, hu, State.modTly_tly]
  · subst hn
    refine ⟨_, State.writeRecord_of_free hi hl hr hfree, State.recordPlaced_seq, State.recordPlaced_ring, State.recordPlaced_next, ?_,
      fun a ha => State.recordPlaced_outside hl ha, State.recordPlaced_leaves⟩
    rw [State.recordPlaced_bytes hl, recordBody, ← List.append_assoc, ← List.append_assoc]
  · exact congrArg Host.Outcome.next ((doTallyReportSecond_of_none h).trans hu.symm)
  · have hnow : u.nowNs = s.nowNs := by rw [hu, State.nowNs, State.modTly_now, State.nowNs]
    refine congrArg Host.Outcome.next ((doTallyReportSecond_of_two h hu).trans ?_)
    rw [State.writeRecord_nowNs, State.writeRecord_nowNs, hnow]
    rfl
  · have hexec := doTallyMirror_of_room (er := er) (pr := pr) he hm hp hr hu hl
    rw [hpr, if_neg Bool.false_ne_true] at hexec
    rw [hpr]
    exact ⟨_, congrArg Host.Outcome.next hexec, State.flashCopied_seq, fun k hk => State.flashCopied_inside hk,
      fun a ha => State.flashCopied_outside ha, State.flashCopied_tly, State.flashCopied_leaves⟩
  · have hexec := doTallyMirror_of_room (er := er) (pr := pr) he hm hp hr hu hl
    rw [hpr, if_pos rfl] at hexec
    rw [hpr]
    exact ⟨_, congrArg Host.Outcome.next hexec, State.badSector_spec⟩
  · have htakes : ¬ s.ckPasses u a := by
      rintro (h | h | ⟨h, h'⟩)
      · exact Bool.false_ne_true (h.symm.trans hen)
      · exact hpoint h
      · exact h' (hmatch h)
    have hexec := doCheckValue_of_quiet htakes hq halg hv
    rw [State.ckTaken_flag, State.ckTaken_expect] at hexec
    obtain ⟨hlast, hacc, hcount⟩ := State.ckTaken_shows (s := s) (u := u) (v := v)
    by_cases hmiss : s.flag F.CK_CTL_CMP_EN u = true ∧ v ≠ s.get64 R.CK_EXPECT_LO u % 2 ^ alg.width
    · obtain ⟨hcmp, hdiff⟩ := hmiss
      obtain ⟨hshown, hbit⟩ := State.ckMismatch_shows (s := s.ckTaken u v) (u := u) (v := v)
        (expect := s.get64 R.CK_EXPECT_LO u % 2 ^ alg.width) (n := n)
      rw [State.ckTaken_mismatch] at hshown
      rw [if_pos (by rw [hcmp, bne_iff_ne.2 hdiff]; rfl)] at hexec
      refine ⟨_, congrArg Host.Outcome.next hexec, State.ckMismatch_last.trans hlast, State.ckMismatch_acc.trans hacc,
        State.ckMismatch_count.trans hcount, fun hsame => ?_,
        fun _ _ => ⟨hshown, hbit, State.ckMismatch_records, State.ckMismatch_widened⟩⟩
      rcases hsame with h | h
      · exact absurd (h.symm.trans hcmp) Bool.false_ne_true
      · exact absurd h hdiff
    · rw [if_neg (by rwa [Bool.and_eq_true, bne_iff_ne])] at hexec
      exact ⟨_, congrArg Host.Outcome.next hexec, hlast, hacc, hcount, fun _ => ⟨State.ckTaken_leaves, State.Records.none State.ckTaken_tly⟩,
        fun hcmp hdiff => absurd ⟨hcmp, hdiff⟩ hmiss⟩

end Sys2Proof.Machine
end

section
/-! PROOFS. What the operations of a live update show and leave: results, the slot table, the end of an update (O60). -/
namespace Sys2Proof.Machine

variable {s t : State} {l : List (Field × Nat)} {p : List Part}

/-! ### Results -/

section
variable {st n : Nat}

theorem State.Leaves.updResult (h : s.Leaves l p t) (hl : updResultFields ⊆ l) : s.Leaves l p (t.updResult st n) := by
  simp only [updResultFields, List.cons_subset] at hl
  obtain ⟨hresult, hcheck, hseq, hdone, -⟩ := hl
  exact (((h.put (.inl (List.mem_append_left _ hresult))).put (.inl (List.mem_append_left _ hcheck))).advance
    (.inl (List.mem_append_left _ hseq))).raise (.inl (List.mem_append_left _ hdone))

theorem State.updResult_leaves : s.Leaves updResultFields [] (s.updResult st n) :=
  (State.Leaves.refl s _ _).updResult (List.Subset.refl _)

theorem State.updResult_result (hst : st ≤ 11) (hn : n ≤ 9) (hseq : t.get F.UPD_STAT_SEQ = s.get F.UPD_STAT_SEQ) :
    s.UpdResult st n (t.updResult st n) := by
  refine ⟨?_, ?_, ?_, State.flag_raise_same rfl rfl⟩
  · rw [State.updResult, State.get_raise_clear rfl, State.get_advance_clear rfl, State.get_put_clear rfl,
      State.get_put_of_lt rfl (Nat.lt_of_le_of_lt hst (by decide))]
  · rw [State.updResult, State.get_raise_clear rfl, State.get_advance_clear rfl,
      State.get_put_of_lt rfl (Nat.lt_of_le_of_lt hn (by decide))]
  · rw [State.updResult, State.get_raise_clear rfl, State.get_advance_same rfl, State.get_put_clear rfl, State.get_put_clear rfl, hseq]

theorem State.updResult_upd : (s.updResult st n).upd = s.upd := by
  rw [State.updResult, State.raise_upd, State.advance_upd, State.put_upd, State.put_upd]

theorem State.updResult_tly : (s.updResult st n).tly = s.tly := by
  rw [State.updResult, State.raise_tly, State.advance_tly, State.put_tly, State.put_tly]

theorem State.updResult_now : (s.updResult st n).now = s.now := by
  rw [State.updResult, State.raise_now, State.advance_now, State.put_now, State.put_now]

theorem State.updResult_fuses : (s.updResult st n).fuses = s.fuses := by
  rw [State.updResult, State.raise_fuses, State.advance_fuses, State.put_fuses, State.put_fuses]

theorem State.get_updResult {g : Field} {j : Nat} (h : (updResultFields ++ lostFields).all (fun q => q.1.clear q.2 g j) = true) :
    (s.updResult st n).get g j = s.get g j := State.updResult_leaves.get_clear (by simp) h

theorem State.flag_updResult {g : Field} {j : Nat} (h : (updResultFields ++ lostFields).all (fun q => q.1.clear q.2 g j) = true) :
    (s.updResult st n).flag g j = s.flag g j := State.updResult_leaves.flag_clear (by simp) h

/-- The records of a state stand when the result of the operation is written. -/
theorem State.Records.updResult {k : List (Nat × List Nat)} (h : s.Records k t) : s.Records k (t.updResult st n) :=
  h.after State.updResult_tly State.updResult_now

end

/-! ### The end of an update -/

/-- The fields that the end of an update writes. -/
def updIdleFields : List (Field × Nat) := [(F.UPD_STAT_PHASE, 0), (F.UPD_STAT_CORE, 0)]

theorem State.Leaves.updIdle (h : s.Leaves l p t) (hl : updIdleFields ⊆ l) (m : .upd ∈ p) : s.Leaves l p t.updIdle := by
  simp only [updIdleFields, List.cons_subset] at hl
  obtain ⟨hphase, hcore, -⟩ := hl
  exact ((h.put (.inl (List.mem_append_left _ hphase))).put (.inl (List.mem_append_left _ hcore))).modUpd m

theorem State.updIdle_phase : s.updIdle.updPhase = 0 := by
  rw [State.updPhase, State.updIdle, State.modUpd_get, State.get_put_clear rfl, State.get_put_same rfl, Nat.zero_mod]

theorem State.updIdle_core : s.updIdle.get F.UPD_STAT_CORE = 7 := by
  rw [State.updIdle, State.modUpd_get, State.get_put_of_lt rfl (by decide)]

theorem State.updIdle_upd : s.updIdle.upd = { s.upd with next := none, handed := [], gapFrom := none, back := 0 } := by
  rw [State.updIdle, State.modUpd_upd, State.put_upd, State.put_upd]

theorem State.updIdle_tly : s.updIdle.tly = s.tly := by rw [State.updIdle, State.modUpd_tly, State.put_tly, State.put_tly]

theorem State.updIdle_now : s.updIdle.now = s.now := by rw [State.updIdle, State.modUpd_now, State.put_now, State.put_now]

theorem State.get_updIdle {g : Field} {j : Nat} (h : F.UPD_STAT_PHASE.clear 0 g j = true) (h' : F.UPD_STAT_CORE.clear 0 g j = true) :
    s.updIdle.get g j = s.get g j := by rw [State.updIdle, State.modUpd_get, State.get_put_clear h', State.get_put_clear h]

theorem State.flag_updIdle {g : Field} {j : Nat} (h : F.UPD_STAT_PHASE.clear 0 g j = true) (h' : F.UPD_STAT_CORE.clear 0 g j = true) :
    s.updIdle.flag g j = s.flag g j := by rw [State.flag, State.get_updIdle h h', State.flag]

theorem State.Records.updIdle {k : List (Nat × List Nat)} (h : s.Records k t) : s.Records k t.updIdle :=
  h.after State.updIdle_tly State.updIdle_now

/-! ### The slot table (R549) -/

/-- The fields that show the slot table. -/
def slotFields : List (Field × Nat) :=
  (List.range 4).flatMap (fun i => [(F.UPD_SLOT_STATE, i), (F.UPD_SLOT_SEC_VER, i), (R.UPD_SLOT_VER, i), (F.UPD_SLOT_RUNNING, i)])

/-- The fields that a change of the slot table writes. -/
def tableFields : List (Field × Nat) := slotFields ++ [(F.UPD_EVT_FLASH_ERR, 0)]

theorem State.Leaves.showSlots (h : s.Leaves l p t) (hl : slotFields ⊆ l) : s.Leaves l p t.showSlots := by
  refine h.each fun i u hi hu => ?_
  have hshown : ∀ f ∈ [F.UPD_SLOT_STATE, F.UPD_SLOT_SEC_VER, R.UPD_SLOT_VER, F.UPD_SLOT_RUNNING], (f, i) ∈ l := by
    intro f hf
    refine hl (List.mem_flatMap.2 ⟨i, hi, ?_⟩)
    have hmem := List.mem_map_of_mem (f := fun f => (f, i)) hf
    exact hmem
  simp only [List.forall_mem_cons] at hshown
  obtain ⟨hstate, hsec, hver, hrun, -⟩ := hshown
  exact (((hu.put (.inl (List.mem_append_left _ hstate))).put (.inl (List.mem_append_left _ hsec))).put
    (.inl (List.mem_append_left _ hver))).putFlag (.inl (List.mem_append_left _ hrun))

theorem State.Leaves.updateSlots {fails : Nat} {f : Nat → Nat → SlotEntry → SlotEntry} (h : s.Leaves l p t) (hl : tableFields ⊆ l)
    (m : .flash ∈ p) : s.Leaves l p (t.updateSlots fails f) := by
  have hslots : slotFields ⊆ l := List.Subset.trans (List.subset_append_left _ _) hl
  have herr : (F.UPD_EVT_FLASH_ERR, 0) ∈ l := hl (List.mem_append_right _ List.mem_cons_self)
  exact State.Leaves.ite _ ((h.writeFlash m).showSlots hslots) (State.Leaves.ite _ ((h.writeFlash m).showSlots hslots)
    (h.raise (.inl (List.mem_append_left _ herr))).tally)

section
variable {fails : Nat} {f : Nat → Nat → SlotEntry → SlotEntry}

theorem State.updateSlots_leaves : s.Leaves tableFields [.flash] (s.updateSlots fails f) :=
  (State.Leaves.refl s _ _).updateSlots (List.Subset.refl _) (by simp)

theorem State.updateSlots_upd : (s.updateSlots fails f).upd = s.upd := State.updateSlots_leaves.upd (by simp)

theorem State.updateSlots_now : (s.updateSlots fails f).now = s.now := (State.updateSlots_leaves.time (by simp)).1

theorem State.updateSlots_uptime : (s.updateSlots fails f).uptime = s.uptime := (State.updateSlots_leaves.time (by simp)).2

theorem State.updateSlots_fuses : (s.updateSlots fails f).fuses = s.fuses := State.updateSlots_leaves.fuses (by simp)

theorem State.get_updateSlots {g : Field} {j : Nat} (h : (tableFields ++ lostFields).all (fun q => q.1.clear q.2 g j) = true) :
    (s.updateSlots fails f).get g j = s.get g j := State.updateSlots_leaves.get_clear (by simp) h

theorem State.showSlots_tly : s.showSlots.tly = s.tly :=
  State.each_proj (g := State.tly) fun i _ t => by rw [State.putFlag_tly, State.put_tly, State.put_tly, State.put_tly]

/-- A change of the table that is written records nothing. -/
theorem State.updateSlots_zero_tly : (s.updateSlots 0 f).tly = s.tly := by
  unfold State.updateSlots
  rw [if_pos rfl, State.writeSlots, State.showSlots_tly, State.writeFlash_tly]

end

/-! ### Checks that all pass -/

theorem firstFail_passed {l : List (Nat × Bool × Nat)} {n : Nat} (h : firstFail l = (n, stOK))
    (hl : l.all (fun q => !Nat.beq q.2.2 stOK) = true) : ∀ q ∈ l, q.2.1 = false := by
  induction l with
  | nil => exact fun q hq => absurd hq List.not_mem_nil
  | cons x l ih =>
    obtain ⟨m, failed, st⟩ := x
    rw [List.all_cons, Bool.and_eq_true, Bool.not_eq_true'] at hl
    obtain ⟨hst, hl⟩ := hl
    rw [firstFail] at h
    cases hf : failed with
    | true =>
      rw [if_pos hf] at h
      exact absurd (congrArg Prod.snd h) (Nat.ne_of_beq_eq_false hst)
    | false =>
      rw [if_neg (by rw [hf]; decide)] at h
      intro q hq
      rcases List.mem_cons.1 hq with rfl | hq
      · rfl
      · exact ih h hl q hq

end Sys2Proof.Machine
end

section
/-! PROOFS. A live update is loaded, staged and handed over (O60). -/
namespace Sys2Proof.Machine

variable {s t u : State}

/-! ### FW_LOAD (R552) -/

/-- Fields of the image at UPD_SRC. -/
def State.sourceReader (s : State) : Reader := fun o n => s.bulkLe (s.get64 R.UPD_SRC_LO + o) n

theorem State.bulkLe_congr (h : t.bulk = s.bulk) : t.bulkLe = s.bulkLe := by
  unfold State.bulkLe State.bulkBytes State.bulkByte
  rw [h]

theorem State.bulkBytes_congr (h : t.bulk = s.bulk) : t.bulkBytes = s.bulkBytes := by
  unfold State.bulkBytes State.bulkByte
  rw [h]

section
variable {v : Nat}

theorem State.updCommand_bulk : (s.updCommand v).bulk = s.bulk := by rw [State.updCommand, State.put_bulk, State.put_bulk]
theorem State.updCommand_upd : (s.updCommand v).upd = s.upd := by rw [State.updCommand, State.put_upd, State.put_upd]
theorem State.updCommand_flt : (s.updCommand v).flt = s.flt := by rw [State.updCommand, State.put_flt, State.put_flt]

theorem State.updCommand_src : (s.updCommand v).get64 R.UPD_SRC_LO = s.get64 R.UPD_SRC_LO := by
  rw [State.updCommand, State.get64_put_of_ne (by decide) (by decide), State.get64_put_of_ne (by decide) (by decide)]

theorem State.updCommand_len : (s.updCommand v).get R.UPD_LEN = s.get R.UPD_LEN := by
  rw [State.updCommand, State.get_put_clear rfl, State.get_put_clear rfl]

theorem State.updCommand_reader : (s.updCommand v).sourceReader = s.sourceReader := by
  unfold State.sourceReader
  rw [State.bulkLe_congr State.updCommand_bulk, State.updCommand_src]

end

/-- The image stands in the staging buffer. -/
def State.imageCopied (s : State) : State := s.writeBulk updateBuffer (s.bulkBytes (s.get64 R.UPD_SRC_LO) (s.get R.UPD_LEN))

/-- A load that fails a check. -/
def State.imageRefused (s : State) (rd : Reader) (n st : Nat) : State :=
  ((if n = 5 then s.detect 0x2D else s).updResult st n).tally 0x1401 [if n ≤ 3 then 0 else rd 6 1, st, n]

/-- Staging of an image begins. -/
def State.imageStaging (s : State) (rd : Reader) (action : Nat) : State :=
  (((s.put F.UPD_STAT_PHASE 2).put F.UPD_STAT_KIND (rd 6 1)).put F.UPD_PROGRESS_STAGED 0).modUpd
    (fun u => { u with next := some (firmwareOf rd), kind := rd 6 1, action := action })

/-- What FW_LOAD comes to, once it is known whether an injection fires. -/
def State.imageChecked (s : State) (rd : Reader) (action : Nat) (inj : Bool × State) : State :=
  let r := firstFail (s.firmwareChecks rd inj.1)
  if r.2 ≠ stOK then inj.2.imageRefused rd r.1 r.2
  else
    let s3 := inj.2.writeBulk updateBuffer (inj.2.bulkBytes (s.get64 R.UPD_SRC_LO) (s.get R.UPD_LEN))
    if action = 0 then s3.updResult stOK 0 else s3.imageStaging rd action

theorem doFwLoad_eq {w : Word} : doFwLoad w s = (s.updCommand w.toNat).imageChecked (s.updCommand w.toNat).sourceReader (bits w.toNat 4 3)
    (if (firstFail (((s.updCommand w.toNat).firmwareChecks (s.updCommand w.toNat).sourceReader false).take 2)).2 = stOK then
      (s.updCommand w.toNat).opportunity 0x2D 0 0 else (false, s.updCommand w.toNat)) := rfl

section
variable {w : Word} {rd : Reader} {n st : Nat}

theorem doFwLoad_of_quiet (hu : u = s.updCommand w.toNat) (hq : s.flt.armed = none) (hrd : rd = s.sourceReader)
    (hf : firstFail (u.firmwareChecks rd false) = (n, st)) : doFwLoad w s =
      if st ≠ stOK then u.imageRefused rd n st
      else if bits w.toNat 4 3 = 0 then u.imageCopied.updResult stOK 0 else u.imageCopied.imageStaging rd (bits w.toNat 4 3) := by
  have hquiet : u.flt.armed = none := by rw [hu, State.updCommand_flt, hq]
  have hreader : u.sourceReader = rd := by rw [hu, State.updCommand_reader, hrd]
  rw [doFwLoad_eq, ← hu, hreader, State.opportunity_of_quiet hquiet, ite_self, State.imageChecked, hf]
  rfl

theorem firmwareChecks_bounds (h : firstFail (u.firmwareChecks rd false) = (n, st)) : n ≤ 9 ∧ st ≤ 11 := firstFail_bounds h rfl

/-- An image that passes its checks is of kind 0 or 1. -/
theorem firmwareChecks_kind (h : firstFail (u.firmwareChecks rd false) = (n, stOK)) : rd 6 1 < 2 := by
  have hpassed := firstFail_passed h rfl
    (3, rd 0 4 != 0x49574650 || rd 4 2 != 1 || decide (1 < rd 6 1), stUnsupported) (by simp [State.firmwareChecks])
  rw [Bool.or_eq_false_iff, decide_eq_false_iff_not] at hpassed
  omega

theorem State.imageRefused_spec (hn : n ≤ 9) (hst : st ≤ 11) : u.UpdResult st n (u.imageRefused rd n st) ∧
    (u.imageRefused rd n st).upd = u.upd ∧ u.Records [(0x1401, [if n ≤ 3 then 0 else rd 6 1, st, n])] (u.imageRefused rd n st) ∧
    u.Leaves (updResultFields ++ [(F.FLT_DET_COUNT, 0x2D), (F.FLT_EVT_DETECTED, 0)]) [] (u.imageRefused rd n st) := by
  have hleaves : u.Leaves (updResultFields ++ [(F.FLT_DET_COUNT, 0x2D), (F.FLT_EVT_DETECTED, 0)]) []
      (if n = 5 then u.detect 0x2D else u) :=
    State.Leaves.ite _ (((State.Leaves.refl u _ _).bump (.inl (by simp))).raise (.inl (by simp))) (State.Leaves.refl u _ _)
  have htly : (if n = 5 then u.detect 0x2D else u).tly = u.tly := by
    split
    · rw [State.detect, State.raise_tly, State.bump_tly]
    · rfl
  have hseq : (if n = 5 then u.detect 0x2D else u).get F.UPD_STAT_SEQ = u.get F.UPD_STAT_SEQ := by
    split
    · rw [State.detect, State.get_raise_clear rfl, State.get_bump_clear rfl]
    · rfl
  have hupd : (if n = 5 then u.detect 0x2D else u).upd = u.upd := hleaves.upd (by simp)
  obtain ⟨hresult, hcheck, hnext, hdone⟩ := State.updResult_result hst hn hseq
  rw [State.imageRefused]
  refine ⟨⟨?_, ?_, ?_, ?_⟩, ?_, State.Records.one (State.updResult_tly.trans htly), (hleaves.updResult (by simp)).tally⟩
  · rw [State.get_tally_clear rfl rfl, hresult]
  · rw [State.get_tally_clear rfl rfl, hcheck]
  · rw [State.get_tally_clear rfl rfl, hnext]
  · rw [State.flag_tally_clear rfl rfl, hdone]
  · rw [State.tally_upd, State.updResult_upd, hupd]

end

theorem State.bulkBytes_length {a n : Nat} : (s.bulkBytes a n).length = n := by
  rw [State.bulkBytes, List.length_map, List.length_range]

theorem State.bulkBytes_lt {a n b : Nat} (h : b ∈ s.bulkBytes a n) : b < 256 := by
  obtain ⟨k, -, rfl⟩ := List.mem_map.1 h
  exact BitVec.isLt _

/-- The staging buffer holds the image, and the rest of the Bulk Tank stands. -/
theorem State.imageCopied_bytes (hb : t.bulk = s.imageCopied.bulk) :
    t.bulkBytes updateBuffer (s.get R.UPD_LEN) = s.bulkBytes (s.get64 R.UPD_SRC_LO) (s.get R.UPD_LEN) ∧
    ∀ a, a < updateBuffer ∨ updateBuffer + s.get R.UPD_LEN ≤ a → t.bulkByte a = s.bulkByte a := by
  constructor
  · have hbytes := setBulk_readsBack.bytes (s := s) (a := updateBuffer) (bs := s.bulkBytes (s.get64 R.UPD_SRC_LO) (s.get R.UPD_LEN))
      fun b hb => State.bulkBytes_lt hb
    rw [State.bulkBytes_length] at hbytes
    rw [State.bulkBytes_congr hb]
    exact hbytes
  · intro a ha
    have houtside := setBulk_readsBack.outside (s := s) (a := updateBuffer) (x := a)
      (bs := s.bulkBytes (s.get64 R.UPD_SRC_LO) (s.get R.UPD_LEN)) (by rwa [State.bulkBytes_length])
    rw [State.bulkByte, hb]
    exact houtside

theorem State.imageCopied_leaves : s.Leaves [] [.bulk] s.imageCopied := (State.Leaves.refl s _ _).writeBulk (by simp)

section
variable {rd : Reader} {a : Nat}

theorem State.imageStaging_shows (hk : rd 6 1 < 2) : (s.imageStaging rd a).get F.UPD_STAT_PHASE = 2 ∧
    (s.imageStaging rd a).get F.UPD_STAT_KIND = rd 6 1 ∧ (s.imageStaging rd a).get F.UPD_PROGRESS_STAGED = 0 := by
  rw [State.imageStaging]
  refine ⟨?_, ?_, ?_⟩
  · rw [State.modUpd_get, State.get_put_clear rfl, State.get_put_clear rfl, State.get_put_of_lt rfl (by decide)]
  · rw [State.modUpd_get, State.get_put_clear rfl, State.get_put_of_lt rfl hk]
  · rw [State.modUpd_get, State.get_put_same rfl, Nat.zero_mod]

theorem State.imageStaging_upd : (s.imageStaging rd a).upd = { s.upd with next := some (firmwareOf rd), kind := rd 6 1, action := a } := by
  rw [State.imageStaging, State.modUpd_upd, State.put_upd, State.put_upd, State.put_upd]

theorem State.imageStaging_bulk : (s.imageStaging rd a).bulk = s.bulk := by
  rw [State.imageStaging, State.modUpd_bulk, State.put_bulk, State.put_bulk, State.put_bulk]

theorem State.imageStaging_leaves : s.Leaves [(F.UPD_STAT_PHASE, 0), (F.UPD_STAT_KIND, 0), (F.UPD_PROGRESS_STAGED, 0)] [.bulk, .upd]
    (s.imageCopied.imageStaging rd a) :=
  (((((State.Leaves.refl s _ _).writeBulk (by simp)).put (.inl (by simp))).put (.inl (by simp))).put (.inl (by simp))).modUpd (by simp)

end

/-! ### Staging (R554) -/

section
variable {o : Nat} {i : FwImage}

theorem doFwStaged_of_none (h : s.upd.next = none) : doFwStaged o s = s := by simp only [doFwStaged, h]

theorem doFwStaged_of_other (h : s.updPhase ≠ 2) : doFwStaged o s = s := by
  unfold doFwStaged
  split
  · rfl
  · exact if_pos h

/-- A slot whose staging has failed: the update ends. -/
def State.stagingFailed (s u : State) (o : Nat) : State :=
  (((u.raise F.UPD_EVT_FLASH_ERR).tally 0x1406 [2 * s.upd.kind + s.targetSlot, o - 1]).updIdle).updResult stIntegrity 0

/-- A slot that has been staged, recorded. -/
def State.stagingDone (s u : State) (i : FwImage) : State :=
  (u.put F.UPD_PROGRESS_STAGED 65535).tally 0x1400 [s.upd.kind, s.targetSlot, i.version, i.secVer]

/-- The handover of an update begins. -/
def State.handoverBegun (s : State) (kind : Nat) : State :=
  ((s.put F.UPD_STAT_PHASE 4).modUpd (fun u => { u with handed := [], expired := [], selfOk := false, hostOk := false })).askCore
    ((coreOrder kind).headD 0)

theorem doFwStaged_of_failure (hi : s.upd.next = some i) (hp : s.updPhase = 2) (ho : o ≠ 0)
    (hu : u = s.updateSlots 0 (setSlot s.upd.kind s.targetSlot 4)) : doFwStaged o s = s.stagingFailed u o := by
  simp only [doFwStaged, hi]
  rw [if_neg (not_not_intro hp), if_pos ho, ← hu, State.stagingFailed]

theorem doFwStaged_of_match (hi : s.upd.next = some i) (hp : s.updPhase = 2)
    (hu : u = (s.writeFlash (s.slotEntry s.upd.kind s.targetSlot).offset (s.bulkBytes updateBuffer i.len)).updateSlots 0
      (fun k n x => if k = s.upd.kind ∧ n = s.targetSlot then { x with version := i.version, secVer := i.secVer, state := 1 } else x)) :
    doFwStaged 0 s = if s.upd.action = 1 then (s.stagingDone u i).updIdle.updResult stOK 0
      else (s.stagingDone u i).handoverBegun s.upd.kind := by
  simp only [doFwStaged, hi]
  rw [if_neg (not_not_intro hp), if_neg (not_not_intro rfl), ← hu]
  rfl

theorem State.stagingFailed_spec (ho : u.upd = s.upd) : u.UpdResult stIntegrity 0 (s.stagingFailed u o) ∧
    (s.stagingFailed u o).flag F.UPD_EVT_FLASH_ERR = true ∧ (s.stagingFailed u o).updPhase = 0 ∧
    (s.stagingFailed u o).get F.UPD_STAT_CORE = 7 ∧
    (s.stagingFailed u o).upd = { s.upd with next := none, handed := [], gapFrom := none, back := 0 } ∧
    u.Records [(0x1406, [2 * s.upd.kind + s.targetSlot, o - 1])] (s.stagingFailed u o) ∧
    u.Leaves (updResultFields ++ [(F.UPD_STAT_PHASE, 0), (F.UPD_STAT_CORE, 0), (F.UPD_EVT_FLASH_ERR, 0)]) [.upd] (s.stagingFailed u o) := by
  rw [State.stagingFailed]
  refine ⟨State.updResult_result (by decide) (by decide) ?_, ?_, ?_, ?_, ?_, ?_,
    ((((State.Leaves.refl u _ _).raise (.inl (by simp [updResultFields]))).tally).updIdle (by simp [updIdleFields]) (by simp)).updResult (by simp)⟩
  · rw [State.get_updIdle rfl rfl, State.get_tally_clear rfl rfl, State.get_raise_clear rfl]
  · rw [State.flag_updResult rfl, State.flag_updIdle rfl rfl, State.flag_tally_clear rfl rfl, State.flag_raise_same rfl rfl]
  · rw [State.updPhase, State.get_updResult rfl]
    exact State.updIdle_phase
  · rw [State.get_updResult rfl, State.updIdle_core]
  · rw [State.updResult_upd, State.updIdle_upd, State.tally_upd, State.raise_upd, ho]
  · exact (State.Records.one State.raise_tly).updIdle.updResult

theorem State.stagingDone_upd : (s.stagingDone u i).upd = u.upd := by rw [State.stagingDone, State.tally_upd, State.put_upd]

theorem State.stagingDone_records :
    u.Records [(0x1400, [s.upd.kind, s.targetSlot, i.version, i.secVer])] (s.stagingDone u i) := State.Records.one State.put_tly

theorem State.stagingDone_staged : (s.stagingDone u i).get F.UPD_PROGRESS_STAGED = 65535 := by
  rw [State.stagingDone, State.get_tally_clear rfl rfl, State.get_put_of_lt rfl (by decide)]

theorem State.stagingDone_seq : (s.stagingDone u i).get F.UPD_STAT_SEQ = u.get F.UPD_STAT_SEQ := by
  rw [State.stagingDone, State.get_tally_clear rfl rfl, State.get_put_clear rfl]

theorem State.stagingDone_uptime : (s.stagingDone u i).uptime = u.uptime := by
  rw [State.stagingDone, State.tally_uptime, State.put_uptime]

/-- The fields that a staged slot, and what follows it, writes. -/
def stagedFields : List (Field × Nat) :=
  updResultFields ++ [(F.UPD_STAT_PHASE, 0), (F.UPD_STAT_CORE, 0), (F.UPD_PROGRESS_STAGED, 0)]

theorem State.stagingDone_leaves : u.Leaves stagedFields [.upd] (s.stagingDone u i) :=
  ((State.Leaves.refl u _ _).put (.inl (by simp [stagedFields]))).tally

theorem coreOrder_head {kind : Nat} : (coreOrder kind).headD 0 = if kind = 0 then 0 else 3 := by
  unfold coreOrder
  split <;> rfl

section
variable {kind : Nat}

theorem State.askCore_get {c : Nat} (hc : c < 8) : (s.askCore c).get F.UPD_STAT_CORE = c := by
  rw [State.askCore, State.modUpd_get, State.get_put_of_lt rfl hc]

theorem State.get_askCore {c j : Nat} {g : Field} (h : F.UPD_STAT_CORE.clear 0 g j = true) : (s.askCore c).get g j = s.get g j := by
  rw [State.askCore, State.modUpd_get, State.get_put_clear h]

theorem State.askCore_upd {c : Nat} : (s.askCore c).upd = { s.upd with gapFrom := some s.uptime } := by
  rw [State.askCore, State.modUpd_upd, State.put_upd]

theorem State.askCore_tly {c : Nat} : (s.askCore c).tly = s.tly := by rw [State.askCore, State.modUpd_tly, State.put_tly]

theorem State.askCore_now {c : Nat} : (s.askCore c).now = s.now := by rw [State.askCore, State.modUpd_now, State.put_now]

theorem State.Leaves.askCore {l : List (Field × Nat)} {p : List Part} {c : Nat} (h : s.Leaves l p t) (hc : (F.UPD_STAT_CORE, 0) ∈ l)
    (m : .upd ∈ p) : s.Leaves l p (t.askCore c) := (h.put (.inl (List.mem_append_left _ hc))).modUpd m

theorem State.handoverBegun_spec : (s.handoverBegun kind).updPhase = 4 ∧
    (s.handoverBegun kind).get F.UPD_STAT_CORE = (if kind = 0 then 0 else 3) ∧
    (s.handoverBegun kind).upd =
      { s.upd with handed := [], expired := [], selfOk := false, hostOk := false, gapFrom := some s.uptime } := by
  have hcore : (coreOrder kind).headD 0 < 8 := by
    rw [coreOrder_head]
    split <;> decide
  rw [State.handoverBegun]
  refine ⟨?_, ?_, ?_⟩
  · rw [State.updPhase, State.get_askCore rfl, State.modUpd_get, State.get_put_of_lt rfl (by decide)]
  · rw [State.askCore_get hcore, coreOrder_head]
  · rw [State.askCore_upd, State.modUpd_upd, State.put_upd, State.modUpd_uptime, State.put_uptime]

theorem State.get_handoverBegun {g : Field} {j : Nat} (h : F.UPD_STAT_PHASE.clear 0 g j = true) (h' : F.UPD_STAT_CORE.clear 0 g j = true) :
    (s.handoverBegun kind).get g j = s.get g j := by
  rw [State.handoverBegun, State.get_askCore h', State.modUpd_get, State.get_put_clear h]

theorem State.handoverBegun_tly : (s.handoverBegun kind).tly = s.tly := by
  rw [State.handoverBegun, State.askCore_tly, State.modUpd_tly, State.put_tly]

theorem State.handoverBegun_now : (s.handoverBegun kind).now = s.now := by
  rw [State.handoverBegun, State.askCore_now, State.modUpd_now, State.put_now]

theorem State.Leaves.handoverBegun (h : s.Leaves stagedFields [.upd] t) : s.Leaves stagedFields [.upd] (t.handoverBegun kind) :=
  ((h.put (.inl (by simp [stagedFields]))).modUpd (by simp)).askCore (by simp [stagedFields]) (by simp)

end

theorem doFwStaged_spec (hi : s.upd.next = some i) (hp : s.updPhase = 2)
    (hu : u = (s.writeFlash (s.slotEntry s.upd.kind s.targetSlot).offset (s.bulkBytes updateBuffer i.len)).updateSlots 0
      (fun k n x => if k = s.upd.kind ∧ n = s.targetSlot then { x with version := i.version, secVer := i.secVer, state := 1 } else x))
    (ht : t = doFwStaged 0 s) : t.get F.UPD_PROGRESS_STAGED = 65535 ∧
    u.Records [(0x1400, [s.upd.kind, s.targetSlot, i.version, i.secVer])] t ∧
    (s.upd.action = 1 → u.UpdResult stOK 0 t ∧ t.updPhase = 0 ∧ t.get F.UPD_STAT_CORE = 7) ∧
    (s.upd.action ≠ 1 → t.updPhase = 4 ∧ t.get F.UPD_STAT_CORE = (if s.upd.kind = 0 then 0 else 3) ∧
      t.upd = { s.upd with handed := [], expired := [], selfOk := false, hostOk := false, gapFrom := some s.uptime }) ∧
    u.Leaves stagedFields [.upd] t := by
  have hupd : u.upd = s.upd := by rw [hu, State.updateSlots_upd, State.writeFlash_frame]
  have hup : u.uptime = s.uptime := by rw [hu, State.updateSlots_uptime, State.writeFlash_frame]
  rw [ht, doFwStaged_of_match hi hp hu]
  by_cases ha : s.upd.action = 1
  · rw [if_pos ha]
    refine ⟨?_, State.stagingDone_records.updIdle.updResult, fun _ => ⟨State.updResult_result (by decide) (by decide) ?_, ?_, ?_⟩,
      fun h => absurd ha h, (State.stagingDone_leaves.updIdle (by simp [stagedFields, updIdleFields]) (by simp)).updResult (by simp [stagedFields])⟩
    · rw [State.get_updResult rfl, State.get_updIdle rfl rfl, State.stagingDone_staged]
    · rw [State.get_updIdle rfl rfl, State.stagingDone_seq]
    · rw [State.updPhase, State.get_updResult rfl]
      exact State.updIdle_phase
    · rw [State.get_updResult rfl, State.updIdle_core]
  · rw [if_neg ha]
    obtain ⟨hphase, hcore, hbegun⟩ := State.handoverBegun_spec (s := s.stagingDone u i) (kind := s.upd.kind)
    refine ⟨?_, State.stagingDone_records.after State.handoverBegun_tly State.handoverBegun_now, fun h => absurd h ha,
      fun _ => ⟨hphase, hcore, ?_⟩, State.stagingDone_leaves.handoverBegun⟩
    · rw [State.get_handoverBegun rfl rfl, State.stagingDone_staged]
    · rw [hbegun, State.stagingDone_upd, State.stagingDone_uptime, hupd, hup]

end

/-! ### A core quiesces (R556) -/

/-- A bus's held reads. -/
def State.heldList (s : State) : List HeldRead := s.host.held

theorem State.Leaves.heldList {l : List (Field × Nat)} {p : List Part} (h : s.Leaves l p t) (m : .host ∉ p) :
    t.heldList = s.heldList := by
  rw [State.heldList, h.host m, State.heldList]

theorem State.modSem_held {n : Nat} {f : Sem → Sem} : (s.modSem n f).heldList = s.heldList := rfl

theorem State.passSem_held {n : Nat} : (s.passSem n).heldList = s.heldList := by
  unfold State.passSem
  dsimp only
  split
  · exact State.modSem_held.trans
      ((((State.Leaves.refl s [] [.regs]).put (.inr (by simp))).put (.inr (by simp))).heldList (by simp))
  · exact ((State.Leaves.refl s [] [.regs]).put (.inr (by simp))).heldList (by simp)

theorem State.revokeSem_held {n cause : Nat} : (s.revokeSem n cause).heldList = s.heldList := by
  unfold State.revokeSem
  dsimp only
  split
  · rfl
  · refine State.passSem_held.trans (State.modSem_held.trans ?_)
    exact ((((State.Leaves.refl s [] [.regs]).putFlag (.inr (by simp))).raise (.inr (by simp))).tally).heldList (by simp)

theorem State.releaseSems_held {who : Option Initiator} : (s.releaseSems who).heldList = s.heldList := by
  refine State.each_proj (g := State.heldList) fun n _ t => ?_
  split
  · dsimp only
    split
    · exact State.revokeSem_held.trans (((State.Leaves.refl t [] [.regs]).put (.inr (by simp))).heldList (by simp))
    · exact ((State.Leaves.refl t [] [.regs]).put (.inr (by simp))).heldList (by simp)
  · exact State.revokeSem_held.trans (((State.Leaves.refl t [] [.regs]).put (.inr (by simp))).heldList (by simp))

theorem State.syncHost_leaves : s.Leaves [] [.regs] s.syncHost :=
  ((((State.Leaves.refl s _ _).put (.inr (by simp))).put (.inr (by simp))).put (.inr (by simp))).putFlag (.inr (by simp))

theorem State.Leaves.passSem {n : Nat} (h : s.Leaves [] [.regs, .host] t) : s.Leaves [] [.regs, .host] (t.passSem n) := by
  unfold State.passSem
  dsimp only
  split
  · exact ((h.put (.inr (by simp))).put (.inr (by simp))).modSem (by simp)
  · exact h.put (.inr (by simp))

theorem State.Leaves.revokeSem {n cause : Nat} (h : s.Leaves [] [.regs, .host] t) : s.Leaves [] [.regs, .host] (t.revokeSem n cause) := by
  unfold State.revokeSem
  dsimp only
  split
  · exact h
  · exact ((((h.putFlag (.inr (by simp))).raise (.inr (by simp))).tally).modSem (by simp)).passSem

theorem State.Leaves.releaseSems {who : Option Initiator} (h : s.Leaves [] [.regs, .host] t) :
    s.Leaves [] [.regs, .host] (t.releaseSems who) := by
  refine h.each fun n u _ hu => ?_
  split
  · exact State.Leaves.ite _ (hu.put (.inr (by simp))).revokeSem (hu.put (.inr (by simp)))
  · exact (hu.put (.inr (by simp))).revokeSem

/-- The initiator of a management core. -/
def coreInitiator : Nat → Initiator
  | 0 => .mc0
  | 1 => .mc1
  | _ => .mc2

/-- A core's reset abandons its held reads; the update stands. -/
theorem State.resetCore_spec {c : Nat} : (s.resetCore c).upd = s.upd ∧
    ∀ h ∈ (s.resetCore c).host.held, h.who = coreInitiator c → h.dead = true := by
  have hleaves : s.Leaves [] [.regs, .host] (s.resetCore c) :=
    ((((((State.Leaves.refl s [] [.regs, .host]).hostTo (by simp)).releaseSems).put (.inr (by simp))).put (.inr (by simp))).put
      (.inr (by simp))).putFlag (.inr (by simp))
  have hheld : (s.resetCore c).heldList = s.host.held.map (fun h => if h.who = coreInitiator c then { h with dead := true } else h) :=
    (State.syncHost_leaves.heldList (by simp)).trans State.releaseSems_held
  refine ⟨hleaves.upd (by simp), fun h hh hwho => ?_⟩
  rw [State.heldList] at hheld
  rw [hheld] at hh
  obtain ⟨x, -, rfl⟩ := List.mem_map.1 hh
  by_cases hx : x.who = coreInitiator c
  · rw [if_pos hx]
  · rw [if_neg hx] at hwho
    exact absurd hwho hx

theorem doQuiesceAck_of_core {c : Nat} (hp : s.updPhase = 4 ∨ s.updPhase = 6) (hc : s.get F.UPD_STAT_CORE = c + 1) (h : c < 3) :
    doQuiesceAck s = s.resetCore c := by
  have hasked : (s.updPhase = 4 ∨ s.updPhase = 6) ∧ 1 ≤ s.get F.UPD_STAT_CORE ∧ s.get F.UPD_STAT_CORE ≤ 3 := ⟨hp, by omega, by omega⟩
  have hcore : s.get F.UPD_STAT_CORE - 1 = c := by omega
  rw [doQuiesceAck, if_pos hasked, hcore]

theorem doQuiesceAck_of_other (h : s.updPhase ≠ 4) (h' : s.updPhase ≠ 6) : doQuiesceAck s = s :=
  if_neg fun hp => hp.1.elim h h'

theorem doQuiesceAck_of_byre (h : s.get F.UPD_STAT_CORE = 0) : doQuiesceAck s = s :=
  if_neg fun hp => absurd hp.2.1 (by rw [h]; decide)

end Sys2Proof.Machine
end

section
/-! PROOFS. A live update is tried, and confirmed or reverted (O60). -/
namespace Sys2Proof.Machine

variable {s t u : State} {i : FwImage} {f core : Nat}

/-! ### Handover of a core (R556, R559) -/

/-- The core in handover reports its version, and the update's state follows. -/
def State.coreReported (s : State) (v : Nat) (g : Upd → Upd) : State :=
  (s.reportCore (s.get F.UPD_STAT_CORE) (s.get R.UPD_VER (s.get F.UPD_STAT_CORE)) v
    ((s.uptime - s.upd.gapFrom.getD s.uptime) / 1000000)).modUpd g

section
variable {v : Nat} {g : Upd → Upd}

theorem State.coreReported_upd : (s.coreReported v g).upd = g s.upd := by
  rw [State.coreReported, State.reportCore, State.modUpd_upd, State.tally_upd, State.raise_upd, State.put_upd]

theorem State.coreReported_uptime : (s.coreReported v g).uptime = s.uptime := by
  rw [State.coreReported, State.reportCore, State.modUpd_uptime, State.tally_uptime, State.raise_uptime, State.put_uptime]

theorem State.coreReported_records : s.Records [(0x1402, [s.get F.UPD_STAT_CORE, s.get R.UPD_VER (s.get F.UPD_STAT_CORE), v,
    (s.uptime - s.upd.gapFrom.getD s.uptime) / 1000000])] (s.coreReported v g) := by
  refine State.Records.after ?_ State.modUpd_tly State.modUpd_now
  rw [State.reportCore]
  exact State.Records.one (State.raise_tly.trans State.put_tly)

theorem State.coreReported_shows (hv : v < 2 ^ 32) (hc : s.get F.UPD_STAT_CORE = core) :
    (s.coreReported v g).get R.UPD_VER core = v ∧ (s.coreReported v g).flag F.UPD_EVT_HANDOVER = true := by
  have hevent : F.UPD_EVT_HANDOVER.clear 0 R.UPD_VER core = true := Field.clear_of_lt rfl (by decide)
  have hlost : R.TLY_LOST.clear 0 R.UPD_VER core = true := Field.clear_of_lt rfl (by decide)
  have hlost' : F.TLY_EVT_LOST.clear 0 R.UPD_VER core = true := Field.clear_of_lt rfl (by decide)
  rw [State.coreReported, State.reportCore, hc]
  constructor
  · rw [State.modUpd_get, State.get_tally_clear hlost hlost', State.get_raise_clear hevent, State.get_put_of_lt rfl hv]
  · rw [State.modUpd_flag, State.flag_tally_clear rfl rfl, State.flag_raise_same rfl rfl]

theorem State.Leaves.coreReported (hc : s.get F.UPD_STAT_CORE = core) {l : List (Field × Nat)}
    (h : [(R.UPD_VER, core), (F.UPD_EVT_HANDOVER, 0)] ⊆ l) : s.Leaves l [.upd] (s.coreReported v g) := by
  simp only [List.cons_subset] at h
  obtain ⟨hver, hevent, -⟩ := h
  rw [State.coreReported, State.reportCore, hc]
  exact (((State.Leaves.refl s _ _).put (.inl (List.mem_append_left _ hver))).raise
    (.inl (List.mem_append_left _ hevent))).tally.modUpd (by simp)

end

theorem doFwHandover_of_none (h : s.upd.next = none) : doFwHandover f s = s := by simp only [doFwHandover, h]

theorem doFwHandover_of_other (h : s.updPhase ≠ 4) (h' : s.updPhase ≠ 6) : doFwHandover f s = s := by
  unfold doFwHandover
  split
  · rfl
  · dsimp only
    rw [if_neg fun hp => h hp.1, if_neg fun hp => h' hp.1]

theorem State.reportCore_upd {old v gap : Nat} : (s.reportCore core old v gap).upd = s.upd := by
  rw [State.reportCore, State.tally_upd, State.raise_upd, State.put_upd]

/-- One more core is handed over. -/
def Upd.handedOver (core : Nat) (u : Upd) : Upd := { u with handed := u.handed ++ [core] }

/-- A core is handed back. -/
def Upd.handedBack (core : Nat) (u : Upd) : Upd := { u with handed := u.handed.filter (fun c => c != core), back := u.back + 1 }

/-- The trial of an image begins at an uptime. -/
def State.trialBegun (s : State) (fails now : Nat) : State :=
  (((s.modUpd (fun u => { u with slots := u.slots.set s.upd.kind s.targetSlot, trialAt := some now, marker := true, gapFrom := none })).updateSlots
    fails (fun k n x => if k = s.upd.kind then { x with state := if n = s.targetSlot then 2 else 3 } else x)).put F.UPD_STAT_PHASE 5).put
      F.UPD_STAT_CORE 7

section
variable (hi : s.upd.next = some i) (hc : s.get F.UPD_STAT_CORE = core) (hle : core ≤ 3)
include hi hc hle

theorem doFwHandover_of_next (hp : s.updPhase = 4) {c : Nat} {l : List Nat}
    (h : (coreOrder s.upd.kind).filter (fun c => !(s.upd.handed ++ [core]).contains c) = c :: l) :
    doFwHandover f s = (s.coreReported i.version (Upd.handedOver core)).askCore c := by
  simp only [doFwHandover, hi, hc]
  rw [if_pos ⟨hp, hle⟩]
  simp only [State.modUpd_upd, State.reportCore_upd, h]
  rw [State.coreReported, hc]
  rfl

theorem doFwHandover_of_last (hp : s.updPhase = 4)
    (h : (coreOrder s.upd.kind).filter (fun c => !(s.upd.handed ++ [core]).contains c) = []) :
    doFwHandover f s = ((s.coreReported i.version (Upd.handedOver core)).trialBegun f s.uptime).put F.UPD_PROGRESS_WINDOW_S
      (max 10 (min 3600 (s.get F.UPD_CTL_CONFIRM_S))) := by
  have hkind : (s.coreReported i.version (Upd.handedOver core)).upd.kind = s.upd.kind := by
    rw [State.coreReported_upd]
    rfl
  rw [State.trialBegun, hkind]
  simp only [doFwHandover, hi, hc]
  rw [if_pos ⟨hp, hle⟩]
  simp only [State.modUpd_upd, State.reportCore_upd, h]
  rw [State.coreReported, hc]
  rfl

section
variable (hp : s.updPhase = 6)
include hp

theorem doFwHandover_of_back {c : Nat} (h : (s.upd.handed.filter (fun c => c != core)).getLast? = some c) :
    doFwHandover f s = (s.coreReported (s.firmware s.upd.kind).version (Upd.handedBack core)).askCore c := by
  obtain ⟨l, hl⟩ : ∃ l, (s.upd.handed.filter (fun c => c != core)).reverse = c :: l := by
    rw [← List.head?_reverse] at h
    exact List.head?_eq_some_iff.1 h
  have hback : ¬ (s.updPhase = 4 ∧ core ≤ 3) := by
    rw [hp]
    omega
  simp only [doFwHandover, hi, hc]
  rw [if_neg hback, if_pos ⟨hp, hle⟩]
  simp only [State.modUpd_upd, State.reportCore_upd, hl]
  rw [State.coreReported, hc]
  rfl

theorem doFwHandover_of_reverted (h : s.upd.handed.filter (fun c => c != core) = []) :
    doFwHandover f s = (s.coreReported (s.firmware s.upd.kind).version (Upd.handedBack core)).finishRevert f := by
  have hback : ¬ (s.updPhase = 4 ∧ core ≤ 3) := by
    rw [hp]
    omega
  simp only [doFwHandover, hi, hc]
  rw [if_neg hback, if_pos ⟨hp, hle⟩]
  simp only [State.modUpd_upd, State.reportCore_upd, h, List.reverse_nil]
  rw [State.coreReported, hc]
  rfl

end

end

/-! ### What a handover and a trial show -/

theorem State.coreReported_asked {v c : Nat} {g : Upd → Upd} (hv : v < 2 ^ 32) (hc : s.get F.UPD_STAT_CORE = core) (hle : c < 8)
    (ht : t = (s.coreReported v g).askCore c) : t.get R.UPD_VER core = v ∧ t.flag F.UPD_EVT_HANDOVER = true ∧
    t.get F.UPD_STAT_CORE = c ∧ t.upd = { g s.upd with gapFrom := some s.uptime } ∧
    s.Records [(0x1402, [core, s.get R.UPD_VER core, v, (s.uptime - s.upd.gapFrom.getD s.uptime) / 1000000])] t ∧
    s.Leaves [(R.UPD_VER, core), (F.UPD_EVT_HANDOVER, 0), (F.UPD_STAT_CORE, 0)] [.upd] t := by
  obtain ⟨hver, hevent⟩ := State.coreReported_shows (s := s) (g := g) hv hc
  have hclear : F.UPD_STAT_CORE.clear 0 R.UPD_VER core = true := Field.clear_of_lt rfl (by decide)
  have hrec := State.coreReported_records (s := s) (v := v) (g := g)
  rw [hc] at hrec
  subst ht
  refine ⟨?_, ?_, State.askCore_get hle, ?_, hrec.after State.askCore_tly State.askCore_now,
    (State.Leaves.coreReported hc (by simp)).askCore (by simp) (by simp)⟩
  · rw [State.get_askCore hclear, hver]
  · rw [State.flag, State.get_askCore rfl]
    exact hevent
  · rw [State.askCore_upd, State.coreReported_upd, State.coreReported_uptime]

/-- The cores still to be handed over are cores. -/
theorem coreOrder_lt {kind c : Nat} (h : c ∈ coreOrder kind) : c < 8 := by
  unfold coreOrder at h
  split at h
  · simp only [List.mem_singleton] at h
    omega
  · simp only [List.mem_cons, List.not_mem_nil, or_false] at h
    omega

theorem State.trialBegun_upd {fails now : Nat} : (s.trialBegun fails now).upd =
    { s.upd with slots := s.upd.slots.set s.upd.kind s.targetSlot, trialAt := some now, marker := true, gapFrom := none } := by
  rw [State.trialBegun, State.put_upd, State.put_upd, State.updateSlots_upd, State.modUpd_upd]

theorem State.trialBegun_shows {fails now w : Nat} (hw : w < 2 ^ 12) :
    ((s.trialBegun fails now).put F.UPD_PROGRESS_WINDOW_S w).updPhase = 5 ∧
    ((s.trialBegun fails now).put F.UPD_PROGRESS_WINDOW_S w).get F.UPD_STAT_CORE = 7 ∧
    ((s.trialBegun fails now).put F.UPD_PROGRESS_WINDOW_S w).get F.UPD_PROGRESS_WINDOW_S = w := by
  rw [State.updPhase, State.trialBegun]
  refine ⟨?_, ?_, State.get_put_of_lt rfl hw⟩
  · rw [State.get_put_clear rfl, State.get_put_clear rfl, State.get_put_of_lt rfl (by decide)]
  · rw [State.get_put_clear rfl, State.get_put_of_lt rfl (by decide)]

theorem State.trialBegun_version {fails now w : Nat} (hle : core ≤ 3) :
    ((s.trialBegun fails now).put F.UPD_PROGRESS_WINDOW_S w).get R.UPD_VER core = s.get R.UPD_VER core := by
  have htable : ∀ c : Fin 4, (tableFields ++ lostFields).all (fun q => q.1.clear q.2 R.UPD_VER c) = true := by decide
  have hwindow : F.UPD_PROGRESS_WINDOW_S.clear 0 R.UPD_VER core = true := Field.clear_of_lt rfl (by decide)
  have hcore : F.UPD_STAT_CORE.clear 0 R.UPD_VER core = true := Field.clear_of_lt rfl (by decide)
  have hphase : F.UPD_STAT_PHASE.clear 0 R.UPD_VER core = true := Field.clear_of_lt rfl (by decide)
  rw [State.get_put_clear hwindow, State.trialBegun, State.get_put_clear hcore, State.get_put_clear hphase,
    State.get_updateSlots (htable ⟨core, Nat.lt_succ_of_le hle⟩), State.modUpd_get]

/-! ### Reverting (R559) -/

theorem State.finishRevert_spec : (s.finishRevert f).updPhase = 0 ∧ (s.finishRevert f).get F.UPD_STAT_CORE = 7 ∧
    (s.finishRevert f).flag F.UPD_EVT_REVERTED = true ∧ (s.finishRevert f).upd.trialAt = none ∧
    (s.finishRevert f).upd.marker = false ∧ (s.finishRevert f).upd.next = none ∧ (s.finishRevert f).upd.handed = [] ∧
    (s.finishRevert f).upd.running = s.upd.running := by
  rw [State.finishRevert]
  refine ⟨State.updIdle_phase, State.updIdle_core, ?_, ?_, ?_, ?_, ?_, ?_⟩
  · rw [State.flag_updIdle rfl rfl, State.flag_tally_clear rfl rfl, State.flag_raise_same rfl rfl]
  all_goals rw [State.updIdle_upd]
  all_goals rw [State.tally_upd, State.raise_upd, State.updateSlots_upd, State.modUpd_upd]

section
variable {cause : Nat}

theorem State.beginRevert_of_none (h : s.upd.handed = []) :
    s.beginRevert cause = (s.modUpd (fun u => { u with cause := cause, back := 0 })).finishRevert 0 := by
  simp only [State.beginRevert, State.modUpd_upd, h, List.reverse_nil]

/-- The cores handed over are handed back, the last one first. -/
def State.handingBack (s : State) (cause c : Nat) : State :=
  ((s.modUpd (fun u => { u with cause := cause, back := 0 })).put F.UPD_STAT_PHASE 6).askCore c

theorem State.beginRevert_of_handed {c : Nat} (h : s.upd.handed.getLast? = some c) : s.beginRevert cause = s.handingBack cause c := by
  obtain ⟨l, hl⟩ : ∃ l, s.upd.handed.reverse = c :: l := by
    rw [← List.head?_reverse] at h
    exact List.head?_eq_some_iff.1 h
  simp only [State.beginRevert, State.modUpd_upd, hl]
  rfl

theorem State.handingBack_spec {c : Nat} (hc : c ≤ 3) : (s.handingBack cause c).updPhase = 6 ∧
    (s.handingBack cause c).get F.UPD_STAT_CORE = c ∧
    (s.handingBack cause c).upd = { s.upd with cause := cause, back := 0, gapFrom := some s.uptime } ∧
    s.Leaves [(F.UPD_STAT_PHASE, 0), (F.UPD_STAT_CORE, 0)] [.upd] (s.handingBack cause c) := by
  rw [State.handingBack]
  refine ⟨?_, State.askCore_get (by omega), ?_,
    (((State.Leaves.refl s _ _).modUpd (by simp)).put (.inl (by simp))).askCore (by simp) (by simp)⟩
  · rw [State.updPhase, State.get_askCore rfl, State.get_put_of_lt rfl (by decide)]
  · rw [State.askCore_upd, State.put_upd, State.modUpd_upd, State.put_uptime, State.modUpd_uptime]

end

theorem doQuiesceTimeout_of_handover (h : s.updPhase = 4) : doQuiesceTimeout s = (s.updResult stTimeout 0).beginRevert 4 := if_pos h
theorem doQuiesceTimeout_of_other (h : s.updPhase ≠ 4) : doQuiesceTimeout s = s := if_neg h
theorem doConfirmWindowExpire_of_other (h : s.updPhase ≠ 5) : doConfirmWindowExpire s = s := if_neg h
theorem doSelfCheckFailed_of_other (h : s.updPhase ≠ 5) : doSelfCheckFailed s = s := if_neg h
theorem doSelfCheckFailed_of_trial (h : s.updPhase = 5) : doSelfCheckFailed s = s.beginRevert 2 := if_pos h

/-- The confirm window has ended. -/
def State.windowEnded (s : State) : State :=
  (s.atUptime (s.upd.trialAt.getD 0 + max 10 (min 3600 (s.get F.UPD_CTL_CONFIRM_S)) * oneSecond)).put F.UPD_PROGRESS_WINDOW_S 0

theorem doConfirmWindowExpire_of_trial (h : s.updPhase = 5) : doConfirmWindowExpire s = s.windowEnded.beginRevert 0 := by
  rw [doConfirmWindowExpire, if_pos h, State.windowEnded]

theorem State.windowEnded_spec :
    s.windowEnded.uptime = max s.uptime (s.upd.trialAt.getD 0 + max 10 (min 3600 (s.get F.UPD_CTL_CONFIRM_S)) * oneSecond) ∧
    s.windowEnded.get F.UPD_PROGRESS_WINDOW_S = 0 ∧ s.Leaves [(F.UPD_PROGRESS_WINDOW_S, 0)] [.time] s.windowEnded := by
  rw [State.windowEnded]
  refine ⟨?_, ?_, ((State.Leaves.refl s _ _).atUptime (by simp)).put (.inl (by simp))⟩
  · rw [State.put_uptime, State.atUptime_uptime]
  · rw [State.get_put_same rfl, Nat.zero_mod]

/-! ### Commands of UPD_CMD -/

/-- Writing the operation leaves the phase as it is. -/
theorem State.put_op_phase {n : Nat} : (s.put F.UPD_CMD_OP n).updPhase = s.updPhase := by
  rw [State.updPhase, State.get_put_clear rfl, State.updPhase]

theorem doFwRevert_of_trial (h : s.updPhase = 5) : doFwRevert s = ((s.put F.UPD_CMD_OP 3).updResult stOK 0).beginRevert 3 :=
  if_pos (State.put_op_phase.trans h)

theorem doFwRevert_of_other (h : s.updPhase ≠ 5) : doFwRevert s = (s.put F.UPD_CMD_OP 3).updResult stInconsistent 0 :=
  if_neg fun hp => h (State.put_op_phase.symm.trans hp)

theorem doFwConfirm_of_trial (h : s.updPhase = 5) : doFwConfirm f s =
    ((((s.put F.UPD_CMD_OP 2).modUpd (fun x => { x with hostOk := true })).updResult stOK 0)).tryConfirm f :=
  if_pos (State.put_op_phase.trans h)

theorem doFwConfirm_of_other (h : s.updPhase ≠ 5) : doFwConfirm f s = (s.put F.UPD_CMD_OP 2).updResult stInconsistent 0 :=
  if_neg fun hp => h (State.put_op_phase.symm.trans hp)

theorem doFwAbort_of_other (h : s.updPhase = 0 ∨ 4 ≤ s.updPhase) :
    doFwAbort s = (s.put F.UPD_CMD_OP 4).updResult stInconsistent 0 := by
  rw [doFwAbort, State.put_op_phase, if_neg (by omega)]

theorem doFwAbort_of_unstaged (h : s.updPhase = 1 ∨ s.updPhase = 3) :
    doFwAbort s = (s.put F.UPD_CMD_OP 4).updIdle.updResult stTimeout 0 := by
  rw [doFwAbort, State.put_op_phase, if_pos (by omega), if_neg (by omega)]

theorem doFwAbort_of_staging (h : s.updPhase = 2) : doFwAbort s =
    ((s.put F.UPD_CMD_OP 4).updateSlots 0 (setSlot s.upd.kind s.targetSlot 4)).updIdle.updResult stTimeout 0 := by
  have hslot : (s.put F.UPD_CMD_OP 4).targetSlot = s.targetSlot := by rw [State.targetSlot, State.put_upd, State.targetSlot]
  rw [doFwAbort, State.put_op_phase, if_pos (by omega), if_pos h, State.put_upd, hslot]

/-! ### Confirmation (R557, R558) -/

theorem doFwSelfConfirm_of_ready (h : s.updPhase = 5) (he : s.upd.expired = [])
    (hk : (kindActivities s.upd.kind).all (fun a => s.get F.SYS_BG_STAT_LEVEL a == 0) = true) :
    doFwSelfConfirm f s = (s.modUpd (fun u => { u with selfOk := true })).tryConfirm f :=
  if_pos ⟨h, List.isEmpty_iff.2 he, hk⟩

theorem doFwSelfConfirm_of_unready (h : s.updPhase ≠ 5 ∨ s.upd.expired ≠ [] ∨
    (kindActivities s.upd.kind).any (fun a => s.get F.SYS_BG_STAT_LEVEL a != 0) = true) : doFwSelfConfirm f s = s := by
  refine if_neg ?_
  rintro ⟨hp, he, hk⟩
  rcases h with h | h | h
  · exact h hp
  · exact h (List.isEmpty_iff.1 he)
  · obtain ⟨a, ha, hbusy⟩ := List.any_eq_true.1 h
    exact bne_iff_ne.1 hbusy (beq_iff_eq.1 (List.all_eq_true.1 hk a ha))

theorem State.tryConfirm_of_waiting (h : s.upd.selfOk = false ∨ (s.flag F.UPD_CTL_HOST_CONFIRM = true ∧ s.upd.hostOk = false)) :
    s.tryConfirm f = s := by
  unfold State.tryConfirm
  split
  · rfl
  · refine if_neg ?_
    rintro ⟨-, hself, hhost⟩
    rcases h with h | ⟨h, h'⟩
    · exact Bool.false_ne_true (h.symm.trans hself)
    · rcases hhost with hhost | hhost
      · exact Bool.false_ne_true (hhost.symm.trans h)
      · exact Bool.false_ne_true (h'.symm.trans hhost)

/-- The image on trial becomes the running one. -/
def State.confirmed (s : State) (i : FwImage) : State :=
  (((((s.modUpd (fun u => { u with running := u.running.set s.upd.kind i, trialAt := none, marker := false })).updateSlots 0
    (fun k n x => if k = s.upd.kind then { x with state := if n = s.upd.slots.getD s.upd.kind 0 then 3 else 1 } else x)).raise
      F.UPD_EVT_CONFIRMED).tally 0x1403 [s.upd.kind, i.version, (s.uptime - s.upd.trialAt.getD s.uptime) / oneSecond]).updIdle).updResult
        stOK 0

theorem State.tryConfirm_of_ready (hi : s.upd.next = some i) (hp : s.updPhase = 5) (hs : s.upd.selfOk = true)
    (hh : s.flag F.UPD_CTL_HOST_CONFIRM = false ∨ s.upd.hostOk = true) : s.tryConfirm 0 = s.confirmed i := by
  simp only [State.tryConfirm, hi]
  rw [if_pos ⟨hp, hs, hh⟩, State.confirmed]

theorem State.confirmed_spec : (s.confirmed i).updPhase = 0 ∧ (s.confirmed i).flag F.UPD_EVT_CONFIRMED = true ∧
    (s.confirmed i).flag F.UPD_EVT_DONE = true ∧ (s.confirmed i).get F.UPD_STAT_RESULT = stOK ∧
    (s.confirmed i).upd = { s.upd with
      running := s.upd.running.set s.upd.kind i, next := none, handed := [], gapFrom := none, trialAt := none, back := 0
      marker := false } ∧
    s.Records [(0x1403, [s.upd.kind, i.version, (s.uptime - s.upd.trialAt.getD s.uptime) / oneSecond])] (s.confirmed i) := by
  rw [State.confirmed]
  obtain ⟨hresult, -, -, hdone⟩ := State.updResult_result (st := stOK) (n := 0) (by decide) (by decide) rfl
  refine ⟨?_, ?_, hdone, hresult, ?_, (State.Records.one ?_).updIdle.updResult⟩
  · rw [State.updPhase, State.get_updResult rfl]
    exact State.updIdle_phase
  · rw [State.flag_updResult rfl, State.flag_updIdle rfl rfl, State.flag_tally_clear rfl rfl, State.flag_raise_same rfl rfl]
  · rw [State.updResult_upd, State.updIdle_upd, State.tally_upd, State.raise_upd, State.updateSlots_upd, State.modUpd_upd]
  · rw [State.raise_tly, State.updateSlots_zero_tly, State.modUpd_tly]

/-! ### Rollback counters (R561) -/

theorem doBurn_of_busy (h : s.updPhase = 5 ∨ s.updPhase = 6) :
    doBurnFwCounter s = (s.put F.UPD_CMD_OP 5).updResult stBusy 0 ∧ doBurnStrCounter s = (s.put F.UPD_CMD_OP 6).updResult stBusy 0 :=
  ⟨if_pos (by rwa [State.put_op_phase]), if_pos (by rwa [State.put_op_phase])⟩

/-- The structure counter is raised. -/
def State.strBurned (s : State) (old new : Nat) : State :=
  ((((s.burnStr new).put F.UPD_ROLLBACK_STR new).raise F.UPD_EVT_BURNED).tally 0x1405 [1, old, new]).updResult stOK 0

/-- The firmware counter is raised, and older slots are no longer allowed. -/
def State.fwBurned (s : State) (old new : Nat) : State :=
  (((((s.burnFw new).put F.UPD_ROLLBACK_FW new).updateSlots 0
    (fun _ _ e => if e.state ≠ 0 ∧ e.secVer < new then { e with state := 5 } else e)).raise F.UPD_EVT_BURNED).tally 0x1405
      [0, old, new]).updResult stOK 0

theorem State.burnStr_tly {n : Nat} : (s.burnStr n).tly = s.tly := rfl
theorem State.burnFw_tly {n : Nat} : (s.burnFw n).tly = s.tly := rfl
theorem State.burnStr_fuses {n : Nat} : (s.burnStr n).fuses = { s.fuses with strCounter := max s.fuses.strCounter n } := rfl
theorem State.burnFw_fuses {n : Nat} : (s.burnFw n).fuses = { s.fuses with fwCounter := max s.fuses.fwCounter n } := rfl

theorem State.confirmedSec_congr (hf : t.flash = s.flash) (hp : t.pwr = s.pwr) : t.confirmedSec = s.confirmedSec := by
  unfold State.confirmedSec State.slotEntry State.slotEntries State.slotInForce State.slotSeq State.flashReader State.slotCopy
    State.flashBytes State.flashByte
  rw [hf, hp]

section
variable (hp : s.updPhase ≠ 5) (hp' : s.updPhase ≠ 6)
include hp hp'

/-- Outside a trial a burn is not refused as busy. -/
theorem State.burn_free {n : Nat} : ¬ ((s.put F.UPD_CMD_OP n).updPhase = 5 ∨ (s.put F.UPD_CMD_OP n).updPhase = 6) := by
  rw [State.put_op_phase]
  exact not_or.2 ⟨hp, hp'⟩

theorem doBurnStrCounter_of_none (h : s.str.inForce = none) : doBurnStrCounter s = (s.put F.UPD_CMD_OP 6).updResult stInconsistent 0 := by
  rw [doBurnStrCounter, if_neg (State.burn_free hp hp')]
  simp only [State.put_str, h]

theorem doBurnStrCounter_of_some {x : Structure} (h : s.str.inForce = some x) : doBurnStrCounter s =
    if x.secVer ≤ s.fuses.strCounter then (s.put F.UPD_CMD_OP 6).updResult stInconsistent 0
    else (s.put F.UPD_CMD_OP 6).strBurned s.fuses.strCounter x.secVer := by
  rw [doBurnStrCounter, if_neg (State.burn_free hp hp')]
  simp only [State.put_str, h, State.put_fuses]
  rfl

theorem doBurnFwCounter_of_none (h : s.confirmedSec 0 = none ∨ s.confirmedSec 1 = none) :
    doBurnFwCounter s = (s.put F.UPD_CMD_OP 5).updResult stInconsistent 0 := by
  have hsec := State.confirmedSec_congr (s := s) (t := s.put F.UPD_CMD_OP 5) State.put_flash State.put_pwr
  rw [doBurnFwCounter, if_neg (State.burn_free hp hp'), hsec]
  rcases h with h | h
  · rw [h]
  · rw [h]
    cases s.confirmedSec 0 <;> rfl

theorem doBurnFwCounter_of_some {a b : Nat} (ha : s.confirmedSec 0 = some a) (hb : s.confirmedSec 1 = some b) : doBurnFwCounter s =
    if min a b ≤ s.fuses.fwCounter then (s.put F.UPD_CMD_OP 5).updResult stInconsistent 0
    else (s.put F.UPD_CMD_OP 5).fwBurned s.fuses.fwCounter (min a b) := by
  have hsec := State.confirmedSec_congr (s := s) (t := s.put F.UPD_CMD_OP 5) State.put_flash State.put_pwr
  rw [doBurnFwCounter, if_neg (State.burn_free hp hp'), hsec, ha, hb]
  dsimp only
  rw [State.put_fuses]
  rfl

end

section
variable {new : Nat}

theorem State.strBurned_spec (h : s.fuses.strCounter < new) (hu : u = s.put F.UPD_CMD_OP 6)
    (ht : t = u.strBurned s.fuses.strCounter new) : u.UpdResult stOK 0 t ∧ t.fuses = { s.fuses with strCounter := new } ∧
    t.flag F.UPD_EVT_BURNED = true ∧ s.Records [(0x1405, [1, s.fuses.strCounter, new])] t ∧
    u.Leaves (updResultFields ++ [(F.UPD_ROLLBACK_STR, 0), (F.UPD_EVT_BURNED, 0)]) [.fuses] t := by
  have hfuses : u.fuses = s.fuses := by rw [hu, State.put_fuses]
  have htly : u.tly = s.tly := by rw [hu, State.put_tly]
  rw [ht, State.strBurned]
  refine ⟨State.updResult_result (by decide) (by decide) ?_, ?_, ?_, (State.Records.one ?_).updResult,
    (((((State.Leaves.refl u _ _).fusesTo (by simp)).put (.inl (by simp [updResultFields]))).raise
      (.inl (by simp [updResultFields]))).tally).updResult (by simp)⟩
  · rw [State.get_tally_clear rfl rfl, State.get_raise_clear rfl, State.get_put_clear rfl]
    rfl
  · rw [State.updResult_fuses, State.tally_fuses, State.raise_fuses, State.put_fuses, State.burnStr_fuses, hfuses,
      Nat.max_eq_right (Nat.le_of_lt h)]
  · rw [State.flag_updResult rfl, State.flag_tally_clear rfl rfl, State.flag_raise_same rfl rfl]
  · rw [State.raise_tly, State.put_tly, State.burnStr_tly, htly]

theorem State.fwBurned_spec (h : s.fuses.fwCounter < new) (hu : u = s.put F.UPD_CMD_OP 5)
    (ht : t = u.fwBurned s.fuses.fwCounter new) : t.fuses = { s.fuses with fwCounter := new } ∧ t.get F.UPD_STAT_RESULT = stOK ∧
    t.flag F.UPD_EVT_DONE = true ∧ t.flag F.UPD_EVT_BURNED = true ∧ s.Records [(0x1405, [0, s.fuses.fwCounter, new])] t := by
  have hfuses : u.fuses = s.fuses := by rw [hu, State.put_fuses]
  have htly : u.tly = s.tly := by rw [hu, State.put_tly]
  rw [ht, State.fwBurned]
  obtain ⟨hresult, -, -, hdone⟩ := State.updResult_result (st := stOK) (n := 0) (by decide) (by decide) rfl
  refine ⟨?_, hresult, hdone, ?_, (State.Records.one ?_).updResult⟩
  · rw [State.updResult_fuses, State.tally_fuses, State.raise_fuses, State.updateSlots_fuses, State.put_fuses, State.burnFw_fuses,
      hfuses, Nat.max_eq_right (Nat.le_of_lt h)]
  · rw [State.flag_updResult rfl, State.flag_tally_clear rfl rfl, State.flag_raise_same rfl rfl]
  · rw [State.raise_tly, State.updateSlots_zero_tly, State.put_tly, State.burnFw_tly, htly]

end

end Sys2Proof.Machine
end

section
/-! PROOFS. The obligation on live updates (O60). -/
namespace Sys2Proof.Machine

variable {s t u : State}

/-- What FW_LOAD leaves, by the outcome of its checks. -/
theorem doFwLoad_spec {w : Word} {rd : Reader} {n st : Nat} (hu : u = s.updCommand w.toNat) (hq : s.flt.armed = none)
    (hrd : rd = s.sourceReader) (hf : firstFail (u.firmwareChecks rd false) = (n, st)) (ht : t = doFwLoad w s) :
    (st ≠ stOK → u.UpdResult st n t ∧ t.upd = s.upd ∧ u.Records [(0x1401, [if n ≤ 3 then 0 else rd 6 1, st, n])] t ∧
      u.Leaves (updResultFields ++ [(F.FLT_DET_COUNT, 0x2D), (F.FLT_EVT_DETECTED, 0)]) [] t) ∧
    (st = stOK → bits w.toNat 4 3 = 0 → u.UpdResult stOK 0 t ∧ t.bulk = u.imageCopied.bulk ∧ u.Leaves updResultFields [.bulk] t) ∧
    (st = stOK → bits w.toNat 4 3 ≠ 0 → t = u.imageCopied.imageStaging rd (bits w.toNat 4 3) ∧ rd 6 1 < 2) := by
  have hupd : u.upd = s.upd := by rw [hu, State.updCommand_upd]
  have hexec := doFwLoad_of_quiet hu hq hrd hf
  obtain ⟨hn, hst⟩ := firmwareChecks_bounds hf
  rw [ht, hexec]
  refine ⟨fun hbad => ?_, fun hok ha => ?_, fun hok ha => ?_⟩
  · obtain ⟨hresult, hkept, hrec, hleaves⟩ := State.imageRefused_spec (u := u) (rd := rd) hn hst
    rw [if_pos hbad]
    exact ⟨hresult, hkept.trans hupd, hrec, hleaves⟩
  · have hcopied : u.Leaves updResultFields [.bulk] u.imageCopied := (State.Leaves.refl u _ _).writeBulk (by simp)
    rw [if_neg (not_not_intro hok), if_pos ha]
    refine ⟨State.updResult_result (by decide) (by decide) (State.imageCopied_leaves.get_clear (by simp) rfl), ?_,
      hcopied.updResult (List.Subset.refl _)⟩
    rw [State.updResult, State.raise_bulk, State.advance_bulk, State.put_bulk, State.put_bulk]
  · rw [hok] at hf
    rw [if_neg (not_not_intro hok), if_neg ha]
    exact ⟨rfl, firmwareChecks_kind hf⟩

/-- The image's bytes in the staging buffer, read from where they stood before the command was written. -/
theorem State.imageCopied_command {w : Word} (hu : u = s.updCommand w.toNat) (hb : t.bulk = u.imageCopied.bulk) :
    t.bulkBytes updateBuffer (s.get R.UPD_LEN) = s.bulkBytes (s.get64 R.UPD_SRC_LO) (s.get R.UPD_LEN) ∧
    ∀ a, a < updateBuffer ∨ updateBuffer + s.get R.UPD_LEN ≤ a → t.bulkByte a = s.bulkByte a := by
  have hbulk : u.bulk = s.bulk := by rw [hu, State.updCommand_bulk]
  have hlen : u.get R.UPD_LEN = s.get R.UPD_LEN := by rw [hu, State.updCommand_len]
  have hsrc : u.get64 R.UPD_SRC_LO = s.get64 R.UPD_SRC_LO := by rw [hu, State.updCommand_src]
  obtain ⟨hinside, houtside⟩ := State.imageCopied_bytes hb
  rw [hlen, hsrc, State.bulkBytes_congr hbulk] at hinside
  rw [hlen] at houtside
  refine ⟨hinside, fun a ha => (houtside a ha).trans ?_⟩
  rw [State.bulkByte, hbulk, State.bulkByte]

theorem confirmWindow_lt {x : Nat} : max 10 (min 3600 x) < 2 ^ 12 :=
  Nat.max_lt.2 ⟨by decide, Nat.lt_of_le_of_lt (Nat.min_le_left _ _) (by decide)⟩

/-- Settles O60: each command by the phase it stands in and the outcome of its checks. -/
theorem liveUpdateRuns : Obligations.LiveUpdateRuns := by
  refine ⟨fun s u w rd n st hu hq hrd hf => ?_,
    fun s o h => congrArg Host.Outcome.next (h.elim doFwStaged_of_none doFwStaged_of_other),
    fun s u o i hi hp ho hu => ⟨_, congrArg Host.Outcome.next (doFwStaged_of_failure hi hp ho hu),
      State.stagingFailed_spec (by rw [hu, State.updateSlots_upd])⟩,
    fun s u i hi hp hu => ⟨doFwStaged 0 s, rfl, doFwStaged_spec hi hp hu rfl⟩,
    fun s => ⟨fun hp c hc h => ⟨_, congrArg Host.Outcome.next (doQuiesceAck_of_core hp hc h), rfl, State.resetCore_spec.1, ?_⟩,
      fun h h' => congrArg Host.Outcome.next (doQuiesceAck_of_other h h'), fun h => congrArg Host.Outcome.next (doQuiesceAck_of_byre h)⟩,
    fun s => ⟨fun h => congrArg Host.Outcome.next (doQuiesceTimeout_of_other h),
      fun h => congrArg Host.Outcome.next (doQuiesceTimeout_of_handover h)⟩,
    fun s f => ⟨fun h => congrArg Host.Outcome.next (doFwHandover_of_none h),
      fun h h' => congrArg Host.Outcome.next (doFwHandover_of_other h h')⟩,
    fun s f core gap i hi hv hc hle hgap hp => ⟨fun c l h => ?_, fun h => ?_⟩,
    fun s f core gap i hi hv hc hle hgap hp => ?_,
    fun s f h => congrArg Host.Outcome.next (doFwSelfConfirm_of_unready h),
    fun s f h he hk => congrArg Host.Outcome.next (doFwSelfConfirm_of_ready h he hk), fun s u f hu => ⟨fun h => ?_, fun h => ?_⟩,
    fun s f h => State.tryConfirm_of_waiting h,
    fun s i hi hp hs hh => ⟨_, State.tryConfirm_of_ready hi hp hs hh, State.confirmed_spec⟩, fun s u hu => ⟨fun h => ?_, fun h => ?_⟩,
    fun s => ⟨fun h => ⟨congrArg Host.Outcome.next (doConfirmWindowExpire_of_other h),
      congrArg Host.Outcome.next (doSelfCheckFailed_of_other h)⟩, fun h => ?_⟩,
    fun s cause => ⟨State.beginRevert_of_none, fun c h hc => ⟨_, State.beginRevert_of_handed h, State.handingBack_spec hc⟩⟩,
    fun s f => ⟨s.finishRevert f, rfl, State.finishRevert_spec⟩, fun s u hu => ?_, fun s u v hu hv => ⟨fun h => ?_, fun hp hp' => ⟨fun h => ?_, fun x hx => ?_,
      fun h => ?_, fun a b ha hb => ?_⟩⟩⟩
  · obtain ⟨hrefused, hcopied, hstaged⟩ := doFwLoad_spec hu hq hrd hf rfl
    refine ⟨fun hbad => ⟨doFwLoad w s, rfl, hrefused hbad⟩, fun hok ha => ?_, fun hok ha => ?_⟩
    · obtain ⟨hresult, hbulk, hleaves⟩ := hcopied hok ha
      obtain ⟨hinside, houtside⟩ := State.imageCopied_command hu hbulk
      exact ⟨doFwLoad w s, rfl, hresult, hinside, houtside, hleaves⟩
    · obtain ⟨hexec, hkind⟩ := hstaged hok ha
      obtain ⟨hphase, hshown, hzero⟩ := State.imageStaging_shows (s := u.imageCopied) (a := bits w.toNat 4 3) hkind
      obtain ⟨hinside, -⟩ := State.imageCopied_command hu (State.imageStaging_bulk (s := u.imageCopied) (rd := rd) (a := bits w.toNat 4 3))
      refine ⟨_, congrArg Host.Outcome.next hexec, hphase, hshown, hzero, ?_, hinside, State.imageStaging_leaves⟩
      rw [State.imageStaging_upd, State.imageCopied_leaves.upd (by simp), hu, State.updCommand_upd]
  · obtain ⟨-, hdead⟩ := State.resetCore_spec (s := s) (c := c)
    refine fun x hx hwho => hdead x hx (hwho.trans ?_)
    rcases c with _ | _ | c <;> rfl
  · have hmem : c ∈ coreOrder s.upd.kind := (List.mem_filter.1 (h ▸ List.mem_cons_self)).1
    subst hgap
    exact ⟨_, congrArg Host.Outcome.next (doFwHandover_of_next hi hc.symm hle hp h),
      State.coreReported_asked hv hc.symm (coreOrder_lt hmem) rfl⟩
  · obtain ⟨hphase, hcore, hwindow⟩ := State.trialBegun_shows (s := s.coreReported i.version (Upd.handedOver core)) (fails := f)
      (now := s.uptime) (confirmWindow_lt (x := s.get F.UPD_CTL_CONFIRM_S))
    obtain ⟨hver, -⟩ := State.coreReported_shows (g := Upd.handedOver core) hv hc.symm
    refine ⟨_, congrArg Host.Outcome.next (doFwHandover_of_last hi hc.symm hle hp h), hphase, hcore, hwindow,
      (State.trialBegun_version hle).trans hver, ?_⟩
    rw [State.put_upd, State.trialBegun_upd, State.targetSlot, State.coreReported_upd]
    rfl
  · obtain ⟨hver, hevent⟩ := State.coreReported_shows (g := Upd.handedBack core) hv hc.symm
    have hrec := State.coreReported_records (s := s) (v := (s.firmware s.upd.kind).version) (g := Upd.handedBack core)
    have hupd := State.coreReported_upd (s := s) (v := (s.firmware s.upd.kind).version) (g := Upd.handedBack core)
    rw [← hc, ← hgap] at hrec
    refine ⟨_, hver, hevent, hupd, hrec, State.Leaves.coreReported hc.symm (List.Subset.refl _), fun h => ?_, fun c h => ?_⟩
    · rw [hupd] at h
      exact congrArg Host.Outcome.next (doFwHandover_of_reverted hi hc.symm hle hp h)
    · rw [hupd] at h
      exact congrArg Host.Outcome.next (doFwHandover_of_back hi hc.symm hle hp h)
  · rw [hu]
    exact congrArg Host.Outcome.next (doFwConfirm_of_other h)
  · rw [hu]
    exact congrArg Host.Outcome.next (doFwConfirm_of_trial h)
  · rw [hu]
    exact congrArg Host.Outcome.next (doFwRevert_of_other h)
  · rw [hu]
    exact congrArg Host.Outcome.next (doFwRevert_of_trial h)
  · obtain ⟨hup, hzero, hleaves⟩ := State.windowEnded_spec (s := s)
    exact ⟨congrArg Host.Outcome.next (doSelfCheckFailed_of_trial h), _, hup, hzero, hleaves,
      congrArg Host.Outcome.next (doConfirmWindowExpire_of_trial h)⟩
  · rw [hu]
    exact ⟨fun h => congrArg Host.Outcome.next (doFwAbort_of_other h), fun h => congrArg Host.Outcome.next (doFwAbort_of_unstaged h),
      fun h => congrArg Host.Outcome.next (doFwAbort_of_staging h)⟩
  · obtain ⟨hfw, hstr⟩ := doBurn_of_busy h
    rw [hu, hv]
    exact ⟨congrArg Host.Outcome.next hfw, congrArg Host.Outcome.next hstr⟩
  · rw [hv]
    exact congrArg Host.Outcome.next (doBurnStrCounter_of_none hp hp' h)
  · have hexec := doBurnStrCounter_of_some hp hp' hx
    rw [← hv] at hexec
    exact ⟨fun hle => congrArg Host.Outcome.next (hexec.trans (if_pos hle)), fun hlt => ⟨_, congrArg Host.Outcome.next
      (hexec.trans (if_neg (Nat.not_le.2 hlt))), State.strBurned_spec hlt hv rfl⟩⟩
  · rw [hu]
    exact congrArg Host.Outcome.next (doBurnFwCounter_of_none hp hp' h)
  · have hexec := doBurnFwCounter_of_some hp hp' ha hb
    rw [← hu] at hexec
    exact ⟨fun hle => congrArg Host.Outcome.next (hexec.trans (if_pos hle)), fun hlt => ⟨_, congrArg Host.Outcome.next
      (hexec.trans (if_neg (Nat.not_le.2 hlt))), State.fwBurned_spec hlt hu rfl⟩⟩

end Sys2Proof.Machine
end

section
/-! PROOFS. Reset sources, clocks and supplies (O56). -/
namespace Sys2Proof.Machine

variable {s t u : State} {k : Nat}

/-! ### Bits set and cleared in a field -/

theorem bitAt_cleared {x : Nat} : bitAt (if bitAt x k then x - 2 ^ k else x) k = false := by
  by_cases h : bitAt x k = true
  · have hset : x.testBit k = true := by rw [← bitAt_eq_testBit, h]
    have hle : 2 ^ k ≤ x := Nat.ge_two_pow_of_testBit hset
    have hsum := Nat.testBit_two_pow_add_eq (x - 2 ^ k) k
    rw [Nat.add_sub_cancel' hle, hset] at hsum
    rw [if_pos h, bitAt_eq_testBit]
    simpa using hsum
  · rw [if_neg h]
    simpa using h

theorem bitAt_set {x : Nat} : bitAt (if bitAt x k then x else x + 2 ^ k) k = true := by
  by_cases h : bitAt x k = true
  · rw [if_pos h, h]
  · rw [if_neg h, bitAt_eq_testBit, Nat.add_comm, Nat.testBit_two_pow_add_eq, ← bitAt_eq_testBit]
    simpa using h

theorem bitAt_get_put {f : Field} {v i : Nat} (hf : f.fits = true) (hk : k < f.width) : bitAt ((s.put f v i).get f i) k = bitAt v k := by
  rw [State.get_put_same hf, bitAt_eq_testBit, Nat.testBit_mod_two_pow, bitAt_eq_testBit]
  simp [hk]

/-! ### Injections that may fire -/

section
variable {l : List (Field × Nat)} {p : List Part} (hr : .regs ∈ p) (hf : .flt ∈ p)
include hr

theorem State.Leaves.syncArmed_of_regs (h : s.Leaves l p t) : s.Leaves l p t.syncArmed := by
  unfold State.syncArmed
  split <;> exact (h.putFlag (.inr hr)).put (.inr hr)

include hf

theorem State.Leaves.fireArmed {a : Armed} (h : s.Leaves l p t) : s.Leaves l p (t.fireArmed a) := by
  have hfired : s.Leaves l p (((t.bump F.FLT_DET_INJECTED a.detector).raise F.FLT_EVT_FIRED).tally 0x1301
      [a.detector, a.unit, a.arg, a.left - 1]) := ((h.bump (.inr hr)).raise (.inr hr)).tally
  exact State.Leaves.ite _ (((hfired.fltTo hf).raise (.inr hr)).syncArmed_of_regs hr) ((hfired.fltTo hf).syncArmed_of_regs hr)

theorem State.Leaves.detected {det unit arg : Nat} (h : s.Leaves l p t) : s.Leaves l p (t.detected det unit arg) := by
  have hchance : s.Leaves l p (t.opportunity det unit arg).2 := by
    unfold State.opportunity
    split
    · split
      · exact h.fireArmed hr hf
      · exact h
    · exact h
  exact (hchance.bump (.inr hr)).raise (.inr hr)

end

theorem State.detect_tly {id : Nat} : (s.detect id).tly = s.tly := by rw [State.detect, State.raise_tly, State.bump_tly]

theorem State.get_detect_clear {id j : Nat} {g : Field} (h : F.FLT_DET_COUNT.clear id g j = true)
    (h' : F.FLT_EVT_DETECTED.clear 0 g j = true) : (s.detect id).get g j = s.get g j := by
  rw [State.detect, State.get_raise_clear h', State.get_bump_clear h]

theorem State.Leaves.detect {l : List (Field × Nat)} {p : List Part} {id : Nat} (h : s.Leaves l p t)
    (m : (F.FLT_DET_COUNT, id) ∈ l) (m' : (F.FLT_EVT_DETECTED, 0) ∈ l) : s.Leaves l p (t.detect id) :=
  (h.bump (.inl (List.mem_append_left _ m))).raise (.inl (List.mem_append_left _ m'))

/-! ### Requests for a reset (R499, R514) -/

theorem doResetN_of_awake (h : s.power ≠ 0 ∨ s.pwr.waking.isSome = true) : doResetN s = s.takeReset 1 reachDevice 0 := by
  refine if_neg ?_
  rintro ⟨hp, hw⟩
  rcases h with h | h
  · exact h hp
  · rw [Option.isNone_iff_eq_none.1 hw] at h
    exact absurd h (by decide)

theorem doResetN_of_dormant (h : s.power = 0) (hw : s.pwr.waking = none) :
    doResetN s = (s.takeReset 1 reachDevice 0).backToDormant := if_pos ⟨h, Option.isNone_iff_eq_none.2 hw⟩

theorem doSwReset_of_key {w : Word} (h : bitAt w.toNat 31 = true) (hk : bits w.toNat 15 0 = 0xD1A5) :
    doSwReset w s = s.takeReset 2 reachDevice 0 := if_pos ⟨h, hk⟩

theorem doSwReset_of_other {w : Word} (h : bitAt w.toNat 31 = false ∨ bits w.toNat 15 0 ≠ 0xD1A5) : doSwReset w s = s := by
  refine if_neg ?_
  rintro ⟨hgo, hkey⟩
  rcases h with h | h
  · exact Bool.false_ne_true (h.symm.trans hgo)
  · exact h hkey

/-! ### Supplies (R516) -/

/-- A main supply shown as bad, and detected. -/
def State.supplyBad (s : State) (k : Nat) : State :=
  (s.put F.PCR_SUPPLY_GOOD (if bitAt (s.get F.PCR_SUPPLY_GOOD) k then s.get F.PCR_SUPPLY_GOOD - 2 ^ k else s.get F.PCR_SUPPLY_GOOD)).detect 0x29

/-- A bank's supply shown as bad, and the bank held. -/
def State.bankBad (s : State) (b : Nat) : State :=
  (s.put F.PCR_SUPPLY_BANK_GOOD (if bitAt (s.get F.PCR_SUPPLY_BANK_GOOD) b then s.get F.PCR_SUPPLY_BANK_GOOD - 2 ^ b
    else s.get F.PCR_SUPPLY_BANK_GOOD)).put F.PCR_SUPPLY_BANK_HELD
      (if bitAt (s.get F.PCR_SUPPLY_BANK_HELD) b then s.get F.PCR_SUPPLY_BANK_HELD else s.get F.PCR_SUPPLY_BANK_HELD + 2 ^ b)

/-- A port of a held bank is unpowered. -/
def holdPort (b i : Nat) (t : State) : State := (t.modDd (8 * b + i) (fun _ => DdPort.reset)).ddEnter (8 * b + i) 7

theorem doSupplyFault_of_dormant (h : s.power = 0) : doSupplyFault k s = s := if_pos h

theorem doSupplyFault_of_main (h : s.power ≠ 0) (hq : s.flt.armed = none) (hk : k ≤ 6) : doSupplyFault k s =
    (((s.supplyBad k).takeReset 3 reachFast 0).modPwr (fun p => { p with supplyFault := true })).tally 0x120F
      [((s.supplyBad k).reg R.PCR_SUPPLY.base).toNat] := by
  have hquiet : ∀ v, (s.put F.PCR_SUPPLY_GOOD v).flt.armed = none := fun v => by rw [State.put_flt, hq]
  rw [doSupplyFault, if_neg h, if_pos hk]
  dsimp only
  rw [State.detected_of_quiet (hquiet _), State.supplyBad]

theorem State.supplyBad_shows (hk : k ≤ 6) : bitAt ((s.supplyBad k).get F.PCR_SUPPLY_GOOD) k = false ∧
    s.Leaves [(F.PCR_SUPPLY_GOOD, 0), (F.FLT_DET_COUNT, 0x29), (F.FLT_EVT_DETECTED, 0)] [] (s.supplyBad k) := by
  have hbit : k < F.PCR_SUPPLY_GOOD.width := Nat.lt_of_le_of_lt hk (by decide)
  refine ⟨?_, ((State.Leaves.refl s _ _).put (.inl (by simp))).detect (by simp) (by simp)⟩
  rw [State.supplyBad, State.get_detect_clear rfl rfl, bitAt_get_put rfl hbit, bitAt_cleared]

theorem doSupplyFault_of_bank (h : s.power ≠ 0) (hk : 8 ≤ k) (hk' : k ≤ 11) : doSupplyFault k s =
    ((s.bankBad (k - 8)).each (List.range 8) (holdPort (k - 8))).tally 0x1211 [k - 8, s.pwr.opts.bankV, 0] := by
  have hmain : ¬ k ≤ 6 := by omega
  rw [doSupplyFault, if_neg h, if_neg hmain, if_pos hk']
  rfl

/-- A tally of the DDP's own leaves its fields. -/
theorem ddPort_lost {g : Field} {p : Nat} (hb : g.base < 0xC0000) (hs : g.stride = 0x40) (hp : p < 32) :
    R.TLY_LOST.clear 0 g p = true ∧ F.TLY_EVT_LOST.clear 0 g p = true := by
  have hlow : g.addr p < 0x170000 := by
    rw [Field.addr, hs]
    omega
  have hlost : R.TLY_LOST.addr 0 = 0x170024 := rfl
  have hevent : F.TLY_EVT_LOST.addr 0 = 0x170008 := rfl
  exact ⟨Field.clear_of_addr rfl (by omega), Field.clear_of_addr rfl (by omega)⟩

theorem State.ddState_ddEnter_same {p st : Nat} (hp : p < 32) (hst : st < 8) : (s.ddEnter p st).ddState p = st := by
  obtain ⟨hlost, hevent⟩ := ddPort_lost (g := F.P_STAT_STATE) (by decide) rfl hp
  rw [State.ddEnter]
  split
  · assumption
  · rw [State.ddState, State.get_tally_clear hlost hevent, State.get_put_of_lt rfl hst]

theorem State.ddState_ddEnter_other {p q st : Nat} (hq : q < 32) (h : p ≠ q) : (s.ddEnter p st).ddState q = s.ddState q := by
  obtain ⟨hlost, hevent⟩ := ddPort_lost (g := F.P_STAT_STATE) (by decide) rfl hq
  have hother : F.P_STAT_STATE.clear p F.P_STAT_STATE q = true := by
    have haddr : ∀ p, F.P_STAT_STATE.addr p = 0xB1028 + 0x40 * p := fun _ => rfl
    refine Field.clear_of_addr rfl ?_
    rw [haddr, haddr]
    omega
  rw [State.ddEnter]
  split
  · rfl
  · rw [State.ddState, State.get_tally_clear hlost hevent, State.get_put_clear hother, State.ddState]

theorem holdPort_state {b n i : Nat} (hb : b ≤ 3) (hn : n ≤ 8) (hi : i < n) :
    (s.each (List.range n) (holdPort b)).ddState (8 * b + i) = 7 := by
  induction n with
  | zero => exact absurd hi (Nat.not_lt_zero i)
  | succ n ih =>
    rw [State.each, List.range_succ, List.foldl_append]
    by_cases h : i = n
    · rw [h]
      exact State.ddState_ddEnter_same (by omega) (by decide)
    · exact (State.ddState_ddEnter_other (by omega) (by omega)).trans (ih (by omega) (by omega))

theorem holdPort_get {b i : Nat} {g : Field} (_ : b ≤ 3) (_ : i < 8) (hg : g.addr 0 = 0x140034) :
    (holdPort b i s).get g = s.get g := by
  have hstate : F.P_STAT_STATE.addr (8 * b + i) = 0xB1028 + 0x40 * (8 * b + i) := rfl
  have hlost : R.TLY_LOST.addr 0 = 0x170024 := rfl
  have hevent : F.TLY_EVT_LOST.addr 0 = 0x170008 := rfl
  rw [holdPort, State.ddEnter]
  split
  · exact State.modDd_get
  · rw [State.get_tally_clear (Field.clear_of_addr rfl (by omega)) (Field.clear_of_addr rfl (by omega)),
      State.get_put_clear (Field.clear_of_addr rfl (by omega)), State.modDd_get]

theorem State.bankBad_shows {b v : Nat} (hb : b ≤ 3) (ht : t = ((s.bankBad b).each (List.range 8) (holdPort b)).tally 0x1211 [b, v, 0]) :
    bitAt (t.get F.PCR_SUPPLY_BANK_GOOD) b = false ∧ bitAt (t.get F.PCR_SUPPLY_BANK_HELD) b = true ∧
    ∀ i, i < 8 → t.ddState (8 * b + i) = 7 := by
  have hkept : ∀ g : Field, g.addr 0 = 0x140034 → ((s.bankBad b).each (List.range 8) (holdPort b)).get g = (s.bankBad b).get g :=
    fun g hg => State.each_proj (g := fun s => s.get g) fun i hi t => holdPort_get hb (List.mem_range.1 hi) hg
  have hbit : b < F.PCR_SUPPLY_BANK_GOOD.width := Nat.lt_of_le_of_lt hb (by decide)
  have hbit' : b < F.PCR_SUPPLY_BANK_HELD.width := Nat.lt_of_le_of_lt hb (by decide)
  subst ht
  refine ⟨?_, ?_, fun i hi => ?_⟩
  · rw [State.get_tally_clear rfl rfl, hkept _ rfl, State.bankBad, State.get_put_clear rfl, bitAt_get_put rfl hbit, bitAt_cleared]
  · rw [State.get_tally_clear rfl rfl, hkept _ rfl, State.bankBad, bitAt_get_put rfl hbit', bitAt_set]
  · obtain ⟨hlost, hevent⟩ := ddPort_lost (g := F.P_STAT_STATE) (p := 8 * b + i) (by decide) rfl (by omega)
    rw [State.ddState, State.get_tally_clear hlost hevent]
    exact holdPort_state hb (Nat.le_refl 8) hi

/-! ### Thermal trips (R505) -/

/-- A trip noted: the device is held, and the third one in the window waits for a wake. -/
def State.tripNoted (s : State) (die : Int) : State :=
  (((s.put F.PCR_STAT_PHASE 14).put F.PCR_TEMP_TRIPS (s.recentTrips ++ [s.uptime]).length).modPwr (fun w => { w with
    tripped := true, trips := s.recentTrips ++ [s.uptime], waitsWake := decide (3 ≤ (s.recentTrips ++ [s.uptime]).length)
    dormantAt := if decide (3 ≤ (s.recentTrips ++ [s.uptime]).length) then
      some ((s.put F.PCR_STAT_PHASE 14).put F.PCR_TEMP_TRIPS (s.recentTrips ++ [s.uptime]).length).uptime else none })).tally 0x1208
    [slotOfInt die, (s.recentTrips ++ [s.uptime]).length]

theorem doThermalTrip_eq {die : Int} : doThermalTrip die s =
    (((s.put F.PCR_TEMP_DIE (ofSigned 16 die)).detected 0x2A 0 0).takeReset 4 reachFast 0).tripNoted die := rfl

theorem State.tripNoted_spec {die : Int} : (s.tripNoted die).pwr.tripped = true ∧ (s.tripNoted die).get F.PCR_STAT_PHASE = 14 ∧
    (s.tripNoted die).pwr.waitsWake = decide (3 ≤ (s.tripNoted die).pwr.trips.length) ∧
    (s.tripNoted die).pwr.trips.getLast? = some (s.tripNoted die).uptime := by
  rw [State.tripNoted]
  refine ⟨?_, ?_, ?_, ?_⟩
  · rw [State.tally_pwr, State.modPwr_pwr]
  · rw [State.get_tally_clear rfl rfl, State.modPwr_get, State.get_put_clear rfl, State.get_put_of_lt rfl (by decide)]
  · rw [State.tally_pwr, State.modPwr_pwr]
  · rw [State.tally_pwr, State.modPwr_pwr, State.tally_uptime, State.modPwr_uptime, State.put_uptime, State.put_uptime]
    exact List.getLast?_concat

theorem doThermalRestart_of_tripped (h : s.pwr.tripped = true) (hw : s.pwr.waitsWake = false) :
    doThermalRestart s = (s.enterPhase 3).modPwr (fun w => { w with tripped := false, dormantAt := none }) := if_pos ⟨h, hw⟩

theorem doThermalRestart_of_other (h : s.pwr.tripped = false ∨ s.pwr.waitsWake = true) : doThermalRestart s = s := by
  refine if_neg ?_
  rintro ⟨ht, hw⟩
  rcases h with h | h
  · exact Bool.false_ne_true (h.symm.trans ht)
  · exact Bool.false_ne_true (hw.symm.trans h)

theorem State.restarted_spec {x : Pwr → Pwr} : ((s.enterPhase 3).modPwr x).pwr = x (s.enterPhase 3).pwr ∧
    ((s.enterPhase 3).modPwr x).get F.PCR_STAT_PHASE = 3 ∧ s.Leaves [(F.PCR_STAT_PHASE, 0)] [.pwr] ((s.enterPhase 3).modPwr x) := by
  refine ⟨State.modPwr_pwr, ?_, (((State.Leaves.refl s _ _).put (.inl (by simp))).modPwr (by simp)).modPwr (by simp)⟩
  rw [State.modPwr_get, State.enterPhase, State.modPwr_get, State.get_put_of_lt rfl (by decide)]

/-! ### References and the crystal (R496) -/

/-- The bit that shows a reference as good. -/
def refField (r : Bool) : Field := if r then F.PCR_CLK_STAT_REF156_OK else F.PCR_CLK_STAT_REF25_OK

/-- A lost reference, recorded and shown. -/
def State.refLost (s : State) (r : Bool) (ppm : Int) : State :=
  (((s.detect 0x26).tally 0x1209 [if r then 1 else 0, slotOfInt ppm]).putFlag (refField r) false).modPwr
    (fun w => if r then { w with lost156 := true } else { w with lost25 := true })

theorem doRefLoss_of_quiet {r : Bool} {ppm : Int} (h : s.flt.armed = none) : doRefLoss r ppm s =
    if s.power = 0 then s.refLost r ppm
    else if r then (((s.refLost r ppm).failPair).takeReset 6 reachSerdes 0).put F.PCR_CLK_STAT_SD_LOCK 0
    else (s.refLost r ppm).takeReset 5 reachFast 0 := by
  rw [doRefLoss, State.detected_of_quiet h]
  rfl

theorem State.refLost_spec {r : Bool} {ppm : Int} :
    (if r then (s.refLost r ppm).pwr.lost156 else (s.refLost r ppm).pwr.lost25) = true ∧ (s.refLost r ppm).flag (refField r) = false ∧
    s.Records [(0x1209, [if r then 1 else 0, slotOfInt ppm])] (s.refLost r ppm) ∧
    s.Leaves [(refField r, 0), (F.FLT_DET_COUNT, 0x26), (F.FLT_EVT_DETECTED, 0)] [.pwr] (s.refLost r ppm) := by
  rw [State.refLost]
  refine ⟨?_, ?_, State.Records.after ?_ (State.modPwr_tly.trans State.putFlag_tly) (State.modPwr_now.trans State.putFlag_now),
    ((((State.Leaves.refl s _ _).detect (by simp) (by simp)).tally).putFlag (.inl (by simp))).modPwr (by simp)⟩
  · rw [State.modPwr_pwr]
    cases r <;> rfl
  · rw [State.modPwr_flag]
    cases r <;> exact State.flag_putFlag_same rfl rfl
  · exact State.Records.one State.detect_tly

/-- A reference back in its place: its bit is set again, and its PLLs are tried anew. -/
def State.refBack (s : State) : Bool → State
  | true => (s.putFlag F.PCR_CLK_STAT_REF156_OK true).modPwr
      (fun w => { w with lost156 := false, tries := w.tries.filter (fun q => decide (q.1 < 16)) })
  | false => (s.putFlag F.PCR_CLK_STAT_REF25_OK true).modPwr
      (fun w => { w with lost25 := false, tries := w.tries.filter (fun q => decide (16 ≤ q.1)) })

theorem doRefRestored_of_25 : doRefRestored false s = s.refBack false := if_neg (by decide)

theorem doRefRestored_of_156 : doRefRestored true s = (s.refBack true).syncDomains := if_pos rfl

theorem State.refRestored_spec {f : Field} {x : Pwr → Pwr} (hf : f.fits = true) (hw : f.width = 1) :
    ((s.putFlag f true).modPwr x).flag f = true ∧ ((s.putFlag f true).modPwr x).pwr = x s.pwr ∧
    s.Leaves [(f, 0)] [.pwr] ((s.putFlag f true).modPwr x) := by
  refine ⟨?_, ?_, ((State.Leaves.refl s _ _).putFlag (.inl (by simp))).modPwr (by simp)⟩
  · rw [State.modPwr_flag, State.flag_putFlag_same hf hw]
  · rw [State.modPwr_pwr, State.putFlag_pwr]

theorem State.refBack_25 : (s.refBack false).flag F.PCR_CLK_STAT_REF25_OK = true ∧ (s.refBack false).pwr.lost25 = false ∧
    s.Leaves [(F.PCR_CLK_STAT_REF25_OK, 0)] [.pwr] (s.refBack false) := by
  rw [State.refBack]
  obtain ⟨hflag, hpwr, hleaves⟩ := State.refRestored_spec (s := s) (f := F.PCR_CLK_STAT_REF25_OK)
    (x := fun w => { w with lost25 := false, tries := w.tries.filter (fun q => decide (16 ≤ q.1)) }) rfl rfl
  exact ⟨hflag, congrArg Pwr.lost25 hpwr, hleaves⟩

theorem State.refBack_156 : (s.refBack true).flag F.PCR_CLK_STAT_REF156_OK = true ∧ (s.refBack true).pwr.lost156 = false ∧
    s.Leaves [(F.PCR_CLK_STAT_REF156_OK, 0)] [.pwr] (s.refBack true) := by
  rw [State.refBack]
  obtain ⟨hflag, hpwr, hleaves⟩ := State.refRestored_spec (s := s) (f := F.PCR_CLK_STAT_REF156_OK)
    (x := fun w => { w with lost156 := false, tries := w.tries.filter (fun q => decide (q.1 < 16)) }) rfl rfl
  exact ⟨hflag, congrArg Pwr.lost156 hpwr, hleaves⟩

/-- The crystal has failed: the RC oscillator takes its place. -/
def State.xtalFailed (s : State) : State :=
  ((((s.detect 0x28).putFlag F.PCR_CLK_STAT_XTAL_OK false).putFlag F.PCR_CLK_STAT_RC_FALLBACK true).raise F.PCR_EVT_XTAL).tally 0x120A [0]

theorem doXtalFallback_of_quiet (h : s.flt.armed = none) : doXtalFallback s = s.xtalFailed := by
  rw [doXtalFallback, State.detected_of_quiet h, State.xtalFailed]

theorem State.xtalFailed_spec : s.xtalFailed.flag F.PCR_CLK_STAT_XTAL_OK = false ∧ s.xtalFailed.flag F.PCR_CLK_STAT_RC_FALLBACK = true ∧
    s.xtalFailed.flag F.PCR_EVT_XTAL = true ∧ s.Records [(0x120A, [0])] s.xtalFailed ∧
    s.Leaves [(F.PCR_CLK_STAT_XTAL_OK, 0), (F.PCR_CLK_STAT_RC_FALLBACK, 0), (F.PCR_EVT_XTAL, 0), (F.FLT_DET_COUNT, 0x28),
      (F.FLT_EVT_DETECTED, 0)] [] s.xtalFailed := by
  rw [State.xtalFailed]
  refine ⟨?_, ?_, ?_, State.Records.one ?_, (((((State.Leaves.refl s _ _).detect (by simp) (by simp)).putFlag (.inl (by simp))).putFlag
    (.inl (by simp))).raise (.inl (by simp))).tally⟩
  · rw [State.flag_tally_clear rfl rfl, State.flag_raise_clear rfl, State.flag_putFlag_clear rfl, State.flag_putFlag_same rfl rfl]
  · rw [State.flag_tally_clear rfl rfl, State.flag_raise_clear rfl, State.flag_putFlag_same rfl rfl]
  · rw [State.flag_tally_clear rfl rfl, State.flag_raise_same rfl rfl]
  · rw [State.raise_tly, State.putFlag_tly, State.putFlag_tly, State.detect_tly]

/-- The crystal runs again. -/
def State.xtalBack (s : State) : State :=
  ((s.putFlag F.PCR_CLK_STAT_XTAL_OK true).putFlag F.PCR_CLK_STAT_RC_FALLBACK false).tally 0x120A [1]

theorem doXtalRestored_of_fallback (h : s.flag F.PCR_CLK_STAT_RC_FALLBACK = true) : doXtalRestored s = s.xtalBack := if_pos h

theorem doXtalRestored_of_crystal (h : s.flag F.PCR_CLK_STAT_RC_FALLBACK = false) : doXtalRestored s = s :=
  if_neg (by rw [h]; decide)

theorem State.xtalBack_spec : s.xtalBack.flag F.PCR_CLK_STAT_XTAL_OK = true ∧ s.xtalBack.flag F.PCR_CLK_STAT_RC_FALLBACK = false ∧
    s.Records [(0x120A, [1])] s.xtalBack ∧
    s.Leaves [(F.PCR_CLK_STAT_XTAL_OK, 0), (F.PCR_CLK_STAT_RC_FALLBACK, 0)] [] s.xtalBack := by
  rw [State.xtalBack]
  refine ⟨?_, ?_, State.Records.one (State.putFlag_tly.trans State.putFlag_tly),
    (((State.Leaves.refl s _ _).putFlag (.inl (by simp))).putFlag (.inl (by simp))).tally⟩
  · rw [State.flag_tally_clear rfl rfl, State.flag_putFlag_clear rfl, State.flag_putFlag_same rfl rfl]
  · rw [State.flag_tally_clear rfl rfl, State.flag_putFlag_same rfl rfl]

/-! ### PLLs (R497) -/

/-- A PLL that has lost its lock, shown and recorded. -/
def State.lockLost (s : State) (k : Nat) : State :=
  ((s.detect 0x27).pllLock k false).tally 0x1209 [if 16 ≤ k then 1 else 0, 0]

section
variable (hk : (4 ≤ k ∧ k ≤ 13) ∨ (16 ≤ k ∧ k ≤ 21))

theorem doPllLockLoss_of_unlocked (h : bitAt (s.reg R.PCR_CLK_STAT.base).toNat k = false) : doPllLockLoss k s = s :=
  if_pos (.inr (.inl h))

include hk

theorem doPllLockLoss_of_locked (hp : s.power ≠ 0) (hq : s.flt.armed = none) (h : bitAt (s.reg R.PCR_CLK_STAT.base).toNat k = true) :
    doPllLockLoss k s = (s.lockLost k).pllLost k := by
  have hacts : ¬ (s.power = 0 ∨ bitAt (s.reg R.PCR_CLK_STAT.base).toNat k = false ∨ k < 4 ∨ (13 < k ∧ k < 16) ∨ 21 < k) := by
    rintro (hd | hu | hout)
    · exact hp hd
    · exact Bool.false_ne_true (hu.symm.trans h)
    · omega
  rw [doPllLockLoss, if_neg hacts, State.detected_of_quiet hq, State.lockLost]

theorem State.lockLost_bit : bitAt ((s.lockLost k).reg R.PCR_CLK_STAT.base).toNat k = false := by
  have htally : ∀ (t : State) c l, (t.tally c l).reg R.PCR_CLK_STAT.base = t.reg R.PCR_CLK_STAT.base := fun t c l =>
    ((State.Leaves.refl t [] []).tally).reg_of_ne (by simp) (by decide)
  have hword : k < 32 := by omega
  rw [State.lockLost, htally, State.pllLock, if_pos hk, State.reg_setReg_same, BitVec.toNat_ofNat, bitAt_eq_testBit,
    Nat.testBit_mod_two_pow, testBit_putBits_of_mem (Nat.le_refl k) (Nat.lt_succ_self k)]
  simp

theorem State.lockLost_records : s.Records [(0x1209, [if 16 ≤ k then 1 else 0, 0])] (s.lockLost k) := by
  refine State.Records.one ?_
  rw [State.pllLock, if_pos hk, State.setReg_tly, State.detect_tly]

end

/-! ### Releases held (R497) -/

/-- The field that shows what is held: a unit or a domain. -/
def heldField (unit : Bool) : Field := if unit then F.PCR_BLK_RST_STAT_HELD else F.PCR_PD_STAT_HELD

/-- A release held for long. -/
def State.heldNoted (s : State) (unit : Bool) (which clock us : Nat) : State :=
  ((s.put (heldField unit) (s.get (heldField unit) ||| 2 ^ which)).raise F.PCR_EVT_HELD).tally 0x1205 [which, clock, us]

section
variable {unit : Bool} {which clock us : Nat}

theorem doReleaseHeld_eq : doReleaseHeld unit which clock us s = s.heldNoted unit which clock us := by
  cases unit <;> rfl

theorem State.heldNoted_spec (h : which < 16) : bitAt ((s.heldNoted unit which clock us).get (heldField unit)) which = true ∧
    (s.heldNoted unit which clock us).flag F.PCR_EVT_HELD = true ∧
    s.Records [(0x1205, [which, clock, us])] (s.heldNoted unit which clock us) ∧
    s.Leaves [(heldField unit, 0), (F.PCR_EVT_HELD, 0)] [] (s.heldNoted unit which clock us) := by
  have hclear : ∀ b, F.PCR_EVT_HELD.clear 0 (heldField b) 0 = true ∧ R.TLY_LOST.clear 0 (heldField b) 0 = true ∧
      F.TLY_EVT_LOST.clear 0 (heldField b) 0 = true ∧ (heldField b).fits = true ∧ 16 ≤ (heldField b).width := by decide
  obtain ⟨hevent, hlost, hlost', hfits, hwidth⟩ := hclear unit
  rw [State.heldNoted]
  refine ⟨?_, ?_, State.Records.one (State.raise_tly.trans State.put_tly),
    (((State.Leaves.refl s _ _).put (.inl (by simp))).raise (.inl (by simp))).tally⟩
  · rw [State.get_tally_clear hlost hlost', State.get_raise_clear hevent, bitAt_get_put_or hfits (Nat.lt_of_lt_of_le h hwidth)]
  · rw [State.flag_tally_clear rfl rfl, State.flag_raise_same rfl rfl]

end

/-! ### Watchdogs (R504) -/

/-- The expiries of the last 600 s, with one more. -/
def State.wdogNear (s : State) (core : Nat) : List (Nat × Nat) :=
  s.pwr.wdog.filter (fun q => decide (s.uptime < q.2 + 600 * oneSecond)) ++ [(core, s.uptime)]

/-- How often a core's watchdog has expired of late. -/
def State.wdogCount (s : State) (core : Nat) : Nat := ((s.wdogNear core).filter (fun q => q.1 == core)).length

/-- A core's expiry count, one more. -/
def State.wdogValue (s : State) (core : Nat) : Nat :=
  putBits (s.get R.PCR_WDOG_CNT) (8 * core) 8 (min 255 (bits (s.get R.PCR_WDOG_CNT) (8 * core + 7) (8 * core) + 1))

/-- An expiry, counted, shown and recorded. -/
def State.wdogNoted (s : State) (core : Nat) : State :=
  ((((if core = 3 then s.detected 0x16 0 0 else s.detected 0x17 core 0).put R.PCR_WDOG_CNT (s.wdogValue core)).modPwr
    (fun w => { w with wdog := s.wdogNear core })).raise F.PCR_EVT_WDOG).tally 0x1206 [core, s.wdogCount core]

section
variable {core : Nat}

theorem doWdogExpired_of_byre (h : core = 3) : doWdogExpired core s = ((s.wdogNoted core).takeReset 7 reachByre 0).updWatchdog 0 := if_pos h

theorem doWdogExpired_of_core (h : core ≠ 3) (hn : s.wdogCount core < 3) :
    doWdogExpired core s = ((s.wdogNoted core).takeReset 9 reachCore core).updWatchdog (core + 1) := by
  have hfew : ¬ 3 ≤ ((s.pwr.wdog.filter (fun q => decide (s.uptime < q.2 + 600 * oneSecond)) ++ [(core, s.uptime)]).filter
      (fun q => q.1 == core)).length := Nat.not_le.2 hn
  refine (if_neg h).trans ?_
  rw [if_neg hfew]
  rfl

theorem State.wdogCount_eq : s.wdogCount core =
    ((s.pwr.wdog.filter (fun q => decide (s.uptime < q.2 + 600 * oneSecond))).filter (fun q => q.1 == core)).length + 1 := by
  have hone : [(core, s.uptime)].filter (fun q => q.1 == core) = [(core, s.uptime)] := by simp
  rw [State.wdogCount, State.wdogNear, List.filter_append, hone, List.length_append, List.length_singleton]

theorem State.wdogNoted_leaves : s.Leaves [] [.regs, .flt, .pwr] (s.wdogNoted core) := by
  have hdetected : s.Leaves [] [.regs, .flt, .pwr] (if core = 3 then s.detected 0x16 0 0 else s.detected 0x17 core 0) :=
    State.Leaves.ite _ ((State.Leaves.refl s _ _).detected (by simp) (by simp)) ((State.Leaves.refl s _ _).detected (by simp) (by simp))
  exact (((hdetected.put (.inr (by simp))).modPwr (by simp)).raise (.inr (by simp))).tally

theorem State.wdogNoted_shows (hc : core < 4) : (s.wdogNoted core).flag F.PCR_EVT_WDOG = true ∧
    bits ((s.wdogNoted core).get R.PCR_WDOG_CNT) (8 * core + 7) (8 * core) =
      min 255 (bits (s.get R.PCR_WDOG_CNT) (8 * core + 7) (8 * core) + 1) := by
  have hwidth : 8 * core + 7 - 8 * core + 1 = 8 := by omega
  have hword : s.wdogValue core < 2 ^ 32 := putBits_lt _ _ _ _ State.get_lt (by omega)
  have hbyte : ∀ x, min 255 x < 2 ^ 8 := fun x => Nat.lt_of_le_of_lt (Nat.min_le_left _ _) (by decide)
  rw [State.wdogNoted]
  constructor
  · rw [State.flag_tally_clear rfl rfl, State.flag_raise_same rfl rfl]
  · rw [State.get_tally_clear rfl rfl, State.get_raise_clear rfl, State.modPwr_get, State.get_put_of_lt rfl hword, State.wdogValue]
    generalize bits (s.get R.PCR_WDOG_CNT) (8 * core + 7) (8 * core) + 1 = x
    rw [bits, hwidth, putBits_same, Nat.mod_eq_of_lt (hbyte x)]

end

/-! ### Parity (R499, R506) -/

/-- A backup register that failed its parity is 0 and not valid. -/
def State.backupLost (s : State) (i : Nat) : State :=
  (((s.detect 0x11).put R.PCR_BKP 0 i).put F.PCR_BKP_VALID_VALID
    (if bitAt (s.get F.PCR_BKP_VALID_VALID) i then s.get F.PCR_BKP_VALID_VALID - 2 ^ i else s.get F.PCR_BKP_VALID_VALID)).tally 0x120E
      [0x140100 + 4 * i]

section
variable {i : Nat}

theorem doParity_of_backup (hi : i < 16) (h : s.flt.armed = none) : doParity (0x140100 + 4 * i) s = s.backupLost i := by
  have hrange : 0x140100 ≤ 0x140100 + 4 * i ∧ 0x140100 + 4 * i < 0x140140 := ⟨by omega, by omega⟩
  have hindex : (0x140100 + 4 * i - 0x140100) / 4 = i := by omega
  rw [doParity, if_pos hrange]
  dsimp only
  rw [hindex, State.detected_of_quiet h, State.backupLost]

theorem State.backupLost_spec (hi : i < 16) : (s.backupLost i).get R.PCR_BKP i = 0 ∧
    bitAt ((s.backupLost i).get F.PCR_BKP_VALID_VALID) i = false ∧ s.Records [(0x120E, [0x140100 + 4 * i])] (s.backupLost i) ∧
    s.Leaves [(R.PCR_BKP, i), (F.PCR_BKP_VALID_VALID, 0), (F.FLT_DET_COUNT, 0x11), (F.FLT_EVT_DETECTED, 0)] [] (s.backupLost i) := by
  have haddr : R.PCR_BKP.addr i = 0x140100 + 4 * i := rfl
  have hlost : R.TLY_LOST.addr 0 = 0x170024 := rfl
  have hevent : F.TLY_EVT_LOST.addr 0 = 0x170008 := rfl
  have hvalid : F.PCR_BKP_VALID_VALID.addr 0 = 0x140044 := rfl
  rw [State.backupLost]
  refine ⟨?_, ?_, State.Records.one ?_, ((((State.Leaves.refl s _ _).detect (by simp) (by simp)).put (.inl (by simp))).put
    (.inl (by simp))).tally⟩
  · rw [State.get_tally_clear (Field.clear_of_addr rfl (by omega)) (Field.clear_of_addr rfl (by omega)),
      State.get_put_clear (Field.clear_of_addr rfl (by omega)), State.get_put_same rfl, Nat.zero_mod]
  · rw [State.get_tally_clear rfl rfl, bitAt_get_put rfl hi, bitAt_cleared]
  · rw [State.put_tly, State.put_tly, State.detect_tly]

end

theorem doParity_of_other {a : Nat} (h : a < 0x140100 ∨ 0x140140 ≤ a) : doParity a s = if regInByre a then
    ((((s.detected 0x10 0 a).setReg (a / 4 * 4) (regReset (a / 4 * 4))).takeReset 8 reachByre 0).tally 0x120E [a]) else s := by
  have houtside : ¬ (0x140100 ≤ a ∧ a < 0x140140) := by omega
  exact if_neg houtside

/-! ### The obligation -/

/-- Settles O56: each source by the branches of its command, what it notes before its reset by the state that the reset takes. -/
theorem resetSources : Obligations.ResetSources := by
  refine ⟨fun s => rfl, fun s => ⟨fun h => congrArg Host.Outcome.next (doResetN_of_awake h),
      fun h hw => congrArg Host.Outcome.next (doResetN_of_dormant h hw)⟩,
    fun s w => ⟨fun h hk => congrArg Host.Outcome.next (doSwReset_of_key h hk), fun h => congrArg Host.Outcome.next (doSwReset_of_other h)⟩,
    fun s k h => congrArg Host.Outcome.next (doSupplyFault_of_dormant h),
    fun s k h hq hk => ⟨s.supplyBad k, congrArg Host.Outcome.next (doSupplyFault_of_main h hq hk), State.supplyBad_shows hk⟩,
    fun s k h hk hk' => ⟨_, congrArg Host.Outcome.next (doSupplyFault_of_bank h hk hk'), State.bankBad_shows (by omega) rfl⟩,
    fun s die => ⟨_, congrArg Host.Outcome.next doThermalTrip_eq, State.tripNoted_spec⟩,
    fun s => ⟨fun h hw => ?_,
      fun h => congrArg Host.Outcome.next (doThermalRestart_of_other h)⟩,
    fun s r ppm hq => ?_,
    fun s => ⟨⟨s.refBack false, congrArg Host.Outcome.next doRefRestored_of_25, State.refBack_25⟩,
      ⟨s.refBack true, congrArg Host.Outcome.next doRefRestored_of_156, State.refBack_156⟩⟩,
    fun s hq => ⟨s.xtalFailed, congrArg Host.Outcome.next (doXtalFallback_of_quiet hq), State.xtalFailed_spec⟩,
    fun s => ⟨fun h => ⟨s.xtalBack, congrArg Host.Outcome.next (doXtalRestored_of_fallback h), State.xtalBack_spec⟩,
      fun h => congrArg Host.Outcome.next (doXtalRestored_of_crystal h)⟩,
    fun s k hp hq hk => ⟨fun h => ⟨s.lockLost k, congrArg Host.Outcome.next (doPllLockLoss_of_locked hk hp hq h), State.lockLost_bit hk,
      State.lockLost_records hk⟩, fun h => congrArg Host.Outcome.next (doPllLockLoss_of_unlocked h)⟩,
    fun s k n hn => ?_,
    fun s unit which clock us h => ⟨_, congrArg Host.Outcome.next doReleaseHeld_eq, State.heldNoted_spec h⟩,
    fun s core => ?_,
    fun s i hi hq => ⟨_, congrArg Host.Outcome.next (doParity_of_backup hi hq), State.backupLost_spec hi⟩,
    fun s a h => ⟨fun hr => congrArg Host.Outcome.next ((doParity_of_other h).trans (if_pos hr)),
      fun hr => congrArg Host.Outcome.next ((doParity_of_other h).trans (if_neg (by rw [hr]; decide)))⟩⟩
  · obtain ⟨hpwr, hspec⟩ := State.restarted_spec (s := s) (x := fun w => { w with tripped := false, dormantAt := none })
    exact ⟨_, congrArg Host.Outcome.next (doThermalRestart_of_tripped h hw), congrArg Pwr.tripped hpwr, hspec⟩
  · obtain ⟨hlost, hflag, hrec, hleaves⟩ := State.refLost_spec (s := s) (r := r) (ppm := ppm)
    have hexec := doRefLoss_of_quiet (r := r) (ppm := ppm) hq
    refine ⟨s.refLost r ppm, hlost, hflag, hrec, hleaves, fun hp => congrArg Host.Outcome.next (hexec.trans (if_pos hp)), fun hp hr => ?_,
      fun hp hr => ?_⟩
    · exact congrArg Host.Outcome.next (hexec.trans ((if_neg hp).trans (if_neg (by rw [hr]; decide))))
    · exact congrArg Host.Outcome.next (hexec.trans ((if_neg hp).trans (if_pos hr)))
  · subst hn
    exact ⟨fun h => ⟨_, congrArg Host.Outcome.next (if_pos h), State.modPwr_pwr, (State.Leaves.refl s _ _).modPwr (by simp)⟩,
      fun h => ⟨_, congrArg Host.Outcome.next (if_neg (Nat.not_lt.2 h)), State.modPwr_pwr, (State.Leaves.refl s _ _).modPwr (by simp)⟩⟩
  · obtain ⟨hflag, hcount⟩ := State.wdogNoted_shows (s := s) core.isLt
    obtain ⟨-, hup⟩ := (State.wdogNoted_leaves (s := s) (core := core)).time (by simp)
    exact ⟨s.wdogNoted core, s.wdogCount core, hflag, hcount, State.wdogCount_eq, hup, State.wdogNoted_leaves.cmd (by simp),
      fun h => congrArg Host.Outcome.next (doWdogExpired_of_byre h), fun h hn => congrArg Host.Outcome.next (doWdogExpired_of_core h hn)⟩

end Sys2Proof.Machine
end

section
/-! PROOFS. A step that waits for the transition to Dormant (O58). -/
namespace Sys2Proof.Machine

/-- A stream with a forced DESTROY pending for frame 1000. -/
def doomedStream : Chan := ⟨kStream, 3, 1, .running, [], [], 0, some 1000, true, 0⟩

/-- The command that destroys it. -/
def pendingDestroy : Deferred := ⟨7, 1000, false, 0, opDestroy, .destroy doomedStream.handle true⟩

/-- A device in Warm about to enter Dormant, where a clock step waits for the end of the transition. -/
def steppingState : State :=
  let s := State.reset.put F.SYS_MODE_STAT_POWER 1
  { s with
    sys := { s.sys with trans := some ⟨0, 0, 0, 0, 0, false, 0, false⟩ }, tim := { s.tim with waiting := some 0 },
    cmd := { s.cmd with chans := [doomedStream], deferred := [pendingDestroy] } }

/-- The step that begins when the transition ends times the pending DESTROY out, and its channel forgets it (R125, R364). -/
theorem doDormantEnter_steppingState_force : (doDormantEnter steppingState).cmd.chans.map Chan.force = [false] := by decide +kernel

/-- Refutes O58: DORMANT_ENTER is said to keep the channel tables, but a clock step that waits for the end of the transition
begins there and times out the deferred commands after it; a channel's pending DESTROY is withdrawn, as in `steppingState`. -/
theorem not_startUpAndWake : ¬ Obligations.StartUpAndWake := by
  rintro ⟨-, -, -, -, -, -, -, hdormant, -⟩
  obtain ⟨t, hexec, -, -, -, -, hchans, -⟩ :=
    hdormant steppingState ⟨0, 0, 0, 0, 0, false, 0, false⟩ rfl rfl rfl (by decide +kernel)
  have ht : t = doDormantEnter steppingState := (Host.Outcome.next.inj hexec).symm
  have hkept : t.cmd.chans = [doomedStream] := hchans
  have hforce := doDormantEnter_steppingState_force
  rw [← ht, hkept] at hforce
  exact absurd hforce (by decide)

end Sys2Proof.Machine
end

section
/-! PROOFS. The registers and stores of an engine, and the SPARE that is asked to stand in (O15, O16). -/
namespace Sys2Proof.Machine

variable {s t : State} {e sp : Nat} {x : Option EngineSec}

/-! ### Registers of one engine (R122) -/

/-- Two registers of one array at the same index differ where their bases do. -/
theorem Field.addr_ne_of_base {f g : Field} {i : Nat} (hs : f.stride = g.stride) (h : f.base ≠ g.base) : f.addr i ≠ g.addr i := by
  simp only [Field.addr, hs]
  omega

theorem State.get_setReg_ne {g : Field} {a j : Nat} {v : Word} (h : a ≠ g.addr j) : (s.setReg a v).get g j = s.get g j := by
  rw [State.get, State.reg_setReg_ne h, State.get]

/-- The registers of the engines lie beyond those of the system block. -/
theorem State.get_setReg_system {f g : Field} {v : Word} {j : Nat} (hf : 0x20000 ≤ f.base) (hg : g.addr j < 0x20000) :
    (s.setReg (f.addr e) v).get g j = s.get g j := by
  refine State.get_setReg_ne ?_
  simp only [Field.addr] at hg ⊢
  omega

/-! ### Sections and stores (R73, R78) -/

theorem State.section_congr (hstr : t.str = s.str) (hskim : t.skim = s.skim) : t.section e = s.section e := by
  rw [State.section, State.section, hstr, hskim]

theorem State.skim_setReg {f : Field} {v : Word} (hf : 0x20000 ≤ f.base) : (s.setReg (f.addr e) v).skim = s.skim := by
  rw [State.skim, State.flag, State.get_setReg_system hf (by decide), State.skim, State.flag]

theorem State.loadStores_sig : (s.loadStores e x).sig = s.sig := by rw [State.loadStores_frame]
theorem State.loadStores_reg {a : Nat} : (s.loadStores e x).reg a = s.reg a := by rw [State.loadStores_frame]; rfl
theorem State.loadStores_tly : (s.loadStores e x).tly = s.tly := by rw [State.loadStores_frame]

/-! ### The SPARE is asked to stand in (R94, R115) -/

section
variable {cause : StandinCause} {delay : Nat}

theorem State.askSpare_of_spare (h : s.spare = some sp) : s.askSpare e cause delay =
    { s.loadStores sp (s.section e) with
      str := { s.str with standin := some ⟨e, cause, s.now + delay * 65536, false, none, false⟩ } } := by
  simp only [State.askSpare, h, State.loadStores_str, State.loadStores_now]

theorem State.askSpare_standin :
    (s.askSpare e cause delay).str.standin = some ⟨e, cause, s.now + delay * 65536, false, none, false⟩ := by
  unfold State.askSpare
  split
  · simp only [State.loadStores_now]
  · rfl

theorem State.askSpare_tly : (s.askSpare e cause delay).tly = s.tly := by
  unfold State.askSpare
  split
  · exact State.loadStores_tly
  · rfl

theorem State.askSpare_now : (s.askSpare e cause delay).now = s.now := by
  unfold State.askSpare
  split
  · exact State.loadStores_now
  · rfl

theorem State.Leaves.askSpare {l : List (Field × Nat)} {p : List Part} (h : s.Leaves l p t) (hstr : .str ∈ p) (heng : .eng ∈ p) :
    s.Leaves l p (t.askSpare e cause delay) := by
  unfold State.askSpare
  split
  · exact (h.loadStores heng).strTo hstr
  · exact h.strTo hstr

end

end Sys2Proof.Machine
end

section
/-! PROOFS. The signature test (O15). -/
namespace Sys2Proof.Machine

variable {s : State} {e sp : Nat} {rest : List Nat} {ref w : Word} {again : SigRepeat}

/-! ### A test is started (R115) -/

theorem State.testRotation_lt (h : s.testRotation = e :: rest) : e < 12 := by
  have hmem : e ∈ s.testRotation := h ▸ List.mem_cons_self
  simp only [State.testRotation, List.mem_append, List.mem_filter, List.contains_iff_mem, List.mem_range] at hmem
  rcases hmem with ⟨-, hall, -⟩ | ⟨⟨hall, -⟩, -⟩ <;> exact hall

/-- Engine `e` has left the rotation for its test, and the SPARE's reference is latched. -/
def State.testTaken (s : State) (e : Nat) (rest : List Nat) (ref : Word) : State :=
  let t := s.setReg (R.CE_SIG_REF.addr e) ref
  { t with sig := { t.sig with testing := some e, rotation := rest, refNow := ref.toNat } }

theorem State.testTaken_str : (s.testTaken e rest ref).str = s.str := rfl

theorem State.testTaken_spare : (s.testTaken e rest ref).spare = s.spare := by
  rw [State.spare, State.testTaken_str, State.spare]

theorem State.testTaken_section : (s.testTaken e rest ref).section e = s.section e :=
  State.section_congr State.testTaken_str (State.sigTo_flag.trans (State.skim_setReg (f := R.CE_SIG_REF) (by decide)))

theorem State.testTaken_inPlace : (s.testTaken e rest ref).testInPlace e = s.testInPlace e := by
  have hpower : (s.testTaken e rest ref).power = s.power :=
    State.sigTo_get.trans (State.get_setReg_system (f := R.CE_SIG_REF) (by decide) (by decide))
  rw [State.testInPlace, hpower, State.testTaken_section, State.testInPlace]

theorem State.testTaken_reference : (s.testTaken e rest ref).reg (R.CE_SIG_REF.addr e) = ref := State.reg_setReg_same

theorem State.testTaken_leaves {l : List (Field × Nat)} {p : List Part} (m : (R.CE_SIG_REF, e) ∈ l) (hp : .sig ∈ p) :
    s.Leaves l p (s.testTaken e rest ref) :=
  ((State.Leaves.refl s l p).setReg (f := R.CE_SIG_REF) (.inl (List.mem_append_left _ m)) rfl rfl rfl).sigTo hp

section
variable (hsp : s.spare = some sp) (hgo : s.sig.stopped = false) (hfree : s.str.standin = none) (hidle : s.sig.testing = none)
include hsp hgo hfree hidle

theorem doSigTestStart_of_sound (hrot : s.testRotation = e :: rest) : doSigTestStart true ref s =
    if s.testInPlace e then ((s.testTaken e rest ref).loadStores sp (s.section e)).put F.CE_STAT_STATE 5 e
    else (s.testTaken e rest ref).askSpare e .signature 0 := by
  rw [← State.testTaken_inPlace (rest := rest) (ref := ref), ← State.testTaken_section (rest := rest) (ref := ref)]
  simp only [doSigTestStart, hsp, hgo, hfree, hidle, hrot, Option.isSome_none, Bool.or_false, Bool.not_true, Bool.false_eq_true,
    if_false]
  rfl

theorem doSigTestStart_of_faulty (hrot : s.testRotation = e :: rest) : doSigTestStart false ref s =
    ((s.raise F.CE_EVT_SIG_FAIL e).tally 0x0201 [e, s.get R.CE_SIG_REF e, 0, 0]).spareFaulty sp := by
  simp only [doSigTestStart, hsp, hgo, hfree, hidle, hrot, Option.isSome_none, Bool.or_false, Bool.not_false, Bool.false_eq_true,
    if_false, if_true]

theorem doSigTestStart_of_faulty_alone (hrot : s.testRotation = []) : doSigTestStart false ref s = s.spareFaulty sp := by
  simp only [doSigTestStart, hsp, hgo, hfree, hidle, hrot, Option.isSome_none, Bool.or_false, Bool.false_eq_true, if_false]

/-- A sound SPARE: the test's engine, its reference and the SPARE's stores, and how the engine is tested. -/
theorem doSigTestStart_spec {t : State} (hrot : s.testRotation = e :: rest) (ht : t = doSigTestStart true ref s) :
    t.sig.testing = some e ∧ t.sig.rotation = rest ∧ t.sig.refNow = ref.toNat ∧
      t.reg (R.CE_SIG_REF.addr e) = ref ∧ t.eng = (s.loadStores sp (s.section e)).eng ∧
      (s.testInPlace e = true → t.get F.CE_STAT_STATE e = 5 ∧ t.str = s.str) ∧
      (s.testInPlace e = false → t.str.standin = some ⟨e, .signature, s.now, false, none, false⟩) ∧
      s.Leaves [(R.CE_SIG_REF, e), (F.CE_STAT_STATE, e)] [.sig, .eng, .str] t := by
  rw [doSigTestStart_of_sound hsp hgo hfree hidle hrot] at ht
  have hleaves : s.Leaves [(R.CE_SIG_REF, e), (F.CE_STAT_STATE, e)] [.sig, .eng, .str] (s.testTaken e rest ref) :=
    State.testTaken_leaves (by simp) (by simp)
  have heng : ((s.testTaken e rest ref).loadStores sp (s.section e)).eng = (s.loadStores sp (s.section e)).eng :=
    State.loadStores_eng_congr rfl
  by_cases hplace : s.testInPlace e = true
  · rw [if_pos hplace] at ht
    have hsig : t.sig = (s.testTaken e rest ref).sig := by rw [ht, State.put_sig, State.loadStores_sig]
    have hstate : F.CE_STAT_STATE.addr e ≠ R.CE_SIG_REF.addr e := Field.addr_ne_of_base rfl (by decide)
    refine ⟨by rw [hsig]; rfl, by rw [hsig]; rfl, by rw [hsig]; rfl, ?_, ?_, fun _ => ⟨?_, ?_⟩,
      fun h => absurd hplace (by simp [h]), ?_⟩
    · rw [ht, State.reg_put_ne hstate, State.loadStores_reg, State.testTaken_reference]
    · rw [ht, State.put_eng, heng]
    · rw [ht, State.get_put_of_lt (by decide) (by decide)]
    · rw [ht, State.put_str, State.loadStores_str]; rfl
    · exact ht ▸ (hleaves.loadStores (by simp)).put (.inl (by simp))
  · have hask := State.askSpare_of_spare (e := e) (cause := .signature) (delay := 0)
      ((State.testTaken_spare (e := e) (rest := rest) (ref := ref)).trans hsp)
    rw [State.testTaken_section] at hask
    rw [if_neg hplace] at ht
    have hsig : t.sig = (s.testTaken e rest ref).sig := by rw [ht, hask]; exact State.loadStores_sig
    refine ⟨by rw [hsig]; rfl, by rw [hsig]; rfl, by rw [hsig]; rfl, ?_, ?_, fun h => absurd h hplace, fun _ => ?_, ?_⟩
    · rw [ht, hask]; exact State.loadStores_reg.trans State.testTaken_reference
    · rw [ht, hask]; exact heng
    · rw [ht, State.askSpare_standin]; rfl
    · exact ht ▸ hleaves.askSpare (by simp) (by simp)

end

/-! ### The SPARE is faulty (R116) -/

theorem State.spareFaulty_state : (s.spareFaulty sp).get F.CE_STAT_STATE sp = 4 := by
  rw [State.spareFaulty, State.sigTo_get, State.get_put_of_lt (by decide) (by decide)]

theorem State.spareFaulty_stops : (s.spareFaulty sp).sig.stopped = true ∧ (s.spareFaulty sp).sig.testing = none := ⟨rfl, rfl⟩

/-- The event bits of an engine are no engine's status. -/
theorem State.spareFaulty_sigFail : (s.spareFaulty sp).flag F.CE_EVT_SIG_FAIL e = s.flag F.CE_EVT_SIG_FAIL e := by
  have hstat : F.CE_STAT_STATE.addr sp = 0x20004 + 0x1000 * sp := rfl
  have hevt : F.CE_EVT_SIG_FAIL.addr e = 0x20008 + 0x1000 * e := rfl
  rw [State.spareFaulty, State.sigTo_flag, State.flag_put_apart (.inl (by omega)) (by decide)]

theorem State.Records.spareFaulty {t : State} {l : List (Nat × List Nat)} (h : s.Records l t) : s.Records l (t.spareFaulty sp) :=
  h.after rfl rfl

/-! ### A test is done (R115, R116) -/

/-- The engine's signature is stored, and it is not the reference: the detection is counted and the event raised. -/
def State.sigFailed (s : State) (e : Nat) (w : Word) : State :=
  ((s.setReg (R.CE_SIG_LAST.addr e) w).detect 4).raise F.CE_EVT_SIG_FAIL e

/-- The repeat of the SPARE's run has stored its reference. -/
def State.sigRepeated (s : State) (e : Nat) (w : Word) (again : SigRepeat) : State :=
  (s.sigFailed e w).setReg (R.CE_SIG_REF.addr e) again.reference

/-- The repeat of the engine's run has stored its signature. -/
def State.sigReread (s : State) (e : Nat) (w : Word) (again : SigRepeat) : State :=
  (s.sigRepeated e w again).setReg (R.CE_SIG_LAST.addr e) again.signature

section
variable (htest : s.sig.testing = some e) (hsp : s.spare = some sp) (hruns : s.testRuns e = true) (hquiet : s.flt.armed = none)
include htest hsp hruns hquiet

theorem doSigTestDone_of_match (h : w.toNat = s.sig.refNow) :
    doSigTestDone w again s = (s.setReg (R.CE_SIG_LAST.addr e) w).sigPass e true := by
  simp only [doSigTestDone, htest, hsp, hruns, State.opportunity_of_quiet hquiet, h, Bool.true_eq_false, Bool.false_eq_true,
    if_false, if_true]

section
variable (h : w.toNat ≠ s.sig.refNow)
include h

theorem doSigTestDone_of_spare_failed (hok : again.spareOk = false) : doSigTestDone w again s =
    (((s.sigFailed e w).tally 0x0201 [e, s.sig.refNow, w.toNat, 0]).sigPass e false).spareFaulty sp := by
  simp only [doSigTestDone, htest, hsp, hruns, State.opportunity_of_quiet hquiet, h, hok, Bool.true_eq_false, Bool.false_eq_true,
    Bool.not_false, if_false, if_true, State.sigFailed]

section
variable (hok : again.spareOk = true)
include hok

theorem doSigTestDone_of_references_differ (href : again.reference.toNat ≠ s.sig.refNow) : doSigTestDone w again s =
    (((s.sigRepeated e w again).tally 0x0201 [e, s.sig.refNow, w.toNat, 1]).sigPass e false).spareFaulty sp := by
  simp only [doSigTestDone, htest, hsp, hruns, State.opportunity_of_quiet hquiet, h, hok, href, Bool.true_eq_false,
    Bool.false_eq_true, Bool.not_true, if_false, if_true, ne_eq, not_false_eq_true, State.sigFailed, State.sigRepeated]

section
variable (href : again.reference.toNat = s.sig.refNow)
include href

theorem doSigTestDone_of_repeat_matches (hsig : again.signature = again.reference) : doSigTestDone w again s =
    ((s.sigReread e w again).tally 0x0201 [e, s.sig.refNow, w.toNat, 3]).sigPass e true := by
  simp only [doSigTestDone, htest, hsp, hruns, State.opportunity_of_quiet hquiet, h, hok, href, hsig, Bool.true_eq_false,
    Bool.false_eq_true, Bool.not_true, if_false, if_true, ne_eq, not_true_eq_false, State.sigFailed, State.sigRepeated,
    State.sigReread]

theorem doSigTestDone_of_repeat_differs (hsig : again.signature ≠ again.reference) {t : State}
    (ht : t = ((s.sigReread e w again).tally 0x0201 [e, s.sig.refNow, w.toNat, 2]).tally 0x0201
      [e, s.sig.refNow, again.signature.toNat, 2]) :
    doSigTestDone w again s = ({ t with sig := { t.sig with testing := none } } : State).engineFault e 3 := by
  simp only [doSigTestDone, htest, hsp, hruns, State.opportunity_of_quiet hquiet, h, hok, href, hsig, Bool.true_eq_false,
    Bool.false_eq_true, Bool.not_true, if_false, ne_eq, not_true_eq_false, ht, State.sigFailed, State.sigRepeated, State.sigReread]

end
end
end
end

/-- Settles O15: a start by the state of the SPARE, a result by the branches of its comparison. -/
theorem signatureTest : Obligations.SignatureTest := by
  refine ⟨fun s ref sp e rest hsp hgo hfree hidle hrot => ⟨_, rfl, doSigTestStart_spec hsp hgo hfree hidle hrot rfl⟩,
    fun s ref sp hsp hgo hfree hidle => ?_, fun s w again sp e hsp htest hruns hquiet => ⟨fun h => ?_, fun h hok => ?_,
      fun h hok href => ?_, fun h hok href hsig => ?_, fun h hok href hsig => ⟨_, rfl, ?_⟩⟩,
    fun s e => ⟨_, rfl, rfl, (State.Leaves.refl s _ _).sigTo (by simp)⟩⟩
  · cases hrot : s.testRotation with
    | nil =>
      exact ⟨_, congrArg Host.Outcome.next (doSigTestStart_of_faulty_alone hsp hgo hfree hidle hrot), State.spareFaulty_stops.1,
        State.spareFaulty_stops.2, State.spareFaulty_state, fun e rest h => absurd h (List.cons_ne_nil e rest).symm⟩
    | cons e rest =>
      have hlow : F.CE_EVT_SIG_FAIL.addr e < 0x170000 := by
        have haddr : F.CE_EVT_SIG_FAIL.addr e = 0x20008 + 0x1000 * e := rfl
        have hlt := State.testRotation_lt hrot
        omega
      refine ⟨_, congrArg Host.Outcome.next (doSigTestStart_of_faulty hsp hgo hfree hidle hrot), State.spareFaulty_stops.1,
        State.spareFaulty_stops.2, State.spareFaulty_state, fun f l h => ?_⟩
      obtain ⟨rfl, -⟩ := List.cons.inj h
      refine ⟨?_, (State.Records.one State.raise_tly).spareFaulty⟩
      rw [State.spareFaulty_sigFail, State.flag_tally_low hlow, State.flag_raise_same (by decide) rfl]
  · exact congrArg Host.Outcome.next (doSigTestDone_of_match htest hsp hruns hquiet h)
  · exact congrArg Host.Outcome.next (doSigTestDone_of_spare_failed htest hsp hruns hquiet h hok)
  · exact congrArg Host.Outcome.next (doSigTestDone_of_references_differ htest hsp hruns hquiet h hok href)
  · exact congrArg Host.Outcome.next (doSigTestDone_of_repeat_matches htest hsp hruns hquiet h hok href hsig)
  · exact congrArg Host.Outcome.next (doSigTestDone_of_repeat_differs htest hsp hruns hquiet h hok href hsig rfl)

end Sys2Proof.Machine
end

section
/-! PROOFS. Engine faults, reloads, retries and quarantine (O16). -/
namespace Sys2Proof.Machine

variable {s t : State} {e : Nat} {d : Standin} {ref sig : Word}

/-! ### Faults (R117, R118) -/

theorem doItemOvertime_of_overdue (h : s.overtime e = true) : doItemOvertime e s = s.engineFault e 2 := by
  rw [doItemOvertime, if_pos h]

theorem doItemOvertime_of_timely (h : s.overtime e = false) : doItemOvertime e s = s := by
  rw [doItemOvertime, h, if_neg Bool.false_ne_true]

theorem doCeFault_of_overtime : doCeFault e 2 s = doItemOvertime e s := by
  rw [doCeFault, if_pos rfl]

theorem doCeFault_of_detector {code : Nat} (h : code = 1 ∨ code = 3 ∨ code = 4 ∨ code = 5) :
    doCeFault e code s = s.engineFault e code := by
  have hother : code ≠ 2 := by omega
  have hrange : 1 ≤ code ∧ code ≤ 5 := by omega
  rw [doCeFault, if_neg hother, if_pos hrange]

/-! ### CE_RELOAD (R118 to R120) -/

/-- The engine is loaded with its section, and its signature is stored. -/
def State.reloaded (s : State) (e : Nat) (sig : Word) : State :=
  (s.loadStores e (s.section e)).setReg (R.CE_SIG_LAST.addr e) sig

/-- A reload that passed: the engine is stood down, and its time of passing is noted. -/
def State.reloadPassed (s : State) (e : Nat) (sig : Word) : State :=
  ((s.reloaded e sig).put F.CE_STAT_STATE 3 e).modEng e (fun x => { x with passed := some s.uptime, reloading := none })

/-- A reload that did not pass: the engine is faulty. -/
def State.reloadFailed (s : State) (e : Nat) (sig : Word) : State :=
  ((s.reloaded e sig).put F.CE_STAT_STATE 4 e).modEng e (fun x => { x with reloading := none })

theorem ceStat_ne_reference : F.CE_STAT_STATE.addr e ≠ R.CE_SIG_REF.addr e := Field.addr_ne_of_base rfl (by decide)
theorem ceStat_ne_signature : F.CE_STAT_STATE.addr e ≠ R.CE_SIG_LAST.addr e := Field.addr_ne_of_base rfl (by decide)
theorem signature_ne_reference : R.CE_SIG_LAST.addr e ≠ R.CE_SIG_REF.addr e := Field.addr_ne_of_base rfl (by decide)

theorem State.reloaded_signature : (s.reloaded e sig).reg (R.CE_SIG_LAST.addr e) = sig := State.reg_setReg_same

theorem State.reloaded_reference : (s.reloaded e sig).reg (R.CE_SIG_REF.addr e) = s.reg (R.CE_SIG_REF.addr e) := by
  rw [State.reloaded, State.reg_setReg_ne signature_ne_reference, State.loadStores_reg]

theorem State.reloaded_str : (s.reloaded e sig).str = s.str := by rw [State.reloaded, State.setReg_str, State.loadStores_str]

theorem State.reloaded_eng : (s.reloaded e sig).eng = (s.loadStores e (s.section e)).eng := State.setReg_eng

theorem State.Leaves.reloaded {l : List (Field × Nat)} {p : List Part} (h : s.Leaves l p t) (m : (R.CE_SIG_LAST, e) ∈ l)
    (hp : .eng ∈ p) : s.Leaves l p (t.reloaded e sig) :=
  (h.loadStores hp).setReg (f := R.CE_SIG_LAST) (.inl (List.mem_append_left _ m)) rfl rfl rfl

theorem State.reloadPassed_shows : (s.reloadPassed e sig).reg (R.CE_SIG_REF.addr e) = s.reg (R.CE_SIG_REF.addr e) ∧
    (s.reloadPassed e sig).reg (R.CE_SIG_LAST.addr e) = sig ∧ (s.reloadPassed e sig).get F.CE_STAT_STATE e = 3 ∧
    (s.reloadPassed e sig).str = s.str ∧ (s.reloadPassed e sig).now = s.now := by
  refine ⟨?_, ?_, ?_, ?_, ?_⟩
  · rw [State.reloadPassed, State.modEng_reg, State.reg_put_ne ceStat_ne_reference, State.reloaded_reference]
  · rw [State.reloadPassed, State.modEng_reg, State.reg_put_ne ceStat_ne_signature, State.reloaded_signature]
  · rw [State.reloadPassed, State.modEng_get, State.get_put_of_lt (by decide) (by decide)]
  · rw [State.reloadPassed, State.modEng_str, State.put_str, State.reloaded_str]
  · rw [State.reloadPassed, State.modEng_now, State.put_now, State.reloaded, State.setReg_now, State.loadStores_now]

theorem State.reloadFailed_shows : (s.reloadFailed e sig).reg (R.CE_SIG_REF.addr e) = s.reg (R.CE_SIG_REF.addr e) ∧
    (s.reloadFailed e sig).reg (R.CE_SIG_LAST.addr e) = sig ∧ (s.reloadFailed e sig).get F.CE_STAT_STATE e = 4 ∧
    (s.reloadFailed e sig).str = s.str := by
  refine ⟨?_, ?_, ?_, ?_⟩
  · rw [State.reloadFailed, State.modEng_reg, State.reg_put_ne ceStat_ne_reference, State.reloaded_reference]
  · rw [State.reloadFailed, State.modEng_reg, State.reg_put_ne ceStat_ne_signature, State.reloaded_signature]
  · rw [State.reloadFailed, State.modEng_get, State.get_put_of_lt (by decide) (by decide)]
  · rw [State.reloadFailed, State.modEng_str, State.put_str, State.reloaded_str]

theorem State.Leaves.reloadPassed {l : List (Field × Nat)} {p : List Part} (h : s.Leaves l p t) (m : (R.CE_SIG_LAST, e) ∈ l)
    (m' : (F.CE_STAT_STATE, e) ∈ l) (hp : .eng ∈ p) : s.Leaves l p (t.reloadPassed e sig) :=
  ((h.reloaded m hp).put (.inl (List.mem_append_left _ m'))).modEng hp

theorem State.Leaves.reloadFailed {l : List (Field × Nat)} {p : List Part} (h : s.Leaves l p t) (m : (R.CE_SIG_LAST, e) ∈ l)
    (m' : (F.CE_STAT_STATE, e) ∈ l) (hp : .eng ∈ p) : s.Leaves l p (t.reloadFailed e sig) :=
  ((h.reloaded m hp).put (.inl (List.mem_append_left _ m'))).modEng hp

/-! #### In place (R120) -/

/-- No stand-in covers the engine, so that none is its quarantine. -/
theorem no_quarantine_of_uncovered {o : Option Standin} (h : o.any (fun d => d.engine == e) = false) :
    o.any (fun d => d.engine == e && decide (d.cause = .quarantine)) = false := by
  cases o with
  | none => rfl
  | some d =>
    rw [Option.any_some] at h
    rw [Option.any_some, h, Bool.false_and]

section
variable (hask : (s.engAt e).reloading.isSome = true) (halone : s.str.standin.any (fun d => d.engine == e) = false)
include hask halone

theorem doCeReload_in_place_failed (h : sig ≠ s.reg (R.CE_SIG_REF.addr e)) : doCeReload e ref sig s = s.reloadFailed e sig := by
  have h' : sig ≠ (s.reloaded e sig).reg (R.CE_SIG_REF.addr e) := by rwa [State.reloaded_reference]
  rw [doCeReload]
  simp only [hask, halone, Bool.not_true, Bool.false_and, Bool.false_eq_true, if_false]
  exact if_neg h'

theorem doCeReload_in_place_passed (h : sig = s.reg (R.CE_SIG_REF.addr e)) : doCeReload e ref sig s =
    (s.reloadPassed e sig).modEng e (fun x => { x with rejoinAt := some (s.now + 200000 * 65536) }) := by
  have h' : sig = (s.reloaded e sig).reg (R.CE_SIG_REF.addr e) := by rwa [State.reloaded_reference]
  rw [doCeReload]
  simp only [hask, halone, no_quarantine_of_uncovered halone, Bool.not_true, Bool.false_and, Bool.false_eq_true, if_false]
  exact if_pos h'

theorem doCeReload_in_place_spec (ht : t = doCeReload e ref sig s) :
    t.reg (R.CE_SIG_LAST.addr e) = sig ∧ t.get F.CE_STAT_STATE e = (if sig = s.reg (R.CE_SIG_REF.addr e) then 3 else 4) ∧
      t.eng = (s.loadStores e (s.section e)).eng.modify e (fun x =>
        if sig = s.reg (R.CE_SIG_REF.addr e) then
          { x with passed := some s.uptime, reloading := none, rejoinAt := some (s.now + 200000 * 65536) }
        else { x with reloading := none }) ∧
      s.Leaves [(R.CE_SIG_LAST, e), (F.CE_STAT_STATE, e)] [.eng] t := by
  by_cases h : sig = s.reg (R.CE_SIG_REF.addr e)
  · rw [doCeReload_in_place_passed hask halone h] at ht
    obtain ⟨-, hlast, hstate, -, -⟩ := State.reloadPassed_shows (s := s) (e := e) (sig := sig)
    subst ht
    simp only [if_pos h]
    refine ⟨State.modEng_reg.trans hlast, State.modEng_get.trans hstate, ?_,
      ((State.Leaves.refl s _ _).reloadPassed (by simp) (by simp) (by simp)).modEng (by simp)⟩
    rw [State.modEng_eng, State.reloadPassed, State.modEng_eng, State.put_eng, State.reloaded_eng, List.modify_modify_eq]
    rfl
  · rw [doCeReload_in_place_failed hask halone h] at ht
    obtain ⟨-, hlast, hstate, -⟩ := State.reloadFailed_shows (s := s) (e := e) (sig := sig)
    subst ht
    simp only [if_neg h]
    refine ⟨hlast, hstate, ?_, (State.Leaves.refl s _ _).reloadFailed (by simp) (by simp) (by simp)⟩
    rw [State.reloadFailed, State.modEng_eng, State.put_eng, State.reloaded_eng]

end

/-! #### Under a stand-in (R118, R119) -/

section
variable {passed : Bool}

theorem State.takeBack_frame (s : State) (e : Nat) (passed : Bool) : ∃ x, s.takeBack e passed = { s with str := x } := by
  unfold State.takeBack
  split
  · split
    · exact ⟨_, rfl⟩
    · exact ⟨s.str, rfl⟩
  · exact ⟨s.str, rfl⟩

theorem State.takeBack_reg {a : Nat} : (s.takeBack e passed).reg a = s.reg a := by
  obtain ⟨x, hx⟩ := State.takeBack_frame s e passed
  rw [hx, State.strTo_reg]

theorem State.takeBack_get {f : Field} {i : Nat} : (s.takeBack e passed).get f i = s.get f i := by
  rw [State.get, State.takeBack_reg, State.get]

theorem State.Leaves.takeBack {l : List (Field × Nat)} {p : List Part} (h : s.Leaves l p t) (m : .str ∈ p) :
    s.Leaves l p (t.takeBack e passed) := by
  obtain ⟨x, hx⟩ := State.takeBack_frame t e passed
  rw [hx]
  exact h.strTo m

end

section
variable (hd : s.str.standin = some d) (he : d.engine = e)
  (hgo : (s.engAt e).reloading.isSome = true ∨ s.get F.CE_STAT_STATE e = 1)
include hd he hgo

/-- The SPARE's reference is latched, and the engine's signature is compared with it. -/
theorem doCeReload_covered : doCeReload e ref sig s =
    if sig = ref then
      if d.cause = .quarantine then (s.setReg (R.CE_SIG_REF.addr e) ref).reloadPassed e sig
      else ((s.setReg (R.CE_SIG_REF.addr e) ref).reloadPassed e sig).takeBack e true
    else (s.setReg (R.CE_SIG_REF.addr e) ref).reloadFailed e sig := by
  have hcovered : s.str.standin.any (fun d => d.engine == e) = true := by simp [hd, he]
  have hquarantined : (s.str.standin.any (fun d => d.engine == e && decide (d.cause = .quarantine))) =
      decide (d.cause = .quarantine) := by
    simp [hd, he]
  have hstart : (!(s.engAt e).reloading.isSome && (!true || s.get F.CE_STAT_STATE e != 1)) = false := by
    rcases hgo with h | h <;> simp [h]
  have href : ((s.setReg (R.CE_SIG_REF.addr e) ref).reloaded e sig).reg (R.CE_SIG_REF.addr e) = ref := by
    rw [State.reloaded_reference, State.reg_setReg_same]
  simp only [State.reloaded] at href
  simp only [doCeReload, hcovered, hquarantined, hstart, href, decide_eq_true_eq, Bool.false_eq_true, if_false, if_true]
  rfl

theorem doCeReload_covered_spec (ht : t = doCeReload e ref sig s) :
    t.reg (R.CE_SIG_REF.addr e) = ref ∧ t.reg (R.CE_SIG_LAST.addr e) = sig ∧
      t.get F.CE_STAT_STATE e = (if sig = ref then 3 else 4) ∧
      t.str.standin = some (if sig = ref ∧ d.cause ≠ .quarantine
        then { d with readyAt := some (s.now + 200000 * 65536), passed := true } else d) ∧
      s.Leaves [(R.CE_SIG_REF, e), (R.CE_SIG_LAST, e), (F.CE_STAT_STATE, e)] [.eng, .str] t := by
  have hheld : s.Leaves [(R.CE_SIG_REF, e), (R.CE_SIG_LAST, e), (F.CE_STAT_STATE, e)] [.eng, .str]
      (s.setReg (R.CE_SIG_REF.addr e) ref) := (State.Leaves.refl s _ _).setReg (f := R.CE_SIG_REF) (.inl (by simp)) rfl rfl rfl
  have href : (s.setReg (R.CE_SIG_REF.addr e) ref).reg (R.CE_SIG_REF.addr e) = ref := State.reg_setReg_same
  have hstandin : (s.setReg (R.CE_SIG_REF.addr e) ref).str.standin = some d := by rw [State.setReg_str, hd]
  rw [doCeReload_covered hd he hgo] at ht
  by_cases h : sig = ref
  · obtain ⟨hkept, hlast, hstate, hstr, hnow⟩ :=
      State.reloadPassed_shows (s := s.setReg (R.CE_SIG_REF.addr e) ref) (e := e) (sig := sig)
    have hpassed := hheld.reloadPassed (e := e) (sig := sig) (by simp) (by simp) (by simp)
    rw [if_pos h] at ht
    by_cases hc : d.cause = .quarantine
    · rw [if_pos hc] at ht
      rw [ht, if_pos h, if_neg (fun hp => hp.2 hc), hstr]
      exact ⟨hkept.trans href, hlast, hstate, hstandin, hpassed⟩
    · rw [if_neg hc] at ht
      rw [ht, if_pos h, if_pos ⟨h, hc⟩]
      refine ⟨State.takeBack_reg.trans (hkept.trans href), State.takeBack_reg.trans hlast, State.takeBack_get.trans hstate, ?_,
        hpassed.takeBack (by simp)⟩
      rw [← he, State.takeBack_of_standin (he ▸ (congrArg Str.standin hstr).trans hstandin), he, hnow, State.setReg_now]
  · obtain ⟨hkept, hlast, hstate, hstr⟩ :=
      State.reloadFailed_shows (s := s.setReg (R.CE_SIG_REF.addr e) ref) (e := e) (sig := sig)
    rw [if_neg h] at ht
    rw [ht, if_neg h, if_neg (fun hp => h hp.1), hstr]
    exact ⟨hkept.trans href, hlast, hstate, hstandin, hheld.reloadFailed (by simp) (by simp) (by simp)⟩

end

/-! ### CE_RETRY (R119) -/

/-- The registers of the twelve engines lie below those of the Tally. -/
theorem engine_addr_low {f : Field} (hf : f.base < 0x21000) (hs : f.stride = 0x1000) (he : e < 12) : f.addr e < 0x170000 := by
  simp only [Field.addr, hs]
  omega

theorem doCeRetry_of_faulty (h : s.get F.CE_STAT_STATE e = 4) : doCeRetry e s = s.reloadInPlace e 3 := by
  rw [doCeRetry, if_pos h]

theorem doCeRetry_of_other (h : s.get F.CE_STAT_STATE e ≠ 4) : doCeRetry e s = s := by
  rw [doCeRetry, if_neg h]

theorem State.reloadInPlace_shows {cause : Nat} (he : e < 12) :
    (s.reloadInPlace e cause).get F.CE_STAT_STATE e = 1 ∧
      (s.reloadInPlace e cause).eng = s.eng.modify e (fun x => { x with reloading := some cause, out := true }) ∧
      s.Records [(0x0204, [e, cause])] (s.reloadInPlace e cause) ∧
      s.Leaves [(F.CE_STAT_STATE, e)] [.eng] (s.reloadInPlace e cause) := by
  refine ⟨?_, ?_, State.Records.one ?_, (((State.Leaves.refl s _ _).modEng (by simp)).put (.inl (by simp))).tally⟩
  · rw [State.reloadInPlace, State.get_tally_low (engine_addr_low (by decide) rfl he), State.get_put_of_lt (by decide) (by decide)]
  · rw [State.reloadInPlace, State.tally_eng, State.put_eng, State.modEng_eng]
  · rw [State.put_tly, State.modEng_tly]

/-! ### A quarantine is refused (R121) -/

theorem quarReject_clear : F.CE_EVT_QUAR_REJECT.clear e F.CE_CTL_QUARANTINE e = true :=
  Field.clear_of_base (by decide) rfl (by decide)

theorem quarantine_clear : F.CE_CTL_QUARANTINE.clear e F.CE_STAT_STATE e = true := Field.clear_of_base (by decide) rfl (by decide)

/-- The status of any engine is no engine's control register. -/
theorem ceStat_apart_quarantine {f : Nat} : F.CE_STAT_STATE.apart f F.CE_CTL_QUARANTINE e := by
  have hstat : F.CE_STAT_STATE.addr f = 0x20004 + 0x1000 * f := rfl
  have hctl : F.CE_CTL_QUARANTINE.addr e = 0x20000 + 0x1000 * e := rfl
  exact .inl (by omega)

/-- The record of a write of QUARANTINE: the engine, the frame from which the stand-in would begin, and the cause against it. -/
def State.quarantineRecord (s : State) (e : Nat) : Nat × List Nat :=
  (0x0202, [e, s.firstSFrom (s.now + 5000000 * 65536), quarantineCause e s])

/-- The bit is clear again, and the refusal is shown and recorded. -/
def State.quarantineRefused (s : State) (e : Nat) : State :=
  ((s.putFlag F.CE_CTL_QUARANTINE false e).raise F.CE_EVT_QUAR_REJECT e).tally (s.quarantineRecord e).1 (s.quarantineRecord e).2

theorem doCeQuarantine_of_cause (h : quarantineCause e s ≠ 0) : doCeQuarantine e true s = s.quarantineRefused e := by
  rw [doCeQuarantine, if_pos rfl]
  exact if_pos h

theorem State.quarantineRefused_shows (he : e < 12) :
    (s.quarantineRefused e).flag F.CE_CTL_QUARANTINE e = false ∧ (s.quarantineRefused e).flag F.CE_EVT_QUAR_REJECT e = true ∧
      s.Records [s.quarantineRecord e] (s.quarantineRefused e) ∧
      s.Leaves [(F.CE_CTL_QUARANTINE, e), (F.CE_EVT_QUAR_REJECT, e)] [] (s.quarantineRefused e) := by
  refine ⟨?_, ?_, State.Records.one ?_, (((State.Leaves.refl s _ _).putFlag (.inl (by simp))).raise (.inl (by simp))).tally⟩
  · rw [State.quarantineRefused, State.flag_tally_low (engine_addr_low (by decide) rfl he),
      State.flag_raise_clear quarReject_clear, State.flag_putFlag_same (by decide) rfl]
  · rw [State.quarantineRefused, State.flag_tally_low (engine_addr_low (by decide) rfl he), State.flag_raise_same (by decide) rfl]
  · rw [State.raise_tly, State.putFlag_tly]

/-! ### A quarantine is accepted (R121) -/

/-- The bit stands, and the acceptance is recorded. -/
def State.quarantineNoted (s : State) (e : Nat) : State :=
  (s.putFlag F.CE_CTL_QUARANTINE true e).tally 0x0202 [e, s.firstSFrom (s.now + 5000000 * 65536), 0]

section
variable {l : List (Field × Nat)} {p : List Part}

theorem State.quarantineNoted_str : (s.quarantineNoted e).str = s.str := State.tally_str.trans State.putFlag_str
theorem State.quarantineNoted_sig : (s.quarantineNoted e).sig = s.sig := State.tally_sig.trans State.putFlag_sig
theorem State.quarantineNoted_now : (s.quarantineNoted e).now = s.now := State.tally_now.trans State.putFlag_now

theorem State.quarantineNoted_flag (he : e < 12) : (s.quarantineNoted e).flag F.CE_CTL_QUARANTINE e = true := by
  rw [State.quarantineNoted, State.flag_tally_low (engine_addr_low (by decide) rfl he), State.flag_putFlag_same (by decide) rfl]

theorem State.quarantineNoted_state (he : e < 12) : (s.quarantineNoted e).get F.CE_STAT_STATE e = s.get F.CE_STAT_STATE e := by
  rw [State.quarantineNoted, State.get_tally_low (engine_addr_low (by decide) rfl he),
    State.get_putFlag_clear quarantine_clear]

theorem State.quarantineNoted_records :
    s.Records [(0x0202, [e, s.firstSFrom (s.now + 5000000 * 65536), 0])] (s.quarantineNoted e) := State.Records.one State.putFlag_tly

theorem State.Leaves.quarantineNoted (h : s.Leaves l p t) (m : (F.CE_CTL_QUARANTINE, e) ∈ l) : s.Leaves l p (t.quarantineNoted e) :=
  (h.putFlag (.inl (List.mem_append_left _ m))).tally

/-! #### The SPARE is asked to stand in (R121) -/

/-- An engine that goes on in service writes its status. -/
theorem State.runEngine_proj {β : Type} {g : State → β} (hput : ∀ (t : State) f n i, g (t.put f n i) = g t) :
    g (s.runEngine e) = g s := by
  unfold State.runEngine
  dsimp only
  split
  · rw [hput, hput]
  · rw [hput]

theorem State.Leaves.runEngine (h : s.Leaves l p t) (m : (F.CE_STAT_STATE, e) ∈ l) : s.Leaves l p (t.runEngine e) :=
  have hrun := h.put (.inl (List.mem_append_left _ m))
  State.Leaves.ite _ (hrun.put (.inl (List.mem_append_left _ m))) hrun

section
variable (hfree : s.str.standin = none)
include hfree

theorem State.endTesting_of_idle (h : s.sig.testing = none) : s.endTesting = s := by
  simp only [State.endTesting, hfree, h]

theorem State.endTesting_in_place {f : Nat} (h : s.sig.testing = some f) :
    s.endTesting = ({ s with sig := { s.sig with testing := none } } : State).runEngine f := by
  simp only [State.endTesting, hfree, h]

/-- The end of a test in place changes the test and its engine's status, and nothing else. -/
theorem State.endTesting_proj {β : Type} {g : State → β} (hput : ∀ (t : State) f n i, g (t.put f n i) = g t)
    (hsig : ∀ (t : State) x, g { t with sig := x } = g t) : g s.endTesting = g s := by
  cases h : s.sig.testing with
  | none => rw [State.endTesting_of_idle hfree h]
  | some f => rw [State.endTesting_in_place hfree h, State.runEngine_proj hput, hsig]

end

theorem State.Leaves.endTesting_of_free (h : s.Leaves l p t) (hfree : t.str.standin = none)
    (m : ∀ f, t.sig.testing = some f → (F.CE_STAT_STATE, f) ∈ l) (hp : .sig ∈ p) : s.Leaves l p t.endTesting := by
  cases htest : t.sig.testing with
  | none =>
    rw [State.endTesting_of_idle hfree htest]
    exact h
  | some f =>
    rw [State.endTesting_in_place hfree htest]
    exact (h.sigTo hp).runEngine (m f htest)

end

/-- The acceptance is noted, a test in place ends, and the SPARE is asked to stand in 5 ms later. -/
def State.quarantineAsked (s : State) (e : Nat) : State := (s.quarantineNoted e).endTesting.askSpare e .quarantine 5000000

section
variable (hfree : s.str.standin = none)
include hfree

theorem doCeQuarantine_of_free (h : quarantineCause e s = 0) : doCeQuarantine e true s = s.quarantineAsked e := by
  have hnone : (s.quarantineNoted e).str.standin = none := by rw [State.quarantineNoted_str, hfree]
  rw [State.quarantineNoted] at hnone
  simp only [doCeQuarantine, h, hnone, ne_eq, not_true_eq_false, if_false, if_true]
  rfl

theorem State.quarantineNoted_free : (s.quarantineNoted e).str.standin = none := by rw [State.quarantineNoted_str, hfree]

/-- The end of a test and the request to the SPARE, after the acceptance is noted. -/
theorem State.Leaves.quarantineAsked {r : State} {l : List (Field × Nat)} {p : List Part} (h : r.Leaves l p (s.quarantineNoted e))
    (m : ∀ f, s.sig.testing = some f → (F.CE_STAT_STATE, f) ∈ l) (hstr : .str ∈ p) (hsig : .sig ∈ p) (heng : .eng ∈ p) :
    r.Leaves l p (s.quarantineAsked e) :=
  (h.endTesting_of_free (State.quarantineNoted_free hfree) (fun f hf => m f (State.quarantineNoted_sig ▸ hf)) hsig).askSpare
    hstr heng

theorem State.quarantineAsked_flag (he : e < 12) : (s.quarantineAsked e).flag F.CE_CTL_QUARANTINE e = true := by
  have hleaves : (s.quarantineNoted e).Leaves (s.sig.testing.toList.map (fun x => (F.CE_STAT_STATE, x))) [.str, .sig, .eng]
      (s.quarantineAsked e) :=
    (State.Leaves.refl _ _ _).quarantineAsked hfree (fun f hf => by simp [hf]) (by simp) (by simp) (by simp)
  have hapart : ∀ q ∈ s.sig.testing.toList.map (fun x => (F.CE_STAT_STATE, x)) ++ lostFields,
      q.1.apart q.2 F.CE_CTL_QUARANTINE e := by
    intro q hq
    rcases List.mem_append.1 hq with hq | hq
    · obtain ⟨f, -, rfl⟩ := List.mem_map.1 hq
      exact ceStat_apart_quarantine
    · have hlost := lost_apart_low (f := F.CE_CTL_QUARANTINE) (i := e) (engine_addr_low (by decide) rfl he)
      rcases List.mem_cons.1 hq with rfl | hq
      · exact hlost.1
      · rw [List.mem_singleton.1 hq]
        exact hlost.2
  rw [State.flag, hleaves.get_apart (by simp) hapart, ← State.flag, State.quarantineNoted_flag he]

theorem State.quarantineAsked_standin : (s.quarantineAsked e).str.standin =
    some ⟨e, .quarantine, s.now + 5000000 * 65536, false, none, false⟩ := by
  have hnow : (s.quarantineNoted e).endTesting.now = s.now :=
    (State.endTesting_proj (g := State.now) (State.quarantineNoted_free hfree) (fun _ _ _ _ => State.put_now) (fun _ _ => rfl)).trans
      State.quarantineNoted_now
  rw [State.quarantineAsked, State.askSpare_standin, hnow]

theorem State.quarantineAsked_records :
    s.Records [(0x0202, [e, s.firstSFrom (s.now + 5000000 * 65536), 0])] (s.quarantineAsked e) := by
  have hidle := State.quarantineNoted_free (e := e) hfree
  refine State.quarantineNoted_records.after (State.askSpare_tly.trans ?_) (State.askSpare_now.trans ?_)
  · exact State.endTesting_proj (g := State.tly) hidle (fun _ _ _ _ => State.put_tly) (fun _ _ => rfl)
  · exact State.endTesting_proj (g := State.now) hidle (fun _ _ _ _ => State.put_now) (fun _ _ => rfl)

end

/-! #### The engine is stood in for already (R121) -/

/-- The acceptance is noted, the stand-in goes on as the engine's quarantine, and no test runs. -/
def State.quarantineContinued (s : State) (e : Nat) (d : Standin) : State :=
  let t := s.quarantineNoted e
  let continued : Standin := { d with cause := .quarantine, readyAt := none, passed := false }
  let u : State := { t with str := { t.str with standin := some continued } }
  { u with sig := { u.sig with testing := none } }

theorem State.quarantineContinued_get {f : Field} {i : Nat} :
    (s.quarantineContinued e d).get f i = (s.quarantineNoted e).get f i := rfl

theorem State.quarantineContinued_flag {f : Field} {i : Nat} :
    (s.quarantineContinued e d).flag f i = (s.quarantineNoted e).flag f i := rfl

theorem State.Leaves.quarantineContinued {l : List (Field × Nat)} {p : List Part} (h : s.Leaves l p t)
    (m : (F.CE_CTL_QUARANTINE, e) ∈ l) (hstr : .str ∈ p) (hsig : .sig ∈ p) : s.Leaves l p (t.quarantineContinued e d) :=
  ((h.quarantineNoted m).strTo hstr).sigTo hsig

theorem doCeQuarantine_of_active (h : quarantineCause e s = 0) (hd : s.str.standin = some d) (he : d.engine = e)
    (hactive : d.active = true) :
    doCeQuarantine e true s = if (s.quarantineContinued e d).get F.CE_STAT_STATE e = 5
      then (s.quarantineContinued e d).put F.CE_STAT_STATE 3 e else s.quarantineContinued e d := by
  have hsome : (s.quarantineNoted e).str.standin = some d := by rw [State.quarantineNoted_str, hd]
  rw [State.quarantineNoted] at hsome
  simp only [doCeQuarantine, h, hsome, if_pos (And.intro he hactive), ne_eq, not_true_eq_false, if_false, if_true]
  rfl

/-- What a quarantine that goes on shows; an engine under test is stood down. -/
theorem doCeQuarantine_of_active_spec (h : quarantineCause e s = 0) (hd : s.str.standin = some d) (he : d.engine = e)
    (hactive : d.active = true) (hlt : e < 12) (ht : t = doCeQuarantine e true s) :
    t.flag F.CE_CTL_QUARANTINE e = true ∧
      t.str.standin = some { d with cause := .quarantine, readyAt := none, passed := false } ∧ t.sig.testing = none ∧
      t.get F.CE_STAT_STATE e = (if s.get F.CE_STAT_STATE e = 5 then 3 else s.get F.CE_STAT_STATE e) ∧
      s.Leaves [(F.CE_CTL_QUARANTINE, e), (F.CE_STAT_STATE, e)] [.str, .sig] t := by
  have hkept : (s.quarantineContinued e d).get F.CE_STAT_STATE e = s.get F.CE_STAT_STATE e :=
    State.quarantineContinued_get.trans (State.quarantineNoted_state hlt)
  have hflag : (s.quarantineContinued e d).flag F.CE_CTL_QUARANTINE e = true :=
    State.quarantineContinued_flag.trans (State.quarantineNoted_flag hlt)
  have hleaves : s.Leaves [(F.CE_CTL_QUARANTINE, e), (F.CE_STAT_STATE, e)] [.str, .sig] (s.quarantineContinued e d) :=
    (State.Leaves.refl s _ _).quarantineContinued (by simp) (by simp) (by simp)
  rw [doCeQuarantine_of_active h hd he hactive, hkept] at ht
  by_cases htested : s.get F.CE_STAT_STATE e = 5
  · rw [if_pos htested] at ht
    rw [ht, if_pos htested]
    refine ⟨?_, ?_, ?_, State.get_put_of_lt (by decide) (by decide), hleaves.put (.inl (by simp))⟩
    · rw [State.flag_put_apart ceStat_apart_quarantine (by decide), hflag]
    · rw [State.put_str, State.quarantineContinued]
    · rw [State.put_sig, State.quarantineContinued]
  · rw [if_neg htested] at ht
    rw [ht, if_neg htested]
    exact ⟨hflag, rfl, rfl, hkept, hleaves⟩

/-! ### A quarantine is released (R121) -/

/-- The bit is clear. -/
def State.quarantineCleared (s : State) (e : Nat) : State := s.putFlag F.CE_CTL_QUARANTINE false e

theorem State.quarantineCleared_flag : (s.quarantineCleared e).flag F.CE_CTL_QUARANTINE e = false :=
  State.flag_putFlag_same (by decide) rfl

theorem State.quarantineCleared_state : (s.quarantineCleared e).get F.CE_STAT_STATE e = s.get F.CE_STAT_STATE e :=
  State.get_putFlag_clear quarantine_clear

theorem State.quarantineCleared_reference : (s.quarantineCleared e).get R.CE_SIG_REF e = s.get R.CE_SIG_REF e :=
  State.get_putFlag_clear (Field.clear_of_base (by decide) rfl (by decide))

theorem State.quarantineCleared_str : (s.quarantineCleared e).str = s.str := State.putFlag_str

theorem State.quarantineCleared_leaves {l : List (Field × Nat)} {p : List Part} (m : (F.CE_CTL_QUARANTINE, e) ∈ l) :
    s.Leaves l p (s.quarantineCleared e) := (State.Leaves.refl s l p).putFlag (.inl (List.mem_append_left _ m))

/-- The bit is clear, and the stand-in is another or none. -/
def State.quarantineEnded (s : State) (e : Nat) (o : Option Standin) : State :=
  { s.quarantineCleared e with str := { s.str with standin := o } }

theorem State.quarantineEnded_spec {o : Option Standin} : (s.quarantineEnded e o).flag F.CE_CTL_QUARANTINE e = false ∧
    (s.quarantineEnded e o).str.standin = o ∧ (s.quarantineEnded e o).sig = s.sig ∧
    s.Leaves [(F.CE_CTL_QUARANTINE, e), (F.CE_STAT_STATE, e)] [.str, .sig] (s.quarantineEnded e o) := by
  refine ⟨?_, ?_, ?_, (State.quarantineCleared_leaves (by simp)).strTo (by simp)⟩
  · rw [State.quarantineEnded, State.strTo_flag, State.quarantineCleared_flag]
  · rw [State.quarantineEnded]
  · rw [State.quarantineEnded, State.quarantineCleared, State.putFlag_sig]

theorem doCeQuarantine_off_of_other (h : ∀ d, s.str.standin = some d → d.engine ≠ e ∨ d.cause ≠ .quarantine) :
    doCeQuarantine e false s = s.quarantineCleared e := by
  cases hd : s.str.standin with
  | none =>
    simp only [doCeQuarantine, State.putFlag_str, hd, Bool.false_eq_true, if_false]
    rfl
  | some d =>
    have hother : ¬ (d.engine = e ∧ d.cause = .quarantine) := by
      rcases h d hd with h | h <;> simp [h]
    simp only [doCeQuarantine, State.putFlag_str, hd, hother, Bool.false_eq_true, if_false]
    rfl

/-- The engine is under test, with the reference that the engine holds. -/
def State.quarantineTesting (s : State) (e : Nat) : State :=
  let t := s.quarantineCleared e
  { t with sig := { t.sig with testing := some e, refNow := t.get R.CE_SIG_REF e } }

theorem State.quarantineTesting_flag : (s.quarantineTesting e).flag F.CE_CTL_QUARANTINE e = false := by
  rw [State.quarantineTesting, State.sigTo_flag, State.quarantineCleared_flag]

theorem State.quarantineTesting_str : (s.quarantineTesting e).str = s.str := by
  rw [State.quarantineTesting, State.quarantineCleared_str]

theorem State.quarantineTesting_sig : (s.quarantineTesting e).sig.testing = some e ∧
    (s.quarantineTesting e).sig.refNow = s.get R.CE_SIG_REF e := ⟨rfl, State.quarantineCleared_reference⟩

/-- The test that ends a quarantine begins. -/
def State.quarantineTested (s : State) (e : Nat) : State :=
  (s.quarantineTesting e).showTesting e

section
variable (hd : s.str.standin = some d) (he : d.engine = e) (hc : d.cause = .quarantine)
include hd he hc

theorem doCeQuarantine_off_unbegun (hactive : d.active = false) : doCeQuarantine e false s =
    s.quarantineEnded e none := by
  simp only [doCeQuarantine, State.putFlag_str, hd, if_pos (And.intro he hc), hactive, Bool.false_eq_true, if_false, if_true]
  rfl

section
variable (hactive : d.active = true)
include hactive

theorem doCeQuarantine_off_faulted (h : s.get F.CE_STAT_STATE e = 1 ∨ s.get F.CE_STAT_STATE e = 4) : doCeQuarantine e false s =
    s.quarantineEnded e (some { d with cause := .fault }) := by
  rw [← State.quarantineCleared_state, State.quarantineCleared] at h
  have hrunning : ¬ d.active = false := by simp [hactive]
  simp only [doCeQuarantine, State.putFlag_str, hd, if_pos (And.intro he hc), if_neg hrunning, if_pos h, Bool.false_eq_true,
    if_false]
  rfl

theorem doCeQuarantine_off_tested (h : ¬ (s.get F.CE_STAT_STATE e = 1 ∨ s.get F.CE_STAT_STATE e = 4)) :
    doCeQuarantine e false s = s.quarantineTested e := by
  rw [← State.quarantineCleared_state, State.quarantineCleared] at h
  have hrunning : ¬ d.active = false := by simp [hactive]
  simp only [doCeQuarantine, State.putFlag_str, hd, if_pos (And.intro he hc), if_neg hrunning, if_neg h, Bool.false_eq_true,
    if_false]
  rfl

end
end

/-- An engine that begins its test may show it in its status. -/
theorem State.showTesting_proj {β : Type} {g : State → β} (hput : ∀ (n : Nat), g (s.put F.CE_STAT_STATE n e) = g s) :
    g (s.showTesting e) = g s := by
  unfold State.showTesting
  split
  · exact hput 5
  · rfl

theorem State.Leaves.showTesting {l : List (Field × Nat)} {p : List Part} (h : s.Leaves l p t) (m : (F.CE_STAT_STATE, e) ∈ l) :
    s.Leaves l p (t.showTesting e) := State.Leaves.ite _ (h.put (.inl (List.mem_append_left _ m))) h

theorem State.quarantineTested_spec : (s.quarantineTested e).flag F.CE_CTL_QUARANTINE e = false ∧
    (s.quarantineTested e).str = s.str ∧
    ((s.quarantineTested e).sig.testing = some e ∧ (s.quarantineTested e).sig.refNow = s.get R.CE_SIG_REF e) ∧
    s.Leaves [(F.CE_CTL_QUARANTINE, e), (F.CE_STAT_STATE, e)] [.str, .sig] (s.quarantineTested e) := by
  refine ⟨?_, ?_, ?_, ((State.quarantineCleared_leaves (by simp)).sigTo (by simp)).showTesting (by simp)⟩
  · rw [State.quarantineTested, State.showTesting_proj (g := fun t => t.flag F.CE_CTL_QUARANTINE e)
      fun _ => State.flag_put_apart ceStat_apart_quarantine (by decide), State.quarantineTesting_flag]
  · rw [State.quarantineTested, State.showTesting_proj (g := State.str) fun _ => State.put_str, State.quarantineTesting_str]
  · rw [State.quarantineTested, State.showTesting_proj (g := State.sig) fun _ => State.put_sig]
    exact State.quarantineTesting_sig

section
variable (hd : s.str.standin = some d) (he : d.engine = e) (hc : d.cause = .quarantine)
include hd he hc

/-- What the release of a quarantine shows: by whether its stand-in has begun, and by whether its engine is faulty. -/
theorem doCeQuarantine_off_spec {faulted : Prop} (hf : faulted ↔ s.get F.CE_STAT_STATE e = 1 ∨ s.get F.CE_STAT_STATE e = 4)
    (ht : t = doCeQuarantine e false s) :
    t.flag F.CE_CTL_QUARANTINE e = false ∧ (d.active = false → t.str.standin = none ∧ t.sig = s.sig) ∧
      (d.active = true → faulted → t.str.standin = some { d with cause := .fault } ∧ t.sig = s.sig) ∧
      (d.active = true → ¬ faulted → t.str.standin = some d ∧ t.sig.testing = some e ∧ t.sig.refNow = s.get R.CE_SIG_REF e) ∧
      s.Leaves [(F.CE_CTL_QUARANTINE, e), (F.CE_STAT_STATE, e)] [.str, .sig] t := by
  cases hactive : d.active with
  | false =>
    obtain ⟨hflag, hstandin, hsig, hleaves⟩ := State.quarantineEnded_spec (s := s) (e := e) (o := none)
    rw [ht, doCeQuarantine_off_unbegun hd he hc hactive]
    exact ⟨hflag, fun _ => ⟨hstandin, hsig⟩, fun h => absurd h Bool.false_ne_true, fun h => absurd h Bool.false_ne_true, hleaves⟩
  | true =>
    by_cases hfault : faulted
    · obtain ⟨hflag, hstandin, hsig, hleaves⟩ :=
        State.quarantineEnded_spec (s := s) (e := e) (o := some { d with cause := .fault })
      rw [ht, doCeQuarantine_off_faulted hd he hc hactive (hf.1 hfault)]
      exact ⟨hflag, fun h => absurd h.symm Bool.false_ne_true, fun _ _ => ⟨hstandin.trans (by rw [hactive]), hsig⟩,
        fun _ h => absurd hfault h, hleaves⟩
    · obtain ⟨hflag, hstr, hsig, hleaves⟩ := State.quarantineTested_spec (s := s) (e := e)
      rw [ht, doCeQuarantine_off_tested hd he hc hactive (fun h => hfault (hf.2 h))]
      exact ⟨hflag, fun h => absurd h.symm Bool.false_ne_true, fun _ h => absurd h hfault,
        fun _ _ => ⟨by rw [hstr, hd], hsig⟩, hleaves⟩

end

/-- Settles O16: each command by the branches of its definition, its effect by what the state it leaves shows. -/
theorem engineFaultsAndQuarantine : Obligations.EngineFaultsAndQuarantine := by
  refine ⟨⟨fun s e code h => congrArg Host.Outcome.next (doCeFault_of_detector h), fun s e =>
      ⟨fun h => congrArg Host.Outcome.next (doItemOvertime_of_overdue h),
        fun h => congrArg Host.Outcome.next (doItemOvertime_of_timely h), congrArg Host.Outcome.next doCeFault_of_overtime⟩⟩,
    ⟨fun s e run hask halone => ⟨_, rfl, doCeReload_in_place_spec hask halone rfl⟩,
      fun s e run d hd he hgo => ⟨_, rfl, doCeReload_covered_spec hd he hgo rfl⟩⟩,
    ⟨fun s e h => ⟨_, congrArg Host.Outcome.next (doCeRetry_of_faulty h), State.reloadInPlace_shows e.isLt⟩,
      fun s e h => congrArg Host.Outcome.next (doCeRetry_of_other h)⟩,
    ⟨fun s e h => ⟨_, congrArg Host.Outcome.next (doCeQuarantine_of_cause h), State.quarantineRefused_shows e.isLt⟩,
      fun s e h hfree => ⟨_, _, congrArg Host.Outcome.next (doCeQuarantine_of_free hfree h),
        State.quarantineAsked_flag hfree e.isLt, State.quarantineAsked_standin hfree, rfl, rfl, rfl, rfl, State.quarantineAsked_records hfree, ?_⟩,
      fun s e d h hd he hactive => ⟨_, rfl, doCeQuarantine_of_active_spec h hd he hactive e.isLt rfl⟩⟩,
    fun s e h => ⟨_, congrArg Host.Outcome.next (doCeQuarantine_off_of_other h), State.quarantineCleared_flag,
      State.quarantineCleared_leaves (by simp)⟩,
    fun s e d hd he hc => ⟨_, rfl, doCeQuarantine_off_spec hd he hc Iff.rfl rfl⟩⟩
  exact ((State.Leaves.refl s _ _).quarantineNoted (by simp)).quarantineAsked hfree (fun f hf => by simp [hf]) (by simp) (by simp)
    (by simp)

end Sys2Proof.Machine
end

section
/-! PROOFS. Dispatch and completion of items (O44). -/
namespace Sys2Proof.Machine

variable {s : State} {e p seq : Nat}

/-! ### What leaves the armed injection alone -/

@[simp] theorem State.syncPail_flt : (s.syncPail p).flt = s.flt := by
  unfold State.syncPail
  split
  · rfl
  · simp only [State.putFlag_flt, State.put_flt]

@[simp] theorem State.syncPar_flt : s.syncPar.flt = s.flt := by
  unfold State.syncPar
  dsimp only
  rw [State.each_proj (g := State.flt) fun _ _ _ => State.put_flt, State.put_flt, State.put_flt]

@[simp] theorem State.syncFlow_flt {flow : Nat} : (s.syncFlow flow).flt = s.flt := by
  unfold State.syncFlow
  split
  · rfl
  · simp only [State.putFlag_flt, State.put_flt]

@[simp] theorem State.releaseDone_flt : (s.releaseDone p).flt = s.flt := by
  unfold State.releaseDone
  split
  · rfl
  · simp only [State.syncPail_flt, State.modPail_flt, State.rdAdvance, State.put_flt]

@[simp] theorem State.detect_flt {id : Nat} : (s.detect id).flt = s.flt := by rw [State.detect, State.raise_flt, State.bump_flt]

theorem State.retireBad_flt : (s.retireBad p seq).flt = s.flt := by
  rw [State.retireBad, State.raise_flt, State.bump_flt, State.releaseDone_flt, State.modItem, State.modPail_flt]

theorem State.Leaves.lateItem {t : State} {l : List (Field × Nat)} {parts : List Part} {d : TaskDesc} (hr : .regs ∈ parts)
    (hp : .par ∈ parts) (h : s.Leaves l parts t) : s.Leaves l parts (t.lateItem d) := by
  have hcounted : s.Leaves l parts ((t.bump R.PAR_LATE_CNT).raise F.PAR_EVT_LATE) := (h.bump (.inr hr)).raise (.inr hr)
  exact State.Leaves.ite _ (State.Leaves.ite _ hcounted (hcounted.tally.parTo hp)) h

theorem State.lateItem_flt {d : TaskDesc} : (s.lateItem d).flt = s.flt :=
  ((State.Leaves.refl s [] [.regs, .par]).lateItem (by simp) (by simp)).flt (by simp)

theorem State.overShare_flt {order : Nat} : (s.overShare e order).flt = s.flt := by
  unfold State.overShare
  split
  · rfl
  · split
    · rw [State.modEng_flt, State.tally_flt, State.bump_flt, State.raise_flt]
    · rfl

theorem State.eccCorrected_flt {granule : Nat} : (s.eccCorrected e granule).flt = s.flt := by
  rw [State.eccCorrected, State.tally_flt, State.raise_flt, State.bump_flt, State.detect_flt]

theorem State.serveNext_flt : (s.serveNext e).flt = s.flt := State.modEng_flt

/-! ### DISPATCH (R403, R404) -/

section
variable (hquiet : s.flt.armed = none)
include hquiet

theorem State.place_flt {q : Pail} {i : Item} : (s.place e q i).flt = s.flt := by
  rw [State.place, State.opportunity_of_quiet hquiet]
  rw [State.serveNext_flt, State.syncEngine, State.put_flt, State.syncPar_flt]
  dsimp only
  split
  · rw [State.syncFlow_flt, State.lateItem_flt, State.add64_flt, State.modPail_flt]
    rfl
  · rw [State.lateItem_flt, State.add64_flt, State.modPail_flt]
    rfl

end

/-- An engine that may take nothing takes nothing. -/
theorem State.dispatchGo_of_none {n : Nat} (h : s.pick e = none) : s.dispatchGo e (n + 1) = s := by
  simp only [State.dispatchGo, h]

section
variable {q : Pail} {i : Item} {n : Nat} (hquiet : s.flt.armed = none) (h : s.pick e = some (q, i))
include hquiet h

theorem State.dispatchGo_of_good (hok : i.task.any (fun d => taskOk q d) = true) : s.dispatchGo e (n + 1) = s.place e q i := by
  simp only [State.dispatchGo, h, State.pailRead_of_quiet hquiet, hok, Bool.false_eq_true, if_false, if_true]

theorem State.dispatchGo_of_bad (hbad : i.task.any (fun d => taskOk q d) = false) :
    s.dispatchGo e (n + 1) = (s.retireBad q.num i.seq).dispatchGo e n := by
  simp only [State.dispatchGo, h, State.pailRead_of_quiet hquiet, hbad, Bool.false_eq_true, if_false]

end

theorem State.dispatchGo_flt {n : Nat} (hquiet : s.flt.armed = none) : (s.dispatchGo e n).flt = s.flt := by
  induction n generalizing s with
  | zero => rfl
  | succ n ih =>
    cases hpick : s.pick e with
    | none => rw [State.dispatchGo_of_none hpick]
    | some b =>
      obtain ⟨q, i⟩ := b
      cases hok : i.task.any (fun d => taskOk q d) with
      | false => rw [State.dispatchGo_of_bad hquiet hpick hok, ih (State.retireBad_flt.symm ▸ hquiet), State.retireBad_flt]
      | true => rw [State.dispatchGo_of_good hquiet hpick hok, State.place_flt hquiet]

theorem State.each_overShare_flt {kinds : List KindEntry} : (s.each kinds (fun k t => t.overShare e k.order)).flt = s.flt :=
  State.each_proj fun _ _ _ => State.overShare_flt

section
variable {g : Option Nat} {u v : State} (hquiet : s.flt.armed = none)
  (hu : u = s.dispatchGo e ((s.par.pails.map (fun q => q.items.length)).sum + 1))
include hquiet hu

theorem doDispatch_of_stopped (hrun : u.runSection e = none) :
    doDispatch e g s = match g with | some g => u.eccCorrected e g | none => u := by
  have hplaced : u.flt.armed = none := by rw [hu, State.dispatchGo_flt hquiet, hquiet]
  rw [hu] at hrun hplaced ⊢
  cases g with
  | none => simp only [doDispatch, hrun, State.opportunity_of_quiet, hplaced, Bool.false_eq_true, if_false]
  | some g => simp only [doDispatch, hrun, State.opportunity_of_quiet, hplaced, State.eccCorrected_flt, Bool.false_eq_true, if_false]

theorem doDispatch_of_running {x : EngineSec} (hrun : u.runSection e = some x)
    (hv : v = u.each x.kinds (fun k t => t.overShare e k.order)) :
    doDispatch e g s = match g with | some g => v.eccCorrected e g | none => v := by
  have hplaced : v.flt.armed = none := by rw [hv, State.each_overShare_flt, hu, State.dispatchGo_flt hquiet, hquiet]
  rw [hu] at hrun hv
  rw [hv] at hplaced ⊢
  cases g with
  | none => simp only [doDispatch, hrun, State.opportunity_of_quiet, hplaced, Bool.false_eq_true, if_false]
  | some g => simp only [doDispatch, hrun, State.opportunity_of_quiet, hplaced, State.eccCorrected_flt, Bool.false_eq_true, if_false]

end

/-! ### ITEM_COMPLETE (R405) -/

/-- The ORDER of a kind among those of the section that an engine runs, 0 for one that it does not carry. -/
def State.kindOrder (s : State) (e kind : Nat) : Nat :=
  match s.runSection e with
  | some x => ((x.kinds.find? (fun k => k.kind == kind)).map KindEntry.order).getD 0
  | none => 0

theorem State.kindOrder_of_entry {kind : Nat} {x : EngineSec} {k : KindEntry} (hx : s.runSection e = some x)
    (hk : x.kinds.find? (fun k => k.kind == kind) = some k) : s.kindOrder e kind = k.order := by
  simp only [State.kindOrder, hx, hk, Option.map_some, Option.getD_some]

section
variable {use : ItemUse}

theorem doItemComplete_of_other (h : ((s.pail p).bind (fun q => q.items.find? (fun i =>
    i.seq == seq && decide (i.phase = .inService e) && !i.stuck))) = none) : doItemComplete e p seq use s = s := by
  simp only [doItemComplete, h]

theorem doItemComplete_of_item {q : Pail} {i : Item} {d : TaskDesc} {u v w : State} (hq : s.pail p = some q)
    (hi : q.items.find? (fun i => i.seq == seq && decide (i.phase = .inService e) && !i.stuck) = some i) (hd : i.task = some d)
    (hu : u = (((s.modItem p seq (fun j => { j with phase := .done })).releaseDone p).add64 R.CE_ITEMS_LO 1 e).useClocks e
      (s.kindOrder e d.kind) use.clocks)
    (hv : v = (if i.discard || s.discardsNow d then ((u.bump R.CH_DISCARD_CNT).raise F.CH_EVT_DISCARD).modChan (handleKind d.handle)
          (handleIndex d.handle) (fun c => { c with discarded := c.discarded + 1 })
        else u.giveCells e (s.kindOrder e d.kind) d.frame d.unit use.gives))
    (hw : w = v.takeCells e use.takes) :
    doItemComplete e p seq use s =
      ((((if d.flowed then w.syncFlow d.flow else w).syncPar).syncEngine e).serveNext e).showTesting e := by
  rw [hw, hv, hu]
  simp only [doItemComplete, hq, hi, hd, Option.bind_some, Option.getD_some]
  rfl

end

/-- Settles O44: a dispatch by what the Parlour picks, a completion by the item that is named. -/
theorem dispatchAndCompletion : Obligations.DispatchAndCompletion := by
  refine ⟨fun s e g hquiet => ?_, fun s e p seq use h => congrArg Host.Outcome.next (doItemComplete_of_other h),
    fun s e p seq use q i d hq hi hd => ⟨_, _, _, s.kindOrder e d.kind, fun x k hx hk => State.kindOrder_of_entry hx hk,
      rfl, rfl, rfl, congrArg Host.Outcome.next (doItemComplete_of_item hq hi hd rfl rfl rfl)⟩⟩
  cases hrun : (s.dispatchGo e ((s.par.pails.map (fun q => q.items.length)).sum + 1)).runSection e with
  | none =>
    exact ⟨_, _, rfl, State.dispatchGo_of_none, fun q i h hok => State.dispatchGo_of_good hquiet h hok,
      fun x h => absurd (hrun.symm.trans h) (Option.some_ne_none x).symm, fun _ => rfl,
      congrArg Host.Outcome.next (doDispatch_of_stopped hquiet rfl hrun)⟩
  | some x =>
    refine ⟨_, _, rfl, State.dispatchGo_of_none, fun q i h hok => State.dispatchGo_of_good hquiet h hok,
      fun y h => ?_, fun h => absurd (hrun.symm.trans h) (Option.some_ne_none x),
      congrArg Host.Outcome.next (doDispatch_of_running hquiet rfl hrun rfl)⟩
    rw [Option.some.inj (hrun.symm.trans h)]

end Sys2Proof.Machine
end
